-- ==== Sys2Proof/Word.lean ====
section
/-! DEFINITION. The word types of the node (R1 to R3, R6 to R8) and the little-endian byte strings of R2. -/

namespace Sys2Proof

abbrev Byte := BitVec 8
abbrev U16 := BitVec 16
abbrev U32 := BitVec 32
abbrev U64 := BitVec 64

/-- A Clepsydra count in drops of 10 ns, compared as an unsigned number (R6). -/
abbrev Time := BitVec 64

/-- An epoch number (R7). -/
abbrev Epoch := BitVec 32

/-- A global vector ID: shard in bits [63:32], local ID in bits [31:0] (R8). -/
abbrev GlobalId := BitVec 64

/-- The bits of an IEEE 754 binary32 value (R3). -/
abbrev F32 := BitVec 32

end Sys2Proof
end

