-- ==== Sys2Proof/Request.lean ====
section
/-! DEFINITION. What reaches the node as a request: the header fields of Table 3-1 and the link-level source. -/

namespace Sys2Proof

/-- Where a request came from (R55): an Urdun port with the frames' SRC address (R407), or a submission entry of a host function's queue pair with
the entry's TAG, RESP_ADDR and RESP_LEN (Table 18-6). Function 0 is the physical function, function n + 1 is
virtual function n (R463). -/
inductive Source where
  | port (p : Fin 8) (src : U64)
  | host (fn : Fin 17) (q : Fin 16) (tag : U32) (addr : U64) (len : U32)
  deriving DecidableEq, Repr

/-- A request header (Table 3-1) but for OPCODE, which the command itself names. `params` are bytes 41 to 59. -/
structure ReqHdr where
  flags : Byte
  hdrVer : Byte
  slice : Byte
  mapGen : U16
  index : Byte
  rsv : Byte
  reqId : U64
  epoch : Epoch
  payloadLen : U32
  deadline : Time
  replyTo : U64
  attempt : Byte
  params : List Byte
  crc : U32
  deriving DecidableEq, Repr

end Sys2Proof
end

