-- ==== Sys2Proof/Operand.lean ====
section
/-! DEFINITION. Operands of the commands other than request headers: names of units, and what a command brings
in from outside the node's logic (a measurement, the result of a decode or a self-test, bytes read from host
memory). No rule of the manual fixes those, so they are part of the command. -/

namespace Sys2Proof

/-- A Rill by its logical name (Table 10-6). -/
structure RillName where
  basin : Fin 2
  terrace : Fin 8
  runnel : Fin 16
  rill : Fin 16
  deriving DecidableEq, Repr

/-- A Runnel by its logical name. -/
structure RunnelName where
  basin : Fin 2
  terrace : Fin 8
  runnel : Fin 16
  deriving DecidableEq, Repr

/-- Where a transfer of a Rill writes: scratch of the Rill, the shared SRAM of its Runnel, the staging buffer of its Terrace, or
anything else. -/
inductive XferDest where
  | scratch (addr : Fin 65536)
  | sram (addr : Fin 524288)
  | staging (addr : Fin 2097152)
  | other
  deriving DecidableEq, Repr

/-- A transfer of an engine that ends, with the signal it carries as flag and increment, 0 for none (R267); `pc` is the address
of the operation that issued it, and `data` what it writes to scratch, to the shared SRAM or to the staging buffer. Several in one list end in one
cycle. -/
structure Signal where
  eng : Fin 5
  flag : Fin 32
  inc : Fin 256
  pc : Fin 4096
  dest : XferDest
  data : List Byte
  deriving DecidableEq, Repr

/-- What else a Rill meets in a cycle: an error of scratch or of the instruction store that is corrected or not (R260), a
corrected error of the Runnel's shared SRAM (R276), an undefined instruction or an address outside scratch, a transfer that
returns an error, with the Basin to which the bridge it needs leads (R284, R286), a transfer that uses a range address (R349), or
bytes that move between the shared SRAM and the Terrace's staging buffer (R276). -/
inductive RillEvent where
  | corrected (istore : Bool)
  | ecc (istore : Bool) (eng : Fin 5) (pc : Fin 4096)
  | sramCorrected
  | illegal (eng : Fin 5) (pc : Fin 4096)
  | netError (eng : Fin 5) (pc : Fin 4096) (via : Option (Fin 2))
  | access (eng : Fin 5) (pc : Fin 4096) (addr : U64)
  | staged (toSram : Bool) (sram : Fin 524288) (buf : Fin 2097152) (len : Fin 524289)
  deriving DecidableEq, Repr

/-- Who gives a message to a router: the SEND engine of a Rill, or a Basin's Pumphouse firmware (R278, R285). -/
inductive Sender where
  | rill (n : RillName)
  | pumphouse (basin : Fin 2)
  deriving DecidableEq, Repr

/-- A Spout (R315): Basin, controller complex, pseudo-channel, bank. -/
structure SpoutName where
  basin : Fin 2
  complex : Fin 2
  pc : Fin 16
  bank : Fin 16
  deriving DecidableEq, Repr

/-- A stack of a controller complex: plain (false) or spouting (true). -/
structure StackName where
  basin : Fin 2
  complex : Fin 2
  spouting : Bool
  deriving DecidableEq, Repr

/-- The unit a fault is charged to, by the kinds and locations of Table 19-6; kind 0 charges no unit, kind 9 a
Terrace staging buffer, network or other unit that no retirement names. `via` is the Basin of the unit or bridge
that the record also names (R509). -/
structure Charge where
  kind : Nat
  loc : Nat
  code : Nat
  via : Option (Fin 2)
  deriving DecidableEq, Repr

/-- An entry at a Weir (R167): the FP32 score, or the Hamming distance in a sketch pass; the ID; the row version; the copy
count. -/
structure WeirEntry where
  key : U32
  gid : GlobalId
  ver : U32
  copies : U32
  deriving DecidableEq, Repr

/-- What a lower-tier read brings in. -/
inductive LtTarget where
  | page (lpn : Nat)
  | array (idx : Fin 32) (h : Nat)
  deriving DecidableEq, Repr

/-- Which copy of a lower-tier read arrives (R361). -/
inductive LtCopy where
  | primary | retry | soft | around
  deriving DecidableEq, Repr

/-- A row of a stack. -/
structure DramRow where
  pc : Fin 16
  bank : Fin 16
  row : Fin 98304
  deriving DecidableEq, Repr

/-- A table of an index of which each Basin holds a copy (Table 5-1): FP32 centroids, slot table, graph, shard table. -/
inductive PoolTable where
  | centroids | slots | graph | shards
  deriving DecidableEq, Repr

/-- What a backing image is of (R353): a block array, or the table pages of an index that can no longer change. -/
inductive BackTarget where
  | array (h : Nat)
  | tables
  deriving DecidableEq, Repr

/-- A row with corrected errors in a patrol: their number, whether its bank has a repair row left, and the range pages it touches
(R366 to R368). -/
structure RowErrs where
  row : DramRow
  errors : Nat
  spare : Bool
  pages : Nat
  deriving DecidableEq, Repr

/-- The content of a failing HBM row (Table 13-4), and whether a second copy exists where the table leaves that
open. -/
inductive RowContent where
  | spill (rid : Nat)
  | replica
  | pool (idx : Fin 32) (h : Nat)
  | table (idx : Fin 32) (t : PoolTable) (page : Nat)
  | pour
  | cleanLine (lpn : Nat)
  | dirtyLine (lpn : Nat) (otherGood : Bool)
  | mirror
  deriving DecidableEq, Repr

/-- The result of one step of the decode ladder (Table 14-5) and the metadata checks of R380. -/
inductive Decode where
  | hard (bits : Nat)
  | retry
  | soft
  | failed
  | misdirected
  deriving DecidableEq, Repr

/-- A NAND array command that completes (R375): a codeword read with its decode, a program unit of a member of
a stripe row, or a block-set erase. -/
inductive NandCmd where
  | read (ppa : Nat) (res : Decode)
  | program (group row mem : Nat)
  | erase (block : Nat)
  deriving DecidableEq, Repr

/-- An array command of a NAND channel with its data transfer: one unit of service (R375). -/
inductive NandUnit where
  | read (ppa : Nat)
  | program (group row mem : Nat)
  | erase (ch lun block : Nat)
  deriving DecidableEq, Repr

/-- A media profile of the Keeper image (R374): the parameter-page identity that it matches, the interface rate above 800 MT/s, the
planes as a power of two, the spare bytes of a page, the number of read-retry levels, the feature address for temperature readout if the
part has one, the rated cycles in each cell mode, the maximum operating temperature, and its plane pairing rules by number. -/
structure MediaProfile where
  ident : Nat
  rate : Fin 1601
  planes : Fin 3
  spareBytes : Nat
  retry : Fin 17
  feature : Option Nat
  ratedTlc : Nat
  ratedSlc : Nat
  maxTemp : Int
  pairing : Nat
  deriving DecidableEq, Repr

/-- A LUN as format or bring-up finds it (R374, R397): channel and LUN, the identity in its parameter page, factory bad block sets, block
sets whose erase failed. -/
structure LunFound where
  ch : Fin 32
  lun : Fin 32
  ident : Nat
  bad : List Nat
  eraseFailed : List Nat
  deriving DecidableEq, Repr

/-- The media as format or bring-up finds them: the profiles of the Keeper image, the pages per block and block sets per LUN that the
parameter pages give, and the LUNs. -/
structure Media where
  profiles : List MediaProfile
  pages : Nat
  blocks : Nat
  luns : List LunFound
  deriving DecidableEq, Repr

/-- The measurements of one lane in a 1 ms interval (Table 15-7). -/
structure LaneMeas where
  rxOma : U16
  txOma : U16
  txBias : U16
  eyeV : Byte
  eyeH : Byte
  corrBits : U32
  corrSym : U32
  uncorr : U32
  deriving DecidableEq, Repr

/-- How a training or retraining ends (R405): which lanes failed, the partner's end and NODE, and its next LSEQ
to receive. -/
structure TrainResult where
  failed : List (Fin 36)
  partnerMap : List Nat
  partnerNode : Option Nat
  nextRx : U16
  credits : U32
  admCredits : U32
  deriving DecidableEq, Repr

/-- What a unit of service at a point other than a port does (Table 16-1): read a codeword on a NAND channel; at an HBM arbiter one
ordinary access of so many bytes or one Spout row; at the host port a packet with so many bytes of payload or a read request for so many
bytes; at a Cascade array one tile over one reduction chunk, of one array cycle more than the number. -/
inductive Job where
  | readWord (ppa : Nat)
  | access (bytes : Nat)
  | spoutRow
  | packet (payload : Nat)
  | readRequest (bytes : Nat)
  | chunk (cycles : Fin 128)
  deriving DecidableEq, Repr

/-- A unit of service that is queued at a scheduling point (R425): what it does, the request whose work it is, or for node work its
kind in Table 16-3 and the slice that it belongs to, 16 for a map page, which is of the node party. -/
structure Arrival where
  rid : Option Nat
  kind : Fin 14
  slice : Fin 17
  job : Job
  deriving DecidableEq, Repr

/-- What the Reservoir finds at a phase boundary: whether the descriptor and the retained output can be read back (R66), and which
copy of the return record is lost, if one is (R63). -/
structure Readback where
  ok : Bool
  lost : Option Bool
  deriving DecidableEq, Repr

/-- How a bring-up or restart step ends. `code` is that of RST_STATUS.FAIL_CODE. -/
inductive StepEnd where
  | ok
  | failed (code : Nat)
  deriving DecidableEq, Repr

/-- One sensor reading (Table 20-3): class as KPR_SENSOR_SEL, thermal, voltage or canary, index, and value in the units of
KPR_SENSOR. -/
structure Reading where
  cls : Fin 3
  idx : Fin 128
  value : Int
  deriving DecidableEq, Repr

/-- What the AVSBus reads of a rail (R544): the rail's place in Table 21-2, its voltage and its current. -/
structure RailRead where
  rail : Fin 41
  volts : F32
  amps : F32
  deriving DecidableEq, Repr

/-- A Terrace of a Basin. -/
structure TerraceName where
  basin : Fin 2
  terrace : Fin 8
  deriving DecidableEq, Repr

/-- The work that Pumphouse firmware dispatches to a Rill (R265): the request whose phase it is, and where in the scratch its function
sets up the ring, in units of 256 bytes, with how many slots less one (R279). -/
structure RillWork where
  rid : Nat
  ringBase : Fin 256
  ringSlots : Fin 64
  deriving DecidableEq, Repr

/-- What SPFEED carries: 32 bytes of the current block, and the run of the stack that they were read from (R329, R336). -/
structure SpFeed where
  run : Fin 262144
  data : List Byte
  deriving DecidableEq, Repr

/-- What the data bus does to the burst that SPDRAIN returns: a parity error, and the bits that it changes (R344, R345). -/
structure DrainBus where
  parity : Bool
  noise : List Byte
  deriving DecidableEq, Repr

/-- The burst that RAWRD reads, and the controller's check bits of it (R335). -/
structure RawBurst where
  data : List Byte
  check : List Byte
  deriving DecidableEq, Repr

/-- The rows in which a patrol read finds corrected errors, and whether it is the last read of the patrol (R366, R367). -/
structure PatrolRows where
  rows : List RowErrs
  last : Bool
  deriving DecidableEq, Repr

/-- How a row that fails can be mended (R367, R368): is a repair row left, and how many range pages does the row hold? -/
structure RowRepair where
  spare : Bool
  pages : Nat
  deriving DecidableEq, Repr

/-- What Keeper reads of a stack over its test port: the temperature (R364), and the runs of the rows that a test of the stack has
reserved since the last reading (R338). -/
structure TestPort where
  temp : Int
  tested : List (Fin 262144)
  deriving DecidableEq, Repr

/-- A LUN of a channel. -/
structure LunName where
  ch : Fin 32
  lun : Fin 32
  deriving DecidableEq, Repr

/-- A field of a function's configuration space that the manual names (R461, R463, Table 18-1). -/
inductive CfgField where
  | vendor | device | classCode | totalVfs | firstVf | vfStride | numVfs | vfEnable | msixSize | msixEnable | msixMask
  | payload | readReq | relaxed | power
  deriving DecidableEq, Repr

/-- The space of a function that an access of host software names: a register page of BAR0, BAR2 or configuration space (R462). -/
inductive Space where
  | bar0
  | bar2
  | config (f : CfgField)
  deriving DecidableEq, Repr

/-- Where a read goes: the space, and in BAR0 the page. -/
structure ReadPlace where
  space : Space
  page : Fin 64
  deriving DecidableEq, Repr

/-- The bytes that a read names, within its page of 16 KiB. -/
structure ReadBytes where
  off : Nat
  len : Nat
  deriving DecidableEq, Repr

end Sys2Proof
end

