-- ==== Sys2Proof/Syntax.lean ====
section
/-! DEFINITION. The commands of the node: one constructor for each row of the opcode table. -/

namespace Sys2Proof

/-- A command: a request taken whole, an operation of a bus or protocol, an access to a register, an event on a
pin or the end of something that runs by itself. -/
inductive Instr where
  /-- SEARCH: A SEARCH request, taken whole, is accepted, checked in admission order and started as its coarse, scan, re-rank and merge phases. (R127) -/
  | search (src : Source) (hdr : ReqHdr) (payload : List Byte)
  /-- SEARCH_BATCH: A SEARCH_BATCH request of 1 to 1,024 queries is accepted, checked and run as if each query were its own SEARCH. (R131) -/
  | searchBatch (src : Source) (hdr : ReqHdr) (payload : List Byte)
  /-- GATHER: A GATHER request is accepted, checked and started as coalesce and fetch phases that return rows by global ID. (R226) -/
  | gather (src : Source) (hdr : ReqHdr) (payload : List Byte)
  /-- SCATTER: A SCATTER request is accepted, checked and run as check, stage and commit phases into the epoch under construction. (R236) -/
  | scatter (src : Source) (hdr : ReqHdr) (payload : List Byte)
  /-- UPSERT: An UPSERT request is accepted and its records are checked, staged and committed to the winner ledger of U. (R203) -/
  | upsert (src : Source) (hdr : ReqHdr) (payload : List Byte)
  /-- DELETE: A DELETE request is accepted and its records are checked and committed to the winner ledger of U. (R204) -/
  | delete (src : Source) (hdr : ReqHdr) (payload : List Byte)
  /-- EPOCH_SCHEDULE_FLIP: An EPOCH_SCHEDULE with ACTION 0 arms the index's flip slot at FLIP_TIME, or answers by the first matching case. (R194) -/
  | epochScheduleFlip (src : Source) (hdr : ReqHdr) (payload : List Byte)
  /-- EPOCH_SCHEDULE_CANCEL: An EPOCH_SCHEDULE with ACTION 1 disarms the pending flip of U unless the seal has begun. (R194) -/
  | epochScheduleCancel (src : Source) (hdr : ReqHdr) (payload : List Byte)
  /-- COMPACT: A COMPACT request rebuilds the main blocks of the slots in scope from C and commits them to U. (R213) -/
  | compact (src : Source) (hdr : ReqHdr) (payload : List Byte)
  /-- JOIN_PROBE: A JOIN in MODE 0 joins a stream of probe vectors against the index through coarse, scan and exact phases. (R242) -/
  | joinProbe (src : Source) (hdr : ReqHdr) (payload : List Byte)
  /-- JOIN_SELF: A JOIN in MODE 1 joins the index with itself within a range of lists through scan and exact phases. (R243) -/
  | joinSelf (src : Source) (hdr : ReqHdr) (payload : List Byte)
  /-- CLUSTER_STEP_SUMS: A CLUSTER_STEP in SUMS mode returns ordered FP32 member sums for each UPDATE or TRIAL record. (R251) -/
  | clusterStepSums (src : Source) (hdr : ReqHdr) (payload : List Byte)
  /-- CLUSTER_STEP_APPLY: A CLUSTER_STEP in APPLY mode stages and commits centroid updates, splits and merges into U. (R253) -/
  | clusterStepApply (src : Source) (hdr : ReqHdr) (payload : List Byte)
  /-- POUR: A POUR request runs a loaded program on each sample as its own phase on the slice's Cascade arrays. (R308) -/
  | pour (src : Source) (hdr : ReqHdr) (payload : List Byte)
  /-- TOPK: A TOPK request runs one score pass per supplied row and returns the kept entries with their counts. (R178) -/
  | topk (src : Source) (hdr : ReqHdr) (payload : List Byte)
  /-- PHASE_COMPLETE: A phase of a request completes, its output is retained and the next phase is dispatched or the response is formed. (R64) -/
  | phaseComplete (rid : Nat) (readback : Readback)
  /-- PHASE_FAULT: A fault during a phase discards its partial output and re-executes the phase from the descriptor and retained output. (R65) -/
  | phaseFault (rid : Nat) (charge : Charge)
  /-- DEADLINE_ARRIVAL: When DEADLINE arrives before completion the node stops the request and sends DEADLINE_MISSED or the tier status. (R56) -/
  | deadlineArrival (rid : Nat)
  /-- RESPONSE_DROP: A response not delivered by DEADLINE + 100,000 drops is dropped and its Reservoir state freed. (R71) -/
  | responseDrop (rid : Nat)
  /-- RERANK_PART: An owner admits a re-rank part, checks it, and drops, scores and filters its candidates at the part's epoch. (R561) -/
  | rerankPart (port : Fin 8) (src : U64) (body : List Byte)
  /-- RERANK_REPLY: The scanning node receives a re-rank reply, checks it against its pending part and merges or faults the phase. (R561) -/
  | rerankReply (port : Fin 8) (src : U64) (body : List Byte)
  /-- GATHER_PART: An owner admits a gather part, checks it and returns a gather entry for each ID in part order. (R232) -/
  | gatherPart (port : Fin 8) (src : U64) (body : List Byte)
  /-- GATHER_REPLY: The accepting node receives a gather reply and checks it against its pending part. (R232) -/
  | gatherReply (port : Fin 8) (src : U64) (body : List Byte)
  /-- ADMISSION_FRAME: An admission frame carrying ACCEPT or BUSY for a message this node sent is received. (R415) -/
  | admissionFrame (port : Fin 8) (src : U64) (body : List Byte)
  /-- PART_RESEND: Every 20 µs a part answered BUSY is sent again until its DEADLINE. (R415) -/
  | partResend (token : Nat)
  /-- URDUN_FRAME: A frame arrives on a port and is checked for CRC and LSEQ, acknowledged or NACKed, and reassembled. (R413) -/
  | urdunFrame (port : Fin 8) (bytes : List Byte)
  /-- ACK: An ACK control word frees every replay-buffer frame up to its LSEQ and delivers messages whose last frame it covers. (R413) -/
  | ack (port : Fin 8) (word : List Byte)
  /-- NACK: A NACK control word makes the sender replay from the named frame. (R413) -/
  | nack (port : Fin 8) (word : List Byte)
  /-- CREDIT: A CREDIT control word grants the sender further 64-byte credits on the data buffer or admission pool. (R414) -/
  | credit (port : Fin 8) (adm : Bool) (word : List Byte)
  /-- COUNT: A COUNT control word brings the Garden's Clepsydra count word to Keeper or the receiver. (R24) -/
  | count (port : Fin 8) (word : List Byte)
  /-- ACK_TIMEOUT: When ACK_TO passes without an ACK the sender replays from the oldest unacknowledged frame. (R413) -/
  | ackTimeout (port : Fin 8)
  /-- REASSEMBLY_TIMEOUT: A partial message with no frame for REASM_TO is discarded and counted. (R411) -/
  | reassemblyTimeout (src : U64) (msgId : U32)
  /-- LANE_INTERVAL: Each 1 ms interval the node measures every lane and tests the corrected and uncorrectable sparing triggers. (R420) -/
  | laneInterval (meas : List LaneMeas)
  /-- LOSS_OF_SIGNAL: Loss of signal or FEC lock on a lane moves its port to retraining within 500 ns. (R420) -/
  | lossOfSignal (lane : Fin 36) (signal : Bool)
  /-- PORT_TRAINING_DONE: A port training or retraining ends and the port resumes, retires a lane, falls to x2 or goes down. (R405) -/
  | portTrainingDone (port : Fin 8) (res : TrainResult)
  /-- PORT_RETRAIN: A write of 1 to URD_PORT_CTRL.RETRAIN retrains the port with its map unchanged. (R405) -/
  | portRetrain
  /-- SPARE_REQ: A write of 1 to URD_LANE_STATUS.SPARE_REQ retires the lane as a lasting trigger and retrains the port. (R420) -/
  | spareReq
  /-- REF_LOST: A reference with no rising edge for 100 ns is judged lost and the node switches reference or enters HOLDOVER. (R25) -/
  | refLost (useB : Bool)
  /-- REF_FREQ_INTERVAL: At the end of each 1 ms measurement a reference more than 100 ppm from 100 MHz is judged lost. (R25) -/
  | refFreqInterval (useB : Bool) (hz : Nat)
  /-- REF_GOOD_INTERVAL: After each 100,000 edges of a lost reference a clean interval counts toward 16 that judge it good again. (R25) -/
  | refGoodInterval (useB : Bool) (gap : Bool) (hz : Nat)
  /-- SYNC_PULSE: A sync pulse marks a count multiple of 100,000, loads a pending count word and advances lock judgements. (R23) -/
  | syncPulse (pulseB : Bool) (phasePs : U16)
  /-- SYNC_TIMEOUT: No sync pulse within 1,000,050 ns of the previous one judges the sync pair lost. (R25) -/
  | syncTimeout (pairB : Bool)
  /-- KEEPER_COUNT_WORD: Each sync interval Keeper forms a count word from agreeing COUNT words, or its own count, and passes it to the receiver. (R24) -/
  | keeperCountWord
  /-- ACQUIRE_TIMEOUT: A lock not achieved within 50 ms of the load returns the node from ACQUIRE to FREE. (R27) -/
  | acquireTimeout
  /-- HOLDOVER_LIMIT: After CLEP_HOLD_MAX drops in HOLDOVER the node enters FREE. (R29) -/
  | holdoverLimit
  /-- HEARTBEAT_CHECK: At each firing of slot 0 or 1 Keeper compares the Basin's heartbeat SEQ and counts misses. (R503) -/
  | heartbeatCheck (slot : Fin 2)
  /-- EPOCH_FLIP: The flip slot fires: U becomes current, the oldest epoch drains, U + 1 opens and waiting requests start. (R198) -/
  | epochFlip (slot : Nat)
  /-- GATE_TAKEOVER: A gate-takeover slot fires and the pending gate list becomes active with window 0 beginning. (R435) -/
  | gateTakeover (slot : Nat)
  /-- MAP_SWITCH: A map-switch slot fires and the pending slice map becomes the map in force with its generation. (R445) -/
  | mapSwitch (slot : Nat)
  /-- SEAL_BEGIN: At T − SEAL, U is sealed against commits and U's inflow entries are placed from the winner ledger. (R197) -/
  | sealBegin (idx : Fin 32)
  /-- DRAIN_END: A draining epoch stops draining at DRAIN_END and its versions are freed once no request sees them. (R188) -/
  | drainEnd (idx : Fin 32)
  /-- BATCH_WINDOW_CLOSE: A list's batch window closes on WINDOW drops, 256 queries or a near deadline, and is dispatched. (R143) -/
  | batchWindowClose (idx : Fin 32) (slot : Nat)
  /-- WATERLINE_EXCHANGE_RUNNEL: Every 64 cycles Rill heaps and the Runnel Weir exchange local waterlines. (R147) -/
  | waterlineExchangeRunnel (terrace : TerraceName) (runnel : Fin 16)
  /-- WATERLINE_EXCHANGE_HEADWORKS: Every 1 µs Runnel Weirs, Headworks and the Spouts exchange shared waterlines. (R147) -/
  | waterlineExchangeHeadworks
  /-- WEIR_PASS: A Weir pass takes one row, collapses equal IDs and keeps the best entries with their counts. (R169) -/
  | weirPass (lane : Option (Fin 16)) (rid : Nat) (sketch : Bool) (keep : Nat) (ents : List WeirEntry)
  /-- RILL_DISPATCH: Pumphouse firmware dispatches work to a Rill once every operand it names is resident. (R265) -/
  | rillDispatch (rill : RillName) (work : RillWork)
  /-- RILL_IMAGE_LOAD: Pumphouse loads a microprogram image into an idle Rill, clearing its flags and barriers. (R264) -/
  | rillImageLoad (rill : RillName) (func : Fin 9)
  /-- RILL_TRANSFER_DONE: A Rill transfer's last byte is written and its signal is applied to the named flag. (R267) -/
  | rillTransferDone (rill : RillName) (sigs : List Signal) (evs : List RillEvent)
  /-- RILL_WAIT: An engine's wait on a flag is satisfied when the count reaches the threshold, which is then subtracted. (R269) -/
  | rillWait (rill : RillName) (eng : Fin 5) (flag : Fin 32) (n : Fin 256) (pc : Fin 4096)
  /-- FLAG_TIMEOUT: A wait still unsatisfied after WAIT_TIMEOUT cycles faults the Rill with FLAG_TIMEOUT. (R270) -/
  | flagTimeout (rill : RillName) (eng : Fin 5)
  /-- STALL: An engine unable to issue for WAIT_TIMEOUT cycles faults the Rill with STALL. (R271) -/
  | stall (rill : RillName) (eng : Fin 5) (pc : Fin 4096)
  /-- BARRIER_ARRIVE: An engine arrives at a barrier, which is released when the last engine of its mask arrives. (R272) -/
  | barrierArrive (rill : RillName) (eng : Fin 5) (num : Fin 4) (mask : Fin 32) (pc : Fin 4096)
  /-- BARRIER_TIMEOUT: A barrier unreleased WAIT_TIMEOUT cycles after its first arrival faults the Rill. (R274) -/
  | barrierTimeout (rill : RillName) (num : Fin 4)
  /-- MAILBOX_SEND: A SEND engine gives a message to the router, which buffers it or refuses it when full. (R280) -/
  | mailboxSend (sender : Sender) (hdr : List Byte) (payload : List Byte) (pc : Fin 4096)
  /-- MESSAGE_DELIVERY: The router writes a held message into a free ring slot and signals the destination flag. (R279) -/
  | messageDelivery (runnel : RunnelName) (pos : Nat)
  /-- RING_SLOT_RELEASE: The receiving engine releases a ring slot, returning it to the router within 4 cycles. (R279) -/
  | ringSlotRelease (rill : RillName)
  /-- BRIDGE_FLIT_ERROR: A flit failing its CRC is replayed, and after 16 replays the link is retrained or goes down. (R284) -/
  | bridgeFlitError (link : Fin 4) (first : Bool)
  /-- PUMPHOUSE_HEARTBEAT: Pumphouse firmware writes a new heartbeat SEQ every 50 µs of Clepsydra time. (R503) -/
  | pumphouseHeartbeat (basin : Fin 2) (seq : U32)
  /-- SPACT: SPACT opens a row of a precharged bank for its Spout. (R321) -/
  | spact (sp : SpoutName) (row : U16)
  /-- SPSEG: SPSEG reads one 256-byte segment of the open row through on-die ECC into the Spout. (R321) -/
  | spseg (sp : SpoutName) (seg : Fin 4) (data : List Byte) (uncorrectable : Bool) (parity : Bool)
  /-- SPPRE: SPPRE closes the row that SPACT opened. (R321) -/
  | sppre (sp : SpoutName)
  /-- SPLOAD: SPLOAD loads a 96-byte context record and marks the context active. (R322) -/
  | spload (sp : SpoutName) (ctx : Fin 8) (rec : List Byte) (query : Option (Nat × Nat))
  /-- SPWL: SPWL replaces the waterline bytes of a context at the end of the command. (R326) -/
  | spwl (sp : SpoutName) (ctx : Fin 8) (burst : List Byte)
  /-- SPBLK: SPBLK names the next block's start and starts a sequence after SPCLR or SPEND. (R321) -/
  | spblk (sp : SpoutName) (start : Fin 1024)
  /-- SPFEED: SPFEED supplies the next 32 bytes of the current block from the data bus. (R329) -/
  | spfeed (sp : SpoutName) (feed : SpFeed)
  /-- SPDRAIN: SPDRAIN returns the next two pass records from the Spout's FIFO. (R323) -/
  | spdrain (sp : SpoutName) (bus : DrainBus)
  /-- SPSTAT: SPSTAT returns the Spout status record with FIFO count, error bits and counters. (R324) -/
  | spstat (sp : SpoutName)
  /-- SPCLR: SPCLR clears the Spout's contexts, FIFO and counters. (R321) -/
  | spclr (sp : SpoutName)
  /-- SPEND: SPEND ends a Spout sequence, keeping the contexts loaded. (R321) -/
  | spend (sp : SpoutName)
  /-- RAWRD: RAWRD reads a burst with on-die correction bypassed and returns the controller's check bits. (R335) -/
  | rawrd (sp : SpoutName) (column : Fin 32) (burst : RawBurst)
  /-- REFRESH_DUE: A refresh falls due; it is issued, postponed, or forces Spout sequences to stop for refresh. (R333) -/
  | refreshDue (stack : StackName) (pc : Fin 16) (waits : List Nat)
  /-- SCRUB_RUN: At SCRUB_RATE the controller scrubs the next sealed run in on-die mode and clears its seal bit. (R337) -/
  | scrubRun (basin : Fin 2) (complex : Fin 2)
  /-- MIGRATION_INTERVAL: At the end of each INTERVAL Pumphouse chooses list migrations by thin share and resets the counts. (R340) -/
  | migrationInterval (basin : Fin 2)
  /-- MIGRATION_COPY_DONE: A migration's copy and read-back complete and the translation switches between two dispatches. (R341) -/
  | migrationCopyDone (idx : Fin 32) (slot : Nat) (same : Bool)
  /-- HBM_PATROL: The controller reads every burst once per PATROL_H hours and rewrites corrected bursts. (R366) -/
  | hbmPatrol (stack : StackName) (ondie : Nat) (ctrl : List (List Byte)) (part : PatrolRows)
  /-- HBM_UNCORRECTABLE_READ: An uncorrectable HBM read is re-read and, if lasting, the row is repaired and restored from its second copy. (R367) -/
  | hbmUncorrectableRead (stack : StackName) (rid : Nat) (row : DramRow) (recurs : Bool) (repair : RowRepair) (content : RowContent)
  /-- LANE_REMAP: Errors concentrated on one data lane remap it to a redundant lane and retrain the pseudo-channel. (R369) -/
  | laneRemap (stack : StackName) (pc : Fin 16) (pages : Nat)
  /-- HBM_TEMP_READ: Every 1 ms the controller reads each stack's temperature through the test port. (R364) -/
  | hbmTempRead (stack : StackName) (port : TestPort)
  /-- LOWER_TIER_READ_DONE: The first good copy of a lower-tier read becomes resident and waiting phases are dispatched. (R361) -/
  | lowerTierReadDone (target : LtTarget) (copy : LtCopy) (good : Bool)
  /-- READ_AROUND_START: After LATE_US, an uncorrectable primary or a failed LUN, the node reads the page's stripe around it. (R361) -/
  | readAroundStart (target : LtTarget)
  /-- DEMOTION: While a slice is below DEMOTE_FLOOR_GIB the node demotes backed, superseded block-array pages. (R354) -/
  | demotion (slice : Fin 16) (basin : Fin 2)
  /-- PAGE_CLEAN: The Cistern program of a dirty page and its parity complete and one HBM copy is dropped. (R357) -/
  | pageClean (lpn : Nat)
  /-- BACKING_IMAGE_WRITE: A Basin-pool page whose content can no longer change is written to the Cistern in packed form. (R353) -/
  | backingImageWrite (idx : Fin 32) (what : BackTarget)
  /-- NAND_COMMAND_DONE: A NAND array command with its data transfer completes on a channel. (R375) -/
  | nandCommandDone (ch : Fin 32) (lun : Fin 32) (cmd : NandCmd)
  /-- READ_SUSPEND: A read finding its LUN busy suspends the erase or program up to SUSPEND_MAX times. (R382) -/
  | readSuspend (ch : Fin 32) (lun : Fin 32)
  /-- LUN_TIMEOUT: A LUN exceeding the profile's maximum time plus 1 ms is reset and the command issued again. (R392) -/
  | lunTimeout (ch : Fin 32) (lun : Fin 32)
  /-- PROGRAM_FAILURE: A program failure marks the block set bad and rewrites the row's dirty pages to a new row. (R393) -/
  | programFailure (ch : Fin 32) (lun : Fin 32) (block : Nat)
  /-- ERASE_FAILURE: An erase failure marks the block set bad. (R393) -/
  | eraseFailure (ch : Fin 32) (lun : Fin 32) (block : Nat)
  /-- STRIPE_CLOSE: STRIPE_CLOSE_MS after a row's first codeword the row is filled with filler and programmed. (R385) -/
  | stripeClose (stream : Fin 5)
  /-- RECLAIM: With free block sets below 2 percent the Cistern relocates a group's valid codewords and erases it. (R391) -/
  | reclaim
  /-- CISTERN_PATROL: Once per PATROL_DAYS each programmed wordline is read and block sets above threshold are scheduled. (R389) -/
  | cisternPatrol (above : List Nat) (reads : Nat)
  /-- RELOCATION_SWITCH: When a relocated copy is clean its map entry switches if it still names the old PPA, or the copy is discarded. (R390) -/
  | relocationSwitch (lpn : Nat) (old : Nat)
  /-- LUN_REBUILD: A retired LUN's block sets are rebuilt from their stripes into stream 4. (R394) -/
  | lunRebuild (lun : LunName) (failed : List Nat)
  /-- LUN_TEMP_READ: Every second the Cistern reads the highest LUN temperature and throttles programs near the maximum. (R399) -/
  | lunTempRead (ch : Fin 32) (lun : Fin 32) (temp : Int)
  /-- SYSTEM_AREA_WRITE: Every 10 minutes the Cistern writes four copies of the system area. (R398) -/
  | systemAreaWrite
  /-- UNIT_BOUNDARY: At each boundary between units a scheduling point chooses the next unit by party and class tags. (R431) -/
  | unitBoundary (pt : Fin 185) (arrivals : List Arrival)
  /-- CREDIT_REFILL: Every 1 µs each class bucket's credit rises toward its limit. (R432) -/
  | creditRefill
  /-- GATE_WINDOW_END: A gate window's duration ends and the next window of the active list begins. (R433) -/
  | gateWindowEnd (pt : Fin 185)
  /-- SLUICE_PARITY_ERROR: A parity error in a point's tag or credit store resets its virtual time, tags and credits. (R437) -/
  | sluiceParityError (pt : Fin 185)
  /-- RESOURCE_RELEASE: A resource moved by a map switch is released to its new slice once quiesced. (R450) -/
  | resourceRelease
  /-- DRAIN_MAX_EXPIRY: Old requests still holding a moving resource at T + DRAIN_MAX end with STALE_MAP. (R451) -/
  | drainMaxExpiry
  /-- REPLICA_PULL_DONE: A replica copied to a Terrace that lacked it completes and the waiting phase is dispatched. (R452) -/
  | replicaPullDone (terrace : Fin 16) (obj : Nat)
  /-- GRANULE_PAGES_MOVED: The pages of a leaving HBM granule have all moved to granules the slice keeps. (R453) -/
  | granulePagesMoved (basin : Fin 2) (kind : Fin 2)
  /-- COALESCER_WINDOW_FREE: A coalescer window closes and a request waiting for one takes it. (R235) -/
  | coalescerWindowFree (rid : Nat)
  /-- SQ_TAIL_DOORBELL: A write of a new SQ tail starts the node fetching and checking the submission entries. (R475) -/
  | sqTailDoorbell (fn : Fin 17) (q : Fin 16) (tail : U32) (entries : List (List Byte))
  /-- HOST_REQUEST_FETCH: The request bytes read from host memory arrive and the request is admitted or answered BUSY. (R475) -/
  | hostRequestFetch (fn : Fin 17) (q : Fin 16) (data : Option (List Byte))
  /-- CQ_HEAD_DOORBELL: A write of a new CQ head frees completion entries, letting owed completions be written. (R476) -/
  | cqHeadDoorbell (fn : Fin 17) (q : Fin 16) (head : U32)
  /-- MSIX_COALESCE_TIMEOUT: COAL_US after the first unannounced entry the CQ's vector is sent. (R478) -/
  | msixCoalesceTimeout (fn : Fin 17) (q : Fin 16)
  /-- QUEUE_CONFIG_WRITE: A write to HQ_SQ_CFG or HQ_CQ_CFG enables, disables or reconfigures a queue, restarting it on enable. (R473) -/
  | queueConfigWrite (fn : Fin 17) (page : Fin 64) (off : Nat) (val : U64)
  /-- FUNCTION_LEVEL_RESET: A Function Level Reset resets the host-port state of one function, or all functions for the physical function. (R482) -/
  | functionLevelReset (fn : Fin 17)
  /-- HOT_RESET: A hot reset or link-down resets the host-port state of every function. (R482) -/
  | hotReset
  /-- HOST_COMMIT_GO: A write of 1 to GO evaluates the whole staged configuration and installs it at one drop or refuses it. (R471) -/
  | hostCommitGo
  /-- HOST_COMMIT_DISCARD: A write of 1 to DISCARD returns every staged value to its committed value. (R472) -/
  | hostCommitDiscard
  /-- REG_READ_LATCH: A 32-bit read of bytes 0 to 3 latches bytes 4 to 7 of the register for the reading function. (R467) -/
  | regReadLatch (fn : Fin 17) (place : ReadPlace) (bytes : ReadBytes)
  /-- REGISTER_WRITE: A write to a register without a row of its own is applied by field access type or dropped and counted. (R468) -/
  | registerWrite (fn : Fin 17) (space : Space) (page : Fin 64) (off : Nat) (bytes : List Byte)
  /-- DIP_FILL_START: A write to DIP_CTRL or DIP_ADDR, or movement into another block, clears READY and starts a fill. (R480) -/
  | dipFillStart (fn : Fin 17) (off : Nat) (val : U64)
  /-- DIP_FILL_DONE: A Dipper fill completes and READY becomes 1, or ERR is set on failure. (R480) -/
  | dipFillDone (fn : Fin 17) (data : Option (List Byte)) (code : Byte)
  /-- DIP_DATA_READ: A read of DIP_DATA returns 8 bytes, or 0 while not ready, and advances DIP_ADDR under AUTO. (R480) -/
  | dipDataRead (fn : Fin 17)
  /-- DIP_DATA_WRITE: A write of DIP_DATA stages a path or route table entry and advances DIP_ADDR under AUTO. (R479) -/
  | dipDataWrite (fn : Fin 17) (val : U64)
  /-- DIP_BURST_READ: A read of the DIP_BURST window returns block bytes and at offset 0x1FF8 advances DIP_ADDR under AUTO. (R480) -/
  | dipBurstRead (fn : Fin 17) (off : Nat) (len : Nat)
  /-- DIP_BURST_WRITE: A write of the DIP_BURST window stages table entries in the block. (R479) -/
  | dipBurstWrite (fn : Fin 17) (off : Nat) (bytes : List Byte)
  /-- INDEX_CREATE: A commit with IDX_CFG.ACTION 1 sets STATE 1, reserves a flip slot and starts the index load. (R121) -/
  | indexCreate (idx : Fin 32)
  /-- INDEX_LOAD_DONE: The image has been read, checked and built and the index becomes ready, or the load fails. (R122) -/
  | indexLoadDone (idx : Fin 32) (image : Option (List Byte))
  /-- INDEX_DESTROY: A commit with IDX_CFG.ACTION 2 sets STATE 3 and cancels the index's pending flips. (R125) -/
  | indexDestroy (idx : Fin 32)
  /-- INDEX_DESTROY_DONE: When the index's last request has responded every object and route entry is freed and STATE becomes 0. (R125) -/
  | indexDestroyDone (idx : Fin 32)
  /-- PROGRAM_LOAD: A commit with POUR_CFG.ACTION 1 sets STATE 1 and starts loading the program image. (R306) -/
  | programLoad (slot : Fin 8)
  /-- PROGRAM_LOAD_DONE: The program's replicas and skip maps are built and the slot becomes ready, or the load fails. (R306) -/
  | programLoadDone (slot : Fin 8) (image : Option (List Byte))
  /-- PROGRAM_REMOVE: A commit with POUR_CFG.ACTION 2 sets the program slot draining. (R307) -/
  | programRemove (slot : Fin 8)
  /-- PROGRAM_REMOVE_DONE: When the last POUR using the program has responded its replicas are freed and STATE becomes 0. (R307) -/
  | programRemoveDone (slot : Fin 8)
  /-- GATE_LIST_INSTALL: A commit with SLU_GATE_CTRL.ACTION 1 installs the pending gate list and arms its takeover slot. (R434) -/
  | gateListInstall (pt : Fin 185)
  /-- GATE_LIST_CANCEL: A commit with SLU_GATE_CTRL.ACTION 2 cancels the pending gate list and frees its slot. (R434) -/
  | gateListCancel (pt : Fin 185)
  /-- SLICE_MAP_INSTALL: A commit with SLC_CTRL.ACTION 1 installs the staged map as pending or switches it at once. (R444) -/
  | sliceMapInstall
  /-- SLICE_MAP_CANCEL: A commit with SLC_CTRL.ACTION 2 cancels the pending map and frees its slot. (R444) -/
  | sliceMapCancel
  /-- CISTERN_FORMAT: A commit with CIST_FMT.ACTION 1 and KEY 0xC157 starts formatting the media set. (R397) -/
  | cisternFormat
  /-- FORMAT_DONE: The format ends with the system area written, or fails with a reason. (R397) -/
  | formatDone (media : Media) (areaOk : Bool)
  /-- FW_STAGE: A commit with KPR_FW_CFG.ACTION 1 starts reading, verifying and writing a bundle to staging area S. (R535) -/
  | fwStage
  /-- FW_STAGE_DONE: Staging ends in state staged or failed with LAST_ERR. (R535) -/
  | fwStageDone (bundle : Option (List Byte)) (written : Bool)
  /-- FW_CANCEL: A commit with KPR_FW_CFG.ACTION 2 marks S empty. (R535) -/
  | fwCancel
  /-- FW_RAISE_SVN: A commit with KPR_FW_CFG.ACTION 3 raises the fused security version to the active bundle's SVN. (R537) -/
  | fwRaiseSvn
  /-- INJECT_WEIR_PARITY: WEIR_CTRL.INJECT corrupts one stored key's parity in the next pass of the named lane, once. (R183) -/
  | injectWeirParity (lane : Fin 16)
  /-- INJECT_RILL_TIMEOUT: RILL_INJECT.TIMEOUT makes the selected Rill's next flag wait time out, once. (R270) -/
  | injectRillTimeout
  /-- INJECT_RILL_SCR_ECC: RILL_INJECT.SCR_ECC makes the selected Rill's next scratch read uncorrectable, once. (R260) -/
  | injectRillScrEcc
  /-- INJECT_CASC_RESIDUE: CASC_INJECT.RESIDUE corrupts one accumulator residue of the named column at the next chunk end. (R312) -/
  | injectCascResidue (col : Fin 64)
  /-- INJECT_SPOUT_CHECK: SPOUT_INJECT.CHECK corrupts CHECK of the next pass record drained from the selected Spout. (R344) -/
  | injectSpoutCheck
  /-- INJECT_MEM_SLOW: MEM_INJECT.SLOW withholds the next primary Cistern read until LATE_US has passed. (R361) -/
  | injectMemSlow
  /-- INJECT_MEM_UE: MEM_INJECT.UE makes the next read of the selected stack uncorrectable, once. (R367) -/
  | injectMemUe
  /-- INJECT_CIST_UE: CIST_INJECT.UE makes the next read of the selected LUN fail every step of the ladder, once. (R381) -/
  | injectCistUe
  /-- INJECT_CIST_HIGH: CIST_INJECT.HIGH makes the next step-1 read report C corrected bits, scheduling a rewrite. (R389) -/
  | injectCistHigh
  /-- INJECT_CIST_TIMEOUT: CIST_INJECT.TIMEOUT makes the next command to the selected LUN time out, once. (R392) -/
  | injectCistTimeout
  /-- INJECT_LANE_LOS: URD_INJECT.LANE_LOS makes the selected lane report loss of signal once. (R420) -/
  | injectLaneLos
  /-- INJECT_URD_CRC: URD_INJECT.CRC corrupts the CRC of the next frame sent on the selected port. (R413) -/
  | injectUrdCrc
  /-- PWROK_RISE: PWROK rising after power-on starts a reset at the power-on level subject to MEM_VALID. (R486) -/
  | pwrokRise (rails : List RailRead)
  /-- PWROK_FALL: PWROK falling puts the stacks into self-refresh and records whether memory may be kept. (R489) -/
  | pwrokFall
  /-- RESET_N_FALL: RESET_N low for 100 ns or longer starts a reset at its fused level. (R488) -/
  | resetNFall (long : Bool)
  /-- RESET_N_RISE: RESET_N rising ends the reset once 10 µs have passed, setting SHORT_PULSE if earlier. (R488) -/
  | resetNRise
  /-- RESET_HOLD_END: 10 µs after the reset began the minimum hold expires and the reset ends if RESET_N is high. (R488) -/
  | resetHoldEnd
  /-- STANDBY_POWER_UP: The standby supply comes up, the Keeper page takes reset values and Keeper boots. (R512) -/
  | standbyPowerUp
  /-- BRINGUP_STEP_DONE: A bring-up step completes and the next begins, updating NS_STATE.PHASE. (R494) -/
  | bringupStepDone (basin : Option (Fin 2)) (ohms : Nat) (media : Option Media) (res : StepEnd)
  /-- BRINGUP_STEP_LIMIT: A bring-up step that exceeds its limit is repeated once, then fails bring-up or holds a Basin out. (R494) -/
  | bringupStepLimit (basin : Option (Fin 2))
  /-- RESTART_STEP_DONE: A domain restart step completes and the next begins. (R505) -/
  | restartStepDone (basin : Fin 2) (res : StepEnd)
  /-- RESTART_LIMIT: RESTART_LIMIT_MS passing before step 6 ends starts the restart again from step 1. (R505) -/
  | restartLimit (basin : Fin 2)
  /-- RESTART_BASIN: A write of 1 to RST_CTRL.RESTART_Bb starts a domain restart of Basin b and clears its count. (R507) -/
  | restartBasin (basin : Fin 2)
  /-- INJECT_HANG: RST_INJECT.HANG_Bb stops the Basin's heartbeat until its restart. (R504) -/
  | injectHang (basin : Fin 2)
  /-- PUMPHOUSE_RESTART_REQUEST: A Basin's Pumphouse firmware requests a domain restart of its Basin. (R504) -/
  | pumphouseRestartRequest (basin : Fin 2)
  /-- SENSOR_SAMPLE: Every 10 µs Keeper reads the sensors and regulator telemetry and updates their histories. (R516) -/
  | sensorSample (readings : List Reading) (rails : List RailRead)
  /-- CONTROL_INTERVAL: Every 20 µs Keeper forms each region's cap and moves each region one point toward its target. (R522) -/
  | controlInterval
  /-- HOLD_CLOCK_STOP: 100 µs after a hold the region's clock stops and unfinished phases are re-executed elsewhere. (R525) -/
  | holdClockStop (terrace : Fin 16) (rids : List Nat)
  /-- THROTTLE_N_FALL: THROTTLE_N low halves every Terrace clock within 1 µs. (R545) -/
  | throttleNFall (long : Bool)
  /-- FAST_THROTTLE_END: With the input released and no sample above PL1_W for 100 µs the clock halving ends. (R524) -/
  | fastThrottleEnd
  /-- ADVISORY_HOUR: Each hour Keeper records worst values, fits trends and raises advisories that cross their limits. (R531) -/
  | advisoryHour (last : List Reading)
  /-- LOG_FLUSH: Keeper writes buffered log entries to flash within 100 ms, erasing the sector ahead. (R530) -/
  | logFlush
  /-- REG_READ: The SMBus REG_READ command returns a register of pages 0x00, 0x01, 0x12 or 0x13. (R514) -/
  | regRead (page : Byte) (off : U16)
  /-- LOG_READ: The SMBus LOG_READ command returns the log entry with the given SEQ. (R514) -/
  | logRead (seq : U32)
  /-- BUNDLE_CHUNK: The SMBus BUNDLE_CHUNK command delivers bundle bytes at an offset to the boot ROM or staging. (R514) -/
  | bundleChunk (off : U32) (bytes : List Byte)
  /-- BUNDLE_END: The SMBus BUNDLE_END command verifies the delivered bundle and boots or stages it. (R514) -/
  | bundleEnd (len : U32) (written : Bool)
  /-- AUTH_NONCE: AUTH_NONCE returns a fresh nonce and invalidates the previous one. (R515) -/
  | authNonce
  /-- AUTH_OPEN_DEBUG: An authenticated command 1 opens debug access until the next reset when the strap allows it. (R515) -/
  | authOpenDebug (sig : List Byte)
  /-- AUTH_BLOW_PWROK_LEVEL: An authenticated command 2 blows the power-on reset level fuse to its other level. (R487) -/
  | authBlowPwrokLevel (sig : List Byte)
  /-- AUTH_BLOW_RESETN_LEVEL: An authenticated command 3 blows the RESET_N reset level fuse to its other level. (R487) -/
  | authBlowResetnLevel (sig : List Byte)
  /-- AUTH_RAISE_SVN: An authenticated command 4 raises the fused security version to the active bundle's SVN. (R537) -/
  | authRaiseSvn (sig : List Byte)
  /-- INJECT_HOT: KPR_INJECT.HOT makes Terrace INJ_T read TJ_TARGET for the next control interval. (R521) -/
  | injectHot (t : Fin 16)
  /-- REFERENCE_EDGE: Each rising edge of the reference in use (or of the local reference clock in FREE) ends one drop and increments the Clepsydra count by 1. (R22) -/
  | referenceEdge
  /-- SIGNAL_DETECT: Signal is detected on the lanes of a down port, and the port starts training again. (R405) -/
  | signalDetect (port : Fin 8)
  /-- BRIDGE_RETRAIN_DONE: The single retraining of a die bridge ends: the bridge is up again, or it goes down and its Basin restarts. (R284) -/
  | bridgeRetrainDone (link : Fin 4) (ok : Bool)
  /-- PSEUDO_CHANNEL_RETRAIN_DONE: Retraining of a pseudo-channel after a lane remap completes and the held accesses are served. (R369) -/
  | pseudoChannelRetrainDone (stack : StackName) (pc : Fin 16)
  /-- CHANNEL_RETRAIN_DONE: The single retrain of a NAND channel ends, and its LUNs return to service or are retired. (R392) -/
  | channelRetrainDone (ch : Fin 32) (ok : Bool)
  /-- COMMIT_DONE: A commit's evaluation ends within 2 ms of GO: values are installed or refused, BUSY clears, SEQ rises, COMMIT_DONE is set, and a pending GO or DISCARD is taken. (R471) -/
  | commitDone
  /-- DIP_FILL_LATE: A Dipper fill of a flash-homed page that has not completed within 10 ms sets ERR with TIER_LATE. (R480) -/
  | dipFillLate (fn : Fin 17)
  /-- STANDBY_POWER_LOSS: The standby supply is lost, and Keeper loses its buffered information and advisory log entries and its domain state. (R530) -/
  | standbyPowerLoss
  deriving DecidableEq, Repr

end Sys2Proof
end

