-- ==== Sys2Proof/Machine/Bits.lean ====
section
/-! DEFINITION. Bit fields of registers (R1), little-endian fields of records (R2) and the counters that
wrap or saturate. -/

namespace Sys2Proof.Machine

/-- Bits [lsb + len - 1 : lsb] of a number (R1). -/
def bitsOf (w lsb len : Nat) : Nat := (w >>> lsb) % 2 ^ len

/-- The field of a register at [lsb + len - 1 : lsb]. -/
def field (w : U64) (lsb len : Nat) : Nat := bitsOf w.toNat lsb len

/-- Bit `i` of a register as a truth value. -/
def bit (w : U64) (i : Nat) : Bool := w.getLsbD i

/-- A mask of `len` ones starting at bit `lsb`. -/
def maskOf (lsb len : Nat) : U64 := BitVec.ofNat 64 ((2 ^ len - 1) <<< lsb)

/-- A register with the field at [lsb + len - 1 : lsb] replaced. -/
def setField (w : U64) (lsb len v : Nat) : U64 :=
  (w &&& ~~~ maskOf lsb len) ||| BitVec.ofNat 64 ((v % 2 ^ len) <<< lsb)

/-- A register value with fields set: lowest bit, width, value. -/
def packFields (w : U64) (fs : List (Nat × Nat × Nat)) : U64 :=
  fs.foldl (fun (v : U64) f => setField v f.1 f.2.1 f.2.2) w

/-- A register value of nothing but the given fields. -/
def fieldsOf (fs : List (Nat × Nat × Nat)) : U64 := packFields 0 fs

/-- 1 for true, 0 for false. -/
def b2n (b : Bool) : Nat := if b then 1 else 0

/-- The `n` bytes of a number, lowest first (R2). -/
def leBytes : Nat → Nat → List Byte
  | 0, _ => []
  | n + 1, v => BitVec.ofNat 8 v :: leBytes n (v / 256)

/-- The number a byte string holds, lowest byte first (R2). -/
def leNat : List Byte → Nat
  | [] => 0
  | b :: bs => b.toNat + 256 * leNat bs

/-- The little-endian number in `len` bytes at offset `off` of a byte string. -/
def leAt (bs : List Byte) (off len : Nat) : Nat := leNat ((bs.drop off).take len)

/-- Byte `i` of a byte string, 0 beyond its end. -/
def byteAt (bs : List Byte) (i : Nat) : Nat := (bs.getD i 0).toNat

/-- A byte string of `n` zero bytes. -/
def zeroBytes (n : Nat) : List Byte := List.replicate n 0

/-- The value as a two's complement number of `w` bits (R3). -/
def signedOf (w v : Nat) : Int := if v < 2 ^ (w - 1) then (v : Int) else (v : Int) - (2 ^ w : Nat)

/-- Addition that stops at the largest `w`-bit value (counters marked "saturates"). -/
def satAdd (w a n : Nat) : Nat := min (a + n) (2 ^ w - 1)

/-- A list padded with `d`, or cut, to length `n`. -/
def padTo {α : Type} (d : α) (n : Nat) (l : List α) : List α := (l ++ List.replicate (n - l.length) d).take n

/-- Split a list into pieces of `n` elements; the fuel is the list's own length. -/
def chunksAux {α : Type} (n : Nat) : Nat → List α → List (List α)
  | 0, _ => []
  | _ + 1, [] => []
  | f + 1, l => l.take n :: chunksAux n f (l.drop n)

/-- The pieces of `n` elements of a list, in order. -/
def chunks {α : Type} (n : Nat) (l : List α) : List (List α) := chunksAux n l.length l

/-- The list with the element at position `i` replaced by `f` of it. -/
def modifyAt {α : Type} (l : List α) (i : Nat) (f : α → α) : List α := l.modify i f

/-- A quotient rounded to the nearest whole number, and to the even one of two that are as near (R3). -/
def nearest (a b : Nat) : Nat :=
  let q := a / b
  let r := 2 * (a % b)
  if b < r ∨ (r = b ∧ q % 2 = 1) then q + 1 else q

/-- Sum of a list of numbers. -/
def sumNat (l : List Nat) : Nat := l.foldl (· + ·) 0

end Sys2Proof.Machine
end

