-- ==== Sys2Proof/Machine/Float.lean ====
section
/-! DEFINITION. IEEE 754 binary32 arithmetic with one rounding to nearest even per operation and subnormals
kept (R3, R72), and the saturating form of score formation (R73). -/

namespace Sys2Proof.Machine

/-- Positive infinity. -/
def fInf : F32 := 0x7F800000
/-- A quiet NaN; the manual gives no NaN a payload and returns none. -/
def fNaN : F32 := 0x7FC00000
/-- Positive zero. -/
def fZero : F32 := 0
/-- The largest finite value (R73). -/
def fMax : F32 := 0x7F7FFFFF
/-- Negative infinity, the score of the empty entry (R10). -/
def fNegInf : F32 := 0xFF800000

/-- The sign bit. -/
def fSign (a : F32) : Bool := a.getLsbD 31
/-- The bits below the sign. -/
def fMag (a : F32) : Nat := a.toNat % 0x80000000
/-- Neither an infinity nor a NaN. -/
def fFinite (a : F32) : Bool := fMag a < 0x7F800000
/-- A NaN. -/
def fIsNaN (a : F32) : Bool := 0x7F800000 < fMag a
/-- +0.0 or −0.0. -/
def fIsZero (a : F32) : Bool := fMag a == 0
/-- The value with the sign bit changed. -/
def fNeg (a : F32) : F32 := a ^^^ 0x80000000
/-- The magnitude of a value. -/
def fAbs (a : F32) : F32 := a &&& 0x7FFFFFFF

/-- The integer significand of a finite value. -/
def fMant (a : F32) : Nat :=
  let m := fMag a
  if m < 0x800000 then m else m % 0x800000 + 0x800000
/-- The exponent of two that goes with `fMant`. -/
def fExp (a : F32) : Int :=
  let m := fMag a
  if m < 0x800000 then -149 else ((m / 0x800000 : Nat) : Int) - 150

/-- Bits of a magnitude, with the sign put in front. -/
def fPack (neg : Bool) (mag : Nat) : F32 := BitVec.ofNat 32 (if neg then mag + 0x80000000 else mag)

/-- A number divided by `2 ^ sh`, rounded to nearest even; `sticky` says that the number is a little more
than written. -/
def shiftRne (m sh : Nat) (sticky : Bool) : Nat :=
  if sh = 0 then m
  else
    let q := m / 2 ^ sh
    let r := m % 2 ^ sh
    let h := 2 ^ (sh - 1)
    if h < r || (r == h && (sticky || q % 2 == 1)) then q + 1 else q

/-- The binary32 value nearest to `± m · 2 ^ e` (R72); `sticky` says that the exact magnitude lies a little
above. Magnitudes past the largest finite value become infinite. -/
def fRound (neg : Bool) (m : Nat) (e : Int) (sticky : Bool) : F32 :=
  if m = 0 then fPack neg 0
  else
    let q : Int := max (e + (Nat.log2 m : Int) - 23) (-149)
    let s : Int := q - e
    let m' := if s ≤ 0 then m * 2 ^ (-s).toNat else shiftRne m s.toNat sticky
    fPack neg (min ((q + 149).toNat * 0x800000 + m') 0x7F800000)

/-- fl(a + b). -/
def fAdd (a b : F32) : F32 :=
  if fIsNaN a || fIsNaN b then fNaN
  else if !fFinite a then (if !fFinite b && fSign a != fSign b then fNaN else a)
  else if !fFinite b then b
  else
    let e := min (fExp a) (fExp b)
    let v (x : F32) : Int :=
      let m : Int := ((fMant x * 2 ^ (fExp x - e).toNat : Nat) : Int)
      if fSign x then -m else m
    let s := v a + v b
    if s = 0 then fPack (fSign a && fSign b) 0 else fRound (s < 0) s.natAbs e false

/-- fl(a − b). -/
def fSub (a b : F32) : F32 := fAdd a (fNeg b)

/-- fl(a × b). -/
def fMul (a b : F32) : F32 :=
  let neg := fSign a != fSign b
  if fIsNaN a || fIsNaN b then fNaN
  else if !fFinite a || !fFinite b then (if fIsZero a || fIsZero b then fNaN else fPack neg 0x7F800000)
  else fRound neg (fMant a * fMant b) (fExp a + fExp b) false

/-- fl(a ÷ b). -/
def fDiv (a b : F32) : F32 :=
  let neg := fSign a != fSign b
  if fIsNaN a || fIsNaN b then fNaN
  else if !fFinite a then (if !fFinite b then fNaN else fPack neg 0x7F800000)
  else if !fFinite b then fPack neg 0
  else if fIsZero b then (if fIsZero a then fNaN else fPack neg 0x7F800000)
  else
    let n := fMant a * 2 ^ 64
    fRound neg (n / fMant b) (fExp a - fExp b - 64) (n % fMant b != 0)

/-- The integer square root, one bit at a time from bit `i`. -/
def isqrtAux : Nat → Nat → Nat → Nat
  | 0, _, r => r
  | i + 1, n, r => if (r + 2 ^ i) * (r + 2 ^ i) ≤ n then isqrtAux i n (r + 2 ^ i) else isqrtAux i n r

/-- fl(√a). -/
def fSqrt (a : F32) : F32 :=
  if fIsNaN a then fNaN
  else if fIsZero a then a
  else if fSign a then fNaN
  else if !fFinite a then a
  else
    let odd : Nat := (fExp a % 2).toNat
    let n := fMant a * 2 ^ (odd + 60)
    let r := isqrtAux 48 n 0
    fRound false r ((fExp a - odd - 60) / 2) (r * r != n)

/-- f32(n) of a signed integer. -/
def fOfInt (n : Int) : F32 := fRound (n < 0) n.natAbs 0 false

/-- rint(a) of a finite value: nearest integer, ties to even. -/
def fRint (a : F32) : Int :=
  let m := if 0 ≤ fExp a then fMant a * 2 ^ (fExp a).toNat else shiftRne (fMant a) (-(fExp a)).toNat false
  if fSign a then -(m : Int) else (m : Int)

/-- clamp(n, lo, hi) of Table 4-1. -/
def clampInt (n lo hi : Int) : Int := if n < lo then lo else if hi < n then hi else n

/-- An infinite result of score formation becomes the largest finite value of its sign (R73). -/
def fSat (a : F32) : F32 := if a = fInf then fMax else if a = fNegInf then fNeg fMax else a

/-- The score key of R90: unsigned, greater for a greater score, equal for the two zeros. -/
def scoreKey (s : F32) : Nat :=
  let b := if s = 0x80000000 then 0 else s.toNat
  if b < 0x80000000 then b + 0x80000000 else 0xFFFFFFFF - b

/-- a < b as numbers. -/
def fLt (a b : F32) : Bool := scoreKey a < scoreKey b

end Sys2Proof.Machine
end

