-- ==== Sys2Proof/Machine/Arith.lean ====
section
/-! DEFINITION. The arithmetic of scores (chapter "Arithmetic and scores", R74 to R92): queries, rows, norms,
score formation, sketches and sort keys. -/

namespace Sys2Proof.Machine

/-- Metrics of an index (Table 5-10). -/
inductive Metric where
  | ip | cosine | euclid
  deriving DecidableEq, Repr

/-- Row codes of an index (Table 5-10). -/
inductive RowCode where
  | int8 | int4
  deriving DecidableEq, Repr

/-- A quantized query (R75 to R77). -/
structure Query where
  codes : List Int
  scale : F32
  norm : F32
  zero : Bool
  deriving DecidableEq, Repr

/-- A row with its header (R78 to R82, Table 5-6). -/
structure Row where
  scale : F32
  norm : F32
  zpt : Nat
  codes : List Nat
  nodeQuant : Bool
  version : Epoch
  tag : U64
  deriving DecidableEq, Repr

/-- The 32-bit elements of a byte string. -/
def f32Elems (bs : List Byte) : List F32 := (chunks 4 bs).map (fun c => BitVec.ofNat 32 (leNat c))

/-- The elements of a BF16 byte string, each with 16 zero bits appended below (R74). -/
def bf16Elems (bs : List Byte) : List F32 := (chunks 2 bs).map (fun c => BitVec.ofNat 32 (leNat c * 65536))

/-- Σ of a list of integers. -/
def sumInt (l : List Int) : Int := l.foldl (· + ·) 0

/-- The largest magnitude of a list of finite values (pass 1 of R75). -/
def maxAbs (xs : List F32) : F32 := xs.foldl (fun m x => if fMag m < fMag x then fAbs x else m) fZero

/-- The norm of R77 and R82: fl(√ fl(fl(s × s) × f32(Σ a²))). -/
def normOf (s : F32) (as : List Int) : F32 := fSqrt (fMul (fMul s s) (fOfInt (sumInt (as.map (fun a => a * a)))))

/-- The query codes of R75 for a scale that is not zero. -/
def queryCodes (s : F32) (xs : List F32) : List Int := xs.map (fun x => clampInt (fRint (fDiv x s)) (-127) 127)

/-- Quantize a query (R75 to R77). -/
def quantizeQuery (xs : List F32) : Query :=
  let s := fDiv (maxAbs xs) (fOfInt 127)
  if fIsZero s then { codes := xs.map (fun _ => 0), scale := fZero, norm := fZero, zero := true }
  else
    let cs := queryCodes s xs
    { codes := cs, scale := s, norm := normOf s cs, zero := false }

/-- A query whose elements and norm are finite (R74, R77). -/
def queryOk (xs : List F32) : Bool := xs.all fFinite && fFinite (quantizeQuery xs).norm

/-- The largest code of a row code: Q of R84. -/
def RowCode.q : RowCode → Nat
  | .int8 => 255
  | .int4 => 15

/-- The operands a_i = u_i − z of a row (R78, R79). -/
def rowOperands (zpt : Nat) (us : List Nat) : List Int := us.map (fun u => (u : Int) - (zpt : Int))

/-- The bytes of a row's codes (R78, R79). -/
def packCodes (c : RowCode) (us : List Nat) : List Byte :=
  match c with
  | .int8 => us.map (BitVec.ofNat 8)
  | .int4 => (chunks 2 us).map (fun p => BitVec.ofNat 8 (p.getD 0 0 + 16 * p.getD 1 0))

/-- The codes that code bytes hold. -/
def unpackCodes (c : RowCode) (bs : List Byte) : List Nat :=
  match c with
  | .int8 => bs.map BitVec.toNat
  | .int4 => bs.flatMap (fun b => [b.toNat % 16, b.toNat / 16])

/-- A row given as scale, zero point (signed 16 bits) and codes; none on a condition of Table 4-2. -/
def rowOfCodes (c : RowCode) (rs : F32) (z : Int) (us : List Nat) (v : Epoch) (tag : U64) : Option Row :=
  let rs := if rs = 0x80000000 then fZero else rs
  if !fFinite rs || fSign rs || z < 0 || (c.q : Int) < z then none
  else
    let rn := normOf rs (rowOperands z.toNat us)
    if fFinite rn then
      some { scale := rs, norm := rn, zpt := z.toNat, codes := us, nodeQuant := false, version := v, tag := tag }
    else none

/-- Quantize a row from FP32 elements (R84); none where R83 refuses it. -/
def quantizeRow (c : RowCode) (xs : List F32) (v : Epoch) (tag : U64) : Option Row :=
  if !xs.all fFinite then none
  else
    let lo := xs.foldl (fun m x => if fLt x m then x else m) fZero
    let hi := xs.foldl (fun m x => if fLt m x then x else m) fZero
    let flat : Row := ⟨fZero, fZero, 0, xs.map (fun _ => 0), true, v, tag⟩
    if scoreKey hi = scoreKey lo then some flat
    else
      let w := fSub hi lo
      if !fFinite w then none
      else
        let rs := fDiv w (fOfInt c.q)
        if fIsZero rs then some flat
        else
          let z := clampInt (fRint (fDiv (fNeg lo) rs)) 0 c.q
          let us := xs.map (fun x => (clampInt (fRint (fDiv x rs) + z) 0 c.q).toNat)
          (rowOfCodes c rs z us v tag).map (fun r => { r with nodeQuant := true })

/-- The row's operands. -/
def Row.operands (r : Row) : List Int := rowOperands r.zpt r.codes

/-- The accumulator of R85. -/
def dotInt (cs as : List Int) : Int := sumInt (List.zipWith (· * ·) cs as)

/-- Score formation (Table 4-3), every step rounded and saturating. -/
def formScore (m : Metric) (qs qn rs rn : F32) (acc : Int) : F32 :=
  let ip := fSat (fMul (fSat (fMul qs rs)) (fOfInt acc))
  match m with
  | .ip => ip
  | .cosine =>
    let den := fSat (fMul qn rn)
    if fIsZero den then fZero else fSat (fDiv ip den)
  | .euclid =>
    let t3 := fSat (fAdd (fSat (fMul qn qn)) (fSat (fMul rn rn)))
    fNeg (fSat (fSub t3 (fSat (fMul (fOfInt 2) ip))))

/-- The score of a query against a row (R85, R86). -/
def scoreRow (m : Metric) (q : Query) (r : Row) : F32 :=
  formScore m q.scale q.norm r.scale r.norm (dotInt q.codes r.operands)

/-- The sketch of a vector of integers under a projection (R88), bit j in bit j of the number. -/
def sketchOf (proj : List (List Int)) (vs : List Int) : Nat :=
  proj.foldr (fun row acc => b2n (0 < dotInt vs row) + 2 * acc) 0

/-- The sketch of a stored row: all zero when its scale is +0.0 (R88). -/
def sketchOfRow (proj : List (List Int)) (r : Row) : Nat :=
  if fIsZero r.scale then 0 else sketchOf proj r.operands

/-- Number of ones in the lowest `n` bits. -/
def popcount : Nat → Nat → Nat
  | 0, _ => 0
  | n + 1, v => v % 2 + popcount n (v / 2)

/-- The Hamming distance of two sketches (R89); no sketch is wider than 512 bits. -/
def hamming (a b : Nat) : Nat := popcount 512 (a ^^^ b)

/-- The global ID of "no entry" (R10). -/
def emptyGid : GlobalId := 0xFFFFFFFFFFFFFFFF

/-- Bits that complement a global ID in a sort key (R90). -/
def gidKey (g : GlobalId) : Nat := 0xFFFFFFFFFFFFFFFF - g.toNat

/-- The 96-bit sort key of an entry (R90). -/
def entryKey (s : F32) (g : GlobalId) : Nat := scoreKey s * 2 ^ 64 + gidKey g

/-- The 74-bit sort key of a sketch entry at Hamming distance `h` (R90). -/
def sketchKey (h : Nat) (g : GlobalId) : Nat := (512 - h) * 2 ^ 64 + gidKey g

/-- A scored entry: global ID, score and row version (R59). -/
structure Entry where
  gid : GlobalId
  score : F32
  version : Epoch
  deriving DecidableEq, Repr

/-- The empty result entry (R10). -/
def emptyEntry : Entry := { gid := emptyGid, score := fNegInf, version := 0 }

/-- The sort key of an entry (R90). -/
def Entry.key (e : Entry) : Nat := entryKey e.score e.gid

/-- A sketch candidate: Hamming distance and global ID (R89). -/
structure Cand where
  ham : Nat
  gid : GlobalId
  deriving DecidableEq, Repr

/-- The sort key of a sketch candidate (R90). -/
def Cand.key (c : Cand) : Nat := sketchKey c.ham c.gid

/-- Insert into a list ordered by falling key. -/
def insertBy {α : Type} (key : α → Nat) (x : α) : List α → List α
  | [] => [x]
  | y :: ys => if key y < key x then x :: y :: ys else y :: insertBy key x ys

/-- A list in node order (R12): falling key, earlier first among equal keys. -/
def sortBy {α : Type} (key : α → Nat) (l : List α) : List α := l.foldl (fun acc x => insertBy key x acc) []

/-- One copy of each global ID, the first in list order (R12: copies of one ID are the same entry). -/
def dedupBy {α : Type} (gid : α → GlobalId) : List α → List α
  | [] => []
  | x :: xs => x :: (dedupBy gid xs).filter (fun y => gid y != gid x)

/-- The 16 bytes of a result entry (R59). -/
def Entry.bytes (e : Entry) : List Byte :=
  leBytes 8 e.gid.toNat ++ leBytes 4 e.score.toNat ++ leBytes 4 e.version.toNat

end Sys2Proof.Machine
end

