-- ==== Sys2Proof/Machine/Store.lean ====
section
/-! DEFINITION. Sparse tables with one canonical form: keys strictly rising and no entry equal to what an
unlisted key reads as. -/

namespace Sys2Proof.Machine

/-- A table: number and value, keys strictly rising. -/
abbrev Store (α : Type) := List (Nat × α)

/-- The value listed at a key. -/
def Store.find? {α : Type} : Store α → Nat → Option α
  | [], _ => none
  | (k', v) :: t, k => if k' = k then some v else Store.find? t k

/-- The value at a key, where an unlisted key `k` reads `d k`. -/
def Store.get {α : Type} (d : Nat → α) (st : Store α) (k : Nat) : α := (Store.find? st k).getD (d k)

/-- The table without a key. -/
def Store.erase {α : Type} (st : Store α) (k : Nat) : Store α := st.filter (fun p => p.1 != k)

/-- The table with a key set, in rising order. -/
def Store.insert {α : Type} : Store α → Nat → α → Store α
  | [], k, v => [(k, v)]
  | (k', v') :: t, k, v =>
    if k < k' then (k, v) :: (k', v') :: t
    else if k = k' then (k, v) :: t
    else (k', v') :: Store.insert t k v

/-- Writing the value that an unlisted key reads as removes the entry. -/
def Store.put {α : Type} [DecidableEq α] (d : Nat → α) (st : Store α) (k : Nat) (v : α) : Store α :=
  if v = d k then Store.erase st k else Store.insert st k v

/-- The table with the value at a listed key changed; an unlisted key stays unlisted. -/
def Store.adjust {α : Type} (st : Store α) (k : Nat) (f : α → α) : Store α :=
  match Store.find? st k with
  | some v => Store.insert st k (f v)
  | none => st

/-- The listed values in key order. -/
def Store.vals {α : Type} (st : Store α) : List α := st.map Prod.snd

/-- The listed keys in rising order. -/
def Store.keys {α : Type} (st : Store α) : List Nat := st.map Prod.fst

/-- Keys strictly rise. -/
abbrev Store.Sorted {α : Type} (st : Store α) : Prop := (Store.keys st).Pairwise (· < ·)

/-- The canonical form: keys strictly rise and no entry equals what an unlisted key reads as. -/
abbrev Store.Wf {α : Type} (d : Nat → α) (st : Store α) : Prop :=
  Store.Sorted st ∧ ∀ p ∈ st, p.2 ≠ d p.1

end Sys2Proof.Machine
end

