-- ==== Sys2Proof/Machine/IndexTypes.lean ====
section
/-! DEFINITION. The objects of an index as plain data (chapters "Index objects and their formats" and "Epochs,
updates and compaction"). -/

namespace Sys2Proof.Machine

/-- The descriptor of an index, fixed when it is created (R118, Tables 5-10 and 5-11). -/
structure IdxDesc where
  metric : Metric
  code : RowCode
  width : Nat
  dim : Nat
  slice : Nat
  place : Nat
  spout : Bool
  listCap : Nat
  rowCap : Nat
  shard : U32
  deriving DecidableEq, Repr

/-- Slot states (R97). -/
inductive SlotState where
  | free | live | retired
  deriving DecidableEq, Repr

/-- A slot table entry (Table 5-2): `main` and `chain` name block arrays by the model's own handles, 0 being
no main block. -/
structure SlotEnt where
  st : SlotState
  gen : Nat
  basin : Nat
  stack : Nat
  main : Nat
  chain : List Nat
  epochLive : Epoch
  epochRetired : Epoch
  deriving DecidableEq, Repr

/-- The entry of a slot that has never held a list (R97). -/
def SlotEnt.none : SlotEnt where
  st := .free
  gen := 0
  basin := 0
  stack := 0
  main := 0
  chain := []
  epochLive := 0
  epochRetired := 0

/-- One entry of a sketch block (Table 5-3): sketch, local ID, shard index, and the sequence number of an
inflow entry. -/
structure BlkEnt where
  sketch : Nat
  lid : U32
  sidx : Nat
  seq : U64
  deriving DecidableEq, Repr

/-- An array of main blocks, or one inflow block: the entries in their order, the owning slot and its
generation, and the stamp (Table 5-3). Its range pages, which hold no block of another list, are those from `first` on, as the
index numbers the pages that its block arrays have taken (R339). -/
structure BlkArr where
  inflow : Bool
  slot : Nat
  gen : Nat
  stamp : Epoch
  basin : Nat
  stack : Nat
  ents : List BlkEnt
  first : Nat
  deriving DecidableEq, Repr

/-- A row directory entry (Table 5-5): the row by the model's handle, the slots with their generations,
generation 0 meaning none. -/
structure DirEnt where
  valid : Bool
  row : Nat
  prim : Nat
  primGen : Nat
  ovf : Nat
  ovfGen : Nat
  deriving DecidableEq, Repr

/-- The directory entry of a local ID that has no row. -/
def DirEnt.none : DirEnt where
  valid := false
  row := 0
  prim := 0
  primGen := 0
  ovf := 0
  ovfGen := 0

/-- A record of a write as it contends for its local ID (R208). -/
structure WriteRec where
  lid : Nat
  seq : U64
  row : Option Row
  sketch : Nat
  prim : Nat
  ovf : Option Nat
  deriving DecidableEq, Repr

/-- A winning record of the ledger of U (R208). -/
structure Winner where
  seq : U64
  del : Bool
  row : Nat
  sketch : Nat
  prim : Nat
  ovf : Option Nat
  deriving DecidableEq, Repr

/-- The versions of one record, newest first, each with its stamp (R99). -/
abbrev Versions (α : Type) := List (Epoch × α)

/-- A versioned table: for each record number its versions. An unlisted record has its creation value. -/
abbrev VTable (α : Type) := Store (Versions α)

/-- The COMPACT or CLUSTER_STEP committed in U (R215): its parameters and payload and the response it got. -/
structure StructRec where
  opcode : Nat
  params : List Byte
  payload : List Byte
  count : Nat
  result : List Byte
  deriving DecidableEq, Repr

/-- A pending flip of U (R194, R197): its instant and the SEAL length in force when it was scheduled. -/
structure Flip where
  time : Time
  len : Nat
  deriving DecidableEq, Repr

/-- STATE of an index that is not absent (Table 5-12). -/
inductive IdxState where
  | loading | ready | draining
  deriving DecidableEq, Repr

/-- One index: descriptor, tables, blocks, rows and epoch state (Table 5-1, R186). `rowLoc` holds the LOCATOR of each row, in
units of 64 bytes (R114); `ownVer` holds, for each page of the owner tables, the page of the owner-table region in which each
of its versions lies (R99, R349), and `pages`, for each page of its tables in HBM, the page of the index's part of a Basin pool in
which each of its versions lies. A page listed in neither has the one version stamped with the creation epoch (R122). -/
structure Index where
  desc : IdxDesc
  state : IdxState
  shards : List U32 := []
  proj : List (List Int) := []
  entry : Nat := 0
  centF : VTable (List F32) := []
  centQ : VTable (Option Row) := []
  slots : VTable SlotEnt := []
  graph : VTable (List (Nat × Nat)) := []
  dir : VTable DirEnt := []
  tomb : VTable Bool := []
  arrs : Store BlkArr := []
  rows : Store Row := []
  rowLoc : Store Nat := []
  fill : Store (Nat × Nat) := []
  nextPage : Nat := 0
  ownVer : VTable Nat := []
  nextOwn : Nat := 0
  nextRange : Nat := 0
  pages : VTable Nat := []
  nextTab : Nat := 0
  nextH : Nat := 1
  created : Epoch := 0
  cur : Epoch := 0
  live : Nat := 0
  drainEnd : Option Time := none
  flip : Option Flip := none
  sealed : Bool := false
  lastFlip : Time := 0
  ledger : Store Winner := []
  ledgerRecs : Nat := 0
  moved : List (Nat × List Nat) := []
  struct : Option StructRec := none
  flipSlot : Nat := 0
  deriving DecidableEq, Repr

/-- U, the epoch under construction (R186). -/
def Index.u (x : Index) : Epoch := x.cur + 1

end Sys2Proof.Machine
end

