-- ==== Sys2Proof/Machine/IndexOps.lean ====
section
/-! DEFINITION. Reading and writing the versioned objects of an index (R99 to R101), the centroid order (R133 to
R140), the scan of a list (R141 to R142), the owner's work on a candidate (R154 to R156) and the assignment of
rows to slots (R207). -/

namespace Sys2Proof.Machine

/-! ### Epochs and versions -/

/-- (a − b) mod 2^32. -/
def epochDist (a b : Epoch) : Nat := (a - b).toNat

/-- The named epoch `n` is later than the held epoch `h` (R7, named against held). -/
def namedLater (n h : Epoch) : Bool := 1 ≤ epochDist n h && epochDist n h ≤ 0x7FFFFFFF

/-- The held stamp is not later than the held epoch `e`, measured back from U (R7, held against held). -/
def heldNotLater (u stamp e : Epoch) : Bool := epochDist u e ≤ epochDist u stamp

/-- The version a reader at epoch `e` sees: the latest stamp not later than `e` (R99). -/
def Versions.at {α : Type} (u e : Epoch) : Versions α → Option α
  | [] => none
  | (s, v) :: t => if heldNotLater u s e then some v else Versions.at u e t

/-- Read a versioned record at epoch `e`; `d` is what every record held at creation. -/
def VTable.read {α : Type} (u e : Epoch) (d : α) (t : VTable α) (k : Nat) : α :=
  match Store.find? t k with
  | some vs => (Versions.at u e vs).getD d
  | none => d

/-- Write a record for U: the version stamped U is replaced, or a new one is put in front (R99). -/
def VTable.write {α : Type} (u : Epoch) (t : VTable α) (k : Nat) (v : α) : VTable α :=
  match Store.find? t k with
  | some ((s, old) :: vs) => Store.insert t k (if s = u then (u, v) :: vs else (u, v) :: (s, old) :: vs)
  | _ => Store.insert t k [(u, v)]

/-- A write to a page makes its version stamped U when it has none yet; `base` are the versions of an unlisted page (R99). -/
def VTable.touch {α : Type} (u : Epoch) (base : Versions α) (t : VTable α) (k : Nat) (v : α) : VTable α :=
  let vs := (Store.find? t k).getD base
  if vs.head?.map Prod.fst = some u then t else Store.insert t k ((u, v) :: vs)

/-- The versions that one of the epochs `es` sees (R100). -/
def Versions.keep {α : Type} (u : Epoch) (es : List Epoch) (vs : Versions α) : Versions α :=
  let seen (e : Epoch) : Option Epoch := Versions.at u e (vs.map (fun p => (p.1, p.1)))
  vs.filter (fun p => es.any (fun e => seen e == some p.1))

/-- Free the versions no epoch of `es` sees (R100). -/
def VTable.prune {α : Type} (u : Epoch) (es : List Epoch) (t : VTable α) : VTable α :=
  t.map (fun p => (p.1, Versions.keep u es p.2))

/-- The epochs for which state is kept: the live ones, the draining one and U (R100, R188). -/
def Index.heldEpochs (x : Index) : List Epoch :=
  x.u :: (List.range (x.live + b2n x.drainEnd.isSome)).map (fun i => x.cur - BitVec.ofNat 32 i)

/-- Is `e` live (R186)? -/
def Index.isLive (x : Index) (e : Epoch) : Bool := epochDist x.cur e < x.live

/-- Is `e` the draining epoch (R188)? -/
def Index.isDraining (x : Index) (e : Epoch) : Bool := x.drainEnd.isSome && epochDist x.cur e == x.live

/-- The pages in which record `k` of a table lies whose records take `n` bytes. -/
def recPages (n k : Nat) : List Nat := (List.range ((k * n % 4096 + n + 4095) / 4096)).map (fun j => k * n / 4096 + j)

/-- Bytes of a record of a table of an index: 0 FP32 centroids, 1 slot table, 2 graph, 3 quantized centroids (R103 to R106). -/
def IdxDesc.tableRec (d : IdxDesc) (t : Nat) : Nat :=
  if t = 0 then 4 * d.dim else if t = 1 then 64 else if t = 2 then 128 else 64 * ((d.dim + 24 + 63) / 64)

/-- The number under which `Index.pages` lists page `pg` of table `t`. -/
def pageKey (t pg : Nat) : Nat := 8 * pg + t

/-- The pages of table `n` of which records have been written in U. -/
def freshPages {α : Type} (u : Epoch) (d : IdxDesc) (n : Nat) (t : VTable α) : List Nat :=
  (t.flatMap (fun p => if p.2.head?.map Prod.fst = some u then (recPages (d.tableRec n) p.1).map (pageKey n) else [])).dedup

/-- Pages of a table of an index: 0 to 3 as in `tableRec`, 4 the sketch projection, 5 the shard table (R88, R96, R103 to R106). -/
def IdxDesc.tabPages (d : IdxDesc) (t : Nat) : Nat :=
  ((if t < 4 then d.listCap * d.tableRec t else if t = 4 then d.width * d.dim else 16384) + 4095) / 4096

/-- Pages of the tables before table `t`. -/
def IdxDesc.tabBase (d : IdxDesc) (t : Nat) : Nat := sumNat ((List.range t).map d.tabPages)

/-- A version of a table page that is stamped U is made when U has none yet (R99): it takes the next page after those of the creation
versions, which lie in the order of the tables (DESIGN CHOICE, log 10). -/
def Index.touchTab (x : Index) (k : Nat) : Index :=
  let base := x.desc.tabBase (k % 8) + k / 8
  let t := VTable.touch x.u [(x.created, base)] x.pages k (x.desc.tabBase 6 + x.nextTab)
  if (Store.find? x.pages k).bind List.head? = (Store.find? t k).bind List.head? then x
  else { x with pages := t, nextTab := x.nextTab + 1 }

/-- The index with the versions noted that writes to U have made of its table pages (R99). -/
def Index.notePages (x : Index) : Index :=
  (freshPages x.u x.desc 0 x.centF ++ freshPages x.u x.desc 1 x.slots ++ freshPages x.u x.desc 2 x.graph ++
    freshPages x.u x.desc 3 x.centQ).foldl Index.touchTab x

/-- The slot table entry epoch `e` sees. -/
def Index.slotAt (x : Index) (e : Epoch) (s : Nat) : SlotEnt := VTable.read x.u e SlotEnt.none x.slots s

/-- The directory entry epoch `e` sees (R114). -/
def Index.dirAt (x : Index) (e : Epoch) (l : Nat) : DirEnt := VTable.read x.u e DirEnt.none x.dir l

/-- The tombstone bit epoch `e` sees (R115). -/
def Index.tombAt (x : Index) (e : Epoch) (l : Nat) : Bool := VTable.read x.u e false x.tomb l

/-- The quantized centroid record epoch `e` sees (R104). -/
def Index.centAt (x : Index) (e : Epoch) (s : Nat) : Option Row := VTable.read x.u e none x.centQ s

/-- The graph record epoch `e` sees (R106). -/
def Index.edgesAt (x : Index) (e : Epoch) (s : Nat) : List (Nat × Nat) := VTable.read x.u e [] x.graph s

/-- The slots that are live at epoch `e`, in ascending order. -/
def Index.liveSlots (x : Index) (e : Epoch) : List Nat :=
  (Store.keys x.slots).filter (fun s => (x.slotAt e s).st == .live)

/-- Flat index or graph index (R107). -/
def Index.isGraph (x : Index) : Bool := 65536 < x.desc.listCap

/-- The row of a local ID that is present at epoch `e` (R154, R229). -/
def Index.rowAt (x : Index) (e : Epoch) (l : Nat) : Option Row :=
  let d := x.dirAt e l
  if d.valid && !x.tombAt e l then Store.find? x.rows d.row else none

/-- The shard number and local ID of a global ID (R8). -/
def gidShard (g : GlobalId) : U32 := BitVec.ofNat 32 (g.toNat / 2 ^ 32)
/-- The local ID (R8). -/
def gidLocal (g : GlobalId) : Nat := g.toNat % 2 ^ 32
/-- The global ID of a shard and a local ID. -/
def mkGid (shard : U32) (l : Nat) : GlobalId := BitVec.ofNat 64 (shard.toNat * 2 ^ 32 + l)

/-- The global ID of a block entry (R109). -/
def Index.entGid (x : Index) (b : BlkEnt) : GlobalId := mkGid (x.shards.getD b.sidx 0) b.lid.toNat

/-! ### Centroid order -/

/-- Score of a row-shaped query (scale, norm, codes) against slot `s` at epoch `e` (R91, R207). -/
def Index.centScore (x : Index) (e : Epoch) (q : Query) (s : Nat) : F32 :=
  match x.centAt e s with
  | some c => scoreRow x.desc.metric q c
  | none => fNegInf

/-- A slot with its centroid score. -/
abbrev SlotScore := Nat × F32

/-- The sort key of a slot: its score, then its number (R133). -/
def slotKey (p : SlotScore) : Nat := entryKey p.2 (BitVec.ofNat 64 p.1)

/-- The walk's state (R136). -/
structure Walk where
  cand : List SlotScore
  res : List SlotScore
  seen : List Nat
  visits : Nat
  stale : Nat
  deriving DecidableEq, Repr

/-- visit(t) of R136. -/
def Index.visit (x : Index) (e : Epoch) (q : Query) (b : Nat) (w : Walk) (t : Nat) : Walk :=
  let p := (t, x.centScore e q t)
  let res := if (x.slotAt e t).st == .live then (insertBy slotKey p w.res).take b else w.res
  { w with cand := insertBy slotKey p w.cand, res := res, seen := t :: w.seen, visits := w.visits + 1 }

/-- The edges of one expansion, up to the visit limit (R137, R138). -/
def Index.expand (x : Index) (e : Epoch) (q : Query) (b : Nat) : List (Nat × Nat) → Walk → Walk
  | [], w => w
  | (t, g) :: es, w =>
    if 64 * b ≤ w.visits then w
    else
      let c := x.slotAt e t
      if c.gen != g || c.st == .free then Index.expand x e q b es { w with stale := w.stale + 1 }
      else if w.seen.contains t then Index.expand x e q b es w
      else Index.expand x e q b es (x.visit e q b w t)

/-- The walk of R136, one expansion per unit of fuel. -/
def Index.walk (x : Index) (e : Epoch) (q : Query) (b : Nat) : Nat → Walk → Walk
  | 0, w => w
  | f + 1, w =>
    match w.cand with
    | [] => w
    | c :: rest =>
      if 64 * b ≤ w.visits then w
      else
        let stop := match w.res.getLast? with
          | some l => decide (b ≤ w.res.length) && decide (slotKey c < slotKey l)
          | none => false
        if stop then w
        else Index.walk x e q b f (x.expand e q b (x.edgesAt e c.1) { w with cand := rest })

/-- The whole walk with beam `b` from the entry slot. -/
def Index.walkFrom (x : Index) (e : Epoch) (q : Query) (b : Nat) : Walk :=
  x.walk e q b (64 * b + 1) (x.visit e q b ⟨[], [], [], 0, 0⟩ x.entry)

/-- How many centroids the order for a query scores: every live slot of a flat index, or those that the walk visits (R134, R136). -/
def Index.scored (x : Index) (e : Epoch) (q : Query) (b : Nat) : Nat :=
  if x.isGraph then (x.walkFrom e q b).visits else (x.liveSlots e).length

/-- The centroid order (R139) with beam `b` for a graph index, and the number of stale edges. -/
def Index.centroidOrder (x : Index) (e : Epoch) (q : Query) (b : Nat) : List SlotScore × Nat :=
  if x.isGraph then let w := x.walkFrom e q b; (w.res, w.stale)
  else (sortBy slotKey ((x.liveSlots e).map (fun s => (s, x.centScore e q s))), 0)

/-- The number of lists probed (R140) of a retained order. -/
def probeCount (order : List SlotScore) (margin : F32) (pmin pmax : Nat) : Nat :=
  match order with
  | [] => 0
  | (_, s1) :: _ =>
    let t := fSat (fSub s1 margin)
    let p := (order.takeWhile (fun q => scoreKey t ≤ scoreKey q.2)).length
    min order.length (min pmax (max pmin p))

/-! ### Scanning a list -/

/-- The valid entries of slot `s` that epoch `e` sees: main blocks in order, then the inflow chain up to the
first block stamped later than `e` (R141, R113). -/
def Index.listEnts (x : Index) (e : Epoch) (s : Nat) : List BlkEnt :=
  let t := x.slotAt e s
  let main := match Store.find? x.arrs t.main with
    | some a => a.ents
    | none => []
  let inb := (t.chain.filterMap (Store.find? x.arrs)).takeWhile (fun a => heldNotLater x.u a.stamp e)
  main ++ inb.flatMap (·.ents)

/-- Main entries only. -/
def Index.mainEnts (x : Index) (e : Epoch) (s : Nat) : List BlkEnt :=
  match Store.find? x.arrs (x.slotAt e s).main with
  | some a => a.ents
  | none => []

/-- Number of main blocks and inflow blocks a scan of the slot reads (R108, R141). -/
def Index.blockCount (x : Index) (e : Epoch) (s : Nat) : Nat :=
  ((x.mainEnts e s).length + 63) / 64
    + ((((x.slotAt e s).chain.filterMap (Store.find? x.arrs)).takeWhile
        (fun a => heldNotLater x.u a.stamp e))).length

/-- An entry at a Weir (R167): key, ID, score, version and copy count. -/
structure WEnt where
  key : Nat
  gid : GlobalId
  score : F32
  version : Epoch
  copies : Nat
  deriving DecidableEq, Repr

/-- Collapse one entry into the distinct entries met so far (R171). -/
def collapseInto (w : WEnt) : List WEnt → List WEnt
  | [] => [w]
  | v :: vs =>
    if v.gid = w.gid then
      (if v.key < w.key then w
       else if v.key = w.key then { v with copies := v.copies + w.copies + 1 } else v) :: vs
    else v :: collapseInto w vs

/-- The row's distinct entries (R171), in order of first arrival. -/
def collapse (row : List WEnt) : List WEnt :=
  (row.filter (fun w => w.gid != emptyGid)).foldl (fun acc w => collapseInto w acc) []

/-- The result of a Weir pass (R169, R170). -/
structure PassResult where
  kept : List WEnt
  ties : Nat
  distinct : Nat
  valid : Nat
  deriving DecidableEq, Repr

/-- One pass of a row with a keep count; a sketch pass reports no tie count (R169 to R171). -/
def weirPass (score : Bool) (keep : Nat) (row : List WEnt) : PassResult :=
  let d := collapse row
  let sorted := sortBy WEnt.key d
  let kept := sorted.take keep
  let ties := match kept.getLast? with
    | some l => if score && kept.length == keep then
        ((sorted.drop keep).filter (fun w => scoreKey w.score == scoreKey l.score)).length else 0
    | none => 0
  ⟨kept, ties, d.length, (row.filter (fun w => w.gid != emptyGid)).length⟩

/-- A sketch entry at a Weir. -/
def sketchEnt (h : Nat) (g : GlobalId) : WEnt := ⟨sketchKey h g, g, 0, 0, 0⟩

/-- A scored entry at a Weir. -/
def scoreEnt (e : Entry) : WEnt := ⟨e.key, e.gid, e.score, e.version, 0⟩

/-- The Hamming distance that a sketch key holds (R90). -/
def keyHam (k : Nat) : Nat := 512 - k / 2 ^ 64

/-- The candidate set of a query sketch over a list of slots with depth `m`, and its DUP_COUNT (R142, R172). -/
def Index.candidates (x : Index) (e : Epoch) (sk : Nat) (slots : List Nat) (m : Nat) : List Cand × Nat :=
  let r := weirPass false m (slots.flatMap (fun s => (x.listEnts e s).map
    (fun b => sketchEnt (hamming sk b.sketch) (x.entGid b))))
  (r.kept.map (fun w => ⟨keyHam w.key, w.gid⟩), sumNat (r.kept.map (·.copies)))

/-- ANDMASK and ORMASK of a block's valid entries (Table 5-3). -/
def blockMasks (w : Nat) (es : List BlkEnt) : Nat × Nat :=
  (es.foldl (fun a b => a &&& b.sketch) (2 ^ w - 1), es.foldl (fun a b => a ||| b.sketch) 0)

/-- MIN_GID of a block (R111, R113). -/
def Index.minGid (x : Index) (es : List BlkEnt) : GlobalId :=
  match es with
  | [] => 0
  | b :: bs => bs.foldl (fun m c => if (x.entGid c).toNat < m.toNat then x.entGid c else m) (x.entGid b)

/-- The bound of a block for a query sketch of width `w` (R110). -/
def blockBound (w sk : Nat) (ents : List BlkEnt) : Nat :=
  let all := 2 ^ w - 1
  let m := blockMasks w ents
  popcount 512 (((all ^^^ sk) &&& m.1) ||| (sk &&& (all ^^^ m.2)))

/-! ### The owner -/

/-- A post-filter term (Table 6-8). -/
structure Term where
  mask : U64
  value : U64
  op : Nat
  deriving DecidableEq, Repr

/-- Is the term true of a row's TAG (R156)? -/
def Term.holds (t : Term) (tag : U64) : Bool :=
  let x := tag &&& t.mask
  match t.op with
  | 0 => x == t.value
  | 1 => x != t.value
  | 2 => decide (x.toNat < t.value.toNat)
  | 3 => decide (x.toNat ≤ t.value.toNat)
  | 4 => decide (t.value.toNat < x.toNat)
  | 5 => decide (t.value.toNat ≤ x.toNat)
  | 6 => x != 0
  | _ => x == t.mask

/-- A term that R156 accepts. -/
def Term.ok (t : Term) : Bool := if t.op < 6 then t.value &&& ~~~ t.mask == 0 else t.value == 0

/-- A term of 24 bytes, with its reserved bits (R156). -/
def parseTerm (bs : List Byte) : Option Term :=
  if byteAt bs 16 < 8 && (bs.drop 17).all (· == 0) then
    some ⟨BitVec.ofNat 64 (leAt bs 0 8), BitVec.ofNat 64 (leAt bs 8 8), byteAt bs 16⟩
  else none

/-- What an owner answers for one query's candidates: survivors in node order, dropped and filtered counts
(R154 to R156, Table 6-7). -/
structure Owned where
  surv : List Entry
  ndrop : Nat
  nfilt : Nat
  deriving DecidableEq, Repr

/-- Drop, score and filter a query's candidates at the owner (R154 to R156). -/
def Index.ownCandidates (x : Index) (e : Epoch) (q : Query) (terms : List Term) (gids : List GlobalId) : Owned :=
  let found := gids.filterMap (fun g => (x.rowAt e (gidLocal g)).map (fun r => (g, r)))
  let pass := found.filter (fun p => terms.isEmpty || terms.any (fun t => t.holds p.2.tag))
  { surv := sortBy Entry.key (pass.map (fun p => ⟨p.1, scoreRow x.desc.metric q p.2, p.2.version⟩)),
    ndrop := gids.length - found.length, nfilt := found.length - pass.length }

/-! ### Assigning rows to slots -/

/-- A row in the query's place (R207). -/
def Row.asQuery (r : Row) : Query := ⟨r.operands, r.scale, r.norm, false⟩

/-- The slots live at C in assignment order for a row (R207). -/
def Index.assignOrder (x : Index) (r : Row) : List SlotScore := (x.centroidOrder x.cur r.asQuery 64).1

/-- Primary and overflow slot that R207 assigns; none when no slot is live. -/
def Index.assign (x : Index) (r : Row) (overflow : Bool) (margin : F32) : Option (Nat × Option Nat) :=
  match x.assignOrder r with
  | [] => none
  | (p, s1) :: rest =>
    let o := match rest with
      | (o, s2) :: _ => if overflow && decide (scoreKey (fSat (fSub s1 margin)) ≤ scoreKey s2) then some o else none
      | [] => none
    some (p, o)

/-! ### Row records -/

/-- Bytes of codes per row (R117). -/
def IdxDesc.codeBytes (d : IdxDesc) : Nat := match d.code with
  | .int8 => d.dim
  | .int4 => d.dim / 2

/-- The row stride S (R117). -/
def IdxDesc.stride (d : IdxDesc) : Nat := 64 * ((24 + d.codeBytes + 63) / 64)

/-- The row record of Table 5-6, zero-filled to the stride. -/
def Row.bytes (d : IdxDesc) (r : Row) : List Byte :=
  let flags := (match d.code with | .int8 => 0 | .int4 => 1) + 4 * b2n r.nodeQuant + 8 * b2n (fIsZero r.scale)
  padTo 0 d.stride (leBytes 4 r.scale.toNat ++ leBytes 4 r.norm.toNat ++ leBytes 2 r.zpt ++ leBytes 2 flags
    ++ leBytes 4 r.version.toNat ++ leBytes 8 r.tag.toNat ++ packCodes d.code r.codes)

end Sys2Proof.Machine
end

