-- ==== Sys2Proof/Machine/Epoch.lean ====
section
/-! DEFINITION. Building U and flipping to it: the winner ledger (R208), the seal (R210, R220), the flip (R198,
R209), compaction (R213, R214), list splits and merges (R216 to R219) and the sums of CLUSTER_STEP (R250 to
R252), all as functions of one index. -/

namespace Sys2Proof.Machine

/-! ### Blocks and rows by handle -/

/-- Bytes of a main block (Table 5-4). -/
def mainBlockBytes (w : Nat) : Nat := 64 * ((448 + 8 * w + w / 4 + 63) / 64)
/-- Bytes of an inflow block (Table 5-4). -/
def inflowBlockBytes (w : Nat) : Nat := 64 * ((960 + 8 * w + w / 4 + 63) / 64)

/-- Bytes of a block array. -/
def BlkArr.bytes (a : BlkArr) (w : Nat) : Nat :=
  (a.ents.length + 63) / 64 * (if a.inflow then inflowBlockBytes w else mainBlockBytes w)

/-- Range pages of an HBM-homed region that a block array takes: it begins at the first byte of one (R339, R349; DESIGN CHOICE,
log 10). -/
def BlkArr.span (a : BlkArr) (w : Nat) : Nat := (a.bytes w + 65535) / 65536

/-- Store a block array in range pages of its own; answers the index and the handle, 0 for an array of no entries. -/
def Index.addArr (x : Index) (a : BlkArr) : Index × Nat :=
  if a.ents.isEmpty then (x, 0)
  else ({ x with
    arrs := Store.insert x.arrs x.nextH { a with first := x.nextRange }
    nextH := x.nextH + 1
    nextRange := x.nextRange + a.span x.desc.width }, x.nextH)

/-- 4 KiB pages that a row takes (R117). -/
def IdxDesc.rowSpan (d : IdxDesc) : Nat := (d.stride + 4095) / 4096

/-- Pages of the row store that hold the row at a LOCATOR (R117). -/
def IdxDesc.rowPgs (d : IdxDesc) (loc : Nat) : List Nat := (List.range d.rowSpan).map (fun j => loc / 64 + j)

/-- Pages of the row store that hold the index's rows. -/
def Index.rowStore (x : Index) : List Nat := (x.rowLoc.flatMap (fun p => x.desc.rowPgs p.2)).dedup

/-- The open page of a primary slot in U, with the rows it holds (R117). -/
def Index.openPage (x : Index) (prim : Nat) : Option (Nat × Nat) :=
  (Store.find? x.fill prim).filter (fun p => decide (p.2 < 4096 / x.desc.stride))

/-- Store a row of the row store, written for primary slot `prim`: rows of one epoch and one primary slot share
pages in order of writing, and a row of more than a page has pages of its own (R117). -/
def Index.addRow (x : Index) (r : Row) (prim : Nat) : Index × Nat :=
  let (pg, n) := (x.openPage prim).getD (x.nextPage, 0)
  ({ x with
     rows := Store.insert x.rows x.nextH r
     rowLoc := Store.insert x.rowLoc x.nextH (64 * pg + n * (x.desc.stride / 64))
     fill := Store.insert x.fill prim (pg, n + 1)
     nextPage := max x.nextPage (pg + x.desc.rowSpan)
     nextH := x.nextH + 1 }, x.nextH)

/-- Free a staged row that no read can reach (R209). -/
def Index.dropRow (x : Index) (h : Nat) : Index :=
  { x with rows := Store.erase x.rows h, rowLoc := Store.erase x.rowLoc h }

/-- The shard index of this node's shard (R96). -/
def Index.ownSidx (x : Index) : Nat := x.shards.idxOf x.desc.shard

/-- Bytes of main blocks in Basin `b` as epoch `e`'s slot table names them (R123). -/
def Index.mainBytes (x : Index) (e : Epoch) (b : Nat) : Nat :=
  sumNat ((Store.keys x.slots).map (fun s =>
    let t := x.slotAt e s
    if t.basin = b then ((x.mainEnts e s).length + 63) / 64 * mainBlockBytes x.desc.width else 0))

/-- The Basin of a slot that becomes live in U (R123); `both` says that the slice has HBM in both Basins and
`only` names the Basin it has HBM in otherwise. The bytes are those of U's slot table after the operations of the step before
this one (DEDUCED, log 147). -/
def Index.newBasin (x : Index) (both : Bool) (only : Nat) : Nat :=
  if !both then only
  else if x.desc.place = 1 then 0
  else if x.desc.place = 2 then 1
  else if x.mainBytes x.u 1 < x.mainBytes x.u 0 then 1 else 0

/-- Where blocks go: does the slice have HBM in both Basins, the Basin it has HBM in otherwise, the kind that INIT_KIND names, and
the slice's free bytes in each stack, that of stack `st` of Basin `b` at place 4 × b + st (R124). -/
structure Placing where
  both : Bool
  only : Nat
  spout : Bool
  free : List Nat
  deriving DecidableEq, Repr

/-- Free bytes in a stack. -/
def Placing.room (p : Placing) (b st : Nat) : Nat := p.free.getD (4 * b + st) 0

/-- Of the two stacks of a kind in a Basin, the one with more free bytes, and the lower number when they are equal. -/
def Placing.freer (p : Placing) (b k : Nat) : Nat :=
  if p.room b (2 * k) < p.room b (2 * k + 1) then 2 * k + 1 else 2 * k

/-- The stack for a new list of `need` bytes: one of the other kind when neither of the named kind can hold it (R124). A stack in which
the slice has no free byte can hold no list, be it empty (DEDUCED, log 179). -/
def Placing.pick (p : Placing) (b need : Nat) : Nat :=
  let k := if p.spout then 1 else 0
  if max 1 need ≤ p.room b (p.freer b k) then p.freer b k else p.freer b (1 - k)

/-- The free bytes once `n` bytes have gone into a stack. -/
def Placing.use (p : Placing) (b st n : Nat) : Placing := { p with free := p.free.modify (4 * b + st) (fun v => v - n) }

/-- Bytes of the main blocks of `n` entries. -/
def mainBytesOf (w n : Nat) : Nat := (n + 63) / 64 * mainBlockBytes w

/-- The stack that holds a list's current blocks, or that its slot names while it has none (R339). -/
def Index.homeStack (x : Index) (t : SlotEnt) : Nat :=
  match (t.main :: t.chain).filterMap (Store.find? x.arrs) with
  | a :: _ => a.stack
  | [] => t.stack

/-! ### The winner ledger -/

/-- Compare byte strings as unsigned bytes from the lowest offset (R208). -/
def bytesCmp : List Byte → List Byte → Ordering
  | [], [] => .eq
  | [], _ => .lt
  | _, [] => .gt
  | a :: as, b :: bs => if a.toNat < b.toNat then .lt else if b.toNat < a.toNat then .gt else bytesCmp as bs

/-- A slot as the tie rule counts it: none counts as 0xFFFF_FFFF. -/
def ovfNum (o : Option Nat) : Nat := o.getD 0xFFFFFFFF

/-- Does record `a` of one request win over the contender of another with equal SEQ (R208, cases 2 and 3)? -/
def tieWins (d : IdxDesc) (a : WriteRec) (w : Winner) (wr : Option Row) : Bool :=
  match a.row, wr with
  | none, none => false
  | none, some _ => true
  | some _, none => false
  | some r, some v =>
    match bytesCmp ((r.bytes d).drop 16) ((v.bytes d).drop 16) with
    | .gt => true
    | .lt => false
    | .eq =>
      if r.scale != v.scale then decide (v.scale.toNat < r.scale.toNat)
      else if r.zpt != v.zpt then decide (v.zpt < r.zpt)
      else if a.prim != w.prim then decide (a.prim < w.prim)
      else decide (ovfNum a.ovf < ovfNum w.ovf)

/-- Within one request, the record of greatest SEQ of each local ID, the later one among equals (R208, R238). -/
def bestOfRequest : List WriteRec → Store WriteRec → Store WriteRec
  | [], acc => acc
  | r :: rs, acc =>
    bestOfRequest rs (match Store.find? acc r.lid with
      | some v => if v.seq.toNat ≤ r.seq.toNat then Store.insert acc r.lid r else acc
      | none => Store.insert acc r.lid r)

/-- Put the contender's record into the ledger. -/
def Index.setWinner (x : Index) (r : WriteRec) : Index :=
  match r.row with
  | some row =>
    let (y, h) := x.addRow row r.prim
    { y with ledger := Store.insert y.ledger r.lid ⟨r.seq, false, h, r.sketch, r.prim, r.ovf⟩ }
  | none => { x with ledger := Store.insert x.ledger r.lid ⟨r.seq, true, 0, 0, r.prim, none⟩ }

/-- One contender against the ledger; the flag says that it won (R208). -/
def Index.contend (x : Index) (r : WriteRec) : Index × Bool :=
  match Store.find? x.ledger r.lid with
  | none => (x.setWinner r, true)
  | some w =>
    let wr := if w.del then none else Store.find? x.rows w.row
    if decide (w.seq.toNat < r.seq.toNat) || (r.seq == w.seq && tieWins x.desc r w wr) then
      ((if w.del then x else x.dropRow w.row).setWinner r, true)
    else (x, false)

/-- Contend every best record, counting the wins. -/
def Index.contendAll (x : Index) : List WriteRec → Nat → Index × Nat
  | [], n => (x, n)
  | r :: rs, n => let (y, won) := x.contend r; y.contendAll rs (n + b2n won)

/-- What a committed write did: the index, the records superseded within the request, and all superseded. -/
structure Committed where
  idx : Index
  dups : Nat
  superseded : Nat
  deriving DecidableEq, Repr

/-- Commit the records of UPSERT, DELETE or SCATTER to U's ledger in one step; none when the ledger would hold
more than `maxIds` local IDs (R200, R208, R222). -/
def Index.commitRecs (x : Index) (recs : List WriteRec) (maxIds : Nat) : Option Committed :=
  let best := Store.vals (bestOfRequest recs [])
  let (y, won) := x.contendAll best 0
  if maxIds < y.ledger.length then none
  else some ⟨{ y with ledgerRecs := y.ledgerRecs + recs.length }, recs.length - best.length, recs.length - won⟩

/-- The records of a request that do not win in U's ledger as it stands (R208). -/
def Index.losing (x : Index) (recs : List WriteRec) : List WriteRec :=
  recs.diff ((Store.vals (bestOfRequest recs [])).filter (fun r => (x.contend r).2))

/-- The index with the rows of records staged, which take their place whether or not the record comes to win (R200, R209). -/
def Index.stageRows (x : Index) (recs : List WriteRec) : Index :=
  recs.foldl (fun (y : Index) r => match r.row with
    | some row => (y.addRow row r.prim).1
    | none => y) x

/-! ### Splitting -/

/-- The output of a split that a sketch chooses: the first output on a tie (R218). -/
def nearerFirst (sk c0 c1 : Nat) : Bool := hamming sk c0 ≤ hamming sk c1

/-- The sketch of slot `s`'s quantized centroid at epoch `e` (R218). -/
def Index.centSketch (x : Index) (e : Epoch) (s : Nat) : Nat :=
  match x.centAt e s with
  | some r => sketchOf x.proj r.operands
  | none => 0

/-- A slot after the splits and merges of U (R220). -/
def Index.remap (x : Index) (sk s : Nat) : Nat :=
  match x.moved.find? (fun p => p.1 == s) with
  | some (_, [o]) => o
  | some (_, o0 :: o1 :: _) => if nearerFirst sk (x.centSketch x.u o0) (x.centSketch x.u o1) then o0 else o1
  | _ => s

/-! ### Seal and flip -/

/-- Append entries to a slot's chain in U, in new blocks of 64 stamped U, in the stack that holds the list's blocks (R113, R210,
R339). The version of the slot that U writes names that stack. -/
def Index.landBlocks (x : Index) (s : Nat) : List (List BlkEnt) → Index
  | [] => x
  | es :: rest =>
    let t := x.slotAt x.u s
    let st := x.homeStack t
    let (y, h) := x.addArr ⟨true, s, t.gen, x.u, t.basin, st, es, 0⟩
    Index.landBlocks { y with slots := VTable.write x.u y.slots s { t with chain := t.chain ++ [h], stack := st } } s rest

/-- Land each slot's entries (R210). -/
def Index.landAll (x : Index) : List (Nat × List BlkEnt) → Index
  | [] => x
  | (s, es) :: rest => Index.landAll (x.landBlocks s (chunks 64 es)) rest

/-- Pages of the owner tables that hold a local ID: of the directory, and of the tombstone map, which the model numbers after
the 2^24 pages of the directory (R114, R115). -/
def ownPages (l : Nat) : List Nat := [l / 256, 16777216 + l / 32768]

/-- Pages of the row directory and of the tombstone map (R114, R115). -/
def IdxDesc.dirPages (d : IdxDesc) : Nat := (d.rowCap + 255) / 256
def IdxDesc.ownCount (d : IdxDesc) : Nat := d.dirPages + (d.rowCap + 32767) / 32768

/-- The page of the owner-table region that holds the creation version of an owner-table page: those of the directory lie first, and
then those of the tombstone map (R122; DESIGN CHOICE, log 21). -/
def IdxDesc.ownBase (d : IdxDesc) (p : Nat) : Nat := if p < 16777216 then p else d.dirPages + (p - 16777216)

/-- The owner-table page whose creation version lies in a page of the region. -/
def IdxDesc.ownOf (d : IdxDesc) (pg : Nat) : Nat := if pg < d.dirPages then pg else 16777216 + (pg - d.dirPages)

/-- The version of an owner-table page that is stamped U, which is made when U has none yet (R99). -/
def Index.touchPage (x : Index) (p : Nat) : Index :=
  let t := VTable.touch x.u [(x.created, x.desc.ownBase p)] x.ownVer p x.nextOwn
  if (Store.find? x.ownVer p).bind List.head? = (Store.find? t p).bind List.head? then x
  else { x with ownVer := t, nextOwn := x.nextOwn + 1 }

/-- Write a local ID's directory entry in U, unless it has that value. -/
def Index.putDir (x : Index) (l : Nat) (d : DirEnt) : Index :=
  if x.dirAt x.u l = d then x else { x.touchPage (l / 256) with dir := VTable.write x.u x.dir l d }

/-- Write a local ID's tombstone bit in U, unless it has that value. -/
def Index.putTomb (x : Index) (l : Nat) (dead : Bool) : Index :=
  if x.tombAt x.u l = dead then x
  else { x.touchPage (16777216 + l / 32768) with tomb := VTable.write x.u x.tomb l dead }

/-- Write a local ID's directory entry and tombstone bit in U: each page is written only where its content changes (R209, R214). -/
def Index.putOwn (x : Index) (l : Nat) (d : DirEnt) (dead : Bool) : Index := (x.putDir l d).putTomb l dead

/-- Show one winner in U's directory and tombstone map (R209, R220). -/
def Index.showWinner (x : Index) (l : Nat) (w : Winner) : Index :=
  if w.del then x.putOwn l (x.dirAt x.cur l) true
  else
    let p := x.remap w.sketch w.prim
    let o := (w.ovf.map (x.remap w.sketch)).filter (fun o => o != p)
    let d : DirEnt := ⟨true, w.row, p, (x.slotAt x.u p).gen, o.getD 0,
      (o.map (fun s => (x.slotAt x.u s).gen)).getD 0⟩
    x.putOwn l d false

/-- Show every winner. -/
def Index.showAll (x : Index) : List (Nat × Winner) → Index
  | [] => x
  | (l, w) :: rest => Index.showAll (x.showWinner l w) rest

/-- The slots a winner lands in after R220, primary first. -/
def Index.winnerSlots (x : Index) (w : Winner) : List Nat :=
  if w.del then []
  else
    let p := x.remap w.sketch w.prim
    p :: ((w.ovf.map (x.remap w.sketch)).filter (fun o => o != p)).toList

/-- The inflow entries of the ledger for one slot, in ascending order of global ID (R210). -/
def Index.sealEntries (x : Index) (s : Nat) : List BlkEnt :=
  x.ledger.filterMap (fun p => if (x.winnerSlots p.2).contains s
    then some ⟨p.2.sketch, BitVec.ofNat 32 p.1, x.ownSidx, p.2.seq⟩ else none)

/-- The slots of U that receive entries, ascending. -/
def Index.sealSlots (x : Index) : List Nat :=
  Store.keys (x.ledger.foldl (fun acc p => (x.winnerSlots p.2).foldl (fun a s => Store.insert a s ()) acc)
    ([] : Store Unit))

/-- The seal places U's entries from the ledger (R210) and shows the winners. Nothing of U can be read before
the flip, so the directory is written here. -/
def Index.placeSeal (x : Index) : Index :=
  if x.sealed then x
  else
    let lists := x.sealSlots.map (fun s => (s, x.sealEntries s))
    { (x.showAll x.ledger).landAll lists with sealed := true }

/-- The epochs whose versions must be kept besides the index's own, as accepted requests see them (R100). -/
def Index.prune (x : Index) (used : List Epoch) : Index :=
  let es := x.heldEpochs ++ used
  let u := x.u
  let slots := VTable.prune u es x.slots
  let dir := VTable.prune u es x.dir
  let arrRefs := slots.flatMap (fun p => p.2.flatMap (fun v => v.2.main :: v.2.chain))
  let rowRefs := dir.flatMap (fun p => p.2.map (fun v => v.2.row)) ++ x.ledger.map (fun p => p.2.row)
  { x with
    slots := slots, dir := dir
    centF := VTable.prune u es x.centF, centQ := VTable.prune u es x.centQ
    graph := VTable.prune u es x.graph, tomb := VTable.prune u es x.tomb
    arrs := x.arrs.filter (fun p => arrRefs.contains p.1)
    rows := x.rows.filter (fun p => rowRefs.contains p.1)
    rowLoc := x.rowLoc.filter (fun p => rowRefs.contains p.1)
    ownVer := VTable.prune u es x.ownVer
    pages := VTable.prune u es x.notePages.pages }

/-- The flip at instant `t` with drain length `drain` (R198). -/
def Index.flipAt (x : Index) (t : Time) (drain : Nat) : Index :=
  let y := x.placeSeal.notePages
  let full := y.live = 4
  { y with
    cur := y.cur + 1
    live := if full then 4 else y.live + 1
    drainEnd := if full then some (t + BitVec.ofNat 64 drain) else none
    flip := none, sealed := false, lastFlip := t
    ledger := [], ledgerRecs := 0, moved := [], struct := none, fill := [] }

/-- A draining epoch stops draining (R188). -/
def Index.endDrain (x : Index) : Index := { x with drainEnd := none }

/-! ### Compaction -/

/-- Is local ID `l` of this shard kept in slot `s` at C (R213)? -/
def Index.keptAt (x : Index) (s l : Nat) : Bool :=
  let d := x.dirAt x.cur l
  let g := (x.slotAt x.cur s).gen
  d.valid && !x.tombAt x.cur l && ((d.prim == s && d.primGen == g) || (d.ovf == s && d.ovfGen == g))

/-- The entry as a rebuilt list holds it: own entries from their row at C, others unchanged (R213). -/
def Index.rebuilt (x : Index) (b : BlkEnt) : BlkEnt :=
  if b.sidx == x.ownSidx then
    match x.rowAt x.cur b.lid.toNat with
    | some r => { b with sketch := sketchOfRow x.proj r, seq := 0 }
    | none => b
  else { b with seq := 0 }

/-- The entries that R213 keeps of slot `s` at C, in ascending order of global ID. -/
def Index.keptEnts (x : Index) (s : Nat) : List BlkEnt :=
  let own := (x.listEnts x.cur s).filter (fun b => b.sidx == x.ownSidx && x.keptAt s b.lid.toNat)
  let foreign := (x.mainEnts x.cur s).filter (fun b => b.sidx != x.ownSidx)
  let all := dedupBy (fun b => x.entGid b) (own ++ foreign)
  sortBy (fun b => gidKey (x.entGid b)) (all.map x.rebuilt)

/-- The Basin a compaction writes the list of slot `s` into (R123). -/
def Index.compactBasin (x : Index) (both : Bool) (only s : Nat) : Nat :=
  let b := (x.slotAt x.u s).basin
  if !both then only
  else if x.desc.place = 0 && decide (9 * x.mainBytes x.u (1 - b) < 8 * x.mainBytes x.u b) then 1 - b else b

/-- Rebuild one slot into U (R213). A list that stays in its Basin stays in the stack that holds it (R339); one that moves is a
new list there (R124). -/
def Index.compactSlot (x : Index) (p : Placing) (s : Nat) : Index × Placing :=
  let t := x.slotAt x.u s
  let b := x.compactBasin p.both p.only s
  let es := x.keptEnts s
  let n := mainBytesOf x.desc.width es.length
  let st := if b = t.basin then x.homeStack t else p.pick b n
  let (y, h) := x.addArr ⟨false, s, t.gen, x.u, b, st, es, 0⟩
  ({ y with slots := VTable.write x.u y.slots s { t with main := h, chain := [], basin := b, stack := st } }, p.use b st n)

/-- Rebuild slots in ascending order (R123, R213). -/
def Index.compactSlots (x : Index) (p : Placing) (ss : List Nat) : Index :=
  (ss.foldl (fun (y : Index × Placing) s => y.1.compactSlot y.2 s) (x, p)).1

/-- The slots in scope of a COMPACT (Table 8-6). -/
def Index.compactScope (x : Index) (scope first n : Nat) : List Nat :=
  (x.liveSlots x.cur).filter (fun s => scope == 0 || (first ≤ s && s < first + n))

/-- Return the directory entries and tombstones of deleted IDs (R214). -/
def Index.sweepDeleted (x : Index) : Index :=
  ((Store.keys x.tomb).filter (fun l => x.tombAt x.cur l && (Store.find? x.ledger l).isNone)).foldl
    (fun y l => y.putOwn l DirEnt.none false) x

/-- The whole of a COMPACT's change to U; a SCOPE 0 compaction also returns deleted IDs (R213, R214). -/
def Index.compact (x : Index) (p : Placing) (scope first n : Nat) : Index × Nat :=
  let ss := x.compactScope scope first n
  let y := x.compactSlots p ss
  (if scope = 0 then y.sweepDeleted else y, ss.length)

/-! ### CLUSTER_STEP -/

/-- An operation record with its centroids (R249, Table 9-8). -/
structure ClusterOp where
  kind : Nat
  a : Nat
  b : Nat
  cents : List (List F32)
  deriving DecidableEq, Repr

/-- The lowest slot R98 takes: free first, then retired and unseen with a generation below 255. -/
def Index.takeSlot (x : Index) (used : List Epoch) (taken : List Nat) : Option Nat :=
  let isFree (s : Nat) : Bool := !taken.contains s && (x.slotAt x.u s).st == .free
  let unseen (s : Nat) : Bool := (x.heldEpochs ++ used).all (fun e => (x.slotAt e s).st != .live)
  match (List.range (min x.desc.listCap (x.slots.length + taken.length + 1))).find? isFree with
  | some s => some s
  | none => (Store.keys x.slots).find? (fun s => !taken.contains s && (x.slotAt x.u s).st == .retired
      && decide ((x.slotAt x.u s).gen < 255) && unseen s)

/-- Take `n` slots in order (R217). -/
def Index.takeSlots (x : Index) (used : List Epoch) : Nat → List Nat → Option (List Nat)
  | 0, taken => some taken
  | n + 1, taken => match x.takeSlot used taken with
    | some s => Index.takeSlots x used n (taken ++ [s])
    | none => none

/-- Write a slot's centroid records in U (R103, R104). -/
def Index.writeCentroid (x : Index) (s : Nat) (c : List F32) : Index :=
  let gen := (x.slotAt x.u s).gen
  let q := quantizeRow .int8 c x.u (BitVec.ofNat 64 (s + gen * 2 ^ 24))
  { x with centF := VTable.write x.u x.centF s c, centQ := VTable.write x.u x.centQ s q }

/-- Make a slot live in U with a centroid (R97, R217). -/
def Index.openSlot (x : Index) (p : Placing) (s : Nat) (c : List F32) : Index :=
  let t := x.slotAt x.u s
  let b := x.newBasin p.both p.only
  let v : SlotEnt := ⟨.live, t.gen + 1, b, p.pick b 0, 0, [], x.u, 0⟩
  let y : Index := { x with slots := VTable.write x.u x.slots s v }
  y.writeCentroid s c

/-- Retire a source in U (R217). -/
def Index.retireSlot (x : Index) (s : Nat) : Index :=
  let v : SlotEnt := { x.slotAt x.u s with st := .retired, epochRetired := x.u, main := 0, chain := [] }
  { x with slots := VTable.write x.u x.slots s v }

/-- Name output `o` in place of source `s` in a directory entry; both slots on one output hold it once (R218). -/
def moveDir (d : DirEnt) (s o g : Nat) : DirEnt :=
  let d := if d.prim == s then { d with prim := o, primGen := g } else d
  let d := if d.ovfGen != 0 && d.ovf == s then { d with ovf := o, ovfGen := g } else d
  if d.ovfGen != 0 && d.ovf == d.prim then { d with ovfGen := 0 } else d

/-- Move one kept entry of source `s` to output `o` in the directory (R218). -/
def Index.moveEnt (x : Index) (s o : Nat) (b : BlkEnt) : Index :=
  let l := b.lid.toNat
  if b.sidx != x.ownSidx || (Store.find? x.ledger l).isSome then x
  else x.putOwn l (moveDir (x.dirAt x.u l) s o (x.slotAt x.u o).gen) (x.tombAt x.u l)

/-- Build an output's main blocks, in the stack that R124 takes for a list of their size (R218, R213). Of several copies of one
ID the first is kept, those of a merge's SLOT_A before those of its SLOT_B (DEDUCED, log 145). -/
def Index.fillOutput (x : Index) (p : Placing) (o : Nat) (ents : List BlkEnt) : Index × Placing :=
  let t := x.slotAt x.u o
  let es := sortBy (fun b => gidKey (x.entGid b)) (dedupBy (fun b => x.entGid b) ents)
  let n := mainBytesOf x.desc.width es.length
  let st := p.pick t.basin n
  let (y, h) := x.addArr ⟨false, o, t.gen, x.u, t.basin, st, es, 0⟩
  ({ y with slots := VTable.write x.u y.slots o { t with main := h, stack := st } }, p.use t.basin st n)

/-- Edges cut to 32 distinct targets, none to `self` (R106, R219). -/
def cleanEdges (self : Nat) : List (Nat × Nat) → List (Nat × Nat) → List (Nat × Nat)
  | [], acc => acc.take 32
  | (t, g) :: es, acc =>
    cleanEdges self es (if t == self || acc.any (fun p => p.1 == t) then acc else acc ++ [(t, g)])

/-- The graph record of an output (R219). The score of a target is taken with its centroid at C, the sibling's with that in U; an
edge that the sources held to the sibling's number stays in its place (DEDUCED, log 146). -/
def Index.outputEdges (x : Index) (sources : List Nat) (from' : List Nat) (o : Nat) (sib : Option Nat) :
    List (Nat × Nat) :=
  let old := (from'.flatMap (x.edgesAt x.cur)).filter (fun p => (x.slotAt x.cur p.1).gen == p.2 && !sources.contains p.1)
  let all := old ++ (sib.map (fun s => (s, (x.slotAt x.u s).gen))).toList
  match x.centAt x.u o with
  | none => cleanEdges o all []
  | some c =>
    let score (p : Nat × Nat) : Nat :=
      slotKey (p.1, x.centScore (if sib == some p.1 then x.u else x.cur) c.asQuery p.1)
    cleanEdges o (sortBy score all) []

/-- The graph record of a source (R219). -/
def Index.sourceEdges (x : Index) (s : Nat) (outs : List Nat) : List (Nat × Nat) :=
  let os := Store.keys (outs.foldl (fun a o => Store.insert a o ()) ([] : Store Unit))
  cleanEdges s (os.map (fun o => (o, (x.slotAt x.u o).gen)) ++ x.edgesAt x.cur s) []

/-- Write a graph record in U. -/
def Index.setEdges (x : Index) (s : Nat) (es : List (Nat × Nat)) : Index :=
  { x with graph := VTable.write x.u x.graph s es }

/-- One split or merge with its output slots (R217 to R219). -/
def Index.restructure (x : Index) (p : Placing) (allSources : List Nat) (op : ClusterOp) (outs : List Nat) :
    Index × Placing :=
  let sources := if op.kind = 3 then [op.a, op.b] else [op.a]
  let x1 := (List.zip outs op.cents).foldl (fun y oc => y.openSlot p oc.1 oc.2) x
  let choose (b : BlkEnt) : Nat := match outs with
    | [o0, o1] => if nearerFirst b.sketch (x1.centSketch x1.u o0) (x1.centSketch x1.u o1) then o0 else o1
    | o :: _ => o
    | [] => 0
  let moves := sources.flatMap (fun s => (x.keptEnts s).map (fun b => (s, choose b, b)))
  let x2 := outs.foldl (fun (y : Index × Placing) o =>
    y.1.fillOutput y.2 o ((moves.filter (fun m => m.2.1 == o)).map (·.2.2))) (x1, p)
  let x3 := moves.foldl (fun y m => y.moveEnt m.1 m.2.1 m.2.2) x2.1
  let x4 := sources.foldl (fun y s => y.retireSlot s) x3
  let x5 : Index := { x4 with moved := x4.moved ++ sources.map (fun s => (s, outs)) }
  if x.isGraph then
    let sib (o : Nat) : Option Nat := (outs.filter (fun t => t != o)).head?
    let x6 := outs.foldl (fun y o => y.setEdges o (y.outputEdges allSources sources o (sib o))) x5
    (sources.foldl (fun y s => y.setEdges s (y.sourceEdges s outs)) x6, x2.2)
  else (x5, x2.2)

/-- The splits by source and then the merges by lower source, in which R217 takes slots. -/
def structOrder (ops : List ClusterOp) : List ClusterOp :=
  let key (o : ClusterOp) : Nat := 2 ^ 32 - (if o.kind = 3 then min o.a o.b else o.a)
  sortBy key (ops.filter (·.kind == 2)) ++ sortBy key (ops.filter (·.kind == 3))

/-- Pair each operation with its output slots. -/
def dealSlots : List ClusterOp → List Nat → List (ClusterOp × List Nat)
  | [], _ => []
  | o :: os, ss => (o, ss.take (if o.kind = 2 then 2 else 1)) :: dealSlots os (ss.drop (if o.kind = 2 then 2 else 1))

/-- CLUSTER_STEP APPLY on U; none when R98 finds no slot. Answers the output slots of each operation. -/
def Index.clusterApply (x : Index) (p : Placing) (used : List Epoch) (ops : List ClusterOp) :
    Option (Index × List (ClusterOp × List Nat)) :=
  let ord := structOrder ops
  match x.takeSlots used (sumNat (ord.map (fun o => if o.kind = 2 then 2 else 1))) [] with
  | none => none
  | some ss =>
    let dealt := dealSlots ord ss
    let sources := ord.flatMap (fun o => if o.kind = 3 then [o.a, o.b] else [o.a])
    let y := (ops.filter (·.kind == 0)).foldl (fun y o => y.writeCentroid o.a (o.cents.headD [])) x
    some ((dealt.foldl (fun (z : Index × Placing) d => z.1.restructure z.2 sources d.1 d.2) (y, p)).1, dealt)

/-- The rows of this node that are valid at epoch `e`. -/
def Index.rowsAt (x : Index) (e : Epoch) : List Row := (Store.keys x.dir).filterMap (x.rowAt e)

/-- Members of slot `s` among this node's rows at epoch `e`, ascending (R250). -/
def Index.members (x : Index) (e : Epoch) (s : Nat) (reassign : Bool) : List (Nat × Row) :=
  (Store.keys x.dir).filterMap (fun l => match x.rowAt e l with
    | some r =>
      let here := if reassign then (match (x.centroidOrder e r.asQuery 64).1 with | (q, _) :: _ => q == s | [] => false)
        else (x.dirAt e l).prim == s
      if here then some (l, r) else none
    | none => none)

/-- The ordered FP32 sum of rows (R251). -/
def sumRows (dim : Nat) (rs : List Row) : List F32 :=
  rs.foldl (fun acc r => List.zipWith (fun s a => fAdd s (fMul r.scale (fOfInt a))) acc r.operands)
    (List.replicate dim fZero)

/-- A sum record (R252). -/
def sumRecord (slot trial dim : Nat) (rs : List Row) : List Byte :=
  leBytes 4 slot ++ leBytes 1 trial ++ zeroBytes 3 ++ leBytes 8 rs.length
    ++ (sumRows dim rs).flatMap (fun f => leBytes 4 f.toNat)

/-- The sum records of one operation (R251, R252). -/
def Index.sumOp (x : Index) (e : Epoch) (reassign : Bool) (o : ClusterOp) : List (List Byte) :=
  let ms := x.members e o.a reassign
  match o.cents with
  | [c0, c1] =>
    let sk (c : List F32) : Nat := match quantizeRow .int8 c x.u 0 with
      | some r => sketchOf x.proj r.operands
      | none => 0
    let first (r : Row) : Bool := nearerFirst (sketchOfRow x.proj r) (sk c0) (sk c1)
    [sumRecord o.a 0 x.desc.dim ((ms.map (·.2)).filter first),
     sumRecord o.a 1 x.desc.dim ((ms.map (·.2)).filter (fun r => !first r))]
  | _ => [sumRecord o.a 0xFF x.desc.dim (ms.map (·.2))]

end Sys2Proof.Machine
end

