-- ==== Sys2Proof/Config.lean ====
section
/-! DEFINITION. What an implementation fixes and the free values: constants without a body, so that no proof can
see a value. Each is named in the assumption log. -/

namespace Sys2Proof

/-- The `n`-th value of `w` bits that the manual leaves open. The step reads it at the counter `State.free`. -/
opaque Config.freeValue : (w : Nat) → (n : Nat) → BitVec w

/-- The fused serial number (ID_SERIAL). -/
opaque Config.serial : BitVec 64

/-- The speed and width that the host link's training agreed with its partner (HOST_LINK). -/
opaque Config.hostLink : BitVec 64

/-- The vendor identifier of configuration space (ID_PART). -/
opaque Config.vendor : BitVec 16

/-- The stepping code (ID_STEPPING). -/
opaque Config.stepping : BitVec 8

/-- The low byte of an event-log CODE for the `n`-th kind of event of a class (Table 20-8 gives the high byte). -/
opaque Config.logCode : (cls n : Nat) → BitVec 8

/-- The 12 DATA bytes of an event-log entry for a class, kind of event and sequence number (R529). -/
opaque Config.logData : (cls n seq : Nat) → BitVec 96

/-- Whether an ECDSA P-384 signature under the owner key is valid for a nonce and command word (R515). -/
opaque Config.authValid : (nonce : Nat) → (cmd : Nat) → (sig : List Byte) → Bool

/-- Whether a bundle's signature is valid under its own public key (R533). -/
opaque Config.bundleSigValid : (bundle : List Byte) → Bool

/-- Whether SHA-384 of a public key equals the fused key hash of an index (R534). -/
opaque Config.keyHashMatches : (keyIdx : Nat) → (pubkey : List Byte) → Bool

/-- What stands in host memory at a bus address, `len` bytes long, when the `n`-th open value is due: the host's own (R306). -/
opaque Config.hostImage : (addr len n : Nat) → List Byte

/-- An element of a tensor that no step of a pour program has written, by the program's image, the sample's record, the tensor and the
element (R300). -/
opaque Config.openElement : (image sample : List Byte) → (tensor elem : Nat) → BitVec 32

/-- The root of a number below 0, as ROW_SCALE forms it where C0 is negative (R302, R303). -/
opaque Config.negRoot : BitVec 32 → BitVec 32

/-- Where in its part of a Basin pool the block arrays of index `i` begin, in range pages (R105, R349). -/
opaque Config.poolBase : (i : Nat) → BitVec 25

/-- The check bytes of the controllers' shortened Reed–Solomon code over the 32 data bytes of a burst (R366). -/
opaque Config.rsCheck : (data : List Byte) → BitVec 32

/-- The parity bytes of the LDPC code of a PARITY option over a codeword's user bytes and metadata (R378, R379). -/
opaque Config.ldpcParity : (parity : Nat) → (data : List Byte) → List Byte

/-- The image of a Rill function in the Pumphouse image of a firmware bundle (R262, Table 10-2). -/
opaque Config.rillImage : (bundle : List Byte) → (func : Nat) → List Byte

/-- Bytes of Reservoir that the retained output of an opcode's completed phases takes, by its number of items (R53). -/
opaque Config.retainedBytes : (op items : Nat) → BitVec 40

end Sys2Proof
end

