-- ==== Sys2Proof/Machine/RegMap.lean ====
section
/-! DEFINITION. The register map: for every register of the pages of Table 18-3, its offset, how often it
repeats, and its fields with their access types (Table 18-5) and reset values, as the register tables of the
chapters give them (Tables 2-6 to 2-11, 5-9 to 5-12, 6-12 to 6-14, 7-6 to 7-9, 8-9 to 8-12, 9-9 to 9-11,
10-8 to 10-13, 11-10 to 11-12, 12-9 to 12-12, 13-5, 13-6, 14-6 to 14-9, 15-8 to 15-11, 16-6, 16-7, 17-6,
17-7, 18-9 to 18-13, 19-8, 19-9, 20-12, 20-13). -/

namespace Sys2Proof.Machine

/-- Access types of Table 18-5. Reserved bits are the bits no field covers. -/
inductive Acc where
  | ro | rw | rw1c | rw1s | ros | wo | stg
  deriving DecidableEq, Repr

/-- One field: lowest bit, width, access and reset value. -/
structure RegField where
  lsb : Nat
  len : Nat
  acc : Acc
  reset : Nat
  deriving DecidableEq, Repr

/-- One register, or `count` registers `stride` bytes apart. -/
structure RegDef where
  off : Nat
  stride : Nat
  count : Nat
  fields : List RegField
  deriving DecidableEq, Repr

/-- The key of a register in the register file: page number and offset in the page. A register that a
selector names, and the registers each function has for itself, repeat every `2 ^ 19`. -/
def regKey (page off : Nat) : Nat := page * 16384 + off

/-- The key of the copy `i` of a selected register. -/
def instKey (key i : Nat) : Nat := i * 524288 + key

/-- The page of a key. -/
def keyPage (k : Nat) : Nat := (k / 16384) % 32

/-- The offset in its page of a key. -/
def keyOff (k : Nat) : Nat := k % 16384

/-- The selected copy of a key. -/
def keyInst (k : Nat) : Nat := k / 524288

/-- Fields of the registers of page 0x00. -/
def regsPage0 : List RegDef := [
  -- ID_PART
  ⟨0x0100, 0x0, 1, [⟨0, 32, .ro, 0x9600⟩, ⟨32, 16, .ro, 0⟩]⟩,
  -- ID_STEPPING
  ⟨0x0108, 0x0, 1, [⟨0, 8, .ro, 0⟩, ⟨16, 16, .ro, 0⟩]⟩,
  -- ID_SERIAL
  ⟨0x0110, 0x0, 1, [⟨0, 64, .ro, 0⟩]⟩,
  -- ID_FW
  ⟨0x0118, 0x0, 1, [⟨0, 32, .ro, 0⟩, ⟨32, 32, .ro, 0⟩]⟩,
  -- ID_MANUAL
  ⟨0x0120, 0x0, 1, [⟨0, 16, .ro, 256⟩]⟩]

/-- Fields of the registers of page 0x01. -/
def regsPage1 : List RegDef := [
  -- NS_STATE
  ⟨0x0100, 0x0, 1, [⟨0, 4, .ro, 0⟩, ⟨4, 1, .ro, 0⟩, ⟨5, 1, .ro, 0⟩, ⟨8, 1, .ro, 0⟩, ⟨9, 1, .ro, 0⟩, ⟨10, 4, .ro, 0⟩]⟩,
  -- NS_DROPS
  ⟨0x0108, 0x0, 1, [⟨0, 32, .ro, 0⟩]⟩]

/-- Fields of the registers of page 0x02. -/
def regsPage2 : List RegDef := [
  -- HOST_COMMIT
  ⟨0x0100, 0x0, 1, [⟨0, 1, .rw1s, 0⟩, ⟨1, 1, .rw1s, 0⟩]⟩,
  -- HOST_COMMIT_STATUS
  ⟨0x0108, 0x0, 1, [⟨0, 1, .ro, 0⟩, ⟨16, 16, .ro, 0⟩]⟩,
  -- HOST_COMMIT_TIME
  ⟨0x0110, 0x0, 1, [⟨0, 64, .ro, 0⟩]⟩,
  -- HOST_LINK
  ⟨0x0118, 0x0, 1, [⟨0, 4, .ro, 0⟩, ⟨4, 5, .ro, 0⟩, ⟨16, 5, .ro, 0⟩]⟩,
  -- HOST_CNT
  ⟨0x0120, 0x0, 1, [⟨0, 32, .ro, 0⟩]⟩]

/-- Fields of the registers of page 0x03. -/
def regsPage3 : List RegDef := [
  -- CLEP_CTRL
  ⟨0x0100, 0x0, 1, [⟨0, 4, .stg, 8⟩, ⟨4, 2, .stg, 0⟩, ⟨6, 1, .stg, 0⟩, ⟨7, 1, .stg, 1⟩]⟩,
  -- CLEP_STATUS
  ⟨0x0108, 0x0, 1, [⟨0, 2, .ro, 0⟩, ⟨2, 1, .ro, 0⟩, ⟨3, 1, .ro, 0⟩, ⟨4, 1, .ro, 0⟩, ⟨5, 1, .ro, 0⟩, ⟨6, 1, .ro, 0⟩, ⟨7, 1, .ro, 0⟩, ⟨8, 1, .ro, 0⟩, ⟨16, 16, .ro, 0⟩]⟩,
  -- CLEP_EVENT
  ⟨0x0110, 0x0, 1, [⟨0, 1, .rw1c, 0⟩, ⟨1, 1, .rw1c, 0⟩, ⟨2, 1, .rw1c, 0⟩, ⟨3, 1, .rw1c, 0⟩, ⟨4, 1, .rw1c, 0⟩, ⟨5, 1, .rw1c, 0⟩, ⟨6, 1, .rw1c, 0⟩, ⟨7, 1, .rw1c, 0⟩, ⟨8, 1, .rw1c, 0⟩, ⟨9, 1, .rw1c, 0⟩]⟩,
  -- CLEP_NOW
  ⟨0x0118, 0x0, 1, [⟨0, 64, .ro, 0⟩]⟩,
  -- CLEP_HOLD_MAX
  ⟨0x0120, 0x0, 1, [⟨0, 32, .stg, 0x5f5e100⟩]⟩,
  -- CLEP_LAST_STEP
  ⟨0x0128, 0x0, 1, [⟨0, 64, .ro, 0⟩]⟩,
  -- CLEP_ERR_CNT
  ⟨0x0130, 0x0, 1, [⟨0, 16, .ro, 0⟩, ⟨16, 16, .ro, 0⟩, ⟨32, 16, .ro, 0⟩, ⟨48, 16, .ro, 0⟩]⟩,
  -- CLEP_SLOT_FIRED
  ⟨0x0138, 0x0, 1, [⟨0, 64, .rw1c, 0⟩]⟩,
  -- CLEP_SLOT_ARMED
  ⟨0x0140, 0x0, 1, [⟨0, 64, .ro, 0⟩]⟩,
  -- CLEP_SLOT_TIME
  ⟨0x1000, 0x10, 64, [⟨0, 64, .ro, 0⟩]⟩,
  -- CLEP_SLOT_CTRL
  ⟨0x1008, 0x10, 64, [⟨0, 3, .ro, 0⟩, ⟨3, 1, .ro, 0⟩, ⟨4, 1, .ro, 0⟩, ⟨5, 1, .ro, 0⟩, ⟨8, 16, .ro, 0⟩, ⟨32, 32, .ro, 0⟩]⟩]

/-- Fields of the registers of page 0x04. -/
def regsPage4 : List RegDef := [
  -- IDX_PRESENT
  ⟨0x0100, 0x0, 1, [⟨0, 32, .ro, 0⟩]⟩,
  -- IDX_CFG
  ⟨0x1000, 0x40, 32, [⟨0, 2, .stg, 0⟩, ⟨2, 2, .stg, 0⟩, ⟨4, 1, .stg, 0⟩, ⟨5, 2, .stg, 1⟩, ⟨8, 4, .stg, 0⟩, ⟨12, 2, .stg, 0⟩, ⟨14, 1, .stg, 0⟩, ⟨16, 8, .stg, 0⟩]⟩,
  -- IDX_GEOM
  ⟨0x1008, 0x40, 32, [⟨0, 25, .stg, 0⟩, ⟨32, 32, .stg, 0⟩]⟩,
  -- IDX_SHARD
  ⟨0x1010, 0x40, 32, [⟨0, 32, .stg, 0⟩]⟩,
  -- IDX_IMAGE_ADDR
  ⟨0x1018, 0x40, 32, [⟨0, 64, .stg, 0⟩]⟩,
  -- IDX_IMAGE_LEN
  ⟨0x1020, 0x40, 32, [⟨0, 40, .stg, 0⟩]⟩,
  -- IDX_STATUS
  ⟨0x1028, 0x40, 32, [⟨0, 2, .ro, 0⟩, ⟨8, 8, .ro, 0⟩, ⟨32, 25, .ro, 0⟩]⟩,
  -- IDX_USAGE
  ⟨0x1030, 0x40, 32, [⟨0, 32, .ro, 0⟩, ⟨32, 32, .ro, 0⟩]⟩]

/-- Fields of the registers of page 0x05. -/
def regsPage5 : List RegDef := [
  -- SRCH_CFG
  ⟨0x0100, 0x0, 1, [⟨0, 9, .stg, 8⟩, ⟨16, 14, .stg, 0x7d0⟩, ⟨32, 1, .stg, 1⟩]⟩,
  -- SRCH_CNT_SCANNED
  ⟨0x0108, 0x0, 1, [⟨0, 64, .ro, 0⟩]⟩,
  -- SRCH_CNT_SKIPPED
  ⟨0x0110, 0x0, 1, [⟨0, 64, .ro, 0⟩]⟩,
  -- SRCH_CNT_DENSE
  ⟨0x0118, 0x0, 1, [⟨0, 64, .ro, 0⟩]⟩,
  -- SRCH_CNT_THIN
  ⟨0x0120, 0x0, 1, [⟨0, 64, .ro, 0⟩]⟩,
  -- SRCH_CNT_WIDENED
  ⟨0x0128, 0x0, 1, [⟨0, 64, .ro, 0⟩]⟩,
  -- SRCH_CNT_SHORTFALL
  ⟨0x0130, 0x0, 1, [⟨0, 64, .ro, 0⟩]⟩,
  -- SRCH_CNT_STALE_EDGE
  ⟨0x0138, 0x0, 1, [⟨0, 64, .ro, 0⟩]⟩,
  -- SRCH_CNT_DROPPED
  ⟨0x0140, 0x0, 1, [⟨0, 64, .ro, 0⟩]⟩]

/-- Fields of the registers of page 0x06. -/
def regsPage6 : List RegDef := [
  -- WEIR_CTRL
  ⟨0x0100, 0x0, 1, [⟨0, 1, .rw1s, 0⟩, ⟨1, 4, .rw, 0⟩]⟩,
  -- WEIR_STATUS
  ⟨0x0108, 0x0, 1, [⟨0, 5, .ro, 0⟩, ⟨5, 1, .ro, 0⟩, ⟨6, 4, .ro, 0⟩, ⟨16, 9, .ro, 0⟩]⟩,
  -- WEIR_ERR
  ⟨0x0110, 0x0, 1, [⟨0, 16, .ro, 0⟩, ⟨16, 16, .ro, 0⟩, ⟨32, 16, .ro, 0⟩]⟩,
  -- WEIR_CNT_PASSES
  ⟨0x0118, 0x0, 1, [⟨0, 64, .ro, 0⟩]⟩,
  -- WEIR_CNT_ENTRIES
  ⟨0x0120, 0x0, 1, [⟨0, 64, .ro, 0⟩]⟩,
  -- WEIR_CNT_INSERTS
  ⟨0x0128, 0x0, 1, [⟨0, 64, .ro, 0⟩]⟩,
  -- WEIR_CNT_SPLIT
  ⟨0x0130, 0x0, 1, [⟨0, 64, .ro, 0⟩]⟩,
  -- WEIR_CNT_DUP
  ⟨0x0138, 0x0, 1, [⟨0, 64, .ro, 0⟩]⟩,
  -- WEIR_CNT_TIE
  ⟨0x0140, 0x0, 1, [⟨0, 64, .ro, 0⟩]⟩]

/-- Fields of the registers of page 0x07. -/
def regsPage7 : List RegDef := [
  -- EPOCH_CFG
  ⟨0x0100, 0x0, 1, [⟨0, 20, .stg, 0x4e20⟩, ⟨20, 20, .stg, 0x186a0⟩, ⟨40, 24, .stg, 0x100000⟩]⟩,
  -- EPOCH_CNT_FLIPS
  ⟨0x0108, 0x0, 1, [⟨0, 64, .ro, 0⟩]⟩,
  -- EPOCH_CNT_STALE
  ⟨0x0110, 0x0, 1, [⟨0, 64, .ro, 0⟩]⟩,
  -- EPOCH_CNT_WAITS
  ⟨0x0118, 0x0, 1, [⟨0, 64, .ro, 0⟩]⟩,
  -- EPOCH_CNT_SUPERSEDED
  ⟨0x0120, 0x0, 1, [⟨0, 64, .ro, 0⟩]⟩,
  -- EPOCH_CNT_CAPACITY
  ⟨0x0128, 0x0, 1, [⟨0, 64, .ro, 0⟩]⟩,
  -- EPOCH_STATE
  ⟨0x1000, 0x40, 32, [⟨0, 32, .ro, 0⟩, ⟨32, 3, .ro, 0⟩, ⟨35, 1, .ro, 0⟩, ⟨36, 1, .ro, 0⟩, ⟨37, 1, .ro, 0⟩, ⟨38, 1, .ro, 0⟩]⟩,
  -- EPOCH_FLIP_TIME
  ⟨0x1008, 0x40, 32, [⟨0, 64, .ro, 0⟩]⟩,
  -- EPOCH_LAST_FLIP
  ⟨0x1010, 0x40, 32, [⟨0, 64, .ro, 0⟩]⟩,
  -- EPOCH_DRAIN_END
  ⟨0x1018, 0x40, 32, [⟨0, 64, .ro, 0⟩]⟩,
  -- EPOCH_LEDGER
  ⟨0x1020, 0x40, 32, [⟨0, 32, .ro, 0⟩, ⟨32, 32, .ro, 0⟩]⟩]

/-- Fields of the registers of page 0x08. -/
def regsPage8 : List RegDef := [
  -- GSJ_CFG
  ⟨0x0100, 0x0, 1, [⟨0, 4, .stg, 2⟩]⟩,
  -- GSJ_STATUS
  ⟨0x0108, 0x0, 1, [⟨0, 4, .ro, 0⟩, ⟨4, 16, .ro, 0⟩]⟩,
  -- GSJ_CNT_POSITIONS
  ⟨0x0110, 0x0, 1, [⟨0, 64, .ro, 0⟩]⟩,
  -- GSJ_CNT_FETCHED
  ⟨0x0118, 0x0, 1, [⟨0, 64, .ro, 0⟩]⟩,
  -- GSJ_CNT_WINDOWS
  ⟨0x0120, 0x0, 1, [⟨0, 64, .ro, 0⟩]⟩,
  -- GSJ_CNT_SCATTER
  ⟨0x0128, 0x0, 1, [⟨0, 64, .ro, 0⟩]⟩,
  -- GSJ_CNT_PAIRS
  ⟨0x0130, 0x0, 1, [⟨0, 64, .ro, 0⟩]⟩,
  -- GSJ_CNT_CLUSTER
  ⟨0x0138, 0x0, 1, [⟨0, 64, .ro, 0⟩]⟩]

/-- Fields of the registers of page 0x09. -/
def regsPage9 : List RegDef := [
  -- RILL_SEL
  ⟨0x0100, 0x0, 1, [⟨0, 1, .rw, 0⟩, ⟨1, 3, .rw, 0⟩, ⟨4, 5, .rw, 0⟩, ⟨9, 5, .rw, 0⟩]⟩,
  -- RILL_CFG
  ⟨0x0108, 0x0, 1, [⟨0, 24, .stg, 0x20000⟩]⟩,
  -- RILL_STATUS
  ⟨0x0110, 0x0, 1, [⟨0, 2, .ro, 0⟩, ⟨2, 1, .ro, 0⟩, ⟨3, 5, .ro, 0⟩, ⟨8, 8, .ro, 0⟩, ⟨16, 4, .ro, 0⟩, ⟨20, 4, .ro, 0⟩]⟩,
  -- RILL_FAULT
  ⟨0x0118, 0x0, 1, [⟨0, 4, .ro, 0⟩, ⟨4, 3, .ro, 0⟩, ⟨7, 1, .ro, 0⟩, ⟨8, 5, .ro, 0⟩, ⟨16, 16, .ro, 0⟩, ⟨32, 8, .ro, 0⟩, ⟨48, 12, .ro, 0⟩]⟩,
  -- RILL_FAULT_TIME
  ⟨0x0120, 0x0, 1, [⟨0, 64, .ro, 0⟩]⟩,
  -- RILL_ECC
  ⟨0x0128, 0x0, 1, [⟨0, 16, .ro, 0⟩, ⟨16, 16, .ro, 0⟩, ⟨32, 16, .ro, 0⟩]⟩,
  -- RILL_INJECT
  ⟨0x0130, 0x0, 1, [⟨0, 1, .rw1s, 0⟩, ⟨1, 1, .rw1s, 0⟩]⟩,
  -- RILL_CNT_FAULTS
  ⟨0x0138, 0x0, 1, [⟨0, 16, .ro, 0⟩, ⟨16, 16, .ro, 0⟩, ⟨32, 16, .ro, 0⟩, ⟨48, 16, .ro, 0⟩]⟩,
  -- RILL_CNT_LOADS
  ⟨0x0140, 0x0, 1, [⟨0, 64, .ro, 0⟩]⟩]

/-- Fields of the registers of page 0x0A. -/
def regsPage10 : List RegDef := [
  -- RUNNEL_SEL
  ⟨0x0100, 0x0, 1, [⟨0, 1, .rw, 0⟩, ⟨1, 3, .rw, 0⟩, ⟨4, 5, .rw, 0⟩]⟩,
  -- RUNNEL_STATUS
  ⟨0x0108, 0x0, 1, [⟨0, 2, .ro, 0⟩, ⟨2, 4, .ro, 0⟩, ⟨6, 2, .ro, 0⟩, ⟨16, 16, .ro, 0⟩, ⟨32, 16, .ro, 0⟩]⟩,
  -- RUNNEL_RMAP_LO
  ⟨0x0110, 0x0, 1, [⟨0, 64, .ro, 0⟩]⟩,
  -- RUNNEL_RMAP_HI
  ⟨0x0118, 0x0, 1, [⟨0, 64, .ro, 0⟩]⟩,
  -- RUNNEL_TMAP_LO
  ⟨0x0120, 0x0, 1, [⟨0, 64, .ro, 0⟩]⟩,
  -- RUNNEL_TMAP_HI
  ⟨0x0128, 0x0, 1, [⟨0, 64, .ro, 0⟩]⟩,
  -- RUNNEL_MBX
  ⟨0x0130, 0x0, 1, [⟨0, 32, .ro, 0⟩, ⟨32, 16, .ro, 0⟩]⟩,
  -- BNET_STATUS
  ⟨0x0138, 0x0, 1, [⟨0, 2, .ro, 0⟩, ⟨2, 2, .ro, 0⟩, ⟨4, 2, .ro, 0⟩]⟩,
  -- BNET_REPLAY
  ⟨0x0140, 0x0, 1, [⟨0, 16, .ro, 0⟩, ⟨16, 16, .ro, 0⟩, ⟨32, 16, .ro, 0⟩, ⟨48, 16, .ro, 0⟩]⟩]

/-- Fields of the registers of page 0x0B. -/
def regsPage11 : List RegDef := [
  -- CASC_SEL
  ⟨0x0100, 0x0, 1, [⟨0, 1, .rw, 0⟩, ⟨1, 3, .rw, 0⟩]⟩,
  -- CASC_STATUS
  ⟨0x0108, 0x0, 1, [⟨0, 34, .ro, 0⟩, ⟨34, 2, .ro, 0⟩, ⟨36, 1, .ro, 0⟩]⟩,
  -- CASC_ERR
  ⟨0x0110, 0x0, 1, [⟨0, 16, .ro, 0⟩, ⟨16, 16, .ro, 0⟩, ⟨32, 16, .ro, 0⟩]⟩,
  -- CASC_INJECT
  ⟨0x0118, 0x0, 1, [⟨0, 1, .rw1s, 0⟩, ⟨1, 6, .rw, 0⟩]⟩,
  -- CASC_CNT_BUSY
  ⟨0x0120, 0x0, 1, [⟨0, 64, .ro, 0⟩]⟩,
  -- CASC_CNT_SKIPPED
  ⟨0x0128, 0x0, 1, [⟨0, 64, .ro, 0⟩]⟩,
  -- POUR_PRESENT
  ⟨0x0130, 0x0, 1, [⟨0, 8, .ro, 0⟩]⟩,
  -- POUR_CFG
  ⟨0x1000, 0x40, 8, [⟨0, 2, .stg, 0⟩, ⟨8, 4, .stg, 0⟩]⟩,
  -- POUR_IMAGE_ADDR
  ⟨0x1008, 0x40, 8, [⟨0, 64, .stg, 0⟩]⟩,
  -- POUR_IMAGE_LEN
  ⟨0x1010, 0x40, 8, [⟨0, 40, .stg, 0⟩]⟩,
  -- POUR_STATUS
  ⟨0x1018, 0x40, 8, [⟨0, 2, .ro, 0⟩, ⟨8, 8, .ro, 0⟩]⟩,
  -- POUR_USAGE
  ⟨0x1020, 0x40, 8, [⟨0, 32, .ro, 0⟩, ⟨32, 32, .ro, 0⟩]⟩]

/-- Fields of the registers of page 0x0C. -/
def regsPage12 : List RegDef := [
  -- SPOUT_CFG
  ⟨0x0100, 0x0, 1, [⟨0, 3, .stg, 4⟩, ⟨3, 1, .stg, 1⟩, ⟨8, 8, .stg, 16⟩]⟩,
  -- SPOUT_MIG_CFG
  ⟨0x0108, 0x0, 1, [⟨0, 1, .stg, 1⟩, ⟨8, 8, .stg, 75⟩, ⟨16, 8, .stg, 25⟩, ⟨24, 16, .stg, 64⟩, ⟨40, 4, .stg, 1⟩, ⟨44, 4, .stg, 4⟩, ⟨48, 12, .stg, 0x3e8⟩]⟩,
  -- SPOUT_SEL
  ⟨0x0110, 0x0, 1, [⟨0, 1, .rw, 0⟩, ⟨1, 1, .rw, 0⟩, ⟨2, 4, .rw, 0⟩, ⟨6, 4, .rw, 0⟩]⟩,
  -- SPOUT_STACK_STATUS
  ⟨0x0118, 0x0, 1, [⟨0, 1, .ro, 1⟩, ⟨1, 1, .ro, 0⟩, ⟨8, 9, .ro, 0⟩, ⟨32, 19, .ro, 0⟩]⟩,
  -- SPOUT_STATUS
  ⟨0x0120, 0x0, 1, [⟨0, 2, .ro, 0⟩, ⟨2, 4, .ro, 0⟩, ⟨6, 11, .ro, 0⟩, ⟨32, 16, .ro, 0⟩]⟩,
  -- SPOUT_INJECT
  ⟨0x0128, 0x0, 1, [⟨0, 1, .rw1s, 0⟩]⟩,
  -- SPOUT_CNT_SEGMENTS
  ⟨0x0130, 0x0, 1, [⟨0, 64, .ro, 0⟩]⟩,
  -- SPOUT_CNT_PASSED
  ⟨0x0138, 0x0, 1, [⟨0, 64, .ro, 0⟩]⟩,
  -- SPOUT_CNT_REFSTOP
  ⟨0x0140, 0x0, 1, [⟨0, 64, .ro, 0⟩]⟩,
  -- SPOUT_CNT_REFDELAY
  ⟨0x0148, 0x0, 1, [⟨0, 64, .ro, 0⟩]⟩,
  -- SPOUT_CNT_MIGRATE
  ⟨0x0150, 0x0, 1, [⟨0, 16, .ro, 0⟩, ⟨16, 16, .ro, 0⟩, ⟨32, 16, .ro, 0⟩]⟩,
  -- SPOUT_CNT_SCRUB
  ⟨0x0158, 0x0, 1, [⟨0, 64, .ro, 0⟩]⟩]

/-- Fields of the registers of page 0x0D. -/
def regsPage13 : List RegDef := [
  -- MEM_CFG
  ⟨0x0100, 0x0, 1, [⟨0, 16, .stg, 100⟩, ⟨16, 8, .stg, 2⟩, ⟨24, 1, .stg, 1⟩, ⟨32, 8, .stg, 4⟩, ⟨40, 8, .stg, 24⟩, ⟨48, 8, .stg, 4⟩]⟩,
  -- MEM_STATUS
  ⟨0x0108, 0x0, 1, [⟨0, 32, .ro, 0⟩, ⟨32, 32, .ro, 0⟩]⟩,
  -- MEM_HBM_SEL
  ⟨0x0110, 0x0, 1, [⟨0, 1, .rw, 0⟩, ⟨1, 1, .rw, 0⟩, ⟨2, 1, .rw, 0⟩]⟩,
  -- MEM_HBM_STATUS
  ⟨0x0118, 0x0, 1, [⟨0, 2, .ro, 0⟩, ⟨2, 1, .ro, 0⟩, ⟨8, 8, .ro, 0⟩, ⟨16, 8, .ro, 0⟩, ⟨32, 32, .ro, 0⟩]⟩,
  -- MEM_HBM_ERR
  ⟨0x0120, 0x0, 1, [⟨0, 16, .ro, 0⟩, ⟨16, 16, .ro, 0⟩, ⟨32, 16, .ro, 0⟩, ⟨48, 16, .ro, 0⟩]⟩,
  -- MEM_INJECT
  ⟨0x0128, 0x0, 1, [⟨0, 1, .rw1s, 0⟩, ⟨1, 1, .rw1s, 0⟩]⟩,
  -- MEM_CNT_HIT
  ⟨0x0130, 0x0, 1, [⟨0, 64, .ro, 0⟩]⟩,
  -- MEM_CNT_MISS
  ⟨0x0138, 0x0, 1, [⟨0, 64, .ro, 0⟩]⟩,
  -- MEM_CNT_AROUND
  ⟨0x0140, 0x0, 1, [⟨0, 64, .ro, 0⟩]⟩,
  -- MEM_CNT_TIER
  ⟨0x0148, 0x0, 1, [⟨0, 32, .ro, 0⟩, ⟨32, 32, .ro, 0⟩]⟩,
  -- MEM_CNT_MOVE
  ⟨0x0150, 0x0, 1, [⟨0, 32, .ro, 0⟩, ⟨32, 32, .ro, 0⟩]⟩,
  -- MEM_RC_SLICE
  ⟨0x1000, 0x8, 16, [⟨0, 8, .stg, 0⟩, ⟨8, 8, .stg, 0⟩]⟩]

/-- Fields of the registers of page 0x0E. -/
def regsPage14 : List RegDef := [
  -- CIST_CFG
  ⟨0x0100, 0x0, 1, [⟨0, 7, .stg, 60⟩, ⟨8, 16, .stg, 100⟩, ⟨24, 12, .stg, 200⟩, ⟨36, 4, .stg, 2⟩, ⟨40, 8, .stg, 10⟩, ⟨48, 6, .stg, 8⟩, ⟨54, 8, .stg, 7⟩]⟩,
  -- CIST_FMT
  ⟨0x0108, 0x0, 1, [⟨0, 2, .stg, 0⟩, ⟨2, 1, .stg, 0⟩, ⟨3, 6, .stg, 32⟩, ⟨9, 7, .stg, 10⟩, ⟨16, 16, .stg, 0⟩]⟩,
  -- CIST_MAPCACHE_CFG
  ⟨0x0110, 0x0, 1, [⟨0, 6, .stg, 4⟩]⟩,
  -- CIST_STATUS
  ⟨0x0118, 0x0, 1, [⟨0, 3, .ro, 0⟩, ⟨3, 1, .ro, 0⟩, ⟨4, 6, .ro, 0⟩, ⟨10, 6, .ro, 0⟩, ⟨16, 11, .ro, 0⟩, ⟨27, 1, .ro, 0⟩, ⟨28, 7, .ro, 0⟩, ⟨35, 1, .ro, 0⟩, ⟨36, 8, .ro, 0⟩]⟩,
  -- CIST_GEOM
  ⟨0x0120, 0x0, 1, [⟨0, 2, .ro, 0⟩, ⟨2, 2, .ro, 0⟩, ⟨4, 13, .ro, 0⟩, ⟨17, 15, .ro, 0⟩, ⟨32, 12, .ro, 0⟩]⟩,
  -- CIST_GEN
  ⟨0x0128, 0x0, 1, [⟨0, 32, .ro, 0⟩]⟩,
  -- CIST_CAPACITY
  ⟨0x0130, 0x0, 1, [⟨0, 40, .ro, 0⟩]⟩,
  -- CIST_USED
  ⟨0x0138, 0x0, 1, [⟨0, 40, .ro, 0⟩]⟩,
  -- CIST_MAPCACHE_STATUS
  ⟨0x0140, 0x0, 1, [⟨0, 24, .ro, 0⟩, ⟨32, 32, .ro, 0⟩]⟩,
  -- CIST_HEALTH
  ⟨0x0148, 0x0, 1, [⟨0, 8, .ro, 0⟩, ⟨8, 8, .ro, 0⟩, ⟨16, 16, .ro, 0⟩, ⟨32, 16, .ro, 0⟩, ⟨48, 16, .ro, 0⟩]⟩,
  -- CIST_ERR_A
  ⟨0x0150, 0x0, 1, [⟨0, 32, .ro, 0⟩, ⟨32, 32, .ro, 0⟩]⟩,
  -- CIST_ERR_B
  ⟨0x0158, 0x0, 1, [⟨0, 32, .ro, 0⟩, ⟨32, 32, .ro, 0⟩]⟩,
  -- CIST_ERR_C
  ⟨0x0160, 0x0, 1, [⟨0, 32, .ro, 0⟩, ⟨32, 32, .ro, 0⟩]⟩,
  -- CIST_ERR_D
  ⟨0x0168, 0x0, 1, [⟨0, 16, .ro, 0⟩, ⟨16, 16, .ro, 0⟩, ⟨32, 16, .ro, 0⟩, ⟨48, 16, .ro, 0⟩]⟩,
  -- CIST_CNT_READS
  ⟨0x0170, 0x0, 1, [⟨0, 64, .ro, 0⟩]⟩,
  -- CIST_CNT_PROG
  ⟨0x0178, 0x0, 1, [⟨0, 64, .ro, 0⟩]⟩,
  -- CIST_CNT_FILLER
  ⟨0x0180, 0x0, 1, [⟨0, 64, .ro, 0⟩]⟩,
  -- CIST_CNT_RELOC
  ⟨0x0188, 0x0, 1, [⟨0, 32, .ro, 0⟩, ⟨32, 16, .ro, 0⟩, ⟨48, 16, .ro, 0⟩]⟩,
  -- CIST_LUN_SEL
  ⟨0x0190, 0x0, 1, [⟨0, 5, .rw, 0⟩, ⟨5, 5, .rw, 0⟩]⟩,
  -- CIST_LUN_STATUS
  ⟨0x0198, 0x0, 1, [⟨0, 2, .ro, 0⟩, ⟨16, 16, .ro, 0⟩, ⟨32, 8, .ro, 0⟩, ⟨48, 16, .ro, 0⟩]⟩,
  -- CIST_INJECT
  ⟨0x01a0, 0x0, 1, [⟨0, 1, .rw1s, 0⟩, ⟨1, 1, .rw1s, 0⟩, ⟨2, 1, .rw1s, 0⟩]⟩,
  -- CIST_TEMP_HIST
  ⟨0x0200, 0x8, 8, [⟨0, 32, .ro, 0⟩, ⟨32, 32, .ro, 0⟩]⟩]

/-- Fields of the registers of page 0x0F. -/
def regsPage15 : List RegDef := [
  -- URD_CFG
  ⟨0x0100, 0x0, 1, [⟨0, 12, .stg, 0⟩, ⟨12, 1, .stg, 0⟩, ⟨16, 8, .stg, 12⟩, ⟨24, 8, .stg, 10⟩]⟩,
  -- URD_SPARE_CFG
  ⟨0x0108, 0x0, 1, [⟨0, 16, .stg, 0x1000⟩, ⟨16, 8, .stg, 16⟩, ⟨24, 8, .stg, 3⟩, ⟨32, 1, .stg, 1⟩]⟩,
  -- URD_PATH_SEL
  ⟨0x0110, 0x0, 1, [⟨0, 12, .rw, 0⟩]⟩,
  -- URD_PATH_DATA
  ⟨0x0118, 0x0, 1, [⟨0, 8, .stg, 0⟩]⟩,
  -- URD_ROUTE_SEL
  ⟨0x0120, 0x0, 1, [⟨0, 5, .rw, 0⟩, ⟨5, 12, .rw, 0⟩]⟩,
  -- URD_ROUTE_DATA
  ⟨0x0128, 0x0, 1, [⟨0, 12, .stg, 0⟩, ⟨12, 1, .stg, 0⟩]⟩,
  -- URD_PORT_SEL
  ⟨0x0130, 0x0, 1, [⟨0, 3, .rw, 0⟩]⟩,
  -- URD_PORT_STATUS
  ⟨0x0138, 0x0, 1, [⟨0, 3, .ro, 0⟩, ⟨3, 2, .ro, 0⟩, ⟨8, 16, .ro, 0⟩, ⟨24, 1, .ro, 0⟩, ⟨48, 12, .ro, 0⟩, ⟨60, 1, .ro, 0⟩]⟩,
  -- URD_PORT_ERR
  ⟨0x0140, 0x0, 1, [⟨0, 16, .ro, 0⟩, ⟨16, 16, .ro, 0⟩, ⟨32, 16, .ro, 0⟩, ⟨48, 16, .ro, 0⟩]⟩,
  -- URD_PORT_CTRL
  ⟨0x0148, 0x0, 1, [⟨0, 1, .rw1s, 0⟩, ⟨1, 1, .rw, 0⟩]⟩,
  -- URD_LANE_SEL
  ⟨0x0150, 0x0, 1, [⟨0, 6, .rw, 0⟩]⟩,
  -- URD_LANE_STATUS
  ⟨0x0158, 0x0, 1, [⟨0, 2, .ro, 0⟩, ⟨2, 3, .ro, 0⟩, ⟨5, 2, .ro, 0⟩, ⟨7, 1, .ro, 0⟩, ⟨8, 1, .ro, 0⟩, ⟨16, 1, .rw1s, 0⟩, ⟨32, 32, .ro, 0⟩]⟩,
  -- URD_LANE_MON
  ⟨0x0160, 0x0, 1, [⟨0, 16, .ro, 0⟩, ⟨16, 16, .ro, 0⟩, ⟨32, 16, .ro, 0⟩, ⟨48, 8, .ro, 0⟩, ⟨56, 8, .ro, 0⟩]⟩,
  -- URD_LANE_FEC
  ⟨0x0168, 0x0, 1, [⟨0, 32, .ro, 0⟩, ⟨32, 32, .ro, 0⟩]⟩,
  -- URD_INJECT
  ⟨0x0170, 0x0, 1, [⟨0, 1, .rw1s, 0⟩, ⟨1, 1, .rw1s, 0⟩]⟩,
  -- URD_CNT_FRAMES
  ⟨0x0178, 0x0, 1, [⟨0, 64, .ro, 0⟩]⟩,
  -- URD_CNT_REPLAY
  ⟨0x0180, 0x0, 1, [⟨0, 64, .ro, 0⟩]⟩,
  -- URD_CNT_ADMIT
  ⟨0x0188, 0x0, 1, [⟨0, 32, .ro, 0⟩, ⟨32, 32, .ro, 0⟩]⟩,
  -- URD_CNT_DROP
  ⟨0x0190, 0x0, 1, [⟨0, 16, .ro, 0⟩, ⟨16, 16, .ro, 0⟩, ⟨32, 16, .ro, 0⟩, ⟨48, 16, .ro, 0⟩]⟩]

/-- Fields of the registers of page 0x10. -/
def regsPage16 : List RegDef := [
  -- SLU_SEL
  ⟨0x0100, 0x0, 1, [⟨0, 8, .rw, 0⟩, ⟨8, 1, .rw, 0⟩]⟩,
  -- SLU_DEFCLASS
  ⟨0x0108, 0x0, 1, [⟨0, 48, .stg, 0x247870333211⟩]⟩,
  -- SLU_KINDCLASS
  ⟨0x0110, 0x0, 1, [⟨0, 56, .stg, 0xbbba9000665521⟩]⟩,
  -- SLU_POINT_CFG
  ⟨0x0118, 0x0, 1, [⟨0, 8, .stg, 16⟩]⟩,
  -- SLU_POINT_STATUS
  ⟨0x0120, 0x0, 1, [⟨0, 2, .ro, 0⟩, ⟨2, 5, .ro, 0⟩, ⟨32, 32, .ro, 0⟩]⟩,
  -- SLU_GATE_CTRL
  ⟨0x0128, 0x0, 1, [⟨0, 2, .stg, 0⟩, ⟨2, 7, .stg, 0⟩]⟩,
  -- SLU_GATE_TIME
  ⟨0x0130, 0x0, 1, [⟨0, 64, .stg, 0⟩]⟩,
  -- SLU_GATE_STATUS
  ⟨0x0138, 0x0, 1, [⟨0, 7, .ro, 0⟩, ⟨7, 6, .ro, 0⟩, ⟨13, 1, .ro, 0⟩, ⟨14, 1, .ro, 0⟩, ⟨16, 8, .ro, 0⟩]⟩,
  -- SLU_GATE_LAST
  ⟨0x0140, 0x0, 1, [⟨0, 64, .ro, 0⟩]⟩,
  -- SLU_CNT_ERR
  ⟨0x0148, 0x0, 1, [⟨0, 16, .ro, 0⟩, ⟨16, 32, .ro, 0⟩]⟩,
  -- SLU_CLASS_CFG
  ⟨0x0200, 0x8, 16, [⟨0, 8, .stg, 0⟩, ⟨8, 1, .stg, 0⟩, ⟨9, 1, .stg, 0⟩, ⟨16, 10, .stg, 0⟩, ⟨32, 16, .stg, 0⟩]⟩,
  -- SLU_CLASS_CNT
  ⟨0x0280, 0x8, 16, [⟨0, 64, .ro, 0⟩]⟩,
  -- SLU_GATE_WIN
  ⟨0x1000, 0x8, 64, [⟨0, 32, .stg, 0⟩, ⟨32, 16, .stg, 0⟩]⟩,
  -- SLU_GATE_ACTIVE_WIN
  ⟨0x1200, 0x8, 64, [⟨0, 64, .ro, 0⟩]⟩]

/-- Fields of the registers of page 0x11. -/
def regsPage17 : List RegDef := [
  -- SLC_CTRL
  ⟨0x0100, 0x0, 1, [⟨0, 2, .stg, 0⟩]⟩,
  -- SLC_SWITCH_TIME
  ⟨0x0108, 0x0, 1, [⟨0, 64, .stg, 0⟩]⟩,
  -- SLC_CFG
  ⟨0x0110, 0x0, 1, [⟨0, 20, .stg, 0xf4240⟩]⟩,
  -- SLC_NODE_CFG
  ⟨0x0118, 0x0, 1, [⟨0, 4, .stg, 8⟩]⟩,
  -- SLC_STATUS
  ⟨0x0120, 0x0, 1, [⟨0, 16, .ro, 1⟩, ⟨16, 1, .ro, 0⟩, ⟨17, 1, .ro, 0⟩, ⟨18, 1, .ro, 0⟩, ⟨32, 16, .ro, 1⟩]⟩,
  -- SLC_COMMIT_RESULT
  ⟨0x0128, 0x0, 1, [⟨0, 8, .ro, 0⟩, ⟨8, 1, .ro, 0⟩, ⟨16, 16, .ro, 0⟩, ⟨32, 8, .ro, 0⟩, ⟨40, 8, .ro, 0⟩, ⟨48, 8, .ro, 0⟩]⟩,
  -- SLC_COMMIT_INST
  ⟨0x0130, 0x0, 1, [⟨0, 16, .ro, 0⟩, ⟨16, 16, .ro, 0⟩, ⟨32, 16, .ro, 0⟩, ⟨48, 8, .ro, 0⟩]⟩,
  -- SLC_USAGE
  ⟨0x0138, 0x0, 1, [⟨0, 7, .ro, 0⟩, ⟨8, 6, .ro, 0⟩]⟩,
  -- SLC_CNT
  ⟨0x0140, 0x0, 1, [⟨0, 32, .ro, 0⟩, ⟨32, 16, .ro, 0⟩, ⟨48, 16, .ro, 0⟩]⟩,
  -- SLC_MAP_TERR
  ⟨0x1000, 0x40, 16, [⟨0, 16, .stg, 0⟩, ⟨16, 12, .stg, 0⟩, ⟨28, 1, .stg, 0⟩]⟩,
  -- SLC_MAP_HBM
  ⟨0x1008, 0x40, 16, [⟨0, 8, .stg, 0⟩, ⟨8, 8, .stg, 0⟩, ⟨16, 8, .stg, 0⟩, ⟨24, 8, .stg, 0⟩]⟩,
  -- SLC_MAP_IO
  ⟨0x1010, 0x40, 16, [⟨0, 32, .stg, 0⟩, ⟨32, 8, .stg, 0⟩]⟩,
  -- SLC_MAP_WEIGHT
  ⟨0x1018, 0x40, 16, [⟨0, 40, .stg, 0⟩]⟩,
  -- SLC_MAP_RES
  ⟨0x1020, 0x40, 16, [⟨0, 6, .stg, 0⟩, ⟨8, 4, .stg, 0⟩]⟩,
  -- SLC_SINCE
  ⟨0x1028, 0x40, 16, [⟨0, 16, .ro, 0⟩]⟩]

/-- Fields of the registers of page 0x12. -/
def regsPage18 : List RegDef := [
  -- KPR_CFG
  ⟨0x0100, 0x0, 1, [⟨0, 7, .stg, 92⟩, ⟨7, 5, .stg, 25⟩, ⟨12, 10, .stg, 950⟩, ⟨22, 8, .stg, 30⟩, ⟨30, 7, .stg, 20⟩]⟩,
  -- KPR_PMAX
  ⟨0x0108, 0x0, 1, [⟨0, 64, .stg, 0x7777777777777777⟩]⟩,
  -- KPR_POINT
  ⟨0x0110, 0x0, 1, [⟨0, 64, .ro, 0⟩]⟩,
  -- KPR_LIMIT
  ⟨0x0118, 0x0, 1, [⟨0, 48, .ro, 0⟩]⟩,
  -- KPR_POWER
  ⟨0x0120, 0x0, 1, [⟨0, 16, .ro, 0⟩, ⟨16, 16, .ro, 0⟩, ⟨32, 4, .ro, 8⟩, ⟨36, 1, .ro, 0⟩]⟩,
  -- KPR_ADVISORY
  ⟨0x0128, 0x0, 1, [⟨0, 8, .rw1c, 0⟩]⟩,
  -- KPR_ALERT_CFG
  ⟨0x0130, 0x0, 1, [⟨0, 1, .stg, 0⟩, ⟨8, 8, .stg, 255⟩, ⟨16, 12, .stg, 0⟩]⟩,
  -- KPR_SENSOR_SEL
  ⟨0x0138, 0x0, 1, [⟨0, 2, .rw, 0⟩, ⟨2, 7, .rw, 0⟩]⟩,
  -- KPR_SENSOR
  ⟨0x0140, 0x0, 1, [⟨0, 16, .ro, 0⟩, ⟨16, 16, .ro, 0⟩, ⟨32, 16, .ro, 0⟩]⟩,
  -- KPR_LOG
  ⟨0x0148, 0x0, 1, [⟨0, 32, .ro, 0⟩, ⟨32, 16, .rw1c, 0⟩]⟩,
  -- KPR_FW_CFG
  ⟨0x0150, 0x0, 1, [⟨0, 2, .stg, 0⟩]⟩,
  -- KPR_FW_ADDR
  ⟨0x0158, 0x0, 1, [⟨0, 64, .stg, 0⟩]⟩,
  -- KPR_FW_LEN
  ⟨0x0160, 0x0, 1, [⟨0, 32, .stg, 0⟩]⟩,
  -- KPR_FW_STATUS
  ⟨0x0168, 0x0, 1, [⟨0, 3, .ro, 0⟩, ⟨8, 8, .ro, 0⟩, ⟨16, 7, .ro, 0⟩, ⟨24, 7, .ro, 0⟩, ⟨32, 1, .ro, 0⟩, ⟨33, 4, .ro, 0⟩]⟩,
  -- KPR_CNT
  ⟨0x0170, 0x0, 1, [⟨0, 16, .ro, 0⟩, ⟨16, 16, .ro, 0⟩, ⟨32, 16, .ro, 0⟩, ⟨48, 16, .ro, 0⟩]⟩,
  -- KPR_INJECT
  ⟨0x0178, 0x0, 1, [⟨0, 1, .rw1s, 0⟩, ⟨1, 4, .rw, 0⟩]⟩]

/-- Fields of the registers of page 0x13. -/
def regsPage19 : List RegDef := [
  -- RST_CFG
  ⟨0x0100, 0x0, 1, [⟨0, 1, .stg, 0⟩, ⟨4, 4, .stg, 3⟩, ⟨8, 8, .stg, 10⟩, ⟨16, 16, .stg, 0x7d0⟩, ⟨32, 8, .stg, 8⟩]⟩,
  -- RST_CTRL
  ⟨0x0108, 0x0, 1, [⟨0, 1, .rw1s, 0⟩, ⟨1, 1, .rw1s, 0⟩]⟩,
  -- RST_STATUS
  ⟨0x0110, 0x0, 1, [⟨0, 4, .ro, 0⟩, ⟨8, 8, .ro, 0⟩, ⟨16, 2, .ro, 3⟩, ⟨18, 2, .ro, 3⟩, ⟨20, 1, .ro, 0⟩, ⟨21, 1, .ro, 1⟩, ⟨22, 1, .rw1c, 0⟩, ⟨23, 1, .rw1c, 0⟩]⟩,
  -- RST_LEVEL
  ⟨0x0118, 0x0, 1, [⟨0, 1, .ro, 0⟩, ⟨1, 1, .ro, 0⟩, ⟨2, 1, .ro, 0⟩, ⟨3, 1, .ro, 0⟩]⟩,
  -- RST_STRAP
  ⟨0x0120, 0x0, 1, [⟨0, 4, .ro, 0⟩, ⟨8, 24, .ro, 0⟩]⟩,
  -- RST_HB0
  ⟨0x0128, 0x0, 1, [⟨0, 32, .ro, 0⟩, ⟨32, 3, .ro, 0⟩]⟩,
  -- RST_HB1
  ⟨0x0130, 0x0, 1, [⟨0, 32, .ro, 0⟩, ⟨32, 3, .ro, 0⟩]⟩,
  -- RST_LAST
  ⟨0x0138, 0x0, 1, [⟨0, 1, .ro, 0⟩, ⟨1, 3, .ro, 0⟩, ⟨4, 2, .ro, 0⟩, ⟨8, 3, .ro, 0⟩, ⟨16, 16, .ro, 0⟩, ⟨32, 8, .ro, 0⟩]⟩,
  -- RST_LAST_TIME
  ⟨0x0140, 0x0, 1, [⟨0, 64, .ro, 0⟩]⟩,
  -- RST_SPARES
  ⟨0x0148, 0x0, 1, [⟨0, 10, .ro, 0⟩, ⟨10, 5, .ro, 0⟩, ⟨15, 6, .ro, 0⟩, ⟨21, 1, .ro, 0⟩, ⟨22, 3, .ro, 0⟩, ⟨25, 5, .ro, 0⟩, ⟨30, 11, .ro, 0⟩]⟩,
  -- RST_CNT_FAULTS
  ⟨0x0150, 0x0, 1, [⟨0, 32, .ros, 0⟩, ⟨32, 16, .ros, 0⟩, ⟨48, 16, .ros, 0⟩]⟩,
  -- RST_CNT_RESTARTS
  ⟨0x0158, 0x0, 1, [⟨0, 16, .ros, 0⟩, ⟨16, 16, .ros, 0⟩, ⟨32, 16, .ros, 0⟩, ⟨48, 16, .ros, 0⟩]⟩,
  -- RST_INJECT
  ⟨0x0160, 0x0, 1, [⟨0, 1, .rw1s, 0⟩, ⟨1, 1, .rw1s, 0⟩]⟩]

/-- Fields of the registers of page 0x14. -/
def regsPage20 : List RegDef := [
  -- HQ_EVENT
  ⟨0x0100, 0x0, 1, [⟨0, 1, .rw1c, 0⟩, ⟨1, 1, .rw1c, 0⟩, ⟨2, 1, .rw1c, 0⟩, ⟨3, 1, .rw1c, 0⟩]⟩,
  -- HQ_EVENT_EN
  ⟨0x0108, 0x0, 1, [⟨0, 4, .rw, 0⟩]⟩,
  -- HQ_CNT
  ⟨0x0110, 0x0, 1, [⟨0, 32, .ro, 0⟩, ⟨32, 32, .ro, 0⟩]⟩,
  -- HQ_SQ_BASE
  ⟨0x1000, 0x40, 16, [⟨0, 64, .rw, 0⟩]⟩,
  -- HQ_SQ_CFG
  ⟨0x1008, 0x40, 16, [⟨0, 1, .rw, 0⟩, ⟨1, 5, .rw, 4⟩]⟩,
  -- HQ_CQ_BASE
  ⟨0x1010, 0x40, 16, [⟨0, 64, .rw, 0⟩]⟩,
  -- HQ_CQ_CFG
  ⟨0x1018, 0x40, 16, [⟨0, 1, .rw, 0⟩, ⟨1, 5, .rw, 4⟩, ⟨6, 1, .rw, 0⟩, ⟨8, 8, .rw, 0⟩, ⟨16, 16, .rw, 0⟩]⟩,
  -- HQ_Q_STATUS
  ⟨0x1020, 0x40, 16, [⟨0, 16, .ro, 0⟩, ⟨16, 16, .ro, 0⟩, ⟨32, 1, .ro, 0⟩, ⟨33, 1, .ro, 0⟩, ⟨40, 24, .ro, 0⟩]⟩,
  -- HQ_SQ_TAIL_DB
  ⟨0x2000, 0x10, 16, [⟨0, 16, .wo, 0⟩]⟩,
  -- HQ_CQ_HEAD_DB
  ⟨0x2008, 0x10, 16, [⟨0, 16, .wo, 0⟩]⟩]

/-- Fields of the registers of page 0x15. -/
def regsPage21 : List RegDef := [
  -- DIP_CTRL
  ⟨0x0100, 0x0, 1, [⟨0, 4, .rw, 0⟩, ⟨4, 1, .rw, 0⟩]⟩,
  -- DIP_ADDR
  ⟨0x0108, 0x0, 1, [⟨0, 64, .rw, 0⟩]⟩,
  -- DIP_STATUS
  ⟨0x0110, 0x0, 1, [⟨0, 1, .ro, 0⟩, ⟨1, 1, .rw1c, 0⟩, ⟨8, 8, .ro, 0⟩, ⟨32, 32, .ro, 0⟩]⟩,
  -- DIP_DATA
  ⟨0x0118, 0x0, 1, [⟨0, 64, .rw, 0⟩]⟩]

/-! Keys of the registers by the manual's names. -/
def Reg.ID_PART : Nat := regKey 0x00 0x0100
def Reg.ID_STEPPING : Nat := regKey 0x00 0x0108
def Reg.ID_SERIAL : Nat := regKey 0x00 0x0110
def Reg.ID_FW : Nat := regKey 0x00 0x0118
def Reg.ID_MANUAL : Nat := regKey 0x00 0x0120
def Reg.NS_STATE : Nat := regKey 0x01 0x0100
def Reg.NS_DROPS : Nat := regKey 0x01 0x0108
def Reg.HOST_COMMIT : Nat := regKey 0x02 0x0100
def Reg.HOST_COMMIT_STATUS : Nat := regKey 0x02 0x0108
def Reg.HOST_COMMIT_TIME : Nat := regKey 0x02 0x0110
def Reg.HOST_LINK : Nat := regKey 0x02 0x0118
def Reg.HOST_CNT : Nat := regKey 0x02 0x0120
def Reg.CLEP_CTRL : Nat := regKey 0x03 0x0100
def Reg.CLEP_STATUS : Nat := regKey 0x03 0x0108
def Reg.CLEP_EVENT : Nat := regKey 0x03 0x0110
def Reg.CLEP_NOW : Nat := regKey 0x03 0x0118
def Reg.CLEP_HOLD_MAX : Nat := regKey 0x03 0x0120
def Reg.CLEP_LAST_STEP : Nat := regKey 0x03 0x0128
def Reg.CLEP_ERR_CNT : Nat := regKey 0x03 0x0130
def Reg.CLEP_SLOT_FIRED : Nat := regKey 0x03 0x0138
def Reg.CLEP_SLOT_ARMED : Nat := regKey 0x03 0x0140
def Reg.CLEP_SLOT_TIME : Nat := regKey 0x03 0x1000
def Reg.CLEP_SLOT_CTRL : Nat := regKey 0x03 0x1008
def Reg.IDX_PRESENT : Nat := regKey 0x04 0x0100
def Reg.IDX_CFG : Nat := regKey 0x04 0x1000
def Reg.IDX_GEOM : Nat := regKey 0x04 0x1008
def Reg.IDX_SHARD : Nat := regKey 0x04 0x1010
def Reg.IDX_IMAGE_ADDR : Nat := regKey 0x04 0x1018
def Reg.IDX_IMAGE_LEN : Nat := regKey 0x04 0x1020
def Reg.IDX_STATUS : Nat := regKey 0x04 0x1028
def Reg.IDX_USAGE : Nat := regKey 0x04 0x1030
def Reg.SRCH_CFG : Nat := regKey 0x05 0x0100
def Reg.SRCH_CNT_SCANNED : Nat := regKey 0x05 0x0108
def Reg.SRCH_CNT_SKIPPED : Nat := regKey 0x05 0x0110
def Reg.SRCH_CNT_DENSE : Nat := regKey 0x05 0x0118
def Reg.SRCH_CNT_THIN : Nat := regKey 0x05 0x0120
def Reg.SRCH_CNT_WIDENED : Nat := regKey 0x05 0x0128
def Reg.SRCH_CNT_SHORTFALL : Nat := regKey 0x05 0x0130
def Reg.SRCH_CNT_STALE_EDGE : Nat := regKey 0x05 0x0138
def Reg.SRCH_CNT_DROPPED : Nat := regKey 0x05 0x0140
def Reg.WEIR_CTRL : Nat := regKey 0x06 0x0100
def Reg.WEIR_STATUS : Nat := regKey 0x06 0x0108
def Reg.WEIR_ERR : Nat := regKey 0x06 0x0110
def Reg.WEIR_CNT_PASSES : Nat := regKey 0x06 0x0118
def Reg.WEIR_CNT_ENTRIES : Nat := regKey 0x06 0x0120
def Reg.WEIR_CNT_INSERTS : Nat := regKey 0x06 0x0128
def Reg.WEIR_CNT_SPLIT : Nat := regKey 0x06 0x0130
def Reg.WEIR_CNT_DUP : Nat := regKey 0x06 0x0138
def Reg.WEIR_CNT_TIE : Nat := regKey 0x06 0x0140
def Reg.EPOCH_CFG : Nat := regKey 0x07 0x0100
def Reg.EPOCH_CNT_FLIPS : Nat := regKey 0x07 0x0108
def Reg.EPOCH_CNT_STALE : Nat := regKey 0x07 0x0110
def Reg.EPOCH_CNT_WAITS : Nat := regKey 0x07 0x0118
def Reg.EPOCH_CNT_SUPERSEDED : Nat := regKey 0x07 0x0120
def Reg.EPOCH_CNT_CAPACITY : Nat := regKey 0x07 0x0128
def Reg.EPOCH_STATE : Nat := regKey 0x07 0x1000
def Reg.EPOCH_FLIP_TIME : Nat := regKey 0x07 0x1008
def Reg.EPOCH_LAST_FLIP : Nat := regKey 0x07 0x1010
def Reg.EPOCH_DRAIN_END : Nat := regKey 0x07 0x1018
def Reg.EPOCH_LEDGER : Nat := regKey 0x07 0x1020
def Reg.GSJ_CFG : Nat := regKey 0x08 0x0100
def Reg.GSJ_STATUS : Nat := regKey 0x08 0x0108
def Reg.GSJ_CNT_POSITIONS : Nat := regKey 0x08 0x0110
def Reg.GSJ_CNT_FETCHED : Nat := regKey 0x08 0x0118
def Reg.GSJ_CNT_WINDOWS : Nat := regKey 0x08 0x0120
def Reg.GSJ_CNT_SCATTER : Nat := regKey 0x08 0x0128
def Reg.GSJ_CNT_PAIRS : Nat := regKey 0x08 0x0130
def Reg.GSJ_CNT_CLUSTER : Nat := regKey 0x08 0x0138
def Reg.RILL_SEL : Nat := regKey 0x09 0x0100
def Reg.RILL_CFG : Nat := regKey 0x09 0x0108
def Reg.RILL_STATUS : Nat := regKey 0x09 0x0110
def Reg.RILL_FAULT : Nat := regKey 0x09 0x0118
def Reg.RILL_FAULT_TIME : Nat := regKey 0x09 0x0120
def Reg.RILL_ECC : Nat := regKey 0x09 0x0128
def Reg.RILL_INJECT : Nat := regKey 0x09 0x0130
def Reg.RILL_CNT_FAULTS : Nat := regKey 0x09 0x0138
def Reg.RILL_CNT_LOADS : Nat := regKey 0x09 0x0140
def Reg.RUNNEL_SEL : Nat := regKey 0x0A 0x0100
def Reg.RUNNEL_STATUS : Nat := regKey 0x0A 0x0108
def Reg.RUNNEL_RMAP_LO : Nat := regKey 0x0A 0x0110
def Reg.RUNNEL_RMAP_HI : Nat := regKey 0x0A 0x0118
def Reg.RUNNEL_TMAP_LO : Nat := regKey 0x0A 0x0120
def Reg.RUNNEL_TMAP_HI : Nat := regKey 0x0A 0x0128
def Reg.RUNNEL_MBX : Nat := regKey 0x0A 0x0130
def Reg.BNET_STATUS : Nat := regKey 0x0A 0x0138
def Reg.BNET_REPLAY : Nat := regKey 0x0A 0x0140
def Reg.CASC_SEL : Nat := regKey 0x0B 0x0100
def Reg.CASC_STATUS : Nat := regKey 0x0B 0x0108
def Reg.CASC_ERR : Nat := regKey 0x0B 0x0110
def Reg.CASC_INJECT : Nat := regKey 0x0B 0x0118
def Reg.CASC_CNT_BUSY : Nat := regKey 0x0B 0x0120
def Reg.CASC_CNT_SKIPPED : Nat := regKey 0x0B 0x0128
def Reg.POUR_PRESENT : Nat := regKey 0x0B 0x0130
def Reg.POUR_CFG : Nat := regKey 0x0B 0x1000
def Reg.POUR_IMAGE_ADDR : Nat := regKey 0x0B 0x1008
def Reg.POUR_IMAGE_LEN : Nat := regKey 0x0B 0x1010
def Reg.POUR_STATUS : Nat := regKey 0x0B 0x1018
def Reg.POUR_USAGE : Nat := regKey 0x0B 0x1020
def Reg.SPOUT_CFG : Nat := regKey 0x0C 0x0100
def Reg.SPOUT_MIG_CFG : Nat := regKey 0x0C 0x0108
def Reg.SPOUT_SEL : Nat := regKey 0x0C 0x0110
def Reg.SPOUT_STACK_STATUS : Nat := regKey 0x0C 0x0118
def Reg.SPOUT_STATUS : Nat := regKey 0x0C 0x0120
def Reg.SPOUT_INJECT : Nat := regKey 0x0C 0x0128
def Reg.SPOUT_CNT_SEGMENTS : Nat := regKey 0x0C 0x0130
def Reg.SPOUT_CNT_PASSED : Nat := regKey 0x0C 0x0138
def Reg.SPOUT_CNT_REFSTOP : Nat := regKey 0x0C 0x0140
def Reg.SPOUT_CNT_REFDELAY : Nat := regKey 0x0C 0x0148
def Reg.SPOUT_CNT_MIGRATE : Nat := regKey 0x0C 0x0150
def Reg.SPOUT_CNT_SCRUB : Nat := regKey 0x0C 0x0158
def Reg.MEM_CFG : Nat := regKey 0x0D 0x0100
def Reg.MEM_STATUS : Nat := regKey 0x0D 0x0108
def Reg.MEM_HBM_SEL : Nat := regKey 0x0D 0x0110
def Reg.MEM_HBM_STATUS : Nat := regKey 0x0D 0x0118
def Reg.MEM_HBM_ERR : Nat := regKey 0x0D 0x0120
def Reg.MEM_INJECT : Nat := regKey 0x0D 0x0128
def Reg.MEM_CNT_HIT : Nat := regKey 0x0D 0x0130
def Reg.MEM_CNT_MISS : Nat := regKey 0x0D 0x0138
def Reg.MEM_CNT_AROUND : Nat := regKey 0x0D 0x0140
def Reg.MEM_CNT_TIER : Nat := regKey 0x0D 0x0148
def Reg.MEM_CNT_MOVE : Nat := regKey 0x0D 0x0150
def Reg.MEM_RC_SLICE : Nat := regKey 0x0D 0x1000
def Reg.CIST_CFG : Nat := regKey 0x0E 0x0100
def Reg.CIST_FMT : Nat := regKey 0x0E 0x0108
def Reg.CIST_MAPCACHE_CFG : Nat := regKey 0x0E 0x0110
def Reg.CIST_STATUS : Nat := regKey 0x0E 0x0118
def Reg.CIST_GEOM : Nat := regKey 0x0E 0x0120
def Reg.CIST_GEN : Nat := regKey 0x0E 0x0128
def Reg.CIST_CAPACITY : Nat := regKey 0x0E 0x0130
def Reg.CIST_USED : Nat := regKey 0x0E 0x0138
def Reg.CIST_MAPCACHE_STATUS : Nat := regKey 0x0E 0x0140
def Reg.CIST_HEALTH : Nat := regKey 0x0E 0x0148
def Reg.CIST_ERR_A : Nat := regKey 0x0E 0x0150
def Reg.CIST_ERR_B : Nat := regKey 0x0E 0x0158
def Reg.CIST_ERR_C : Nat := regKey 0x0E 0x0160
def Reg.CIST_ERR_D : Nat := regKey 0x0E 0x0168
def Reg.CIST_CNT_READS : Nat := regKey 0x0E 0x0170
def Reg.CIST_CNT_PROG : Nat := regKey 0x0E 0x0178
def Reg.CIST_CNT_FILLER : Nat := regKey 0x0E 0x0180
def Reg.CIST_CNT_RELOC : Nat := regKey 0x0E 0x0188
def Reg.CIST_LUN_SEL : Nat := regKey 0x0E 0x0190
def Reg.CIST_LUN_STATUS : Nat := regKey 0x0E 0x0198
def Reg.CIST_INJECT : Nat := regKey 0x0E 0x01A0
def Reg.CIST_TEMP_HIST : Nat := regKey 0x0E 0x0200
def Reg.URD_CFG : Nat := regKey 0x0F 0x0100
def Reg.URD_SPARE_CFG : Nat := regKey 0x0F 0x0108
def Reg.URD_PATH_SEL : Nat := regKey 0x0F 0x0110
def Reg.URD_PATH_DATA : Nat := regKey 0x0F 0x0118
def Reg.URD_ROUTE_SEL : Nat := regKey 0x0F 0x0120
def Reg.URD_ROUTE_DATA : Nat := regKey 0x0F 0x0128
def Reg.URD_PORT_SEL : Nat := regKey 0x0F 0x0130
def Reg.URD_PORT_STATUS : Nat := regKey 0x0F 0x0138
def Reg.URD_PORT_ERR : Nat := regKey 0x0F 0x0140
def Reg.URD_PORT_CTRL : Nat := regKey 0x0F 0x0148
def Reg.URD_LANE_SEL : Nat := regKey 0x0F 0x0150
def Reg.URD_LANE_STATUS : Nat := regKey 0x0F 0x0158
def Reg.URD_LANE_MON : Nat := regKey 0x0F 0x0160
def Reg.URD_LANE_FEC : Nat := regKey 0x0F 0x0168
def Reg.URD_INJECT : Nat := regKey 0x0F 0x0170
def Reg.URD_CNT_FRAMES : Nat := regKey 0x0F 0x0178
def Reg.URD_CNT_REPLAY : Nat := regKey 0x0F 0x0180
def Reg.URD_CNT_ADMIT : Nat := regKey 0x0F 0x0188
def Reg.URD_CNT_DROP : Nat := regKey 0x0F 0x0190
def Reg.SLU_SEL : Nat := regKey 0x10 0x0100
def Reg.SLU_DEFCLASS : Nat := regKey 0x10 0x0108
def Reg.SLU_KINDCLASS : Nat := regKey 0x10 0x0110
def Reg.SLU_POINT_CFG : Nat := regKey 0x10 0x0118
def Reg.SLU_POINT_STATUS : Nat := regKey 0x10 0x0120
def Reg.SLU_GATE_CTRL : Nat := regKey 0x10 0x0128
def Reg.SLU_GATE_TIME : Nat := regKey 0x10 0x0130
def Reg.SLU_GATE_STATUS : Nat := regKey 0x10 0x0138
def Reg.SLU_GATE_LAST : Nat := regKey 0x10 0x0140
def Reg.SLU_CNT_ERR : Nat := regKey 0x10 0x0148
def Reg.SLU_CLASS_CFG : Nat := regKey 0x10 0x0200
def Reg.SLU_CLASS_CNT : Nat := regKey 0x10 0x0280
def Reg.SLU_GATE_WIN : Nat := regKey 0x10 0x1000
def Reg.SLU_GATE_ACTIVE_WIN : Nat := regKey 0x10 0x1200
def Reg.SLC_CTRL : Nat := regKey 0x11 0x0100
def Reg.SLC_SWITCH_TIME : Nat := regKey 0x11 0x0108
def Reg.SLC_CFG : Nat := regKey 0x11 0x0110
def Reg.SLC_NODE_CFG : Nat := regKey 0x11 0x0118
def Reg.SLC_STATUS : Nat := regKey 0x11 0x0120
def Reg.SLC_COMMIT_RESULT : Nat := regKey 0x11 0x0128
def Reg.SLC_COMMIT_INST : Nat := regKey 0x11 0x0130
def Reg.SLC_USAGE : Nat := regKey 0x11 0x0138
def Reg.SLC_CNT : Nat := regKey 0x11 0x0140
def Reg.SLC_MAP_TERR : Nat := regKey 0x11 0x1000
def Reg.SLC_MAP_HBM : Nat := regKey 0x11 0x1008
def Reg.SLC_MAP_IO : Nat := regKey 0x11 0x1010
def Reg.SLC_MAP_WEIGHT : Nat := regKey 0x11 0x1018
def Reg.SLC_MAP_RES : Nat := regKey 0x11 0x1020
def Reg.SLC_SINCE : Nat := regKey 0x11 0x1028
def Reg.KPR_CFG : Nat := regKey 0x12 0x0100
def Reg.KPR_PMAX : Nat := regKey 0x12 0x0108
def Reg.KPR_POINT : Nat := regKey 0x12 0x0110
def Reg.KPR_LIMIT : Nat := regKey 0x12 0x0118
def Reg.KPR_POWER : Nat := regKey 0x12 0x0120
def Reg.KPR_ADVISORY : Nat := regKey 0x12 0x0128
def Reg.KPR_ALERT_CFG : Nat := regKey 0x12 0x0130
def Reg.KPR_SENSOR_SEL : Nat := regKey 0x12 0x0138
def Reg.KPR_SENSOR : Nat := regKey 0x12 0x0140
def Reg.KPR_LOG : Nat := regKey 0x12 0x0148
def Reg.KPR_FW_CFG : Nat := regKey 0x12 0x0150
def Reg.KPR_FW_ADDR : Nat := regKey 0x12 0x0158
def Reg.KPR_FW_LEN : Nat := regKey 0x12 0x0160
def Reg.KPR_FW_STATUS : Nat := regKey 0x12 0x0168
def Reg.KPR_CNT : Nat := regKey 0x12 0x0170
def Reg.KPR_INJECT : Nat := regKey 0x12 0x0178
def Reg.RST_CFG : Nat := regKey 0x13 0x0100
def Reg.RST_CTRL : Nat := regKey 0x13 0x0108
def Reg.RST_STATUS : Nat := regKey 0x13 0x0110
def Reg.RST_LEVEL : Nat := regKey 0x13 0x0118
def Reg.RST_STRAP : Nat := regKey 0x13 0x0120
def Reg.RST_HB0 : Nat := regKey 0x13 0x0128
def Reg.RST_HB1 : Nat := regKey 0x13 0x0130
def Reg.RST_LAST : Nat := regKey 0x13 0x0138
def Reg.RST_LAST_TIME : Nat := regKey 0x13 0x0140
def Reg.RST_SPARES : Nat := regKey 0x13 0x0148
def Reg.RST_CNT_FAULTS : Nat := regKey 0x13 0x0150
def Reg.RST_CNT_RESTARTS : Nat := regKey 0x13 0x0158
def Reg.RST_INJECT : Nat := regKey 0x13 0x0160
def Reg.HQ_EVENT : Nat := regKey 0x14 0x0100
def Reg.HQ_EVENT_EN : Nat := regKey 0x14 0x0108
def Reg.HQ_CNT : Nat := regKey 0x14 0x0110
def Reg.HQ_SQ_BASE : Nat := regKey 0x14 0x1000
def Reg.HQ_SQ_CFG : Nat := regKey 0x14 0x1008
def Reg.HQ_CQ_BASE : Nat := regKey 0x14 0x1010
def Reg.HQ_CQ_CFG : Nat := regKey 0x14 0x1018
def Reg.HQ_Q_STATUS : Nat := regKey 0x14 0x1020
def Reg.HQ_SQ_TAIL_DB : Nat := regKey 0x14 0x2000
def Reg.HQ_CQ_HEAD_DB : Nat := regKey 0x14 0x2008
def Reg.DIP_CTRL : Nat := regKey 0x15 0x0100
def Reg.DIP_ADDR : Nat := regKey 0x15 0x0108
def Reg.DIP_STATUS : Nat := regKey 0x15 0x0110
def Reg.DIP_DATA : Nat := regKey 0x15 0x0118

/-- The registers of a page (Table 18-3). -/
def pageRegs : Nat → List RegDef
  | 0 => regsPage0
  | 1 => regsPage1
  | 2 => regsPage2
  | 3 => regsPage3
  | 4 => regsPage4
  | 5 => regsPage5
  | 6 => regsPage6
  | 7 => regsPage7
  | 8 => regsPage8
  | 9 => regsPage9
  | 10 => regsPage10
  | 11 => regsPage11
  | 12 => regsPage12
  | 13 => regsPage13
  | 14 => regsPage14
  | 15 => regsPage15
  | 16 => regsPage16
  | 17 => regsPage17
  | 18 => regsPage18
  | 19 => regsPage19
  | 20 => regsPage20
  | 21 => regsPage21
  | _ => []

/-- Does the register definition cover this offset? -/
def RegDef.covers (d : RegDef) (off : Nat) : Bool :=
  if d.count = 1 then off == d.off
  else d.off ≤ off && off < d.off + d.stride * d.count && (off - d.off) % d.stride == 0

/-- The register at a page and offset, if the page has one there. -/
def regDef? (page off : Nat) : Option RegDef := (pageRegs page).find? (·.covers off)

/-- The bits of a register whose fields satisfy `p`. -/
def fieldsMask (fs : List RegField) (p : RegField → Bool) : U64 :=
  fs.foldl (fun m f => if p f then m ||| maskOf f.lsb f.len else m) 0

/-- The bits of the register at a key that have one of the access types `as`. -/
def accMask (key : Nat) (as : List Acc) : U64 :=
  match regDef? (keyPage key) (keyOff key) with
  | some d => fieldsMask d.fields (fun f => as.contains f.acc)
  | none => 0

/-- The value that the fields' reset values give a register. -/
def fieldsReset (fs : List RegField) : U64 :=
  fs.foldl (fun w f => setField w f.lsb f.len f.reset) 0

end Sys2Proof.Machine
end

