-- ==== Sys2Proof/Machine/Types.lean ====
section
/-! DEFINITION. Plain data of Clepsydra, the Reservoir, slices, parts and the host port (chapters "Clepsydra
time", "The request contract", "The search pipeline", "Gather, scatter and joins", "Slices and composition" and
"Host port and register pages"). -/

namespace Sys2Proof.Machine

/-! ### Clepsydra -/

/-- One value for reference or sync pair A and one for B (Table 2-1). -/
structure Pair (α : Type) where
  a : α
  b : α
  deriving DecidableEq, Repr

/-- Lock states (Table 2-2). -/
inductive Lock where
  | free | acquire | locked | holdover
  deriving DecidableEq, Repr

/-- Kinds of event slots (Table 2-11). -/
inductive SlotKind where
  | free | heartbeat | epochFlip | gateTakeover | mapSwitch
  deriving DecidableEq, Repr

/-- An event slot (R36, Table 2-11). `missed` says that its time arrived while it could not fire (R38, R39). -/
structure EvSlot where
  kind : SlotKind
  time : Time
  armed : Bool
  isLocal : Bool
  late : Bool
  owner : Nat
  period : Nat
  missed : Bool
  deriving DecidableEq, Repr

/-- A free slot. -/
def EvSlot.none : EvSlot where
  kind := .free
  time := 0
  armed := false
  isLocal := false
  late := false
  owner := 0
  period := 0
  missed := false

/-- The Clepsydra receiver and Keeper's count keeping (R22 to R33). `ticks` is the time on the node's own clocks in units of
10 ns: it rises by 1 with each drop and no step or slew moves it (R43). `slew` is what is left of a slew in drops, positive
where the count is ahead of the reference, and `slewRun` the drops since its last whole drop (R32). `began` says that a
bring-up has begun since the standby supply came up, `fresh` that the present one is the first and that no count of Keeper's own has
been loaded in it, and `endCount` is the count at the end of the last reset (R24). -/
structure Clep where
  count : Time
  ticks : Time
  slew : Int
  slewRun : Nat
  fresh : Bool
  began : Bool
  endCount : Time
  lock : Lock
  internal : Bool
  refOk : Pair Bool
  refGood : Pair Nat
  syncOk : Pair Bool
  syncGood : Pair Nat
  syncOff : Pair (Option Int)
  useB : Bool
  countValid : Bool
  phaseErr : U16
  lockRun : Nat
  disagree : Nat
  holdFrom : Time
  pendingWord : Option Time
  portWords : List (Nat × Time)
  lossHeld : Bool
  lastStep : U64
  slots : Store EvSlot
  deriving DecidableEq, Repr

/-! ### Requests -/

/-- Phases of the opcodes (Tables 6-1 and 9-1, R178, R193, R200, R308). -/
inductive Phase where
  | coarse | scan | rerank | wscan | wrerank | merge
  | check | stage | commit
  | coalesce | fetch | exact | sum | sched | select | sample
  deriving DecidableEq, Repr

/-- Where an accepted request stands: waiting for a flip (R190), a map switch (R447), a coalescer window (R235)
or dirty room (R358), running a phase, or answered and awaiting delivery (R62). -/
inductive Life where
  | waitFlip | waitMap | waitWindow | waitRoom | running | answered
  deriving DecidableEq, Repr

/-- Retained work of one query or probe (Table 6-1): the quantized query, its sketch, the centroid order prefix,
the number of probes, stale edges, candidates with DUP_COUNT, survivors. -/
structure QWork where
  query : Query
  sketch : Nat
  order : List (Nat × F32)
  probes : Nat
  stale : Nat
  cands : List Cand
  dup : Nat
  surv : List Entry
  widened : Bool
  deriving DecidableEq, Repr

/-- A pair of a JOIN with its Hamming distance (Table 9-6). -/
structure JPair where
  a : U64
  b : GlobalId
  ham : Nat
  score : F32
  deriving DecidableEq, Repr

/-- The candidate set of one A of a JOIN with its DUP_COUNT (R243). -/
structure JCand where
  a : U64
  cands : List Cand
  dup : Nat
  deriving DecidableEq, Repr

/-- Retained output of a request's completed phases (R62). `table` and `posMap` are the distinct IDs and the position map of a
coalesce phase (Table 9-1). -/
structure Work where
  queries : List QWork := []
  joins : List JCand := []
  recs : List WriteRec := []
  rows : List (GlobalId × Option Row) := []
  table : List GlobalId := []
  posMap : List Nat := []
  samples : List (List Byte) := []
  result : List Byte := []
  count : Nat := 0
  dups : Nat := 0
  passed : Bool := false
  deriving DecidableEq, Repr

/-- A response as its header fields and payload (Table 3-5). -/
structure Resp where
  status : Nat
  flags : Nat
  mapGen : U16
  epoch : Epoch
  count : Nat
  tieExcl : Nat
  dupCount : Nat
  staleEdges : Nat
  distinct : Nat
  reruns : Nat
  spares : Nat
  tAccept : Time
  doneDelta : Nat
  payload : List Byte
  deriving DecidableEq, Repr

/-- A slice map entry (Table 17-7): the five registers of SLC_MAP. -/
structure MapEntry where
  terr : U64
  hbm : U64
  io : U64
  weight : U64
  res : U64
  deriving DecidableEq, Repr

/-- A return record (R63): what the node needs to form and send a response. -/
structure RetRec where
  reqId : U64
  slice : Byte
  attempt : Byte
  replyTo : U64
  src : Source
  deadline : Time
  tAccept : Time
  deriving DecidableEq, Repr

/-- An accepted request (R62 to R64). `op` is its OPCODE, `gen` and `epoch` the generation and epoch it runs
under, `entry` its slice's map entry in force at ACCEPT (R449), `nodePart` whether it was admitted against the
node part of Reservoir SRAM (R53). `cls` is its class from ACCEPT (R436) and `orphan` says that the function it came
from has been reset since (R482). `phaseRuns` counts the runs of the present phase, `suspect` is the unit whose
fault the last run met (R497), `onSpare` the spare the present run tries (R498). `ret` holds the two copies of the return record
(R63), `spill` says that the descriptor sits in the HBM spill (R62), `lost` that it or retained output cannot be read back
any more (R66), and `ran` that it has passed every check of Table 3-4. -/
structure Req where
  op : Nat
  hdr : ReqHdr
  payload : List Byte
  src : Source
  tAccept : Time
  life : Life
  phase : Phase
  gen : U16
  epoch : Epoch
  entry : MapEntry
  nodePart : Bool
  reruns : Nat := 0
  spares : Nat := 0
  phaseRuns : Nat := 0
  suspect : Option (Nat × Nat) := none
  onSpare : Option (Nat × Nat) := none
  holds : Bool := false
  winLeft : Nat := 0
  winOpen : Bool := false
  work : Work := {}
  resp : Option Resp := none
  cls : Nat := 0
  orphan : Bool := false
  toSource : Bool := false
  ret : Pair (Option RetRec) := ⟨none, none⟩
  spill : Bool := false
  lost : Bool := false
  ran : Bool := false
  deriving DecidableEq, Repr

/-- The kind of a part exchange. -/
inductive PartKind where
  | rerank | wrerank | gather
  deriving DecidableEq, Repr

/-- A part this node sent for one of its requests and whose reply it awaits (R153, R232). `groups` holds, for each
query record (one for a gather part), the query's number and its IDs. -/
structure PartOut where
  token : Nat
  rid : Nat
  kind : PartKind
  shard : U32
  groups : List (Nat × List GlobalId)
  body : List Byte
  busy : Bool
  done : Bool
  deriving DecidableEq, Repr

/-- A part this node admitted as owner (R561). `waits` says that it waits for a flip (R191). `reply` holds the reply as the
run of its phase has formed it, with the candidates it dropped, until the phase completes; `entry` and `gen` are the map in force at
its admission (R448); `runs` counts the phase's re-executions, and `suspect`, `onSpare` and `lost` are as in `Req` (R65, R66). -/
structure PartIn where
  kind : PartKind
  body : List Byte
  port : Nat
  src : U64
  slice : Option Nat
  tAccept : Time
  entry : MapEntry := ⟨0, 0, 0, 0, 0⟩
  gen : U16 := 0
  waits : Bool := false
  reply : Option (List Byte × Nat) := none
  lost : Bool := false
  runs : Nat := 0
  suspect : Option (Nat × Nat) := none
  onSpare : Option (Nat × Nat) := none
  deriving DecidableEq, Repr

/-- A batch window of a list (R143): the index and slot, the Basin, the opening count and the probes that joined
as request, query and whether the request is an exact JOIN scan (dense only, R243). -/
structure Window where
  idx : Nat
  slot : Nat
  basin : Nat
  opened : Time
  members : List (Nat × Nat × Bool)
  deriving DecidableEq, Repr

/-- The Headworks request counters, which no register page gives a place (R55, R71): responses sent to the link-level
source under R55, and responses and part replies dropped under R71. Their widths are open (DESIGN CHOICE, log 35). -/
structure HwReq where
  toSource : Nat
  undelivered : Nat
  deriving DecidableEq, Repr

/-! ### Slices -/

/-- A pending slice map (R444). -/
structure PendingMap where
  map : List MapEntry
  time : Time
  slot : Nat
  deriving DecidableEq, Repr

/-- A resource that a switch moves and that is not yet released (Table 17-3): Terrace, or HBM granules of a
Basin and kind, from one slice to another. -/
inductive Moving where
  | terrace (t : Nat) (old : Nat) (new : Option Nat)
  | granule (basin kind : Nat) (old : Nat) (n : Nat)
  deriving DecidableEq, Repr

/-- An HBM granule that a slice holds: GiB `num` of a stack as Table 5-2 numbers it (R440). -/
structure Granule where
  slice : Nat
  basin : Nat
  stack : Nat
  num : Nat
  deriving DecidableEq, Repr

/-- A granule that a change takes from its slice, and whether it holds no page of the slice any more (R453). -/
structure Leave where
  gran : Granule
  moved : Bool
  deriving DecidableEq, Repr

/-- The slice map in force and what is changing (R440 to R453). `held` lists the granules of the slices, `leaving` those that a change
takes away, and `lacks` the replicas that a Terrace does not hold yet: node Terrace and object,
2 × i and 2 × i + 1 for the centroid table and the projection of index i, 64 + n for program slot n (R452). `gated` counts the
granules that a slice has gained and that have not passed to it: slice, Basin, kind and number (R450). -/
structure Slices where
  gen : U16
  map : List MapEntry
  since : List U16
  pending : Option PendingMap
  late : Bool
  switchedAt : Time
  moving : List Moving
  held : List Granule
  leaving : List Leave
  lacks : List (Nat × Nat)
  gated : List (Nat × Nat × Nat × Nat)
  deriving DecidableEq, Repr

/-! ### Host port -/

/-- A completion the node owes a queue (R477): TAG, buffer, request ID and the response. -/
structure Owed where
  rid : Option Nat
  tag : U32
  addr : U64
  len : U32
  qstatus : Nat
  reqId : U64
  bytes : List Byte
  deadline : Time
  deriving DecidableEq, Repr

/-- A submission entry (Table 18-6). -/
structure SqEntry where
  reqAddr : U64
  reqLen : U32
  respLen : U32
  respAddr : U64
  tag : U32
  rsv : U32
  deriving DecidableEq, Repr

/-- A queue pair (R473 to R478). `fetched` are entries read and checked whose request bytes are being read. -/
structure Queue where
  sqBase : U64
  sqEn : Bool
  sqLog2 : Nat
  cqBase : U64
  cqEn : Bool
  cqLog2 : Nat
  intEn : Bool
  coalN : Nat
  coalUs : Nat
  sqHead : Nat
  sqTail : Nat
  cqTail : Nat
  cqHead : Nat
  cqCount : Nat
  cqPhase : Bool
  err : Bool
  fetched : List SqEntry
  unannounced : Nat
  annFrom : Time
  owed : List Owed
  inflight : Nat
  deriving DecidableEq, Repr

/-- A queue pair at reset (Table 18-12). -/
def Queue.reset : Queue where
  sqBase := 0
  sqEn := false
  sqLog2 := 4
  cqBase := 0
  cqEn := false
  cqLog2 := 4
  intEn := false
  coalN := 0
  coalUs := 0
  sqHead := 0
  sqTail := 0
  cqTail := 0
  cqHead := 0
  cqCount := 0
  cqPhase := true
  err := false
  fetched := []
  unannounced := 0
  annFrom := 0
  owed := []
  inflight := 0

/-- A Dipper (Table 18-13, R480): the fill buffer lists its bytes from the block's start, and `since` is the time at which the
last fill started. -/
structure Dipper where
  target : Nat
  auto : Bool
  addr : U64
  ready : Bool
  filling : Bool
  since : Time
  err : Bool
  errCode : Nat
  notReady : Nat
  buffer : List Byte
  deriving DecidableEq, Repr

/-- A Dipper at reset. -/
def Dipper.reset : Dipper where
  target := 0
  auto := false
  addr := 0
  ready := false
  filling := false
  since := 0
  err := false
  errCode := 0
  notReady := 0
  buffer := []

/-- A vector of a function's MSI-X table with its pending bit. -/
structure Msix where
  addr : U64
  data : U32
  masked : Bool
  pending : Bool
  deriving DecidableEq, Repr

/-- A vector at reset: masked. -/
def Msix.reset : Msix := ⟨0, 0, true, false⟩

/-- What configuration software sets in a function's configuration space (Table 18-1): how many virtual functions are enabled, MSI-X
enable and function mask, the codes of Max Payload Size and Max Read Request Size, Relaxed Ordering enable, and D3hot. -/
structure PciCfg where
  numVfs : Nat
  vfEnable : Bool
  msixEn : Bool
  msixMask : Bool
  payload : Nat
  readReq : Nat
  relaxed : Bool
  d3 : Bool
  deriving DecidableEq, Repr

/-- Configuration space at reset, as the base specification has it (PRESUMED, log 200). -/
def PciCfg.reset : PciCfg where
  numVfs := 0
  vfEnable := false
  msixEn := false
  msixMask := false
  payload := 0
  readReq := 2
  relaxed := true
  d3 := false

/-- The host-port state of one function (R482): queues, Dipper, the read latch of R467, MSI-X and configuration space. -/
structure HostFn where
  queues : Store Queue
  dip : Dipper
  latch : Option (Nat × U32)
  msix : Store Msix
  cfg : PciCfg
  deriving DecidableEq, Repr

/-- A function's host-port state at reset. -/
def HostFn.reset : HostFn := ⟨[], Dipper.reset, none, [], PciCfg.reset⟩

end Sys2Proof.Machine
end

