-- ==== Sys2Proof/Machine/TypesFabric.lean ====
section
/-! DEFINITION. Plain data of the Rills, Runnels and bridges, the pour programs and the Spouts (chapters "Rill
cores and signalling", "Cascade arrays and pour programs" and "Spouting stacks and near-bank scanning"). -/

namespace Sys2Proof.Machine

/-! ### Rills -/

/-- What an engine does: nothing, issues operations, waits on a flag with threshold `n` at instruction address
`pc` (R269), waits at a barrier (R272), or holds a send that the router refused, `counted` where its buffer was full (R280). A `deaf` wait disregards
signals (RILL_INJECT.TIMEOUT). -/
inductive Eng where
  | idle
  | run
  | waitFlag (flag n pc : Nat) (deaf : Bool)
  | waitBarrier (num pc : Nat)
  | heldSend (dest pc : Nat) (counted : Bool)
  deriving DecidableEq, Repr

/-- A barrier in progress: its mask and the engines that have arrived, by engine number (R272). -/
structure Barrier where
  mask : Nat
  arrived : Nat
  deriving DecidableEq, Repr

/-- An entry of a heap: distance, ID and copy count (R171). -/
structure HeapEnt where
  ham : Nat
  gid : GlobalId
  copies : Nat
  deriving DecidableEq, Repr

/-- The heap of one query on one Rill (R146): at most `depth` distinct IDs, best first, and the latest shared waterline that has
reached the Rill (R147). -/
structure Heap where
  rid : Nat
  query : Nat
  depth : Nat
  ents : List HeapEnt
  shared : Option (Nat × GlobalId)
  deriving DecidableEq, Repr

/-- A physical Rill (Table 10-1): the loaded function with its image in the instruction store, the request whose phase it
serves, the five engines, the instruction address at which the sequencer last saw each engine, scratch, the 32 flags (an
unlisted one is 0), barriers in progress, the receive ring in scratch with its first byte, its slots, the next slot to be read
and the slots in use (R279), the heaps of its HEAP engine, and its fault record (Table 10-10). -/
structure Rill where
  func : Nat
  istore : List Byte
  rid : Option Nat
  engs : List Eng
  pcs : Store Nat
  scratch : Store Byte
  flags : Store Nat
  bars : Store Barrier
  ringBase : Nat
  ring : Nat
  ringHead : Nat
  used : Nat
  heaps : List Heap
  fault : U64
  faultTime : U64
  deriving DecidableEq, Repr

/-- A Rill with no image, idle, flags and barriers clear (R286). Its ring has 64 slots until a function sets it up. -/
def Rill.reset : Rill where
  func := 0
  istore := []
  rid := none
  engs := List.replicate 5 .idle
  pcs := []
  scratch := []
  flags := []
  bars := []
  ringBase := 0
  ring := 64
  ringHead := 0
  used := 0
  heaps := []
  fault := 0
  faultTime := 0

/-- A message (Table 10-5) with DEST and SRC as logical names (Table 10-6). `held` says that it has been held for a full ring or
buffer. -/
structure Msg where
  dest : Nat
  src : Nat
  flag : Nat
  tag : U64
  payload : List Byte
  held : Bool
  deriving DecidableEq, Repr

/-- The shared SRAM of a Runnel (R276): its 512 KiB, and the requests whose phases have data in each of its 32 banks. -/
structure Sram where
  bytes : Store Byte
  users : List (Nat × Nat)
  deriving DecidableEq, Repr

/-- A shared SRAM with nothing in it. -/
def Sram.reset : Sram := ⟨[], []⟩

/-- The three die bridges and the state of one (Table 10-13): its register state, replays of the present flit,
and whether it is in its single retraining (R284). -/
structure Bridge where
  state : Nat
  tries : Nat
  retrain : Bool
  deriving DecidableEq, Repr

/-- The waterlines of the exchange (R147): what a Runnel Weir holds for a query of a request, and the shared
value, each as distance and global ID. -/
structure Waterlines where
  runnel : List (Nat × Nat × Nat × (Nat × GlobalId))
  shared : List (Nat × Nat × (Nat × GlobalId))
  deriving DecidableEq, Repr

/-- Rills, routers, shared SRAMs, the bytes of the staging buffers by node Terrace, and bridges. Rills are keyed by the layout of
RILL_SEL, Runnels by that of RUNNEL_SEL.
`retiring` lists retired Rills and Runnels, as kind and location, that are not idle yet, so that the maps still name them
(R277). Bridge 3 stands for the links inside the Basins' networks. -/
structure Fabric where
  rills : Store Rill
  routers : Store (List Msg)
  srams : Store Sram
  staging : Store (Store Byte)
  retiring : List (Nat × Nat)
  bridges : Store Bridge
  water : Waterlines
  deriving DecidableEq, Repr

/-! ### Pour programs -/

/-- A tensor record (Table 11-6). -/
structure PTensor where
  rows : Nat
  cols : Nat
  varRows : Bool
  varCols : Bool
  deriving DecidableEq, Repr

/-- A weight section: scales and weight operands of its N rows of K elements (R295), and its skip map, one bit for each tile in
panel-major order (R298). -/
structure PWeight where
  n : Nat
  k : Nat
  form : Nat
  rows : List (F32 × List Int)
  skip : List Bool
  deriving DecidableEq, Repr

/-- An epilogue operation (Table 11-3). -/
structure POp where
  op : Nat
  src : Nat
  c0 : F32
  c1 : F32
  deriving DecidableEq, Repr

/-- A step (Table 11-4). -/
structure PStep where
  kind : Nat
  src0 : Nat
  src1 : Nat
  dst : Nat
  out : Nat
  keep : Nat
  wsect : Nat
  ops : List POp
  deriving DecidableEq, Repr

/-- A program as its image gives it (R305), with the image. -/
structure Program where
  image : List Byte
  tens : List PTensor
  wsects : List PWeight
  vsects : List (List F32)
  steps : List PStep
  deriving DecidableEq, Repr

/-- A program slot (Table 11-12): STATE, owner, LAST_ERR, HBM charged for each Terrace in bytes, the program. -/
structure ProgSlot where
  state : Nat
  slice : Nat
  lastErr : Nat
  samples : Nat
  bytes : Nat
  prog : Option Program
  deriving DecidableEq, Repr

/-- An absent slot. -/
def ProgSlot.reset : ProgSlot where
  state := 0
  slice := 0
  lastErr := 0
  samples := 0
  bytes := 0
  prog := none

/-! ### Spouts -/

/-- A query context (Table 12-4): the 96 bytes and the query of the request it stands for. -/
structure SpCtx where
  bytes : List Byte
  query : Option (Nat × Nat)
  deriving DecidableEq, Repr

/-- A pass record (Table 12-5) but for CHECK, with the number of the block it came from. -/
structure SpRec where
  lid : Nat
  sidx : Nat
  h : Nat
  ctx : Nat
  blk : Nat
  deriving DecidableEq, Repr

/-- The block a Spout reads: its first byte in the run and the bytes read so far. -/
structure SpBlk where
  start : Nat
  bytes : List Byte
  deriving DecidableEq, Repr

/-- A Spout (R316): contexts by number, FIFO, block in progress and the next named block, the row opened for it,
and the status record's ERR, BLOCKS and SKIPPED (Table 12-6). The controller keeps the free FIFO places of its latest SPSTAT in
`room`, whether a block has completed since in `done`, and the SPDRAIN commands that SPSTAT asked for and that are still to be
issued in `owed` (R328). -/
structure Spout where
  ctxs : Store SpCtx
  fifo : List SpRec
  seq : Bool
  row : Option Nat
  cur : Option SpBlk
  next : Option Nat
  err : Nat
  blocks : U32
  skipped : U32
  room : Nat
  done : Bool
  owed : Nat
  deriving DecidableEq, Repr

/-- A cleared Spout. -/
def Spout.reset : Spout where
  ctxs := []
  fifo := []
  seq := false
  row := none
  cur := none
  next := none
  err := 0
  blocks := 0
  skipped := 0
  room := 0
  done := false
  owed := 0

/-- A pass of a thin-phase scan (R325): list and Basin, the request, query and Rill of each context, and the command words that
the controller is still to issue to each Spout. -/
structure SpPass where
  idx : Nat
  slot : Nat
  basin : Nat
  members : List (Nat × Nat × Option Nat)
  todo : Store (List Nat)
  deriving DecidableEq, Repr

/-- The runs, or the 64 KiB pages of a plain stack, in which a block array lies (R317, R341). -/
structure Placed where
  idx : Nat
  h : Nat
  runs : List Nat
  deriving DecidableEq, Repr

/-- A migration under way (R341): list, source and target stack, whether the list moves up, and the places in the target that
its block arrays will have. -/
structure Migration where
  idx : Nat
  slot : Nat
  basin : Nat
  target : Nat
  up : Bool
  runs : List Placed
  deriving DecidableEq, Repr

/-- Source pages of a migration that has switched: the bytes that they hold in a Basin and stack, and the requests whose scans
dispatched before the switch have not sent their output (R341). -/
structure Leaving where
  idx : Nat
  slot : Nat
  basin : Nat
  stack : Nat
  bytes : Nat
  runs : List Nat
  rids : List Nat
  deriving DecidableEq, Repr

/-- A list that is to migrate and whose move has not begun (R340). -/
structure MigWish where
  idx : Nat
  slot : Nat
  basin : Nat
  up : Bool
  deriving DecidableEq, Repr

/-- An HBM stack (Table 13-6, R335 to R338), keyed by the layout of MEM_HBM_SEL. The seal map is its value at
every run but the listed ones, and so is its mirror in the plain stack of the same controller complex (R336). `repairs` counts the
repair rows in use and `soft` those of them whose repair is soft, `fenced` lists failed rows without one, packed as
pseudo-channel + 16 × bank + 256 × row (R368). `refresh` holds the pending refreshes of a pseudo-channel, `ce` the corrected errors
of rows in the present patrol, by the same packing. -/
structure Stack where
  state : Nat
  hot : Bool
  ctrlEcc : Bool
  mirrorLost : Bool
  sealAll : Bool
  sealEx : List Nat
  mirrorAll : Bool
  mirrorEx : List Nat
  repairs : Nat
  soft : Nat
  fenced : List Nat
  lanes : Store Nat
  held : List Nat
  retired : Nat
  refresh : Store Nat
  ce : Store Nat
  patrolled : Option Nat
  patrolling : Bool
  deriving DecidableEq, Repr

/-- A stack after a FULL reset: untrained, in controller-ECC mode (Table 12-11). -/
def Stack.reset : Stack where
  state := 0
  hot := false
  ctrlEcc := true
  mirrorLost := false
  sealAll := false
  sealEx := []
  mirrorAll := false
  mirrorEx := []
  repairs := 0
  soft := 0
  fenced := []
  lanes := []
  held := []
  retired := 0
  refresh := []
  ce := []
  patrolled := none
  patrolling := false

/-- The window counts of one list in the present migration interval (R340). -/
structure ThinCount where
  idx : Nat
  slot : Nat
  windows : Nat
  thin : Nat
  deriving DecidableEq, Repr

/-- A page of a plain stack that has moved off a failed place (R352, R368): the Basin, the stack and the page, and the stack of the Basin
and its page, or run, to which it has gone. -/
structure Remap where
  basin : Nat
  stack : Nat
  frame : Nat
  toStack : Nat
  toRun : Nat
  deriving DecidableEq, Repr

/-- Spouts by SPOUT_SEL, stacks, migrations, those that are to begin and the counts that choose them, the passes at work, the block
arrays that have moved, and source pages still in use. -/
structure Hbm where
  spouts : Store Spout
  dram : Store Stack
  migs : List Migration
  wishes : List MigWish
  counts : List ThinCount
  passes : List SpPass
  places : List Placed
  remaps : List Remap
  leaving : List Leaving
  deriving DecidableEq, Repr

end Sys2Proof.Machine
end

