-- ==== Sys2Proof/Machine/TypesMgmt.lean ====
section
/-! DEFINITION. Plain data of reset, bring-up, recovery and Keeper (chapters "Reset, bring-up and recovery",
"Keeper management subsystem" and "Package, power and pins"). -/

namespace Sys2Proof.Machine

/-- Reset levels (Table 19-1). -/
inductive Level where
  | full | keep
  deriving DecidableEq, Repr

/-- A retirement entry (Table 19-5). -/
structure RetEntry where
  kind : Nat
  code : Nat
  loc : Nat
  time : Time
  deriving DecidableEq, Repr

/-- Causes of a domain restart, numbered as RST_LAST.CAUSE (Table 19-9). -/
inductive Cause where
  | heartbeat | headworksBridge | basinBridge | control | pumphouse | injected
  deriving DecidableEq, Repr

/-- One Basin: STATE of Table 19-9 (0 in service, 1 restarting, 2 held out, 3 not yet up), bring-up tries of the
present step, heartbeat value, the value at the last firing, misses, restart step with its cause and starts, the
counted starts, and whether its maps are set (R286). `first`, `lastStart`, `starts` and `fenceEnd` are times on the node's own
clocks (R43); `firstCount` is the count at the first step 1 (RST_LAST_TIME). -/
structure Basin where
  state : Nat
  stepDone : Bool
  tries : Nat
  seq : U32
  prev : U32
  misses : Nat
  hang : Bool
  step : Nat
  cause : Cause
  attempts : Nat
  first : Time
  firstCount : Time
  lastStart : Time
  starts : List Time
  mapsSet : Bool
  fenceEnd : Option Time
  hbSeen : Bool
  deriving DecidableEq, Repr

/-- A Basin before bring-up. -/
def Basin.reset : Basin where
  state := 3
  stepDone := false
  tries := 0
  seq := 0
  prev := 0
  misses := 0
  hang := false
  step := 0
  cause := .heartbeat
  attempts := 0
  first := 0
  firstCount := 0
  lastStart := 0
  starts := []
  mapsSet := false
  fenceEnd := none
  hbSeen := false

/-- The reset and bring-up state (R486 to R496): PHASE, the bring-up step in progress (0 = none), its tries, the
pins, the reset under way with its start and sources, MEM_VALID, the level fuses, the strap, FAIL_STEP and
FAIL_CODE, LAST_LEVEL and LAST_SOURCE, and the record of the last domain restart. -/
structure Rst where
  phase : Nat
  step : Nat
  tries : Nat
  level : Level
  lastLevel : Level
  lastSource : Nat
  pwrok : Bool
  resetN : Bool
  throttleN : Bool
  inReset : Bool
  holdDone : Bool
  fellMemValid : Bool
  fellKeep : Bool
  memValid : Bool
  pwrokLevel : Level
  resetnLevel : Level
  pwrokBlown : Bool
  resetnBlown : Bool
  strap : Nat
  ohms : Nat
  strapValid : Bool
  strapDone : Bool
  failStep : Nat
  failCode : Nat
  lastBasin : Nat
  lastCause : Nat
  lastResult : Nat
  lastStep : Nat
  lastMs : Nat
  lastAttempts : Nat
  lastTime : Time
  deriving DecidableEq, Repr

/-- A log entry (Table 20-7) but for its CRC. -/
structure LogEntry where
  time : U64
  seq : U32
  code : U16
  sev : Nat
  timeValid : Bool
  timeLocked : Bool
  data : List Byte
  deriving DecidableEq, Repr

/-- Latest value of a sensor and the samples of the last hour (R516). -/
structure Sensor where
  value : Int
  hour : List (Time × Int)
  deriving DecidableEq, Repr

/-- A sensor before its first reading. -/
def Sensor.reset : Sensor := ⟨0, []⟩

/-- What Keeper holds for a Terrace region (R521 to R526): its point, caps, since when each condition for raising
a cap has held in intervals, the limit cause, since when it is held, whether its clock is stopped, and what tripped it
(bit 0 its own sensors, bit 1 its Basin's others, bit 2 Headworks). `hotSeen`, `warmSeen`, `gapSeen`, `lowSeen` and `midSeen` say what
a sample of the present interval has shown: a reading at or above TJ_TARGET, one not below TJ_TARGET − 3 °C, the region as the hotter
one of a pair GAP_GUARD apart, a slack below CANARY_MIN_PS, one below twice that. `below` counts the intervals of this hour in which
the thermal cap was below PMAX. -/
structure Region where
  point : Nat
  thermal : Nat
  gap : Nat
  timing : Nat
  thermalOk : Nat
  gapOk : Nat
  timingOk : Nat
  cause : Nat
  held : Option Time
  stopped : Bool
  tripped : Nat
  hotSeen : Bool
  warmSeen : Bool
  gapSeen : Bool
  lowSeen : Bool
  midSeen : Bool
  below : Nat
  deriving DecidableEq, Repr

/-- A region after the standby supply has come up: every cap at point 8, point 0. -/
def Region.reset : Region where
  point := 0
  thermal := 8
  gap := 8
  timing := 8
  thermalOk := 0
  gapOk := 0
  timingOk := 0
  cause := 0
  held := none
  stopped := false
  tripped := 0
  hotSeen := false
  warmSeen := false
  gapSeen := false
  lowSeen := false
  midSeen := false
  below := 0

/-- A firmware bundle as it is held in a slot: the bytes of the bundle (Table 20-10). -/
abbrev Bundle := List Byte

/-- Keeper (R512 to R540). `samples` holds package power in 0.1 W over the last 1 ms; `highSeen` and `nearSeen` say that the average
has exceeded PL1_W − 25 W, or has not been below PL1_W − 75 W, in the present interval. `intervals` and `limited` count the control
intervals of this hour and those with the power cap below point 8 or the fast throttle, `worst` holds this hour's lowest values by
advisory and item, `vppOut` says that VPP_M was last read outside its limits, and `railsOk` that the stack supplies have been within
theirs since PWROK fell. -/
structure Keeper where
  running : Bool
  log : List LogEntry
  buffered : List LogEntry
  nextSeq : U32
  sensors : Store Sensor
  regions : Store Region
  pcap : Nat
  powerOk : Nat
  samples : List Nat
  overSince : Nat
  fast : Bool
  fastBelow : Nat
  highSeen : Bool
  nearSeen : Bool
  intervals : Nat
  limited : Nat
  worst : Store Int
  vppOut : Bool
  railsOk : Bool
  hourly : Store (List Int)
  lastRaised : Store Time
  fwState : Nat
  fwErr : Nat
  slotA : Option Bundle
  slotB : Option Bundle
  staged : Option Bundle
  bootRecord : Option (Nat × Nat)
  booted : Option Bundle
  bootedB : Bool
  waitSmbus : Bool
  svnFused : Nat
  revoked : Nat
  chunks : Store Byte
  nonce : Option Nat
  debug : Bool
  deriving DecidableEq, Repr

end Sys2Proof.Machine
end

