-- ==== Sys2Proof/Machine/TypesLink.lean ====
section
/-! DEFINITION. Plain data of the Urdun links and the Sluice (chapters "Urdun optical links" and "The Sluice
scheduler"). -/

namespace Sys2Proof.Machine

/-- Message kinds (Table 15-5, KIND). -/
inductive MsgKind where
  | request | response | part | partReply | admission
  deriving DecidableEq, Repr

/-- A frame but for its LSEQ (Table 15-5). `mid` is the model's number of the message it belongs to, 0 for a
frame that was received. -/
structure Frame where
  kind : Nat
  first : Bool
  last : Bool
  msgLen : Nat
  dest : U64
  src : U64
  msgId : Nat
  offset : Nat
  payload : List Byte
  mid : Nat
  deriving DecidableEq, Repr

/-- A message the node sends (R409, R411): destination, preferred port (R55), class and party for the Sluice,
the request or owner part it answers, its port once its FIRST frame is queued, and the bytes. -/
structure UMsg where
  kind : MsgKind
  dest : U64
  prefer : Option Nat
  cls : Nat
  party : Nat
  rid : Option Nat
  deadline : Time
  port : Option Nat
  body : List Byte
  deriving DecidableEq, Repr

/-- A partial message in reassembly (R411), keyed by SRC NODE and MSG_ID. `busy` says that it was refused at
its FIRST frame (R415); `last` is the time on the node's own clocks at which its last frame came. -/
structure Partial where
  port : Nat
  kind : Nat
  src : U64
  msgId : Nat
  msgLen : Nat
  busy : Bool
  last : Time
  bytes : List Byte
  deriving DecidableEq, Repr

/-- States of a port (Table 15-10). -/
inductive PortState where
  | down | training | up | retraining
  deriving DecidableEq, Repr

/-- Why a port is retraining, and how far the steps of R420 have gone. -/
inductive Retrain where
  | requested
  | trigger (lane : Nat)
  | spare (lane : Nat)
  | narrow
  deriving DecidableEq, Repr

/-- One end of a port (R406, R413, R414): a map of two lanes is x2 width. Credits count 64-byte units modulo 2^32 since
the last resume: those the partner has granted, those used, and those given to the partner. The last `unsent` frames of the replay buffer are to be sent again and wait for credit
(R413, R414). `ackFrom` is the time on the node's own
clocks from which ACK_TO runs; an admission frame that is due stands with the time at which it fell due (R415). -/
structure UPort where
  state : PortState
  map : List Nat
  partner : Option Nat
  why : Option Retrain
  txSeq : Nat
  rxSeq : Nat
  replay : List (Nat × Frame)
  unsent : Nat
  granted : Nat
  used : Nat
  admGranted : Nat
  admUsed : Nat
  given : Nat
  admGiven : Nat
  ackFrom : Time
  admDue : List (Time × Frame)
  deriving DecidableEq, Repr

/-- A lane: signal, lock, the runs of the sparing triggers, and whether its receive OMA is usable (R420, R422). Its role
follows from the retirement record and the lane maps. -/
structure Lane where
  signal : Bool
  fecLock : Bool
  corrRun : Nat
  uncorrRun : Nat
  usable : Bool
  deriving DecidableEq, Repr

/-- A lane at reset. -/
def Lane.reset : Lane := ⟨false, false, 0, 0, true⟩

/-- The lane map of port `p` with no lane retired (Table 15-1), as engine lanes. -/
def homeMap (p : Nat) : List Nat := (List.range 4).map (fun j => 4 * (p % 2) + j)

/-- A port at reset: down (R423). -/
def UPort.reset (p : Nat) : UPort where
  state := .down
  map := homeMap p
  partner := none
  why := none
  txSeq := 0
  rxSeq := 0
  replay := []
  unsent := 0
  granted := 0
  used := 0
  admGranted := 0
  admUsed := 0
  given := 0
  admGiven := 0
  ackFrom := 0
  admDue := []

/-- The Urdun links: ports, lanes, messages by the model's number, messages waiting for a port, reassembly. -/
structure Urdun where
  ports : Store UPort
  lanes : Store Lane
  msgs : Store UMsg
  waiting : List Nat
  nextMid : Nat
  reasm : List Partial
  deriving DecidableEq, Repr

/-! ### Sluice -/

/-- A queued unit of service (R425): party (16 = node), class, cost, and at a port the frame it sends, at a NAND channel its array
command. -/
structure SUnit where
  party : Nat
  cls : Nat
  cost : Nat
  frame : Option Frame
  cmd : Option NandUnit
  deriving DecidableEq, Repr

/-- A gate list: windows as duration in ns and mask of open classes (R433). -/
abbrev GateList := List (Nat × U16)

/-- A pending gate list with its takeover time and event slot (R434). -/
structure PendingGate where
  list : GateList
  time : Time
  slot : Nat
  deriving DecidableEq, Repr

/-- A scheduling point (R430 to R435). Tags and finish times are numbers without bound; `tags` holds the class
tag of each candidate under 16 × party + class; an unlisted credit stands at its limit. -/
structure SPoint where
  v : Nat
  fp : Store Nat
  fpc : Store Nat
  tags : Store Nat
  queue : List SUnit
  credit : Store Int
  active : Option GateList
  cur : Nat
  pending : Option PendingGate
  late : Bool
  lastErr : Nat
  lastTake : Time
  out : Bool
  deriving DecidableEq, Repr

/-- A point at reset (R438). -/
def SPoint.reset : SPoint where
  v := 0
  fp := []
  fpc := []
  tags := []
  queue := []
  credit := []
  active := none
  cur := 0
  pending := none
  late := false
  lastErr := 0
  lastTake := 0
  out := false

end Sys2Proof.Machine
end

