-- ==== Sys2Proof/Machine/TypesOut.lean ====
section
/-! DEFINITION. What the node sends out of itself. -/

namespace Sys2Proof.Machine

/-- Control words of a port (R412). -/
inductive CtrlWord where
  | ack (lseq : Nat)
  | nack (lseq : Nat)
  | credit (adm : Bool) (count : Nat)
  | count (word : Time)
  deriving DecidableEq, Repr

/-- A command on the bus of a NAND channel that Table 14-1 lists, other than the array commands, which are complete when their command
is done: identification and the parameter page, LUN reset, training of the channel, suspend and resume, SET FEATURES to a
read-retry level, and GET FEATURES of an address. -/
inductive NandBus where
  | readId
  | paramPage
  | reset
  | train
  | suspend
  | resume
  | retryLevel (level : Nat)
  | getFeature (addr : Nat)
  deriving DecidableEq, Repr

/-- One thing that leaves the node: a frame or control word on a port, bytes written to host memory, an MSI-X
message, a response as it is formed, register data, bytes that a read of another kind returns, Dipper data, an SMBus block, a burst on a Spout's data bus, a
command word on the row command bus of a Spout's pseudo-channel, the result of a Weir
pass, a Voltage write, or a command on a NAND channel. -/
inductive Out where
  | frame (port : Nat) (bytes : List Byte)
  | ctrl (port : Nat) (bytes : List Byte)
  | hostWrite (fn : Nat) (addr : U64) (bytes : List Byte)
  | hostRead (fn : Nat) (addr : U64) (len : Nat)
  | msix (fn : Nat) (addr : U64) (data : U32)
  | response (reqId : U64) (bytes : List Byte)
  | regData (fn : Nat) (val : U64)
  | readData (fn : Nat) (bytes : List Byte)
  | dipData (fn : Nat) (bytes : List Byte)
  | smbus (bytes : List Byte)
  | nack
  | spout (bytes : List Byte)
  | spoutWord (sp : SpoutName) (word : U32)
  | weir (lane : Option (Fin 16)) (kept : List WeirEntry) (ties : Nat)
  | setVoltage (rail mv : Nat)
  | setClock (terrace mhz : Nat)
  | nand (ch lun : Nat) (cmd : NandBus)
  deriving DecidableEq, Repr

end Sys2Proof.Machine
end

