-- ==== Sys2Proof/Machine/TypesStore.lean ====
section
/-! DEFINITION. Plain data of the memory range and the Cistern (chapters "One memory range over three tiers" and
"The Cistern flash subsystem"). Flash-homed pages are named by their Cistern logical page number (R351, R377). -/

namespace Sys2Proof.Machine

/-- Who waits on a lower-tier read: a request, a part this node serves as owner, or a Dipper fill. -/
inductive Waiter where
  | req (rid : Nat)
  | part (pid : Nat)
  | dip (fn : Nat)
  deriving DecidableEq, Repr

/-- What a lower-tier read brings in: a flash-homed page, or a demoted block array of an index (R355). -/
inductive Target where
  | page (lpn : Nat)
  | array (idx h : Nat)
  deriving DecidableEq, Repr

/-- A lower-tier read in progress (R361): its waiters, the cache it fills (slice and Basin), whether the
read-around has started, how many steps of the decode ladder its primary has failed (R381), and whether the read-around has ended
uncorrectable. `since` is the time on the node's own clocks at which the primary read was issued. `maps` are the map pages that it
waits for, `ppas` the addresses its map entries named when it was issued, `second` says that it reads copy 1 of a map page (R387) and
`slow` that MEM_INJECT.SLOW withholds its primary (Table 13-6). -/
structure LtRead where
  target : Target
  waiters : List Waiter
  slice : Nat
  basin : Nat
  since : Time
  around : Bool
  failed : Nat
  aroundFailed : Bool
  maps : List Nat
  ppas : List Nat
  second : Bool
  slow : Bool
  deriving DecidableEq, Repr

/-- A page that a dispatched phase names, with the request or part whose phase it is (R356). -/
structure Named where
  waiter : Waiter
  phase : Phase
  lpn : Nat
  deriving DecidableEq, Repr

/-- A row-cache line with its CLOCK bit. The line at the head of its list is the one the hand points to. -/
structure Line where
  lpn : Nat
  ref : Bool
  deriving DecidableEq, Repr

/-- An HBM copy of a dirty page: where it lies as Basin and controller complex, and its write stamp (R357). -/
structure PageCopy where
  basin : Nat
  complex : Nat
  stamp : U64
  deriving DecidableEq, Repr

/-- A dirty page (R357): its HBM copies. -/
structure Dirty where
  copies : List PageCopy
  deriving DecidableEq, Repr

/-- The backing image of a version of a table page of an index (R353): the table as 0 for FP32 centroids, 1 for the slot table, 2
for the graph, 3 for quantized centroids, 4 for the sketch projection and 5 for the shard table, the page, the version's stamp, and the image's LPN. -/
structure TabImage where
  idx : Nat
  table : Nat
  page : Nat
  stamp : Epoch
  lpn : Nat
  deriving DecidableEq, Repr

/-- The backing image of a block array of an index (R353): the LPN of its first page and how many it has. -/
structure ArrImage where
  idx : Nat
  h : Nat
  base : Nat
  pages : Nat
  deriving DecidableEq, Repr

/-- The memory range (R349 to R363): caches by 2 × slice + Basin, dirty pages, reads, pages named by phases, lost pages, table pages
lost as index, table and page, block arrays of which a page is lost, images of block arrays, block arrays that are demoted, images of
table pages, the number of image pages allocated, the last write stamp. -/
structure MemRange where
  cache : Store (List Line)
  dirty : Store Dirty
  reads : List LtRead
  named : List Named
  lost : List Nat
  lostTabs : List (Nat × Nat × Nat)
  lostArrs : List (Nat × Nat)
  backed : List ArrImage
  demoted : List (Nat × Nat)
  tabs : List TabImage
  nextImage : Nat
  stamp : U64
  deriving DecidableEq, Repr

/-- A LUN (Table 14-9): STATE, bad block sets and how many of them have grown, erase counts above the base that every
format adds to, reads since programming, temperature, the suspends its running operation has had and the addresses of the reads for
which it is suspended now (R382), whether its last command timed out (R392), and the block sets that are to be erased before their
first program (R400). -/
structure Lun where
  state : Nat
  bad : List Nat
  grown : Nat
  eraseBase : Nat
  erases : Store Nat
  reads : Store Nat
  temp : Int
  suspends : Nat
  ahead : List Nat
  timedOut : Bool
  unerased : List Nat
  deriving DecidableEq, Repr

/-- A LUN position with nothing in it. -/
def Lun.reset : Lun where
  state := 0
  bad := []
  grown := 0
  eraseBase := 0
  erases := []
  reads := []
  temp := 0
  suspends := 0
  ahead := []
  timedOut := false
  unerased := []

/-- A block group (R384): its block sets as channel, LUN and block, the stream, rows programmed, priority for
reclaim (R390), and whether its block sets are being erased (R391). Streams 5 and 6 stand for the second groups that streams 3 and 4 write the second
copies of map pages to (R386). -/
structure Group where
  members : List (Nat × Nat × Nat)
  stream : Nat
  rows : Nat
  isOpen : Bool
  priority : Bool
  erasing : Bool
  deriving DecidableEq, Repr

/-- A codeword held by a stripe row: LPN, for a relocation the PPA it was read from, whether it is the second copy of a map page
(R386), its write stamp and its user bytes. A `settled` one has become clean or was discarded: no map entry waits for it. -/
structure Cword where
  lpn : Nat
  old : Option Nat
  second : Bool
  stamp : U64
  user : List Byte
  settled : Bool
  deriving DecidableEq, Repr

/-- A stripe row (R385): group, row number, codewords in order of arrival, arrival of the first, whether it is
being programmed and which members' units are done. -/
structure SRow where
  group : Nat
  row : Nat
  words : List Cword
  first : Time
  closed : Bool
  done : List Nat
  deriving DecidableEq, Repr

/-- The format record (R397, R398): mode, stripe width, over-provision, code option, geometry, what the profile gives, generation and
capacity. -/
structure FmtRecord where
  mode : Nat
  stripe : Nat
  opPct : Nat
  parity : Nat
  planes : Nat
  pages : Nat
  blocks : Nat
  rate : Nat
  rated : Nat
  maxTemp : Int
  retry : Nat
  feature : Option Nat
  pairing : Nat
  generation : U32
  userPages : Nat
  spareAtFormat : Nat
  deriving DecidableEq, Repr

/-- The record of media that were never formatted (Table 14-7). -/
def FmtRecord.reset : FmtRecord where
  mode := 0
  stripe := 32
  opPct := 10
  parity := 0
  planes := 0
  pages := 0
  blocks := 0
  rate := 0
  rated := 0
  maxTemp := 0
  retry := 0
  feature := none
  pairing := 0
  generation := 0
  userPages := 0
  spareAtFormat := 0

/-- What the system area holds (R398), as it was last written: the health and error registers with the histogram, the format record,
and for each LUN its retirement, bad block sets, erase and read counts. -/
structure SysArea where
  regs : Store U64
  record : FmtRecord
  luns : Store Lun
  deriving DecidableEq, Repr

/-- The Cistern (R373 to R401). `granted` holds the array commands whose units have started and that have not completed. `waiting` holds codewords for which no block group could be formed, with their streams; `media` the
programmed codewords by PPA, each as its 4,096 user bytes and 32 metadata bytes (R379). `map` holds the valid entries (LPN to PPA),
`mapCache` the cached map pages, `mapDirty` the HBM copies of the dirty ones, `dirTab` the map directory, `trims` LPNs whose trim waits
(R387), `sched` block sets scheduled for rewrite, `rebuild` retired LUNs being rebuilt, `retrain` channels in their single retrain,
`ladder` how many steps of the decode ladder have failed for an address (R381), `patrolAt` and `patrolled` where the patrol is and the
period in which it began (R389), `saved` the system area (R398). -/
structure Cistern where
  state : Nat
  mode : Nat
  stripe : Nat
  opPct : Nat
  parity : Nat
  planes : Nat
  pages : Nat
  blocks : Nat
  rate : Nat
  rated : Nat
  maxTemp : Int
  retry : Nat
  feature : Option Nat
  pairing : Nat
  generation : U32
  userPages : Nat
  spareAtFormat : Nat
  lastErr : Nat
  throttled : Bool
  luns : Store Lun
  groups : Store Group
  nextGroup : Nat
  rows : List SRow
  waiting : List (Nat × Cword)
  media : Store (List Byte)
  map : Store Nat
  mapCache : List Line
  mapDirty : Store Dirty
  dirTab : Store (Nat × Nat)
  trims : List Nat
  sched : List (Nat × Nat × Nat)
  rebuild : List (Nat × Nat)
  retrain : List Nat
  minuteMax : Int
  seconds : Nat
  ladder : Store Nat
  patrolAt : Nat
  patrolled : Option Nat
  granted : List NandUnit
  saved : SysArea
  deriving DecidableEq, Repr

/-- The Cistern with no media formatted: stripe width 32 and over-provision 10 (Table 14-7). -/
def Cistern.reset : Cistern where
  state := 0
  mode := 0
  stripe := 32
  opPct := 10
  parity := 0
  planes := 0
  pages := 0
  blocks := 0
  rate := 0
  rated := 0
  maxTemp := 0
  retry := 0
  feature := none
  pairing := 0
  generation := 0
  userPages := 0
  spareAtFormat := 0
  lastErr := 0
  throttled := false
  luns := []
  groups := []
  nextGroup := 1
  rows := []
  waiting := []
  media := []
  map := []
  mapCache := []
  mapDirty := []
  dirTab := []
  trims := []
  sched := []
  rebuild := []
  retrain := []
  minuteMax := 0
  seconds := 0
  ladder := []
  patrolAt := 0
  patrolled := none
  granted := []
  saved := ⟨[], FmtRecord.reset, []⟩

end Sys2Proof.Machine
end

