-- ==== Sys2Proof/Machine/State.lean ====
section
/-! DEFINITION. The state of the node, the reasons a step can stop, and the state after reset. -/

namespace Sys2Proof.Machine

/-- A commit being evaluated, and a GO or DISCARD that waits for its end (R471, R472). -/
structure CommitState where
  busy : Bool
  goNext : Bool
  discardNext : Bool
  deriving DecidableEq, Repr

/-- The Clepsydra receiver after a reset at standby power-up: FREE, count 0, no reference or sync pair judged good (R45,
Table 2-8). -/
def Clep.reset : Clep where
  count := 0
  ticks := 0
  slew := 0
  slewRun := 0
  fresh := true
  began := true
  endCount := 0
  lock := .free
  internal := false
  refOk := ⟨false, false⟩
  refGood := ⟨0, 0⟩
  syncOk := ⟨false, false⟩
  syncGood := ⟨0, 0⟩
  syncOff := ⟨none, none⟩
  useB := false
  countValid := false
  phaseErr := 0
  lockRun := 0
  disagree := 0
  holdFrom := 0
  pendingWord := none
  portWords := []
  lossHeld := false
  lastStep := 0
  slots := []

/-- The granules of slice 0 after a FULL reset: 41 plain and 32 spouting ones in each Basin, the odd one in complex 0 (R442). Which of a
stack's 24 plain granules the node region leaves to it is open: the lowest (DESIGN CHOICE, log 198). -/
def firstGranules : List Granule :=
  (List.range 2).flatMap (fun b => [(0, 21), (1, 20), (2, 16), (3, 16)].flatMap (fun p =>
    (List.range p.2).map (fun g => ⟨0, b, p.1, g⟩)))

/-- The slices after a FULL reset: generation 1, every entry at its reset value, SINCE of slice 0 is 1 (R459). -/
def Slices.reset : Slices where
  gen := 1
  map := []
  since := [1]
  pending := none
  late := false
  switchedAt := 0
  moving := []
  held := firstGranules
  leaving := []
  lacks := []
  gated := []

/-- The links after a reset. -/
def Urdun.reset : Urdun where
  ports := []
  lanes := []
  msgs := []
  waiting := []
  nextMid := 1
  reasm := []

/-- The Rills, routers and bridges after a reset: bridges down until trained. -/
def Fabric.reset : Fabric where
  rills := []
  routers := []
  srams := []
  staging := []
  retiring := []
  bridges := []
  water := ⟨[], []⟩

/-- The stacks after a FULL reset. -/
def Hbm.reset : Hbm where
  spouts := []
  dram := []
  migs := []
  wishes := []
  counts := []
  passes := []
  places := []
  remaps := []
  leaving := []

/-- The memory range after a FULL reset (R371). -/
def MemRange.reset : MemRange where
  cache := []
  dirty := []
  reads := []
  named := []
  lost := []
  lostTabs := []
  lostArrs := []
  backed := []
  demoted := []
  tabs := []
  nextImage := 0
  stamp := 0

/-- Reset and bring-up right after a power-on reset at level FULL: step 1 in progress. -/
def Rst.reset : Rst where
  phase := 0
  step := 1
  tries := 0
  level := .full
  lastLevel := .full
  lastSource := 0
  pwrok := true
  resetN := true
  throttleN := true
  inReset := false
  holdDone := true
  fellMemValid := false
  fellKeep := false
  memValid := false
  pwrokLevel := .full
  resetnLevel := .keep
  pwrokBlown := false
  resetnBlown := false
  strap := 0
  ohms := 0
  strapValid := true
  strapDone := false
  failStep := 0
  failCode := 0
  lastBasin := 0
  lastCause := 0
  lastResult := 0
  lastStep := 0
  lastMs := 0
  lastAttempts := 0
  lastTime := 0

/-- Keeper after the standby supply has come up and its firmware has booted. -/
def Keeper.reset : Keeper where
  running := true
  log := []
  buffered := []
  nextSeq := 0
  sensors := []
  regions := []
  pcap := 8
  powerOk := 0
  samples := []
  overSince := 0
  fast := false
  fastBelow := 0
  highSeen := false
  nearSeen := false
  intervals := 0
  limited := 0
  worst := []
  vppOut := false
  railsOk := false
  hourly := []
  lastRaised := []
  fwState := 0
  fwErr := 0
  slotA := none
  slotB := none
  staged := none
  bootRecord := none
  booted := none
  bootedB := false
  waitSmbus := false
  svnFused := 0
  revoked := 0
  chunks := []
  nonce := none
  debug := false

/-- The node. `pending` holds the commands that wait, first in first out; `free` counts the free values taken so
far and `out` lists what has left the node: these three are the model's own. Every other field is state the
manual gives the node. -/
structure State where
  pending : List Instr
  free : Nat
  out : List Out
  /-- Register fields that no other field of this structure holds, by `regKey`; an unlisted one has its reset
  value. -/
  regs : Store U64
  /-- Staged values that differ from the committed ones (R470). -/
  staged : Store U64
  commit : CommitState
  clep : Clep
  /-- Accepted requests by the model's own number. -/
  reqs : Store Req
  nextRid : Nat
  hwReq : HwReq
  partsOut : List PartOut
  partsIn : Store PartIn
  nextToken : Nat
  windows : List Window
  indexes : Store Index
  slices : Slices
  host : Store HostFn
  urdun : Urdun
  /-- Scheduling points (Table 16-1). -/
  points : Store SPoint
  fabric : Fabric
  progs : Store ProgSlot
  hbm : Hbm
  mem : MemRange
  cist : Cistern
  rst : Rst
  basins : Store Basin
  /-- The retirement record, oldest entry first (R501). -/
  record : List RetEntry
  keeper : Keeper
  deriving DecidableEq, Repr

/-- Reasons a step can stop with a fault: there is none, since every command has an effect. Safe: nothing stops. -/
inductive Fault where
  deriving DecidableEq, Repr

/-- Reasons a step can be refused. -/
inductive Refusal where
  /-- Raised by a command that has no meaning yet. Safe: nothing is said about the hardware. -/
  | notModelled (mnemonic : String)
  deriving DecidableEq, Repr

/-- The state right after a power-on reset at level FULL, Keeper running and bring-up in step 1 (R487, R494). -/
def State.reset : State where
  pending := []
  free := 0
  out := []
  regs := []
  staged := []
  commit := ⟨false, false, false⟩
  clep := Clep.reset
  reqs := []
  nextRid := 1
  hwReq := ⟨0, 0⟩
  partsOut := []
  partsIn := []
  nextToken := 1
  windows := []
  indexes := []
  slices := Slices.reset
  host := []
  urdun := Urdun.reset
  points := []
  fabric := Fabric.reset
  progs := []
  hbm := Hbm.reset
  mem := MemRange.reset
  cist := Cistern.reset
  rst := Rst.reset
  basins := []
  record := []
  keeper := Keeper.reset

end Sys2Proof.Machine
end

