-- ==== Sys2Proof/Machine/Ops.lean ====
section
/-! DEFINITION. Named operations on the state that every family uses: registers and counters, free values, what
leaves the node, host events, the event log, and the numbering of units. -/

namespace Sys2Proof.Machine

/-- The answer of a command that completes. -/
abbrev Res := Host.Outcome State Fault Refusal

/-! ### Status codes (Table 3-7) -/

def stOk : Nat := 0x00
def stBadDescriptor : Nat := 0x10
def stBadLength : Nat := 0x11
def stNoSuchIndex : Nat := 0x12
def stUnsupported : Nat := 0x13
def stStaleEpoch : Nat := 0x20
def stStaleMap : Nat := 0x21
def stWrongSlice : Nat := 0x22
def stDeadlineMissed : Nat := 0x30
def stTierLate : Nat := 0x31
def stTierFailed : Nat := 0x32
def stStateLost : Nat := 0x33
def stResourceFailed : Nat := 0x34
def stBusy : Nat := 0x40
def stAbortedRestart : Nat := 0x41
def stConflict : Nat := 0x50

/-! ### Registers -/

/-- Reset values of SLU_CLASS_CFG of class `c` (Table 16-4). -/
def classReset (c : Nat) : U64 :=
  let mk (w st bo rate burst : Nat) : U64 :=
    BitVec.ofNat 64 (w + 256 * st + 512 * bo + 65536 * rate + 4294967296 * burst)
  match c with
  | 0 => mk 1 1 1 100 20
  | 1 => mk 64 0 0 0 0
  | 2 => mk 32 0 0 0 0
  | 3 => mk 16 0 0 0 0
  | 4 => mk 32 0 0 0 0
  | 5 => mk 64 0 0 0 0
  | 6 => mk 16 0 0 0 0
  | 7 => mk 4 0 0 0 0
  | 8 => mk 8 0 0 0 0
  | 9 => mk 16 0 0 0 0
  | 10 => mk 8 0 0 0 0
  | 11 => mk 2 0 1 50 100
  | _ => mk 1 0 0 0 0

/-- Reset values of the registers of SLC_MAP entry `n` (Table 17-7): slice 0 holds the whole node. -/
def mapReset (n off : Nat) : U64 :=
  if off = 0x18 then 0x1010101010
  else if n = 0 then
    (if off = 0x00 then 0x1FFFFFFF else if off = 0x08 then 0x20292029
     else if off = 0x10 then 0xFFFFFFFFFF else if off = 0x20 then 0x81C else 0)
  else 0

/-- What a register reads after reset: its fields' reset values, and the values that a table gives by index. -/
def resetReg (key : Nat) : U64 :=
  let page := keyPage key
  let off := keyOff key
  if page = 0x10 ∧ 0x200 ≤ off ∧ off < 0x280 then classReset ((off - 0x200) / 8)
  else if page = 0x11 ∧ 0x1000 ≤ off ∧ off < 0x1000 + 0x40 * 16 ∧ (off - 0x1000) % 0x40 < 0x28 then
    mapReset ((off - 0x1000) / 0x40) ((off - 0x1000) % 0x40)
  else if key = Reg.KPR_PMAX then 0x7777777777777777
  else match regDef? page off with
    | some d => fieldsReset d.fields
    | none => 0

/-- The committed value of a register. -/
def State.reg (s : State) (key : Nat) : U64 := Store.get resetReg s.regs key

/-- The committed field of a register at [lsb + len - 1 : lsb]. -/
def State.regF (s : State) (key lsb len : Nat) : Nat := field (s.reg key) lsb len

/-- The state with a register's value set. -/
def State.setReg (s : State) (key : Nat) (v : U64) : State :=
  { s with regs := Store.put resetReg s.regs key v }

/-- The state with one field of a register set. -/
def State.setRegF (s : State) (key lsb len v : Nat) : State := s.setReg key (setField (s.reg key) lsb len v)

/-- A counter field that saturates, raised by `n`. -/
def State.bumpSat (s : State) (key lsb len n : Nat) : State :=
  s.setRegF key lsb len (satAdd len (s.regF key lsb len) n)

/-- A counter field that wraps, raised by `n`. -/
def State.bump (s : State) (key lsb len n : Nat) : State :=
  s.setRegF key lsb len (s.regF key lsb len + n)

/-- A register's staged value: the committed one unless a write has changed it since the last commit (R470). -/
def State.stagedReg (s : State) (key : Nat) : U64 := (Store.find? s.staged key).getD (s.reg key)

/-- A field of a staged value. -/
def State.stagedF (s : State) (key lsb len : Nat) : Nat := field (s.stagedReg key) lsb len

/-! ### Free values, time and output -/

/-- A fresh free value of `w` bits, and the state that has taken it. -/
def State.takeFree (s : State) (w : Nat) : BitVec w × State :=
  (Config.freeValue w s.free, { s with free := s.free + 1 })

/-- The present Clepsydra count. -/
def State.now (s : State) : Time := s.clep.count

/-- The time on the node's own clocks, which no step or slew of the count moves (R43). -/
def State.tick (s : State) : Time := s.clep.ticks

/-- Something leaves the node. -/
def State.emit (s : State) (o : Out) : State := { s with out := s.out ++ [o] }

/-- Several things leave the node, in order. -/
def State.emits (s : State) (os : List Out) : State := { s with out := s.out ++ os }

/-- Does a page answer now? During bring-up pages 0x00 and 0x01 do, and page 0x13 too when bring-up has failed
(R483, R495). -/
def State.pageUp (s : State) (page : Nat) : Bool :=
  if s.rst.phase = 3 then true
  else if page ≤ 1 then decide (s.rst.step ≠ 1) && !s.rst.inReset
  else decide (page = 0x13 ∧ s.rst.phase = 4)

/-! ### Host functions and their events -/

/-- The host-port state of a function. -/
def State.fn (s : State) (f : Nat) : HostFn := Store.get (fun _ => HostFn.reset) s.host f

/-- The state with a function's host-port state set. -/
def State.setFn (s : State) (f : Nat) (h : HostFn) : State :=
  { s with host := Store.put (fun _ => HostFn.reset) s.host f h }

/-- May a function send MSI-X messages: are they enabled, not masked for the function, and is it in D0 (PRESUMED, log 200)? -/
def PciCfg.sends (c : PciCfg) : Bool := c.msixEn && !c.msixMask && !c.d3

/-- Send an MSI-X vector of a function: one that is masked or may not be sent becomes pending (R478). -/
def State.sendVector (s : State) (f v : Nat) : State :=
  let h := s.fn f
  let m := Store.get (fun _ => Msix.reset) h.msix v
  if m.masked || !h.cfg.sends then
    s.setFn f { h with msix := Store.put (fun _ => Msix.reset) h.msix v { m with pending := true } }
  else s.emit (.msix f m.addr m.data)

/-- Set bit `b` of HQ_EVENT of function `f`: a change from 0 to 1 of an enabled bit sends vector 0 (R478). -/
def State.hqEvent (s : State) (f b : Nat) : State :=
  let key := instKey Reg.HQ_EVENT f
  if bit (s.reg key) b then s
  else
    let s1 := s.setRegF key b 1 1
    if bit (s.reg (instKey Reg.HQ_EVENT_EN f)) b then s1.sendVector f 0 else s1

/-- How many virtual functions are enabled (HOST_LINK.VFS). -/
def State.vfsOn (s : State) : Nat := if (s.fn 0).cfg.vfEnable then (s.fn 0).cfg.numVfs else 0

/-- Set bit `b` of HQ_EVENT of every enabled function. -/
def State.hqEventAll (s : State) (b : Nat) : State := (List.range (s.vfsOn + 1)).foldl (fun t f => t.hqEvent f b) s

/-- Key of a function's PG_DROP of a page. The pages from 0x20 on, which are all absent, use offsets where no register lies. -/
def dropKey (fn page : Nat) : Nat := instKey (regKey (page % 32) (8 + page / 32)) fn

/-- A write is dropped: it is counted at its page with its offset and told to the function; during bring-up it is counted in
NS_DROPS (R468, R483). -/
def State.dropWrite (s : State) (fn page off : Nat) : State :=
  if s.rst.phase < 3 || !s.pageUp page then s.bumpSat Reg.NS_DROPS 0 32 1
  else
    let k := dropKey fn page
    (s.setReg k (fieldsOf [(0, 32, satAdd 32 (field (s.reg k) 0 32) 1), (32, 14, off)])).hqEvent fn 3

/-- A write by the physical function to a page that does not answer now is dropped (R483); of one that does, `go` is what it does. -/
def State.pfWrite (s : State) (page off : Nat) (go : State) : State := if s.pageUp page then go else s.dropWrite 0 page off

/-- A write of 1 by the physical function to a RW1S bit (R468). -/
def State.writeOne (s : State) (key b : Nat) : State := s.pfWrite (keyPage key) (keyOff key) (s.setRegF key b 1 1)

/-! ### The event log -/

/-- Severities (Table 20-7). -/
def sevInfo : Nat := 0
def sevAdvisory : Nat := 1
def sevError : Nat := 2
def sevCritical : Nat := 3

/-- What the ring in flash holds after a write: 131,072 entries, but for those of the sector that was erased ahead of the last one
written (R528). -/
def ringLog (l : List LogEntry) : List LogEntry :=
  match l.getLast? with
  | none => l
  | some e => l.filter (fun x => decide ((e.seq.toNat / 128 + 1) * 128 ≤ x.seq.toNat + 131072))

/-- Append an entry with given DATA (R529, R530): error and critical entries go to flash at once, the others are
buffered. While no count has been loaded since Keeper booted the count is Keeper's own, of drops since then. A critical entry sets
KPR_LOG.CRIT. -/
def State.logRaw (s : State) (code : Nat) (sev : Nat) (data : List Byte) : State :=
  let k := s.keeper
  let e : LogEntry :=
    ⟨s.now, k.nextSeq, BitVec.ofNat 16 code, sev, s.clep.countValid, decide (s.clep.lock = .locked), data⟩
  let k1 := { k with nextSeq := k.nextSeq + 1 }
  let k2 :=
    if sev ≥ sevError then { k1 with log := ringLog (k.log ++ k.buffered ++ [e]), buffered := [] }
    else { k1 with buffered := k.buffered ++ [e] }
  let s1 := { s with keeper := k2 }
  if sev = sevCritical then s1.setRegF Reg.KPR_LOG 32 1 1 else s1

/-- Append an entry of class `cls` and kind `n`: the low byte of CODE and DATA are open (Table 20-8). -/
def State.logEvent (s : State) (cls n sev : Nat) : State :=
  s.logRaw (cls * 256 + (Config.logCode cls n).toNat) sev
    (leBytes 12 (Config.logData cls n s.keeper.nextSeq.toNat).toNat)

/-! ### Numbering of units -/

/-- Node Terrace of a Basin and Terrace number. -/
def nodeTerrace (b t : Nat) : Nat := 8 * b + t

/-- The layout of RUNNEL_SEL, which also names a Runnel in the retirement record (Table 19-6). -/
def runnelKey (b t rn : Nat) : Nat := b + 2 * t + 16 * rn

/-- The layout of RILL_SEL. -/
def rillKey (b t rn r : Nat) : Nat := runnelKey b t rn + 512 * r

/-- The layout of MEM_HBM_SEL. -/
def stackKey (b c k : Nat) : Nat := b + 2 * c + 4 * k

/-- The key of a stack by its name. -/
def keyOfStack (n : StackName) : Nat := stackKey n.basin n.complex (b2n n.spouting)

/-- The layout of SPOUT_SEL. -/
def keyOfSpout (n : SpoutName) : Nat := n.basin + 2 * n.complex + 4 * n.pc + 64 * n.bank

/-- The layout of CIST_LUN_SEL. -/
def lunKey (ch lun : Nat) : Nat := ch + 32 * lun

/-- A logical Rill name as Table 10-6 packs it. -/
def wordOfRill (n : RillName) : Nat := n.basin + 2 * n.terrace + 16 * n.runnel + 256 * n.rill

/-- A Basin of the node. -/
def State.basin (s : State) (b : Nat) : Basin := Store.get (fun _ => Basin.reset) s.basins b

/-- The state with a Basin set. -/
def State.setBasin (s : State) (b : Nat) (v : Basin) : State :=
  { s with basins := Store.put (fun _ => Basin.reset) s.basins b v }

/-- A Basin is in service (Table 19-9). -/
def State.basinUp (s : State) (b : Nat) : Bool := (s.basin b).state == 0

/-- The index in an index slot, if it is not absent. -/
def State.index? (s : State) (i : Nat) : Option Index := Store.find? s.indexes i

/-- The state with an index set. -/
def State.setIndex (s : State) (i : Nat) (x : Index) : State :=
  { s with indexes := Store.insert s.indexes i x }

/-- A request by its number. -/
def State.req? (s : State) (rid : Nat) : Option Req := Store.find? s.reqs rid

/-- The state with a request set. -/
def State.setReq (s : State) (rid : Nat) (r : Req) : State := { s with reqs := Store.insert s.reqs rid r }

/-- The state with a request changed, if there is one. -/
def State.modReq (s : State) (rid : Nat) (f : Req → Req) : State :=
  { s with reqs := Store.adjust s.reqs rid f }

/-- A stack of HBM. -/
def State.stack (s : State) (k : Nat) : Stack := Store.get (fun _ => Stack.reset) s.hbm.dram k

/-- The state with a stack set. -/
def State.setStack (s : State) (k : Nat) (v : Stack) : State :=
  { s with hbm := { s.hbm with dram := Store.put (fun _ => Stack.reset) s.hbm.dram k v } }

/-- A scheduling point. -/
def State.point (s : State) (p : Nat) : SPoint := Store.get (fun _ => SPoint.reset) s.points p

/-- The state with a scheduling point set. -/
def State.setPoint (s : State) (p : Nat) (v : SPoint) : State :=
  { s with points := Store.put (fun _ => SPoint.reset) s.points p v }

/-- A Urdun port. -/
def State.port (s : State) (p : Nat) : UPort := Store.get UPort.reset s.urdun.ports p

/-- The state with a port set. -/
def State.setPort (s : State) (p : Nat) (v : UPort) : State :=
  { s with urdun := { s.urdun with ports := Store.put UPort.reset s.urdun.ports p v } }

/-- A node lane. -/
def State.lane (s : State) (n : Nat) : Lane := Store.get (fun _ => Lane.reset) s.urdun.lanes n

/-- The state with a node lane set. -/
def State.setLane (s : State) (n : Nat) (v : Lane) : State :=
  { s with urdun := { s.urdun with lanes := Store.put (fun _ => Lane.reset) s.urdun.lanes n v } }

/-- A LUN position. -/
def State.lun (s : State) (k : Nat) : Lun := Store.get (fun _ => Lun.reset) s.cist.luns k

/-- The state with a LUN set. -/
def State.setLun (s : State) (k : Nat) (v : Lun) : State :=
  { s with cist := { s.cist with luns := Store.put (fun _ => Lun.reset) s.cist.luns k v } }

/-- A Terrace region. -/
def State.region (s : State) (t : Nat) : Region := Store.get (fun _ => Region.reset) s.keeper.regions t

/-- The state with a region set. -/
def State.setRegion (s : State) (t : Nat) (v : Region) : State :=
  { s with keeper := { s.keeper with regions := Store.put (fun _ => Region.reset) s.keeper.regions t v } }

/-- A program slot. -/
def State.prog (s : State) (n : Nat) : ProgSlot := Store.get (fun _ => ProgSlot.reset) s.progs n

/-- The state with a program slot set. -/
def State.setProg (s : State) (n : Nat) (v : ProgSlot) : State :=
  { s with progs := Store.put (fun _ => ProgSlot.reset) s.progs n v }

/-- A bridge: 0 and 1 = Basin–Headworks, 2 = Basin–Basin. -/
def State.bridge (s : State) (n : Nat) : Bridge := Store.get (fun _ => ⟨0, 0, false⟩) s.fabric.bridges n

/-- The state with a bridge set. -/
def State.setBridge (s : State) (n : Nat) (v : Bridge) : State :=
  { s with fabric := { s.fabric with bridges := Store.put (fun _ => ⟨0, 0, false⟩) s.fabric.bridges n v } }

/-! ### Opcodes and parts -/

/-- Opcodes of Table 3-3. -/
def opSearch : Nat := 0x01
def opSearchBatch : Nat := 0x02
def opGather : Nat := 0x10
def opScatter : Nat := 0x11
def opUpsert : Nat := 0x20
def opDelete : Nat := 0x21
def opEpochSchedule : Nat := 0x22
def opCompact : Nat := 0x23
def opJoin : Nat := 0x30
def opClusterStep : Nat := 0x31
def opPour : Nat := 0x40
def opTopk : Nat := 0x41

/-- Opcodes in the order of Table 3-3. -/
def opTable : List Nat := [0x01, 0x02, 0x10, 0x11, 0x20, 0x21, 0x22, 0x23, 0x30, 0x31, 0x40, 0x41]

/-- Place of an opcode in Table 3-3. -/
def opNumber (op : Nat) : Nat := opTable.idxOf op

/-- Does an opcode use an index and name an epoch (Table 3-3)? -/
def opUsesIndex (op : Nat) : Bool := op != opPour && op != opTopk

/-- Read opcodes (Table 8-1). -/
def opIsRead (op : Nat) : Bool := op == opSearch || op == opSearchBatch || op == opGather || op == opJoin

/-- Write opcodes (Table 8-1). -/
def opIsWrite (op : Nat) : Bool :=
  op == opUpsert || op == opDelete || op == opScatter || op == opCompact || op == opClusterStep

/-- TOKEN of a part or reply. -/
def partToken (bs : List Byte) : Nat := leAt bs 0 8
/-- ORIGIN of a part. -/
def partOrigin (bs : List Byte) : U64 := BitVec.ofNat 64 (leAt bs 8 8)
/-- DEADLINE of a part. -/
def partDeadline (bs : List Byte) : Time := BitVec.ofNat 64 (leAt bs 16 8)
/-- EPOCH of a part. -/
def partEpoch (bs : List Byte) : Epoch := BitVec.ofNat 32 (leAt bs 24 4)
/-- INDEX of a part. -/
def partIndex (bs : List Byte) : Nat := byteAt bs 28
/-- SHARD of a part. -/
def partShard (bs : List Byte) : U32 := BitVec.ofNat 32 (leAt bs 32 4)

end Sys2Proof.Machine
end

