-- ==== Sys2Proof/Machine/Maps.lean ====
section
/-! DEFINITION. The retirement record and the maps that follow from it (R277, R289, R498 to R502): every map is a
function of the record's entries in their order. -/

namespace Sys2Proof.Machine

/-- Entry kinds of Table 19-6. -/
def kRill : Nat := 1
def kRunnel : Nat := 2
def kColumn : Nat := 3
def kWeirLane : Nat := 4
def kSpout : Nat := 5
def kOptical : Nat := 6
def kLun : Nat := 7
def kTerrace : Nat := 8

/-- Is a unit in the record? -/
def recorded (rs : List RetEntry) (kind loc : Nat) : Bool := rs.any (fun e => e.kind == kind && e.loc == loc)

/-- Replace the unit `p` in a map by the lowest-numbered spare in `sp` that is not retired. -/
def replaceUnit (rs : List RetEntry) (kind : Nat) (loc : Nat → Nat) (m sp : List Nat) (p : Nat) : List Nat :=
  match sp.find? (fun q => !m.contains q && !recorded rs kind (loc q)) with
  | some q => m.map (fun x => if x = p then q else x)
  | none => m

/-- A map of `n` logical units with spares `sp`, taking the record's entries of one kind in order. `unit` reads an
entry's unit where it belongs to this map. -/
def unitMap (rs : List RetEntry) (kind : Nat) (loc : Nat → Nat) (n : Nat) (sp : List Nat) : List Nat :=
  (rs.foldl (fun (acc : List Nat × List RetEntry) e =>
    let seen := acc.2 ++ [e]
    if e.kind = kind then
      match acc.1.find? (fun q => loc q = e.loc) with
      | some p => (replaceUnit seen kind loc acc.1 sp p, seen)
      | none => (acc.1, seen)
    else (acc.1, seen)) (List.range n, [])).1

/-- Physical Runnels of the 16 logical Runnels of a Terrace. -/
def runnelMap (rs : List RetEntry) (b t : Nat) : List Nat :=
  unitMap rs kRunnel (fun q => runnelKey b t q) 16 [16]

/-- Physical Rills of the 16 logical Rills of a physical Runnel. -/
def rillMap (rs : List RetEntry) (b t rn : Nat) : List Nat :=
  unitMap rs kRill (fun q => rillKey b t rn q) 16 [16, 17]

/-- Location of a Jet column (Table 19-6). -/
def columnLoc (b t c : Nat) : Nat := b + 2 * t + 16 * c

/-- Physical columns of the logical columns of an array (R289): the first 32 that are not retired. -/
def columnMap (rs : List RetEntry) (b t : Nat) : List Nat :=
  ((List.range 34).filter (fun c => !recorded rs kColumn (columnLoc b t c))).take 32

/-- Headworks Weir lanes in use: the first 16 of the 17 that are not retired. -/
def weirLanes (rs : List RetEntry) : List Nat :=
  ((List.range 17).filter (fun l => !recorded rs kWeirLane l)).take 16

/-- Retired units of one kind among the numbered ones. -/
def countRetired (rs : List RetEntry) (kind : Nat) (loc : Nat → Nat) (n : Nat) : Nat :=
  ((List.range n).filter (fun q => recorded rs kind (loc q))).length

/-- Spare Rills left in a Runnel. -/
def rillSparesLeft (rs : List RetEntry) (b t rn : Nat) : Nat := 2 - countRetired rs kRill (rillKey b t rn) 18

/-- Spare Runnels left in a Terrace. -/
def runnelSparesLeft (rs : List RetEntry) (b t : Nat) : Nat := 1 - countRetired rs kRunnel (runnelKey b t) 17

/-- Spare columns left in an array. -/
def columnSparesLeft (rs : List RetEntry) (b t : Nat) : Nat := 2 - countRetired rs kColumn (columnLoc b t) 34

/-- Is a node Terrace out of service (R499)? -/
def State.terraceOut (s : State) (t : Nat) : Bool := recorded s.record kTerrace (t / 8 + 2 * (t % 8))

/-- Does a request run under a map before the one in force: was it accepted before the switch, and did it not wait for it (R447, R449)? -/
def State.underOld (s : State) (r : Req) : Bool := r.gen != s.slices.gen

/-- The record as the maps of Rills and Runnels follow it: a retired unit that is not idle yet is still mapped (R277). -/
def State.mapRec (s : State) : List RetEntry := s.record.filter (fun e => !s.fabric.retiring.contains (e.kind, e.loc))

/-- Is a node lane retired? -/
def State.laneRetired (s : State) (n : Nat) : Bool := recorded s.record kOptical n

/-- The port that a node lane carries now. -/
def State.laneFor (s : State) (n : Nat) : Option Nat :=
  (List.range 8).find? (fun p => p / 2 == n / 9 && (s.port p).map.contains (n % 9))

/-- Is the spare lane of an optical engine free: neither retired nor carried by a port (R402)? -/
def State.spareFree (s : State) (e : Nat) : Bool := !s.laneRetired (9 * e + 8) && (s.laneFor (9 * e + 8)).isNone

/-- ROLE of a lane (R402, Table 15-10): engine lane 8 is the spare until a port carries it, and reads its reset value while both ports of
the engine are down. -/
def State.laneRole (s : State) (n : Nat) : Nat :=
  let used := (List.range 2).any (fun j => (s.port (2 * (n / 9) + j)).state != .down)
  if s.laneRetired n then 2 else if n % 9 = 8 ∧ used = true ∧ s.spareFree (n / 9) = true then 1 else 0

/-- Physical Runnel of a logical one, once the maps are set. -/
def State.physRunnel (s : State) (b t rn : Nat) : Option Nat :=
  if (s.basin b).mapsSet then (runnelMap s.mapRec b t)[rn]? else none

/-- Key of the physical Rill that a logical name stands for, once the maps are set (R277). -/
def State.physRill (s : State) (n : RillName) : Option Nat :=
  match s.physRunnel n.basin n.terrace n.runnel with
  | none => none
  | some prn => ((rillMap s.mapRec n.basin n.terrace prn)[n.rill.val]?).map (rillKey n.basin n.terrace prn)

/-- The bytes of a retirement entry (Table 19-5). -/
def RetEntry.bytes (e : RetEntry) : List Byte :=
  leBytes 1 e.kind ++ leBytes 1 e.code ++ [0, 0] ++ leBytes 4 e.loc ++ leBytes 8 e.time.toNat

/-- The retirement record with its header (Table 19-5). -/
def recordBytes (rs : List RetEntry) : List Byte :=
  let ents := rs.flatMap RetEntry.bytes
  let head := leBytes 4 0x31544552 ++ leBytes 2 1 ++ leBytes 2 0 ++ leBytes 4 rs.length ++ zeroBytes 48
  head ++ leBytes 4 (crc32c (head ++ ents)).toNat ++ ents

/-- Write a retirement: the entry first, then the log entry before any map changes (R502, R530). A unit already
recorded is not added again. DATA is the first 12 bytes of the entry (DEDUCED, log 12). -/
def State.retire (s : State) (kind loc code : Nat) : State :=
  if recorded s.record kind loc then s
  else
    let e : RetEntry := ⟨kind, code, loc, if s.clep.countValid then s.now else 0⟩
    let s1 := { s with record := s.record ++ [e] }
    s1.logRaw (0x300 + (Config.logCode 3 kind).toNat) sevError (e.bytes.take 12)

/-- A physical Rill by its RILL_SEL key. -/
def State.rill (s : State) (k : Nat) : Rill := Store.get (fun _ => Rill.reset) s.fabric.rills k

/-- The state with a physical Rill set. -/
def State.setRill (s : State) (k : Nat) (v : Rill) : State :=
  { s with fabric := { s.fabric with rills := Store.put (fun _ => Rill.reset) s.fabric.rills k v } }

/-- The messages a Runnel's router holds, oldest first. -/
def State.router (s : State) (k : Nat) : List Msg := Store.get (fun _ => []) s.fabric.routers k

/-- The state with a router's messages set. -/
def State.setRouter (s : State) (k : Nat) (v : List Msg) : State :=
  { s with fabric := { s.fabric with routers := Store.put (fun _ => []) s.fabric.routers k v } }

/-- The staging buffer of a node Terrace (Table 1-1). -/
def State.staging (s : State) (t : Nat) : Store Byte := Store.get (fun _ => []) s.fabric.staging t

/-- The state with a staging buffer set. -/
def State.setStaging (s : State) (t : Nat) (v : Store Byte) : State :=
  { s with fabric := { s.fabric with staging := Store.put (fun _ => []) s.fabric.staging t v } }

/-- The shared SRAM of a physical Runnel. -/
def State.sram (s : State) (k : Nat) : Sram := Store.get (fun _ => Sram.reset) s.fabric.srams k

/-- The state with a Runnel's shared SRAM set. -/
def State.setSram (s : State) (k : Nat) (v : Sram) : State :=
  { s with fabric := { s.fabric with srams := Store.put (fun _ => Sram.reset) s.fabric.srams k v } }

/-- Are all the Rill's engines idle? -/
def Rill.idle (r : Rill) : Bool := r.engs.all (fun e => e == .idle)

/-- Is a retired Rill or Runnel idle (R277)? -/
def State.unitIdle (s : State) (u : Nat × Nat) : Bool :=
  if u.1 = kRunnel then (List.range 18).all (fun r => (s.rill (u.2 + 512 * r)).idle) else (s.rill u.2).idle

/-- Messages that a retired Runnel's router holds go on from the router of the Runnel that takes its place (DEDUCED, log
142). -/
def State.moveRouter (s : State) (u : Nat × Nat) : State :=
  if u.1 = kRunnel then
    let spare := u.2 % 16 + 16 * 16
    (s.setRouter spare (s.router spare ++ s.router u.2)).setRouter u.2 []
  else s

/-- The maps change for every retired unit that has become idle (R277). -/
def State.settleMaps (s : State) : State :=
  let go := s.fabric.retiring.filter s.unitIdle
  let s1 := { s with fabric := { s.fabric with retiring := s.fabric.retiring.filter (fun u => !go.contains u) } }
  go.foldl State.moveRouter s1

/-- A Rill or Runnel is retired: the record is written, and the maps change once the unit is idle (R277, R498, R502). -/
def State.retireMapped (s : State) (kind loc code : Nat) : State :=
  if recorded s.record kind loc then s
  else
    let s1 := s.retire kind loc code
    ({ s1 with fabric := { s1.fabric with retiring := s1.fabric.retiring ++ [(kind, loc)] } } : State).settleMaps

/-- A Spout by its SPOUT_SEL key. -/
def State.spout (s : State) (k : Nat) : Spout := Store.get (fun _ => Spout.reset) s.hbm.spouts k

/-- The state with a Spout set. -/
def State.setSpout (s : State) (k : Nat) (v : Spout) : State :=
  { s with hbm := { s.hbm with spouts := Store.put (fun _ => Spout.reset) s.hbm.spouts k v } }

/-- Is a Spout disabled (R346)? -/
def State.spoutOff (s : State) (k : Nat) : Bool := recorded s.record kSpout k

/-- Is every bank of a Spout's pseudo-channel closed to its Spout? -/
def State.pcClosed (s : State) (k : Nat) : Bool := (List.range 16).all (fun b => (s.spout (k % 64 + 64 * b)).row.isNone)

/-- Pending refreshes are issued when every bank of a Spout's pseudo-channel is closed (R332). -/
def State.issueRefresh (s : State) (k : Nat) : State :=
  if s.pcClosed k then
    let st := s.stack (k % 4 + 4)
    s.setStack (k % 4 + 4) { st with refresh := Store.put (fun _ => 0) st.refresh (k / 4 % 16) 0 }
  else s

end Sys2Proof.Machine
end

