-- ==== Sys2Proof/Machine/Space.lean ====
section
/-! DEFINITION. Slice map entries, granules and the bytes of HBM that a slice holds (R440 to R443, R560), and where
lists are placed (R123, R124). -/

namespace Sys2Proof.Machine

/-- Space of an LPN. -/
def lpnSpace (l : Nat) : Nat := l / 4398046511104

/-- LPN of page `pg` of the row region of index `i` (R351). -/
def rowLpn (i pg : Nat) : Nat := i * 68719476736 + pg

/-- LPN of page `pg` of the owner-table region of index `i`. -/
def ownerLpn (i pg : Nat) : Nat := (32 + i) * 68719476736 + pg

/-- The index an LPN of space 0 belongs to. -/
def lpnIndex (l : Nat) : Nat := (l / 68719476736) % 32

/-- LPN of page `n` of the backing images of index `i`. The Cistern allocates them in order (R377; DESIGN CHOICE, log 21). -/
def imageLpn (i n : Nat) : Nat := 4398046511104 + i * 68719476736 + n % 68719476736

/-- The pages of the backing image of a block array. -/
def ArrImage.lpns (b : ArrImage) : List Nat := (List.range b.pages).map (fun j => b.base + j)

/-- Entry `n` of the slice map after a FULL reset (Table 17-7). -/
def entryReset (n : Nat) : MapEntry :=
  ⟨mapReset n 0x00, mapReset n 0x08, mapReset n 0x10, mapReset n 0x18, mapReset n 0x20⟩

/-- Entry `n` of the map in force. -/
def State.entry (s : State) (n : Nat) : MapEntry := s.slices.map.getD n (entryReset n)

/-- Does the slice hold node Terrace `t`? -/
def MapEntry.hasTerrace (e : MapEntry) (t : Nat) : Bool := decide (t < 16) && bit e.terr t

/-- The slice's Terraces in a Basin. -/
def MapEntry.terracesIn (e : MapEntry) (b : Nat) : List Nat :=
  (List.range 8).filter (fun t => e.hasTerrace (8 * b + t))

/-- The slice's Terraces. -/
def MapEntry.terraces (e : MapEntry) : List Nat := (List.range 16).filter e.hasTerrace

/-- Is opcode number `i` of Table 3-3 enabled? -/
def MapEntry.opEnabled (e : MapEntry) (i : Nat) : Bool := bit e.terr (16 + i)

/-- EN of an entry. -/
def MapEntry.en (e : MapEntry) : Bool := bit e.terr 28

/-- Granules of a Basin and kind (0 plain, 1 spouting). -/
def MapEntry.granules (e : MapEntry) (b k : Nat) : Nat := field e.hbm (16 * b + 8 * k) 8

/-- Granules of a Basin. -/
def MapEntry.granulesIn (e : MapEntry) (b : Nat) : Nat := e.granules b 0 + e.granules b 1

/-- SRAM share in MiB. -/
def MapEntry.sram (e : MapEntry) : Nat := field e.res 0 6

/-- Spill share in GiB. -/
def MapEntry.spill (e : MapEntry) : Nat := field e.res 8 4

/-- Basins the slice holds HBM in. -/
def MapEntry.basins (e : MapEntry) : List Nat := (List.range 2).filter (fun b => decide (0 < e.granulesIn b))

/-- 2^30. -/
def gib : Nat := 1073741824

/-- The page versions of table `t` that some epoch of `es` sees beyond the first of each page (R99, R100). -/
def Index.extraPages (x : Index) (es : List Epoch) (t : Nat) : Nat :=
  sumNat ((x.notePages.pages.filter (fun p => p.1 % 8 == t)).map (fun p => (Versions.keep x.u es p.2).length - 1))

/-- Bytes of the extra page versions that an index holds in the HBM of Basin `b`: replicas of the quantized centroid table for
each Terrace, one copy of each other table (R94, R99). -/
def Index.versionBytes (x : Index) (e : MapEntry) (used : List Epoch) (b : Nat) : Nat :=
  let es := (x.heldEpochs ++ used).dedup
  let pages := fun (n : Nat) => 4096 * n
  let t := (e.terracesIn b).length
  let here := b2n (decide (0 < e.granulesIn b))
  pages (x.extraPages es 3) * t + here * (pages (x.extraPages es 0) + pages (x.extraPages es 1) + pages (x.extraPages es 2))

/-- Epochs that accepted requests and parts of an index still see (R100). The sums of a CLUSTER_STEP are formed at the epoch
before the one it names (R250). -/
def State.usedEpochs (s : State) (i : Nat) : List Epoch :=
  (s.reqs.flatMap (fun p => if p.2.hdr.index.toNat = i ∧ p.2.life ≠ .answered ∧ opUsesIndex p.2.op then
      (if p.2.op = opClusterStep then [p.2.epoch, p.2.epoch - 1] else [p.2.epoch])
    else [])) ++
  (s.partsIn.filterMap (fun p => if partIndex p.2.body = i then some (partEpoch p.2.body) else none))

/-- Lines of a slice's row cache in Basin `b` that hold pages of index `i` which `p` takes. -/
def State.cachedPages (s : State) (n i b : Nat) (p : Nat → Bool) : Nat :=
  ((Store.get (fun _ => []) s.mem.cache (2 * n + b)).filter (fun l =>
    decide (lpnSpace l.lpn = 0) && lpnIndex l.lpn == i && p l.lpn)).length

/-- Block bytes of an index in a Basin and stack (Table 5-2, STACK), demoted arrays left out. -/
def State.indexBytes (s : State) (i : Nat) (x : Index) (b st : Nat) : Nat :=
  sumNat (x.arrs.map (fun p =>
    if p.2.basin = b ∧ p.2.stack = st ∧ ¬ s.mem.demoted.contains (i, p.1) then p.2.bytes x.desc.width else 0))

/-- Block bytes in a Basin and stack, over the indexes that `p` takes, with the source pages of migrations that scans still read
(R341). -/
def State.stackBytes (s : State) (p : Index → Bool) (b st : Nat) : Nat :=
  sumNat (s.indexes.map (fun q => if p q.2 then s.indexBytes q.1 q.2 b st else 0)) +
    sumNat (s.hbm.leaving.map (fun l =>
      if l.basin = b ∧ l.stack = st ∧ ((s.index? l.idx).map p).getD false = true then l.bytes else 0))

/-- Baseline bytes of an index in Basin `b` of a slice (Table 5-15), split by Basin as R560 says: replicas for each
Terrace of the Basin and one copy of each per-Basin object. -/
def baselineIn (d : IdxDesc) (e : MapEntry) (b : Nat) : Nat :=
  let t := (e.terracesIn b).length
  let here := if e.granulesIn b > 0 then 1 else 0
  let s8 := 64 * ((d.dim + 24 + 63) / 64)
  d.listCap * s8 * t + d.width * d.dim * t +
    here * (d.listCap * 4 * d.dim + d.listCap * 64 + (if 65536 < d.listCap then d.listCap * 128 else 0) + 16384)

/-- Row cache of a slice in Basin `b` in GiB (MEM_RC_SLICE). -/
def State.rowCacheGib (s : State) (n : Nat) (e : MapEntry) (b : Nat) : Nat :=
  let v := s.regF (Reg.MEM_RC_SLICE + 8 * n) (8 * b) 8
  if v ≠ 0 then v else max 1 (e.granulesIn b / 16)

/-- HBM copies of dirty pages of an index in Basin `b` besides the line that the slice's row cache holds there (R357, R560). -/
def State.dirtyCopies (s : State) (n i b : Nat) : Nat :=
  let lines := Store.get (fun _ => []) s.mem.cache (2 * n + b)
  sumNat (s.mem.dirty.map (fun d =>
    if lpnIndex d.1 = i then
      (d.2.copies.filter (fun c => c.basin == b)).length - b2n (lines.any (fun l => l.lpn == d.1))
    else 0))

/-- Bytes a slice holds in the granules of a Basin and kind (R560): blocks in the stacks of the kind; in plain granules also the
baseline and extra page versions of its indexes, its pour replicas, its row cache as it is sized with the second copies of dirty
pages, and the owner-table pages that are cached. -/
def State.sliceHeld (s : State) (n : Nat) (e : MapEntry) (b k : Nat) : Nat :=
  let blocks := s.stackBytes (fun x => x.desc.slice == n) b (2 * k) + s.stackBytes (fun x => x.desc.slice == n) b (2 * k + 1)
  if k = 1 then blocks
  else
    let base := sumNat (s.indexes.map (fun q =>
      if q.2.desc.slice = n then baselineIn q.2.desc e b else 0))
    let progs := sumNat (s.progs.map (fun q =>
      if q.2.slice = n ∧ q.2.state ≠ 0 then q.2.bytes * (e.terracesIn b).length else 0))
    let cache := if e.granulesIn b > 0 then s.rowCacheGib n e b * gib else 0
    let grown := sumNat (s.indexes.map (fun q =>
      if q.2.desc.slice = n then q.2.versionBytes e (s.usedEpochs q.1) b +
        4096 * (s.cachedPages n q.1 b (fun l => decide (32 ≤ l / 68719476736)) + s.dirtyCopies n q.1 b) else 0))
    blocks + base + progs + cache + grown

/-- N_B (R442). -/
def State.nodeRegion (s : State) : Nat :=
  1 + (s.regF Reg.SLC_NODE_CFG 0 4 + 1) / 2 + (s.regF Reg.CIST_MAPCACHE_CFG 0 6 + 1) / 2

/-- Granules of a Basin and kind that slices may hold (R442). -/
def State.granuleCap (s : State) (k : Nat) : Nat := if k = 0 then 48 - s.nodeRegion else 32

/-- Granules of a stack (R440). -/
def granulesOf (st : Nat) : Nat := if 2 ≤ st then 16 else 24

/-- The numbers of the granules that a slice holds in a stack. -/
def Slices.heldIn (sl : Slices) (n b st : Nat) : List Nat :=
  (sl.held.filter (fun g => g.slice == n && g.basin == b && g.stack == st)).map (fun g => g.num)

/-- The numbers of the granules that a slice keeps in a stack: those that no change takes away. -/
def Slices.keptIn (sl : Slices) (n b st : Nat) : List Nat :=
  (sl.heldIn n b st).filter (fun g => !sl.leaving.any (fun l => l.gran == ⟨n, b, st, g⟩))

/-- One granule of a Basin and kind passes to a slice: in the stack where it holds fewer, that of complex 0 on a tie, so that its
granules stay split as evenly as can be (R442); the lowest one that no slice holds (DESIGN CHOICE, log 198). -/
def Slices.grantOne (sl : Slices) (n b k : Nat) : Slices :=
  let free := fun (st : Nat) =>
    ((List.range (granulesOf st)).find? (fun g => !sl.held.any (fun h => h.basin == b && h.stack == st && h.num == g))).map
      (fun g => (⟨n, b, st, g⟩ : Granule))
  let st := if (sl.heldIn n b (2 * k)).length ≤ (sl.heldIn n b (2 * k + 1)).length then 2 * k else 2 * k + 1
  match (free st).orElse (fun _ => free (4 * k + 1 - st)) with
  | some g => { sl with held := sl.held ++ [g] }
  | none => sl

/-- `c` granules of a Basin and kind pass to a slice. -/
def Slices.grant (sl : Slices) (n b k : Nat) : Nat → Slices
  | 0 => sl
  | c + 1 => Slices.grant (sl.grantOne n b k) n b k c

/-- Granules of a Basin and kind that a slice waits for. -/
def Slices.waitsFor (sl : Slices) (n b k : Nat) : Nat :=
  sumNat (sl.gated.map (fun g => if g.1 = n ∧ g.2.1 = b ∧ g.2.2.1 = k then g.2.2.2 else 0))

/-- `n` granules of a Basin and kind pass to the slices that wait for them, the lower-numbered slice first (DESIGN CHOICE, log
183). -/
def passGranules (b k : Nat) : Nat → List (Nat × Nat × Nat × Nat) → List (Nat × Nat × Nat × Nat)
  | _, [] => []
  | n, g :: gs =>
    if g.2.1 = b ∧ g.2.2.1 = k then
      if g.2.2.2 ≤ n then passGranules b k (n - g.2.2.2) gs
      else (g.1, g.2.1, g.2.2.1, g.2.2.2 - n) :: gs
    else g :: passGranules b k n gs

/-- The granules that a change takes from a slice in a Basin and kind have been moved out: they leave it, and as many pass on (R450). -/
def Slices.release (sl : Slices) (old b k : Nat) : Slices :=
  let mine := fun (g : Granule) => g.slice == old && g.basin == b && g.stack / 2 == k
  let gone := sl.leaving.filter (fun l => mine l.gran)
  let s1 := { sl with
    held := sl.held.filter (fun g => !gone.any (fun l => l.gran == g))
    leaving := sl.leaving.filter (fun l => !mine l.gran)
    gated := passGranules b k gone.length sl.gated }
  (List.range 16).foldl (fun (t : Slices) n => t.grant n b k (sl.waitsFor n b k - s1.waitsFor n b k)) s1

/-- Every resource of a switch in progress is released at once; what a pending change takes away stays chosen (R459). -/
def Slices.settle (sl : Slices) : Slices :=
  let s1 := sl.moving.foldl (fun (t : Slices) m => match m with
    | .granule b k old _ => t.release old b k
    | .terrace _ _ _ => t) sl
  { s1 with
    moving := []
    gated := []
    late := false }

/-- Granules of a Basin and kind that a slice has gained by a switch and that have not passed to it yet (R450). -/
def State.gated (s : State) (n b k : Nat) : Nat := s.slices.waitsFor n b k

/-- Granules of a Basin and kind that a slice may use under map entry `e`: under the map in force not those that still have to
pass to it (R449, R450). -/
def State.usable (s : State) (n : Nat) (e : MapEntry) (b k : Nat) : Nat :=
  e.granules b k - (if e = s.entry n then s.gated n b k else 0)

/-- Free HBM of a slice in a Basin and kind (R560). -/
def State.sliceFree (s : State) (n : Nat) (e : MapEntry) (b k : Nat) : Nat :=
  s.usable n e b k * gib - s.sliceHeld n e b k

/-- Granules of a slice in one stack: split evenly, the odd one in complex 0 (R442). -/
def State.stackGranules (s : State) (n : Nat) (e : MapEntry) (b st : Nat) : Nat :=
  let g := s.usable n e b (st / 2)
  if st % 2 = 0 then (g + 1) / 2 else g / 2

/-- Free bytes of a slice in one stack. What the slice holds in plain granules besides blocks is counted half in either plain
stack, the odd byte in that of complex 0 (DESIGN CHOICE, log 70). -/
def State.stackFree (s : State) (n : Nat) (e : MapEntry) (b st : Nat) : Nat :=
  let mine := fun (x : Index) => x.desc.slice == n
  let other := if 2 ≤ st then 0 else s.sliceHeld n e b 0 - s.stackBytes mine b 0 - s.stackBytes mine b 1
  s.stackGranules n e b st * gib - s.stackBytes mine b st - (if st % 2 = 0 then (other + 1) / 2 else other / 2)

/-- Where a slice's lists go under map entry `e`, new ones in stacks of the kind `spout` names. -/
def State.placingAs (s : State) (n : Nat) (e : MapEntry) (spout : Bool) : Placing :=
  let both := decide (e.granulesIn 0 > 0 ∧ e.granulesIn 1 > 0)
  ⟨both, if e.granulesIn 0 > 0 then 0 else 1, spout, (List.range 8).map (fun j => s.stackFree n e (j / 4) (j % 4))⟩

/-- Where an index's new lists go. -/
def State.placing (s : State) (d : IdxDesc) : Placing := s.placingAs d.slice (s.entry d.slice) d.spout

/-- Handles of the block arrays a list has in Basin `b` in any version of its slot; after a compaction to the other Basin, those of older
epochs stay where they are (R123). -/
def Index.listArrs (x : Index) (b slot : Nat) : List Nat :=
  let vs := ((Store.find? x.slots slot).getD []).map (·.2)
  ((vs.flatMap (fun t => t.main :: t.chain)).dedup).filter (fun h => (Store.find? x.arrs h).any (fun a => a.basin == b))

/-- Bytes of a list's block arrays in a Basin. -/
def Index.listBytes (x : Index) (b slot : Nat) : Nat :=
  sumNat ((x.listArrs b slot).map (fun h => match Store.find? x.arrs h with | some a => a.bytes x.desc.width | none => 0))

/-- The stack in which all of a list's blocks of a Basin lie now, if they lie in one. -/
def Index.listStack (x : Index) (b slot : Nat) : Option Nat :=
  match (x.listArrs b slot).filterMap (fun h => Store.find? x.arrs h) with
  | [] => none
  | a :: as => if as.all (fun c => c.stack == a.stack) then some a.stack else none

end Sys2Proof.Machine
end

