-- ==== Sys2Proof/Machine/Flash.lean ====
section
/-! DEFINITION. Operations of the Cistern on the media: physical addresses, block groups, stripe rows, the map and its
cache (chapter "The Cistern flash subsystem"), and the row-cache replacement shared with the memory range. -/

namespace Sys2Proof.Machine

/-! ### CLOCK (R356, R387) -/

/-- Evict one line: the hand passes pinned lines and lines in use since its last pass. -/
def clockEvict (pin : Nat → Bool) : Nat → List Line → List Line
  | 0, l => l
  | _ + 1, [] => []
  | f + 1, a :: l =>
    if pin a.lpn then clockEvict pin f (l ++ [a])
    else if a.ref then clockEvict pin f (l ++ [{ a with ref := false }])
    else l

/-- Bring a line in, evicting one when the cache holds `cap` lines. -/
def clockInsert (pin : Nat → Bool) (cap : Nat) (l : List Line) (lpn : Nat) : List Line :=
  if l.any (fun a => a.lpn == lpn) then l.map (fun a => if a.lpn = lpn then { a with ref := true } else a)
  else (if l.length < cap then l else clockEvict pin (2 * l.length + 1) l) ++ [⟨lpn, true⟩]

/-! ### Addresses (R376, R377) -/

/-- Pack a physical codeword address (Table 14-2). -/
def mkPpa (ch lun block plane page cw : Nat) : Nat :=
  cw + 4 * page + 16384 * plane + 65536 * block + 1073741824 * lun + 34359738368 * ch

/-- The block set of a PPA as channel, LUN and block. -/
def ppaSet (p : Nat) : Nat × Nat × Nat := (p / 34359738368 % 32, p / 1073741824 % 32, p / 65536 % 16384)

/-- Stripe number of a PPA in its group (R384). -/
def ppaStripe (planes p : Nat) : Nat := (p / 4 % 4096) * 4 * planes + (p / 16384 % 4) * 4 + p % 4

/-- LPN of a map page of space 2, from the LPN it maps. -/
def mapLpn (l : Nat) : Nat := 2 * 4398046511104 + l / 512

/-- The stream a page is written in (R383). -/
def streamOf (l : Nat) : Nat :=
  match lpnSpace l with
  | 0 => if l / 68719476736 < 32 then 0 else 1
  | 1 => 2
  | _ => 3

/-! ### Codewords (R379, R384) -/

/-- LPN of a filler or parity codeword. -/
def fillerLpn : Nat := 0xFFFFFFFFFFF

/-- The 32 metadata bytes of a codeword (Table 14-4). -/
def metaBytes (user : List Byte) (lpn stream : Nat) (stamp : U64) (gen : U32) : List Byte :=
  let m := leBytes 8 (lpn % 17592186044416 + 72057594037927936 * (stream % 256)) ++ leBytes 8 stamp.toNat ++ leBytes 4 gen.toNat
    ++ zeroBytes 8
  m ++ leBytes 4 (crc32c (user ++ m)).toNat

/-- Parity bytes P of a code option (Table 14-3). -/
def codeP (parity : Nat) : Nat := 384 + 64 * parity

/-- User bytes and metadata with the parity bytes of the code option in force; the code itself is open (R378, R379). -/
def Cistern.encode (c : Cistern) (b : List Byte) : List Byte := b ++ padTo 0 (codeP c.parity) (Config.ldpcParity c.parity b)

/-- The number of the stream that a group is of: 5 and 6 are the second groups of streams 3 and 4 (R383). -/
def streamNum (stream : Nat) : Nat := if stream = 5 then 3 else if stream = 6 then 4 else stream

/-- A codeword as it is programmed in a stream: its user bytes, its metadata and the parity bytes. -/
def Cistern.codeword (c : Cistern) (stream : Nat) (w : Cword) : List Byte :=
  let user := padTo 0 4096 w.user
  c.encode (user ++ metaBytes user w.lpn (streamNum stream) w.stamp c.generation)

/-- The bytes of two strings, exclusive-or. -/
def xorBytes (a b : List Byte) : List Byte := List.zipWith (fun x y => x ^^^ y) a b

/-- The exclusive-or of the user bytes and metadata of codewords. -/
def xorWords (ws : List (List Byte)) : List Byte := ws.foldl xorBytes (zeroBytes 4128)

/-- The parity codeword of a stripe: the exclusive-or of the other members, with its own LPN, GENERATION and CRC (R384; DEDUCED,
log 157). -/
def Cistern.parityWord (c : Cistern) (ws : List (List Byte)) : List Byte :=
  let x := xorWords ws
  let user := x.take 4096
  c.encode (user ++ metaBytes user fillerLpn (leAt x 4103 1) (BitVec.ofNat 64 (leAt x 4104 8)) c.generation)

/-- Is a codeword as it is read misdirected: its CRC fails, its LPN is not the one the read is for, or its GENERATION is not the
present one (R380)? -/
def Cistern.misdirected (c : Cistern) (want : Option Nat) (w : List Byte) : Bool :=
  decide (leAt w 4112 4 ≠ c.generation.toNat) ||
  (match want with
    | some l => decide (leAt w 4096 8 % 17592186044416 ≠ l)
    | none => false) ||
  decide (leAt w 4124 4 ≠ (crc32c (w.take 4124)).toNat)

/-! ### Media -/

/-- Codewords of a program unit of one member (R385). -/
def Cistern.unitWords (c : Cistern) : Nat := 4 * c.planes * (if c.mode = 0 then 3 else 1)

/-- Is a block set in some group? -/
def Cistern.inGroup (c : Cistern) (b : Nat × Nat × Nat) : Bool := c.groups.any (fun g => g.2.members.contains b)

/-- Usable block sets of a LUN in service. -/
def Cistern.usableOf (c : Cistern) (k : Nat) : List Nat :=
  match Store.find? c.luns k with
  | some l => if l.state = 1 then (List.range c.blocks).filter (fun b => !l.bad.contains b) else []
  | none => []

/-- Codewords of a block set in the formatted mode. -/
def Cistern.setWords (c : Cistern) : Nat := c.pages * c.planes * 4

/-- Every usable block set of the media set. -/
def Cistern.usable (c : Cistern) : List (Nat × Nat × Nat) :=
  c.luns.flatMap (fun l => (c.usableOf l.1).map (fun b => (l.1 % 32, l.1 / 32, b)))

/-- Block sets that user pages, map copies and parity take (R398). -/
def Cistern.neededSets (c : Cistern) : Nat :=
  let words := (c.userPages + 2 * ((c.userPages + 511) / 512)) * c.stripe / (c.stripe - 1)
  (words + c.setWords - 1) / max 1 c.setWords

/-- Spare block sets now. -/
def Cistern.spareSets (c : Cistern) : Nat := c.usable.length - c.neededSets - 4

/-- Erase counts of the usable block sets of a LUN. -/
def Cistern.erasesOf (c : Cistern) (k : Nat) : List Nat :=
  (c.usableOf k).map (fun b => match Store.find? c.luns k with
    | some l => l.eraseBase + Store.get (fun _ => 0) l.erases b
    | none => 0)

/-- The mean of a list, rounded to nearest (R3), 0 for an empty one. -/
def meanOf (l : List Nat) : Nat := nearest (sumNat l) (max 1 l.length)

/-- The mean of a list, rounded down, 0 for an empty one. -/
def meanDown (l : List Nat) : Nat := sumNat l / max 1 l.length

/-- Erase counts of every usable block set. -/
def Cistern.erases (c : Cistern) : List Nat := c.luns.flatMap (fun p => c.erasesOf p.1)

/-- SPARE_PCT: the spare block sets left, in percent of those at the format (R399), rounded to nearest (R3). -/
def Cistern.sparePct (c : Cistern) : Nat := if c.spareAtFormat = 0 then 0 else min 100 (nearest (100 * c.spareSets) c.spareAtFormat)

/-- WEAR_PCT: the mean erase count in percent of the rated cycles, rounded down (R399). -/
def Cistern.wearPct (c : Cistern) : Nat :=
  if c.rated = 0 then 0 else min 255 (100 * sumNat c.erases / (max 1 c.erases.length * c.rated))

/-- Free block sets of a channel as LUN and block. -/
def Cistern.freeOf (c : Cistern) (ch : Nat) : List (Nat × Nat) :=
  (List.range 32).flatMap (fun lun =>
    ((c.usableOf (lunKey ch lun)).filter (fun b => !c.inGroup (ch, lun, b))).map (fun b => (lun, b)))

/-- Erase count of a block set. -/
def Cistern.eraseOf (c : Cistern) (ch lun b : Nat) : Nat :=
  match Store.find? c.luns (lunKey ch lun) with
  | some l => l.eraseBase + Store.get (fun _ => 0) l.erases b
  | none => 0

/-- The free block set of a channel with the lowest erase count. -/
def Cistern.leastErased (c : Cistern) (ch : Nat) : Option (Nat × Nat) :=
  (c.freeOf ch).foldl (fun (b : Option (Nat × Nat)) x =>
    match b with
    | none => some x
    | some y => if c.eraseOf ch x.1 x.2 < c.eraseOf ch y.1 y.2 then some x else b) none

/-- Open groups that use a channel. -/
def Cistern.openUse (c : Cistern) (ch : Nat) : Nat :=
  (c.groups.filter (fun g => g.2.isOpen && g.2.members.any (fun m => m.1 == ch))).length

/-- Channels with a LUN with a usable free block set. -/
def Cistern.freeChannels (c : Cistern) : List Nat := (List.range 32).filter (fun ch => !(c.freeOf ch).isEmpty)

/-- Open a block group for a stream: the channels in ascending order of the open groups that use them and then of
number, at most S of them and not fewer than 8, the members in channel order (R384). -/
def Cistern.openGroup (c : Cistern) (stream : Nat) : Option (Nat × Cistern) :=
  let order := sortBy (fun ch => 1000000 - (c.openUse ch * 32 + ch)) c.freeChannels
  let chosen := order.take c.stripe
  if chosen.length < 8 then none
  else
    let sorted := (List.range 32).filter chosen.contains
    let mem := sorted.filterMap (fun ch => (c.leastErased ch).map (fun x => (ch, x.1, x.2)))
    some (c.nextGroup, { c with groups := Store.insert c.groups c.nextGroup ⟨mem, stream, 0, true, false, false⟩,
                                nextGroup := c.nextGroup + 1 })

/-- Rows of a group: wordlines. -/
def Cistern.rowsOf (c : Cistern) : Nat := if c.mode = 0 then c.pages / 3 else c.pages

/-- Data positions of a stripe row of a group (R385). -/
def Cistern.rowCap (c : Cistern) (g : Group) : Nat := (g.members.length - 1) * c.unitWords

/-- The stripe number of position `p` of a row (stripes of a row in their order, DEDUCED, log 22). -/
def Cistern.rowStripe (c : Cistern) (row p : Nat) : Nat := row * c.unitWords + p

/-- The PPA of a stripe's codeword in a member (R384). -/
def Cistern.stripePpa (c : Cistern) (g : Group) (m st : Nat) : Nat :=
  match g.members[m]? with
  | some (ch, lun, b) => mkPpa ch lun b (st / 4 % c.planes) (st / (4 * c.planes)) (st % 4)
  | none => 0

/-- Member and stripe of the `i`-th codeword of a row: data members in order with the parity member skipped (R385). -/
def Cistern.wordPlace (c : Cistern) (g : Group) (row i : Nat) : Nat × Nat :=
  let w := g.members.length
  let st := c.rowStripe row (i / (w - 1))
  let par := st % w
  let m := i % (w - 1)
  (if m < par then m else m + 1, st)

/-- Put a codeword into the open row of a stream, opening a row and a group where needed. A full row closes and is to
be programmed (R385). Where no group can be formed the codeword waits in HBM (R384). -/
def Cistern.write (c : Cistern) (now : Time) (stream : Nat) (w : Cword) : Cistern :=
  let addTo := fun (c : Cistern) (r : SRow) (g : Group) =>
    let ws := r.words ++ [w]
    let r' := { r with words := ws, closed := decide (ws.length = c.rowCap g) }
    { c with rows := c.rows.map (fun x => if x.group = r.group ∧ x.row = r.row then r' else x) }
  let isOpen := fun (r : SRow) =>
    !r.closed && (match Store.find? c.groups r.group with | some g => g.stream == stream | none => false)
  match c.rows.find? isOpen with
  | some r => (match Store.find? c.groups r.group with | some g => addTo c r g | none => c)
  | none =>
    let grp : Option (Nat × Cistern) :=
      match List.find? (fun (g : Nat × Group) => g.2.isOpen && g.2.stream == stream) c.groups with
      | some g => some (g.1, c)
      | none => c.openGroup stream
    match grp with
    | none => { c with waiting := c.waiting ++ [(stream, w)] }
    | some (k, c1) =>
      match Store.find? c1.groups k with
      | none => c
      | some g =>
        let g' := { g with rows := g.rows + 1, isOpen := decide (g.rows + 1 < c1.rowsOf) }
        let r : SRow := ⟨k, g.rows, [], now, false, []⟩
        let c2 := { c1 with groups := Store.insert c1.groups k g', rows := c1.rows ++ [r] }
        addTo c2 r g'

/-- Codewords that had no block group try again. -/
def Cistern.retryWaiting (c : Cistern) (now : Time) : Cistern :=
  c.waiting.foldl (fun (d : Cistern) p => d.write now p.1 p.2) { c with waiting := [] }

/-- Do two codewords hold the same thing: the page, as a write or as the copy of one old codeword, and the same copy of a map page? -/
def Cword.same (a b : Cword) : Bool := a.lpn == b.lpn && a.old == b.old && a.second == b.second && !a.settled

/-- A codeword goes to its stream. One that holds the same and has not been handed to a program is replaced where it waits; one that is
being programmed will not become clean (R385, DESIGN CHOICE, log 158). -/
def Cistern.queue (c : Cistern) (now : Time) (stream : Nat) (w : Cword) : Cistern :=
  let swap := fun (r : SRow) => { r with words := r.words.map (fun x => if x.same w then w else x) }
  if c.waiting.any (fun p => p.2.same w) then
    { c with waiting := c.waiting.map (fun p => if p.2.same w then (p.1, w) else p) }
  else if c.rows.any (fun r => !r.closed && r.words.any (fun x => x.same w)) then
    { c with rows := c.rows.map (fun r => if r.closed then r else swap r) }
  else
    let rs := c.rows.map (fun (r : SRow) =>
      { r with words := r.words.map (fun x => if x.same w then { x with settled := true } else x) })
    ({ c with rows := rs } : Cistern).write now stream w

/-- Where a codeword of a page lies in a row: the write of the page, the copy of an old codeword, or the second copy of a map page. -/
def Cistern.findWord (c : Cistern) (lpn : Nat) (old : Option Nat) (second : Bool) : Option (SRow × Nat) :=
  c.rows.findSome? (fun r =>
    (r.words.findIdx? (fun w => w.same ⟨lpn, old, second, 0, [], false⟩)).map (fun i => (r, i)))

/-- The PPA of a codeword of a row once its program unit and the parity member's unit of its stripe have completed
(R385). -/
def Cistern.programmed (c : Cistern) (r : SRow) (i : Nat) : Option Nat :=
  match Store.find? c.groups r.group with
  | none => none
  | some g =>
    let (m, st) := c.wordPlace g r.row i
    if r.closed ∧ r.done.contains m ∧ r.done.contains (st % g.members.length) then some (c.stripePpa g m st) else none

/-- The rows that still have something to do: a word to settle or a unit to program. -/
def Cistern.dropRows (c : Cistern) : Cistern :=
  { c with rows := c.rows.filter (fun r => !(r.closed && r.words.all Cword.settled &&
    (match Store.find? c.groups r.group with | some g => (List.range g.members.length).all r.done.contains | none => true))) }

/-- A codeword of a row is settled. -/
def Cistern.settleWord (c : Cistern) (r : SRow) (i : Nat) : Cistern :=
  let r' := { r with words := (List.range r.words.length).filterMap (fun j =>
    (r.words[j]?).map (fun w => if j = i then { w with settled := true } else w)) }
  ({ c with rows := c.rows.map (fun x => if x.group = r.group ∧ x.row = r.row then r' else x) } : Cistern).dropRows

/-- The codewords of a stripe that a row's program puts in the data members, in member order: a position that no codeword of the
stream took holds filler (R385). -/
def Cistern.stripeData (c : Cistern) (g : Group) (r : SRow) (p : Nat) : List (List Byte) :=
  let n := g.members.length - 1
  (List.range n).map (fun j =>
    c.codeword g.stream ((r.words[p * n + j]?).getD ⟨fillerLpn, none, false, 0, [], true⟩))

/-- The codewords of a member's program unit of a row, with their addresses (R384, R385). -/
def Cistern.unitData (c : Cistern) (g : Group) (r : SRow) (m : Nat) : List (Nat × List Byte) :=
  (List.range c.unitWords).map (fun p =>
    let st := c.rowStripe r.row p
    let par := st % g.members.length
    let data := c.stripeData g r p
    (c.stripePpa g m st, if m = par then c.parityWord data else (data[if m < par then m else m - 1]?).getD []))

/-- The group a block set is in. -/
def Cistern.groupOf (c : Cistern) (b : Nat × Nat × Nat) : Option (Nat × Group) :=
  List.find? (fun (g : Nat × Group) => g.2.members.contains b) c.groups

/-- The exclusive-or of the other members' codewords of the stripe of a PPA (R361, R394). -/
def Cistern.fromStripe (c : Cistern) (ppa : Nat) : List Byte :=
  match c.groupOf (ppaSet ppa) with
  | some (_, g) =>
    xorWords (g.members.filterMap (fun m =>
      if m = ppaSet ppa then none
      else Store.find? c.media (mkPpa m.1 m.2.1 m.2.2 (ppa / 16384 % 4) (ppa / 4 % 4096) (ppa % 4))))
  | none => zeroBytes 4128

/-- Valid codewords of a block set as LPN and PPA: those that a map entry or the map directory names. -/
def Cistern.validIn (c : Cistern) (b : Nat × Nat × Nat) : List (Nat × Nat) :=
  (c.map.filter (fun e => ppaSet e.2 == b)) ++
    (c.dirTab.flatMap (fun d => [(d.1, d.2.1), (d.1, d.2.2)])).filter (fun e => ppaSet e.2 == b)

/-- Mark a group for priority reclaim. -/
def Cistern.prioritise (c : Cistern) (b : Nat × Nat × Nat) : Cistern :=
  match c.groupOf b with
  | some (k, g) => { c with groups := Store.insert c.groups k { g with priority := true } }
  | none => c

/-- Is a codeword already on its way to stream 4? -/
def Cistern.moving (c : Cistern) (lpn old : Nat) : Bool :=
  let w : Cword := ⟨lpn, some old, false, 0, [], false⟩
  c.rows.any (fun r => r.words.any (fun x => x.same w)) || c.waiting.any (fun p => p.2.same w)

/-- Valid codewords of a block set that can be read or formed: a page on the lost-page list has none (R362, R390). -/
def State.validIn (s : State) (b : Nat × Nat × Nat) : List (Nat × Nat) :=
  (s.cist.validIn b).filter (fun e => !s.mem.lost.contains e.1)

/-- Is a member of a stripe lost: its LUN retired or its block set bad (R395)? -/
def State.memberLost (s : State) (m : Nat × Nat × Nat) : Bool :=
  let l := s.lun (lunKey m.1 m.2.1)
  l.state != 1 || l.bad.contains m.2.2

/-- The bytes of a codeword that a relocation writes: as they are read, or formed from the stripe (R390, R394). -/
def State.readWord (s : State) (ppa : Nat) : List Byte :=
  if s.memberLost (ppaSet ppa) then s.cist.fromStripe ppa else (Store.find? s.cist.media ppa).getD (zeroBytes 4128)

/-- A page goes on the lost-page list (R362). -/
def State.losePage (s : State) (lpn : Nat) : State :=
  if s.mem.lost.contains lpn then s else { s with mem := { s.mem with lost := s.mem.lost ++ [lpn] } }

/-- The members of a group whose codeword at the stripe of an address is lost, as `lost` says of addresses. -/
def stripeLost (lost : Nat → Bool) (g : Group) (ppa : Nat) : Nat :=
  (g.members.filter (fun m => lost (mkPpa m.1 m.2.1 m.2.2 (ppa / 16384 % 4) (ppa / 4 % 4096) (ppa % 4)))).length

/-- Is a codeword lost for good: its member is lost and another member of its stripe too (R395)? -/
def State.wordGone (s : State) (ppa : Nat) : Bool :=
  s.memberLost (ppaSet ppa) &&
  (s.cist.groupOf (ppaSet ppa)).any (fun g => decide (1 < stripeLost (fun p => s.memberLost (ppaSet p)) g.2 ppa))

/-- Pages in stripes of which two members are lost go on the lost-page list and are counted (R395). -/
def State.loseWords (s : State) (es : List (Nat × Nat)) : State :=
  es.foldl (fun (u : State) e => if lpnSpace e.1 < 2 then (u.losePage e.1).bumpSat Reg.CIST_ERR_C 0 32 1 else u) s

/-- The copy of the codeword at an address that goes to stream 4. -/
def State.moveWord (s : State) (e : Nat × Nat) : Cword :=
  let w := s.readWord e.2
  ⟨e.1, some e.2, false, BitVec.ofNat 64 (leAt w 4104 8), w.take 4096, false⟩

/-- The group of stream 4 that a relocated codeword goes to: the second copy of a map page goes to one of its own, so that the two copies
never share a block group (R386). -/
def Cistern.moveStream (c : Cistern) (e : Nat × Nat) : Nat :=
  if (Store.find? c.dirTab e.1).any (fun d => d.2 == e.2) then 6 else 4

/-- Relocate codewords into stream 4 (R390 step 1); a repeated step adds none twice. -/
def State.moveWords (s : State) (es : List (Nat × Nat)) : State :=
  { s with cist := es.foldl (fun (d : Cistern) e =>
      if d.moving e.1 e.2 then d else d.write s.tick (d.moveStream e) (s.moveWord e)) s.cist }

/-- Relocate the valid codewords of a block set; those that cannot be formed any more are lost (R390, R395). -/
def State.relocate (s : State) (b : Nat × Nat × Nat) : State :=
  let es := s.validIn b
  (s.loseWords (es.filter (fun e => s.wordGone e.2))).moveWords (es.filter (fun e => !s.wordGone e.2))

/-- The LPN that a read of an address is for: the one whose map entry, or whose entry of the map directory, names the address. -/
def Cistern.lpnAt (c : Cistern) (ppa : Nat) : Option Nat :=
  match List.find? (fun (e : Nat × Nat) => e.2 == ppa) c.map with
  | some e => some e.1
  | none => (List.find? (fun (d : Nat × Nat × Nat) => d.2.1 == ppa || d.2.2 == ppa) c.dirTab).map Prod.fst

/-- Do all pages stand on the media? -/
def State.onMedia (s : State) (lpns : List Nat) : Bool := lpns.all (fun l => (Store.find? s.cist.map l).isSome)

/-- The backing image of a block array. -/
def State.imageOf (s : State) (i h : Nat) : Option ArrImage := s.mem.backed.find? (fun b => b.idx == i && b.h == h)

/-- Is a block array backed: does its image stand on the media (R353, R354)? -/
def State.isBacked (s : State) (i h : Nat) : Bool := (s.imageOf i h).any (fun b => s.onMedia b.lpns)

/-- The state with the Cistern set. -/
def State.withCist (s : State) (c : Cistern) : State := { s with cist := c }

/-! ### The map (R386 to R388) -/

/-- A map page: its 512 entries (R386). -/
def Cistern.mapPage (c : Cistern) (m : Nat) : List Byte :=
  (List.range 512).flatMap (fun j =>
    leBytes 8 (match Store.find? c.map ((m - 2 * 4398046511104) * 512 + j) with
      | some p => p % 1099511627776 + 1099511627776
      | none => 0))

/-- The entry of the map directory for a map page (R386). -/
def Cistern.dirEntry (c : Cistern) (m : Nat) : List Byte :=
  match Store.find? c.dirTab m with
  | some d => leBytes 8 (d.1 % 1099511627776) ++ leBytes 8 (d.2 % 1099511627776)
  | none => zeroBytes 16

/-- The state with the reads in progress set. -/
def State.withReads (s : State) (l : List LtRead) : State := { s with mem := { s.mem with reads := l } }

/-- The pages a target is stored in: the page, or the packed image of the array (R355). -/
def State.pagesOf (s : State) : Target → List Nat
  | .page l => [l]
  | .array i h => ((s.imageOf i h).map ArrImage.lpns).getD []

/-- The addresses at which the entries of a target's pages name their codewords now; those of a map page stand in the directory (R386). -/
def State.homesOf (s : State) (t : Target) (second : Bool) : List Nat :=
  (s.pagesOf t).filterMap (fun l =>
    if lpnSpace l = 2 then (Store.find? s.cist.dirTab l).map (fun d => if second then d.2 else d.1) else Store.find? s.cist.map l)

/-- The primary of a read is issued. While MEM_INJECT.SLOW is set, the first one takes the injection (Table 13-6). -/
def State.issueRead (s : State) (r : LtRead) : LtRead :=
  { r with
    since := s.tick
    ppas := s.homesOf r.target r.second
    slow := bit (s.reg Reg.MEM_INJECT) 0 && !s.mem.reads.any LtRead.slow }

/-- A read of a map page that is not cached begins, unless it is in progress (R387). -/
def State.readMap (s : State) (slice basin m : Nat) : State :=
  if s.mem.reads.any (fun r => r.target == .page m) then s
  else
    let r : LtRead := ⟨.page m, [], slice, basin, s.tick, false, 0, false, [], [], false, false⟩
    (s.withReads (s.mem.reads ++ [s.issueRead r])).bump Reg.CIST_MAPCACHE_STATUS 32 32 1

/-- The directory pages that region 0 holds, each of the entries of 4,096 map pages: they are allocated as map pages come to have copies
on the media (R386). -/
def Cistern.dirPages (c : Cistern) : List Nat := ((Store.keys c.dirTab).map (fun m => (m - 2 * 4398046511104) / 4096)).dedup

/-- The bytes of a directory page. -/
def Cistern.dirPage (c : Cistern) (d : Nat) : List Byte :=
  (List.range 4096).flatMap (fun j => c.dirEntry (2 * 4398046511104 + 4096 * d + j))

/-- Lines of the map cache (R387). -/
def State.mapCap (s : State) : Nat := s.regF Reg.CIST_MAPCACHE_CFG 0 6 * 262144

/-- Is a map page in the cache? -/
def Cistern.mapCached (c : Cistern) (m : Nat) : Bool := c.mapCache.any (fun l => l.lpn == m)

/-- Is a line of the map cache pinned: is it dirty (R387)? -/
def Cistern.mapPinned (c : Cistern) (m : Nat) : Bool := (Store.find? c.mapDirty m).isSome

/-- A line of the map cache is used or brought in. -/
def State.mapLine (s : State) (m : Nat) : State :=
  { s with cist := { s.cist with mapCache := clockInsert s.cist.mapPinned s.mapCap s.cist.mapCache m } }

/-- Must the map page of an LPN be read before an entry of it changes: it has copies on the media and is not cached (R387)? -/
def State.mapCold (s : State) (lpn : Nat) : Bool :=
  !s.cist.mapCached (mapLpn lpn) && (Store.find? s.cist.dirTab (mapLpn lpn)).isSome

/-- The read of the map page of an LPN. -/
def State.readMapOf (s : State) (lpn : Nat) : State := s.readMap 0 0 (mapLpn lpn)

/-- The two HBM copies of a dirty line of the map cache: in the node regions of the two Basins, or in the two controller complexes of one
while the other is in a domain restart (R357, R387, R442). -/
def State.nodeCopies (s : State) (stamp : U64) : Dirty :=
  match [0, 1].filter (fun b => (s.basin b).state != 1) with
  | [b] => ⟨[⟨b, 0, stamp⟩, ⟨b, 1, stamp⟩]⟩
  | _ => ⟨[⟨0, 0, stamp⟩, ⟨1, 0, stamp⟩]⟩

/-- Further map updates wait while dirty lines fill half the cache (R387). -/
def State.mapHeld (s : State) : Bool := decide (s.mapCap ≤ 2 * s.cist.mapDirty.length)

/-- A map page is dirty: its line has two HBM copies with the next write stamp, and both flash copies are queued, in two block groups of
stream 3 (R386, R387). -/
def State.queueMap (s : State) (m : Nat) : State :=
  let stamp := s.mem.stamp + 1
  let user := s.cist.mapPage m
  { s with
    mem := { s.mem with stamp := stamp }
    cist := { (s.cist.queue s.tick 3 ⟨m, none, false, stamp, user, false⟩).queue s.tick 5 ⟨m, none, true, stamp, user, false⟩ with
      mapDirty := Store.insert s.cist.mapDirty m (s.nodeCopies stamp) } }

/-- A map entry changes (R388): its map page becomes dirty and both copies of the new page are written in stream 3. -/
def State.mapSet (s : State) (lpn : Nat) (ppa : Option Nat) : State :=
  let s1 := s.mapLine (mapLpn lpn)
  let c := s1.cist
  ({ s1 with cist := { c with
      map := match ppa with
        | some p => Store.insert c.map lpn p
        | none => Store.erase c.map lpn
      trims := c.trims.filter (· != lpn) } } : State).queueMap (mapLpn lpn)

/-- A trim waits. -/
def State.trimLater (s : State) (lpn : Nat) : State :=
  { s with cist := { s.cist with trims := if s.cist.trims.contains lpn then s.cist.trims else s.cist.trims ++ [lpn] } }

/-- Trim an LPN; while map updates wait, the trim waits with them, and it waits for the read of a map page that is not cached (R387,
R388). -/
def State.trim (s : State) (lpn : Nat) : State :=
  if (Store.find? s.cist.map lpn).isNone then { s with cist := { s.cist with trims := s.cist.trims.filter (· != lpn) } }
  else if s.mapHeld then s.trimLater lpn
  else if s.mapCold lpn then (s.trimLater lpn).readMapOf lpn
  else s.mapSet lpn none

/-- Trims that waited go on. -/
def State.trimWaiting (s : State) : State := s.cist.trims.foldl State.trim s

/-- Pages of spaces 0 and 1 that are valid or dirty (CIST_USED), backing images on their way to the media among them. -/
def State.cistUsed (s : State) : Nat :=
  let held := s.cist.map.filter (fun e => decide (lpnSpace e.1 < 2))
  let words := s.cist.rows.flatMap SRow.words ++ s.cist.waiting.map Prod.snd
  let due := (s.mem.dirty.map Prod.fst ++
    (words.filter (fun w => !w.settled && w.old.isNone && decide (lpnSpace w.lpn = 1))).map Cword.lpn).dedup
  held.length + (due.filter (fun l => (Store.find? s.cist.map l).isNone)).length

/-- Does the Cistern accept `n` more pages (R396)? -/
def State.cistAccepts (s : State) (n : Nat) : Bool :=
  decide (2 ≤ s.cist.state) && decide (s.cistUsed + n ≤ s.cist.userPages) &&
    decide (8 ≤ s.cist.freeChannels.length)

/-- Bytes of the packed record of a block (Table 13-3). -/
def packedBlockBytes (inflow : Bool) (w : Nat) (es : List BlkEnt) : Nat :=
  let n := es.length
  let uni := es.all (fun b => b.sidx == ((es.head?).map BlkEnt.sidx).getD 0)
  8 * ((24 + n * (w / 8) + 4 * n + (if uni then 2 else 2 * n) + (if inflow then 8 * n else 0) + 7) / 8)

/-- Pages of the packed image of a block array (R359): the pages its bytes fill. -/
def imagePages (a : BlkArr) (w : Nat) : Nat :=
  if a.ents.isEmpty then 0
  else (16 + sumNat ((chunks 64 a.ents).map (packedBlockBytes a.inflow w)) + 4095) / 4096

/-- The versions of the table pages of an index that lie in its Basin pools, as table, page, stamp and page of the index's part of the
pool: of the versioned tables (R99), and of the sketch projection, as table 4, and the shard table, as table 5, which have one (R94). -/
def Index.tableVers (x : Index) : List (Nat × Nat × Epoch × Nat) :=
  let y := x.notePages
  let of := fun (t : Nat) (ks : List Nat) => ((ks.flatMap (recPages (x.desc.tableRec t))).dedup).flatMap (fun pg =>
    ((Store.find? y.pages (pageKey t pg)).getD [(x.created, x.desc.tabBase t + pg)]).map (fun v => (t, pg, v.1, v.2)))
  let fixed := fun (t bytes : Nat) =>
    (List.range ((bytes + 4095) / 4096)).map (fun pg => (t, pg, x.created, x.desc.tabBase t + pg))
  of 0 (Store.keys x.centF) ++ of 1 (Store.keys x.slots) ++ of 2 (Store.keys x.graph) ++ of 3 (Store.keys x.centQ) ++
    fixed 4 (x.proj.length * x.desc.dim) ++ fixed 5 (4 * x.shards.length)

/-- Those versions as table, page and stamp. -/
def Index.tablePages (x : Index) : List (Nat × Nat × Epoch) := x.tableVers.map (fun v => (v.1, v.2.1, v.2.2.1))

/-- A page is freed: its home, its dirty copies, its codeword on the way to the media and its line go (R100, R125, R388). A page on
the lost-page list stays there (R362). -/
def State.freePage (s : State) (lpn : Nat) : State :=
  let s1 := s.trim lpn
  let c0 := { s1.cist with waiting := s1.cist.waiting.filter (fun p => !(p.2.lpn == lpn && p.2.old.isNone)) }
  let c := match c0.findWord lpn none false with
    | some (r, i) => c0.settleWord r i
    | none => c0
  let m := s1.mem
  { s1 with
    cist := c
    mem := { m with
      cache := (m.cache.map (fun (p : Nat × List Line) => (p.1, p.2.filter (fun (l : Line) => l.lpn != lpn)))).filter
        (fun p => !p.2.isEmpty)
      dirty := Store.erase m.dirty lpn } }

/-- Pages of the owner-table region that hold the index's owner tables. -/
def Index.ownStore (x : Index) : List Nat := x.ownVer.flatMap (fun p => p.2.map Prod.snd)

/-- The images of the table pages that an index still has. -/
def State.tabsOf (s : State) (i : Nat) (x : Index) : List TabImage :=
  let vs := x.tablePages
  s.mem.tabs.filter (fun t => t.idx == i && vs.contains (t.table, t.page, t.stamp))

/-- The flash-homed pages of an index: of its rows and its owner tables, and of the backing images of its block arrays and table
pages. -/
def State.indexPages (s : State) (i : Nat) (x : Index) : List Nat :=
  x.rowStore.map (rowLpn i) ++ x.ownStore.map (ownerLpn i) ++
    (s.mem.backed.filter (fun b => b.idx == i && (Store.find? x.arrs b.h).isSome)).flatMap ArrImage.lpns ++
    (s.tabsOf i x).map TabImage.lpn

/-- What is kept of the range for an index that now is `x`: nothing of block arrays and table pages that it does not have. -/
def State.keepOf (s : State) (i : Nat) (x : Index) : State :=
  let here := fun (b : Nat × Nat) => b.1 != i || (Store.find? x.arrs b.2).isSome
  let tabs := s.tabsOf i x
  { s with
    mem := { s.mem with
      backed := s.mem.backed.filter (fun b => here (b.idx, b.h))
      lostArrs := s.mem.lostArrs.filter here
      demoted := s.mem.demoted.filter here
      tabs := s.mem.tabs.filter (fun t => t.idx != i || tabs.contains t) }
    hbm := { s.hbm with places := s.hbm.places.filter (fun p => here (p.idx, p.h)) } }

/-- The state with an index replaced by one that holds no row, page version or block array which it did not write: what the old one
held and the new one does not is freed (R100, R101). -/
def State.swapIndex (s : State) (i : Nat) (x : Index) : State :=
  match s.index? i with
  | none => s.setIndex i x
  | some y =>
    let kept := s.indexPages i x
    (((s.indexPages i y).filter (fun p => !kept.contains p)).foldl State.freePage (s.setIndex i x)).keepOf i x

/-- What no live epoch, no epoch under construction and no accepted request of an index sees any more is freed (R100, R101). -/
def State.freeUnseen (s : State) (i : Nat) : State :=
  match s.index? i with
  | none => s
  | some x => s.swapIndex i (x.prune (s.usedEpochs i))

end Sys2Proof.Machine
end

