-- ==== Sys2Proof/Machine/Layout.lean ====
section
/-! DEFINITION. Range addresses (R349 to R351) and the bytes of the objects of an index as memory holds them (R103 to R117), the
packed form of a block array (R359, R360), and where a byte of a stack lies (R317, R365). -/

namespace Sys2Proof.Machine

/-! ### The range (R349 to R351) -/

/-- The range address of an offset in a region. -/
def rangeAddr (region off : Nat) : Nat := region % 256 * 281474976710656 + off % 281474976710656

/-- The region of a range address. -/
def addrRegion (a : Nat) : Nat := a / 281474976710656

/-- The offset of a range address. -/
def addrOffset (a : Nat) : Nat := a % 281474976710656

/-- Is the region one of Table 13-1? -/
def regionUsed (r : Nat) : Bool := decide (r < 3) || decide (16 ≤ r ∧ r < 80)

/-- Bytes of a range page of a region. -/
def rangePage (r : Nat) : Nat := if r < 3 then 65536 else 4096

/-- Is the region flash-homed? -/
def regionFlash (r : Nat) : Bool := decide (16 ≤ r ∧ r < 80)

/-- The Cistern home of a flash-homed page (R351). -/
def homePage (a : Nat) : Nat := (addrRegion a - 16) * 68719476736 + addrOffset a / 4096

/-- The range address of the row at a LOCATOR of index `i`. -/
def rowAddr (i loc : Nat) : Nat := rangeAddr (16 + i) (64 * loc)

/-- The range page of page `n` of index `i`'s part of a Basin pool: 2^27 range pages for each index (DESIGN CHOICE, log 10). -/
def poolPage (i n : Nat) : Nat := 134217728 * i + n % 134217728

/-- The first range page of the `n`-th page that the block arrays of index `i` have taken. Where they begin is open. -/
def arrPage (i n : Nat) : Nat := poolPage i ((Config.poolBase i).toNat + n % 33554432)

/-- The range address of a block array of index `i`, in its Basin's pool. -/
def Index.arrAddr (x : Index) (i h : Nat) : Nat :=
  match Store.find? x.arrs h with
  | some a => rangeAddr (1 + a.basin) (65536 * arrPage i a.first)
  | none => 0

/-! ### Tables of lists (R103 to R106) -/

/-- The FP32 centroid record of a slot, at 4 × D × s; zero for a free slot (R103). -/
def Index.centRecord (x : Index) (e : Epoch) (s : Nat) : List Byte :=
  padTo 0 (4 * x.desc.dim) ((VTable.read x.u e [] x.centF s).flatMap (fun f => leBytes 4 f.toNat))

/-- The int8 row stride, at which quantized centroid records lie (R104). -/
def IdxDesc.centStride (d : IdxDesc) : Nat := IdxDesc.stride { d with code := .int8 }

/-- The quantized centroid record of a slot whose FP32 record has been written (R104). -/
def Index.quantRecord (x : Index) (e : Epoch) (s : Nat) : Option (List Byte) :=
  (x.centAt e s).map (Row.bytes { x.desc with code := .int8 })

/-- STATE of a slot table entry. -/
def SlotState.num : SlotState → Nat
  | .free => 0
  | .live => 1
  | .retired => 2

/-- The slot table entry of a slot (R105, Table 5-2), at 64 × s. -/
def Index.slotRecord (x : Index) (i : Nat) (e : Epoch) (s : Nat) : List Byte :=
  let t := x.slotAt e s
  let main := (x.mainEnts e s).length
  let all := (x.listEnts e s).length
  padTo 0 64 (leBytes 1 t.st.num ++ leBytes 1 t.gen ++ leBytes 1 (t.basin + 2 * t.stack) ++ leBytes 1 0
    ++ leBytes 4 ((main + 63) / 64) ++ leBytes 4 main ++ leBytes 4 (all - main) ++ leBytes 8 (x.arrAddr i t.main)
    ++ leBytes 8 ((t.chain.head?.map (x.arrAddr i)).getD 0) ++ leBytes 4 t.epochLive.toNat ++ leBytes 4 t.epochRetired.toNat)

/-- The graph record of a slot (R106), at 128 × s. -/
def Index.graphRecord (x : Index) (e : Epoch) (s : Nat) : List Byte :=
  padTo 0 128 ((x.edgesAt e s).flatMap (fun w => leBytes 4 (w.1 + 16777216 * w.2)))

/-! ### Sketch blocks (R108 to R113) -/

/-- The bytes of one block (Table 5-3): valid entries, padding entries (R109), masks, and zero bytes to the size of Table 5-4.
SEQ of a padding entry is zero (DEDUCED, log 148). -/
def Index.blockBytes (x : Index) (a : BlkArr) (next : Nat) (es : List BlkEnt) : List Byte :=
  let w := x.desc.width
  let m := blockMasks w es
  padTo 0 (if a.inflow then inflowBlockBytes w else mainBlockBytes w)
    (leBytes 8 (x.minGid es).toNat ++ leBytes 1 es.length ++ leBytes 1 (b2n a.inflow) ++ leBytes 2 0 ++ leBytes 4 a.stamp.toNat
      ++ leBytes 8 next ++ leBytes 4 (a.slot + 16777216 * a.gen) ++ zeroBytes 36
      ++ padTo 0 (8 * w) (es.flatMap (fun b => leBytes (w / 8) b.sketch))
      ++ padTo 0xFF 256 (es.flatMap (fun b => leBytes 4 b.lid.toNat))
      ++ padTo 0xFF 128 (es.flatMap (fun b => leBytes 2 b.sidx))
      ++ leBytes (w / 8) m.1 ++ leBytes (w / 8) m.2
      ++ (if a.inflow then es.flatMap (fun b => leBytes 8 b.seq.toNat) else []))

/-- NEXT of an inflow block: the address of the one after it in its chain, which the newest version of its slot that names the
block holds in full (R113). -/
def Index.nextAddr (x : Index) (i h : Nat) (a : BlkArr) : Nat :=
  let chains := ((Store.find? x.slots a.slot).getD []).map (fun v => v.2.chain)
  match chains.find? (fun c => c.contains h) with
  | some c => (((c.dropWhile (· != h)).drop 1).head?.map (x.arrAddr i)).getD 0
  | none => 0

/-- The bytes of a block array: its main blocks at consecutive addresses, or its one inflow block (R108, R111). -/
def Index.arrBytes (x : Index) (i h : Nat) : List Byte :=
  match Store.find? x.arrs h with
  | some a => (chunks 64 a.ents).flatMap (x.blockBytes a (x.nextAddr i h a))
  | none => []

/-- A packed block record (Table 13-3). -/
def packBlock (a : BlkArr) (next w : Nat) (es : List BlkEnt) : List Byte :=
  let uni := es.all (fun b => b.sidx == ((es.head?).map BlkEnt.sidx).getD 0)
  let sidx := if uni then leBytes 2 (((es.head?).map BlkEnt.sidx).getD 0) else es.flatMap (fun b => leBytes 2 b.sidx)
  let r := leBytes 1 es.length ++ leBytes 1 (b2n a.inflow) ++ leBytes 1 (b2n uni) ++ leBytes 1 0 ++ leBytes 4 a.stamp.toNat
    ++ leBytes 4 (a.slot + 16777216 * a.gen) ++ leBytes 4 0 ++ leBytes 8 next
    ++ es.flatMap (fun b => leBytes (w / 8) b.sketch) ++ es.flatMap (fun b => leBytes 4 b.lid.toNat) ++ sidx
    ++ (if a.inflow then es.flatMap (fun b => leBytes 8 b.seq.toNat) else [])
  padTo 0 (8 * ((r.length + 7) / 8)) r

/-- The packed form of a block array, which is its backing image (R353, R359). -/
def Index.packArr (x : Index) (i h : Nat) : List Byte :=
  match Store.find? x.arrs h with
  | some a =>
    let recs := (chunks 64 a.ents).flatMap (packBlock a (x.nextAddr i h a) x.desc.width)
    leBytes 4 ((a.ents.length + 63) / 64) ++ leBytes 2 x.desc.width ++ leBytes 2 0
      ++ leBytes 4 (crc32c (x.arrBytes i h)).toNat ++ leBytes 4 (16 + recs.length) ++ recs
  | none => []

/-- A packed block record as its block (R360): the fields that it shares with its array, its entries, NEXT, and the bytes it takes. -/
def unpackBlock (w : Nat) (r : List Byte) : BlkArr × Nat × Nat :=
  let n := byteAt r 0
  let inflow := decide (byteAt r 1 = 1)
  let uni := decide (byteAt r 2 = 1)
  let lids := 24 + n * (w / 8)
  let sidx := lids + 4 * n
  let seqs := sidx + (if uni then 2 else 2 * n)
  let ents := (List.range n).map (fun j => (⟨leAt r (24 + j * (w / 8)) (w / 8), BitVec.ofNat 32 (leAt r (lids + 4 * j) 4),
    leAt r (if uni then sidx else sidx + 2 * j) 2, if inflow then BitVec.ofNat 64 (leAt r (seqs + 8 * j) 8) else 0⟩ : BlkEnt))
  (⟨inflow, leAt r 8 4 % 16777216, leAt r 8 4 / 16777216, BitVec.ofNat 32 (leAt r 4 4), 0, 0, ents, 0⟩, leAt r 16 8,
    8 * ((seqs + (if inflow then 8 * n else 0) + 7) / 8))

/-- The blocks of a packed block array, each with its NEXT. -/
def unpackBlocks (w : Nat) : Nat → List Byte → List (BlkArr × Nat)
  | 0, _ => []
  | n + 1, r =>
    let u := unpackBlock w r
    (u.1, u.2.1) :: unpackBlocks w n (r.drop u.2.2)

/-- The blocks that a packed image holds. -/
def imageBlocks (img : List Byte) : List (BlkArr × Nat) := unpackBlocks (leAt img 4 2) (leAt img 0 4) (img.drop 16)

/-- Does the array that an image unpacks to match its CRC (R360)? -/
def Index.imageGood (x : Index) (img : List Byte) : Bool :=
  decide (leAt img 8 4 = (crc32c ((imageBlocks img).flatMap (fun b => x.blockBytes b.1 b.2 b.1.ents))).toNat)

/-! ### The owner's objects (R114, R115, R117) -/

/-- The row directory entry of a local ID (Table 5-5), at 16 × (L mod 256) of page ⌊L ÷ 256⌋. -/
def Index.dirRecord (x : Index) (e : Epoch) (l : Nat) : List Byte :=
  let d := x.dirAt e l
  let loc := (Store.find? x.rowLoc d.row).getD 0
  leBytes 8 (if d.valid then loc % 4398046511104 + 9223372036854775808 else 0)
    ++ leBytes 4 (d.prim + 16777216 * d.primGen) ++ leBytes 4 (d.ovf + 16777216 * d.ovfGen)

/-- Byte `k` of page `p` of the tombstone map: local ID L is bit L mod 8 of byte ⌊(L mod 32,768) ÷ 8⌋ of page ⌊L ÷ 32,768⌋. -/
def Index.tombByte (x : Index) (e : Epoch) (p k : Nat) : Byte :=
  BitVec.ofNat 8 (sumNat ((List.range 8).map (fun j => 2 ^ j * b2n (x.tombAt e (32768 * p + 8 * k + j)))))

/-- An owner-table page as epoch `e` sees it. -/
def Index.ownPage (x : Index) (e : Epoch) (p : Nat) : List Byte :=
  if p < 16777216 then (List.range 256).flatMap (fun j => x.dirRecord e (256 * p + j))
  else (List.range 4096).map (x.tombByte e (p - 16777216))

/-- The page of the owner-table region that must be read for the version of an owner-table page that epoch `e` sees. A creation version
holds no entry and no bit and needs no read (DEDUCED, log 71). -/
def Index.ownHome (x : Index) (e : Epoch) (p : Nat) : Option Nat :=
  ((Store.find? x.ownVer p).bind (Versions.at x.u e)).filter (fun v => decide (x.desc.ownCount ≤ v))

/-- The pages that must be read for a local ID's directory entry and tombstone bit at epoch `e`. -/
def Index.ownHomes (x : Index) (e : Epoch) (l : Nat) : List Nat := (ownPages l).filterMap (x.ownHome e)

/-- Does a page of the owner-table region hold the creation version of an owner-table page that has no other (R122)? -/
def Index.ownFirst (x : Index) (pg : Nat) : Bool :=
  x.state != .loading && decide (pg < x.desc.ownCount) && (Store.find? x.ownVer (x.desc.ownOf pg)).isNone

/-- The owner-table page and the stamp of its version that lies in page `pg` of the owner-table region. -/
def Index.ownAt (x : Index) (pg : Nat) : Option (Nat × Epoch) :=
  if x.ownFirst pg then some (x.desc.ownOf pg, x.created)
  else x.ownVer.findSome? (fun q => (q.2.find? (fun v => v.2 == pg)).map (fun v => (q.1, v.1)))

/-- A byte of the row region of an index: of the row that lies there. -/
def Index.rowByte (x : Index) (off : Nat) : Option Byte :=
  x.rowLoc.findSome? (fun p =>
    if 64 * p.2 ≤ off ∧ off < 64 * p.2 + x.desc.stride then
      (Store.find? x.rows p.1).bind (fun r => (r.bytes x.desc)[off - 64 * p.2]?)
    else none)

/-- A byte of the owner-table region of an index. -/
def Index.ownByte (x : Index) (off : Nat) : Option Byte :=
  (x.ownAt (off / 4096)).bind (fun v => (x.ownPage v.2 v.1)[off % 4096]?)

/-- A byte of a Basin pool that belongs to a block array. -/
def Index.poolByte (x : Index) (i a : Nat) : Option Byte :=
  x.arrs.findSome? (fun p =>
    let b := x.arrAddr i p.1
    if b ≤ a ∧ a < b + p.2.bytes x.desc.width then (x.arrBytes i p.1)[a - b]? else none)

/-- The sketch projection of an index, row by row (R87, R88). -/
def Index.projBytes (x : Index) : List Byte := x.proj.flatMap (fun r => r.map (fun v => BitVec.ofInt 8 v))

/-- The shard table of an index (R96). -/
def Index.shardBytes (x : Index) : List Byte := x.shards.flatMap (fun v => leBytes 4 v.toNat)

/-- A page of a table of an index as the version with a stamp holds it, by the numbers of `TabImage` (R96, R99, R103 to R106). -/
def Index.tablePage (x : Index) (i t page : Nat) (e : Epoch) : List Byte :=
  if t = 4 then padTo 0 4096 (x.projBytes.drop (4096 * page))
  else if t = 5 then padTo 0 4096 (x.shardBytes.drop (4096 * page))
  else
    let n := x.desc.tableRec t
    let first := 4096 * page / n
    let recs := (List.range (4096 / n + 2)).flatMap (fun j =>
      if t = 0 then x.centRecord e (first + j) else if t = 1 then x.slotRecord i e (first + j)
      else if t = 2 then x.graphRecord e (first + j) else (x.quantRecord e (first + j)).getD (zeroBytes n))
    (recs.drop (4096 * page - n * first)).take 4096

/-- Where an address of a Basin pool lies: the index whose part it is, the area of that part, the page in the area and the byte of the
page. Area 0 holds the tables of which a Basin has one copy, area 1 + j the replicas of those that Terrace j has (R94), and area 17 + j
its replica of the pour program of the slot with the index's number (DESIGN CHOICE, log 10). -/
def poolPlace (a : Nat) : Nat × Option Nat × Nat × Nat :=
  let o := addrOffset a
  let pg := o / 65536 % 134217728
  (o / 8796093022208, if 67108864 ≤ pg then some ((pg - 67108864) / 4194304) else none, o / 4096 % 67108864, o % 4096)

/-- A byte of a Basin pool that belongs to a table of an index: quantized centroids and the projection stand once for each Terrace of
the slice, the other tables once in each Basin in which it has HBM (R94, R349). -/
def State.tableByte (s : State) (b a : Nat) : Option Byte :=
  match poolPlace a with
  | (i, some area, pg, o) =>
    (s.index? i).bind (fun x =>
      let e := s.entry x.desc.slice
      let here := if area = 0 then decide (0 < e.granulesIn b) else (e.terracesIn b).contains (area - 1)
      if here && decide (area < 9) then
        (x.tableVers.find? (fun v => v.2.2.2 == pg && (decide (v.1 = 3 ∨ v.1 = 4) == decide (0 < area)))).bind (fun v =>
          (x.tablePage i v.1 v.2.1 v.2.2.1)[o]?)
      else none)
  | _ => none

/-- Does an address of a Basin pool lie in a pour replica (R313, R349)? -/
def State.pourMapped (s : State) (b a : Nat) : Bool :=
  match poolPlace a with
  | (i, some area, pg, o) =>
    let g := s.prog i
    decide (17 ≤ area ∧ i < 32) && ((s.entry g.slice).terracesIn b).contains (area - 17) && g.state != 0 && decide (4096 * pg + o < g.bytes)
  | _ => false

/-- A byte of the memory range that the state holds: of the rows, owner tables, block arrays and tables of the indexes. -/
def State.rangeByte (s : State) (a : Nat) : Option Byte :=
  let r := addrRegion a
  if 1 ≤ r ∧ r < 3 then (s.indexes.findSome? (fun q => q.2.poolByte q.1 a)).orElse (fun _ => s.tableByte (r - 1) a)
  else if 16 ≤ r ∧ r < 48 then (s.index? (r - 16)).bind (fun x => x.rowByte (addrOffset a))
  else if 48 ≤ r ∧ r < 80 then (s.index? (r - 48)).bind (fun x => x.ownByte (addrOffset a))
  else none

/-- The user bytes of a page of spaces 0 and 1: of the range, where bytes of no object are zero (DESIGN CHOICE, log 158), of the packed
image of a block array, or of a table page stored unchanged (R353). -/
def State.pageBytes (s : State) (lpn : Nat) : List Byte :=
  if lpnSpace lpn = 0 then
    (List.range 4096).map (fun k => (s.rangeByte (rangeAddr (16 + lpn / 68719476736) (4096 * (lpn % 68719476736) + k))).getD 0)
  else
    match s.mem.tabs.find? (fun t => t.lpn == lpn) with
    | some t => ((s.index? t.idx).map (fun x => x.tablePage t.idx t.table t.page t.stamp)).getD []
    | none =>
      match s.mem.backed.find? (fun b => decide (b.base ≤ lpn ∧ lpn < b.base + b.pages)) with
      | some b => ((s.index? b.idx).map (fun x => ((x.packArr b.idx b.h).drop (4096 * (lpn - b.base))).take 4096)).getD []
      | none => []

/-- The codeword of a page that is written to its home, with a stamp. -/
def State.pageWord (s : State) (lpn : Nat) (stamp : U64) : Cword := ⟨lpn, none, false, stamp, s.pageBytes lpn, false⟩

/-- Has a flash-homed page of the range a translation: does it hold a row or an owner-table page version of an index (R350)? -/
def State.pageMapped (s : State) (lpn : Nat) : Bool :=
  decide (lpnSpace lpn = 0) &&
  (match s.index? (lpnIndex lpn) with
    | some x =>
      if lpn / 68719476736 < 32 then x.rowStore.contains (lpn % 68719476736)
      else (x.ownAt (lpn % 68719476736)).isSome
    | none => false)

/-- Does an access to a range address find a translation (R349, R350)? A flash-homed page has one while it holds a row or a page version,
and an offset of a Basin pool while an object of an index or a pour replica lies there. Which offsets of region 0 are mapped is open,
and a free bit says so; its first 64 KiB never are. -/
def State.rangeOk (s : State) (addr : U64) : Bool × State :=
  let a := addr.toNat
  let r := addrRegion a
  if !regionUsed r ∨ (r = 0 ∧ addrOffset a < 65536) then (false, s)
  else if regionFlash r then (s.pageMapped (homePage a), s)
  else if 0 < r then ((s.rangeByte a).isSome || s.pourMapped (r - 1) a, s)
  else
    let f := s.takeFree 1
    (f.1 == 1, f.2)

/-! ### Bytes of a stack (R317, R365) -/

/-- Where a byte of a stack lies: pseudo-channel, bank, row and byte of the row. -/
structure DramPlace where
  pc : Nat
  bank : Nat
  row : Nat
  byte : Nat
  deriving DecidableEq, Repr

/-- In a plain stack, interleaved at 256 bytes (R365). -/
def plainPlace (a : Nat) : DramPlace :=
  let c := a / 256
  ⟨c % 16, c / 16 % 16, c / 1024, 256 * (c / 256 % 4) + a % 256⟩

/-- In a spouting stack, in runs of 64 rows of one bank (R317). -/
def spoutPlace (a : Nat) : DramPlace :=
  let n := a / 65536
  ⟨n % 16, n / 16 % 16, 64 * (n / 256) + a % 65536 / 1024, a % 1024⟩

/-- In a stack as Table 5-2 numbers it. -/
def dramPlace (stack a : Nat) : DramPlace := if 2 ≤ stack then spoutPlace a else plainPlace a

/-- Runs of a spouting stack of 16 GiB, and 64 KiB pages of a plain one of 24 GiB (R315, R317, R365). -/
def stackRuns (stack : Nat) : Nat := if 2 ≤ stack then 262144 else 393216

/-- The run of a row of a bank (R317). -/
def rowRun (pc bank row : Nat) : Nat := pc + 16 * bank + 256 * (row / 64)

/-- The runs, or plain pages, in which a block array lies under the translation: those that it was given, one for each of its range
pages in order (R339, R352). -/
def State.runsOf (s : State) (i h : Nat) : List Nat :=
  match s.hbm.places.find? (fun p => p.idx == i && p.h == h) with
  | some p => p.runs
  | none => []

/-- The address in its stack of byte `o` of a block array. -/
def State.stackAddr (s : State) (i h o : Nat) : Nat := (s.runsOf i h).getD (o / 65536) 0 * 65536 + o % 65536

end Sys2Proof.Machine
end

