-- ==== Sys2Proof/Machine/Sluice.lean ====
section
/-! DEFINITION. The Sluice (chapter "The Sluice scheduler"): classes, parties, candidates, tags, the choice of the next
unit, credits and gate windows at a scheduling point. -/

namespace Sys2Proof.Machine

/-- The row of Table 16-1 that a point belongs to: 0 port, 1 NAND channel, 2 HBM arbiter, 3 host port, 4 Cascade
array. -/
def pointKind (pt : Nat) : Nat :=
  if pt < 8 then 0 else if pt < 40 then 1 else if pt < 168 then 2 else if pt = 168 then 3 else 4

/-- Refill base of a point (Table 16-1). -/
def State.pointBase (s : State) (pt : Nat) : Nat :=
  match pointKind pt with
  | 0 => 200000
  | 1 => s.cist.rate
  | 2 => 28800
  | 3 => 63000
  | _ => 1400

/-- A field of SLU_CLASS_CFG of class `c` at a point. -/
def State.clsF (s : State) (pt c lsb len : Nat) : Nat := s.regF (instKey (Reg.SLU_CLASS_CFG + 8 * c) pt) lsb len

/-- RATE_PM of a class at a point; 0 means no bucket. -/
def State.ratePm (s : State) (pt c : Nat) : Nat := s.clsF pt c 16 10

/-- The limit of a class's credit (R432). -/
def State.creditLimit (s : State) (pt c : Nat) : Int := ((s.clsF pt c 32 16 * s.pointBase pt : Nat) : Int)

/-- The credit of a class: it starts at its limit (R432). -/
def State.credit (s : State) (pt c : Nat) : Int := (Store.find? (s.point pt).credit c).getD (s.creditLimit pt c)

/-- The state with a credit set, never above its limit. -/
def State.setCredit (s : State) (pt c : Nat) (v : Int) : State :=
  let p := s.point pt
  let lim := s.creditLimit pt c
  s.setPoint pt { p with credit := if lim ≤ v then Store.erase p.credit c else Store.insert p.credit c v }

/-- Is a class open in the current window of the active list (R433)? -/
def SPoint.isOpen (p : SPoint) (c : Nat) : Bool :=
  match p.active with
  | none => true
  | some l => match l[p.cur]? with
    | some w => w.2.getLsbD c
    | none => true

/-- The weight of a party at a point (R428, R441). -/
def State.partyWeight (s : State) (pt party : Nat) : Nat :=
  if party ≥ 16 then max 1 (s.regF (instKey Reg.SLU_POINT_CFG pt) 0 8)
  else
    let e := s.entry party
    let k := pointKind pt
    if k = 1 ∧ ¬ bit e.io (pt - 8) then 1 else max 1 (field e.weight (8 * k) 8)

/-- Party and class of the queued units, without repeats. -/
def SPoint.flows (p : SPoint) : List (Nat × Nat) := (p.queue.map (fun u => (u.party, u.cls))).dedup

/-- Does a class pass the credit test (R429)? -/
def State.creditOk (s : State) (pt c : Nat) : Bool := decide (s.ratePm pt c = 0) || decide (0 ≤ s.credit pt c)

/-- The candidates at a boundary (R429): parties with their classes. A point out of service, or held during bring-up, has none (Table
16-7). -/
def State.slCandidates (s : State) (pt : Nat) : List (Nat × Nat) :=
  let p := s.point pt
  if p.out || s.rst.phase != 3 then []
  else
    let avail := p.flows.filter (fun f => p.isOpen f.2)
    match avail.filter (fun f => s.creditOk pt f.2) with
    | [] => avail.filter (fun f => s.clsF pt f.2 9 1 == 1)
    | l => l

/-- The head unit of a class of a party. -/
def SPoint.headOf (p : SPoint) (f : Nat × Nat) : Option SUnit := p.queue.find? (fun u => u.party == f.1 && u.cls == f.2)

/-- The key of a party and class in `tags` and `fpc`. -/
def flowKey (f : Nat × Nat) : Nat := 16 * f.1 + f.2

/-- ⌈cost × 65536 ÷ weight⌉. -/
def tagStep (cost weight : Nat) : Nat := (cost * 65536 + max 1 weight - 1) / max 1 weight

/-- Tags are dropped when a class stops being a candidate and taken when it becomes one (R430). -/
def State.retag (s : State) (pt : Nat) : State :=
  let p := s.point pt
  let cs := s.slCandidates pt
  let keep := p.tags.filter (fun t => cs.any (fun f => flowKey f == t.1))
  let tags := cs.foldl (fun (acc : Store Nat) f =>
    match Store.find? acc (flowKey f), p.headOf f with
    | none, some u => Store.insert acc (flowKey f)
        (max p.v ((Store.find? p.fpc (flowKey f)).getD 0) + tagStep u.cost (s.clsF pt f.2 0 8))
    | _, _ => acc) keep
  s.setPoint pt { p with tags := tags }

/-- May a party have work at a point (R441): at an HBM arbiter the slices that hold a granule of the stack, at a Cascade array the one
that holds the Terrace or held it before a switch that has not released it yet (R449), elsewhere every slice; and the node? -/
def State.isParty (s : State) (pt party : Nat) : Bool :=
  if 16 ≤ party then true
  else match pointKind pt with
    | 2 =>
      let n := pt - 40
      !(s.slices.heldIn party (n / 64) (2 * (n / 16 % 2) + n / 32 % 2)).isEmpty
    | 4 =>
      (s.entry party).hasTerrace (pt - 169) || s.slices.moving.any (fun m => match m with
        | .terrace t old _ => t == pt - 169 && old == party
        | .granule _ _ _ _ => false)
    | _ => true

/-- A unit is queued at a point; a point out of service takes none, nor does any from a slice that is no party there. -/
def State.queueUnit (s : State) (pt : Nat) (u : SUnit) : State :=
  let p := s.point pt
  if p.out || !s.isParty pt u.party then s else (s.setPoint pt { p with queue := p.queue ++ [u] }).retag pt

/-- The least element of a list by a key, the earlier one on a tie. -/
def leastBy {α : Type} (key : α → Nat) : List α → Option α
  | [] => none
  | x :: xs => match leastBy key xs with
    | some y => if key y < key x then some y else some x
    | none => some x

/-- The class a party offers: its lowest-numbered strict candidate, else the one with the least tag (R431). -/
def State.partyClass (s : State) (pt : Nat) (cs : List (Nat × Nat)) (party : Nat) : Option (Nat × Nat) :=
  let p := s.point pt
  let mine := cs.filter (fun f => f.1 == party)
  let tag := fun (f : Nat × Nat) => (Store.find? p.tags (flowKey f)).getD 0
  match leastBy (fun (f : Nat × Nat) => f.2) (mine.filter (fun f => s.clsF pt f.2 8 1 == 1)) with
  | some f => some f
  | none => leastBy (fun (f : Nat × Nat) => tag f * 16 + f.2) mine

/-- The party's tag for its offer (R431). -/
def State.partyTag (s : State) (pt : Nat) (f : Nat × Nat) : Nat :=
  let p := s.point pt
  match p.headOf f with
  | some u => max p.v ((Store.find? p.fp f.1).getD 0) + tagStep u.cost (s.partyWeight pt f.1)
  | none => 0

/-- The unit the point chooses (R431), by party and class. -/
def State.slChoose (s : State) (pt : Nat) : Option (Nat × Nat) :=
  let cs := s.slCandidates pt
  let offers := (List.range 17).filterMap (s.partyClass pt cs)
  leastBy (fun (f : Nat × Nat) => s.partyTag pt f * 32 + f.1) offers

/-- The unit starts: the virtual time and finish tags move, its cost is charged and it is counted (R431, R432). -/
def State.startUnit (s : State) (pt : Nat) (f : Nat × Nat) (u : SUnit) : State :=
  let p := s.point pt
  let t := s.partyTag pt f
  let ct := (Store.find? p.tags (flowKey f)).getD 0
  let p1 := { p with
    v := max p.v t
    fp := Store.insert p.fp f.1 t
    fpc := Store.insert p.fpc (flowKey f) ct
    tags := Store.erase p.tags (flowKey f)
    queue := p.queue.erase u }
  let s1 := s.setPoint pt p1
  let s2 := if s.ratePm pt f.2 = 0 then s1 else s1.setCredit pt f.2 (s.credit pt f.2 - (u.cost : Int))
  (s2.bump (instKey (Reg.SLU_CLASS_CNT + 8 * f.2) pt) 0 64 1).retag pt

/-- A point leaves or returns to service: queues, tags and credits go, and its gate lists stay (R437). -/
def State.pointOut (s : State) (pt : Nat) (out : Bool) : State :=
  let p := s.point pt
  s.setPoint pt { p with v := 0, fp := [], fpc := [], tags := [], queue := [], credit := [], out := out }

/-- A point starts afresh at the end of bring-up: V = 0, full credits and an active list at window 0 (R438). -/
def State.pointFresh (s : State) (pt : Nat) : State :=
  let p := s.point pt
  (s.setPoint pt { p with v := 0, fp := [], fpc := [], tags := [], credit := [], cur := 0 }).retag pt

/-- The list that takes over at a point (R435). -/
def State.takeOver (s : State) (pt : Nat) (late : Bool) : State :=
  let p := s.point pt
  match p.pending with
  | none => s
  | some g =>
    let s1 := s.setPoint pt { p with active := some g.list, cur := 0, pending := none, late := late, lastTake := s.now }
    (s1.bump Reg.SLU_CNT_ERR 16 32 1).retag pt

/-- CREDIT_REFILL: each class with a bucket gains ⌊RATE_PM × base ÷ 1,000⌋ at every point (R432). -/
def execCreditRefill (s : State) : Res :=
  .next ((List.range 185).foldl (fun (t : State) pt =>
    let listed := Store.keys (t.point pt).credit
    if listed.isEmpty then t
    else
      (listed.foldl (fun (u : State) c =>
        u.setCredit pt c (u.credit pt c + ((u.ratePm pt c * u.pointBase pt / 1000 : Nat) : Int))) t).retag pt) s)

/-- GATE_WINDOW_END: the next window begins, window 0 after the last (R433). -/
def execGateWindowEnd (pt : Fin 185) (s : State) : Res :=
  let p := s.point pt
  match p.active with
  | none => .next s
  | some l => .next ((s.setPoint pt { p with cur := (p.cur + 1) % max 1 l.length }).retag pt)

/-- SLUICE_PARITY_ERROR: the point's V, tags and credits go back to their starting values, and it is counted (R437). -/
def execSluiceParityError (pt : Fin 185) (s : State) : Res :=
  let p := s.point pt
  .next (((s.setPoint pt { p with v := 0, fp := [], fpc := [], tags := [], credit := [] }).bumpSat
    Reg.SLU_CNT_ERR 0 16 1).retag pt)

/-- The class of node work of a kind (Table 16-3). -/
def State.kindClass (s : State) (k : Nat) : Nat := s.regF Reg.SLU_KINDCLASS (4 * k) 4

end Sys2Proof.Machine
end

