-- ==== Sys2Proof/Machine/Links.lean ====
section
/-! DEFINITION. Frames and messages of the Urdun links as the node sends them (R407 to R419). -/

namespace Sys2Proof.Machine

/-! ### Addresses (Table 15-4) -/

/-- NODE of an address. -/
def adrNode (a : U64) : Nat := field a 0 12
/-- UNIT of an address. -/
def adrUnit (a : U64) : Nat := field a 12 3
/-- Is an address valid (R407)? -/
def adrValid (a : U64) : Bool := bit a 15 && decide (adrUnit a ≤ 1)
/-- An address with UNIT 1: where responses, part replies and admission frames go (R407). -/
def toReplyEngine (a : U64) : U64 := setField a 12 3 1
/-- An address from NODE and UNIT with CONTEXT 0. -/
def mkAdr (node u : Nat) : U64 := BitVec.ofNat 64 (node % 4096 + 4096 * u + 32768)

/-- This node's NODE number. -/
def State.ownNode (s : State) : Nat := s.regF Reg.URD_CFG 0 12
/-- This node's own address, in SRC and ORIGIN: UNIT 1 and CONTEXT 0 (DESIGN CHOICE, log 25). -/
def State.ownAdr (s : State) : U64 := mkAdr s.ownNode 1

/-! ### Frames -/

/-- Number of a message kind (Table 15-5). -/
def MsgKind.num : MsgKind → Nat
  | .request => 0
  | .response => 1
  | .part => 2
  | .partReply => 3
  | .admission => 4

/-- Header and payload of a frame (Table 15-5). -/
def frameBody (lseq : Nat) (f : Frame) : List Byte :=
  leBytes 2 lseq ++ leBytes 1 f.kind ++ leBytes 1 (b2n f.first + 2 * b2n f.last) ++ leBytes 4 f.msgLen
    ++ leBytes 8 f.dest.toNat ++ leBytes 8 f.src.toNat ++ leBytes 4 f.msgId ++ leBytes 2 f.payload.length
    ++ leBytes 2 0 ++ leBytes 4 f.offset ++ leBytes 4 0 ++ f.payload

/-- A whole frame with its trailer; `flip` corrupts the CRC. -/
def frameBytes (lseq : Nat) (f : Frame) (flip : U32) : List Byte :=
  let b := frameBody lseq f
  b ++ leBytes 4 ((crc32c b).toNat ^^^ flip.toNat) ++ zeroBytes 4

/-- Bytes of a frame. -/
def Frame.size (f : Frame) : Nat := 48 + f.payload.length
/-- Credits a frame takes (R414). -/
def Frame.credits (f : Frame) : Nat := (f.size + 63) / 64

/-- The frames of a message, of ascending OFFSET (R411). MSG_ID is the model's number of the message (DESIGN CHOICE,
log 26). -/
def framesOf (src : U64) (mid : Nat) (m : UMsg) : List Frame :=
  let ps := chunks 4096 m.body
  let n := ps.length
  (List.range n).map (fun i =>
    ⟨m.kind.num, i == 0, i + 1 == n, m.body.length, m.dest, src, mid % 4294967296, 4096 * i, ps.getD i [], mid⟩)

/-! ### Control words (R412) -/

/-- The 24 bytes of a control word. Which pool a CREDIT word grants is not part of them (log 159). -/
def ctrlBytes (w : CtrlWord) : List Byte :=
  let b := match w with
    | .ack l => leBytes 2 1 ++ leBytes 2 l ++ zeroBytes 12
    | .nack l => leBytes 2 2 ++ leBytes 2 l ++ zeroBytes 12
    | .credit _ n => leBytes 4 3 ++ leBytes 4 n ++ zeroBytes 8
    | .count t => leBytes 8 4 ++ leBytes 8 t.toNat
  b ++ leBytes 4 (crc32c b).toNat ++ zeroBytes 4

/-- Does the CRC of a control word hold? -/
def ctrlGood (w : List Byte) : Bool := leAt w 16 4 == (crc32c (padTo 0 16 (w.take 16))).toNat

/-- A control word arrives on a port: is it taken as one of CKIND `kind`? One whose CRC fails is dropped and counted; while the port is
not up none is due (R412, R418). -/
def State.takeCtrl (s : State) (port kind : Nat) (w : List Byte) : Bool × State :=
  if (s.port port).state ≠ .up then (false, s)
  else if ctrlGood w then (byteAt w 0 == kind, s)
  else (false, s.bumpSat (instKey Reg.URD_PORT_ERR port) 32 16 1)

/-! ### Port choice and queueing -/

/-- Is a port in state up? -/
def State.portUp (s : State) (p : Nat) : Bool := (s.port p).state == .up

/-- The path mask of a NODE (R409). -/
def State.pathMask (s : State) (node : Nat) : List Nat :=
  let w := s.reg (instKey Reg.URD_PATH_DATA node)
  (List.range 8).filter (fun p => bit w p)

/-- Bytes queued at a port. -/
def State.queuedBytes (s : State) (p : Nat) : Nat := sumNat ((s.point p).queue.map (·.cost))

/-- The port of a message (R416): the preferred port if it is up, else the up port of the mask with the fewest bytes
queued, taken among the ports of the slice's mask when one of those is up (Table 17-7, PORTS). -/
def State.choosePort (s : State) (m : UMsg) : Option Nat :=
  let ups := (s.pathMask (adrNode m.dest)).filter s.portUp
  let mine := if m.party < 16 then ups.filter (fun p => bit (s.entry m.party).io (32 + p)) else ups
  let from_ := if mine.isEmpty then ups else mine
  match m.prefer with
  | some p => if s.portUp p then some p else leastBy (fun p => s.queuedBytes p * 8 + p) from_
  | none => leastBy (fun p => s.queuedBytes p * 8 + p) from_

/-- Queue a waiting message's frames at the port that is chosen now, if there is one. -/
def State.routeMsg (s : State) (mid : Nat) : State :=
  match Store.find? s.urdun.msgs mid with
  | none => { s with urdun := { s.urdun with waiting := s.urdun.waiting.erase mid } }
  | some m =>
    match s.choosePort m with
    | none => s
    | some p =>
      let s1 := { s with urdun := { s.urdun with
        waiting := s.urdun.waiting.erase mid
        msgs := Store.insert s.urdun.msgs mid { m with port := some p } } }
      (framesOf s.ownAdr mid m).foldl (fun (t : State) f => t.queueUnit p ⟨m.party, m.cls, f.size, some f, none⟩) s1

/-- Try every waiting message. -/
def State.routeAll (s : State) : State := s.urdun.waiting.foldl State.routeMsg s

/-- Send a message: it takes a number and goes to a port now or when one is up (R409). -/
def State.sendMsg (s : State) (m : UMsg) : State :=
  let mid := s.urdun.nextMid
  ({ s with urdun := { s.urdun with
    nextMid := mid + 1
    msgs := Store.insert s.urdun.msgs mid m
    waiting := s.urdun.waiting ++ [mid] } } : State).routeMsg mid

/-- Drop the messages that `p` takes, with their queued frames; frames in a replay buffer stay. -/
def State.dropMsgs (s : State) (p : UMsg → Bool) : State :=
  let gone := (s.urdun.msgs.filter (fun q => p q.2)).map Prod.fst
  if gone.isEmpty then s
  else
    let s1 := { s with urdun := { s.urdun with
      msgs := s.urdun.msgs.filter (fun q => !p q.2)
      waiting := s.urdun.waiting.filter (fun m => !gone.contains m) } }
    (List.range 8).foldl (fun (t : State) pt =>
      let pq := t.point pt
      (t.setPoint pt { pq with queue := pq.queue.filter (fun u => match u.frame with
        | some f => !gone.contains f.mid
        | none => true) }).retag pt) s1

/-! ### Sending -/

/-- A frame leaves on a port, with a bad CRC when URD_INJECT.CRC is set for the port (Table 15-11). -/
def State.emitFrame (s : State) (p lseq : Nat) (f : Frame) : State :=
  let k := instKey Reg.URD_INJECT p
  if bit (s.reg k) 1 then
    let r := s.takeFree 32
    (r.2.setRegF k 1 1 0).emit (.frame p (frameBytes lseq f (r.1 ||| 1)))
  else s.emit (.frame p (frameBytes lseq f 0))

/-- The port's credits used with those of a frame added (R414). -/
def UPort.use (u : UPort) (f : Frame) : UPort :=
  if f.kind = 4 then { u with admUsed := (u.admUsed + f.credits) % 4294967296 }
  else { u with used := (u.used + f.credits) % 4294967296 }

/-- Send one frame on a port: it takes the next LSEQ and credits, enters the replay buffer and leaves. -/
def State.sendFrame (s : State) (p : Nat) (f : Frame) : State :=
  let u := s.port p
  let v := u.use f
  (s.setPort p { v with
    txSeq := (u.txSeq + 1) % 65536
    replay := u.replay ++ [(u.txSeq, f)]
    ackFrom := if u.replay.isEmpty then s.tick else u.ackFrom }).emitFrame p u.txSeq f

/-- By how much the credits granted exceed those used, both modulo 2^32: none when more are used than granted (R412, R414). -/
def creditsLeft (granted used : Nat) : Nat :=
  let d := (granted + 4294967296 - used) % 4294967296
  if d < 2147483648 then d else 0

/-- Do the partner's credits cover a frame now (R414)? -/
def State.hasCredit (s : State) (p : Nat) (f : Frame) : Bool :=
  let u := s.port p
  decide (f.credits ≤ if f.kind = 4 then creditsLeft u.admGranted u.admUsed else creditsLeft u.granted u.used)

/-- Bytes in a port's replay buffer. -/
def UPort.kept (u : UPort) : Nat := sumNat (u.replay.map (fun f => f.2.size))

/-- May a frame be sent now: nothing waits to be sent again before it, the 2 MiB replay buffer has room for it, and the partner's
credits cover it (R413, R414)? -/
def State.maySend (s : State) (p : Nat) (f : Frame) : Bool :=
  decide ((s.port p).unsent = 0) && decide ((s.port p).kept + f.size ≤ 2097152) && s.hasCredit p f

/-- The frames of the replay buffer that wait to be sent again leave while the credits cover them (R413, R414). -/
def State.sendAgain (s : State) (p : Nat) : Nat → State
  | 0 => s
  | n + 1 =>
    let u := s.port p
    match u.replay[u.replay.length - u.unsent]? with
    | none => s
    | some f =>
      if s.hasCredit p f.2 then
        State.sendAgain (((s.setPort p { u.use f.2 with unsent := u.unsent - 1 }).emitFrame p f.1 f.2).bump
          Reg.URD_CNT_REPLAY 0 64 1) p n
      else s

/-- An admission frame leaves on a port: it is counted by its verdict, and once more if it leaves more than 8 µs after it fell due
(R415, R417, Table 15-11). -/
def State.sendAdmission (s : State) (p : Nat) (f : Time × Frame) : State :=
  let s1 := (s.sendFrame p f.2).bump Reg.URD_CNT_ADMIT (if byteAt f.2.payload 12 = 1 then 32 else 0) 32 1
  if f.1.toNat + 800 < s.tick.toNat then s1.bumpSat (instKey Reg.URD_PORT_ERR p) 48 16 1 else s1

/-- Send the admission frames due on a port while they may be sent (R416). -/
def State.sendAdmissions (s : State) (p : Nat) : List (Time × Frame) → State
  | [] => s.setPort p { s.port p with admDue := [] }
  | f :: fs =>
    if s.maySend p f.2 then State.sendAdmissions (s.sendAdmission p f) p fs
    else s.setPort p { s.port p with admDue := f :: fs }

/-- A queued message that has not been begun leaves the queue of port `p` and waits for a port again. -/
def State.unqueue (s : State) (p mid : Nat) : State :=
  let q := s.point p
  let other := fun (u : SUnit) => match u.frame with
    | some f => f.mid != mid
    | none => true
  let s1 := (s.setPoint p { q with queue := q.queue.filter other }).retag p
  { s1 with urdun := { s1.urdun with
    msgs := s1.urdun.msgs.map (fun (m : Nat × UMsg) => if m.1 = mid then (m.1, { m.2 with port := none }) else m)
    waiting := s1.urdun.waiting ++ [mid] } }

/-- The node chooses a message's port when its FIRST frame is to be sent: while the Sluice of port `p` chooses a FIRST frame whose
port is another now, that message moves there (R416). -/
def State.settleFirst (s : State) (p : Nat) : Nat → State
  | 0 => s
  | n + 1 =>
    match (s.slChoose p).bind (s.point p).headOf |>.bind SUnit.frame with
    | none => s
    | some f =>
      if f.first && f.mid != 0 then
        let s1 := s.unqueue p f.mid
        match Store.find? s1.urdun.msgs f.mid with
        | none => s
        | some m => if s1.choosePort m = some p then s else State.settleFirst (s1.routeMsg f.mid) p n
      else s

/-- The boundary between units at a port that is up: what waits to be sent again, then admission frames, then the frame the Sluice
chooses, which waits while it may not be sent (R413, R414, R416). -/
def State.portBoundary (s : State) (p : Nat) : State :=
  if !s.portUp p then s
  else
    let s0 := s.sendAgain p (s.port p).unsent
    let s0 := s0.sendAdmissions p (s0.port p).admDue
    let s1 := s0.settleFirst p (s0.point p).queue.length
    match s1.slChoose p with
    | none => s1
    | some f =>
      match (s1.point p).headOf f with
      | none => s1
      | some u =>
        match u.frame with
        | none => s1.startUnit p f u
        | some fr => if s1.maySend p fr then (s1.startUnit p f u).sendFrame p fr else s1

/-- Send an admission frame for a message (R415, R418): on the port of arrival when it is up, else on the
lowest-numbered up port of the source's mask, else when the port of arrival returns. -/
def State.admitMsg (s : State) (port : Nat) (src : U64) (msgId : Nat) (id : U64) (busy : Bool) : State :=
  let body := leBytes 8 id.toNat ++ leBytes 4 msgId ++ leBytes 1 (b2n busy) ++ zeroBytes 3
  let f : Frame := ⟨4, true, true, 16, toReplyEngine src, s.ownAdr, s.urdun.nextMid % 4294967296, 0, body, 0⟩
  let p := if s.portUp port then port
    else ((s.pathMask (adrNode src)).find? s.portUp).getD port
  let s1 := { s with urdun := { s.urdun with nextMid := s.urdun.nextMid + 1 } }
  s1.setPort p { s1.port p with admDue := (s1.port p).admDue ++ [(s.tick, f)] }

end Sys2Proof.Machine
end

