-- ==== Sys2Proof/Machine/Deliver.lean ====
section
/-! DEFINITION. Responses, their delivery over a port or a host queue, and the Reservoir's occupancy (chapters "The
request contract" and "Host port and register pages"). -/

namespace Sys2Proof.Machine

/-! ### Forming a response -/

/-- A response header and payload (Table 3-5). RETRIED and SPARE_USED follow from RERUNS and SPARES (Table 3-6). -/
def respBytes (reqId : U64) (slice attempt : Byte) (r : Resp) : List Byte :=
  let flags := r.flags ||| (16 * b2n (r.reruns != 0)) ||| (32 * b2n (r.spares != 0))
  let head := leBytes 8 reqId.toNat ++ leBytes 1 r.status ++ leBytes 1 1 ++ [attempt] ++ [slice] ++ leBytes 2 flags
    ++ leBytes 2 r.mapGen.toNat ++ leBytes 4 r.epoch.toNat ++ leBytes 4 r.payload.length ++ leBytes 4 r.count
    ++ leBytes 4 r.tieExcl ++ leBytes 4 r.dupCount ++ leBytes 4 r.staleEdges ++ leBytes 4 r.distinct
    ++ leBytes 1 r.reruns ++ leBytes 1 r.spares ++ leBytes 2 0 ++ leBytes 8 r.tAccept.toNat ++ leBytes 4 r.doneDelta
  head ++ leBytes 4 (crc32c (head ++ r.payload)).toNat ++ r.payload

/-- A BUSY response (R559): every field 0 but REQ_ID, STATUS, HDR_VER, ATTEMPT, SLICE and CRC. -/
def busyBytes (h : ReqHdr) : List Byte :=
  respBytes h.reqId h.slice h.attempt ⟨stBusy, 0, 0, 0, 0, 0, 0, 0, 0, 0, 0, 0, 0, []⟩

/-- DONE_DELTA now for a request accepted at `t` (Table 3-5); it saturates. -/
def State.doneDelta (s : State) (t : Time) : Nat := min (s.now - t).toNat 4294967295

/-- A response other than OK (R61). -/
def State.failResp (s : State) (r : Req) (st : Nat) : Resp :=
  ⟨st, 0, r.gen, r.epoch, 0, 0, 0, 0, 0, r.reruns, r.spares, r.tAccept, s.doneDelta r.tAccept, []⟩

/-! ### Completion queues (R476 to R478) -/

/-- A queue pair of a function. -/
def HostFn.queue (h : HostFn) (q : Nat) : Queue := Store.get (fun _ => Queue.reset) h.queues q

/-- The function with a queue pair set. -/
def HostFn.setQueue (h : HostFn) (q : Nat) (v : Queue) : HostFn :=
  { h with queues := Store.put (fun _ => Queue.reset) h.queues q v }

/-- A queue pair of the node. -/
def State.queue (s : State) (f q : Nat) : Queue := (s.fn f).queue q

/-- The state with a queue pair set. -/
def State.setQueue (s : State) (f q : Nat) (v : Queue) : State := s.setFn f ((s.fn f).setQueue q v)

/-- Number of queue pairs of a function (R473). -/
def queueCount (f : Nat) : Nat := if f = 0 then 16 else 8

/-- A response that cannot reach host memory is discarded and counted (R477, R482). -/
def State.discard (s : State) (f : Nat) : State := s.bumpSat (instKey Reg.HQ_CNT f) 32 32 1

/-- The request a completion belongs to leaves the Reservoir when it is delivered (R62). -/
def State.dropReq (s : State) (rid : Option Nat) : State :=
  match rid with
  | some r => { s with reqs := Store.erase s.reqs r }
  | none => s

/-- Is the CQ full (R477)? -/
def Queue.full (q : Queue) : Bool := decide (2 ^ q.cqLog2 ≤ q.cqCount)

/-- Write one owed completion: the response bytes, then the entry, then the MSI-X message when it is due. -/
def State.writeCq (s : State) (f n : Nat) (o : Owed) : State :=
  let q := s.queue f n
  let fits := decide (o.bytes.length ≤ o.len.toNat)
  let qst := if o.qstatus ≤ 1 ∧ ¬ fits then 2 else o.qstatus
  let bytes := if qst ≤ 1 then o.bytes else if qst = 2 then o.bytes.take 64 else []
  let n64 := if qst ≤ 2 then o.bytes.length else 0
  let stat := if qst ≤ 2 then byteAt o.bytes 8 else 0
  let ent := leBytes 4 o.tag.toNat ++ leBytes 2 q.sqHead ++ leBytes 1 qst ++ leBytes 1 (b2n q.cqPhase) ++ leBytes 4 n64
    ++ leBytes 1 stat ++ zeroBytes 3 ++ leBytes 8 o.reqId.toNat ++ leBytes 8 s.now.toNat
  let s1 := if bytes.isEmpty then s else s.emit (.hostWrite f o.addr bytes)
  let s2 := s1.emit (.hostWrite f (q.cqBase + BitVec.ofNat 64 (32 * q.cqTail)) ent)
  let size := 2 ^ q.cqLog2
  let ann := q.unannounced + 1
  let due := q.intEn && (decide (q.coalN ≤ ann) || q.coalUs == 0)
  let q1 := { q with
    cqTail := (q.cqTail + 1) % size
    cqPhase := if q.cqTail + 1 = size then !q.cqPhase else q.cqPhase
    cqCount := q.cqCount + 1
    inflight := q.inflight - b2n o.rid.isSome
    unannounced := if due then 0 else ann
    annFrom := if q.unannounced = 0 then s.tick else q.annFrom }
  let s3 := (s2.setQueue f n q1).dropReq o.rid
  if due then s3.sendVector f (n + 1) else s3

/-- Write owed completions in order while the CQ has room. -/
def State.flushList (s : State) (f n : Nat) : List Owed → State
  | [] => s.setQueue f n { s.queue f n with owed := [] }
  | o :: os =>
    if (s.queue f n).full then s.setQueue f n { s.queue f n with owed := o :: os }
    else State.flushList (s.writeCq f n o) f n os

/-- Write what the CQ has room for. -/
def State.flushCq (s : State) (f n : Nat) : State := s.flushList f n (s.queue f n).owed

/-- A queue comes to owe a completion. With its CQ disabled there is nowhere to write it, and it is discarded
(R477). -/
def State.owe (s : State) (f n : Nat) (o : Owed) : State :=
  let q := s.queue f n
  if q.cqEn then
    (s.setQueue f n { q with owed := q.owed ++ [o] }).flushCq f n
  else ((s.setQueue f n { q with inflight := q.inflight - b2n o.rid.isSome }).dropReq o.rid).discard f

/-! ### Freeing and answering -/

/-- Open coalescer windows (R235). -/
def State.openWindows (s : State) : Nat := (s.reqs.filter (fun p => p.2.winOpen)).length

/-- A request's open window closes (R233). -/
def State.closeWindow (s : State) (rid : Nat) : State :=
  match s.req? rid with
  | some r =>
    if r.winOpen then (s.modReq rid (fun q => { q with winOpen := false })).bump Reg.GSJ_CNT_WINDOWS 0 64 1
    else s
  | none => s

/-- A Rill whose engines stop. -/
def Rill.stop (r : Rill) : Rill := { r with rid := none, engs := List.replicate 5 .idle, flags := [], bars := [] }

/-- The waterlines of a request are no longer held (R147). -/
def Waterlines.drop (w : Waterlines) (rid : Nat) : Waterlines :=
  ⟨w.runnel.filter (fun e => e.2.1 != rid), w.shared.filter (fun e => e.1 != rid)⟩

/-- The Rills that serve a request become idle, and its heaps, waterlines, Spout passes and data in shared SRAM are done with; so are
source pages of a migration that only its scan still read (R57, R146, R341). -/
def State.idleRills (s : State) (rid : Nat) : State :=
  let f := s.fabric
  let rills := (f.rills.map (fun (p : Nat × Rill) =>
    let r := { p.2 with heaps := p.2.heaps.filter (fun h => h.rid != rid) }
    (p.1, if p.2.rid = some rid then r.stop else r))).filter (fun p => p.2 != Rill.reset)
  let srams := (f.srams.map (fun (p : Nat × Sram) =>
    (p.1, { p.2 with users := p.2.users.filter (fun u => u.2 != rid) }))).filter (fun p => p.2 != Sram.reset)
  let h := s.hbm
  let passes := (h.passes.map (fun (p : SpPass) => { p with members := p.members.filter (fun m => m.1 != rid) })).filter
    (fun p => !p.members.isEmpty)
  let leaving := (h.leaving.map (fun (l : Leaving) => { l with rids := l.rids.filter (· != rid) })).filter (fun l => !l.rids.isEmpty)
  ({ s with
     fabric := { f with rills := rills, srams := srams, water := f.water.drop rid }
     hbm := { h with passes := passes, leaving := leaving } } : State).settleMaps

/-- Work of a request outside its Reservoir state is freed: Rills, Spout contexts, window places, parts, reads it waits
for, waterlines (R57). -/
def State.freeWork (s : State) (rid : Nat) : State :=
  let s1 := s.idleRills rid
  let s2 := (s1.hbm.spouts.filter (fun p => p.2.ctxs.any (fun c => (c.2.query.map Prod.fst) == some rid))).foldl
    (fun (t : State) p => t.setSpout p.1
      { p.2 with ctxs := p.2.ctxs.filter (fun c => (c.2.query.map Prod.fst) != some rid) }) s1
  let wins := (s2.windows.map (fun (w : Window) => { w with members := w.members.filter (fun m => m.1 != rid) })).filter
    (fun w => !w.members.isEmpty)
  let reads := s2.mem.reads.map (fun (r : LtRead) => { r with waiters := r.waiters.filter (· != .req rid) })
  let s3 := { s2 with
    windows := wins
    partsOut := s2.partsOut.filter (fun p => p.rid != rid)
    mem := { s2.mem with reads := reads }
    fabric := { s2.fabric with water := ⟨s2.fabric.water.runnel.filter (fun e => e.2.1 != rid),
      s2.fabric.water.shared.filter (fun e => e.1 != rid)⟩ } }
  s3.dropMsgs (fun m => m.rid == some rid && m.kind == .part)

/-- The return record of a header, taken from `src` at `t` (R63). -/
def recordOf (h : ReqHdr) (src : Source) (t : Time) : RetRec := ⟨h.reqId, h.slice, h.attempt, h.replyTo, src, h.deadline, t⟩

/-- The return record: its first copy, or the second where that is lost (R63). -/
def Req.record (r : Req) : RetRec :=
  match r.ret.a, r.ret.b with
  | some c, _ => c
  | none, some c => c
  | none, none => recordOf r.hdr r.src r.tAccept

/-- A copy of the return record is lost, and repaired from the other (R63). -/
def Req.repair (r : Req) (lost : Bool) : Req :=
  let q := { r with ret := if lost then { r.ret with b := none } else { r.ret with a := none } }
  { q with ret := ⟨some q.record, some q.record⟩ }

/-- Where a response over Urdun goes (R55, R407, R416): back over the port of arrival when R55 sends it to the link-level
source; else REPLY_TO, or the SRC address for REPLY_TO 0, by the port R416 chooses (DEDUCED, log 57). -/
def Req.dest (r : Req) (src : U64) (port : Nat) : U64 × Option Nat :=
  if r.toSource then (toReplyEngine src, some port)
  else if r.record.replyTo = 0 then (toReplyEngine src, none)
  else (toReplyEngine r.record.replyTo, none)

/-- Is there nowhere to send a response: its host function has been reset since (R482), or its CQ is disabled (R477)? -/
def State.unsendable (s : State) (r : Req) : Bool :=
  r.orphan || (match r.record.src with
    | .port _ _ => false
    | .host f q _ _ _ => !(s.queue f q).cqEn)

/-- The response is formed from the return record: the request's work is freed, the counts of Table 7-9 move for a response that is
to be sent, and it is sent. What no epoch in use sees any more is freed with it (R100). Work that is stopped at its deadline frees
what the Reservoir retained of it, too, before the response leaves (R57). -/
def State.respond (s : State) (rid : Nat) (resp : Resp) : State :=
  match s.req? rid with
  | none => s
  | some r =>
    let s1 := (s.freeWork rid).closeWindow rid
    let c := r.record
    let bytes := respBytes c.reqId c.slice c.attempt resp
    let stopped := decide (resp.status = stDeadlineMissed ∨ resp.status = stTierLate)
    let s2 := s1.setReq rid { r with
      life := .answered
      resp := some resp
      winOpen := false
      work := if stopped then {} else r.work }
    let s2' := if opUsesIndex r.op then s2.freeUnseen r.hdr.index.toNat else s2
    let s3 := (if s.unsendable r then s2'
      else (s2'.bump Reg.WEIR_CNT_DUP 0 64 resp.dupCount).bump Reg.WEIR_CNT_TIE 0 64 resp.tieExcl).emit (.response c.reqId bytes)
    match c.src with
    | .port p src =>
      let d := r.dest src p
      s3.sendMsg ⟨.response, d.1, d.2, r.cls, if r.nodePart then 16 else r.hdr.slice.toNat, some rid,
        c.deadline + 100000, none, bytes⟩
    | .host f q tag addr len =>
      if r.orphan then (s3.dropReq (some rid)).discard f
      else s3.owe f q ⟨some rid, tag, addr, len, 0, c.reqId, bytes, c.deadline + 100000⟩

/-! ### Occupancy (R53) -/

/-- Bytes of a return record: two copies of 36 bytes (R63; DEDUCED, log 28). -/
def returnRecord : Nat := 72

/-- Items of retained output. -/
def Work.items (w : Work) : Nat :=
  sumNat (w.queries.map (fun q => q.order.length + q.cands.length + q.surv.length)) +
  sumNat (w.joins.map (fun j => j.cands.length)) + w.recs.length + w.rows.length + w.table.length +
  w.posMap.length + w.samples.length

/-- A request's occupancy (R53). -/
def Req.occupancy (r : Req) : Nat :=
  64 + r.payload.length + returnRecord +
    (if r.work.items = 0 then 0 else (Config.retainedBytes r.op r.work.items).toNat)

/-- Is a partial message a request or part, and of which slice: none for the node part. -/
def State.partialSlice (s : State) (p : Partial) : Option Nat :=
  if p.kind = 0 then
    let n := byteAt p.bytes 3
    if n < 16 ∧ (s.entry n).en then some n else none
  else
    match s.index? (byteAt p.bytes 28) with
    | some x => if x.state = .ready then some x.desc.slice else none
    | none => none

/-- Bytes a partial message has reserved (R414). -/
def Partial.reserve (p : Partial) : Nat :=
  if p.kind = 0 ∧ (p.msgLen < 64 ∨ 64 + 0x10000000 < p.msgLen ∨ p.msgLen % 8 ≠ 0) then 64 else p.msgLen

/-- Occupancy of a slice, or of the node part. -/
def State.occupancy (s : State) (slice : Option Nat) : Nat :=
  sumNat (s.reqs.map (fun q =>
    let own := if q.2.nodePart then none else some q.2.hdr.slice.toNat
    if own = slice then q.2.occupancy else 0)) +
  sumNat (s.partsIn.map (fun q => if q.2.slice = slice then q.2.body.length + returnRecord else 0)) +
  sumNat (s.urdun.reasm.map (fun p =>
    if ¬ p.busy ∧ p.kind ≤ 2 ∧ s.partialSlice p = slice then p.reserve + returnRecord else 0))

/-- Accepted requests of a slice that have not been delivered. -/
def State.queueLen (s : State) (n : Nat) : Nat :=
  (s.reqs.filter (fun q => !q.2.nodePart && q.2.hdr.slice.toNat == n)).length

/-- The admission test of R53 for `bytes` of header and payload. -/
def State.roomFor (s : State) (slice : Option Nat) (bytes : Nat) : Bool :=
  let need := bytes + returnRecord
  match slice with
  | none => decide (s.occupancy none + need ≤ 4194304)
  | some n =>
    let e := s.entry n
    decide (s.occupancy slice + need ≤ e.sram * 1048576 + e.spill * gib) && decide (s.queueLen n < 65536)

end Sys2Proof.Machine
end

