-- ==== Sys2Proof/Machine/Operands.lean ====
section
/-! DEFINITION. The operand forms of the opcodes: parameters in header bytes 41 to 59 and payload layouts, with the
ranges their chapters state (Tables 6-2, 7-4, 8-3 to 8-6, 9-2 to 9-8). -/

namespace Sys2Proof.Machine





/-- A margin is finite and not negative; −0.0 equals +0.0 (R129, R203). -/
def marginOk (m : F32) : Bool := fFinite m && (!fSign m || fIsZero m)

/-- A margin with −0.0 taken as +0.0. -/
def marginOf (m : F32) : F32 := if fIsZero m then fZero else m

end Sys2Proof.Machine

namespace Sys2Proof

open Sys2Proof.Machine

/-- The little-endian parameter of `len` bytes at header offset `off`. -/
def ReqHdr.p (h : ReqHdr) (off len : Nat) : Nat := leAt h.params (off - 41) len
/-- Bits of the parameter byte at header offset `off`. -/
def ReqHdr.pb (h : ReqHdr) (off lsb len : Nat) : Nat := bitsOf (h.p off 1) lsb len
/-- Are the header bytes from `off` to 59 all 0? -/
def ReqHdr.rest0 (h : ReqHdr) (off : Nat) : Bool := (h.params.drop (off - 41)).all (· == 0)
/-- An FP32 parameter. -/
def ReqHdr.pf (h : ReqHdr) (off : Nat) : F32 := BitVec.ofNat 32 (h.p off 4)
def ReqHdr.qfmt (h : ReqHdr) : Nat := h.pb 41 0 1
def ReqHdr.widen (h : ReqHdr) : Bool := h.pb 41 1 1 == 1
def ReqHdr.nterms (h : ReqHdr) : Nat := h.pb 41 4 4
def ReqHdr.k (h : ReqHdr) : Nat := h.p 42 2
def ReqHdr.depth (h : ReqHdr) : Nat := h.p 44 2
def ReqHdr.probeMin (h : ReqHdr) : Nat := h.p 46 2
def ReqHdr.probeMax (h : ReqHdr) : Nat := h.p 48 2
def ReqHdr.probeMargin (h : ReqHdr) : F32 := marginOf (h.pf 50)
def ReqHdr.widenLists (h : ReqHdr) : Nat := h.p 54 2
def ReqHdr.widenMult (h : ReqHdr) : Nat := h.p 56 1
def ReqHdr.beam (h : ReqHdr) : Nat := h.p 57 2
def ReqHdr.tkFmt (h : ReqHdr) : Nat := h.pb 41 0 1
def ReqHdr.tkRows (h : ReqHdr) : Nat := h.p 44 2
def ReqHdr.tkLen (h : ReqHdr) : Nat := h.p 46 4
def ReqHdr.upFmt (h : ReqHdr) : Nat := h.pb 41 0 1
def ReqHdr.upMode (h : ReqHdr) : Bool := h.pb 41 1 1 == 1
def ReqHdr.upOverflow (h : ReqHdr) : Bool := h.pb 41 2 1 == 1
def ReqHdr.records (h : ReqHdr) : Nat := h.p 44 4
def ReqHdr.ovfMargin (h : ReqHdr) : F32 := marginOf (h.pf 48)
def ReqHdr.scope (h : ReqHdr) : Nat := h.pb 41 0 1
def ReqHdr.firstSlot (h : ReqHdr) : Nat := h.p 44 4
def ReqHdr.nslots (h : ReqHdr) : Nat := h.p 48 4
def ReqHdr.layout (h : ReqHdr) : Nat := h.pb 41 0 1
def ReqHdr.positions (h : ReqHdr) : Nat := h.p 44 4
def ReqHdr.jMode (h : ReqHdr) : Nat := h.pb 41 0 1
def ReqHdr.jFmt (h : ReqHdr) : Nat := h.pb 41 1 1
def ReqHdr.pairK (h : ReqHdr) : Nat := h.p 42 2
def ReqHdr.hamMax (h : ReqHdr) : Nat := h.p 46 2
def ReqHdr.scoreMin (h : ReqHdr) : F32 := h.pf 48
def ReqHdr.probes (h : ReqHdr) : Nat := h.p 52 2
def ReqHdr.csMode (h : ReqHdr) : Nat := h.pb 41 0 1
def ReqHdr.reassign (h : ReqHdr) : Bool := h.pb 41 1 1 == 1
def ReqHdr.ops (h : ReqHdr) : Nat := h.p 44 4
def ReqHdr.prog (h : ReqHdr) : Nat := h.pb 41 0 3
def ReqHdr.iFmt (h : ReqHdr) : Nat := h.pb 41 3 1
def ReqHdr.samples (h : ReqHdr) : Nat := h.p 42 2

end Sys2Proof

namespace Sys2Proof.Machine

/-! ### SEARCH and SEARCH_BATCH (Table 6-2, R130, R131) -/


/-- Parameter ranges of Table 6-2. -/
def searchRanges (h : ReqHdr) (x : Index) : Bool :=
  decide (h.nterms ≤ 8) && decide (1 ≤ h.k ∧ h.k ≤ 1024) && decide (h.k ≤ h.depth ∧ h.depth ≤ 8192) &&
  decide (1 ≤ h.probeMin ∧ h.probeMin ≤ h.probeMax ∧ h.probeMax ≤ 4096) && marginOk (h.pf 50) &&
  decide (h.widenLists ≤ 4096 - h.probeMax) &&
  (if h.widen then decide (1 ≤ h.widenMult ∧ h.widenMult ≤ 8) else decide (h.widenLists = 0 ∧ h.widenMult = 0)) &&
  (if x.isGraph then decide (16 ≤ h.beam ∧ h.beam ≤ 4096) else decide (h.beam = 0))

/-- Bytes of one query. -/
def queryBytes (fmt dim : Nat) : Nat := if fmt = 0 then 4 * dim else 2 * dim

/-- The elements of a query's bytes. -/
def queryElems (fmt : Nat) (bs : List Byte) : List F32 := if fmt = 0 then f32Elems bs else bf16Elems bs

/-- The filter terms of `n` records of 24 bytes, none where a reserved bit is set (R156). -/
def readTerms (n : Nat) (bs : List Byte) : Option (List Term) := (chunks 24 (bs.take (24 * n))).mapM parseTerm

/-- The filter terms of a payload; none where R156 refuses one. -/
def payloadTerms (n : Nat) (bs : List Byte) : Option (List Term) :=
  (readTerms n bs).filter (fun ts => ts.all Term.ok)

/-- The queries of a payload after `skip` bytes. -/
def payloadQueries (fmt dim skip : Nat) (bs : List Byte) : List (List F32) :=
  (chunks (queryBytes fmt dim) (bs.drop skip)).map (queryElems fmt)

/-! ### TOPK (Table 7-4) -/


/-- The row `r` of a TOPK payload as entries with their IDs (R179). -/
def topkRow (h : ReqHdr) (bs : List Byte) (r : Nat) : List Entry :=
  let n := h.tkLen
  if h.tkFmt = 0 then
    (chunks 16 ((bs.drop (r * n * 16)).take (n * 16))).map (fun c =>
      ⟨BitVec.ofNat 64 (leAt c 0 8), BitVec.ofNat 32 (leAt c 8 4), BitVec.ofNat 32 (leAt c 12 4)⟩)
  else
    let ss := f32Elems ((bs.drop (r * n * 4)).take (n * 4))
    (List.range ss.length).map (fun i => ⟨BitVec.ofNat 64 i, ss.getD i 0, 0⟩)

/-! ### UPSERT, DELETE and SCATTER (Tables 8-4, 8-5, 9-4) -/


/-- Length of an UPSERT or SCATTER record (R204). -/
def recordLen (d : IdxDesc) (fmt : Nat) : Nat := if fmt = 0 then 40 + d.codeBytes else 32 + 4 * d.dim

/-- A record of UPSERT or SCATTER as it stands in the payload. -/
structure UpRec where
  gid : GlobalId
  seq : U64
  tag : U64
  prim : Nat
  ovf : Nat
  body : List Byte
  deriving DecidableEq, Repr

/-- Parse a record (Table 8-5). -/
def parseUp (bs : List Byte) : UpRec :=
  ⟨BitVec.ofNat 64 (leAt bs 0 8), BitVec.ofNat 64 (leAt bs 8 8), BitVec.ofNat 64 (leAt bs 16 8), leAt bs 24 4, leAt bs 28 4,
   bs.drop 32⟩

/-- The row a record writes in epoch `u`; none where R83 or a reserved byte refuses it. -/
def UpRec.row (r : UpRec) (d : IdxDesc) (fmt : Nat) (u : Epoch) : Option Row :=
  if fmt = 0 then
    if leAt r.body 6 2 ≠ 0 then none
    else rowOfCodes d.code (BitVec.ofNat 32 (leAt r.body 0 4)) (signedOf 16 (leAt r.body 4 2))
      (unpackCodes d.code (r.body.drop 8)) u r.tag
  else quantizeRow d.code (f32Elems r.body) u r.tag

/-! ### COMPACT, GATHER, JOIN and CLUSTER_STEP (Tables 8-6, 9-2, 9-5, 9-7) -/


/-- The global IDs of a payload. -/
def payloadIds (bs : List Byte) : List GlobalId := (chunks 8 bs).map (fun c => BitVec.ofNat 64 (leNat c))

/-- The join block of R241. -/
structure JoinBlock where
  aMin : U64
  aBase : U64
  first : Nat
  n : Nat
  respMax : Nat
  rest : Bool
  deriving DecidableEq, Repr

/-- Parse the join block. -/
def joinBlock (bs : List Byte) : JoinBlock :=
  ⟨BitVec.ofNat 64 (leAt bs 0 8), BitVec.ofNat 64 (leAt bs 8 8), leAt bs 16 4, leAt bs 20 4, leAt bs 24 4,
   ((bs.take 64).drop 28).all (· == 0)⟩

/-- Centroids that follow a record of a kind in a mode (Table 9-8); none where the kind is of the other mode or none. -/
def clusterCents (mode kind : Nat) : Option Nat :=
  match mode, kind with
  | 0, 0 => some 0
  | 0, 1 => some 2
  | 1, 0 => some 1
  | 1, 2 => some 2
  | 1, 3 => some 1
  | _, _ => none

/-- Centroids a record's length is counted with: a kind of the other mode counts that mode's, and a kind of neither none, so that the
check phase judges it (R249; DESIGN CHOICE, log 186). -/
def kindCents (mode kind : Nat) : Nat :=
  match clusterCents mode kind with
  | some n => n
  | none => (clusterCents (1 - mode) kind).getD 0

/-- The operation records of a CLUSTER_STEP payload and whether they fill it; the fuel is the count (R249). -/
def clusterRecs (mode dim : Nat) : Nat → List Byte → List (ClusterOp × Bool) × Bool
  | 0, bs => ([], bs.isEmpty)
  | n + 1, bs =>
    if bs.length < 16 then ([], false)
    else
      let kind := byteAt bs 0
      let nc := kindCents mode kind
      let len := 16 + nc * 4 * dim
      if bs.length < len then ([], false)
      else
        let cents := (chunks (4 * dim) ((bs.take len).drop 16)).map f32Elems
        let rsv := ((bs.take 4).drop 1).all (· == 0) && ((bs.take 16).drop 12).all (· == 0) &&
          (kind == 3 || leAt bs 8 4 == 0)
        let tail := clusterRecs mode dim n (bs.drop len)
        ((⟨kind, leAt bs 4 4, leAt bs 8 4, cents⟩, rsv) :: tail.1, tail.2)

/-! ### Checks 5, 9 and 10 of Table 3-4 -/

/-- The parameter bytes an opcode leaves reserved are 0 (step 5). -/
def reservedOk (op : Nat) (h : ReqHdr) : Bool :=
  if op = opSearch ∨ op = opSearchBatch then h.pb 41 2 2 == 0 && h.p 59 1 == 0
  else if op = opGather then h.pb 41 1 7 == 0 && h.p 42 2 == 0 && h.rest0 48
  else if op = opScatter ∨ op = opUpsert then h.pb 41 3 5 == 0 && h.p 42 2 == 0 && h.rest0 52
  else if op = opDelete then h.pb 41 3 5 == 0 && h.p 42 2 == 0 && h.rest0 52
  else if op = opEpochSchedule then h.pb 41 2 6 == 0 && h.p 42 6 == 0 && h.rest0 56
  else if op = opCompact then h.pb 41 1 7 == 0 && h.p 42 2 == 0 && h.rest0 52
  else if op = opJoin then h.pb 41 2 6 == 0 && h.rest0 54
  else if op = opClusterStep then h.pb 41 2 6 == 0 && h.p 42 2 == 0 && h.rest0 48
  else if op = opPour then h.pb 41 4 4 == 0 && h.rest0 44
  else h.pb 41 1 7 == 0 && h.rest0 50

/-- The sample records of a POUR payload as ROWS, reserved word and padded element bytes, and whether they fill it; the
fuel is the count (R308). -/
def pourRecs (fmt cols : Nat) : Nat → List Byte → List (Nat × Nat × List Byte) × Bool
  | 0, bs => ([], bs.isEmpty)
  | n + 1, bs =>
    if bs.length < 8 then ([], false)
    else
      let rows := leAt bs 0 4
      let len := (rows * cols * (if fmt = 0 then 4 else 2) + 7) / 8 * 8
      if bs.length < 8 + len then ([], false)
      else
        let tail := pourRecs fmt cols n (bs.drop (8 + len))
        ((rows, leAt bs 4 4, (bs.drop 8).take len) :: tail.1, tail.2)

/-- Is PAYLOAD_LEN a length the opcode accepts for its parameters (step 9)? POUR is judged with its program. -/
def lengthOk (op : Nat) (h : ReqHdr) (x : Option Index) (bs : List Byte) : Bool :=
  let len := bs.length
  let d := match x with | some y => y.desc | none => ⟨.ip, .int8, 0, 0, 0, 0, false, 0, 0, 0⟩
  let qb := queryBytes h.qfmt d.dim
  if op = opSearch then len == 24 * h.nterms + qb
  else if op = opSearchBatch then
    decide (24 * h.nterms ≤ len) && decide (0 < qb) && (len - 24 * h.nterms) % qb == 0 &&
    decide (1 ≤ (len - 24 * h.nterms) / qb ∧ (len - 24 * h.nterms) / qb ≤ 1024)
  else if op = opGather then len == 8 * h.positions
  else if op = opScatter ∨ op = opUpsert then len == h.records * recordLen d h.upFmt && decide (len ≤ 0x10000000)
  else if op = opDelete then len == h.records * 16
  else if op = opEpochSchedule ∨ op = opCompact then len == 0
  else if op = opJoin then
    let pb := queryBytes h.jFmt d.dim
    if h.jMode = 1 then len == 64
    else decide (64 < len) && decide (0 < pb) && (len - 64) % pb == 0 && decide ((len - 64) / pb ≤ 65536)
  else if op = opClusterStep then
    let r := clusterRecs h.csMode d.dim h.ops bs
    r.2 && r.1.length == h.ops
  else if op = opTopk then
    if h.tkFmt = 0 then len == h.tkRows * h.tkLen * 16 else len == 8 * ((h.tkRows * h.tkLen + 1) / 2)
  else true

/-- Is every parameter in its range (step 10)? POUR is judged with its program. -/
def rangesOk (op : Nat) (h : ReqHdr) (x : Option Index) (bs : List Byte) : Bool :=
  match x with
  | none =>
    if op = opTopk then
      decide (1 ≤ h.k ∧ h.k ≤ 1024 ∧ 1 ≤ h.tkRows ∧ h.tkRows ≤ 4096 ∧ 1 ≤ h.tkLen ∧ h.tkLen ≤ 65536)
    else true
  | some y =>
    let d := y.desc
    if op = opSearch ∨ op = opSearchBatch then searchRanges h y && (payloadTerms h.nterms bs).isSome
    else if op = opGather then
      decide (1 ≤ h.positions ∧ h.positions ≤ 4194304) &&
      (h.layout == 1 || decide (h.positions * (16 + d.stride) ≤ 0x10000000))
    else if op = opScatter ∨ op = opUpsert then
      decide (1 ≤ h.records ∧ h.records ≤ (if op = opScatter then 4194304 else 65536)) && marginOk (h.pf 48) &&
      (h.upOverflow || fIsZero (h.pf 48)) && (op == opScatter || h.upMode || !h.upOverflow)
    else if op = opDelete then
      decide (1 ≤ h.records ∧ h.records ≤ 65536) && h.pb 41 0 3 == 0 && marginOk (h.pf 48) && fIsZero (h.pf 48)
    else if op = opEpochSchedule then
      decide (h.pb 41 0 2 ≤ 1) && (h.pb 41 0 2 == 0 || h.p 48 8 == 0)
    else if op = opCompact then
      if h.scope = 0 then h.firstSlot == 0 && h.nslots == 0
      else decide (h.firstSlot < d.listCap) && decide (1 ≤ h.nslots ∧ h.nslots ≤ d.listCap - h.firstSlot)
    else if op = opJoin then
      let b := joinBlock bs
      let p := (bs.length - 64) / max 1 (queryBytes h.jFmt d.dim)
      decide (1 ≤ h.pairK ∧ h.pairK ≤ 1024 ∧ h.pairK ≤ h.depth ∧ h.depth ≤ 8192 ∧ h.hamMax ≤ d.width) &&
      fFinite (h.scoreMin) && b.rest && decide (65536 ≤ b.respMax ∧ b.respMax ≤ 0x10000000 ∧ b.respMax % 8 = 0) &&
      (if h.jMode = 0 then
        decide (1 ≤ h.probes ∧ h.probes ≤ 4096) && b.first == 0 && b.n == 0 &&
        decide (b.aBase.toNat + p - 1 ≤ 0xFFFFFFFFFFFFFFFE)
      else h.jFmt == 0 && h.probes == 0 && b.aBase == 0 && decide (b.first < d.listCap) &&
        decide (1 ≤ b.n ∧ b.n ≤ d.listCap - b.first))
    else if op = opClusterStep then
      decide (1 ≤ h.ops ∧ h.ops ≤ 65536) && (h.csMode == 0 || !h.reassign)
    else true

end Sys2Proof.Machine
end

