-- ==== Sys2Proof/Machine/Flags.lean ====
section
/-! DEFINITION. RESULT_FLAGS (Table 3-6) and the counts of a response that ends OK. -/

namespace Sys2Proof.Machine

def flShortfall : Nat := 1
def flTieAtK : Nat := 2
def flWidened : Nat := 4
def flDupMerged : Nat := 8
def flStaleEdge : Nat := 64
def flCoalesced : Nat := 128
def flZeroQuery : Nat := 256

/-- The flag if the condition holds. -/
def flagIf (c : Bool) (f : Nat) : Nat := if c then f else 0

/-- The counts of one part of a result with its flags (Tables 3-5 and 6-9). -/
structure Counts where
  flags : Nat
  count : Nat
  tie : Nat
  dup : Nat
  stale : Nat
  deriving DecidableEq, Repr

/-- Counts with the flags that follow from them (R60): TIE_AT_K, DUP_MERGED and STALE_EDGE. -/
def Counts.of (extra count tie dup stale : Nat) : Counts :=
  ⟨extra ||| flagIf (tie != 0) flTieAtK ||| flagIf (dup != 0) flDupMerged ||| flagIf (stale != 0) flStaleEdge,
   count, tie, dup, stale⟩

/-- Sums of counts and OR of flags (R59). -/
def Counts.sum (cs : List Counts) : Counts :=
  cs.foldl (fun a c => ⟨a.flags ||| c.flags, a.count + c.count, a.tie + c.tie, a.dup + c.dup, a.stale + c.stale⟩)
    ⟨0, 0, 0, 0, 0⟩

/-- A part header (Table 6-9). -/
def partHeader (pos : Nat) (c : Counts) : List Byte :=
  leBytes 4 pos ++ leBytes 2 c.flags ++ leBytes 2 0 ++ leBytes 4 c.count ++ leBytes 4 c.tie ++ leBytes 4 c.dup ++ leBytes 4 c.stale

/-- A response that ends OK; DISTINCT and COALESCED go together (R234). -/
def State.okResp (s : State) (r : Req) (c : Counts) (distinct : Nat) (payload : List Byte) : Resp :=
  ⟨stOk, c.flags ||| flagIf (distinct != 0) flCoalesced, r.gen, r.epoch, c.count, c.tie, c.dup, c.stale, distinct, r.reruns,
   r.spares, r.tAccept, s.doneDelta r.tAccept, payload⟩

end Sys2Proof.Machine
end

