-- ==== Sys2Proof/Machine/Parts.lean ====
section
/-! DEFINITION. Parts and part replies (Tables 6-6, 6-7 and 9-3): their layouts, the owner's checks (R561) and the
owner's work (R154 to R156, R229, R230). -/

namespace Sys2Proof.Machine

/-- D signed code bytes. -/
def codeBytesOf (cs : List Int) : List Byte := cs.map (BitVec.ofInt 8)

/-- A query record of a re-rank part (Table 6-6). -/
def queryRecord (pos : Nat) (q : Query) (ids : List GlobalId) : List Byte :=
  leBytes 4 q.scale.toNat ++ leBytes 4 q.norm.toNat ++ leBytes 2 pos ++ leBytes 2 0 ++ leBytes 4 ids.length
    ++ codeBytesOf q.codes ++ ids.flatMap (fun g => leBytes 8 g.toNat)

/-- A re-rank part. -/
def rerankPart (tok : Nat) (origin : U64) (h : ReqHdr) (epoch : Epoch) (round : Nat) (shard : U32) (terms : List Byte)
    (recs : List (Nat × Query × List GlobalId)) : List Byte :=
  leBytes 8 tok ++ leBytes 8 origin.toNat ++ leBytes 8 h.deadline.toNat ++ leBytes 4 epoch.toNat ++ [h.index]
    ++ leBytes 1 (h.nterms + 16 * round) ++ leBytes 2 recs.length ++ leBytes 4 shard.toNat
    ++ leBytes 4 (sumNat (recs.map (fun r => r.2.2.length))) ++ zeroBytes 24 ++ terms
    ++ recs.flatMap (fun r => queryRecord r.1 r.2.1 r.2.2)

/-- A gather part (Table 9-3). -/
def gatherPart (tok : Nat) (origin : U64) (h : ReqHdr) (epoch : Epoch) (shard : U32) (ids : List GlobalId) : List Byte :=
  leBytes 8 tok ++ leBytes 8 origin.toNat ++ leBytes 8 h.deadline.toNat ++ leBytes 4 epoch.toNat ++ [h.index] ++ zeroBytes 3
    ++ leBytes 4 shard.toNat ++ leBytes 4 ids.length ++ ids.flatMap (fun g => leBytes 8 g.toNat)

/-- A KIND 2 message is a gather part when bytes 30 and 31, reserved there and QUERIES of at least 1 in a re-rank part,
are 0, or when it is as long as a gather part of its IDS, which no re-rank part of those CANDIDATES is (DEDUCED, log 29). -/
def partIsGather (bs : List Byte) : Bool := leAt bs 30 2 == 0 || bs.length == 40 + 8 * leAt bs 36 4

/-- A query record as parsed: number, query, candidates, and whether its reserved field is 0. -/
structure QRec where
  pos : Nat
  query : Query
  ids : List GlobalId
  rsvOk : Bool
  deriving DecidableEq, Repr

/-- Parse query records; the fuel is their number. -/
def parseQRecs (dim : Nat) : Nat → List Byte → List QRec × Bool
  | 0, bs => ([], bs.isEmpty)
  | n + 1, bs =>
    let nc := leAt bs 12 4
    let len := 16 + dim + 8 * nc
    if bs.length < len then ([], false)
    else
      let cs := ((bs.drop 16).take dim).map (fun b => signedOf 8 b.toNat)
      let sc : F32 := BitVec.ofNat 32 (leAt bs 0 4)
      let q : Query := ⟨cs, sc, BitVec.ofNat 32 (leAt bs 4 4), fIsZero sc⟩
      let tail := parseQRecs dim n (bs.drop len)
      (⟨leAt bs 8 2, q, payloadIds ((bs.take len).drop (16 + dim)), leAt bs 10 2 == 0⟩ :: tail.1, tail.2)

/-- Filter terms of a re-rank part as raw records. -/
def partTermBytes (bs : List Byte) : List Byte := (bs.drop 64).take (24 * bitsOf (byteAt bs 29) 0 4)

/-- The query records of a re-rank part. -/
def partQRecs (dim : Nat) (bs : List Byte) : List QRec × Bool :=
  parseQRecs dim (leAt bs 30 2) (bs.drop (64 + 24 * bitsOf (byteAt bs 29) 0 4))

/-- The IDs of a gather part. -/
def partIds (bs : List Byte) : List GlobalId := payloadIds (bs.drop 40)

/-- Strictly ascending IDs. -/
def idsAscend : List GlobalId → Bool
  | a :: b :: t => decide (a.toNat < b.toNat) && idsAscend (b :: t)
  | _ => true

/-- IDs that an owner accepts: its own shard, below ROW_CAP (R95, R228). -/
def Index.ownIds (x : Index) (ids : List GlobalId) : Bool :=
  ids.all (fun g => gidShard g == x.desc.shard && decide (gidLocal g < x.desc.rowCap))

/-- What the checks of R561 and R191 settle for an owner's part. -/
inductive PartGo where
  | fail (st : Nat)
  | wait
  | run
  deriving DecidableEq, Repr

/-- The epoch rule for a part (R191). -/
def partEpochGo (x : Index) (e : Epoch) (deadline : Time) : PartGo :=
  if x.isLive e || x.isDraining e then .run
  else match x.flip with
    | some f => if e = x.u ∧ f.time.toNat < deadline.toNat then .wait else .fail stStaleEpoch
    | none => .fail stStaleEpoch

/-- The first check of R561: BAD_LENGTH. The length of a query record takes the D of the index that the part names, which an index
that is being loaded or destroyed has too; with no index only the counts are judged. -/
def State.partLength (s : State) (kind : PartKind) (bs : List Byte) : Bool :=
  match kind with
  | .gather =>
    let n := leAt bs 36 4
    decide (bs.length = 40 + 8 * n) && decide (1 ≤ n) && decide (n ≤ 262144)
  | _ =>
    let n := leAt bs 30 2
    decide (64 ≤ bs.length) && decide (1 ≤ n) && decide (n ≤ 1024) &&
    (match s.index? (partIndex bs) with
      | some x =>
        let r := partQRecs x.desc.dim bs
        r.2 && leAt bs 36 4 == sumNat (r.1.map (fun q => q.ids.length))
      | none => true)

/-- The third check of R561: shard, IDs and reserved fields. -/
def Index.partFields (x : Index) (kind : PartKind) (bs : List Byte) : Bool :=
  partShard bs == x.desc.shard &&
  (match kind with
    | .gather => x.ownIds (partIds bs) && idsAscend (partIds bs) && leAt bs 29 3 == 0
    | _ =>
      (partQRecs x.desc.dim bs).1.all (fun q => x.ownIds q.ids && idsAscend q.ids && q.rsvOk) &&
      ((bs.take 64).drop 40).all (· == 0) && (readTerms (bitsOf (byteAt bs 29) 0 4) (partTermBytes bs)).isSome)

/-- The checks of R561, in order. -/
def State.partGo (s : State) (kind : PartKind) (bs : List Byte) : PartGo :=
  if !s.partLength kind bs then .fail stBadLength
  else match (s.index? (partIndex bs)).filter (fun x => x.state == .ready) with
    | none => .fail stNoSuchIndex
    | some x => if x.partFields kind bs then partEpochGo x (partEpoch bs) (partDeadline bs) else .fail stBadDescriptor

/-- Local IDs whose rows a part reads, and the slice's index. -/
def partLocals (x : Index) (kind : PartKind) (bs : List Byte) : List Nat :=
  match kind with
  | .gather => (partIds bs).map gidLocal
  | _ => (partQRecs x.desc.dim bs).1.flatMap (fun q => q.ids.map gidLocal)

/-- A reply with a status other than OK. -/
def failReply (kind : PartKind) (tok st : Nat) : List Byte :=
  match kind with
  | .gather => leBytes 8 tok ++ leBytes 1 st ++ zeroBytes 3 ++ leBytes 4 0
  | _ => leBytes 8 tok ++ leBytes 1 st ++ zeroBytes 1 ++ leBytes 2 0 ++ zeroBytes 4

/-- A gather entry (R230). -/
def gatherEntry (d : IdxDesc) (g : GlobalId) (r : Option Row) : List Byte :=
  leBytes 8 g.toNat ++ leBytes 1 (b2n r.isNone) ++ zeroBytes 7 ++
    (match r with | some row => row.bytes d | none => zeroBytes d.stride)

/-- The owner's OK reply, and the candidates it dropped under R154. -/
def Index.okReply (x : Index) (kind : PartKind) (bs : List Byte) : List Byte × Nat :=
  let e := partEpoch bs
  match kind with
  | .gather =>
    let ids := partIds bs
    (leBytes 8 (partToken bs) ++ leBytes 1 stOk ++ zeroBytes 3 ++ leBytes 4 ids.length
      ++ ids.flatMap (fun g => gatherEntry x.desc g (x.rowAt e (gidLocal g))), 0)
  | _ =>
    let terms := (readTerms (bitsOf (byteAt bs 29) 0 4) (partTermBytes bs)).getD []
    let os := (partQRecs x.desc.dim bs).1.map (fun q => (q.pos, x.ownCandidates e q.query terms q.ids))
    (leBytes 8 (partToken bs) ++ leBytes 1 stOk ++ zeroBytes 1 ++ leBytes 2 os.length ++ zeroBytes 4
      ++ os.flatMap (fun o => leBytes 2 o.1 ++ zeroBytes 2 ++ leBytes 4 o.2.surv.length ++ leBytes 4 o.2.ndrop
          ++ leBytes 4 o.2.nfilt ++ o.2.surv.flatMap Entry.bytes), sumNat (os.map (fun o => o.2.ndrop)))

/-- Send the owner's reply to a part, to its ORIGIN, or to its SRC address where ORIGIN is no valid address (DEDUCED,
log 58); the part's state ends with it (R71), and what no epoch in use sees any more is freed (R100). The time at which the reply
would be dropped is a 64-bit count: where DEADLINE + 100,000 passes 2^64 it wraps (DESIGN CHOICE, log 151). -/
def State.replyPart (s : State) (pid : Nat) (bytes : List Byte) : State :=
  match Store.find? s.partsIn pid with
  | none => s
  | some p =>
    let reads := s.mem.reads.map (fun (r : LtRead) => { r with waiters := r.waiters.filter (· != .part pid) })
    let s1 : State := { s with partsIn := Store.erase s.partsIn pid, mem := { s.mem with reads := reads } }
    let o := partOrigin p.body
    ((s1.idleRills pid).freeUnseen (partIndex p.body)).sendMsg
      ⟨.partReply, toReplyEngine (if adrValid o then o else p.src), none, s.kindClass (if p.kind = .gather then 1 else 0),
      p.slice.getD 16, none, partDeadline p.body + 100000, none, bytes⟩

/-- End an owner's part with a failure status, counted where a register counts it (Tables 8-12, 13-6). -/
def State.failPart (s : State) (pid st : Nat) : State :=
  match Store.find? s.partsIn pid with
  | none => s
  | some p =>
    let s1 := s.replyPart pid (failReply p.kind (partToken p.body) st)
    if st = stStaleEpoch then s1.bump Reg.EPOCH_CNT_STALE 0 64 1
    else if st = stTierLate then s1.bumpSat Reg.MEM_CNT_TIER 0 32 1
    else if st = stTierFailed then s1.bumpSat Reg.MEM_CNT_TIER 32 32 1
    else s1

/-- Does a waiter wait on a lower-tier read? -/
def State.readsFor (s : State) (w : Waiter) : Bool := s.mem.reads.any (fun r => r.waiters.contains w)

/-- The status with which something that waits as `w` ends: at or past its DEADLINE `d` it is that of R56, whatever else ends it
then (R363). -/
def State.dueStatus (s : State) (d : Time) (w : Waiter) (st : Nat) : Nat :=
  if d.toNat ≤ s.now.toNat then (if s.readsFor w then stTierLate else stDeadlineMissed) else st

/-- End an owner's part that has been admitted and checked. -/
def State.endPart (s : State) (pid st : Nat) : State :=
  match Store.find? s.partsIn pid with
  | none => s
  | some p => s.failPart pid (s.dueStatus (partDeadline p.body) (.part pid) st)

/-- The phase of an owner's part runs once its rows are resident: candidates are dropped, scored and filtered, or rows are gathered,
and the reply is formed (R154 to R156, R229). -/
def State.runPart (s : State) (pid : Nat) : State :=
  match Store.find? s.partsIn pid with
  | none => s
  | some p =>
    if s.readsFor (.part pid) then s
    else match s.index? (partIndex p.body) with
      | none => s.endPart pid stNoSuchIndex
      | some x => { s with partsIn := Store.insert s.partsIn pid { p with reply := some (x.okReply p.kind p.body) } }

/-- The phase of an owner's part completes: the reply leaves with OK, unless the count has come to its DEADLINE (R56, R157) or the
part's state cannot be read back (R66). -/
def State.completePart (s : State) (pid : Nat) (readback : Bool) : State :=
  match Store.find? s.partsIn pid with
  | none => s
  | some p =>
    match p.reply with
    | none => s
    | some r =>
      if (partDeadline p.body).toNat ≤ s.now.toNat then s.failPart pid stDeadlineMissed
      else if !readback || p.lost then s.failPart pid stStateLost
      else (s.bump Reg.SRCH_CNT_DROPPED 0 64 r.2).replyPart pid r.1

end Sys2Proof.Machine
end

