-- ==== Sys2Proof/Machine/Requests.lean ====
section
/-! DEFINITION. Ending a request, re-executing a phase, charging faults and starting a domain restart (R56 to R66, R497
to R500, R504 to R509). -/

namespace Sys2Proof.Machine

/-! ### Ending -/

/-- End a request with a status other than OK, which is counted where a register counts it; one already answered is left. -/
def State.endNow (s : State) (rid st : Nat) : State :=
  match s.req? rid with
  | none => s
  | some r =>
    if r.life = .answered then s
    else
      let s1 :=
        if st = stStaleEpoch then s.bump Reg.EPOCH_CNT_STALE 0 64 1
        else if st = stStaleMap then s.bump Reg.SLC_CNT 0 32 1
        else if st = stTierLate then s.bumpSat Reg.MEM_CNT_TIER 0 32 1
        else if st = stTierFailed then s.bumpSat Reg.MEM_CNT_TIER 32 32 1
        else s
      s1.respond rid (s1.failResp r st)

/-- End an accepted request, or a part this node serves as owner (both have numbers of one sequence), with a status other than OK. At
or past DEADLINE the status is that of R56, whatever ends it then. -/
def State.endWith (s : State) (rid st : Nat) : State :=
  match s.req? rid with
  | none => s.endPart rid st
  | some r => s.endNow rid (s.dueStatus r.hdr.deadline (.req rid) st)

/-! ### Where a phase's work lies (R506) -/

/-- Slots that a query of a scan or widened scan probes (R140, R159). -/
def QWork.probeSlots (q : QWork) (wide : Bool) (lists : Nat) : List Nat :=
  (q.order.take (if wide then q.probes + min (q.order.length - q.probes) lists else q.probes)).map Prod.fst

/-- The lists a request's present scan reads: query number and slot. A self-join reads them for A itself. -/
def Req.scanSlots (r : Req) (x : Index) : List (Nat × Nat) :=
  if r.op = opJoin ∧ r.hdr.jMode = 1 then
    let b := joinBlock r.payload
    ((x.liveSlots r.epoch).filter (fun l => b.first ≤ l && decide (l < b.first + b.n))).map (fun l => (0, l))
  else
    let wide := r.phase == .wscan
    (List.range r.work.queries.length).flatMap (fun i =>
      match r.work.queries[i]? with
      | some q => if wide && !q.widened then [] else (q.probeSlots wide r.hdr.widenLists).map (fun l => (i, l))
      | none => [])

/-- Does a phase's work lie in Basin `b` (R506)? -/
def State.tied (s : State) (r : Req) (b : Nat) : Bool :=
  match s.index? r.hdr.index.toNat with
  | none => false
  | some x =>
    match r.phase with
    | .scan | .wscan => (r.scanSlots x).any (fun p => (x.slotAt r.epoch p.2).basin == b)
    | .stage =>
      if r.op = opCompact then
        let pl := s.placingAs r.hdr.slice.toNat r.entry x.desc.spout
        (x.compactScope r.hdr.scope r.hdr.firstSlot r.hdr.nslots).any (fun l =>
          (x.slotAt x.cur l).basin == b || x.compactBasin pl.both pl.only l == b)
      else if r.op = opClusterStep then
        let ops := ((clusterRecs r.hdr.csMode x.desc.dim r.hdr.ops r.payload).1.map Prod.fst).filter (fun o => o.kind ≥ 2)
        let pl := s.placingAs r.hdr.slice.toNat r.entry x.desc.spout
        ops.any (fun o => (x.slotAt x.cur o.a).basin == b || (o.kind == 3 && (x.slotAt x.cur o.b).basin == b)) ||
        (!ops.isEmpty && (x.newBasin pl.both pl.only == b || (pl.both && x.desc.place == 0)))
      else false
    | _ => false

/-- Does the request's slice have a Terrace in service in Basin `b` (R499)? -/
def State.terraceIn (s : State) (r : Req) (b : Nat) : Bool :=
  (r.entry.terracesIn b).any (fun t => !s.terraceOut (nodeTerrace b t))

/-- Is a phase of a request under way: it runs, or waits for a window or for dirty room, and is not held (R66, R235, R358, R506)? -/
def Req.underWay (r : Req) : Bool :=
  (r.life == .running || r.life == .waitWindow || r.life == .waitRoom) && !r.holds

/-! ### Batch windows (R143) -/

/-- One probe joins the open window of its list, or opens one. -/
def State.joinWindow (s : State) (idx basin rid : Nat) (dense : Bool) (p : Nat × Nat) : State :=
  let fits := fun (w : Window) => w.idx == idx && w.slot == p.2 && w.basin == basin && decide (w.members.length < 256)
  if s.windows.any fits then
    { s with windows := s.windows.map (fun (w : Window) =>
        if fits w then { w with members := w.members ++ [(rid, p.1, dense)] } else w) }
  else { s with windows := s.windows ++ [⟨idx, p.2, basin, s.now, [(rid, p.1, dense)]⟩] }

/-- The probes of a request's scan join their windows. -/
def State.joinWindows (s : State) (rid : Nat) : State :=
  match s.req? rid with
  | none => s
  | some r =>
    match s.index? r.hdr.index.toNat with
    | none => s
    | some x => (r.scanSlots x).foldl (fun (t : State) p =>
        t.joinWindow r.hdr.index.toNat (x.slotAt r.epoch p.2).basin rid (r.op == opJoin) p) s

/-- The request leaves every window. -/
def State.leaveWindows (s : State) (rid : Nat) : State :=
  { s with windows := (s.windows.map (fun (w : Window) =>
      { w with members := w.members.filter (fun m => m.1 != rid) })).filter (fun w => !w.members.isEmpty) }

/-! ### Parts this node sent -/

/-- Send a part of a request to the owner of its shard through the route table (R408). A route entry that is not valid
ends the request with RESOURCE_FAILED. One that names the node itself is served here, where no index holds the shard: its IDs are
answered as an owner answers IDs that it does not own, with BAD_DESCRIPTOR (R152). -/
def State.sendPart (s : State) (p : PartOut) : State :=
  match s.req? p.rid with
  | none => s
  | some r =>
    match s.index? r.hdr.index.toNat with
    | none => s
    | some x =>
      let e := s.reg (instKey Reg.URD_ROUTE_DATA (r.hdr.index.toNat + 32 * x.shards.idxOf p.shard))
      if bit e 12 && decide (field e 0 12 = s.ownNode) then s.endWith p.rid stBadDescriptor
      else if bit e 12 then
        s.sendMsg ⟨.part, mkAdr (field e 0 12) 0, none, r.cls, if r.nodePart then 16 else r.hdr.slice.toNat, some p.rid,
          r.hdr.deadline, none, p.body⟩
      else (s.bumpSat Reg.URD_CNT_DROP 32 16 1).endWith p.rid stResourceFailed

/-- Send a request's parts again (R561), each with a new TOKEN, so that a reply to the run before is no reply to this one
(DEDUCED, log 59). -/
def State.resendParts (s : State) (rid : Nat) : State :=
  let s1 := s.dropMsgs (fun m => m.rid == some rid && m.kind == .part)
  let mine := s1.partsOut.filter (fun p => p.rid == rid)
  let again := (List.range mine.length).filterMap (fun i => (mine[i]?).map (fun (p : PartOut) =>
    let t := s1.nextToken + i
    { p with token := t, body := leBytes 8 t ++ p.body.drop 8, done := false, busy := false }))
  let s2 := { s1 with
    nextToken := s1.nextToken + mine.length
    partsOut := s1.partsOut.filter (fun p => p.rid != rid) ++ again }
  again.foldl State.sendPart s2

/-! ### Re-execution (R65, R500) -/

/-- The work with the present phase's partial output discarded. -/
def Work.discard (w : Work) (ph : Phase) : Work :=
  match ph with
  | .rerank => { w with queries := w.queries.map (fun (q : QWork) => { q with surv := [] }) }
  | .wrerank => { w with queries := w.queries.map (fun (q : QWork) => if q.widened then { q with surv := [] } else q) }
  | .fetch | .exact => { w with rows := [] }
  | .coarse => { w with passed := false }
  | _ => w

/-- Re-execute the phase of an owner's part that has run: its reply is formed again, or the part ends with RESOURCE_FAILED when
RERUN_MAX is reached (R65, R157). -/
def State.rerunPart (s : State) (pid : Nat) : State :=
  match Store.find? s.partsIn pid with
  | none => s
  | some p =>
    if p.reply.isNone then s
    else if s.regF Reg.RST_CFG 32 8 ≤ p.runs then s.endPart pid stResourceFailed
    else
      let s1 := s.idleRills pid
      ({ s1 with partsIn := Store.insert s1.partsIn pid { p with runs := p.runs + 1, reply := none } } : State).runPart pid

/-- Largest number of distinct IDs in a window and in a gather part (R233). -/
def windowCap : Nat := 262144

/-- Distinct-ID windows of a list of positions (R233): each holds at most `cap` distinct IDs. -/
def idWindows (cap : Nat) : List GlobalId → List GlobalId → List (List GlobalId)
  | [], cur => if cur.isEmpty then [] else [cur.reverse]
  | g :: gs, cur =>
    if cur.contains g then idWindows cap gs cur
    else if cur.length < cap then idWindows cap gs (g :: cur)
    else cur.reverse :: idWindows cap gs [g]

/-- The IDs an exact phase of JOIN reads: every B, and in MODE 1 every A (R244). They pass the coalescer in the order of the outer
records, each A before its Bs; R233 gives an order for a GATHER only (DESIGN CHOICE, log 184). -/
def joinIds (r : Req) : List GlobalId :=
  r.work.joins.flatMap (fun j => (if r.hdr.jMode = 1 then [j.a] else []) ++ j.cands.map (fun c => c.gid))

/-- Distinct-ID windows that the present phase of a request takes through the coalescer. -/
def Req.windows (r : Req) : List (List GlobalId) :=
  if r.op = opGather then idWindows windowCap (payloadIds r.payload) []
  else if r.op = opJoin then idWindows windowCap (joinIds r) [] else []

/-- A fetch is run again from its first window, which the request takes, or waits for, as any request does; the parts of the run before
are done with (R65, R233, R235). A fetch whose first window is still the open one keeps it and sends its parts again. -/
def State.againFetch (s : State) (rid : Nat) (r : Req) : State :=
  let last := r.windows.length - 1
  if r.life = .running ∧ r.winOpen = true ∧ r.winLeft = last then s.resendParts rid
  else
    let s1 := (s.dropMsgs (fun m => m.rid == some rid && m.kind == .part)).closeWindow rid
    ({ s1 with partsOut := s1.partsOut.filter (fun p => p.rid != rid) } : State).modReq rid (fun q => { q with
      life := .waitWindow
      winLeft := last })

/-- Re-execute the present phase of a request or of an owner's part: RERUNS rises, or the request ends with RESOURCE_FAILED when the
phase has been re-executed RERUN_MAX times. -/
def State.rerun (s : State) (rid : Nat) : State :=
  match s.req? rid with
  | none => s.rerunPart rid
  | some r =>
    if r.life ≠ .running ∧ r.life ≠ .waitWindow then s
    else if s.regF Reg.RST_CFG 32 8 ≤ r.phaseRuns then s.endWith rid stResourceFailed
    else
      let s1 := (s.idleRills rid).setReq rid { r with
        reruns := min 255 (r.reruns + 1)
        phaseRuns := r.phaseRuns + 1
        work := r.work.discard r.phase }
      let s2 := s1.leaveWindows rid
      let s3 := if r.phase = .scan ∨ r.phase = .wscan then s2.joinWindows rid else s2
      if (r.phase = .fetch ∨ r.phase = .exact) ∧ r.windows.isEmpty = false then s3.againFetch rid r else s3.resendParts rid

/-- Something a waiter waited for is resident: the phase of a part whose reads have all ended runs; a write that waits for dirty
room goes on; a request's phase is found complete at its own command. -/
def State.wake (s : State) (w : Waiter) : State :=
  match w with
  | .req rid => s.modReq rid (fun r => if r.life = .waitRoom then { r with life := .running } else r)
  | .part pid => s.runPart pid
  | .dip _ => s

/-- A lower-tier read failed (R362): its waiter ends with TIER_FAILED; a Dipper fill sets ERR (R480). -/
def State.tierFail (s : State) (w : Waiter) : State :=
  match w with
  | .req rid => s.endWith rid stTierFailed
  | .part pid => s.endPart pid stTierFailed
  | .dip f =>
    let h := s.fn f
    s.setFn f { h with dip := { h.dip with err := true, errCode := stTierFailed, filling := false } }

/-! ### Retirement (R498, R499) -/

/-- A Terrace goes out of service: it is recorded, leaves the Sluice, and the request ends (R499). -/
def State.takeOut (s : State) (b t : Nat) (rid : Nat) : State :=
  ((s.retire kTerrace (b + 2 * t) 0).pointOut (169 + nodeTerrace b t) true).endWith rid stResourceFailed

/-- The unit that is suspect and the spare that is tried in a phase that runs, of a request or of an owner's part. -/
structure PhaseRun where
  suspect : Option (Nat × Nat)
  onSpare : Option (Nat × Nat)
  deriving DecidableEq, Repr

/-- The phase that runs for a request or part, if one does. -/
def State.phaseRun (s : State) (rid : Nat) : Option PhaseRun :=
  match s.req? rid with
  | some r => if r.life = .running ∨ r.life = .waitWindow then some ⟨r.suspect, r.onSpare⟩ else none
  | none => (Store.find? s.partsIn rid).bind (fun p => if p.reply.isSome then some ⟨p.suspect, p.onSpare⟩ else none)

/-- The state with a request's or part's suspect unit and spare set. -/
def State.setRun (s : State) (rid : Nat) (v : PhaseRun) : State :=
  { s.modReq rid (fun r => { r with suspect := v.suspect, onSpare := v.onSpare }) with
    partsIn := Store.adjust s.partsIn rid (fun p => { p with suspect := v.suspect, onSpare := v.onSpare }) }

/-- A phase runs once more on a spare; a retirement counts in SPARES where Table 19-4 says so. -/
def State.runOnSpare (s : State) (rid : Nat) (inSpares : Bool) (spare : Option (Nat × Nat)) : State :=
  let s1 := if inSpares then s.modReq rid (fun r => { r with spares := min 255 (r.spares + 1) }) else s
  (s1.setRun rid ⟨none, spare⟩).rerun rid

/-- Unpack a LOCATION of kinds 1 to 3 and 8: Basin and Terrace. -/
def locBasin (l : Nat) : Nat := l % 2
def locTerrace (l : Nat) : Nat := l / 2 % 8
def locRunnel (l : Nat) : Nat := l / 16 % 32

/-- A lasting fault of a Runnel (R499). -/
def State.retireRunnel (s : State) (rid l : Nat) : State :=
  let b := locBasin l
  let t := locTerrace l
  if runnelSparesLeft s.record b t = 0 then (s.retireMapped kRunnel l 0).takeOut b t rid
  else (s.retireMapped kRunnel l 0).runOnSpare rid true (some (kRunnel, runnelKey b t 16))

/-- The spare that takes a retired Rill's place. -/
def State.rillSpare (s : State) (b t rn : Nat) : Nat :=
  let m := rillMap s.record b t rn
  ((([17, 16] : List Nat).find? (fun q => m.contains q)).getD 16)

/-- The requests whose queries a Spout holds, or whose passes still have commands for it. -/
def State.spoutRids (s : State) (k : Nat) : List Nat :=
  ((s.spout k).ctxs.filterMap (fun c => c.2.query.map Prod.fst) ++
    (s.hbm.passes.filter (fun p => !((Store.find? p.todo k).getD []).isEmpty)).flatMap (fun p => p.members.map Prod.fst)).dedup

/-- A lasting fault retires the charged unit (Table 19-4). A Spout is only disabled: the phases whose passes it had to read are run
again, and the blocks of its bank are fed to others (R346). -/
def State.lasting (s : State) (rid : Nat) (c : Charge) : State :=
  let s0 := s.bumpSat Reg.RST_CNT_FAULTS 32 16 1
  let l := c.loc
  let b := locBasin l
  let t := locTerrace l
  if c.kind = kRill then
    let rn := locRunnel l
    if rillSparesLeft s0.record b t rn = 0 then (s0.retireMapped kRill l c.code).retireRunnel rid (runnelKey b t rn)
    else
      let s1 := s0.retireMapped kRill l c.code
      s1.runOnSpare rid true (some (kRill, rillKey b t rn (s1.rillSpare b t rn)))
  else if c.kind = kRunnel then
    (if c.code = 1 ∨ c.code = 2 then s0.bumpSat Reg.WEIR_ERR 16 16 1 else s0).retireRunnel rid l
  else if c.kind = kColumn then
    let s1 := s0.bumpSat (instKey Reg.CASC_ERR (nodeTerrace b t)) 32 16 1
    if columnSparesLeft s1.record b t = 0 then (s1.retire kColumn l 0).takeOut b t rid
    else
      let s2 := s1.retire kColumn l 0
      s2.runOnSpare rid true (((columnMap s2.record b t).getLast?).map (fun q => (kColumn, columnLoc b t q)))
  else if c.kind = kWeirLane then
    let s1 := (s0.bumpSat Reg.WEIR_ERR 16 16 1).retire kWeirLane l 0
    s1.runOnSpare rid true (if recorded s1.record kWeirLane 16 then none else some (kWeirLane, 16))
  else if c.kind = kSpout then
    let others := (s0.spoutRids l).filter (· != rid)
    let s1 := (((s0.retire kSpout l 0).setSpout l Spout.reset).issueRefresh l).runOnSpare rid false none
    others.foldl State.rerun s1
  else s0.endWith rid stResourceFailed

/-- Is Basin `b` within the time in which a neighbour's faults are not charged (R509): from the start of its restart to
WAIT_TIMEOUT cycles after it is in service? -/
def State.fencing (s : State) (b : Nat) : Bool :=
  let v := s.basin b
  v.state == 1 || (match v.fenceEnd with
    | some t => decide (s.tick.toNat < t.toNat)
    | none => false)

/-- Do both Basins serve alone, with the bridge between them down (R504)? -/
def State.apart (s : State) : Bool := (s.bridge 2).state == 0 && s.basinUp 0 && s.basinUp 1

/-- A fault during a phase of a request or of an owner's part (R65, R157, R497 to R500, R509). A phase that needs the bridge between
Basins that serve alone ends with RESOURCE_FAILED (R504). A fault charged to no unit only re-executes. -/
def State.phaseFault (s : State) (rid : Nat) (c : Charge) (injected : Bool) : State :=
  match s.phaseRun rid with
  | none => s
  | some r =>
    let fenced := match c.via with
      | some b => s.fencing b
      | none => false
    if fenced then (s.bumpSat Reg.RST_CNT_FAULTS 48 16 1).rerun rid
    else if c.via.isSome ∧ s.apart then s.endWith rid stResourceFailed
    else if c.kind = 0 then s.rerun rid
    else
      let u := (c.kind, c.loc)
      let clear := fun (t : State) =>
        if r.suspect.isSome ∧ r.suspect ≠ some u then t.bumpSat Reg.RST_CNT_FAULTS 0 32 1 else t
      if injected then (((clear s).bumpSat Reg.RST_CNT_FAULTS 0 32 1).setRun rid { r with suspect := none }).rerun rid
      else if r.onSpare = some u then s.endWith rid stResourceFailed
      else if r.suspect = some u then s.lasting rid c
      else ((clear s).setRun rid ⟨some u, none⟩).rerun rid

/-! ### Domain restarts (R504 to R508) -/

/-- Number of a cause in RST_LAST (Table 19-9). -/
def Cause.num : Cause → Nat
  | .heartbeat => 1
  | .headworksBridge => 2
  | .basinBridge => 3
  | .control => 4
  | .pumphouse => 5
  | .injected => 6

/-- Requests whose Rills lie in Basin `b`. -/
def State.ridsIn (s : State) (b : Nat) : List Nat :=
  ((s.fabric.rills.filter (fun p => p.1 % 2 == b)).filterMap (fun p => p.2.rid)).dedup

/-- A phase that needs a restarting Basin is ended or held (R506). -/
def State.abortOrHold (s : State) (rid : Nat) (wasRunning : Bool) : State :=
  if s.regF Reg.RST_CFG 0 1 = 0 then s.endWith rid stAbortedRestart
  else
    let s1 := if wasRunning then s.rerun rid else s
    (s1.leaveWindows rid).modReq rid (fun r => { r with holds := true })

/-- Step 1: Headworks stops dispatching to `b`; phases tied to it are handled under R506, the others that ran there run
in the other Basin. -/
def State.fence (s : State) (b : Nat) : State :=
  let here := s.ridsIn b
  let s1 := s.reqs.foldl (fun (t : State) p =>
    if (p.2.life = .running ∨ p.2.life = .waitRoom) ∧ t.tied p.2 b then t.abortOrHold p.1 (p.2.life == .running)
    else if here.contains p.1 then t.rerun p.1 else t) s
  ((Store.keys s.partsIn).filter here.contains).foldl State.rerunPart s1

/-- A Basin is held out of service (R496, R507): phases that wait for it end with RESOURCE_FAILED. -/
def State.holdOut (s : State) (b : Nat) : State :=
  let v := s.basin b
  let s1 := (s.setBasin b { v with state := 2, step := 0, hang := false, misses := 0 }).bumpSat Reg.RST_CNT_RESTARTS 48 16 1
  let s2 := { s1 with rst := { s1.rst with lastBasin := b, lastResult := 2 } }
  s2.reqs.foldl (fun (t : State) p =>
    if (p.2.life = .running ∨ p.2.life = .waitRoom) ∧ (t.tied p.2 b ∨ (t.ridsIn b).contains p.1) then
      (if t.tied p.2 b then t.endWith p.1 stResourceFailed else t.rerun p.1)
    else t) (((Store.keys s2.partsIn).filter (s2.ridsIn b).contains).foldl State.rerunPart s2)

/-- Starts within the last RESTART_WIN_S seconds. -/
def State.recentStarts (s : State) (b : Nat) : List Time :=
  (s.basin b).starts.filter (fun t => decide (s.tick.toNat ≤ t.toNat + s.regF Reg.RST_CFG 8 8 * 100000000))

/-- NS_STATE changed: every function with the event enabled is told (R494). -/
def State.stateChange (s : State) : State := s.hqEventAll 1

/-- Step 1 of a domain restart of Basin `b` begins (R504 to R507). `counted` says whether the start counts toward
RESTART_MAX, and `asked` whether RST_CTRL asked for it, which clears the count and ends a hold. -/
def State.beginRestart (s : State) (b : Nat) (c : Cause) (counted asked : Bool) : State :=
  let v := s.basin b
  if !s.keeper.running ∨ v.state = 3 then s
  else
    let recent := s.recentStarts b
    if v.state = 2 ∧ !asked then s
    else if counted ∧ s.regF Reg.RST_CFG 4 4 < recent.length + 1 then
      ((s.logEvent 2 1 sevCritical).holdOut b).stateChange
    else
      let again := v.state == 1
      let first := if again then v.first else s.tick
      let firstCount := if again then v.firstCount else s.now
      let attempts := if again then min 255 (v.attempts + 1) else 1
      let starts := if asked then [] else if counted then recent ++ [s.tick] else recent
      let s0 := (s.logEvent 2 0 sevError).setRegF Reg.RST_CTRL b 1 0
      let s1 := (s0.setRegF Reg.RST_INJECT b 1 0).setBasin b { v with
        state := 1
        step := 1
        misses := 0
        hang := false
        hbSeen := false
        cause := c
        attempts := attempts
        first := first
        firstCount := firstCount
        lastStart := s.tick
        starts := starts
        fenceEnd := none }
      let s2 := { s1 with rst := { s1.rst with
        lastBasin := b
        lastCause := c.num
        lastResult := 0
        lastStep := 1
        lastMs := 0
        lastAttempts := attempts
        lastTime := firstCount } }
      let s3 := if v.state = 1 then s2.bumpSat Reg.RST_CNT_RESTARTS 32 16 1 else s2.bumpSat Reg.RST_CNT_RESTARTS (16 * b) 16 1
      let s4 := s3.fence b
      if v.state = 0 then s4.stateChange else s4

/-- Start, or start again, a domain restart of Basin `b` for a cause (R504, R507). -/
def State.startRestart (s : State) (b : Nat) (c : Cause) : State :=
  s.beginRestart b c (decide (c ≠ .control ∧ c ≠ .injected)) (decide (c = .control))

/-- A fault during a restart, or its limit, starts it again from step 1; such a start counts (R505, R507). -/
def State.repeatRestart (s : State) (b : Nat) : State := s.beginRestart b (s.basin b).cause true false

end Sys2Proof.Machine
end

