-- ==== Sys2Proof/Machine/Rills.lean ====
section
/-! DEFINITION. The meanings of the Rill, Runnel and bridge commands (chapter "Rill cores and signalling"). -/

namespace Sys2Proof.Machine

/-- Fault codes of Table 10-3. -/
def fFlagTimeout : Nat := 1
def fBarrierTimeout : Nat := 2
def fFlagOverflow : Nat := 3
def fBarrierMask : Nat := 4
def fStall : Nat := 5
def fMbxRoute : Nat := 6
def fScratchEcc : Nat := 7
def fIstoreEcc : Nat := 8
def fIllegal : Nat := 9
def fNetError : Nat := 10

/-- Lowest bit of the field of RILL_CNT_FAULTS that counts a code (Table 10-11). -/
def faultCounter (code : Nat) : Nat :=
  if code = fFlagTimeout ∨ code = fBarrierTimeout then 0
  else if code = fStall ∨ code = fMbxRoute then 16
  else if code = fScratchEcc ∨ code = fIstoreEcc then 32
  else 48

/-- The word RILL_FAULT records (Table 10-10). -/
def faultWord (code eng flag count detail pc : Nat) : U64 :=
  BitVec.ofNat 64 (code + 16 * eng + 128 + 256 * flag + 65536 * (count % 65536) + 4294967296 * (detail % 256)
    + 281474976710656 * (pc % 4096))

/-- A fault that a Rill meets in a cycle: its place in the order of R275, the engine, and what RILL_FAULT records. -/
structure RFault where
  rank : Nat
  eng : Nat
  code : Nat
  flag : Nat
  count : Nat
  detail : Nat
  pc : Nat
  via : Option (Fin 2)
  injected : Bool
  deriving DecidableEq, Repr

/-- A fault of a kind with the engine and address of its operation, and nothing else to record. -/
def RFault.plain (rank code eng pc : Nat) : RFault := ⟨rank, eng, code, 0, 0, 0, pc, none, false⟩

/-- Does a fault come before another in the order of R275: by kind, then by engine number? -/
def RFault.before (a b : RFault) : Bool := decide (a.rank < b.rank ∨ (a.rank = b.rank ∧ a.eng < b.eng))

/-- The fault that is recorded of several in one cycle (R275). -/
def firstFault : List RFault → Option RFault
  | [] => none
  | a :: l => match firstFault l with
    | none => some a
    | some b => some (if b.before a then b else a)

/-- A fault is counted: in RILL_CNT_FAULTS, and an uncorrectable error in RILL_ECC too. -/
def State.countRillFault (s : State) (k code : Nat) : State :=
  let s1 := s.bumpSat Reg.RILL_CNT_FAULTS (faultCounter code) 16 1
  if code = fScratchEcc ∨ code = fIstoreEcc then s1.bumpSat (instKey Reg.RILL_ECC k) 32 16 1 else s1

/-- A Rill faults: every fault of the cycle is counted and the first in order recorded, its engines stop, and the phase it
served has a fault (R275). After an error of the instruction store the image is loaded again (Table 10-3). -/
def State.rillFaults (s : State) (k : Nat) (fs : List RFault) : State :=
  match firstFault fs with
  | none => s
  | some f =>
    let r := s.rill k
    let s1 := s.setRill k { r.stop with
      heaps := []
      flags := r.flags
      fault := faultWord f.code f.eng f.flag f.count f.detail f.pc
      faultTime := s.now }
    let s2 := (fs.foldl (fun (t : State) g => t.countRillFault k g.code) s1).settleMaps
    let s3 := if fs.any (fun g => g.code == fIstoreEcc) then s2.bump Reg.RILL_CNT_LOADS 0 64 1 else s2
    match r.rid with
    | some rid => s3.phaseFault rid ⟨kRill, k, f.code, f.via⟩ f.injected
    | none => s3

/-- The count of a flag. -/
def Rill.flag (r : Rill) (f : Nat) : Nat := Store.get (fun _ => 0) r.flags f

/-- The Rill with a flag's count set. -/
def Rill.setFlag (r : Rill) (f v : Nat) : Rill := { r with flags := Store.put (fun _ => 0) r.flags f v }

/-- Satisfy the waits on a flag in ascending engine number, each subtracting its threshold (R269). -/
def Rill.settle (r : Rill) (f : Nat) : Rill :=
  (List.range 5).foldl (fun (q : Rill) e =>
    match q.engs.getD e .idle with
    | .waitFlag g n _ deaf =>
      if g = f ∧ !deaf ∧ n ≤ q.flag f then
        { q.setFlag f (q.flag f - n) with engs := q.engs.set e .run }
      else q
    | _ => q) r

/-- Sum of the increments one cycle's signals give a flag (R268). -/
def sigSum (sigs : List Signal) (f : Nat) : Nat :=
  sumNat ((sigs.filter (fun g => g.flag.val == f)).map (fun g => g.inc.val))

/-- The overflows of one cycle's signals: for each flag that would pass 65,535 the lowest engine among its signals (R268). A transfer
with an increment of 0 gives no signal. -/
def overflowsOf (r : Rill) (sigs : List Signal) : List RFault :=
  ((List.range 32).filter (fun f => decide (65535 < r.flag f + sigSum sigs f))).filterMap
    (fun f => firstFault ((sigs.filter (fun g => g.flag.val == f && g.inc.val != 0)).map (fun g =>
      (⟨2, g.eng, fFlagOverflow, f, r.flag f, 0, g.pc, none, false⟩ : RFault))))

/-- Apply one cycle's signals: each flag they name rises by their sum, unless that passes 65,535, and the waits on
it are then tried (R267 to R269). -/
def Rill.apply (r : Rill) (sigs : List Signal) : Rill :=
  let fs := (List.range 32).filter (fun f => sigs.any (fun g => g.flag.val == f))
  fs.foldl (fun q f =>
    let v := q.flag f + sigSum sigs f
    if v > 65535 then q else (q.setFlag f v).settle f) r

/-- The engines each function uses (Table 10-2), as a mask by engine number. -/
def funcEngines (f : Nat) : Nat :=
  match f with
  | 1 => 0b11011
  | 2 => 0b11001
  | 3 => 0b11101
  | 4 => 0b11101
  | 5 => 0b10101
  | 6 => 0b10111
  | 7 => 0b10101
  | 8 => 0b10101
  | _ => 0

/-- Does anything the request waits for from a lower tier remain unread (R265, R361)? -/
def State.waitsOnTier (s : State) (rid : Nat) : Bool :=
  s.mem.reads.any (fun r => r.waiters.contains (.req rid))

/-- Is a Terrace of a Basin available for dispatch: the Basin in service and the Terrace neither out of
service, held nor tripped (R499, R525, R526). -/
def State.canDispatch (s : State) (b t : Nat) : Bool :=
  let g := s.region (nodeTerrace b t)
  s.basinUp b && !s.terraceOut (nodeTerrace b t) && g.held.isNone && g.tripped == 0

/-- Replicas a phase needs on its Terrace (R452), numbered as in `Slices.lacks`. -/
def Req.replicas (r : Req) : List Nat :=
  match r.phase with
  | .coarse | .stage | .sum => [2 * r.hdr.index.toNat, 2 * r.hdr.index.toNat + 1]
  | .sample => [64 + r.hdr.prog]
  | _ => []

/-- May work of slice `n` that was taken in under map entry `e`, before the present map where `older` says so, use node Terrace `t`
(R440, R448 to R450): the slice holds it under that entry, it has not passed to another slice, and it has been released to a slice
that it joins? -/
def State.mayHold (s : State) (n : Nat) (e : MapEntry) (older : Bool) (t : Nat) : Bool :=
  e.hasTerrace t &&
  (match s.slices.moving.find? (fun m => match m with | .terrace u _ _ => u == t | .granule _ _ _ _ => false) with
    | some (.terrace _ old _) => old == n && older
    | _ => (s.entry n).hasTerrace t)

/-- May a request's phase use node Terrace `t`, which must hold the replicas the phase needs (R452)? -/
def State.mayUse (s : State) (r : Req) (t : Nat) : Bool :=
  s.mayHold r.hdr.slice.toNat r.entry (s.underOld r) t && r.replicas.all (fun o => !s.slices.lacks.contains (t, o))

/-- May the present phase of a request run in Basin `b` (R17)? A phase that is tied to a Basin's stacks runs in such a Basin
only, and any other phase in either (R506). -/
def State.mayRunIn (s : State) (q : Req) (b : Nat) : Bool := s.tied q b || !(s.tied q (1 - b))

/-- Is a Rill, or its Runnel, retired? Nothing more is dispatched to it (R498). -/
def State.rillRetired (s : State) (k : Nat) : Bool :=
  recorded s.record kRill k || recorded s.record kRunnel (k % 512)

/-- May a phase of a request, or of a part that this node serves as owner, run on node Terrace `t` of Basin `b` now? -/
def State.mayServe (s : State) (rid b t : Nat) : Bool :=
  match s.req? rid with
  | some q => decide (q.life = .running) && !s.waitsOnTier rid && s.mayUse q t && s.mayRunIn q b
  | none =>
    match Store.find? s.partsIn rid with
    | some p => p.reply.isSome && (p.slice.map (fun n => s.mayHold n p.entry (p.gen != s.slices.gen) t)).getD false
    | none => false

/-- RILL_DISPATCH: work of a running phase starts on an idle Rill with an image, once every operand is resident; every flag is 0
when a function starts, and the function sets up its receive ring (R265, R266, R279). -/
def execRillDispatch (n : RillName) (work : RillWork) (s : State) : Res :=
  match s.physRill n with
  | some k =>
    let r := s.rill k
    if r.idle ∧ r.func ≠ 0 ∧ s.canDispatch n.basin n.terrace ∧ s.mayServe work.rid n.basin (nodeTerrace n.basin n.terrace) ∧
        !s.rillRetired k then
      .next (s.setRill k
        { r with rid := some work.rid, flags := [], bars := [], pcs := [],
                 ringBase := 256 * work.ringBase.val, ring := work.ringSlots.val + 1, ringHead := 0, used := 0,
                 engs := (List.range 5).map (fun e => if (funcEngines r.func).testBit e then .run else .idle) })
    else .next s
  | none => .next s

/-- Does Basin `b`'s Pumphouse firmware run: in service, in step 6 of a restart, or from step 6 of bring-up on? -/
def State.pumpRuns (s : State) (b : Nat) : Bool :=
  let v := s.basin b
  v.state == 0 || (v.state == 1 && v.step == 6) || (v.state == 3 && decide (6 ≤ s.rst.step))

/-- The image of a function in the booted bundle, as it fits the instruction store (R258, R262). -/
def State.rillImage (s : State) (func : Nat) : List Byte :=
  if func = 0 then [] else (Config.rillImage (s.keeper.booted.getD []) func).take 16384

/-- RILL_IMAGE_LOAD: running Pumphouse firmware puts an image into a Rill whose engines are all idle and clears its flags and
barriers; a write while an engine runs is dropped and counted (R264, R285). -/
def execRillImageLoad (n : RillName) (func : Fin 9) (s : State) : Res :=
  match s.physRill n with
  | some k =>
    let r := s.rill k
    if s.pumpRuns n.basin = false then .next s
    else if r.idle then
      .next ((s.setRill k { r with func := func, istore := s.rillImage func, flags := [], bars := [], rid := none, used := 0 }).bump
        Reg.RILL_CNT_LOADS 0 64 1)
    else .next (s.bumpSat Reg.RILL_CNT_FAULTS 48 16 1)
  | none => .next s

/-- Bytes written to a memory from an address on. -/
def putBytes (m : Store Byte) (addr : Nat) (bs : List Byte) : Store Byte :=
  (List.zip (List.range bs.length) bs).foldl (fun (st : Store Byte) p => Store.put (fun _ => 0) st (addr + p.1) p.2) m

/-- Bytes read from a memory. -/
def getBytes (m : Store Byte) (addr n : Nat) : List Byte := (List.range n).map (fun i => Store.get (fun _ => 0) m (addr + i))

/-- Does a transfer write outside scratch (Table 10-3, ILLEGAL)? -/
def signalOutside (g : Signal) : Bool :=
  match g.dest with
  | .scratch a => decide (65536 < a.val + g.data.length)
  | _ => false

/-- What a transfer writes to scratch. SEND only reads it (Table 10-1). -/
def Rill.write (r : Rill) (g : Signal) : Rill :=
  let r1 := { r with pcs := Store.put (fun _ => 0) r.pcs g.eng g.pc }
  match g.dest with
  | .scratch a => if signalOutside g || g.eng.val == 4 then r1 else { r1 with scratch := putBytes r1.scratch a g.data }
  | _ => r1

/-- The banks of 16 KiB that bytes of the shared SRAM lie in (R276). -/
def sramBanks (addr n : Nat) : List Nat := (List.range 32).filter (fun b => decide (16384 * b < addr + n ∧ addr < 16384 * (b + 1)))

/-- Bytes are written to the shared SRAM of a Runnel, for the phase of a request (R276). -/
def State.putSram (s : State) (rk rid addr : Nat) (bs : List Byte) : State :=
  let m := s.sram rk
  let users := (sramBanks addr bs.length).map (fun b => (b, rid))
  s.setSram rk ⟨putBytes m.bytes addr (bs.take (524288 - addr)), m.users ++ users.filter (fun u => !m.users.contains u)⟩

/-- The node Terrace of a Rill. -/
def terraceOfRill (k : Nat) : Nat := nodeTerrace (k % 2) (k / 2 % 8)

/-- Bytes are written to the staging buffer of a Terrace. -/
def State.putStaging (s : State) (t addr : Nat) (bs : List Byte) : State :=
  s.setStaging t (putBytes (s.staging t) addr (bs.take (2097152 - addr)))

/-- What a transfer writes outside the Rill, for the phase that it serves: of its engines SEND alone writes the shared SRAM of the
Runnel and the Terrace's staging buffer (R276, Table 10-1). -/
def State.sramWrite (s : State) (k : Nat) (g : Signal) : State :=
  match g.dest, (s.rill k).rid with
  | .sram a, some rid => if g.eng.val = 4 then s.putSram (k % 512) rid a g.data else s
  | .staging a, some _ => if g.eng.val = 4 then s.putStaging (terraceOfRill k) a g.data else s
  | _, _ => s

/-- Has Basin `b` a copy of a flash-homed page in its HBM: a line of a row cache, or a copy of a dirty page (R356, R357)? -/
def State.pageIn (s : State) (b lpn : Nat) : Bool :=
  s.mem.cache.any (fun p => p.1 % 2 == b && p.2.any (fun l => l.lpn == lpn)) ||
  ((Store.find? s.mem.dirty lpn).map (fun d => d.copies.any (fun c => c.basin == b))).getD false

/-- The Basin whose HBM serves an access of a Rill of Basin `b` to a range address: that of the region, or the other one when only it
holds the page of a flash-homed address (R349, R351, R356, R370). -/
def State.servedBy (s : State) (b : Nat) (addr : U64) : Nat :=
  let a := addr.toNat
  let r := addrRegion a
  if r = 1 then 0
  else if r = 2 then 1
  else if regionFlash r then
    let l := homePage a
    if !s.pageIn b l ∧ s.pageIn (1 - b) l then 1 - b else b
  else b

/-- Does an access of a Rill of Basin `b` need the other Basin's HBM over a bridge that is down, or while that Basin is not in service
(R284, R370)? -/
def State.outOfReach (s : State) (b : Nat) (addr : U64) : Bool :=
  let o := s.servedBy b addr
  o != b && ((s.bridge 2).state == 0 || !s.basinUp o)

/-- The fault that an event of a cycle is at a Rill of Basin `b`. An access to a reserved region of the range, to an offset with no
translation, or over a bridge that is down returns an error (R284, R350, R370). -/
def State.eventFaults (s : State) (b : Nat) : RillEvent → List RFault × State
  | .corrected _ => ([], s)
  | .sramCorrected => ([], s)
  | .staged _ _ _ _ => ([], s)
  | .ecc istore e pc => ([RFault.plain 0 (if istore then fIstoreEcc else fScratchEcc) e pc], s)
  | .illegal e pc => ([RFault.plain 0 fIllegal e pc], s)
  | .netError e pc via => ([{ RFault.plain 1 fNetError e pc with via := via }], s)
  | .access e pc addr =>
    if s.outOfReach b addr then
      ([{ RFault.plain 1 fNetError e pc with via := some ⟨s.servedBy b addr % 2, Nat.mod_lt _ (by decide)⟩ }], s)
    else
      let a := s.rangeOk addr
      (if a.1 then [] else [RFault.plain 1 fNetError e pc], a.2)

/-- The faults that the events of one cycle are. -/
def State.allFaults (s : State) (b : Nat) : List RillEvent → List RFault × State
  | [] => ([], s)
  | e :: es =>
    let a := s.eventFaults b e
    let c := State.allFaults a.2 b es
    (a.1 ++ c.1, c.2)

/-- Corrected errors of one cycle are counted, and bytes move between the staging buffer and the shared SRAM (R260, R276). -/
def State.countCorrected (s : State) (k : Nat) : RillEvent → State
  | .corrected istore => s.bumpSat (instKey Reg.RILL_ECC k) (if istore then 16 else 0) 16 1
  | .sramCorrected => s.bumpSat (instKey Reg.RUNNEL_STATUS (k % 512)) 16 16 1
  | .staged toSram a buf len =>
    let t := terraceOfRill k
    if toSram then
      match (s.rill k).rid with
      | some rid => s.putSram (k % 512) rid a (getBytes (s.staging t) buf (min len (2097152 - buf)))
      | none => s
    else s.putStaging t buf (getBytes (s.sram (k % 512)).bytes a (min len (524288 - a)))
  | _ => s

/-- The first transfer of a cycle that reads scratch: FETCH only writes it (Table 10-1). -/
def readsScratch (sigs : List Signal) : Option Signal := sigs.find? (fun g => g.eng.val != 0)

/-- RILL_TRANSFER_DONE: the transfers that end in one cycle have written their data, and their signals are applied (R267 to
R269). An error of scratch or of the instruction store, an undefined instruction, an address outside scratch, an error that a
transfer returned, or a flag above 65,535 faults the Rill in the order of R275; under RILL_INJECT.SCR_ECC the next read of
scratch is such an error. -/
def execRillTransferDone (n : RillName) (sigs : List Signal) (evs : List RillEvent) (s : State) : Res :=
  match s.physRill n with
  | some k =>
    let r := s.rill k
    let inj := match readsScratch sigs with
      | some g => if bit (s.reg (instKey Reg.RILL_INJECT k)) 1 && r.rid.isSome then
          [{ RFault.plain 0 fScratchEcc g.eng g.pc with injected := true }] else []
      | none => []
    let out := (sigs.filter signalOutside).map (fun g => RFault.plain 0 fIllegal g.eng g.pc)
    let ev := s.allFaults n.basin evs
    let fs := inj ++ out ++ ev.1 ++ overflowsOf r sigs
    let s1 := sigs.foldl (fun (t : State) g => t.sramWrite k g) (ev.2.setRill k ((sigs.foldl Rill.write r).apply sigs))
    let s2 := evs.foldl (fun (t : State) e => t.countCorrected k e) s1
    let s3 := if inj.isEmpty then s2 else s2.setRegF (instKey Reg.RILL_INJECT k) 1 1 0
    .next (s3.rillFaults k fs)
  | none => .next s

/-- RILL_WAIT: a running engine waits on a flag; the wait is satisfied at once when the count is at least `n`, which
is then subtracted (R269). Under RILL_INJECT.TIMEOUT the wait disregards signals. -/
def execRillWait (n : RillName) (eng : Fin 5) (flag : Fin 32) (th : Fin 256) (pc : Fin 4096) (s : State) : Res :=
  match s.physRill n with
  | some k =>
    let r := s.rill k
    if r.engs.getD eng .idle = .run ∧ 0 < th.val then
      let deaf := bit (s.reg (instKey Reg.RILL_INJECT k)) 0 &&
        !r.engs.any (fun e => match e with | .waitFlag _ _ _ d => d | _ => false)
      .next (s.setRill k (Rill.settle { r with
        engs := r.engs.set eng (.waitFlag flag th pc deaf)
        pcs := Store.put (fun _ => 0) r.pcs eng pc } flag))
    else .next s
  | none => .next s

/-- FLAG_TIMEOUT: a wait that is still unsatisfied faults the Rill, naming flag, engine, count, threshold and
address (R270). The fault of an injected timeout clears its bit. -/
def execFlagTimeout (n : RillName) (eng : Fin 5) (s : State) : Res :=
  match s.physRill n with
  | some k =>
    let r := s.rill k
    match r.engs.getD eng .idle with
    | .waitFlag f th pc deaf =>
      let s1 := if deaf then s.setRegF (instKey Reg.RILL_INJECT k) 0 1 0 else s
      .next (s1.rillFaults k [⟨3, eng, fFlagTimeout, f, r.flag f, th, pc, none, deaf⟩])
    | _ => .next s
  | none => .next s

/-- STALL: an engine that cannot issue faults the Rill; for a held send the fault names the destination (R271). -/
def execStall (n : RillName) (eng : Fin 5) (pc : Fin 4096) (s : State) : Res :=
  match s.physRill n with
  | some k =>
    match (s.rill k).engs.getD eng .idle with
    | .heldSend d at_ _ =>
      .next (s.rillFaults k [⟨5, eng, fStall, 0, d, 0, at_, some ⟨d % 2, Nat.mod_lt _ (by decide)⟩, false⟩])
    | .run => .next (s.rillFaults k [RFault.plain 5 fStall eng pc])
    | _ => .next s
  | none => .next s

/-- Engine numbers of a mask. -/
def maskEngines (m : Nat) : List Nat := (List.range 5).filter (fun e => m.testBit e)

/-- BARRIER_ARRIVE: an engine arrives and waits; the last of the mask releases all of them. A mask without the
engine, an empty mask, or a mask other than that in progress is a BARRIER_MASK fault (R272, R273). -/
def execBarrierArrive (n : RillName) (eng : Fin 5) (num : Fin 4) (mask : Fin 32) (pc : Fin 4096) (s : State) : Res :=
  match s.physRill n with
  | some k =>
    let r := s.rill k
    if r.engs.getD eng .idle ≠ .run then .next s
    else
      let cur := Store.find? r.bars num
      let clash : Bool := match cur with | some b => decide (b.mask ≠ mask.val) | none => false
      if !mask.val.testBit eng || clash then
        .next (s.rillFaults k [⟨4, eng, fBarrierMask, num, 0, mask, pc, none, false⟩])
      else
        let arrived := (match cur with | some b => b.arrived | none => 0) ||| (1 <<< eng.val)
        if arrived = mask.val then
          .next (s.setRill k { r with bars := Store.erase r.bars num,
                                      engs := (maskEngines mask).foldl (fun l e => l.set e .run) r.engs })
        else
          .next (s.setRill k { r with bars := Store.insert r.bars num ⟨mask, arrived⟩,
                                      engs := r.engs.set eng (.waitBarrier num pc) })
  | none => .next s

/-- BARRIER_TIMEOUT: an unreleased barrier faults the Rill, naming its number and the engines that have not
arrived; the engine named is the lowest that waits at it (R274). -/
def execBarrierTimeout (n : RillName) (num : Fin 4) (s : State) : Res :=
  match s.physRill n with
  | some k =>
    match Store.find? (s.rill k).bars num with
    | some b =>
      let e := (maskEngines b.arrived).headD 0
      let pc := match (s.rill k).engs.getD e .idle with
        | .waitBarrier _ a => a
        | _ => 0
      .next (s.rillFaults k [⟨4, e, fBarrierTimeout, num, 0, b.mask ^^^ b.arrived, pc, none, false⟩])
    | none => .next s
  | none => .next s

/-- A message's destination as a logical Rill name. -/
def nameOf (d : Nat) : RillName :=
  ⟨⟨d % 2, Nat.mod_lt _ (by decide)⟩, ⟨d / 2 % 8, Nat.mod_lt _ (by decide)⟩, ⟨d / 16 % 16, Nat.mod_lt _ (by decide)⟩,
   ⟨d / 256 % 16, Nat.mod_lt _ (by decide)⟩⟩

/-- May a Rill's phase reach a destination: a Terrace of its slice in the entry under which its request, or its owner's part, runs
(R281, R448)? -/
def State.mayReach (s : State) (k dest : Nat) : Bool :=
  match (s.rill k).rid with
  | some rid =>
    match s.req? rid with
    | some q => q.entry.hasTerrace (nodeTerrace (dest % 2) (dest / 2 % 8))
    | none => ((Store.find? s.partsIn rid).map (fun p => p.entry.hasTerrace (nodeTerrace (dest % 2) (dest / 2 % 8)))).getD false
  | none => false

/-- The payload that a header's LEN names, in units of 16 bytes (R278; log 15). -/
def msgPayload (hdr payload : List Byte) : List Byte := padTo 0 (16 * (byteAt hdr 5 % 16)) payload

/-- The message that a header and payload are; the router fills in SRC (Table 10-5). -/
def msgOf (hdr payload : List Byte) (dest src : Nat) : Msg :=
  ⟨dest, src, leAt hdr 4 1 % 32, BitVec.ofNat 64 (leAt hdr 8 8), msgPayload hdr payload, false⟩

/-- Is an engine holding a send that has been counted for a full buffer? -/
def Eng.counted : Eng → Bool
  | .heldSend _ _ c => c
  | _ => false

/-- The bytes of a message as the router writes them into a ring slot (R279, Table 10-5). -/
def Msg.bytes (m : Msg) : List Byte :=
  leBytes 2 m.dest ++ leBytes 2 m.src ++ leBytes 1 m.flag ++ leBytes 1 (m.payload.length / 16) ++ [0, 0] ++ leBytes 8 m.tag.toNat
    ++ m.payload

/-- A router's messages of a destination whose ring is full are held: each is counted once (R280). -/
def State.holdFull (s : State) (rk dest : Nat) : State :=
  let full : Bool := match s.physRill (nameOf dest) with
    | some k => decide ((s.rill k).ring ≤ (s.rill k).used)
    | none => false
  let q := s.router rk
  let more := q.filter (fun m => m.dest == dest && !m.held)
  if full && !more.isEmpty then
    (s.setRouter rk (q.map (fun m => if m.dest = dest then { m with held := true } else m))).bumpSat
      (instKey Reg.RUNNEL_MBX rk) 32 16 more.length
  else s

/-- A bridge that a message needs to reach a Basin from another: it must be up, and a down one returns an error (R284). -/
def State.bridgeWord (s : State) (src dest : Nat) : Nat := if src = dest then 2 else (s.bridge 2).state

/-- A router takes a message. -/
def State.bufferMsg (s : State) (rk : Nat) (m : Msg) : State := (s.setRouter rk (s.router rk ++ [m])).holdFull rk m.dest

/-- A Rill's SEND engine gives a message to the router of the destination's Runnel (R278 to R281, R284, R286). A message is counted as
held once, for a full buffer or a full ring (R288). Under RILL_INJECT.SCR_ECC its read of scratch is an uncorrectable error. -/
def State.rillSend (s : State) (n : RillName) (k : Nat) (hdr payload : List Byte) (pc : Nat) : State :=
  let r := s.rill k
  let e := r.engs.getD 4 .idle
  let maySend : Bool := match e with | .run => true | .heldSend _ _ _ => true | _ => false
  let dest := leAt hdr 0 2
  let d := nameOf dest
  let net := fun (t : State) => t.rillFaults k [⟨1, 4, fNetError, 0, dest, 0, pc, some d.basin, false⟩]
  if !maySend then s
  else if bit (s.reg (instKey Reg.RILL_INJECT k)) 1 ∧ r.rid.isSome then
    (s.setRegF (instKey Reg.RILL_INJECT k) 1 1 0).rillFaults k [{ RFault.plain 0 fScratchEcc 4 pc with injected := true }]
  else if dest ≥ 4096 ∨ !s.mayReach k dest then s.rillFaults k [⟨6, 4, fMbxRoute, 0, dest, 0, pc, none, false⟩]
  else if !s.basinUp d.basin ∨ s.bridgeWord n.basin d.basin = 0 then net s
  else match s.physRunnel d.basin d.terrace d.runnel with
    | none => net s
    | some prn =>
      let rk := runnelKey d.basin d.terrace prn
      let full := decide ((s.router rk).length ≥ 64)
      if full ∨ s.bridgeWord n.basin d.basin ≠ 2 then
        let s1 := s.setRill k { r with engs := r.engs.set 4 (.heldSend dest pc (full || e.counted)) }
        if full && !e.counted then s1.bumpSat (instKey Reg.RUNNEL_MBX rk) 32 16 1 else s1
      else (s.setRill k { r with engs := r.engs.set 4 .run, pcs := Store.put (fun _ => 0) r.pcs 4 pc }).bufferMsg rk
        { msgOf hdr payload dest (wordOfRill n) with held := e.counted }

/-- Pumphouse firmware gives a message to a router. One that the router cannot take is not sent; what stands in SRC is open
(DESIGN CHOICE, log 144). -/
def State.pumpSend (s : State) (b : Nat) (hdr payload : List Byte) : State :=
  let dest := leAt hdr 0 2
  let d := nameOf dest
  if !s.pumpRuns b ∨ dest ≥ 4096 ∨ !s.basinUp d.basin ∨ s.bridgeWord b d.basin ≠ 2 then s
  else match s.physRunnel d.basin d.terrace d.runnel with
    | none => s
    | some prn =>
      let rk := runnelKey d.basin d.terrace prn
      if (s.router rk).length ≥ 64 then s
      else
        let f := s.takeFree 16
        f.2.bufferMsg rk (msgOf hdr payload dest f.1.toNat)

/-- MAILBOX_SEND: the router of the destination's Runnel buffers the message, or refuses it when it holds 64 and the sender
waits; a destination outside the slice or with a reserved bit set faults the sending Rill with MBX_ROUTE, and one in a Basin
that is not in service or behind a bridge that is down with NET_ERROR (R278 to R281, R284, R286). Pumphouse firmware sends
messages too (R285). -/
def execMailboxSend (sender : Sender) (hdr payload : List Byte) (pc : Fin 4096) (s : State) : Res :=
  match sender with
  | .pumphouse b => .next (s.pumpSend b hdr payload)
  | .rill n => match s.physRill n with
    | some k => .next (s.rillSend n k hdr payload pc)
    | none => .next s

/-- The byte of scratch at which the next free ring slot begins. -/
def Rill.freeSlotAt (r : Rill) : Nat := (r.ringBase + 256 * ((r.ringHead + r.used) % max 1 r.ring)) % 65536

/-- The router writes a message into the next free slot of a ring, and signals +1 to its FLAG (R279). -/
def State.deliverTo (s : State) (k : Nat) (m : Msg) : State :=
  let r := s.rill k
  let r1 := { r with used := r.used + 1, scratch := putBytes r.scratch r.freeSlotAt m.bytes }
  if r.flag m.flag ≥ 65535 then
    (s.setRill k r1).rillFaults k [⟨2, 4, fFlagOverflow, m.flag, r.flag m.flag, 0, Store.get (fun _ => 0) r.pcs 4, none, false⟩]
  else s.setRill k ((r1.setFlag m.flag (r.flag m.flag + 1)).settle m.flag)

/-- MESSAGE_DELIVERY: the router writes the message at a place of its buffer into the next free ring slot and signals
+1; messages of one sender to one destination keep their order, and a full ring holds its messages (R279, R280). -/
def execMessageDelivery (n : RunnelName) (pos : Nat) (s : State) : Res :=
  match s.physRunnel n.basin n.terrace n.runnel with
  | some prn =>
    let rk := runnelKey n.basin n.terrace prn
    let q := s.router rk
    match q[pos]? with
    | some m =>
      match s.physRill (nameOf m.dest) with
      | some k =>
        let r := s.rill k
        if (q.take pos).any (fun x => x.src == m.src && x.dest == m.dest) ∨ r.used ≥ r.ring then .next s
        else
          let s1 := (s.setRouter rk (q.eraseIdx pos)).bump (instKey Reg.RUNNEL_MBX rk) 0 32 1
          .next ((s1.deliverTo k m).holdFull rk m.dest)
      | none => .next s
    | none => .next s
  | none => .next s

/-- RING_SLOT_RELEASE: the receiving engine has read the oldest slot, and it goes back to the router (R279). -/
def execRingSlotRelease (n : RillName) (s : State) : Res :=
  match s.physRill n with
  | some k =>
    let r := s.rill k
    if r.used = 0 then .next s
    else .next (s.setRill k { r with used := r.used - 1, ringHead := (r.ringHead + 1) % max 1 r.ring })
  | none => .next s

/-- BRIDGE_FLIT_ERROR: a flit that fails its check is replayed and counted; after 16 replays that fail the link is
retrained once (R284). Link 3 stands for the links inside either Basin's network, which have no state of their own but that
retraining. -/
def execBridgeFlitError (link : Fin 4) (first : Bool) (s : State) : Res :=
  let b := s.bridge link
  let net := link.val == 3
  if (!net && b.state != 2) || b.retrain then .next s
  else
    let tries := if first then 0 else b.tries
    if tries ≥ 16 then .next (s.setBridge link ⟨if net then 0 else 1, 0, true⟩)
    else .next ((s.setBridge link { b with tries := tries + 1 }).bumpSat Reg.BNET_REPLAY (16 * link.val) 16 1)

/-- BRIDGE_RETRAIN_DONE: the link is up again, or a bridge is down and its Basin restarts: a Basin–Headworks bridge its own
Basin, the Basin–Basin bridge Basin 1 (R284, R504). No effect is described for a link inside a Basin's network that fails its
retraining, and such a link is in use again. -/
def execBridgeRetrainDone (link : Fin 4) (ok : Bool) (s : State) : Res :=
  let b := s.bridge link
  if !b.retrain then .next s
  else if link.val = 3 then .next (s.setBridge link ⟨0, 0, false⟩)
  else if ok then .next (s.setBridge link ⟨2, 0, false⟩)
  else
    let s1 := s.setBridge link ⟨0, 0, false⟩
    .next (if link.val = 2 then s1.startRestart 1 .basinBridge else s1.startRestart link .headworksBridge)

/-- PUMPHOUSE_HEARTBEAT: a running Pumphouse writes a heartbeat that differs from the last one (R503); under
RST_INJECT.HANG it writes none. -/
def execPumphouseHeartbeat (basin : Fin 2) (seq : U32) (s : State) : Res :=
  let b := s.basin basin
  if b.hang ∨ b.seq = seq ∨ s.pumpRuns basin = false then .next s
  else .next (s.setBasin basin { b with seq := seq, hbSeen := true })

/-- INJECT_RILL_TIMEOUT: RILL_INJECT.TIMEOUT of the selected Rill is set (Table 10-11). -/
def execInjectRillTimeout (s : State) : Res :=
  .next (s.writeOne (instKey Reg.RILL_INJECT (s.regF Reg.RILL_SEL 0 14)) 0)

/-- INJECT_RILL_SCR_ECC: RILL_INJECT.SCR_ECC of the selected Rill is set (Table 10-11). -/
def execInjectRillScrEcc (s : State) : Res :=
  .next (s.writeOne (instKey Reg.RILL_INJECT (s.regF Reg.RILL_SEL 0 14)) 1)

end Sys2Proof.Machine
end

