-- ==== Sys2Proof/Machine/Heaps.lean ====
section
/-! DEFINITION. The local heaps of the Rills and the waterlines between them (R146 to R150, R175), and a dense stream over a list
(R141, R144, R148, R149). -/

namespace Sys2Proof.Machine

/-! ### A heap -/

/-- A distance with a global ID, which is better the greater its sketch key is (R89, R90). -/
abbrev SketchPair := Nat × GlobalId

/-- Is pair `a` better than `b` (R12)? -/
def pairBetter (a b : SketchPair) : Bool := decide (sketchKey b.1 b.2 < sketchKey a.1 a.2)

/-- Is a pair worse than a waterline (R148)? Nothing is worse than a waterline that does not exist. -/
def pairWorse (a : SketchPair) : Option SketchPair → Bool
  | none => false
  | some w => pairBetter w a

/-- The better of two waterlines, either of which may not exist (R147). -/
def bestWl : Option SketchPair → Option SketchPair → Option SketchPair
  | none, b => b
  | a, none => a
  | some a, some b => some (if pairBetter b a then b else a)

/-- Does the heap hold as many IDs as it may? -/
def Heap.full (h : Heap) : Bool := decide (h.depth ≤ h.ents.length)

/-- The local waterline: the last key of a full heap (R146). -/
def Heap.ownWl (h : Heap) : Option SketchPair := if h.full then h.ents.getLast?.map (fun e => (e.ham, e.gid)) else none

/-- The waterline of the heap's query at its Rill (R147). -/
def Heap.waterline (h : Heap) : Option SketchPair := bestWl h.ownWl h.shared

/-- The sort key of a heap entry. -/
def HeapEnt.key (e : HeapEnt) : Nat := sketchKey e.ham e.gid

/-- Insert an entry: an ID that is held gets the entry's key only when that is better, and an equal key counts as a copy (R146,
R171). -/
def Heap.insert (h : Heap) (p : SketchPair) : Heap :=
  match h.ents.find? (fun q => q.gid == p.2) with
  | some q =>
    if q.ham = p.1 then { h with ents := h.ents.map (fun r => if r = q then { r with copies := r.copies + 1 } else r) }
    else if pairBetter p (q.ham, q.gid) then
      { h with ents := insertBy HeapEnt.key ⟨p.1, p.2, 0⟩ (h.ents.filter (fun r => r.gid != p.2)) }
    else h
  | none => { h with ents := (insertBy HeapEnt.key ⟨p.1, p.2, 0⟩ h.ents).take h.depth }

/-- An entry that is worse than the waterline does not enter the heap (R149). -/
def Heap.offer (h : Heap) (p : SketchPair) : Heap := if pairWorse p h.waterline then h else h.insert p

/-! ### A scan -/

/-- What a scan does for one query: its heap and the blocks read and skipped. -/
structure Scan where
  heap : Heap
  read : Nat
  skipped : Nat
  deriving DecidableEq, Repr

/-- What a scan looks for: the sketch, the largest distance of a candidate, and whether a pair may be formed at all (R243). -/
structure Seek where
  sketch : Nat
  hamMax : Nat
  forms : GlobalId → Bool

/-- One block: skipped when its bound pair is worse than the waterline, or, in a JOIN, when its bound exceeds HAM_MAX; else each of
its entries is offered to the heap (R148, R149, R243). -/
def Index.scanBlock (x : Index) (k : Seek) (t : Scan) (es : List BlkEnt) : Scan :=
  let b := blockBound x.desc.width k.sketch es
  if k.hamMax < b then t
  else if pairWorse (b, x.minGid es) t.heap.waterline then { t with skipped := t.skipped + 1 }
  else
    { t with
      read := t.read + 1
      heap := es.foldl (fun (h : Heap) e =>
        let d := hamming k.sketch e.sketch
        if k.hamMax < d ∨ k.forms (x.entGid e) = false then h else h.offer (d, x.entGid e)) t.heap }

/-- What a query sees of a list (R145): its main array and the inflow arrays its scan reads. -/
def Index.view (x : Index) (e : Epoch) (l : Nat) : Nat × List Nat :=
  let t := x.slotAt e l
  (t.main, t.chain.takeWhile (fun h => match Store.find? x.arrs h with
    | some a => heldNotLater x.u a.stamp e
    | none => false))

/-- The block arrays of a view in the order of R141. -/
def viewArrs (v : Nat × List Nat) : List Nat := (if v.1 = 0 then [] else [v.1]) ++ v.2

/-- The blocks of a view in the order of R141, each with its array and its number in it. -/
def Index.viewBlocks (x : Index) (v : Nat × List Nat) : List (Nat × Nat × List BlkEnt) :=
  (viewArrs v).flatMap (fun h => match Store.find? x.arrs h with
    | some a =>
      let bs := chunks 64 a.ents
      (List.range bs.length).filterMap (fun j => (bs[j]?).map (fun es => (h, j, es)))
    | none => [])

/-- Scan the blocks of a view for one query. -/
def Index.scanView (x : Index) (k : Seek) (v : Nat × List Nat) (h : Heap) : Scan :=
  (x.viewBlocks v).foldl (fun (t : Scan) b => x.scanBlock k t b.2.2) ⟨h, 0, 0⟩

/-! ### The heaps of the node -/

/-- Depth of the heaps of a request's present scan (R146, R159). -/
def Req.heapDepth (r : Req) : Nat :=
  if r.phase = .wscan then min (r.hdr.depth * r.hdr.widenMult) 8192 else r.hdr.depth

/-- The heap of a query on a Rill, a new one when it has none. -/
def Rill.heapOf (c : Rill) (rid query depth : Nat) : Heap :=
  (c.heaps.find? (fun h => h.rid == rid && h.query == query)).getD ⟨rid, query, depth, [], none⟩

/-- The Rill with a heap put in place of the one of the same query. -/
def Rill.putHeap (c : Rill) (v : Heap) : Rill :=
  { c with heaps := c.heaps.filter (fun h => !(h.rid == v.rid && h.query == v.query)) ++ [v] }

/-- The heaps of the Rills that `p` takes. -/
def State.heapsIn (s : State) (p : Nat → Bool) : List Heap :=
  (s.fabric.rills.filter (fun q => p q.1)).flatMap (fun q => q.2.heaps)

/-- A heap entry at a Weir. -/
def HeapEnt.went (e : HeapEnt) : WEnt := { sketchEnt e.ham e.gid with copies := e.copies }

/-- The keep best distinct pairs of several heaps: the local merge of a Runnel Weir (R175). -/
def mergeHeaps (keep : Nat) (hs : List Heap) : List SketchPair :=
  ((weirPass false keep (hs.flatMap (fun h => h.ents.map HeapEnt.went))).kept).map (fun w => (keyHam w.key, w.gid))

/-- The waterline that a Runnel Weir reports for a query: the keep-th key of its local merge (Table 7-2). -/
def runnelWl (hs : List Heap) : Option SketchPair :=
  match hs with
  | [] => none
  | h :: _ => let m := mergeHeaps h.depth hs; if h.depth ≤ m.length then m.getLast? else none

/-- The Runnel of a Rill's key. -/
def runnelOfKey (k : Nat) : Nat := k % 512

/-- The queries, as request and number, that the Rills of a Runnel work on. -/
def State.queriesIn (s : State) (rk : Nat) : List (Nat × Nat) :=
  ((s.heapsIn (fun k => runnelOfKey k == rk)).map (fun h => (h.rid, h.query))).dedup

/-- The heaps of one query in a Runnel. -/
def State.heapsFor (s : State) (rk : Nat) (q : Nat × Nat) : List Heap :=
  (s.heapsIn (fun k => runnelOfKey k == rk)).filter (fun h => h.rid == q.1 && h.query == q.2)

/-- What a Runnel Weir holds for a query. -/
def Waterlines.at (w : Waterlines) (rk : Nat) (q : Nat × Nat) : Option SketchPair :=
  (w.runnel.find? (fun e => e.1 == rk && e.2.1 == q.1 && e.2.2.1 == q.2)).map (fun e => e.2.2.2)

/-- The waterlines with a Runnel Weir's value set. -/
def Waterlines.hold (w : Waterlines) (rk : Nat) (q : Nat × Nat) (v : SketchPair) : Waterlines :=
  { w with runnel := w.runnel.filter (fun e => !(e.1 == rk && e.2.1 == q.1 && e.2.2.1 == q.2)) ++ [(rk, q.1, q.2, v)] }

/-- The Rill with a shared waterline received for a query. -/
def Rill.receive (c : Rill) (q : Nat × Nat) (v : SketchPair) : Rill :=
  { c with heaps := c.heaps.map (fun h =>
      if h.rid = q.1 ∧ h.query = q.2 then { h with shared := bestWl h.shared (some v) } else h) }

/-- One query's exchange in a Runnel: the Weir holds the best of what it held and the keep-th key of its local merge, and every
Rill of the Runnel that works on the query receives it (Tables 6-4 and 7-2). -/
def State.exchangeQuery (s : State) (rk : Nat) (q : Nat × Nat) : State :=
  match bestWl (s.fabric.water.at rk q) (runnelWl (s.heapsFor rk q)) with
  | none => s
  | some v =>
    { s with fabric := { s.fabric with
        water := s.fabric.water.hold rk q v
        rills := s.fabric.rills.map (fun p => if runnelOfKey p.1 = rk then (p.1, p.2.receive q v) else p) } }

/-- WATERLINE_EXCHANGE_RUNNEL: the HEAP engines of a Runnel and its Weir exchange waterlines (R147, R175). -/
def execWaterlineExchangeRunnel (terrace : TerraceName) (runnel : Fin 16) (s : State) : Res :=
  match s.physRunnel terrace.basin terrace.terrace runnel with
  | none => .next s
  | some prn =>
    let rk := runnelKey terrace.basin terrace.terrace prn
    .next ((s.queriesIn rk).foldl (fun (t : State) q => t.exchangeQuery rk q) s)

/-! ### Where a scan runs -/

/-- The physical Runnels in which a slice may scan a list of Basin `b`: those of its Terraces that are in service (R144, R266). -/
def State.scanRunnels (s : State) (slice b : Nat) : List Nat :=
  (((s.entry slice).terracesIn b).filter (fun t => !s.terraceOut (nodeTerrace b t))).flatMap (fun t =>
    (List.range 16).filterMap (fun rn => (s.physRunnel b t rn).map (runnelKey b t)))

/-- The physical Rill of a Runnel's logical Rill `n`. -/
def State.rillIn (s : State) (rk n : Nat) : Option Nat :=
  ((rillMap s.mapRec (rk % 2) (rk / 2 % 8) (rk / 16 % 32))[n % 16]?).map (fun r => rk + 512 * r)

/-- A query of a window as its scan needs it: request, query, and for a self-join the entry that stands as A. -/
def State.seekOf (s : State) (rid query : Nat) : Option Seek :=
  match s.req? rid with
  | none => none
  | some r =>
    (r.work.queries[query]?).map (fun q =>
      if r.op = opJoin then
        let b := joinBlock r.payload
        ⟨q.sketch, r.hdr.hamMax, fun _ => decide (b.aMin.toNat ≤ b.aBase.toNat + query)⟩
      else ⟨q.sketch, 512, fun _ => true⟩)

/-- The blocks of a view read and skipped for each entry that stands as A in a self-join, each over its own heap (R243). -/
def Index.selfScan (x : Index) (r : Req) (v : Nat × List Nat) : Nat × Nat :=
  let b := joinBlock r.payload
  let as := ((x.viewBlocks v).flatMap (fun p => p.2.2)).filter (fun e => decide (b.aMin.toNat ≤ (x.entGid e).toNat))
  let ts := as.map (fun e => x.scanView ⟨e.sketch, r.hdr.hamMax, fun g => decide ((x.entGid e).toNat < g.toNat)⟩ v
    ⟨0, 0, r.hdr.depth, [], none⟩)
  (sumNat (ts.map Scan.read), sumNat (ts.map Scan.skipped))

/-- One member of a dense stream: its query's share of the comparison runs on a Rill, whose heap takes the list's entries. -/
def State.scanMember (s : State) (x : Index) (v : Nat × List Nat) (rill : Option Nat) (m : Nat × Nat) : State :=
  match s.req? m.1 with
  | none => s
  | some r =>
    let count := fun (t : State) (n k : Nat) => (t.bump Reg.SRCH_CNT_SCANNED 0 64 n).bump Reg.SRCH_CNT_SKIPPED 0 64 k
    if r.op = opJoin ∧ r.hdr.jMode = 1 then let c := x.selfScan r v; count s c.1 c.2
    else match s.seekOf m.1 m.2, rill with
      | some k, some rl =>
        let c := s.rill rl
        let t := x.scanView k v (c.heapOf m.1 m.2 r.heapDepth)
        count (s.setRill rl (c.putHeap t.heap)) t.read t.skipped
      | _, _ => s

/-- A dense stream of a view for its members: it is read once into the shared SRAM of one Runnel, whose Rills share the queries.
Which Runnel and which Rill begins are open (R144, R163). -/
def State.denseStream (s : State) (x : Index) (slice basin : Nat) (v : Nat × List Nat) (ms : List (Nat × Nat)) : State :=
  let f := s.takeFree 16
  let g := f.2.takeFree 4
  let rs := s.scanRunnels slice basin
  let rk := rs[f.1.toNat % max 1 rs.length]?
  let bytes := sumNat ((viewArrs v).map (fun h => match Store.find? x.arrs h with | some a => a.bytes x.desc.width | none => 0))
  let banks := List.range (min 32 ((bytes + 16383) / 16384))
  let t1 := match rk with
    | some k =>
      let m := g.2.sram k
      g.2.setSram k { m with users := (m.users ++ banks.flatMap (fun b => (ms.map Prod.fst).dedup.map (fun r => (b, r)))).dedup }
    | none => g.2
  let t2 := (List.range ms.length).foldl (fun (t : State) j => match ms[j]? with
    | some m => t.scanMember x v (rk.bind (fun k => t.rillIn k (g.1.toNat + j))) m
    | none => t) t1
  t2.bump Reg.SRCH_CNT_DENSE 0 64 1

end Sys2Proof.Machine
end

