-- ==== Sys2Proof/Machine/Spouts.lean ====
section
/-! DEFINITION. The meanings of the Spout commands, refresh, scrub and list migration (chapter "Spouting stacks and
near-bank scanning"). -/

namespace Sys2Proof.Machine

/-- ERR bits of the status record (Table 12-6). -/
def errCtx : Nat := 1
def errFifo : Nat := 2
def errUe : Nat := 4
def errSeq : Nat := 8

/-- The Spout with ERR bits set; the command completes in its normal time (R319). -/
def Spout.fail (sp : Spout) (e : Nat) : Spout := { sp with err := sp.err ||| e }

/-- The sketch width of a context record (Table 12-4). -/
def ctxWidth (c : SpCtx) : Nat :=
  match byteAt c.bytes 80 % 4 with
  | 0 => 128
  | 1 => 256
  | _ => 512

/-- The width of the Spout's contexts: that of the first active one. -/
def Spout.width (sp : Spout) : Nat := match sp.ctxs with | (_, c) :: _ => ctxWidth c | [] => 128

/-- Size of a block (Table 5-4) from its width and KIND. -/
def spBlockSize (w kind : Nat) : Nat :=
  let m := match w with | 128 => 1536 | 256 => 2560 | _ => 4672
  if kind = 1 then m + 512 else m

/-- The size of the block being read, once its header is in. -/
def SpBlk.size (b : SpBlk) (w : Nat) : Nat :=
  if b.bytes.length < 10 then 5184 else spBlockSize w (byteAt b.bytes 9)

/-- Is a pair (−h, order) worse than a waterline (R12, R327)? `a` and `wa` order entries of equal distance. -/
def worseThan (h a wh wa : Nat) : Bool := wh ≠ 0xFFFF && (decide (wh < h) || (h == wh && decide (wa < a)))

/-- The Hamming distance of entry `e` of a block to a context's sketch. -/
def entryHam (b : List Byte) (w e : Nat) (c : SpCtx) : Nat :=
  popcount 512 ((leAt b (64 + e * (w / 8)) (w / 8)) ^^^ (leAt c.bytes 0 (w / 8)))

/-- Entry `e` of a block as the pass records of every context that does not reject it (R327). -/
def passEntry (sp : Spout) (blk w e : Nat) (b : List Byte) : List SpRec :=
  sp.ctxs.filterMap (fun (p : Nat × SpCtx) =>
    let c := p.2
    let h := entryHam b w e c
    let lid := leAt b (64 + 8 * w + 4 * e) 4
    let sidx := leAt b (320 + 8 * w + 2 * e) 2
    if worseThan h (sidx * 4294967296 + lid) (leAt c.bytes 64 2)
        (leAt c.bytes 66 2 * 4294967296 + leAt c.bytes 68 4) then none
    else some ⟨lid, sidx, h, p.1, blk⟩)

/-- Entries whose LID and SIDX have been read when `n` bytes of the block are in. -/
def entriesRead (w n count : Nat) : Nat := if n < 320 + 8 * w then 0 else min count ((n - (320 + 8 * w)) / 2)

/-- The bound b of a block for a context (R110). -/
def spBound (b : List Byte) (w : Nat) (c : SpCtx) : Nat :=
  let a := leAt b (448 + 8 * w) (w / 8)
  let o := leAt b (448 + 8 * w + w / 8) (w / 8)
  let q := leAt c.bytes 0 (w / 8)
  let full := 2 ^ w - 1
  popcount 512 (((q ^^^ full) &&& a) ||| (q &&& (o ^^^ full)))

/-- The block's masks have been read: a context whose waterline the bound pair is worse than loses the block's
records that are still in the FIFO, and the pair is counted (R327). -/
def boundCheck (sp : Spout) (blk w : Nat) (b : List Byte) : Spout :=
  sp.ctxs.foldl (fun (q : Spout) (p : Nat × SpCtx) =>
    if worseThan (spBound b w p.2) (leAt b 0 8) (leAt p.2.bytes 64 2) (leAt p.2.bytes 72 8) then
      { q with fifo := q.fifo.filter (fun r => !(r.ctx == p.1 && r.blk == blk)), skipped := q.skipped + 1 }
    else q) sp

/-- Bytes of the current block arrive: entries are passed as their IDs come in, the bound is formed when the masks
are in, and at the last byte the block completes and the pending one becomes current. -/
def Spout.take (sp : Spout) (bs : List Byte) : Spout :=
  match sp.cur with
  | none => sp
  | some c =>
    let w := sp.width
    let n0 := c.bytes.length
    let all := c.bytes ++ bs
    let size := SpBlk.size ⟨c.start, all⟩ w
    let b := all.take size
    let blk := sp.blocks.toNat
    let count := byteAt b 8
    let e0 := entriesRead w n0 count
    let e1 := entriesRead w b.length count
    let recs := ((List.range e1).drop e0).flatMap (fun e => passEntry sp blk w e b)
    let sp1 := { sp with fifo := sp.fifo ++ recs }
    let masks := 448 + 8 * w + w / 4
    let sp2 := if n0 < masks ∧ masks ≤ b.length then boundCheck sp1 blk w b else sp1
    if b.length = size then
      { sp2 with blocks := sp2.blocks + 1, cur := sp2.next.map (fun st => ⟨st, []⟩), next := none }
    else { sp2 with cur := some ⟨c.start, b⟩ }

/-- A segment of the run that begins at byte `pos`: the current block takes the bytes from its next byte on; when it
completes inside the segment, the block named next goes on with the rest (R325, R327). -/
def Spout.segment (sp : Spout) (pos : Nat) (data : List Byte) : Nat → Spout
  | 0 => sp
  | f + 1 =>
    match sp.cur with
    | none => sp
    | some c =>
      let want := c.start + c.bytes.length
      if pos ≤ want ∧ want < pos + data.length then
        let sp1 := sp.take (data.drop (want - pos))
        if sp1.blocks = sp.blocks then sp1 else sp1.segment pos data f
      else sp

/-- Is a run sealed against Spout use (R336)? -/
def Stack.runSealed (st : Stack) (run : Nat) : Bool := st.sealAll != st.sealEx.contains run

/-- The stack with a run's bit set to `v`: the mirror of the seal map takes the change before the map does (R336). -/
def Stack.setSeal (st : Stack) (run : Nat) (v : Bool) : Stack :=
  if st.runSealed run = v then st
  else
    let ex :=
      if st.sealEx.contains run then st.sealEx.filter (· != run)
      else (st.sealEx.takeWhile (· < run)) ++ [run] ++ (st.sealEx.dropWhile (· < run))
    { st with mirrorAll := st.sealAll, mirrorEx := ex, sealEx := ex }

/-- Sealed runs of a stack, 0 to 262,144. -/
def Stack.sealedCount (st : Stack) : Nat := if st.sealAll then 262144 - st.sealEx.length else st.sealEx.length

/-! ### Command words (R320, R325) -/

/-- A Spout command word (Table 12-2); a bank is 4 × bank group + bank address (R315). -/
def spWord (op bank opnd : Nat) : Nat := op + 16 * (bank % 4) + 64 * (bank / 4) + 65536 * opnd

/-- The passes without a word that is the next one of a Spout: the Spout works on the first pass that still has words for it. -/
def popWord (k w : Nat) : List SpPass → List SpPass
  | [] => []
  | p :: ps =>
    match (Store.find? p.todo k).getD [] with
    | [] => p :: popWord k w ps
    | v :: vs => (if v = w then { p with todo := Store.insert p.todo k vs } else p) :: ps

/-- The controller issues a command to a Spout: its word goes out on the row command bus of the pseudo-channel, and it is done
where a pass still had it to issue. -/
def State.issue (s : State) (n : SpoutName) (op opnd : Nat) : State :=
  let w := spWord op n.bank opnd
  let s1 := s.emit (.spoutWord n (BitVec.ofNat 32 w))
  { s1 with hbm := { s1.hbm with passes := popWord (keyOfSpout n) w s1.hbm.passes } }

/-- A command to a Spout that is not disabled: out of the order of Table 12-3 it only sets ERR_SEQ (R319, R321). -/
def State.spoutCmd (s : State) (n : SpoutName) (op opnd : Nat) (inOrder : Spout → Bool) (eff : Spout → Spout) : State :=
  let k := keyOfSpout n
  if s.spoutOff k then s
  else
    let sp := s.spout k
    (s.setSpout k (if inOrder sp then eff sp else sp.fail errSeq)).issue n op opnd

/-- SPACT: opens a row of a precharged bank for its Spout. -/
def execSpact (n : SpoutName) (row : U16) (s : State) : Res :=
  .next (s.spoutCmd n 1 row.toNat (fun sp => sp.seq && sp.row.isNone) (fun sp => { sp with row := some row.toNat }))

/-- May the controller issue the command that brings a Spout from `sp` to `sp'`? Only a command that completes a block waits: for
the SPSTAT and the SPDRAIN commands that follow the block before it, and for room in the FIFO for all that one block can pass
(R328). -/
def mayIssue (sp sp' : Spout) : Bool :=
  sp'.blocks == sp.blocks || (!sp.done && sp.owed == 0 && decide (64 * sp.ctxs.length ≤ sp.room))

/-- Blocks for whose contexts the Spout has formed the bound: the completed ones, and the current one once its masks are in. -/
def Spout.judged (sp : Spout) : U32 :=
  let w := sp.width
  match sp.cur with
  | some c => if 448 + 8 * w + w / 4 ≤ c.bytes.length then sp.blocks + 1 else sp.blocks
  | none => sp.blocks

/-- Bytes have reached a Spout: a block that they complete is remembered until the next SPSTAT, and the pairs of a block are counted
as read or skipped by the command that brings its masks, which decide it (R148, R150, R327, R328). -/
def State.spoutRead (s : State) (n : SpoutName) (op opnd : Nat) (sp' : Spout) : State :=
  let k := keyOfSpout n
  let sp := s.spout k
  let whole := decide (sp'.blocks ≠ sp.blocks)
  let skip := (sp'.skipped - sp.skipped).toNat
  let s1 := (s.setSpout k { sp' with done := sp'.done || whole }).issue n op opnd
  if sp'.judged = sp.judged then s1
  else (s1.bump Reg.SRCH_CNT_SCANNED 0 64 (sp.ctxs.length - skip)).bump Reg.SRCH_CNT_SKIPPED 0 64 skip

/-- SPSEG: one 256-byte segment of the open row is read through on-die ECC. The controller reads none of a sealed
run, nor in controller-ECC mode (R335, R336), nor before the FIFO has room (R328). -/
def execSpseg (n : SpoutName) (seg : Fin 4) (data : List Byte) (uncorrectable parity : Bool) (s : State) : Res :=
  let k := keyOfSpout n
  let st := s.stack (k % 4 + 4)
  let count := fun (t : State) => t.bump Reg.SPOUT_CNT_SEGMENTS 0 64 1
  let sp := s.spout k
  if s.spoutOff k then .next s
  else match sp.row with
    | some row =>
      let sp1 := sp.segment ((row % 64) * 1024 + seg * 256) (padTo 0 256 data) 4
      if st.ctrlEcc ∨ st.runSealed (rowRun n.pc n.bank row) ∨ mayIssue sp sp1 = false then .next s
      else
        let sp2 := if uncorrectable then sp1.fail errUe else sp1
        .next (count (s.spoutRead n 2 seg (if parity then sp2.fail errCtx else sp2)))
    | none => .next (count (s.spoutCmd n 2 seg (fun _ => false) id))

/-- SPPRE: closes the row; pending refreshes follow when every bank of the pseudo-channel is closed. -/
def execSppre (n : SpoutName) (s : State) : Res :=
  .next ((s.spoutCmd n 3 0 (fun sp => sp.row.isSome) (fun sp => { sp with row := none })).issueRefresh (keyOfSpout n))

/-- SPLOAD: loads a context record and marks the context active (R322). -/
def execSpload (n : SpoutName) (ctx : Fin 8) (rec : List Byte) (query : Option (Nat × Nat)) (s : State) : Res :=
  .next (s.spoutCmd n 4 ctx (fun sp => !sp.seq) (fun sp =>
    { sp with ctxs := Store.insert sp.ctxs ctx ⟨padTo 0 96 rec, query⟩ }))

/-- SPWL: bytes 64 to 79 of an active context are replaced at the end of the command (R322, R326). -/
def execSpwl (n : SpoutName) (ctx : Fin 8) (burst : List Byte) (s : State) : Res :=
  .next (s.spoutCmd n 5 ctx (fun _ => true) (fun sp =>
    { sp with ctxs := Store.adjust sp.ctxs ctx (fun c =>
        { c with bytes := c.bytes.take 64 ++ padTo 0 16 burst ++ c.bytes.drop 80 }) }))

/-- SPBLK: names the next block's first byte; the first one after SPCLR or SPEND starts a sequence. -/
def execSpblk (n : SpoutName) (start : Fin 1024) (s : State) : Res :=
  .next (s.spoutCmd n 6 start (fun sp => !sp.ctxs.isEmpty && sp.next.isNone) (fun sp =>
    match sp.cur with
    | none => { sp with seq := true, cur := some ⟨64 * start, []⟩ }
    | some _ => { sp with seq := true, next := some (64 * start) }))

/-- SPFEED: the next 32 bytes of the current block, read from a run of the stack, come over the data bus and are processed as if
read in place (R329). None of a sealed run are carried (R336), and the FIFO must have room as for SPSEG (R328). -/
def execSpfeed (n : SpoutName) (feed : SpFeed) (s : State) : Res :=
  let k := keyOfSpout n
  let st := s.stack (k % 4 + 4)
  let sp := s.spout k
  let sp1 := sp.take (padTo 0 32 feed.data)
  if s.spoutOff k ∨ st.ctrlEcc ∨ st.runSealed feed.run then .next s
  else if !sp.seq then .next (s.spoutCmd n 7 0 (fun _ => false) id)
  else if mayIssue sp sp1 = false then .next s
  else .next (s.spoutRead n 7 0 sp1)

/-- The bytes of a pass record with its CHECK (Table 12-5). -/
def SpRec.bytes (r : SpRec) : List Byte :=
  let b := leBytes 4 r.lid ++ leBytes 2 r.sidx ++ leBytes 2 r.h ++ leBytes 1 r.ctx ++ leBytes 1 1 ++ zeroBytes 5
  b ++ [crc8 b]

/-- The requests whose queries a Spout holds. -/
def Spout.rids (sp : Spout) : List Nat := (sp.ctxs.filterMap (fun p => p.2.query.map Prod.fst)).dedup

/-- A fault of a Spout is counted and is a fault of the scan phases it serves (R344). -/
def State.spoutFault (s : State) (k : Nat) (rids : List Nat) (injected : Bool) : State :=
  let s1 := s.bumpSat (instKey Reg.SPOUT_STATUS k) 32 16 1
  rids.foldl (fun t r => t.phaseFault r ⟨kSpout, k, 0, none⟩ injected) s1

/-- The Rill that inserts what the Spouts of Basin `b` pass up for a query: the one that a pass in that Basin names, or one of the
Basin that has a heap for it (R17, R330). -/
def State.thinRill (s : State) (b : Nat) (q : Nat × Nat) : Option Nat :=
  match (s.hbm.passes.filter (fun p => p.basin == b)).findSome? (fun p =>
      p.members.findSome? (fun m => if m.1 = q.1 ∧ m.2.1 = q.2 then m.2.2 else none)) with
  | some k => some k
  | none => (List.find? (fun (c : Nat × Rill) =>
      c.1 % 2 == b && c.2.heaps.any (fun h => h.rid == q.1 && h.query == q.2)) s.fabric.rills).map Prod.fst

/-- A valid record reaches a Rill of its query, which forms the global ID and offers the entry to its heap (R146, R149, R330). -/
def State.forward (s : State) (b : Nat) (q : Nat × Nat) (rec : List Byte) : State :=
  match s.req? q.1, s.thinRill b q with
  | some r, some k =>
    match s.index? r.hdr.index.toNat with
    | some x =>
      let c := s.rill k
      let gid := mkGid (x.shards.getD (leAt rec 4 2) 0) (leAt rec 0 4)
      s.setRill k (c.putHeap ((c.heapOf q.1 q.2 r.heapDepth).offer (leAt rec 6 2, gid)))
    | none => s
  | _, _ => s

/-- Does a pass record as received carry its CHECK (R323)? -/
def recGood (rec : List Byte) : Bool := crc8 (rec.take 15) == rec.getD 15 0

/-- SPDRAIN: the next two pass records leave the FIFO; a missing one is all zero (R323). What the bus changes in the burst is in
the noise; under SPOUT_INJECT.CHECK the first record's CHECK is corrupted. Records that fail CHECK are a fault of the scan phases,
and valid ones that pass it go to the Rills (R330, R344, R345). -/
def execSpdrain (n : SpoutName) (bus : DrainBus) (s : State) : Res :=
  let k := keyOfSpout n
  if s.spoutOff k then .next s
  else
    let sp := s.spout k
    let two := sp.fifo.take 2
    let sp1 := { sp with fifo := sp.fifo.drop 2, owed := sp.owed - 1 }
    let s1 := (s.setSpout k (if bus.parity then sp1.fail errFifo else sp1)).issue n 8 0
    let inj := bit (s.reg (instKey Reg.SPOUT_INJECT k)) 0 && !two.isEmpty
    let (x, s2) := if inj then s1.takeFree 8 else (0, s1)
    let sent := padTo 0 32 (two.flatMap SpRec.bytes)
    let bs := List.zipWith (fun a b => a ^^^ b) (if inj then modifyAt sent 15 (fun c => c ^^^ (x ||| 1)) else sent) (padTo 0 32 bus.noise)
    let recs := chunks 16 bs
    let valid := recs.filter (fun c => recGood c && byteAt c 9 % 2 == 1)
    let s3 := (s2.emit (.spout bs)).bump Reg.SPOUT_CNT_PASSED 0 64 valid.length
    let s4 := valid.foldl (fun (t : State) c => match (Store.find? sp.ctxs (byteAt c 8 % 8)).bind (·.query) with
      | some q => t.forward n.basin q c
      | none => t) s3
    if recs.all recGood then .next s4
    else .next ((if inj then s4.setRegF (instKey Reg.SPOUT_INJECT k) 0 1 0 else s4).spoutFault k sp.rids inj)

/-- The status record (Table 12-6). -/
def Spout.status (sp : Spout) : List Byte :=
  leBytes 2 sp.fifo.length ++ leBytes 2 sp.err ++ leBytes 4 sp.blocks.toNat ++ leBytes 4 sp.skipped.toNat ++ zeroBytes 20

/-- SPSTAT: the status record is returned; an ERR bit in it is a fault of the scan phases (R324, R344). The controller takes from it
how many places are free and, after a block, how many SPDRAIN follow (R328; DEDUCED, log 150). -/
def execSpstat (n : SpoutName) (s : State) : Res :=
  let k := keyOfSpout n
  if s.spoutOff k then .next s
  else
    let sp := s.spout k
    let s1 := ((s.setSpout k { sp with
      room := 1024 - sp.fifo.length
      done := false
      owed := if sp.done then (sp.fifo.length + 1) / 2 else sp.owed }).issue n 9 0).emit (.spout sp.status)
    .next (if sp.err = 0 then s1 else s1.spoutFault k sp.rids false)

/-- SPCLR: clears the contexts, the FIFO and the counters; the ERR bits run from SPCLR with them (DEDUCED, log 13). -/
def execSpclr (n : SpoutName) (s : State) : Res :=
  .next (s.spoutCmd n 10 0 (fun sp => !sp.seq) (fun sp =>
    { sp with ctxs := [], fifo := [], cur := none, next := none, err := 0, blocks := 0, skipped := 0, owed := 0 }))

/-- SPEND: ends the sequence; the contexts stay loaded. -/
def execSpend (n : SpoutName) (s : State) : Res :=
  .next (s.spoutCmd n 11 0 (fun sp => sp.seq && sp.row.isNone) (fun sp =>
    { sp with seq := false, cur := none, next := none }))

/-- RAWRD: a burst of the row that an ordinary ACTIVATE has opened is returned with on-die correction bypassed, with the
controller's stored check bits. The ordinary ACTIVATE of the row belongs to the same access of the bank, which is one unit of the
arbiter (R331; DEDUCED, log 193); while the row of the bank is the Spout's, the command is out of order and sets ERR_SEQ (R319,
R321). It reads a location in on-die mode, so the controller does not issue it in controller-ECC mode (R335). -/
def execRawrd (n : SpoutName) (column : Fin 32) (burst : RawBurst) (s : State) : Res :=
  let k := keyOfSpout n
  if (s.stack (k % 4 + 4)).ctrlEcc then .next s
  else if (s.spout k).row.isSome then .next (s.spoutCmd n 12 column (fun _ => false) id)
  else .next ((s.issue n 12 column).emit (.spout (padTo 0 32 burst.data ++ padTo 0 4 burst.check)))

/-- REFRESH_DUE: with every bank closed the refresh is issued; with a Spout's row open it is postponed up to POSTPONE,
and beyond that every open bank is stopped, which counts one stop and the cycles of each stopped bank: those from the end of its
segment to the first REFRESH, which `waits` gives by bank, the REFRESH commands at 630 cycles each, and 24 for SPACT (R332 to
R334). -/
def execRefreshDue (n : StackName) (pc : Fin 16) (waits : List Nat) (s : State) : Res :=
  let k := keyOfStack n
  let st := s.stack k
  let spout := fun (b : Nat) => n.basin.val + 2 * n.complex.val + 4 * pc.val + 64 * b
  let isOpen := n.spouting && !s.pcClosed (spout 0)
  let pend := Store.get (fun _ => 0) st.refresh pc
  let put := fun (v : Nat) => s.setStack k { st with refresh := Store.put (fun _ => 0) st.refresh pc v }
  if !isOpen then .next (put 0)
  else if pend < s.regF Reg.SPOUT_CFG 0 3 then .next (put (pend + 1))
  else
    let stopped := (List.range 16).filter (fun b => (s.spout (spout b)).row.isSome)
    let cycles := sumNat (stopped.map (fun b => waits.getD b 0 + (pend + 1) * 630 + 24))
    .next (((put 0).bump Reg.SPOUT_CNT_REFSTOP 0 64 1).bump Reg.SPOUT_CNT_REFDELAY 0 64 cycles)

/-- The lowest sealed run of a stack. -/
def Stack.firstSealed (st : Stack) : Option Nat :=
  if st.sealAll then ((List.range (st.sealEx.length + 1)).find? (fun r => !st.sealEx.contains r)).filter (fun r => decide (r < 262144))
  else st.sealEx.head?

/-- Is the row of a bank of a spouting stack open for its Spout, so that ordinary accesses wait for the end of the row (R331)? -/
def State.bankSpouts (s : State) (basin complex pc bank : Nat) : Bool :=
  (s.spout (basin + 2 * complex + 4 * pc + 64 * bank)).row.isSome

/-- SCRUB_RUN: with SCRUB_EN, the next sealed run in ascending order is scrubbed in on-die mode and its bit cleared
(R337). Its accesses wait while the row of the run's bank is its Spout's (R331). -/
def execScrubRun (basin complex : Fin 2) (s : State) : Res :=
  let k := stackKey basin complex 1
  let st := s.stack k
  match st.firstSealed with
  | some r =>
    if s.regF Reg.SPOUT_CFG 3 1 = 1 ∧ !st.ctrlEcc ∧ st.state = 1 ∧ s.bankSpouts basin complex (r % 16) (r / 16 % 16) = false then
      .next ((s.setStack k (st.setSeal r false)).bump Reg.SPOUT_CNT_SCRUB 0 64 1)
    else .next s
  | none => .next s

/-- INJECT_SPOUT_CHECK: SPOUT_INJECT.CHECK of the selected Spout is set (Table 12-11). -/
def execInjectSpoutCheck (s : State) : Res :=
  .next (s.writeOne (instKey Reg.SPOUT_INJECT (s.regF Reg.SPOUT_SEL 0 10)) 0)

end Sys2Proof.Machine
end

