-- ==== Sys2Proof/Machine/Migrate.lean ====
section
/-! DEFINITION. List migration between stack kinds (R339 to R343). -/

namespace Sys2Proof.Machine

/-- Count a dispatched batch window of a list and whether it held no more than THIN_MAX queries (R340). -/
def State.countWindow (s : State) (i slot queries : Nat) : State :=
  let thin := b2n (decide (queries ≤ s.regF Reg.SRCH_CFG 0 9))
  let cs := s.hbm.counts
  let cs' :=
    if cs.any (fun c => c.idx == i && c.slot == slot) then
      cs.map (fun c => if c.idx = i ∧ c.slot = slot then { c with windows := c.windows + 1, thin := c.thin + thin } else c)
    else cs ++ [⟨i, slot, 1, thin⟩]
  { s with hbm := { s.hbm with counts := cs' } }

/-- Runs of a stack are written: in a spouting stack that is in controller-ECC mode, or whose Basin is in a domain restart, so that
the write is repeated during its memory check, or when `check` says that the write is part of one, they are sealed (R336, R338;
DEDUCED, log 61). -/
def State.sealRuns (s : State) (check : Bool) (b stack : Nat) (runs : List Nat) : State :=
  let k := stackKey b (stack % 2) 1
  let st := s.stack k
  if 2 ≤ stack ∧ (check || st.ctrlEcc || (s.basin b).state == 1) = true then
    s.setStack k (runs.foldl (fun (q : Stack) r => q.setSeal r true) st)
  else s

/-- A block array is written to the runs that it has. -/
def State.sealArray (s : State) (check : Bool) (i h : Nat) (a : BlkArr) : State :=
  s.sealRuns check a.basin a.stack (s.runsOf i h)

/-- The block arrays that an index has come to hold, or holds in another stack than before. -/
def newArrs (old : Option Index) (new : Index) : List (Nat × BlkArr) :=
  new.arrs.filter (fun p => (old.bind (fun (x : Index) => Store.find? x.arrs p.1)) != some p.2)

/-- The block arrays that an index has come to hold are written. -/
def State.sealNew (s : State) (check : Bool) (i : Nat) (old : Option Index) (new : Index) : State :=
  (newArrs old new).foldl (fun (t : State) p => t.sealArray check i p.1 p.2) s

/-- Abandon the migrations that `p` takes: their targets are free again, the translation stays and each is counted (R342). -/
def State.abandonMigs (s : State) (p : Migration → Bool) : State :=
  let n := (s.hbm.migs.filter p).length
  let s1 := { s with hbm := { s.hbm with migs := s.hbm.migs.filter (fun m => !p m) } }
  if n = 0 then s1 else s1.bumpSat Reg.SPOUT_CNT_MIGRATE 32 16 n

/-- The migrations of lists that have come to hold a block array they did not hold before are abandoned (R342). -/
def State.abandonGrown (s : State) (i : Nat) (old new : Index) : State :=
  s.abandonMigs (fun m => m.idx == i && (new.listArrs m.basin m.slot).any (fun h => (Store.find? old.arrs h).isNone))

/-- A list under judgement at the end of an interval. -/
structure MigList where
  idx : Nat
  slot : Nat
  stack : Nat
  bytes : Nat
  windows : Nat
  thin : Nat
  deriving DecidableEq, Repr

/-- Thin share at least `p` percent. -/
def MigList.atLeast (m : MigList) (p : Nat) : Bool := decide (m.thin * 100 ≥ p * m.windows)

/-- Thin share at most `p` percent. -/
def MigList.atMost (m : MigList) (p : Nat) : Bool := decide (m.thin * 100 ≤ p * m.windows)

/-- A key that falls as the thin share falls, with slots in ascending order at equal shares. Shares are ratios of
numbers below 2^32, so 2^64 in place of 1 tells any two apart. -/
def MigList.shareKey (m : MigList) : Nat := (m.thin * 18446744073709551616 / max 1 m.windows) * 16777216 + (16777215 - m.slot)

/-- The same with ascending share. -/
def MigList.shareKeyUp (m : MigList) : Nat :=
  (18446744073709551616 - m.thin * 18446744073709551616 / max 1 m.windows) * 16777216 + (16777215 - m.slot)

/-- The live lists of a Basin with at least MIN_WINDOWS windows in the interval. -/
def State.migLists (s : State) (b : Nat) : List MigList :=
  let minW := s.regF Reg.SPOUT_MIG_CFG 24 16
  s.hbm.counts.filterMap (fun c =>
    match s.index? c.idx with
    | some x =>
      let t := x.slotAt x.cur c.slot
      match x.listStack b c.slot with
      | some st =>
        if t.st = .live ∧ t.basin = b ∧ c.windows ≥ minW ∧
            ¬ s.hbm.migs.any (fun m => m.idx == c.idx && m.slot == c.slot) then
          some ⟨c.idx, c.slot, st, x.listBytes b c.slot, c.windows, c.thin⟩
        else none
      | none => none
    | none => none)

/-- Bytes of a block array that lie in page `j` of the range pages that hold it. -/
def pageShare (bytes j : Nat) : Nat := min bytes ((j + 1) * 65536) - j * 65536

/-- Bytes of the block arrays of an index in a stack that lie in runs that `p` takes. -/
def State.indexBytesIn (s : State) (i : Nat) (x : Index) (b st : Nat) (p : Nat → Bool) : Nat :=
  sumNat (x.arrs.map (fun a =>
    if a.2.basin = b ∧ a.2.stack = st ∧ ¬ s.mem.demoted.contains (i, a.1) then
      let rs := s.runsOf i a.1
      sumNat ((List.range (a.2.span x.desc.width)).map (fun j =>
        if p (rs.getD j 0) then pageShare (a.2.bytes x.desc.width) j else 0))
    else 0))

/-- Bytes of the block arrays of a stack that lie in runs that `p` takes. -/
def State.bytesIn (s : State) (b st : Nat) (p : Nat → Bool) : Nat :=
  sumNat (s.indexes.map (fun q => s.indexBytesIn q.1 q.2 b st p))

/-- The granule of a stack that a run, or plain page, lies in. -/
def runGranule (r : Nat) : Nat := r / 16384

/-- Bytes of a slice's pages in a granule, as far as their places are named (R453). -/
def State.granuleBytes (s : State) (g : Granule) : Nat :=
  sumNat (s.indexes.map (fun q =>
    if q.2.desc.slice = g.slice then s.indexBytesIn q.1 q.2 g.basin g.stack (fun r => runGranule r == g.num) else 0))

/-- Free bytes of a whole stack; a spouting one counts only unsealed runs (R340). -/
def State.wholeStackFree (s : State) (b st : Nat) : Nat :=
  let left := sumNat (s.hbm.leaving.map (fun l => if l.basin = b ∧ l.stack = st then l.bytes else 0))
  if st < 2 then 24 * gib - s.bytesIn b st (fun _ => true) - left
  else
    let k := s.stack (stackKey b (st % 2) 1)
    (262144 - k.sealedCount) * 65536 - s.bytesIn b st (fun r => !k.runSealed r) - left

/-- Bytes that the running migrations will bring into a stack. -/
def State.migIncoming (s : State) (b st : Nat) : Nat :=
  sumNat (s.hbm.migs.map (fun g =>
    if g.basin = b ∧ g.target = st then (match s.index? g.idx with | some x => x.listBytes b g.slot | none => 0) else 0))

/-- Free bytes of a whole stack besides those that running migrations have taken (R340, R341). -/
def State.stackLeft (s : State) (b st : Nat) : Nat := s.wholeStackFree b st - s.migIncoming b st

/-- Of two stacks, the one with more free bytes; the lower number when they are equal. -/
def State.freerStack (s : State) (b st : Nat) : Nat :=
  if s.stackLeft b st < s.stackLeft b (st + 1) then st + 1 else st

/-- The runs, or plain pages, of a stack that hold a block array, are to hold one of a migration, or are still read by scans. -/
def State.usedRuns (s : State) (b st : Nat) : List Nat :=
  (s.indexes.flatMap (fun q => q.2.arrs.flatMap (fun a =>
    if a.2.basin = b ∧ a.2.stack = st ∧ ¬ s.mem.demoted.contains (q.1, a.1) then s.runsOf q.1 a.1 else []))) ++
  (s.hbm.migs.flatMap (fun m => if m.basin = b ∧ m.target = st then m.runs.flatMap (fun p => p.runs) else [])) ++
  (s.hbm.leaving.flatMap (fun l => if l.basin = b ∧ l.stack = st then l.runs else [])) ++
  (s.hbm.remaps.filterMap (fun m => if m.basin = b ∧ m.toStack = st then some m.toRun else none))

/-- Pseudo-channels of a stack whose pages have been retired: both redundant lanes were in use at a further lasting fault (R369). -/
def Stack.deadPcs (st : Stack) : List Nat := (st.lanes.filter (fun p => decide (3 ≤ p.2))).map Prod.fst

/-- Does a run, or plain page, lie in part in a fenced row or a retired pseudo-channel (R368, R369)? A plain page lies in all of them. -/
def Stack.badRun (st : Stack) (spouting : Bool) (r : Nat) : Bool :=
  if spouting then st.deadPcs.contains (r % 16) || st.fenced.any (fun k => rowRun (k % 16) (k / 16 % 16) (k / 256) == r)
  else !st.deadPcs.isEmpty || st.fenced.any (fun k => r / 4 == k / 256)

/-- The first `n` runs, or plain pages, of the granules `gs` of a stack, from `start` on, that are not in use, hold no failed row and, in
a spouting stack, are not sealed (R341, R368). -/
def State.openIn (s : State) (gs : List Nat) (b st start n : Nat) : List Nat :=
  let k := s.stack (stackKey b (st % 2) (st / 2))
  let used := s.usedRuns b st
  let more := if k.deadPcs.isEmpty then 4 * k.fenced.length else stackRuns st
  let all :=
    if 2 ≤ st ∧ k.sealAll = true then
      (k.sealEx.rotateLeft (start % max 1 k.sealEx.length)).filter (fun r => gs.contains (runGranule r))
    else (List.range (min (16384 * gs.length) (n + used.length + k.sealEx.length + more))).map (fun j =>
      let m := (start + j) % (16384 * gs.length)
      16384 * gs.getD (m / 16384) 0 + m % 16384)
  (all.filter (fun r => !used.contains r && !k.badRun (decide (2 ≤ st)) r && !(decide (2 ≤ st) && k.runSealed r))).take n

/-- The same in a whole stack. -/
def State.openRuns (s : State) (b st start n : Nat) : List Nat := s.openIn (List.range (granulesOf st)) b st start n

/-- The slice of an index. -/
def State.sliceOf (s : State) (i : Nat) : Nat := ((s.index? i).map (fun x => x.desc.slice)).getD 0

/-- A block array gets `n` runs, or plain pages, of its slice's granules in its stack that are free and, in a spouting one, unsealed, or
of others where such are too few; where they begin is open (R352, R449). -/
def State.placeArr (s : State) (i h : Nat) (a : BlkArr) (n : Nat) : State :=
  let f := s.takeFree 19
  let start := f.1.toNat % stackRuns a.stack
  let own := f.2.openIn (s.slices.keptIn (s.sliceOf i) a.basin a.stack) a.basin a.stack start n
  let best := if own.length = n then own else f.2.openRuns a.basin a.stack start n
  let used := f.2.usedRuns a.basin a.stack
  let any := ((List.range (n + used.length)).map (fun j => (start + j) % stackRuns a.stack)).filter (fun r => !used.contains r)
  let rs := if best.length = n then best else any.take n
  { f.2 with hbm := { f.2.hbm with
      places := f.2.hbm.places.filter (fun p => !(p.idx == i && p.h == h)) ++ [⟨i, h, rs⟩] } }

/-- The block arrays that an index has come to hold get their runs, or plain pages (R339). -/
def State.placeNew (s : State) (i : Nat) (old : Option Index) (new : Index) : State :=
  (newArrs old new).foldl (fun (t : State) p => t.placeArr i p.1 p.2 (p.2.span new.desc.width)) s

/-- Deal a list of runs out to block arrays by the number that each takes. -/
def dealRuns (i : Nat) : List (Nat × Nat) → List Nat → List Placed
  | [], _ => []
  | (h, n) :: l, rs => ⟨i, h, rs.take n⟩ :: dealRuns i l (rs.drop n)

/-- Step 1 of a migration: places in the target for the list's block arrays; where free ones begin is open (R341). None when there
are too few. -/
def State.placeList (s : State) (i slot b target : Nat) (x : Index) : Option (List Placed) × State :=
  let f := s.takeFree 19
  let need := (x.listArrs b slot).filterMap (fun h => (Store.find? x.arrs h).map (fun a => (h, a.span x.desc.width)))
  let n := sumNat (need.map Prod.snd)
  let rs := f.2.openIn (s.slices.keptIn x.desc.slice b target) b target (f.1.toNat % stackRuns target) n
  (if rs.length = n then some (dealRuns i need rs) else none, f.2)

/-- Begin the migration of a list if it may: fewer than MAX_ACTIVE run in the Basin, its slice has room in the target stack, and a
spouting target keeps FLOOR_GIB free. A list that is no longer where it was chosen has nothing to move. The flag says that the wish
is done with (R340, R341). -/
def State.startMig (s : State) (w : MigWish) : State × Bool :=
  match s.index? w.idx with
  | none => (s, true)
  | some x =>
    let t := x.slotAt x.cur w.slot
    match x.listStack w.basin w.slot with
    | none => (s, true)
    | some st =>
      if t.st ≠ .live ∨ t.basin ≠ w.basin ∨ decide (2 ≤ st) = w.up ∨ s.hbm.migs.any (fun g => g.idx == w.idx && g.slot == w.slot) then
        (s, true)
      else
        let target := s.freerStack w.basin (if w.up then 2 else 0)
        let bytes := x.listBytes w.basin w.slot
        let floor := if w.up then s.regF Reg.SPOUT_MIG_CFG 40 4 * gib else 0
        if s.regF Reg.SPOUT_MIG_CFG 44 4 ≤ (s.hbm.migs.filter (fun g => g.basin == w.basin)).length ∨
            s.stackLeft w.basin target < bytes + floor ∨
            s.stackFree x.desc.slice (s.entry x.desc.slice) w.basin target < bytes then (s, false)
        else
          match s.placeList w.idx w.slot w.basin target x with
          | (some ps, s1) =>
            ({ s1 with hbm := { s1.hbm with migs := s1.hbm.migs ++ [⟨w.idx, w.slot, w.basin, target, w.up, ps⟩] } }, true)
          | (none, s1) => (s1, false)

/-- A list is chosen: its migration begins, or waits for one to end. -/
def State.wish (s : State) (w : MigWish) : State :=
  if s.hbm.wishes.contains w then s
  else
    let r := s.startMig w
    if r.2 then r.1 else { r.1 with hbm := { r.1.hbm with wishes := r.1.hbm.wishes ++ [w] } }

/-- The chosen lists that wait are tried again in their order. -/
def State.pumpMigs (s : State) : State :=
  let ws := s.hbm.wishes
  ws.foldl State.wish { s with hbm := { s.hbm with wishes := [] } }

/-- MIGRATION_INTERVAL: with EN, lists move up by falling thin share when the freer spouting stack keeps FLOOR_GIB
free; for one that does not fit, the lists of that stack with a low thin share move down first; then lists move down
by share. The counts are then reset (R340). -/
def execMigrationInterval (basin : Fin 2) (s : State) : Res :=
  let up := s.regF Reg.SPOUT_MIG_CFG 8 8
  let down := s.regF Reg.SPOUT_MIG_CFG 16 8
  let lists := s.migLists basin
  let downs := sortBy MigList.shareKeyUp (lists.filter (fun m => decide (m.stack ≥ 2) && m.atMost down))
  let goDown := fun (t : State) (m : MigList) => t.wish ⟨m.idx, m.slot, basin, false⟩
  let s0 := { s with hbm := { s.hbm with wishes := s.hbm.wishes.filter (fun w => w.basin != basin.val) } }
  let s1 :=
    if s.regF Reg.SPOUT_MIG_CFG 0 1 = 1 ∧ s.basinUp basin then
      let ups := sortBy MigList.shareKey (lists.filter (fun m => decide (m.stack < 2) && m.atLeast up))
      let t1 := ups.foldl (fun (t : State) m =>
        let target := t.freerStack basin 2
        let fits := decide (m.bytes + s.regF Reg.SPOUT_MIG_CFG 40 4 * gib ≤ t.stackLeft basin target)
        let t0 := if fits then t else (downs.filter (fun d => d.stack == target)).foldl goDown t
        t0.wish ⟨m.idx, m.slot, basin, true⟩) s0
      downs.foldl goDown t1
    else s0
  .next { s1 with hbm := { s1.hbm with counts := s1.hbm.counts.filter (fun c =>
    match s1.index? c.idx with | some x => decide ((x.slotAt x.cur c.slot).basin ≠ basin.val) | none => false) } }

/-- The requests whose dispatched scans read a list (R341). -/
def State.scansOf (s : State) (i slot : Nat) (x : Index) : List Nat :=
  (s.reqs.filter (fun p => decide (p.2.life = .running) && decide (p.2.hdr.index.toNat = i) && opUsesIndex p.2.op &&
    (p.2.phase == .scan || p.2.phase == .wscan) && (p.2.scanSlots x).any (fun q => q.2 == slot) &&
    !s.windows.any (fun w => w.idx == i && w.slot == slot && w.members.any (fun m => m.1 == p.1)))).map Prod.fst

/-- Step 4 of a migration: the translation of every page of the list switches in one step, and the source pages stay for the scans
that read them (R341). -/
def State.switchList (s : State) (m : Migration) (x : Index) : State :=
  let hs := x.listArrs m.basin m.slot
  let old := hs.flatMap (s.runsOf m.idx)
  let rids := s.scansOf m.idx m.slot x
  let src := (x.listStack m.basin m.slot).getD m.target
  let x1 : Index := { x with arrs := x.arrs.map (fun (p : Nat × BlkArr) =>
    if hs.contains p.1 then (p.1, { p.2 with stack := m.target }) else p) }
  let here := fun (p : Placed) => p.idx == m.idx && hs.contains p.h
  let s1 : State := { s with hbm := { s.hbm with
    migs := s.hbm.migs.filter (· != m)
    places := s.hbm.places.filter (fun p => !here p) ++ m.runs
    leaving := if rids.isEmpty then s.hbm.leaving
      else s.hbm.leaving ++ [(⟨m.idx, m.slot, m.basin, src, x.listBytes m.basin m.slot, old, rids⟩ : Leaving)] } }
  ((s1.setIndex m.idx x1).sealNew false m.idx (some x) x1).bumpSat Reg.SPOUT_CNT_MIGRATE (if m.up then 0 else 16) 16 1

/-- MIGRATION_COPY_DONE: the copy equals the source and the list's translation switches; a copy that differs abandons the migration
(R341, R342). Chosen lists that waited for room are then tried (R340). -/
def execMigrationCopyDone (idx : Fin 32) (slot : Nat) (same : Bool) (s : State) : Res :=
  match s.hbm.migs.find? (fun m => m.idx == idx.val && m.slot == slot), s.index? idx with
  | some m, some x => .next (if same then s.switchList m x else s.abandonMigs (· == m)).pumpMigs
  | _, _ => .next s

end Sys2Proof.Machine
end

