-- ==== Sys2Proof/Machine/Tier.lean ====
section
/-! DEFINITION. The meanings of the memory-range commands (chapter "One memory range over three tiers"). -/

namespace Sys2Proof.Machine

/-- A demoted block array comes back as its image unpacks, where its bytes could be read: to a stack of the kind it had, or of the other
kind when that has no room (R124, R355, R360). -/
def State.promote (s : State) (i h : Nat) (img : Option (List Byte)) : State :=
  match s.index? i with
  | none => s
  | some x =>
    match Store.find? x.arrs h with
    | none => s
    | some a =>
      let w := x.desc.width
      let b := { a with
        stack := (s.placingAs x.desc.slice (s.entry x.desc.slice) (decide (2 ≤ a.stack))).pick a.basin (a.bytes w)
        ents := match img with
          | some bs => (imageBlocks bs).flatMap (fun u => u.1.ents)
          | none => a.ents }
      let s0 := { s with mem := { s.mem with demoted := s.mem.demoted.filter (· != (i, h)) } }
      let s1 := (s0.setIndex i { x with arrs := Store.insert x.arrs h b }).placeArr i h b (b.span w)
      (s1.sealArray false i h b).bump Reg.MEM_CNT_MOVE 32 32 (b.span w)

/-- Does the phase that named a page still run? -/
def State.stillNames (s : State) (n : Named) : Bool :=
  match n.waiter with
  | .req rid => match s.req? rid with
    | some r => r.life == .running && r.phase == n.phase
    | none => false
  | .part pid => (Store.find? s.partsIn pid).isSome
  | .dip _ => false

/-- Pages are noted as named by a phase, and those of phases that have ended are forgotten. -/
def State.noteNamed (s : State) (w : Waiter) (lpns : List Nat) : State :=
  let ph := match w with
    | .req rid => match s.req? rid with
      | some r => r.phase
      | none => .check
    | _ => .check
  { s with mem := { s.mem with
      named := s.mem.named.filter s.stillNames ++ lpns.map (fun l => (⟨w, ph, l⟩ : Named)) } }

/-- Is a line pinned: it is dirty, or a dispatched phase names its page (R356)? -/
def State.linePinned (s : State) (lpn : Nat) : Bool :=
  (Store.find? s.mem.dirty lpn).isSome || s.mem.named.any (fun n => n.lpn == lpn && s.stillNames n)

/-- Lines of a slice's row cache in a Basin. -/
def State.cacheCap (s : State) (slice basin : Nat) : Nat :=
  s.rowCacheGib slice (s.entry slice) basin * 262144

/-- Bring a page into a row cache. -/
def State.cacheFill (s : State) (slice basin lpn : Nat) : State :=
  let k := 2 * slice + basin
  let l := Store.get (fun _ => []) s.mem.cache k
  { s with mem := { s.mem with
      cache := Store.put (fun _ => []) s.mem.cache k (clockInsert s.linePinned (s.cacheCap slice basin) l lpn) } }

/-- The Basin a page is cached in for a slice (R356): by page parity when the slice holds HBM in both, and while that
Basin is in a domain restart the other one. -/
def State.cacheBasin (s : State) (slice lpn : Nat) : Nat :=
  let e := s.entry slice
  let b := match e.basins with
    | [b] => b
    | _ => lpn % 2
  if (s.basin b).state = 1 then 1 - b else b

/-- The Basin of a line that holds a page for a slice and can be reached: the Basin it is cached in first, and then the other, in which a
domain restart may have left it (R356). -/
def State.lineBasin (s : State) (slice lpn : Nat) : Option Nat :=
  let h := s.cacheBasin slice lpn
  [h, 1 - h].find? (fun b => (s.basin b).state != 1 &&
    (Store.get (fun _ => []) s.mem.cache (2 * slice + b)).any (fun l => l.lpn == lpn))

/-- Has a dirty page a copy in a Basin that can be reached (R356, R370)? -/
def State.dirtyReach (s : State) (d : Dirty) : Bool := d.copies.any (fun c => (s.basin c.basin).state != 1)

/-- Is a page resident: a dirty copy that can be reached, or a line of a clean page in a Basin that can be reached (R356, R357)? -/
def State.resident (s : State) (slice lpn : Nat) : Bool :=
  match Store.find? s.mem.dirty lpn with
  | some d => s.dirtyReach d
  | none => (s.lineBasin slice lpn).isSome

/-- A page has a Cistern home or a dirty copy, so that there is something to read. -/
def State.written (s : State) (lpn : Nat) : Bool :=
  (Store.find? s.mem.dirty lpn).isSome || (Store.find? s.cist.map lpn).isSome

/-- A lower-tier read begins, or a waiter joins the one in progress (R356). Map pages that it needs and that are not cached are read
first (R387). -/
def State.startRead (s : State) (t : Target) (w : Waiter) (slice basin : Nat) : State :=
  if s.mem.reads.any (fun r => r.target == t) then
    s.withReads (s.mem.reads.map (fun (r : LtRead) =>
      if r.target = t ∧ ¬ r.waiters.contains w then { r with waiters := r.waiters ++ [w] } else r))
  else
    let ms := ((s.pagesOf t).map mapLpn).dedup
    let cold := ms.filter (fun m => !s.cist.mapCached m && (Store.find? s.cist.dirTab m).isSome)
    let s1 := (ms.filter (fun m => !cold.contains m)).foldl State.mapLine s
    let s2 := cold.foldl (fun (u : State) m => u.readMap slice basin m) s1
    let r : LtRead := ⟨t, [w], slice, basin, s.tick, false, 0, false, cold, [], false, false⟩
    (s2.withReads (s2.mem.reads ++ [if cold.isEmpty then s2.issueRead r else r])).bump Reg.MEM_CNT_MISS 0 64 1

/-- A page with no translation, or one whose copies all lie in the restarting Basin `via`, is an error of whatever names it: a fault of
the phase, or a Dipper's ERR (R350, R370, R480, R509). -/
def State.nameError (s : State) (w : Waiter) (via : Option (Fin 2)) : State :=
  match w with
  | .req rid => s.phaseFault rid ⟨0, 0, 0, via⟩ false
  | .part pid => s.phaseFault pid ⟨0, 0, 0, via⟩ false
  | .dip f =>
    let h := s.fn f
    s.setFn f { h with dip := { h.dip with err := true, errCode := stBadDescriptor, filling := false } }

/-- A phase names a page: a hit is counted, a miss starts one lower-tier read or joins the one in progress (R356). -/
def State.namePage (s : State) (slice lpn : Nat) (w : Waiter) : State :=
  if s.resident slice lpn then
    (s.bump Reg.MEM_CNT_HIT 0 64 1).cacheFill slice ((s.lineBasin slice lpn).getD (s.cacheBasin slice lpn)) lpn
  else if (Store.find? s.mem.dirty lpn).isSome then s.nameError w (some (if (s.basin 0).state = 1 then 0 else 1))
  else if !s.written lpn then s.nameError w none
  else s.startRead (.page lpn) w slice (s.cacheBasin slice lpn)

/-- Is a page on the lost-page list (R362)? -/
def State.pageLost (s : State) (lpn : Nat) : Bool := s.mem.lost.contains lpn

/-- A scan names a block array: a demoted one is promoted first; one of which a page is lost, in HBM or of the image of a demoted one,
ends the waiter with TIER_FAILED (R355, R362). -/
def State.nameArray (s : State) (i h : Nat) (w : Waiter) : State :=
  let out := s.mem.demoted.contains (i, h)
  if s.mem.lostArrs.contains (i, h) ∨ (out ∧ (s.pagesOf (.array i h)).any s.pageLost) then s.tierFail w
  else if !out then s
  else match s.index? i with
    | some x => s.startRead (.array i h) w x.desc.slice ((Store.find? x.arrs h).map BlkArr.basin |>.getD 0)
    | none => s

/-- A scan names the lists it reads: their demoted block arrays are promoted first (R355), and an array or a page of the slot table
that is lost ends it with TIER_FAILED (R362, Table 13-4). -/
def State.nameLists (s : State) (rid : Nat) : State :=
  match s.req? rid with
  | none => s
  | some r =>
    let i := r.hdr.index.toNat
    match s.index? i with
    | none => s
    | some x => (r.scanSlots x).foldl (fun (t : State) p =>
        if t.mem.lostTabs.contains (i, 1, p.2 / 64) then t.tierFail (.req rid)
        else (viewArrs (x.view r.epoch p.2)).foldl (fun (u : State) h => u.nameArray i h (.req rid)) t) s

/-- Where the two copies of a written page go (R357): to the two Basins when the slice holds HBM in both and neither is in a domain
restart, else to the two controller complexes of one. -/
def State.copyPlaces (s : State) (slice : Nat) : List (Nat × Nat) :=
  let bs := (s.entry slice).basins
  let up := bs.filter (fun b => (s.basin b).state != 1)
  match (if up.isEmpty then bs else up) with
  | [] => [(0, 0), (0, 1)]
  | [b] => [(b, 0), (b, 1)]
  | b :: c :: _ => [(b, 0), (c, 0)]

/-- The copies of a dirty page that a write does not replace: those in a Basin in a domain restart, which keep their stamps until the
Basin's stacks leave self-refresh (R371). -/
def State.staleCopies (s : State) (lpn : Nat) : List PageCopy :=
  match Store.find? s.mem.dirty lpn with
  | some d => d.copies.filter (fun c => (s.basin c.basin).state == 1)
  | none => []

/-- A write to a flash-homed page: two copies in HBM with a fresh stamp, a line that stays until it is clean, and its
codeword queued for its stream (R357, R383). -/
def State.writePage (s : State) (slice lpn : Nat) : State :=
  let stamp := s.mem.stamp + 1
  let new := (s.copyPlaces slice).map (fun p => (⟨p.1, p.2, stamp⟩ : PageCopy))
  let old := (s.staleCopies lpn).filter (fun c => !new.any (fun d => d.basin == c.basin && d.complex == c.complex))
  let s1 := { s with mem := { s.mem with stamp := stamp, dirty := Store.insert s.mem.dirty lpn ⟨new ++ old⟩ } }
  let s2 := s1.cacheFill slice (s1.cacheBasin slice lpn) lpn
  { s2 with cist := s2.cist.queue s2.tick (streamOf lpn) (s2.pageWord lpn stamp) }

/-- The greatest write stamp of a page's copies. -/
def Dirty.stamp (d : Dirty) : U64 := BitVec.ofNat 64 (d.copies.foldl (fun n c => max n c.stamp.toNat) 0)

/-- Dirty bytes of a slice (R358). -/
def State.dirtyBytes (s : State) (slice : Nat) : Nat :=
  4096 * (s.mem.dirty.filter (fun d =>
    match s.index? (lpnIndex d.1) with | some x => x.desc.slice == slice | none => false)).length

/-- A relocated block set of which no codeword is left to switch is done: its group is marked for priority reclaim (R390 step 3). -/
def State.endRewrite (s : State) (b : Nat × Nat × Nat) : State :=
  let due := fun (w : Cword) => !w.settled && (match w.old with | some o => ppaSet o == b | none => false)
  if s.cist.rows.any (fun r => r.words.any due) || s.cist.waiting.any (fun p => due p.2) || !s.cist.sched.contains b then s
  else
    let c := s.cist.prioritise b
    { s with cist := { c with sched := c.sched.filter (· != b) } }

/-- Schedule a rewrite of the block set of a PPA, once (R389): its valid codewords go to stream 4. -/
def State.scheduleRewrite (s : State) (ppa : Nat) : State :=
  let b := ppaSet ppa
  if s.cist.sched.contains b ∨ (s.cist.groupOf b).isNone then s
  else
    let s1 : State := { s with cist := { s.cist with sched := s.cist.sched ++ [b] } }
    ((s1.relocate b).endRewrite b).bumpSat Reg.CIST_CNT_RELOC 48 16 1

/-- The read of a target in progress. -/
def State.readOf (s : State) (t : Target) : Option LtRead := s.mem.reads.find? (fun r => r.target == t)

/-- The read without its record. -/
def State.dropRead (s : State) (t : Target) : State :=
  { s with mem := { s.mem with reads := s.mem.reads.filter (fun r => r.target != t) } }

/-- The target an operand names. -/
def targetOf : LtTarget → Target
  | .page l => .page l
  | .array i h => .array i h

/-- The first LPN a target is stored in. -/
def State.targetLpn (s : State) (t : Target) : Nat := ((s.pagesOf t).head?).getD 0

/-- CIST_INJECT of the LUN of an address. -/
def injectOf (ppa : Nat) : Nat := instKey Reg.CIST_INJECT (lunKey (ppaSet ppa).1 (ppaSet ppa).2.1)

/-- Is the next read of a LUN that a lower-tier read reads from to fail (CIST_INJECT.UE)? -/
def State.ueArmed (s : State) (r : LtRead) : Bool := r.ppas.any (fun p => bit (s.reg (injectOf p)) 0)

/-- A map page has been read: reads that waited for it alone are issued, and trims that waited go on (R387). -/
def State.mapRead (s : State) (m : Nat) : State :=
  let s1 := s.mapLine m
  State.trimWaiting (s1.withReads (s1.mem.reads.map (fun (r : LtRead) =>
    if r.maps.contains m then
      let q := { r with maps := r.maps.filter (· != m) }
      if q.maps.isEmpty then s1.issueRead q else q
    else r)))

/-- Both copies of a map page have failed: every page it maps is lost, and counted, what waits for it ends with TIER_FAILED, and the map
page starts again with no entry (R362, R388). -/
def State.mapLost (s : State) (m : Nat) : State :=
  let es := s.cist.map.filter (fun e => mapLpn e.1 == m)
  let s1 := es.foldl (fun (u : State) e => (u.losePage e.1).bumpSat Reg.CIST_ERR_C 0 32 1) s
  let hit := s1.mem.reads.filter (fun r => r.maps.contains m)
  let s2 := (s1.withReads (s1.mem.reads.filter (fun r => !r.maps.contains m))).withCist { s1.cist with
    map := s1.cist.map.filter (fun e => mapLpn e.1 != m)
    dirTab := Store.erase s1.cist.dirTab m }
  (hit.flatMap LtRead.waiters).foldl (fun (u : State) w => u.tierFail w) s2

/-- The greatest stamp among the copies whose check bits read clean. Whether those of a copy do is a free value (R371; DESIGN CHOICE,
log 195). -/
def State.cleanStamp (s : State) : List PageCopy → Option U64 × State
  | [] => (none, s)
  | c :: cs =>
    let f := s.takeFree 1
    let r := f.2.cleanStamp cs
    (if f.1 = 0 then r.1
     else some (match r.1 with
      | some v => if v.toNat < c.stamp.toNat then c.stamp else v
      | none => c.stamp), r.2)

/-- The copies of a dirty line are compared at self-refresh exit of Basin `b`: where they differ, the one with the greatest stamp whose
check bits read clean is written over the others; none when no copy reads clean (R371). -/
def State.compareLine (s : State) (b : Nat) (d : Dirty) : Option Dirty × State :=
  if d.copies.any (fun c => c.basin == b) && d.copies.any (fun c => c.stamp != d.stamp) then
    let r := s.cleanStamp d.copies
    (r.1.map (fun v => ⟨d.copies.map (fun c => { c with stamp := v })⟩), r.2)
  else (some d, s)

/-- The copies of a dirty page are compared. A page of which no copy reads clean is lost (R362). -/
def State.comparePage (s : State) (b : Nat) (p : Nat × Dirty) : State :=
  match s.compareLine b p.2 with
  | (some d, s1) => { s1 with mem := { s1.mem with dirty := Store.insert s1.mem.dirty p.1 d } }
  | (none, s1) => ({ s1 with mem := { s1.mem with dirty := Store.erase s1.mem.dirty p.1 } } : State).losePage p.1

/-- The copies of a dirty line of the map cache are compared. -/
def State.compareMap (s : State) (b : Nat) (p : Nat × Dirty) : State :=
  match s.compareLine b p.2 with
  | (some d, s1) => s1.withCist { s1.cist with mapDirty := Store.insert s1.cist.mapDirty p.1 d }
  | (none, s1) => (s1.withCist { s1.cist with mapDirty := Store.erase s1.cist.mapDirty p.1 }).mapLost p.1

/-- At self-refresh exit of Basin `b` the copies of every dirty line are compared (R371, R387). -/
def State.compareCopies (s : State) (b : Nat) : State :=
  s.cist.mapDirty.foldl (fun (t : State) p => t.compareMap b p) (s.mem.dirty.foldl (fun (t : State) p => t.comparePage b p) s)

/-- A lower-tier read has failed: of a map page, copy 1 is read after copy 0; of any other target the pages are lost and every waiter
ends with TIER_FAILED (R362, R387). -/
def State.readFailed (s : State) (r : LtRead) : State :=
  let m := s.targetLpn r.target
  if lpnSpace m = 2 then
    if r.second then (s.dropRead r.target).mapLost m
    else
      (s.withReads (s.mem.reads.map (fun (q : LtRead) =>
        if q.target = r.target then
          s.issueRead { q with
            around := false
            failed := 0
            aroundFailed := false
            second := true }
        else q))).bump Reg.CIST_MAPCACHE_STATUS 32 32 1
  else r.waiters.foldl (fun (u : State) w => u.tierFail w) ((s.dropRead r.target).losePage m)

/-- May a copy of a read come now? A read whose map page is still to be read has not been issued (R387); a step of the decode ladder
comes after those before it have failed, and a copy from the stripe once the read-around has started (R361, R381). The primary that
MEM_INJECT.SLOW withholds comes after the read-around has started (Table 13-6). -/
def LtRead.mayCome (r : LtRead) (copy : LtCopy) : Bool :=
  r.maps.isEmpty &&
  match copy with
  | .primary => r.failed == 0 && (!r.slow || r.around)
  | .retry => r.failed == 1
  | .soft => r.failed == 2
  | .around => r.around && !r.aroundFailed

/-- A read of which a copy has failed. A profile with no read-retry level leaves step 2 nothing to read (R381). -/
def LtRead.fails (r : LtRead) (levels : Nat) (copy : LtCopy) : LtRead :=
  match copy with
  | .primary => { r with failed := if levels = 0 then 2 else 1 }
  | .retry => { r with failed := 2 }
  | .soft => { r with failed := 3 }
  | .around => { r with aroundFailed := true }

/-- The codeword that a copy of a read gives at an address, where the media hold it: the one that stands there, or the exclusive-or of
the rest of its stripe (R361). -/
def State.copyWord (s : State) (copy : LtCopy) (ppa : Nat) : Option (List Byte) :=
  if copy ≠ .around then Store.find? s.cist.media ppa
  else if (s.cist.groupOf (ppaSet ppa)).any (fun g => g.2.members.all (fun m =>
      m == ppaSet ppa || (Store.find? s.cist.media (mkPpa m.1 m.2.1 m.2.2 (ppa / 16384 % 4) (ppa / 4 % 4096) (ppa % 4))).isSome)) then
    some (s.cist.fromStripe ppa)
  else none

/-- The user bytes that a copy of a read gives of all its pages, where the media hold them. -/
def State.copyBytes (s : State) (r : LtRead) (copy : LtCopy) : Option (List Byte) :=
  let ws := r.ppas.filterMap (s.copyWord copy)
  if ws.isEmpty ∨ ws.length ≠ r.ppas.length then none else some (ws.flatMap (fun w => w.take 4096))

/-- Is a copy that was decoded what the read is for: no codeword of it is misdirected (R380), and the array that a packed image unpacks
to matches its CRC (R360)? The metadata of a codeword formed from its stripe are not its own and are not looked at. -/
def State.copyGood (s : State) (r : LtRead) (copy : LtCopy) : Bool :=
  (copy == .around || (List.zip (s.pagesOf r.target) r.ppas).all (fun p =>
    match Store.find? s.cist.media p.2 with
    | some w => !s.cist.misdirected (some p.1) w
    | none => true)) &&
  (match r.target with
    | .page _ => true
    | .array i _ => (match s.index? i, s.copyBytes r copy with
      | some x, some bs => x.imageGood bs
      | _, _ => true))

/-- LOWER_TIER_READ_DONE: the first good copy becomes resident and serves every waiter; a copy that arrives later is discarded, and so
is one that cannot come yet. When every step of the ladder and the read-around have failed, the page is lost and every waiter ends with
TIER_FAILED (R361, R362, R381). A copy that is misdirected or does not match its CRC has failed (R360, R380). A page formed from its
stripe is counted and its block set scheduled for rewrite (R389). A page whose Basin is in a domain restart becomes resident in the
other one (R356). -/
def execLowerTierReadDone (target : LtTarget) (copy : LtCopy) (good : Bool) (s : State) : Res :=
  let t := targetOf target
  match s.readOf t with
  | none => .next s
  | some r =>
    if r.mayCome copy = false then .next s
    else if good ∧ s.copyGood r copy ∧ ¬ (copy ≠ .around ∧ s.ueArmed r) then
      let s0 := s.dropRead t
      let s1 := match t with
        | .page l =>
          if lpnSpace l = 2 then s0.mapRead l
          else s0.cacheFill r.slice (if (s.basin r.basin).state = 1 then 1 - r.basin else r.basin) l
        | .array i h => s0.promote i h (s.copyBytes r copy)
      let s2 := if copy = .around then
          r.ppas.foldl State.scheduleRewrite (s1.bumpSat Reg.CIST_ERR_B 32 32 1)
        else s1
      .next (r.waiters.foldl (fun (u : State) w => u.wake w) s2)
    else
      let r' := r.fails s.cist.retry copy
      if r'.failed = 3 ∧ r'.aroundFailed then .next (s.readFailed r)
      else
        .next (s.withReads (s.mem.reads.map (fun (q : LtRead) => if q.target = t then r' else q)))

/-- Does a LUN that a lower-tier read reads from fail, or is it being retired, or in a timeout or a retrain (R361, R392)? -/
def State.lunFails (s : State) (r : LtRead) : Bool :=
  r.ppas.isEmpty || r.ppas.any (fun p =>
    let b := ppaSet p
    let l := s.lun (lunKey b.1 b.2.1)
    l.state != 1 || l.timedOut || s.cist.retrain.contains b.1 || s.cist.rebuild.contains (b.1, b.2.1))

/-- May the read-around of a read start: LATE_US µs of the Headworks clock have passed, the primary is uncorrectable, or its LUN has
failed (R361)? -/
def State.aroundDue (s : State) (r : LtRead) : Bool :=
  r.maps.isEmpty &&
    (decide (r.since.toNat + 100 * s.regF Reg.MEM_CFG 0 16 ≤ s.tick.toNat) || decide (1 ≤ r.failed) || s.lunFails r)

/-- READ_AROUND_START: the stripe is read around the page, once for a read and when R361 says so; it clears the MEM_INJECT.SLOW that
withheld the primary and the CIST_INJECT.UE that made it fail (Tables 13-6 and 14-9). -/
def execReadAroundStart (target : LtTarget) (s : State) : Res :=
  let t := targetOf target
  match s.readOf t with
  | none => .next s
  | some r =>
    if r.around ∨ s.aroundDue r = false then .next s
    else
      let s1 := s.withReads (s.mem.reads.map (fun (q : LtRead) => if q.target = t then { r with around := true } else q))
      let s0 := s1.bump Reg.MEM_CNT_AROUND 0 64 1
      let s2 := if r.slow then s0.setRegF Reg.MEM_INJECT 0 1 0 else s0
      .next (if 1 ≤ r.failed then r.ppas.foldl (fun (u : State) p => u.setRegF (injectOf p) 0 1 0) s2 else s2)

/-- Is a block array named by no slot-table version that C or U sees, and by no scan that runs (R354)? -/
def State.superseded (s : State) (i : Nat) (x : Index) (h : Nat) : Bool :=
  let names := fun (e : Epoch) =>
    (Store.keys x.slots).any (fun k => let t := x.slotAt e k; t.main == h || t.chain.contains h)
  !names x.cur && !names x.u &&
    !s.reqs.any (fun p => p.2.hdr.index.toNat == i && p.2.life == .running &&
      (p.2.phase == .scan || p.2.phase == .wscan) && names p.2.epoch)

/-- DEMOTION: while the slice's free HBM in the Basin is below DEMOTE_FLOOR_GIB, backed block arrays that are
superseded leave HBM with the pages that hold them alone, the oldest stamp first, until the floor is met (R339, R354). -/
def execDemotion (slice : Fin 16) (basin : Fin 2) (s : State) : Res :=
  let floor := s.regF Reg.MEM_CFG 32 8 * gib
  let freeOf := fun (t : State) =>
    let e := t.entry slice
    t.sliceFree slice e basin 0 + t.sliceFree slice e basin 1
  if s.regF Reg.MEM_CFG 24 1 = 0 then .next s
  else
    let cands := s.indexes.flatMap (fun q =>
      if q.2.desc.slice = slice.val then
        q.2.arrs.filterMap (fun a =>
          if a.2.basin = basin.val ∧ s.isBacked q.1 a.1 ∧ ¬ s.mem.demoted.contains (q.1, a.1) ∧
              s.superseded q.1 q.2 a.1 then
            some (q.1, a.1, epochDist q.2.u a.2.stamp, a.2.bytes q.2.desc.width)
          else none)
      else [])
    let ordered := sortBy (fun c => c.2.2.1) cands
    .next (ordered.foldl (fun (t : State) c =>
      if freeOf t < floor then
        ({ t with
          mem := { t.mem with demoted := t.mem.demoted ++ [(c.1, c.2.1)] }
          hbm := { t.hbm with places := t.hbm.places.filter (fun p => !(p.idx == c.1 && p.h == c.2.1)) } } : State).bump
          Reg.MEM_CNT_MOVE 0 32 ((c.2.2.2 + 65535) / 65536)
      else t) s)

/-- The waiters whose room has come: requests that wait for dirty room try again (R358). -/
def State.roomWaiters (s : State) : List Nat := (s.reqs.filter (fun p => p.2.life == .waitRoom)).map Prod.fst

/-- A map page is clean when both copies are programmed: the directory names them, and map updates and trims that waited go on (R386,
R387). -/
def State.mapClean (s : State) (m : Nat) : State :=
  match s.cist.findWord m none false, s.cist.findWord m none true with
  | some (r, i), some (q, j) =>
    match s.cist.programmed r i, s.cist.programmed q j with
    | some p0, some p1 =>
      let c1 := s.cist.settleWord r i
      (match c1.findWord m none true with
        | some (q', j') =>
          let c2 := c1.settleWord q' j'
          (s.withCist { c2 with
            mapDirty := Store.erase c2.mapDirty m
            dirTab := Store.insert c2.dirTab m (p0, p1) }).trimWaiting
        | none => s)
    | _, _ => s
  | _, _ => s

/-- PAGE_CLEAN: once the program unit with the page and the parity unit of its stripe have completed, the page is
clean: its map entry changes, once its map page is cached, one HBM copy is dropped and writes that waited for room go on (R357, R358, R385, R388).
A map page is clean when both copies are programmed (R387). -/
def execPageClean (lpn : Nat) (s : State) : Res :=
  if lpnSpace lpn = 2 then .next (s.mapClean lpn)
  else
    match s.cist.findWord lpn none false with
    | some (r, i) =>
      match s.cist.programmed r i with
      | some p =>
        if s.mapHeld then .next s
        else if s.mapCold lpn then .next (s.readMapOf lpn)
        else
          let m := { s.mem with dirty := Store.erase s.mem.dirty lpn }
          let s1 : State := { s with cist := s.cist.settleWord r i, mem := m }
          let s2 := s1.mapSet lpn (some p)
          .next (s2.roomWaiters.foldl (fun (t : State) rid => t.wake (.req rid)) s2)
      | none => .next s
    | none => .next s

/-- Pages of backing images go to stream 2, all with the next write stamp (R353, R383). -/
def State.queueImages (s : State) (lpns : List Nat) : State :=
  let stamp := s.mem.stamp + 1
  { s with
    mem := { s.mem with stamp := stamp }
    cist := lpns.foldl (fun (c : Cistern) l => c.queue s.tick 2 (s.pageWord l stamp)) s.cist }

/-- The backing image of a block array whose content can no longer change: of a main array when it is built, of an inflow block once
its epoch has flipped (R353). -/
def State.backArray (s : State) (i h : Nat) (x : Index) : State :=
  match Store.find? x.arrs h with
  | some a =>
    let n := imagePages a x.desc.width
    if (s.imageOf i h).isSome ∨ (a.inflow ∧ a.stamp = x.u) ∨ !s.cistAccepts n then s
    else
      let b : ArrImage := ⟨i, h, imageLpn i s.mem.nextImage, n⟩
      ({ s with mem := { s.mem with
          backed := s.mem.backed ++ [b]
          nextImage := s.mem.nextImage + n } } : State).queueImages b.lpns
  | none => s

/-- The backing images of the table pages of an index whose epoch has flipped, stored unchanged (R353). -/
def State.backTables (s : State) (i : Nat) (x : Index) : State :=
  let have_ := (s.mem.tabs.filter (fun t => t.idx == i)).map (fun t => (t.table, t.page, t.stamp))
  let todo := x.tablePages.filter (fun p => p.2.2 != x.u && !have_.contains p)
  if !s.cistAccepts todo.length then s
  else
    let new := (List.range todo.length).filterMap (fun j => (todo[j]?).map (fun p =>
      (⟨i, p.1, p.2.1, p.2.2, imageLpn i (s.mem.nextImage + j)⟩ : TabImage)))
    ({ s with mem := { s.mem with
        tabs := s.mem.tabs ++ new
        nextImage := s.mem.nextImage + new.length } } : State).queueImages (new.map TabImage.lpn)

/-- BACKING_IMAGE_WRITE: content of a Basin pool that can no longer change is written to the Cistern: block arrays in packed form and
table pages unchanged (R353). -/
def execBackingImageWrite (idx : Fin 32) (what : BackTarget) (s : State) : Res :=
  .next (match s.index? idx with
    | some x => (match what with
      | .array h => s.backArray idx h x
      | .tables => s.backTables idx x)
    | none => s)

/-! ### HBM -/

/-- Number of a table in the lost-page list and among backing images. -/
def tableNum : PoolTable → Nat
  | .centroids => 0
  | .slots => 1
  | .graph => 2
  | .shards => 5

/-- Has a table page of an index a second copy (Table 13-4): the backing image of its newest version, or the other Basin's copy? -/
def State.tableCopy (s : State) (i : Nat) (x : Index) (t page : Nat) : Bool :=
  decide (1 < (s.entry x.desc.slice).basins.length) ||
  (match (x.tablePages.filter (fun p => decide (p.1 = t ∧ p.2.1 = page))).map (fun p => p.2.2) with
    | [] => true
    | vs => vs.all (fun v => s.mem.tabs.any (fun b =>
        b.idx == i && b.table == t && b.page == page && b.stamp == v && s.onMedia [b.lpn])))

/-- The state of a request or part is lost: it ends with STATE_LOST at the next boundary of a phase that runs, or at once (R66). A
request that has neither its descriptor nor retained output in the spill loses nothing there. -/
def State.loseState (s : State) (rid : Nat) : State :=
  match s.req? rid with
  | some r =>
    if r.spill = false ∧ r.work.items = 0 then s
    else if r.underWay then s.setReq rid { r with lost := true }
    else s.endWith rid stStateLost
  | none =>
    if (Store.find? s.partsIn rid).any (fun p => p.reply.isSome) then
      { s with partsIn := Store.adjust s.partsIn rid (fun p => { p with lost := true }) }
    else s.endWith rid stStateLost

/-- Content without a second copy is lost (Table 13-4). A mirror in the node region has its copy in the other controller complex. -/
def State.loseContent (s : State) (c : RowContent) : State :=
  match c with
  | .spill rid => s.loseState rid
  | .pool i h =>
    if s.isBacked i h ∨ s.mem.lostArrs.contains (i.val, h) then s
    else { s with mem := { s.mem with lostArrs := s.mem.lostArrs ++ [(i.val, h)] } }
  | .table i t page =>
    match s.index? i with
    | some x =>
      let k := (i.val, tableNum t, page)
      if s.tableCopy i x (tableNum t) page ∨ s.mem.lostTabs.contains k then s
      else { s with mem := { s.mem with lostTabs := s.mem.lostTabs ++ [k] } }
    | none => s
  | .dirtyLine l ok => if ok then s else s.losePage l
  | _ => s

/-- A row of a stack as its fields pack it. -/
def rowKey (r : DramRow) : Nat := r.pc + 16 * r.bank + 256 * r.row

/-- The runs, or 64 KiB pages, that a row of a stack holds bytes of (R317, R365). -/
def rowRuns (spouting : Bool) (r : DramRow) : List Nat :=
  if spouting then [rowRun r.pc r.bank r.row] else (List.range 4).map (fun j => 4 * r.row.val + j)

/-- The state with a block array moved off some runs of its stack: each such page to a free one of its slice there, which is written,
or the array as a whole to another stack when that has none (R336, R352, R368; DESIGN CHOICE, log 152). -/
def State.moveArr (s : State) (i h : Nat) (a : BlkArr) (bad : List Nat) : State :=
  let rs := s.runsOf i h
  let n := (rs.filter bad.contains).length
  let f := s.takeFree 19
  let own := s.slices.keptIn (s.sliceOf i) a.basin a.stack
  let fresh := (f.2.openIn own a.basin a.stack (f.1.toNat % stackRuns a.stack) (n + bad.length)).filter (fun r => !bad.contains r)
  if n ≤ fresh.length then
    let rs' := (List.range rs.length).map (fun j =>
      let r := rs.getD j 0
      if bad.contains r then fresh.getD ((rs.take j).filter bad.contains).length 0 else r)
    ({ f.2 with hbm := { f.2.hbm with
        places := f.2.hbm.places.filter (fun p => !(p.idx == i && p.h == h)) ++ [⟨i, h, rs'⟩] } } : State).sealRuns
      false a.basin a.stack (fresh.take n)
  else
    let other := 4 * (a.stack / 2) + 1 - a.stack
    match f.2.index? i with
    | some x =>
      let st := if a.bytes x.desc.width ≤ f.2.wholeStackFree a.basin other then other else f.2.freerStack a.basin (2 - 2 * (a.stack / 2))
      let b := { a with stack := st }
      ((f.2.setIndex i { x with arrs := Store.insert x.arrs h b }).placeArr i h b rs.length).sealArray false i h b
    | none => f.2

/-- The block arrays of a stack that have a page among `bad`, with their indexes. -/
def State.arrsOn (s : State) (n : StackName) (bad : List Nat) : List (Nat × Nat × BlkArr) :=
  s.indexes.flatMap (fun q => (q.2.arrs.filter (fun a =>
    a.2.basin == n.basin.val && a.2.stack == n.complex.val + 2 * b2n n.spouting && !s.mem.demoted.contains (q.1, a.1) &&
      (s.runsOf q.1 a.1).any bad.contains)).map (fun a => (q.1, a.1, a.2)))

/-- Where a page of a plain stack that holds no block array goes when it is retired: a free page of its own stack, or of another stack
of the Basin when that has none (R368). -/
def State.freeFrame (s : State) (b st : Nat) (bad : List Nat) : Option (Nat × Nat) :=
  ([st, 1 - st, 2, 3].filterMap (fun t =>
    ((s.openRuns b t 0 (bad.length + 1)).find? (fun r => t != st || !bad.contains r)).map (fun r => (t, r)))).head?

/-- The other pages of failed places of a plain stack move too: those of tables, pour replicas, cache lines and region 0, whose places
the model does not name (R352, R368; DESIGN CHOICE, log 152). -/
def State.moveFrames (s : State) (n : StackName) (bad : List Nat) : State :=
  let st := n.complex.val
  if n.spouting then s
  else
    let held := (s.arrsOn n bad).flatMap (fun a => s.runsOf a.1 a.2.1)
    (bad.filter (fun r => !held.contains r)).foldl (fun (t : State) r =>
      match t.freeFrame n.basin st bad with
      | some p => { t with hbm := { t.hbm with remaps := t.hbm.remaps ++ [⟨n.basin, st, r, p.1, p.2⟩] } }
      | none => t) s

/-- The pages of a stack that lie in `bad` move off it (R368). -/
def State.moveOff (s : State) (n : StackName) (bad : List Nat) : State :=
  (s.arrsOn n bad).foldl (fun (t : State) p => t.moveArr p.1 p.2.1 p.2.2 bad) (s.moveFrames n bad)

/-- The range pages of a failed row that has no repair row move, the row is fenced and they are counted (R368). -/
def State.retireRow (s : State) (n : StackName) (r : DramRow) (pages : Nat) : State :=
  let k := keyOfStack n
  let s1 := s.moveOff n (rowRuns n.spouting r)
  let st := s1.stack k
  s1.setStack k { st with
    retired := st.retired + pages
    fenced := if st.fenced.contains (rowKey r) then st.fenced else st.fenced ++ [rowKey r]
    ce := Store.erase st.ce (rowKey r) }

/-- A failing row takes a repair row of its bank by soft repair, or has its pages moved when none is left (R367, R368). -/
def State.mendRow (s : State) (n : StackName) (r : DramRow) (spare : Bool) (pages : Nat) : State :=
  let k := keyOfStack n
  if spare then
    let st := s.stack k
    s.setStack k { st with repairs := st.repairs + 1, soft := st.soft + 1, ce := Store.erase st.ce (rowKey r) }
  else s.retireRow n r pages

/-- Has a Basin's HBM room for `pages` more range pages, in stacks of either kind (R368)? -/
def State.basinRoom (s : State) (b pages : Nat) : Bool := (List.range 4).any (fun st => decide (65536 * pages ≤ s.wholeStackFree b st))

/-- A phase that runs again names what it reads again: a scan of a list of which content is lost ends with TIER_FAILED (R362, Table
13-4). -/
def State.nameAgain (s : State) (rid : Nat) : State :=
  if (s.req? rid).any (fun r => r.life == .running && (r.phase == .scan || r.phase == .wscan)) then s.nameLists rid else s

/-- HBM_UNCORRECTABLE_READ: the read is a fault of the phase; a good re-read makes it transient, and one that fails
again maps the row to a repair row and restores it from its second copy, or with no repair row left moves its pages,
before the phase runs again; with no room left for them the phase ends with RESOURCE_FAILED (R367, R368). MEM_INJECT.UE is
consumed and is transient. -/
def execHbmUncorrectableRead (n : StackName) (rid : Nat) (row : DramRow) (recurs : Bool) (repair : RowRepair)
    (content : RowContent) (s : State) : Res :=
  let k := keyOfStack n
  let inj := bit (s.reg (instKey Reg.MEM_INJECT k)) 1
  let s1 := (s.bumpSat (instKey Reg.MEM_HBM_ERR k) 32 16 1).setRegF (instKey Reg.MEM_INJECT k) 1 1 0
  if inj ∨ !recurs then .next ((s1.bumpSat Reg.RST_CNT_FAULTS 0 32 1).rerun rid)
  else
    let s2 := (s1.bumpSat (instKey Reg.MEM_HBM_ERR k) 48 16 1).bumpSat Reg.RST_CNT_FAULTS 32 16 1
    if !repair.spare && !s2.basinRoom n.basin repair.pages then
      .next ((((s2.logEvent 9 0 sevError).loseContent content).endWith rid stResourceFailed))
    else
      let s3 := ((s2.mendRow n row repair.spare repair.pages).logEvent 9 0 sevError).loseContent content
      let s4 := if repair.spare then s3.modReq rid (fun q => { q with spares := min 255 (q.spares + 1) }) else s3
      .next ((s4.rerun rid).nameAgain rid)

/-- Corrected errors of a row in the present patrol: at ROW_CE_MAX the row is repaired before it fails (R367). -/
def State.rowErrors (s : State) (n : StackName) (e : RowErrs) : State :=
  let k := keyOfStack n
  let st := s.stack k
  let total := Store.get (fun _ => 0) st.ce (rowKey e.row) + e.errors
  let s1 := s.setStack k { st with ce := Store.put (fun _ => 0) st.ce (rowKey e.row) total }
  if total < s.regF Reg.MEM_CFG 48 8 then s1 else (s1.mendRow n e.row e.spare e.pages).logEvent 9 0 sevError

/-- Do the check bits of a burst as it is read, 32 data bytes and then 4 check bytes, match its data? The code itself is open (R366). -/
def rsClean (b : List Byte) : Bool := decide (leAt b 32 4 = (Config.rsCheck (b.take 32)).toNat)

/-- A burst as the controller's code corrects it: an error in one byte is mended, and more is detected (R366). -/
def rsCorrect (b : List Byte) : Option (List Byte) :=
  if rsClean b then some b
  else ((List.range 36).flatMap (fun j => (List.range 256).map (fun v => modifyAt b j (fun _ => BitVec.ofNat 8 v)))).find? rsClean

/-- The present patrol period of MEM_CFG.PATROL_H hours of the Headworks clock. -/
def State.patrolPeriod (s : State) : Nat := s.tick.toNat / (360000000000 * max 1 (s.regF Reg.MEM_CFG 40 8))

/-- HBM_PATROL: a part of the patrol that reads every burst of a stack once in each PATROL_H hours. Bursts that the on-die code or the
controller's code corrects are rewritten and counted, and the errors of a row add up over the patrol, which ends with `last` (R366,
R367). Its accesses to a bank wait while the bank's row is its Spout's (R331). -/
def execHbmPatrol (n : StackName) (ondie : Nat) (ctrl : List (List Byte)) (part : PatrolRows) (s : State) : Res :=
  let k := keyOfStack n
  let st := s.stack k
  let bursts := ctrl.map (padTo 0 36)
  let mended := (bursts.filter (fun b => !rsClean b && (rsCorrect b).isSome)).length
  let bad := (bursts.filter (fun b => (rsCorrect b).isNone)).length
  if st.patrolled = some s.patrolPeriod ∧ st.patrolling = false then .next s
  else if n.spouting && part.rows.any (fun e => s.bankSpouts n.basin n.complex e.row.pc e.row.bank) then .next s
  else
    let s0 := s.setStack k { st with
      patrolled := if st.patrolling then st.patrolled else some s.patrolPeriod
      patrolling := true }
    let s1 := ((s0.bumpSat (instKey Reg.MEM_HBM_ERR k) 0 16 ondie).bumpSat (instKey Reg.MEM_HBM_ERR k) 16 16 mended).bumpSat
      (instKey Reg.MEM_HBM_ERR k) 32 16 bad
    let s2 := part.rows.foldl (fun (t : State) e => t.rowErrors n e) s1
    .next (if part.last then s2.setStack k { s2.stack k with ce := [], patrolling := false } else s2)

/-- The requests whose running scans read a block array of a stack that has a page among `bad`. -/
def State.readersOn (s : State) (n : StackName) (bad : List Nat) : List Nat :=
  ((s.arrsOn n bad).flatMap (fun a => match s.index? a.1 with
    | some x => s.scansOf a.1 a.2.2.slot x
    | none => [])).dedup

/-- LANE_REMAP: a lasting data-lane fault takes a redundant lane and the pseudo-channel retrains with its accesses
held; with both in use its pages are retired (R369): those of a spouting stack whose runs lie in it, and every page of a plain one,
which interleaves them all (R365). With no room left for them in the Basin, the scans that read them end with RESOURCE_FAILED (R368). -/
def execLaneRemap (n : StackName) (pc : Fin 16) (pages : Nat) (s : State) : Res :=
  let k := keyOfStack n
  let st := s.stack k
  let used := Store.get (fun _ => 0) st.lanes pc
  let s1 := s.bumpSat Reg.RST_CNT_FAULTS 32 16 1
  if used < 2 then
    .next (s1.setStack k { st with lanes := Store.put (fun _ => 0) st.lanes pc (used + 1),
                                   held := if st.held.contains pc.val then st.held else st.held ++ [pc.val] })
  else
    let s2 := s1.setStack k { st with
      lanes := Store.put (fun _ => 0) st.lanes pc 3
      retired := st.retired + pages }
    let bad := (List.range (stackRuns (2 * b2n n.spouting))).filter (fun r => !n.spouting || r % 16 == pc.val)
    if s1.basinRoom n.basin pages then .next (s2.moveOff n bad)
    else .next ((s1.readersOn n bad).foldl (fun (t : State) rid => t.endWith rid stResourceFailed) s1)

/-- PSEUDO_CHANNEL_RETRAIN_DONE: the held accesses are served (R369). -/
def execPseudoChannelRetrainDone (n : StackName) (pc : Fin 16) (s : State) : Res :=
  let k := keyOfStack n
  let st := s.stack k
  .next (s.setStack k { st with held := st.held.filter (· != pc.val) })

/-- HBM_TEMP_READ: the stack's temperature is read; above 85 °C its refresh interval is halved (R332, R364). Where Keeper firmware
has run a test of the stack over the same port since the last reading, `tested` are the runs of the rows it reserved, which are
sealed (R338, DESIGN CHOICE, log 149). -/
def execHbmTempRead (n : StackName) (port : TestPort) (s : State) : Res :=
  let k := keyOfStack n
  let st := { s.stack k with hot := decide (85 < port.temp) }
  .next (s.setStack k (if n.spouting then port.tested.foldl (fun (q : Stack) r => q.setSeal r true) st else st))

/-- INJECT_MEM_SLOW: MEM_INJECT.SLOW is set (Table 13-6). -/
def execInjectMemSlow (s : State) : Res := .next (s.writeOne Reg.MEM_INJECT 0)

/-- INJECT_MEM_UE: MEM_INJECT.UE of the selected stack is set (Table 13-6). -/
def execInjectMemUe (s : State) : Res :=
  .next (s.writeOne (instKey Reg.MEM_INJECT (s.regF Reg.MEM_HBM_SEL 0 3)) 1)

end Sys2Proof.Machine
end

