-- ==== Sys2Proof/Machine/CisternOps.lean ====
section
/-! DEFINITION. The meanings of the Cistern commands (chapter "The Cistern flash subsystem"). -/

namespace Sys2Proof.Machine

/-- Are the NAND pins held, every CE_n high and every WP_n low: from PWROK falling, or from the start of a reset, until step 6 of
bring-up (R554)? The Cistern then issues no command and none completes (R400). -/
def State.nandHeld (s : State) : Bool := !s.rst.pwrok || s.rst.inReset || decide (1 ≤ s.rst.step ∧ s.rst.step < 6)

/-- Correction capability C of a code option (Table 14-3). -/
def codeC (parity : Nat) : Nat := 160 + 40 * parity

/-- Read-error threshold (R389). -/
def State.rwThreshold (s : State) : Nat := codeC s.cist.parity * s.regF Reg.CIST_CFG 0 7 / 100

/-- Usable block sets in no group. -/
def Cistern.freeSets (c : Cistern) : Nat := (c.usable.filter (fun b => !c.inGroup b)).length

/-- The read count of a block set rises; at RD_MAX_K thousand its rewrite is scheduled (R389). -/
def State.countRead (s : State) (ppa : Nat) : State :=
  let b := ppaSet ppa
  let k := lunKey b.1 b.2.1
  let l := s.lun k
  let n := Store.get (fun _ => 0) l.reads b.2.2 + 1
  let s1 := (s.setLun k { l with reads := Store.put (fun _ => 0) l.reads b.2.2 n }).bump Reg.CIST_CNT_READS 0 64 1
  if n ≥ s.regF Reg.CIST_CFG 8 16 * 1000 then s1.scheduleRewrite ppa else s1

/-- What a read that was decoded turns out to be once its metadata are checked (R380). -/
def Cistern.checkRead (c : Cistern) (ppa : Nat) (res : Decode) : Decode :=
  if res = .failed then .failed
  else match Store.find? c.media ppa with
    | some w => if c.misdirected (c.lpnAt ppa) w then .misdirected else res
    | none => res

/-- Steps of the decode ladder that reads of an address have failed in the present climb, 0 to 2 (R381). -/
def Cistern.climbed (c : Cistern) (ppa : Nat) : Nat := Store.get (fun _ => 0) c.ladder ppa

/-- The state with the climb of an address at a step. -/
def State.climb (s : State) (ppa n : Nat) : State :=
  s.withCist { s.cist with ladder := Store.put (fun _ => 0) s.cist.ladder ppa n }

/-- A command goes out on the bus of a NAND channel (R373). -/
def State.nandBus (s : State) (ch lun : Nat) (cmd : NandBus) : State := s.emit (.nand ch lun cmd)

/-- A step of the ladder has failed: step 2 reads once at every read-retry level of the profile, which SET FEATURES selects, and is passed
over where the profile has none; after step 3 the codeword is uncorrectable, and a later read climbs anew (R381). -/
def State.stepFails (s : State) (ppa : Nat) : State :=
  let n := s.cist.climbed ppa
  let b := ppaSet ppa
  if n = 0 then
    if s.cist.retry = 0 then s.climb ppa 2
    else (List.range s.cist.retry).foldl (fun (t : State) v => t.nandBus b.1 b.2.1 (.retryLevel v)) (s.climb ppa 1)
  else s.climb ppa ((n + 1) % 3)

/-- A codeword has been read and decoded: its class is counted and a rewrite scheduled where R389 says so. Steps 2 and 3 of the ladder
come only after those before them have failed (R381). A read that CIST_INJECT.HIGH arms reports C corrected bits at step 1, and one that
UE arms fails (Table 14-9). -/
def State.classifyRead (s : State) (ppa : Nat) (res : Decode) : State :=
  let inj := injectOf ppa
  let n := s.cist.climbed ppa
  let high := bit (s.reg inj) 1 && n == 0
  if bit (s.reg inj) 0 then s.stepFails ppa
  else if (res = .retry ∧ n ≠ 1 ∨ res = .soft ∧ n ≠ 2) ∧ high = false then s
  else
    let t := s.climb ppa 0
    match s.cist.checkRead ppa (if high then .hard (codeC s.cist.parity) else res) with
    | .hard bits =>
      if bits > s.rwThreshold then
        ((t.bumpSat Reg.CIST_ERR_A 0 32 1).scheduleRewrite ppa).setRegF inj 1 1 0
      else t
    | .retry => (t.bumpSat Reg.CIST_ERR_A 32 32 1).scheduleRewrite ppa
    | .soft => (t.bumpSat Reg.CIST_ERR_B 0 32 1).scheduleRewrite ppa
    | .failed => s.stepFails ppa
    | .misdirected => t.bumpSat Reg.CIST_ERR_C 32 32 1

/-- Is a row the next one that a member is to program: the first closed row of its group whose unit the member has not programmed? A
group's block sets are erased before their first program (R385, R400). -/
def State.unitDue (s : State) (g : Nat) (grp : Group) (row mem : Nat) : Bool :=
  ((s.cist.rows.find? (fun r => r.group == g && r.closed && !r.done.contains mem)).map SRow.row) == some row &&
  (match grp.members[mem]? with
    | some m => !(s.lun (lunKey m.1 m.2.1)).unerased.contains m.2.2 && !s.memberLost m
    | none => false)

/-- A member's program unit has completed: its codewords stand on the media, and the data, parity and filler codewords are counted. -/
def State.programDone (s : State) (g row mem : Nat) : State :=
  match s.cist.rows.find? (fun r => r.group == g && r.row == row), Store.find? s.cist.groups g with
  | some r, some grp =>
    if !s.unitDue g grp row mem then s
    else
      let w := grp.members.length
      let u := s.cist.unitWords
      let par := ((List.range u).filter (fun p => (s.cist.rowStripe row p) % w == mem)).length
      let data := ((List.range r.words.length).filter (fun i => (s.cist.wordPlace grp row i).1 == mem)).length
      let r' := { r with done := r.done ++ [mem] }
      let s1 := s.withCist ({ s.cist with
        rows := s.cist.rows.map (fun (x : SRow) => if x.group = g ∧ x.row = row then r' else x)
        media := (s.cist.unitData grp r mem).foldl (fun m p => Store.insert m p.1 p.2) s.cist.media } : Cistern).dropRows
      (s1.bump Reg.CIST_CNT_PROG 0 64 (par + data)).bump Reg.CIST_CNT_FILLER 0 64 (u - par - data)
  | _, _ => s

/-- A block set is erased: its count rises, its codewords are gone, and words that waited for a block group try again. -/
def State.eraseSet (s : State) (ch lun block : Nat) : State :=
  let k := lunKey ch lun
  let l := s.lun k
  let count := Store.get (fun _ => 0) l.erases block + 1
  let s1 := s.setLun k { l with
    erases := Store.insert l.erases block count
    reads := Store.erase l.reads block
    unerased := l.unerased.filter (fun b => b != block) }
  s1.withCist { s1.cist with media := s1.cist.media.filter (fun e => ppaSet e.1 != (ch, lun, block)) }

/-- The state with a block set taken out of its group. -/
def State.leaveGroup (s : State) (k : Nat) (g : Group) (b : Nat × Nat × Nat) : State :=
  let mem := g.members.filter (· != b)
  let gs := if mem.isEmpty then Store.erase s.cist.groups k else Store.insert s.cist.groups k { g with members := mem }
  s.withCist { s.cist with groups := gs }

/-- Does a lower-tier read in flight name an address in a block group (R391)? -/
def State.readIn (s : State) (g : Group) : Bool := s.mem.reads.any (fun r => r.ppas.any (fun p => g.members.contains (ppaSet p)))

/-- A block set has been erased: of a reclaimed group, and it leaves it for the free pool (R391), or before its first program (R400). -/
def State.eraseDone (s : State) (ch lun block : Nat) : State :=
  let b := (ch, lun, block)
  match s.cist.groupOf b with
  | some (k, g) =>
    if g.erasing && !s.readIn g then
      let t := (s.eraseSet ch lun block).leaveGroup k g b
      t.withCist (t.cist.retryWaiting t.tick)
    else if (s.lun (lunKey ch lun)).unerased.contains block then s.eraseSet ch lun block
    else s
  | none => if (s.lun (lunKey ch lun)).unerased.contains block then s.eraseSet ch lun block else s

/-- A read of a LUN has been issued: when it was the last of those queued at a suspend, the suspended operation is resumed (R382). -/
def State.readIssued (s : State) (ch lun ppa : Nat) : State :=
  let k := lunKey ch lun
  let l := s.lun k
  if !l.ahead.contains ppa then s
  else
    let s1 := s.setLun k { l with ahead := l.ahead.filter (· != ppa) }
    if (s1.lun k).ahead.isEmpty then s1.nandBus ch lun .resume else s1

/-- The unit of an array command of a LUN. -/
def unitOf (ch lun : Nat) : NandCmd → NandUnit
  | .read ppa _ => .read ppa
  | .program g row mem => .program g row mem
  | .erase b => .erase ch lun b

/-- The state without some of the array commands that have started. -/
def State.ungrant (s : State) (p : NandUnit → Bool) : State :=
  s.withCist { s.cist with granted := s.cist.granted.filter (fun u => !p u) }

/-- NAND_COMMAND_DONE: an array command that its channel's point has started completes with its transfer (R375); a LUN that had timed
out has recovered, and its fault was transient. A suspended program or erase does not complete (R382). Under CIST_INJECT.TIMEOUT the
command does not complete (R392), nor does it while the pins are held (R554). -/
def execNandCommandDone (ch lun : Fin 32) (cmd : NandCmd) (s : State) : Res :=
  let k := lunKey ch lun
  let l := s.lun k
  let reads := match cmd with
    | .read _ _ => true
    | _ => false
  if s.nandHeld ∨ l.state ≠ 1 ∨ bit (s.reg (instKey Reg.CIST_INJECT k)) 2 ∨ (reads = false ∧ l.ahead ≠ []) ∨
      s.cist.granted.contains (unitOf ch lun cmd) = false then .next s
  else
    let s0 := (s.ungrant (· == unitOf ch lun cmd)).setLun k { l with timedOut := false }
    let s1 := if l.timedOut then s0.bumpSat Reg.RST_CNT_FAULTS 0 32 1 else s0
    let idle := fun (t : State) => t.setLun k { t.lun k with suspends := 0 }
    .next (match cmd with
      | .read ppa res => ((s1.readIssued ch lun ppa).countRead ppa).classifyRead ppa res
      | .program g row mem => (idle s1).programDone g row mem
      | .erase b => (idle s1).eraseDone ch lun b)

/-! ### The units of the NAND channels (R375, Table 16-1) -/

/-- Bytes of a codeword on the channel: user bytes, metadata and the parity of the code option (Table 14-3). -/
def Cistern.wordBytes (c : Cistern) : Nat := 4128 + codeP c.parity

/-- The channel that an array command occupies. -/
def State.unitChan (s : State) : NandUnit → Option Nat
  | .read p => some (ppaSet p).1
  | .erase ch _ _ => some ch
  | .program g _ m => ((Store.find? s.cist.groups g).bind (fun x => x.members[m]?)).map (fun b => b.1)

/-- The unit of an array command with its party and class: it costs the bytes that it transfers and 512 (Table 16-1). -/
def State.nandUnit (s : State) (f : Nat × Nat) (u : NandUnit) : SUnit :=
  let n := match u with
    | .read _ => 1
    | .program _ _ _ => s.cist.unitWords
    | .erase _ _ _ => 0
  ⟨f.1, f.2, n * s.cist.wordBytes + 512, none, some u⟩

/-- Party and class of the work of a request (R48, R426 to R428). -/
def Req.flow (r : Req) : Nat × Nat := (if r.nodePart then 16 else r.hdr.slice.toNat, r.cls)

/-- Party and class of the primary of a read: of the request that waits first, or of the part as an owner's work; a read that nothing
waits for, and one that brings in a block array, is in the class of promotions. The table pages of the map are of the node (Table 16-3;
DESIGN CHOICE, log 197). -/
def State.readFlow (s : State) (r : LtRead) : Nat × Nat :=
  match r.target with
  | .array _ _ => (r.slice, s.kindClass 2)
  | .page l =>
    if lpnSpace l = 2 then (16, s.kindClass 2)
    else match r.waiters.head? with
      | some (.req rid) => ((s.req? rid).map Req.flow).getD (r.slice, s.kindClass 2)
      | some (.part pid) =>
        (r.slice, s.kindClass (if (Store.find? s.partsIn pid).any (fun p => p.kind == .gather) then 1 else 0))
      | _ => (r.slice, s.kindClass 2)

/-- The codewords that a read-around reads: those of the other members of the stripe (R361). -/
def Cistern.stripeMates (c : Cistern) (ppa : Nat) : List Nat :=
  match c.groupOf (ppaSet ppa) with
  | some (_, g) => (g.members.filter (· != ppaSet ppa)).map (fun m =>
      mkPpa m.1 m.2.1 m.2.2 (ppa / 16384 % 4) (ppa / 4 % 4096) (ppa % 4))
  | none => []

/-- The reads that are due: the primaries of the reads in progress, and the stripes of those that are read around. -/
def State.dueReads (s : State) : List SUnit :=
  s.mem.reads.flatMap (fun r =>
    (if r.failed < 3 then r.ppas.map (fun p => s.nandUnit (s.readFlow r) (.read p)) else []) ++
    (if r.around then (r.ppas.flatMap s.cist.stripeMates).map (fun p => s.nandUnit (r.slice, s.kindClass 3) (.read p)) else []))

/-- Party and class of a program unit: dirty pages and backing images of the slice of the first page in it, map pages and relocations
of the node (Table 16-3; DESIGN CHOICE, log 197). -/
def State.programFlow (s : State) (g : Group) (r : SRow) : Nat × Nat :=
  let n := ((r.words.head?).bind (fun w => s.index? (lpnIndex w.lpn))).map (fun x => x.desc.slice)
  match streamNum g.stream with
  | 2 => (n.getD 16, s.kindClass 5)
  | 3 => (16, s.kindClass 4)
  | 4 => (16, s.kindClass (if s.cist.rebuild.isEmpty then 10 else 9))
  | _ => (n.getD 16, s.kindClass 4)

/-- The program units and erases that are due. -/
def State.dueWrites (s : State) : List SUnit :=
  (s.cist.rows.flatMap (fun r => match Store.find? s.cist.groups r.group with
    | some g => ((List.range g.members.length).filter (s.unitDue r.group g r.row)).map (fun m =>
        s.nandUnit (s.programFlow g r) (.program r.group r.row m))
    | none => [])) ++
  (s.cist.groups.flatMap (fun p => (p.2.members.filter (fun b =>
      (p.2.erasing && !s.readIn p.2) || (s.lun (lunKey b.1 b.2.1)).unerased.contains b.2.2)).map (fun b =>
    s.nandUnit (16, s.kindClass 10) (.erase b.1 b.2.1 b.2.2))))

/-- The units of a channel's queue as its work stands: what is due and has not started is queued, and what is due no more leaves. Reads
of the maintenance, which have no list of their own, stay as they arrived. -/
def State.offerNand (s : State) (ch : Nat) : State :=
  let due := (s.dueReads ++ s.dueWrites).filter (fun u => (u.cmd.bind s.unitChan) == some ch)
  let pt := 8 + ch
  let p := s.point pt
  let stays := fun (u : SUnit) => u.party == 16 || due.any (fun d => d.cmd == u.cmd)
  let s1 := (s.setPoint pt { p with queue := p.queue.filter stays }).retag pt
  (due.filter (fun u => (u.cmd.any (fun c => !s.cist.granted.contains c)))).foldl (fun (t : State) u =>
    if (t.point pt).queue.any (fun q => q.cmd == u.cmd) then t else t.queueUnit pt u) s1

/-- The cost of what arrives at a point, if the point serves such work (Table 16-1). -/
def State.jobCost (s : State) (pt : Nat) : Job → Option Nat
  | .readWord p => if pointKind pt = 1 ∧ (ppaSet p).1 = pt - 8 then some (s.cist.wordBytes + 512) else none
  | .access n => if pointKind pt = 2 then some n else none
  | .spoutRow => if pointKind pt = 2 then some 1024 else none
  | .packet n => if pointKind pt = 3 then some (n + 24) else none
  | .readRequest n => if pointKind pt = 3 then some n else none
  | .chunk c => if pointKind pt = 4 then some (c.val + 1) else none

/-- The unit that arrives: work of a request is of its slice, or the node party, and in its class; node work is of the party and in
the class of its kind (R48, R426 to R428). -/
def State.arrivalUnit (s : State) (a : Arrival) (cost : Nat) : SUnit :=
  let f := match a.rid.bind s.req? with
    | some r => r.flow
    | none => (if 9 ≤ a.kind.val ∧ a.kind.val ≤ 12 then 16 else a.slice.val, s.kindClass a.kind)
  ⟨f.1, f.2, cost, none, match a.job with
    | .readWord p => some (.read p)
    | _ => none⟩

/-- The units that have come to a point since its last boundary are queued: at a NAND channel those of the Cistern's work too. -/
def State.offerUnits (s : State) (pt : Nat) (arrivals : List Arrival) : State :=
  let s1 := if pointKind pt = 1 then s.offerNand (pt - 8) else s
  arrivals.foldl (fun (t : State) a => match t.jobCost pt a.job with
    | some c => t.queueUnit pt (t.arrivalUnit a c)
    | none => t) s1

/-- UNIT_BOUNDARY: the point decides again (R425, R429 to R431). `arrivals` are the units that have been queued at a
point other than a port since the last boundary; those of the NAND channels that the Cistern's work needs come of themselves. -/
def execUnitBoundary (pt : Fin 185) (arrivals : List Arrival) (s : State) : Res :=
  if pt.val < 8 then .next (s.portBoundary pt)
  else
    let s1 := s.offerUnits pt arrivals
    .next (match s1.slChoose pt with
      | none => s1
      | some f => match (s1.point pt).headOf f with
        | none => s1
        | some u =>
          let s2 := s1.startUnit pt f u
          match u.cmd with
          | some c => s2.withCist { s2.cist with granted := s2.cist.granted ++ [c] }
          | none => s2)

/-- Does a LUN run a program or an erase: has a closed row a unit left to program in it, or is one of its block sets to be erased, for a
reclaim or before its first program? -/
def State.lunBusy (s : State) (ch lun : Nat) : Bool :=
  s.cist.rows.any (fun r => r.closed && (match Store.find? s.cist.groups r.group with
    | some g => (List.range g.members.length).any (fun m => !r.done.contains m &&
        (match g.members[m]? with | some b => b.1 == ch && b.2.1 == lun | none => false))
    | none => false)) ||
  s.cist.groups.any (fun p => p.2.members.any (fun b => b.1 == ch && b.2.1 == lun &&
    (p.2.erasing || (s.lun (lunKey ch lun)).unerased.contains b.2.2)))

/-- The addresses of a LUN that lower-tier reads in flight name: the reads that are queued at it. -/
def State.queuedReads (s : State) (ch lun : Nat) : List Nat :=
  ((s.mem.reads.flatMap LtRead.ppas).filter (fun p => (ppaSet p).1 == ch && (ppaSet p).2.1 == lun)).dedup

/-- READ_SUSPEND: a read that finds its LUN busy with a program or an erase suspends it while it has been suspended fewer than
SUSPEND_MAX times, until the reads that are queued now have been issued; otherwise the read waits (R382). -/
def execReadSuspend (ch lun : Fin 32) (s : State) : Res :=
  let k := lunKey ch lun
  let l := s.lun k
  if ¬ s.nandHeld ∧ l.state = 1 ∧ s.lunBusy ch lun ∧ l.ahead = [] ∧ l.suspends < s.regF Reg.CIST_CFG 36 4 then
    .next ((s.setLun k { l with
      suspends := l.suspends + 1
      ahead := s.queuedReads ch lun }).nandBus ch lun .suspend)
  else .next s

/-- The rows of a group whose unit in a member cannot be programmed are written again to a new row of their stream, and the group
takes no more rows and goes first for reclaim (R393). Rows that the member has programmed go on. -/
def State.failRows (s : State) (k mem : Nat) : State :=
  match Store.find? s.cist.groups k with
  | none => s
  | some g =>
    let hit := fun (r : SRow) => r.group == k && !r.done.contains mem
    let mine := s.cist.rows.filter hit
    let c0 := { s.cist with
      rows := s.cist.rows.filter (fun r => !hit r)
      groups := Store.insert s.cist.groups k { g with isOpen := false, priority := true } }
    let ws := (mine.flatMap (·.words)).filter (fun w => !w.settled)
    s.withCist (ws.foldl (fun (c : Cistern) w => c.write s.tick g.stream w) c0)

/-- Registers the system area keeps (R398, Tables 14-8 and 14-9). -/
def savedRegs : List Nat :=
  [Reg.CIST_HEALTH, Reg.CIST_ERR_A, Reg.CIST_ERR_B, Reg.CIST_ERR_C, Reg.CIST_ERR_D] ++
    (List.range 8).map (fun b => Reg.CIST_TEMP_HIST + 8 * b)

/-- The format record of the Cistern as it stands (R398). -/
def Cistern.record (c : Cistern) : FmtRecord where
  mode := c.mode
  stripe := c.stripe
  opPct := c.opPct
  parity := c.parity
  planes := c.planes
  pages := c.pages
  blocks := c.blocks
  rate := c.rate
  rated := c.rated
  maxTemp := c.maxTemp
  retry := c.retry
  feature := c.feature
  pairing := c.pairing
  generation := c.generation
  userPages := c.userPages
  spareAtFormat := c.spareAtFormat

/-- The Cistern with a format record in force. -/
def Cistern.withRecord (c : Cistern) (f : FmtRecord) : Cistern :=
  { c with
    mode := f.mode
    stripe := f.stripe
    opPct := f.opPct
    parity := f.parity
    planes := f.planes
    pages := f.pages
    blocks := f.blocks
    rate := f.rate
    rated := f.rated
    maxTemp := f.maxTemp
    retry := f.retry
    feature := f.feature
    pairing := f.pairing
    generation := f.generation
    userPages := f.userPages
    spareAtFormat := f.spareAtFormat }

/-- The system area takes the present counts, the format record and what is known of the LUNs (R398). -/
def State.saveArea (s : State) : State :=
  s.withCist { s.cist with saved := ⟨savedRegs.map (fun k => (k, s.reg k)), s.cist.record, s.cist.luns⟩ }

/-- The members of groups that lie in a LUN, as group and member number. -/
def Cistern.lunMembers (c : Cistern) (ch lun : Nat) : List (Nat × Nat) :=
  c.groups.flatMap (fun g => ((List.range g.2.members.length).filter (fun m =>
    match g.2.members[m]? with
    | some b => b.1 == ch && b.2.1 == lun
    | none => false)).map (fun m => (g.1, m)))

/-- Has a channel a LUN in service? -/
def Cistern.chanLive (c : Cistern) (ch : Nat) : Bool := c.luns.any (fun l => l.1 % 32 == ch && l.2.state == 1)

/-- The points of the NAND channels: one whose channel has lost its last LUN leaves service, and one whose channel has a LUN again
returns (R437). -/
def State.chanPoints (s : State) : State :=
  (List.range 32).foldl (fun (t : State) ch =>
    let out := !s.cist.chanLive ch
    if (t.point (8 + ch)).out = out then t else t.pointOut (8 + ch) out) s

/-- Does a program or an erase work on a block set? -/
def State.onBlock (s : State) (b : Nat × Nat × Nat) : NandUnit → Bool
  | .read _ => false
  | .erase ch lun k => (ch, lun, k) == b
  | .program g _ m => ((Store.find? s.cist.groups g).bind (fun x => x.members[m]?)) == some b

/-- Does an array command work in a LUN? -/
def State.onLun (s : State) (ch lun : Nat) : NandUnit → Bool
  | .read p => (ppaSet p).1 == ch && (ppaSet p).2.1 == lun
  | .erase c l _ => c == ch && l == lun
  | .program g _ m => ((Store.find? s.cist.groups g).bind (fun x => x.members[m]?)).any (fun b => b.1 == ch && b.2.1 == lun)

/-- A LUN is retired: recorded, counted, its rows written again, its rebuild queued, and the system area written (R392, R394, R398). -/
def State.retireLun (s : State) (ch lun : Nat) : State :=
  let k := lunKey ch lun
  let l := s.lun k
  if l.state ≠ 1 then s
  else
    let s1 := ((s.retire kLun k 0).setLun k { l with state := 2, timedOut := false }).ungrant (s.onLun ch lun)
    let s2 := s1.bumpSat Reg.CIST_ERR_D 48 16 1
    let ms := (s2.cist.lunMembers ch lun).filter (fun p => match Store.find? s2.cist.groups p.1 with
      | some g => g.isOpen || s2.cist.rows.any (fun r => r.group == p.1 && !r.done.contains p.2)
      | none => false)
    let s3 := ms.foldl (fun (t : State) p => t.failRows p.1 p.2) s2
    (s3.withCist { s3.cist with rebuild := s3.cist.rebuild ++ [(ch, lun)] }).saveArea.chanPoints

/-- LUN_TIMEOUT: the LUN is reset and the command issued again; one that times out again has a lasting fault and is
retired; a channel whose every LUN has timed out is retrained once first (R392). A timeout that CIST_INJECT brings about does not
recur and retires nothing (Table 14-9). -/
def execLunTimeout (ch lun : Fin 32) (s : State) : Res :=
  let k := lunKey ch lun
  let l := s.lun k
  if s.nandHeld ∨ l.state ≠ 1 then .next s
  else
    let inj := bit (s.reg (instKey Reg.CIST_INJECT k)) 2
    let s1 := (s.bumpSat Reg.CIST_ERR_D 32 16 1).setRegF (instKey Reg.CIST_INJECT k) 2 1 0
    let s2 := (s1.setLun k { l with
      timedOut := true
      suspends := 0
      ahead := [] }).nandBus ch lun .reset
    let others := s2.cist.luns.filter (fun x => decide (x.1 % 32 = ch.val) && x.2.state == 1)
    if inj ∨ s2.cist.retrain.contains ch.val then .next s2
    else if others.all (fun x => x.2.timedOut) ∧ (1 < others.length ∨ l.timedOut) then
      .next ((s2.withCist { s2.cist with retrain := s2.cist.retrain ++ [ch.val] }).nandBus ch lun .train)
    else if l.timedOut then .next ((s2.bumpSat Reg.RST_CNT_FAULTS 32 16 1).retireLun ch lun)
    else .next s2

/-- CHANNEL_RETRAIN_DONE: a channel's training ends. One that fails is followed by a single retrain; after that retrain the channel's
LUNs return to service or are retired (R392). -/
def execChannelRetrainDone (ch : Fin 32) (ok : Bool) (s : State) : Res :=
  if s.nandHeld then .next s
  else if !s.cist.retrain.contains ch.val then
    if ok ∨ !s.cist.chanLive ch then .next s
    else .next ((s.withCist { s.cist with retrain := s.cist.retrain ++ [ch.val] }).nandBus ch 0 .train)
  else
    let s1 := s.withCist { s.cist with retrain := s.cist.retrain.filter (· != ch.val) }
    let mine := (s1.cist.luns.filter (fun x => decide (x.1 % 32 = ch.val) && x.2.state == 1)).map Prod.fst
    .next (mine.foldl (fun (t : State) k =>
      if ok then t.setLun k { t.lun k with timedOut := false }
      else (t.bumpSat Reg.RST_CNT_FAULTS 32 16 1).retireLun ch (k / 32)) s1)

/-- A block set is bad: the Cistern stops using it; a LUN with more than an eighth grown bad is retired (R393). -/
def State.markBad (s : State) (ch lun block : Nat) : State :=
  let k := lunKey ch lun
  let l := s.lun k
  if l.bad.contains block then s
  else
    let s1 := (s.setLun k { l with
      bad := l.bad ++ [block]
      grown := l.grown + 1
      suspends := 0 }).bumpSat Reg.CIST_HEALTH 16 16 1
    if (l.grown + 1) * 8 > s.cist.blocks then s1.retireLun ch lun else s1

/-- PROGRAM_FAILURE: the block set is bad, the failed row's pages go to a new row and the group is marked for priority
reclaim (R393). -/
def execProgramFailure (ch lun : Fin 32) (block : Nat) (s : State) : Res :=
  if s.nandHeld ∨ (s.lun (lunKey ch lun)).state ≠ 1 then .next s
  else
    let b := (ch.val, lun.val, block)
    let s1 := s.bumpSat Reg.CIST_ERR_D 0 16 1
    let s2 := match s.cist.groupOf b with
      | some (k, g) => s1.failRows k ((g.members.findIdx? (· == b)).getD 0)
      | none => s1
    .next ((s2.ungrant (s.onBlock b)).markBad ch lun block)

/-- ERASE_FAILURE: the block set is bad and leaves the group that is being erased; in a group that is being written, its rows are
written again (R393). -/
def execEraseFailure (ch lun : Fin 32) (block : Nat) (s : State) : Res :=
  if s.nandHeld ∨ (s.lun (lunKey ch lun)).state ≠ 1 then .next s
  else
    let s1 := s.bumpSat Reg.CIST_ERR_D 16 16 1
    let b := (ch.val, lun.val, block)
    let s2 := match s.cist.groupOf b with
      | some (k, g) => if g.erasing then s1.leaveGroup k g b else s1.failRows k ((g.members.findIdx? (· == b)).getD 0)
      | none => s1
    .next ((s2.ungrant (s.onBlock b)).markBad ch lun block)

/-- STRIPE_CLOSE: STRIPE_CLOSE_MS after its first codeword the stream's open row is filled with filler and is programmed (R385). Streams
3 and 4 close the rows of both their groups. -/
def execStripeClose (stream : Fin 5) (s : State) : Res :=
  let mine := fun (r : SRow) => !r.closed && !r.words.isEmpty &&
    decide (r.first.toNat + 100000 * s.regF Reg.CIST_CFG 40 8 ≤ s.tick.toNat) &&
    (match Store.find? s.cist.groups r.group with
      | some g => streamNum g.stream == stream.val
      | none => false)
  .next (if s.nandHeld then s
    else s.withCist { s.cist with rows := s.cist.rows.map (fun r => if mine r then { r with closed := true } else r) })

/-- Valid codewords of a group that can be read or formed. -/
def State.groupValid (s : State) (g : Group) : Nat := sumNat (g.members.map (fun m => (s.validIn m).length))

/-- The group that static wear levelling takes: that of the block set with valid data and the smallest erase count,
when the spread exceeds WL_DELTA (R391). -/
def State.wearGroup (s : State) : Option (Nat × Group) :=
  let us := s.cist.usable
  let er := fun (b : Nat × Nat × Nat) => s.cist.eraseOf b.1 b.2.1 b.2.2
  match us with
  | [] => none
  | u :: rest =>
    let mn := rest.foldl (fun m b => min m (er b)) (er u)
    let mx := rest.foldl (fun m b => max m (er b)) (er u)
    if mx - mn ≤ s.regF Reg.CIST_CFG 24 12 then none
    else match us.find? (fun b => er b == mn && !(s.validIn b).isEmpty) with
      | some b => s.cist.groupOf b
      | none => none

/-- A group is reclaimed: its valid codewords are relocated, and with none left its block sets are to be erased (R391). -/
def State.reclaimGroup (s : State) (k : Nat) (g : Group) : State :=
  if s.groupValid g = 0 then s.withCist { s.cist with groups := Store.insert s.cist.groups k { g with erasing := true } }
  else g.members.foldl State.relocate s

/-- RECLAIM: with free block sets below 2 percent a closed group is reclaimed, priority groups first and then the fewest valid
codewords, and with a spread of erase counts above WL_DELTA the group that static wear levelling takes (R391). -/
def execReclaim (s : State) : Res :=
  let c := s.cist
  let cands := c.groups.filter (fun g => !g.2.isOpen && !g.2.erasing && decide (g.2.stream ≤ 6) &&
    !c.rows.any (fun r => r.group == g.1))
  let first := if c.freeSets * 50 < c.usable.length then
      (sortBy (fun (g : Nat × Group) => (if g.2.priority then 1099511627776 else 0) + (549755813888 - s.groupValid g.2)) cands).take 1
    else []
  let wear := ((s.wearGroup).filter (fun g => cands.any (fun x => x.1 == g.1) && !first.any (fun x => x.1 == g.1))).toList
  if s.nandHeld then .next s else .next ((first ++ wear).foldl (fun (t : State) g => t.reclaimGroup g.1 g.2) s)

/-- The first address of the wordline, in one plane, of an address: a TLC wordline holds three pages (R385). -/
def Cistern.lineOf (c : Cistern) (ppa : Nat) : Nat :=
  let b := ppaSet ppa
  let pg := ppa / 4 % 4096
  mkPpa b.1 b.2.1 b.2.2 (ppa / 16384 % 4) (if c.mode = 0 then pg - pg % 3 else pg) 0

/-- The programmed wordlines in ascending order of address. -/
def Cistern.wordlines (c : Cistern) : List Nat := ((Store.keys c.media).map c.lineOf).dedup

/-- CISTERN_PATROL: the patrol goes on by `reads` programmed wordlines, of each of which it reads one codeword; it begins once in each
PATROL_DAYS days of the Headworks clock. Block sets with codewords above threshold among those it read are scheduled for rewrite
(R389). -/
def execCisternPatrol (above : List Nat) (reads : Nat) (s : State) : Res :=
  let c := s.cist
  let period := s.tick.toNat / (8640000000000 * max 1 (s.regF Reg.CIST_CFG 54 8))
  if s.nandHeld ∨ (c.patrolAt = 0 ∧ c.patrolled = some period) then .next s
  else
    let lines := c.wordlines
    let part := (lines.drop c.patrolAt).take reads
    let n := c.patrolAt + part.length
    let s1 := s.withCist { c with
      patrolAt := if lines.length ≤ n then 0 else n
      patrolled := if c.patrolAt = 0 then some period else c.patrolled }
    .next ((above.filter (fun p => part.contains (c.lineOf p))).foldl (fun (t : State) p =>
      (t.bumpSat Reg.CIST_ERR_A 0 32 1).scheduleRewrite p) (part.foldl State.countRead s1))

/-- A rebuild ends when its groups are marked and no map entry names a codeword of the LUN any more, but those of lost pages (R394). -/
def State.endRebuilds (s : State) : State :=
  s.withCist { s.cist with rebuild := s.cist.rebuild.filter (fun p =>
    s.cist.groups.any (fun g => g.2.members.any (fun m => m.1 == p.1 && m.2.1 == p.2 &&
      (!g.2.priority || !(s.validIn m).isEmpty)))) }

/-- The map entry, or the entry of the map directory, that names the old codeword names the new one (R390). Is it so named? -/
def State.switchWord (s : State) (lpn old new : Nat) : Option State :=
  if lpnSpace lpn = 2 then
    match Store.find? s.cist.dirTab lpn with
    | some d =>
      if d.1 = old then some (s.withCist { s.cist with dirTab := Store.insert s.cist.dirTab lpn (new, d.2) })
      else if d.2 = old then some (s.withCist { s.cist with dirTab := Store.insert s.cist.dirTab lpn (d.1, new) })
      else none
    | none => none
  else if Store.find? s.cist.map lpn = some old ∧ ¬ s.cist.trims.contains lpn then some (s.mapSet lpn (some new))
  else none

/-- RELOCATION_SWITCH: a relocated copy is clean: the map entry switches to it if it still names the old PPA, and
otherwise the copy is discarded; with the block set's last codeword its group is marked (R390). -/
def execRelocationSwitch (lpn old : Nat) (s : State) : Res :=
  match s.cist.findWord lpn (some old) false with
  | some (r, i) =>
    match s.cist.programmed r i with
    | some p =>
      if lpnSpace lpn < 2 ∧ s.mapHeld then .next s
      else if lpnSpace lpn < 2 ∧ s.mapCold lpn then .next (s.readMapOf lpn)
      else
        let s1 := s.withCist (s.cist.settleWord r i)
        let s2 := match s1.switchWord lpn old p with
          | some t => t.bump Reg.CIST_CNT_RELOC 0 32 1
          | none => s1.bumpSat Reg.CIST_CNT_RELOC 32 16 1
        .next ((s2.endRewrite (ppaSet old)).endRebuilds)
    | none => .next s
  | none => .next s

/-- Is the codeword at an address lost for a rebuild: its member is lost, or it is one of those that no step of the ladder decoded? -/
def State.wordLost (s : State) (failed : List Nat) (ppa : Nat) : Bool := s.memberLost (ppaSet ppa) || failed.contains ppa

/-- LUN_REBUILD: each valid codeword of the retired LUN's block sets is formed from its stripe and goes to stream 4, and the
groups are marked for priority reclaim; a stripe with two members lost, by retirement, bad block sets or the codewords that were read
as uncorrectable, gives the pages in them to the lost-page list (R394, R395). -/
def execLunRebuild (lun : LunName) (failed : List Nat) (s : State) : Res :=
  if s.nandHeld ∨ !s.cist.rebuild.contains (lun.ch.val, lun.lun.val) then .next s
  else
    let mine := fun (m : Nat × Nat × Nat) => m.1 == lun.ch.val && m.2.1 == lun.lun.val
    let gs := s.cist.groups.filter (fun g => g.2.members.any mine)
    .next ((gs.foldl (fun (t : State) g =>
      let t1 := t.withCist { t.cist with groups := Store.insert t.cist.groups g.1 { g.2 with
        priority := true
        isOpen := false } }
      let es := g.2.members.flatMap t1.validIn
      let gone := es.filter (fun e => t1.wordLost failed e.2 && decide (1 < stripeLost (t1.wordLost failed) g.2 e.2))
      let good := es.filter (fun e => mine (ppaSet e.2) && decide (stripeLost (t1.wordLost failed) g.2 e.2 ≤ 1))
      ((t1.loseWords gone).moveWords good).bumpSat Reg.CIST_ERR_B 32 32 good.length) s).endRebuilds)

/-- Bin of the temperature histogram (R399). -/
def tempBin (t : Int) : Nat := if t < 20 then 0 else if 90 ≤ t then 15 else ((t - 20) / 5).toNat + 1

/-- LUN_TEMP_READ: every second the highest LUN temperature is read through the feature of the profile, or with none the Headworks NAND I/O
sensor; within 5 °C of the profile's maximum programs and erases are throttled; each minute's highest adds 1 to a bin of the histogram
(R399). -/
def execLunTempRead (ch lun : Fin 32) (temp : Int) (s : State) : Res :=
  let k := lunKey ch lun
  let c := s.cist
  let mx := if c.seconds = 0 then temp else max c.minuteMax temp
  let b := tempBin mx
  let s1 := match c.feature with
    | some a => (s.setLun k { s.lun k with temp := temp }).nandBus ch lun (.getFeature a)
    | none => s
  let c1 := { s1.cist with
    minuteMax := mx
    seconds := (c.seconds + 1) % 60
    throttled := decide (2 ≤ c.state) && decide (c.maxTemp - 5 ≤ temp) }
  let s2 := s1.withCist c1
  if s.nandHeld then .next s
  else if c.seconds = 59 then .next (s2.bumpSat (Reg.CIST_TEMP_HIST + 8 * (b / 2)) (32 * (b % 2)) 32 1) else .next s2

/-- SYSTEM_AREA_WRITE: four copies of the system area are written (R398). -/
def execSystemAreaWrite (s : State) : Res := if s.nandHeld ∨ s.cist.state = 0 then .next s else .next s.saveArea

/-- The largest code option that fits the spare area (Table 14-3). -/
def parityFor (spare : Nat) : Option Nat :=
  if 2176 ≤ spare then some 2 else if 1920 ≤ spare then some 1 else if 1664 ≤ spare then some 0 else none

/-- User capacity (R398). -/
def userPagesOf (r w op : Nat) : Nat :=
  let u := r * (w - 1) / w * (100 - op) / 100
  u - u % 512

/-- The first four usable block sets in ascending channel order on four distinct channels (R398). -/
def Cistern.areaSets (c : Cistern) : List (Nat × Nat × Nat) :=
  (((List.range 32).filterMap (fun ch => c.usable.find? (fun b => b.1 == ch)))).take 4

/-- The profile that a format takes: the one that matches the first LUN found in ascending channel and LUN order of which a profile
matches the parameter page (R374; DEDUCED, log 196). -/
def mediaProfile (m : Media) : Option MediaProfile :=
  (sortBy (fun (f : LunFound) => 1024 - (32 * f.ch.val + f.lun.val)) m.luns).findSome? (fun f =>
    m.profiles.find? (fun p => p.ident == f.ident))

/-- Does the parameter page of a LUN match the profile chosen (R374)? -/
def mediaIncludes (m : Media) (f : LunFound) : Bool := (mediaProfile m).any (fun p => p.ident == f.ident)

/-- What is known of LUN positions with nothing found in them: their block sets and counts, and STATE 0. -/
def absentLuns (l : Store Lun) : Store Lun := l.map (fun (p : Nat × Lun) => (p.1, { p.2 with state := 0 }))

/-- The LUNs as a format finds them and leaves them: the block sets known as bad stay so with those that bear a factory mark or whose
erase fails, and every usable one is erased. Erase counts and bad block sets are kept, of a LUN that is not found too (R374, R397). -/
def State.formatLuns (s : State) (media : Media) : Store Lun :=
  media.luns.foldl (fun (st : Store Lun) (f : LunFound) =>
    let k := lunKey f.ch f.lun
    let old := s.lun k
    Store.insert st k { old with
      state := if recorded s.record kLun k then 2 else if mediaIncludes media f then 1 else 3
      bad := (old.bad ++ f.bad ++ f.eraseFailed).dedup
      grown := old.grown + (f.eraseFailed.filter (fun b => !old.bad.contains b)).length
      eraseBase := old.eraseBase + b2n (mediaIncludes media f)
      reads := []
      suspends := 0
      ahead := []
      timedOut := false
      unerased := [] }) (absentLuns s.cist.luns)

/-- Identification of every LUN at a format: READ ID and the parameter page (R373, R397 step 1). -/
def State.identifyLuns (s : State) (media : Media) : State :=
  media.luns.foldl (fun (t : State) (f : LunFound) => (t.nandBus f.ch f.lun .readId).nandBus f.ch f.lun .paramPage) s

/-- Erase failures of a format are counted, and a LUN with more than an eighth grown bad is retired (R393, R397). -/
def State.formatFailures (s : State) (media : Media) : State :=
  media.luns.foldl (fun (t : State) (f : LunFound) =>
    let k := lunKey f.ch f.lun
    let n := f.eraseFailed.length
    let t1 := (t.bumpSat Reg.CIST_ERR_D 16 16 n).bumpSat Reg.CIST_HEALTH 16 16 n
    if n ≠ 0 ∧ (t.lun k).grown * 8 > media.blocks then t1.retireLun f.ch f.lun else t1) s

/-- The user capacity and the system area of a Cistern that a format has just made (R398). -/
def Cistern.formatted (c : Cistern) : Cistern :=
  let c1 := { c with
    userPages := userPagesOf ((c.usable.length - 4) * c.setWords) c.stripe c.opPct
    groups := [(c.nextGroup, ⟨c.areaSets, 7, 0, false, false, false⟩)]
    nextGroup := c.nextGroup + 1 }
  { c1 with spareAtFormat := c1.spareSets }

/-- The Cistern with nothing on the media: every block set has been erased and no address is mapped (R397). -/
def Cistern.emptied (c : Cistern) : Cistern :=
  { c with
    groups := []
    rows := []
    waiting := []
    media := []
    map := []
    mapCache := []
    mapDirty := []
    dirTab := []
    trims := []
    sched := []
    rebuild := []
    retrain := []
    ladder := []
    patrolAt := 0
    patrolled := none }

/-- FORMAT_DONE: the running format ends: the profile, the bad block sets, the code option, the generation and the
capacity are fixed and the system area written, or the format fails with its reason and the media, erased, hold nothing (R374, R378,
R397, R398). -/
def execFormatDone (media : Media) (areaOk : Bool) (s : State) : Res :=
  if s.nandHeld ∨ s.cist.state ≠ 1 then .next s
  else
    let fail := fun (t : State) (r : Nat) => Host.Outcome.next (t.withCist { t.cist with
      state := 0
      userPages := 0
      lastErr := r })
    let mode := s.regF Reg.CIST_FMT 2 1
    let width := s.regF Reg.CIST_FMT 3 6
    let s1 := ((s.withCist ({ s.cist with luns := s.formatLuns media } : Cistern).emptied).identifyLuns media).formatFailures media
    let channels := ((List.range 32).filter (fun ch => s1.cist.luns.any (fun l => l.1 % 32 == ch && l.2.state == 1))).length
    match mediaProfile media with
    | none => fail s1 0x10
    | some f =>
      if channels < width then fail s1 0x10
      else match parityFor f.spareBytes with
        | none => fail s1 0x12
        | some par =>
          if !areaOk then fail s1 0x11
          else
            .next (s1.withCist (({ s1.cist with state := 2 } : Cistern).withRecord {
              mode := mode
              stripe := width
              opPct := s.regF Reg.CIST_FMT 9 7
              parity := par
              planes := 2 ^ f.planes.val
              pages := if mode = 0 then media.pages else media.pages / 3
              blocks := media.blocks
              rate := 800 + f.rate.val
              rated := if mode = 0 then f.ratedTlc else f.ratedSlc
              maxTemp := f.maxTemp
              retry := f.retry
              feature := f.feature
              pairing := f.pairing
              generation := s1.cist.generation + 1
              userPages := 0
              spareAtFormat := 0 }).formatted).saveArea.chanPoints

/-- INJECT_CIST_UE: CIST_INJECT.UE of the selected LUN is set (Table 14-9). -/
def execInjectCistUe (s : State) : Res :=
  .next (s.writeOne (instKey Reg.CIST_INJECT (s.regF Reg.CIST_LUN_SEL 0 10)) 0)

/-- INJECT_CIST_HIGH: CIST_INJECT.HIGH of the selected LUN is set (Table 14-9). -/
def execInjectCistHigh (s : State) : Res :=
  .next (s.writeOne (instKey Reg.CIST_INJECT (s.regF Reg.CIST_LUN_SEL 0 10)) 1)

/-- INJECT_CIST_TIMEOUT: CIST_INJECT.TIMEOUT of the selected LUN is set (Table 14-9). -/
def execInjectCistTimeout (s : State) : Res :=
  .next (s.writeOne (instKey Reg.CIST_INJECT (s.regF Reg.CIST_LUN_SEL 0 10)) 2)

end Sys2Proof.Machine
end

