-- ==== Sys2Proof/Machine/Package.lean ====
section
/-! DEFINITION. The package: land groups, rails, thermal resistances and the fibre map (chapter "Package, power and pins"). -/

namespace Sys2Proof.Machine

/-! ### Lands (R541, R542) -/

/-- The groups of Table 21-1. -/
inductive LandGroup where
  | nandNorth | nandSouth | corner | pcie | basin0 | headworks | basin1 | lowSpeed
  deriving DecidableEq, Repr

/-- The group of the land column.row, each from 1 to 90 (Table 21-1). -/
def landGroup (col row : Nat) : Option LandGroup :=
  if col < 1 ∨ 90 < col ∨ row < 1 ∨ 90 < row then none
  else if row < 16 ∨ 75 < row then
    (if col < 6 ∨ 85 < col then some .corner else if row < 16 then some .nandNorth else some .nandSouth)
  else if col < 6 then some .pcie
  else if col < 41 then some .basin0
  else if col < 51 then some .headworks
  else if col < 86 then some .basin1
  else some .lowSpeed

/-- First and last column of the block of a NAND channel (R542). -/
def nandColumns (channel : Nat) : Nat × Nat := (6 + 5 * (channel % 16), 10 + 5 * (channel % 16))

/-- The signals of a NAND channel in the order of their lands (R542). -/
def nandSignals : List String :=
  ["DQ0", "DQ1", "DQ2", "DQ3", "DQ4", "DQ5", "DQ6", "DQ7", "DQS_t", "DQS_c", "RE_t", "RE_c", "WE_n", "ALE", "CLE", "WP_n", "R/B_n",
    "CE_n0", "CE_n1", "CE_n2", "CE_n3", "CE_n4", "CE_n5", "CE_n6", "CE_n7"]

/-! ### Rails (R543, R544) -/

/-- A rail of Table 21-2: set value and limits in mV, greatest continuous current in mA, AVSBus bus and select. The values of a Terrace
rail are those of point 0. -/
structure Rail where
  set : Int
  lo : Int
  hi : Int
  ma : Nat
  avs : Option (Nat × Nat)
  deriving DecidableEq, Repr

/-- Core voltage of an operating point in mV (Table 20-6). -/
def coreMv (point : Nat) : Int := [620, 650, 680, 710, 740, 770, 800, 830, 870].getD point 870

/-- Clock of an operating point in MHz (Table 20-6). -/
def coreMhz (point : Nat) : Nat := 700 + 100 * point

/-- The rail of a Terrace region at an operating point. -/
def terraceRail (t point : Nat) : Rail := ⟨coreMv point, coreMv point - 30, coreMv point + 20, 45000, some (t / 2, t % 2)⟩

/-- The rails of Table 21-2 after the sixteen Terrace rails: VDD_BN, VDD_BS, VDD_HW, VDD_M0 to VDD_M7, VPP_M, VCCQ_N, VDD_PEA, VDD_PEH,
VDD_OE, VCC_OE and the standby rails VSB_08 and VSB_18. The limits of the latter two lie within 5 percent. -/
def otherRails : List Rail :=
  [⟨800, 776, 824, 40000, some (1, 2)⟩, ⟨800, 776, 824, 40000, some (2, 2)⟩, ⟨850, 825, 875, 25000, some (1, 3)⟩, ⟨850, 825, 875, 25000, some (2, 3)⟩,
    ⟨800, 776, 824, 160000, some (0, 2)⟩] ++
  ([(3, 2), (3, 3), (3, 4), (4, 2), (4, 3), (4, 4), (5, 2), (5, 3)].map (fun a => ⟨1200, 1140, 1260, 25000, some a⟩)) ++
  [⟨2500, 2375, 2750, 4000, some (5, 4)⟩, ⟨1200, 1140, 1260, 16000, some (6, 2)⟩, ⟨850, 825, 875, 6000, some (6, 3)⟩,
    ⟨1200, 1164, 1236, 2000, some (6, 4)⟩] ++
  ((List.range 4).map (fun e => ⟨900, 873, 927, 12000, some (7, 2 + e)⟩)) ++
  ((List.range 4).map (fun e => ⟨3300, 3135, 3465, 3000, some (0, 3 + e)⟩)) ++
  [⟨800, 760, 840, 1000, none⟩, ⟨1800, 1710, 1890, 500, none⟩]

/-- Number of rails that answer on the AVSBus (Table 21-2). -/
def railCount : Nat := 41

/-- The rail of VPP_M. -/
def railVpp : Nat := 29

/-- A rail by its place in Table 21-2, its Terrace at an operating point. -/
def railAt (n point : Nat) : Rail := if n < 16 then terraceRail n point else otherRails.getD (n - 16) (terraceRail n point)

/-- The rail that a voltage sensor measures (Table 20-3; the order of the sensors of one group is DEDUCED, log 138). -/
def railOfSensor (i : Nat) : Nat :=
  if i < 16 then i
  else if i < 20 then (if i % 2 = 0 then 16 + (i - 16) / 2 else 18 + (i - 16) / 2)
  else if i < 24 then 20
  else if i < 32 then i - 3
  else if i < 34 then 30
  else if i < 42 then (if i % 2 = 0 then 33 + (i - 34) / 2 else 37 + (i - 34) / 2)
  else if i < 44 then 31
  else if i < 46 then 32
  else if i = 46 then 41
  else 42

/-- A finite number times `n`, rounded to the nearest integer; 0 for a number that is negative or not finite. -/
def fScaled (x : F32) (n : Nat) : Nat :=
  if fSign x || !fFinite x then 0
  else if 0 ≤ fExp x then n * fMant x * 2 ^ (fExp x).toNat
  else shiftRne (n * fMant x) (-fExp x).toNat false

/-- The power of a rail in 0.1 W: the FP32 product of its voltage and current at the resolution of Table 20-3 (R516, R544; the rounding
is DESIGN CHOICE, log 163). -/
def railPower (volts amps : F32) : Nat := fScaled (fMul volts amps) 10

/-! ### Heat (R550) and fibres (R558) -/

/-- Thermal resistance from junction to lid top in 0.001 °C/W: a Basin, Headworks, an HBM stack (R550). -/
def lidBasin : Nat := 30
def lidHeadworks : Nat := 60
def lidStack : Nat := 250

/-- The node lane of a fibre of an engine's connector, and whether it is a transmit fibre; none for a dark one (Table 21-4). -/
def fibreLane (engine row pos : Nat) : Option (Nat × Bool) :=
  if 1 ≤ pos ∧ pos ≤ 9 ∧ (row = 1 ∨ row = 2) then some (9 * engine + (pos - 1), row == 1) else none

end Sys2Proof.Machine
end

