-- ==== Sys2Proof/Machine/Keeper.lean ====
section
/-! DEFINITION. The meanings of the Keeper commands: sensors, operating points, throttles, advisories, the event log,
bundles and authenticated commands (chapter "Keeper management subsystem"). -/

namespace Sys2Proof.Machine

/-- The state with Keeper set. -/
def State.withKeeper (s : State) (k : Keeper) : State := { s with keeper := k }

/-- Key of a sensor: class and index of KPR_SENSOR_SEL. -/
def sensorKey (cls idx : Nat) : Nat := cls * 128 + idx

/-- An hour in drops. -/
def hourDrops : Nat := 360000000000

/-- A sensor takes a reading: latest value, and the samples of the last hour (R516). -/
def Sensor.take (x : Sensor) (now : Time) (v : Int) : Sensor :=
  ⟨v, (x.hour.filter (fun p => decide (now.toNat ≤ p.1.toNat + hourDrops))) ++ [(now, v)]⟩

/-- The samples of the hour before a time. -/
def Sensor.recent (x : Sensor) (now : Time) : List Int :=
  (x.hour.filter (fun p => decide (now.toNat ≤ p.1.toNat + hourDrops))).map Prod.snd
/-- Lowest value of the last hour. -/
def Sensor.lo (x : Sensor) (now : Time) : Int := (x.recent now).foldl min x.value
/-- Highest value of the last hour. -/
def Sensor.hi (x : Sensor) (now : Time) : Int := (x.recent now).foldl max x.value

/-- Key of a quantity of Table 20-9: advisory bit and item. -/
def advKey (adv item : Nat) : Nat := adv * 65536 + item

/-- This hour's lowest values with one more value. -/
def Keeper.lowest (w : Store Int) (key : Nat) (v : Int) : Store Int :=
  Store.insert w key (match Store.find? w key with
    | some x => min x v
    | none => v)

/-- The latest values that the listed sensors of a class have. -/
def State.sensorVals (s : State) (cls : Nat) (idx : List Nat) : List Int :=
  idx.filterMap (fun i => (Store.find? s.keeper.sensors (sensorKey cls i)).map (·.value))

/-- Thermal sensors of a Terrace region (Table 20-3). -/
def terraceThermal (t : Nat) : List Nat := (List.range 5).map (fun j => 5 * t + j)
/-- Thermal sensors of a Basin outside its Terraces. -/
def basinThermal (b : Nat) : List Nat := (List.range 8).map (fun j => 80 + 8 * b + j)
/-- Thermal sensors of Headworks. -/
def headThermal : List Nat := (List.range 24).map (fun j => 96 + j)

/-- The reading of a region's junction temperature in 0.1 °C: the highest of its five sensors (R516). -/
def State.junction (s : State) (t : Nat) : Int := (s.sensorVals 0 (terraceThermal t)).foldl max (-1000)

/-- Requests whose phases run on Rills of a node Terrace. -/
def State.terraceRids (s : State) (t : Nat) : List Nat :=
  (s.fabric.rills.filterMap (fun p =>
    if p.1 % 2 = t / 8 ∧ p.1 / 2 % 8 = t % 8 then p.2.rid else none)).dedup

/-- The Rills of a node Terrace become idle. -/
def State.idleTerrace (s : State) (t : Nat) : State :=
  let rills := (s.fabric.rills.map (fun (p : Nat × Rill) =>
    if p.1 % 2 = t / 8 ∧ p.1 / 2 % 8 = t % 8 then (p.1, p.2.stop) else p)).filter (fun p => p.2 != Rill.reset)
  ({ s with fabric := { s.fabric with rills := rills } } : State).settleMaps

/-- A region trips: its clock stops, its phases are re-executed elsewhere and charged to no resource, and the trip is
logged as critical (R526). -/
def State.trip (s : State) (t cause : Nat) : State :=
  let r := s.region t
  if r.tripped.testBit cause then s
  else
    let rids := s.terraceRids t
    let s1 := (s.setRegion t { r with tripped := r.tripped ||| (1 <<< cause), stopped := true, point := 0 }).idleTerrace t
    let s2 := if r.tripped = 0 then (s1.bumpSat Reg.KPR_CNT 48 16 1).logEvent 4 0 sevCritical else s1
    rids.foldl (fun (u : State) q => u.rerun q) s2

/-- A tripped region restarts at point 0 once every sensor that can hold it reads below 90 °C (R526). -/
def State.untrip (s : State) (t : Nat) : State :=
  let r := s.region t
  let cool := fun (l : List Nat) => (s.sensorVals 0 l).all (fun v => decide (v < 900))
  let keep := fun (b : Nat) (l : List Nat) => if r.tripped.testBit b && !cool l then 1 <<< b else 0
  let m := keep 0 (terraceThermal t) + keep 1 (basinThermal (t / 8)) + keep 2 headThermal
  if r.tripped ≠ 0 ∧ m = 0 then s.setRegion t { r with tripped := 0, stopped := r.held.isSome && r.stopped, point := 0 }
  else if r.tripped = m then s else s.setRegion t { r with tripped := m }

/-- Trips and restarts that the present readings call for. -/
def State.checkTrips (s : State) : State :=
  let hot := fun (u : State) (l : List Nat) => (u.sensorVals 0 l).any (fun v => decide (1050 ≤ v))
  let s1 := (List.range 16).foldl (fun (u : State) t =>
    let u1 := if hot u (terraceThermal t) then u.trip t 0 else u
    let u2 := if hot u1 (basinThermal (t / 8)) then u1.trip t 1 else u1
    if hot u2 headThermal then u2.trip t 2 else u2) s
  (List.range 16).foldl (fun (u : State) t => u.untrip t) s1

/-- Sustained power limit PL1_W. -/
def State.pl1 (s : State) : Nat := s.regF Reg.KPR_CFG 12 10

/-- The fast throttle is asserted (R524): counted and logged when it was not. -/
def State.assertFast (s : State) : State :=
  if s.keeper.fast then s.withKeeper { s.keeper with fastBelow := 0 }
  else ((s.withKeeper { s.keeper with fast := true, fastBelow := 0 }).bumpSat Reg.KPR_CNT 32 16 1).logEvent 4 1 sevError

/-- Neighbouring Terraces of one Basin, by number in the Basin (R518). -/
def neighbours (t u : Nat) : Bool :=
  (t / 4 == u / 4 && (t + 1 == u || u + 1 == t)) || t + 4 == u || u + 4 == t

/-- Steps between two Terraces of a Basin on the grid of R518. -/
def gridDist (t u : Nat) : Nat :=
  let d := fun (a b : Nat) => if a < b then b - a else a - b
  d (t / 4) (u / 4) + d (t % 4) (u % 4)

/-- The neighbours of a node Terrace, as node Terraces. -/
def neighboursOf (t : Nat) : List Nat := ((List.range 8).filter (neighbours (t % 8))).map (fun u => 8 * (t / 8) + u)

/-- The rail that a voltage sensor measures, at the present point of its region (Tables 20-3 and 21-2). -/
def State.sensorRail (s : State) (i : Nat) : Rail := railAt (railOfSensor i) (s.region i).point

/-- Does a value lie outside a rail's limits? -/
def Rail.out (r : Rail) (v : Int) : Bool := decide (v < r.lo ∨ r.hi < v)

/-- Is a sensor's rail in regulation: a standby rail always, a stack supply or another main rail while PWROK is high (R546, R547)? -/
def State.railOn (s : State) (i : Nat) : Bool := s.rst.pwrok || decide (46 ≤ i)

/-- Does a reading begin an excursion of its rail: it lies outside the limits, and the one before it did not (R548)? -/
def State.excursion (s : State) (r : Reading) : Bool :=
  let out := (s.sensorRail r.idx).out
  r.cls.val == 1 && decide (r.idx.val < 48) && s.railOn r.idx && out r.value &&
  !(match Store.find? s.keeper.sensors (sensorKey r.cls r.idx) with
    | some x => out x.value
    | none => false)

/-- Is a reading one of a stack supply outside its limits (R489, R547)? -/
def State.stackRailOut (s : State) (r : Reading) : Bool :=
  r.cls.val == 1 && decide (24 ≤ r.idx.val ∧ r.idx.val < 32) && (s.sensorRail r.idx).out r.value

/-- Does what the AVSBus reads of a rail of fixed voltage lie outside its limits? -/
def railOutside (r : RailRead) : Bool := (railAt r.rail 0).out (fScaled r.volts 1000)

/-- Does a reading of VPP_M lie outside its limits? -/
def vppOutside (r : RailRead) : Bool := decide (r.rail.val = railVpp) && railOutside r

/-- Is it one of a stack supply, VDD_M0 to VDD_M7 or VPP_M, outside its limits (R489, R547)? -/
def stackSupplyOut (r : RailRead) : Bool := decide (21 ≤ r.rail.val ∧ r.rail.val ≤ railVpp) && railOutside r

/-- What a reading of class and index adds to the sensors: the value, and the history too while Keeper firmware runs (R516). -/
def State.noteSensor (s : State) (st : Store Sensor) (key : Nat) (v : Int) : Store Sensor :=
  let x := Store.get (fun _ => Sensor.reset) st key
  Store.insert st key (if s.keeper.running then x.take s.tick v else { x with value := v })

/-- The sensors after the readings and the AVSBus telemetry of one sample (R516, R544). -/
def State.sampled (s : State) (readings : List Reading) (rails : List RailRead) : Store Sensor :=
  let st := readings.foldl (fun (st : Store Sensor) (r : Reading) => s.noteSensor st (sensorKey r.cls r.idx) r.value) s.keeper.sensors
  rails.foldl (fun (st : Store Sensor) (r : RailRead) => s.noteSensor st (sensorKey 3 r.rail) (railPower r.volts r.amps)) st

/-- Package power in 0.1 W: the sum of the regulator telemetry of the rails (R523, R544). -/
def State.packagePower (s : State) : Nat := sumNat ((s.sensorVals 3 (List.range railCount)).map Int.toNat)

/-- Does a value exceed a number of W, both in 0.1 W, summed over `n` samples? -/
def wattsAbove (sum n watts : Nat) : Bool := decide (10 * watts * n < sum)

/-- What the readings of this sample say of a region's caps (R521). -/
def State.noteRegion (s : State) (t : Nat) : Region :=
  let r := s.region t
  let tj : Int := 10 * (s.regF Reg.KPR_CFG 0 7 : Nat)
  let guard : Int := 10 * (s.regF Reg.KPR_CFG 7 5 : Nat)
  let slack : Int := (s.regF Reg.KPR_CFG 30 7 : Nat)
  let j := s.junction t
  let can := s.sensorVals 2 ((List.range 3).map (fun i => 3 * t + i))
  { r with
    hotSeen := r.hotSeen || decide (tj ≤ j)
    warmSeen := r.warmSeen || decide (tj - 30 ≤ j)
    gapSeen := r.gapSeen || (neighboursOf t).any (fun u => decide (guard ≤ j - s.junction u))
    lowSeen := r.lowSeen || can.any (fun v => decide (v < slack))
    midSeen := r.midSeen || can.any (fun v => decide (v < 2 * slack)) }

/-- This hour's lowest values after a sample: rails from their set values, and canaries (R531). -/
def State.noteWorst (s : State) (readings : List Reading) : Store Int :=
  readings.foldl (fun (w : Store Int) (r : Reading) =>
    if r.cls.val = 1 then Keeper.lowest w (advKey 1 r.idx) (r.value - (s.sensorRail r.idx).set)
    else if r.cls.val = 2 then Keeper.lowest w (advKey 2 r.idx) r.value
    else w) s.keeper.worst

/-- What Keeper firmware makes of a sample: the 1 ms average, the peak, the power cap after 8 ms above PL1_W, and what the caps and the
advisories need (R516, R521, R523, R531). `s` holds the sensors of the sample. -/
def State.useSample (s : State) (readings : List Reading) : State :=
  let k := s.keeper
  let w := s.packagePower
  let samples := (k.samples ++ [w]).drop (k.samples.length + 1 - 100)
  let sum := sumNat samples
  let n := samples.length
  let above := if wattsAbove w 1 s.pl1 then k.overSince + 1 else 0
  let cut := decide (800 ≤ above)
  let s1 := s.withKeeper { k with
    samples := samples
    overSince := above
    pcap := if cut then 0 else k.pcap
    powerOk := if cut then 0 else k.powerOk
    highSeen := k.highSeen || wattsAbove sum n (s.pl1 - 25)
    nearSeen := k.nearSeen || decide (10 * (s.pl1 - 75) * n ≤ sum)
    worst := s.noteWorst readings }
  let s2 := s1.setRegF Reg.KPR_POWER 16 16 (max (s1.regF Reg.KPR_POWER 16 16) (min (nearest w 10) 65535))
  let s3 := s2.setRegF Reg.KPR_POWER 0 16 (min 65535 (nearest sum (10 * n)))
  let s4 := if cut ∧ 0 < k.pcap then s3.bumpSat Reg.KPR_CNT 16 16 1 else s3
  (List.range 16).foldl (fun (u : State) t => u.setRegion t (u.noteRegion t)) s4

/-- A sensor of an optical engine begins to read 105 °C or more: the trip is logged, and no Terrace lies on that die (R526, log
24). -/
def State.opticTrip (s : State) (r : Reading) : Bool :=
  r.cls.val == 0 && decide (120 ≤ r.idx.val) && decide (1050 ≤ r.value) &&
  !((s.sensorVals 0 [r.idx.val]).any (fun v => decide (1050 ≤ v)))

/-- SENSOR_SAMPLE: every 10 µs the sensors and the regulator telemetry are read: histories, the 1 ms average and the
peak, trips, the power cap after 8 ms above PL1_W, and the internal fast throttle above 1,150 W (R516, R523, R524,
R526). Trips and the throttle are the hardware's, whether Keeper firmware runs or not. Each excursion of a rail that begins is logged,
and nothing else follows from it (R548); whether the stack supplies stay within their limits while PWROK is low is recorded (R489). -/
def execSensorSample (readings : List Reading) (rails : List RailRead) (s : State) : Res :=
  let k := s.keeper
  let vpp := rails.filter (fun (r : RailRead) => decide (r.rail.val = railVpp))
  let vppBad := vpp.any vppOutside
  let stackBad := rails.any stackSupplyOut || readings.any s.stackRailOut
  let logs := (readings.filter s.excursion).length + b2n (vppBad && !k.vppOut && s.rst.pwrok)
  let trips := (readings.filter s.opticTrip).length
  let s1 := s.withKeeper { k with
    sensors := s.sampled readings rails
    vppOut := if vpp.isEmpty then k.vppOut else vppBad
    railsOk := k.railsOk && !stackBad }
  let peak := wattsAbove s1.packagePower 1 1150
  let s2 := if k.running then s1.useSample readings else s1
  let s3 := if wattsAbove s1.packagePower 1 s.pl1 then s2.withKeeper { s2.keeper with fastBelow := 0 }
    else s2.withKeeper { s2.keeper with fastBelow := k.fastBelow + 1 }
  let s4 := if peak then s3.assertFast else s3
  let s5 := (List.range logs).foldl (fun (u : State) _ => u.logEvent 4 5 sevError) s4
  let s6 := (List.range trips).foldl (fun (u : State) _ => u.logEvent 4 0 sevCritical) s5
  .next s6.checkTrips

/-- Lower a cap by one point. -/
def lower (c : Nat) : Nat := c - 1
/-- Raise a cap by one point, to at most 8. -/
def raise (c : Nat) : Nat := min 8 (c + 1)

/-- One cap in one interval: lowered when `bad`, raised after `n` intervals in a row that were `good`; answers cap and
run. -/
def stepCap (cap run n : Nat) (bad good : Bool) : Nat × Nat :=
  if bad then (lower cap, 0)
  else if !good then (cap, 0)
  else if run + 1 = n then (raise cap, 0) else (cap, run + 1)

/-- The caps of a region after an interval: what its samples and the present readings have shown, and whether it is taken to read
TJ_TARGET for its thermal cap (R521, Table 20-13; log 162). -/
def State.stepRegion (s : State) (hot : Bool) (t : Nat) : Region :=
  let r := s.noteRegion t
  let th := stepCap r.thermal r.thermalOk 50 (hot || r.hotSeen) (!r.warmSeen)
  let ga := stepCap r.gap r.gapOk 50 r.gapSeen (!r.gapSeen)
  let ti := stepCap r.timing r.timingOk 50000 r.lowSeen (!r.midSeen)
  { r with
    thermal := th.1
    thermalOk := th.2
    gap := ga.1
    gapOk := ga.2
    timing := ti.1
    timingOk := ti.2
    hotSeen := false
    warmSeen := false
    gapSeen := false
    lowSeen := false
    midSeen := false
    below := if th.1 < s.regF Reg.KPR_PMAX (4 * t) 4 then r.below + 1 else r.below }

/-- The cap of a region (R521); a tripped region stands at point 0 (DEDUCED, log 24). -/
def State.capOf (s : State) (t : Nat) : Nat :=
  let r := s.region t
  if r.tripped ≠ 0 then 0
  else min (s.regF Reg.KPR_PMAX (4 * t) 4) (min r.thermal (min r.gap (min s.keeper.pcap r.timing)))

/-- The highest points under the caps with neighbours at most 3 apart (R522). -/
def State.targetOf (s : State) (t : Nat) : Nat :=
  (List.range 8).foldl (fun m u => min m (s.capOf (8 * (t / 8) + u) + 3 * gridDist (t % 8) u)) 8

/-- KPR_LIMIT of a region: the cap that holds it below point 8, in the order of R521 (Table 20-13). -/
def State.limitOf (s : State) (t : Nat) : Nat :=
  let r := s.region t
  if r.tripped ≠ 0 then 7
  else if r.held.isSome then 6
  else
    let g := s.targetOf t
    let c := s.capOf t
    if g = 8 then 0 else if g < c then 5
    else if s.regF Reg.KPR_PMAX (4 * t) 4 = c then 0
    else if r.thermal = c then 1 else if r.gap = c then 2 else if s.keeper.pcap = c then 3 else 4

/-- One point toward a target. -/
def toward (p g : Nat) : Nat := if p < g then p + 1 else if g < p then p - 1 else p

/-- How far two points are apart. -/
def pointGap (p q : Nat) : Nat := if p < q then q - p else p - q

/-- May a region move from point `p` to `p'` beside a neighbour at `q` that moves to `q'`: they are then no more than 3 apart, or, when
the neighbour has just restarted at point 0 under R526, the move brings them closer (R519, R522)? -/
def moveOk (p p' q q' : Nat) : Bool := decide (pointGap p' q' ≤ 3) || decide (pointGap p' q < pointGap p q)

/-- A region takes a point: a rise moves its voltage before its clock, a fall its clock before its voltage (R522, R544). -/
def State.takePoint (s : State) (t p : Nat) : State :=
  let old := (s.region t).point
  let volt := Out.setVoltage t (coreMv p).toNat
  let clock := Out.setClock t (coreMhz p)
  (s.setRegion t { s.region t with point := p }).emits (if old < p then [volt, clock] else [clock, volt])

/-- Every region moves one point toward its target, unless a neighbour pair would then be more than 3 apart (R522). -/
def State.movePoints (s : State) : State :=
  let want := fun (t : Nat) => toward (s.region t).point (s.targetOf t)
  (List.range 16).foldl (fun (u : State) t =>
    let r := s.region t
    let p := want t
    let ok := (neighboursOf t).all (fun v => (s.region v).stopped || moveOk r.point p (s.region v).point (want v))
    if r.stopped ∨ p = r.point ∨ !ok then u else u.takePoint t p) s

/-- Hold a region that is at point 0 and still 30 °C hotter than a neighbour; release it when the difference is below
GAP_GUARD (R525). -/
def State.checkHold (s : State) (t : Nat) : State :=
  let r := s.region t
  let diff := (neighboursOf t).foldl (fun m u => max m (s.junction t - s.junction u)) 0
  let guard : Int := 10 * (s.regF Reg.KPR_CFG 7 5 : Nat)
  match r.held with
  | none =>
    if r.point = 0 ∧ 300 ≤ diff then
      ((s.setRegion t { r with held := some s.tick }).bumpSat Reg.KPR_CNT 48 16 1).logEvent 4 2 sevError
    else s
  | some _ =>
    if diff < guard then s.setRegion t { r with held := none, stopped := decide (r.tripped ≠ 0) } else s

/-- CONTROL_INTERVAL: every 20 µs the caps, targets and points move, holds begin and end, and an injected HOT counts for
this interval (R521 to R525, R527). -/
def execControlInterval (s : State) : Res :=
  if !s.keeper.running then .next s
  else
    let hot := bit (s.reg Reg.KPR_INJECT) 0
    let injT := s.regF Reg.KPR_INJECT 1 4
    let regs := (List.range 16).map (fun t => (t, s.stepRegion (hot && t == injT) t))
    let lowered := sumNat (regs.map (fun p =>
      b2n (decide (p.2.thermal < (s.region p.1).thermal)) + b2n (decide (p.2.gap < (s.region p.1).gap))))
    let s1 := regs.foldl (fun (u : State) p => u.setRegion p.1 p.2) s
    let k := s.keeper
    let n := k.samples.length
    let sum := sumNat k.samples
    let high := k.highSeen || wattsAbove sum n (s.pl1 - 25)
    let near := k.nearSeen || (decide (0 < n) && decide (10 * (s.pl1 - 75) * n ≤ sum))
    let pc := stepCap k.pcap k.powerOk 50 high (!near)
    let s2 := (s1.withKeeper { s1.keeper with
      pcap := pc.1
      powerOk := pc.2
      highSeen := false
      nearSeen := false
      intervals := k.intervals + 1
      limited := k.limited + b2n (decide (pc.1 < 8) || k.fast) }).bumpSat Reg.KPR_CNT 0 16 lowered
    let s3 := if pc.1 < s.keeper.pcap then s2.bumpSat Reg.KPR_CNT 16 16 1 else s2
    let s4 := s3.movePoints
    let s5 := (List.range 16).foldl (fun (u : State) t => u.checkHold t) s4
    let s6 := (List.range 16).foldl (fun (u : State) t => u.setRegion t { u.region t with cause := u.limitOf t }) s5
    .next (if hot then (s6.setRegF Reg.KPR_INJECT 0 1 0).logEvent 4 3 sevInfo else s6)

/-- HOLD_CLOCK_STOP: the clock of a held region stops, when its units have completed or 100 µs have passed, and its unfinished phases
are re-executed in another region, charged to no resource (R525). Those that run on its Rills are known; `rids` names those that use
its array alone. -/
def execHoldClockStop (terrace : Fin 16) (rids : List Nat) (s : State) : Res :=
  let r := s.region terrace
  let left := (s.terraceRids terrace ++ rids).dedup
  match r.held with
  | none => .next s
  | some t =>
    if r.stopped ∨ (!left.isEmpty ∧ s.tick.toNat < t.toNat + 10000) then .next s
    else
      let s1 := (s.setRegion terrace { r with stopped := true }).idleTerrace terrace
      .next (left.foldl (fun (u : State) q => u.rerun q) s1)

/-- THROTTLE_N_FALL: a low level of 50 ns or longer halves every Terrace clock (R524, R545). -/
def execThrottleNFall (long : Bool) (s : State) : Res :=
  if !long then .next s
  else .next ({ s with rst := { s.rst with throttleN := false } } : State).assertFast

/-- FAST_THROTTLE_END: with the input released and no sample above PL1_W for 100 µs the halving ends (R524). -/
def execFastThrottleEnd (s : State) : Res :=
  let s1 := { s with rst := { s.rst with throttleN := true } }
  if s.keeper.fast ∧ 10 ≤ s.keeper.fastBelow then .next (s1.withKeeper { s1.keeper with fast := false })
  else .next s1

/-- INJECT_HOT: KPR_INJECT.HOT is set for Terrace `t` (Table 20-13). -/
def execInjectHot (t : Fin 16) (s : State) : Res :=
  .next (s.pfWrite 0x12 (keyOff Reg.KPR_INJECT) ((s.setRegF Reg.KPR_INJECT 1 4 t).setRegF Reg.KPR_INJECT 0 1 1))

/-! ### Advisories -/

/-- A quantity that Keeper records hourly (Table 20-9): advisory bit, item within it, and the hour's worst value. Fractions are in units
of 0.01 percent; a rail's lowest sample is in mV from its set value; an even OPTICAL item is RX_OMA in 0.01 dBm and an odd one EYE_V in
percent; FLASH item 0 is SPARE_PCT and 1 WEAR_PCT; SPARES items are Runnels by Terrace, columns by array and lanes by engine. -/
structure HourValue where
  adv : Nat
  item : Nat
  value : Int
  deriving DecidableEq, Repr

/-- The quantities of Table 20-9 at the end of an hour. Those of the flash are recorded while it is formatted (log 163). -/
def State.hourValues (s : State) : List HourValue :=
  let k := s.keeper
  let part := fun (n : Nat) => if k.intervals = 0 then 0 else n * 10000 / k.intervals
  let c := s.cist
  (List.range 16).map (fun t => ⟨0, t, part (s.region t).below⟩) ++
  k.worst.map (fun p => ⟨p.1 / 65536, p.1 % 65536, p.2⟩) ++
  (if c.spareAtFormat = 0 then [] else [⟨4, 0, c.sparePct⟩, ⟨4, 1, c.wearPct⟩]) ++
  (List.range 16).map (fun t => ⟨5, t, runnelSparesLeft s.record (t / 8) (t % 8)⟩) ++
  (List.range 16).map (fun t => ⟨5, 16 + t, columnSparesLeft s.record (t / 8) (t % 8)⟩) ++
  (List.range 4).map (fun e => ⟨5, 32 + e, b2n (s.spareFree e)⟩) ++
  (List.range 8).map (fun q => ⟨6, q, (s.stack q).repairs⟩) ++
  [⟨7, 0, part k.limited⟩]

/-- The limit of a quantity, and whether a value at the lower side of it is past it (Table 20-9). -/
def State.advLimit (s : State) (adv item : Nat) : Int × Bool :=
  match adv with
  | 0 => (100, false)
  | 1 => (-40, true)
  | 2 => ((s.regF Reg.KPR_CFG 30 7 : Nat), true)
  | 3 => (if item % 2 = 0 then -300 else 10, true)
  | 4 => if item = 0 then (10, true) else (90, false)
  | 5 => (0, true)
  | 6 => (4, false)
  | _ => (1000, false)

/-- Is a value past a limit? -/
def past (lim : Int) (low : Bool) (v : Int) : Bool := if low then decide (v ≤ lim) else decide (lim ≤ v)

/-- Does the least-squares line through hourly values pass the limit by the hour `n − 1 + h`? Both sides are multiplied
by n and by the sum of squares, which is positive for at least two values. -/
def linePast (vs : List Int) (h : Nat) (lim : Int) (low : Bool) : Bool :=
  let n : Int := vs.length
  let xs : List Int := (List.range vs.length).map (fun i => (i : Int))
  let sx := xs.foldl (· + ·) 0
  let sy := vs.foldl (· + ·) 0
  let sxx := (xs.map (fun x => x * x)).foldl (· + ·) 0
  let sxy := (List.zipWith (· * ·) xs vs).foldl (· + ·) 0
  let d := n * sxx - sx * sx
  let m := n * sxy - sx * sy
  let at_ := fun (x : Int) => sy * d + m * (n * x - sx)
  let l := lim * n * d
  let p := fun (x : Int) => if low then decide (at_ x ≤ l) else decide (l ≤ at_ x)
  p (n - 1) || p (n - 1 + h)

/-- One quantity at the end of an hour: it is recorded, a line is fitted through at most 168 hourly values, and the advisory is raised
when the value is past its limit or the line crosses it within ADV_DAYS; SPARES, HBM and POWER compare the present value alone. A
quantity raises at most once a day (R531). -/
def State.hourValue (s : State) (v : HourValue) : State :=
  let key := advKey v.adv v.item
  let old := Store.get (fun _ => []) s.keeper.hourly key
  let vs := (old ++ [v.value]).drop (old.length + 1 - 168)
  let s1 := s.withKeeper { s.keeper with hourly := Store.insert s.keeper.hourly key vs }
  let l := s.advLimit v.adv v.item
  let now := if v.adv = 6 then v.value - (vs.drop (vs.length - 25)).headD v.value else v.value
  let trend := decide (v.adv ≤ 4) && decide (24 ≤ vs.length) && linePast vs (24 * s.regF Reg.KPR_CFG 22 8) l.1 l.2
  let today := match Store.find? s.keeper.lastRaised key with
    | some t => decide (s.tick.toNat < t.toNat + 24 * hourDrops)
    | none => false
  if (past l.1 l.2 now || trend) && !today then
    let s2 := s1.withKeeper { s1.keeper with lastRaised := Store.insert s1.keeper.lastRaised key s.tick }
    (s2.setRegF Reg.KPR_ADVISORY v.adv 1 1).logEvent 5 v.adv sevAdvisory
  else s1

/-- ADVISORY_HOUR: the hour's worst values, which `last` ends, are recorded and advisories raised, and the next hour begins (R531). -/
def execAdvisoryHour (last : List Reading) (s : State) : Res :=
  if !s.keeper.running then .next s
  else
    let s0 := s.withKeeper { s.keeper with worst := s.noteWorst last }
    let s1 := s0.hourValues.foldl State.hourValue s0
    let s2 := (List.range 16).foldl (fun (u : State) t => u.setRegion t { u.region t with below := 0 }) s1
    .next (s2.withKeeper { s2.keeper with
      intervals := 0
      limited := 0
      worst := [] })

/-- Does the SMBus target answer: Keeper firmware runs, or the boot ROM waits for a bundle (R493, R514)? -/
def State.smbusUp (s : State) : Bool := s.keeper.running || s.keeper.waitSmbus

/-- ALERT is asserted: it is enabled, and an unmasked advisory or a critical entry stands (R532). -/
def State.alerting (s : State) : Bool :=
  bit (s.reg Reg.KPR_ALERT_CFG) 0 &&
    (decide (s.regF Reg.KPR_ADVISORY 0 8 &&& s.regF Reg.KPR_ALERT_CFG 8 8 ≠ 0) || decide (s.regF Reg.KPR_LOG 32 16 ≠ 0))

/-- What the node answers to the SMBus Alert Response Address: its own address while ALERT is asserted (R512, R532). -/
def State.alertAnswer (s : State) : Option Nat := if s.smbusUp && s.alerting then some 0x5A else none

/-- Is the pin low: ALERT when it is enabled and an unmasked advisory or a critical entry stands, CLEP_LOSS when that
is configured and the committed CLEP_CTRL stands: under KEEP its mirror is back at the end of step 5 (R44, R494, R532, R557)? -/
def State.alertPin (s : State) : Bool :=
  s.alerting ||
  (bit (s.reg Reg.CLEP_CTRL) 6 && s.clep.lossHeld && !s.rst.inReset && decide (5 < s.rst.step))

/-! ### The event log over SMBus -/

/-- The 32 bytes of a log entry (Table 20-7). -/
def LogEntry.bytes (e : LogEntry) : List Byte :=
  let b := leBytes 8 e.time.toNat ++ leBytes 4 e.seq.toNat ++ leBytes 2 e.code.toNat ++
    leBytes 1 (e.sev % 4 + 4 * b2n e.timeValid + 8 * b2n e.timeLocked) ++ [0] ++ padTo 0 12 e.data
  b ++ leBytes 4 (crc32c b).toNat

/-- LOG_FLUSH: the buffered entries go to flash (R528, R530). -/
def execLogFlush (s : State) : Res :=
  let k := s.keeper
  .next (s.withKeeper { k with
    log := ringLog (k.log ++ k.buffered)
    buffered := [] })

/-- LOG_READ: the entry with a sequence number, or 32 zero bytes when the log does not hold it (R514). -/
def execLogRead (seq : U32) (s : State) : Res :=
  if !s.smbusUp then .next s
  else
    let e := (s.keeper.log ++ s.keeper.buffered).find? (fun e => e.seq == seq)
    .next (s.emit (.smbus (match e with | some e => e.bytes | none => zeroBytes 32)))

/-! ### Bundles -/

/-- Does a bundle verify (R534)? Answers 0, or LAST_ERR of Table 20-11 of the first check that fails. -/
def State.verifyBundle (s : State) (b : Bundle) : Nat :=
  let len := leAt b 8 4
  let sect := [(leAt b 24 4, leAt b 28 4), (leAt b 32 4, leAt b 36 4), (leAt b 40 4, leAt b 44 4)]
  let apart := fun (x y : Nat × Nat) => decide (x.2 = 0 ∨ y.2 = 0 ∨ x.1 + x.2 ≤ y.1 ∨ y.1 + y.2 ≤ x.1)
  let sectOk := sect.all (fun x => decide (x.1 + x.2 ≤ len)) &&
    (match sect with | [x, y, z] => apart x y && apart x z && apart y z | _ => false)
  if b.length < 352 ∨ leAt b 0 4 ≠ 0x4C444E42 ∨ leAt b 4 2 ≠ 1 ∨ len ≠ b.length ∨ 33550336 < len ∨ !sectOk then 0x11
  else
    let idx := byteAt b 6
    if 3 < idx ∨ s.keeper.revoked.testBit idx ∨ !Config.keyHashMatches idx ((b.drop 112).take 96) then 0x12
    else if !Config.bundleSigValid b then 0x13
    else if byteAt b 7 < s.keeper.svnFused then 0x14
    else if leAt b 12 2 ≠ 1 then 0x15
    else 0

/-- A bundle is staged in S, or staging fails with LAST_ERR (R535); the result is logged. -/
def State.stageBundle (s : State) (b : Option Bundle) (written : Bool) : Nat × State :=
  let err := match b with
    | none => 0x10
    | some x => let e := s.verifyBundle x; if e ≠ 0 then e else if written then 0 else 0x16
  let k := s.keeper
  let k1 := if err = 0 then { k with fwState := 4, staged := b }
    else { k with fwState := 6, fwErr := err, staged := if err = 0x16 then none else k.staged }
  (err, (s.withKeeper k1).logEvent 8 0 (if err = 0 then sevInfo else sevError))

/-- FW_STAGE_DONE: a staging that runs ends staged or failed (R535). -/
def execFwStageDone (bundle : Option (List Byte)) (written : Bool) (s : State) : Res :=
  if s.keeper.fwState = 1 ∨ s.keeper.fwState = 2 ∨ s.keeper.fwState = 3 then .next (s.stageBundle bundle written).2
  else .next s

/-- BUNDLE_CHUNK: 1 to 240 bytes at an offset; another length is NACKed and has no effect (R514). -/
def execBundleChunk (off : U32) (bytes : List Byte) (s : State) : Res :=
  if !s.smbusUp then .next s
  else if bytes.length = 0 ∨ 240 < bytes.length then .next (s.emit .nack)
  else
    let st := (List.zip (List.range bytes.length) bytes).foldl
      (fun (m : Store Byte) p => Store.insert m (off.toNat + p.1) p.2) s.keeper.chunks
    .next (s.withKeeper { s.keeper with chunks := st })

/-- The delivered bytes 0 to `n` − 1, if every one has been delivered. -/
def chunkBytes (m : Store Byte) (n : Nat) : Option Bundle := (List.range n).mapM (fun i => Store.find? m i)

/-- The boot record of a slot, once Keeper has written one: NODE and SERVICE in its first word, and a CRC-32C over its first 4,092 bytes
(R513). Bytes to which the rule gives no meaning are 0 (DESIGN CHOICE, log 201). -/
def Keeper.bootBytes (k : Keeper) : Option (List Byte) :=
  k.bootRecord.map (fun r =>
    let b := padTo 0 4092 (leBytes 4 (r.1 % 4096 + 65536 * (r.2 % 4096)))
    b ++ leBytes 4 (crc32c b).toNat)

/-- Domain restarts that RST_CTRL asked for while Keeper firmware was not running start once it runs (R469, R491, R507). -/
def State.takeAsked (s : State) : State :=
  [0, 1].foldl (fun (t : State) b => if t.regF Reg.RST_CTRL b 1 = 1 then t.startRestart b .control else t) s

/-- BUNDLE_END: the delivered bundle is verified, and booted while the boot ROM waits for one, or else staged; the
status is returned (R493, R514). -/
def execBundleEnd (len : U32) (written : Bool) (s : State) : Res :=
  let b := if len.toNat ≤ 33550336 then chunkBytes s.keeper.chunks len.toNat else none
  let s0 := s.withKeeper { s.keeper with chunks := [] }
  if !s.smbusUp then .next s
  else if s.keeper.waitSmbus then
    let err := match b with | none => 0x10 | some x => s.verifyBundle x
    let s1 := if err = 0 then
        (s0.withKeeper { s0.keeper with booted := b, bootedB := false, waitSmbus := false, running := true }).takeAsked
      else s0
    .next (s1.emit (.smbus (leBytes 1 err)))
  else
    let (err, s1) := s0.stageBundle b written
    .next (s1.emit (.smbus (leBytes 1 err)))

/-! ### Authenticated commands -/

/-- AUTH_NONCE: a fresh nonce, a free value, which invalidates the previous one (R515). -/
def execAuthNonce (s : State) : Res :=
  if !s.smbusUp then .next s
  else
    let (x, s1) := s.takeFree 384
    .next ((s1.withKeeper { s1.keeper with nonce := some x.toNat }).emit (.smbus (leBytes 48 x.toNat)))

/-- An AUTH_CMD: carried out when its signature is valid for the nonce, which is then used; otherwise refused and logged
(R515). A signature that has not 96 bytes is NACKed and has no effect (R514). `act` answers the state after the action, or none when the
action itself is refused. -/
def State.authCmd (s : State) (cmd : Nat) (sig : List Byte) (act : State → Option State) : State :=
  let refuse := fun (t : State) => (t.logEvent 8 1 sevError).emit (.smbus [1])
  if !s.smbusUp then s
  else if sig.length ≠ 96 then s.emit .nack
  else match s.keeper.nonce with
  | none => refuse s
  | some n =>
    if !Config.authValid n cmd sig then refuse s
    else
      let s1 := s.withKeeper { s.keeper with nonce := none }
      match act s1 with
      | some t => t.emit (.smbus [0])
      | none => refuse s1

/-- AUTH_OPEN_DEBUG: debug access opens until the next reset when STRAPSEL bit 3 is 1 (Table 20-5). -/
def execAuthOpenDebug (sig : List Byte) (s : State) : Res :=
  .next (s.authCmd 1 sig (fun t =>
    if 8 ≤ t.rst.strap then some (t.withKeeper { t.keeper with debug := true }) else none))

/-- The other level. -/
def Level.other : Level → Level
  | .full => .keep
  | .keep => .full

/-- AUTH_BLOW_PWROK_LEVEL: the power-on level fuse is blown to its other level, once (R487). -/
def execAuthBlowPwrokLevel (sig : List Byte) (s : State) : Res :=
  .next (s.authCmd 2 sig (fun t =>
    if t.rst.pwrokBlown then some t
    else some { t with rst := { t.rst with pwrokLevel := t.rst.pwrokLevel.other, pwrokBlown := true } }))

/-- AUTH_BLOW_RESETN_LEVEL: the RESET_N level fuse is blown to its other level, once (R487). -/
def execAuthBlowResetnLevel (sig : List Byte) (s : State) : Res :=
  .next (s.authCmd 3 sig (fun t =>
    if t.rst.resetnBlown then some t
    else some { t with rst := { t.rst with resetnLevel := t.rst.resetnLevel.other, resetnBlown := true } }))

/-- The SVN of the booted bundle. -/
def State.activeSvn (s : State) : Nat := match s.keeper.booted with | some b => byteAt b 7 | none => 0

/-- The fused security version rises to the active bundle's SVN; the fuse counter has 64 bits (R534, R537). -/
def State.raiseSvn (s : State) : State :=
  (s.withKeeper { s.keeper with svnFused := max s.keeper.svnFused (min 64 s.activeSvn) }).logEvent 8 2 sevInfo

/-- AUTH_RAISE_SVN: authenticated command 4 (Table 20-5). -/
def execAuthRaiseSvn (sig : List Byte) (s : State) : Res :=
  .next (s.authCmd 4 sig (fun t => some t.raiseSvn))

/-- STANDBY_POWER_LOSS: Keeper loses its buffered entries and its domain's state; flash and fuses stay, and no SEQ is used again
(R491, R529, R530). -/
def execStandbyPowerLoss (s : State) : Res :=
  let k := s.keeper
  let k1 := { Keeper.reset with
    running := false, log := k.log, nextSeq := k.nextSeq
    slotA := k.slotA, slotB := k.slotB, staged := k.staged, bootRecord := k.bootRecord
    svnFused := k.svnFused, revoked := k.revoked }
  .next (s.withKeeper k1)

end Sys2Proof.Machine
end

