-- ==== Sys2Proof/Machine/Start.lean ====
section
/-! DEFINITION. Starting a phase of a request: what it needs in service, the lists, rows and parts it asks for (R65,
R143, R152, R232 to R235, R265, R356, R496, R499, R506). -/

namespace Sys2Proof.Machine

/-- First phase of an opcode (R127, R178, R193, R200, R225, R309). -/
def firstPhase (op : Nat) (h : ReqHdr) : Phase :=
  if op = opSearch ∨ op = opSearchBatch then .coarse
  else if op = opGather then .coalesce
  else if op = opJoin then (if h.jMode = 0 then .coarse else .scan)
  else if op = opEpochSchedule then .sched
  else if op = opTopk then .select
  else .check

/-- Name pages for a waiter, which pins their lines while its phase runs (R356); a page on the lost-page list ends it with
TIER_FAILED (R362). -/
def State.namePages (s : State) (slice : Nat) (w : Waiter) (lpns : List Nat) : State :=
  if lpns.any s.pageLost then s.tierFail w
  else lpns.foldl (fun (t : State) l => t.namePage slice l w) (s.noteNamed w lpns)

/-- The pages that reading local IDs at an epoch needs: the page versions of the owner tables that it sees, and the row's pages when
it is present. -/
def rowPages (i : Nat) (x : Index) (e : Epoch) (ls : List Nat) : List Nat :=
  (ls.flatMap (fun l => (x.ownHomes e l).map (ownerLpn i) ++
    (match (x.rowAt e l), Store.find? x.rowLoc (x.dirAt e l).row with
      | some _, some loc => (x.desc.rowPgs loc).map (rowLpn i)
      | _, _ => []))).dedup

/-- Groups of IDs by shard number, in ascending order of shard, each in ascending order and without repeats (R152,
R232). -/
def byShard (ids : List GlobalId) : List (U32 × List GlobalId) :=
  let sorted := (ids.map (fun g => g.toNat)).dedup.mergeSort (fun a b => decide (a ≤ b))
  let shards := (sorted.map (fun g => g / 4294967296)).dedup
  shards.map (fun sh => (BitVec.ofNat 32 sh,
    (sorted.filter (fun g => g / 4294967296 == sh)).map (BitVec.ofNat 64)))

/-- Record a new part of a request that has not been answered and send it. -/
def State.newPart (s : State) (rid : Nat) (kind : PartKind) (sh : U32) (groups : List (Nat × List GlobalId))
    (body : Nat → List Byte) : State :=
  let t := s.nextToken
  let p : PartOut := ⟨t, rid, kind, sh, groups, body t, false, false⟩
  if (s.req? rid).all (fun r => r.life == .answered) then s
  else ({ s with nextToken := t + 1, partsOut := s.partsOut ++ [p] } : State).sendPart p

/-- Re-rank parts of a request's queries (R152): the local shard's rows are named, every other shard gets one part. -/
def State.startRerank (s : State) (rid : Nat) (wide : Bool) : State :=
  match s.req? rid with
  | none => s
  | some r =>
    let i := r.hdr.index.toNat
    match s.index? i with
    | none => s
    | some x =>
      let qs := (List.range r.work.queries.length).filterMap (fun n =>
        match r.work.queries[n]? with
        | some q => if wide && !q.widened then none else some (n, q)
        | none => none)
      let shards := (byShard (qs.flatMap (fun q => q.2.cands.map (fun c => c.gid)))).map Prod.fst
      let terms := r.payload.take (24 * r.hdr.nterms)
      shards.foldl (fun (t : State) sh =>
        let recs := qs.filterMap (fun q =>
          match (byShard (q.2.cands.map (fun c => c.gid))).find? (fun g => g.1 == sh) with
          | some g => some (q.1, q.2.query, g.2)
          | none => none)
        if sh = x.desc.shard then
          t.namePages x.desc.slice (.req rid) (rowPages i x r.epoch (recs.flatMap (fun q => q.2.2.map gidLocal)))
        else t.newPart rid (if wide then .wrerank else .rerank) sh (recs.map (fun q => (q.1, q.2.2)))
          (fun tok => rerankPart tok s.ownAdr r.hdr r.epoch (b2n wide) sh terms recs)) s

/-- The gather parts of the open window of a request (R232, R233, R235). -/
def State.startFetch (s : State) (rid : Nat) : State :=
  match s.req? rid with
  | none => s
  | some r =>
    let i := r.hdr.index.toNat
    match s.index? i with
    | none => s
    | some x =>
      let ws := r.windows
      let w := ws.getD (ws.length - 1 - r.winLeft) []
      (byShard w).foldl (fun (u : State) g =>
        if g.1 = x.desc.shard then
          if !x.ownIds g.2 then u.endWith rid stBadDescriptor
          else u.namePages x.desc.slice (.req rid) (rowPages i x r.epoch (g.2.map gidLocal))
        else u.newPart rid .gather g.1 [(0, g.2)] (fun tok => gatherPart tok s.ownAdr r.hdr r.epoch g.1 g.2))
        (s.bump Reg.GSJ_CNT_FETCHED 0 64 w.length)

/-- What a phase needs in service (R496, R499, R506): an answer other than none ends the request or holds it. -/
inductive Need where
  | go
  | hold
  | fail
  deriving DecidableEq, Repr

/-- Is a phase able to start? A phase tied to a Basin that is restarting is handled under R506; one that needs a Basin held
out, or in which its slice has no Terrace in service, fails. -/
def State.phaseNeed (s : State) (r : Req) : Need :=
  let tiedTo := (List.range 2).filter (fun b => s.tied r b)
  let scanning := r.phase == .scan || r.phase == .wscan
  if tiedTo.any (fun b => (s.basin b).state ≥ 2 || (scanning && !s.terraceIn r b)) then .fail
  else if tiedTo.any (fun b => (s.basin b).state == 1) then .hold
  else
    let anyTerrace := (List.range 2).any (fun b => (s.basin b).state ≤ 1 && s.terraceIn r b)
    if (r.phase == .coarse || r.phase == .sample || r.phase == .sum) && !anyTerrace then .fail else .go

/-- A request's next window is open: a fetch asks for its IDs. -/
def State.windowOpens (s : State) (rid : Nat) : State :=
  let s1 := s.modReq rid (fun r => { r with life := .running, winOpen := true })
  match s1.req? rid with
  | some r => if r.phase = .coalesce then s1 else s1.startFetch rid
  | none => s1

/-- A request takes a coalescer window, or waits for one while none is free or another has waited longer (R235). -/
def State.takeWindow (s : State) (rid left : Nat) : State :=
  let waiting := s.reqs.any (fun p => p.1 != rid && p.2.life == .waitWindow)
  let s1 := s.modReq rid (fun r => { r with life := .waitWindow, winLeft := left })
  if s.openWindows < s.regF Reg.GSJ_CFG 0 4 ∧ waiting = false then s1.windowOpens rid else s1

/-- Free windows go to the requests that wait for one, the oldest first: R235 does not say which (DESIGN CHOICE, log 185). -/
def State.handWindows (s : State) : Nat → State
  | 0 => s
  | n + 1 =>
    match List.find? (fun (p : Nat × Req) => p.2.life == .waitWindow) s.reqs with
    | some p => if s.openWindows < s.regF Reg.GSJ_CFG 0 4 then State.handWindows (s.windowOpens p.1) n else s
    | none => s

/-- Dispatch the present phase. -/
def State.dispatch (s : State) (rid : Nat) : State :=
  match s.req? rid with
  | none => s
  | some r =>
    match s.phaseNeed r with
    | .fail => s.endWith rid stResourceFailed
    | .hold => s.abortOrHold rid false
    | .go =>
      match r.phase with
      | .scan | .wscan => (s.nameLists rid).joinWindows rid
      | .rerank => s.startRerank rid false
      | .wrerank => s.startRerank rid true
      | .coalesce => s.takeWindow rid (r.windows.length - 1)
      | .fetch => s.startFetch rid
      | .exact => if r.windows.isEmpty then s else s.takeWindow rid (r.windows.length - 1)
      | _ => s

/-- A phase begins: it has had no re-execution yet and no unit is suspect. -/
def State.startPhase (s : State) (rid : Nat) (ph : Phase) : State :=
  (s.modReq rid (fun r => { r with phase := ph, phaseRuns := 0, suspect := none, onSpare := none, life := .running })).dispatch
    rid

/-- Has a query of a request an element that R74 refuses? -/
def Req.refused (r : Req) (dim : Nat) : Bool :=
  let queries := fun (fmt skip : Nat) => !(payloadQueries fmt dim skip r.payload).all queryOk
  if r.op = opSearch ∨ r.op = opSearchBatch then queries r.hdr.qfmt (24 * r.hdr.nterms)
  else if r.op = opJoin ∧ r.hdr.jMode = 0 then queries r.hdr.jFmt 64
  else false

/-- A request that has passed every check runs (R54). A query element that R74 refuses ends it before any query runs (R162). -/
def State.startReq (s : State) (rid : Nat) : State :=
  match s.req? rid with
  | none => s
  | some r =>
    if (((s.index? r.hdr.index.toNat).map (fun x => r.refused x.desc.dim)).getD false) = true then
      (s.modReq rid (fun q => { q with ran := true })).endWith rid stBadDescriptor
    else
      let s0 := s.modReq rid (fun q => { q with ran := true })
      let s1 := if r.op = opGather then s0.bump Reg.GSJ_CNT_POSITIONS 0 64 r.hdr.positions else s0
      s1.startPhase rid (firstPhase r.op r.hdr)

/-- Has the open window of a request been served: every part of it answered and every read of it ended? -/
def State.windowDone (s : State) (rid : Nat) : Bool :=
  s.partsOut.all (fun p => p.rid != rid || p.done) && !s.readsFor (.req rid)

/-- COALESCER_WINDOW_FREE: the request's open window closes when it has been served and more of its windows are to come, and the
requests that wait for a window take the free ones, this request after those that have waited longer (R233, R235). -/
def execCoalescerWindowFree (rid : Nat) (s : State) : Res :=
  let s1 : State :=
    match s.req? rid with
    | some (r : Req) =>
      if r.life = .running ∧ r.winOpen ∧ r.winLeft ≠ 0 ∧ r.phase ≠ .coalesce ∧ s.windowDone rid then
        (s.closeWindow rid).modReq rid (fun q => { q with life := .waitWindow, winLeft := r.winLeft - 1 })
      else s
    | none => s
  .next (s1.handWindows s1.reqs.length)

/-- An owner's part after its admission: it fails a check, waits for the flip, or has its rows named and its phase runs when they are
resident (R191, R561). A part that comes to wait is counted once (R224). -/
def State.tryPart (s : State) (pid : Nat) : State :=
  match Store.find? s.partsIn pid with
  | none => s
  | some p =>
    match s.partGo p.kind p.body with
    | .fail st => s.failPart pid st
    | .wait =>
      if p.waits then s
      else ({ s with partsIn := Store.insert s.partsIn pid { p with waits := true } } : State).bump Reg.EPOCH_CNT_WAITS 0 64 1
    | .run =>
      match s.index? (partIndex p.body) with
      | none => s
      | some x =>
        let s1 : State := { s with partsIn := Store.insert s.partsIn pid { p with waits := false } }
        let s2 := s1.namePages x.desc.slice (.part pid)
          (rowPages (partIndex p.body) x (partEpoch p.body) (partLocals x p.kind p.body))
        s2.wake (.part pid)

/-- The state with an index replaced: what it no longer holds is freed, its new block arrays get their places and are written, and migrations of lists that
have grown are abandoned (R101, R342). -/
def State.replaceIndex (s : State) (i : Nat) (x : Index) : State :=
  let s1 := ((s.swapIndex i x).placeNew i (s.index? i) x).sealNew false i (s.index? i) x
  match s.index? i with
  | some y => s1.abandonGrown i y x
  | none => s1

/-- Pages of the row store with rows that an index has come to hold. -/
def newRowPages (old new : Index) : List Nat :=
  ((new.rowLoc.filter (fun p => (Store.find? old.rowLoc p.1).isNone)).flatMap (fun p => new.desc.rowPgs p.2)).dedup

/-- Pages of the owner-table region whose versions of U differ from those of an index before. -/
def newOwnPages (old new : Index) : List Nat :=
  let dirs := (Store.keys new.dir).filter (fun l => old.dirAt old.u l != new.dirAt new.u l)
  let tombs := (Store.keys new.tomb).filter (fun l => old.tombAt old.u l != new.tombAt new.u l)
  ((dirs.map (fun l => l / 256) ++ tombs.map (fun l => 16777216 + l / 32768)).filterMap (new.ownHome new.u)).dedup

/-- The flash-homed pages that a change of an index writes (R357). -/
def newPages (i : Nat) (old new : Index) : List Nat :=
  (newRowPages old new).map (rowLpn i) ++ (newOwnPages old new).map (ownerLpn i)

/-- Write the pages of the row store and of the owner tables that an index has come to hold (R357). -/
def State.writeNew (s : State) (i : Nat) (old new : Index) : State :=
  (newPages i old new).foldl (fun (t : State) l => t.writePage new.desc.slice l) s

/-- The seal of an index's U (R197, R210): winners are placed and the owner-table pages they change are written. -/
def State.sealIndex (s : State) (i : Nat) : State :=
  match s.index? i with
  | none => s
  | some x => if x.sealed then s else (s.replaceIndex i x.placeSeal).writeNew i x x.placeSeal

/-- Has the seal of U begun (R197)? -/
def State.sealBegun (s : State) (x : Index) : Bool :=
  x.sealed || (match x.flip with
    | some f => decide (f.time.toNat ≤ s.now.toNat + f.len)
    | none => false)

end Sys2Proof.Machine
end

