-- ==== Sys2Proof/Machine/Scan.lean ====
section
/-! DEFINITION. The dispatch of a batch window (R143 to R145), the passes of a thin-phase scan over the Spouts (R325, R329), and the
exchange of waterlines through Headworks (R147, R326). -/

namespace Sys2Proof.Machine

/-! ### The plan of a pass (R325, R329) -/

/-- A block as a pass reads it: the Spout of the run where it begins, its first byte in the stack, the bytes that this Spout can
read in place, and its size. -/
structure PlanBlk where
  own : Nat
  addr : Nat
  inPlace : Nat
  size : Nat
  deriving DecidableEq, Repr

/-- The key of the Spout of a byte of a spouting stack of Basin `b`. -/
def spoutAt (b stack addr : Nat) : Nat :=
  let p := spoutPlace addr
  b + 2 * (stack % 2) + 4 * p.pc + 64 * p.bank

/-- The blocks of a view of a list in their order. A block that crosses a run boundary is read in place up to it, and one in the bank
of a disabled Spout not at all (R329). -/
def State.planBlocks (s : State) (i : Nat) (x : Index) (v : Nat × List Nat) : List PlanBlk :=
  (x.viewBlocks v).filterMap (fun p => (Store.find? x.arrs p.1).map (fun a =>
    let w := x.desc.width
    let size := if a.inflow then inflowBlockBytes w else mainBlockBytes w
    let addr := s.stackAddr i p.1 (p.2.1 * size)
    let own := spoutAt a.basin a.stack addr
    ⟨own, addr, if s.spoutOff own then 0 else min size (65536 - addr % 65536), size⟩))

/-- The Spout to which each block goes: its own, or for a block that is fed whole the one that scans the block before it, and with no
block before it the one that scans the block after it (R329). -/
def State.assignSpouts (s : State) (bs : List PlanBlk) : List (Nat × PlanBlk) :=
  let first := ((bs.find? (fun b => !s.spoutOff b.own)).map PlanBlk.own).getD 0
  (bs.foldl (fun (acc : List (Nat × PlanBlk) × Nat) b =>
    let k := if s.spoutOff b.own then acc.2 else b.own
    (acc.1 ++ [(k, b)], k)) ([], first)).1

/-- A Spout's command words as they are planned: the words, the open row and the segment read last, with its row. -/
structure SpPlan where
  words : List Nat
  row : Option Nat
  last : Option (Nat × Nat)
  deriving DecidableEq, Repr

/-- One segment of the bank is read, unless the block before has read it; its row is opened where it is not (R325). -/
def SpPlan.segment (p : SpPlan) (bank row seg : Nat) : SpPlan :=
  if p.last = some (row, seg) then p
  else
    let opening :=
      if p.row = some row then []
      else (if p.row.isSome then [spWord 3 bank 0] else []) ++ [spWord 1 bank row]
    ⟨p.words ++ opening ++ [spWord 2 bank seg], some row, some (row, seg)⟩

/-- One block: the block after it is named, then come the segments that cover its bytes in order, and then what is fed. -/
def SpPlan.block (p : SpPlan) (bank : Nat) (b : PlanBlk) (next : Option PlanBlk) : SpPlan :=
  let name := match next with
    | some n => [spWord 6 bank (n.addr % 65536 / 64)]
    | none => []
  let p0 := { p with words := p.words ++ name }
  let first := b.addr / 256
  let count := if b.inPlace = 0 then 0 else (b.addr + b.inPlace - 1) / 256 - first + 1
  let p1 := (List.range count).foldl (fun (q : SpPlan) j =>
    let at_ := spoutPlace (256 * (first + j))
    q.segment bank at_.row (at_.byte / 256)) p0
  { p1 with words := p1.words ++ List.replicate ((b.size - b.inPlace + 31) / 32) (spWord 7 bank 0) }

/-- The words of one Spout in a pass of `c` queries over its blocks (R325). -/
def spoutWords (bank c : Nat) (bs : List PlanBlk) : List Nat :=
  let load := spWord 10 bank 0 :: (List.range c).map (spWord 4 bank)
  match bs with
  | [] => load
  | b :: _ =>
    let start : SpPlan := ⟨load ++ [spWord 6 bank (b.addr % 65536 / 64)], none, none⟩
    let p := (List.range bs.length).foldl (fun (q : SpPlan) j => match bs[j]? with
      | some a => q.block bank a bs[j + 1]?
      | none => q) start
    p.words ++ (if p.row.isSome then [spWord 3 bank 0] else []) ++ [spWord 11 bank 0]

/-- The command words of a pass of `c` queries by Spout: for every bank that holds a run of the list and whose Spout is not disabled. -/
def State.passWords (s : State) (i : Nat) (x : Index) (v : Nat × List Nat) (c : Nat) : Store (List Nat) :=
  let bs := s.planBlocks i x v
  let asg := s.assignSpouts bs
  let banks := (asg.map Prod.fst ++ (viewArrs v).flatMap (fun h => match Store.find? x.arrs h with
    | some a => (s.runsOf i h).map (fun r => spoutAt a.basin a.stack (65536 * r))
    | none => [])).dedup.filter (fun k => !s.spoutOff k)
  banks.foldl (fun (m : Store (List Nat)) k =>
    Store.insert m k (spoutWords (k / 64) c ((asg.filter (fun p => p.1 == k)).map Prod.snd))) []

/-! ### Batch windows (R143 to R145) -/

/-- Is a view of a list in a spouting stack, with no block in a sealed run (R144), and with a Spout that is not disabled to scan it? -/
def State.thinAble (s : State) (i : Nat) (x : Index) (e : Epoch) (slot : Nat) (v : Nat × List Nat) : Bool :=
  let arrs := (viewArrs v).filterMap (fun h => (Store.find? x.arrs h).map (fun a => (h, a)))
  let bs := s.planBlocks i x v
  decide (2 ≤ x.homeStack (x.slotAt e slot)) &&
  arrs.all (fun p => decide (2 ≤ p.2.stack) &&
    (let st := s.stack (stackKey p.2.basin (p.2.stack % 2) 1)
     !st.ctrlEcc && (s.runsOf i p.1).all (fun r => !st.runSealed r))) &&
  (bs.isEmpty || bs.any (fun b => !s.spoutOff b.own))

/-- A Rill works on a query from here on: it has a heap for it, so that the exchange of waterlines reaches it (R146, R147). -/
def State.openHeap (s : State) (k : Nat) (rid query : Nat) : State :=
  match s.req? rid with
  | some r => s.setRill k ((s.rill k).putHeap ((s.rill k).heapOf rid query r.heapDepth))
  | none => s

/-- A thin-phase scan of a view for its members: passes of up to 8 queries, whose commands the controller is to issue, each query
with a Rill that takes what passes. Which Runnel and which Rill begins are open (R144, R325, R330). -/
def State.thinScan (s : State) (i : Nat) (x : Index) (slot basin : Nat) (v : Nat × List Nat) (ms : List (Nat × Nat)) : State :=
  let t1 := (chunks 8 ms).foldl (fun (t : State) g =>
    let f := t.takeFree 16
    let h := f.2.takeFree 4
    let rs := t.scanRunnels x.desc.slice basin
    let rk := rs[f.1.toNat % max 1 rs.length]?
    let members := (List.range g.length).filterMap (fun j => (g[j]?).map (fun m =>
      (m.1, m.2, rk.bind (fun k => t.rillIn k (h.1.toNat + j)))))
    let p : SpPass := ⟨i, slot, basin, members, t.passWords i x v g.length⟩
    let u := members.foldl (fun (u : State) m => match m.2.2 with
      | some k => u.openHeap k m.1 m.2.1
      | none => u) h.2
    { u with hbm := { u.hbm with passes := u.hbm.passes ++ [p] } }) s
  t1.bump Reg.SRCH_CNT_THIN 0 64 1

/-- The earliest deadline among a window's members is nearer than 4 × WINDOW (R143). -/
def State.windowUrgent (s : State) (w : Window) (len : Nat) : Bool :=
  w.members.any (fun m => match s.req? m.1 with
    | some r => decide (r.hdr.deadline.toNat < s.now.toNat + 4 * len)
    | none => true)

/-- One view of a window is dispatched in the phase that R144 assigns to its number of queries; a JOIN is scanned densely (R243). -/
def State.scanView (s : State) (i : Nat) (x : Index) (w : Window) (v : Nat × List Nat) : State :=
  let mem := w.members.filter (fun m => ((s.req? m.1).map (fun r => decide (x.view r.epoch w.slot = v))).getD false)
  let ms := mem.map (fun m => (m.1, m.2.1))
  let e := ((mem.head?.bind (fun m => s.req? m.1)).map (fun r => r.epoch)).getD x.cur
  if ms.length ≤ s.regF Reg.SRCH_CFG 0 9 ∧ s.regF Reg.SRCH_CFG 32 1 = 1 ∧ ¬ mem.any (fun m => m.2.2) ∧
      s.thinAble i x e w.slot v = true then s.thinScan i x w.slot w.basin v ms
  else s.denseStream x x.desc.slice w.basin v ms

/-- BATCH_WINDOW_CLOSE: a list's window closes on WINDOW drops, 256 queries or a near deadline, and is dispatched as one
stream per view (R143 to R145). -/
def execBatchWindowClose (idx : Fin 32) (slot : Nat) (s : State) : Res :=
  match s.windows.find? (fun w => w.idx == idx.val && w.slot == slot), s.index? idx with
  | some w, some x =>
    let len := s.regF Reg.SRCH_CFG 16 14
    if !(decide (w.opened.toNat + len ≤ s.now.toNat) || decide (256 ≤ w.members.length) || s.windowUrgent w len) then .next s
    else
      let s1 := { s with windows := s.windows.erase w }
      let views := (w.members.filterMap (fun m => (s1.req? m.1).map (fun r => x.view r.epoch slot))).dedup
      .next ((views.foldl (fun (t : State) v => t.scanView idx x w v) s1).countWindow idx slot w.members.length)
  | _, _ => .next s

/-- Has the controller still commands of a pass of a request to issue, or a Spout records of it to drain? -/
def State.thinBusy (s : State) (rid : Nat) : Bool :=
  s.hbm.passes.any (fun p => p.members.any (fun m => m.1 == rid) && p.todo.any (fun t => !t.2.isEmpty)) ||
  s.hbm.spouts.any (fun p => p.2.fifo.any (fun r =>
    ((Store.find? p.2.ctxs r.ctx).bind (fun c => c.query.map Prod.fst)) == some rid))

/-! ### The selections behind a scan (R174, R175) -/

/-- The selections over the heaps of a query that are run as several passes: the local merge of a Runnel, and the candidate set over
the Runnels' results. -/
def State.heapSplits (s : State) (rid query depth : Nat) : Nat :=
  let rks := ((s.fabric.rills.filter (fun p => p.2.heaps.any (fun h => h.rid == rid && h.query == query))).map (fun p =>
    runnelOfKey p.1)).dedup
  let hs := rks.map (fun rk => s.heapsFor rk (rid, query))
  let wide := hs.filter (fun l => decide (65536 < sumNat (l.map (fun h => h.ents.length))))
  wide.length + b2n (decide (65536 < sumNat (hs.map (fun l => (mergeHeaps depth l).length))))

/-- The same for every query of a request's scan. The heaps of a self-join are not held, so for each entry that stands as A with more
than 65,536 entries in its list a free bit decides (DESIGN CHOICE, log 34). -/
def State.countSplits (s : State) (rid : Nat) (r : Req) (x : Index) : State :=
  if r.op = opJoin ∧ r.hdr.jMode = 1 then
    let many := sumNat ((r.scanSlots x).map (fun p =>
      let n := (x.listEnts r.epoch p.2).length
      if 65536 < n then n else 0))
    (List.range many).foldl (fun (t : State) _ =>
      let f := t.takeFree 1
      f.2.bump Reg.WEIR_CNT_SPLIT 0 64 f.1.toNat) s
  else
    s.bump Reg.WEIR_CNT_SPLIT 0 64
      (sumNat ((List.range r.work.queries.length).map (fun q => s.heapSplits rid q r.heapDepth)))

/-! ### Waterlines through Headworks (R147, R326) -/

/-- The waterline bytes of a Spout context: WL_H, WL_SIDX, WL_LID, WL_GID (Table 12-4). -/
def wlBytes (sidx : Nat) (v : SketchPair) : List Byte :=
  leBytes 2 v.1 ++ leBytes 2 sidx ++ leBytes 4 (gidLocal v.2) ++ leBytes 8 v.2.toNat

/-- A Spout by its key. -/
def spoutName (k : Nat) : SpoutName :=
  ⟨Fin.ofNat 2 k, Fin.ofNat 2 (k / 2), Fin.ofNat 16 (k / 4), Fin.ofNat 16 (k / 64)⟩

/-- A waterline update reaches the Spout contexts that stand for the query: the controller issues SPWL for each. One that arrives when
no pass holds the query is discarded (R326). -/
def State.wlToSpouts (s : State) (q : Nat × Nat) (v : SketchPair) : State :=
  match (s.req? q.1).bind (fun r => s.index? r.hdr.index.toNat) with
  | none => s
  | some x =>
    if s.hbm.passes.any (fun p => p.members.any (fun m => m.1 == q.1 && m.2.1 == q.2)) then
      let w := wlBytes (x.shards.idxOf (gidShard v.2)) v
      s.hbm.spouts.foldl (fun (t : State) p =>
        if s.spoutOff p.1 then t
        else (p.2.ctxs.filter (fun c => c.2.query == some q)).foldl (fun (u : State) c =>
          let sp := u.spout p.1
          (u.setSpout p.1 { sp with ctxs := Store.adjust sp.ctxs c.1 (fun d =>
            { d with bytes := d.bytes.take 64 ++ w ++ d.bytes.drop 80 }) }).issue (spoutName p.1) 5 c.1) t) s
    else s

/-- WATERLINE_EXCHANGE_HEADWORKS: a query's shared value becomes the best that any Runnel Weir holds for it, and goes back to every
Runnel of both Basins that works on the query and to the Spouts that scan for it (R147, R326). -/
def execWaterlineExchangeHeadworks (s : State) : Res :=
  let ents := s.fabric.water.runnel
  let qs := (ents.map (fun e => (e.2.1, e.2.2.1))).dedup
  .next (qs.foldl (fun (t : State) q =>
    match (ents.filter (fun e => e.2.1 == q.1 && e.2.2.1 == q.2)).foldl (fun b e => bestWl b (some e.2.2.2)) none with
    | none => t
    | some v =>
      let rks := ((t.fabric.rills.filter (fun p => p.2.heaps.any (fun h => h.rid == q.1 && h.query == q.2))).map (fun p =>
        runnelOfKey p.1)).dedup
      let w := rks.foldl (fun (w : Waterlines) rk => w.hold rk q v) t.fabric.water
      let shared := w.shared.filter (fun e => !(e.1 == q.1 && e.2.1 == q.2)) ++ [(q.1, q.2, v)]
      (({ t with fabric := { t.fabric with water := { w with shared := shared } } } : State).wlToSpouts q v)) s)

end Sys2Proof.Machine
end

