-- ==== Sys2Proof/Machine/Reads.lean ====
section
/-! DEFINITION. What the phases of the read opcodes and TOPK compute when they complete (chapters "The search pipeline",
"Weirs: selection and merging" and "Gather, scatter and joins"). -/

namespace Sys2Proof.Machine

/-- The request answers OK. -/
def State.finish (s : State) (rid : Nat) (r : Req) (c : Counts) (distinct : Nat) (payload : List Byte) : State :=
  s.respond rid (s.okResp r c distinct payload)

/-- The request with its retained work set. -/
def State.retain (s : State) (rid : Nat) (w : Work) : State := s.modReq rid (fun r => { r with work := w })

/-! ### SEARCH and SEARCH_BATCH -/

/-- One query's coarse work (R132 to R140): its codes, sketch, centroid order prefix and number of probes. -/
def Index.coarse (x : Index) (e : Epoch) (elems : List F32) (beam keep : Nat) (probes : List SlotScore → Nat) : QWork :=
  let q := quantizeQuery elems
  let o := x.centroidOrder e q beam
  let order := o.1.take keep
  ⟨q, sketchOf x.proj q.codes, order, probes order, o.2, [], 0, [], false⟩

/-- For each of `n` reduction steps of `size` elements: is every activation code of the rows 0 (R293)? -/
def zeroSteps (size n : Nat) (rows : List (List Int)) : List Bool :=
  (List.range n).map (fun t => rows.all (fun c => ((c.drop (t * size)).take size).all (· == 0)))

/-- Cycles of a Cascade array and steps that it skips (R290, R293). -/
structure ArrayUse where
  busy : Nat
  skipped : Nat
  deriving DecidableEq, Repr

/-- Uses together. -/
def ArrayUse.sum (us : List ArrayUse) : ArrayUse := ⟨sumNat (us.map (fun u => u.busy)), sumNat (us.map (fun u => u.skipped))⟩

/-- A use of so many steps of which some are skipped. -/
def ArrayUse.of (steps skipped : Nat) : ArrayUse := ⟨steps - skipped, skipped⟩

/-- The Cascade arrays have computed: a reduction step takes one cycle, and a skipped one none (R290, R293). The rows of one sample fill
the tiles of 32 from the first on and share them with no other, a choice that R311 leaves to firmware (log 137). -/
def State.arrayWork (s : State) (u : ArrayUse) : State :=
  (s.bump Reg.CASC_CNT_BUSY 0 64 u.busy).bump Reg.CASC_CNT_SKIPPED 0 64 u.skipped

/-- Scoring queries or rows against centroids, in int8 dense mode, 32 centroids to a tile: up to 32 of them share the passes over a
flat index, and each walks a graph on its own (R91, R135, R136). -/
def Index.scoreUse (x : Index) (e : Epoch) (b : Nat) (qs : List Query) : ArrayUse :=
  ArrayUse.sum ((if x.isGraph then qs.map (fun q => [q]) else chunks 32 qs).map (fun g =>
    let tiles := match g with
      | q :: _ => (x.scored e q b + 31) / 32
      | [] => 0
    let n := (x.desc.dim + 31) / 32
    ArrayUse.of (tiles * n) (tiles * ((zeroSteps 32 n (g.map (fun q => q.codes))).filter id).length)))

/-- Pages of the tables of an index that the coarse work of a query reads, as table and page: the slot table of a flat index, and of a
graph index the slot entries and graph records of the slots that the walk visits (R105, R106, R135, R136). -/
def Index.coarsePages (x : Index) (e : Epoch) (q : Query) (b : Nat) : List (Nat × Nat) :=
  if x.isGraph then (x.walkFrom e q b).seen.flatMap (fun t => [(1, t / 64), (2, t / 32)])
  else (List.range ((x.desc.listCap + 63) / 64)).map (fun p => (1, p))

/-- Does the coarse work of a request meet a table page that is lost (Table 13-4)? -/
def State.coarseLost (s : State) (i : Nat) (x : Index) (e : Epoch) (b : Nat) (qs : List Query) : Bool :=
  s.mem.lostTabs.any (fun l => l.1 == i && qs.any (fun q => (x.coarsePages e q b).contains l.2))

/-- The queries of the coarse phase of a search or a probe JOIN. -/
def Req.coarseQueries (r : Req) (x : Index) : List (List F32) :=
  let join := r.op == opJoin
  payloadQueries (if join then r.hdr.jFmt else r.hdr.qfmt) x.desc.dim (if join then 64 else 24 * r.hdr.nterms) r.payload

/-- Do two epochs see the same version of the quantized centroid table (R135)? -/
def Index.sameTable (x : Index) (a b : Epoch) : Bool := (Store.keys x.centQ).all (fun k => x.centAt a k == x.centAt b k)

/-- The requests whose coarse phases share the array passes of `r` over a flat index: those that are in their coarse phase now and whose
queries have been in no pass, for the same index and version of the centroid table, on a Terrace that both may use (R135). They join as the
first of them completes, which stands for the grants of the array's point (DESIGN CHOICE, log 137). -/
def State.passMates (s : State) (rid : Nat) (r : Req) (x : Index) : List (Nat × Req) :=
  s.reqs.filter (fun p => p.1 != rid && p.2.life == .running && p.2.phase == .coarse && p.2.hdr.index == r.hdr.index &&
    !p.2.work.passed && x.sameTable r.epoch p.2.epoch && (List.range 16).any (fun t => s.mayUse r t && s.mayUse p.2 t))

/-- The array work of a coarse phase: over a flat index the queries of all that share its passes, 32 to a pass, unless it has been in
one already; a graph walk shares none (R135, R136). -/
def State.coarseWork (s : State) (rid : Nat) (r : Req) (x : Index) (beam : Nat) (qs : List Query) : State :=
  if x.isGraph then s.arrayWork (x.scoreUse r.epoch beam qs)
  else if r.work.passed then s
  else
    let mates := s.passMates rid r x
    let all := qs ++ mates.flatMap (fun p => (p.2.coarseQueries x).map quantizeQuery)
    (mates.foldl (fun (t : State) p => t.modReq p.1 (fun q => { q with work := { q.work with passed := true } })) s).arrayWork
      (x.scoreUse r.epoch beam all)

/-- The coarse phase of a search or a probe JOIN completes. A table page that is lost ends the request with TIER_FAILED (R362). -/
def State.doneCoarse (s : State) (rid : Nat) (r : Req) (x : Index) : State :=
  let join := r.op == opJoin
  let qs := r.coarseQueries x
  let h := r.hdr
  let beam := if join then max 64 h.probes else max h.beam (h.probeMax + h.widenLists)
  let keep := if join then h.probes else h.probeMax + h.widenLists
  let count := fun (o : List SlotScore) =>
    if join then min o.length h.probes else probeCount o h.probeMargin h.probeMin h.probeMax
  let ws := qs.map (fun q => x.coarse r.epoch q beam keep count)
  let s1 := (s.bump Reg.SRCH_CNT_STALE_EDGE 0 64 (sumNat (ws.map (fun w => w.stale)))).coarseWork rid r x beam
    (ws.map (fun w => w.query))
  if s.coarseLost h.index.toNat x r.epoch beam (ws.map (fun w => w.query)) then s.endWith rid stTierFailed
  else (s1.retain rid { r.work with queries := ws, passed := false }).startPhase rid .scan




/-- The scan or widened scan of a search completes: candidate sets (R142, R172). -/
def State.doneScan (s : State) (rid : Nat) (r : Req) (x : Index) : State :=
  let wide := r.phase == .wscan
  let m := if wide then min (r.hdr.depth * r.hdr.widenMult) 8192 else r.hdr.depth
  let act := fun (q : QWork) => !wide || q.widened
  let ws := r.work.queries.map (fun (q : QWork) =>
    if act q then
      let c := x.candidates r.epoch q.sketch (q.probeSlots wide r.hdr.widenLists) m
      { q with cands := c.1, dup := c.2, surv := [] }
    else q)
  (s.retain rid { r.work with queries := ws }).startPhase rid (if wide then .wrerank else .rerank)

/-- May a query with too few survivors run a widened round (R159)? -/
def QWork.grows (q : QWork) (h : ReqHdr) : Bool :=
  h.widen && decide (q.surv.length < h.k) &&
  (decide (0 < min (q.order.length - q.probes) h.widenLists) || decide (h.depth < min (h.depth * h.widenMult) 8192))

/-- The re-rank of a search completes: this node's own shard is scored and the survivors are put in node order (R154 to
R158). Then queries short of k widen, or the merge begins. -/
def State.doneRerank (s : State) (rid : Nat) (r : Req) (x : Index) : State :=
  let wide := r.phase == .wrerank
  let terms := (payloadTerms r.hdr.nterms r.payload).getD []
  let own := fun (q : QWork) => x.ownCandidates r.epoch q.query terms
    ((q.cands.map (fun c => c.gid)).filter (fun g => gidShard g == x.desc.shard))
  let active := fun (q : QWork) => !wide || q.widened
  let ws := r.work.queries.map (fun (q : QWork) =>
    if active q then { q with surv := sortBy Entry.key (q.surv ++ (own q).surv) } else q)
  let dropped := sumNat ((r.work.queries.filter active).map (fun q => (own q).ndrop))
  let s1 := s.bump Reg.SRCH_CNT_DROPPED 0 64 dropped
  if !wide && ws.any (fun q => q.grows r.hdr) then
    let ws' := ws.map (fun (q : QWork) => if q.grows r.hdr then { q with widened := true } else q)
    ((s1.bump Reg.SRCH_CNT_WIDENED 0 64 (ws'.filter (fun q => q.widened)).length).retain rid
      { r.work with queries := ws' }).startPhase rid .wscan
  else (s1.retain rid { r.work with queries := ws }).startPhase rid .merge

/-- The counts and k entries of one query (R158 to R160, R176). -/
def QWork.merge (q : QWork) (k : Nat) : Counts × List Byte :=
  let p := weirPass true k (q.surv.map scoreEnt)
  let es := padTo emptyEntry k (p.kept.map (fun w => (⟨w.gid, w.score, w.version⟩ : Entry)))
  let extra := flagIf (decide (q.surv.length < k)) flShortfall ||| flagIf q.widened flWidened |||
    flagIf q.query.zero flZeroQuery
  (Counts.of extra p.kept.length p.ties q.dup q.stale, es.flatMap Entry.bytes)

/-- The merge of a search completes: the response (R161, R162). -/
def State.doneMerge (s : State) (rid : Nat) (r : Req) : State :=
  let parts := r.work.queries.map (fun q => q.merge r.hdr.k)
  let short := (r.work.queries.filter (fun q => decide (q.surv.length < r.hdr.k))).length
  let payload :=
    if r.op = opSearch then parts.flatMap Prod.snd
    else (List.range parts.length).flatMap (fun i => match parts[i]? with
      | some p => partHeader i p.1 ++ p.2
      | none => [])
  (s.bump Reg.SRCH_CNT_SHORTFALL 0 64 short).finish rid r (Counts.sum (parts.map Prod.fst)) 0 payload

/-! ### TOPK -/

/-- Does a row carry a NaN score on a valid entry (R180)? -/
def rowNaN (es : List Entry) : Bool := es.any (fun e => e.gid != emptyGid && fIsNaN e.score)

/-- One row of a TOPK (R181, R182). -/
def topkPart (k : Nat) (row : List Entry) : Counts × List Byte :=
  let p := weirPass true k (row.map scoreEnt)
  let es := padTo emptyEntry k (p.kept.map (fun w => (⟨w.gid, w.score, w.version⟩ : Entry)))
  (Counts.of 0 p.kept.length p.ties (p.valid - p.distinct) 0, es.flatMap Entry.bytes)

/-- TOPK completes (R180 to R182). -/
def State.doneSelect (s : State) (rid : Nat) (r : Req) : State :=
  let h := r.hdr
  let rows := (List.range h.tkRows).map (topkRow h r.payload)
  let pad := if h.tkFmt = 0 then [] else r.payload.drop (h.tkRows * h.tkLen * 4)
  if rows.any rowNaN ∨ !pad.all (· == 0) then s.endWith rid stBadDescriptor
  else
    let parts := rows.map (topkPart h.k)
    let payload := (List.range parts.length).flatMap (fun i => match parts[i]? with
      | some p => partHeader i p.1 ++ p.2
      | none => [])
    s.finish rid r (Counts.sum (parts.map Prod.fst)) 0 payload

/-! ### GATHER -/

/-- The coalesce phase of GATHER completes: every ID is of a shard of the index, and under LAYOUT 1 the response fits
(R228, R231). -/
def State.doneCoalesce (s : State) (rid : Nat) (r : Req) (x : Index) : State :=
  let ids := payloadIds r.payload
  let n := ids.length
  let d := ids.dedup.length
  if ids.any (fun g => gidLocal g == 0xFFFFFFFF || !x.shards.contains (gidShard g)) then s.endWith rid stBadDescriptor
  else if r.hdr.layout = 1 ∧ 0x10000000 < 8 * ((n + 1) / 2) + d * (16 + x.desc.stride) then s.endWith rid stBadDescriptor
  else
    let t := byShard ids |>.flatMap Prod.snd
    (s.retain rid { r.work with table := t, posMap := ids.map t.idxOf }).startPhase rid .fetch

/-- The row of an ID as fetched: from this node's own shard or from a reply. -/
def Req.fetched (r : Req) (x : Index) (g : GlobalId) : Option Row :=
  if gidShard g = x.desc.shard then x.rowAt r.epoch (gidLocal g)
  else match r.work.rows.find? (fun p => p.1 == g) with
    | some p => p.2
    | none => none

/-- The fetch of GATHER completes (R229 to R234). -/
def State.doneFetch (s : State) (rid : Nat) (r : Req) (x : Index) : State :=
  let ids := payloadIds r.payload
  let distinct := r.work.table
  let count := (ids.filter (fun g => (r.fetched x g).isSome)).length
  let entry := fun (g : GlobalId) => gatherEntry x.desc g (r.fetched x g)
  let payload :=
    if r.hdr.layout = 0 then ids.flatMap entry
    else padTo 0 (8 * ((ids.length + 1) / 2)) (r.work.posMap.flatMap (leBytes 4)) ++ distinct.flatMap entry
  let dist := if distinct.length < ids.length then distinct.length else 0
  s.finish rid r ⟨0, count, 0, 0, 0⟩ dist payload

/-! ### JOIN -/

/-- The candidate set of one A over the entries it is paired with (R243). -/
def joinCands (m hamMax : Nat) (a : U64) (ents : List (Nat × GlobalId)) : JCand :=
  let p := weirPass false m ((ents.filter (fun e => decide (e.1 ≤ hamMax))).map (fun e => sketchEnt e.1 e.2))
  ⟨a, p.kept.map (fun w => ⟨keyHam w.key, w.gid⟩), sumNat (p.kept.map (fun w => w.copies))⟩

/-- The scan of a JOIN completes: candidate sets of every A from A_MIN on, in ascending order of A. -/
def State.doneJoinScan (s : State) (rid : Nat) (r : Req) (x : Index) : State :=
  let b := joinBlock r.payload
  let h := r.hdr
  let js :=
    if h.jMode = 0 then
      (List.range r.work.queries.length).filterMap (fun i =>
        match r.work.queries[i]? with
        | some q =>
          let a : U64 := b.aBase + BitVec.ofNat 64 i
          if a.toNat < b.aMin.toNat then none
          else some (joinCands h.depth h.hamMax a ((q.probeSlots false 0).flatMap (fun l =>
            (x.listEnts r.epoch l).map (fun y => (hamming q.sketch y.sketch, x.entGid y)))))
        | none => none)
    else
      let lists := (r.scanSlots x).map (fun p => x.listEnts r.epoch p.2)
      let as := ((lists.flatMap (fun l => l.map (fun y => (x.entGid y).toNat))).dedup).mergeSort (fun p q => decide (p ≤ q))
      (as.filter (fun a => decide (b.aMin.toNat ≤ a))).map (fun a =>
        joinCands h.depth h.hamMax (BitVec.ofNat 64 a) (lists.flatMap (fun l =>
          (l.filter (fun y => (x.entGid y).toNat == a)).flatMap (fun y =>
            (l.filter (fun z => decide (a < (x.entGid z).toNat))).map (fun z => (hamming y.sketch z.sketch, x.entGid z))))))
  (s.retain rid { r.work with joins := js.filter (fun j => !j.cands.isEmpty) }).startPhase rid .exact

/-- One A's pairs in node order with the counts of R246: kept, absent, below, cut. -/
structure JoinGroup where
  a : U64
  pairs : List JPair
  dup : Nat
  cands : Nat
  absent : Nat
  below : Nat
  cut : Nat
  deriving DecidableEq, Repr

/-- Score one A's candidates (R244). -/
def Req.joinGroup (r : Req) (x : Index) (b : JoinBlock) (j : JCand) : JoinGroup :=
  let q : Option Query :=
    if r.hdr.jMode = 0 then (r.work.queries[(j.a - b.aBase).toNat]?).map (fun w => w.query)
    else (r.fetched x j.a).map Row.asQuery
  let scored := j.cands.map (fun c => match q, r.fetched x c.gid with
    | some qq, some row => (c, some (scoreRow x.desc.metric qq row))
    | _, _ => (c, none))
  let present := scored.filterMap (fun p => p.2.map (fun v => (p.1, v)))
  let ok := present.filter (fun p => decide (scoreKey r.hdr.scoreMin ≤ scoreKey p.2))
  let sorted := sortBy (fun (p : Cand × F32) => entryKey p.2 p.1.gid) ok
  let kept := sorted.take r.hdr.pairK
  ⟨j.a, kept.map (fun p => ⟨j.a, p.1.gid, p.1.ham, p.2⟩), j.dup, j.cands.length, j.cands.length - present.length,
   present.length - ok.length, ok.length - kept.length⟩

/-- The groups that fit RESP_MAX, and the first that does not (R247). -/
def coverGroups (respMax : Nat) : List JoinGroup → Nat → List JoinGroup × Option JoinGroup
  | [], _ => ([], none)
  | g :: gs, n =>
    if respMax < 48 + 24 * (n + g.pairs.length) then ([], some g)
    else
      let t := coverGroups respMax gs (n + g.pairs.length)
      (g :: t.1, t.2)

/-- A pair record (Table 9-6). -/
def JPair.bytes (p : JPair) : List Byte :=
  leBytes 8 p.a.toNat ++ leBytes 8 p.b.toNat ++ leBytes 4 p.score.toNat ++ leBytes 2 p.ham ++ leBytes 2 0

/-- The exact phase of a JOIN completes: the response (R244 to R247). -/
def State.doneExact (s : State) (rid : Nat) (r : Req) (x : Index) : State :=
  let b := joinBlock r.payload
  let gs := r.work.joins.map (r.joinGroup x b)
  let cov := coverGroups b.respMax gs 0
  let pairs := cov.1.flatMap (fun g => g.pairs)
  let sum := fun (f : JoinGroup → Nat) => sumNat (cov.1.map f)
  let next := match cov.2 with | some g => g.a.toNat | none => 0
  let head := leBytes 8 next ++ leBytes 4 pairs.length ++ leBytes 4 (b2n cov.2.isSome) ++ leBytes 8 (sum (fun g => g.cands))
    ++ leBytes 8 (sum (fun g => g.absent)) ++ leBytes 8 (sum (fun g => g.below)) ++ leBytes 8 (sum (fun g => g.cut))
  let zero := r.work.queries.any (fun q => q.query.zero)
  let stale := sumNat (r.work.queries.map (fun q => q.stale))
  let c := Counts.of (flagIf zero flZeroQuery) pairs.length 0 (sumNat (r.work.joins.map (fun j => j.dup))) stale
  (s.bump Reg.GSJ_CNT_PAIRS 0 64 pairs.length).finish rid r c 0 (head ++ pairs.flatMap JPair.bytes)

end Sys2Proof.Machine
end

