-- ==== Sys2Proof/Machine/Writes.lean ====
section
/-! DEFINITION. What the phases of the write opcodes and of EPOCH_SCHEDULE do when they complete (chapters "Epochs, updates
and compaction" and "Gather, scatter and joins"), and the event slots they arm (R36, R40, R195). -/

namespace Sys2Proof.Machine

/-! ### Event slots -/

/-- An event slot. -/
def State.slot (s : State) (n : Nat) : EvSlot := Store.get (fun _ => EvSlot.none) s.clep.slots n

/-- The state with an event slot set. -/
def State.setSlot (s : State) (n : Nat) (v : EvSlot) : State :=
  { s with clep := { s.clep with slots := Store.put (fun _ => EvSlot.none) s.clep.slots n v } }

/-- Is a time late enough to arm a slot for (R40)? -/
def State.armable (s : State) (t : Time) : Bool := decide (s.now.toNat + 200 ≤ t.toNat)

/-- Arm a slot at a time; LATE is cleared. -/
def State.armSlot (s : State) (n : Nat) (t : Time) : State :=
  s.setSlot n { s.slot n with time := t, armed := true, late := false, missed := false }

/-- Disarm a slot; its kind and owner stay. -/
def State.disarmSlot (s : State) (n : Nat) : State := s.setSlot n { s.slot n with armed := false, missed := false }

/-- Free a slot. -/
def State.freeSlot (s : State) (n : Nat) : State := s.setSlot n EvSlot.none

/-- The slots a commit may draw, lowest first: 2 to 63 (R41). -/
def State.freeSlots (s : State) : List Nat := ((List.range 64).drop 2).filter (fun n => (s.slot n).kind == .free)

/-! ### EPOCH_SCHEDULE -/

/-- The flip of U is cancelled or moved: requests and parts that wait for it end with STALE_EPOCH unless it still comes
before their deadline (R190, R191). -/
def State.flipMoved (s : State) (i : Nat) : State :=
  let late := fun (d : Time) => match (s.index? i).bind (fun x => x.flip) with
    | some f => decide (d.toNat ≤ f.time.toNat)
    | none => true
  let s1 := s.reqs.foldl (fun (t : State) p =>
    if p.2.life = .waitFlip ∧ p.2.hdr.index.toNat = i ∧ late p.2.hdr.deadline = true then t.endWith p.1 stStaleEpoch else t) s
  (s1.partsIn.filter (fun p => p.2.waits && partIndex p.2.body == i &&
      s1.partGo p.2.kind p.2.body == .fail stStaleEpoch)).foldl
    (fun (t : State) p => t.failPart p.1 stStaleEpoch) s1

/-- EPOCH_SCHEDULE takes effect (R194). -/
def State.doneSched (s : State) (rid : Nat) (r : Req) (x : Index) : State :=
  let i := r.hdr.index.toNat
  let t : Time := BitVec.ofNat 64 (r.hdr.p 48 8)
  let ok := fun (u : State) => u.finish rid r ⟨0, 0, 0, 0, 0⟩ 0 []
  if r.epoch = x.cur then
    if r.hdr.pb 41 0 2 = 0 ∧ t = x.lastFlip then ok s else s.endWith rid stStaleEpoch
  else if r.epoch ≠ x.u then s.endWith rid stStaleEpoch
  else if r.hdr.pb 41 0 2 = 0 then
    if x.flip.map (fun f => f.time) = some t then ok s
    else if s.sealBegun x then s.endWith rid stBadDescriptor
    else
      let len := s.regF Reg.EPOCH_CFG 0 20
      if t.toNat < s.now.toNat + len + 200 ∨ t.toNat < x.lastFlip.toNat + s.regF Reg.EPOCH_CFG 20 20 then
        s.endWith rid stBadDescriptor
      else ok (((s.setIndex i { x with flip := some ⟨t, len⟩ }).armSlot x.flipSlot t).flipMoved i)
  else
    match x.flip with
    | none => ok s
    | some _ =>
      if s.sealBegun x then s.endWith rid stBadDescriptor
      else ok (((s.setIndex i { x with flip := none }).disarmSlot x.flipSlot).flipMoved i)

/-! ### UPSERT, DELETE and SCATTER -/

/-- Is slot `l` live at C? -/
def Index.liveAtC (x : Index) (l : Nat) : Bool := (x.slotAt x.cur l).st == .live

/-- A global ID a write may name (R9, R95). -/
def Index.gidOk (x : Index) (g : GlobalId) : Bool :=
  gidLocal g != 0xFFFFFFFF && gidShard g == x.desc.shard && decide (gidLocal g < x.desc.rowCap)

/-- The records of UPSERT or SCATTER. -/
def Req.upRecs (r : Req) (x : Index) : List UpRec := (chunks (recordLen x.desc r.hdr.upFmt) r.payload).map parseUp

/-- Does a record pass the check phase (R206, R237)? -/
def Index.recOk (x : Index) (op : Nat) (h : ReqHdr) (u : UpRec) : Bool :=
  let none_ := 0xFFFFFFFF
  let assigns := op == opScatter || h.upMode
  x.gidOk u.gid && (u.row x.desc h.upFmt x.u).isSome &&
  (if assigns then u.prim == none_ && u.ovf == none_ && !(x.liveSlots x.cur).isEmpty
   else x.liveAtC u.prim && (u.ovf == none_ || (u.ovf != u.prim && x.liveAtC u.ovf)))

/-- The slots of a record (R207, R237). -/
def Index.placeRec (x : Index) (op : Nat) (h : ReqHdr) (u : UpRec) (row : Row) : Nat × Option Nat :=
  if op = opUpsert ∧ ¬ h.upMode then (u.prim, if u.ovf = 0xFFFFFFFF then none else some u.ovf)
  else
    let fresh := (x.assign row h.upOverflow h.ovfMargin).getD (0, none)
    let d := x.dirAt x.cur (gidLocal u.gid)
    let keep := fun (l g : Nat) => x.liveAtC l && (x.slotAt x.cur l).gen == g
    if op = opScatter ∧ h.upMode ∧ d.valid ∧ ¬ x.tombAt x.cur (gidLocal u.gid) ∧ keep d.prim d.primGen then
      if d.ovfGen ≠ 0 ∧ keep d.ovf d.ovfGen then (d.prim, some d.ovf)
      else if h.upOverflow then
        let order := x.assignOrder row
        let sp := x.centScore x.cur row.asQuery d.prim
        match order.filter (fun o => o.1 != d.prim) with
        | (o, v) :: _ => (d.prim, if scoreKey (fSat (fSub sp h.ovfMargin)) ≤ scoreKey v then some o else none)
        | [] => (d.prim, none)
      else (d.prim, none)
    else fresh

/-- The records a write contends with, as it forms them at stage (R200). -/
def Req.writeRecs (r : Req) (x : Index) : List WriteRec :=
  if r.op = opDelete then
    (chunks 16 r.payload).map (fun c =>
      ⟨gidLocal (BitVec.ofNat 64 (leAt c 0 8)), BitVec.ofNat 64 (leAt c 8 8), none, 0, 0, none⟩)
  else
    (r.upRecs x).filterMap (fun u => (u.row x.desc r.hdr.upFmt x.u).map (fun row =>
      let p := x.placeRec r.op r.hdr u row
      ⟨gidLocal u.gid, u.seq, some row, sketchOfRow x.proj row, p.1, p.2⟩))

/-- The rows of a write whose slots R207 assigns by score. -/
def Req.assignedRows (r : Req) (x : Index) : List Query :=
  if r.op = opDelete ∨ (r.op = opUpsert ∧ ¬ r.hdr.upMode) then []
  else (r.upRecs x).filterMap (fun u => (u.row x.desc r.hdr.upFmt x.u).map Row.asQuery)

/-- Do an index's objects fit its slice's granules under map entry `e` (R449, R560, Table 8-7)? -/
def State.fitsHbm (s : State) (e : MapEntry) (i : Nat) (y : Index) : Bool :=
  let t := s.setIndex i y
  let n := y.desc.slice
  [0, 1].all (fun b => [0, 1].all (fun k => decide (t.sliceHeld n e b k ≤ s.usable n e b k * gib)))

/-- The case of Table 8-7 that a change of an index meets, and whether it finds dirty room: its rows, blocks and page versions must
fit the slice's HBM and the Cistern, where blocks go as backing images (R222, R353, R358). -/
inductive Room where
  | fits
  | waits
  | none
  deriving DecidableEq, Repr

/-- Pages that the seals of a slice's indexes other than `i` are to write: their dirty room is kept, so that no seal waits (R210,
R358; DEDUCED, log 182). -/
def State.sealDue (s : State) (i slice : Nat) : Nat :=
  sumNat (s.indexes.map (fun q =>
    if q.1 ≠ i ∧ q.2.desc.slice = slice ∧ ¬ q.2.sealed then
      ((newPages q.1 q.2 q.2.placeSeal).filter (fun l => (Store.find? s.mem.dirty l).isNone)).length
    else 0))

/-- May a slice dirty `n` more pages of index `i` now (R358)? -/
def State.dirtyRoom (s : State) (i slice n : Nat) : Bool :=
  decide (s.dirtyBytes slice + 4096 * (n + s.sealDue i slice) ≤ s.regF Reg.MEM_CFG 16 8 * gib)

/-- What room there is for an index to become `y` and to be sealed then, under map entry `e` (R222, R358). A page that is valid or
dirty already takes no more of the Cistern, and one that is dirty already no more dirty room. -/
def State.roomFor? (s : State) (e : MapEntry) (i : Nat) (x y : Index) : Room :=
  let pages := newPages i x y.placeSeal
  let clean := pages.filter (fun l => (Store.find? s.mem.dirty l).isNone)
  let n := (clean.filter (fun l => (Store.find? s.cist.map l).isNone)).length
  let images := sumNat ((y.arrs.filter (fun p => (Store.find? x.arrs p.1).isNone)).map (fun p => imagePages p.2 y.desc.width))
  if (pages.length + images ≠ 0 ∧ s.cistAccepts (n + images) = false) ∨ s.fitsHbm e i y = false then .none
  else if clean.length = 0 ∨ s.dirtyRoom i y.desc.slice clean.length then .fits
  else .waits

/-- What room there is for a write's commit: besides what the index comes to hold, the rows of the records that lose have been
staged (R200, R209, R222). -/
def State.writeRoom (s : State) (r : Req) (x : Index) (recs : List WriteRec) (c : Committed) : Room :=
  s.roomFor? r.entry r.hdr.index.toNat x (c.idx.placeSeal.stageRows (x.losing recs))

/-- A write meets a case of Table 8-7. -/
def State.noCapacity (s : State) (rid : Nat) : State :=
  (s.bump Reg.EPOCH_CNT_CAPACITY 0 64 1).endWith rid stResourceFailed

/-! ### CLUSTER_STEP -/

/-- The operations of a CLUSTER_STEP. -/
def Req.clusterOps (r : Req) (x : Index) : List ClusterOp :=
  (clusterRecs r.hdr.csMode x.desc.dim r.hdr.ops r.payload).1.map Prod.fst

/-- Does the check phase of CLUSTER_STEP pass (R216, R249)? The named slots are judged at the present C, also for a SUMS whose U has
flipped since its acceptance (DESIGN CHOICE, log 187). -/
def Req.clusterOk (r : Req) (x : Index) : Bool :=
  let recs := (clusterRecs r.hdr.csMode x.desc.dim r.hdr.ops r.payload).1
  let ops := recs.map Prod.fst
  let named := ops.flatMap (fun o => if o.kind = 3 then [o.a, o.b] else [o.a])
  recs.all Prod.snd && ops.all (fun o => (clusterCents r.hdr.csMode o.kind).isSome) && named.all x.liveAtC &&
  named.dedup.length == named.length &&
  ops.all (fun o => o.cents.all (fun c => (quantizeRow .int8 c x.u 0).isSome)) &&
  !(x.isGraph && ops.any (fun o => (decide (o.kind ≥ 2)) && (o.a == x.entry || (o.kind == 3 && o.b == x.entry))))

/-- The output-slot records of APPLY, in payload order (R254). -/
def applyRecords (y : Index) (ops : List ClusterOp) (dealt : List (ClusterOp × List Nat)) : List Byte :=
  ops.flatMap (fun o => match dealt.find? (fun d => d.1 == o) with
    | some d => d.2.flatMap (fun l => leBytes 4 (l + 16777216 * (y.slotAt y.u l).gen) ++ leBytes 4 0)
    | none => [])

/-! ### The phases -/

/-- The check phase completes (R206, R249). -/
def State.doneCheck (s : State) (rid : Nat) (r : Req) (x : Index) : State :=
  let bad :=
    if r.op = opDelete then !((chunks 16 r.payload).all (fun c => x.gidOk (BitVec.ofNat 64 (leAt c 0 8))))
    else if r.op = opUpsert ∨ r.op = opScatter then !((r.upRecs x).all (x.recOk r.op r.hdr))
    else if r.op = opClusterStep then !r.clusterOk x
    else false
  if bad then s.endWith rid stBadDescriptor
  else if r.op = opClusterStep ∧ r.hdr.csMode = 0 then s.startPhase rid .sum
  else s.startPhase rid .stage

/-- U as a COMPACT or CLUSTER_STEP APPLY makes it, with the count and the result of its response (R213 to R219, R253, R254); none when
R98 finds no slot. -/
def State.structNew (s : State) (r : Req) (x : Index) : Option (Index × Nat × List Byte) :=
  let pl := s.placingAs r.hdr.slice.toNat r.entry x.desc.spout
  if r.op = opClusterStep then
    let ops := r.clusterOps x
    (x.clusterApply pl (s.usedEpochs r.hdr.index.toNat) ops).map (fun q => (q.1, r.hdr.ops, applyRecords q.1 ops q.2))
  else
    let c := x.compact pl r.hdr.scope r.hdr.firstSlot r.hdr.nslots
    some (c.1, c.2, [])

/-- A write waits for dirty room, within its deadline (R358). -/
def State.awaitRoom (s : State) (rid : Nat) : State := s.modReq rid (fun q => { q with life := .waitRoom })

/-- A staged write goes on, waits for dirty room, or meets a case of Table 8-7. -/
def State.stageRoom (s : State) (rid : Nat) (m : Room) : State :=
  match m with
  | .fits => s.startPhase rid .commit
  | .waits => s.awaitRoom rid
  | .none => s.noCapacity rid

/-- The stage phase completes: rows, sketches, slots and the blocks of a structural write are formed, what they take must fit, and a
write whose pages find no dirty room waits (R200, R222, R358). What only the commit settles is left to it. -/
def State.doneStage (s : State) (rid : Nat) (r : Req) (x : Index) : State :=
  let i := r.hdr.index.toNat
  if r.op = opCompact ∨ r.op = opClusterStep then
    match x.struct, s.structNew r x with
    | none, some y => s.stageRoom rid (s.roomFor? r.entry i x y.1)
    | _, _ => s.startPhase rid .commit
  else
    let recs := r.writeRecs x
    let s1 := (s.retain rid { r.work with recs := recs }).arrayWork (x.scoreUse x.cur 64 (r.assignedRows x))
    match x.commitRecs recs (s.regF Reg.EPOCH_CFG 40 24) with
    | none => s1.startPhase rid .commit
    | some c => s1.stageRoom rid (s.writeRoom r x recs c)

/-- Commit the records of UPSERT, DELETE or SCATTER (R208, R211, R239), or wait for dirty room that is gone again (R358). -/
def State.commitWrite (s : State) (rid : Nat) (r : Req) (x : Index) : State :=
  let i := r.hdr.index.toNat
  match x.commitRecs r.work.recs (s.regF Reg.EPOCH_CFG 40 24) with
  | none => s.noCapacity rid
  | some c =>
    match s.writeRoom r x r.work.recs c with
    | .none => s.noCapacity rid
    | .waits => s.awaitRoom rid
    | .fits =>
      let s1 := (s.replaceIndex i c.idx).writeNew i x c.idx
      let s2 := s1.bump Reg.EPOCH_CNT_SUPERSEDED 0 64 c.superseded
      let scatter := r.op == opScatter
      let s3 := if scatter then s2.bump Reg.GSJ_CNT_SCATTER 0 64 r.hdr.records else s2
      s3.finish rid r (Counts.of 0 r.hdr.records 0 (if scatter then c.dups else 0) 0) 0 []

/-- Commit a COMPACT or CLUSTER_STEP APPLY (R213 to R219, R253, R254): at most one in a U, and an equal one again answers
as the first did (R215). -/
def State.commitStruct (s : State) (rid : Nat) (r : Req) (x : Index) : State :=
  let i := r.hdr.index.toNat
  let ok := fun (u : State) (n : Nat) (res : List Byte) =>
    (if r.op = opClusterStep then u.bump Reg.GSJ_CNT_CLUSTER 0 64 1 else u).finish rid r ⟨0, n, 0, 0, 0⟩ 0 res
  match x.struct with
  | some st =>
    if st.opcode = r.op ∧ st.params = r.hdr.params ∧ st.payload = r.payload then ok s st.count st.result
    else s.endWith rid stStaleEpoch
  | none =>
    match s.structNew r x with
    | none => s.noCapacity rid
    | some (y, n, res) =>
      match s.roomFor? r.entry i x y with
      | .none => s.noCapacity rid
      | .waits => s.awaitRoom rid
      | .fits =>
        let z : Index := { y with struct := some ⟨r.op, r.hdr.params, r.payload, n, res⟩ }
        ok ((s.replaceIndex i z).writeNew i x z) n res

/-- The commit phase completes: nothing commits to a sealed U (R197, R200). -/
def State.doneCommit (s : State) (rid : Nat) (r : Req) (x : Index) : State :=
  if r.epoch ≠ x.u ∨ s.sealBegun x then s.endWith rid stStaleEpoch
  else if r.op = opCompact ∨ r.op = opClusterStep then s.commitStruct rid r x
  else s.commitWrite rid r x

/-- CLUSTER_STEP SUMS completes: the sums are of the epoch before the one it names, whatever has flipped since (R67, R250 to R252);
under REASSIGN 1 its rows are scored on the Cascade arrays. -/
def State.doneSum (s : State) (rid : Nat) (r : Req) (x : Index) : State :=
  let recs := (r.clusterOps x).flatMap (x.sumOp (r.epoch - 1) r.hdr.reassign)
  let e := r.epoch - 1
  let s1 := if r.hdr.reassign then s.arrayWork (x.scoreUse e 64 ((x.rowsAt e).map Row.asQuery)) else s
  (s1.bump Reg.GSJ_CNT_CLUSTER 0 64 1).finish rid r ⟨0, recs.length, 0, 0, 0⟩ 0 (recs.flatMap id)

end Sys2Proof.Machine
end

