-- ==== Sys2Proof/Machine/Pour.lean ====
section
/-! DEFINITION. Pour programs: the image and the checks at load, the arithmetic of the steps, and the phases of POUR
(chapter "Cascade arrays and pour programs"). -/

namespace Sys2Proof.Machine

/-! ### Arithmetic: every operation rounded and saturating (R302) -/

def pAdd (a b : F32) : F32 := fSat (fAdd a b)
def pSub (a b : F32) : F32 := fSat (fSub a b)
def pMul (a b : F32) : F32 := fSat (fMul a b)
def pDiv (a b : F32) : F32 := fSat (fDiv a b)

/-- A tensor as its rows. -/
abbrev Tensor := List (List F32)

/-- Codes and scale of a whole tensor (R297, R301). -/
def tensorCodes (t : Tensor) (cols : Nat) : F32 × List (List Int) :=
  let q := quantizeQuery (t.flatMap id)
  (q.scale, chunks cols q.codes)

/-- One output of a MATMUL: chunk sums in order, then p and y (R301). -/
def matOut (as ws : F32) (x w : List Int) : F32 :=
  let accs := (chunks 4096 (List.zipWith (· * ·) x w)).map (fun c => fOfInt (sumInt c))
  let a := match accs with
    | [] => fZero
    | c :: cs => cs.foldl pAdd c
  pMul (pMul as ws) a

/-- A row sum of R303. -/
def rowSum (xs : List F32) : F32 := xs.foldl pAdd fZero

/-- The root of ROW_SCALE. A negative C0 can take it of a number below 0, where no operation produces a NaN and no value is given: a
finite value that depends on the number alone (R302; DESIGN CHOICE, log 156). -/
def scaleRoot (x : F32) : F32 :=
  if fSign x && !fIsZero x then (let v := Config.negRoot x; if fFinite v then v else fZero) else fSqrt x

/-- One epilogue operation on a row (Table 11-3). `vec` is the vector section and `trow` the tensor row SRC names. -/
def epiRow (o : POp) (vec trow : List F32) (ys : List F32) : List F32 :=
  let n := fOfInt (ys.length : Int)
  let sq := rowSum (ys.map (fun y => pMul y y))
  match o.op with
  | 1 => List.zipWith pAdd ys vec
  | 2 => List.zipWith pMul ys vec
  | 3 => ys.map (fun y => pAdd y o.c0)
  | 4 => ys.map (fun y => pMul y o.c0)
  | 5 => ys.map (fun y => pDiv y o.c0)
  | 6 => ys.map (fun y => if fLt y o.c0 then o.c0 else if fLt o.c1 y then o.c1 else y)
  | 7 => List.zipWith pAdd ys trow
  | 8 => List.zipWith pMul ys trow
  | 9 => ys.map (fun y => if fSign y && !fIsZero y then fZero else fSqrt y)
  | 10 =>
    let m := pDiv (rowSum ys) n
    ys.map (fun y => pSub y m)
  | 11 =>
    let d := scaleRoot (pAdd (pDiv sq n) o.c0)
    ys.map (fun y => if fIsZero d then fZero else pDiv y d)
  | 12 =>
    let e := fSqrt sq
    ys.map (fun y => if fIsZero e then fZero else pDiv y e)
  | _ => ys

/-- The operations before END. -/
def epiOps (ops : List POp) : List POp := ops.takeWhile (fun o => o.op != 0)

/-! ### Running a sample -/

/-- A dimension at run time: a flagged one takes the sample's input rows (R299). -/
def dimAt (v : Bool) (n r0 : Nat) : Nat := if v then r0 else n

/-- Rows and columns of a tensor for a sample of `r0` input rows. -/
def PTensor.dims (t : PTensor) (r0 : Nat) : Nat × Nat := (dimAt t.varRows t.rows r0, dimAt t.varCols t.cols r0)

/-- Rows and columns of tensor `i`. -/
def Program.dims (p : Program) (r0 i : Nat) : Nat × Nat :=
  match p.tens[i]? with
  | some t => t.dims r0
  | none => (0, 0)

/-- The content of tensor `i` that no step has written: finite values that the manual leaves open, but for the program image and the
sample that they depend on (R300; log 31). -/
def openTensor (image sample : List Byte) (i : Nat) (d : Nat × Nat) : Tensor :=
  (List.range d.1).map (fun r => (List.range d.2).map (fun c =>
    let v := Config.openElement image sample i (r * d.2 + c)
    if fFinite v then v else fZero))

/-- An output of a sample: number, kind, rows, columns, COUNT, TIE_EXCL and data (R310). -/
structure POut where
  out : Nat
  kind : Nat
  rows : Nat
  cols : Nat
  count : Nat
  tie : Nat
  data : List Byte
  deriving DecidableEq, Repr

/-- Tensors, outputs and the array's work of a sample as its steps run. -/
structure PRun where
  tens : Store Tensor
  outs : List POut
  use : ArrayUse
  deriving DecidableEq, Repr

/-- A sample: its rows, and its record as the request carries it. -/
structure Sample where
  rows : Nat
  bytes : List Byte
  deriving DecidableEq, Repr

/-- A tensor as a step reads it. -/
def PRun.read (p : Program) (m : Sample) (st : PRun) (i : Nat) : Tensor :=
  (Store.find? st.tens i).getD (openTensor p.image m.bytes i (p.dims m.rows i))

/-- The epilogue over a tensor. -/
def Program.epilogue (p : Program) (read : Nat → Tensor) (ops : List POp) (t : Tensor) : Tensor :=
  (epiOps ops).foldl (fun (cur : Tensor) o =>
    let vec := (p.vsects[o.src]?).getD []
    let other := read o.src
    (List.range cur.length).map (fun r => epiRow o vec (other.getD r []) (cur.getD r []))) t

/-- Bytes of FP32 elements. -/
def f32Bytes (xs : List F32) : List Byte := xs.flatMap (fun x => leBytes 4 x.toNat)

/-- One selection row: a score pass with IDs by position (Table 11-4). -/
def selectRow (keep : Nat) (row : List F32) : PassResult :=
  weirPass true keep ((List.range row.length).map (fun i =>
    scoreEnt ⟨BitVec.ofNat 64 i, row.getD i fZero, 0⟩))

/-- Step size, bytes of a tile row and tile size of a form (Table 11-2). -/
def formSizes (form : Nat) : Nat × Nat × Nat :=
  if form = 0 then (32, 32, 1024) else if form = 1 then (64, 32, 1024) else if form = 2 then (64, 40, 1280) else (64, 24, 768)

/-- The array's work of a matrix step: a reduction step of a tile is skipped where the skip map marks the weight tile zero or every
activation code of the tile's rows is 0 (R293). `xs` are the activation codes by row, `n` the output columns, `skip` the skip map. -/
def matUse (size n k : Nat) (xs : List (List Int)) (skip : List Bool) : ArrayUse :=
  let t := (k + size - 1) / size
  let panels := (n + 31) / 32
  ArrayUse.sum ((chunks 32 xs).map (fun g =>
    let z := zeroSteps size t g
    ArrayUse.of (panels * t) (sumNat ((List.range panels).map (fun p =>
      ((List.range t).filter (fun j => skip.getD (p * t + j) false || z.getD j false)).length)))))

/-- Run one step (R301, Table 11-4). Weights that come from a tensor are codes of 8 bits with no skip map (R297). Operations that a
TRANSPOSE, SELECT or OUTPUT names are not run (DESIGN CHOICE, log 190). -/
def Program.step (p : Program) (m : Sample) (st : PRun) (t : PStep) : PRun :=
  let r0 := m.rows
  let rd := st.read p m
  let x := rd t.src0
  let put := fun (v : Tensor) => { st with tens := Store.insert st.tens t.dst v }
  match t.kind with
  | 0 =>
    let cx := tensorCodes x (p.dims r0 t.src0).2
    let rows : List (F32 × List Int) :=
      if t.src1 = 0xFF then (match p.wsects[t.wsect]? with | some w => w.rows | none => [])
      else
        let cw := tensorCodes (rd t.src1) (p.dims r0 t.src1).2
        cw.2.map (fun c => (cw.1, c))
    let how : Nat × List Bool :=
      if t.src1 = 0xFF then (match p.wsects[t.wsect]? with | some w => ((formSizes w.form).1, w.skip) | none => (32, []))
      else (32, [])
    let use := matUse how.1 rows.length (p.dims r0 t.src0).2 cx.2 how.2
    { put (p.epilogue rd t.ops (cx.2.map (fun xr => rows.map (fun w => matOut cx.1 w.1 xr w.2)))) with
      use := ArrayUse.sum [st.use, use] }
  | 1 => put (p.epilogue rd t.ops x)
  | 2 => put ((List.range (p.dims r0 t.src0).2).map (fun c => x.map (fun row => row.getD c fZero)))
  | 3 =>
    let rs := x.map (selectRow t.keep)
    let ents := rs.flatMap (fun r => padTo emptyEntry t.keep (r.kept.map (fun w => (⟨w.gid, w.score, 0⟩ : Entry))))
    let o : POut := ⟨t.out, 1, x.length, t.keep, sumNat (rs.map (fun r => r.kept.length)), sumNat (rs.map (fun r => r.ties)),
      ents.flatMap Entry.bytes⟩
    { st with outs := st.outs ++ [o] }
  | _ =>
    let d := p.dims r0 t.src0
    let bytes := f32Bytes (x.flatMap id)
    let o : POut := ⟨t.out, 0, d.1, d.2, d.1 * d.2, 0, padTo 0 ((bytes.length + 7) / 8 * 8) bytes⟩
    { st with outs := st.outs ++ [o] }

/-- A sample run through the steps. -/
def Program.runSample (p : Program) (m : Sample) (input : Tensor) : PRun :=
  p.steps.foldl (fun st t => p.step m st t) ⟨[(0, input)], [], ⟨0, 0⟩⟩

/-- The outputs in ascending output number (R304, R310). -/
def PRun.ordered (st : PRun) : List POut := st.outs.mergeSort (fun a b => decide (a.out ≤ b.out))

/-- A part of the response (R310). -/
def POut.bytes (sample : Nat) (o : POut) : List Byte :=
  leBytes 4 sample ++ leBytes 1 o.out ++ leBytes 1 o.kind ++ leBytes 2 0 ++ leBytes 4 o.rows ++ leBytes 4 o.cols
    ++ leBytes 4 o.count ++ leBytes 4 o.tie ++ o.data

/-- Bytes of the parts of a sample of `r0` rows. -/
def Program.partBytes (p : Program) (r0 : Nat) : Nat :=
  sumNat (p.steps.map (fun t =>
    let d := p.dims r0 t.src0
    if t.kind = 3 then 24 + d.1 * t.keep * 16
    else if t.kind = 4 then 24 + (4 * d.1 * d.2 + 7) / 8 * 8 else 0))

/-! ### The phases of POUR -/

/-- The program of a POUR. -/
def State.pourProg (s : State) (r : Req) : Option Program := (s.prog r.hdr.prog).prog

/-- Is the program one that the request may run: in STATE 2, and POUR_CFG.SLICE as committed now the request's SLICE (R308)? -/
def State.pourReady (s : State) (h : ReqHdr) : Bool :=
  let g := s.prog h.prog
  g.state == 2 && s.regF (Reg.POUR_CFG + 0x40 * h.prog) 8 4 == h.slice.toNat && g.prog.isSome

/-- PAYLOAD_LEN matches the sample records (step 9); a program that step 10 refuses is judged there. -/
def State.pourLengthOk (s : State) (h : ReqHdr) (bs : List Byte) : Bool :=
  match (s.prog h.prog).prog with
  | some p => !s.pourReady h || (pourRecs h.iFmt (p.dims 0 0).2 h.samples bs).2
  | none => true

/-- Step 10 for POUR. -/
def State.pourRangesOk (s : State) (h : ReqHdr) : Bool := decide (1 ≤ h.samples ∧ h.samples ≤ 4096) && s.pourReady h

/-- The elements of a sample record, and its padding bytes. -/
def sampleElems (fmt n : Nat) (bs : List Byte) : List F32 × List Byte :=
  let len := n * (if fmt = 0 then 4 else 2)
  (queryElems fmt (bs.take len), bs.drop len)

/-- The sample records of a request. -/
def Req.pourSamples (r : Req) (p : Program) : List (Nat × Nat × List Byte) :=
  (pourRecs r.hdr.iFmt (p.dims 0 0).2 r.hdr.samples r.payload).1

/-- Does the check phase of POUR pass (R308)? A sample record whose reserved word is not 0 does not (DESIGN CHOICE, log 192). -/
def Req.pourOk (r : Req) (p : Program) : Bool :=
  let t0 := p.tens.getD 0 ⟨0, 0, false, false⟩
  let recs := r.pourSamples p
  recs.all (fun c =>
    let e := sampleElems r.hdr.iFmt (c.1 * t0.cols) c.2.2
    decide (1 ≤ c.1 ∧ c.1 ≤ t0.rows) && (t0.varRows || c.1 == t0.rows) && c.2.1 == 0 && e.1.all fFinite && e.2.all (· == 0)) &&
  decide (64 + sumNat (recs.map (fun c => p.partBytes c.1)) ≤ 0x10000000)

/-- The check phase of POUR completes. -/
def State.donePourCheck (s : State) (rid : Nat) (r : Req) : State :=
  match s.pourProg r with
  | none => s.endWith rid stBadDescriptor
  | some p => if r.pourOk p then s.startPhase rid .sample else s.endWith rid stBadDescriptor

/-- The phase of one sample completes: its outputs are retained, and the next sample's phase or the response follows
(R309, R310). Samples run one after another (DESIGN CHOICE, log 32). -/
def State.doneSample (s : State) (rid : Nat) (r : Req) : State :=
  match s.pourProg r with
  | none => s.endWith rid stStateLost
  | some p =>
    let i := r.work.samples.length
    let c := (r.pourSamples p).getD i (0, 0, [])
    let cols := (p.dims 0 0).2
    let run := p.runSample ⟨c.1, c.2.2⟩ (chunks cols (sampleElems r.hdr.iFmt (c.1 * cols) c.2.2).1)
    let outs := run.ordered
    let w := { r.work with
      samples := r.work.samples ++ [outs.flatMap (POut.bytes i)]
      count := r.work.count + sumNat (outs.map (fun o => o.count))
      dups := r.work.dups + sumNat (outs.map (fun o => o.tie)) }
    let g := s.prog r.hdr.prog
    let s1 := s.setProg r.hdr.prog { g with samples := (g.samples + 1) % 4294967296 }
    let s2 := (s1.retain rid w).arrayWork run.use
    if i + 1 < r.hdr.samples then s2.startPhase rid .sample
    else s2.finish rid r (Counts.of 0 w.count w.dups 0 0) 0 (w.samples.flatMap id)

/-! ### Loading an image (R305, R306) -/

/-- A weight section record. -/
structure WRec where
  n : Nat
  k : Nat
  form : Nat
  param : Nat
  tile : Nat
  deriving DecidableEq, Repr

/-- Np and T of a weight section (R295, R296). -/
def WRec.np (w : WRec) : Nat := (w.n + 31) / 32 * 32
def WRec.t (w : WRec) : Nat := (w.k + (formSizes w.form).1 - 1) / (formSizes w.form).1

/-- Bytes of its tiles. -/
def WRec.tileBytes (w : WRec) : Nat := w.np / 32 * w.t * (formSizes w.form).2.2

/-- The stored elements of one tile row as position in the step and code, and whether its index nibbles keep R296. -/
def tileRow (form : Nat) (bs : List Byte) : List (Nat × Nat) × Bool :=
  if form = 0 then ((List.range 32).map (fun i => (i, byteAt bs i)), true)
  else if form = 1 then
    let us := unpackCodes .int4 (bs.take 32)
    ((List.range 64).map (fun i => (i, us.getD i 0)), true)
  else
    let codes := if form = 2 then (bs.take 32).map BitVec.toNat else unpackCodes .int4 (bs.take 16)
    let base := if form = 2 then 32 else 16
    let nib := fun (g : Nat) => byteAt bs (base + g / 2) / 16 ^ (g % 2) % 16
    ((List.range 16).flatMap (fun g =>
      [(4 * g + nib g % 4, codes.getD (2 * g) 0), (4 * g + nib g / 4, codes.getD (2 * g + 1) 0)]),
     (List.range 16).all (fun g => decide (nib g % 4 < nib g / 4)))

/-- Row `r` of a weight section: the stored elements of all its tiles as element and code, and the nibble check. -/
def weightRow (img : List Byte) (w : WRec) (r : Nat) : List (Nat × Nat) × Bool :=
  let sz := formSizes w.form
  let rows := (List.range w.t).map (fun t =>
    let at_ := w.tile + (r / 32 * w.t + t) * sz.2.2 + r % 32 * sz.2.1
    let x := tileRow w.form ((img.drop at_).take sz.2.1)
    (x.1.map (fun e => (t * sz.1 + e.1, e.2)), x.2))
  (rows.flatMap Prod.fst, rows.all Prod.snd)

/-- A row parameter record: scale, zero point and reserved field (R295). -/
def weightParam (img : List Byte) (w : WRec) (r : Nat) : F32 × Int × Nat :=
  let o := w.param + 8 * r
  (BitVec.ofNat 32 (leAt img o 4), signedOf 16 (leAt img (o + 4) 2), leAt img (o + 6) 2)

/-- Does R83 accept a row parameter record? -/
def paramOk (form : Nat) (p : F32 × Int × Nat) : Bool :=
  let sc := if p.1 = 0x80000000 then fZero else p.1
  let q : Int := if form % 2 = 0 then 255 else 15
  fFinite sc && !fSign sc && decide (0 ≤ p.2.1 ∧ p.2.1 ≤ q)

/-- The operand of element `i` of a row (R80, R295). -/
def weightOperand (z : Int) (els : List (Nat × Nat)) (i : Nat) : Int :=
  match els.find? (fun e => e.1 == i) with
  | some e => (e.2 : Int) - z
  | none => 0

/-- The rows of a weight section: scale and operands. -/
def weightRows (img : List Byte) (w : WRec) : List (F32 × List Int) :=
  (List.range w.n).map (fun r =>
    let p := weightParam img w r
    let sc := if p.1 = 0x80000000 then fZero else p.1
    (sc, (List.range w.k).map (weightOperand p.2.1 (weightRow img w r).1)))

/-- The skip map of a weight section: for each tile, panel by panel, whether every operand of it is 0. Padding operands are (R295,
R298). -/
def skipMap (w : WRec) (rows : List (F32 × List Int)) : List Bool :=
  (chunks 32 (rows.map Prod.snd)).flatMap (fun g => zeroSteps (formSizes w.form).1 w.t g)

/-- A weight section as stored. -/
def weightOf (img : List Byte) (w : WRec) : PWeight :=
  let rows := weightRows img w
  ⟨w.n, w.k, w.form, rows, skipMap w rows⟩

/-- The records of an image. -/
def imgTensor (bs : List Byte) : PTensor := ⟨leAt bs 0 4, leAt bs 4 4, leAt bs 8 1 % 2 == 1, leAt bs 8 1 / 2 % 2 == 1⟩
def imgWRec (bs : List Byte) : WRec := ⟨leAt bs 0 4, leAt bs 4 4, byteAt bs 8, leAt bs 16 8, leAt bs 24 8⟩
def imgOp (bs : List Byte) : POp := ⟨byteAt bs 0, byteAt bs 1, BitVec.ofNat 32 (leAt bs 4 4), BitVec.ofNat 32 (leAt bs 8 4)⟩

/-- The operation records of a step record. -/
def imgOps (img bs : List Byte) : List (List Byte) := chunks 16 ((img.drop (leAt bs 16 8)).take (16 * byteAt bs 1))

/-- A step record. -/
def imgStep (img bs : List Byte) : PStep :=
  ⟨byteAt bs 0, byteAt bs 2, byteAt bs 3, byteAt bs 4, byteAt bs 5, leAt bs 6 2, leAt bs 8 2, (imgOps img bs).map imgOp⟩

/-- The record tables of an image by its header (Table 11-5): steps, tensors, weight sections, vector sections. -/
structure ImgTables where
  steps : List (List Byte)
  tens : List (List Byte)
  ws : List (List Byte)
  vs : List (List Byte)
  deriving DecidableEq, Repr

/-- Cut out the record tables. -/
def imgTables (img : List Byte) : ImgTables :=
  let tab := fun (cnt off size : Nat) => chunks size ((img.drop (leAt img off 8)).take (size * leAt img cnt 4))
  ⟨tab 8 24 64, tab 12 32 16, tab 16 40 32, tab 20 48 16⟩

/-- The sections of an image as first byte and length. -/
def imgSections (img : List Byte) (t : ImgTables) : List (Nat × Nat) :=
  let head := [(leAt img 24 8, 64 * leAt img 8 4), (leAt img 32 8, 16 * leAt img 12 4), (leAt img 40 8, 32 * leAt img 16 4),
    (leAt img 48 8, 16 * leAt img 20 4)]
  let ws := (t.ws.map imgWRec).flatMap (fun w => [(w.param, 8 * w.np), (w.tile, w.tileBytes)])
  let vs := t.vs.map (fun b => (leAt b 8 8, 4 * leAt b 0 4))
  let ops := t.steps.map (fun b => (leAt b 16 8, 16 * byteAt b 1))
  (head ++ ws ++ vs ++ ops).filter (fun p => p.2 != 0)

/-- No two sections overlap, in ascending order of their first bytes. -/
def sectionsApart : List (Nat × Nat) → Bool
  | a :: b :: t => decide (a.1 + a.2 ≤ b.1) && sectionsApart (b :: t)
  | _ => true

/-- Reason 0x11: counts, places of sections, overlap. A FORM above 3, for which Table 11-7 names no reason, is found here: its tiles
have no size (DESIGN CHOICE, log 191). -/
def imgPlaced (img : List Byte) (t : ImgTables) : Bool :=
  let counts := decide (1 ≤ leAt img 8 4 ∧ leAt img 8 4 ≤ 1024 ∧ 1 ≤ leAt img 12 4 ∧ leAt img 12 4 ≤ 32 ∧ leAt img 16 4 ≤ 256 ∧
    leAt img 20 4 ≤ 256)
  let recs := (t.ws.map imgWRec).all (fun w => decide (1 ≤ w.n ∧ w.n ≤ 65536 ∧ 1 ≤ w.k ∧ w.k ≤ 65536 ∧ w.form ≤ 3)) &&
    t.vs.all (fun b => decide (1 ≤ leAt b 0 4 ∧ leAt b 0 4 ≤ 65536)) && t.steps.all (fun b => decide (byteAt b 1 ≤ 16))
  let secs := (imgSections img t).mergeSort (fun a b => decide (a.1 ≤ b.1))
  counts && recs && secs.all (fun p => decide (128 ≤ p.1 ∧ p.1 + p.2 ≤ img.length)) && sectionsApart secs

/-- Do two dimensions agree at every number of input rows? With a fixed tensor 0 a flagged one is its ROWS. -/
def dimEq (t0 : PTensor) (a b : Bool × Nat) : Bool :=
  if t0.varRows then a.1 == b.1 && (a.1 || a.2 == b.2)
  else (if a.1 then t0.rows else a.2) == (if b.1 then t0.rows else b.2)

/-- Rows and columns of a tensor as symbols. -/
def PTensor.r (t : PTensor) : Bool × Nat := (t.varRows, t.rows)
def PTensor.c (t : PTensor) : Bool × Nat := (t.varCols, t.cols)

/-- A tensor record keeps R299: sizes, at most 16 MiB, and maxima that hold every input: a flagged dimension with a maximum below tensor
0's ROWS is refused (DESIGN CHOICE, log 189). -/
def PTensor.okIn (t t0 : PTensor) : Bool :=
  decide (1 ≤ t.rows ∧ t.rows ≤ 65536 ∧ 1 ≤ t.cols ∧ t.cols ≤ 65536 ∧ t.rows * t.cols * 4 ≤ 16777216) &&
  (!t.varRows || decide (t0.rows ≤ t.rows)) && (!t.varCols || decide (t0.rows ≤ t.cols))

/-- Do the shapes of one step fit (R299, R301, R303, Table 11-4)? Operations of a TRANSPOSE, SELECT or OUTPUT are given no shape (DESIGN
CHOICE, log 190). -/
def stepFits (ts : List PTensor) (ws : List WRec) (vlens : List Nat) (p : PStep) : Bool :=
  let t0 := ts.getD 0 ⟨0, 0, false, false⟩
  let eq := dimEq t0
  let opsFit := fun (r c : Bool × Nat) => (epiOps p.ops).all (fun o =>
    if o.op = 1 ∨ o.op = 2 then (match vlens[o.src]? with | some n => eq c (false, n) | none => false)
    else if o.op = 7 ∨ o.op = 8 then (match ts[o.src]? with | some t => eq t.r r && eq t.c c | none => false)
    else true)
  match ts[p.src0]? with
  | none => false
  | some x =>
    if p.kind = 0 then
      match ts[p.dst]? with
      | none => false
      | some y =>
        let w : Option ((Bool × Nat) × (Bool × Nat)) :=
          if p.src1 = 0xFF then (ws[p.wsect]?).map (fun w => ((false, w.n), (false, w.k)))
          else if p.src1 = p.dst then none
          else (ts[p.src1]?).map (fun t => (t.r, t.c))
        match w with
        | none => false
        | some nk => p.dst != p.src0 && eq x.c nk.2 && eq y.c nk.1 && eq y.r x.r && opsFit y.r y.c
    else if p.kind = 1 then (match ts[p.dst]? with | some y => eq y.r x.r && eq y.c x.c && opsFit y.r y.c | none => false)
    else if p.kind = 2 then (match ts[p.dst]? with | some y => eq y.r x.c && eq y.c x.r | none => false)
    else if p.kind = 3 then decide (1 ≤ p.keep ∧ p.keep ≤ 1024 ∧ p.out ≤ 15)
    else if p.kind = 4 then decide (p.out ≤ 15)
    else true

/-- Reason 0x12. -/
def imgShaped (t : ImgTables) (steps : List PStep) : Bool :=
  let ts := t.tens.map imgTensor
  let t0 := ts.getD 0 ⟨0, 0, false, false⟩
  let outs := (steps.filter (fun p => p.kind == 3 || p.kind == 4)).map (fun p => p.out)
  ts.all (fun x => x.okIn t0) && !t0.varCols && steps.all (stepFits ts (t.ws.map imgWRec) (t.vs.map (fun b => leAt b 0 4))) &&
  outs.dedup.length == outs.length

/-- Reason 0x13: row parameters and padding operands. A padding row whose SCALE or OFFSET is not 0 passes where each of its codes
equals its z, as Table 11-7 names its operands only (DESIGN CHOICE, log 188). -/
def imgParams (img : List Byte) (t : ImgTables) : Bool :=
  (t.ws.map imgWRec).all (fun w => (List.range w.np).all (fun r =>
    let p := weightParam img w r
    paramOk w.form p && (weightRow img w r).1.all (fun e => (decide (r < w.n) && decide (e.1 < w.k)) || decide ((e.2 : Int) = p.2.1))))

/-- Reason 0x14: index nibbles. -/
def imgNibbles (img : List Byte) (t : ImgTables) : Bool :=
  (t.ws.map imgWRec).all (fun w => (List.range w.np).all (fun r => (weightRow img w r).2))

/-- An operation record is one of Table 11-3 with finite constants and zero fields where it uses none. -/
def opFine (bs : List Byte) : Bool :=
  let o := imgOp bs
  decide (o.op ≤ 12) && fFinite o.c0 && fFinite o.c1 && (o.op == 6 || o.c1 == 0) &&
  (o.op == 1 || o.op == 2 || o.op == 7 || o.op == 8 || o.src == 0) && !(o.op == 5 && fIsZero o.c0) &&
  !(o.op == 6 && fLt o.c1 o.c0) && leAt bs 2 2 == 0 && leAt bs 12 4 == 0

/-- The operation records of a list that are judged: those before END and END itself; later ones are ignored (Table 11-3). -/
def opsToEnd (os : List (List Byte)) : List (List Byte) :=
  os.take ((os.takeWhile (fun o => byteAt o 0 != 0)).length + 1)

/-- Reason 0x15: constants, vector elements, operations, kinds and reserved bytes. A field that its step leaves unused is
judged as reserved (DESIGN CHOICE, log 33). -/
def imgFine (img : List Byte) (t : ImgTables) (steps : List PStep) : Bool :=
  ((img.take 124).drop 56).all (· == 0) && leAt img 6 2 == 0 &&
  t.tens.all (fun b => decide (byteAt b 8 < 4) && leAt b 9 7 == 0) &&
  t.ws.all (fun b => leAt b 9 7 == 0) && t.vs.all (fun b => leAt b 4 4 == 0) &&
  (t.ws.map imgWRec).all (fun w => (List.range w.np).all (fun r => (weightParam img w r).2.2 == 0)) &&
  t.vs.all (fun b => (f32Elems ((img.drop (leAt b 8 8)).take (4 * leAt b 0 4))).all fFinite) &&
  t.steps.all (fun b =>
    leAt b 10 6 == 0 && (b.drop 24).all (· == 0) && decide (byteAt b 0 ≤ 4) && (byteAt b 1 != 0 || leAt b 16 8 == 0) &&
    (opsToEnd (imgOps img b)).all opFine) &&
  steps.all (fun p =>
    (p.kind == 0 || p.src1 == 0) && (decide (p.kind ≤ 2) || p.dst == 0) && (decide (3 ≤ p.kind) || p.out == 0) &&
    (p.kind == 3 || p.keep == 0) && ((p.kind == 0 && p.src1 == 0xFF) || p.wsect == 0))

/-- HBM bytes of a program for each Terrace: row parameters, tiles, skip map of one bit a tile, vectors (Table 11-7). -/
def imgBytes (t : ImgTables) : Nat :=
  sumNat ((t.ws.map imgWRec).map (fun w => 8 * w.np + w.tileBytes + (w.np / 32 * w.t + 7) / 8)) +
  sumNat (t.vs.map (fun b => 4 * leAt b 0 4))

/-- Load an image: the first reason of Table 11-7 that applies (DESIGN CHOICE, log 33), or the program and its bytes for a
Terrace. -/
def loadImage (img : List Byte) : Except Nat (Program × Nat) :=
  if img.length < 128 ∨ leAt img 0 4 ≠ 0x31524F50 ∨ leAt img 4 2 ≠ 1 ∨
      leAt img 124 4 ≠ (crc32c (img.take 124 ++ img.drop 128)).toNat then .error 0x10
  else
    let t := imgTables img
    if !imgPlaced img t then .error 0x11
    else
      let steps := t.steps.map (imgStep img)
      if !imgShaped t steps then .error 0x12
      else if !imgParams img t then .error 0x13
      else if !imgNibbles img t then .error 0x14
      else if !imgFine img t steps then .error 0x15
      else .ok (⟨img, t.tens.map imgTensor, (t.ws.map imgWRec).map (weightOf img),
        t.vs.map (fun b => f32Elems ((img.drop (leAt b 8 8)).take (4 * leAt b 0 4))), steps⟩, imgBytes t)

/-- Do the replicas of a program fit the slice's free plain HBM in each Basin, in place of what the slot has held while it loaded
(R306, R560)? -/
def State.progFits (s : State) (slot : Nat) (bytes : Nat) : Bool :=
  let g := s.prog slot
  let t := s.setProg slot { g with bytes := bytes }
  let e := s.entry g.slice
  [0, 1].all (fun b => decide (t.sliceHeld g.slice e b 0 ≤ e.granules b 0 * gib))

/-- PROGRAM_LOAD_DONE: the load of a slot in STATE 1 ends. `image` is what the host port read, none when it could not be
read; a length other than POUR_IMAGE_LEN is taken as unreadable. An image that the host has changed since the commit, against R306,
so that its replicas no longer fit, fails the load with reason 0x05 (DESIGN CHOICE, log 30). -/
def execProgramLoadDone (slot : Fin 8) (image : Option (List Byte)) (s : State) : Res :=
  let g := s.prog slot
  if g.state ≠ 1 then .next s
  else
    let fail := fun (e : Nat) => s.setProg slot { g with state := 0, lastErr := e, bytes := 0, prog := none }
    match image with
    | none => .next (fail 0x10)
    | some img =>
      if img.length ≠ s.regF (Reg.POUR_IMAGE_LEN + 0x40 * slot.val) 0 40 then .next (fail 0x10)
      else match loadImage img with
        | .error e => .next (fail e)
        | .ok p =>
          if s.progFits slot p.2 then .next (s.setProg slot { g with state := 2, bytes := p.2, prog := some p.1 })
          else .next (fail 5)

/-- PROGRAM_REMOVE_DONE: the last request that runs a draining program has sent its response (R307). Its replicas go, and with them
what a Terrace still lacks of them (R452). -/
def execProgramRemoveDone (slot : Fin 8) (s : State) : Res :=
  let g := s.prog slot
  let used := s.reqs.any (fun p => p.2.op == opPour && p.2.hdr.prog == slot.val && p.2.ran)
  if g.state ≠ 3 ∨ used then .next s
  else
    let s1 := s.setProg slot { g with state := 0, samples := 0, bytes := 0, prog := none }
    .next { s1 with slices := { s1.slices with lacks := s1.slices.lacks.filter (fun l => l.2 != 64 + slot.val) } }

/-- INJECT_CASC_RESIDUE: CASC_INJECT of the selected array (Table 11-11). -/
def execInjectCascResidue (col : Fin 64) (s : State) : Res :=
  let sel := s.regF Reg.CASC_SEL 0 4
  let k := instKey Reg.CASC_INJECT (nodeTerrace (sel % 2) (sel / 2))
  .next (s.pfWrite 0x0B (keyOff Reg.CASC_INJECT) ((s.setRegF k 1 6 col.val).setRegF k 0 1 1))

end Sys2Proof.Machine
end

