-- ==== Sys2Proof/Machine/Done.lean ====
section
/-! DEFINITION. Phase boundaries, faults, deadlines, parts and their replies, Weir passes and the exchange of waterlines
(chapters "The request contract", "The search pipeline", "Weirs: selection and merging", "Gather, scatter and joins"). -/

namespace Sys2Proof.Machine

/-! ### Phase boundaries -/

/-- Has everything the present phase waits for arrived? -/
def State.phaseReady (s : State) (rid : Nat) (r : Req) : Bool :=
  r.life == .running && !r.holds && s.partsOut.all (fun p => p.rid != rid || p.done) &&
  s.windows.all (fun w => w.members.all (fun m => m.1 != rid)) &&
  s.mem.reads.all (fun q => !q.waiters.contains (.req rid)) && !s.thinBusy rid &&
  ((r.phase != .fetch && r.phase != .exact) || r.winLeft == 0)

/-- The output of a completed phase is formed and retained, and the next phase starts or the response is formed (R64). -/
def State.phaseOut (s : State) (rid : Nat) (r : Req) : State :=
  if r.op = opTopk then s.doneSelect rid r
  else if r.op = opPour then (if r.phase = .check then s.donePourCheck rid r else s.doneSample rid r)
  else match s.index? r.hdr.index.toNat with
    | none => s.endWith rid stNoSuchIndex
    | some x =>
      match r.phase with
      | .coarse => s.doneCoarse rid r x
      | .scan => if r.op = opJoin then s.doneJoinScan rid r x else s.doneScan rid r x
      | .wscan => s.doneScan rid r x
      | .rerank | .wrerank => s.doneRerank rid r x
      | .merge => s.doneMerge rid r
      | .check => s.doneCheck rid r x
      | .stage => s.doneStage rid r x
      | .commit => s.doneCommit rid r x
      | .coalesce => s.doneCoalesce rid r x
      | .fetch => s.doneFetch rid r x
      | .exact => s.doneExact rid r x
      | .sum => s.doneSum rid r x
      | .sched => s.doneSched rid r x
      | .select | .sample => s

/-- A run that ends without a fault of the suspect unit judges that fault transient (R497); the phase's Rills and parts are
done with. -/
def State.endRun (s : State) (rid : Nat) (r : Req) : State :=
  let s1 := if r.suspect.isSome then s.bumpSat Reg.RST_CNT_FAULTS 0 32 1 else s
  let s2 := (s1.idleRills rid).modReq rid (fun q => { q with suspect := none, onSpare := none })
  { s2 with partsOut := s2.partsOut.filter (fun p => p.rid != rid) }

/-- A scan that completes counts the selections behind it that ran as several passes (R174, R185). -/
def State.scanSplits (s : State) (rid : Nat) (r : Req) : State :=
  match s.index? r.hdr.index.toNat with
  | none => s
  | some x => if (r.phase = .scan ∨ r.phase = .wscan) ∧ opUsesIndex r.op = true then s.countSplits rid r x else s

/-- A copy of a request's return record that is found lost is repaired from the other (R63). -/
def State.repairRecord (s : State) (rid : Nat) (lost : Option Bool) : State :=
  match lost with
  | some c => s.modReq rid (fun r => r.repair c)
  | none => s

/-- PHASE_COMPLETE: the present phase of a request, or of a part this node serves as owner, completes. `readback` says what the
Reservoir finds as it reads back the descriptor and the retained output: state that is lost, here or earlier in the phase, ends the
request with STATE_LOST (R66), at once when no phase is running; a lost copy of the return record is repaired (R63). At DEADLINE the
deadline prevails (R56). -/
def execPhaseComplete (rid : Nat) (readback : Readback) (s0 : State) : Res :=
  let s := s0.repairRecord rid readback.lost
  match s.req? rid with
  | none => .next (s.completePart rid readback.ok)
  | some r =>
    let lost := !readback.ok || r.lost
    if r.life = .answered then .next s
    else if lost ∧ r.underWay = false then .next (s.endWith rid stStateLost)
    else if !s.phaseReady rid r then .next s
    else if r.hdr.deadline.toNat ≤ s.now.toNat then .next (s.endWith rid stDeadlineMissed)
    else if lost then .next (s.endWith rid stStateLost)
    else
      let s1 := (s.scanSplits rid r).endRun rid r
      match s1.req? rid with
      | some q => .next (s1.phaseOut rid q)
      | none => .next s1

/-! ### Faults of a phase -/

/-- The bank of a Runnel's shared SRAM that a fault names, if it is an uncorrectable error of one: code 32 + bank (R276). -/
def chargeBank (c : Charge) : Option Nat := if c.kind = kRunnel ∧ 32 ≤ c.code ∧ c.code < 64 then some (c.code - 32) else none

/-- Count a fault in the registers of the unit it is charged to. Codes of a Runnel or Weir: 1 Weir parity, 2 other Weir
fault, 32 and up an uncorrectable error of a bank of the shared SRAM (R276); of a column: 1 operand parity, 2 residue. A Spout
counts its faults (R348). -/
def State.countCharge (s : State) (c : Charge) : State :=
  if (c.kind = kWeirLane ∨ c.kind = kRunnel) ∧ c.code = 1 then s.bumpSat Reg.WEIR_ERR 0 16 1
  else if (c.kind = kWeirLane ∨ c.kind = kRunnel) ∧ c.code = 2 then s.bumpSat Reg.WEIR_ERR 32 16 1
  else if c.kind = kColumn then
    let k := instKey Reg.CASC_ERR (nodeTerrace (locBasin c.loc) (locTerrace c.loc))
    if c.code = 1 then s.bumpSat k 0 16 1 else if c.code = 2 then s.bumpSat k 16 16 1 else s
  else if (chargeBank c).isSome then s.bumpSat (instKey Reg.RUNNEL_STATUS c.loc) 32 16 1
  else if c.kind = kSpout then s.bumpSat (instKey Reg.SPOUT_STATUS c.loc) 32 16 1
  else s

/-- Is the fault an injected residue error of a column (Table 11-11)? Its bit is cleared as it is raised. -/
def State.takeInjected (s : State) (c : Charge) : Bool × State :=
  let k := instKey Reg.CASC_INJECT (nodeTerrace (locBasin c.loc) (locTerrace c.loc))
  if c.kind = kColumn ∧ c.code = 2 ∧ bit (s.reg k) 0 = true ∧ s.regF k 1 6 = c.loc / 16 then (true, s.setRegF k 0 1 0)
  else (false, s)

/-- The requests and parts whose phases a fault in one of them ends: itself, and for an uncorrectable error of a shared SRAM every
other with data in the bank (R276). -/
def State.faulted (s : State) (rid : Nat) (c : Charge) : List Nat :=
  match chargeBank c with
  | some b => rid :: ((((s.sram c.loc).users.filter (fun u => u.1 == b)).map Prod.snd).dedup.filter (· != rid))
  | none => [rid]

/-- PHASE_FAULT: a fault charged to a unit during a phase of a request or of an owner's part (R65, R157, R183, R276, R312, R497 to R500,
R509). -/
def execPhaseFault (rid : Nat) (charge : Charge) (s : State) : Res :=
  let held := match s.req? rid with
    | some r => r.holds
    | none => false
  if (s.phaseRun rid).isNone ∨ held = true then .next s
  else
    let i := (s.countCharge charge).takeInjected charge
    .next ((s.faulted rid charge).foldl (fun (t : State) q => t.phaseFault q charge i.1) i.2)

/-! ### Deadlines -/

/-- DEADLINE_ARRIVAL: the count has reached the DEADLINE of a request, or of a part this node serves (both have numbers
from one sequence): it is stopped with TIER_LATE while it waits on a lower-tier read, else with DEADLINE_MISSED (R56, R57,
R363). -/
def execDeadlineArrival (rid : Nat) (s : State) : Res :=
  match s.req? rid with
  | some r =>
    if r.life = .answered ∨ s.now.toNat < r.record.deadline.toNat then .next s
    else
      let waits := s.mem.reads.any (fun q => q.waiters.contains (.req rid))
      .next (s.endWith rid (if waits then stTierLate else stDeadlineMissed))
  | none =>
    match Store.find? s.partsIn rid with
    | some p =>
      if s.now.toNat < (partDeadline p.body).toNat then .next s
      else
        let waits := s.mem.reads.any (fun q => q.waiters.contains (.part rid))
        .next (s.failPart rid (if waits then stTierLate else stDeadlineMissed))
    | none => .next s

/-- Drops under R71 are counted. -/
def State.countUndelivered (s : State) (n : Nat) : State :=
  { s with hwReq := { s.hwReq with undelivered := s.hwReq.undelivered + n } }

/-- Part replies that could not be delivered by their part's DEADLINE + 100,000 drops are dropped (R71). -/
def State.dropOldReplies (s : State) : State :=
  let old := fun (m : UMsg) => m.kind == .partReply && decide (m.deadline.toNat ≤ s.now.toNat)
  (s.dropMsgs old).countUndelivered ((s.urdun.msgs.filter (fun q => old q.2)).length)

/-- RESPONSE_DROP: a response not delivered by DEADLINE + 100,000 drops is dropped, its Reservoir state is freed, and it is
counted (R71); part replies as late are dropped with it. -/
def execResponseDrop (rid : Nat) (s : State) : Res :=
  let s0 := s.dropOldReplies
  match s0.req? rid with
  | none => .next s0
  | some r =>
    if r.life ≠ .answered ∨ s0.now.toNat < r.record.deadline.toNat + 100000 then .next s0
    else match r.src with
      | .port _ _ =>
        .next (((s0.dropMsgs (fun m => m.kind == .response && m.rid == some rid)).dropReq (some rid)).countUndelivered 1)
      | .host f q _ _ _ =>
        let v := s0.queue f q
        let s1 := s0.setQueue f q { v with
          owed := v.owed.filter (fun o => o.rid != some rid)
          inflight := v.inflight - 1 }
        .next (((s1.dropReq (some rid)).countUndelivered 1).bumpSat Reg.HOST_CNT 0 32 1)

/-! ### Parts and replies -/

/-- The slice a part belongs to: that of its ready index, else the node part of the Reservoir (R448). -/
def State.partSlice (s : State) (body : List Byte) : Option Nat :=
  ((s.index? (byteAt body 28)).filter (fun x => x.state == .ready)).map (fun x => x.desc.slice)

/-- Take in an owner's part that has been admitted, under the map in force (R448). -/
def State.takePart (s : State) (kind : PartKind) (port : Nat) (src : U64) (body : List Byte) : State :=
  let pid := s.nextRid
  let p : PartIn := { kind := kind, body := body, port := port, src := src, slice := s.partSlice body, tAccept := s.now,
                      entry := s.entry ((s.partSlice body).getD 16), gen := s.slices.gen }
  ({ s with nextRid := pid + 1, partsIn := Store.insert s.partsIn pid p } : State).tryPart pid

/-- A part arrives whole: it is admitted or answered BUSY (R415, R448). Its admission frame carries a MSG_ID that the command
does not name, so that field is free. -/
def State.partArrives (s : State) (kind : PartKind) (port : Nat) (src : U64) (body : List Byte) : State :=
  let f := s.takeFree 32
  let ok := f.2.roomFor (f.2.partSlice body) body.length
  let s1 := f.2.admitMsg port src f.1.toNat (BitVec.ofNat 64 (partToken body)) (!ok)
  if ok then s1.takePart kind port src body else s1

/-- Entries in strictly descending key order (R153). -/
def entriesDescend : List Entry → Bool
  | a :: b :: t => decide (b.key < a.key) && entriesDescend (b :: t)
  | _ => true

/-- Parse entries of R59. -/
def parseEntries (bs : List Byte) : List Entry :=
  (chunks 16 bs).map (fun c => ⟨BitVec.ofNat 64 (leAt c 0 8), BitVec.ofNat 32 (leAt c 8 4), BitVec.ofNat 32 (leAt c 12 4)⟩)

/-- The records of a re-rank reply against the groups of its part: number and survivors of each, and whether they match. -/
def parseSurvivors : List (Nat × List GlobalId) → List Byte → List (Nat × List Entry) × Bool
  | [], bs => ([], bs.isEmpty)
  | g :: gs, bs =>
    let n := leAt bs 4 4
    if bs.length < 16 + 16 * n then ([], false)
    else
      let es := parseEntries ((bs.drop 16).take (16 * n))
      let ok := leAt bs 0 2 == g.1 && leAt bs 2 2 == 0 && es.all (fun e => g.2.contains e.gid) && entriesDescend es
      let t := parseSurvivors gs (bs.drop (16 + 16 * n))
      ((g.1, es) :: t.1, ok && t.2)

/-- Parse a row record of Table 5-6. -/
def parseRow (d : IdxDesc) (bs : List Byte) : Row :=
  let codes := unpackCodes d.code ((bs.drop 24).take d.codeBytes)
  ⟨BitVec.ofNat 32 (leAt bs 0 4), BitVec.ofNat 32 (leAt bs 4 4), leAt bs 8 2, codes, bitsOf (leAt bs 10 2) 2 1 == 1,
   BitVec.ofNat 32 (leAt bs 12 4), BitVec.ofNat 64 (leAt bs 16 8)⟩

/-- The entries of a gather reply against the IDs of its part (R230). -/
def parseGathered (d : IdxDesc) (ids : List GlobalId) (bs : List Byte) : List (GlobalId × Option Row) × Bool :=
  let es := chunks (16 + d.stride) bs
  let rows := es.map (fun e => ((BitVec.ofNat 64 (leAt e 0 8) : GlobalId),
    if byteAt e 8 = 0 then some (parseRow d (e.drop 16)) else none))
  (rows, bs.length == ids.length * (16 + d.stride) && decide (rows.map Prod.fst = ids) && es.all (fun e => decide (byteAt e 8 ≤ 1)))

/-- Codes a reply may carry. BUSY is no status over Urdun and CONFLICT none of a request of Table 3-3 (R61). -/
def statusKnown (n : Nat) : Bool :=
  [0x00, 0x10, 0x11, 0x12, 0x13, 0x20, 0x21, 0x22, 0x30, 0x31, 0x32, 0x33, 0x34, 0x41].contains n

/-- A reply to a pending part: survivors or rows are retained; a reply that does not fit its part is a fault of the phase
that sent it; a failure status ends the request (R65, R561). Reserved bytes other than 0, a status that no reply carries, and a failure
reply longer than 16 bytes or with a count are taken as such a fault too (DESIGN CHOICE, log 154). IDs that a re-executed phase
fetches again are not counted again (DESIGN CHOICE, log 155). -/
def State.replyFor (s : State) (p : PartOut) (body : List Byte) : State :=
  match s.req? p.rid with
  | none => s
  | some r =>
    match s.index? r.hdr.index.toNat with
    | none => s
    | some x =>
      let fault := s.phaseFault p.rid ⟨0, 0, 0, none⟩ false
      let done := fun (w : Work) =>
        let s1 := s.retain p.rid w
        { s1 with partsOut := s1.partsOut.map (fun (q : PartOut) =>
            if q.token = p.token then { q with done := true, busy := false } else q) }
      let st := byteAt body 8
      if body.length < 16 ∨ !statusKnown st then fault
      else if p.kind = .gather then
        let n := leAt body 12 4
        if leAt body 9 3 ≠ 0 then fault
        else if st ≠ stOk then (if body.length = 16 ∧ n = 0 then s.endWith p.rid st else fault)
        else
          let ids := (p.groups.map Prod.snd).flatMap id
          let g := parseGathered x.desc ids (body.drop 16)
          if n = ids.length ∧ g.2 = true then done { r.work with rows := r.work.rows ++ g.1 } else fault
      else
        let n := leAt body 10 2
        if byteAt body 9 ≠ 0 ∨ leAt body 12 4 ≠ 0 then fault
        else if st ≠ stOk then (if body.length = 16 ∧ n = 0 then s.endWith p.rid st else fault)
        else
          let g := parseSurvivors p.groups (body.drop 16)
          if n = p.groups.length ∧ g.2 = true then
            done { r.work with queries := (List.range r.work.queries.length).filterMap (fun i =>
              (r.work.queries[i]?).map (fun (q : QWork) =>
                { q with surv := q.surv ++ (g.1.filter (fun e => e.1 == i)).flatMap Prod.snd })) }
          else fault

/-- A part reply arrives; one whose TOKEN names no pending part is discarded and counted (R419). -/
def State.partReply (s : State) (body : List Byte) : State :=
  match s.partsOut.find? (fun p => p.token == partToken body && !p.done) with
  | none => s.bumpSat Reg.URD_CNT_DROP 48 16 1
  | some p => s.replyFor p body

/-- RERANK_REPLY: a reply to a re-rank part (Table 6-7). -/
def execRerankReply (_port : Fin 8) (_src : U64) (body : List Byte) (s : State) : Res := .next (s.partReply body)

/-- GATHER_REPLY: a reply to a gather part (Table 9-3). -/
def execGatherReply (_port : Fin 8) (_src : U64) (body : List Byte) (s : State) : Res := .next (s.partReply body)

/-- ADMISSION_FRAME: the verdict on a part this node sent: a part answered BUSY is to be sent again (R415). -/
def execAdmissionFrame (_port : Fin 8) (_src : U64) (body : List Byte) (s : State) : Res :=
  .next { s with partsOut := s.partsOut.map (fun (p : PartOut) =>
    if p.token = partToken body ∧ p.done = false then { p with busy := decide (byteAt body 12 = 1) } else p) }

/-- PART_RESEND: a part answered BUSY is sent again, until the part's DEADLINE (R415). -/
def execPartResend (token : Nat) (s : State) : Res :=
  match s.partsOut.find? (fun p => p.token == token && p.busy && !p.done) with
  | none => .next s
  | some p =>
    if (partDeadline p.body).toNat ≤ s.now.toNat then .next s
    else
      let s1 := { s with partsOut := s.partsOut.map (fun (q : PartOut) =>
        if q.token = token then { q with busy := false } else q) }
      .next (s1.sendPart p)

/-! ### Weir passes -/

/-- Entries of a row that are inserted into the result store (R177), with the store as sorted keys and IDs. -/
def weirInserts (keep : Nat) : List WEnt → List WEnt → Nat
  | [], _ => 0
  | w :: ws, store =>
    if w.gid = emptyGid then weirInserts keep ws store
    else
      let sorted := sortBy WEnt.key store
      let full := decide (keep ≤ sorted.length)
      let kth := match sorted.getLast? with | some l => l.key | none => 0
      if full && decide (w.key ≤ kth) then weirInserts keep ws store
      else 1 + weirInserts keep ws ((sortBy WEnt.key (collapseInto w sorted)).take keep)

/-- A row entry as a Weir holds it. -/
def WeirEntry.went (sketch : Bool) (e : WeirEntry) : WEnt :=
  { (if sketch then sketchEnt (min 512 e.key.toNat) e.gid else scoreEnt ⟨e.gid, e.key, e.ver⟩) with copies := e.copies.toNat }

/-- A kept entry as the result of a pass carries it. -/
def WEnt.entry (sketch : Bool) (w : WEnt) : WeirEntry :=
  ⟨if sketch then BitVec.ofNat 32 (keyHam w.key) else w.score, w.gid, if sketch then 0 else w.version, BitVec.ofNat 32 w.copies⟩

/-- WEIR_PASS: a pass of a row of a request completes: its result leaves the Weir and the counters of Table 7-9 move (R166 to R171,
R177). A row is 1 to 65,536 entries and the keep count 1 to 8,192; there is no other pass. Under WEIR_CTRL.INJECT the next pass of
the named lane meets a parity fault instead, is not completed, and counts nothing (R183; DESIGN CHOICE, log 153). -/
def execWeirPass (lane : Option (Fin 16)) (rid : Nat) (sketch : Bool) (keep : Nat) (ents : List WeirEntry) (s : State) : Res :=
  let inj := bit (s.reg Reg.WEIR_CTRL) 0 && (match lane with
    | some l => decide (s.regF Reg.WEIR_CTRL 1 4 = l.val)
    | none => false)
  if keep < 1 ∨ 8192 < keep ∨ ents.length < 1 ∨ 65536 < ents.length then .next s
  else if inj then
    let l := match lane with | some l => (weirLanes s.record).getD l.val 0 | none => 0
    .next ((((s.setRegF Reg.WEIR_CTRL 0 1 0).bumpSat Reg.WEIR_ERR 0 16 1).phaseFault rid ⟨kWeirLane, l, 1, none⟩ true))
  else
    let row := ents.map (WeirEntry.went sketch)
    let p := weirPass (!sketch) keep row
    let s1 := ((s.bump Reg.WEIR_CNT_PASSES 0 64 1).bump Reg.WEIR_CNT_ENTRIES 0 64 ents.length).bump Reg.WEIR_CNT_INSERTS 0 64
      (weirInserts keep row [])
    .next (s1.emit (.weir lane (p.kept.map (WEnt.entry sketch)) p.ties))

/-- INJECT_WEIR_PARITY: WEIR_CTRL.INJECT with INJECT_LANE (Table 7-7). -/
def execInjectWeirParity (lane : Fin 16) (s : State) : Res :=
  .next (s.pfWrite (keyPage Reg.WEIR_CTRL) (keyOff Reg.WEIR_CTRL)
    ((s.setRegF Reg.WEIR_CTRL 1 4 lane.val).setRegF Reg.WEIR_CTRL 0 1 1))

end Sys2Proof.Machine
end

