-- ==== Sys2Proof/Machine/Admission.lean ====
section
/-! DEFINITION. Admission of requests: the header's bytes, the checks of Table 3-4 in their order, ACCEPT and BUSY (R46 to
R55, R189, R190, R436, R446, R447, R559), and the requests of the opcode table taken whole. -/

namespace Sys2Proof.Machine

/-! ### The header -/

/-- Bytes 0 to 59 of a request header (Table 3-1). -/
def headBytes (op : Nat) (h : ReqHdr) : List Byte :=
  leBytes 1 op ++ [h.flags, h.hdrVer, h.slice] ++ leBytes 2 h.mapGen.toNat ++ [h.index, h.rsv] ++ leBytes 8 h.reqId.toNat
    ++ leBytes 4 h.epoch.toNat ++ leBytes 4 h.payloadLen.toNat ++ leBytes 8 h.deadline.toNat ++ leBytes 8 h.replyTo.toNat
    ++ [h.attempt] ++ h.params

/-- The header that the first 64 bytes of a request spell; bytes that were not received read 0. -/
def parseHdr (bs : List Byte) : ReqHdr where
  flags := bs.getD 1 0
  hdrVer := bs.getD 2 0
  slice := bs.getD 3 0
  mapGen := BitVec.ofNat 16 (leAt bs 4 2)
  index := bs.getD 6 0
  rsv := bs.getD 7 0
  reqId := BitVec.ofNat 64 (leAt bs 8 8)
  epoch := BitVec.ofNat 32 (leAt bs 16 4)
  payloadLen := BitVec.ofNat 32 (leAt bs 20 4)
  deadline := BitVec.ofNat 64 (leAt bs 24 8)
  replyTo := BitVec.ofNat 64 (leAt bs 32 8)
  attempt := bs.getD 40 0
  params := padTo 0 19 (bs.drop 41)
  crc := BitVec.ofNat 32 (leAt bs 60 4)

/-- The CRC of a request (R49). -/
def reqCrc (op : Nat) (h : ReqHdr) (payload : List Byte) : U32 := crc32c (headBytes op h ++ payload)

/-! ### The checks of Table 3-4 -/

/-- What the checks settle: the step that fails with its status, a wait for a map switch or a flip, or a run. -/
inductive Verdict where
  | fail (step st : Nat)
  | waitMap
  | waitFlip
  | run
  deriving DecidableEq, Repr

/-- May a source use a slice (R463): the physical function and ports any, virtual function n slice n? -/
def srcMayUse (src : Source) (slice : Nat) : Bool :=
  match src with
  | .port _ _ => true
  | .host fn _ _ _ _ => fn.val == 0 || fn.val == slice + 1

/-- EN of a slice in the map in force. -/
def State.configured (s : State) (n : Nat) : Bool := decide (n < 16) && (s.entry n).en

/-- Entry `n` of a map. -/
def mapAt (m : List MapEntry) (n : Nat) : MapEntry := m.getD n (entryReset n)

/-- The pending map that a request waits for: it names the next generation and the switch comes before its DEADLINE (Table
17-2). -/
def State.waitsMap (s : State) (h : ReqHdr) : Option PendingMap :=
  s.slices.pending.filter (fun p => h.mapGen == s.slices.gen + 1 && decide (p.time.toNat < h.deadline.toNat))

/-- SINCE of a slice. -/
def State.sinceOf (s : State) (n : Nat) : U16 := s.slices.since.getD n 0

/-- Does a request's MAP_GEN run under the map in force (Table 17-2)? -/
def State.mapGenOk (s : State) (h : ReqHdr) : Bool :=
  decide ((s.slices.gen - h.mapGen).toNat ≤ (s.slices.gen - s.sinceOf h.slice.toNat).toNat)

/-- Step 4: the opcode is in Table 3-3 and enabled for a configured slice that the source may use. -/
def State.opOk (s : State) (op : Nat) (h : ReqHdr) (src : Source) : Bool :=
  opTable.contains op &&
  (!(s.configured h.slice.toNat && srcMayUse src h.slice.toNat) || (s.entry h.slice.toNat).opEnabled (opNumber op))

/-- Step 5: reserved fields, unused fields and REPLY_TO. -/
def fieldsOk (op : Nat) (h : ReqHdr) : Bool :=
  bitsOf h.flags.toNat 4 4 == 0 && h.rsv == 0 && (opUsesIndex op || (h.index == 0 && h.epoch == 0)) && reservedOk op h &&
  (h.replyTo == 0 || adrValid h.replyTo)

/-- Step 13: admission by epoch (Table 8-2). -/
def State.epochVerdict (s : State) (op : Nat) (h : ReqHdr) (x : Index) : Verdict :=
  let soon := match x.flip with
    | some f => decide (f.time.toNat < h.deadline.toNat)
    | none => false
  let stale := Verdict.fail 13 stStaleEpoch
  if opIsRead op then (if x.isLive h.epoch then .run else if h.epoch = x.u ∧ soon = true then .waitFlip else stale)
  else if opIsWrite op then
    (if h.epoch = x.u ∧ s.sealBegun x = false then .run else if h.epoch = x.u + 1 ∧ soon = true then .waitFlip else stale)
  else if h.epoch = x.u then .run
  else if h.epoch = x.cur ∧ h.pb 41 0 2 = 0 ∧ BitVec.ofNat 64 (h.p 48 8) = x.lastFlip then .run
  else stale

/-- The index a request names, if it is an existing one of its slice (step 8). -/
def State.reqIndex (s : State) (h : ReqHdr) : Option Index :=
  if h.index.toNat < 32 then
    (s.index? h.index.toNat).filter (fun x => x.state == .ready && x.desc.slice == h.slice.toNat)
  else none

/-- Steps 8 to 13. -/
def State.verdictFrom8 (s : State) (op : Nat) (h : ReqHdr) (payload : List Byte) : Verdict :=
  let x := if opUsesIndex op then s.reqIndex h else none
  if opUsesIndex op && x.isNone then .fail 8 stNoSuchIndex
  else if !(if op = opPour then s.pourLengthOk h payload else lengthOk op h x payload) then .fail 9 stBadLength
  else if !(if op = opPour then s.pourRangesOk h else rangesOk op h x payload) then .fail 10 stBadDescriptor
  else if h.deadline.toNat ≤ s.now.toNat then .fail 11 stDeadlineMissed
  else if s.now.toNat + 0x1000000000 < h.deadline.toNat then .fail 12 stBadDescriptor
  else match x with
    | some y => s.epochVerdict op h y
    | none => .run

/-- The checks of Table 3-4 on a request of which `recv` bytes were received. -/
def State.verdict (s : State) (op : Nat) (h : ReqHdr) (payload : List Byte) (src : Source) (recv : Nat) : Verdict :=
  let len := h.payloadLen.toNat
  let n := h.slice.toNat
  let wait := s.waitsMap h
  if recv ≠ 64 + len ∨ len % 8 ≠ 0 ∨ 0x10000000 < len then .fail 1 stBadLength
  else if h.crc ≠ reqCrc op h payload then .fail 2 stBadDescriptor
  else if h.hdrVer ≠ 1 then .fail 3 stUnsupported
  else if !s.opOk op h src then .fail 4 stUnsupported
  else if !fieldsOk op h then .fail 5 stBadDescriptor
  else
    let en := match wait with
      | some p => decide (n < 16) && (mapAt p.map n).en
      | none => s.configured n
    if !(en && srcMayUse src n) then .fail 6 stWrongSlice
    else if wait.isSome then .waitMap
    else if !s.mapGenOk h then .fail 7 stStaleMap
    else s.verdictFrom8 op h payload

/-! ### ACCEPT -/

/-- The class of a request: FLAGS.CLASS, or the opcode's default (R48, R436). The class of a response to a request whose
header cannot be trusted, or whose opcode has none, is open. -/
def State.reqClass (s : State) (op : Nat) (h : ReqHdr) (trusted : Bool) : Nat × State :=
  let c := bitsOf h.flags.toNat 0 4
  if trusted && c != 0 then (c, s)
  else if trusted && opTable.contains op then (s.regF Reg.SLU_DEFCLASS (4 * opNumber op) 4, s)
  else
    let f := s.takeFree 4
    (f.1.toNat, f.2)

/-- A request passes step 13 or waits: it starts, or its wait is noted. -/
def State.settleReq (s : State) (rid : Nat) (v : Verdict) : State :=
  match v with
  | .fail _ st => s.endNow rid st
  | .waitMap => (s.modReq rid (fun r => { r with life := .waitMap })).bumpSat Reg.SLC_CNT 32 16 1
  | .waitFlip => (s.modReq rid (fun r => { r with life := .waitFlip })).bump Reg.EPOCH_CNT_WAITS 0 64 1
  | .run => s.startReq rid

/-- Does a descriptor of `bytes` bytes go to the HBM spill, since the SRAM share of its slice has no room for it (R62)? The node part
has no spill. SRAM counts as full once what the slice holds in the Reservoir, what has gone to the spill among it, would pass its SRAM
share (DESIGN CHOICE, log 178). -/
def State.spills (s : State) (slice : Option Nat) (bytes : Nat) : Bool :=
  match slice with
  | none => false
  | some n => decide ((s.entry n).sram * 1048576 < s.occupancy slice + bytes + returnRecord)

/-- The node takes a request into the Reservoir and checks it (R52, R54, R55, R559). The header and payload are kept unchanged (R62),
with two copies of the return record (R63). A request that fails step 1 or 2 is answered at its link-level source, and no field of
it but REQ_ID, SLICE and ATTEMPT is used: its return record has REPLY_TO 0 and a free DEADLINE for R71. -/
def State.accept (s : State) (op : Nat) (h : ReqHdr) (payload : List Byte) (src : Source) (recv : Nat) (node : Bool) :
    State :=
  let v := s.verdict op h payload src recv
  let step := match v with | .fail n _ => n | _ => 14
  let c := s.reqClass op h (decide (3 ≤ step))
  let d := c.2.takeFree 64
  let trusted := decide (3 ≤ step)
  let s1 := if trusted then c.2 else d.2
  let toSource := !trusted || (decide (step ≤ 5) && h.replyTo != 0 && !adrValid h.replyTo)
  let ret := recordOf (if trusted then h else { h with replyTo := 0, deadline := d.1 }) src s1.now
  let rid := s1.nextRid
  let r : Req := {
    op := op
    hdr := h
    payload := payload
    src := src
    tAccept := s1.now
    life := .running
    phase := .check
    gen := if trusted then s1.slices.gen else 0
    epoch := if trusted then h.epoch else 0
    entry := s1.entry h.slice.toNat
    nodePart := node
    cls := c.1
    toSource := toSource
    ret := ⟨some ret, some ret⟩
    spill := s1.spills (if node then none else some h.slice.toNat) (64 + payload.length) }
  let s2 := { s1 with
    nextRid := rid + 1
    reqs := Store.insert s1.reqs rid r
    hwReq := { s1.hwReq with toSource := s1.hwReq.toSource + b2n toSource } }
  s2.settleReq rid v

/-- The part of the Reservoir a request is admitted against (R53): its slice's share, or the node part. -/
def State.admitPart (s : State) (slice : Nat) (src : Source) : Option Nat :=
  if s.configured slice && srcMayUse src slice then some slice else none

/-- A request ends BUSY on a host queue: a response of STATUS BUSY (R475). -/
def State.hostBusy (s : State) (fn q : Nat) (tag : U32) (addr : U64) (len : U32) (h : ReqHdr) : State :=
  (s.bump (instKey Reg.HQ_CNT fn) 0 32 1).owe fn q ⟨none, tag, addr, len, 1, h.reqId, busyBytes h, 0⟩

/-- An entry or request of a queue has been accepted: it is in flight until its completion entry is written. -/
def State.inFlight (s : State) (fn q : Nat) : State :=
  let v := s.queue fn q
  s.setQueue fn q { v with inflight := v.inflight + 1 }

/-- A whole request is admitted or answered BUSY (R52, R53). -/
def State.offer (s : State) (op : Nat) (h : ReqHdr) (payload : List Byte) (src : Source) (recv : Nat) : State :=
  let part := s.admitPart h.slice.toNat src
  let ok := s.roomFor part recv
  match src with
  | .port p from_ =>
    let f := s.takeFree 32
    let s1 := f.2.admitMsg p from_ f.1.toNat h.reqId (!ok)
    if ok then s1.accept op h payload src recv part.isNone else s1
  | .host fn q tag addr len =>
    if ok then (s.inFlight fn q).accept op h payload src recv part.isNone
    else s.hostBusy fn q tag addr len h

/-- Can a request arrive by this source now: on a port that is up, or on a queue pair that the function has while queues are
served (R473, R483)? -/
def State.sourceUp (s : State) (src : Source) : Bool :=
  match src with
  | .port p _ => s.portUp p
  | .host fn q _ _ _ => decide (s.rst.phase = 3 ∧ q.val < queueCount fn)

end Sys2Proof.Machine
end

