-- ==== Sys2Proof/Machine/Slices.lean ====
section
/-! DEFINITION. Map switches, the release of what they move, and pulls (R445 to R453). -/

namespace Sys2Proof.Machine

/-- A whole map: sixteen entries. -/
def fullMap (m : List MapEntry) : List MapEntry := (List.range 16).map (mapAt m)

/-- The slice that holds a Terrace under a map. -/
def terraceOwner (m : List MapEntry) (t : Nat) : Option Nat :=
  (List.range 16).find? (fun n => (mapAt m n).en && (mapAt m n).hasTerrace t)

/-- The replicas that slice `n` keeps on each of its Terraces (R452). -/
def State.replicasOf (s : State) (n : Nat) : List Nat :=
  (s.indexes.flatMap (fun p => if p.2.desc.slice = n then [2 * p.1, 2 * p.1 + 1] else [])) ++
  (s.progs.flatMap (fun p => if p.2.slice = n ∧ p.2.prog.isSome then [64 + p.1] else []))

/-- SINCE of a slice after a switch to generation `g` (R445). -/
def nextSince (g old : U16) (changed : Bool) : U16 :=
  if changed then g else if 32767 < (g - old).toNat then g - 32767 else old

/-- Drop clean lines under CLOCK until a cache holds `cap` lines; the fuel is its length. -/
def shrinkLines (pin : Nat → Bool) (cap : Nat) : Nat → List Line → List Line
  | 0, l => l
  | f + 1, l => if l.length ≤ cap ∨ l.all (fun a => pin a.lpn) then l
      else shrinkLines pin cap f (clockEvict pin (2 * l.length + 1) l)

/-- Row caches that have become larger than their share evict clean lines (R453). -/
def State.shrinkCaches (s : State) : State :=
  let cs := s.mem.cache.map (fun p =>
    (p.1, shrinkLines s.linePinned (s.cacheCap (p.1 / 2) (p.1 % 2)) p.2.length p.2))
  { s with mem := { s.mem with cache := cs } }

/-- A waiting request stands as one accepted now: under the map in force, within its slice's own part of the Reservoir (R190,
R447). -/
def State.asAccepted (s : State) (rid : Nat) : State :=
  s.modReq rid (fun q => { q with
    gen := s.slices.gen
    entry := s.entry q.hdr.slice.toNat
    nodePart := q.nodePart && !s.configured q.hdr.slice.toNat
    life := .running })

/-- A request that waited for the switch goes on at step 8 under the new map (R447). -/
def State.resumeMap (s : State) (rid : Nat) : State :=
  match s.req? rid with
  | none => s
  | some r =>
    let s1 := s.asAccepted rid
    s1.settleReq rid (s1.verdictFrom8 r.op r.hdr r.payload)

/-- Does a request wait for a switch that has taken place? -/
def State.switched (s : State) (r : Req) : Bool := r.life == .waitMap && r.hdr.mapGen == s.slices.gen

/-- Requests that waited for the switch to the map in force go on (R447). -/
def State.resumeMaps (s : State) : State :=
  (s.reqs.filter (fun q => s.switched q.2)).foldl (fun (t : State) q => t.resumeMap q.1) s

/-- How many granules a new map takes from the slices, as slice, Basin, kind and number. -/
def leavingOf (old new : List MapEntry) : List (Nat × Nat × Nat × Nat) :=
  (List.range 16).flatMap (fun n => (List.range 2).flatMap (fun b => (List.range 2).flatMap (fun k =>
    let was := (mapAt old n).granules b k
    let is := (mapAt new n).granules b k
    if is < was then [(n, b, k, was - is)] else [])))

/-- The granules of a Basin and kind that leave a slice: those that hold the fewest bytes of its pages, the higher-numbered on a tie
(R453), taken from the stacks in turn so that what it keeps stays split evenly, the odd one in complex 0 (R442). -/
def State.pickLeaving (s : State) (n b k : Nat) : Nat → List Granule → List Granule
  | 0, l => l
  | c + 1, l =>
    let rest := fun (st : Nat) => ((s.slices.heldIn n b st).map (fun g => (⟨n, b, st, g⟩ : Granule))).filter (fun g => !l.contains g)
    let st := if (rest (2 * k + 1)).length < (rest (2 * k)).length then 2 * k else 2 * k + 1
    match leastBy (fun g => s.granuleBytes g * 32 + (31 - g.num)) (rest st) with
    | some g => State.pickLeaving s n b k c (l ++ [g])
    | none => l

/-- The granules that leave the slices under a new map, chosen at its commit (R453). -/
def State.chooseLeaving (s : State) (new : List MapEntry) : List Leave :=
  (leavingOf (fullMap s.slices.map) new).flatMap (fun l => (s.pickLeaving l.1 l.2.1 l.2.2.1 l.2.2.2 []).map (fun g => ⟨g, false⟩))

/-- Granules of a Basin and kind that leave a slice, still with pages of it. -/
def Slices.unmoved (sl : Slices) (n b k : Nat) : Nat :=
  (sl.leaving.filter (fun l => l.gran.slice == n && l.gran.basin == b && l.gran.stack / 2 == k && !l.moved)).length

/-- The granules that a switch gives and that have not passed yet: those that no slice holds pass at once, and so do those that hold
no page any more (Table 17-3). -/
def State.gatedAt (s : State) (old new : List MapEntry) : List (Nat × Nat × Nat × Nat) :=
  let gains := leavingOf new old
  let lost := leavingOf old new
  [(0, 0), (0, 1), (1, 0), (1, 1)].foldl (fun (l : List (Nat × Nat × Nat × Nat)) (p : Nat × Nat) =>
    let sum := fun (q : List (Nat × Nat × Nat × Nat)) =>
      sumNat (q.map (fun g => if g.2.1 = p.1 ∧ g.2.2.1 = p.2 then g.2.2.2 else 0))
    let idle := s.granuleCap p.2 - sumNat (old.map (fun e => e.granules p.1 p.2))
    let still := sumNat ((List.range 16).map (fun n => s.slices.unmoved n p.1 p.2))
    passGranules p.1 p.2 (idle + sum lost - still) l) gains

/-- The granules at a switch: those that have been moved out leave their slices, and what is not gated passes (R450). -/
def State.switchGranules (s : State) (old new : List MapEntry) (gated : List (Nat × Nat × Nat × Nat)) : Slices :=
  let gone := (s.slices.leaving.filter Leave.moved).map Leave.gran
  let sl := { s.slices with
    held := s.slices.held.filter (fun g => !gone.contains g)
    leaving := s.slices.leaving.filter (fun l => !l.moved)
    gated := gated }
  (leavingOf new old).foldl (fun (t : Slices) g => t.grant g.1 g.2.1 g.2.2.1 (g.2.2.2 - sl.waitsFor g.1 g.2.1 g.2.2.1)) sl

/-- The pending map becomes the map in force (R445, R450): SINCE moves, what leaves a slice is to be released, a Terrace that
joins a slice lacks its replicas. Requests that wait for it go on once every event of the instant has taken effect (R37). -/
def State.mapSwitch (s : State) (late : Bool) : State :=
  match s.slices.pending with
  | none => s
  | some p =>
    let old := fullMap s.slices.map
    let new := fullMap p.map
    let g := s.slices.gen + 1
    let since := (List.range 16).map (fun n =>
      nextSince g (s.sinceOf n) (decide (mapAt old n ≠ mapAt new n)))
    let changed := (List.range 16).filter (fun t => decide (terraceOwner old t ≠ terraceOwner new t))
    let terrs := changed.filterMap (fun t => (terraceOwner old t).map (fun a => Moving.terrace t a (terraceOwner new t)))
    let grans := (leavingOf old new).filterMap (fun l =>
      let n := s.slices.unmoved l.1 l.2.1 l.2.2.1
      if n = 0 then none else some (Moving.granule l.2.1 l.2.2.1 l.1 n))
    let lacks := (s.slices.lacks.filter (fun l => !changed.contains l.1)) ++
      changed.flatMap (fun t => match terraceOwner new t with
        | some b => (s.replicasOf b).map (fun o => (t, o))
        | none => [])
    let s1 := { s with slices := { s.switchGranules old new (s.gatedAt old new) with
      gen := g
      map := new
      since := since
      pending := none
      late := late
      switchedAt := s.now
      moving := s.slices.moving ++ terrs ++ grans
      lacks := lacks } }
    let joined := changed.filter (fun t => (terraceOwner old t).isNone)
    joined.foldl (fun (u : State) t => u.pointOut (169 + t) (u.terraceOut t)) s1.shrinkCaches

/-- The pending map is cancelled or replaced: requests that wait for it end with STALE_MAP unless a switch to their generation
still comes before their DEADLINE (R447). -/
def State.mapMoved (s : State) : State :=
  s.reqs.foldl (fun (t : State) p =>
    if p.2.life = .waitMap ∧ t.switched p.2 = false ∧ (t.waitsMap p.2.hdr).isNone then t.endWith p.1 stStaleMap else t) s

/-! ### Release -/

/-- Requests of slice `a`, accepted before the switch, with a phase on node Terrace `t`. -/
def State.oldOn (s : State) (a t : Nat) : List Nat :=
  ((s.fabric.rills.filter (fun p => nodeTerrace (p.1 % 2) (p.1 / 2 % 8) == t)).filterMap (fun p => p.2.rid)).dedup.filter
    (fun rid => match s.req? rid with
      | some r => r.hdr.slice.toNat == a && s.underOld r
      | none => false)

/-- Does a node Terrace hold replica `o` of slice `n`: as one of its Terraces, or as one that still drains (R452)? -/
def State.holdsReplica (s : State) (n o t : Nat) : Bool :=
  !s.slices.lacks.contains (t, o) && (terraceOwner (fullMap s.slices.map) t == some n ||
    s.slices.moving.any (fun m => match m with
      | .terrace u old _ => u == t && old == n
      | .granule _ _ _ _ => false))

/-- Is every replica that a slice keeps held by a Terrace of it other than `t`? A slice without Terraces keeps none. -/
def State.heldElsewhere (s : State) (n t : Nat) : Bool :=
  let mine := (List.range 16).filter (fun u => terraceOwner (fullMap s.slices.map) u == some n)
  mine.isEmpty || (s.replicasOf n).all (fun o => mine.any (fun u => u != t && s.holdsReplica n o u))

/-- May a moving resource be released (Table 17-3)? A Terrace lacks no replica of the slice that it joins, and those of the slice that it
leaves are held elsewhere (DEDUCED, log 199). -/
def State.releasable (s : State) (m : Moving) : Bool :=
  match m with
  | .terrace t old _ => (s.oldOn old t).isEmpty && s.slices.lacks.all (fun l => l.1 != t) && s.heldElsewhere old t
  | .granule b k old _ => decide (s.slices.unmoved old b k = 0)

/-- The Rills of a released Terrace are idle with no image (Table 17-3). -/
def State.clearTerrace (s : State) (t : Nat) : State :=
  let rs := s.fabric.rills.filter (fun p => nodeTerrace (p.1 % 2) (p.1 / 2 % 8) != t)
  { s with fabric := { s.fabric with rills := rs } }

/-- RESOURCE_RELEASE: every moving resource whose conditions hold is released; the array of a Terrace that leaves its slice loses what
is queued at its point (R437, R450). -/
def execResourceRelease (s : State) : Res :=
  let go := s.slices.moving.filter s.releasable
  let s1 := go.foldl (fun (t : State) m => match m with
    | .terrace n _ new => (t.clearTerrace n).pointOut (169 + n) (new.isNone || t.terraceOut n)
    | .granule b k old _ => { t with slices := t.slices.release old b k }) s
  .next { s1 with slices := { s1.slices with moving := s1.slices.moving.filter (fun m => !go.contains m) } }

/-- Does a request hold pages in the granules of a Basin and kind: the tables and plain blocks of its index, its blocks in spouting
stacks, or the replicas of its program (R451, R560; DEDUCED, log 36)? -/
def State.holdsGranules (s : State) (r : Req) (b k : Nat) : Bool :=
  if opUsesIndex r.op then
    match s.index? r.hdr.index.toNat with
    | some x => k == 0 || x.arrs.any (fun p => p.2.basin == b && p.2.stack / 2 == k)
    | none => false
  else k == 0 && !r.replicas.isEmpty && !(r.entry.terracesIn b).isEmpty

/-- Requests that still hold a moving resource (R451): for a Terrace those with a phase on it, for a granule those of its old slice
that were accepted before the switch and hold pages in it. -/
def State.holders (s : State) (m : Moving) : List Nat :=
  match m with
  | .terrace t old _ => s.oldOn old t
  | .granule b k old _ => (s.reqs.filter (fun p => !p.2.nodePart && p.2.hdr.slice.toNat == old && p.2.life != .answered &&
      s.underOld p.2 && s.holdsGranules p.2 b k)).map Prod.fst

/-- DRAIN_MAX_EXPIRY: DRAIN_MAX after the switch, requests that still hold a moving resource end with STALE_MAP (R451). -/
def execDrainMaxExpiry (s : State) : Res :=
  if s.now.toNat < s.slices.switchedAt.toNat + s.regF Reg.SLC_CFG 0 20 then .next s
  else .next (((s.slices.moving.filter (fun m => !s.releasable m)).flatMap s.holders).dedup.foldl
    (fun (t : State) rid => t.endWith rid stStaleMap) s)

/-- The slice that an object is replicated in. -/
def State.objSlice (s : State) (o : Nat) : Nat := if o < 64 then s.sliceOf (o / 2) else (s.prog (o - 64)).slice

/-- The source of a pull: a replica in a Terrace of the same Basin, a draining one included, else one in the other Basin; no pull
sources from a Basin that is not in service (R452, R459). -/
def State.pullSource (s : State) (t o : Nat) : Option Nat :=
  let have_ := (List.range 16).filter (fun u => u != t && s.holdsReplica (s.objSlice o) o u && s.basinUp (u / 8))
  (have_.find? (fun u => u / 8 == t / 8)).orElse (fun _ => have_.head?)

/-- Is a replica being pulled: a phase needs it on the Terrace, or the last request accepted before the switch has drained and the node
pulls in the background what its Terraces still lack (R452)? -/
def State.pulls (s : State) (t o : Nat) : Bool :=
  s.slices.lacks.contains (t, o) &&
  (s.reqs.any (fun p => p.2.life == .running && p.2.replicas.contains o && s.mayHold p.2.hdr.slice.toNat p.2.entry (s.underOld p.2) t) ||
    s.reqs.all (fun p => p.2.life == .answered || !s.underOld p.2))

/-- REPLICA_PULL_DONE: a Terrace has its copy of a replica that it lacked. A pull that targets a Basin out of service, or has no source,
is repeated when the Basin returns; a fault during one is a fault of the phase that asked for it, which PHASE_FAULT reports (R65, R452,
R459). -/
def execReplicaPullDone (terrace : Fin 16) (obj : Nat) (s : State) : Res :=
  if s.pulls terrace obj ∧ (s.pullSource terrace obj).isSome ∧ s.basinUp (terrace.val / 8) = true then
    .next (({ s with slices := { s.slices with
      lacks := s.slices.lacks.filter (fun l => l != (terrace.val, obj)) } } : State).bumpSat Reg.SLC_CNT 48 16 1)
  else .next s

/-- The block arrays of the slices move out of the granules of a Basin and kind that leave them, into granules that they keep (R352,
R453). -/
def State.moveOut (s : State) (b k : Nat) : State :=
  let gs := (s.slices.leaving.map Leave.gran).filter (fun g => g.basin == b && g.stack / 2 == k)
  gs.foldl (fun (t : State) g =>
    (t.indexes.filter (fun q => q.2.desc.slice == g.slice)).foldl (fun (u : State) q =>
      (q.2.arrs.filter (fun a => a.2.basin == b && a.2.stack == g.stack && !u.mem.demoted.contains (q.1, a.1))).foldl
        (fun (v : State) a =>
          let bad := (v.runsOf q.1 a.1).filter (fun r => runGranule r == g.num)
          if bad.isEmpty then v else v.moveArr q.1 a.1 a.2 bad) u) t) s

/-- GRANULE_PAGES_MOVED: the pages of the slices have been moved out of the granules of a Basin and kind that leave them; those that hold
no page any more are free to be released (R453). In a Basin that is not in service nothing moves. -/
def execGranulePagesMoved (basin kind : Fin 2) (s : State) : Res :=
  if s.basinUp basin = false then .next s
  else
    let s1 := s.moveOut basin kind
    .next { s1 with slices := { s1.slices with
      leaving := s1.slices.leaving.map (fun (l : Leave) =>
        if l.gran.basin = basin.val ∧ l.gran.stack / 2 = kind.val ∧ s1.granuleBytes l.gran = 0 then { l with moved := true } else l) } }

end Sys2Proof.Machine
end

