-- ==== Sys2Proof/Machine/Clep.lean ====
section
/-! DEFINITION. The Clepsydra receiver: references, sync pairs, count words, lock states and event slots (R21 to R45), the
flip of an epoch and the events that fire at an instant (R188, R197 to R199, R435, R445). -/

namespace Sys2Proof.Machine

/-- One member of a pair. -/
def Pair.get {α : Type} (p : Pair α) (b : Bool) : α := if b then p.b else p.a
/-- A pair with one member set. -/
def Pair.set {α : Type} (p : Pair α) (b : Bool) (v : α) : Pair α := if b then { p with b := v } else { p with a := v }

/-- The state with the receiver set. -/
def State.withClep (s : State) (c : Clep) : State := { s with clep := c }

/-- Set bit `b` of CLEP_EVENT (Table 2-9). -/
def State.clepEvent (s : State) (b : Nat) : State := s.setRegF Reg.CLEP_EVENT b 1 1

/-! ### What fires (R36 to R39) -/

/-- The seal of an index's U begins: winners are placed and the index's migrations are abandoned (R197, R210, R342). -/
def State.beginSeal (s : State) (i : Nat) : State := (s.sealIndex i).abandonMigs (fun m => m.idx == i)

/-- Requests and parts that waited for the flip of an index start, as if accepted at its instant (R190, R191). -/
def State.wakeFlip (s : State) (i : Nat) : State :=
  let s1 := (s.reqs.filter (fun p => p.2.life == .waitFlip && p.2.hdr.index.toNat == i)).foldl (fun (t : State) p =>
    (t.asAccepted p.1).startReq p.1) s
  (s1.partsIn.filter (fun p => p.2.waits && partIndex p.2.body == i)).foldl (fun (t : State) p => t.tryPart p.1) s1

/-- The flip of an index's U, taking effect at instant `t` (R198). -/
def State.doFlip (s : State) (i : Nat) (t : Time) : State :=
  match s.index? i with
  | none => s
  | some x0 =>
    let s1 := if x0.sealed then s else s.beginSeal i
    match s1.index? i with
    | none => s1
    | some x =>
      let y := x.flipAt t (s1.regF Reg.EPOCH_CFG 20 20)
      let s2 := (s1.setIndex i y).disarmSlot y.flipSlot
      ((s2.freeUnseen i).bump Reg.EPOCH_CNT_FLIPS 0 64 1).wakeFlip i

/-- Place of a kind in the order of R37. -/
def SlotKind.rank : SlotKind → Nat
  | .mapSwitch => 0
  | .gateTakeover => 1
  | .epochFlip => 2
  | .heartbeat => 3
  | .free => 4

/-- The order in which due slots fire: time, then R37. -/
def slotOrder (n : Nat) (e : EvSlot) : Nat := (e.time.toNat * 8 + e.kind.rank) * 64 + n

/-- Does a slot's scope let it fire now (R38)? -/
def State.slotAble (s : State) (e : EvSlot) : Bool :=
  e.isLocal || s.clep.lock == .locked || s.clep.lock == .holdover

/-- Is a slot armed with its time arrived (R35) and able to fire? -/
def State.slotDue (s : State) (e : EvSlot) : Bool := e.armed && decide (e.time.toNat ≤ s.now.toNat) && s.slotAble e

/-- A firing is recorded: CLEP_SLOT_FIRED, and when it is late its bit and count (R38, R39). -/
def State.noteFired (s : State) (n : Nat) (late : Bool) : State :=
  let s1 := s.setRegF Reg.CLEP_SLOT_FIRED n 1 1
  if late then (s1.bumpSat Reg.CLEP_ERR_CNT 16 16 1).clepEvent 8 else s1

/-- The earliest instant that is a time plus whole periods and later than the count (R36). -/
def nextPeriod (now time period : Nat) : Nat := time + ((now - time) / max 1 period + 1) * period

/-- A slot fires: a periodic one is armed again, a flip slot stays reserved, and the others are freed (R36, R41, Table
2-4). -/
def State.fireSlot (s : State) (n : Nat) : State :=
  let e := s.slot n
  let s1 := s.noteFired n e.missed
  match e.kind with
  | .mapSwitch => (s1.setSlot n { EvSlot.none with late := e.missed }).mapSwitch e.missed
  | .gateTakeover => (s1.setSlot n { EvSlot.none with late := e.missed }).takeOver e.owner e.missed
  | .epochFlip =>
    (s1.setSlot n { e with armed := false, missed := false, late := e.missed }).doFlip e.owner
      (if e.missed then s.now else e.time)
  | .heartbeat => s1.setSlot n { e with
      time := BitVec.ofNat 64 (nextPeriod s.now.toNat e.time.toNat e.period)
      missed := false
      late := e.missed }
  | .free => s

/-- May a slot fire on its command: it is due, of the named kind, and no other due slot comes before it (R37)? -/
def State.mayFire (s : State) (n : Nat) (k : SlotKind) : Bool :=
  let e := s.slot n
  let ahead := s.clep.slots.any (fun p => s.slotDue p.2 && p.2.kind != .heartbeat &&
    decide (slotOrder p.1 p.2 < slotOrder n e))
  decide (n < 64) && e.kind == k && s.slotDue e && !ahead

/-- Requests that waited for a map switch go on once no event of the instant is left to take effect (R37, R447). -/
def State.settleInstant (s : State) : State :=
  if s.clep.slots.any (fun p => !p.2.isLocal && s.slotDue p.2) then s else s.resumeMaps

/-- A slot fires on its command when it may. -/
def State.fireOn (s : State) (n : Nat) (k : SlotKind) : State :=
  if s.mayFire n k = true then (s.fireSlot n).settleInstant else s

/-- Every Garden slot that is due fires, in order (R37): at the first drop of LOCKED the held ones (R38), and before a request
is taken those whose commands have not come yet. A slot whose time arrived in FREE, and below whose time
the load then stepped the count, is not due at that drop: it waits for its time and fires with LATE (DEDUCED, log 140). -/
def State.fireDue (s : State) : State :=
  let due := s.clep.slots.filter (fun p => !p.2.isLocal && s.slotDue p.2)
  let order := (due.map (fun p => (slotOrder p.1 p.2, p.1))).mergeSort (fun a b => decide (a.1 ≤ b.1))
  (order.foldl (fun (t : State) p => t.fireSlot p.2) s).settleInstant

/-- MAP_SWITCH: a map-switch slot fires (R445). -/
def execMapSwitch (slot : Nat) (s : State) : Res := .next (s.fireOn slot .mapSwitch)

/-- GATE_TAKEOVER: a gate-takeover slot fires (R435). -/
def execGateTakeover (slot : Nat) (s : State) : Res := .next (s.fireOn slot .gateTakeover)

/-- EPOCH_FLIP: a flip slot fires (R198). -/
def execEpochFlip (slot : Nat) (s : State) : Res := .next (s.fireOn slot .epochFlip)

/-- SEAL_BEGIN: at T − SEAL, U is sealed (R197). -/
def execSealBegin (idx : Fin 32) (s : State) : Res :=
  match s.index? idx with
  | some x => if !x.sealed && s.sealBegun x then .next (s.beginSeal idx) else .next s
  | none => .next s

/-- DRAIN_END: the draining epoch stops draining (R188). -/
def execDrainEnd (idx : Fin 32) (s : State) : Res :=
  match s.index? idx with
  | some x =>
    match x.drainEnd with
    | some t => if t.toNat ≤ s.now.toNat then .next ((s.setIndex idx x.endDrain).freeUnseen idx) else .next s
    | none => .next s
  | none => .next s

/-! ### The count -/

/-- Slots that cannot fire at their time are held, to fire late (R38, R39): Garden ones whose time has come outside LOCKED
and HOLDOVER, and any that a forward step from `old` has overtaken. A Garden slot that the step into ACQUIRE overtakes is held until
LOCKED as R38 and Table 2-2 say, though R39 has it fire at the first drop after the step (DEDUCED, log 140). -/
def State.markMissed (s : State) (old : Option Nat) : State :=
  let now := s.now.toNat
  s.withClep { s.clep with slots := s.clep.slots.map (fun p =>
    let held := !s.slotAble p.2 && decide (p.2.time.toNat ≤ now)
    let passed := match old with
      | some o => decide (o < p.2.time.toNat ∧ p.2.time.toNat < now)
      | none => false
    (p.1, if p.2.armed && (held || passed) then { p.2 with missed := true } else p.2)) }

/-- Drops in which a slew moves the count by one drop at the greatest rate, a tenth of a drop in 1 ms (R32; DESIGN CHOICE,
log 94). -/
def slewPeriod : Nat := 1000000

/-- The receiver after one more drop: the count rises by 1 (R22). While a slew runs, each `slewPeriod` drops move it by one
drop toward the reference: a count that is ahead stays for one drop, and one that is behind takes one drop more (R32). -/
def Clep.edge (c : Clep) : Clep :=
  let c1 := { c with ticks := c.ticks + 1, count := c.count + 1 }
  if c.slew = 0 then c1
  else if c.slewRun + 1 < slewPeriod then { c1 with slewRun := c.slewRun + 1 }
  else if 0 < c.slew then { c1 with count := c.count, slew := c.slew - 1, slewRun := 0 }
  else { c1 with count := c.count + 2, slew := c.slew + 1, slewRun := 0 }

/-- REFERENCE_EDGE: a drop ends, and the count follows (R22, R32). -/
def execReferenceEdge (s : State) : Res := .next ((s.withClep s.clep.edge).markMissed none)

/-! ### Lock states (Table 2-3) -/

/-- Enter FREE other than by reset. -/
def State.enterFree (s : State) : State :=
  ((s.withClep { s.clep with
    lock := .free
    lossHeld := s.clep.lossHeld || s.clep.lock == .locked
    lockRun := 0
    disagree := 0
    slew := 0
    pendingWord := none }).clepEvent 4).logEvent 7 1 sevError

/-- Enter HOLDOVER. -/
def State.enterHoldover (s : State) : State :=
  (((s.withClep { s.clep with lock := .holdover, lossHeld := true, holdFrom := s.now, slew := 0 }).clepEvent 3).bumpSat
    Reg.CLEP_ERR_CNT 48 16 1).logEvent 7 2 sevError

/-- Enter LOCKED: held Garden slots fire (R38). A run of disagreeing words goes on (R31). -/
def State.enterLocked (s : State) : State :=
  (((s.withClep { s.clep with lock := .locked, lossHeld := false }).clepEvent 5).logEvent 7 0 sevInfo).fireDue

/-- The node switches to reference `b` (R26). -/
def State.switchRef (s : State) (b : Bool) : State :=
  if s.clep.useB = b then s else (s.withClep { s.clep with useB := b }).bumpSat Reg.CLEP_ERR_CNT 32 16 1

/-- While both references are good, the node uses the one that REF_PREF 0 or 1 names (R26). -/
def State.preferRef (s : State) : State :=
  let pref := s.regF Reg.CLEP_CTRL 4 2
  if s.clep.refOk.a && s.clep.refOk.b && decide (pref < 2) then s.switchRef (decide (pref = 1)) else s

/-- A reference is judged lost (R25 to R27). -/
def State.refLost (s : State) (b : Bool) : State :=
  let c := s.clep
  if c.internal then s
  else
    let s1 := s.withClep { c with refOk := c.refOk.set b false, refGood := c.refGood.set b 0 }
    if !c.refOk.get b then s1
    else
      let s2 := s1.clepEvent (b2n b)
      if c.refOk.get (!b) then (if c.useB = b then s2.switchRef (!b) else s2)
      else match c.lock with
        | .locked => s2.enterHoldover
        | .acquire => s2.enterFree
        | _ => s2

/-- REF_LOST: no rising edge of a reference for 100 ns (R25). -/
def execRefLost (useB : Bool) (s : State) : Res := .next (s.refLost useB)

/-- Is a frequency within 100 ppm of 100 MHz (R25)? -/
def freqOk (hz : Nat) : Bool := decide (99990000 ≤ hz ∧ hz ≤ 100010000)

/-- REF_FREQ_INTERVAL: the end of a 1 ms frequency measurement (R25). -/
def execRefFreqInterval (useB : Bool) (hz : Nat) (s : State) : Res := .next (if freqOk hz then s else s.refLost useB)

/-- HOLDOVER ends once a reference is good and its sync edges are known: within 2 drops LOCKED, with a slew over the offset
(R32), else FREE (Table 2-3). -/
def State.leaveHoldover (s : State) : State :=
  let c := s.clep
  if c.lock ≠ .holdover ∨ c.refOk.get c.useB = false then s
  else match c.syncOff.get c.useB with
    | none => s
    | some d => if d.natAbs ≤ 2 then (s.withClep { c with slew := d, slewRun := 0 }).enterLocked else s.enterFree

/-- A reference is judged good again: the node uses it when it is preferred or the one in use is lost (R26). -/
def State.refGoodAgain (s : State) (b : Bool) : State :=
  let c := s.clep
  let s1 := s.withClep { c with refOk := c.refOk.set b true, refGood := c.refGood.set b 0 }
  let pref := s.regF Reg.CLEP_CTRL 4 2
  let s2 := if c.refOk.get c.useB = false ∨ pref = b2n b then s1.switchRef b else s1
  s2.leaveHoldover

/-- REF_GOOD_INTERVAL: 100,000 edges of a lost reference; 16 clean ones in a row judge it good again (R25). -/
def execRefGoodInterval (useB : Bool) (gap : Bool) (hz : Nat) (s : State) : Res :=
  let c := s.clep
  if c.internal ∨ c.refOk.get useB = true then .next s
  else
    let n := if !gap && freqOk hz then c.refGood.get useB + 1 else 0
    .next (if 16 ≤ n then s.refGoodAgain useB else s.withClep { c with refGood := c.refGood.set useB n })

/-! ### Sync pulses and count words -/

/-- A sync pair is judged lost; the loss of both is an event (R25, R28). -/
def State.syncLost (s : State) (b : Bool) : State :=
  let c := s.clep
  let s1 := s.withClep { c with syncOk := c.syncOk.set b false, syncGood := c.syncGood.set b 0 }
  if c.syncOk.get b && !c.syncOk.get (!b) then s1.clepEvent 2 else s1

/-- How far a count lies after the nearest multiple of 100,000, negative where it lies before it. -/
def syncOffset (n : Nat) : Int := if n % 100000 ≤ 50000 then (n % 100000 : Nat) else (n % 100000 : Nat) - 100000

/-- Judge a pulse of a pair (R25). `syncOff` is none when no pulse came within the time before it. -/
def State.judgePulse (s : State) (b : Bool) : State :=
  let c := s.clep
  let off := syncOffset s.now.toNat
  let timely := (c.syncOff.get b).isSome
  let s1 := s.withClep { c with syncOff := c.syncOff.set b (some off) }
  if c.countValid && decide (1 < off.natAbs) then s1.syncLost b
  else if c.syncOk.get b then s1
  else
    let n := if timely then c.syncGood.get b + 1 else 0
    s1.withClep (if 16 ≤ n then { s1.clep with syncOk := c.syncOk.set b true, syncGood := c.syncGood.set b 0 }
      else { s1.clep with syncGood := c.syncGood.set b n })

/-- The count is stepped to `w` (R30): the step is recorded, and slots that it overtakes are held to fire late (R39). -/
def State.stepCount (s : State) (w : Time) : State :=
  let old := s.now
  let s1 := ((s.withClep { s.clep with
    count := w
    countValid := true
    lastStep := w - old
    slew := 0
    lockRun := 0
    disagree := 0
    holdFrom := w }).clepEvent 7).logEvent 7 3 sevInfo
  s1.markMissed (some old.toNat)

/-- A count word is loaded on entering ACQUIRE (R30). -/
def State.loadCount (s : State) (w : Time) : State := (s.withClep { s.clep with lock := .acquire }).stepCount w

/-- The first multiple of 100,000 that is not less than a count. -/
def roundUp (n : Nat) : Nat := (n + 99999) / 100000 * 100000

/-- Keeper's own count: it starts at the end of the reset from 0 at the first bring-up after the standby supply has come up,
and later from the count held there rounded up to a multiple of 100,000, and runs on (R24; DEDUCED, log 141). -/
def State.ownCount (s : State) : Time :=
  (if s.clep.fresh then 0 else BitVec.ofNat 64 (roundUp s.clep.endCount.toNat)) + (s.now - s.clep.endCount)

/-- Under internal free-run the count is loaded from Keeper once, and the state is LOCKED from then on (R33). -/
def State.loadOwn (s : State) : State :=
  if s.clep.countValid then s
  else
    let s1 := s.stepCount s.ownCount
    (s1.withClep { s1.clep with fresh := false }).enterLocked

/-- A count word meets the pulse that marks its count (R23, R30, R31). -/
def State.takeWord (s : State) (w : Time) : State :=
  let c := s.clep
  if c.lock = .free then
    (if bit (s.reg Reg.CLEP_CTRL) 7 && c.refOk.get c.useB then s.loadCount w else s)
  else if w = c.count then s.withClep { c with disagree := 0 }
  else
    let s1 := ((s.withClep { c with disagree := c.disagree + 1 }).bumpSat Reg.CLEP_ERR_CNT 0 16 1).clepEvent 6
    if 3 ≤ c.disagree + 1 ∧ (c.lock = .acquire ∨ c.lock = .locked) then s1.enterFree else s1

/-- Is the magnitude of a phase error below 1 ns? -/
def phaseOk (p : U16) : Bool := decide (p.toInt.natAbs < 1000)

/-- Is a pair the one whose pulses are judged for the lock: that of the reference in use unless only the other is good? -/
def Clep.lockPair (c : Clep) (b : Bool) : Bool :=
  if b == c.useB then c.syncOk.get b || !c.syncOk.get (!b) else c.syncOk.get b && !c.syncOk.get (!b)

/-- The pulse advances the lock judgement of a count that was loaded before it, or breaks its run; one that lies more than 1 drop from
where the count says is an error above 1 ns (Table 2-3). -/
def State.lockPulse (s : State) (phase : U16) : State :=
  let c := s.clep
  if c.lock ≠ .acquire then s
  else
    let n := if phaseOk phase && decide ((syncOffset s.now.toNat).natAbs ≤ 1) then c.lockRun + 1 else 0
    let s1 := s.withClep { c with lockRun := n }
    if 16 ≤ n then s1.enterLocked else s1

/-- SYNC_PULSE: a pulse is judged; that of the pair of the reference in use, or of the other pair when that one is lost,
marks the count: a pending word is loaded or compared (R23, R25, R28, R30, R31). While neither pair is good, the word for the edge is
dropped uncompared (R23, R28). Every pulse of the pair that the lock judgement goes by advances it or breaks its run, one that makes
the pair lost and those of a pair that is not good yet among them (R27). -/
def execSyncPulse (pulseB : Bool) (phasePs : U16) (s : State) : Res :=
  if s.clep.internal then .next s
  else
    let s1 := s.judgePulse pulseB
    let c := s1.clep
    let s2 := if pulseB = c.useB then s1.withClep { c with phaseErr := phasePs } else s1
    let marks := c.syncOk.get pulseB && (pulseB == c.useB || !c.syncOk.get c.useB)
    let stale := !c.syncOk.a && !c.syncOk.b
    let s3 := match marks, c.pendingWord with
      | true, some w => (s2.withClep { s2.clep with pendingWord := none }).takeWord w
      | true, none => s2
      | false, _ => if stale then s2.withClep { s2.clep with pendingWord := none } else s2
    let judged := c.lock == .acquire && (s.clep.lockPair pulseB || c.lockPair pulseB)
    .next (if judged then s3.lockPulse phasePs else s3).leaveHoldover

/-- SYNC_TIMEOUT: no pulse of a pair within 1,000,050 ns of the one before it (R25, R28). -/
def execSyncTimeout (pairB : Bool) (s : State) : Res :=
  if s.clep.internal then .next s
  else
    let s1 := s.syncLost pairB
    .next (s1.withClep { s1.clep with syncOff := s1.clep.syncOff.set pairB none })

/-- COUNT: a count word on a port. It is taken when CNT_SRC names the port, and Keeper notes it (R23, R24, R412). -/
def execCount (port : Fin 8) (word : List Byte) (s : State) : Res :=
  let r := s.takeCtrl port 4 word
  let s := r.2
  if !r.1 ∨ s.clep.internal then .next s
  else
    let c := s.clep
    let word : Time := BitVec.ofNat 64 (leAt word 8 8)
    let seen := (c.portWords.filter (fun p => p.1 != port.val)) ++ [(port.val, word)]
    .next (s.withClep { c with
      portWords := seen
      pendingWord := if s.regF Reg.CLEP_CTRL 0 4 = port.val then some word else c.pendingWord })

/-- KEEPER_COUNT_WORD: Keeper forms the interval's count word when every port that brought one agrees; disagreement or
silence of the ports that are up is logged. Under internal free-run it loads its own count once, in step 8 of bring-up (R24,
R33, Table 19-3). -/
def execKeeperCountWord (s : State) : Res :=
  let c := s.clep
  if !s.keeper.running then .next s
  else if c.internal then
    .next (if 8 ≤ s.rst.step then s.loadOwn else s)
  else
    let s1 := s.withClep { c with portWords := [] }
    match c.portWords with
    | [] => .next (if (List.range 8).any s.portUp then s1.logEvent 7 4 sevInfo else s1)
    | p :: ps =>
      if ps.all (fun q => q.2 == p.2) then
        .next (if s.regF Reg.CLEP_CTRL 0 4 = 8 then s1.withClep { s1.clep with pendingWord := some p.2 } else s1)
      else .next (s1.logEvent 7 4 sevInfo)

/-- ACQUIRE_TIMEOUT: the lock condition is not met within 50 ms of the load (Table 2-3). -/
def execAcquireTimeout (s : State) : Res :=
  let c := s.clep
  .next (if c.lock = .acquire ∧ c.holdFrom.toNat + 5000000 ≤ c.count.toNat then s.enterFree else s)

/-- HOLDOVER_LIMIT: CLEP_HOLD_MAX drops have passed in HOLDOVER (R29, Table 2-3). -/
def execHoldoverLimit (s : State) : Res :=
  let c := s.clep
  .next (if c.lock = .holdover ∧ c.holdFrom.toNat + s.regF Reg.CLEP_HOLD_MAX 0 32 ≤ c.count.toNat then s.enterFree else s)

end Sys2Proof.Machine
end

