-- ==== Sys2Proof/Machine/Lifecycle.lean ====
section
/-! DEFINITION. Loading the image of an index and freeing a destroyed index (R120, R122 to R126). -/

namespace Sys2Proof.Machine

/-! ### The image of an index (Table 5-13) -/

/-- The header fields of an image. -/
structure ImgHead where
  dim : Nat
  width : Nat
  lists : Nat
  shards : Nat
  epoch : Epoch
  entry : Nat
  proj : Nat
  cent : Nat
  graph : Nat
  shard : Nat
  deriving DecidableEq, Repr

/-- The header of an image. -/
def imgHead (b : List Byte) : ImgHead where
  dim := leAt b 8 4
  width := leAt b 12 4
  lists := leAt b 16 4
  shards := leAt b 20 4
  epoch := BitVec.ofNat 32 (leAt b 24 4)
  entry := leAt b 28 4
  proj := leAt b 32 8
  cent := leAt b 40 8
  graph := leAt b 48 8
  shard := leAt b 56 8

/-- The sections of an image as offset and length: projection, centroids, shard table, and the graph of a graph index. -/
def ImgHead.sections (h : ImgHead) (graph : Bool) : List (Nat × Nat) :=
  [(h.proj, h.width * h.dim), (h.cent, 4 * h.dim * h.lists), (h.shard, 4 * h.shards)] ++
    (if graph then [(h.graph, 128 * h.lists)] else [])

/-- No two sections overlap. -/
def apartAll : List (Nat × Nat) → Bool
  | [] => true
  | a :: l => l.all (fun b => decide (a.1 + a.2 ≤ b.1 ∨ b.1 + b.2 ≤ a.1)) && apartAll l

/-- Reason 0x11: does the header agree with the registers, and do the sections keep their places? A LISTS or SHARDS field
outside Table 5-13 counts as a disagreement (DEDUCED, log 38). -/
def headOk (d : IdxDesc) (len : Nat) (h : ImgHead) : Bool :=
  let graph := decide (65536 < d.listCap)
  let secs := h.sections graph
  h.dim == d.dim && h.width == d.width && decide (1 ≤ h.lists ∧ h.lists ≤ d.listCap ∧ 1 ≤ h.shards ∧ h.shards ≤ 4096) &&
  secs.all (fun x => decide (128 ≤ x.1 ∧ x.1 + x.2 ≤ len)) && apartAll secs &&
  (graph || (h.graph == 0 && h.entry == 0))

/-- Numbers that strictly rise. -/
def risesNat : List Nat → Bool
  | a :: b :: l => decide (a < b) && risesNat (b :: l)
  | _ => true

/-- The shard table of an image. -/
def imgShards (b : List Byte) (h : ImgHead) : List Nat := (chunks 4 ((b.drop h.shard).take (4 * h.shards))).map leNat

/-- The FP32 centroids of an image, slot by slot. -/
def imgCents (b : List Byte) (h : ImgHead) : List (List F32) :=
  (chunks (4 * h.dim) ((b.drop h.cent).take (4 * h.dim * h.lists))).map f32Elems

/-- A graph record as its 32 edge words. -/
def graphWords (r : List Byte) : List Nat := (chunks 4 r).map leNat

/-- The edges of a record: slot and generation of the words before the first of generation 0 (R106). -/
def wordEdges (ws : List Nat) : List (Nat × Nat) :=
  (ws.takeWhile (fun w => w / 16777216 != 0)).map (fun w => (w % 16777216, w / 16777216))

/-- Does a record of slot `self` keep R106 and name only live slots at generation 1 (reason 0x14)? -/
def graphRecOk (lists self : Nat) (ws : List Nat) : Bool :=
  let es := wordEdges ws
  (ws.drop (es.length + 1)).all (· == 0) && decide ((es.map Prod.fst).Nodup) &&
  es.all (fun e => e.1 != self && decide (e.1 < lists) && e.2 == 1)

/-- The records of the graph section. -/
def imgGraph (b : List Byte) (h : ImgHead) : List (List Nat) :=
  (chunks 128 ((b.drop h.graph).take (128 * h.lists))).map graphWords

/-- The quantized record of slot `s` at generation 1 (R104). Its VERSION is the image's EPOCH (DEDUCED, log 38). -/
def imgRow (h : ImgHead) (s : Nat) (c : List F32) : Option Row :=
  quantizeRow .int8 c h.epoch (BitVec.ofNat 64 (s + 2 ^ 24))

/-- The first reason of Table 5-14 that a load meets (DESIGN CHOICE, log 38), 0 when there is none. -/
def imageReason (d : IdxDesc) (b : List Byte) : Nat :=
  let h := imgHead b
  if b.length < 128 ∨ leAt b 0 4 ≠ 0x31584449 ∨ leAt b 4 2 ≠ 1 ∨
      leAt b 124 4 ≠ (crc32c (b.take 124 ++ b.drop 128)).toNat then 0x10
  else if !headOk d b.length h then 0x11
  else if !(risesNat (imgShards b h) && (imgShards b h).contains d.shard.toNat) then 0x12
  else if !(imgCents b h).all (fun c => c.all fFinite && (imgRow h 0 c).isSome) then 0x13
  else if decide (65536 < d.listCap) && !(decide (h.entry < h.lists) &&
      (List.zip (List.range h.lists) (imgGraph b h)).all (fun p => graphRecOk h.lists p.1 p.2)) then 0x14
  else 0

/-- Pair a list with its positions. -/
def numbered {α : Type} (l : List α) : Store α := List.zip (List.range l.length) l

/-- A table with one version of each record, stamped `e`. -/
def stamped {α : Type} (e : Epoch) (l : List α) : VTable α := (numbered l).map (fun q => (q.1, [(e, q.2)]))

/-- The Basin of an initial slot (R123). -/
def firstBasin (d : IdxDesc) (p : Placing) (s : Nat) : Nat :=
  if !p.both then p.only else if d.place = 1 then 0 else if d.place = 2 then 1 else s % 2

/-- The index that a load builds (R122): slots 0 to L0 − 1 live and empty, one live epoch, one version of each page, stamped with the
image's EPOCH. A projection byte of −128, which R88 has no value for and no reason of Table 5-14 refuses, is loaded as −128 (DESIGN
CHOICE, log 180). -/
def buildIndex (x : Index) (p : Placing) (b : List Byte) : Index :=
  let h := imgHead b
  let e := h.epoch
  let cents := imgCents b h
  { x with
    state := .ready
    shards := (imgShards b h).map (BitVec.ofNat 32)
    proj := (chunks h.dim ((b.drop h.proj).take (h.width * h.dim))).map (fun r => r.map (fun v => v.toInt))
    entry := h.entry
    centF := stamped e cents
    centQ := stamped e ((numbered cents).map (fun q => imgRow h q.1 q.2))
    slots := stamped e ((List.range h.lists).map (fun s =>
      (⟨.live, 1, firstBasin x.desc p s, p.pick (firstBasin x.desc p s) 0, 0, [], e, 0⟩ : SlotEnt)))
    graph := if 65536 < x.desc.listCap then stamped e ((imgGraph b h).map wordEdges) else []
    nextOwn := x.desc.ownCount
    created := e
    cur := e
    live := 1 }

/-- IDX_STATUS.LAST_ERR of an index. -/
def State.setIdxErr (s : State) (i e : Nat) : State := s.setRegF (Reg.IDX_STATUS + 0x40 * i) 8 8 e

/-- The state with no index at `i`. -/
def State.eraseIndex (s : State) (i : Nat) : State := { s with indexes := Store.erase s.indexes i }

/-- INDEX_LOAD_DONE: the load of an index in STATE 1 ends. `image` is what the host port read, none when it could not be
read; a length other than IDX_IMAGE_LEN is taken as unreadable (R122, log 38). A load does not end while a format runs
(R397). -/
def execIndexLoadDone (idx : Fin 32) (image : Option (List Byte)) (s : State) : Res :=
  match s.index? idx with
  | none => .next s
  | some x =>
    if x.state ≠ .loading ∨ s.cist.state = 1 then .next s
    else
      let err := match image with
        | none => 0x10
        | some b =>
          if b.length ≠ s.regF (Reg.IDX_IMAGE_LEN + 0x40 * idx.val) 0 40 then 0x10 else imageReason x.desc b
      if err = 0 then
        .next (s.setIndex idx { buildIndex x (s.placing x.desc) (image.getD []) with lastFlip := s.now })
      else .next (((s.freeSlot x.flipSlot).eraseIndex idx).setIdxErr idx err)

/-! ### Destroying an index (R125) -/

/-- Are the pages of index `i` named by this Cistern page number (map pages belong to no index)? -/
def lpnOf (i lpn : Nat) : Bool := decide (lpnSpace lpn < 2) && lpnIndex lpn == i

/-- Clear the route entries of an index; staged values stay staged (R125, R424). -/
def State.clearRoutes (s : State) (i : Nat) : State :=
  { s with regs := s.regs.filter (fun p => !(p.1 % 524288 == Reg.URD_ROUTE_DATA && p.1 / 524288 % 32 == i)) }

/-- Is a lower-tier read of a page or block array of index `i`? -/
def ofIndex (i : Nat) : Target → Bool
  | .page l => lpnOf i l
  | .array j _ => j == i

/-- Every object of an index is freed: its pages and their codewords on the way to the media, copies and images, its places on the
lost-page list, its flip slot and route entries; its migrations are abandoned, its lower-tier reads are dropped, with an error of a
Dipper that waits for one, and the parts that name it end with NO_SUCH_INDEX (R125). -/
def State.dropIndex (s : State) (i : Nat) : State :=
  match s.index? i with
  | none => s
  | some x =>
    let s0 := (s.abandonMigs (fun m => m.idx == i)).freeSlot x.flipSlot
    let s1 := (s0.indexPages i x).foldl State.freePage s0
    let m := s1.mem
    let s2 := { s1 with mem := { m with
      cache := (m.cache.map (fun (p : Nat × List Line) => (p.1, p.2.filter (fun (l : Line) => !lpnOf i l.lpn)))).filter
        (fun p => !p.2.isEmpty)
      dirty := m.dirty.filter (fun d => !lpnOf i d.1)
      lost := m.lost.filter (fun l => !lpnOf i l)
      lostTabs := m.lostTabs.filter (fun l => l.1 != i)
      lostArrs := m.lostArrs.filter (fun l => l.1 != i)
      backed := m.backed.filter (fun b => b.idx != i)
      demoted := m.demoted.filter (fun b => b.1 != i)
      tabs := m.tabs.filter (fun t => t.idx != i)
      reads := m.reads.filter (fun r => !ofIndex i r.target)
      named := m.named.filter (fun n => !lpnOf i n.lpn) } }
    let h := s2.hbm
    let s3 := { s2 with
      windows := s2.windows.filter (fun w => w.idx != i)
      hbm := { h with
        counts := h.counts.filter (fun c => c.idx != i)
        wishes := h.wishes.filter (fun c => c.idx != i)
        places := h.places.filter (fun c => c.idx != i) }
      slices := { s2.slices with lacks := s2.slices.lacks.filter (fun l => l.2 / 2 != i || decide (64 ≤ l.2)) } }
    let s4 := (s3.eraseIndex i).clearRoutes i
    let s5 := (s4.partsIn.filter (fun p => partIndex p.2.body == i)).foldl (fun (t : State) p => t.failPart p.1 stNoSuchIndex) s4
    ((s.mem.reads.filter (fun r => ofIndex i r.target)).flatMap (fun r => r.waiters)).foldl (fun (t : State) w =>
      match w with
      | .dip _ => t.nameError w none
      | _ => t) s5

/-- May a draining index be freed: has its last accepted request sent its response (R125)? -/
def State.indexUnused (s : State) (i : Nat) : Bool :=
  s.reqs.all (fun p => !(opUsesIndex p.2.op && p.2.hdr.index.toNat == i && (p.2.ran || p.2.life == .waitFlip)))

/-- INDEX_DESTROY_DONE: a draining index with no request left is freed and absent (R125). -/
def execIndexDestroyDone (idx : Fin 32) (s : State) : Res :=
  match s.index? idx with
  | some x => if x.state = .draining ∧ s.indexUnused idx = true then .next (s.dropIndex idx) else .next s
  | none => .next s

end Sys2Proof.Machine
end

