-- ==== Sys2Proof/Machine/Ports.lean ====
section
/-! DEFINITION. The meanings of the Urdun link commands: frames, control words, training, retraining and sparing (chapter
"Urdun optical links"). -/

namespace Sys2Proof.Machine

/-! ### Lanes and maps (R402, R406, R420) -/

/-- Node lane of an engine lane at a port. -/
def portLane (p el : Nat) : Nat := 9 * (p / 2) + el

/-- The lane of an engine that was retired first: it takes the spare (R402). -/
def State.firstRetired (s : State) (e : Nat) : Option Nat :=
  (s.record.find? (fun r => r.kind == kOptical && r.loc / 9 == e && r.loc % 9 != 8)).map (fun r => r.loc)

/-- May the engine's spare take the place of engine lane `el` at port `p` (R402, R420, R422)? -/
def State.spareFor (s : State) (p el : Nat) : Bool :=
  let sp := portLane p 8
  let q := if p % 2 = 0 then p + 1 else p - 1
  (s.lane sp).usable && !s.laneRetired sp && !(s.port q).map.contains 8 &&
  (match s.firstRetired (p / 2) with
    | some n => n == portLane p el
    | none => true)

/-- The map a port proposes when the node lanes `bad` cannot be used (R406, R420): its own lanes, one of them replaced by the
spare, or the two lowest-numbered usable ones. -/
def State.proposeMap (s : State) (p : Nat) (bad : List Nat) : List Nat :=
  let ok := fun (el : Nat) => !s.laneRetired (portLane p el) && !bad.contains (portLane p el)
  let own := (homeMap p).filter ok
  let narrow := (own ++ (if (s.port p).map.contains 8 && ok 8 then [8] else [])).take 2
  match (homeMap p).filter (fun el => !ok el) with
  | [] => homeMap p
  | [l] => if s.spareFor p l && ok 8 then (homeMap p).map (fun x => if x = l then 8 else x) else narrow
  | _ => narrow

/-- May a port transmit (R558, Table 15-10): NODE is valid, and the port is not held? -/
def State.portMay (s : State) (p : Nat) : Bool :=
  bit (s.reg Reg.URD_CFG) 12 && !bit (s.reg (instKey Reg.URD_PORT_CTRL p)) 1

/-- Does a node lane transmit: a spare, an idle pattern while either port of its engine may transmit (R558)? -/
def State.laneTransmits (s : State) (n : Nat) : Bool :=
  let p := 2 * (n / 9)
  if n % 9 = 8 then s.portMay p || s.portMay (p + 1) else s.portMay (p + n % 9 / 4)

/-- Key of URD_INJECT.LANE_LOS of a node lane; the CRC bit of a port stands under the port's number. -/
def laneLosKey (n : Nat) : Nat := instKey Reg.URD_INJECT (8 + n)

/-! ### Delivery of what was sent -/

/-- A message's last frame is acknowledged: a response is delivered and its request leaves the Reservoir (R62). -/
def State.deliverMsg (s : State) (mid : Nat) : State :=
  match Store.find? s.urdun.msgs mid with
  | none => s
  | some m =>
    let s1 := { s with urdun := { s.urdun with msgs := Store.erase s.urdun.msgs mid } }
    if m.kind = .response then s1.dropReq m.rid else s1

/-- Frames leave the replay buffer and the messages whose last frame is among them are delivered (R413). -/
def State.freeFrames (s : State) (p n : Nat) : State :=
  let u := s.port p
  let gone := u.replay.take n
  (gone.filter (fun f => f.2.last && f.2.mid != 0)).foldl (fun (t : State) f => t.deliverMsg f.2.mid)
    (s.setPort p { u with
      replay := u.replay.drop n
      unsent := min u.unsent (u.replay.length - n)
      ackFrom := s.tick })

/-- The frames of the replay buffer that have been sent since the last resume (R413, R414). -/
def UPort.sent (u : UPort) : List (Nat × Frame) := u.replay.take (u.replay.length - u.unsent)

/-- Frames of the replay buffer that have been sent since the last resume are sent again, from the `n`th on (R413). -/
def State.replayFrom (s : State) (p n : Nat) : State :=
  let u := s.port p
  let fs := u.sent.drop n
  let s1 := s.setPort p { u with ackFrom := s.tick }
  (fs.foldl (fun (t : State) f => t.emitFrame p f.1 f.2) s1).bump Reg.URD_CNT_REPLAY 0 64 fs.length

/-- ACK: frames up to an LSEQ are freed (R412, R413). -/
def execAck (port : Fin 8) (word : List Byte) (s : State) : Res :=
  let r := s.takeCtrl port 1 word
  if !r.1 then .next r.2
  else match (r.2.port port).replay.findIdx? (fun f => f.1 == leAt word 2 2) with
    | some i => .next (r.2.freeFrames port (i + 1))
    | none => .next r.2

/-- NACK: the frames from the named one on are sent again (R412, R413). -/
def execNack (port : Fin 8) (word : List Byte) (s : State) : Res :=
  let r := s.takeCtrl port 2 word
  if !r.1 then .next r.2
  else match (r.2.port port).replay.findIdx? (fun f => f.1 == leAt word 2 2) with
    | some i => .next (r.2.replayFrom port i)
    | none => .next r.2

/-- ACK_TIMEOUT: with ACK_TO passed without an ACK, every unacknowledged frame is sent again (R413). -/
def execAckTimeout (port : Fin 8) (s : State) : Res :=
  let u := s.port port
  if !s.portUp port ∨ u.replay.isEmpty = true ∨ s.tick.toNat < u.ackFrom.toNat + 100 * s.regF Reg.URD_CFG 16 8 then .next s
  else .next (s.replayFrom port 0)

/-- CREDIT: the partner's grant since the resume, to the data buffer or the admission pool (R412, R414). -/
def execCredit (port : Fin 8) (adm : Bool) (word : List Byte) (s : State) : Res :=
  let r := s.takeCtrl port 3 word
  if !r.1 then .next r.2
  else
    let u := r.2.port port
    let n := leAt word 4 4
    .next (r.2.setPort port (if adm then { u with admGranted := n } else { u with granted := n }))

/-! ### Receiving -/

/-- The UNIT a kind is addressed to (Table 15-4). -/
def kindUnit (kind : Nat) : Option Nat :=
  match kind with
  | 0 => some 0
  | 2 => some 0
  | 1 => some 1
  | 3 => some 1
  | 4 => some 1
  | _ => none

/-- Is a MSG_LEN one that a request cannot have (R414)? -/
def badReqLen (n : Nat) : Bool := decide (n < 64 ∨ 64 + 0x10000000 < n ∨ n % 8 ≠ 0)

/-- Is a partial message the one of a source and number (R411)? -/
def Partial.isOf (p : Partial) (src : U64) (mid : Nat) : Bool := adrNode p.src == adrNode src && p.msgId == mid

/-- The state with the reassembly set. -/
def State.withReasm (s : State) (l : List Partial) : State := { s with urdun := { s.urdun with reasm := l } }

/-- A whole message goes to its engine (R407, R411, R415, R419). -/
def State.takeMessage (s : State) (m : Partial) : State :=
  let bs := m.bytes
  match m.kind with
  | 0 =>
    let h := parseHdr bs
    let src := Source.port (BitVec.ofNat 3 m.port).toFin m.src
    let s1 := s.fireDue.admitMsg m.port m.src m.msgId h.reqId false
    s1.accept (byteAt bs 0) h (bs.drop 64) src (if badReqLen m.msgLen then m.msgLen else bs.length)
      (s1.admitPart h.slice.toNat src).isNone
  | 2 =>
    let s1 := s.fireDue.admitMsg m.port m.src m.msgId (BitVec.ofNat 64 (partToken bs)) false
    s1.takePart (if partIsGather bs then .gather else .rerank) m.port m.src bs
  | 3 => s.partReply bs
  | 4 => { s with partsOut := s.partsOut.map (fun (p : PartOut) =>
      if p.token = partToken bs ∧ p.done = false then { p with busy := decide (byteAt bs 12 = 1) } else p) }
  | _ => s

/-- A FIRST frame starts a message; a request or part is refused here when there is no room for it (R53, R414, R415). -/
def State.startPartial (s : State) (m : Partial) : State :=
  let s0 := s.withReasm (s.urdun.reasm.filter (fun p => !p.isOf m.src m.msgId))
  if m.kind = 0 ∨ m.kind = 2 then
    let part := if m.kind = 0 then
        s0.admitPart (byteAt m.bytes 3) (.port (BitVec.ofNat 3 m.port).toFin m.src)
      else s0.partSlice m.bytes
    if s0.roomFor part m.reserve then s0.withReasm (s0.urdun.reasm ++ [m])
    else
      let id := if m.kind = 0 then (parseHdr m.bytes).reqId else BitVec.ofNat 64 (partToken m.bytes)
      (s0.withReasm (s0.urdun.reasm ++ [{ m with busy := true, bytes := [] }])).admitMsg m.port m.src m.msgId id true
  else s0.withReasm (s0.urdun.reasm ++ [m])

/-- The LAST frame has come: the message leaves reassembly and is taken unless it was refused. -/
def State.endPartial (s : State) (src : U64) (mid : Nat) : State :=
  match s.urdun.reasm.find? (fun p => p.isOf src mid) with
  | none => s
  | some m =>
    let s1 := s.withReasm (s.urdun.reasm.filter (fun p => !p.isOf src mid))
    if m.busy then s1 else s1.takeMessage m

/-- A frame that was received in order is reassembled (R411). A frame that continues no partial message, or not at its end, is
dropped. -/
def State.reassemble (s : State) (port : Nat) (kind : Nat) (first last : Bool) (msgLen : Nat) (src : U64) (mid offset : Nat)
    (payload : List Byte) : State :=
  let cut := fun (bs : List Byte) => if kind = 0 ∧ badReqLen msgLen = true then bs.take 64 else bs
  let s1 :=
    if first then s.startPartial ⟨port, kind, src, mid, msgLen, false, s.tick, cut payload⟩
    else s.withReasm (s.urdun.reasm.map (fun (p : Partial) =>
      if p.isOf src mid = true ∧ p.busy = false ∧ (p.bytes.length = offset ∨ (kind = 0 ∧ badReqLen p.msgLen = true)) then
        { p with
          last := s.tick
          bytes := cut (p.bytes ++ payload) }
      else if p.isOf src mid then { p with last := s.tick }
      else p))
  if last then s1.endPartial src mid else s1

/-- NACK names the next frame expected (R413). -/
def State.sendNack (s : State) (p : Nat) : State :=
  (s.emit (.ctrl p (ctrlBytes (.nack (s.port p).rxSeq)))).bumpSat (instKey Reg.URD_PORT_ERR p) 16 16 1

/-- A good frame in sequence: it is acknowledged and its credits are granted again (R413, R414). -/
def State.ackFrame (s : State) (p : Nat) (adm : Bool) (credits : Nat) : State :=
  let u := s.port p
  let v := if adm then { u with admGiven := (u.admGiven + credits) % 4294967296 }
    else { u with given := (u.given + credits) % 4294967296 }
  ((s.setPort p { v with rxSeq := (u.rxSeq + 1) % 65536 }).bump Reg.URD_CNT_FRAMES 0 64 1).emits
    [.ctrl p (ctrlBytes (.ack u.rxSeq)), .ctrl p (ctrlBytes (.credit adm (if adm then v.admGiven else v.given)))]

/-- URDUN_FRAME: a frame arrives on a port (R407, R411, R413 to R415). -/
def execUrdunFrame (port : Fin 8) (bytes : List Byte) (s : State) : Res :=
  if !s.portUp port then .next s
  else
    let len := leAt bytes 28 2
    let good := bytes.length == 48 + len && leAt bytes (40 + len) 4 == (crc32c (bytes.take (40 + len))).toNat
    if !good then .next ((s.bumpSat (instKey Reg.URD_PORT_ERR port) 32 16 1).sendNack port)
    else if leAt bytes 0 2 ≠ (s.port port).rxSeq then .next (s.sendNack port)
    else
      let kind := byteAt bytes 2
      let dest : U64 := BitVec.ofNat 64 (leAt bytes 8 8)
      let s1 := s.ackFrame port (kind == 4) ((bytes.length + 63) / 64)
      if adrNode dest ≠ s.ownNode ∨ kindUnit kind ≠ some (adrUnit dest) then .next (s1.bumpSat Reg.URD_CNT_DROP 0 16 1)
      else .next (s1.reassemble port kind (bitsOf (byteAt bytes 3) 0 1 == 1) (bitsOf (byteAt bytes 3) 1 1 == 1)
        (leAt bytes 4 4) (BitVec.ofNat 64 (leAt bytes 16 8)) (leAt bytes 24 4) (leAt bytes 32 4) ((bytes.drop 40).take len))

/-- REASSEMBLY_TIMEOUT: a partial message that had no frame for REASM_TO is discarded and counted (R411). -/
def execReassemblyTimeout (src : U64) (msgId : U32) (s : State) : Res :=
  let late := fun (p : Partial) =>
    p.isOf src msgId.toNat && decide (p.last.toNat + 10000 * s.regF Reg.URD_CFG 24 8 ≤ s.tick.toNat)
  if s.urdun.reasm.any late then
    .next ((s.withReasm (s.urdun.reasm.filter (fun p => !late p))).bumpSat Reg.URD_CNT_DROP 16 16 1)
  else .next s

/-! ### Training, retraining and sparing (R405, R418 to R421) -/

/-- Admission frames go to the lowest-numbered up port of their source's mask, else they stay with the port they were due
on (R418). -/
def State.moveAdmissions (s : State) (p : Nat) (fs : List (Time × Frame)) : State :=
  fs.foldl (fun (t : State) f =>
    let q := ((t.pathMask (adrNode f.2.dest)).find? t.portUp).getD p
    t.setPort q { t.port q with admDue := (t.port q).admDue ++ [f] }) (s.setPort p { s.port p with admDue := [] })

/-- The port goes down: its replay buffer is discarded and every message it held is sent again from its FIRST frame (R419,
R437). Its admission frames, sent or due, are moved (DEDUCED, log 37). -/
def State.portDown (s : State) (p : Nat) : State :=
  let u := s.port p
  let adm := ((u.replay.map Prod.snd).filter (fun f => f.mid == 0)).map (fun f => (s.tick, f)) ++ u.admDue
  let mine := (s.urdun.msgs.filter (fun m => m.2.port == some p)).map Prod.fst
  let s1 := (s.pointOut p true).setPort p { UPort.reset p with partner := u.partner }
  let s2 := { s1 with urdun := { s1.urdun with
    msgs := s1.urdun.msgs.map (fun (m : Nat × UMsg) => if m.2.port = some p then (m.1, { m.2 with port := none }) else m)
    waiting := s1.urdun.waiting ++ mine } }
  (s2.moveAdmissions p adm).routeAll

/-- Messages at a port whose FIRST frame has not been sent: their port is chosen again (R416). -/
def State.rerouteUnsent (s : State) (p : Nat) : State :=
  let q := s.point p
  let mids := ((q.queue.filterMap SUnit.frame).filter (fun f => f.first && f.mid != 0)).map Frame.mid
  if mids.isEmpty then s
  else
    let stays := fun (u : SUnit) => match u.frame with
      | some f => !mids.contains f.mid
      | none => true
    let s1 := (s.setPoint p { q with queue := q.queue.filter stays }).retag p
    ({ s1 with urdun := { s1.urdun with
      msgs := s1.urdun.msgs.map (fun (m : Nat × UMsg) => if mids.contains m.1 then (m.1, { m.2 with port := none }) else m)
      waiting := s1.urdun.waiting ++ mids } } : State).routeAll

/-- A port leaves state up for a retraining (R418, R420): the bits that asked for it are cleared, SPARE_REQ of the lane `req` alone, and
messages that it has not begun to send go by another port. -/
def State.startRetrain (s : State) (p : Nat) (why : Retrain) (req : Option Nat := none) : State :=
  let u := s.port p
  let lanes := u.map.map (portLane p)
  let s1 := (s.setPort p { u with state := .retraining, why := some why }).bumpSat (instKey Reg.URD_PORT_ERR p) 0 16 1
  let s2 := lanes.foldl (fun (t : State) n => t.setRegF (laneLosKey n) 0 1 0) (s1.setRegF (instKey Reg.URD_PORT_CTRL p) 0 1 0)
  let s3 := req.elim s2 (fun n => s2.setRegF (instKey Reg.URD_LANE_STATUS n) 16 1 0)
  (s3.moveAdmissions p u.admDue).rerouteUnsent p

/-- A port starts a full training with the map it proposes, with signal on every lane of it (R405, R423); with fewer than two usable
lanes it stays down. Admission frames that wait for its return stay due (R418). -/
def State.startTraining (s : State) (p : Nat) : State :=
  let m := s.proposeMap p []
  let u := s.port p
  if m.length < 2 then s
  else
    let s1 := (m.map (portLane p)).foldl (fun (t : State) n => t.setLane n { t.lane n with signal := true }) s
    s1.setPort p { UPort.reset p with
      state := .training
      map := m
      partner := u.partner
      admDue := u.admDue }

/-- May a port train (R423, Table 15-10): NODE is valid, the port is not disabled, and the optics are released? -/
def State.mayTrain (s : State) (p : Nat) : Bool :=
  s.portMay p && (decide (s.rst.phase = 3) || decide (s.rst.phase = 2 ∧ 8 ≤ s.rst.step)) && !s.rst.inReset

/-- SIGNAL_DETECT: signal on the lanes of the map that a down port proposes starts a training (R405). -/
def execSignalDetect (port : Fin 8) (s : State) : Res :=
  .next (if (s.port port).state = .down ∧ s.mayTrain port = true then s.startTraining port else s)

/-- Keeper firmware receives a sparing trigger (R421). -/
def State.tellTrigger (s : State) : State := s.logEvent 6 0 sevError

/-- A sparing trigger on an active lane: Keeper receives it, and the port that it carries, if up, retrains with its map unchanged
(R420, R421). -/
def State.laneTrigger (s : State) (n : Nat) : State :=
  match s.laneFor n with
  | none => s
  | some p => match (s.port p).state with
    | .down => s
    | .up => s.tellTrigger.startRetrain p (.trigger n)
    | _ => s.tellTrigger

/-- A lasting trigger: the lane is retired and the port retrains with the spare or at x2 width; with AUTO 0 it is only
reported (R420, R421). -/
def State.retireLane (s : State) (p n : Nat) : State :=
  let s1 := s.bumpSat Reg.RST_CNT_FAULTS 32 16 1
  if bit (s.reg Reg.URD_SPARE_CFG) 32 then
    let s2 := s1.retire kOptical n 0
    let m := s2.proposeMap p []
    if m.length < 2 then s2.portDown p
    else (s2.logEvent 6 1 sevError).setPort p { s2.port p with
      map := m
      why := some (if m.length = 2 then .narrow else .spare n) }
  else s1.logEvent 6 2 sevError

/-- A lane of a port is to be replaced: its trigger counts as lasting; with AUTO 0 the port only retrains and the lasting trigger is
reported (R420, R421). -/
def State.spareLane (s : State) (p n : Nat) : State :=
  let why := if bit (s.reg Reg.URD_SPARE_CFG) 32 then Retrain.trigger n else .requested
  (s.tellTrigger.startRetrain p why (some n)).retireLane p n

/-- Requests for a retraining that were made while the port could not take them (Table 15-10, Table 15-11). -/
def State.dueRetrain (s : State) (p : Nat) : State :=
  let lanes := (s.port p).map.map (portLane p)
  match lanes.find? (fun n => bit (s.reg (instKey Reg.URD_LANE_STATUS n)) 16) with
  | some n => s.spareLane p n
  | none =>
    if lanes.any (fun n => bit (s.reg (laneLosKey n)) 0) then s.tellTrigger.startRetrain p .requested
    else if bit (s.reg (instKey Reg.URD_PORT_CTRL p)) 0 then s.startRetrain p .requested
    else s

/-- The link layer resumes (R413, R414): each end acknowledges what it received, credits start afresh, the frames the partner
has not received are sent again, and waiting messages find the port. -/
def State.portResume (s : State) (p : Nat) (res : TrainResult) : State :=
  let u := s.port p
  let n := match u.replay.findIdx? (fun f => f.1 == res.nextRx.toNat) with
    | some i => i
    | none => if res.nextRx.toNat = u.txSeq then u.replay.length else 0
  let fresh := u.state == .training
  let s0 := if fresh then s.pointOut p false else s
  let s1 := (s0.setPort p { u with
    state := .up
    why := none
    partner := res.partnerNode
    granted := res.credits.toNat
    admGranted := res.admCredits.toNat
    used := 0
    admUsed := 0
    given := 16384
    admGiven := 64 }).freeFrames p n
  let lanes := u.map.map (portLane p)
  let s2 := lanes.foldl (fun (t : State) l => t.setLane l { t.lane l with
    signal := true
    fecLock := true
    corrRun := 0
    uncorrRun := 0 }) s1
  let s3 := s2.emits [.ctrl p (ctrlBytes (.ack ((u.rxSeq + 65535) % 65536))), .ctrl p (ctrlBytes (.credit false 16384)),
    .ctrl p (ctrlBytes (.credit true 64))]
  let v := s3.port p
  ((s3.setPort p { v with unsent := v.replay.length }).sendAgain p v.replay.length).routeAll.dueRetrain p

/-- The lesser of two lane maps, read from logical lane 0 (R406). -/
def mapLess : List Nat → List Nat → Bool
  | [], [] => false
  | [], _ :: _ => true
  | _ :: _, [] => false
  | a :: as, b :: bs => decide (a < b) || (a == b && mapLess as bs)

/-- May a port use a map its partner proposes (R406): its own lanes, its own lanes with the spare in the place of one of them, or two
of its lanes in ascending order, with the spare counted if it has been given to the port (R420)? None of them is retired. -/
def State.mapLegal (s : State) (p : Nat) (m : List Nat) : Bool :=
  let home := homeMap p
  let given := (s.port p).map.contains 8
  let spared := fun (l : Nat) => (given || s.spareFor p l) && m == home.map (fun x => if x = l then 8 else x)
  let pair := match m with
    | [a, b] => decide (a < b) && home.contains a && (home.contains b || (given && b == 8))
    | _ => false
  m.all (fun el => !s.laneRetired (portLane p el)) && (m == home || home.any spared || pair)

/-- The lanes of the map work: the port resumes with the map both ends sent, or both train again with the lesser map. -/
def State.agreeMap (s : State) (p : Nat) (res : TrainResult) : State :=
  let u := s.port p
  if res.partnerMap = u.map then s.portResume p res
  else if mapLess res.partnerMap u.map && s.mapLegal p res.partnerMap then s.setPort p { u with map := res.partnerMap }
  else s

/-- Train again without some lanes: full training keeps state training, a retraining goes to x2 width (R405, R420). -/
def State.trainWithout (s : State) (p : Nat) (bad : List Nat) : State :=
  let u := s.port p
  let m := if u.state = .training then s.proposeMap p bad
    else (((homeMap p).filter (fun el => !u.map.contains 8 || u.map.contains el) ++ (if u.map.contains 8 then [8] else [])).filter
      (fun el => !s.laneRetired (portLane p el) && !bad.contains (portLane p el))).take 2
  if m.length < 2 then s.portDown p
  else s.setPort p { u with map := m, why := if u.state = .training then none else some .narrow }

/-- PORT_TRAINING_DONE: a training or retraining of a port ends (R405, R406, R420). `failed` names the lanes that failed or
whose trigger recurred. -/
def execPortTrainingDone (port : Fin 8) (res : TrainResult) (s : State) : Res :=
  let u := s.port port
  let bad := (res.failed.map (fun n => n.val)).filter (fun n => (u.map.map (portLane port)).contains n)
  let s1 := bad.foldl (fun (t : State) n => t.setLane n { t.lane n with fecLock := false }) s
  match u.state with
  | .training => .next (if bad.isEmpty then s1.agreeMap port res else s1.trainWithout port bad)
  | .retraining =>
    if bad.isEmpty then .next (s1.agreeMap port res)
    else match u.why with
      | some (.trigger n) =>
        if bad.contains n then
          (if bit (s.reg Reg.URD_SPARE_CFG) 32 then .next (s1.retireLane port n)
            else .next ((s1.retireLane port n).portDown port))
        else .next (s1.tellTrigger.setPort port { u with why := some (.trigger (bad.headD n)) })
      | some (.spare _) => .next (s1.trainWithout port bad)
      | some .narrow => .next (s1.trainWithout port bad)
      | _ => .next (s1.tellTrigger.setPort port { u with why := some (.trigger (bad.headD 0)) })
  | _ => .next s

/-- PORT_RETRAIN: URD_PORT_CTRL.RETRAIN of the selected port (Table 15-10). -/
def execPortRetrain (s : State) : Res :=
  let p := s.regF Reg.URD_PORT_SEL 0 3
  let s1 := s.writeOne (instKey Reg.URD_PORT_CTRL p) 0
  .next (if s.pageUp 0x0F && s.portUp p then s1.startRetrain p .requested else s1)

/-- SPARE_REQ: the selected lane is replaced; its trigger counts as lasting (R420). With AUTO 0 the port only retrains. -/
def execSpareReq (s : State) : Res :=
  let n := s.regF Reg.URD_LANE_SEL 0 6
  if !s.pageUp 0x0F ∨ 36 ≤ n then .next (s.dropWrite 0 0x0F (keyOff Reg.URD_LANE_STATUS))
  else
    let s1 := s.writeOne (instKey Reg.URD_LANE_STATUS n) 16
    match s.laneFor n with
    | some p => .next (if s.portUp p then s1.spareLane p n else s1)
    | none => .next s1

/-- LOSS_OF_SIGNAL: a lane loses signal or FEC lock; an active lane's port retrains (R420). -/
def execLossOfSignal (lane : Fin 36) (signal : Bool) (s : State) : Res :=
  let l := s.lane lane
  .next ((s.setLane lane (if signal then { l with signal := false, fecLock := false } else { l with fecLock := false })).laneTrigger
    lane)

/-- INJECT_LANE_LOS: the selected lane reports loss of signal once; it does not recur, so its port only retrains (Table
15-11). -/
def execInjectLaneLos (s : State) : Res :=
  let n := s.regF Reg.URD_LANE_SEL 0 6
  if !s.pageUp 0x0F ∨ 36 ≤ n then .next (s.dropWrite 0 0x0F (keyOff Reg.URD_INJECT))
  else
    let s1 := s.writeOne (laneLosKey n) 0
    match s.laneFor n with
    | some p => .next (if s.portUp p then s1.tellTrigger.startRetrain p .requested else s1)
    | none => .next s1

/-- INJECT_URD_CRC: the next frame sent on the selected port has a bad CRC (Table 15-11). -/
def execInjectUrdCrc (s : State) : Res := .next (s.writeOne (instKey Reg.URD_INJECT (s.regF Reg.URD_PORT_SEL 0 3)) 1)

/-- One lane's measurements of an interval (R422), and whether a sparing trigger is met (R420). -/
def State.measureLane (s : State) (n : Nat) (m : LaneMeas) : State × Bool :=
  let l := s.lane n
  let corr := if s.regF Reg.URD_SPARE_CFG 0 16 < m.corrSym.toNat then l.corrRun + 1 else 0
  let unc := if 0 < m.uncorr.toNat then l.uncorrRun + 1 else 0
  let hit := decide (s.regF Reg.URD_SPARE_CFG 16 8 ≤ corr) || decide (s.regF Reg.URD_SPARE_CFG 24 8 ≤ unc)
  let s1 := s.setLane n { l with
    corrRun := if hit then 0 else corr
    uncorrRun := if hit then 0 else unc
    usable := decide (-400 ≤ m.rxOma.toInt) }
  let low := fun (w : Store Int) (i : Nat) (v : Int) => Keeper.lowest w (advKey 3 (2 * n + i)) v
  let k := s1.keeper
  let s1 := s1.withKeeper { k with worst := low (low k.worst 0 m.rxOma.toInt) 1 m.eyeV.toNat }
  let mon := m.rxOma.toNat + 65536 * m.txOma.toNat + 4294967296 * m.txBias.toNat + 281474976710656 * m.eyeV.toNat +
    72057594037927936 * m.eyeH.toNat
  let s2 := (s1.setReg (instKey Reg.URD_LANE_MON n) (BitVec.ofNat 64 mon)).setReg (instKey Reg.URD_LANE_FEC n)
    (BitVec.ofNat 64 (m.corrSym.toNat + 4294967296 * m.corrBits.toNat))
  (s2.bumpSat (instKey Reg.URD_LANE_STATUS n) 32 32 m.uncorr.toNat, hit)

/-- LANE_INTERVAL: the 1 ms interval of every lane ends; a lane that the list gives no measurement keeps its last one (log 15)
(R420, R422). -/
def execLaneInterval (meas : List LaneMeas) (s : State) : Res :=
  .next ((List.range 36).foldl (fun (t : State) n =>
    match meas[n]? with
    | none => t
    | some m =>
      let r := t.measureLane n m
      if r.2 then r.1.laneTrigger n else r.1) s)

end Sys2Proof.Machine
end

