-- ==== Sys2Proof/Machine/Recovery.lean ====
section
/-! DEFINITION. Heartbeats, domain restarts, resets and bring-up (R486 to R511), with what each block's chapter says of a
reset (R45, R70, R126, R184, R223, R286, R313, R338, R347, R371, R400, R423, R438, R459, R484, R527). -/

namespace Sys2Proof.Machine

/-! ### Domain restarts (Table 19-7) -/

/-- Keys of the four stacks of a Basin. -/
def basinStacks (b : Nat) : List Nat := [stackKey b 0 0, stackKey b 0 1, stackKey b 1 0, stackKey b 1 1]

/-- The state with every stack of a Basin changed. -/
def State.modStacks (s : State) (b : Nat) (f : Stack → Stack) : State :=
  (basinStacks b).foldl (fun (t : State) k => t.setStack k (f (t.stack k))) s

/-- The scheduling points of a Basin: its HBM arbiters, and the arrays of its Terraces in service (Table 16-1). -/
def State.basinPoints (s : State) (b : Nat) : List Nat :=
  ((List.range 64).map (fun i => 40 + 64 * b + i)) ++
    (((List.range 8).filter (fun t => !s.terraceOut (nodeTerrace b t))).map (fun t => 169 + 8 * b + t))

/-- The points of a Basin leave or return to service; their lists restart at window 0 (R437, R438). -/
def State.basinPointsOut (s : State) (b : Nat) (out : Bool) : State :=
  (s.basinPoints b).foldl (fun (t : State) p => (t.pointOut p out).setPoint p { (t.pointOut p out).point p with cur := 0 }) s

/-- A region starts at point 0 on a reset and on a domain restart (R527). -/
def Region.low (r : Region) : Region := { r with point := 0, held := none, stopped := decide (r.tripped ≠ 0) }
/-- The regions as a reset of the node leaves them. -/
def lowRegions (l : Store Region) : Store Region :=
  (l.map (fun (p : Nat × Region) => (p.1, Region.low p.2))).filter (fun p => p.2 != Region.reset)
/-- The state with a region as a reset leaves it. -/
def State.regionLow (s : State) (t : Nat) : State := s.setRegion t (s.region t).low

/-- Step 2: Spout sequences end and every Spout is cleared, migrations are abandoned, and the stacks enter self-refresh
(R342, R347, R370). -/
def State.quiesceHbm (s : State) (b : Nat) : State :=
  let s1 := s.abandonMigs (fun m => m.basin == b)
  let s2 := { s1 with hbm := { s1.hbm with
    spouts := s1.hbm.spouts.filter (fun p => p.1 % 2 != b)
    passes := s1.hbm.passes.filter (fun p => p.basin != b)
    wishes := s1.hbm.wishes.filter (fun w => w.basin != b) } }
  s2.modStacks b (fun st => { st with
    state := if st.state = 1 then 2 else st.state
    held := []
    refresh := [] })

/-- A Rill after its Basin's reset: idle with no image, its fault record kept (R286). -/
def Rill.afterReset (r : Rill) : Rill := { Rill.reset with fault := r.fault, faultTime := r.faultTime }

/-- Step 3: the Basin's Pumphouse, Terraces, network and bridge ends are reset (R184, R286, R437, R527). The stacks then
leave self-refresh in controller-ECC mode (R338). -/
def State.resetBasin (s : State) (b : Nat) : State :=
  let f := s.fabric
  let rills := (f.rills.map (fun (p : Nat × Rill) => if p.1 % 2 = b then (p.1, p.2.afterReset) else p)).filter
    (fun p => p.2 != Rill.reset)
  let s1 := { s with fabric := { f with
    rills := rills
    routers := f.routers.filter (fun p => p.1 % 2 != b)
    srams := f.srams.filter (fun p => p.1 % 2 != b)
    staging := f.staging.filter (fun p => p.1 / 8 != b)
    retiring := f.retiring.filter (fun p => p.2 % 2 != b)
    water := { f.water with runnel := f.water.runnel.filter (fun w => w.1 % 2 != b) } } }
  let s2 := ((s1.setBridge b ⟨0, 0, false⟩).setBridge 2 ⟨0, 0, false⟩).basinPointsOut b true
  let s3 := (List.range 8).foldl (fun (t : State) i => t.regionLow (nodeTerrace b i)) s2
  (s3.setBasin b { s3.basin b with mapsSet := false }).modStacks b (fun st => { st with ctrlEcc := true })

/-- The seal map of a stack as its mirror gives it, or every run sealed where the mirror cannot be read (R338). -/
def Stack.restored (st : Stack) (unread : Bool) : Stack :=
  if unread then { st with sealAll := true, sealEx := [], mirrorAll := true, mirrorEx := [], mirrorLost := true }
  else { st with sealAll := st.mirrorAll, sealEx := st.mirrorEx, mirrorLost := false }

/-- The seal maps of a Basin's spouting stacks are restored from their mirrors. Whether a mirror can be read is a free value
(DESIGN CHOICE, log 62); where it cannot, every run of the stack is sealed and MIRROR_LOST is set (R338). Runs that have been sealed
since the self-refresh exit stay so. -/
def State.restoreSeals (s : State) (b : Nat) : State :=
  [stackKey b 0 1, stackKey b 1 1].foldl (fun (t : State) k =>
    let f := t.takeFree 1
    f.2.setStack k ((t.stack k).restored (f.1 == 1))) s

/-- Step 4: the stacks leave self-refresh in controller-ECC mode, dirty copies are compared, and when the memory check has ended the
stacks are in on-die mode (R338, R371). Stacks of a Basin that bring-up held out are in service then, too (DESIGN CHOICE, log 42). -/
def State.resumeHbm (s : State) (b : Nat) : State :=
  ((s.compareCopies b).restoreSeals b).modStacks b (fun st => { st with
    state := 1
    ctrlEcc := false })

/-- Step 5: maps are set and bridges retrained. Whether a Basin–Basin bridge whose loss was the cause comes up again is a
free value (DESIGN CHOICE, log 39). -/
def State.mapBasin (s : State) (b : Nat) : State :=
  let v := s.basin b
  let s1 := (s.setBasin b { v with mapsSet := true }).setBridge b ⟨2, 0, false⟩
  if v.cause = .basinBridge then
    let (up, s2) := s1.takeFree 1
    s2.setBridge 2 ⟨if up = 1 then 2 else 0, 0, false⟩
  else s1.setBridge 2 ⟨2, 0, false⟩

/-- The Basin is in service: the record of the restart is closed, the time in which its neighbour's faults are not charged
begins, fault records are cleared and held phases are dispatched (R505, R506, R509, R286). -/
def State.basinBack (s : State) (b : Nat) : State :=
  let v := s.basin b
  let other := (List.range 8).map (fun i => 700 + 100 * (s.region (nodeTerrace (1 - b) i)).point)
  let slow := (other.foldl min 1500) / (if s.keeper.fast then 2 else 1)
  let wait := s.regF Reg.RILL_CFG 0 24 * 100 / slow
  let ms := (s.tick - v.first).toNat / 100000
  let s1 := s.setBasin b { v with
    state := 0
    step := 0
    misses := 0
    prev := v.seq
    fenceEnd := some (s.tick + BitVec.ofNat 64 wait) }
  let s2 := if s1.rst.lastBasin = b then
      { s1 with rst := { s1.rst with lastResult := 1, lastStep := 6, lastMs := min 65535 ms } } else s1
  let rills := (s2.fabric.rills.map (fun (p : Nat × Rill) =>
    if p.1 % 2 = b then (p.1, { p.2 with fault := 0, faultTime := 0 }) else p)).filter (fun p => p.2 != Rill.reset)
  let s3 := ({ s2 with fabric := { s2.fabric with rills := rills } } : State).basinPointsOut b false
  let s4 := s3.stateChange
  (s4.reqs.filter (fun p => p.2.holds)).foldl (fun (t : State) p =>
    (t.modReq p.1 (fun r => { r with holds := false })).dispatch p.1) s4

/-- Keeper compares a Basin's heartbeat with its value at the previous firing (R503); in step 6 of a restart a write that it
sees puts the Basin in service (R505). -/
def State.checkBeat (s : State) (b : Nat) : State :=
  let v := s.basin b
  if !s.keeper.running then s
  else if v.state = 1 then (if v.step = 6 ∧ v.hbSeen then s.basinBack b else s)
  else if v.state ≠ 0 ∨ v.seq ≠ v.prev then s.setBasin b { v with prev := v.seq, misses := 0 }
  else
    let s1 := s.setBasin b { v with misses := min 4 (v.misses + 1) }
    if v.misses + 1 < 4 then s1 else s1.startRestart b (if v.hang then .injected else .heartbeat)

/-- HEARTBEAT_CHECK: slot 0 or 1 fires and Keeper checks that Basin's heartbeat (R41, R503). -/
def execHeartbeatCheck (slot : Fin 2) (s : State) : Res :=
  .next (if s.mayFire slot .heartbeat = true then (s.fireSlot slot).checkBeat slot else s)

/-- The effect of a restart step that has ended. -/
def State.restartStep (s : State) (b : Nat) : Nat → State
  | 2 => s.quiesceHbm b
  | 3 => s.resetBasin b
  | 4 => s.resumeHbm b
  | 5 => s.mapBasin b
  | _ => s

/-- RESTART_STEP_DONE: a step of a domain restart ends, or fails and the restart starts again (R505). -/
def execRestartStepDone (basin : Fin 2) (res : StepEnd) (s : State) : Res :=
  let v := s.basin basin
  if v.state ≠ 1 ∨ v.step = 0 ∨ 6 ≤ v.step then .next s
  else match res with
    | .failed _ => .next (s.repeatRestart basin)
    | .ok =>
      let s1 := s.restartStep basin v.step
      let s2 := s1.setBasin basin { s1.basin basin with step := v.step + 1, hbSeen := false }
      .next (if s2.rst.lastBasin = basin then { s2 with rst := { s2.rst with lastStep := v.step + 1 } } else s2)

/-- RESTART_LIMIT: RESTART_LIMIT_MS has passed since the start of step 1 (R505). -/
def execRestartLimit (basin : Fin 2) (s : State) : Res :=
  let v := s.basin basin
  if v.state = 1 ∧ v.lastStart.toNat + s.regF Reg.RST_CFG 16 16 * 100000 ≤ s.tick.toNat then .next (s.repeatRestart basin)
  else .next s

/-- RESTART_BASIN: a write of 1 to RST_CTRL restarts the Basin in every case, clears the count and ends a hold (R507). -/
def execRestartBasin (basin : Fin 2) (s : State) : Res :=
  let s1 := s.writeOne Reg.RST_CTRL basin
  .next (if s.pageUp 0x13 then s1.startRestart basin .control else s1)

/-- INJECT_HANG: a write of 1 to RST_INJECT stops the Basin's heartbeat until its restart (Table 19-9). -/
def execInjectHang (basin : Fin 2) (s : State) : Res :=
  let s1 := s.writeOne Reg.RST_INJECT basin
  .next (if s.pageUp 0x13 then s1.setBasin basin { s1.basin basin with hang := true } else s1)

/-- PUMPHOUSE_RESTART_REQUEST: running Pumphouse firmware asks for a restart of its Basin (R504). -/
def execPumphouseRestartRequest (basin : Fin 2) (s : State) : Res :=
  if s.pumpRuns basin then .next (s.startRestart basin .pumphouse) else .next s

/-! ### What a reset leaves (Table 19-1) -/

/-- A register after a KEEP reset: STG fields are restored from their mirror, ROS fields survive, and every other field has
its reset value (Table 18-5); pages 0x00 to 0x02, 0x14 and 0x15 are reset whole (R484). -/
def keptReg (k : Nat) (v : U64) : U64 :=
  if keyPage k ≤ 2 ∨ 0x14 ≤ keyPage k then resetReg k
  else
    let m := accMask k [.stg, .ros]
    (v &&& m) ||| (resetReg k &&& ~~~m)

/-- The register file after a reset; the Keeper page is not reset (R512). -/
def regsAfter (lvl : Level) (regs : Store U64) : Store U64 :=
  match lvl with
  | .full => regs.filter (fun p => keyPage p.1 == 0x12)
  | .keep => (regs.map (fun p => if keyPage p.1 = 0x12 then p else (p.1, keptReg p.1 p.2))).filter
      (fun p => p.2 != resetReg p.1)

/-- A stack after a reset. A FULL reset leaves every count at 0 (R372) and rows that have no repair fenced (DESIGN CHOICE, log 40);
under KEEP the stack is in self-refresh with its seal map mirrored. -/
def Stack.after (lvl : Level) (st : Stack) : Stack :=
  match lvl with
  | .full => { Stack.reset with fenced := st.fenced }
  | .keep => { st with
      state := if st.state = 1 then 2 else st.state
      held := []
      refresh := []
      ce := []
      patrolled := none
      patrolling := false
      ctrlEcc := true }

/-- A scheduling point after a KEEP reset: V = 0, full credits, an active list at window 0; what no mirror holds has its reset value
(R438, R484). -/
def SPoint.after (p : SPoint) : SPoint :=
  { SPoint.reset with
    active := p.active
    pending := p.pending }

/-- The Cistern at the start of a reset: commands stop; a group with a unit being programmed is closed and goes first for
reclaim (R400). A format that is cut short leaves the media unformatted (DESIGN CHOICE, log 158). -/
def Cistern.halt (c : Cistern) : Cistern :=
  let hit := fun (g : Nat) => c.rows.any (fun r => r.group == g && r.closed)
  { c with
    groups := c.groups.map (fun (p : Nat × Group) =>
      if hit p.1 then (p.1, { p.2 with isOpen := false, priority := true }) else p)
    state := if c.state = 1 then 0 else c.state
    userPages := if c.state = 1 then 0 else c.userPages
    saved := if c.state = 1 then { c.saved with record := { c.saved.record with userPages := 0 } } else c.saved
    rows := []
    waiting := []
    retrain := []
    ladder := []
    patrolAt := 0
    patrolled := none
    granted := []
    lastErr := 0
    throttled := false
    luns := c.luns.map (fun (p : Nat × Lun) => (p.1, { p.2 with
      suspends := 0
      ahead := []
      temp := 0
      timedOut := false })) }

/-- The node at the start of a reset (Table 19-1, R70, R126, R286, R313, R347, R371, R400, R423, R438, R459, R484). The
count goes on (R45), and the retirement record, the event log and Keeper's domain stay. Staged values that no commit has
taken are lost (DESIGN CHOICE, log 41). -/
def State.clearFor (s : State) (lvl : Level) : State :=
  let full := decide (lvl = .full)
  { s with
    regs := regsAfter lvl s.regs
    staged := []
    commit := ⟨false, false, false⟩
    clep := { Clep.reset with
      count := s.clep.count
      ticks := s.clep.ticks
      fresh := s.clep.fresh
      began := s.clep.began
      endCount := s.clep.endCount
      lossHeld := s.clep.lossHeld || s.clep.lock == .locked
      internal := s.clep.internal }
    reqs := []
    hwReq := ⟨0, 0⟩
    partsOut := []
    partsIn := []
    windows := []
    indexes := if full then [] else s.indexes
    slices := if full then Slices.reset else s.slices.settle
    host := []
    urdun := { Urdun.reset with nextMid := s.urdun.nextMid }
    points := if full then [] else (s.points.map (fun (p : Nat × SPoint) => (p.1, p.2.after))).filter
      (fun p => p.2 != SPoint.reset)
    fabric := Fabric.reset
    progs := if full then [] else (s.progs.map (fun (p : Nat × ProgSlot) => (p.1, { p.2 with samples := 0 }))).filter
      (fun p => p.2 != ProgSlot.reset)
    hbm := { s.hbm with
      spouts := []
      dram := (s.hbm.dram.map (fun (p : Nat × Stack) => (p.1, p.2.after lvl))).filter (fun p => p.2 != Stack.reset)
      migs := []
      wishes := []
      counts := []
      passes := []
      places := if full then [] else s.hbm.places
      remaps := if full then [] else s.hbm.remaps
      leaving := [] }
    mem := if full then MemRange.reset else { s.mem with
      reads := []
      named := [] }
    cist := s.cist.halt
    basins := []
    rst := { s.rst with
      phase := 0
      step := 0
      tries := 0
      memValid := s.rst.memValid && !full
      failStep := 0
      failCode := 0
      lastBasin := 0
      lastCause := 0
      lastResult := 0
      lastStep := 0
      lastMs := 0
      lastAttempts := 0
      lastTime := 0 }
    keeper := { s.keeper with regions := lowRegions s.keeper.regions } }

/-! ### Bring-up (Table 19-3) -/

/-- The STRAPSEL code of a resistance, and whether it lies in a window (R492). -/
def strapOf (ohms : Nat) : Nat × Bool :=
  match (List.range 16).find? (fun n => decide (1000 + 2000 * n ≤ ohms + 700 ∧ ohms ≤ 1700 + 2000 * n)) with
  | some n => (n, true)
  | none => (0, false)

/-- Does a slot hold a bundle that verifies? -/
def State.slotOk (s : State) (b : Option Bundle) : Bool := match b with
  | some x => s.verifyBundle x == 0
  | none => false

/-- A staged bundle that verifies activates: B takes A when A verifies, A takes S, and S is empty (R536). -/
def State.activate (s : State) : State :=
  let k := s.keeper
  if s.slotOk k.staged then
    (s.withKeeper { k with
      slotB := if s.slotOk k.slotA then k.slotA else k.slotB
      slotA := k.staged
      staged := none
      fwState := 0 }).logEvent 8 1 sevInfo
  else s

/-- The boot ROM boots the first image of A and B, in strap order, that verifies, or waits for a bundle over SMBus (R493). -/
def State.bootRom (s : State) : State :=
  let k := s.keeper
  let src := s.rst.strap % 4
  let order := if src = 1 then [(k.slotB, true), (k.slotA, false)] else [(k.slotA, false), (k.slotB, true)]
  match (if src = 2 then [] else order).find? (fun c => s.slotOk c.1) with
  | some c => (s.withKeeper { k with booted := c.1, bootedB := c.2, waitSmbus := false, running := true }).takeAsked
  | none => s.withKeeper { k with booted := none, bootedB := false, waitSmbus := true, running := false, chunks := [] }

/-- The heartbeat slot of a Basin is armed with a period of 5,000 drops, unless it is armed already (R41). -/
def State.armBeat (s : State) (b : Nat) : State :=
  if (s.slot b).armed then s else s.setSlot b ⟨.heartbeat, s.now + 5000, true, true, false, b, 5000, false⟩

/-- PHASE changes (R494). -/
def State.setPhase (s : State) (n : Nat) : State := ({ s with rst := { s.rst with phase := n } } : State).stateChange

/-- Ports train in step 8 when NODE is valid (R423). -/
def State.trainPorts (s : State) : State :=
  (List.range 8).foldl (fun (t : State) p => if t.mayTrain p then t.startTraining p else t) s

/-- Repeat the seal of an index's U during a memory check: its winners are placed, and the runs of the blocks that the seal writes are
sealed (R223, R338). -/
def State.repeatSeal (s : State) (i : Nat) : State :=
  let s1 := s.beginSeal i
  match s1.index? i with
  | none => s1
  | some x => (x.arrs.filter (fun p => p.2.inflow && p.2.stamp == x.u)).foldl
      (fun (t : State) p => t.sealArray true i p.1 p.2) s1

/-- A pending flip as step 9 of bring-up begins (R223): its slot is armed again when T is at least 200 drops away; else the seal is
repeated, and the flip takes effect at T, at the end of the step, or at once when T has passed. -/
def State.restoreFlip (s : State) (i : Nat) : State :=
  match s.index? i with
  | none => s
  | some x =>
    if x.state = .draining then s
    else
      let s1 := s.setSlot x.flipSlot ⟨.epochFlip, 0, false, false, false, i, 0, false⟩
      match x.flip with
      | none => s1
      | some f =>
        if s1.armable f.time then s1.armSlot x.flipSlot f.time
        else if s.now.toNat < f.time.toNat then s1.repeatSeal i
        else (s1.repeatSeal i).doFlip i s.now

/-- Does step 9 still wait for the T of a flip whose slot is not armed (R223)? -/
def State.flipWaits (s : State) : Bool :=
  s.indexes.any (fun p => match p.2.flip with
    | some f => !(s.slot p.2.flipSlot).armed && decide (s.now.toNat < f.time.toNat)
    | none => false)

/-- A step of bring-up begins. -/
def State.beginStep (s : State) (n : Nat) : State :=
  let s0 := { s with rst := { s.rst with step := n, tries := 0 } }
  let s1 := (List.range 2).foldl (fun (t : State) b =>
    if (t.basin b).state = 3 then t.setBasin b { t.basin b with stepDone := false, tries := 0 } else t) s0
  match n with
  | 3 => s1.activate.bootRom
  | 4 => s1.setPhase 1
  | 7 => s1.setPhase 2
  | 8 => s1.trainPorts
  | 9 => if s1.rst.level = .keep then (Store.keys s1.indexes).foldl State.restoreFlip s1 else s1
  | 10 =>
    let s2 := s1.setPhase 3
    (Store.keys s2.points).foldl State.pointFresh s2
  | _ => s1

/-- The reset ends and bring-up begins. Keeper notes the count, and whether it is the first bring-up since the standby supply came up
(R24). -/
def State.endReset (s : State) : State :=
  (({ s with rst := { s.rst with inReset := false, holdDone := true } } : State).withClep
    { s.clep with endCount := s.now, began := true, fresh := s.clep.fresh && !s.clep.began }).beginStep 1

/-- Step 1 measures STRAPSEL once after a power-on; an open pin reads 0xFF_FFFF (R492, R556). Bit 2 selects the count's source (R33). -/
def State.readStrap (s : State) (ohms : Nat) : State :=
  if s.rst.strapDone then s
  else
    let m := if 34000 < ohms then 0xFFFFFF else ohms
    let c := strapOf m
    let s1 := { s with rst := { s.rst with strap := c.1, ohms := m, strapValid := c.2, strapDone := true } }
    s1.withClep { s1.clep with internal := c.1.testBit 2 }

/-- LUNs as bring-up finds them: the retirement record and the media profile decide their STATE, and one that the format did not take in
is found after it (Table 14-9). Block sets and counts are those of the system area (R398). -/
def State.foundLuns (s : State) (media : Media) : Store Lun :=
  let area := s.cist.saved
  media.luns.foldl (fun (st : Store Lun) (f : LunFound) =>
    let k := lunKey f.ch f.lun
    let old := (Store.find? area.luns k).getD Lun.reset
    Store.insert st k { old with
      state := if recorded s.record kLun k then 2 else if mediaIncludes media f ∧ old.state = 1 then 1 else 3
      bad := (old.bad ++ f.bad ++ f.eraseFailed).dedup
      suspends := 0
      ahead := []
      temp := 0
      timedOut := false
      unerased := List.range area.record.blocks }) (absentLuns area.luns)

/-- CIST_FMT reads the saved mode, stripe width and over-provision after a reset (Table 14-7). -/
def State.savedFmt (s : State) : State :=
  ((s.setRegF Reg.CIST_FMT 2 1 s.cist.mode).setRegF Reg.CIST_FMT 3 6 s.cist.stripe).setRegF Reg.CIST_FMT 9 7 s.cist.opPct

/-- The Cistern goes on after a KEEP reset: dirty pages, dirty map pages and the backing images that are not on the media are written
again, and relocations start from their first step (R400). -/
def State.resumeCistern (s : State) : State :=
  let s1 := s.mem.dirty.foldl (fun (t : State) p =>
    { t with cist := t.cist.queue t.tick (streamOf p.1) (t.pageWord p.1 p.2.stamp) }) s
  let s2 := (Store.keys s1.cist.mapDirty).foldl State.queueMap s1
  let lost := fun (l : Nat) => (Store.find? s.cist.map l).isNone
  let images := s.mem.backed.flatMap ArrImage.lpns ++ s.mem.tabs.map TabImage.lpn
  let s3 := s2.queueImages (images.filter lost)
  (s3.cist.sched.foldl (fun (t : State) b => (t.relocate b).endRewrite b) s3).chanPoints

/-- Step 6 (R380, R398, R400). Under FULL every LPN is trimmed and the generation rises, and a system area that cannot be
read leaves STATE 0; under KEEP the map, its copies and the directory are kept. Counts, and under FULL the format record and what is
known of the LUNs, are those that the area saved. -/
def State.bringCistern (s : State) (media : Option Media) : State :=
  let area := s.cist.saved
  let s0 := area.regs.foldl (fun (t : State) p => t.setReg p.1 p.2) s
  if s.rst.level = .keep then s0.resumeCistern.savedFmt
  else match media with
    | none =>
      (s0.withCist { Cistern.reset with
        saved := area
        luns := absentLuns s.cist.luns
        generation := s.cist.generation }).savedFmt
    | some m =>
      let c := (s0.cist.withRecord area.record).emptied
      if area.record.userPages = 0 then (s0.withCist { c with state := 0, luns := absentLuns area.luns }).savedFmt
      else
        let c1 := { c with
          state := 2
          generation := area.record.generation + 1
          luns := s0.foundLuns m
          media := s0.cist.media }
        ((s0.withCist { c1 with
          groups := [(c1.nextGroup, ⟨c1.areaSets, 7, 0, false, false, false⟩)]
          nextGroup := c1.nextGroup + 1 }).savedFmt.identifyLuns m).chanPoints

/-- Indexes at the end of step 9 after a KEEP reset (R126): a loading one keeps loading from its image, a draining one is gone, and a
flip whose seal has been repeated takes effect at T (R223). -/
def State.restoreIndex (s : State) (i : Nat) : State :=
  match s.index? i with
  | none => s
  | some x =>
    if x.state = .draining then s.dropIndex i
    else match x.flip with
      | some f => if (s.slot x.flipSlot).armed then s else s.doFlip i f.time
      | none => s

/-- A pending gate list at the end of bring-up (R438). -/
def State.restoreGate (s : State) (pt : Nat) : State :=
  match (s.point pt).pending with
  | none => s
  | some g =>
    if s.armable g.time then s.setSlot g.slot ⟨.gateTakeover, g.time, true, false, false, pt, 0, false⟩
    else s.takeOver pt true

/-- A pending map at the end of bring-up (R459). -/
def State.restoreMap (s : State) : State :=
  match s.slices.pending with
  | none => s
  | some p =>
    if s.armable p.time then s.setSlot p.slot ⟨.mapSwitch, p.time, true, false, false, (s.slices.gen + 1).toNat, 0, false⟩ else s.mapSwitch true

/-- Step 9: service state is restored under KEEP; a program being removed is gone (R313). -/
def State.restoreService (s : State) : State :=
  if s.rst.level = .full then s
  else
    let s1 := (Store.keys s.indexes).foldl State.restoreIndex s
    let s2 := (Store.keys s1.progs).foldl (fun (t : State) n =>
      if (t.prog n).state = 3 then t.setProg n { t.prog n with state := 0, bytes := 0, prog := none } else t) s1
    let s3 := s2.restoreMap
    (Store.keys s3.points).foldl State.restoreGate s3

/-- Terraces out of service leave the Sluice (R437, R499). -/
def State.outTerraces (s : State) (b : Nat) : State :=
  (List.range 8).foldl (fun (t : State) i =>
    if t.terraceOut (nodeTerrace b i) then t.pointOut (169 + nodeTerrace b i) true else t) s

/-- The effect of a Basin's part of step 4, 5 or 7. Step 7 arms both heartbeat slots, that of a Basin held out too (R41, Table
2-4). After step 7 the Basin is in service (DESIGN CHOICE, log 42). -/
def State.basinStep (s : State) (b : Nat) : Nat → State
  | 4 => (s.compareCopies b).modStacks b (fun st => { st with
      state := 1
      ctrlEcc := true })
  | 5 => (if s.rst.level = .keep then s.restoreSeals b else s).modStacks b (fun st => { st with
      ctrlEcc := false
      soft := 0 })
  | 7 =>
    let s1 := (((s.outTerraces b).setBridge b ⟨2, 0, false⟩).armBeat 0).armBeat 1
    let s2 := s1.setBasin b { s1.basin b with
      state := 0
      mapsSet := true
      misses := 0
      prev := (s1.basin b).seq }
    (if (s2.basin (1 - b)).state = 0 then s2.setBridge 2 ⟨2, 0, false⟩ else s2).stateChange
  | _ => s

/-- Is a step one that runs for each Basin (R495)? -/
def perBasin (n : Nat) : Bool := n == 4 || n == 5 || n == 7

/-- Does Basin `b` still have to end the present step? -/
def State.stepLeft (s : State) (b : Nat) : Bool := (s.basin b).state == 3 && !(s.basin b).stepDone

/-- Bring-up ends with PHASE 4 (R495). -/
def State.bringFail (s : State) (code : Nat) : State :=
  let s1 := { s with rst := { s.rst with failStep := s.rst.step, failCode := code } }
  (s1.logEvent 1 0 sevCritical).setPhase 4

/-- When no Basin is left in a per-Basin step, the next step begins; with both held out bring-up has failed. Step 5 ends with
the memory contents valid (R489). -/
def State.afterBasins (s : State) : State :=
  if s.stepLeft 0 || s.stepLeft 1 then s
  else if (s.basin 0).state = 2 ∧ (s.basin 1).state = 2 then s.bringFail 5
  else
    let n := s.rst.step
    (if n = 5 then { s with rst := { s.rst with memValid := true } } else s).beginStep (n + 1)

/-- A step is repeated from its start: Keeper loads the bundle again, and ports that are down train again (R494). -/
def State.stepAgain (s : State) : State :=
  match s.rst.step with
  | 3 => s.activate.bootRom
  | 8 => s.trainPorts
  | _ => s

/-- A step of bring-up has failed or passed its limit: it is repeated once, and then a Basin is held out or bring-up fails
(R494, R495). -/
def State.stepFailed (s : State) (basin : Option Nat) (code : Nat) : State :=
  if perBasin s.rst.step then
    match basin with
    | none => s
    | some b =>
      let v := s.basin b
      if !s.stepLeft b then s
      else if v.tries = 0 then s.setBasin b { v with tries := 1 }
      else (((s.setBasin b { v with state := 2 }).bumpSat Reg.RST_CNT_RESTARTS 48 16 1).logEvent 1 1 sevCritical).afterBasins
  else if s.rst.tries = 0 then ({ s with rst := { s.rst with tries := 1 } } : State).stepAgain
  else s.bringFail code

/-- Is a step of bring-up in progress? -/
def State.bringing (s : State) : Bool :=
  s.rst.pwrok && !s.rst.inReset && decide (1 ≤ s.rst.step ∧ s.rst.step ≤ 9) && decide (s.rst.phase ≤ 2)

/-- BRINGUP_STEP_DONE: a step ends or fails (R494). Steps 4, 5 and 7 end for one Basin. Step 3 cannot end while no bundle has
booted, nor step 9 before the T of a flip whose seal it has repeated (R223). -/
def execBringupStepDone (basin : Option (Fin 2)) (ohms : Nat) (media : Option Media) (res : StepEnd) (s : State) : Res :=
  let n := s.rst.step
  if !s.bringing then .next s
  else match res with
    | .failed code => .next (s.stepFailed (basin.map Fin.val) code)
    | .ok =>
      if perBasin n then
        match basin with
        | none => .next s
        | some b =>
          if !s.stepLeft b then .next s
          else
            let s1 := s.setBasin b { s.basin b with stepDone := true }
            .next (s1.basinStep b n).afterBasins
      else if (n = 3 ∧ s.keeper.booted.isNone) ∨ (n = 9 ∧ s.flipWaits) then .next s
      else
        let s1 := match n with
          | 1 => s.readStrap ohms
          | 6 => s.bringCistern media
          | 8 => if s.clep.internal then s.loadOwn else s
          | 9 => s.restoreService
          | _ => s
        .next (s1.beginStep (n + 1))

/-- BRINGUP_STEP_LIMIT: a step exceeds its limit; step 3 has none while it waits on SMBus (R494). -/
def execBringupStepLimit (basin : Option (Fin 2)) (s : State) : Res :=
  if !s.bringing ∨ (s.rst.step = 3 ∧ s.keeper.waitSmbus) then .next s
  else .next (s.stepFailed (basin.map Fin.val) 1)

/-! ### Reset sources (R486 to R491) -/

/-- A reset begins at a level: `mapped` is its source's level and `ok` whether HBM contents are valid; a KEEP that cannot be
kept is carried out as FULL (R489). The Cistern's health counts survive it; a loss of power takes those since the system area was last
written (R399). Debug access ends (Table 20-5). -/
def State.beginReset (s : State) (mapped : Level) (ok : Bool) (source : Nat) : State :=
  let lvl := if mapped = .keep ∧ ok then Level.keep else .full
  let s1 := (if s.rst.pwrok ∧ ¬ s.nandHeld then s.saveArea else s).clearFor lvl
  let s2 := { s1 with rst := { s1.rst with
    level := lvl
    lastLevel := lvl
    lastSource := source
    inReset := true
    holdDone := false }, keeper := { s1.keeper with debug := false } }
  let s3 := s2.logEvent 1 2 sevInfo
  if mapped = .keep ∧ ¬ ok then s3.setRegF Reg.RST_STATUS 23 1 1 else s3

/-- PWROK_RISE: a power-on reset, for whose level Keeper's record of the stack supplies counts up to this moment, of which `rails` is
the last reading; with RESET_N low both sources act and the reset lasts on (R488 to R490). -/
def execPwrokRise (rails : List RailRead) (s : State) : Res :=
  if s.rst.pwrok then .next s
  else
    let both := !s.rst.resetN
    let mapped := if s.rst.pwrokLevel = .full ∨ (both ∧ s.rst.resetnLevel = .full) then Level.full else .keep
    let s1 := s.beginReset mapped (s.rst.fellKeep && s.rst.fellMemValid && s.keeper.railsOk && !rails.any stackSupplyOut) 0
    let s2 := { s1 with rst := { s1.rst with pwrok := true } }
    .next (if both then s2 else s2.endReset)

/-- PWROK_FALL: the node stops; what decides the next power-on's level is recorded (R489, R547). -/
def execPwrokFall (s : State) : Res :=
  if !s.rst.pwrok then .next s
  else
    let s0 := s.clearFor .keep
    let s1 := s0.withKeeper { s0.keeper with railsOk := s.keeper.running }
    .next { s1 with rst := { s1.rst with
      pwrok := false
      strapDone := false
      inReset := true
      holdDone := false
      fellMemValid := s.rst.memValid
      fellKeep := decide (s.rst.pwrokLevel = .keep) } }

/-- RESET_N_FALL: 100 ns low or longer starts a reset at its fused level; a shorter low is ignored (R488). -/
def execResetNFall (long : Bool) (s : State) : Res :=
  if !long ∨ !s.rst.resetN then .next s
  else
    let s1 := { s with rst := { s.rst with resetN := false } }
    .next (if s.rst.pwrok then s1.beginReset s.rst.resetnLevel s.rst.memValid 1 else s1)

/-- RESET_N_RISE: the reset ends when its hold of 10 µs has passed; before that the pulse was short (R488). -/
def execResetNRise (s : State) : Res :=
  if s.rst.resetN then .next s
  else
    let s1 := { s with rst := { s.rst with resetN := true } }
    if !(s.rst.pwrok && s.rst.inReset) then .next s1
    else if s.rst.holdDone then .next s1.endReset
    else .next (if s.rst.lastSource = 1 then s1.setRegF Reg.RST_STATUS 22 1 1 else s1)

/-- RESET_HOLD_END: the 10 µs of a reset have passed (R488). -/
def execResetHoldEnd (s : State) : Res :=
  if !(s.rst.pwrok && s.rst.inReset) ∨ s.rst.holdDone then .next s
  else
    let s1 := { s with rst := { s.rst with holdDone := true } }
    .next (if s.rst.resetN then s1.endReset else s1)

/-- STANDBY_POWER_UP: Keeper's domain is reset and boots; its flash and the fuses stay, and the count starts from 0 (R24, R45,
R491, R512). -/
def execStandbyPowerUp (s : State) : Res :=
  let k := s.keeper
  let notKpr := fun (p : Nat × U64) => keyPage p.1 != 0x12
  let k1 := { Keeper.reset with
    log := k.log
    nextSeq := k.nextSeq
    slotA := k.slotA
    slotB := k.slotB
    staged := k.staged
    fwState := if k.staged.isSome then 4 else 0
    bootRecord := k.bootRecord
    svnFused := k.svnFused
    revoked := k.revoked
    running := false }
  let s1 := { s with
    keeper := k1
    regs := s.regs.filter notKpr
    staged := s.staged.filter notKpr
    clep := { s.clep with count := 0, countValid := false, fresh := true, began := false, endCount := 0 } }
  .next s1.bootRom

end Sys2Proof.Machine
end

