-- ==== Sys2Proof/Machine/Claims.lean ====
section
/-! DEFINITION. The whole staged configuration and the checks of a commit: each page's own checks in their order (R455 with
R29, R121, R306, R397, R434, R443, R444, R454, R535 and the field tables) and the shared resources (R456, R457). -/

namespace Sys2Proof.Machine

/-! ### The configuration as it would stand -/

/-- A staged field of the register at a key and instance. -/
def State.stg (s : State) (key inst lsb len : Nat) : Nat := s.stagedF (instKey key inst) lsb len

/-- The staged map entries. -/
def State.stagedMap (s : State) : List MapEntry :=
  (List.range 16).map (fun n =>
    let r := fun (off : Nat) => s.stagedReg (Reg.SLC_MAP_TERR + 0x40 * n + off)
    ⟨r 0, r 8, r 16, r 24, r 32⟩)

/-- SLC_CTRL.ACTION and SWITCH_TIME as staged. -/
def State.mapAction (s : State) : Nat := s.stagedF Reg.SLC_CTRL 0 2
def State.switchTime (s : State) : U64 := s.stagedReg Reg.SLC_SWITCH_TIME

/-- Is the key one of the map entries, which a commit installs only with ACTION 1 (R444)? -/
def isMapKey (k : Nat) : Bool := keyPage k == 0x11 && decide (0x1000 ≤ keyOff k)

/-- A register with its ACTION field, or CIST_FMT.KEY, at 0 (R471). -/
def dropAction (k : Nat) (v : U64) : U64 :=
  let page := keyPage k
  let off := keyOff k
  if page = 4 ∧ 0x1000 ≤ off ∧ off % 0x40 = 0 then setField v 0 2 0
  else if page = 0x0B ∧ 0x1000 ≤ off ∧ off % 0x40 = 0 then setField v 0 2 0
  else if k = Reg.CIST_FMT then setField (setField v 0 2 0) 16 16 0
  else if page = 0x10 ∧ off = 0x128 then setField v 0 2 0
  else if k = Reg.SLC_CTRL ∨ k = Reg.KPR_FW_CFG then setField v 0 2 0
  else v

/-- The state with every staged value committed. -/
def State.adopted (s : State) : State :=
  let take := fun (k : Nat) => !isMapKey k || s.mapAction == 1
  s.staged.foldl (fun (t : State) p => if take p.1 then t.setReg p.1 (dropAction p.1 p.2) else t) s

/-- The latest map: the pending one, or else the one in force. -/
def State.latestMap (s : State) : List MapEntry :=
  match s.slices.pending with
  | some p => fullMap p.map
  | none => fullMap s.slices.map

/-- The maps that a commit leaves: the one in force, and a pending one (R444, R456). -/
def State.mapsAfter (s : State) : List MapEntry × Option (List MapEntry) :=
  let force := fullMap s.slices.map
  if s.mapAction = 1 then
    (if s.switchTime = 0 then (s.stagedMap, none) else (force, some s.stagedMap))
  else if s.mapAction = 2 then (force, none)
  else (force, s.slices.pending.map (fun p => fullMap p.map))

/-- Both maps, the one in force first. -/
def State.mapList (s : State) : List (List MapEntry) :=
  match s.mapsAfter with
  | (m, some p) => [m, p]
  | (m, none) => [m]

/-! ### A page's own checks (R455) -/

/-- A refusal by a page's own check: page, offset, instance, reason. -/
structure OwnFail where
  page : Nat
  off : Nat
  inst : Nat
  reason : Nat
  deriving DecidableEq, Repr

/-- The place of a refusal in the order of the checks. -/
def OwnFail.order (f : OwnFail) : Nat := ((f.page * 16384 + f.off) * 65536 + f.inst) * 256 + f.reason

/-- A refusal at a register. -/
def failAt (key inst reason : Nat) : OwnFail := ⟨keyPage key, keyOff key, inst, reason⟩

/-- A check that fails on a condition. -/
def failIf (c : Bool) (f : OwnFail) : List OwnFail := if c then [f] else []

/-- Fields of node scope with the least and the greatest value that a commit takes: key, lowest bit, width, least, greatest. -/
def rangeTable : List (Nat × Nat × Nat × Nat × Nat) := [
  (Reg.CLEP_CTRL, 0, 4, 0, 8), (Reg.CLEP_CTRL, 4, 2, 0, 2), (Reg.CLEP_HOLD_MAX, 0, 32, 100000, 100000000),
  (Reg.SRCH_CFG, 0, 9, 1, 256), (Reg.SRCH_CFG, 16, 14, 0, 10000),
  (Reg.EPOCH_CFG, 0, 20, 1000, 1000000), (Reg.EPOCH_CFG, 20, 20, 0, 1000000), (Reg.EPOCH_CFG, 40, 24, 1024, 8388608),
  (Reg.GSJ_CFG, 0, 4, 1, 8), (Reg.RILL_CFG, 0, 24, 1024, 16777215),
  (Reg.SPOUT_CFG, 0, 3, 0, 4), (Reg.SPOUT_CFG, 8, 8, 1, 255),
  (Reg.SPOUT_MIG_CFG, 8, 8, 1, 100), (Reg.SPOUT_MIG_CFG, 24, 16, 1, 65535), (Reg.SPOUT_MIG_CFG, 44, 4, 1, 15),
  (Reg.SPOUT_MIG_CFG, 48, 12, 10, 4095),
  (Reg.MEM_CFG, 0, 16, 10, 10000), (Reg.MEM_CFG, 16, 8, 1, 64), (Reg.MEM_CFG, 32, 8, 0, 40), (Reg.MEM_CFG, 40, 8, 1, 255),
  (Reg.MEM_CFG, 48, 8, 1, 255),
  (Reg.CIST_CFG, 0, 7, 10, 100), (Reg.CIST_CFG, 8, 16, 1, 65535), (Reg.CIST_CFG, 24, 12, 10, 4095),
  (Reg.CIST_CFG, 40, 8, 1, 255), (Reg.CIST_CFG, 48, 6, 1, 32), (Reg.CIST_CFG, 54, 8, 1, 255),
  (Reg.CIST_MAPCACHE_CFG, 0, 6, 1, 32),
  (Reg.URD_CFG, 16, 8, 2, 255), (Reg.URD_CFG, 24, 8, 1, 255),
  (Reg.URD_SPARE_CFG, 0, 16, 1, 65535), (Reg.URD_SPARE_CFG, 16, 8, 1, 255), (Reg.URD_SPARE_CFG, 24, 8, 1, 255),
  (Reg.SLC_CTRL, 0, 2, 0, 2), (Reg.SLC_CFG, 0, 20, 10000, 1000000), (Reg.SLC_NODE_CFG, 0, 4, 1, 8),
  (Reg.KPR_CFG, 0, 7, 70, 95), (Reg.KPR_CFG, 7, 5, 10, 29), (Reg.KPR_CFG, 12, 10, 500, 950), (Reg.KPR_CFG, 22, 8, 1, 255),
  (Reg.KPR_CFG, 30, 7, 5, 100),
  (Reg.RST_CFG, 4, 4, 1, 15), (Reg.RST_CFG, 8, 8, 1, 255), (Reg.RST_CFG, 16, 16, 100, 60000), (Reg.RST_CFG, 32, 8, 2, 255)]

/-- Is a number within bounds? -/
def within (lo hi v : Nat) : Bool := decide (lo ≤ v ∧ v ≤ hi)

/-- Fields of node scope outside their range, with the two that a list of ranges cannot say: DOWN_PCT below UP_PCT, and the
sixteen points of KPR_PMAX. -/
def State.rangeFails (s : State) : List OwnFail :=
  rangeTable.flatMap (fun r => failIf (!within r.2.2.2.1 r.2.2.2.2 (s.stagedF r.1 r.2.1 r.2.2.1)) (failAt r.1 0 1)) ++
  failIf (decide (s.stagedF Reg.SPOUT_MIG_CFG 8 8 ≤ s.stagedF Reg.SPOUT_MIG_CFG 16 8)) (failAt Reg.SPOUT_MIG_CFG 0 1) ++
  failIf ((List.range 16).any (fun t => decide (8 < s.stagedF Reg.KPR_PMAX (4 * t) 4))) (failAt Reg.KPR_PMAX 0 1)

/-- ACTION of an index as staged. -/
def State.idxAction (s : State) (i : Nat) : Nat := s.stagedF (Reg.IDX_CFG + 0x40 * i) 0 2

/-- Indexes that a commit creates. -/
def State.creating (s : State) : List Nat := (List.range 32).filter (fun i => s.idxAction i == 1)

/-- Sketch width of SKETCH_W. -/
def sketchWidth (w : Nat) : Nat := if w = 0 then 128 else if w = 1 then 256 else 512

/-- The descriptor that the staged registers of an index give (Tables 5-10 and 5-11). -/
def State.stagedDesc (s : State) (i : Nat) : IdxDesc :=
  let c := s.stagedReg (Reg.IDX_CFG + 0x40 * i)
  let g := s.stagedReg (Reg.IDX_GEOM + 0x40 * i)
  { metric := match field c 2 2 with
      | 0 => .ip
      | 1 => .cosine
      | _ => .euclid
    code := if bit c 4 then .int4 else .int8
    width := sketchWidth (field c 5 2)
    dim := 32 * field c 16 8
    slice := field c 8 4
    place := field c 12 2
    spout := bit c 14
    listCap := field g 0 25
    rowCap := field g 32 32
    shard := BitVec.ofNat 32 (s.stagedF (Reg.IDX_SHARD + 0x40 * i) 0 32) }

/-- ROW_CAP of the indexes that exist, summed. -/
def State.rowCapSum (s : State) : Nat := sumNat (s.indexes.map (fun p => p.2.desc.rowCap))

/-- Do the needs of objects, as slice, Basin and bytes of plain HBM, fit the free plain HBM of R560 under each map, on top of
what the slice holds after the commit `a`? -/
def needsFit (a : State) (maps : List (List MapEntry)) (slice : Nat) (need : MapEntry → Nat → Nat) : Bool :=
  maps.all (fun m => (List.range 2).all (fun b =>
    let e := mapAt m slice
    decide (need e b ≤ a.sliceFree slice e b 0)))

/-- Baseline bytes of the indexes a commit creates in a slice (Table 5-15). -/
def State.newBaseline (s : State) (slice : Nat) (e : MapEntry) (b : Nat) : Nat :=
  sumNat (s.creating.map (fun i => if (s.stagedDesc i).slice = slice then baselineIn (s.stagedDesc i) e b else 0))

/-- Is a slice configured with a Terrace under each map? -/
def sliceReady (maps : List (List MapEntry)) (n : Nat) : Bool :=
  maps.all (fun m => (mapAt m n).en && !(mapAt m n).terraces.isEmpty)

/-- The checks of one index (R121, log 49). -/
def State.idxFails (s a : State) (i : Nat) : List OwnFail :=
  let k := fun (key : Nat) => key + 0x40 * i
  let at_ := fun (key reason : Nat) => failAt (k key) i reason
  let act := s.idxAction i
  if act = 3 then [at_ Reg.IDX_CFG 1]
  else if act = 2 then
    failIf (match s.index? i with
      | some x => decide (x.state ≠ .ready)
      | none => true) (at_ Reg.IDX_CFG 2)
  else if act = 1 then
    let c := s.stagedReg (k Reg.IDX_CFG)
    let d := s.stagedDesc i
    let len := s.stagedF (k Reg.IDX_IMAGE_LEN) 0 40
    failIf (field c 2 2 == 3 || field c 5 2 == 3 || field c 12 2 == 3 || !within 1 128 (field c 16 8)) (at_ Reg.IDX_CFG 1) ++
    failIf (s.index? i).isSome (at_ Reg.IDX_CFG 2) ++
    failIf (!sliceReady s.mapList d.slice) (at_ Reg.IDX_CFG 3) ++
    failIf (!within 1 16777216 d.listCap || d.rowCap == 0) (at_ Reg.IDX_GEOM 1) ++
    failIf (decide (4294967295 < s.rowCapSum + d.rowCap)) (at_ Reg.IDX_GEOM 4) ++
    failIf (!needsFit a s.mapList d.slice (baselineIn d)) (at_ Reg.IDX_GEOM 5) ++
    failIf (decide (s.stagedF (k Reg.IDX_IMAGE_ADDR) 0 12 ≠ 0)) (at_ Reg.IDX_IMAGE_ADDR 6) ++
    failIf (decide (len < 128 ∨ len % 64 ≠ 0)) (at_ Reg.IDX_IMAGE_LEN 6)
  else []

/-- Reason 0x07: the indexes of one commit meet reason 0x04 or 0x05 together. -/
def State.jointFails (s a : State) : Bool :=
  let ds := s.creating.map s.stagedDesc
  decide (1 < ds.length) &&
    (decide (4294967295 < s.rowCapSum + sumNat (ds.map (fun d => d.rowCap))) ||
      ds.any (fun d => !needsFit a s.mapList d.slice (s.newBaseline d.slice)))

/-- ACTION of a program slot as staged. -/
def State.progAction (s : State) (n : Nat) : Nat := s.stagedF (Reg.POUR_CFG + 0x40 * n) 0 2

/-- HBM bytes for each Terrace of the program that a commit loads into slot `j`: the row parameters, tiles, skip maps and vectors of
the image as it stands in host memory, which the host leaves unchanged until the load has ended; an image that fails a check of the
load takes none (R306; log 30). -/
def State.progNeed (s : State) (j : Nat) : Nat :=
  let len := s.stagedF (Reg.POUR_IMAGE_LEN + 0x40 * j) 0 40
  match loadImage ((Config.hostImage (s.stagedF (Reg.POUR_IMAGE_ADDR + 0x40 * j) 0 64) len (s.free + j)).take len) with
  | .ok p => p.2
  | .error _ => 0

/-- Bytes that the programs a commit loads into slots up to `n` need in a Basin of a slice, for each of its Terraces there
(R306). -/
def State.newPrograms (s : State) (n slice : Nat) (e : MapEntry) (b : Nat) : Nat :=
  sumNat ((List.range (n + 1)).map (fun j =>
    if s.progAction j = 1 ∧ s.stagedF (Reg.POUR_CFG + 0x40 * j) 8 4 = slice then
      s.progNeed j * (e.terracesIn b).length else 0))

/-- The checks of one program slot (Table 11-7, log 49, log 50). -/
def State.progFails (s a : State) (n : Nat) : List OwnFail :=
  let k := fun (key : Nat) => key + 0x40 * n
  let at_ := fun (key reason : Nat) => failAt (k key) n reason
  let act := s.progAction n
  if act = 3 then [at_ Reg.POUR_CFG 1]
  else if act = 2 then failIf (decide ((s.prog n).state ≠ 2)) (at_ Reg.POUR_CFG 2)
  else if act = 1 then
    let slice := s.stagedF (k Reg.POUR_CFG) 8 4
    let len := s.stagedF (k Reg.POUR_IMAGE_LEN) 0 40
    failIf (decide ((s.prog n).state ≠ 0)) (at_ Reg.POUR_CFG 2) ++
    failIf (!sliceReady s.mapList slice) (at_ Reg.POUR_CFG 3) ++
    failIf (!needsFit a s.mapList slice (fun e b => s.newBaseline slice e b + s.newPrograms n slice e b))
      (at_ Reg.POUR_IMAGE_LEN 5) ++
    failIf (decide (s.stagedF (k Reg.POUR_IMAGE_ADDR) 0 12 ≠ 0)) (at_ Reg.POUR_IMAGE_ADDR 6) ++
    failIf (decide (len < 128 ∨ len % 64 ≠ 0)) (at_ Reg.POUR_IMAGE_LEN 6)
  else []

/-- MEM_RC_SLICE of a slice does not exceed its HBM in that Basin, under each map. -/
def State.rcFails (s : State) (n : Nat) : List OwnFail :=
  failIf (s.mapList.any (fun m => (List.range 2).any (fun b =>
    decide ((mapAt m n).granulesIn b < s.stagedF (Reg.MEM_RC_SLICE + 8 * n) (8 * b) 8))))
    (failAt (Reg.MEM_RC_SLICE + 8 * n) n 1)

/-- The checks of a format (R397); STRIPE and OP_PCT are judged only on a commit that formats (R455). -/
def State.fmtFails (s : State) : List OwnFail :=
  let act := s.stagedF Reg.CIST_FMT 0 2
  let f := fun (reason : Nat) => failAt Reg.CIST_FMT 0 reason
  if act ≥ 2 then [f 1]
  else if act = 1 then
    failIf (!within 8 32 (s.stagedF Reg.CIST_FMT 3 6) || !within 5 50 (s.stagedF Reg.CIST_FMT 9 7) ||
      decide (s.stagedF Reg.CIST_FMT 16 16 ≠ 0xC157)) (f 1) ++
    failIf (!s.indexes.isEmpty) (f 2) ++ failIf (decide (s.cist.state = 1)) (f 3)
  else []

/-- A gate window as staged: duration and open classes. -/
def State.stagedWin (s : State) (pt w : Nat) : Nat × U16 :=
  let r := s.stagedReg (instKey (Reg.SLU_GATE_WIN + 8 * w) pt)
  (field r 0 32, BitVec.ofNat 16 (field r 32 16))

/-- ACTION, NWIN and TAKEOVER of a point as staged. -/
def State.gateAction (s : State) (pt : Nat) : Nat := s.stg Reg.SLU_GATE_CTRL pt 0 2
def State.gateWins (s : State) (pt : Nat) : Nat := s.stg Reg.SLU_GATE_CTRL pt 2 7
def State.gateTime (s : State) (pt : Nat) : U64 := s.stagedReg (instKey Reg.SLU_GATE_TIME pt)

/-- Points whose staged registers a commit changes. -/
def State.stagedPoints (s : State) : List Nat :=
  (List.range 185).filter (fun pt => s.staged.any (fun p =>
    keyPage p.1 == 0x10 && keyInst p.1 == pt && decide (0x118 ≤ keyOff p.1)))

/-- Does a point keep, or draw, an event slot by this commit? -/
def State.gateClaim (s : State) (pt : Nat) : Bool :=
  if s.gateAction pt = 1 then decide (s.gateTime pt ≠ 0)
  else if s.gateAction pt = 2 then false
  else (s.point pt).pending.isSome

/-- Points with a claim on an event slot after the commit. -/
def State.gateClaims (s : State) : List Nat := (List.range 185).filter s.gateClaim

/-! ### Claims on the shared pools (Table 17-4) -/

/-- A claimant by feature code and instance, with its claim. -/
abbrev Claim := (Nat × Nat) × Nat

/-- Claims on event slots: heartbeats, indexes, pending gate lists, a pending map change of generation `g`. -/
def slotClaims (idxs gates : List Nat) (g : Option U16) : List Claim :=
  [((1, 0), 1), ((1, 1), 1)] ++ idxs.map (fun i => ((2, i), 1)) ++ gates.map (fun p => ((3, p), 1)) ++
    (match g with
      | some v => [((4, v.toNat), 1)]
      | none => [])

/-- Claims before and after the commit. -/
def State.slotsNow (s : State) : List Claim :=
  slotClaims (Store.keys s.indexes) ((List.range 185).filter (fun pt => (s.point pt).pending.isSome))
    (s.slices.pending.map (fun _ => s.slices.gen + 1))
def State.slotsAfter (s : State) : List Claim :=
  slotClaims ((List.range 32).filter (fun i => (s.index? i).isSome || s.creating.contains i)) s.gateClaims
    (s.mapsAfter.2.map (fun _ => s.slices.gen + 1))

/-- Claims on Reservoir SRAM under a map, in MiB. -/
def State.sramClaims (s : State) (m : List MapEntry) : List Claim :=
  [((0x10, 0), 4), ((0x11, 0), 4 * s.regF Reg.GSJ_CFG 0 4), ((0x12, 0), s.regF Reg.CIST_CFG 48 6)] ++
    (List.range 16).map (fun n => ((0x13, n), (mapAt m n).sram))

/-- Claims on Reservoir spill, in GiB. -/
def spillClaims (m : List MapEntry) : List Claim := (List.range 16).map (fun n => ((0x14, n), (mapAt m n).spill))

/-- Claims on plain or spouting HBM of a Basin, in granules. -/
def State.hbmClaims (s : State) (m : List MapEntry) (b k : Nat) : List Claim :=
  (if k = 0 then [((0x20, b), s.nodeRegion)] else []) ++
    (List.range 16).map (fun n => ((0x21, n * 4 + b * 2 + k), (mapAt m n).granules b k))

/-- Claims on a Terrace. -/
def terraceClaims (m : List MapEntry) (t : Nat) : List Claim :=
  (List.range 16).map (fun n => ((0x30, n), b2n ((mapAt m n).hasTerrace t)))

/-- Claims on the ALERT/CLEP_LOSS pin. -/
def State.pinClaims (s : State) : List Claim :=
  [((0x40, 0), s.regF Reg.CLEP_CTRL 6 1), ((0x41, 0), s.regF Reg.KPR_ALERT_CFG 0 1)]

/-- Sum of the claims. -/
def claimSum (cs : List Claim) : Nat := sumNat (cs.map (fun c => c.2))

/-- The claim of a claimant, 0 when it has none. -/
def claimOf (cs : List Claim) (k : Nat × Nat) : Nat := ((cs.find? (fun c => c.1 == k)).map (fun c => c.2)).getD 0

/-- FEAT_A: the first claimant, in code and instance, whose claim rises (R457). -/
def risen (before after : List Claim) : Option (Nat × Nat) :=
  (after.find? (fun c => decide (claimOf before c.1 < c.2))).map (fun c => c.1)

/-- FEAT_B: the largest other claim, lowest code and instance on a tie (R457). -/
def largestOther (a : Nat × Nat) (cs : List Claim) : Nat × Nat :=
  match (cs.filter (fun c => c.1 != a)).foldl (fun (acc : Option Claim) c =>
      match acc with
      | some d => if d.2 < c.2 then some c else acc
      | none => some c) none with
  | some c => c.1
  | none => (0, 0)

/-- A refusal by a shared resource: order number in Table 17-4, FEAT_A where a claim rises, and the pool's claims before
and after. -/
structure PoolFail where
  pool : Nat
  featA : Option (Nat × Nat)
  before : List Claim
  after : List Claim
  deriving DecidableEq, Repr

/-- Check a pool against its limit. -/
def poolCheck (pool limit : Nat) (before after : List Claim) : List PoolFail :=
  if limit < claimSum after then [⟨pool, risen before after, before, after⟩] else []

/-- The checks of R456 in the order of Table 17-4, each with the map in force and then with the pending map. `a` is the
configuration after the commit. For a Terrace, and for the pin, the limit is one claimant. -/
def State.poolFails (s a : State) : List PoolFail :=
  let now := s.mapsAfter
  let checks : List (List MapEntry × List MapEntry) :=
    (fullMap s.slices.map, now.1) :: (match now.2 with
      | some p => [(s.latestMap, p)]
      | none => [])
  poolCheck 1 64 s.slotsNow s.slotsAfter ++
  checks.flatMap (fun c => poolCheck 2 48 (s.sramClaims c.1) (a.sramClaims c.2)) ++
  checks.flatMap (fun c => poolCheck 3 (a.regF Reg.SLC_NODE_CFG 0 4) (spillClaims c.1) (spillClaims c.2)) ++
  checks.flatMap (fun c => (List.range 2).flatMap (fun b => poolCheck 4 48 (s.hbmClaims c.1 b 0) (a.hbmClaims c.2 b 0))) ++
  checks.flatMap (fun c => (List.range 2).flatMap (fun b => poolCheck 5 32 (s.hbmClaims c.1 b 1) (a.hbmClaims c.2 b 1))) ++
  checks.flatMap (fun c => (List.range 16).flatMap (fun t => poolCheck 6 1 (terraceClaims c.1 t) (terraceClaims c.2 t))) ++
  poolCheck 7 1 s.pinClaims a.pinClaims

/-- FEAT_B of a refusal: for a Terrace the slice that already holds it, where one does; else the largest other claim. -/
def PoolFail.featB (f : PoolFail) (featA : Nat × Nat) : Nat × Nat :=
  if f.pool = 6 then
    match f.after.find? (fun c => c.1 != featA && decide (0 < c.2) && decide (0 < claimOf f.before c.1)) with
    | some c => c.1
    | none => largestOther featA f.after
  else largestOther featA f.after

/-! ### Checks of points, slices and firmware -/

/-- The checks of one point whose registers a commit changes (Table 16-5, log 49, log 51). -/
def State.pointFails (s : State) (slotsOver : Bool) (pt : Nat) : List OwnFail :=
  let f := fun (key reason : Nat) => failAt key pt reason
  let act := s.gateAction pt
  let n := s.gateWins pt
  failIf (decide (s.stg Reg.SLU_POINT_CFG pt 0 8 = 0)) (f Reg.SLU_POINT_CFG 1) ++
  failIf (act == 3 || (act == 1 && !within 1 64 n)) (f Reg.SLU_GATE_CTRL 1) ++
  failIf (act == 1 && decide (s.gateTime pt ≠ 0) && (s.point pt).pending.isNone && slotsOver) (f Reg.SLU_GATE_CTRL 4) ++
  failIf (act == 1 && decide (s.gateTime pt ≠ 0) && !s.armable (s.gateTime pt)) (f Reg.SLU_GATE_TIME 3) ++
  (List.range 16).flatMap (fun c =>
    let r := s.stagedReg (instKey (Reg.SLU_CLASS_CFG + 8 * c) pt)
    failIf (field r 0 8 == 0 || decide (1000 < field r 16 10)) (f (Reg.SLU_CLASS_CFG + 8 * c) 1) ++
    failIf (bit r 8 && field r 16 10 == 0) (f (Reg.SLU_CLASS_CFG + 8 * c) 2)) ++
  (if act = 1 then (List.range (min 64 n)).flatMap (fun w =>
    failIf (decide ((s.stagedWin pt w).1 < 100)) (f (Reg.SLU_GATE_WIN + 8 * w) 5)) else [])

/-- R443: does a map entry keep Terraces and granules together, and EN as it should be? -/
def MapEntry.sound (e : MapEntry) : Bool :=
  let held := !e.terraces.isEmpty || decide (0 < e.granulesIn 0 + e.granulesIn 1)
  e.en == held && (List.range 2).all (fun b => (e.terracesIn b).isEmpty == decide (e.granulesIn b = 0))

/-- Does an index hold lists in Basin `b`, or will its load place lists there (R454, DEDUCED, log 52)? -/
def Index.livesIn (x : Index) (e : MapEntry) (b : Nat) : Bool :=
  if x.state = .loading then decide (0 < e.granulesIn b) && (x.desc.place == 0 || x.desc.place == b + 1)
  else x.slots.any (fun p => p.2.any (fun v => v.2.st != .free && v.2.basin == b)) ||
    x.arrs.any (fun p => p.2.basin == b)

/-- Does a slice own an index or a program slot? -/
def State.owns (s : State) (n : Nat) : Bool :=
  s.indexes.any (fun p => p.2.desc.slice == n) || s.progs.any (fun p => p.2.slice == n && p.2.state != 0)

/-- The checks of a staged map entry with ACTION 1 (R443, R454), and of its weights at every commit (Table 17-7). -/
def State.entryFails (s a : State) (n : Nat) : List OwnFail :=
  let e := mapAt s.stagedMap n
  let old := s.entry n
  let f := fun (off reason : Nat) => failAt (Reg.SLC_MAP_TERR + 0x40 * n + off) n reason
  (if s.mapAction = 1 then
    failIf (!e.sound) (f 0 0x20) ++
    failIf (!e.en && s.owns n) (f 0 0x22) ++
    failIf ((List.range 2).any (fun b => decide (0 < old.granulesIn b ∧ e.granulesIn b = 0) &&
      s.indexes.any (fun p => p.2.desc.slice == n && p.2.livesIn old b))) (f 8 0x21) ++
    failIf ((List.range 2).any (fun b => (List.range 2).any (fun k =>
      decide (e.granules b k * gib < a.sliceHeld n e b k)))) (f 8 0x23)
  else []) ++
  failIf ((List.range 5).any (fun k => field e.weight (8 * k) 8 == 0)) (f 0x18 1)

/-- The checks of SLC_CTRL and SLC_SWITCH_TIME with ACTION 1 (R444, R454). -/
def State.mapFails (s : State) : List OwnFail :=
  if s.mapAction = 1 then
    failIf (!s.slices.moving.isEmpty) (failAt Reg.SLC_CTRL 0 0x24) ++
    failIf (decide (s.switchTime ≠ 0) && !s.armable s.switchTime) (failAt Reg.SLC_SWITCH_TIME 0 0x25)
  else []

/-- The checks of firmware staging (Table 20-11). -/
def State.fwFails (s : State) : List OwnFail :=
  let act := s.stagedF Reg.KPR_FW_CFG 0 2
  failIf ((act == 1 || act == 2) && [1, 2, 3, 5].contains s.keeper.fwState) (failAt Reg.KPR_FW_CFG 0 2) ++
  (if act = 1 then
    failIf (decide (s.stagedF Reg.KPR_FW_ADDR 0 12 ≠ 0)) (failAt Reg.KPR_FW_ADDR 0 1) ++
    failIf (!within 352 33550336 (s.stagedF Reg.KPR_FW_LEN 0 32)) (failAt Reg.KPR_FW_LEN 0 1)
  else [])

/-- Every own check that fails. Reason 0x07 stands after the other checks of its page. -/
def State.ownFails (s a : State) : List OwnFail :=
  let slotsOver := decide (64 < claimSum s.slotsAfter)
  let idx := (List.range 32).flatMap (s.idxFails a)
  s.rangeFails ++ idx ++
  (match s.creating with
    | i :: _ => failIf (idx.isEmpty && s.jointFails a) (failAt (Reg.IDX_GEOM + 0x40 * i) i 7)
    | [] => []) ++
  (List.range 8).flatMap (s.progFails a) ++ (List.range 16).flatMap s.rcFails ++ s.fmtFails ++
  s.stagedPoints.flatMap (s.pointFails slotsOver) ++ s.mapFails ++ (List.range 16).flatMap (s.entryFails a) ++ s.fwFails

/-- The own check that refuses a commit: the first page, within it the first register (R455). -/
def State.ownFail (s a : State) : Option OwnFail := leastBy OwnFail.order (s.ownFails a)

end Sys2Proof.Machine
end

