-- ==== Sys2Proof/Machine/Views.lean ====
section
/-! DEFINITION. What a register reads: the status registers, whose fields follow from the node's state, the copies that
selectors name, the page headers, and what a function or the SMBus may see (R464 to R467, R483, R514). -/

namespace Sys2Proof.Machine

/-- A list of truth values as bits, the first in bit 0. -/
def bitsFrom (l : List Bool) : Nat := l.foldr (fun b n => b2n b + 2 * n) 0

/-- The greatest number of `w` bits, or the number itself. -/
def satTo (w n : Nat) : Nat := min n (2 ^ w - 1)

/-- 2^20, for fields in MiB. -/
def mib : Nat := 1048576

/-- A signed number in 16 bits. -/
def signed16 (v : Int) : Nat := (BitVec.ofInt 16 v).toNat

/-! ### Status registers, page by page -/

/-- Version of an image of the booted bundle (Table 20-10). -/
def State.fwWord (s : State) (off : Nat) : Nat := match s.keeper.booted with
  | some b => leAt b off 4
  | none => 0

/-- Page 0x00. -/
def State.view0 (s : State) (off : Nat) : Option U64 :=
  if off = 0x100 then some (fieldsOf [(0, 32, 0x9600), (32, 16, Config.vendor.toNat)])
  else if off = 0x108 then some (fieldsOf [(0, 8, Config.stepping.toNat), (16, 16, 1)])
  else if off = 0x110 then some Config.serial
  else if off = 0x118 then some (fieldsOf [(0, 32, s.fwWord 16), (32, 32, s.fwWord 20)])
  else none

/-- Page 0x01. -/
def State.view1 (s : State) (off : Nat) : Option U64 :=
  if off = 0x100 then some (fieldsOf [(0, 4, s.rst.phase), (4, 1, b2n (s.basinUp 0)), (5, 1, b2n (s.basinUp 1)),
    (8, 1, b2n (s.rst.lastLevel == .keep)), (9, 1, s.rst.lastSource), (10, 4, s.rst.strap)])
  else none

/-- Page 0x02. GO is set while a commit runs or waits. -/
def State.view2 (s : State) (off : Nat) : Option U64 :=
  if off = 0x100 then some (fieldsOf [(0, 1, b2n (s.commit.busy || s.commit.goNext)), (1, 1, b2n s.commit.discardNext)])
  else if off = 0x108 then some (packFields (s.reg Reg.HOST_COMMIT_STATUS) [(0, 1, b2n s.commit.busy)])
  else if off = 0x118 then some (packFields (Config.hostLink &&& 0x1FF) [(16, 5, s.vfsOn)])
  else none

/-- Number of a lock state (Table 2-8). -/
def Lock.num : Lock → Nat
  | .free => 0
  | .acquire => 1
  | .locked => 2
  | .holdover => 3

/-- KIND of an event slot (Table 2-11). -/
def SlotKind.num : SlotKind → Nat
  | .free => 0
  | .heartbeat => 1
  | .epochFlip => 2
  | .gateTakeover => 3
  | .mapSwitch => 4

/-- Page 0x03. -/
def State.view3 (s : State) (off : Nat) : Option U64 :=
  let c := s.clep
  if off = 0x108 then some (fieldsOf [(0, 2, c.lock.num), (2, 1, b2n c.internal), (3, 1, b2n c.refOk.a), (4, 1, b2n c.refOk.b),
    (5, 1, b2n c.syncOk.a), (6, 1, b2n c.syncOk.b), (7, 1, b2n c.useB), (8, 1, b2n c.countValid), (16, 16, c.phaseErr.toNat)])
  else if off = 0x118 then some s.now
  else if off = 0x128 then some c.lastStep
  else if off = 0x140 then some (BitVec.ofNat 64 (bitsFrom ((List.range 64).map (fun n => (s.slot n).armed))))
  else if 0x1000 ≤ off ∧ off < 0x1400 then
    let e := s.slot ((off - 0x1000) / 16)
    some (if off % 16 = 0 then e.time
      else fieldsOf [(0, 3, e.kind.num), (3, 1, b2n e.armed), (4, 1, b2n e.isLocal), (5, 1, b2n e.late), (8, 16, e.owner),
        (32, 32, e.period)])
  else none

/-- STATE of an index (Table 5-12). -/
def State.idxState (s : State) (i : Nat) : Nat := match s.index? i with
  | none => 0
  | some x => match x.state with
    | .loading => 1
    | .ready => 2
    | .draining => 3

/-- Rows with a valid directory entry at the latest live epoch. -/
def Index.liveRows (x : Index) : Nat := ((Store.keys x.dir).filter (fun l => (x.dirAt x.cur l).valid)).length

/-- HBM bytes that an index's objects hold: the baseline, extra page versions, block arrays, and the owner-table pages that are
cached (R119, R560). -/
def State.idxHbm (s : State) (i : Nat) (x : Index) : Nat :=
  let e := s.entry x.desc.slice
  sumNat ((List.range 2).map (fun b =>
    baselineIn x.desc e b + x.versionBytes e (s.usedEpochs i) b +
      4096 * s.cachedPages x.desc.slice i b (fun l => decide (32 ≤ l / 68719476736)) +
      sumNat ((List.range 4).map (s.indexBytes i x b))))

/-- Indexes that are ready, among those that `p` takes. -/
def State.readyMask (s : State) (p : Nat → Bool) : U64 :=
  BitVec.ofNat 64 (bitsFrom ((List.range 32).map (fun i => s.idxState i == 2 && p i)))

/-- Page 0x04. -/
def State.view4 (s : State) (off : Nat) : Option U64 :=
  let i := (off - 0x1000) / 0x40
  let r := off % 0x40
  if off = 0x100 then some (s.readyMask (fun _ => true))
  else if off < 0x1000 ∨ 0x1800 ≤ off then none
  else if r = 0x28 then
    some (packFields (s.reg (regKey 4 off)) [(0, 2, s.idxState i), (32, 25, match s.index? i with
      | some x => (x.liveSlots x.cur).length
      | none => 0)])
  else if r = 0x30 then
    some (match s.index? i with
      | some x => fieldsOf [(0, 32, satTo 32 x.liveRows), (32, 32, satTo 32 (nearest (s.idxHbm i x) mib))]
      | none => 0)
  else none

/-- The Headworks Weir lane that the spare lane replaced: the first one recorded (DEDUCED, log 143). -/
def State.replacedLane (s : State) : Nat :=
  match s.record.find? (fun e => e.kind == kWeirLane && decide (e.loc < 16)) with
  | some e => e.loc
  | none => 0

/-- Page 0x06. -/
def State.view6 (s : State) (off : Nat) : Option U64 :=
  if off = 0x108 then
    let up := decide (s.rst.phase = 3)
    let spare := (weirLanes s.record).contains 16
    let outs := ((List.range 16).filter s.terraceOut).length
    some (fieldsOf [(0, 5, if up then (weirLanes s.record).length else 0), (5, 1, b2n spare),
      (6, 4, if spare then s.replacedLane else 0),
      (16, 9, if up then 16 * (16 - outs) else 0)])
  else none

/-- Page 0x07. -/
def State.view7 (s : State) (off : Nat) : Option U64 :=
  if off < 0x1000 ∨ 0x1800 ≤ off then none
  else match s.index? ((off - 0x1000) / 0x40) with
    | none => some 0
    | some x =>
      let r := off % 0x40
      if r = 0 then some (fieldsOf [(0, 32, x.cur.toNat), (32, 3, x.live), (35, 1, b2n x.drainEnd.isSome),
        (36, 1, b2n x.flip.isSome), (37, 1, b2n (s.sealBegun x)), (38, 1, b2n x.struct.isSome)])
      else if r = 8 then some (match x.flip with
        | some f => f.time
        | none => 0)
      else if r = 0x10 then some x.lastFlip
      else if r = 0x18 then some (x.drainEnd.getD 0)
      else if r = 0x20 then some (fieldsOf [(0, 32, x.ledger.length), (32, 32, satTo 32 x.ledgerRecs)])
      else none

/-- Page 0x08. -/
def State.view8 (s : State) (off : Nat) : Option U64 :=
  if off = 0x108 then some (fieldsOf [(0, 4, s.openWindows),
    (4, 16, satTo 16 ((s.reqs.filter (fun p => p.2.life == .waitWindow)).length))])
  else none

/-- Basin, Terrace, Runnel and Rill of a RILL_SEL value. -/
def selBasin (k : Nat) : Nat := k % 2
def selTerrace (k : Nat) : Nat := k / 2 % 8
def selRunnel (k : Nat) : Nat := k / 16 % 32
def selRill (k : Nat) : Nat := k / 512 % 32

/-- The place of a value in a list. -/
def placeIn (l : List Nat) (v : Nat) : Nat := l.idxOf v

/-- ROLE of a physical Runnel: 0 active, 1 spare, 2 retired. -/
def State.runnelRole (s : State) (b t rn : Nat) : Nat :=
  if recorded s.record kRunnel (runnelKey b t rn) then 2
  else if (runnelMap s.mapRec b t).contains rn || !(s.basin b).mapsSet then 0 else 1

/-- ROLE of a physical Rill: those of a retired or spare Runnel share its role. -/
def State.rillRole (s : State) (b t rn r : Nat) : Nat :=
  if s.runnelRole b t rn ≠ 0 then s.runnelRole b t rn
  else if recorded s.record kRill (rillKey b t rn r) then 2
  else if (rillMap s.mapRec b t rn).contains r || !(s.basin b).mapsSet then 0 else 1

/-- The logical number of an active unit of a Basin: 0 until its maps are set. -/
def State.logical (s : State) (b role : Nat) (m : List Nat) (n : Nat) : Nat :=
  if role = 0 ∧ (s.basin b).mapsSet = true then placeIn m n else 0

/-- Does an engine issue or wait? -/
def Eng.busy : Eng → Bool
  | .idle => false
  | _ => true

/-- Page 0x09. -/
def State.view9 (s : State) (off k : Nat) : Option U64 :=
  let v := s.rill k
  let b := selBasin k
  let t := selTerrace k
  let rn := selRunnel k
  let role := s.rillRole b t rn (selRill k)
  let busy := bitsFrom (v.engs.map Eng.busy)
  if off = 0x110 then some (fieldsOf [(0, 2, role), (2, 1, b2n (busy != 0)), (3, 5, busy), (8, 8, v.func),
    (16, 4, s.logical b role (rillMap s.mapRec b t rn) (selRill k)),
    (20, 4, s.logical b role (runnelMap s.mapRec b t) rn)])
  else if off = 0x118 then some v.fault
  else if off = 0x120 then some v.faultTime
  else none

/-- Eight entries of a map, a byte each. -/
def mapBytes (l : List Nat) : U64 := BitVec.ofNat 64 (leNat ((l.take 8).map (BitVec.ofNat 8)))

/-- A map register of a Basin: 0 until its maps are set (R288). -/
def State.mapReg (s : State) (b : Nat) (l : List Nat) : U64 := if (s.basin b).mapsSet then mapBytes l else 0

/-- STATE of a die bridge. -/
def State.bridgeState (s : State) (n : Nat) : Nat := (s.bridge n).state

/-- Page 0x0A. -/
def State.view10 (s : State) (off k : Nat) : Option U64 :=
  let b := selBasin k
  let t := selTerrace k
  let rn := selRunnel k
  let role := s.runnelRole b t rn
  if off = 0x108 then some (packFields (s.reg (instKey Reg.RUNNEL_STATUS k)) [(0, 2, role),
    (2, 4, s.logical b role (runnelMap s.mapRec b t) rn),
    (6, 2, if (s.basin b).mapsSet then rillSparesLeft s.record b t rn else 0)])
  else if off = 0x110 then some (s.mapReg b (rillMap s.mapRec b t rn))
  else if off = 0x118 then some (s.mapReg b ((rillMap s.mapRec b t rn).drop 8))
  else if off = 0x120 then some (s.mapReg b (runnelMap s.mapRec b t))
  else if off = 0x128 then some (s.mapReg b ((runnelMap s.mapRec b t).drop 8))
  else if off = 0x138 then some (fieldsOf [(0, 2, s.bridgeState 0), (2, 2, s.bridgeState 1), (4, 2, s.bridgeState 2)])
  else none

/-- Programs that are ready, among those that `p` takes. -/
def State.progMask (s : State) (p : Nat → Bool) : U64 :=
  BitVec.ofNat 64 (bitsFrom ((List.range 8).map (fun n => (s.prog n).state == 2 && p n)))

/-- Does a phase that uses the Cascade arrays run for a slice that holds node Terrace `t` (R294)? -/
def State.arrayUsed (s : State) (t : Nat) : Bool :=
  s.reqs.any (fun p => p.2.life == .running && p.2.entry.hasTerrace t &&
    (p.2.phase == .coarse || p.2.phase == .sample || p.2.phase == .sum || p.2.phase == .stage))

/-- Page 0x0B. Whether an array computes, while a phase runs that uses it, is a free value (DESIGN CHOICE, log 53). -/
def State.view11 (s : State) (off k : Nat) : Option U64 :=
  let b := k / 8
  let t := k % 8
  let n := (off - 0x1000) / 0x40
  if off = 0x108 then
    some (fieldsOf [(0, 34, bitsFrom ((List.range 34).map (fun c => recorded s.record kColumn (columnLoc b t c)))),
      (34, 2, if s.rst.phase = 3 then columnSparesLeft s.record b t else 0), (36, 1, if s.arrayUsed (nodeTerrace b t) then (Config.freeValue 1 s.free).toNat else 0)])
  else if off = 0x130 then some (s.progMask (fun _ => true))
  else if off < 0x1000 ∨ 0x1200 ≤ off then none
  else
    let g := s.prog n
    if off % 0x40 = 0x18 then some (fieldsOf [(0, 2, g.state), (8, 8, g.lastErr)])
    else if off % 0x40 = 0x20 then
      some (fieldsOf [(0, 32, g.samples), (32, 32, satTo 32 (nearest (g.bytes * (s.entry g.slice).terraces.length) mib))])
    else none

/-- Page 0x0C. A Spout's ERRORS stand in its register. -/
def State.view12 (s : State) (off k : Nat) : Option U64 :=
  if off = 0x118 then
    let st := s.stack k
    let offs := ((List.range 256).filter (fun i => s.spoutOff (k % 4 + 4 * i))).length
    some (fieldsOf [(0, 1, b2n st.ctrlEcc), (1, 1, b2n st.mirrorLost), (8, 9, offs), (32, 19, st.sealedCount)])
  else if off = 0x120 then
    let v := s.spout k
    some (packFields (s.reg (instKey Reg.SPOUT_STATUS k)) [(0, 2, if s.spoutOff k then 2 else if v.seq then 1 else 0),
      (2, 4, v.ctxs.length), (6, 11, v.fifo.length)])
  else none

/-- Page 0x0D. -/
def State.view13 (s : State) (off k : Nat) : Option U64 :=
  if off = 0x108 then some (fieldsOf [(0, 32, s.mem.lost.length + s.mem.lostArrs.length + s.mem.lostTabs.length), (32, 32, nearest (s.mem.dirty.length * 4096) mib)])
  else if off = 0x118 then
    let st := s.stack k
    some (fieldsOf [(0, 2, st.state), (2, 1, b2n st.hot), (8, 8, satTo 8 st.repairs),
      (16, 8, sumNat ((Store.vals st.lanes).map (min 2))), (32, 32, st.retired)])
  else if off = 0x128 then
    some ((s.reg Reg.MEM_INJECT &&& 1) ||| (s.reg (instKey Reg.MEM_INJECT k) &&& 2))
  else none

/-- STATE of the Cistern (Table 14-8): read-only and degraded follow from the LUNs. -/
def State.cistState (s : State) : Nat :=
  let c := s.cist
  if c.state < 2 then c.state
  else if ((List.range 32).filter (fun ch => !(c.freeOf ch).isEmpty)).length < 8 then 4
  else if c.luns.any (fun p => p.2.state == 2) || !c.rebuild.isEmpty then 3
  else 2

/-- Page 0x0E. How far a rebuild has come is a free value (DESIGN CHOICE, log 53). -/
def State.view14 (s : State) (off k : Nat) : Option U64 :=
  let c := s.cist
  let live := c.luns.filter (fun p => p.2.state == 1)
  let lunErases := c.erasesOf k
  if off = 0x118 then
    let reb := !c.rebuild.isEmpty
    some (fieldsOf [(0, 3, s.cistState), (3, 1, c.mode), (4, 6, c.stripe), (10, 6, ((live.map (fun p => p.1 % 32)).dedup).length),
      (16, 11, live.length), (27, 1, b2n reb), (28, 7, if reb then (Config.freeValue 7 s.free).toNat % 101 else 0),
      (35, 1, b2n c.throttled), (36, 8, c.lastErr)])
  else if off = 0x120 then
    some (fieldsOf [(0, 2, c.parity), (2, 2, c.planes / 2), (4, 13, c.pages), (17, 15, c.blocks), (32, 12, c.rate)])
  else if off = 0x128 then some (fieldsOf [(0, 32, c.generation.toNat)])
  else if off = 0x130 then some (fieldsOf [(0, 40, c.userPages)])
  else if off = 0x138 then some (fieldsOf [(0, 40, s.cistUsed)])
  else if off = 0x140 then some (packFields (s.reg Reg.CIST_MAPCACHE_STATUS) [(0, 24, c.mapDirty.length)])
  else if off = 0x148 then
    some (packFields (s.reg Reg.CIST_HEALTH) [(0, 8, c.sparePct), (8, 8, c.wearPct),
      (32, 16, satTo 16 (c.erases.foldl max 0)), (48, 16, satTo 16 (meanDown c.erases))])
  else if off = 0x198 then
    let l := s.lun k
    some (fieldsOf [(0, 2, l.state), (16, 16, satTo 16 l.bad.length), (32, 8, (BitVec.ofInt 8 l.temp).toNat),
      (48, 16, satTo 16 (meanOf lunErases))])
  else none

/-- STATE of a port (Table 15-10). -/
def PortState.num : PortState → Nat
  | .down => 0
  | .training => 1
  | .up => 2
  | .retraining => 3

/-- Page 0x0F. -/
def State.view15 (s : State) (off k : Nat) : Option U64 :=
  if off = 0x138 then
    let p := s.port k
    let w := if p.state = .down then 0 else if p.map.length = 2 then 1 else 2
    let map := if p.state = .down then [] else p.map
    let m := (List.zip (List.range 4) map).map (fun e => (8 + 4 * e.1, 4, e.2))
    some (fieldsOf ([(0, 3, p.state.num), (3, 2, w), (24, 1, b2n (map.contains 8)), (48, 12, p.partner.getD 0),
      (60, 1, b2n p.partner.isSome)] ++ m))
  else if off = 0x158 then
    let l := s.lane k
    let role := s.laneRole k
    let port := if role = 0 then (s.laneFor k).filter (fun p => (s.port p).state != .down) else none
    some (packFields (s.reg (instKey Reg.URD_LANE_STATUS k)) [(0, 2, role), (2, 3, port.getD 0),
      (5, 2, port.elim 0 (fun p => placeIn (s.port p).map (k % 9))),
      (7, 1, b2n l.signal), (8, 1, b2n l.fecLock)])
  else if off = 0x170 then
    let lane := s.regF Reg.URD_LANE_SEL 0 6
    let port := s.regF Reg.URD_PORT_SEL 0 3
    some ((s.reg (laneLosKey lane) &&& 1) ||| (s.reg (instKey Reg.URD_INJECT port) &&& 2))
  else none

/-- The slice that holds a Terrace in force. -/
def State.terraceSlice (s : State) (t : Nat) : Option Nat := terraceOwner s.slices.map t

/-- STATE of a point (Table 16-7): out of service where its resource is, held during bring-up. -/
def State.pointState (s : State) (pt : Nat) : Nat :=
  if s.rst.phase ≠ 3 then 2
  else
    let absent := match pointKind pt with
      | 0 => !s.portUp pt
      | 1 => !(s.cist.luns.any (fun p => p.1 % 32 == pt - 8 && p.2.state == 1))
      | 2 => decide (2 ≤ (s.basin ((pt - 40) / 64)).state)
      | 4 => s.terraceOut (pt - 169) || (s.terraceSlice (pt - 169)).isNone || decide (2 ≤ (s.basin ((pt - 169) / 8)).state)
      | _ => false
    if (s.point pt).out || absent then 0 else 1

/-- Page 0x10. -/
def State.view16 (s : State) (off pt : Nat) : Option U64 :=
  let p := s.point pt
  if off = 0x120 then some (fieldsOf [(0, 2, s.pointState pt), (2, 5, ((p.queue.map (fun u => u.party)).dedup).length),
    (32, 32, satTo 32 p.queue.length)])
  else if off = 0x138 then
    let n := (p.active.getD []).length
    some (fieldsOf [(0, 7, n), (7, 6, if n = 0 then 0 else p.cur), (13, 1, b2n p.pending.isSome), (14, 1, b2n p.late),
      (16, 8, p.lastErr)])
  else if off = 0x140 then some p.lastTake
  else if 0x1200 ≤ off ∧ off < 0x1400 then
    some (match (p.active.getD [])[(off - 0x1200) / 8]? with
      | some w => fieldsOf [(0, 32, w.1), (32, 16, w.2.toNat)]
      | none => 0)
  else none

/-- The registers of an entry of the map in force, by their offset in the entry. -/
def MapEntry.word (e : MapEntry) (r : Nat) : U64 :=
  if r = 0 then e.terr else if r = 8 then e.hbm else if r = 16 then e.io else if r = 24 then e.weight
  else if r = 32 then e.res else 0

/-- Page 0x11. -/
def State.view17 (s : State) (off : Nat) : Option U64 :=
  if off = 0x120 then some (fieldsOf [(0, 16, s.slices.gen.toNat), (16, 1, b2n s.slices.pending.isSome),
    (17, 1, b2n (!s.slices.moving.isEmpty)), (18, 1, b2n s.slices.late),
    (32, 16, bitsFrom ((List.range 16).map (fun n => (s.entry n).en)))])
  else if off = 0x138 then some (fieldsOf [(0, 7, claimSum s.slotsNow),
    (8, 6, claimSum (s.sramClaims (fullMap s.slices.map)))])
  else if 0x1000 ≤ off ∧ off < 0x1400 ∧ off % 0x40 = 0x28 then
    some (fieldsOf [(0, 16, (s.sinceOf ((off - 0x1000) / 0x40)).toNat)])
  else if 0x2000 ≤ off ∧ off < 0x2400 then some ((s.entry ((off - 0x2000) / 0x40)).word (off % 0x40))
  else none

/-- Page 0x12. -/
def State.view18 (s : State) (off : Nat) : Option U64 :=
  let k := s.keeper
  if off = 0x110 then some (fieldsOf ((List.range 16).map (fun t => (4 * t, 4, (s.region t).point))))
  else if off = 0x118 then some (fieldsOf ((List.range 16).map (fun t => (3 * t, 3, s.limitOf t))))
  else if off = 0x120 then some (packFields (s.reg Reg.KPR_POWER) [(32, 4, k.pcap), (36, 1, b2n k.fast)])
  else if off = 0x140 then
    let sel := s.regF Reg.KPR_SENSOR_SEL 0 9
    let x := Store.get (fun _ => Sensor.reset) k.sensors (sensorKey (sel % 4) (sel / 4))
    some (fieldsOf [(0, 16, signed16 x.value), (16, 16, signed16 (x.lo s.tick)), (32, 16, signed16 (x.hi s.tick))])
  else if off = 0x148 then some (packFields (s.reg Reg.KPR_LOG) [(0, 32, k.nextSeq.toNat)])
  else if off = 0x168 then
    some (fieldsOf [(0, 3, k.fwState), (8, 8, k.fwErr), (16, 7, k.svnFused), (24, 7, match k.booted with
      | some b => byteAt b 7
      | none => 0), (32, 1, b2n k.bootedB), (33, 4, k.revoked)])
  else none

/-- Spare Rills left in Runnels in service. -/
def State.rillsLeft (s : State) : Nat :=
  sumNat (((List.range 16).filter (fun t => !s.terraceOut t)).map (fun t =>
    sumNat ((runnelMap s.record (t / 8) (t % 8)).map (rillSparesLeft s.record (t / 8) (t % 8)))))

/-- Page 0x13. -/
def State.view19 (s : State) (off : Nat) : Option U64 :=
  let r := s.rst
  let beat := fun (b : Nat) => fieldsOf [(0, 32, (s.basin b).seq.toNat), (32, 3, (s.basin b).misses)]
  if off = 0x110 then some (packFields (s.reg Reg.RST_STATUS) [(0, 4, r.failStep), (8, 8, r.failCode),
    (16, 2, (s.basin 0).state), (18, 2, (s.basin 1).state), (20, 1, b2n r.memValid), (21, 1, b2n r.strapValid)])
  else if off = 0x118 then some (fieldsOf [(0, 1, b2n (r.pwrokLevel == .keep)), (1, 1, b2n (r.resetnLevel == .keep)),
    (2, 1, b2n r.pwrokBlown), (3, 1, b2n r.resetnBlown)])
  else if off = 0x120 then some (fieldsOf [(0, 4, r.strap), (8, 24, r.ohms)])
  else if off = 0x128 then some (beat 0)
  else if off = 0x130 then some (beat 1)
  else if off = 0x138 then some (fieldsOf [(0, 1, r.lastBasin), (1, 3, r.lastCause), (4, 2, r.lastResult), (8, 3, r.lastStep),
    (16, 16, r.lastMs), (32, 8, r.lastAttempts)])
  else if off = 0x140 then some r.lastTime
  else if off = 0x148 then
    if r.step < 7 ∨ (r.step = 7 ∧ !(s.basin 0).mapsSet ∧ !(s.basin 1).mapsSet) then some 0
    else some (fieldsOf [(0, 10, s.rillsLeft),
      (10, 5, sumNat ((List.range 16).map (fun t => runnelSparesLeft s.record (t / 8) (t % 8)))),
      (15, 6, sumNat ((List.range 16).map (fun t => columnSparesLeft s.record (t / 8) (t % 8)))),
      (21, 1, b2n (!(weirLanes s.record).contains 16 && !recorded s.record kWeirLane 16)),
      (22, 3, ((List.range 4).filter s.spareFree).length),
      (25, 5, ((List.range 16).filter s.terraceOut).length), (30, 11, (s.record.filter (fun e => e.kind == kSpout)).length)])
  else none

/-- Page 0x14, for one function. -/
def State.view20 (s : State) (off fn : Nat) : Option U64 :=
  if off < 0x1000 ∨ 0x1000 + 0x40 * queueCount fn ≤ off then none
  else
    let q := s.queue fn ((off - 0x1000) / 0x40)
    let r := off % 0x40
    if r = 0 then some q.sqBase
    else if r = 8 then some (fieldsOf [(0, 1, b2n q.sqEn), (1, 5, q.sqLog2)])
    else if r = 0x10 then some q.cqBase
    else if r = 0x18 then some (fieldsOf [(0, 1, b2n q.cqEn), (1, 5, q.cqLog2), (6, 1, b2n q.intEn), (8, 8, q.coalN),
      (16, 16, q.coalUs)])
    else if r = 0x20 then some (fieldsOf [(0, 16, q.sqHead), (16, 16, q.cqTail), (32, 1, b2n q.err),
      (33, 1, b2n (!q.owed.isEmpty)), (40, 24, satTo 24 q.inflight)])
    else none

/-- Page 0x15, for one function. DIP_DATA reads by its own command. -/
def State.view21 (s : State) (off fn : Nat) : Option U64 :=
  let d := (s.fn fn).dip
  if off = 0x100 then some (fieldsOf [(0, 4, d.target), (4, 1, b2n d.auto)])
  else if off = 0x108 then some d.addr
  else if off = 0x110 then some (fieldsOf [(0, 1, b2n d.ready), (1, 1, b2n d.err), (8, 8, d.errCode), (32, 32, d.notReady)])
  else if off = 0x118 then some 0
  else none

/-- The value that a register reads now where its fields follow from the state. `k` is the selected copy. -/
def State.view (s : State) (page off k : Nat) : Option U64 :=
  match page with
  | 0x00 => s.view0 off
  | 0x01 => s.view1 off
  | 0x02 => s.view2 off
  | 0x03 => s.view3 off
  | 0x04 => s.view4 off
  | 0x06 => s.view6 off
  | 0x07 => s.view7 off
  | 0x08 => s.view8 off
  | 0x09 => s.view9 off k
  | 0x0A => s.view10 off k
  | 0x0B => s.view11 off k
  | 0x0C => s.view12 off k
  | 0x0D => s.view13 off k
  | 0x0E => s.view14 off k
  | 0x0F => s.view15 off k
  | 0x10 => s.view16 off k
  | 0x11 => s.view17 off
  | 0x12 => s.view18 off
  | 0x13 => s.view19 off
  | 0x14 => s.view20 off k
  | 0x15 => s.view21 off k
  | _ => none

/-! ### Selectors -/

/-- Is a Runnel or Rill number of a selector one that exists? -/
def rillSelOk (k : Nat) : Bool := decide (selRunnel k < 17 ∧ selRill k < 18)
def runnelSelOk (k : Nat) : Bool := decide (selRunnel k < 17)

/-- A copy that exists, or none. -/
def orNone (c : Bool) (k : Nat) : Option Nat := if c then some k else none

/-- The copy of a register that an access by a function reaches: the one its page's selector names, the function's own, or 0
for a register that has one copy. None where the selector names no unit (log 48). -/
def State.copyOf (s : State) (fn page off : Nat) : Option Nat :=
  match page with
  | 0x09 =>
    let k := s.regF Reg.RILL_SEL 0 14
    if 0x110 ≤ off ∧ off ≤ 0x130 then orNone (rillSelOk k) k else some 0
  | 0x0A =>
    let k := s.regF Reg.RUNNEL_SEL 0 9
    if off = 0x120 ∨ off = 0x128 then some (k % 16)
    else if 0x108 ≤ off ∧ off ≤ 0x130 then orNone (runnelSelOk k) k else some 0
  | 0x0B =>
    let k := s.regF Reg.CASC_SEL 0 4
    some (if off = 0x108 ∨ off = 0x110 ∨ off = 0x118 then nodeTerrace (k % 2) (k / 2) else 0)
  | 0x0C =>
    let k := s.regF Reg.SPOUT_SEL 0 10
    some (if off = 0x118 then stackKey (k % 2) (k / 2 % 2) 1 else if off = 0x120 ∨ off = 0x128 then k else 0)
  | 0x0D => some (if 0x118 ≤ off ∧ off ≤ 0x128 then s.regF Reg.MEM_HBM_SEL 0 3 else 0)
  | 0x0E => some (if off = 0x198 ∨ off = 0x1A0 then s.regF Reg.CIST_LUN_SEL 0 10 else 0)
  | 0x0F =>
    let lane := s.regF Reg.URD_LANE_SEL 0 6
    if off = 0x118 then some (s.regF Reg.URD_PATH_SEL 0 12)
    else if off = 0x128 then some (s.regF Reg.URD_ROUTE_SEL 0 17)
    else if 0x138 ≤ off ∧ off ≤ 0x148 then some (s.regF Reg.URD_PORT_SEL 0 3)
    else if 0x158 ≤ off ∧ off ≤ 0x168 then orNone (decide (lane < 36)) lane
    else some 0
  | 0x10 =>
    let pt := s.regF Reg.SLU_SEL 0 8
    if off = 0x100 ∨ off = 0x108 ∨ off = 0x110 ∨ off = 0x148 then some 0 else orNone (decide (pt < 185)) pt
  | 0x14 => some fn
  | 0x15 => some fn
  | _ => some 0

/-- What a register of a present page reads: its view, or its stored value, staged for an STG field. -/
def State.regNow (s : State) (fn page off : Nat) : U64 :=
  match s.copyOf fn page off with
  | none => 0
  | some k =>
    match s.view page off k with
    | some v => v
    | none => if (regDef? page off).isSome then s.stagedReg (instKey (regKey page off) k) else 0

/-! ### Pages and functions -/

/-- KIND of a page for a function (Tables 18-3 and 18-4): 0 absent, 1 present, 2 view. -/
def pageKind (fn page : Nat) : Nat :=
  if 0x16 ≤ page then 0
  else if fn = 0 ∨ page ≤ 1 ∨ page = 0x14 ∨ page = 0x15 then 1
  else if (3 ≤ page ∧ page ≤ 8) ∨ page = 0x0B then 2
  else 0

/-- The first four characters of a page's prefix, the first in the lowest byte. -/
def pagePrefix (page : Nat) : Nat :=
  match page with
  | 0x00 => 0x20204449
  | 0x01 => 0x2020534E
  | 0x02 => 0x54534F48
  | 0x03 => 0x50454C43
  | 0x04 => 0x20584449
  | 0x05 => 0x48435253
  | 0x06 => 0x52494557
  | 0x07 => 0x434F5045
  | 0x08 => 0x204A5347
  | 0x09 => 0x4C4C4952
  | 0x0A => 0x4E4E5552
  | 0x0B => 0x43534143
  | 0x0C => 0x554F5053
  | 0x0D => 0x204D454D
  | 0x0E => 0x54534943
  | 0x0F => 0x20445255
  | 0x10 => 0x20554C53
  | 0x11 => 0x20434C53
  | 0x12 => 0x2052504B
  | 0x13 => 0x20545352
  | 0x14 => 0x20205148
  | 0x15 => 0x20504944
  | _ => 0

/-- Does a staged field of a page differ from its committed value (PG_STAGE)? -/
def State.pageStaged (s : State) (page : Nat) : Bool := s.staged.any (fun p => keyPage p.1 == page)

/-- The page header (Table 18-4). On an absent page PREFIX and PG_STAGE read 0. -/
def State.header (s : State) (fn page off : Nat) : U64 :=
  let kind := pageKind fn page
  if off = 0 then
    (if kind = 0 then fieldsOf [(0, 16, page)]
      else fieldsOf [(0, 16, page), (16, 8, 1), (24, 2, kind), (32, 32, pagePrefix page)])
  else if off = 8 then s.reg (dropKey fn page)
  else if off = 0x10 then (if kind = 0 then 0 else fieldsOf [(0, 1, b2n (s.pageStaged page))])
  else 0

/-- The slice of an index or a program slot: that of the object where there is one, else that of its committed register. -/
def State.idxSlice (s : State) (i : Nat) : Nat := match s.index? i with
  | some x => x.desc.slice
  | none => s.regF (Reg.IDX_CFG + 0x40 * i) 8 4
def State.progSlice (s : State) (n : Nat) : Nat :=
  if (s.prog n).state ≠ 0 then (s.prog n).slice else s.regF (Reg.POUR_CFG + 0x40 * n) 8 4

/-- Registers of node scope that count events, on the view pages (R465). -/
def countsEvents (page off : Nat) : Bool :=
  match page with
  | 0x03 => off == 0x130
  | 0x05 => decide (0x108 ≤ off ∧ off < 0x1000)
  | 0x06 => decide (0x110 ≤ off ∧ off < 0x1000)
  | 0x07 => decide (0x108 ≤ off ∧ off < 0x1000)
  | 0x08 => decide (0x110 ≤ off ∧ off < 0x1000)
  | 0x0B => off == 0x120 || off == 0x128
  | _ => false

/-- What virtual function `n` reads on a view page (R465). -/
def State.viewRead (s : State) (n page off : Nat) : U64 :=
  let obj := (off - 0x1000) / 0x40
  if countsEvents page off then 0
  else if page = 4 ∧ off = 0x100 then s.readyMask (fun i => s.idxSlice i == n)
  else if page = 0x0B ∧ off = 0x130 then s.progMask (fun i => s.progSlice i == n)
  else if (page = 4 ∨ page = 7) ∧ 0x1000 ≤ off then
    (if s.idxSlice obj = n then s.regNow (n + 1) page off else 0)
  else if page = 0x0B ∧ 0x1000 ≤ off then (if s.progSlice obj = n then s.regNow (n + 1) page off else 0)
  else s.regNow (n + 1) page off

/-- What function `fn` reads at a register of a page, outside bring-up. -/
def State.pageRead (s : State) (fn page off : Nat) : U64 :=
  if off < 0x100 then s.header fn page off
  else match pageKind fn page with
    | 0 => 0
    | 2 => s.viewRead (fn - 1) page off
    | _ => s.regNow fn page off

/-- What the host reads: during bring-up, pages that do not answer read 0 (R483). -/
def State.hostReg (s : State) (fn page off : Nat) : U64 := if s.pageUp page then s.pageRead fn page off else 0

/-- REG_READ: the SMBus command answers the 8 bytes of a register of pages 0x00, 0x01, 0x12 and 0x13, as the physical function
reads it in every phase; other pages read 0 (R514, Table 20-4). -/
def execRegRead (page : Byte) (off : U16) (s : State) : Res :=
  if !s.smbusUp then .next s
  else
    let p := page.toNat
    let v := if p = 0 ∨ p = 1 ∨ p = 0x12 ∨ p = 0x13 then s.pageRead 0 p off.toNat else 0
    .next (s.emit (.smbus (leBytes 8 v.toNat)))

end Sys2Proof.Machine
end

