-- ==== Sys2Proof/Machine/Endpoint.lean ====
section
/-! DEFINITION. The endpoint: which functions host software reaches, the resets of a function, its configuration space, and the MSI-X
table and pending bits of BAR2 (R461 to R463, R478, R482). -/

namespace Sys2Proof.Machine

/-! ### The functions -/

/-- Can the host reach the node at all: has the link trained? -/
def State.linkUp (s : State) : Bool := s.pageUp 0

/-- Can host software reach the memory space of a function: does the link run, is the function the physical one or an enabled virtual
function, and is it in D0 (R461, R463)? -/
def State.fnUp (s : State) (fn : Nat) : Bool :=
  s.linkUp && decide (fn = 0 ∨ fn ≤ s.vfsOn) && !(s.fn fn).cfg.d3

/-- The bits that a write of `n` bytes at an offset of a register reaches, and the bytes in their place. -/
def writeMask (off n : Nat) : U64 := maskOf (8 * (off % 8)) (8 * n)
def writeWord (off : Nat) (bytes : List Byte) : U64 := BitVec.ofNat 64 (leNat bytes <<< (8 * (off % 8)))

/-- Is a write's size and alignment one that the node takes (R467)? -/
def sizeOk (off n : Nat) : Bool := (n == 4 && off % 4 == 0) || (n == 8 && off % 8 == 0)

/-! ### Resets of functions (R482) -/

/-- The state with a function's Dipper set. -/
def State.setDip (s : State) (fn : Nat) (d : Dipper) : State := s.setFn fn { s.fn fn with dip := d }

/-- The Dipper of a function waits for no lower-tier read any more. -/
def State.dipLeaves (s : State) (fn : Nat) : State :=
  s.withReads (s.mem.reads.map (fun (r : LtRead) => { r with waiters := r.waiters.filter (· != .dip fn) }))

/-- The host-port state of one function is reset: queues, Dipper, event registers, MSI-X table, latches, and with them its configuration
space (PRESUMED, log 200). Requests it had
accepted run on, and their responses are discarded and counted. -/
def State.resetFn (s : State) (fn : Nat) : State :=
  let owed := ((s.fn fn).queues.flatMap (fun q => q.2.owed)).filter (fun o => o.rid.isSome)
  let mine := fun (r : Req) => match r.src with
    | .host f _ _ _ _ => f.val == fn
    | .port _ _ => false
  let other := fun (p : Nat × U64) =>
    !((keyPage p.1 == 0x14 || keyPage p.1 == 0x15) && decide (0x100 ≤ keyOff p.1) && keyInst p.1 == fn)
  let orph := fun (p : Nat × Req) => if mine p.2 then (p.1, { p.2 with orphan := true }) else p
  let s0 := s.dipLeaves fn
  let s1 : State := { s0 with host := Store.erase s.host fn, regs := s.regs.filter other, reqs := s.reqs.map orph }
  owed.foldl (fun (t : State) o => (t.dropReq o.rid).discard fn) s1

/-- Every function is reset, and the staged values with the physical function; a commit in progress completes first. -/
def State.resetAllFns (s : State) : State :=
  let s1 := (List.range 17).foldl State.resetFn s
  if s1.commit.busy then { s1 with commit := ⟨true, false, true⟩ } else { s1 with staged := [] }

/-- FUNCTION_LEVEL_RESET: of a virtual function, or of the physical function and with it of every function (R482). -/
def execFunctionLevelReset (fn : Fin 17) (s : State) : Res :=
  .next (if fn = 0 then s.resetAllFns else s.resetFn fn)

/-- HOT_RESET: a hot reset or link-down (R482). -/
def execHotReset (s : State) : Res := .next s.resetAllFns

/-! ### The MSI-X table and pending bits (R462, R478) -/

/-- Vectors of a function (Table 18-1). -/
def vectorCount (fn : Nat) : Nat := if fn = 0 then 17 else 9

/-- A vector's entry of the MSI-X table as its 16 bytes. -/
def Msix.bytes (m : Msix) : List Byte := leBytes 8 m.addr.toNat ++ leBytes 4 m.data.toNat ++ leBytes 4 (b2n m.masked)

/-- A write of bytes to the MSI-X table (Table 18-2): unmasking a vector sends it when it is pending. The pending-bit array is
read-only. -/
def State.writeMsix (s : State) (fn off : Nat) (bytes : List Byte) : State :=
  let v := off / 16
  if !sizeOk off bytes.length ∨ vectorCount fn ≤ v then s
  else
    let h := s.fn fn
    let m := Store.get (fun _ => Msix.reset) h.msix v
    let b := (m.bytes.take (off % 16)) ++ bytes ++ m.bytes.drop (off % 16 + bytes.length)
    let m1 : Msix := ⟨BitVec.ofNat 64 (leAt b 0 8), BitVec.ofNat 32 (leAt b 8 4), byteAt b 12 % 2 == 1, m.pending⟩
    let put := fun (t : State) (x : Msix) =>
      let tbl := Store.put (fun _ => Msix.reset) (t.fn fn).msix v x
      t.setFn fn { t.fn fn with msix := tbl }
    if !m1.masked && m1.pending && h.cfg.sends then (put s { m1 with pending := false }).emit (.msix fn m1.addr m1.data) else put s m1

/-- The vectors that have become sendable are sent: those that are pending and not masked. -/
def State.sendPending (s : State) (fn : Nat) : State :=
  if !(s.fn fn).cfg.sends then s
  else (s.fn fn).msix.foldl (fun (t : State) p =>
    if p.2.masked || !p.2.pending then t
    else
      let tbl := Store.put (fun _ => Msix.reset) (t.fn fn).msix p.1 { p.2 with pending := false }
      (t.setFn fn { t.fn fn with msix := tbl }).emit (.msix fn p.2.addr p.2.data)) s

/-- The 16 KiB of BAR2: the MSI-X table from 0 on and the pending-bit array from 0x2000 on (Table 18-2). -/
def State.bar2 (s : State) (fn : Nat) : List Byte :=
  let h := s.fn fn
  let m := fun v => Store.get (fun _ => Msix.reset) h.msix v
  let pend := (List.range (vectorCount fn)).foldl (fun n v => n + b2n (m v).pending * 2 ^ v) 0
  padTo 0 16384 (padTo 0 0x2000 ((List.range (vectorCount fn)).flatMap (fun v => (m v).bytes)) ++ leBytes 8 pend)

/-! ### Configuration space (R461) -/

/-- A field of a function's configuration space as it reads. -/
def State.readCfg (s : State) (fn : Nat) (f : CfgField) : Nat :=
  let c := (s.fn fn).cfg
  let pf (v : Nat) : Nat := if fn = 0 then v else 0
  match f with
  | .vendor => Config.vendor.toNat
  | .device => if fn = 0 then 0x9600 else 0x9601
  | .classCode => 0x120000
  | .totalVfs => pf 16
  | .firstVf => pf 1
  | .vfStride => pf 1
  | .numVfs => pf c.numVfs
  | .vfEnable => pf (b2n c.vfEnable)
  | .msixSize => vectorCount fn - 1
  | .msixEnable => b2n c.msixEn
  | .msixMask => b2n c.msixMask
  | .payload => c.payload
  | .readReq => c.readReq
  | .relaxed => b2n c.relaxed
  | .power => if c.d3 then 3 else 0

/-- The state with a function's configuration space set; vectors that are sendable now are sent. -/
def State.setCfg (s : State) (fn : Nat) (c : PciCfg) : State := (s.setFn fn { s.fn fn with cfg := c }).sendPending fn

/-- A field of a function's configuration space is written. The number of virtual functions changes only while they are disabled;
disabling them resets each; sizes outside Table 18-1 and power states other than D0 and D3hot are not taken (PRESUMED, log 200). -/
def State.writeCfg (s : State) (fn : Nat) (f : CfgField) (v : Nat) : State :=
  let c := (s.fn fn).cfg
  let on := v % 2 == 1
  match f with
  | .numVfs => if fn = 0 ∧ !c.vfEnable ∧ v ≤ 16 then s.setCfg fn { c with numVfs := v } else s
  | .vfEnable =>
    if fn ≠ 0 ∨ on = c.vfEnable then s
    else
      let s1 := s.setCfg fn { c with vfEnable := on }
      if on then s1 else ((List.range c.numVfs).map (· + 1)).foldl State.resetFn s1
  | .msixEnable => s.setCfg fn { c with msixEn := on }
  | .msixMask => s.setCfg fn { c with msixMask := on }
  | .payload => if v ≤ 2 then s.setCfg fn { c with payload := v } else s
  | .readReq => if v ≤ 5 then s.setCfg fn { c with readReq := v } else s
  | .relaxed => s.setCfg fn { c with relaxed := on }
  | .power => if v % 4 = 0 ∨ v % 4 = 3 then s.setCfg fn { c with d3 := v % 4 == 3 } else s
  | .vendor | .device | .classCode | .totalVfs | .firstVf | .vfStride | .msixSize => s

/-- Does configuration space of a function answer (R483)? -/
def State.cfgUp (s : State) (fn : Nat) : Bool := s.linkUp && decide (fn = 0 ∨ fn ≤ s.vfsOn)

end Sys2Proof.Machine
end

