-- ==== Sys2Proof/Machine/Host.lean ====
section
/-! DEFINITION. The host port: register writes and reads, queue pairs and the Dipper (R467 to R481),
with the writes that request a commit (R471, R472). -/

namespace Sys2Proof.Machine

/-! ### Writes (R467 to R469) -/

/-- The bits under a mask replaced. -/
def merge (old mask new : U64) : U64 := (old &&& ~~~mask) ||| (new &&& mask)

/-- Set a staged value; one that equals the committed value is no longer listed. -/
def State.stage (s : State) (key : Nat) (v : U64) : State :=
  { s with staged := Store.put (fun k => s.reg k) s.staged key v }

/-- What a write of the bits under `mask` leaves of a register by the access types of its fields (Table 18-5). -/
def applyAccess (fs : List RegField) (old mask new : U64) : U64 :=
  let rw := fieldsMask fs (fun f => f.acc == .rw) &&& mask
  let c := fieldsMask fs (fun f => f.acc == .rw1c) &&& mask
  let o := fieldsMask fs (fun f => f.acc == .rw1s) &&& mask
  (merge old rw new &&& ~~~(new &&& c)) ||| (new &&& o)

/-! ### Commit requests (R471, R472) -/

/-- GO: a commit begins, or waits for the one in progress. -/
def State.requestGo (s : State) : State :=
  { s with commit := if s.commit.busy then { s.commit with goNext := true } else { s.commit with busy := true } }

/-- DISCARD: every staged value takes its committed value, at once or when the commit in progress ends. -/
def State.requestDiscard (s : State) : State :=
  if s.commit.busy then { s with commit := { s.commit with discardNext := true } } else { s with staged := [] }

/-- HOST_COMMIT_GO: a write of 1 to GO by the physical function (R471). -/
def execHostCommitGo (s : State) : Res :=
  .next (if s.fnUp 0 then s.pfWrite 0x02 0x100 s.requestGo else s)

/-- HOST_COMMIT_DISCARD: a write of 1 to DISCARD by the physical function (R472). -/
def execHostCommitDiscard (s : State) : Res :=
  .next (if s.fnUp 0 then s.pfWrite 0x02 0x100 s.requestDiscard else s)

/-! ### Queue pairs (R473 to R478) -/

/-- Is a submission entry well formed (R475)? -/
def SqEntry.good (e : SqEntry) : Bool :=
  e.reqAddr.toNat % 8 == 0 && e.respAddr.toNat % 8 == 0 && decide (64 ≤ e.respLen.toNat) && e.rsv == 0

/-- A submission entry of 32 bytes (Table 18-6). -/
def parseSq (bs : List Byte) : SqEntry where
  reqAddr := BitVec.ofNat 64 (leAt bs 0 8)
  reqLen := BitVec.ofNat 32 (leAt bs 8 4)
  respLen := BitVec.ofNat 32 (leAt bs 12 4)
  respAddr := BitVec.ofNat 64 (leAt bs 16 8)
  tag := BitVec.ofNat 32 (leAt bs 24 4)
  rsv := BitVec.ofNat 32 (leAt bs 28 4)

/-- Bytes of a request that are read: all of them, or at most 64 when its length is wrong (R475). -/
def SqEntry.readLen (e : SqEntry) : Nat :=
  let n := e.reqLen.toNat
  if 64 ≤ n ∧ n ≤ 64 + 0x10000000 ∧ n % 8 = 0 then n else min n 64

/-- SQ_HEAD passes an entry. -/
def State.passEntry (s : State) (fn q : Nat) : State :=
  let v := s.queue fn q
  s.setQueue fn q { v with sqHead := (v.sqHead + 1) % 2 ^ v.sqLog2 }

/-- An entry is completed with nothing written but its completion entry: QSTATUS 3 or 4. -/
def State.failEntry (s : State) (fn q : Nat) (e : SqEntry) (qstatus : Nat) : State :=
  (s.passEntry fn q).owe fn q ⟨none, e.tag, e.respAddr, e.respLen, qstatus, 0, [], 0⟩

/-- Take the entries in ring order: malformed ones are completed at once, and the request of the first good one is read. -/
def State.takeEntries (s : State) (fn q : Nat) : List SqEntry → State
  | [] => s.setQueue fn q { s.queue fn q with fetched := [] }
  | e :: es =>
    if e.good then (s.setQueue fn q { s.queue fn q with fetched := e :: es }).emit (.hostRead fn e.reqAddr e.readLen)
    else State.takeEntries (s.failEntry fn q e 4) fn q es

/-- A queue pair stops fetching: ERR, and QERR of the function (R477). The entry being read is still admitted. -/
def State.queueError (s : State) (fn q : Nat) : State :=
  let v := s.queue fn q
  (s.setQueue fn q { v with
    err := true
    fetched := v.fetched.take 1 }).hqEvent fn 2

/-- Does a function have queue pair `q`, and is its page up? -/
def State.hasQueue (s : State) (fn q : Nat) : Bool := s.pageUp 0x14 && decide (q < queueCount fn)

/-- Distance on a ring. -/
def ringDist (size a b : Nat) : Nat := (b + size - a) % size

/-- `n` free bytes. -/
def State.freeBytes (s : State) (n : Nat) : List Byte × State :=
  ((List.range n).map (fun i => Config.freeValue 8 (s.free + i)), { s with free := s.free + n })

/-- `n` submission entries as they come from host memory, each of the bytes given for it and free bytes where none are given. -/
def State.readEntries (s : State) : Nat → List (List Byte) → List SqEntry × State
  | 0, _ => ([], s)
  | n + 1, given =>
    let b := (given.headD []).take 32
    let f := s.freeBytes (32 - b.length)
    let r := State.readEntries f.2 n given.tail
    (parseSq (b ++ f.1) :: r.1, r.2)

/-- The reads of `n` entries of a submission ring from the index `start` on (R473, R474). -/
def Queue.ringReads (v : Queue) (fn start n : Nat) : List Out :=
  (List.range n).map (fun i => .hostRead fn (v.sqBase + BitVec.ofNat 64 (32 * ((start + i) % 2 ^ v.sqLog2))) 32)

/-- SQ_TAIL_DOORBELL: the node holds the new tail and takes the entries up to it (R475, R477). `entries` are the
bytes that host memory holds there, entry by entry in ring order: entries past the tail are not read, and bytes not given are free
(DESIGN CHOICE, log 60). -/
def execSqTailDoorbell (fn : Fin 17) (q : Fin 16) (tail : U32) (entries : List (List Byte)) (s : State) : Res :=
  let v := s.queue fn q
  let size := 2 ^ v.sqLog2
  let t := tail.toNat % 65536
  if !s.fnUp fn then .next s
  else if !s.hasQueue fn q then .next (s.dropWrite fn 0x14 (0x2000 + 16 * q.val))
  else if !v.sqEn then .next s
  else if size ≤ t ∨ ringDist size v.sqHead t < ringDist size v.sqHead v.sqTail then .next (s.queueError fn q)
  else
    let s1 := s.setQueue fn q { v with sqTail := t }
    let n := ringDist size v.sqTail t
    let f := (s1.emits (v.ringReads fn v.sqTail n)).readEntries n entries
    if v.err then .next s1
    else if v.fetched.isEmpty then .next (f.2.takeEntries fn q f.1)
    else .next (f.2.setQueue fn q { f.2.queue fn q with fetched := v.fetched ++ f.1 })

/-- HOST_REQUEST_FETCH: the bytes of the entry being read arrive, none when the read fails; SQ_HEAD passes it and the request
is admitted or answered BUSY (R475). Of more bytes the first are read, and bytes not given are free (DESIGN CHOICE, log 60). -/
def execHostRequestFetch (fn : Fin 17) (q : Fin 16) (data : Option (List Byte)) (s : State) : Res :=
  let v := s.queue fn q
  match v.fetched with
  | [] => .next s
  | e :: es =>
    match data with
    | none =>
      let s1 := s.failEntry fn q e 3
      .next (s1.takeEntries fn q es)
    | some given =>
      let f := s.freeBytes (e.readLen - given.length)
      let bs := given.take e.readLen ++ f.1
      let s1 := (f.2.passEntry fn q).fireDue
      let s2 := s1.offer (byteAt bs 0) (parseHdr (padTo 0 64 bs)) (bs.drop 64) (.host fn q e.tag e.respAddr e.respLen)
        e.reqLen.toNat
      .next (s2.takeEntries fn q es)

/-- CQ_HEAD_DOORBELL: host software has consumed the entries up to the new head, and owed completions are written (R476, R477).
A head equal to the one held frees the whole ring when it is full, and entries that the node has not written are not counted
(DESIGN CHOICE, log 55). -/
def execCqHeadDoorbell (fn : Fin 17) (q : Fin 16) (head : U32) (s : State) : Res :=
  let v := s.queue fn q
  let size := 2 ^ v.cqLog2
  let h := head.toNat % 65536
  if !s.fnUp fn then .next s
  else if !s.hasQueue fn q then .next (s.dropWrite fn 0x14 (0x2008 + 16 * q.val))
  else if !v.cqEn then .next s
  else if size ≤ h then .next (s.queueError fn q)
  else
    let d := ringDist size v.cqHead h
    let n := if d = 0 ∧ v.full then size else d
    .next ((s.setQueue fn q { v with
      cqHead := h
      cqCount := v.cqCount - n }).flushCq fn q)

/-- MSIX_COALESCE_TIMEOUT: COAL_US after the first unannounced entry the CQ's vector is sent (R478). Before that time nothing
happens. -/
def execMsixCoalesceTimeout (fn : Fin 17) (q : Fin 16) (s : State) : Res :=
  let v := s.queue fn q
  if v.cqEn ∧ v.intEn ∧ 0 < v.unannounced ∧ v.annFrom + 100 * v.coalUs ≤ s.tick then
    .next ((s.setQueue fn q { v with unannounced := 0 }).sendVector fn (q.val + 1))
  else .next s

/-- Owed completions of a queue whose CQ is disabled are discarded (R477). -/
def State.discardOwed (s : State) (fn q : Nat) : State :=
  let v := s.queue fn q
  v.owed.foldl (fun (t : State) o => (t.dropReq o.rid).discard fn)
    (s.setQueue fn q { v with
      owed := []
      inflight := v.inflight - (v.owed.filter (fun o => o.rid.isSome)).length })

/-- LOG2 as it is stored: 4 to 16, other values as 4 (Table 18-12). -/
def storedLog2 (n : Nat) : Nat := if 4 ≤ n ∧ n ≤ 16 then n else 4

/-- A write of HQ_SQ_CFG with value `w`: none when it is dropped (R473). -/
def State.writeSqCfg (s : State) (fn q : Nat) (w : U64) : Option State :=
  let v := s.queue fn q
  let en := bit w 0
  let l := storedLog2 (field w 1 5)
  if en && v.sqEn then (if l = v.sqLog2 then some s else none)
  else if en then some (s.setQueue fn q { v with
    sqEn := true
    sqLog2 := l
    sqHead := 0
    sqTail := 0
    err := false
    fetched := [] })
  else some (s.setQueue fn q { v with
    sqEn := false
    sqLog2 := l
    err := false
    fetched := v.fetched.take 1 })

/-- A write of HQ_CQ_CFG with value `w`: none when it is dropped (R473). -/
def State.writeCqCfg (s : State) (fn q : Nat) (w : U64) : Option State :=
  let v := s.queue fn q
  let en := bit w 0
  let l := storedLog2 (field w 1 5)
  let v1 := { v with
    intEn := bit w 6
    coalN := field w 8 8
    coalUs := field w 16 16 }
  if en && v.cqEn then (if l = v.cqLog2 then some (s.setQueue fn q v1) else none)
  else if en then some (s.setQueue fn q { v1 with
    cqEn := true
    cqLog2 := l
    cqHead := 0
    cqTail := 0
    cqCount := 0
    cqPhase := true
    unannounced := 0 })
  else some ((s.setQueue fn q { v1 with
    cqEn := false
    cqLog2 := l }).discardOwed fn q)

/-- A write of a ring base: dropped while its queue is enabled; bits [11:0] read 0 (R473). -/
def State.writeBase (s : State) (fn q : Nat) (cq : Bool) (w : U64) : Option State :=
  let v := s.queue fn q
  let a := setField w 0 12 0
  if cq then (if v.cqEn then none else some (s.setQueue fn q { v with cqBase := a }))
  else if v.sqEn then none else some (s.setQueue fn q { v with sqBase := a })

/-- A write that reaches a queue register of a function with the register's new value. -/
def State.writeQueue (s : State) (fn off : Nat) (w : U64) : Option State :=
  let q := (off - 0x1000) / 0x40
  if queueCount fn ≤ q then none
  else match off % 0x40 with
    | 0x00 => s.writeBase fn q false w
    | 0x08 => s.writeSqCfg fn q w
    | 0x10 => s.writeBase fn q true w
    | 0x18 => s.writeCqCfg fn q w
    | _ => none

/-! ### The Dipper (R479 to R481) -/

/-- Bytes of the retirement record's target: its header and room for 8,192 entries. -/
def recordSpan : Nat := 64 + 16 * 8192

/-- Is an access to an address of a target open to a function (Table 18-8)? -/
def State.dipOpen (s : State) (fn target : Nat) (addr : U64) (write : Bool) : Bool :=
  let a := addr.toNat
  let region := a / 281474976710656
  let i := if region < 0x30 then region - 0x10 else region - 0x30
  match target with
  | 0 => !write && regionUsed region && (fn == 0 ||
      (decide (0x10 ≤ region) && (match s.index? i with
        | some x => x.desc.slice + 1 == fn
        | none => false)))
  | 1 => fn == 0 && decide (a < 0x8000)
  | 2 => fn == 0 && decide (a < 0x100000)
  | 3 => fn == 0 && !write && decide (a < 0x400000)
  | 4 => fn == 0 && !write && decide (a < recordSpan)
  | _ => false

/-- The first address of the 8 KiB block of an address. -/
def blockOf (addr : U64) : U64 := setField addr 0 13 0

/-- Block arrays that have been demoted and lie in part in the 8 KiB from a range address on, as index and handle. -/
def State.demotedIn (s : State) (a : Nat) : List (Nat × Nat) :=
  s.mem.demoted.filter (fun p => match s.index? p.1 with
    | some x => (match Store.find? x.arrs p.2 with
      | some r => let b := x.arrAddr p.1 p.2
                  decide (b < a + 8192 ∧ a < b + r.bytes x.desc.width)
      | none => false)
    | none => false)

/-- A fill of the memory range names what lies below HBM: a page that has no translation is an error, and a flash-homed page or a
demoted array is read from the lower tier for the slice of its index (R350, R361, R480). -/
def State.nameFill (s : State) (fn : Nat) : State :=
  let d := (s.fn fn).dip
  let a := (blockOf d.addr).toNat
  let r := addrRegion a
  if regionFlash r then
    let slice := match s.index? ((r - 16) % 32) with
      | some x => x.desc.slice
      | none => 0
    if !s.pageMapped (homePage d.addr.toNat) then s.nameError (.dip fn) none
    else s.namePages slice (.dip fn) ([homePage a, homePage a + 1].filter s.pageMapped)
  else if r = 0 ∧ addrOffset a < 65536 then s.nameError (.dip fn) none
  else (s.demotedIn a).foldl (fun (t : State) p => t.nameArray p.1 p.2 (.dip fn)) s

/-- A fill of the block of DIP_ADDR starts: READY is cleared (R480). A block that is not open is not filled (log 44). A fill
that was running is dropped. -/
def State.startFill (s : State) (fn : Nat) : State :=
  let d := (s.fn fn).dip
  let go := s.dipOpen fn d.target (blockOf d.addr) false
  let s1 := (s.dipLeaves fn).setDip fn { d with
    ready := false
    buffer := []
    filling := go
    since := s.tick }
  if go ∧ d.target = 0 then s1.nameFill fn else s1

/-- An access failed: ERR with BAD_DESCRIPTOR (R479). -/
def State.dipError (s : State) (fn code : Nat) : State :=
  s.setDip fn { (s.fn fn).dip with
    err := true
    errCode := code }

/-- DIP_ADDR moves; a move into another block starts a fill (R480). -/
def State.dipMove (s : State) (fn : Nat) (addr : U64) : State :=
  let d := (s.fn fn).dip
  let s1 := s.setDip fn { d with addr := setField addr 0 3 0 }
  if blockOf addr = blockOf d.addr then s1 else s1.startFill fn

/-- Key of the table entry at an address of target 1 or 2. -/
def tableKey (target addr : Nat) : Nat :=
  if target = 1 then instKey Reg.URD_PATH_DATA (addr / 8)
  else instKey Reg.URD_ROUTE_DATA (addr / 0x8000 + 32 * (addr % 0x8000 / 8))

/-- The 8 KiB of a block of targets 1 to 4 as they stand: table entries as they are staged, the event log with free bytes where
it holds no entry, and the retirement record with zeros after its last entry (R481, R528). -/
def State.blockBytes (s : State) (target : Nat) (addr : Nat) : List Byte :=
  match target with
  | 1 | 2 => (List.range 1024).flatMap (fun j => leBytes 8 (s.stagedReg (tableKey target (addr + 8 * j))).toNat)
  | 3 => (List.range 256).flatMap (fun j =>
      match s.keeper.log.find? (fun e => e.seq.toNat % 131072 == addr / 32 + j) with
      | some e => e.bytes
      | none => leBytes 32 (Config.freeValue 256 (s.free + j)).toNat)
  | 4 => padTo 0 8192 ((recordBytes s.record).drop addr)
  | _ => zeroBytes 8192

/-- DIP_FILL_START: a write of DIP_CTRL or DIP_ADDR starts a fill (R480); a write elsewhere is no such write and is dropped. -/
def execDipFillStart (fn : Fin 17) (off : Nat) (val : U64) (s : State) : Res :=
  let d := (s.fn fn).dip
  if !s.fnUp fn then .next s
  else if !s.pageUp 0x15 then .next (s.dropWrite fn 0x15 off)
  else if off = 0x100 then .next ((s.setDip fn { d with
    target := field val 0 4
    auto := bit val 4 }).startFill fn)
  else if off = 0x108 then .next ((s.setDip fn { d with addr := setField val 0 3 0 }).startFill fn)
  else .next (s.dropWrite fn 0x15 (off % 16384))

/-- The 8 KiB of the memory range from an address on as a fill reads them: the bytes that the state holds stand, and the others are
those that came (R101, R481). -/
def State.rangeBlock (s : State) (a : Nat) (bs : List Byte) : List Byte :=
  List.zipWith (fun j b => (s.rangeByte (a + j)).getD b) (List.range 8192) (padTo 0 8192 bs)

/-- DIP_FILL_DONE: the fill ends, once what it waited for is resident. Of the memory range the operand brings the bytes that the state
does not hold, and a fill that fails sets ERR with the status that the read would give a request (R480). -/
def execDipFillDone (fn : Fin 17) (data : Option (List Byte)) (code : Byte) (s : State) : Res :=
  let d := (s.fn fn).dip
  if !d.filling ∨ s.readsFor (.dip fn) = true then .next s
  else if d.target = 0 then
    match data with
    | some bs => .next (s.setDip fn { d with
        filling := false
        ready := true
        buffer := s.rangeBlock (blockOf d.addr).toNat bs })
    | none => .next ((s.setDip fn { d with filling := false }).dipError fn code.toNat)
  else
    let bytes := s.blockBytes d.target (blockOf d.addr).toNat
    let s1 := s.setDip fn { d with
      filling := false
      ready := true
      buffer := bytes }
    .next (if d.target = 3 then { s1 with free := s1.free + 256 } else s1)

/-- 10 ms in drops. -/
def dipLate : Nat := 1000000

/-- DIP_FILL_LATE: a fill of the memory range that has not completed within 10 ms sets ERR with TIER_LATE (R480). Before that time
nothing happens. -/
def execDipFillLate (fn : Fin 17) (s : State) : Res :=
  let d := (s.fn fn).dip
  if d.filling ∧ d.target = 0 ∧ d.since + dipLate ≤ s.tick then .next (((s.dipLeaves fn).setDip fn { d with filling := false }).dipError fn stTierLate)
  else .next s

/-- A read while READY is 0 (R480). -/
def State.dipNotReady (s : State) (fn : Nat) : State :=
  let d := (s.fn fn).dip
  s.setDip fn { d with notReady := satAdd 32 d.notReady 1 }

/-- A read of DIP_DATA: the 8 bytes at DIP_ADDR, 0 while READY is 0, or 0 with ERR outside the target; under AUTO a read that
returned data advances DIP_ADDR by 8 (R479, R480). -/
def State.readDip (s : State) (fn : Nat) : List Byte × State :=
  let d := (s.fn fn).dip
  if !s.pageUp 0x15 then (zeroBytes 8, s)
  else if !s.dipOpen fn d.target d.addr false then (zeroBytes 8, s.dipError fn stBadDescriptor)
  else if !d.ready then (zeroBytes 8, s.dipNotReady fn)
  else (padTo 0 8 (d.buffer.drop (d.addr.toNat % 8192)), if d.auto then s.dipMove fn (d.addr + 8) else s)

/-- DIP_DATA_READ: a read of DIP_DATA (R480). -/
def execDipDataRead (fn : Fin 17) (s : State) : Res :=
  let r := s.readDip fn
  if !s.fnUp fn then .next s else .next (r.2.emit (.dipData fn r.1))

/-- A read of `n` bytes of DIP_BURST at a window offset: bytes of the block; under AUTO a read of the last 8 bytes that returned data
advances DIP_ADDR by 0x2000 (R480). -/
def State.readBurst (s : State) (fn off n : Nat) : List Byte × State :=
  let d := (s.fn fn).dip
  if !s.pageUp 0x15 ∨ 8192 ≤ off then (zeroBytes n, s)
  else if !s.dipOpen fn d.target (blockOf d.addr + BitVec.ofNat 64 off) false then (zeroBytes n, s.dipError fn stBadDescriptor)
  else if !d.ready then (zeroBytes n, s.dipNotReady fn)
  else (padTo 0 n (d.buffer.drop off),
    if d.auto ∧ off ≤ 0x1FF8 ∧ 8192 ≤ off + n then s.dipMove fn (d.addr + 8192) else s)

/-- DIP_BURST_READ: a read of bytes of the DIP_BURST window (R480). -/
def execDipBurstRead (fn : Fin 17) (off : Nat) (len : Nat) (s : State) : Res :=
  let r := s.readBurst fn off (min len (8192 - off))
  if !s.fnUp fn then .next s else .next (r.2.emit (.dipData fn r.1))

/-- Stage bytes of a table entry: those on its fields count, and the others are ignored. -/
def State.stageEntry (s : State) (key off : Nat) (bytes : List Byte) : State :=
  let m := writeMask off bytes.length &&& accMask key [.stg]
  s.stage key (merge (s.stagedReg key) m (writeWord off bytes))

/-- A write of bytes `off` and up of DIP_DATA: those bytes of the entry at DIP_ADDR are staged; a write while BUSY is 1 is dropped;
under AUTO DIP_ADDR advances by 8 (R467, R468, R479, R480). -/
def State.writeDip (s : State) (fn off : Nat) (bytes : List Byte) : State :=
  let d := (s.fn fn).dip
  if !s.pageUp 0x15 then s.dropWrite fn 0x15 (0x118 + off)
  else if !s.dipOpen fn d.target d.addr true then s.dipError fn stBadDescriptor
  else if s.commit.busy then s.dropWrite fn 0x15 (0x118 + off)
  else
    let s1 := s.stageEntry (tableKey d.target d.addr.toNat) off bytes
    if d.auto then s1.dipMove fn (d.addr + 8) else s1

/-- DIP_DATA_WRITE: a write of DIP_DATA (R479, R480). -/
def execDipDataWrite (fn : Fin 17) (val : U64) (s : State) : Res :=
  if !s.fnUp fn then .next s else .next (s.writeDip fn 0 (leBytes 8 val.toNat))

/-- DIP_BURST_WRITE: the entry of the block at a window offset is staged in the bytes written (R479). A write that is not an aligned one of
4 or 8 bytes in the window is dropped (R467). -/
def execDipBurstWrite (fn : Fin 17) (off : Nat) (bytes : List Byte) (s : State) : Res :=
  let d := (s.fn fn).dip
  let a := blockOf d.addr + BitVec.ofNat 64 off
  if !s.fnUp fn then .next s
  else if !s.pageUp 0x15 ∨ !sizeOk off bytes.length ∨ 8192 ≤ off then
    .next (s.dropWrite fn 0x15 (0x2000 + off % 8192))
  else if !s.dipOpen fn d.target a true then .next (s.dipError fn stBadDescriptor)
  else if s.commit.busy then .next (s.dropWrite fn 0x15 (0x2000 + off))
  else .next (s.stageEntry (tableKey d.target a.toNat) (off % 8) bytes)

/-! ### Register writes (R467 to R470) -/

/-- Keys that an STG write reaches: the selected copy, or with SLU_SEL.ALL every point of its row of Table 16-1. -/
def State.stgKeys (s : State) (page off k : Nat) : List Nat :=
  if page = 0x10 ∧ bit (s.reg Reg.SLU_SEL) 8 ∧ off ≠ 0x108 ∧ off ≠ 0x110 then
    ((List.range 185).filter (fun p => pointKind p == pointKind k)).map (instKey (regKey page off))
  else [instKey (regKey page off) k]

/-- A write of the bits under `mask` reaches the fields of a register, by its access types. -/
def State.storeReg (s : State) (key : Nat) (d : RegDef) (mask new : U64) : State :=
  s.setReg key (applyAccess d.fields (s.reg key) mask new)

/-- HQ_EVENT_EN is written: an enable bit that goes from 0 to 1 while its event stands sends vector 0 (R478). -/
def State.writeEventEn (s : State) (fn : Nat) (d : RegDef) (mask new : U64) : State :=
  let k := instKey Reg.HQ_EVENT_EN fn
  let s1 := s.storeReg k d mask new
  if s1.reg k &&& ~~~(s.reg k) &&& s.reg (instKey Reg.HQ_EVENT fn) = 0 then s1 else s1.sendVector fn 0

/-- The state a command leaves when it answers a next state. -/
def stateOr (s : State) (r : Res) : State := match r with
  | .next t => t
  | _ => s

/-- URD_PORT_CTRL is written: DISABLE takes its port down, or lets it train again; RETRAIN acts as its own command. -/
def State.writePortCtrl (s : State) (p : Nat) (mask new : U64) : State :=
  let k := instKey Reg.URD_PORT_CTRL p
  let old := bit (s.reg k) 1
  let s1 := if bit mask 1 then s.setRegF k 1 1 (b2n (bit new 1)) else s
  let now := bit (s1.reg k) 1
  let s2 := if now && !old then s1.portDown p
    else if old && !now && s1.mayTrain p then s1.startTraining p else s1
  if bit mask 0 && bit new 0 then stateOr s2 (execPortRetrain s2) else s2

/-- Writes whose fields act at once: HOST_COMMIT, MEM_INJECT, the Urdun controls, RST_CTRL and RST_INJECT, and the enable bits
of events. -/
def State.writeAction (s : State) (fn page off k : Nat) (d : RegDef) (mask new : U64) : State :=
  let w := new &&& mask
  let key := instKey (regKey page off) k
  if key = Reg.HOST_COMMIT then (if bit w 1 then s.requestDiscard else if bit w 0 then s.requestGo else s)
  else if page = 0x0D ∧ off = 0x128 then
    (s.storeReg Reg.MEM_INJECT d (mask &&& 1) new).storeReg (instKey Reg.MEM_INJECT k) d (mask &&& 2) new
  else if page = 0x0F ∧ off = 0x148 then s.writePortCtrl k mask new
  else if page = 0x0F ∧ off = 0x158 then (if bit w 16 then stateOr s (execSpareReq s) else s)
  else if page = 0x0F ∧ off = 0x170 then
    let s1 := if bit w 1 then stateOr s (execInjectUrdCrc s) else s
    if bit w 0 then stateOr s1 (execInjectLaneLos s1) else s1
  else if key = Reg.RST_CTRL then
    let s1 := if bit w 0 then stateOr s (execRestartBasin 0 s) else s
    if bit w 1 then stateOr s1 (execRestartBasin 1 s1) else s1
  else if key = Reg.RST_INJECT then
    let s1 := if bit w 0 then stateOr s (execInjectHang 0 s) else s
    if bit w 1 then stateOr s1 (execInjectHang 1 s1) else s1
  else if page = 0x14 ∧ off = 0x108 then s.writeEventEn fn d mask new
  else s.storeReg key d mask new

/-- A write of the bits under `mask` to a register of a page that the function has: none when it is dropped (R468). -/
def State.writeReg (s : State) (fn page off : Nat) (mask new : U64) : Option State :=
  match regDef? page off, s.copyOf fn page off with
  | some d, some k =>
    let reach := fieldsMask d.fields (fun f => f.acc != .ro && f.acc != .ros) &&& mask
    let stg := fieldsMask d.fields (fun f => f.acc == .stg) &&& mask
    if reach = 0 then none
    else if stg ≠ 0 then
      (if s.commit.busy then none
        else some ((s.stgKeys page off k).foldl (fun (t : State) key => t.stage key (merge (t.stagedReg key) stg new)) s))
    else if page = 0x14 ∧ 0x1000 ≤ off then s.writeQueue fn off (merge (s.regNow fn page off) mask new)
    else if page = 0x15 ∧ off = 0x110 then
      (if bit (new &&& mask) 1 then some (s.setDip fn { (s.fn fn).dip with err := false }) else some s)
    else some (s.writeAction fn page off k d reach new)
  | _, _ => none

/-- A write of bytes at an offset of a register page by a function (R467, R468). -/
def State.hostWrite (s : State) (fn page off : Nat) (bytes : List Byte) : State :=
  let r := off - off % 8
  if pageKind fn page ≠ 1 ∨ off < 0x100 ∨ !sizeOk off bytes.length ∨ !s.pageUp page then s.dropWrite fn page off
  else match s.writeReg fn page r (writeMask off bytes.length) (writeWord off bytes) with
    | some t => t
    | none => s.dropWrite fn page off

/-- Bytes written to a register at an offset of it, in the value that it held (R467). -/
def writtenOver (old : U64) (off : Nat) (bytes : List Byte) : U64 := merge old (writeMask off bytes.length) (writeWord off bytes)

/-- The value of DIP_CTRL. -/
def Dipper.ctrl (d : Dipper) : U64 := setField (setField 0 0 4 d.target) 4 1 (b2n d.auto)

/-- The rows that a write of a register with effects of its own stands for: doorbells and the Dipper, whose registers take a 32-bit
write as one of the bytes that it reaches (R467). -/
def execOwnRow (fn : Fin 17) (page off : Nat) (bytes : List Byte) (s : State) : Option Res :=
  let d := (s.fn fn).dip
  let val := BitVec.ofNat 64 (leNat bytes)
  let q : Fin 16 := ⟨(off - 0x2000) / 16 % 16, Nat.mod_lt _ (by decide)⟩
  if page = 0x14 ∧ 0x2000 ≤ off ∧ off < 0x2100 ∧ off % 16 = 0 then
    some (execSqTailDoorbell fn q (BitVec.ofNat 32 val.toNat) [] s)
  else if page = 0x14 ∧ 0x2000 ≤ off ∧ off < 0x2100 ∧ off % 16 = 8 then
    some (execCqHeadDoorbell fn q (BitVec.ofNat 32 val.toNat) s)
  else if page = 0x15 ∧ off = 0x100 then some (execDipFillStart fn off (writtenOver d.ctrl off bytes) s)
  else if page = 0x15 ∧ (off = 0x108 ∨ off = 0x10C) then some (execDipFillStart fn 0x108 (writtenOver d.addr off bytes) s)
  else if page = 0x15 ∧ (off = 0x118 ∨ off = 0x11C) then some (.next (s.writeDip fn (off % 8) bytes))
  else if page = 0x15 ∧ 0x2000 ≤ off ∧ off < 0x4000 then some (execDipBurstWrite fn (off - 0x2000) bytes s)
  else none

/-- A write of bytes to BAR0 of a function. A register that has a row of its own acts as that row; else the fields' access types say what
the write does, or it is dropped (R467, R468). -/
def execBar0Write (fn : Fin 17) (page : Fin 64) (o : Nat) (bytes : List Byte) (s : State) : Res :=
  match (if pageKind fn page = 1 ∧ sizeOk o bytes.length then execOwnRow fn page o bytes s else none) with
  | some r => r
  | none => .next (s.hostWrite fn page o bytes)

/-- REGISTER_WRITE: a write to a register page of BAR0, to BAR2, where the MSI-X table takes it, or to configuration space (R462, R467,
R468). -/
def execRegisterWrite (fn : Fin 17) (space : Space) (page : Fin 64) (off : Nat) (bytes : List Byte) (s : State) : Res :=
  let o := off % 16384
  match space with
  | .config f => .next (if s.cfgUp fn then s.writeCfg fn f (leNat bytes) else s)
  | .bar2 => .next (if s.fnUp fn then s.writeMsix fn o bytes else s)
  | .bar0 => if s.fnUp fn then execBar0Write fn page o bytes s else .next s

/-- QUEUE_CONFIG_WRITE: a 64-bit write of HQ_SQ_CFG or HQ_CQ_CFG, or of another register of the function (R473). -/
def execQueueConfigWrite (fn : Fin 17) (page : Fin 64) (off : Nat) (val : U64) (s : State) : Res :=
  if s.fnUp fn then execBar0Write fn page (off % 16384) (leBytes 8 val.toNat) s else .next s

/-! ### Register reads (R467) -/

/-- A read of the register at an offset of a page: its value, and the state that the read leaves. DIP_DATA and the DIP_BURST window
read the fill buffer, and the other reads change nothing (R467, R480). -/
def State.readAt (s : State) (fn page r : Nat) : U64 × State :=
  let d := if page = 0x15 ∧ r = 0x118 then s.readDip fn
    else if page = 0x15 ∧ 0x2000 ≤ r then s.readBurst fn (r - 0x2000) 8
    else (leBytes 8 (s.hostReg fn page r).toNat, s)
  (BitVec.ofNat 64 (leNat d.1), d.2)

/-- An aligned 32-bit read: of bytes 0 to 3 it latches bytes 4 to 7 for the function; of bytes 4 to 7 of the latched register it returns
the latched bytes, with which nothing is read again (R467, log 161). -/
def State.readHalf (s : State) (fn page o : Nat) : State :=
  let r := o - o % 8
  let v := s.readAt fn page r
  let h := v.2.fn fn
  if o % 8 = 0 then
    (v.2.setFn fn { h with latch := some (regKey page r, BitVec.ofNat 32 (field v.1 32 32)) }).emit
      (.regData fn (BitVec.ofNat 64 (field v.1 0 32)))
  else
    let live := v.2.emit (.regData fn (BitVec.ofNat 64 (field v.1 32 32)))
    match h.latch with
    | some (k, w) => if k = regKey page r then s.emit (.regData fn (BitVec.ofNat 64 w.toNat)) else live
    | none => live

/-- The registers of a page from an offset on, `n` of them, read one after another: their bytes, and the state that the reads leave. -/
def State.readRegs (s : State) (fn page r : Nat) : Nat → List Byte × State
  | 0 => ([], s)
  | n + 1 =>
    let v := s.readAt fn page r
    let w := State.readRegs v.2 fn page (r + 8) n
    (leBytes 8 v.1.toNat ++ w.1, w.2)

/-- A read of BAR0 of another size or alignment than a register's returns the bytes that it addresses (R467). -/
def State.readOdd (s : State) (fn page o n : Nat) : State :=
  let v := if page = 0x15 ∧ 0x2000 ≤ o then s.readBurst fn (o - 0x2000) n
    else
      let w := s.readRegs fn page (o - o % 8) ((o % 8 + n + 7) / 8)
      ((w.1.drop (o % 8)).take n, w.2)
  v.2.emit (.readData fn v.1)

/-- A read of `n` bytes of a page of BAR0 (R467): 64-bit reads are live. -/
def State.bar0Read (s : State) (fn page o n : Nat) : State :=
  if n = 4 ∧ o % 4 = 0 then s.readHalf fn page o
  else if n = 8 ∧ o % 8 = 0 then
    let v := s.readAt fn page o
    v.2.emit (.regData fn v.1)
  else s.readOdd fn page o (min n (16384 - o))

/-- REG_READ_LATCH: a read, 32-bit ones with the latch, of a register page, of BAR2 or of configuration space (R462, R467). -/
def execRegReadLatch (fn : Fin 17) (place : ReadPlace) (bytes : ReadBytes) (s : State) : Res :=
  let o := bytes.off % 16384
  match place.space with
  | .config f => .next (if s.cfgUp fn then s.emit (.readData fn (leBytes 4 (s.readCfg fn f))) else s)
  | .bar2 => .next (if s.fnUp fn then s.emit (.readData fn (((s.bar2 fn).drop o).take bytes.len)) else s)
  | .bar0 => .next (if s.fnUp fn then s.bar0Read fn place.page o bytes.len else s)

end Sys2Proof.Machine
end

