-- ==== Sys2Proof/Machine/Commit.lean ====
section
/-! DEFINITION. The end of a commit (R471, R472): the refusal and its record (R455, R457), and what an accepted commit installs,
creates, loads, formats and stages (R121, R125, R306, R307, R397, R434, R444, R535, R537). -/

namespace Sys2Proof.Machine

/-! ### A refused commit -/

/-- SLC_COMMIT_RESULT and SLC_COMMIT_INST set to a result. -/
def State.setResult (s : State) (result inst : List (Nat × Nat × Nat)) : State :=
  (s.setReg Reg.SLC_COMMIT_RESULT (fieldsOf result)).setReg Reg.SLC_COMMIT_INST (fieldsOf inst)

/-- The object's own LAST_ERR takes the reason of a page's own check (Table 17-8); reason 0x07 goes to every index that the
commit creates (R121). A takeover time that is too near is a refused slot (R40; DEDUCED, log 136). -/
def State.noteLastErr (s : State) (f : OwnFail) : State :=
  if f.page = 4 then
    (if f.reason = 7 then s.creating.foldl (fun (t : State) i => t.setIdxErr i 7) s else s.setIdxErr f.inst f.reason)
  else if f.page = 0x0B ∧ 0x1000 ≤ f.off then s.setProg f.inst { s.prog f.inst with lastErr := f.reason }
  else if f.page = 0x0E ∧ f.off = keyOff Reg.CIST_FMT then { s with cist := { s.cist with lastErr := f.reason } }
  else if f.page = 0x10 then
    let s1 := s.setPoint f.inst { s.point f.inst with lastErr := f.reason }
    if f.reason = 3 then s1.setRegF Reg.CLEP_EVENT 9 1 1 else s1
  else if f.page = 0x12 ∧ keyOff Reg.KPR_FW_CFG ≤ f.off ∧ f.off < keyOff Reg.KPR_FW_STATUS then
    s.withKeeper { s.keeper with fwErr := f.reason }
  else s

/-- A refusal by a page's own check is recorded: STATUS 0x50, KIND 0 (R455). -/
def State.refuseOwn (s : State) (f : OwnFail) : State :=
  (s.setResult [(0, 8, stConflict), (16, 16, f.page)] [(0, 16, f.inst), (32, 16, f.off), (48, 8, f.reason)]).noteLastErr f

/-- A refusal by a shared resource is recorded: KIND 1, the pool and its two features (R457). Where no claim rises, FEAT_A is
a free value, and FEAT_B leaves it out. -/
def State.refusePool (s : State) (p : PoolFail) : State :=
  let fr := s.takeFree 24
  let a := match p.featA with
    | some c => c
    | none => (field (fr.1.setWidth 64) 0 8, field (fr.1.setWidth 64) 8 16)
  let s1 := if p.featA.isSome then s else fr.2
  let b := p.featB a
  s1.setResult [(0, 8, stConflict), (8, 1, 1), (32, 8, a.1), (40, 8, b.1), (48, 8, p.pool)] [(0, 16, a.2), (16, 16, b.2)]

/-- ACTION fields and CIST_FMT.KEY return to 0; the other staged values stay as written (R471). -/
def State.clearActions (s : State) : State :=
  s.staged.foldl (fun (t : State) p => t.stage p.1 (dropAction p.1 p.2)) s

/-! ### What an accepted commit does -/

/-- A commit draws the lowest free event slot (R41). -/
def State.drawSlot (s : State) (kind : SlotKind) (owner : Nat) (t : Time) (armed : Bool) : State × Nat :=
  let n := s.freeSlots.headD 64
  (s.setSlot n { EvSlot.none with kind := kind, time := t, armed := armed, owner := owner }, n)

/-- An index is created: STATE 1, its load starts, and a flip slot is reserved to it, disarmed (R121, R195). -/
def State.createIndex (s : State) (i : Nat) (d : IdxDesc) : State :=
  let dr := s.drawSlot .epochFlip i 0 false
  dr.1.setIndex i { desc := d, state := .loading, flipSlot := dr.2 }

/-- An index is destroyed: its pending flip is cancelled, and what waits for it ends with STALE_EPOCH (R125, R190, R191); then its STATE
is 3, and its migrations are abandoned (R342). -/
def State.destroyIndex (s : State) (i : Nat) : State :=
  match s.index? i with
  | none => s
  | some x =>
    let s1 := ((s.setIndex i { x with flip := none, sealed := false }).disarmSlot x.flipSlot).flipMoved i
    let s2 := { s1 with indexes := Store.adjust s1.indexes i (fun (y : Index) => { y with state := .draining }) }
    s2.abandonMigs (fun m => m.idx == i)

/-- ACTION of a program slot: a load starts (R306), or the slot drains (R307). While it loads, the slot holds the
bytes that the commit tested; SAMPLES counts from 0 for the new program (R314). -/
def State.actProgram (s : State) (n act slice bytes : Nat) : State :=
  let g := s.prog n
  if act = 1 then s.setProg n { g with state := 1, slice := slice, samples := 0, bytes := bytes, prog := none }
  else if act = 2 then s.setProg n { g with state := 3 }
  else s

/-- The pending gate list of a point is dropped and its slot freed. -/
def State.cancelGate (s : State) (pt : Nat) : State :=
  match (s.point pt).pending with
  | some g => (s.freeSlot g.slot).setPoint pt { s.point pt with pending := none }
  | none => s

/-- A gate list becomes pending at a point, with its slot drawn or armed again, or takes over at the commit (R434). -/
def State.installGate (s : State) (pt : Nat) (l : GateList) (t : Time) : State :=
  if t = 0 then
    let s1 := s.cancelGate pt
    (s1.setPoint pt { s1.point pt with pending := some ⟨l, s1.now, 64⟩ }).takeOver pt false
  else
    match (s.point pt).pending with
    | some g => (s.armSlot g.slot t).setPoint pt { s.point pt with pending := some ⟨l, t, g.slot⟩ }
    | none =>
      let dr := s.drawSlot .gateTakeover pt t true
      dr.1.setPoint pt { dr.1.point pt with pending := some ⟨l, t, dr.2⟩ }

/-- The staged windows of a point below NWIN. -/
def State.stagedList (s : State) (pt : Nat) : GateList := (List.range (s.gateWins pt)).map (s.stagedWin pt)

/-- The slot of a pending map change is freed. -/
def State.freeMapSlot (s : State) : State :=
  match s.slices.pending with
  | some p => s.freeSlot p.slot
  | none => s

/-- A slice map becomes pending, with its slot drawn or armed again, or switches at the commit (R444, R453). -/
def State.installMap (s : State) (m : List MapEntry) (t : Time) : State :=
  let leaving := s.chooseLeaving m
  let put := fun (u : State) (p : PendingMap) => { u with slices := { u.slices with pending := some p, leaving := leaving } }
  if t = 0 then (put s.freeMapSlot ⟨m, s.now, 64⟩).mapSwitch false
  else match s.slices.pending with
    | some p => (put (s.armSlot p.slot t) ⟨m, t, p.slot⟩).mapMoved
    | none =>
      let dr := s.drawSlot .mapSwitch (s.slices.gen + 1).toNat t true
      put dr.1 ⟨m, t, dr.2⟩

/-- The pending slice map is cancelled and its slot freed (R444). -/
def State.cancelMap (s : State) : State :=
  match s.slices.pending with
  | some _ =>
    let s1 := s.freeMapSlot
    ({ s1 with slices := { s1.slices with pending := none, leaving := [] } } : State).mapMoved
  | none => s

/-- ACTION of the slice map. -/
def State.actMap (s : State) (act : Nat) (m : List MapEntry) (t : Time) : State :=
  if act = 1 then s.installMap m t else if act = 2 then s.cancelMap else s

/-- ACTION of firmware staging (R535, R537). ACTION 3 raises the fused version only in PHASE 3 with both Basins in service. -/
def State.actFirmware (s : State) (act : Nat) : State :=
  if act = 1 then s.withKeeper { s.keeper with fwState := 1 }
  else if act = 2 then s.withKeeper { s.keeper with fwState := 0, staged := none }
  else if act = 3 ∧ s.rst.phase = 3 ∧ s.basinUp 0 = true ∧ s.basinUp 1 = true then s.raiseSvn
  else s

/-- Credits above a new limit are cut to it, and a credit below a raised limit stays; a bucket that was not there starts full
(R432, R436). `old` is the state before the commit. -/
def State.carryCredits (s old : State) : State :=
  (old.staged.filter (fun p => keyPage p.1 == 0x10 && decide (0x200 ≤ keyOff p.1 ∧ keyOff p.1 < 0x280))).foldl
    (fun (t : State) p =>
      let pt := keyInst p.1
      let c := (keyOff p.1 - 0x200) / 8
      t.setCredit pt c (if old.ratePm pt c = 0 then t.creditLimit pt c else old.credit pt c)) s

/-- NODE_VALID has changed: ports train or go down (R423). -/
def State.followNodeValid (s old : State) : State :=
  let was := bit (old.reg Reg.URD_CFG) 12
  let is := bit (s.reg Reg.URD_CFG) 12
  if !was && is then
    (List.range 8).foldl (fun (t : State) p =>
      if (t.port p).state = .down ∧ t.mayTrain p = true then t.startTraining p else t) s
  else if was && !is then
    (List.range 8).foldl (fun (t : State) p => if (t.port p).state = .down then t else t.portDown p) s
  else s

/-- Keeper writes the boot records when NODE or SERVICE has changed (R513). -/
def State.followBoot (s old : State) : State :=
  let of := fun (t : State) => (t.regF Reg.URD_CFG 0 12, t.regF Reg.KPR_ALERT_CFG 16 12)
  if of s = of old then s else s.withKeeper { s.keeper with bootRecord := some (of s) }

/-- The map cache evicts clean lines until it fits its size (R387). -/
def State.shrinkMapCache (s : State) : State :=
  let c := s.cist
  { s with cist := { c with mapCache := shrinkLines c.mapPinned s.mapCap c.mapCache.length c.mapCache } }

/-- Coalescer windows that have become free are handed on (R235). -/
def State.handAll (s : State) : State := s.handWindows s.reqs.length

/-- What the new values bring with them at once: among it, messages that wait find a port of a new path mask (R409), and a class that
the commit makes a candidate takes its tag (R430). -/
def State.followConfig (s old : State) : State :=
  let s1 := ((((s.preferRef.carryCredits old).followNodeValid old).followBoot old).shrinkCaches.shrinkMapCache).handAll.routeAll
  (Store.keys s1.points).foldl State.retag s1

/-- The actions of a commit in force on `s`, read from the staged values of `old`: what frees event slots goes first, and then what
draws them (R41). -/
def State.doActions (s old : State) : State :=
  let s1 := (List.range 32).foldl (fun (t : State) i => if old.idxAction i = 2 then t.destroyIndex i else t) s
  let s2 := old.stagedPoints.foldl (fun (t : State) pt => if old.gateAction pt = 2 then t.cancelGate pt else t) s1
  let mapNow := decide (old.mapAction = 2) || decide (old.switchTime = 0)
  let gateNow := fun (pt : Nat) => decide (old.gateTime pt = 0)
  let doMap := fun (t : State) => t.actMap old.mapAction old.stagedMap old.switchTime
  let doGates := fun (t : State) (p : Nat → Bool) => (old.stagedPoints.filter (fun pt => old.gateAction pt == 1 && p pt)).foldl
    (fun (u : State) pt => u.installGate pt (old.stagedList pt) (old.gateTime pt)) t
  let s2a := if mapNow then doMap s2 else s2
  let s2b := doGates s2a gateNow
  let s3 := old.creating.foldl (fun (t : State) i => t.createIndex i (old.stagedDesc i)) s2b
  let s4 := (List.range 8).foldl (fun (t : State) n => t.actProgram n (old.progAction n)
    (old.stagedF (Reg.POUR_CFG + 0x40 * n) 8 4) (old.progNeed n)) s3
  let s5 := doGates s4 (fun pt => !gateNow pt)
  let s6 := if mapNow then s5 else doMap s5
  let s7 := if old.stagedF Reg.CIST_FMT 0 2 = 1 then { s6 with cist := { s6.cist with state := 1 } } else s6
  s7.actFirmware (old.stagedF Reg.KPR_FW_CFG 0 2)

/-- An accepted commit: every committed value takes its staged value at this drop, which HOST_COMMIT_TIME records, and the
actions are taken (R471). Staged map entries that are not installed stay staged (R444). -/
def State.acceptCommit (s a : State) : State :=
  let s1 := { a with staged := s.staged.filter (fun p => isMapKey p.1 && s.mapAction != 1) }
  let s2 := (s1.setResult [] []).setReg Reg.HOST_COMMIT_TIME s.now
  ((s2.doActions s).followConfig s).settleInstant

/-- The evaluation: accepted, or refused by the first check that fails (R455, R456). -/
def State.judge (s : State) : State :=
  let a := s.adopted
  match s.ownFail a with
  | some f => (s.refuseOwn f).clearActions
  | none => match s.poolFails a with
    | p :: _ => (s.refusePool p).clearActions
    | [] => s.acceptCommit a

/-- The end of a commit: the result stands, SEQ rises, BUSY clears, COMMIT_DONE is set, and a DISCARD or GO that waited is
taken, the DISCARD alone when both did (R471, R472). -/
def State.endCommit (s : State) : State :=
  let c := s.commit
  let s1 := { s.judge with commit := ⟨false, false, false⟩ }
  let s2 := (s1.bump Reg.HOST_COMMIT_STATUS 16 16 1).hqEvent 0 0
  if c.discardNext then s2.requestDiscard else if c.goNext then s2.requestGo else s2

/-- COMMIT_DONE: a commit in progress ends (R471). -/
def execCommitDone (s : State) : Res := .next (if s.commit.busy then s.endCommit else s)

/-! ### The commits that act on one object -/

/-- A whole commit with an action staged in the register `key`: the ACTION field, and with it whatever `set` gives, is staged, GO
is written and the commit ends (DESIGN CHOICE, log 56). While a commit is in progress the staged values cannot change, so that
commit ends only if it has the action. -/
def State.commitWith (s : State) (key act : Nat) (set : U64 → U64) : State :=
  let page := keyPage key
  let off := keyOff key
  if !s.fnUp 0 then s
  else if !s.pageUp 0x02 then (s.dropWrite 0 page off).dropWrite 0 0x02 0x100
  else if s.commit.busy then (if s.stagedF key 0 2 = act then s.endCommit else s.dropWrite 0 page off)
  else (s.stage key (set (setField (s.stagedReg key) 0 2 act))).requestGo.endCommit

/-- INDEX_CREATE: a commit with IDX_CFG.ACTION 1 (R121). -/
def execIndexCreate (idx : Fin 32) (s : State) : Res := .next (s.commitWith (Reg.IDX_CFG + 0x40 * idx.val) 1 id)

/-- INDEX_DESTROY: a commit with IDX_CFG.ACTION 2 (R125). -/
def execIndexDestroy (idx : Fin 32) (s : State) : Res := .next (s.commitWith (Reg.IDX_CFG + 0x40 * idx.val) 2 id)

/-- PROGRAM_LOAD: a commit with POUR_CFG.ACTION 1 (R306). -/
def execProgramLoad (slot : Fin 8) (s : State) : Res := .next (s.commitWith (Reg.POUR_CFG + 0x40 * slot.val) 1 id)

/-- PROGRAM_REMOVE: a commit with POUR_CFG.ACTION 2 (R307). -/
def execProgramRemove (slot : Fin 8) (s : State) : Res := .next (s.commitWith (Reg.POUR_CFG + 0x40 * slot.val) 2 id)

/-- GATE_LIST_INSTALL: a commit with SLU_GATE_CTRL.ACTION 1 of a point (R434). -/
def execGateListInstall (pt : Fin 185) (s : State) : Res := .next (s.commitWith (instKey Reg.SLU_GATE_CTRL pt) 1 id)

/-- GATE_LIST_CANCEL: a commit with SLU_GATE_CTRL.ACTION 2 of a point (R434). -/
def execGateListCancel (pt : Fin 185) (s : State) : Res := .next (s.commitWith (instKey Reg.SLU_GATE_CTRL pt) 2 id)

/-- SLICE_MAP_INSTALL: a commit with SLC_CTRL.ACTION 1 (R444). -/
def execSliceMapInstall (s : State) : Res := .next (s.commitWith Reg.SLC_CTRL 1 id)

/-- SLICE_MAP_CANCEL: a commit with SLC_CTRL.ACTION 2 (R444). -/
def execSliceMapCancel (s : State) : Res := .next (s.commitWith Reg.SLC_CTRL 2 id)

/-- CISTERN_FORMAT: a commit with CIST_FMT.ACTION 1 and KEY 0xC157 (R397). -/
def execCisternFormat (s : State) : Res := .next (s.commitWith Reg.CIST_FMT 1 (fun v => setField v 16 16 0xC157))

/-- FW_STAGE: a commit with KPR_FW_CFG.ACTION 1 (R535). -/
def execFwStage (s : State) : Res := .next (s.commitWith Reg.KPR_FW_CFG 1 id)

/-- FW_CANCEL: a commit with KPR_FW_CFG.ACTION 2 (R535). -/
def execFwCancel (s : State) : Res := .next (s.commitWith Reg.KPR_FW_CFG 2 id)

/-- FW_RAISE_SVN: a commit with KPR_FW_CFG.ACTION 3 (R537). -/
def execFwRaiseSvn (s : State) : Res := .next (s.commitWith Reg.KPR_FW_CFG 3 id)

end Sys2Proof.Machine
end

