-- ==== Sys2Proof/WellFormed.lean ====
section
/-! DEFINITION. Which commands are well formed: operand lists have the length their record or interval has. -/

namespace Sys2Proof

/-- A request header carries the 19 parameter bytes 41 to 59 of Table 3-1. -/
def ReqHdr.wellFormed (h : ReqHdr) : Bool := h.params.length == 19

/-- The one check of a command's form. -/
def Instr.wellFormed : Instr → Bool
  | .search _ h _ => h.wellFormed
  | .searchBatch _ h _ => h.wellFormed
  | .gather _ h _ => h.wellFormed
  | .scatter _ h _ => h.wellFormed
  | .upsert _ h _ => h.wellFormed
  | .delete _ h _ => h.wellFormed
  | .epochScheduleFlip _ h _ => h.wellFormed
  | .epochScheduleCancel _ h _ => h.wellFormed
  | .compact _ h _ => h.wellFormed
  | .joinProbe _ h _ => h.wellFormed
  | .joinSelf _ h _ => h.wellFormed
  | .clusterStepSums _ h _ => h.wellFormed
  | .clusterStepApply _ h _ => h.wellFormed
  | .pour _ h _ => h.wellFormed
  | .topk _ h _ => h.wellFormed
  | .phaseComplete _ _ => true
  | .phaseFault _ _ => true
  | .deadlineArrival _ => true
  | .responseDrop _ => true
  | .rerankPart _ _ _ => true
  | .rerankReply _ _ _ => true
  | .gatherPart _ _ _ => true
  | .gatherReply _ _ _ => true
  | .admissionFrame _ _ _ => true
  | .partResend _ => true
  | .urdunFrame _ _ => true
  | .ack _ _ => true
  | .nack _ _ => true
  | .credit _ _ _ => true
  | .count _ _ => true
  | .ackTimeout _ => true
  | .reassemblyTimeout _ _ => true
  | .laneInterval m => m.length == 36
  | .lossOfSignal _ _ => true
  | .portTrainingDone _ _ => true
  | .portRetrain => true
  | .spareReq => true
  | .refLost _ => true
  | .refFreqInterval _ _ => true
  | .refGoodInterval _ _ _ => true
  | .syncPulse _ _ => true
  | .syncTimeout _ => true
  | .keeperCountWord => true
  | .acquireTimeout => true
  | .holdoverLimit => true
  | .heartbeatCheck _ => true
  | .epochFlip _ => true
  | .gateTakeover _ => true
  | .mapSwitch _ => true
  | .sealBegin _ => true
  | .drainEnd _ => true
  | .batchWindowClose _ _ => true
  | .waterlineExchangeRunnel _ _ => true
  | .waterlineExchangeHeadworks => true
  | .weirPass _ _ _ k es => decide (1 ≤ k ∧ k ≤ 8192 ∧ 1 ≤ es.length ∧ es.length ≤ 65536)
  | .rillDispatch _ _ => true
  | .rillImageLoad _ _ => true
  | .rillTransferDone _ _ _ => true
  | .rillWait _ _ _ _ _ => true
  | .flagTimeout _ _ => true
  | .stall _ _ _ => true
  | .barrierArrive _ _ _ _ _ => true
  | .barrierTimeout _ _ => true
  | .mailboxSend _ h p _ => h.length == 16 && p.length == 16 * ((h.getD 5 0).toNat % 16)
  | .messageDelivery _ _ => true
  | .ringSlotRelease _ => true
  | .bridgeFlitError _ _ => true
  | .pumphouseHeartbeat _ _ => true
  | .spact _ _ => true
  | .spseg _ _ d _ _ => d.length == 256
  | .sppre _ => true
  | .spload _ _ r _ => r.length == 96
  | .spwl _ _ b => b.length == 32
  | .spblk _ _ => true
  | .spfeed _ f => f.data.length == 32
  | .spdrain _ b => b.noise.length == 32
  | .spstat _ => true
  | .spclr _ => true
  | .spend _ => true
  | .rawrd _ _ b => b.data.length == 32 && b.check.length == 4
  | .refreshDue _ _ w => w.length == 16
  | .scrubRun _ _ => true
  | .migrationInterval _ => true
  | .migrationCopyDone _ _ _ => true
  | .hbmPatrol _ _ _ _ => true
  | .hbmUncorrectableRead _ _ _ _ _ _ => true
  | .laneRemap _ _ _ => true
  | .hbmTempRead _ _ => true
  | .lowerTierReadDone _ _ _ => true
  | .readAroundStart _ => true
  | .demotion _ _ => true
  | .pageClean _ => true
  | .backingImageWrite _ _ => true
  | .nandCommandDone _ _ _ => true
  | .readSuspend _ _ => true
  | .lunTimeout _ _ => true
  | .programFailure _ _ _ => true
  | .eraseFailure _ _ _ => true
  | .stripeClose _ => true
  | .reclaim => true
  | .cisternPatrol _ _ => true
  | .relocationSwitch _ _ => true
  | .lunRebuild _ _ => true
  | .lunTempRead _ _ _ => true
  | .systemAreaWrite => true
  | .unitBoundary _ _ => true
  | .creditRefill => true
  | .gateWindowEnd _ => true
  | .sluiceParityError _ => true
  | .resourceRelease => true
  | .drainMaxExpiry => true
  | .replicaPullDone _ _ => true
  | .granulePagesMoved _ _ => true
  | .coalescerWindowFree _ => true
  | .sqTailDoorbell _ _ _ _ => true
  | .hostRequestFetch _ _ _ => true
  | .cqHeadDoorbell _ _ _ => true
  | .msixCoalesceTimeout _ _ => true
  | .queueConfigWrite _ _ _ _ => true
  | .functionLevelReset _ => true
  | .hotReset => true
  | .hostCommitGo => true
  | .hostCommitDiscard => true
  | .regReadLatch _ _ _ => true
  | .registerWrite _ _ _ _ _ => true
  | .dipFillStart _ _ _ => true
  | .dipFillDone _ _ _ => true
  | .dipDataRead _ => true
  | .dipDataWrite _ _ => true
  | .dipBurstRead _ _ _ => true
  | .dipBurstWrite _ _ _ => true
  | .indexCreate _ => true
  | .indexLoadDone _ _ => true
  | .indexDestroy _ => true
  | .indexDestroyDone _ => true
  | .programLoad _ => true
  | .programLoadDone _ _ => true
  | .programRemove _ => true
  | .programRemoveDone _ => true
  | .gateListInstall _ => true
  | .gateListCancel _ => true
  | .sliceMapInstall => true
  | .sliceMapCancel => true
  | .cisternFormat => true
  | .formatDone _ _ => true
  | .fwStage => true
  | .fwStageDone _ _ => true
  | .fwCancel => true
  | .fwRaiseSvn => true
  | .injectWeirParity _ => true
  | .injectRillTimeout => true
  | .injectRillScrEcc => true
  | .injectCascResidue _ => true
  | .injectSpoutCheck => true
  | .injectMemSlow => true
  | .injectMemUe => true
  | .injectCistUe => true
  | .injectCistHigh => true
  | .injectCistTimeout => true
  | .injectLaneLos => true
  | .injectUrdCrc => true
  | .pwrokRise _ => true
  | .pwrokFall => true
  | .resetNFall _ => true
  | .resetNRise => true
  | .resetHoldEnd => true
  | .standbyPowerUp => true
  | .bringupStepDone _ _ _ _ => true
  | .bringupStepLimit _ => true
  | .restartStepDone _ _ => true
  | .restartLimit _ => true
  | .restartBasin _ => true
  | .injectHang _ => true
  | .pumphouseRestartRequest _ => true
  | .sensorSample _ _ => true
  | .controlInterval => true
  | .holdClockStop _ _ => true
  | .throttleNFall _ => true
  | .fastThrottleEnd => true
  | .advisoryHour _ => true
  | .logFlush => true
  | .regRead _ _ => true
  | .logRead _ => true
  | .bundleChunk _ _ => true
  | .bundleEnd _ _ => true
  | .authNonce => true
  | .authOpenDebug g => g.length == 96
  | .authBlowPwrokLevel g => g.length == 96
  | .authBlowResetnLevel g => g.length == 96
  | .authRaiseSvn g => g.length == 96
  | .injectHot _ => true
  | .referenceEdge => true
  | .signalDetect _ => true
  | .bridgeRetrainDone _ _ => true
  | .pseudoChannelRetrainDone _ _ => true
  | .channelRetrainDone _ _ => true
  | .commitDone => true
  | .dipFillLate _ => true
  | .standbyPowerLoss => true

end Sys2Proof
end

