-- ==== Sys2Proof/Machine/Taking.lean ====
section
/-! DEFINITION. The requests of the opcode table and the parts of other nodes, taken whole (R37, R46 to R55, R127 to R131,
R153 to R157, R193, R194, R203 to R215, R225 to R254, R307 to R310, R561). -/

namespace Sys2Proof.Machine

/-- A header with the 19 parameter bytes of Table 3-1: missing bytes read 0 and further ones are not read (log 15). -/
def fitParams (h : ReqHdr) : ReqHdr := { h with params := padTo 0 19 h.params }

/-- A request of the opcode table, taken whole. The command fixes OPCODE, and bytes 41 to 59 of the header are read at their
length (log 15). What has come due by this instant has fired before the request is taken (R37). -/
def State.request (s : State) (op : Nat) (src : Source) (h : ReqHdr) (payload : List Byte) : Res :=
  let s1 := s.fireDue
  .next (if s1.sourceUp src then s1.offer op (fitParams h) payload src (64 + payload.length) else s1)

/-- The header with bits [len-1:0] of parameter byte 41 set, as the command's name says (MODE or ACTION). -/
def withMode (h : ReqHdr) (len v : Nat) : ReqHdr :=
  let b := (h.params.getD 0 0).toNat
  { h with params := h.params.set 0 (BitVec.ofNat 8 (b / 2 ^ len * 2 ^ len + v)) }

/-! ### The requests of Table 3-3 -/

/-- SEARCH (R127 to R130). -/
def execSearch (src : Source) (hdr : ReqHdr) (payload : List Byte) (s : State) : Res := s.request opSearch src hdr payload

/-- SEARCH_BATCH (R127 to R131). -/
def execSearchBatch (src : Source) (hdr : ReqHdr) (payload : List Byte) (s : State) : Res :=
  s.request opSearchBatch src hdr payload

/-- GATHER (R225 to R227). -/
def execGather (src : Source) (hdr : ReqHdr) (payload : List Byte) (s : State) : Res := s.request opGather src hdr payload

/-- SCATTER (R225, R236 to R239). -/
def execScatter (src : Source) (hdr : ReqHdr) (payload : List Byte) (s : State) : Res := s.request opScatter src hdr payload

/-- UPSERT (R200, R203 to R211). -/
def execUpsert (src : Source) (hdr : ReqHdr) (payload : List Byte) (s : State) : Res := s.request opUpsert src hdr payload

/-- DELETE (R200, R203 to R211). -/
def execDelete (src : Source) (hdr : ReqHdr) (payload : List Byte) (s : State) : Res := s.request opDelete src hdr payload

/-- EPOCH_SCHEDULE with ACTION 0 (R193, R194). -/
def execEpochScheduleFlip (src : Source) (hdr : ReqHdr) (payload : List Byte) (s : State) : Res :=
  s.request opEpochSchedule src (withMode hdr 2 0) payload

/-- EPOCH_SCHEDULE with ACTION 1 (R193, R194). -/
def execEpochScheduleCancel (src : Source) (hdr : ReqHdr) (payload : List Byte) (s : State) : Res :=
  s.request opEpochSchedule src (withMode hdr 2 1) payload

/-- COMPACT (R212 to R215). -/
def execCompact (src : Source) (hdr : ReqHdr) (payload : List Byte) (s : State) : Res := s.request opCompact src hdr payload

/-- JOIN with MODE 0 (R240 to R247). -/
def execJoinProbe (src : Source) (hdr : ReqHdr) (payload : List Byte) (s : State) : Res :=
  s.request opJoin src (withMode hdr 1 0) payload

/-- JOIN with MODE 1 (R240 to R247). -/
def execJoinSelf (src : Source) (hdr : ReqHdr) (payload : List Byte) (s : State) : Res :=
  s.request opJoin src (withMode hdr 1 1) payload

/-- CLUSTER_STEP with MODE 0 (R248 to R252). -/
def execClusterStepSums (src : Source) (hdr : ReqHdr) (payload : List Byte) (s : State) : Res :=
  s.request opClusterStep src (withMode hdr 1 0) payload

/-- CLUSTER_STEP with MODE 1 (R248, R249, R253, R254). -/
def execClusterStepApply (src : Source) (hdr : ReqHdr) (payload : List Byte) (s : State) : Res :=
  s.request opClusterStep src (withMode hdr 1 1) payload

/-- POUR (R307 to R310). -/
def execPour (src : Source) (hdr : ReqHdr) (payload : List Byte) (s : State) : Res := s.request opPour src hdr payload

/-- TOPK (R178 to R182). -/
def execTopk (src : Source) (hdr : ReqHdr) (payload : List Byte) (s : State) : Res := s.request opTopk src hdr payload

/-! ### Parts of other nodes -/

/-- RERANK_PART: an owner takes in a re-rank part (R153 to R157, R561). -/
def execRerankPart (port : Fin 8) (src : U64) (body : List Byte) (s : State) : Res :=
  .next (s.fireDue.partArrives .rerank port src body)

/-- GATHER_PART: an owner takes in a gather part (R232, R561). -/
def execGatherPart (port : Fin 8) (src : U64) (body : List Byte) (s : State) : Res :=
  .next (s.fireDue.partArrives .gather port src body)

end Sys2Proof.Machine
end

