-- ==== Sys2Proof/Machine/Dispatch.lean ====
section
/-! DEFINITION. The meaning of each command, one arm for each constructor. -/

namespace Sys2Proof.Machine

/-- What a command does: one direct call of its meaning. -/
def exec (i : Instr) (s : State) : Host.Outcome State Fault Refusal :=
  match i with
  | .search src hdr payload => Sys2Proof.Machine.execSearch src hdr payload s
  | .searchBatch src hdr payload => Sys2Proof.Machine.execSearchBatch src hdr payload s
  | .gather src hdr payload => Sys2Proof.Machine.execGather src hdr payload s
  | .scatter src hdr payload => Sys2Proof.Machine.execScatter src hdr payload s
  | .upsert src hdr payload => Sys2Proof.Machine.execUpsert src hdr payload s
  | .delete src hdr payload => Sys2Proof.Machine.execDelete src hdr payload s
  | .epochScheduleFlip src hdr payload => Sys2Proof.Machine.execEpochScheduleFlip src hdr payload s
  | .epochScheduleCancel src hdr payload => Sys2Proof.Machine.execEpochScheduleCancel src hdr payload s
  | .compact src hdr payload => Sys2Proof.Machine.execCompact src hdr payload s
  | .joinProbe src hdr payload => Sys2Proof.Machine.execJoinProbe src hdr payload s
  | .joinSelf src hdr payload => Sys2Proof.Machine.execJoinSelf src hdr payload s
  | .clusterStepSums src hdr payload => Sys2Proof.Machine.execClusterStepSums src hdr payload s
  | .clusterStepApply src hdr payload => Sys2Proof.Machine.execClusterStepApply src hdr payload s
  | .pour src hdr payload => Sys2Proof.Machine.execPour src hdr payload s
  | .topk src hdr payload => Sys2Proof.Machine.execTopk src hdr payload s
  | .phaseComplete rid readback => Sys2Proof.Machine.execPhaseComplete rid readback s
  | .phaseFault rid charge => Sys2Proof.Machine.execPhaseFault rid charge s
  | .deadlineArrival rid => Sys2Proof.Machine.execDeadlineArrival rid s
  | .responseDrop rid => Sys2Proof.Machine.execResponseDrop rid s
  | .rerankPart port src body => Sys2Proof.Machine.execRerankPart port src body s
  | .rerankReply port src body => Sys2Proof.Machine.execRerankReply port src body s
  | .gatherPart port src body => Sys2Proof.Machine.execGatherPart port src body s
  | .gatherReply port src body => Sys2Proof.Machine.execGatherReply port src body s
  | .admissionFrame port src body => Sys2Proof.Machine.execAdmissionFrame port src body s
  | .partResend token => Sys2Proof.Machine.execPartResend token s
  | .urdunFrame port bytes => Sys2Proof.Machine.execUrdunFrame port bytes s
  | .ack port word => Sys2Proof.Machine.execAck port word s
  | .nack port word => Sys2Proof.Machine.execNack port word s
  | .credit port adm word => Sys2Proof.Machine.execCredit port adm word s
  | .count port word => Sys2Proof.Machine.execCount port word s
  | .ackTimeout port => Sys2Proof.Machine.execAckTimeout port s
  | .reassemblyTimeout src msgId => Sys2Proof.Machine.execReassemblyTimeout src msgId s
  | .laneInterval meas => Sys2Proof.Machine.execLaneInterval meas s
  | .lossOfSignal lane signal => Sys2Proof.Machine.execLossOfSignal lane signal s
  | .portTrainingDone port res => Sys2Proof.Machine.execPortTrainingDone port res s
  | .portRetrain => Sys2Proof.Machine.execPortRetrain s
  | .spareReq => Sys2Proof.Machine.execSpareReq s
  | .refLost useB => Sys2Proof.Machine.execRefLost useB s
  | .refFreqInterval useB hz => Sys2Proof.Machine.execRefFreqInterval useB hz s
  | .refGoodInterval useB gap hz => Sys2Proof.Machine.execRefGoodInterval useB gap hz s
  | .syncPulse pulseB phasePs => Sys2Proof.Machine.execSyncPulse pulseB phasePs s
  | .syncTimeout pairB => Sys2Proof.Machine.execSyncTimeout pairB s
  | .keeperCountWord => Sys2Proof.Machine.execKeeperCountWord s
  | .acquireTimeout => Sys2Proof.Machine.execAcquireTimeout s
  | .holdoverLimit => Sys2Proof.Machine.execHoldoverLimit s
  | .heartbeatCheck slot => Sys2Proof.Machine.execHeartbeatCheck slot s
  | .epochFlip slot => Sys2Proof.Machine.execEpochFlip slot s
  | .gateTakeover slot => Sys2Proof.Machine.execGateTakeover slot s
  | .mapSwitch slot => Sys2Proof.Machine.execMapSwitch slot s
  | .sealBegin idx => Sys2Proof.Machine.execSealBegin idx s
  | .drainEnd idx => Sys2Proof.Machine.execDrainEnd idx s
  | .batchWindowClose idx slot => Sys2Proof.Machine.execBatchWindowClose idx slot s
  | .waterlineExchangeRunnel terrace runnel => Sys2Proof.Machine.execWaterlineExchangeRunnel terrace runnel s
  | .waterlineExchangeHeadworks => Sys2Proof.Machine.execWaterlineExchangeHeadworks s
  | .weirPass lane rid sketch keep ents => Sys2Proof.Machine.execWeirPass lane rid sketch keep ents s
  | .rillDispatch rill work => Sys2Proof.Machine.execRillDispatch rill work s
  | .rillImageLoad rill func => Sys2Proof.Machine.execRillImageLoad rill func s
  | .rillTransferDone rill sigs evs => Sys2Proof.Machine.execRillTransferDone rill sigs evs s
  | .rillWait rill eng flag n pc => Sys2Proof.Machine.execRillWait rill eng flag n pc s
  | .flagTimeout rill eng => Sys2Proof.Machine.execFlagTimeout rill eng s
  | .stall rill eng pc => Sys2Proof.Machine.execStall rill eng pc s
  | .barrierArrive rill eng num mask pc => Sys2Proof.Machine.execBarrierArrive rill eng num mask pc s
  | .barrierTimeout rill num => Sys2Proof.Machine.execBarrierTimeout rill num s
  | .mailboxSend sender hdr payload pc => Sys2Proof.Machine.execMailboxSend sender hdr payload pc s
  | .messageDelivery runnel pos => Sys2Proof.Machine.execMessageDelivery runnel pos s
  | .ringSlotRelease rill => Sys2Proof.Machine.execRingSlotRelease rill s
  | .bridgeFlitError link first => Sys2Proof.Machine.execBridgeFlitError link first s
  | .pumphouseHeartbeat basin seq => Sys2Proof.Machine.execPumphouseHeartbeat basin seq s
  | .spact sp row => Sys2Proof.Machine.execSpact sp row s
  | .spseg sp seg data uncorrectable parity => Sys2Proof.Machine.execSpseg sp seg data uncorrectable parity s
  | .sppre sp => Sys2Proof.Machine.execSppre sp s
  | .spload sp ctx rec query => Sys2Proof.Machine.execSpload sp ctx rec query s
  | .spwl sp ctx burst => Sys2Proof.Machine.execSpwl sp ctx burst s
  | .spblk sp start => Sys2Proof.Machine.execSpblk sp start s
  | .spfeed sp feed => Sys2Proof.Machine.execSpfeed sp feed s
  | .spdrain sp bus => Sys2Proof.Machine.execSpdrain sp bus s
  | .spstat sp => Sys2Proof.Machine.execSpstat sp s
  | .spclr sp => Sys2Proof.Machine.execSpclr sp s
  | .spend sp => Sys2Proof.Machine.execSpend sp s
  | .rawrd sp column burst => Sys2Proof.Machine.execRawrd sp column burst s
  | .refreshDue stack pc waits => Sys2Proof.Machine.execRefreshDue stack pc waits s
  | .scrubRun basin complex => Sys2Proof.Machine.execScrubRun basin complex s
  | .migrationInterval basin => Sys2Proof.Machine.execMigrationInterval basin s
  | .migrationCopyDone idx slot same => Sys2Proof.Machine.execMigrationCopyDone idx slot same s
  | .hbmPatrol stack ondie ctrl part => Sys2Proof.Machine.execHbmPatrol stack ondie ctrl part s
  | .hbmUncorrectableRead stack rid row recurs repair content => Sys2Proof.Machine.execHbmUncorrectableRead stack rid row recurs repair content s
  | .laneRemap stack pc pages => Sys2Proof.Machine.execLaneRemap stack pc pages s
  | .hbmTempRead stack port => Sys2Proof.Machine.execHbmTempRead stack port s
  | .lowerTierReadDone target copy good => Sys2Proof.Machine.execLowerTierReadDone target copy good s
  | .readAroundStart target => Sys2Proof.Machine.execReadAroundStart target s
  | .demotion slice basin => Sys2Proof.Machine.execDemotion slice basin s
  | .pageClean lpn => Sys2Proof.Machine.execPageClean lpn s
  | .backingImageWrite idx what => Sys2Proof.Machine.execBackingImageWrite idx what s
  | .nandCommandDone ch lun cmd => Sys2Proof.Machine.execNandCommandDone ch lun cmd s
  | .readSuspend ch lun => Sys2Proof.Machine.execReadSuspend ch lun s
  | .lunTimeout ch lun => Sys2Proof.Machine.execLunTimeout ch lun s
  | .programFailure ch lun block => Sys2Proof.Machine.execProgramFailure ch lun block s
  | .eraseFailure ch lun block => Sys2Proof.Machine.execEraseFailure ch lun block s
  | .stripeClose stream => Sys2Proof.Machine.execStripeClose stream s
  | .reclaim => Sys2Proof.Machine.execReclaim s
  | .cisternPatrol above reads => Sys2Proof.Machine.execCisternPatrol above reads s
  | .relocationSwitch lpn old => Sys2Proof.Machine.execRelocationSwitch lpn old s
  | .lunRebuild lun failed => Sys2Proof.Machine.execLunRebuild lun failed s
  | .lunTempRead ch lun temp => Sys2Proof.Machine.execLunTempRead ch lun temp s
  | .systemAreaWrite => Sys2Proof.Machine.execSystemAreaWrite s
  | .unitBoundary pt arrivals => Sys2Proof.Machine.execUnitBoundary pt arrivals s
  | .creditRefill => Sys2Proof.Machine.execCreditRefill s
  | .gateWindowEnd pt => Sys2Proof.Machine.execGateWindowEnd pt s
  | .sluiceParityError pt => Sys2Proof.Machine.execSluiceParityError pt s
  | .resourceRelease => Sys2Proof.Machine.execResourceRelease s
  | .drainMaxExpiry => Sys2Proof.Machine.execDrainMaxExpiry s
  | .replicaPullDone terrace obj => Sys2Proof.Machine.execReplicaPullDone terrace obj s
  | .granulePagesMoved basin kind => Sys2Proof.Machine.execGranulePagesMoved basin kind s
  | .coalescerWindowFree rid => Sys2Proof.Machine.execCoalescerWindowFree rid s
  | .sqTailDoorbell fn q tail entries => Sys2Proof.Machine.execSqTailDoorbell fn q tail entries s
  | .hostRequestFetch fn q data => Sys2Proof.Machine.execHostRequestFetch fn q data s
  | .cqHeadDoorbell fn q head => Sys2Proof.Machine.execCqHeadDoorbell fn q head s
  | .msixCoalesceTimeout fn q => Sys2Proof.Machine.execMsixCoalesceTimeout fn q s
  | .queueConfigWrite fn page off val => Sys2Proof.Machine.execQueueConfigWrite fn page off val s
  | .functionLevelReset fn => Sys2Proof.Machine.execFunctionLevelReset fn s
  | .hotReset => Sys2Proof.Machine.execHotReset s
  | .hostCommitGo => Sys2Proof.Machine.execHostCommitGo s
  | .hostCommitDiscard => Sys2Proof.Machine.execHostCommitDiscard s
  | .regReadLatch fn place bytes => Sys2Proof.Machine.execRegReadLatch fn place bytes s
  | .registerWrite fn space page off bytes => Sys2Proof.Machine.execRegisterWrite fn space page off bytes s
  | .dipFillStart fn off val => Sys2Proof.Machine.execDipFillStart fn off val s
  | .dipFillDone fn data code => Sys2Proof.Machine.execDipFillDone fn data code s
  | .dipDataRead fn => Sys2Proof.Machine.execDipDataRead fn s
  | .dipDataWrite fn val => Sys2Proof.Machine.execDipDataWrite fn val s
  | .dipBurstRead fn off len => Sys2Proof.Machine.execDipBurstRead fn off len s
  | .dipBurstWrite fn off bytes => Sys2Proof.Machine.execDipBurstWrite fn off bytes s
  | .indexCreate idx => Sys2Proof.Machine.execIndexCreate idx s
  | .indexLoadDone idx image => Sys2Proof.Machine.execIndexLoadDone idx image s
  | .indexDestroy idx => Sys2Proof.Machine.execIndexDestroy idx s
  | .indexDestroyDone idx => Sys2Proof.Machine.execIndexDestroyDone idx s
  | .programLoad slot => Sys2Proof.Machine.execProgramLoad slot s
  | .programLoadDone slot image => Sys2Proof.Machine.execProgramLoadDone slot image s
  | .programRemove slot => Sys2Proof.Machine.execProgramRemove slot s
  | .programRemoveDone slot => Sys2Proof.Machine.execProgramRemoveDone slot s
  | .gateListInstall pt => Sys2Proof.Machine.execGateListInstall pt s
  | .gateListCancel pt => Sys2Proof.Machine.execGateListCancel pt s
  | .sliceMapInstall => Sys2Proof.Machine.execSliceMapInstall s
  | .sliceMapCancel => Sys2Proof.Machine.execSliceMapCancel s
  | .cisternFormat => Sys2Proof.Machine.execCisternFormat s
  | .formatDone media areaOk => Sys2Proof.Machine.execFormatDone media areaOk s
  | .fwStage => Sys2Proof.Machine.execFwStage s
  | .fwStageDone bundle written => Sys2Proof.Machine.execFwStageDone bundle written s
  | .fwCancel => Sys2Proof.Machine.execFwCancel s
  | .fwRaiseSvn => Sys2Proof.Machine.execFwRaiseSvn s
  | .injectWeirParity lane => Sys2Proof.Machine.execInjectWeirParity lane s
  | .injectRillTimeout => Sys2Proof.Machine.execInjectRillTimeout s
  | .injectRillScrEcc => Sys2Proof.Machine.execInjectRillScrEcc s
  | .injectCascResidue col => Sys2Proof.Machine.execInjectCascResidue col s
  | .injectSpoutCheck => Sys2Proof.Machine.execInjectSpoutCheck s
  | .injectMemSlow => Sys2Proof.Machine.execInjectMemSlow s
  | .injectMemUe => Sys2Proof.Machine.execInjectMemUe s
  | .injectCistUe => Sys2Proof.Machine.execInjectCistUe s
  | .injectCistHigh => Sys2Proof.Machine.execInjectCistHigh s
  | .injectCistTimeout => Sys2Proof.Machine.execInjectCistTimeout s
  | .injectLaneLos => Sys2Proof.Machine.execInjectLaneLos s
  | .injectUrdCrc => Sys2Proof.Machine.execInjectUrdCrc s
  | .pwrokRise rails => Sys2Proof.Machine.execPwrokRise rails s
  | .pwrokFall => Sys2Proof.Machine.execPwrokFall s
  | .resetNFall long => Sys2Proof.Machine.execResetNFall long s
  | .resetNRise => Sys2Proof.Machine.execResetNRise s
  | .resetHoldEnd => Sys2Proof.Machine.execResetHoldEnd s
  | .standbyPowerUp => Sys2Proof.Machine.execStandbyPowerUp s
  | .bringupStepDone basin ohms media res => Sys2Proof.Machine.execBringupStepDone basin ohms media res s
  | .bringupStepLimit basin => Sys2Proof.Machine.execBringupStepLimit basin s
  | .restartStepDone basin res => Sys2Proof.Machine.execRestartStepDone basin res s
  | .restartLimit basin => Sys2Proof.Machine.execRestartLimit basin s
  | .restartBasin basin => Sys2Proof.Machine.execRestartBasin basin s
  | .injectHang basin => Sys2Proof.Machine.execInjectHang basin s
  | .pumphouseRestartRequest basin => Sys2Proof.Machine.execPumphouseRestartRequest basin s
  | .sensorSample readings rails => Sys2Proof.Machine.execSensorSample readings rails s
  | .controlInterval => Sys2Proof.Machine.execControlInterval s
  | .holdClockStop terrace rids => Sys2Proof.Machine.execHoldClockStop terrace rids s
  | .throttleNFall long => Sys2Proof.Machine.execThrottleNFall long s
  | .fastThrottleEnd => Sys2Proof.Machine.execFastThrottleEnd s
  | .advisoryHour last => Sys2Proof.Machine.execAdvisoryHour last s
  | .logFlush => Sys2Proof.Machine.execLogFlush s
  | .regRead page off => Sys2Proof.Machine.execRegRead page off s
  | .logRead seq => Sys2Proof.Machine.execLogRead seq s
  | .bundleChunk off bytes => Sys2Proof.Machine.execBundleChunk off bytes s
  | .bundleEnd len written => Sys2Proof.Machine.execBundleEnd len written s
  | .authNonce => Sys2Proof.Machine.execAuthNonce s
  | .authOpenDebug sig => Sys2Proof.Machine.execAuthOpenDebug sig s
  | .authBlowPwrokLevel sig => Sys2Proof.Machine.execAuthBlowPwrokLevel sig s
  | .authBlowResetnLevel sig => Sys2Proof.Machine.execAuthBlowResetnLevel sig s
  | .authRaiseSvn sig => Sys2Proof.Machine.execAuthRaiseSvn sig s
  | .injectHot t => Sys2Proof.Machine.execInjectHot t s
  | .referenceEdge => Sys2Proof.Machine.execReferenceEdge s
  | .signalDetect port => Sys2Proof.Machine.execSignalDetect port s
  | .bridgeRetrainDone link ok => Sys2Proof.Machine.execBridgeRetrainDone link ok s
  | .pseudoChannelRetrainDone stack pc => Sys2Proof.Machine.execPseudoChannelRetrainDone stack pc s
  | .channelRetrainDone ch ok => Sys2Proof.Machine.execChannelRetrainDone ch ok s
  | .commitDone => Sys2Proof.Machine.execCommitDone s
  | .dipFillLate fn => Sys2Proof.Machine.execDipFillLate fn s
  | .standbyPowerLoss => Sys2Proof.Machine.execStandbyPowerLoss s

end Sys2Proof.Machine
end

