-- ==== Sys2Proof/Safety.lean ====
section
/-! DEFINITION. The terms in which the statements speak of a run: completion, what a command leaves alone, the requests of
Table 3-3 as commands, an answered request, and the legal modes of the node. -/

namespace Sys2Proof.Machine

/-- A command completes: it answers a next state, of which `P` holds. -/
def Completes (i : Instr) (s : State) (P : State → Prop) : Prop := ∃ t, exec i s = .next t ∧ P t

/-- Every register but the listed ones reads as before. -/
def OnlyRegs (s t : State) (ks : List Nat) : Prop := ∀ k, k ∉ ks → t.reg k = s.reg k

/-- A wrapping counter, the field [l+n-1:l] of a register, is raised by `d`. -/
def Counted (s t : State) (k l n d : Nat) : Prop := t.regF k l n = (s.regF k l n + d) % 2 ^ n

/-- A saturating counter, the field [l+n-1:l] of a register, is raised by `d`. -/
def CountedSat (s t : State) (k l n d : Nat) : Prop := t.regF k l n = satAdd n (s.regF k l n) d

/-- Exactly the bit `b` of the register `k` is set in `t`, and nothing else of the state differs from `s`. -/
def OnlyBitSet (s t : State) (k b : Nat) : Prop :=
  t = { s with regs := t.regs } ∧ OnlyRegs s t [k] ∧ bit (t.reg k) b = true ∧ ∀ j, j ≠ b → bit (t.reg k) j = bit (s.reg k) j

/-- The requests of Table 3-3 as commands: opcode, source, header and payload. -/
def requestOf : Instr → Option (Nat × Source × ReqHdr × List Byte)
  | .search src h p => some (opSearch, src, h, p)
  | .searchBatch src h p => some (opSearchBatch, src, h, p)
  | .gather src h p => some (opGather, src, h, p)
  | .scatter src h p => some (opScatter, src, h, p)
  | .upsert src h p => some (opUpsert, src, h, p)
  | .delete src h p => some (opDelete, src, h, p)
  | .epochScheduleFlip src h p => some (opEpochSchedule, src, withMode h 2 0, p)
  | .epochScheduleCancel src h p => some (opEpochSchedule, src, withMode h 2 1, p)
  | .compact src h p => some (opCompact, src, h, p)
  | .joinProbe src h p => some (opJoin, src, withMode h 1 0, p)
  | .joinSelf src h p => some (opJoin, src, withMode h 1 1, p)
  | .clusterStepSums src h p => some (opClusterStep, src, withMode h 1 0, p)
  | .clusterStepApply src h p => some (opClusterStep, src, withMode h 1 1, p)
  | .pour src h p => some (opPour, src, h, p)
  | .topk src h p => some (opTopk, src, h, p)
  | _ => none

/-- Nothing outside the Reservoir works for the request `rid` any more: no Rill, no part, no window place, no lower-tier read
that it waits for (R57). -/
def State.NoWork (t : State) (rid : Nat) : Prop :=
  (∀ k v, Store.find? t.fabric.rills k = some v → v.rid ≠ some rid) ∧ (∀ p ∈ t.partsOut, p.rid ≠ rid) ∧
  (∀ w ∈ t.windows, ∀ m ∈ w.members, m.1 ≠ rid) ∧ (∀ q ∈ t.mem.reads, Waiter.req rid ∉ q.waiters)

/-- The request `rid`, not answered in `s`, ends in `t` with status `st`: the response of R61 leaves, formed from what the
request had reached in `s`; the request is answered, or has left the Reservoir as its completion entry is written at once; and
nothing works for it any more. -/
def State.Ends (s t : State) (rid st : Nat) : Prop :=
  ∃ r, s.req? rid = some r ∧
    (∃ rest, t.out = s.out ++
      Out.response r.record.reqId (respBytes r.record.reqId r.record.slice r.record.attempt (s.failResp r st)) :: rest) ∧
    (t.req? rid = none ∨ ∃ q, t.req? rid = some q ∧ q.life = .answered ∧ q.resp = some (s.failResp r st)) ∧
    t.NoWork rid

/-- The controller has issued a command to a Spout (R320): its word is on the bus of the pseudo-channel, only that Spout, the words
still to issue and the registers `ks` may differ, and no stored byte changes. -/
def SpoutIssued (s t : State) (n : SpoutName) (op opnd : Nat) (ks : List Nat) : Prop :=
  t = { s with hbm := t.hbm, out := t.out, regs := t.regs } ∧ OnlyRegs s t ks ∧
  t.out = s.out ++ [.spoutWord n (BitVec.ofNat 32 (spWord op n.bank opnd))] ∧
  t.hbm = { s.hbm with spouts := t.hbm.spouts, passes := t.hbm.passes } ∧ ∀ j, j ≠ keyOfSpout n → t.spout j = s.spout j

/-- PHASE, the bring-up step, PWROK and the reset under way agree with Tables 19-2 and 19-3: a node without PWROK is in reset,
a node in reset has PHASE 0 and no step, and outside reset each PHASE goes with its steps. -/
def Rst.Legal (r : Rst) : Prop :=
  (r.pwrok = false → r.inReset = true) ∧
  (r.inReset = true → r.phase = 0 ∧ r.step = 0) ∧
  (r.inReset = false →
    (r.phase = 0 ∧ 1 ≤ r.step ∧ r.step ≤ 3) ∨ (r.phase = 1 ∧ 4 ≤ r.step ∧ r.step ≤ 6) ∨
    (r.phase = 2 ∧ 7 ≤ r.step ∧ r.step ≤ 9) ∨ (r.phase = 3 ∧ r.step = 10) ∨ (r.phase = 4 ∧ 1 ≤ r.step ∧ r.step ≤ 9))

/-- STATE of a Basin is one of Table 19-9, and it is in a step of a domain restart exactly while it restarts. -/
def Basin.Legal (b : Basin) : Prop := b.state ≤ 3 ∧ b.step ≤ 6 ∧ (b.state = 1 ↔ 1 ≤ b.step)

/-- No committed register holds an ACTION: what a commit does is what its staged values say. -/
def State.NoActions (s : State) : Prop :=
  (∀ i, i < 32 → s.regF (Reg.IDX_CFG + 0x40 * i) 0 2 = 0) ∧ (∀ n, n < 8 → s.regF (Reg.POUR_CFG + 0x40 * n) 0 2 = 0) ∧
  (∀ pt, pt < 185 → s.regF (instKey Reg.SLU_GATE_CTRL pt) 0 2 = 0) ∧ s.regF Reg.SLC_CTRL 0 2 = 0 ∧
  s.regF Reg.CIST_FMT 0 2 = 0 ∧ s.regF Reg.KPR_FW_CFG 0 2 = 0

/-- The node with the action `act` staged in the register `key` as the one staged value, and GO written. -/
def State.committing (s : State) (key act : Nat) (set : U64 → U64) : State :=
  (s.stage key (set (setField (s.reg key) 0 2 act))).requestGo

/-- That commit can be made and passes every check of R455 and R456. -/
def State.Committable (s : State) (key act : Nat) (set : U64 → U64) : Prop :=
  s.fnUp 0 = true ∧ s.pageUp 0x02 = true ∧ s.commit = ⟨false, false, false⟩ ∧ s.staged = [] ∧ s.NoActions ∧
  (s.committing key act set).ownFail (s.committing key act set).adopted = none ∧
  (s.committing key act set).poolFails (s.committing key act set).adopted = []

/-- A commit has been accepted: its result is OK, it took effect at the present count and SEQ has risen. -/
def CommitAccepted (s t : State) : Prop :=
  t.reg Reg.HOST_COMMIT_TIME = s.now ∧ t.regF Reg.SLC_COMMIT_RESULT 0 8 = stOk ∧
  Counted s t Reg.HOST_COMMIT_STATUS 16 16 1 ∧ t.commit = ⟨false, false, false⟩

/-- The node's modes are legal. -/
def State.ModesLegal (s : State) : Prop := s.rst.Legal ∧ ∀ b, (s.basin b).Legal

end Sys2Proof.Machine
end

