-- ==== Sys2Proof/Certificates/Slice0/Obligations.lean ====
section
/-! DEFINITION. The statements about the node, for the provers. -/

section Statements

open Sys2Proof Sys2Proof.Machine

/-! ### The step -/

/-- A step is exec of the command at the front of the queue on the queue's rest; with an empty queue the node idles (the
model's choice, log 3). -/
def Obligations.StepRunsFront : Prop :=
  (∀ (c : Instr) (rest : List Instr) (s : State), s.pending = c :: rest → step s = exec c { s with pending := rest }) ∧
  (∀ s : State, s.pending = [] → step s = .next s)

/-- Every command of the table completes in every state, whatever its operands: no constructor of Instr ever faults or is refused. -/
def Obligations.EveryCommandCompletes : Prop :=
  ∀ (i : Instr) (s : State), Completes i s (fun _ => True)

/-- Requests are held under their numbers, each number once and below the next number to be given. -/
def Obligations.ReqsWellNumbered : Prop :=
  (Store.Sorted State.reset.reqs ∧ ∀ k ∈ Store.keys State.reset.reqs, k < State.reset.nextRid) ∧
  ∀ s t : State, (Store.Sorted s.reqs ∧ ∀ k ∈ Store.keys s.reqs, k < s.nextRid) → step s = .next t →
    Store.Sorted t.reqs ∧ ∀ k ∈ Store.keys t.reqs, k < t.nextRid

/-- No command touches the queue: what waits behind it waits in the next state, in the same order. -/
def Obligations.QueueUntouched : Prop :=
  ∀ (i : Instr) (s t : State), exec i s = .next t → t.pending = s.pending

/-! ### Invariants of every step -/

/-- The node after reset: its modes are legal, no command waits, no request, index or program is held, nothing is retired, every
register reads its reset value, the slice map has generation 1, and no page answers yet. -/
def Obligations.ResetLeaves : Prop :=
  State.reset.ModesLegal ∧ State.reset.pending = [] ∧ State.reset.out = [] ∧ (∀ k, State.reset.reg k = resetReg k) ∧
  (∀ rid, State.reset.req? rid = none) ∧ (∀ i, State.reset.index? i = none) ∧ (∀ n, (State.reset.prog n).state = 0) ∧
  (∀ p, State.reset.pageUp p = false) ∧ State.reset.record = [] ∧ State.reset.slices.gen = 1

/-- PHASE, the bring-up step, PWROK, the reset under way and the state of each Basin stay in agreement over every step. -/
def Obligations.ModesStayLegal : Prop := ∀ s t : State, s.ModesLegal → step s = .next t → t.ModesLegal

/-- The committed registers are kept in their canonical form over every step: keys strictly rising, and no entry equal to the
reset value that an unlisted register reads as. -/
def Obligations.RegsStayCanonical : Prop :=
  Store.Wf resetReg State.reset.regs ∧
  ∀ s t : State, Store.Wf resetReg s.regs → step s = .next t → Store.Wf resetReg t.regs

/-- No command removes or changes an entry of the retirement record: a unit once retired stays retired (R501). -/
def Obligations.RecordOnlyGrows : Prop :=
  ∀ (i : Instr) (s t : State), exec i s = .next t → ∃ more, t.record = s.record ++ more

/-- Fuses only ever blow: the fused security version never falls, a revoked key stays revoked, and a blown reset-level fuse
stays blown at its level (R487, R537). -/
def Obligations.FusesOnlyBlow : Prop :=
  ∀ (i : Instr) (s t : State), exec i s = .next t →
    s.keeper.svnFused ≤ t.keeper.svnFused ∧ (∀ n, s.keeper.revoked.testBit n = true → t.keeper.revoked.testBit n = true) ∧
    (s.rst.pwrokBlown = true → t.rst.pwrokBlown = true ∧ t.rst.pwrokLevel = s.rst.pwrokLevel) ∧
    (s.rst.resetnBlown = true → t.rst.resetnBlown = true ∧ t.rst.resetnLevel = s.rst.resetnLevel)

/-! ### Requests (R52 to R62)

A request or a part is taken when what has come due before it has fired (R37): `s` is the state after that, and `h` the header
with its 19 parameter bytes. -/

/-- A request of Table 3-3 that passes every check of Table 3-4 and finds room is accepted: it enters the Reservoir under the
next number with its header and payload unchanged, two copies of its return record, its T_ACCEPT, the map generation in force and
the map entry of its slice, and starts. Taking it in touches nothing but the admission frame owed on its port or the entry in
flight on its queue, and no register. So complete SEARCH, SEARCH_BATCH, GATHER, SCATTER, UPSERT, DELETE, EPOCH_SCHEDULE (flip and cancel), COMPACT,
JOIN (probe and self), CLUSTER_STEP (sums and apply), POUR and TOPK. -/
def Obligations.RequestsAccepted : Prop :=
  ∀ (i : Instr) (op : Nat) (src : Source) (h0 h : ReqHdr) (p : List Byte) (s0 s : State),
    requestOf i = some (op, src, h0, p) → h = fitParams h0 → s = s0.fireDue → s.sourceUp src = true →
    s.verdict op h p src (64 + p.length) = .run → s.roomFor (s.admitPart h.slice.toNat src) (64 + p.length) = true →
    Completes i s0 (fun t => ∃ (s1 : State) (r : Req), t = s1.startReq s.nextRid ∧
      s1 = { s with
        nextRid := s.nextRid + 1, reqs := Store.insert s.reqs s.nextRid r
        free := s1.free, urdun := s1.urdun, host := s1.host } ∧
      r.op = op ∧ r.hdr = h ∧ r.payload = p ∧ r.src = src ∧ r.tAccept = s.now ∧ r.life = .running ∧ r.gen = s.slices.gen ∧
      r.epoch = h.epoch ∧ r.entry = s.entry h.slice.toNat ∧ r.reruns = 0 ∧ r.spares = 0 ∧ r.resp = none ∧ r.toSource = false ∧
      r.ret.a = some (recordOf h src s.now) ∧ r.ret.b = r.ret.a ∧
      (bitsOf h.flags.toNat 0 4 ≠ 0 → r.cls = bitsOf h.flags.toNat 0 4) ∧
      (bitsOf h.flags.toNat 0 4 = 0 → r.cls = s.regF Reg.SLU_DEFCLASS (4 * opNumber op) 4))

/-- An accepted request begins with the first phase of its opcode. For an opcode whose first phase reads no list and takes no
window it is that phase, running, and nothing else changes; a GATHER counts its positions and takes a coalescer window, or
waits for one while none is free or another request has waited longer. A query with an element that R74 refuses ends the request
with BAD_DESCRIPTOR before any phase. -/
def Obligations.FirstPhaseBegins : Prop :=
  (∀ (s : State) (rid : Nat) (r : Req), s.req? rid = some r → r.op ≠ opGather →
    (∀ x, s.index? r.hdr.index.toNat = some x → r.refused x.desc.dim = false) →
    firstPhase r.op r.hdr ∈ [Phase.coarse, .check, .sched, .select] →
    s.phaseNeed { r with phase := firstPhase r.op r.hdr, phaseRuns := 0, suspect := none, onSpare := none, life := .running } = .go →
    s.startReq rid = s.modReq rid (fun q => { q with
      ran := true, phase := firstPhase r.op r.hdr, phaseRuns := 0, suspect := none, onSpare := none, life := .running })) ∧
  (∀ (s : State) (rid : Nat) (r : Req), s.req? rid = some r → r.op = opGather → r.winOpen = false →
    s.phaseNeed { r with phase := .coalesce, phaseRuns := 0, suspect := none, onSpare := none, life := .running } = .go →
    ∃ q, (s.startReq rid).req? rid = some q ∧ q.ran = true ∧ q.phase = .coalesce ∧ q.winLeft = r.windows.length - 1 ∧
      (if s.openWindows < s.regF Reg.GSJ_CFG 0 4 ∧ (∀ p ∈ s.reqs, p.1 ≠ rid → p.2.life ≠ .waitWindow)
        then q.winOpen = true ∧ q.life = .running else q.winOpen = false ∧ q.life = .waitWindow) ∧
      (s.startReq rid).regF Reg.GSJ_CNT_POSITIONS 0 64 = (s.regF Reg.GSJ_CNT_POSITIONS 0 64 + r.hdr.positions) % 2 ^ 64 ∧
      OnlyRegs s (s.startReq rid) [Reg.GSJ_CNT_POSITIONS] ∧ (s.startReq rid).indexes = s.indexes) ∧
  (∀ (s : State) (rid : Nat) (r : Req) (x : Index), s.req? rid = some r → r.life ≠ .answered →
    s.index? r.hdr.index.toNat = some x → r.refused x.desc.dim = true → s.now.toNat < r.hdr.deadline.toNat →
    s.Ends (s.startReq rid) rid stBadDescriptor)

/-- The first check of Table 3-4 that fails ends the request with its status: the response carries REQ_ID, SLICE and ATTEMPT as
received, no payload and no count. Steps 1, 2, 3 and 11 are said of the header itself. A request that finds no room is answered
BUSY and leaves no state in the Reservoir: over a port one admission frame with VERDICT 1 is owed, on a queue one completion whose
response has STATUS BUSY (R53, R415, R475). No request runs whose HDR_VER is not 0x01, and every response header carries HDR_VER
0x01 at offset 9 (R47, Table 3-5). -/
def Obligations.RefusalsAnswered : Prop :=
  (∀ (i : Instr) (op : Nat) (src : Source) (h0 h : ReqHdr) (p : List Byte) (s0 s : State) (n st : Nat),
    requestOf i = some (op, src, h0, p) → h = fitParams h0 → s = s0.fireDue → s.sourceUp src = true →
    s.verdict op h p src (64 + p.length) = .fail n st → s.roomFor (s.admitPart h.slice.toNat src) (64 + p.length) = true →
    Completes i s0 (fun t => t.progs = s.progs ∧ t.slices = s.slices ∧
      ∃ (resp : Resp) (rest : List Out), t.out = s.out ++ Out.response h.reqId (respBytes h.reqId h.slice h.attempt resp) :: rest ∧
        resp.status = st ∧ resp.flags = 0 ∧ resp.payload = [] ∧ resp.count = 0 ∧ resp.reruns = 0)) ∧
  (∀ (op : Nat) (src : Source) (h : ReqHdr) (p : List Byte) (s : State),
    ((h.payloadLen.toNat ≠ p.length ∨ p.length % 8 ≠ 0 ∨ 0x10000000 < p.length) →
      s.verdict op h p src (64 + p.length) = .fail 1 stBadLength) ∧
    (h.payloadLen.toNat = p.length → p.length % 8 = 0 → p.length ≤ 0x10000000 →
      (h.crc ≠ reqCrc op h p → s.verdict op h p src (64 + p.length) = .fail 2 stBadDescriptor) ∧
      (h.crc = reqCrc op h p → h.hdrVer ≠ 1 → s.verdict op h p src (64 + p.length) = .fail 3 stUnsupported)) ∧
    (s.verdict op h p src (64 + p.length) = .run → h.hdrVer = 1 ∧ s.now.toNat < h.deadline.toNat ∧ h.deadline.toNat ≤ s.now.toNat + 2 ^ 36 ∧
      s.configured h.slice.toNat = true ∧ srcMayUse src h.slice.toNat = true ∧ opTable.contains op = true)) ∧
  (∀ (i : Instr) (op : Nat) (port : Fin 8) (a : U64) (h0 h : ReqHdr) (p : List Byte) (s0 s : State),
    requestOf i = some (op, .port port a, h0, p) → h = fitParams h0 → s = s0.fireDue → s.portUp port = true →
    s.roomFor (s.admitPart h.slice.toNat (.port port a)) (64 + p.length) = false →
    Completes i s0 (fun t => t = { s with free := s.free + 1, urdun := t.urdun } ∧
      ∃ f : Frame, (t.port port).admDue = (s.port port).admDue ++ [(s.tick, f)] ∧ f.kind = 4 ∧ byteAt f.payload 12 = 1 ∧
        leAt f.payload 0 8 = h.reqId.toNat)) ∧
  (∀ (i : Instr) (op : Nat) (fn : Fin 17) (q : Fin 16) (tag : U32) (addr : U64) (len : U32) (h0 h : ReqHdr) (p : List Byte)
    (s0 s : State),
    requestOf i = some (op, .host fn q tag addr len, h0, p) → h = fitParams h0 → s = s0.fireDue → s.rst.phase = 3 →
    q.val < queueCount fn → (s.queue fn q).owed = [] →
    s.roomFor (s.admitPart h.slice.toNat (.host fn q tag addr len)) (64 + p.length) = false →
    Completes i s0 (fun t => t.reqs = s.reqs ∧ t.nextRid = s.nextRid ∧ t.indexes = s.indexes ∧
      Counted s t (instKey Reg.HQ_CNT fn) 0 32 1)) ∧
  (∀ (id : U64) (slice attempt : Byte) (r : Resp), byteAt (respBytes id slice attempt r) 9 = 1)

/-- A phase of a request ends: at or after DEADLINE the request ends with DEADLINE_MISSED; one whose state the Reservoir cannot
read back ends with STATE_LOST, at once when no phase is under way; else its output is formed. A TOPK whose rows hold no NaN and no bad
padding answers OK with one part a row. The phase of a part that this node serves ends in the same way: its reply leaves. -/
def Obligations.PhaseCompletes : Prop :=
  (∀ (rid : Nat) (s : State) (r : Req), s.req? rid = some r → r.life ≠ .answered → r.underWay = false →
    s.now.toNat < r.hdr.deadline.toNat →
    Completes (.phaseComplete rid ⟨false, none⟩) s (fun t => s.Ends t rid stStateLost)) ∧
  (∀ (rid : Nat) (ok : Bool) (s : State) (r : Req), s.req? rid = some r → s.phaseReady rid r = true →
    r.hdr.deadline.toNat ≤ s.now.toNat →
    Completes (.phaseComplete rid ⟨ok, none⟩) s (fun t => s.Ends t rid stDeadlineMissed)) ∧
  (∀ (rid : Nat) (ok : Bool) (s : State) (r : Req), s.req? rid = some r → s.phaseReady rid r = true →
    s.now.toNat < r.hdr.deadline.toNat → (ok = false ∨ r.lost = true) →
    Completes (.phaseComplete rid ⟨ok, none⟩) s (fun t => s.Ends t rid stStateLost)) ∧
  (∀ (rid : Nat) (s : State) (r : Req), s.req? rid = some r → s.phaseReady rid r = true →
    s.now.toNat < r.hdr.deadline.toNat → r.lost = false →
    Completes (.phaseComplete rid ⟨true, none⟩) s (fun t => ∃ q, ((s.scanSplits rid r).endRun rid r).req? rid = some q ∧
      q.hdr = r.hdr ∧ q.payload = r.payload ∧ q.work = r.work ∧ q.phase = r.phase ∧
      t = ((s.scanSplits rid r).endRun rid r).phaseOut rid q)) ∧
  (∀ (rid : Nat) (s : State) (r : Req), s.req? rid = some r → s.phaseReady rid r = true →
    s.now.toNat < r.hdr.deadline.toNat → r.lost = false → r.op = opTopk → r.hdr.tkFmt = 0 →
    (∀ k, k < r.hdr.tkRows → rowNaN (topkRow r.hdr r.payload k) = false) →
    Completes (.phaseComplete rid ⟨true, none⟩) s (fun t => ∃ (resp : Resp) (rest : List Out),
      t.out = s.out ++
        Out.response r.record.reqId (respBytes r.record.reqId r.record.slice r.record.attempt resp) :: rest ∧ resp.status = stOk ∧
      resp.payload = (List.range r.hdr.tkRows).flatMap (fun k =>
        partHeader k (topkPart r.hdr.k (topkRow r.hdr r.payload k)).1 ++ (topkPart r.hdr.k (topkRow r.hdr r.payload k)).2))) ∧
  (∀ (pid : Nat) (s : State) (p : PartIn) (out : List Byte × Nat), s.req? pid = none → Store.find? s.partsIn pid = some p →
    p.reply = some out → p.lost = false → s.now.toNat < (partDeadline p.body).toNat →
    Completes (.phaseComplete pid ⟨true, none⟩) s (fun t => Store.find? t.partsIn pid = none ∧ t.reqs = s.reqs ∧
      ∃ m, Store.find? t.urdun.msgs s.urdun.nextMid = some m ∧ m.kind = .partReply ∧ m.body = out.1))

/-- A fault of a phase of a running request discards the phase's partial output and runs it again, which adds 1 to RERUNS; after
RERUN_MAX re-executions the request ends with RESOURCE_FAILED. A fetch that has left its first window waits for it again. The first
fault of a unit makes it suspect, and a second one while it is suspect is a lasting fault, which records the unit as retired. A phase
that needs the bridge between Basins that serve alone ends with RESOURCE_FAILED. -/
def Obligations.PhaseFaultReruns : Prop :=
  (∀ (rid : Nat) (s : State) (r : Req), s.req? rid = some r → r.life = .running → r.holds = false →
    r.phaseRuns < s.regF Reg.RST_CFG 32 8 → (∀ p ∈ s.partsOut, p.rid ≠ rid) →
    ((r.phase ≠ .fetch ∧ r.phase ≠ .exact) ∨ r.windows = []) →
    Completes (.phaseFault rid ⟨0, 0, 0, none⟩) s (fun t => t.regs = s.regs ∧ t.out = s.out ∧ t.record = s.record ∧
      t.req? rid = some { r with
        reruns := min 255 (r.reruns + 1), phaseRuns := r.phaseRuns + 1, work := r.work.discard r.phase })) ∧
  (∀ (rid : Nat) (s : State) (r : Req), s.req? rid = some r → r.life = .running → r.holds = false →
    s.regF Reg.RST_CFG 32 8 ≤ r.phaseRuns → s.now.toNat < r.hdr.deadline.toNat →
    Completes (.phaseFault rid ⟨0, 0, 0, none⟩) s (fun t => s.Ends t rid stResourceFailed)) ∧
  (∀ (rid kind loc : Nat) (s : State) (r : Req), s.req? rid = some r → r.life = .running → r.holds = false →
    kind ∉ [0, kWeirLane, kRunnel, kColumn, kSpout] → r.suspect = none → r.onSpare ≠ some (kind, loc) →
    r.phaseRuns < s.regF Reg.RST_CFG 32 8 → (∀ p ∈ s.partsOut, p.rid ≠ rid) →
    ((r.phase ≠ .fetch ∧ r.phase ≠ .exact) ∨ r.windows = []) →
    Completes (.phaseFault rid ⟨kind, loc, 0, none⟩) s (fun t => t.regs = s.regs ∧ t.out = s.out ∧ t.record = s.record ∧
      t.req? rid = some { r with
        suspect := some (kind, loc), onSpare := none
        reruns := min 255 (r.reruns + 1), phaseRuns := r.phaseRuns + 1, work := r.work.discard r.phase })) ∧
  (∀ (rid kind loc : Nat) (s : State) (r : Req), s.req? rid = some r → r.life = .running → r.holds = false →
    kind ∈ [kRill, kRunnel, kColumn, kWeirLane, kSpout] → r.suspect = some (kind, loc) → r.onSpare ≠ some (kind, loc) →
    Completes (.phaseFault rid ⟨kind, loc, 0, none⟩) s (fun t => recorded t.record kind loc = true ∧
      ∃ more, t.record = s.record ++ more)) ∧
  (∀ (rid : Nat) (s : State) (r : Req), s.req? rid = some r → r.life = .running → r.holds = false →
    r.phaseRuns < s.regF Reg.RST_CFG 32 8 → (∀ p ∈ s.partsOut, p.rid ≠ rid) →
    (r.phase = .fetch ∨ r.phase = .exact) → r.windows ≠ [] → (r.winOpen = false ∨ r.winLeft ≠ r.windows.length - 1) →
    Completes (.phaseFault rid ⟨0, 0, 0, none⟩) s (fun t => OnlyRegs s t [Reg.GSJ_CNT_WINDOWS] ∧ t.record = s.record ∧ ∃ q, t.req? rid = some q ∧
      q.hdr = r.hdr ∧ q.payload = r.payload ∧ q.reruns = min 255 (r.reruns + 1) ∧ q.phaseRuns = r.phaseRuns + 1 ∧
      q.work = r.work.discard r.phase ∧ q.winLeft = r.windows.length - 1 ∧ q.life = .waitWindow)) ∧
  (∀ (rid kind loc : Nat) (b : Fin 2) (s : State) (r : Req), s.req? rid = some r → r.life = .running → r.holds = false →
    s.fencing b = false → s.apart = true → s.now.toNat < r.hdr.deadline.toNat → kind ∉ [kWeirLane, kRunnel, kColumn, kSpout] →
    Completes (.phaseFault rid ⟨kind, loc, 0, some b⟩) s (fun t => s.Ends t rid stResourceFailed))

/-- When DEADLINE arrives before completion the request is stopped: with TIER_LATE while it waits on a lower-tier read, else
with DEADLINE_MISSED, and nothing works for it any more. A part that this node serves is answered in the same way. A response not
delivered by DEADLINE + 100,000 is dropped and counted (R71). -/
def Obligations.DeadlineStops : Prop :=
  (∀ (rid : Nat) (s : State) (r : Req), s.req? rid = some r → r.life ≠ .answered → r.record.deadline.toNat ≤ s.now.toNat →
    (∀ q ∈ s.mem.reads, Waiter.req rid ∉ q.waiters) →
    Completes (.deadlineArrival rid) s (fun t => s.Ends t rid stDeadlineMissed)) ∧
  (∀ (rid : Nat) (s : State) (r : Req), s.req? rid = some r → r.life ≠ .answered → r.record.deadline.toNat ≤ s.now.toNat →
    (∃ q ∈ s.mem.reads, Waiter.req rid ∈ q.waiters) →
    Completes (.deadlineArrival rid) s (fun t => s.Ends t rid stTierLate)) ∧
  (∀ (pid : Nat) (s : State) (p : PartIn), s.req? pid = none → Store.find? s.partsIn pid = some p →
    (partDeadline p.body).toNat ≤ s.now.toNat → (∀ q ∈ s.mem.reads, Waiter.part pid ∉ q.waiters) →
    Completes (.deadlineArrival pid) s (fun t => Store.find? t.partsIn pid = none ∧ t.reqs = s.reqs ∧
      ∃ m, Store.find? t.urdun.msgs s.urdun.nextMid = some m ∧ m.kind = .partReply ∧
        m.body = failReply p.kind (partToken p.body) stDeadlineMissed)) ∧
  (∀ (rid : Nat) (s : State) (r : Req) (port : Fin 8) (a : U64), s.req? rid = some r → r.life = .answered →
    r.src = .port port a → r.record.deadline.toNat + 100000 ≤ s.now.toNat → (∀ m ∈ s.urdun.msgs, m.2.kind ≠ .partReply) →
    Completes (.responseDrop rid) s (fun t => t.req? rid = none ∧ t.hwReq.undelivered = s.hwReq.undelivered + 1 ∧
      (∀ m ∈ t.urdun.msgs, ¬ (m.2.kind = .response ∧ m.2.rid = some rid)) ∧ t.out = s.out ∧ t.indexes = s.indexes))

/-! ### Parts and replies (R153, R232, R415, R419, R561) -/

/-- A part that reaches the owner whole gets one admission frame: BUSY and nothing else when there is no room, else ACCEPT, and
the part is held under the next number, with the map entry of its slice, before its checks. A reply whose TOKEN names no pending part is only counted; one that
cannot be parsed is a fault of the phase that sent the part. So complete the parts and the replies of GATHER and of RERANK. -/
def Obligations.PartsAdmitted : Prop :=
  (∀ (gather : Bool) (port : Fin 8) (src : U64) (body : List Byte) (s0 s : State),
    s = s0.fireDue → s.portUp port = true → s.roomFor (s.partSlice body) body.length = false →
    Completes (if gather then .gatherPart port src body else .rerankPart port src body) s0 (fun t =>
      t = { s with free := s.free + 1, urdun := t.urdun } ∧
      ∃ f : Frame, (t.port port).admDue = (s.port port).admDue ++ [(s.tick, f)] ∧ f.kind = 4 ∧ byteAt f.payload 12 = 1 ∧
        leAt f.payload 0 8 = partToken body)) ∧
  (∀ (gather : Bool) (port : Fin 8) (src : U64) (body : List Byte) (s0 s : State),
    s = s0.fireDue → s.portUp port = true → s.roomFor (s.partSlice body) body.length = true →
    Completes (if gather then .gatherPart port src body else .rerankPart port src body) s0 (fun t =>
      ∃ (s1 : State) (f : Frame), t = s1.tryPart s.nextRid ∧
        s1 = { s with
          free := s.free + 1, urdun := s1.urdun, nextRid := s.nextRid + 1
          partsIn := Store.insert s.partsIn s.nextRid {
            kind := if gather then .gather else .rerank, body := body, port := port, src := src
            slice := s.partSlice body, tAccept := s.now
            entry := s.entry ((s.partSlice body).getD 16), gen := s.slices.gen } } ∧
        (s1.port port).admDue = (s.port port).admDue ++ [(s.tick, f)] ∧
        f.kind = 4 ∧ byteAt f.payload 12 = 0)) ∧
  (∀ (gather : Bool) (port : Fin 8) (src : U64) (body : List Byte) (s : State),
    (∀ p ∈ s.partsOut, p.token = partToken body → p.done = true) →
    Completes (if gather then .gatherReply port src body else .rerankReply port src body) s (fun t =>
      t = s.bumpSat Reg.URD_CNT_DROP 48 16 1)) ∧
  (∀ (gather : Bool) (port : Fin 8) (src : U64) (body : List Byte) (s : State) (p : PartOut) (r : Req) (x : Index),
    s.partsOut.find? (fun q => q.token == partToken body && !q.done) = some p → s.req? p.rid = some r →
    s.index? r.hdr.index.toNat = some x → body.length < 16 →
    Completes (if gather then .gatherReply port src body else .rerankReply port src body) s (fun t =>
      t = s.phaseFault p.rid ⟨0, 0, 0, none⟩ false))

/-- A good reply to a pending part is taken: its survivors or rows join the retained output, the part is done, and the request's
descriptor is untouched. -/
def Obligations.RepliesTaken : Prop :=
  (∀ (port : Fin 8) (src : U64) (body : List Byte) (s : State) (p : PartOut) (r : Req) (x : Index),
    s.partsOut.find? (fun q => q.token == partToken body && !q.done) = some p → p.kind = .gather →
    s.req? p.rid = some r → s.index? r.hdr.index.toNat = some x →
    16 ≤ body.length → byteAt body 8 = stOk → leAt body 9 3 = 0 →
    leAt body 12 4 = ((p.groups.map Prod.snd).flatMap id).length →
    (parseGathered x.desc ((p.groups.map Prod.snd).flatMap id) (body.drop 16)).2 = true →
    Completes (.gatherReply port src body) s (fun t => t = { s with reqs := t.reqs, partsOut := t.partsOut } ∧
      (∃ q, t.req? p.rid = some q ∧ q.hdr = r.hdr ∧ q.payload = r.payload ∧ q.life = r.life ∧ q.phase = r.phase ∧
        q.work.rows = r.work.rows ++ (parseGathered x.desc ((p.groups.map Prod.snd).flatMap id) (body.drop 16)).1) ∧
      (∀ q ∈ t.partsOut, q.token = p.token → q.done = true ∧ q.busy = false))) ∧
  (∀ (port : Fin 8) (src : U64) (body : List Byte) (s : State) (p : PartOut) (r : Req) (x : Index),
    s.partsOut.find? (fun q => q.token == partToken body && !q.done) = some p → p.kind ≠ .gather →
    s.req? p.rid = some r → s.index? r.hdr.index.toNat = some x →
    16 ≤ body.length → byteAt body 8 = stOk → byteAt body 9 = 0 → leAt body 12 4 = 0 → leAt body 10 2 = p.groups.length →
    (parseSurvivors p.groups (body.drop 16)).2 = true →
    Completes (.rerankReply port src body) s (fun t => t = { s with reqs := t.reqs, partsOut := t.partsOut } ∧
      (∀ q ∈ t.partsOut, q.token = p.token → q.done = true ∧ q.busy = false) ∧
      ∃ q, t.req? p.rid = some q ∧ q.hdr = r.hdr ∧ q.payload = r.payload ∧ q.life = r.life ∧ q.phase = r.phase ∧
        (∀ (k : Nat) (v : QWork), r.work.queries[k]? = some v → ∃ w : QWork, q.work.queries[k]? = some w ∧
          w.cands = v.cands ∧ w.order = v.order ∧
          w.surv = v.surv ++ ((parseSurvivors p.groups (body.drop 16)).1.filter (fun e => e.1 == k)).flatMap Prod.snd)))

/-- A part that was answered BUSY is marked to be sent again, ACCEPT unmarks it, and each resend before its DEADLINE sends it
as it stood; where the route has come to name the node itself, whose index does not hold the shard, the request ends with
BAD_DESCRIPTOR. -/
def Obligations.BusyPartsResent : Prop :=
  (∀ (port : Fin 8) (src : U64) (body : List Byte) (s : State),
    Completes (.admissionFrame port src body) s (fun t => t = { s with partsOut := t.partsOut } ∧
      ∀ (k : Nat) (p : PartOut), s.partsOut[k]? = some p → t.partsOut[k]? = some (
        if p.token = partToken body ∧ p.done = false then { p with busy := decide (byteAt body 12 = 1) } else p))) ∧
  (∀ (token : Nat) (s : State) (p : PartOut) (r : Req) (x : Index),
    s.partsOut.find? (fun q => q.token == token && q.busy && !q.done) = some p → s.now.toNat < (partDeadline p.body).toNat →
    s.req? p.rid = some r → s.index? r.hdr.index.toNat = some x →
    bit (s.reg (instKey Reg.URD_ROUTE_DATA (r.hdr.index.toNat + 32 * x.shards.idxOf p.shard))) 12 = true →
    field (s.reg (instKey Reg.URD_ROUTE_DATA (r.hdr.index.toNat + 32 * x.shards.idxOf p.shard))) 0 12 ≠ s.ownNode →
    Completes (.partResend token) s (fun t => t = { s with partsOut := t.partsOut, urdun := t.urdun, points := t.points } ∧
      (∀ q ∈ t.partsOut, q.token = token → q.busy = false) ∧
      ∃ m, Store.find? t.urdun.msgs s.urdun.nextMid = some m ∧ m.kind = .part ∧ m.body = p.body ∧ m.rid = some p.rid ∧
        adrNode m.dest = field (s.reg (instKey Reg.URD_ROUTE_DATA (r.hdr.index.toNat + 32 * x.shards.idxOf p.shard))) 0 12)) ∧
  (∀ (token : Nat) (s : State) (p : PartOut) (r : Req) (x : Index),
    s.partsOut.find? (fun q => q.token == token && q.busy && !q.done) = some p → s.now.toNat < (partDeadline p.body).toNat →
    s.req? p.rid = some r → r.life ≠ .answered → s.index? r.hdr.index.toNat = some x → s.now.toNat < r.hdr.deadline.toNat →
    bit (s.reg (instKey Reg.URD_ROUTE_DATA (r.hdr.index.toNat + 32 * x.shards.idxOf p.shard))) 12 = true →
    field (s.reg (instKey Reg.URD_ROUTE_DATA (r.hdr.index.toNat + 32 * x.shards.idxOf p.shard))) 0 12 = s.ownNode →
    Completes (.partResend token) s (fun t => s.Ends t p.rid stBadDescriptor)) ∧
  (∀ (token : Nat) (s : State) (p : PartOut),
    s.partsOut.find? (fun q => q.token == token && q.busy && !q.done) = some p → (partDeadline p.body).toNat ≤ s.now.toNat →
    Completes (.partResend token) s (fun t => t = s))

/-! ### Selection and windows (R143 to R183, R235) -/

/-- The result of a pass does not depend on the order of its row, but for the payload words of entries with equal keys: the kept
keys and copy counts, the tie count and the counts of entries are those of any order (R167, R171). -/
def Obligations.PassIgnoresOrder : Prop :=
  (∀ (keep : Nat) (a b : List Entry), a.Perm b →
    (weirPass true keep (a.map scoreEnt)).kept.map (fun w => (w.key, w.gid, w.copies)) =
      (weirPass true keep (b.map scoreEnt)).kept.map (fun w => (w.key, w.gid, w.copies)) ∧
    (weirPass true keep (a.map scoreEnt)).ties = (weirPass true keep (b.map scoreEnt)).ties ∧
    (weirPass true keep (a.map scoreEnt)).distinct = (weirPass true keep (b.map scoreEnt)).distinct ∧
    (weirPass true keep (a.map scoreEnt)).valid = (weirPass true keep (b.map scoreEnt)).valid) ∧
  (∀ (keep : Nat) (a b : List (Nat × GlobalId)), a.Perm b →
    weirPass false keep (a.map (fun e => sketchEnt e.1 e.2)) = weirPass false keep (b.map (fun e => sketchEnt e.1 e.2)))

/-- A selection that is split keeps what one pass would keep: a pass over the results of two passes, each with the selection's
keep count, keeps the entries and copy counts of one pass over both rows (R174). -/
def Obligations.SplitPassAgrees : Prop :=
  (∀ (keep : Nat) (a b : List Entry),
    (weirPass true keep ((weirPass true keep (a.map scoreEnt)).kept ++ (weirPass true keep (b.map scoreEnt)).kept)).kept =
      (weirPass true keep ((a ++ b).map scoreEnt)).kept) ∧
  (∀ (keep : Nat) (a b : List (Nat × GlobalId)),
    (weirPass false keep ((weirPass false keep (a.map (fun e => sketchEnt e.1 e.2))).kept ++
        (weirPass false keep (b.map (fun e => sketchEnt e.1 e.2))).kept)).kept =
      (weirPass false keep ((a ++ b).map (fun e => sketchEnt e.1 e.2))).kept)

/-- A Weir pass of a row of 1 to 65,536 entries with a keep count of 1 to 8,192 gives out its result, counts itself, its entries
and its insertions, and changes nothing else; the pass of a lane under injection is a parity fault of the phase it serves, once, and
counts nothing (the model's choice, log 153). There is no pass of another size. INJECT sets the injection of a lane. -/
def Obligations.WeirPassCounts : Prop :=
  (∀ (lane : Option (Fin 16)) (rid keep : Nat) (sketch : Bool) (ents : List WeirEntry) (s : State),
    1 ≤ keep → keep ≤ 8192 → 1 ≤ ents.length → ents.length ≤ 65536 →
    (bit (s.reg Reg.WEIR_CTRL) 0 = false ∨ ∀ l, lane = some l → s.regF Reg.WEIR_CTRL 1 4 ≠ l.val) →
    Completes (.weirPass lane rid sketch keep ents) s (fun t => t = { s with regs := t.regs, out := t.out } ∧
      t.out = s.out ++ [.weir lane ((weirPass (!sketch) keep (ents.map (WeirEntry.went sketch))).kept.map (WEnt.entry sketch))
        (weirPass (!sketch) keep (ents.map (WeirEntry.went sketch))).ties] ∧
      OnlyRegs s t [Reg.WEIR_CNT_PASSES, Reg.WEIR_CNT_ENTRIES, Reg.WEIR_CNT_INSERTS] ∧
      Counted s t Reg.WEIR_CNT_PASSES 0 64 1 ∧ Counted s t Reg.WEIR_CNT_ENTRIES 0 64 ents.length ∧
      Counted s t Reg.WEIR_CNT_INSERTS 0 64 (weirInserts keep (ents.map (WeirEntry.went sketch)) []))) ∧
  (∀ (lane : Option (Fin 16)) (rid keep : Nat) (sketch : Bool) (ents : List WeirEntry) (s : State),
    (keep = 0 ∨ 8192 < keep ∨ ents = [] ∨ 65536 < ents.length) →
    Completes (.weirPass lane rid sketch keep ents) s (fun t => t = s)) ∧
  (∀ (l : Fin 16) (rid keep : Nat) (sketch : Bool) (ents : List WeirEntry) (s : State),
    1 ≤ keep → keep ≤ 8192 → 1 ≤ ents.length → ents.length ≤ 65536 →
    bit (s.reg Reg.WEIR_CTRL) 0 = true → s.regF Reg.WEIR_CTRL 1 4 = l.val → s.phaseRun rid = none →
    Completes (.weirPass (some l) rid sketch keep ents) s (fun t => t = { s with regs := t.regs } ∧
      OnlyRegs s t [Reg.WEIR_CTRL, Reg.WEIR_ERR] ∧ bit (t.reg Reg.WEIR_CTRL) 0 = false ∧
      CountedSat s t Reg.WEIR_ERR 0 16 1)) ∧
  (∀ (l : Fin 16) (s : State), s.pageUp (keyPage Reg.WEIR_CTRL) = true →
    Completes (.injectWeirParity l) s (fun t => t = { s with regs := t.regs } ∧ OnlyRegs s t [Reg.WEIR_CTRL] ∧
      t.regF Reg.WEIR_CTRL 0 1 = 1 ∧ t.regF Reg.WEIR_CTRL 1 4 = l.val))

/-- A Runnel holds for each query the best of what it held and of the local waterline of its Rills' heaps, and its Rills receive
it; Headworks gives the best of all Runnels to every Runnel that works on the query. No exchange loosens a waterline, and none
touches what a heap holds. -/
def Obligations.WaterlinesTighten : Prop :=
  (∀ (n : RunnelName) (s : State),
    Completes (.waterlineExchangeRunnel ⟨n.basin, n.terrace⟩ n.runnel) s (fun t => t = { s with fabric := t.fabric } ∧
      t.fabric.routers = s.fabric.routers ∧ t.fabric.bridges = s.fabric.bridges ∧ t.fabric.srams = s.fabric.srams ∧
      t.fabric.water.shared = s.fabric.water.shared ∧
      t.fabric.rills.map (fun p => (p.1, p.2.heaps.map Heap.ents)) = s.fabric.rills.map (fun p => (p.1, p.2.heaps.map Heap.ents)) ∧
      (∀ (rk : Nat) (q : Nat × Nat) (v : SketchPair), s.fabric.water.at rk q = some v →
        ∃ w, t.fabric.water.at rk q = some w ∧ sketchKey v.1 v.2 ≤ sketchKey w.1 w.2) ∧
      (∀ (prn : Nat), s.physRunnel n.basin n.terrace n.runnel = some prn →
        ∀ q ∈ s.queriesIn (runnelKey n.basin n.terrace prn), ∀ v : SketchPair,
          runnelWl (s.heapsFor (runnelKey n.basin n.terrace prn) q) = some v →
          (∃ w, t.fabric.water.at (runnelKey n.basin n.terrace prn) q = some w ∧ sketchKey v.1 v.2 ≤ sketchKey w.1 w.2) ∧
          ∀ h ∈ t.heapsFor (runnelKey n.basin n.terrace prn) q, ∃ u, h.shared = some u ∧
            sketchKey v.1 v.2 ≤ sketchKey u.1 u.2))) ∧
  (∀ s : State, Completes .waterlineExchangeHeadworks s (fun t =>
      t = { s with fabric := t.fabric, hbm := t.hbm, out := t.out } ∧
      t.fabric = { s.fabric with water := t.fabric.water } ∧
      t.hbm = { s.hbm with spouts := t.hbm.spouts, passes := t.hbm.passes } ∧
      (∀ (rk : Nat) (q : Nat × Nat) (v : SketchPair), s.fabric.water.at rk q = some v →
        ∃ w, t.fabric.water.at rk q = some w ∧ sketchKey v.1 v.2 ≤ sketchKey w.1 w.2) ∧
      (∀ e ∈ s.fabric.water.runnel, ∀ p ∈ s.fabric.rills, (∃ h ∈ p.2.heaps, h.rid = e.2.1 ∧ h.query = e.2.2.1) →
        ∃ w, t.fabric.water.at (runnelOfKey p.1) (e.2.1, e.2.2.1) = some w ∧
          sketchKey e.2.2.2.1 e.2.2.2.2 ≤ sketchKey w.1 w.2) ∧
      (∀ e ∈ s.fabric.water.runnel, ∃ f ∈ t.fabric.water.shared, f.1 = e.2.1 ∧ f.2.1 = e.2.2.1 ∧
        sketchKey e.2.2.2.1 e.2.2.2.2 ≤ sketchKey f.2.2.1 f.2.2.2)))

/-- A batch window closes when WINDOW drops have passed or 256 queries have joined it: the window alone goes, and one stream, thin
or dense, is counted for each view of the list that its members have; before that, with no deadline near, it stays. A request whose
open coalescer window has been served closes it, counts it and waits for the next behind those that have waited longer. -/
def Obligations.WindowsClose : Prop :=
  (∀ (idx : Fin 32) (slot : Nat) (s : State) (w : Window) (x : Index),
    s.windows.find? (fun w => w.idx == idx.val && w.slot == slot) = some w → s.index? idx = some x →
    (w.opened.toNat + s.regF Reg.SRCH_CFG 16 14 ≤ s.now.toNat ∨ 256 ≤ w.members.length) →
    Completes (.batchWindowClose idx slot) s (fun t =>
      t = { s with windows := s.windows.erase w, free := t.free, regs := t.regs, hbm := t.hbm, fabric := t.fabric } ∧
      OnlyRegs s t [Reg.SRCH_CNT_SKIPPED, Reg.SRCH_CNT_SCANNED, Reg.SRCH_CNT_THIN, Reg.SRCH_CNT_DENSE] ∧
      (t.regF Reg.SRCH_CNT_THIN 0 64 + t.regF Reg.SRCH_CNT_DENSE 0 64) % 2 ^ 64 =
        (s.regF Reg.SRCH_CNT_THIN 0 64 + s.regF Reg.SRCH_CNT_DENSE 0 64 +
          ((w.members.filterMap (fun m => (s.req? m.1).map (fun r => x.view r.epoch slot))).dedup).length) % 2 ^ 64 ∧
      t.hbm = { s.hbm with counts := t.hbm.counts, passes := t.hbm.passes } ∧
      t.fabric = { s.fabric with rills := t.fabric.rills, srams := t.fabric.srams })) ∧
  (∀ (idx : Fin 32) (slot : Nat) (s : State) (w : Window),
    s.windows.find? (fun w => w.idx == idx.val && w.slot == slot) = some w →
    s.now.toNat < w.opened.toNat + s.regF Reg.SRCH_CFG 16 14 → w.members.length < 256 →
    (∀ m ∈ w.members, ∃ r, s.req? m.1 = some r ∧ s.now.toNat + 4 * s.regF Reg.SRCH_CFG 16 14 ≤ r.hdr.deadline.toNat) →
    Completes (.batchWindowClose idx slot) s (fun t => t = s)) ∧
  (∀ (rid : Nat) (s : State) (r : Req), s.req? rid = some r → r.life = .running → r.winOpen = true → r.winLeft ≠ 0 →
    r.phase ≠ .coalesce → s.windowDone rid = true →
    Completes (.coalescerWindowFree rid) s (fun t => ∃ (s1 : State) (q : Req),
      s1 = { s with regs := s1.regs, reqs := Store.insert s.reqs rid q } ∧
      OnlyRegs s s1 [Reg.GSJ_CNT_WINDOWS] ∧ Counted s s1 Reg.GSJ_CNT_WINDOWS 0 64 1 ∧
      q = { r with winOpen := false, life := .waitWindow, winLeft := r.winLeft - 1 } ∧ t = s1.handWindows s1.reqs.length)) ∧
  (∀ (rid : Nat) (s : State), (∀ p ∈ s.reqs, p.2.life ≠ .waitWindow) → s.windowDone rid = false →
    Completes (.coalescerWindowFree rid) s (fun t => t = s))

/-! ### Urdun links (R405 to R422) -/

/-- A frame with a failed CRC or length is answered by a NACK that names the next frame expected, and so is a frame out of
sequence; both are discarded. A good frame in sequence is acknowledged, its credits are granted again and LSEQ advances; one for
another node or unit is then dropped and counted, and the others go to reassembly. -/
def Obligations.FramesChecked : Prop :=
  (∀ (port : Fin 8) (bs : List Byte) (s : State), s.portUp port = true →
    (bs.length ≠ 48 + leAt bs 28 2 ∨
      leAt bs (40 + leAt bs 28 2) 4 ≠ (crc32c (bs.take (40 + leAt bs 28 2))).toNat) →
    Completes (.urdunFrame port bs) s (fun t => t = { s with regs := t.regs, out := t.out } ∧
      t.out = s.out ++ [.ctrl port (ctrlBytes (.nack (s.port port).rxSeq))] ∧ OnlyRegs s t [instKey Reg.URD_PORT_ERR port] ∧
      CountedSat s t (instKey Reg.URD_PORT_ERR port) 32 16 1 ∧ CountedSat s t (instKey Reg.URD_PORT_ERR port) 16 16 1)) ∧
  (∀ (port : Fin 8) (bs : List Byte) (s : State), s.portUp port = true → bs.length = 48 + leAt bs 28 2 →
    leAt bs (40 + leAt bs 28 2) 4 = (crc32c (bs.take (40 + leAt bs 28 2))).toNat → leAt bs 0 2 ≠ (s.port port).rxSeq →
    Completes (.urdunFrame port bs) s (fun t => t = { s with regs := t.regs, out := t.out } ∧
      t.out = s.out ++ [.ctrl port (ctrlBytes (.nack (s.port port).rxSeq))] ∧ OnlyRegs s t [instKey Reg.URD_PORT_ERR port] ∧
      CountedSat s t (instKey Reg.URD_PORT_ERR port) 16 16 1)) ∧
  (∀ (port : Fin 8) (bs : List Byte) (s : State), s.portUp port = true → bs.length = 48 + leAt bs 28 2 →
    leAt bs (40 + leAt bs 28 2) 4 = (crc32c (bs.take (40 + leAt bs 28 2))).toNat → leAt bs 0 2 = (s.port port).rxSeq →
    byteAt bs 2 ≠ 4 →
    (adrNode (BitVec.ofNat 64 (leAt bs 8 8)) ≠ s.ownNode ∨
      kindUnit (byteAt bs 2) ≠ some (adrUnit (BitVec.ofNat 64 (leAt bs 8 8)))) →
    Completes (.urdunFrame port bs) s (fun t => t = { s with regs := t.regs, out := t.out, urdun := t.urdun } ∧
      t.out = s.out ++ [.ctrl port (ctrlBytes (.ack (s.port port).rxSeq)),
        .ctrl port (ctrlBytes (.credit false (t.port port).given))] ∧
      t.port port = { s.port port with
        rxSeq := ((s.port port).rxSeq + 1) % 65536
        given := ((s.port port).given + (bs.length + 63) / 64) % 4294967296 } ∧
      t.urdun.reasm = s.urdun.reasm ∧ t.urdun.msgs = s.urdun.msgs ∧
      OnlyRegs s t [Reg.URD_CNT_FRAMES, Reg.URD_CNT_DROP] ∧ Counted s t Reg.URD_CNT_FRAMES 0 64 1 ∧
      CountedSat s t Reg.URD_CNT_DROP 0 16 1)) ∧
  (∀ (port : Fin 8) (bs : List Byte) (s : State), s.portUp port = true → bs.length = 48 + leAt bs 28 2 →
    leAt bs (40 + leAt bs 28 2) 4 = (crc32c (bs.take (40 + leAt bs 28 2))).toNat → leAt bs 0 2 = (s.port port).rxSeq →
    adrNode (BitVec.ofNat 64 (leAt bs 8 8)) = s.ownNode →
    kindUnit (byteAt bs 2) = some (adrUnit (BitVec.ofNat 64 (leAt bs 8 8))) →
    byteAt bs 2 = 3 → bitsOf (byteAt bs 3) 0 1 = 1 → bitsOf (byteAt bs 3) 1 1 = 0 →
    Completes (.urdunFrame port bs) s (fun t => t = { s with regs := t.regs, out := t.out, urdun := t.urdun } ∧
      (t.port port).rxSeq = ((s.port port).rxSeq + 1) % 65536 ∧ t.urdun.msgs = s.urdun.msgs ∧
      t.urdun.reasm = s.urdun.reasm.filter (fun p => !p.isOf (BitVec.ofNat 64 (leAt bs 16 8)) (leAt bs 24 4)) ++
        [{ port := port, kind := 3, src := BitVec.ofNat 64 (leAt bs 16 8), msgId := leAt bs 24 4, msgLen := leAt bs 4 4
           busy := false, last := s.tick, bytes := (bs.drop 40).take (leAt bs 28 2) }]))

/-- An ACK frees every frame of the replay buffer up to its LSEQ, and a NACK or a timeout sends the rest again as it was, but for what
still waits for credit since the resume. A CREDIT sets what the partner has granted. A control word with a failed CRC is only counted.
A partial message that has had no frame for REASM_TO is discarded and counted. -/
def Obligations.LinkWordsObeyed : Prop :=
  (∀ (port : Fin 8) (w : List Byte) (s : State) (k : Nat), s.portUp port = true → ctrlGood w = true → byteAt w 0 = 1 →
    (s.port port).replay.findIdx? (fun f => f.1 == leAt w 2 2) = some k →
    Completes (.ack port w) s (fun t => t = { s with urdun := t.urdun, reqs := t.reqs } ∧
      t.port port = { s.port port with
        replay := (s.port port).replay.drop (k + 1)
        unsent := min (s.port port).unsent ((s.port port).replay.length - (k + 1))
        ackFrom := s.tick } ∧
      (∀ f ∈ (s.port port).replay.take (k + 1), f.2.last = true → f.2.mid ≠ 0 → Store.find? t.urdun.msgs f.2.mid = none) ∧
      (∀ rid, s.req? rid ≠ none → t.req? rid = none → ∃ f ∈ (s.port port).replay.take (k + 1), f.2.last = true ∧
        ∃ m, Store.find? s.urdun.msgs f.2.mid = some m ∧ m.kind = .response ∧ m.rid = some rid))) ∧
  (∀ (port : Fin 8) (w : List Byte) (s : State) (k : Nat), s.portUp port = true → ctrlGood w = true → byteAt w 0 = 2 →
    (s.port port).replay.findIdx? (fun f => f.1 == leAt w 2 2) = some k →
    bit (s.reg (instKey Reg.URD_INJECT port)) 1 = false →
    Completes (.nack port w) s (fun t => t = { s with regs := t.regs, out := t.out, urdun := t.urdun } ∧
      t.out = s.out ++ ((s.port port).sent.drop k).map (fun f => Out.frame port (frameBytes f.1 f.2 0)) ∧
      t.port port = { s.port port with ackFrom := s.tick } ∧ t.urdun.msgs = s.urdun.msgs ∧
      OnlyRegs s t [Reg.URD_CNT_REPLAY] ∧ Counted s t Reg.URD_CNT_REPLAY 0 64 ((s.port port).sent.drop k).length)) ∧
  (∀ (port : Fin 8) (s : State), s.portUp port = true → (s.port port).replay ≠ [] →
    (s.port port).ackFrom.toNat + 100 * s.regF Reg.URD_CFG 16 8 ≤ s.tick.toNat →
    bit (s.reg (instKey Reg.URD_INJECT port)) 1 = false →
    Completes (.ackTimeout port) s (fun t => t = { s with regs := t.regs, out := t.out, urdun := t.urdun } ∧
      t.out = s.out ++ (s.port port).sent.map (fun f => Out.frame port (frameBytes f.1 f.2 0)) ∧
      t.port port = { s.port port with ackFrom := s.tick } ∧ t.urdun.msgs = s.urdun.msgs ∧
      OnlyRegs s t [Reg.URD_CNT_REPLAY] ∧ Counted s t Reg.URD_CNT_REPLAY 0 64 (s.port port).sent.length)) ∧
  (∀ (port : Fin 8) (adm : Bool) (w : List Byte) (s : State), s.portUp port = true → ctrlGood w = true → byteAt w 0 = 3 →
    Completes (.credit port adm w) s (fun t => t = { s with urdun := t.urdun } ∧
      t.port port = (if adm then { s.port port with admGranted := leAt w 4 4 } else { s.port port with granted := leAt w 4 4 }) ∧
      (∀ q, q ≠ port.val → t.port q = s.port q) ∧ t.urdun.msgs = s.urdun.msgs)) ∧
  (∀ (port : Fin 8) (adm : Bool) (w : List Byte) (s : State), s.portUp port = true → ctrlGood w = false →
    ∀ i ∈ [Instr.ack port w, .nack port w, .credit port adm w],
      Completes i s (fun t => t = s.bumpSat (instKey Reg.URD_PORT_ERR port) 32 16 1)) ∧
  (∀ (src : U64) (mid : U32) (s : State),
    (∃ p ∈ s.urdun.reasm, p.isOf src mid.toNat = true ∧
      p.last.toNat + 10000 * s.regF Reg.URD_CFG 24 8 ≤ s.tick.toNat) →
    Completes (.reassemblyTimeout src mid) s (fun t => t = { s with regs := t.regs, urdun := t.urdun } ∧
      t.urdun = { s.urdun with reasm := s.urdun.reasm.filter (fun p =>
        !(p.isOf src mid.toNat && decide (p.last.toNat + 10000 * s.regF Reg.URD_CFG 24 8 ≤ s.tick.toNat))) } ∧
      OnlyRegs s t [Reg.URD_CNT_DROP] ∧ CountedSat s t Reg.URD_CNT_DROP 16 16 1))

/-- Signal on a down port that may train starts a full training. A training whose lanes all work and whose map both ends sent
brings the port up, credits fresh and the partner noted; a lasting trigger retires its lane, or takes the port down with AUTO 0.
A requested retraining, and the loss of signal of an active lane, take an up port to retraining and lose no message. -/
def Obligations.PortsTrain : Prop :=
  (∀ (port : Fin 8) (s : State), (s.port port).state = .down → s.mayTrain port = true → 2 ≤ (s.proposeMap port []).length →
    Completes (.signalDetect port) s (fun t => t = { s with urdun := t.urdun } ∧ (t.port port).state = .training ∧
      (t.port port).map = s.proposeMap port [] ∧ (t.port port).replay = [] ∧ (t.port port).txSeq = 0 ∧
      (t.port port).rxSeq = 0 ∧ (t.port port).admDue = (s.port port).admDue ∧
      (∀ l ∈ s.proposeMap port [], (t.lane (portLane port l)).signal = true) ∧
      (∀ q, q ≠ port.val → t.port q = s.port q))) ∧
  (∀ (port : Fin 8) (res : TrainResult) (s : State), (s.port port).state = .training → res.failed = [] →
    res.partnerMap = (s.port port).map → bit (s.reg (instKey Reg.URD_PORT_CTRL port)) 0 = false →
    (∀ l ∈ (s.port port).map, bit (s.reg (laneLosKey (portLane port l))) 0 = false ∧
      bit (s.reg (instKey Reg.URD_LANE_STATUS (portLane port l))) 16 = false) →
    Completes (.portTrainingDone port res) s (fun t => (t.port port).state = .up ∧ (t.port port).map = (s.port port).map ∧
      (t.port port).why = none ∧ (t.port port).partner = res.partnerNode ∧ (t.port port).granted = res.credits.toNat ∧
      (t.port port).admGranted = res.admCredits.toNat ∧ (t.port port).given = 16384 ∧ (t.port port).admGiven = 64 ∧
      (∀ l ∈ (s.port port).map, (t.lane (portLane port l)).fecLock = true) ∧ t.record = s.record)) ∧
  (∀ (port : Fin 8) (res : TrainResult) (s : State) (n : Nat), (s.port port).state = .retraining →
    (s.port port).why = some (.trigger n) → n ∈ (s.port port).map.map (portLane port) → n ∈ res.failed.map (fun l => l.val) →
    Completes (.portTrainingDone port res) s (fun t => CountedSat s t Reg.RST_CNT_FAULTS 32 16 1 ∧
      (bit (s.reg Reg.URD_SPARE_CFG) 32 = true → recorded t.record kOptical n = true ∧ (t.port port).state ≠ .up) ∧
      (bit (s.reg Reg.URD_SPARE_CFG) 32 = false → t.record = s.record ∧ (t.port port).state = .down))) ∧
  (∀ s : State, s.pageUp 0x0F = true → s.portUp (s.regF Reg.URD_PORT_SEL 0 3) = true →
    Completes .portRetrain s (fun t => (t.port (s.regF Reg.URD_PORT_SEL 0 3)).state = .retraining ∧
      (t.port (s.regF Reg.URD_PORT_SEL 0 3)).why = some .requested ∧
      bit (t.reg (instKey Reg.URD_PORT_CTRL (s.regF Reg.URD_PORT_SEL 0 3))) 0 = false ∧
      CountedSat s t (instKey Reg.URD_PORT_ERR (s.regF Reg.URD_PORT_SEL 0 3)) 0 16 1 ∧ t.record = s.record ∧
      ∀ m, (Store.find? t.urdun.msgs m).map UMsg.body = (Store.find? s.urdun.msgs m).map UMsg.body)) ∧
  (∀ (lane : Fin 36) (signal : Bool) (s : State) (p : Nat), s.laneFor lane = some p → s.portUp p = true →
    Completes (.lossOfSignal lane signal) s (fun t => (t.port p).state = .retraining ∧
      (t.port p).why = some (.trigger lane) ∧ (t.lane lane).fecLock = false ∧
      (signal = true → (t.lane lane).signal = false) ∧ CountedSat s t (instKey Reg.URD_PORT_ERR p) 0 16 1 ∧
      t.record = s.record ∧ ∀ m, (Store.find? t.urdun.msgs m).map UMsg.body = (Store.find? s.urdun.msgs m).map UMsg.body))

/-- A replacement that software asks for counts as lasting: the lane is retired and its port retrains; with AUTO 0 the port only
retrains, and the trigger is reported. Each 1 ms interval records what every lane measured. The injections set their bit or make the lane report loss. -/
def Obligations.LanesWatched : Prop :=
  (∀ (s : State) (p : Nat), s.pageUp 0x0F = true → s.regF Reg.URD_LANE_SEL 0 6 < 36 →
    s.laneFor (s.regF Reg.URD_LANE_SEL 0 6) = some p → s.portUp p = true →
    Completes .spareReq s (fun t => (t.port p).state ≠ .up ∧
      CountedSat s t Reg.RST_CNT_FAULTS 32 16 1 ∧
      (bit (s.reg Reg.URD_SPARE_CFG) 32 = true → recorded t.record kOptical (s.regF Reg.URD_LANE_SEL 0 6) = true) ∧
      (bit (s.reg Reg.URD_SPARE_CFG) 32 = false → t.record = s.record ∧ (t.port p).why = some .requested))) ∧
  (∀ (meas : List LaneMeas) (s : State) (n : Nat) (m : LaneMeas), n < 36 → meas[n]? = some m →
    Completes (.laneInterval meas) s (fun t => t.record = s.record ∧
      (∀ k, (Store.find? t.urdun.msgs k).map UMsg.body = (Store.find? s.urdun.msgs k).map UMsg.body) ∧
      (t.lane n).usable = decide (-400 ≤ m.rxOma.toInt) ∧ (t.lane n).signal = (s.lane n).signal ∧
      t.regF (instKey Reg.URD_LANE_MON n) 0 16 = m.rxOma.toNat ∧ t.regF (instKey Reg.URD_LANE_MON n) 16 16 = m.txOma.toNat ∧
      t.regF (instKey Reg.URD_LANE_FEC n) 0 32 = m.corrSym.toNat ∧
      CountedSat s t (instKey Reg.URD_LANE_STATUS n) 32 32 m.uncorr.toNat)) ∧
  (∀ (s : State) (p : Nat), s.pageUp 0x0F = true → s.regF Reg.URD_LANE_SEL 0 6 < 36 →
    s.laneFor (s.regF Reg.URD_LANE_SEL 0 6) = some p → s.portUp p = true →
    Completes .injectLaneLos s (fun t => (t.port p).state = .retraining ∧ (t.port p).why = some .requested ∧
      bit (t.reg (laneLosKey (s.regF Reg.URD_LANE_SEL 0 6))) 0 = false ∧ t.record = s.record)) ∧
  (∀ s : State, s.pageUp 0x0F = true →
    Completes .injectUrdCrc s (fun t => OnlyBitSet s t (instKey Reg.URD_INJECT (s.regF Reg.URD_PORT_SEL 0 3)) 1))

/-! ### Clepsydra (R21 to R45) -/

/-- Each rising edge of the reference in use ends one drop and raises the count by exactly 1 while no slew runs (R22), and a slew,
which moves one drop in 1,000,000 at its greatest rate (R32; the model's choice of the rate, log 94), never takes it back. Nothing but
that edge, the load of a count word on leaving FREE, Keeper's own count under internal free-run and the standby power-up moves the
count (R24, R30, R45). -/
def Obligations.CountFollowsReference : Prop :=
  (∀ s : State, Completes .referenceEdge s (fun t => t = { s with clep := t.clep } ∧ t.clep.ticks = s.clep.ticks + 1 ∧
    (s.clep.slew = 0 → t.clep.count = s.clep.count + 1 ∧
      t.clep = { s.clep with count := t.clep.count, ticks := t.clep.ticks, slots := t.clep.slots }) ∧
    (s.clep.slewRun + 1 < slewPeriod → t.clep.count = s.clep.count + 1) ∧
    (t.clep.count = s.clep.count ∨ t.clep.count = s.clep.count + 1 ∨ t.clep.count = s.clep.count + 2) ∧
    t.clep.slew.natAbs ≤ s.clep.slew.natAbs ∧
    (∀ n, (t.slot n).kind = (s.slot n).kind ∧ (t.slot n).time = (s.slot n).time ∧ (t.slot n).armed = (s.slot n).armed))) ∧
  (∀ (i : Instr) (s t : State), exec i s = .next t → t.clep.count ≠ s.clep.count →
    match i with
    | .referenceEdge => t.clep.count = s.clep.count + 1 ∨ t.clep.count = s.clep.count + 2 ∧ s.clep.slew < 0
    | .syncPulse _ _ => s.clep.lock = .free ∧ t.clep.lock = .acquire ∧ t.clep.lastStep = t.clep.count - s.clep.count ∧
        bit (t.reg Reg.CLEP_EVENT) 7 = true ∧ s.clep.pendingWord = some t.clep.count
    | .keeperCountWord => s.clep.internal = true ∧ s.clep.countValid = false ∧ t.clep.count = s.ownCount
    | .bringupStepDone _ _ _ _ => s.clep.internal = true ∧ s.clep.countValid = false ∧ s.rst.step = 8 ∧ t.clep.count = s.ownCount
    | .standbyPowerUp => t.clep.count = 0
    | _ => False)

/-- The lock state follows the transitions of Table 2-3 and no others: those of the table, FREE on a reset, and LOCKED under
internal free-run (R27). -/
def Obligations.LockFollowsTable : Prop :=
  ∀ (i : Instr) (s t : State), exec i s = .next t → t.clep.lock ≠ s.clep.lock →
    (s.clep.lock, t.clep.lock) ∈ [(Lock.free, Lock.acquire), (.acquire, .locked), (.acquire, .free), (.locked, .holdover),
      (.locked, .free), (.holdover, .locked), (.holdover, .free)] ∨
    (s.clep.internal = true ∧ t.clep.lock = .locked)

/-- A lost reference in use gives way to the other good one, with lock and count unmoved and the switch counted; with both lost,
LOCKED goes to HOLDOVER and ACQUIRE to FREE. A frequency more than 100 ppm off is a loss; sixteen clean intervals in a row judge
a lost reference good again. -/
def Obligations.ReferencesJudged : Prop :=
  (∀ (b : Bool) (s : State), s.clep.internal = false → s.clep.refOk.get b = true → s.clep.refOk.get (!b) = true →
    s.clep.useB = b →
    Completes (.refLost b) s (fun t => t = { s with clep := t.clep, regs := t.regs } ∧ t.clep.useB = !b ∧
      t.clep.refOk.get b = false ∧ t.clep.refOk.get (!b) = true ∧ t.clep.lock = s.clep.lock ∧ t.clep.count = s.clep.count ∧
      t.clep.slots = s.clep.slots ∧ OnlyRegs s t [Reg.CLEP_EVENT, Reg.CLEP_ERR_CNT] ∧
      bit (t.reg Reg.CLEP_EVENT) (b2n b) = true ∧ CountedSat s t Reg.CLEP_ERR_CNT 32 16 1)) ∧
  (∀ (b : Bool) (s : State), s.clep.internal = false → s.clep.refOk.get b = true → s.clep.refOk.get (!b) = false →
    Completes (.refLost b) s (fun t => t = { s with clep := t.clep, regs := t.regs, keeper := t.keeper } ∧
      t.clep.count = s.clep.count ∧ t.clep.refOk.get b = false ∧
      (s.clep.lock = .locked → t.clep.lock = .holdover ∧ t.clep.holdFrom = s.now ∧ bit (t.reg Reg.CLEP_EVENT) 3 = true ∧
        CountedSat s t Reg.CLEP_ERR_CNT 48 16 1) ∧
      (s.clep.lock = .acquire → t.clep.lock = .free ∧ bit (t.reg Reg.CLEP_EVENT) 4 = true) ∧
      (s.clep.lock = .free → t.clep.lock = .free) ∧ (s.clep.lock = .holdover → t.clep.lock = .holdover))) ∧
  (∀ (b : Bool) (hz : Nat) (s : State),
    (99990000 ≤ hz → hz ≤ 100010000 → Completes (.refFreqInterval b hz) s (fun t => t = s)) ∧
    ((hz < 99990000 ∨ 100010000 < hz) →
      ∃ t, exec (.refFreqInterval b hz) s = .next t ∧ exec (.refLost b) s = .next t)) ∧
  (∀ (b gap : Bool) (hz : Nat) (s : State), s.clep.internal = false → s.clep.refOk.get b = false →
    Completes (.refGoodInterval b gap hz) s (fun t => t.clep.count = s.clep.count ∧
      ((gap = true ∨ hz < 99990000 ∨ 100010000 < hz) → t.clep.refOk.get b = false ∧ t.clep.refGood.get b = 0) ∧
      (gap = false → 99990000 ≤ hz → hz ≤ 100010000 → s.clep.refGood.get b < 15 →
        t.clep.refOk.get b = false ∧ t.clep.refGood.get b = s.clep.refGood.get b + 1 ∧ t.regs = s.regs) ∧
      (gap = false → 99990000 ≤ hz → hz ≤ 100010000 → 15 ≤ s.clep.refGood.get b → t.clep.refOk.get b = true)))

/-- The pulse that marks the count loads a pending word out of FREE, compares it in LOCKED, where a third disagreement in a row
goes to FREE, and counts toward LOCKED in ACQUIRE; none but the load moves the count. A pair without a pulse in time, or with one
more than 1 drop off a multiple of 100,000, is judged lost, and the loss of both is the event SYNC_LOST and leaves the lock state
alone; while both are lost, edges are counted and no word is compared (R28). -/
def Obligations.PulsesMarkTheCount : Prop :=
  (∀ (b : Bool) (phase : U16) (w : Time) (s : State), s.clep.internal = false → s.clep.lock = .free →
    s.clep.countValid = false → s.clep.useB = b → s.clep.syncOk.get b = true → s.clep.refOk.get b = true →
    bit (s.reg Reg.CLEP_CTRL) 7 = true → s.clep.pendingWord = some w →
    Completes (.syncPulse b phase) s (fun t => t = { s with clep := t.clep, regs := t.regs, keeper := t.keeper } ∧
      t.clep.count = w ∧ t.clep.lock = .acquire ∧ t.clep.countValid = true ∧ t.clep.lastStep = w - s.clep.count ∧
      t.clep.pendingWord = none ∧ t.clep.phaseErr = phase ∧ OnlyRegs s t [Reg.CLEP_EVENT] ∧
      bit (t.reg Reg.CLEP_EVENT) 7 = true)) ∧
  (∀ (b : Bool) (phase : U16) (w : Time) (s : State), s.clep.internal = false → s.clep.lock = .locked →
    s.clep.useB = b → s.clep.syncOk.get b = true → (syncOffset s.now.toNat).natAbs ≤ 1 →
    s.clep.pendingWord = some w → w ≠ s.clep.count →
    Completes (.syncPulse b phase) s (fun t => t = { s with clep := t.clep, regs := t.regs, keeper := t.keeper } ∧
      t.clep.count = s.clep.count ∧ bit (t.reg Reg.CLEP_EVENT) 6 = true ∧ CountedSat s t Reg.CLEP_ERR_CNT 0 16 1 ∧
      (s.clep.disagree < 2 → t.clep.lock = .locked ∧ t.clep.disagree = s.clep.disagree + 1) ∧
      (2 ≤ s.clep.disagree → t.clep.lock = .free))) ∧
  (∀ (b : Bool) (phase : U16) (s : State), s.clep.internal = false → s.clep.lock = .acquire →
    s.clep.useB = b → s.clep.syncOk.get b = true → (syncOffset s.now.toNat).natAbs ≤ 1 → s.clep.pendingWord = none →
    Completes (.syncPulse b phase) s (fun t => t.clep.count = s.clep.count ∧
      (phaseOk phase = false → t.clep.lock = .acquire ∧ t.clep.lockRun = 0) ∧
      (phaseOk phase = true → s.clep.lockRun < 15 → t.clep.lock = .acquire ∧ t.clep.lockRun = s.clep.lockRun + 1) ∧
      (phaseOk phase = true → 15 ≤ s.clep.lockRun → t.clep.lock = .locked ∧ t.clep.lossHeld = false))) ∧
  (∀ (b : Bool) (s : State), s.clep.internal = false →
    Completes (.syncTimeout b) s (fun t => t = { s with clep := t.clep, regs := t.regs } ∧ t.clep.syncOk.get b = false ∧
      t.clep.syncGood.get b = 0 ∧ t.clep.syncOff.get b = none ∧ t.clep.syncOk.get (!b) = s.clep.syncOk.get (!b) ∧
      t.clep.lock = s.clep.lock ∧ t.clep.count = s.clep.count ∧ OnlyRegs s t [Reg.CLEP_EVENT] ∧
      (s.clep.syncOk.get b = true → s.clep.syncOk.get (!b) = false → bit (t.reg Reg.CLEP_EVENT) 2 = true) ∧
      (s.clep.syncOk.get b = true → s.clep.syncOk.get (!b) = true → t.regs = s.regs))) ∧
  (∀ (b : Bool) (phase : U16) (s : State), s.clep.internal = false → s.clep.lock ≠ .holdover → s.clep.countValid = true →
    1 < (syncOffset s.now.toNat).natAbs → s.clep.syncOk.get b = true → s.clep.syncOk.get (!b) = false →
    Completes (.syncPulse b phase) s (fun t => t = { s with clep := t.clep, regs := t.regs } ∧ t.clep.syncOk.get b = false ∧
      t.clep.lock = s.clep.lock ∧ t.clep.count = s.clep.count ∧ OnlyRegs s t [Reg.CLEP_EVENT] ∧
      bit (t.reg Reg.CLEP_EVENT) 2 = true)) ∧
  (∀ (b : Bool) (phase : U16) (s : State), s.clep.internal = false → s.clep.lock ≠ .holdover →
    s.clep.syncOk.a = false → s.clep.syncOk.b = false →
    Completes .referenceEdge s (fun t => t.clep.count = s.clep.edge.count ∧ t.clep.lock = s.clep.lock ∧
      (s.clep.slew = 0 → t.clep.count = s.clep.count + 1)) ∧
    Completes (.syncPulse b phase) s (fun t => t.clep.syncOk.get b = false → t.clep.count = s.clep.count ∧
      t.clep.disagree = s.clep.disagree ∧ t.clep.pendingWord = none ∧
      ((s.clep.lock ≠ .acquire ∨ s.clep.lockRun < 15 ∨ phaseOk phase = false) →
        t = { s with clep := t.clep } ∧ t.clep.lock = s.clep.lock)))

/-- A COUNT word on an up port is noted for Keeper and is taken only when CNT_SRC names the port. Keeper passes the interval's word
when every port that brought one agrees, and else logs the disagreement; under internal free-run it loads its own count once, from
step 8 of bring-up on. The time limits of ACQUIRE and HOLDOVER go to FREE. -/
def Obligations.CountWordsTaken : Prop :=
  (∀ (port : Fin 8) (w : List Byte) (s : State), s.clep.internal = false → s.portUp port = true → ctrlGood w = true →
    byteAt w 0 = 4 →
    Completes (.count port w) s (fun t => t = { s with clep := t.clep } ∧
      t.clep = { s.clep with portWords := t.clep.portWords, pendingWord := t.clep.pendingWord } ∧
      (port.val, BitVec.ofNat 64 (leAt w 8 8)) ∈ t.clep.portWords ∧
      (s.regF Reg.CLEP_CTRL 0 4 = port.val → t.clep.pendingWord = some (BitVec.ofNat 64 (leAt w 8 8))) ∧
      (s.regF Reg.CLEP_CTRL 0 4 ≠ port.val → t.clep.pendingWord = s.clep.pendingWord))) ∧
  (∀ s : State, s.keeper.running = true → s.clep.internal = false → ∀ (p : Nat × Time) (ps : List (Nat × Time)),
    s.clep.portWords = p :: ps →
    Completes .keeperCountWord s (fun t => t = { s with clep := t.clep, keeper := t.keeper } ∧ t.clep.portWords = [] ∧
      t.clep.count = s.clep.count ∧ t.clep.lock = s.clep.lock ∧
      ((∀ q ∈ ps, q.2 = p.2) → t.keeper = s.keeper ∧
        t.clep.pendingWord = (if s.regF Reg.CLEP_CTRL 0 4 = 8 then some p.2 else s.clep.pendingWord)) ∧
      ((∃ q ∈ ps, q.2 ≠ p.2) → t.clep.pendingWord = s.clep.pendingWord ∧
        t.keeper.buffered.length = s.keeper.buffered.length + 1))) ∧
  (∀ s : State, s.keeper.running = true → s.clep.internal = true →
    (s.rst.step < 8 → Completes .keeperCountWord s (fun t => t = s)) ∧
    (8 ≤ s.rst.step → s.clep.countValid = false → Completes .keeperCountWord s (fun t =>
      t.clep.count = s.ownCount ∧ t.clep.countValid = true ∧ t.clep.lock = .locked ∧ t.clep.fresh = false ∧
      t.clep.lastStep = s.ownCount - s.clep.count ∧ bit (t.reg Reg.CLEP_EVENT) 7 = true)) ∧
    (8 ≤ s.rst.step → s.clep.countValid = true → Completes .keeperCountWord s (fun t => t = s))) ∧
  (∀ s : State, s.clep.lock = .acquire → s.clep.holdFrom.toNat + 5000000 ≤ s.clep.count.toNat →
    Completes .acquireTimeout s (fun t => t = { s with clep := t.clep, regs := t.regs, keeper := t.keeper } ∧
      t.clep.lock = .free ∧ t.clep.count = s.clep.count ∧ OnlyRegs s t [Reg.CLEP_EVENT] ∧
      bit (t.reg Reg.CLEP_EVENT) 4 = true)) ∧
  (∀ s : State, s.clep.lock = .holdover →
    s.clep.holdFrom.toNat + s.regF Reg.CLEP_HOLD_MAX 0 32 ≤ s.clep.count.toNat →
    Completes .holdoverLimit s (fun t => t = { s with clep := t.clep, regs := t.regs, keeper := t.keeper } ∧
      t.clep.lock = .free ∧ t.clep.count = s.clep.count ∧ OnlyRegs s t [Reg.CLEP_EVENT] ∧
      bit (t.reg Reg.CLEP_EVENT) 4 = true))

/-! ### Event slots, epochs, maps and gates (R35 to R41, R188, R197, R198, R433, R435, R445, R503) -/

/-- A flip slot that fires on time makes U current at the slot's time and opens U + 1; a fifth epoch makes the oldest drain. Requests
that wait for a map switch of the instant go on after that. At T − SEAL, U is sealed and the index's migrations are abandoned; at
DRAIN_END the drained epoch goes. -/
def Obligations.EpochsFlip : Prop :=
  (∀ (slot : Nat) (s : State) (x : Index), s.mayFire slot .epochFlip = true → (s.slot slot).missed = false →
    s.index? (s.slot slot).owner = some x →
    Completes (.epochFlip slot) s (fun t => ∃ (u : State) (y : Index), t = u.settleInstant ∧
      u.index? (s.slot slot).owner = some y ∧ y.desc = x.desc ∧ y.state = x.state ∧
      y.cur = x.cur + 1 ∧ y.lastFlip = (s.slot slot).time ∧ y.flip = none ∧ y.sealed = false ∧ y.ledger = [] ∧
      (x.live = 4 → y.live = 4 ∧ y.drainEnd = some ((s.slot slot).time + BitVec.ofNat 64 (s.regF Reg.EPOCH_CFG 20 20))) ∧
      (x.live ≠ 4 → y.live = x.live + 1 ∧ y.drainEnd = none) ∧
      bit (u.reg Reg.CLEP_SLOT_FIRED) slot = true ∧ Counted s u Reg.EPOCH_CNT_FLIPS 0 64 1 ∧
      u.clep.count = s.clep.count ∧ u.slices = s.slices)) ∧
  (∀ (idx : Fin 32) (s : State) (x : Index), s.index? idx = some x → x.sealed = false → s.sealBegun x = true →
    Completes (.sealBegin idx) s (fun t => (∃ y, t.index? idx = some y ∧ y.sealed = true ∧ y.cur = x.cur ∧ y.live = x.live ∧
      y.flip = x.flip ∧ y.desc = x.desc) ∧ (∀ m ∈ t.hbm.migs, m.idx ≠ idx.val) ∧ t.reqs = s.reqs ∧ t.clep = s.clep)) ∧
  (∀ (idx : Fin 32) (s : State) (x : Index), s.index? idx = some x → (x.sealed = true ∨ s.sealBegun x = false) →
    Completes (.sealBegin idx) s (fun t => t = s)) ∧
  (∀ (idx : Fin 32) (s : State) (x : Index) (e : Time), s.index? idx = some x → x.drainEnd = some e →
    (e.toNat ≤ s.now.toNat → Completes (.drainEnd idx) s (fun t => t.reqs = s.reqs ∧ t.clep = s.clep ∧
      ∃ y, t.index? idx = some y ∧ y.drainEnd = none ∧ y.cur = x.cur ∧ y.live = x.live ∧ y.desc = x.desc)) ∧
    (s.now.toNat < e.toNat → Completes (.drainEnd idx) s (fun t => t = s)))

/-- A map switch makes the pending map the map in force under the next generation. A gate takeover makes the pending list active
at window 0 and counts itself, and each window's end brings the next one round. Once no event of the instant is left, the requests
that waited for the map go on; without such a request nothing more happens. -/
def Obligations.MapsAndGatesSwitch : Prop :=
  (∀ (slot : Nat) (s : State) (p : PendingMap), s.mayFire slot .mapSwitch = true → s.slices.pending = some p →
    Completes (.mapSwitch slot) s (fun t => t.slices.gen = s.slices.gen + 1 ∧ t.slices.map = fullMap p.map ∧
      t.slices.pending = none ∧ t.slices.late = (s.slot slot).missed ∧ t.slices.switchedAt = s.now ∧
      bit (t.reg Reg.CLEP_SLOT_FIRED) slot = true ∧ (t.slot slot).kind = .free ∧ t.clep.count = s.clep.count)) ∧
  (∀ (slot : Nat) (s : State) (g : PendingGate), s.mayFire slot .gateTakeover = true →
    (s.point (s.slot slot).owner).pending = some g →
    Completes (.gateTakeover slot) s (fun t => ∃ u : State, t = u.settleInstant ∧
      u = { s with clep := u.clep, regs := u.regs, points := u.points } ∧
      (u.point (s.slot slot).owner).active = some g.list ∧ (u.point (s.slot slot).owner).cur = 0 ∧
      (u.point (s.slot slot).owner).pending = none ∧ (u.point (s.slot slot).owner).queue = (s.point (s.slot slot).owner).queue ∧
      (u.slot slot).kind = .free ∧ bit (u.reg Reg.CLEP_SLOT_FIRED) slot = true ∧
      Counted s u Reg.SLU_CNT_ERR 16 32 1)) ∧
  (∀ s : State, s.settleInstant =
    (if s.clep.slots.any (fun p => !p.2.isLocal && s.slotDue p.2) then s else s.resumeMaps) ∧
    ((∀ p ∈ s.reqs, p.2.life ≠ .waitMap) → s.settleInstant = s)) ∧
  (∀ (pt : Fin 185) (s : State) (l : GateList), (s.point pt).active = some l →
    Completes (.gateWindowEnd pt) s (fun t => t = { s with points := t.points } ∧
      (t.point pt).cur = ((s.point pt).cur + 1) % max 1 l.length ∧ (t.point pt).active = some l ∧
      (t.point pt).queue = (s.point pt).queue ∧ (t.point pt).v = (s.point pt).v ∧
      (∀ q, q ≠ pt.val → t.point q = s.point q)))

/-- At each firing of its slot Keeper compares a Basin's heartbeat with the last one: a new value clears MISSES, an equal one
raises it, and the fourth starts a domain restart. Running Pumphouse firmware writes a value that differs. -/
def Obligations.HeartbeatsChecked : Prop :=
  (∀ (b : Fin 2) (s : State), s.mayFire b .heartbeat = true → s.keeper.running = true → (s.basin b).state = 0 →
    ((s.basin b).seq ≠ (s.basin b).prev ∨ (s.basin b).misses < 3) →
    0 < (s.slot b).period →
    Completes (.heartbeatCheck b) s (fun t => t = { s with clep := t.clep, regs := t.regs, basins := t.basins } ∧
      ((s.basin b).seq ≠ (s.basin b).prev → t.basin b = { s.basin b with prev := (s.basin b).seq, misses := 0 }) ∧
      ((s.basin b).seq = (s.basin b).prev → t.basin b = { s.basin b with misses := (s.basin b).misses + 1 }) ∧
      (t.slot b).armed = true ∧ s.now.toNat < nextPeriod s.now.toNat (s.slot b).time.toNat (s.slot b).period ∧
      (t.slot b).time = BitVec.ofNat 64 (nextPeriod s.now.toNat (s.slot b).time.toNat (s.slot b).period))) ∧
  (∀ (b : Fin 2) (s : State), s.mayFire b .heartbeat = true → s.keeper.running = true → (s.basin b).state = 0 →
    (s.basin b).seq = (s.basin b).prev → (s.basin b).misses = 3 → (s.basin b).hang = false →
    ((s.recentStarts b).length + 1 ≤ s.regF Reg.RST_CFG 4 4) →
    Completes (.heartbeatCheck b) s (fun t => (t.basin b).state = 1 ∧ (t.basin b).step = 1 ∧ (t.basin b).cause = .heartbeat ∧
      (t.basin b).misses = 0 ∧ t.rst.lastBasin = b.val ∧ t.rst.lastCause = 1 ∧
      CountedSat s t Reg.RST_CNT_RESTARTS (16 * b.val) 16 1 ∧ t.record = s.record)) ∧
  (∀ (b : Fin 2) (seq : U32) (s : State), s.pumpRuns b = true → (s.basin b).hang = false → (s.basin b).seq ≠ seq →
    Completes (.pumphouseHeartbeat b seq) s (fun t => t = { s with basins := t.basins } ∧
      t.basin b = { s.basin b with seq := seq, hbSeen := true } ∧ (∀ c, c ≠ b.val → t.basin c = s.basin c))) ∧
  (∀ (b : Fin 2) (seq : U32) (s : State), ((s.basin b).hang = true ∨ (s.basin b).seq = seq ∨ s.pumpRuns b = false) →
    Completes (.pumphouseHeartbeat b seq) s (fun t => t = s))

/-! ### Rills, routers and bridges (R264 to R286) -/

/-- Work of a running phase starts on an idle Rill in service that holds an image when the phase may be served there: every flag and
barrier is clear, the ring is as the function set it up, and the engines of its function run. Nothing starts while an operand is in a
lower tier. Running firmware puts an image only into an idle Rill; a write while an engine runs is dropped and counted. A read ring
slot goes back, and the injections set their bit. -/
def Obligations.RillsDispatched : Prop :=
  (∀ (n : RillName) (rid k : Nat) (ringBase : Fin 256) (ringSlots : Fin 64) (s : State), s.physRill n = some k →
    (s.rill k).idle = true → (s.rill k).func ≠ 0 → s.canDispatch n.basin n.terrace = true →
    s.mayServe rid n.basin (nodeTerrace n.basin n.terrace) = true → s.rillRetired k = false →
    Completes (.rillDispatch n ⟨rid, ringBase, ringSlots⟩) s (fun t => t = { s with fabric := t.fabric } ∧
      t.fabric = { s.fabric with rills := t.fabric.rills } ∧ (t.rill k).rid = some rid ∧
      (∀ f, (t.rill k).flag f = 0) ∧ (t.rill k).bars = [] ∧ (t.rill k).used = 0 ∧ (t.rill k).func = (s.rill k).func ∧
      (t.rill k).ring = ringSlots.val + 1 ∧ (t.rill k).ringBase = 256 * ringBase.val ∧ (t.rill k).scratch = (s.rill k).scratch ∧
      (∀ e, e < 5 → (t.rill k).engs[e]? = some (if (funcEngines (s.rill k).func).testBit e then .run else .idle)) ∧
      (∀ j, j ≠ k → t.rill j = s.rill j))) ∧
  (∀ (n : RillName) (rid k : Nat) (ringBase : Fin 256) (ringSlots : Fin 64) (q : Req) (s : State), s.physRill n = some k →
    s.req? rid = some q →
    (s.waitsOnTier rid = true ∨ q.life ≠ .running ∨ s.mayRunIn q n.basin = false ∨ s.rillRetired k = true) →
    Completes (.rillDispatch n ⟨rid, ringBase, ringSlots⟩) s (fun t => t = s)) ∧
  (∀ (n : RillName) (f : Fin 9) (k : Nat) (s : State), s.physRill n = some k → s.pumpRuns n.basin = true →
    ((s.rill k).idle = true → Completes (.rillImageLoad n f) s (fun t => t = { s with fabric := t.fabric, regs := t.regs } ∧
      (t.rill k).func = f.val ∧ (t.rill k).istore = s.rillImage f.val ∧ (∀ g, (t.rill k).flag g = 0) ∧ (t.rill k).bars = [] ∧
      (t.rill k).fault = (s.rill k).fault ∧ (∀ j, j ≠ k → t.rill j = s.rill j) ∧ OnlyRegs s t [Reg.RILL_CNT_LOADS] ∧
      Counted s t Reg.RILL_CNT_LOADS 0 64 1)) ∧
    ((s.rill k).idle = false → Completes (.rillImageLoad n f) s (fun t => t = { s with regs := t.regs } ∧
      OnlyRegs s t [Reg.RILL_CNT_FAULTS] ∧ CountedSat s t Reg.RILL_CNT_FAULTS 48 16 1))) ∧
  (∀ (n : RillName) (k : Nat) (s : State), s.physRill n = some k → (s.rill k).used ≠ 0 →
    Completes (.ringSlotRelease n) s (fun t => t = { s with fabric := t.fabric } ∧
      t.rill k = { s.rill k with
        used := (s.rill k).used - 1, ringHead := ((s.rill k).ringHead + 1) % max 1 (s.rill k).ring } ∧
      (∀ j, j ≠ k → t.rill j = s.rill j))) ∧
  (∀ s : State, s.pageUp (keyPage Reg.RILL_INJECT) = true →
    Completes .injectRillTimeout s (fun t => OnlyBitSet s t (instKey Reg.RILL_INJECT (s.regF Reg.RILL_SEL 0 14)) 0) ∧
    Completes .injectRillScrEcc s (fun t => OnlyBitSet s t (instKey Reg.RILL_INJECT (s.regF Reg.RILL_SEL 0 14)) 1))

/-- The signals of one cycle that name a flag are summed; a flag that they would take above 65,535 keeps its value and the Rill
faults with FLAG_OVERFLOW. What a transfer of an engine other than SEND, which only reads it, writes to scratch stands there. A wait whose flag already holds its threshold is satisfied
at once, and the threshold is taken off the count; one whose flag holds less waits, and the flag stays. -/
def Obligations.FlagsCount : Prop :=
  (∀ (n : RillName) (sigs : List Signal) (k : Nat) (s : State), s.physRill n = some k →
    (bit (s.reg (instKey Reg.RILL_INJECT k)) 1 = false ∨ (s.rill k).rid = none) →
    (∀ g ∈ sigs, signalOutside g = false) → overflowsOf (s.rill k) sigs = [] →
    (∀ e ∈ (s.rill k).engs, ∀ f m pc d, e ≠ Eng.waitFlag f m pc d) →
    Completes (.rillTransferDone n sigs []) s (fun t => t = { s with fabric := t.fabric } ∧
      t.fabric = { s.fabric with rills := t.fabric.rills, srams := t.fabric.srams, staging := t.fabric.staging } ∧
      (∀ f, f < 32 → (t.rill k).flag f = (s.rill k).flag f + sigSum sigs f) ∧ (t.rill k).engs = (s.rill k).engs ∧
      (∀ (g : Signal) (a : Fin 65536), sigs = [g] → g.dest = .scratch a → g.eng.val ≠ 4 → ∀ i b, g.data[i]? = some b →
        Store.get (fun _ => 0) (t.rill k).scratch (a.val + i) = b) ∧
      (∀ j, j ≠ k → t.rill j = s.rill j))) ∧
  (∀ (n : RillName) (sigs : List Signal) (k : Nat) (f : RFault) (s : State), s.physRill n = some k → (s.rill k).rid = none →
    (∀ g ∈ sigs, signalOutside g = false) → firstFault (overflowsOf (s.rill k) sigs) = some f →
    Completes (.rillTransferDone n sigs []) s (fun t => t = { s with fabric := t.fabric, regs := t.regs } ∧
      (t.rill k).fault = faultWord fFlagOverflow f.eng f.flag f.count 0 f.pc ∧
      (∀ g, g < 32 → 65535 < (s.rill k).flag g + sigSum sigs g → (t.rill k).flag g = (s.rill k).flag g) ∧
      (t.rill k).idle = true ∧ (t.rill k).faultTime = s.now ∧
      CountedSat s t Reg.RILL_CNT_FAULTS 48 16 (overflowsOf (s.rill k) sigs).length)) ∧
  (∀ (n : RillName) (eng : Fin 5) (f : Fin 32) (m : Fin 256) (pc : Fin 4096) (k : Nat) (s : State), s.physRill n = some k →
    (s.rill k).engs[eng.val]? = some .run → 0 < m.val → bit (s.reg (instKey Reg.RILL_INJECT k)) 0 = false →
    (∀ (e : Nat) (g j p : Nat) (d : Bool), (s.rill k).engs[e]? = some (.waitFlag g j p d) → g ≠ f.val) →
    Completes (.rillWait n eng f m pc) s (fun t => t = { s with fabric := t.fabric } ∧
      (m.val ≤ (s.rill k).flag f → (t.rill k).flag f = (s.rill k).flag f - m.val ∧ (t.rill k).engs[eng.val]? = some .run) ∧
      ((s.rill k).flag f < m.val → (t.rill k).flag f = (s.rill k).flag f ∧
        (t.rill k).engs[eng.val]? = some (.waitFlag f m pc false)) ∧
      (∀ g, g ≠ f.val → (t.rill k).flag g = (s.rill k).flag g) ∧ (∀ j, j ≠ k → t.rill j = s.rill j)))

/-- A wait, a barrier or an issue that is not served in time faults its Rill: every engine stops, the record names code, engine,
flag or barrier, count, detail and address, and the fault is counted. -/
def Obligations.RillsTimeOut : Prop :=
  (∀ (n : RillName) (eng : Fin 5) (k f m pc : Nat) (d : Bool) (s : State), s.physRill n = some k → (s.rill k).rid = none →
    (s.rill k).engs[eng.val]? = some (.waitFlag f m pc d) →
    Completes (.flagTimeout n eng) s (fun t => t = { s with fabric := t.fabric, regs := t.regs } ∧
      (t.rill k).fault = faultWord fFlagTimeout eng f ((s.rill k).flag f) m pc ∧ (t.rill k).faultTime = s.now ∧
      (t.rill k).idle = true ∧ (t.rill k).bars = [] ∧ CountedSat s t Reg.RILL_CNT_FAULTS 0 16 1 ∧
      (d = true → bit (t.reg (instKey Reg.RILL_INJECT k)) 0 = false) ∧ (∀ j, j ≠ k → t.rill j = s.rill j))) ∧
  (∀ (n : RillName) (eng : Fin 5) (pc : Fin 4096) (k : Nat) (s : State), s.physRill n = some k → (s.rill k).rid = none →
    ((s.rill k).engs[eng.val]? = some .run → Completes (.stall n eng pc) s (fun t =>
      t = { s with fabric := t.fabric, regs := t.regs } ∧ (t.rill k).fault = faultWord fStall eng 0 0 0 pc ∧
      (t.rill k).idle = true ∧ CountedSat s t Reg.RILL_CNT_FAULTS 16 16 1)) ∧
    (∀ (d a : Nat) (c : Bool), (s.rill k).engs[eng.val]? = some (.heldSend d a c) → Completes (.stall n eng pc) s (fun t =>
      t = { s with fabric := t.fabric, regs := t.regs } ∧ (t.rill k).fault = faultWord fStall eng 0 d 0 a ∧
      (t.rill k).idle = true ∧ CountedSat s t Reg.RILL_CNT_FAULTS 16 16 1))) ∧
  (∀ (n : RillName) (num : Fin 4) (k e pc j : Nat) (b : Barrier) (s : State), s.physRill n = some k → (s.rill k).rid = none →
    Store.find? (s.rill k).bars num = some b → e = (maskEngines b.arrived).headD 0 →
    (s.rill k).engs[e]? = some (.waitBarrier j pc) →
    Completes (.barrierTimeout n num) s (fun t => t = { s with fabric := t.fabric, regs := t.regs } ∧
      (t.rill k).fault = faultWord fBarrierTimeout e num 0 (b.mask ^^^ b.arrived) pc ∧
      (t.rill k).idle = true ∧ (t.rill k).bars = [] ∧ CountedSat s t Reg.RILL_CNT_FAULTS 0 16 1))

/-- An engine that arrives at a barrier waits until the last engine of the mask arrives, which releases them all; a mask without
the engine, or another than that in progress, is a BARRIER_MASK fault. -/
def Obligations.BarriersMeet : Prop :=
  (∀ (n : RillName) (eng : Fin 5) (num : Fin 4) (mask : Fin 32) (pc : Fin 4096) (k : Nat) (s : State),
    s.physRill n = some k → (s.rill k).engs[eng.val]? = some .run → mask.val.testBit eng = true →
    (∀ b, Store.find? (s.rill k).bars num = some b → b.mask = mask.val) →
    Completes (.barrierArrive n eng num mask pc) s (fun t => t = { s with fabric := t.fabric } ∧
      (∀ f, (t.rill k).flag f = (s.rill k).flag f) ∧ (∀ j, j ≠ k → t.rill j = s.rill j) ∧
      (∀ old, old = (match Store.find? (s.rill k).bars num with | some b => b.arrived | none => 0) →
        (old ||| 1 <<< eng.val = mask.val → Store.find? (t.rill k).bars num = none ∧
          (∀ e, mask.val.testBit e = true → e < (s.rill k).engs.length → (t.rill k).engs[e]? = some .run)) ∧
        (old ||| 1 <<< eng.val ≠ mask.val →
          Store.find? (t.rill k).bars num = some ⟨mask, old ||| 1 <<< eng.val⟩ ∧
          (t.rill k).engs[eng.val]? = some (.waitBarrier num pc))))) ∧
  (∀ (n : RillName) (eng : Fin 5) (num : Fin 4) (mask : Fin 32) (pc : Fin 4096) (k : Nat) (s : State),
    s.physRill n = some k → (s.rill k).engs[eng.val]? = some .run → (s.rill k).rid = none →
    (mask.val.testBit eng = false ∨ ∃ b, Store.find? (s.rill k).bars num = some b ∧ b.mask ≠ mask.val) →
    Completes (.barrierArrive n eng num mask pc) s (fun t => t = { s with fabric := t.fabric, regs := t.regs } ∧
      (t.rill k).fault = faultWord fBarrierMask eng num 0 mask pc ∧ (t.rill k).idle = true ∧
      CountedSat s t Reg.RILL_CNT_FAULTS 48 16 1))

/-- A router takes a message of its slice with SRC filled in while it holds fewer than 64, and else the sender waits and the
refusal is counted; a destination outside the slice is an MBX_ROUTE fault, and one in a Basin that is not in service, or behind a
bridge that is down, a NET_ERROR fault; under injection its read of scratch is an uncorrectable error. The router delivers a message whose ring has a free slot, and no earlier one of the same
sender and destination waits: its bytes stand in the slot and its flag rises by 1; a full ring holds it. -/
def Obligations.MessagesPass : Prop :=
  (∀ (n : RillName) (hdr payload : List Byte) (pc : Fin 4096) (k prn d rk : Nat) (s : State), s.physRill n = some k →
    (s.rill k).engs[4]? = some .run → d = leAt hdr 0 2 → d < 4096 → s.mayReach k d = true →
    s.physRunnel (nameOf d).basin (nameOf d).terrace (nameOf d).runnel = some prn →
    s.basinUp (nameOf d).basin = true → s.bridgeWord n.basin (nameOf d).basin = 2 →
    bit (s.reg (instKey Reg.RILL_INJECT k)) 1 = false → rk = runnelKey (nameOf d).basin (nameOf d).terrace prn →
    ((s.router rk).length < 64 →
      (∀ j, s.physRill (nameOf d) = some j → (s.rill j).used < (s.rill j).ring) →
      Completes (.mailboxSend (.rill n) hdr payload pc) s (fun t => t = { s with fabric := t.fabric } ∧
        t.router rk = s.router rk ++ [msgOf hdr payload d (wordOfRill n)] ∧ (t.rill k).engs[4]? = some .run ∧
        (∀ j, j ≠ rk → t.router j = s.router j) ∧ (∀ j, j ≠ k → t.rill j = s.rill j))) ∧
    (64 ≤ (s.router rk).length →
      Completes (.mailboxSend (.rill n) hdr payload pc) s (fun t => t = { s with fabric := t.fabric, regs := t.regs } ∧
        t.fabric.routers = s.fabric.routers ∧ (t.rill k).engs[4]? = some (.heldSend d pc true) ∧
        OnlyRegs s t [instKey Reg.RUNNEL_MBX rk] ∧ CountedSat s t (instKey Reg.RUNNEL_MBX rk) 32 16 1 ∧
        (∀ j, j ≠ k → t.rill j = s.rill j)))) ∧
  (∀ (n : RillName) (hdr payload : List Byte) (pc : Fin 4096) (k d : Nat) (s : State), s.physRill n = some k →
    (s.rill k).engs[4]? = some .run → d = leAt hdr 0 2 →
    (bit (s.reg (instKey Reg.RILL_INJECT k)) 1 = true → (s.rill k).rid ≠ none →
      Completes (.mailboxSend (.rill n) hdr payload pc) s (fun t =>
        t = (s.setRegF (instKey Reg.RILL_INJECT k) 1 1 0).rillFaults k
          [{ RFault.plain 0 fScratchEcc 4 pc with injected := true }])) ∧
    (bit (s.reg (instKey Reg.RILL_INJECT k)) 1 = false → (s.mayReach k d = false ∨ 4096 ≤ d) →
      Completes (.mailboxSend (.rill n) hdr payload pc) s (fun t =>
        t = s.rillFaults k [⟨6, 4, fMbxRoute, 0, d, 0, pc, none, false⟩])) ∧
    (bit (s.reg (instKey Reg.RILL_INJECT k)) 1 = false → d < 4096 → s.mayReach k d = true → (s.basinUp (nameOf d).basin = false ∨ s.bridgeWord n.basin (nameOf d).basin = 0) →
      Completes (.mailboxSend (.rill n) hdr payload pc) s (fun t =>
        t = s.rillFaults k [⟨1, 4, fNetError, 0, d, 0, pc, some (nameOf d).basin, false⟩]))) ∧
  (∀ (b : Fin 2) (hdr payload : List Byte) (pc : Fin 4096) (prn d rk : Nat) (s : State), s.pumpRuns b = true →
    d = leAt hdr 0 2 → d < 4096 → s.physRunnel (nameOf d).basin (nameOf d).terrace (nameOf d).runnel = some prn →
    s.basinUp (nameOf d).basin = true → s.bridgeWord b (nameOf d).basin = 2 →
    rk = runnelKey (nameOf d).basin (nameOf d).terrace prn → (s.router rk).length < 64 →
    (∀ j, s.physRill (nameOf d) = some j → (s.rill j).used < (s.rill j).ring) →
    Completes (.mailboxSend (.pumphouse b) hdr payload pc) s (fun t => t = { s with free := s.free + 1, fabric := t.fabric } ∧
      (∃ src, t.router rk = s.router rk ++ [msgOf hdr payload d src]) ∧ t.fabric.rills = s.fabric.rills ∧
      (∀ j, j ≠ rk → t.router j = s.router j))) ∧
  (∀ (n : RunnelName) (pos prn k rk : Nat) (m : Msg) (s : State), s.physRunnel n.basin n.terrace n.runnel = some prn →
    rk = runnelKey n.basin n.terrace prn → (s.router rk)[pos]? = some m → s.physRill (nameOf m.dest) = some k →
    ((∀ x ∈ (s.router rk).take pos, ¬ (x.src = m.src ∧ x.dest = m.dest)) →
      (s.rill k).used < (s.rill k).ring → (s.rill k).flag m.flag < 65535 →
      (∀ e ∈ (s.rill k).engs, ∀ f j pc d, e ≠ Eng.waitFlag f j pc d) →
      Completes (.messageDelivery n pos) s (fun t => t = { s with fabric := t.fabric, regs := t.regs } ∧
        (t.router rk).map Msg.bytes = ((s.router rk).eraseIdx pos).map Msg.bytes ∧
        ((s.rill k).used + 1 < (s.rill k).ring → t.router rk = (s.router rk).eraseIdx pos) ∧
        (∀ j, j ≠ rk → t.router j = s.router j) ∧ (t.rill k).used = (s.rill k).used + 1 ∧ (t.rill k).flag m.flag = (s.rill k).flag m.flag + 1 ∧
        getBytes (t.rill k).scratch (s.rill k).freeSlotAt m.bytes.length = m.bytes ∧ (∀ j, j ≠ k → t.rill j = s.rill j) ∧
        OnlyRegs s t [instKey Reg.RUNNEL_MBX rk] ∧ Counted s t (instKey Reg.RUNNEL_MBX rk) 0 32 1)) ∧
    (((s.rill k).ring ≤ (s.rill k).used ∨ ∃ x ∈ (s.router rk).take pos, x.src = m.src ∧ x.dest = m.dest) →
      Completes (.messageDelivery n pos) s (fun t => t = s)))

/-- A flit that fails its check is replayed and counted; one that still fails after 16 replays takes its link to its single
retraining, which brings it up again, or leaves a bridge down and restarts its Basin. -/
def Obligations.BridgesReplay : Prop :=
  (∀ (link : Fin 4) (first : Bool) (s : State), ((s.bridge link).state = 2 ∨ link.val = 3) → (s.bridge link).retrain = false →
    Completes (.bridgeFlitError link first) s (fun t => t = { s with fabric := t.fabric, regs := t.regs } ∧
      ((first = true ∨ (s.bridge link).tries < 16) →
        t.bridge link = { s.bridge link with tries := (if first then 0 else (s.bridge link).tries) + 1 } ∧
        OnlyRegs s t [Reg.BNET_REPLAY] ∧ CountedSat s t Reg.BNET_REPLAY (16 * link.val) 16 1) ∧
      (first = false → 16 ≤ (s.bridge link).tries →
        t.bridge link = ⟨if link.val = 3 then 0 else 1, 0, true⟩ ∧ t.regs = s.regs) ∧
      (∀ j, j ≠ link.val → t.bridge j = s.bridge j))) ∧
  (∀ (link : Fin 4) (ok : Bool) (s : State), (s.bridge link).retrain = true → (ok = true ∨ link.val = 3) →
    Completes (.bridgeRetrainDone link ok) s (fun t => t = { s with fabric := t.fabric } ∧
      t.bridge link = ⟨if link.val = 3 then 0 else 2, 0, false⟩ ∧ (∀ j, j ≠ link.val → t.bridge j = s.bridge j))) ∧
  (∀ (link : Fin 4) (s : State) (b : Nat), (s.bridge link).retrain = true → link.val ≠ 3 →
    b = (if link.val = 2 then 1 else link.val) → s.keeper.running = true → (s.basin b).state = 0 →
    (s.recentStarts b).length + 1 ≤ s.regF Reg.RST_CFG 4 4 →
    Completes (.bridgeRetrainDone link false) s (fun t => t.bridge link = ⟨0, 0, false⟩ ∧ (t.basin b).state = 1 ∧
      (t.basin b).step = 1 ∧ (t.basin b).cause = (if link.val = 2 then .basinBridge else .headworksBridge)))

/-! ### Spouts and stacks (R316 to R371) -/

/-- In its order of Table 12-3 each Spout command puts its word on the bus, has its effect on its own Spout and on nothing else: rows
open and close, contexts load, waterline bytes are replaced, blocks are named, a sequence starts and ends, and SPCLR clears. A row
that closes as the last of its pseudo-channel lets its pending refreshes go. -/
def Obligations.SpoutsObey : Prop :=
  ∀ (n : SpoutName) (s : State), s.spoutOff (keyOfSpout n) = false → ∀ k, k = keyOfSpout n →
    (∀ row : U16, (s.spout k).seq = true → (s.spout k).row = none → Completes (.spact n row) s (fun t =>
      SpoutIssued s t n 1 row.toNat [] ∧ t.spout k = { s.spout k with row := some row.toNat })) ∧
    ((s.spout k).row ≠ none → Completes (.sppre n) s (fun t => t = { s with hbm := t.hbm, out := t.out } ∧
      t.out = s.out ++ [.spoutWord n (BitVec.ofNat 32 (spWord 3 n.bank 0))] ∧
      t.spout k = { s.spout k with row := none } ∧ (∀ j, j ≠ k → t.spout j = s.spout j) ∧
      (t.pcClosed k = true → Store.get (fun _ => 0) (t.stack (k % 4 + 4)).refresh n.pc = 0) ∧
      (t.pcClosed k = false → t.hbm.dram = s.hbm.dram) ∧ (∀ j, j ≠ k % 4 + 4 → t.stack j = s.stack j))) ∧
    (∀ (ctx : Fin 8) (rec : List Byte) (q : Option (Nat × Nat)), (s.spout k).seq = false →
      Completes (.spload n ctx rec q) s (fun t => SpoutIssued s t n 4 ctx [] ∧
        Store.find? (t.spout k).ctxs ctx = some ⟨padTo 0 96 rec, q⟩ ∧
        t.spout k = { s.spout k with ctxs := (t.spout k).ctxs } ∧
        (∀ j, j ≠ ctx.val → Store.find? (t.spout k).ctxs j = Store.find? (s.spout k).ctxs j))) ∧
    (∀ (ctx : Fin 8) (burst : List Byte) (c : SpCtx), Store.find? (s.spout k).ctxs ctx = some c →
      Completes (.spwl n ctx burst) s (fun t => SpoutIssued s t n 5 ctx [] ∧
        Store.find? (t.spout k).ctxs ctx = some { c with bytes := c.bytes.take 64 ++ padTo 0 16 burst ++ c.bytes.drop 80 } ∧
        t.spout k = { s.spout k with ctxs := (t.spout k).ctxs } ∧
        (∀ j, j ≠ ctx.val → Store.find? (t.spout k).ctxs j = Store.find? (s.spout k).ctxs j))) ∧
    (∀ start : Fin 1024, (s.spout k).ctxs ≠ [] → (s.spout k).next = none → Completes (.spblk n start) s (fun t =>
      SpoutIssued s t n 6 start [] ∧
      ((s.spout k).cur = none → t.spout k = { s.spout k with seq := true, cur := some ⟨64 * start, []⟩ }) ∧
      ((s.spout k).cur ≠ none → t.spout k = { s.spout k with seq := true, next := some (64 * start.val) }))) ∧
    ((s.spout k).seq = false → Completes (.spclr n) s (fun t => SpoutIssued s t n 10 0 [] ∧ (t.spout k).ctxs = [] ∧
      (t.spout k).fifo = [] ∧ (t.spout k).blocks = 0 ∧ (t.spout k).skipped = 0 ∧ (t.spout k).err = 0)) ∧
    ((s.spout k).seq = true → (s.spout k).row = none → Completes (.spend n) s (fun t => SpoutIssued s t n 11 0 [] ∧
      t.spout k = { s.spout k with seq := false, cur := none, next := none }))

/-- SPSEG and SPFEED read bytes into the block in progress, but where they complete it only once the SPSTAT and the SPDRAINs of the block
before it are done and the FIFO has room for all that a block can pass; a block they complete is counted and asks for an SPSTAT, and
the command that brings its masks counts its pairs as read or skipped. SPDRAIN returns the next two pass records, a missing one as zeros, and gives
a record to the heap of its query's Rill; SPSTAT returns the status record and tells the free places; RAWRD returns the burst with
its stored check bits. -/
def Obligations.SpoutsReadAndReport : Prop :=
  (∀ (n : SpoutName) (seg : Fin 4) (data : List Byte) (row k : Nat) (sp : Spout) (s : State), k = keyOfSpout n →
    s.spoutOff k = false → (s.spout k).row = some row →
    (s.stack (k % 4 + 4)).ctrlEcc = false → (s.stack (k % 4 + 4)).runSealed (rowRun n.pc n.bank row) = false →
    sp = (s.spout k).segment ((row % 64) * 1024 + seg * 256) (padTo 0 256 data) 4 → mayIssue (s.spout k) sp = true →
    Completes (.spseg n seg data false false) s (fun t =>
      SpoutIssued s t n 2 seg [Reg.SPOUT_CNT_SEGMENTS, Reg.SRCH_CNT_SCANNED, Reg.SRCH_CNT_SKIPPED] ∧
      t.spout k = { sp with done := sp.done || decide (sp.blocks ≠ (s.spout k).blocks) } ∧
      Counted s t Reg.SPOUT_CNT_SEGMENTS 0 64 1 ∧
      (sp.judged = (s.spout k).judged → OnlyRegs s t [Reg.SPOUT_CNT_SEGMENTS]) ∧
      (sp.judged ≠ (s.spout k).judged →
        Counted s t Reg.SRCH_CNT_SKIPPED 0 64 (sp.skipped - (s.spout k).skipped).toNat ∧
        Counted s t Reg.SRCH_CNT_SCANNED 0 64 ((s.spout k).ctxs.length - (sp.skipped - (s.spout k).skipped).toNat)))) ∧
  (∀ (n : SpoutName) (run : Fin 262144) (data : List Byte) (k : Nat) (sp : Spout) (s : State), k = keyOfSpout n →
    s.spoutOff k = false → (s.spout k).seq = true →
    (s.stack (k % 4 + 4)).ctrlEcc = false → (s.stack (k % 4 + 4)).runSealed run = false →
    sp = (s.spout k).take (padTo 0 32 data) → mayIssue (s.spout k) sp = true →
    Completes (.spfeed n ⟨run, data⟩) s (fun t => SpoutIssued s t n 7 0 [Reg.SRCH_CNT_SCANNED, Reg.SRCH_CNT_SKIPPED] ∧
      t.spout k = { sp with done := sp.done || decide (sp.blocks ≠ (s.spout k).blocks) } ∧
      (sp.judged = (s.spout k).judged → OnlyRegs s t []) ∧
      (sp.judged ≠ (s.spout k).judged →
        Counted s t Reg.SRCH_CNT_SKIPPED 0 64 (sp.skipped - (s.spout k).skipped).toNat ∧
        Counted s t Reg.SRCH_CNT_SCANNED 0 64 ((s.spout k).ctxs.length - (sp.skipped - (s.spout k).skipped).toNat)))) ∧
  (∀ (n : SpoutName) (k : Nat) (s : State), k = keyOfSpout n → s.spoutOff k = false →
    bit (s.reg (instKey Reg.SPOUT_INJECT k)) 0 = false →
    Completes (.spdrain n ⟨false, []⟩) s (fun t =>
      t = { s with hbm := t.hbm, regs := t.regs, out := t.out, fabric := { s.fabric with rills := t.fabric.rills } } ∧
      t.out = s.out ++ [.spoutWord n (BitVec.ofNat 32 (spWord 8 n.bank 0)),
        .spout (padTo 0 32 (((s.spout k).fifo.take 2).flatMap SpRec.bytes))] ∧
      t.spout k = { s.spout k with fifo := (s.spout k).fifo.drop 2, owed := (s.spout k).owed - 1 } ∧
      (∀ j, j ≠ k → t.spout j = s.spout j) ∧ t.hbm.dram = s.hbm.dram ∧
      OnlyRegs s t [Reg.SPOUT_CNT_PASSED] ∧ Counted s t Reg.SPOUT_CNT_PASSED 0 64 ((s.spout k).fifo.take 2).length ∧
      (∀ (r : SpRec) (c : SpCtx) (q : Nat × Nat) (rq : Req) (x : Index) (l : Nat), (s.spout k).fifo = [r] → r.ctx < 8 →
        Store.find? (s.spout k).ctxs r.ctx = some c → c.query = some q → s.req? q.1 = some rq →
        s.index? rq.hdr.index.toNat = some x → s.thinRill n.basin q = some l →
        t.rill l = (s.rill l).putHeap (((s.rill l).heapOf q.1 q.2 rq.heapDepth).offer
          (r.h % 65536, mkGid (x.shards.getD (r.sidx % 65536) 0) (r.lid % 4294967296))) ∧
        (∀ j, j ≠ l → t.rill j = s.rill j)))) ∧
  (∀ (n : SpoutName) (k : Nat) (s : State), k = keyOfSpout n → s.spoutOff k = false → (s.spout k).err = 0 →
    Completes (.spstat n) s (fun t => t = { s with hbm := t.hbm, out := t.out } ∧
      t.out = s.out ++ [.spoutWord n (BitVec.ofNat 32 (spWord 9 n.bank 0)), .spout (leBytes 2 (s.spout k).fifo.length ++
        leBytes 2 0 ++ leBytes 4 (s.spout k).blocks.toNat ++ leBytes 4 (s.spout k).skipped.toNat ++ zeroBytes 20)] ∧
      t.spout k = { s.spout k with
        room := 1024 - (s.spout k).fifo.length
        done := false
        owed := if (s.spout k).done then ((s.spout k).fifo.length + 1) / 2 else (s.spout k).owed } ∧
      (∀ j, j ≠ k → t.spout j = s.spout j) ∧ t.hbm.dram = s.hbm.dram)) ∧
  (∀ (n : SpoutName) (column : Fin 32) (data check : List Byte) (k : Nat) (s : State), k = keyOfSpout n →
    (s.spout k).row = none → (s.stack (k % 4 + 4)).ctrlEcc = false →
    Completes (.rawrd n column ⟨data, check⟩) s (fun t => t = { s with hbm := t.hbm, out := t.out } ∧
      t.out = s.out ++ [.spoutWord n (BitVec.ofNat 32 (spWord 12 n.bank column)), .spout (padTo 0 32 data ++ padTo 0 4 check)] ∧
      t.hbm = { s.hbm with passes := t.hbm.passes }))

/-- A command out of the order of Table 12-3 goes out and changes nothing but ERR_SEQ of its Spout; a segment is counted all the same.
A disabled Spout takes none. -/
def Obligations.SpoutOrderKept : Prop :=
  ∀ (n : SpoutName) (s : State) (i : Instr) (op opnd k : Nat), k = keyOfSpout n →
    ((∃ row : U16, i = .spact n row ∧ op = 1 ∧ opnd = row.toNat ∧ ((s.spout k).seq = false ∨ (s.spout k).row ≠ none)) ∨
     (∃ c r q, i = .spload n c r q ∧ op = 4 ∧ opnd = c.val ∧ (s.spout k).seq = true) ∨
     (∃ b : Fin 1024, i = .spblk n b ∧ op = 6 ∧ opnd = b.val ∧ ((s.spout k).ctxs = [] ∨ (s.spout k).next ≠ none)) ∨
     (∃ u d, i = .spfeed n ⟨u, d⟩ ∧ op = 7 ∧ opnd = 0 ∧ (s.spout k).seq = false ∧ (s.stack (k % 4 + 4)).ctrlEcc = false ∧
       (s.stack (k % 4 + 4)).runSealed u = false) ∨
     (i = .spclr n ∧ op = 10 ∧ opnd = 0 ∧ (s.spout k).seq = true) ∨
     (i = .spend n ∧ op = 11 ∧ opnd = 0 ∧ ((s.spout k).seq = false ∨ (s.spout k).row ≠ none)) ∨
     (∃ c b, i = .rawrd n c b ∧ op = 12 ∧ opnd = c.val ∧ (s.spout k).row ≠ none ∧ (s.stack (k % 4 + 4)).ctrlEcc = false) ∨
     (∃ (g : Fin 4) (d : List Byte) (u p : Bool), i = .spseg n g d u p ∧ op = 2 ∧ opnd = g.val ∧ (s.spout k).row = none)) →
    Completes i s (fun t => (s.spoutOff k = true → t = s) ∧
      (s.spoutOff k = false → SpoutIssued s t n op opnd [Reg.SPOUT_CNT_SEGMENTS] ∧
        t.spout k = { s.spout k with err := (s.spout k).err ||| errSeq } ∧
        Counted s t Reg.SPOUT_CNT_SEGMENTS 0 64 (if op = 2 then 1 else 0)))

/-- A refresh that falls due with every bank closed is issued, and with a Spout's row open is postponed up to POSTPONE times and
then stops the sequences: one stop is counted, and for each open bank the cycles to its first REFRESH, 630 for each REFRESH and 24
for SPACT. A scrub clears the seal of the lowest sealed run, once the row of its bank is not a Spout's. The check injection sets its bit. -/
def Obligations.RefreshAndScrub : Prop :=
  (∀ (n : StackName) (pc : Fin 16) (waits : List Nat) (p : Nat) (s : State),
    p = n.basin.val + 2 * n.complex.val + 4 * pc.val →
    ((n.spouting = false ∨ s.pcClosed p = true) →
      Completes (.refreshDue n pc waits) s (fun t => t = { s with hbm := t.hbm } ∧
        Store.get (fun _ => 0) (t.stack (keyOfStack n)).refresh pc = 0 ∧ t.hbm.spouts = s.hbm.spouts ∧
        (∀ j, j ≠ keyOfStack n → t.stack j = s.stack j))) ∧
    (n.spouting = true → s.pcClosed p = false →
      Completes (.refreshDue n pc waits) s (fun t => t = { s with hbm := t.hbm, regs := t.regs } ∧
        t.hbm.spouts = s.hbm.spouts ∧
        (Store.get (fun _ => 0) (s.stack (keyOfStack n)).refresh pc < s.regF Reg.SPOUT_CFG 0 3 →
          Store.get (fun _ => 0) (t.stack (keyOfStack n)).refresh pc =
            Store.get (fun _ => 0) (s.stack (keyOfStack n)).refresh pc + 1 ∧ t.regs = s.regs) ∧
        (s.regF Reg.SPOUT_CFG 0 3 ≤ Store.get (fun _ => 0) (s.stack (keyOfStack n)).refresh pc →
          Store.get (fun _ => 0) (t.stack (keyOfStack n)).refresh pc = 0 ∧
          OnlyRegs s t [Reg.SPOUT_CNT_REFSTOP, Reg.SPOUT_CNT_REFDELAY] ∧ Counted s t Reg.SPOUT_CNT_REFSTOP 0 64 1 ∧
          (∀ b, b < 16 → (∀ c, c < 16 → ((s.spout (p + 64 * c)).row ≠ none ↔ c = b)) →
            Counted s t Reg.SPOUT_CNT_REFDELAY 0 64 (waits.getD b 0 +
              (Store.get (fun _ => 0) (s.stack (keyOfStack n)).refresh pc + 1) * 630 + 24)))))) ∧
  (∀ (b c : Fin 2) (s : State) (r : Nat), (s.stack (stackKey b c 1)).firstSealed = some r → s.regF Reg.SPOUT_CFG 3 1 = 1 →
    (s.stack (stackKey b c 1)).ctrlEcc = false → (s.stack (stackKey b c 1)).state = 1 →
    (s.bankSpouts b c (r % 16) (r / 16 % 16) = true → Completes (.scrubRun b c) s (fun t => t = s)) ∧
    (s.bankSpouts b c (r % 16) (r / 16 % 16) = false → Completes (.scrubRun b c) s (fun t => t = { s with hbm := t.hbm, regs := t.regs } ∧
      (t.stack (stackKey b c 1)).runSealed r = false ∧
      (∀ j, j ≠ r → (t.stack (stackKey b c 1)).runSealed j = (s.stack (stackKey b c 1)).runSealed j) ∧
      (∀ j, j ≠ stackKey b c 1 → t.stack j = s.stack j) ∧ t.hbm.spouts = s.hbm.spouts ∧
      OnlyRegs s t [Reg.SPOUT_CNT_SCRUB] ∧ Counted s t Reg.SPOUT_CNT_SCRUB 0 64 1))) ∧
  (∀ s : State, s.pageUp (keyPage Reg.SPOUT_INJECT) = true →
    Completes .injectSpoutCheck s (fun t => OnlyBitSet s t (instKey Reg.SPOUT_INJECT (s.regF Reg.SPOUT_SEL 0 10)) 0))

/-- The end of an interval starts at most MAX_ACTIVE migrations in its Basin, into pages of the target that hold nothing else, and
leaves every list where it is. A copy that equals its source moves every block array of its list to the target stack in one step,
and one that differs abandons the migration; either way no entry of a list changes. -/
def Obligations.ListsMigrate : Prop :=
  (∀ (b : Fin 2) (s : State), Completes (.migrationInterval b) s (fun t => t = { s with hbm := t.hbm, free := t.free } ∧
      t.hbm.dram = s.hbm.dram ∧ t.hbm.spouts = s.hbm.spouts ∧ (∃ more, t.hbm.migs = s.hbm.migs ++ more ∧
        ∀ m ∈ more, m.basin = b.val ∧ ∀ p ∈ m.runs, ∀ r ∈ p.runs, r ∉ s.usedRuns b m.target ∧
          (2 ≤ m.target → (s.stack (stackKey b (m.target % 2) 1)).runSealed r = false)) ∧
      (s.regF Reg.SPOUT_MIG_CFG 0 1 ≠ 1 → t.hbm.migs = s.hbm.migs) ∧
      ((s.hbm.migs.filter (fun g => g.basin == b.val)).length ≤ s.regF Reg.SPOUT_MIG_CFG 44 4 →
        (t.hbm.migs.filter (fun g => g.basin == b.val)).length ≤ s.regF Reg.SPOUT_MIG_CFG 44 4))) ∧
  (∀ (idx : Fin 32) (slot : Nat) (s : State) (m : Migration) (x : Index), s.hbm.wishes = [] →
    s.hbm.migs.find? (fun m => m.idx == idx.val && m.slot == slot) = some m → s.index? idx = some x →
    Completes (.migrationCopyDone idx slot true) s (fun t => t.hbm.migs = s.hbm.migs.filter (· != m) ∧
      t = { s with hbm := t.hbm, regs := t.regs, indexes := t.indexes } ∧
      OnlyRegs s t [Reg.SPOUT_CNT_MIGRATE] ∧ CountedSat s t Reg.SPOUT_CNT_MIGRATE (if m.up then 0 else 16) 16 1 ∧
      ∃ y, t.index? idx = some y ∧ y.slots = x.slots ∧ y.rows = x.rows ∧ y.cur = x.cur ∧
        (∀ h a, Store.find? x.arrs h = some a → ∃ c, Store.find? y.arrs h = some c ∧ c.ents = a.ents ∧ c.basin = a.basin ∧
          c.stack = (if (x.listArrs m.basin slot).contains h then m.target else a.stack)))) ∧
  (∀ (idx : Fin 32) (slot : Nat) (s : State) (m : Migration) (x : Index), s.hbm.wishes = [] →
    s.hbm.migs.find? (fun m => m.idx == idx.val && m.slot == slot) = some m → s.index? idx = some x →
    Completes (.migrationCopyDone idx slot false) s (fun t => t = { s with hbm := t.hbm, regs := t.regs } ∧
      t.hbm = { s.hbm with migs := s.hbm.migs.filter (fun g => !(g == m)) } ∧ OnlyRegs s t [Reg.SPOUT_CNT_MIGRATE]))

/-- The patrol counts the bursts that the on-die code, and those that the controller's code, corrects, once in a period; an
uncorrectable read that a re-read clears is transient and runs the phase again; a lane fault takes a redundant lane, with the accesses
held until the retraining ends, and with both in use its pages move, or the scans that read them end where no room is left; a stack
above 85 °C is hot, and the runs that a test reserved are sealed. -/
def Obligations.StacksRepaired : Prop :=
  (∀ (n : StackName) (ondie : Nat) (ctrl : List (List Byte)) (last : Bool) (s : State),
    ((s.stack (keyOfStack n)).patrolled ≠ some s.patrolPeriod ∨ (s.stack (keyOfStack n)).patrolling = true) →
    Completes (.hbmPatrol n ondie ctrl ⟨[], last⟩) s (fun t =>
      t = { s with hbm := t.hbm, regs := t.regs } ∧ OnlyRegs s t [instKey Reg.MEM_HBM_ERR (keyOfStack n)] ∧
      CountedSat s t (instKey Reg.MEM_HBM_ERR (keyOfStack n)) 0 16 ondie ∧
      CountedSat s t (instKey Reg.MEM_HBM_ERR (keyOfStack n)) 16 16
        ((ctrl.map (padTo 0 36)).filter (fun b => !rsClean b && (rsCorrect b).isSome)).length ∧
      CountedSat s t (instKey Reg.MEM_HBM_ERR (keyOfStack n)) 32 16
        ((ctrl.map (padTo 0 36)).filter (fun b => (rsCorrect b).isNone)).length ∧
      t.stack (keyOfStack n) = { s.stack (keyOfStack n) with
        ce := if last then [] else (s.stack (keyOfStack n)).ce
        patrolled := if (s.stack (keyOfStack n)).patrolling then (s.stack (keyOfStack n)).patrolled else some s.patrolPeriod
        patrolling := !last } ∧
      (∀ j, j ≠ keyOfStack n → t.stack j = s.stack j))) ∧
  (∀ (n : StackName) (ondie : Nat) (ctrl : List (List Byte)) (part : PatrolRows) (s : State),
    (s.stack (keyOfStack n)).patrolled = some s.patrolPeriod → (s.stack (keyOfStack n)).patrolling = false →
    Completes (.hbmPatrol n ondie ctrl part) s (fun t => t = s)) ∧
  (∀ (n : StackName) (rid : Nat) (row : DramRow) (spare : Bool) (pages : Nat) (c : RowContent) (s : State) (r : Req),
    s.req? rid = some r → r.life = .running → r.phaseRuns < s.regF Reg.RST_CFG 32 8 → (∀ p ∈ s.partsOut, p.rid ≠ rid) →
    ((r.phase ≠ .fetch ∧ r.phase ≠ .exact) ∨ r.windows = []) →
    Completes (.hbmUncorrectableRead n rid row false ⟨spare, pages⟩ c) s (fun t =>
      CountedSat s t (instKey Reg.MEM_HBM_ERR (keyOfStack n)) 32 16 1 ∧ CountedSat s t Reg.RST_CNT_FAULTS 0 32 1 ∧
      t.hbm.dram = s.hbm.dram ∧ t.record = s.record ∧ ∃ q, t.req? rid = some q ∧ q.reruns = min 255 (r.reruns + 1) ∧
        q.hdr = r.hdr ∧ q.payload = r.payload ∧ q.phase = r.phase)) ∧
  (∀ (n : StackName) (pc : Fin 16) (pages : Nat) (s : State),
    (Store.get (fun _ => 0) (s.stack (keyOfStack n)).lanes pc < 2 →
      Completes (.laneRemap n pc pages) s (fun t => t = { s with hbm := t.hbm, regs := t.regs } ∧
        OnlyRegs s t [Reg.RST_CNT_FAULTS] ∧ CountedSat s t Reg.RST_CNT_FAULTS 32 16 1 ∧
        Store.get (fun _ => 0) (t.stack (keyOfStack n)).lanes pc = Store.get (fun _ => 0) (s.stack (keyOfStack n)).lanes pc + 1 ∧
        pc.val ∈ (t.stack (keyOfStack n)).held ∧ (t.stack (keyOfStack n)).retired = (s.stack (keyOfStack n)).retired ∧
        (∀ j, j ≠ keyOfStack n → t.stack j = s.stack j))) ∧
    (2 ≤ Store.get (fun _ => 0) (s.stack (keyOfStack n)).lanes pc → s.basinRoom n.basin pages = true →
      Completes (.laneRemap n pc pages) s (fun t => CountedSat s t Reg.RST_CNT_FAULTS 32 16 1 ∧
        Store.get (fun _ => 0) (t.stack (keyOfStack n)).lanes pc = 3 ∧
        (t.stack (keyOfStack n)).retired = (s.stack (keyOfStack n)).retired + pages)) ∧
    (2 ≤ Store.get (fun _ => 0) (s.stack (keyOfStack n)).lanes pc → s.basinRoom n.basin pages = false →
      Completes (.laneRemap n pc pages) s (fun t => CountedSat s t Reg.RST_CNT_FAULTS 32 16 1 ∧ t.hbm.dram = s.hbm.dram ∧
        ∀ rid ∈ s.readersOn n ((List.range (stackRuns (2 * b2n n.spouting))).filter (fun r =>
          !n.spouting || r % 16 == pc.val)), ∀ q, t.req? rid = some q → q.life = .answered))) ∧
  (∀ (n : StackName) (pc : Fin 16) (s : State), Completes (.pseudoChannelRetrainDone n pc) s (fun t =>
      t = { s with hbm := t.hbm } ∧ pc.val ∉ (t.stack (keyOfStack n)).held ∧
      (∀ q, q ≠ pc.val → (q ∈ (t.stack (keyOfStack n)).held ↔ q ∈ (s.stack (keyOfStack n)).held)) ∧
      (∀ j, j ≠ keyOfStack n → t.stack j = s.stack j))) ∧
  (∀ (n : StackName) (temp : Int) (tested : List (Fin 262144)) (s : State), Completes (.hbmTempRead n ⟨temp, tested⟩) s (fun t =>
      t = { s with hbm := t.hbm } ∧ (t.stack (keyOfStack n)).hot = decide (85 < temp) ∧
      (∀ r, (t.stack (keyOfStack n)).runSealed r =
        ((s.stack (keyOfStack n)).runSealed r || (n.spouting && tested.any (fun u => u.val == r)))) ∧
      (∀ j, j ≠ keyOfStack n → t.stack j = s.stack j)))

/-! ### The memory range and the Cistern (R349 to R401) -/

/-- The first good copy of a page makes it resident and lets every write that waits for it go on; a step that fails is kept, until
the whole ladder and the read-around have failed too, and then the page is lost and its waiter ends with TIER_FAILED. A copy that is
misdirected, or that an injection arms, has failed, and one that cannot come yet changes nothing. The read-around starts once, when
R361 lets it, and is counted. -/
def Obligations.TierReadsServed : Prop :=
  (∀ (l : Nat) (copy : LtCopy) (s : State) (r : LtRead), s.readOf (.page l) = some r → lpnSpace l ≠ 2 → r.mayCome copy = true →
    s.copyGood r copy = true → (copy ≠ .around → s.ueArmed r = false) →
    r.basin < 2 → ((s.basin 0).state ≠ 1 ∨ (s.basin 1).state ≠ 1) → Store.find? s.mem.dirty l = none →
    (∀ w ∈ r.waiters, ∃ rid, w = Waiter.req rid) →
    Completes (.lowerTierReadDone (.page l) copy true) s (fun t =>
      t = { s with mem := t.mem, cist := t.cist, regs := t.regs, reqs := t.reqs } ∧
      t.readOf (.page l) = none ∧ (∀ q, q ≠ .page l → t.readOf q = s.readOf q) ∧ t.resident r.slice l = true ∧
      t.mem.dirty = s.mem.dirty ∧ (∀ j ∈ s.mem.lost, j ∈ t.mem.lost) ∧ t.cist.map = s.cist.map ∧
      (copy ≠ .around → t.regs = s.regs ∧ t.cist = s.cist ∧ t.mem.lost = s.mem.lost) ∧
      (copy = .around → CountedSat s t Reg.CIST_ERR_B 32 32 1) ∧
      (∀ rid q, s.req? rid = some q → t.req? rid = some
        (if .req rid ∈ r.waiters ∧ q.life = .waitRoom then { q with life := .running } else q)))) ∧
  (∀ (l : Nat) (copy : LtCopy) (good : Bool) (s : State) (r : LtRead), s.readOf (.page l) = some r → r.mayCome copy = true →
    (good = false ∨ s.copyGood r copy = false ∨ (copy ≠ .around ∧ s.ueArmed r = true)) →
    ((r.fails s.cist.retry copy).failed ≠ 3 ∨ (r.fails s.cist.retry copy).aroundFailed = false) →
    Completes (.lowerTierReadDone (.page l) copy good) s (fun t => t = { s with mem := t.mem } ∧
      t.readOf (.page l) = some (r.fails s.cist.retry copy) ∧ (∀ q, q ≠ .page l → t.readOf q = s.readOf q) ∧
      t.mem.lost = s.mem.lost)) ∧
  (∀ (l : Nat) (copy : LtCopy) (good : Bool) (s : State) (r : LtRead), s.readOf (.page l) = some r → r.mayCome copy = false →
    Completes (.lowerTierReadDone (.page l) copy good) s (fun t => t = s)) ∧
  (∀ (l rid : Nat) (copy : LtCopy) (s : State) (r : LtRead) (q : Req), s.readOf (.page l) = some r → lpnSpace l ≠ 2 →
    r.mayCome copy = true → (r.fails s.cist.retry copy).failed = 3 → (r.fails s.cist.retry copy).aroundFailed = true →
    r.waiters = [.req rid] → s.req? rid = some q → q.life ≠ .answered → s.now.toNat < q.hdr.deadline.toNat →
    Completes (.lowerTierReadDone (.page l) copy false) s (fun t => l ∈ t.mem.lost ∧ t.readOf (.page l) = none ∧
      CountedSat s t Reg.MEM_CNT_TIER 32 32 1 ∧ s.Ends t rid stTierFailed)) ∧
  (∀ (l : Nat) (s : State) (r : LtRead), s.readOf (.page l) = some r →
    ((r.around = true ∨ s.aroundDue r = false) → Completes (.readAroundStart (.page l)) s (fun t => t = s)) ∧
    (r.around = false → s.aroundDue r = true → Completes (.readAroundStart (.page l)) s (fun t =>
      t = { s with mem := t.mem, regs := t.regs } ∧
      t.readOf (.page l) = some { r with around := true } ∧ (∀ q, q ≠ .page l → t.readOf q = s.readOf q) ∧
      (r.slow = true → bit (t.reg Reg.MEM_INJECT) 0 = false) ∧ Counted s t Reg.MEM_CNT_AROUND 0 64 1 ∧
      (1 ≤ r.failed → ∀ p ∈ r.ppas, bit (t.reg (injectOf p)) 0 = false)))) ∧
  (∀ s : State, s.pageUp (keyPage Reg.MEM_INJECT) = true →
    Completes .injectMemSlow s (fun t => OnlyBitSet s t Reg.MEM_INJECT 0) ∧
    Completes .injectMemUe s (fun t => OnlyBitSet s t (instKey Reg.MEM_INJECT (s.regF Reg.MEM_HBM_SEL 0 3)) 1))

/-- A page is clean when its program unit and the parity unit of its stripe are done: its map entry alone changes, once its map page is
cached, its HBM copies are dropped from those of dirty pages, and every write that waited for dirty room goes on. Backing queues the
image of a block array once, and one image of each version of a table page that can no longer change, and moves no page; a demotion
takes only block arrays of its slice and Basin that are superseded and whose image stands on the media, and none while it is off. -/
def Obligations.PagesSettle : Prop :=
  (∀ (l i p : Nat) (r : SRow) (s : State), lpnSpace l ≠ 2 → s.cist.findWord l none false = some (r, i) →
    s.cist.programmed r i = some p → s.mapHeld = false → s.mapCold l = false →
    Completes (.pageClean l) s (fun t => t = { s with mem := t.mem, cist := t.cist, regs := t.regs, reqs := t.reqs } ∧
      Store.find? t.cist.map l = some p ∧ (∀ j, j ≠ l → Store.find? t.cist.map j = Store.find? s.cist.map j) ∧
      Store.find? t.mem.dirty l = none ∧ (∀ j, j ≠ l → Store.find? t.mem.dirty j = Store.find? s.mem.dirty j) ∧
      t.cist.media = s.cist.media ∧ (Store.find? t.cist.mapDirty (mapLpn l)).isSome = true ∧
      (∀ rid q, s.req? rid = some q →
        t.req? rid = some (if q.life = .waitRoom then { q with life := .running } else q)) ∧
      OnlyRegs s t [Reg.CIST_MAPCACHE_STATUS])) ∧
  (∀ (l i p : Nat) (r : SRow) (s : State), lpnSpace l ≠ 2 → s.cist.findWord l none false = some (r, i) →
    s.cist.programmed r i = some p →
    (s.mapHeld = true → Completes (.pageClean l) s (fun t => t = s)) ∧
    (s.mapHeld = false → s.mapCold l = true → Completes (.pageClean l) s (fun t => t = { s with mem := t.mem, regs := t.regs } ∧
      t.mem.dirty = s.mem.dirty ∧ (t.readOf (.page (mapLpn l))).isSome = true))) ∧
  (∀ (l i : Nat) (r : SRow) (s : State), lpnSpace l ≠ 2 → s.cist.findWord l none false = some (r, i) →
    s.cist.programmed r i = none → Completes (.pageClean l) s (fun t => t = s)) ∧
  (∀ (idx : Fin 32) (h : Nat) (s : State) (x : Index) (a : BlkArr), s.index? idx = some x → Store.find? x.arrs h = some a →
    s.imageOf idx h = none → (a.inflow = true → a.stamp ≠ x.u) → s.cistAccepts (imagePages a x.desc.width) = true →
    Completes (.backingImageWrite idx (.array h)) s (fun t => t = { s with mem := t.mem, cist := t.cist } ∧
      t.mem = { s.mem with
        backed := s.mem.backed ++ [⟨idx, h, imageLpn idx s.mem.nextImage, imagePages a x.desc.width⟩]
        nextImage := s.mem.nextImage + imagePages a x.desc.width
        stamp := s.mem.stamp + 1 } ∧
      t.cist.map = s.cist.map ∧ t.cist.luns = s.cist.luns ∧ t.cist.media = s.cist.media)) ∧
  (∀ (idx : Fin 32) (h : Nat) (s : State) (x : Index) (a : BlkArr), s.index? idx = some x → Store.find? x.arrs h = some a →
    ((s.imageOf idx h).isSome = true ∨ (a.inflow = true ∧ a.stamp = x.u) ∨
      s.cistAccepts (imagePages a x.desc.width) = false) →
    Completes (.backingImageWrite idx (.array h)) s (fun t => t = s)) ∧
  (∀ (idx : Fin 32) (s : State) (x : Index), s.index? idx = some x → s.cistAccepts x.tablePages.length = true →
    Completes (.backingImageWrite idx .tables) s (fun t => t = { s with mem := t.mem, cist := t.cist } ∧
      t.mem.backed = s.mem.backed ∧ t.cist.map = s.cist.map ∧ t.cist.media = s.cist.media ∧
      (∃ more, t.mem.tabs = s.mem.tabs ++ more ∧
        ∀ b ∈ more, b.idx = idx.val ∧ (b.table, b.page, b.stamp) ∈ x.tablePages ∧ b.stamp ≠ x.u) ∧
      (∀ p ∈ x.tablePages, p.2.2 ≠ x.u →
        ∃ b ∈ t.mem.tabs, b.idx = idx.val ∧ b.table = p.1 ∧ b.page = p.2.1 ∧ b.stamp = p.2.2))) ∧
  (∀ (slice : Fin 16) (b : Fin 2) (s : State), Completes (.demotion slice b) s (fun t =>
      t = { s with mem := t.mem, hbm := t.hbm, regs := t.regs } ∧ OnlyRegs s t [Reg.MEM_CNT_MOVE] ∧
      (s.regF Reg.MEM_CFG 24 1 = 0 → t = s) ∧
      t.mem = { s.mem with demoted := t.mem.demoted } ∧ t.hbm = { s.hbm with places := t.hbm.places } ∧
      ∃ more, t.mem.demoted = s.mem.demoted ++ more ∧ ∀ p ∈ more, s.isBacked p.1 p.2 = true ∧ p ∉ s.mem.demoted ∧
        ∃ x a, (p.1, x) ∈ s.indexes ∧ (p.2, a) ∈ x.arrs ∧ x.desc.slice = slice.val ∧ a.basin = b.val ∧
          s.superseded p.1 x p.2 = true))

/-- An array command whose unit has started completes, and ends a time-out of its LUN; a read below every threshold is counted, and goes
off the list of those for which an operation is suspended, which is resumed with the last of them; a program unit puts its codewords
on the media, and an erased block set leaves its group with its erase count raised and nothing on it. A read suspends a busy LUN
fewer than SUSPEND_MAX times, and a suspended program or erase does not complete. While the pins are held nothing completes. -/
def Obligations.ArrayCommandsEnd : Prop :=
  (∀ (ch lun : Fin 32) (cmd : NandCmd) (s : State),
    (s.nandHeld = true ∨ (s.lun (lunKey ch lun)).state ≠ 1 ∨ bit (s.reg (instKey Reg.CIST_INJECT (lunKey ch lun))) 2 = true ∨
      s.cist.granted.contains (unitOf ch lun cmd) = false ∨
      ((s.lun (lunKey ch lun)).ahead ≠ [] ∧ ∀ p d, cmd ≠ NandCmd.read p d)) →
    Completes (.nandCommandDone ch lun cmd) s (fun t => t = s)) ∧
  (∀ (ch lun : Fin 32) (ppa n k : Nat) (s : State), k = lunKey ch lun → s.nandHeld = false → (s.lun k).state = 1 →
    s.cist.granted.contains (.read ppa) = true → (∀ b, b < 3 → bit (s.reg (instKey Reg.CIST_INJECT k)) b = false) →
    (ppaSet ppa).1 = ch.val → (ppaSet ppa).2.1 = lun.val →
    Store.get (fun _ => 0) (s.lun k).reads (ppaSet ppa).2.2 + 1 < s.regF Reg.CIST_CFG 8 16 * 1000 →
    n ≤ s.rwThreshold → (∀ w, Store.find? s.cist.media ppa = some w → s.cist.misdirected (s.cist.lpnAt ppa) w = false) →
    Completes (.nandCommandDone ch lun (.read ppa (.hard n))) s (fun t =>
      t = { s with cist := t.cist, regs := t.regs, out := t.out } ∧
      t.out = s.out ++ (if (s.lun k).ahead ≠ [] ∧ ∀ p ∈ (s.lun k).ahead, p = ppa then [Out.nand ch lun .resume] else []) ∧
      OnlyRegs s t [Reg.CIST_CNT_READS, Reg.RST_CNT_FAULTS] ∧ Counted s t Reg.CIST_CNT_READS 0 64 1 ∧
      CountedSat s t Reg.RST_CNT_FAULTS 0 32 (if (s.lun k).timedOut then 1 else 0) ∧
      (t.lun k).timedOut = false ∧ (t.lun k).suspends = (s.lun k).suspends ∧
      (t.lun k).ahead = (s.lun k).ahead.filter (· != ppa) ∧
      Store.get (fun _ => 0) (t.lun k).reads (ppaSet ppa).2.2 = Store.get (fun _ => 0) (s.lun k).reads (ppaSet ppa).2.2 + 1 ∧
      t.cist = { s.cist with luns := t.cist.luns, granted := t.cist.granted, ladder := t.cist.ladder } ∧
      NandUnit.read ppa ∉ t.cist.granted ∧ t.cist.climbed ppa = 0 ∧
      (∀ j, j ≠ k → t.lun j = s.lun j))) ∧
  (∀ (ch lun : Fin 32) (g row mem : Nat) (s : State) (r : SRow) (grp : Group), s.nandHeld = false →
    (s.lun (lunKey ch lun)).state = 1 → (s.lun (lunKey ch lun)).ahead = [] →
    s.cist.granted.contains (.program g row mem) = true → bit (s.reg (instKey Reg.CIST_INJECT (lunKey ch lun))) 2 = false →
    s.cist.rows.find? (fun r => r.group == g && r.row == row) = some r → Store.find? s.cist.groups g = some grp →
    s.unitDue g grp row mem = true →
    Completes (.nandCommandDone ch lun (.program g row mem)) s (fun t => t = { s with cist := t.cist, regs := t.regs } ∧
      OnlyRegs s t [Reg.RST_CNT_FAULTS, Reg.CIST_CNT_PROG, Reg.CIST_CNT_FILLER] ∧
      ((∃ w ∈ r.words, w.settled = false) →
        t.cist.rows.find? (fun r => r.group == g && r.row == row) = some { r with done := r.done ++ [mem] }) ∧
      (∀ p ∈ s.cist.unitData grp r mem, ∃ q ∈ s.cist.unitData grp r mem, q.1 = p.1 ∧
        Store.find? t.cist.media p.1 = some q.2) ∧
      (∀ a, (∀ p ∈ s.cist.unitData grp r mem, p.1 ≠ a) → Store.find? t.cist.media a = Store.find? s.cist.media a) ∧
      t.cist.map = s.cist.map ∧ t.cist.groups = s.cist.groups ∧ NandUnit.program g row mem ∉ t.cist.granted)) ∧
  (∀ (ch lun : Fin 32) (b k : Nat) (g : Group) (s : State), s.nandHeld = false → (s.lun (lunKey ch lun)).state = 1 →
    (s.lun (lunKey ch lun)).ahead = [] → s.cist.granted.contains (.erase ch lun b) = true →
    bit (s.reg (instKey Reg.CIST_INJECT (lunKey ch lun))) 2 = false →
    s.cist.groupOf (ch.val, lun.val, b) = some (k, g) → g.erasing = true → k < s.cist.nextGroup →
    s.readIn g = false →
    Completes (.nandCommandDone ch lun (.erase b)) s (fun t => t = { s with cist := t.cist, regs := t.regs } ∧
      OnlyRegs s t [Reg.RST_CNT_FAULTS] ∧ t.cist.eraseOf ch lun b = s.cist.eraseOf ch lun b + 1 ∧
      Store.get (fun _ => 0) (t.lun (lunKey ch lun)).reads b = 0 ∧
      (∀ e ∈ t.cist.media, ppaSet e.1 ≠ (ch.val, lun.val, b)) ∧
      (∀ g', Store.find? t.cist.groups k = some g' → (ch.val, lun.val, b) ∉ g'.members) ∧ t.cist.map = s.cist.map)) ∧
  (∀ (ch lun : Fin 32) (k : Nat) (s : State), k = lunKey ch lun → s.nandHeld = false → (s.lun k).state = 1 →
    (s.lunBusy ch lun = true → (s.lun k).ahead = [] → (s.lun k).suspends < s.regF Reg.CIST_CFG 36 4 →
      Completes (.readSuspend ch lun) s (fun t => t = { s with cist := t.cist, out := s.out ++ [Out.nand ch lun .suspend] } ∧
        t.lun k = { s.lun k with suspends := (s.lun k).suspends + 1, ahead := s.queuedReads ch lun } ∧
        (∀ j, j ≠ k → t.lun j = s.lun j))) ∧
    ((s.lunBusy ch lun = false ∨ (s.lun k).ahead ≠ [] ∨ s.regF Reg.CIST_CFG 36 4 ≤ (s.lun k).suspends) →
      Completes (.readSuspend ch lun) s (fun t => t = s)))

/-- A LUN that times out while another of its channel answers is reset and counted; one that times out again is retired, and its
rebuild queued. A channel whose training fails is retrained once, and a retrained channel's LUNs return. A program or erase failure makes the block set bad. The injections set their
bit. -/
def Obligations.FlashFailuresHandled : Prop :=
  (∀ (ch lun : Fin 32) (k : Nat) (s : State), k = lunKey ch lun → s.nandHeld = false → (s.lun k).state = 1 →
    ch.val ∉ s.cist.retrain → (∃ x ∈ s.cist.luns, x.1 % 32 = ch.val ∧ x.1 ≠ k ∧ x.2.state = 1 ∧ x.2.timedOut = false) →
    Store.Sorted s.cist.luns →
    Completes (.lunTimeout ch lun) s (fun t => CountedSat s t Reg.CIST_ERR_D 32 16 1 ∧
      bit (t.reg (instKey Reg.CIST_INJECT k)) 2 = false ∧ t.cist.map = s.cist.map ∧
      (((s.lun k).timedOut = false ∨ bit (s.reg (instKey Reg.CIST_INJECT k)) 2 = true) →
        t = { s with cist := t.cist, regs := t.regs, out := s.out ++ [Out.nand ch lun .reset] } ∧
        t.lun k = { s.lun k with timedOut := true, suspends := 0, ahead := [] } ∧ (∀ j, j ≠ k → t.lun j = s.lun j)) ∧
      ((s.lun k).timedOut = true → bit (s.reg (instKey Reg.CIST_INJECT k)) 2 = false → (t.lun k).state = 2 ∧
        (ch.val, lun.val) ∈ t.cist.rebuild ∧ recorded t.record kLun k = true ∧
        CountedSat s t Reg.RST_CNT_FAULTS 32 16 1 ∧ CountedSat s t Reg.CIST_ERR_D 48 16 1))) ∧
  (∀ (ch : Fin 32) (s : State), s.nandHeld = false → ch.val ∈ s.cist.retrain →
    Completes (.channelRetrainDone ch true) s (fun t => t = { s with cist := t.cist } ∧ ch.val ∉ t.cist.retrain ∧
      (∀ j, j ≠ ch.val → (j ∈ t.cist.retrain ↔ j ∈ s.cist.retrain)) ∧
      (∀ k, k % 32 = ch.val → (s.lun k).state = 1 → t.lun k = { s.lun k with timedOut := false }))) ∧
  (∀ (ch : Fin 32) (s : State), s.nandHeld = false → ch.val ∉ s.cist.retrain → s.cist.chanLive ch = true →
    Completes (.channelRetrainDone ch false) s (fun t =>
      t = { s with cist := t.cist, out := s.out ++ [Out.nand ch 0 .train] } ∧
      t.cist = { s.cist with retrain := s.cist.retrain ++ [ch.val] })) ∧
  (∀ (ch lun : Fin 32) (b k : Nat) (s : State), k = lunKey ch lun → s.nandHeld = false → (s.lun k).state = 1 →
    b ∉ (s.lun k).bad → ((s.lun k).grown + 1) * 8 ≤ s.cist.blocks →
    Completes (.programFailure ch lun b) s (fun t => t = { s with cist := t.cist, regs := t.regs } ∧
      b ∈ (t.lun k).bad ∧ (t.lun k).grown = (s.lun k).grown + 1 ∧
      (t.lun k).state = 1 ∧ OnlyRegs s t [Reg.CIST_ERR_D, Reg.CIST_HEALTH] ∧
      CountedSat s t Reg.CIST_ERR_D 0 16 1 ∧ CountedSat s t Reg.CIST_HEALTH 16 16 1 ∧ t.cist.map = s.cist.map) ∧
    Completes (.eraseFailure ch lun b) s (fun t => t = { s with cist := t.cist, regs := t.regs } ∧
      b ∈ (t.lun k).bad ∧ (t.lun k).grown = (s.lun k).grown + 1 ∧
      (t.lun k).state = 1 ∧ OnlyRegs s t [Reg.CIST_ERR_D, Reg.CIST_HEALTH] ∧
      CountedSat s t Reg.CIST_ERR_D 16 16 1 ∧ CountedSat s t Reg.CIST_HEALTH 16 16 1 ∧ t.cist.map = s.cist.map ∧
      (∀ j g g', s.cist.groupOf (ch.val, lun.val, b) = some (j, g) → g.erasing = true →
        Store.find? t.cist.groups j = some g' → (ch.val, lun.val, b) ∉ g'.members))) ∧
  (∀ s : State, s.pageUp (keyPage Reg.CIST_INJECT) = true → ∀ k, k = instKey Reg.CIST_INJECT (s.regF Reg.CIST_LUN_SEL 0 10) →
    Completes .injectCistUe s (fun t => OnlyBitSet s t k 0) ∧ Completes .injectCistHigh s (fun t => OnlyBitSet s t k 1) ∧
    Completes .injectCistTimeout s (fun t => OnlyBitSet s t k 2))

/-- Closing a stream's rows that have waited for STRIPE_CLOSE_MS moves no page; reclaim starts the erasure of a group without valid
codewords and otherwise only copies; the patrol reads one codeword of each programmed wordline in turn, once in a period; a relocated
copy replaces the map entry only where the map still names the old one; a rebuilt LUN's groups are marked for reclaim, and its rebuild
goes on while one of them holds valid data in it; a format sets the profile, raises the generation and leaves the map empty, or fails
with its reason and leaves nothing on the media. -/
def Obligations.CisternMaintained : Prop :=
  (∀ (stream : Fin 5) (s : State), s.nandHeld = false → Completes (.stripeClose stream) s (fun t =>
      t = { s with cist := { s.cist with rows := t.cist.rows } } ∧ t.cist.rows.length = s.cist.rows.length ∧
      ∀ (i : Nat) (r : SRow) (g : Group), s.cist.rows[i]? = some r → Store.find? s.cist.groups r.group = some g →
        t.cist.rows[i]? = some { r with closed := r.closed || (!r.words.isEmpty &&
          decide (r.first.toNat + 100000 * s.regF Reg.CIST_CFG 40 8 ≤ s.tick.toNat) &&
          decide (streamNum g.stream = stream.val)) })) ∧
  (∀ s : State, s.nandHeld = false → Completes .reclaim s (fun t =>
      t = { s with cist := t.cist, mem := t.mem, regs := t.regs } ∧ t.cist.map = s.cist.map ∧
      t.mem = { s.mem with lost := t.mem.lost } ∧ OnlyRegs s t [Reg.CIST_ERR_C] ∧
      t.cist.luns = s.cist.luns ∧ t.cist.media = s.cist.media ∧
      (s.cist.usable.length ≤ s.cist.freeSets * 50 → s.wearGroup = none → t = s) ∧
      (∀ k g, s.cist.freeSets * 50 < s.cist.usable.length → s.cist.groups = [(k, g)] → g.isOpen = false → g.erasing = false →
        g.stream ≤ 6 → (∀ r ∈ s.cist.rows, r.group ≠ k) → s.groupValid g = 0 →
        t.cist.groups = [(k, { g with erasing := true })]))) ∧
  (∀ (reads period : Nat) (s : State), s.nandHeld = false →
    period = s.tick.toNat / (8640000000000 * max 1 (s.regF Reg.CIST_CFG 54 8)) →
    (s.cist.patrolAt = 0 → s.cist.patrolled = some period → Completes (.cisternPatrol [] reads) s (fun t => t = s)) ∧
    ((s.cist.patrolAt ≠ 0 ∨ s.cist.patrolled ≠ some period) → Completes (.cisternPatrol [] reads) s (fun t =>
      t = { s with cist := t.cist, mem := t.mem, regs := t.regs } ∧ t.cist.map = s.cist.map ∧ t.cist.media = s.cist.media ∧
      t.cist.patrolled = (if s.cist.patrolAt = 0 then some period else s.cist.patrolled) ∧
      ∀ part, part = (s.cist.wordlines.drop s.cist.patrolAt).take reads →
        Counted s t Reg.CIST_CNT_READS 0 64 part.length ∧
        t.cist.patrolAt = (if s.cist.wordlines.length ≤ s.cist.patrolAt + part.length then 0
          else s.cist.patrolAt + part.length) ∧
        ∀ (ch lun : Fin 32) (b : Nat), Store.get (fun _ => 0) (t.lun (lunKey ch lun)).reads b =
          Store.get (fun _ => 0) (s.lun (lunKey ch lun)).reads b +
            (part.filter (fun p => ppaSet p == (ch.val, lun.val, b))).length))) ∧
  (∀ (l old i p : Nat) (r : SRow) (s : State), s.cist.findWord l (some old) false = some (r, i) →
    s.cist.programmed r i = some p → s.mapHeld = false → lpnSpace l < 2 →
    (s.mapCold l = true → Completes (.relocationSwitch l old) s (fun t => t = s.readMapOf l ∧ t.cist.map = s.cist.map)) ∧
    (s.mapCold l = false →
    Completes (.relocationSwitch l old) s (fun t => t = { s with mem := t.mem, cist := t.cist, regs := t.regs } ∧
      t.mem = { s.mem with stamp := t.mem.stamp } ∧
      (∀ j, j ≠ l → Store.find? t.cist.map j = Store.find? s.cist.map j) ∧
      (Store.find? s.cist.map l = some old → l ∉ s.cist.trims →
        Store.find? t.cist.map l = some p ∧ Counted s t Reg.CIST_CNT_RELOC 0 32 1) ∧
      (Store.find? s.cist.map l ≠ some old → t.cist.map = s.cist.map ∧ CountedSat s t Reg.CIST_CNT_RELOC 32 16 1)))) ∧
  (∀ (ch lun : Fin 32) (failed : List Nat) (s : State), s.nandHeld = false → (ch.val, lun.val) ∈ s.cist.rebuild →
    (∀ k ∈ Store.keys s.cist.groups, k < s.cist.nextGroup) →
    Completes (.lunRebuild ⟨ch, lun⟩ failed) s (fun t => t.cist.map = s.cist.map ∧ t.reqs = s.reqs ∧
      ((ch.val, lun.val) ∈ t.cist.rebuild → ∃ g ∈ t.cist.groups, ∃ m ∈ g.2.members, m.1 = ch.val ∧ m.2.1 = lun.val ∧
        (g.2.priority = false ∨ t.validIn m ≠ [])) ∧
      ∀ k g, (k, g) ∈ s.cist.groups → (∃ b, (ch.val, lun.val, b) ∈ g.members) →
        ∃ g', Store.find? t.cist.groups k = some g' ∧ g'.priority = true)) ∧
  (∀ (ch lun : Fin 32) (temp : Int) (s : State), s.nandHeld = false → Completes (.lunTempRead ch lun temp) s (fun t =>
      t = { s with cist := t.cist, regs := t.regs, out := t.out } ∧
      (∀ a, s.cist.feature = some a → (t.lun (lunKey ch lun)).temp = temp ∧ t.out = s.out ++ [Out.nand ch lun (.getFeature a)]) ∧
      (s.cist.feature = none → t.cist.luns = s.cist.luns ∧ t.out = s.out) ∧
      t.cist.throttled = (decide (2 ≤ s.cist.state) && decide (s.cist.maxTemp - 5 ≤ temp)) ∧
      t.cist.seconds = (s.cist.seconds + 1) % 60 ∧ (s.cist.seconds ≠ 59 → t.regs = s.regs))) ∧
  (∀ s : State, s.nandHeld = false → s.cist.state ≠ 0 → Completes .systemAreaWrite s (fun t =>
      t = { s with cist := { s.cist with saved := t.cist.saved } } ∧ t.cist.saved.record = s.cist.record ∧
      t.cist.saved.luns = s.cist.luns ∧ ∀ k ∈ savedRegs, (k, s.reg k) ∈ t.cist.saved.regs)) ∧
  (∀ (media : Media) (ok : Bool) (s : State), s.nandHeld = false → s.cist.state = 1 →
    Completes (.formatDone media ok) s (fun t => t.reqs = s.reqs ∧ t.indexes = s.indexes ∧ t.mem = s.mem ∧
      t.cist.map = [] ∧ t.cist.rows = [] ∧ t.cist.media = [] ∧
      ((t.cist.state = 0 ∧ t.cist.lastErr ∈ [0x10, 0x11, 0x12] ∧ t.cist.generation = s.cist.generation) ∨
       (ok = true ∧ t.cist.state = 2 ∧ t.cist.generation = s.cist.generation + 1 ∧
        t.cist.stripe = s.regF Reg.CIST_FMT 3 6 ∧ t.cist.mode = s.regF Reg.CIST_FMT 2 1 ∧
        ∃ f, mediaProfile media = some f ∧ parityFor f.spareBytes = some t.cist.parity ∧ t.cist.maxTemp = f.maxTemp ∧
          t.cist.retry = f.retry ∧ t.cist.feature = f.feature ∧ t.cist.planes = 2 ^ f.planes.val)) ∧
      (mediaProfile media = none → t.cist.state = 0 ∧ t.cist.lastErr = 0x10) ∧
      (∀ f, mediaProfile media = some f → f.spareBytes < 1664 → t.cist.state = 0) ∧ (ok = false → t.cist.state = 0) ∧
      (∀ f, ok = true → mediaProfile media = some f → 1664 ≤ f.spareBytes →
        (∀ ch, ch < s.regF Reg.CIST_FMT 3 6 → ∃ g ∈ media.luns, g.ch.val = ch ∧ mediaIncludes media g = true ∧
          recorded s.record kLun (lunKey g.ch g.lun) = false) → (∀ g ∈ media.luns, g.eraseFailed = []) →
        (media.luns.map (fun g => lunKey g.ch g.lun)).Nodup → t.cist.state = 2)))

/-! ### The Sluice and the slices (R425 to R453) -/

/-- A point takes what has come to it, those of the NAND channels with the array commands that the Cistern's work needs, starts the unit
it chooses, moving its virtual time, charging its class and counting it, and starts none when no unit is a candidate; a refill adds to
every bucket up to its limit; a parity error starts a point afresh with its queue kept. What a map switch moves is released when its
conditions hold, its last holders end with STALE_MAP after DRAIN_MAX, a replica is held once its pull, which has a source, ends, and
granules are free to leave once no page is in them. -/
def Obligations.SluiceAndMovesRun : Prop :=
  (∀ (pt : Fin 185) (l : List Arrival) (s s1 : State), 8 ≤ pt.val → s1 = s.offerUnits pt l →
    s1 = { s with points := s1.points } ∧ (∀ j, j ≠ pt.val → s1.point j = s.point j) ∧
    (pointKind pt ≠ 1 → (s.point pt).out = false → (∀ a ∈ l, s.isParty pt (s.arrivalUnit a 0).party = true) →
      (s1.point pt).queue = (s.point pt).queue ++ l.filterMap (fun a => (s.jobCost pt a.job).map (s.arrivalUnit a))) ∧
    (s1.slChoose pt = none → Completes (.unitBoundary pt l) s (fun t => t = s1)) ∧
    (∀ (f : Nat × Nat) (u : SUnit), s1.slChoose pt = some f → (s1.point pt).headOf f = some u → f.2 < 16 →
      Completes (.unitBoundary pt l) s (fun t => t = { s1 with points := t.points, regs := t.regs, cist := t.cist } ∧
        t.cist = { s.cist with granted := s.cist.granted ++ u.cmd.toList } ∧ f ∈ s1.slCandidates pt ∧
        (t.point pt).queue = (s1.point pt).queue.erase u ∧ (t.point pt).v = max (s1.point pt).v (s1.partyTag pt f) ∧
        OnlyRegs s t [instKey (Reg.SLU_CLASS_CNT + 8 * f.2) pt] ∧
        Counted s t (instKey (Reg.SLU_CLASS_CNT + 8 * f.2) pt) 0 64 1 ∧
        (s.ratePm pt f.2 ≠ 0 → t.credit pt f.2 = min (s.creditLimit pt f.2) (s1.credit pt f.2 - (u.cost : Int))) ∧
        (∀ j, j ≠ pt.val → t.point j = s.point j)))) ∧
  (∀ s : State, (∀ pt, Store.Sorted (s.point pt).credit) → Completes .creditRefill s (fun t => t = { s with points := t.points } ∧
      ∀ pt, pt < 185 → (t.point pt).queue = (s.point pt).queue ∧ ∀ c, t.credit pt c =
        min (s.creditLimit pt c) (s.credit pt c + ((s.ratePm pt c * s.pointBase pt / 1000 : Nat) : Int)))) ∧
  (∀ (pt : Fin 185) (s : State), Completes (.sluiceParityError pt) s (fun t =>
      t = { s with points := t.points, regs := t.regs } ∧ (t.point pt).v = 0 ∧ (t.point pt).fp = [] ∧ (t.point pt).fpc = [] ∧
      (t.point pt).queue = (s.point pt).queue ∧ (∀ c, t.credit pt c = t.creditLimit pt c) ∧
      (∀ j, j ≠ pt.val → t.point j = s.point j) ∧ OnlyRegs s t [Reg.SLU_CNT_ERR] ∧ CountedSat s t Reg.SLU_CNT_ERR 0 16 1)) ∧
  (∀ s : State, Completes .resourceRelease s (fun t =>
      t = { s with slices := t.slices, fabric := t.fabric, points := t.points } ∧
      t.slices.moving = s.slices.moving.filter (fun m => !s.releasable m) ∧ t.slices.map = s.slices.map ∧
      t.slices.gen = s.slices.gen ∧ t.slices.lacks = s.slices.lacks ∧
      ((∀ b k a n, Moving.granule b k a n ∈ s.slices.moving → s.releasable (.granule b k a n) = false) →
        t.slices.held = s.slices.held ∧ t.slices.leaving = s.slices.leaving) ∧
      (∀ b k a n, Moving.granule b k a n ∈ s.slices.moving → s.releasable (.granule b k a n) = true →
        ∀ l ∈ t.slices.leaving, ¬ (l.gran.slice = a ∧ l.gran.basin = b ∧ l.gran.stack / 2 = k)) ∧
      (∀ n a b, Moving.terrace n a b ∈ s.slices.moving → s.releasable (.terrace n a b) = true →
        (∀ p ∈ t.fabric.rills, nodeTerrace (p.1 % 2) (p.1 / 2 % 8) ≠ n) ∧ (t.point (169 + n)).queue = []))) ∧
  (∀ s : State, s.now.toNat < s.slices.switchedAt.toNat + s.regF Reg.SLC_CFG 0 20 →
    Completes .drainMaxExpiry s (fun t => t = s)) ∧
  (∀ (m : Moving) (rid : Nat) (r : Req) (s : State), s.slices.switchedAt.toNat + s.regF Reg.SLC_CFG 0 20 ≤ s.now.toNat →
    s.slices.moving = [m] → s.releasable m = false → s.holders m = [rid] → s.req? rid = some r → r.life ≠ .answered →
    s.now.toNat < r.hdr.deadline.toNat →
    Completes .drainMaxExpiry s (fun t => s.Ends t rid stStaleMap)) ∧
  (∀ (tr : Fin 16) (obj : Nat) (s : State),
    (s.pulls tr obj = true → (s.pullSource tr obj).isSome = true → s.basinUp (tr.val / 8) = true →
      Completes (.replicaPullDone tr obj) s (fun t =>
        t = { s with slices := t.slices, regs := t.regs } ∧ OnlyRegs s t [Reg.SLC_CNT] ∧ CountedSat s t Reg.SLC_CNT 48 16 1 ∧
        ∀ l, l ∈ t.slices.lacks ↔ l ∈ s.slices.lacks ∧ l ≠ (tr.val, obj))) ∧
    ((s.pulls tr obj = false ∨ s.pullSource tr obj = none ∨ s.basinUp (tr.val / 8) = false) →
      Completes (.replicaPullDone tr obj) s (fun t => t = s))) ∧
  (∀ (b k : Fin 2) (s : State), (s.basinUp b = false → Completes (.granulePagesMoved b k) s (fun t => t = s)) ∧
    (s.basinUp b = true → Completes (.granulePagesMoved b k) s (fun t => t.reqs = s.reqs ∧ t.regs = s.regs ∧
      t.slices = { s.slices with leaving := t.slices.leaving } ∧
      t.slices.leaving.map Leave.gran = s.slices.leaving.map Leave.gran ∧
      (∀ l ∈ t.slices.leaving, l.gran.basin = b.val → l.gran.stack / 2 = k.val → t.granuleBytes l.gran = 0 → l.moved = true) ∧
      (∀ i x h a, s.index? i = some x → Store.find? x.arrs h = some a → ∃ y c, t.index? i = some y ∧ y.slots = x.slots ∧
        Store.find? y.arrs h = some c ∧ c.ents = a.ents ∧ c.basin = a.basin))))

/-! ### The host port (R462 to R482) -/

/-- A doorbell moves its ring: a new tail is held and its entries are read from the ring and taken in order, a bad one sets ERR and QERR,
and a doorbell of a disabled queue, or of a function that host software cannot reach, has no effect; an entry that is read passes SQ_HEAD; a new CQ head frees entries. A coalesced vector is sent once,
and one that is masked or may not be sent becomes pending. Enabling a queue starts its ring at 0. -/
def Obligations.QueuesServed : Prop :=
  (∀ (fn : Fin 17) (q : Fin 16) (tail head : U32) (es : List (List Byte)) (s : State), s.fnUp fn = false →
    Completes (.sqTailDoorbell fn q tail es) s (fun t => t = s) ∧ Completes (.cqHeadDoorbell fn q head) s (fun t => t = s)) ∧
  (∀ (fn : Fin 17) (q : Fin 16) (tail : U32) (es : List (List Byte)) (s : State), s.fnUp fn = true → s.hasQueue fn q = true →
    ((s.queue fn q).sqEn = false → Completes (.sqTailDoorbell fn q tail es) s (fun t => t = s)) ∧
    ((s.queue fn q).sqEn = true → 2 ^ (s.queue fn q).sqLog2 ≤ tail.toNat % 65536 →
      Completes (.sqTailDoorbell fn q tail es) s (fun t => (t.queue fn q).err = true ∧
        (t.queue fn q).sqTail = (s.queue fn q).sqTail ∧ (t.queue fn q).fetched = (s.queue fn q).fetched.take 1 ∧
        bit (t.reg (instKey Reg.HQ_EVENT fn)) 2 = true ∧ t.reqs = s.reqs)) ∧
    ((s.queue fn q).sqEn = true → (s.queue fn q).err = false →
      tail.toNat % 65536 < 2 ^ (s.queue fn q).sqLog2 →
      ringDist (2 ^ (s.queue fn q).sqLog2) (s.queue fn q).sqHead (s.queue fn q).sqTail ≤
        ringDist (2 ^ (s.queue fn q).sqLog2) (s.queue fn q).sqHead (tail.toNat % 65536) →
      es.length = ringDist (2 ^ (s.queue fn q).sqLog2) (s.queue fn q).sqTail (tail.toNat % 65536) →
      (∀ b ∈ es, b.length = 32) →
      ((s.queue fn q).fetched ≠ [] → Completes (.sqTailDoorbell fn q tail es) s (fun t =>
        t = { s with host := t.host, out := s.out ++ (s.queue fn q).ringReads fn (s.queue fn q).sqTail es.length } ∧
        t.queue fn q = { s.queue fn q with
          sqTail := tail.toNat % 65536
          fetched := (s.queue fn q).fetched ++ es.map parseSq })) ∧
      (∀ e l, (s.queue fn q).fetched = [] → es.map parseSq = e :: l → e.good = true →
        Completes (.sqTailDoorbell fn q tail es) s (fun t =>
          t = { s with host := t.host, out := s.out ++ (s.queue fn q).ringReads fn (s.queue fn q).sqTail es.length ++
            [.hostRead fn e.reqAddr e.readLen] } ∧
          t.queue fn q = { s.queue fn q with
            sqTail := tail.toNat % 65536
            fetched := e :: l })))) ∧
  (∀ (fn : Fin 17) (q : Fin 16) (data : Option (List Byte)) (e : SqEntry) (s : State),
    ((s.queue fn q).fetched = [] → Completes (.hostRequestFetch fn q data) s (fun t => t = s)) ∧
    ((s.queue fn q).fetched = [e] → Completes (.hostRequestFetch fn q data) s (fun t =>
      (t.queue fn q).sqHead = ((s.queue fn q).sqHead + 1) % 2 ^ (s.queue fn q).sqLog2 ∧ (t.queue fn q).fetched = []))) ∧
  (∀ (fn : Fin 17) (q : Fin 16) (head : U32) (s : State), s.fnUp fn = true → s.hasQueue fn q = true →
    ((s.queue fn q).cqEn = false → Completes (.cqHeadDoorbell fn q head) s (fun t => t = s)) ∧
    ((s.queue fn q).cqEn = true → head.toNat % 65536 < 2 ^ (s.queue fn q).cqLog2 → (s.queue fn q).owed = [] →
      ringDist (2 ^ (s.queue fn q).cqLog2) (s.queue fn q).cqHead (head.toNat % 65536) ≠ 0 →
      Completes (.cqHeadDoorbell fn q head) s (fun t => t = { s with host := t.host } ∧
        t.queue fn q = { s.queue fn q with
          cqHead := head.toNat % 65536
          cqCount := (s.queue fn q).cqCount -
            ringDist (2 ^ (s.queue fn q).cqLog2) (s.queue fn q).cqHead (head.toNat % 65536) }))) ∧
  (∀ (fn : Fin 17) (q : Fin 16) (m : Msix) (s : State), m = Store.get (fun _ => Msix.reset) (s.fn fn).msix (q.val + 1) →
    (((s.queue fn q).unannounced = 0 ∨ s.tick < (s.queue fn q).annFrom + 100 * (s.queue fn q).coalUs) →
      Completes (.msixCoalesceTimeout fn q) s (fun t => t = s)) ∧
    ((s.queue fn q).cqEn = true → (s.queue fn q).intEn = true → 0 < (s.queue fn q).unannounced →
      (s.queue fn q).annFrom + 100 * (s.queue fn q).coalUs ≤ s.tick →
      Completes (.msixCoalesceTimeout fn q) s (fun t => t = { s with host := t.host, out := t.out } ∧
        t.queue fn q = { s.queue fn q with unannounced := 0 } ∧
        (m.masked = false → (s.fn fn).cfg.sends = true → t.out = s.out ++ [.msix fn m.addr m.data]) ∧
        ((m.masked = true ∨ (s.fn fn).cfg.sends = false) → t.out = s.out ∧
          Store.get (fun _ => Msix.reset) (t.fn fn).msix (q.val + 1) = { m with pending := true })))) ∧
  (∀ (fn : Fin 17) (q : Fin 16) (val : U64) (s : State), s.rst.phase = 3 → s.fnUp fn = true → q.val < queueCount fn →
    (s.queue fn q).sqEn = false → bit val 0 = true → 4 ≤ field val 1 5 → field val 1 5 ≤ 16 →
    Completes (.queueConfigWrite fn 0x14 (0x1008 + 0x40 * q.val) val) s (fun t => t = { s with host := t.host } ∧
      t.queue fn q = { s.queue fn q with
        sqEn := true
        sqLog2 := field val 1 5
        sqHead := 0
        sqTail := 0
        err := false
        fetched := [] }))

/-- The Dipper: a write of DIP_CTRL or DIP_ADDR starts a fill with READY cleared, of a target that is open; a block of the memory
range that has no translation is an error. A fill ends with its bytes, those that the state holds and otherwise those that came, or
with the code that the operand gives, or late; a read answers bytes of the block, or 0 and is counted while READY is 0; a write to a
table is staged, and one while a commit runs is dropped. -/
def Obligations.DipperMoves : Prop :=
  (∀ (fn : Fin 17) (val : U64) (d e : Dipper) (a : Nat) (s : State), s.fnUp fn = true → s.pageUp 0x15 = true → d = (s.fn fn).dip →
    ((e = { d with target := field val 0 4, auto := bit val 4 } ∧ a = 0x100) ∨
      (e = { d with addr := setField val 0 3 0 } ∧ a = 0x108)) →
    Completes (.dipFillStart fn a val) s (fun t => t = { s with host := t.host, mem := t.mem, cist := t.cist, regs := t.regs } ∧
      ((e.target ≠ 0 ∨ s.dipOpen fn e.target (blockOf e.addr) false = false ∨
          (s.mem.demoted = [] ∧ regionFlash (addrRegion (blockOf e.addr).toNat) = false ∧
            (addrRegion (blockOf e.addr).toNat ≠ 0 ∨ 65536 ≤ addrOffset (blockOf e.addr).toNat))) →
        (t.fn fn).dip = { e with
          ready := false
          buffer := []
          filling := s.dipOpen fn e.target (blockOf e.addr) false
          since := s.tick } ∧
        t = { s with host := t.host, mem := { s.mem with reads := t.mem.reads } } ∧
        ∀ q ∈ t.mem.reads, Waiter.dip fn ∉ q.waiters) ∧
      (e.target = 0 → s.dipOpen fn 0 (blockOf e.addr) false = true → addrRegion (blockOf e.addr).toNat = 0 →
        addrOffset (blockOf e.addr).toNat < 65536 → (t.fn fn).dip.err = true ∧ (t.fn fn).dip.errCode = stBadDescriptor ∧
          (t.fn fn).dip.filling = false))) ∧
  (∀ (fn : Fin 17) (bs : List Byte) (code : Byte) (s : State), (s.fn fn).dip.filling = true →
    s.readsFor (.dip fn) = false →
    ((s.fn fn).dip.target = 0 → Completes (.dipFillDone fn (some bs) code) s (fun t => t = { s with host := t.host } ∧
      (t.fn fn).dip = { (s.fn fn).dip with
        filling := false
        ready := true
        buffer := s.rangeBlock (blockOf (s.fn fn).dip.addr).toNat bs })) ∧
    ((s.fn fn).dip.target = 0 → Completes (.dipFillDone fn none code) s (fun t => t = { s with host := t.host } ∧
      (t.fn fn).dip = { (s.fn fn).dip with
        filling := false
        err := true
        errCode := code.toNat })) ∧
    ((s.fn fn).dip.target ≠ 0 → (s.fn fn).dip.target ≠ 3 → Completes (.dipFillDone fn none code) s (fun t =>
      t = { s with host := t.host } ∧ (t.fn fn).dip = { (s.fn fn).dip with
        filling := false
        ready := true
        buffer := s.blockBytes (s.fn fn).dip.target (blockOf (s.fn fn).dip.addr).toNat }))) ∧
  (∀ (fn : Fin 17) (s : State), (s.fn fn).dip.filling = true → (s.fn fn).dip.target = 0 →
    (s.tick < (s.fn fn).dip.since + dipLate → Completes (.dipFillLate fn) s (fun t => t = s)) ∧
    ((s.fn fn).dip.since + dipLate ≤ s.tick → Completes (.dipFillLate fn) s (fun t => t = { s with host := t.host, mem := t.mem } ∧
      (t.fn fn).dip = { (s.fn fn).dip with
        filling := false
        err := true
        errCode := stTierLate } ∧ ∀ q ∈ t.mem.reads, Waiter.dip fn ∉ q.waiters))) ∧
  (∀ (fn : Fin 17) (s : State), s.fnUp fn = true → s.pageUp 0x15 = true →
    s.dipOpen fn (s.fn fn).dip.target (s.fn fn).dip.addr false = true →
    ((s.fn fn).dip.ready = true → (s.fn fn).dip.auto = false → Completes (.dipDataRead fn) s (fun t =>
      t = { s with out := s.out ++ [.dipData fn (padTo 0 8 ((s.fn fn).dip.buffer.drop ((s.fn fn).dip.addr.toNat % 8192)))] })) ∧
    ((s.fn fn).dip.ready = false → Completes (.dipDataRead fn) s (fun t => t = { s with host := t.host, out := t.out } ∧
      t.out = s.out ++ [.dipData fn (zeroBytes 8)] ∧
      (t.fn fn).dip = { (s.fn fn).dip with notReady := satAdd 32 (s.fn fn).dip.notReady 1 }))) ∧
  (∀ (fn : Fin 17) (off len : Nat) (s : State), s.fnUp fn = true → s.pageUp 0x15 = true → off + len ≤ 8192 → 0 < len →
    s.dipOpen fn (s.fn fn).dip.target (blockOf (s.fn fn).dip.addr + BitVec.ofNat 64 off) false = true →
    (s.fn fn).dip.ready = true → (s.fn fn).dip.auto = false → Completes (.dipBurstRead fn off len) s (fun t =>
      t = { s with out := s.out ++ [.dipData fn (padTo 0 len ((s.fn fn).dip.buffer.drop off))] })) ∧
  (∀ (fn : Fin 17) (val : U64) (k : Nat) (s : State), s.fnUp fn = true → s.pageUp 0x15 = true → s.rst.phase = 3 →
    s.dipOpen fn (s.fn fn).dip.target (s.fn fn).dip.addr true = true →
    k = tableKey (s.fn fn).dip.target (s.fn fn).dip.addr.toNat →
    (s.commit.busy = false → (s.fn fn).dip.auto = false → Completes (.dipDataWrite fn val) s (fun t =>
      t = { s with staged := t.staged } ∧ t.stagedReg k = merge (s.stagedReg k) (accMask k [.stg]) val ∧
      ∀ j, j ≠ k → t.stagedReg j = s.stagedReg j)) ∧
    (s.commit.busy = true → Completes (.dipDataWrite fn val) s (fun t => t.staged = s.staged ∧
      field (t.reg (dropKey fn 0x15)) 0 32 = satAdd 32 (field (s.reg (dropKey fn 0x15)) 0 32) 1 ∧
      field (t.reg (dropKey fn 0x15)) 32 14 = 0x118))) ∧
  (∀ (fn : Fin 17) (off k : Nat) (p : List Byte) (s : State), s.fnUp fn = true → s.pageUp 0x15 = true →
    sizeOk off p.length = true → off < 8192 → s.commit.busy = false →
    s.dipOpen fn (s.fn fn).dip.target (blockOf (s.fn fn).dip.addr + BitVec.ofNat 64 off) true = true →
    k = tableKey (s.fn fn).dip.target (blockOf (s.fn fn).dip.addr + BitVec.ofNat 64 off).toNat →
    Completes (.dipBurstWrite fn off p) s (fun t => t = { s with staged := t.staged } ∧
      t.stagedReg k = merge (s.stagedReg k) (writeMask off p.length &&& accMask k [.stg]) (writeWord off p) ∧
      ∀ j, j ≠ k → t.stagedReg j = s.stagedReg j)) ∧
  (∀ (fn : Fin 17) (off : Nat) (p : List Byte) (s : State), s.fnUp fn = true → s.rst.phase = 3 → s.pageUp 0x15 = true →
    (sizeOk off p.length = false ∨ 8192 ≤ off) →
    Completes (.dipBurstWrite fn off p) s (fun t => t.staged = s.staged ∧
      field (t.reg (dropKey fn 0x15)) 0 32 = satAdd 32 (field (s.reg (dropKey fn 0x15)) 0 32) 1 ∧
      field (t.reg (dropKey fn 0x15)) 32 14 = 0x2000 + off % 8192))

/-! ### Commits (R470 to R472) and the objects they make -/

/-- GO begins a commit or waits for the one in progress, and DISCARD takes the staged values back or waits. A commit that passes
takes its one action at the drop that HOST_COMMIT_TIME records; one that a page's own check refuses says which in
SLC_COMMIT_RESULT and keeps HOST_COMMIT_TIME and every index. A write of a staged field is staged, one of another size or on a page of
another function is dropped and counted, and one to BAR2 or configuration space goes to the MSI-X table or to its field (log 200). A
read of bytes 0 to 3 latches bytes 4 to 7 and a 64-bit read is live. Loads and removals end as their images and last requests say. -/
def Obligations.CommitsTakeEffect : Prop :=
  (∀ s : State, s.fnUp 0 = true → s.pageUp 0x02 = true →
    (s.commit.busy = false →
      Completes .hostCommitGo s (fun t => t = { s with commit := { s.commit with busy := true } }) ∧
      Completes .hostCommitDiscard s (fun t => t = { s with staged := [] }) ∧ Completes .commitDone s (fun t => t = s)) ∧
    (s.commit.busy = true →
      Completes .hostCommitGo s (fun t => t = { s with commit := { s.commit with goNext := true } }) ∧
      Completes .hostCommitDiscard s (fun t => t = { s with commit := { s.commit with discardNext := true } }))) ∧
  (∀ (s : State) (f : OwnFail), s.commit = ⟨true, false, false⟩ → s.ownFail s.adopted = some f →
    Completes .commitDone s (fun t => t.regF Reg.SLC_COMMIT_RESULT 0 8 = stConflict ∧
      t.regF Reg.SLC_COMMIT_RESULT 16 16 = f.page % 65536 ∧ t.reg Reg.HOST_COMMIT_TIME = s.reg Reg.HOST_COMMIT_TIME ∧
      Counted s t Reg.HOST_COMMIT_STATUS 16 16 1 ∧ t.commit.busy = false ∧ t.indexes = s.indexes ∧ t.slices = s.slices ∧
      t.reqs = s.reqs)) ∧
  (∀ s : State, s.commit = ⟨true, false, false⟩ → s.ownFail s.adopted = none → s.poolFails s.adopted = [] →
    Store.find? s.staged Reg.HOST_COMMIT_STATUS = none →
    Completes .commitDone s (CommitAccepted s)) ∧
  (∀ (i : Fin 32) (s : State), s.Committable (Reg.IDX_CFG + 0x40 * i.val) 1 id →
    Completes (.indexCreate i) s (fun t => CommitAccepted s t ∧ ∃ y, t.index? i = some y ∧ y.state = .loading)) ∧
  (∀ (i : Fin 32) (s : State) (x : Index), s.Committable (Reg.IDX_CFG + 0x40 * i.val) 2 id → s.index? i = some x →
    Completes (.indexDestroy i) s (fun t => CommitAccepted s t ∧
      ∃ y, t.index? i = some y ∧ y.state = .draining ∧ y.flip = none ∧ y.sealed = false)) ∧
  (∀ (n : Fin 8) (s : State), s.Committable (Reg.POUR_CFG + 0x40 * n.val) 1 id →
    Completes (.programLoad n) s (fun t => CommitAccepted s t ∧ (t.prog n).state = 1 ∧ (t.prog n).prog = none)) ∧
  (∀ (n : Fin 8) (s : State), s.Committable (Reg.POUR_CFG + 0x40 * n.val) 2 id →
    Completes (.programRemove n) s (fun t => CommitAccepted s t ∧ (t.prog n).state = 3 ∧ (t.prog n).prog = (s.prog n).prog)) ∧
  (∀ (pt : Fin 185) (s : State) (u : State), u = s.committing (instKey Reg.SLU_GATE_CTRL pt) 1 id →
    s.Committable (instKey Reg.SLU_GATE_CTRL pt) 1 id →
    Completes (.gateListInstall pt) s (fun t => CommitAccepted s t ∧
      (u.gateTime pt = 0 → (t.point pt).active = some (u.stagedList pt) ∧ (t.point pt).pending = none) ∧
      (u.gateTime pt ≠ 0 → ∃ g, (t.point pt).pending = some g ∧ g.list = u.stagedList pt ∧ g.time = u.gateTime pt))) ∧
  (∀ (pt : Fin 185) (s : State), s.Committable (instKey Reg.SLU_GATE_CTRL pt) 2 id →
    Completes (.gateListCancel pt) s (fun t => CommitAccepted s t ∧ (t.point pt).pending = none ∧
      (t.point pt).active = (s.point pt).active)) ∧
  (∀ (s : State) (u : State), u = s.committing Reg.SLC_CTRL 1 id → s.Committable Reg.SLC_CTRL 1 id →
    Completes .sliceMapInstall s (fun t => CommitAccepted s t ∧
      (u.switchTime = 0 → t.slices.gen = s.slices.gen + 1 ∧ t.slices.map = fullMap u.stagedMap ∧ t.slices.pending = none) ∧
      (u.switchTime ≠ 0 → t.slices.gen = s.slices.gen ∧ t.slices.map = s.slices.map ∧
        ∃ p, t.slices.pending = some p ∧ p.map = u.stagedMap ∧ p.time = u.switchTime))) ∧
  (∀ s : State, s.Committable Reg.SLC_CTRL 2 id → Completes .sliceMapCancel s (fun t => CommitAccepted s t ∧
      t.slices.pending = none ∧ t.slices.gen = s.slices.gen ∧ t.slices.map = s.slices.map)) ∧
  (∀ s : State, s.Committable Reg.CIST_FMT 1 (fun v => setField v 16 16 0xC157) →
    Completes .cisternFormat s (fun t => CommitAccepted s t ∧ t.cist.state = 1)) ∧
  (∀ s : State, s.Committable Reg.KPR_FW_CFG 1 id → Completes .fwStage s (fun t => CommitAccepted s t ∧ t.keeper.fwState = 1)) ∧
  (∀ s : State, s.Committable Reg.KPR_FW_CFG 2 id → Completes .fwCancel s (fun t => CommitAccepted s t ∧ t.keeper.fwState = 0 ∧
      t.keeper.staged = none)) ∧
  (∀ s : State, s.Committable Reg.KPR_FW_CFG 3 id → s.rst.phase = 3 → s.basinUp 0 = true → s.basinUp 1 = true →
    Completes .fwRaiseSvn s (fun t => CommitAccepted s t ∧ t.keeper.svnFused = max s.keeper.svnFused (min 64 s.activeSvn))) ∧
  (∀ (fn : Fin 17) (page : Fin 64) (off k : Nat) (bytes : List Byte) (d : RegDef) (stg : U64) (s : State), s.fnUp fn = true →
    s.pageUp page = true → s.commit.busy = false → pageKind fn page = 1 → 0x100 ≤ off → off < 16384 →
    sizeOk off bytes.length = true → page.val ≠ 0x14 → page.val ≠ 0x15 →
    regDef? page (off - off % 8) = some d → s.copyOf fn page (off - off % 8) = some k →
    stg = fieldsMask d.fields (fun f => f.acc == .stg) &&& writeMask off bytes.length → stg ≠ 0 →
    Completes (.registerWrite fn .bar0 page off bytes) s (fun t => t = { s with staged := t.staged } ∧
      (∀ key ∈ s.stgKeys page (off - off % 8) k, t.stagedReg key = merge (s.stagedReg key) stg (writeWord off bytes)) ∧
      ∀ key, key ∉ s.stgKeys page (off - off % 8) k → t.stagedReg key = s.stagedReg key)) ∧
  (∀ (fn : Fin 17) (page : Fin 64) (off : Nat) (bytes : List Byte) (s : State), s.fnUp fn = true → s.rst.phase = 3 →
    s.pageUp page = true → (pageKind fn page ≠ 1 ∨ sizeOk (off % 16384) bytes.length = false) →
    Completes (.registerWrite fn .bar0 page off bytes) s (fun t => t = { s with regs := t.regs, host := t.host, out := t.out } ∧
      t.regF (dropKey fn page) 0 32 = min 4294967295 (s.regF (dropKey fn page) 0 32 + 1) ∧
      t.regF (dropKey fn page) 32 14 = off % 16384 ∧ bit (t.reg (instKey Reg.HQ_EVENT fn)) 3 = true ∧
      OnlyRegs s t [dropKey fn page, instKey Reg.HQ_EVENT fn])) ∧
  (∀ (fn : Fin 17) (page : Fin 64) (off v : Nat) (data : U32) (s : State), s.fnUp fn = true → v < vectorCount fn →
    off = 16 * v + 8 →
    Completes (.registerWrite fn .bar2 page off (leBytes 4 data.toNat)) s (fun t => t = { s with host := t.host, out := t.out } ∧
      ((s.bar2 fn).drop (16 * v + 12)).take 4 = ((t.bar2 fn).drop (16 * v + 12)).take 4 ∧
      ((t.bar2 fn).drop off).take 4 = leBytes 4 data.toNat)) ∧
  (∀ (fn : Fin 17) (page : Fin 64) (off : Nat) (bytes : List Byte) (s : State), s.cfgUp fn = true →
    leNat bytes = 3 →
    Completes (.registerWrite fn (.config .power) page off bytes) s (fun t => t = { s with host := t.host } ∧
      t.fn fn = { s.fn fn with cfg := { (s.fn fn).cfg with d3 := true } } ∧ (∀ g, g ≠ fn.val → t.fn g = s.fn g) ∧
      t.fnUp fn = false)) ∧
  (∀ (fn : Fin 17) (page : Fin 64) (off n : Nat) (s : State), s.fnUp fn = true →
    Completes (.regReadLatch fn ⟨.bar2, page⟩ ⟨off, n⟩) s (fun t =>
      t = { s with out := s.out ++ [.readData fn (((s.bar2 fn).drop (off % 16384)).take n)] })) ∧
  (∀ (fn : Fin 17) (page : Fin 64) (off n : Nat) (f : CfgField) (s : State), s.cfgUp fn = true →
    Completes (.regReadLatch fn ⟨.config f, page⟩ ⟨off, n⟩) s (fun t =>
      t = { s with out := s.out ++ [.readData fn (leBytes 4 (s.readCfg fn f))] })) ∧
  (∀ (fn : Fin 17) (page : Fin 64) (off : Nat) (v : U64) (s : State), s.fnUp fn = true → off % 16384 % 8 = 0 →
    (page.val = 0x15 → off % 16384 ≠ 0x118 ∧ off % 16384 < 0x2000) → v = s.hostReg fn page (off % 16384) →
    Completes (.regReadLatch fn ⟨.bar0, page⟩ ⟨off, 4⟩) s (fun t => t = { s with host := t.host, out := t.out } ∧
      t.out = s.out ++ [.regData fn (BitVec.ofNat 64 (field v 0 32))] ∧
      (t.fn fn).latch = some (regKey page (off % 16384), BitVec.ofNat 32 (field v 32 32))) ∧
    Completes (.regReadLatch fn ⟨.bar0, page⟩ ⟨off, 8⟩) s (fun t => t = { s with out := s.out ++ [.regData fn v] })) ∧
  (∀ (fn : Fin 17) (page : Fin 64) (off : Nat) (w : U32) (s : State), s.fnUp fn = true → off % 16384 % 8 = 4 →
    (s.fn fn).latch = some (regKey page (off % 16384 - 4), w) →
    Completes (.regReadLatch fn ⟨.bar0, page⟩ ⟨off, 4⟩) s (fun t =>
      t = { s with out := s.out ++ [.regData fn (BitVec.ofNat 64 w.toNat)] })) ∧
  (∀ (i : Fin 32) (x : Index) (s : State), s.index? i = some x → x.state = .loading → s.cist.state ≠ 1 →
    Completes (.indexLoadDone i none) s (fun t => t.index? i = none ∧ t.regF (Reg.IDX_STATUS + 0x40 * i.val) 8 8 = 0x10) ∧
    ∀ b, b.length = s.regF (Reg.IDX_IMAGE_LEN + 0x40 * i.val) 0 40 → Completes (.indexLoadDone i (some b)) s (fun t =>
      (imageReason x.desc b = 0 → t = { s with indexes := t.indexes } ∧ ∃ y, t.index? i = some y ∧ y.state = .ready ∧
        y.live = 1 ∧ y.desc = x.desc ∧ y.cur = BitVec.ofNat 32 (leAt b 24 4) ∧ y.lastFlip = s.now) ∧
      (imageReason x.desc b ≠ 0 → t.index? i = none ∧
        t.regF (Reg.IDX_STATUS + 0x40 * i.val) 8 8 = imageReason x.desc b % 256))) ∧
  (∀ (i : Fin 32) (x : Index) (s : State), s.index? i = some x → x.state = .draining →
    (s.indexUnused i = false → Completes (.indexDestroyDone i) s (fun t => t = s)) ∧
    (s.indexUnused i = true → Completes (.indexDestroyDone i) s (fun t => t.index? i = none ∧
      ∀ j, j ≠ i.val → t.index? j = s.index? j))) ∧
  (∀ (n : Fin 8) (img : List Byte) (s : State), (s.prog n).state = 1 →
    img.length = s.regF (Reg.POUR_IMAGE_LEN + 0x40 * n.val) 0 40 →
    Completes (.programLoadDone n none) s (fun t => t = { s with progs := t.progs } ∧ (t.prog n).state = 0 ∧
      (t.prog n).lastErr = 0x10 ∧ (t.prog n).prog = none) ∧
    Completes (.programLoadDone n (some img)) s (fun t => t = { s with progs := t.progs } ∧ match loadImage img with
      | .ok p => (s.progFits n p.2 = true → (t.prog n).state = 2 ∧ (t.prog n).prog = some p.1) ∧
        (s.progFits n p.2 = false → (t.prog n).state = 0 ∧ (t.prog n).lastErr = 5 ∧ (t.prog n).prog = none)
      | .error e => (t.prog n).state = 0 ∧ (t.prog n).lastErr = e ∧ (t.prog n).prog = none)) ∧
  (∀ (n : Fin 8) (s : State), (s.prog n).state = 3 →
    ((∀ p ∈ s.reqs, p.2.op = opPour → p.2.hdr.prog = n.val → p.2.ran = false) →
      Completes (.programRemoveDone n) s (fun t => t = { s with progs := t.progs, slices := t.slices } ∧ (t.prog n).state = 0 ∧
        (t.prog n).prog = none ∧ (t.prog n).samples = 0 ∧ (t.prog n).lastErr = (s.prog n).lastErr ∧
        t.slices = { s.slices with lacks := t.slices.lacks } ∧
        ∀ l, l ∈ t.slices.lacks ↔ l ∈ s.slices.lacks ∧ l.2 ≠ 64 + n.val)) ∧
    (∀ p ∈ s.reqs, p.2.op = opPour → p.2.hdr.prog = n.val → p.2.ran = true →
      Completes (.programRemoveDone n) s (fun t => t = s)))

/-! ### Resets, bring-up and restarts (R486 to R511) -/

/-- A reset clears every request and the host port, keeps the retirement record, the fused and the flashed state and the count,
and keeps indexes only at level KEEP; it ends, or lasts while RESET_N is low or its hold has not passed. A function's reset clears
that function alone, and a hot reset every function and the staged values. -/
def Obligations.ResetsClear : Prop :=
  (∀ (rails : List RailRead) (s : State), s.rst.pwrok = false → Store.Sorted s.progs → ∀ lvl, lvl = (if s.rst.pwrokLevel = .full ∨
      (s.rst.resetN = false ∧ s.rst.resetnLevel = .full) ∨ s.rst.fellKeep = false ∨ s.rst.fellMemValid = false ∨
      s.keeper.railsOk = false ∨ rails.any stackSupplyOut = true then Level.full else .keep) →
    Completes (.pwrokRise rails) s (fun t => t.rst.pwrok = true ∧ t.rst.level = lvl ∧ t.rst.lastSource = 0 ∧ t.rst.phase = 0 ∧
      (s.rst.resetN = true → t.rst.inReset = false ∧ t.rst.step = 1) ∧ (s.rst.resetN = false → t.rst.inReset = true) ∧
      t.reqs = [] ∧ t.host = [] ∧ t.record = s.record ∧ t.clep.count = s.clep.count ∧ t.keeper.svnFused = s.keeper.svnFused ∧
      t.keeper.slotA = s.keeper.slotA ∧ t.keeper.slotB = s.keeper.slotB ∧
      (lvl = .keep → t.indexes = s.indexes ∧ ∀ n, t.prog n = { s.prog n with samples := 0 }) ∧
      (lvl = .full → t.indexes = [] ∧ t.progs = [] ∧ ∀ k, keyPage k ≠ 0x12 → k ≠ Reg.RST_STATUS → t.reg k = resetReg k))) ∧
  (∀ s : State, s.rst.pwrok = true → Completes .pwrokFall s (fun t => t.rst.pwrok = false ∧ t.rst.inReset = true ∧
      t.rst.phase = 0 ∧ t.rst.step = 0 ∧ t.rst.fellMemValid = s.rst.memValid ∧ t.keeper.railsOk = s.keeper.running ∧ t.reqs = [] ∧
      t.indexes = s.indexes ∧ t.record = s.record ∧ t.nandHeld = true)) ∧
  (∀ s : State, s.rst.resetN = true → Completes (.resetNFall false) s (fun t => t = s) ∧
    (s.rst.pwrok = true → Completes (.resetNFall true) s (fun t => t.rst.resetN = false ∧ t.rst.inReset = true ∧
      t.rst.holdDone = false ∧ t.rst.lastSource = 1 ∧ t.rst.phase = 0 ∧ t.rst.step = 0 ∧ t.reqs = [] ∧ t.record = s.record ∧
      t.rst.level = (if s.rst.resetnLevel = .keep ∧ s.rst.memValid = true then Level.keep else .full)))) ∧
  (∀ s : State, s.rst.resetN = false → s.rst.pwrok = true → s.rst.inReset = true →
    (s.rst.holdDone = true → Completes .resetNRise s (fun t => t.rst.resetN = true ∧ t.rst.inReset = false ∧ t.rst.step = 1)) ∧
    (s.rst.holdDone = false → s.rst.lastSource = 1 → Completes .resetNRise s (fun t => t.rst.resetN = true ∧
      t.rst.inReset = true ∧ bit (t.reg Reg.RST_STATUS) 22 = true ∧ OnlyRegs s t [Reg.RST_STATUS]))) ∧
  (∀ s : State, s.rst.pwrok = true → s.rst.inReset = true → s.rst.holdDone = false →
    (s.rst.resetN = true → Completes .resetHoldEnd s (fun t => t.rst.inReset = false ∧ t.rst.step = 1 ∧ t.rst.holdDone = true)) ∧
    (s.rst.resetN = false → Completes .resetHoldEnd s (fun t => t = { s with rst := { s.rst with holdDone := true } }))) ∧
  (∀ s : State, s.regF Reg.RST_CTRL 0 2 = 0 → Completes .standbyPowerUp s (fun t => t.clep.count = 0 ∧ t.clep.countValid = false ∧
      t.keeper.svnFused = s.keeper.svnFused ∧ t.keeper.revoked = s.keeper.revoked ∧ t.keeper.slotA = s.keeper.slotA ∧
      t.keeper.slotB = s.keeper.slotB ∧ t.keeper.log = s.keeper.log ∧ t.keeper.buffered = [] ∧ t.keeper.nextSeq = s.keeper.nextSeq ∧
      t.record = s.record ∧
      ∀ k, t.reg k = if keyPage k = 0x12 then resetReg k else s.reg k)) ∧
  (∀ s : State, Completes .standbyPowerLoss s (fun t => t = { s with keeper := t.keeper } ∧ t.keeper.running = false ∧
      t.keeper.buffered = [] ∧ t.keeper.log = s.keeper.log ∧ t.keeper.svnFused = s.keeper.svnFused ∧
      t.keeper.staged = s.keeper.staged ∧ t.keeper.nextSeq = s.keeper.nextSeq)) ∧
  (∀ (fn : Fin 17) (s : State), fn.val ≠ 0 → (∀ q ∈ (s.fn fn).queues, q.2.owed = []) →
    Completes (.functionLevelReset fn) s (fun t =>
      t = { s with host := t.host, regs := t.regs, reqs := t.reqs, mem := { s.mem with reads := t.mem.reads } } ∧
      t.fn fn = HostFn.reset ∧
      (∀ g, g ≠ fn.val → t.fn g = s.fn g) ∧
      (∀ k, t.reg k = if (keyPage k = 0x14 ∨ keyPage k = 0x15) ∧ 0x100 ≤ keyOff k ∧ keyInst k = fn.val then resetReg k
        else s.reg k) ∧
      (∀ rid r, s.req? rid = some r → ∃ q, t.req? rid = some q ∧ q = { r with orphan := q.orphan } ∧
        ((∃ n tag a l, r.src = .host fn n tag a l) → q.orphan = true)))) ∧
  (∀ s : State, ∀ i ∈ [Instr.hotReset, Instr.functionLevelReset 0], Completes i s (fun t =>
      (∀ g, g < 17 → t.fn g = HostFn.reset) ∧ t.indexes = s.indexes ∧ t.slices = s.slices ∧
      (s.commit.busy = false → t.staged = []) ∧
      (s.commit.busy = true → t.commit = ⟨true, false, true⟩ ∧ t.staged = s.staged)))

/-- A step of bring-up is repeated: only the attempt is noted, but in step 3 the staged image that verifies activates and the boot ROM
boots again, and in step 8 the ports that may train do so again. -/
def StepRepeated (s t : State) : Prop :=
  t.rst.tries = 1 ∧ t.rst.step = s.rst.step ∧ t.rst.phase = s.rst.phase ∧
  (s.regF Reg.RST_CTRL 0 2 = 0 → t.reqs = s.reqs ∧ t.indexes = s.indexes) ∧
  (s.rst.step ≠ 3 → s.rst.step ≠ 8 → t = { s with rst := { s.rst with tries := 1 } }) ∧
  (s.rst.step = 3 → s.slotOk s.keeper.staged = true → t.keeper.slotA = s.keeper.staged ∧ t.keeper.staged = none ∧
    (s.rst.strap % 4 = 0 → t.keeper.booted = s.keeper.staged)) ∧
  (s.rst.step = 8 → t = { s with rst := { s.rst with tries := 1 }, urdun := t.urdun } ∧
    ∀ p, p < 8 → s.mayTrain p = true → 2 ≤ (s.proposeMap p []).length → (t.port p).state = .training)

/-- A step of bring-up that ends is followed by the next, with PHASE 1, 2 and 3 from steps 4, 7 and 10; one that fails, or passes
its limit, is repeated once and then bring-up has failed with PHASE 4; in a step of a Basin, that Basin is held out, and bring-up
has failed when both are. A domain restart goes through its six steps and starts again on a fault; RST_CTRL starts one in every case,
once Keeper runs; a write of RST_CTRL or RST_INJECT while its page does not answer is dropped and counted. -/
def Obligations.BringUpAndRestartsStep : Prop :=
  (∀ (b : Option (Fin 2)) (ohms : Nat) (media : Option Media) (s : State), s.bringing = true → perBasin s.rst.step = false →
    (s.rst.step = 3 → s.keeper.booted ≠ none) → (s.rst.step = 9 → s.flipWaits = false) →
    Completes (.bringupStepDone b ohms media .ok) s (fun t => t.rst.step = s.rst.step + 1 ∧ t.rst.phase =
      (if s.rst.step = 3 then 1 else if s.rst.step = 6 then 2 else if s.rst.step = 9 then 3 else s.rst.phase))) ∧
  (∀ (b : Fin 2) (ohms : Nat) (media : Option Media) (s : State), s.bringing = true → perBasin s.rst.step = true →
    s.stepLeft b = true →
    Completes (.bringupStepDone (some b) ohms media .ok) s (fun t =>
      (s.stepLeft (1 - b.val) = true → t.rst.step = s.rst.step ∧ t.stepLeft b = false) ∧
      (s.stepLeft (1 - b.val) = false → t.rst.step = s.rst.step + 1) ∧ t.rst.phase = s.rst.phase ∧
      (s.rst.step = 7 → (t.basin b).state = 0))) ∧
  (∀ (b : Option (Fin 2)) (ohms code : Nat) (media : Option Media) (s : State), s.bringing = true →
    perBasin s.rst.step = false →
    (s.rst.tries = 0 → Completes (.bringupStepDone b ohms media (.failed code)) s (StepRepeated s)) ∧
    (s.rst.tries ≠ 0 → Completes (.bringupStepDone b ohms media (.failed code)) s (fun t => t.rst.phase = 4 ∧
      t.rst.failStep = s.rst.step ∧ t.rst.failCode = code ∧ t.rst.step = s.rst.step))) ∧
  (∀ (b : Option (Fin 2)) (s : State), s.bringing = true → perBasin s.rst.step = false →
    (s.rst.step = 3 → s.keeper.waitSmbus = false) →
    (s.rst.tries = 0 → Completes (.bringupStepLimit b) s (StepRepeated s)) ∧
    (s.rst.tries ≠ 0 → Completes (.bringupStepLimit b) s (fun t => t.rst.phase = 4 ∧ t.rst.failStep = s.rst.step ∧
      t.rst.failCode = 1))) ∧
  (∀ (b : Fin 2) (ohms code : Nat) (media : Option Media) (s : State), s.bringing = true → perBasin s.rst.step = true →
    s.stepLeft b = true →
    ∀ i ∈ [Instr.bringupStepDone (some b) ohms media (.failed code), Instr.bringupStepLimit (some b)],
    ((s.basin b).tries = 0 → Completes i s (fun t => t = { s with basins := t.basins } ∧
      t.basin b = { s.basin b with tries := 1 } ∧ t.basin (1 - b.val) = s.basin (1 - b.val))) ∧
    ((s.basin b).tries ≠ 0 → Completes i s (fun t => (t.basin b).state = 2 ∧ CountedSat s t Reg.RST_CNT_RESTARTS 48 16 1 ∧
      (s.stepLeft (1 - b.val) = true → t.rst = s.rst ∧ t.basin (1 - b.val) = s.basin (1 - b.val)) ∧
      ((s.basin (1 - b.val)).state = 2 → t.rst.phase = 4 ∧ t.rst.failStep = s.rst.step ∧ t.rst.failCode = 5)))) ∧
  (∀ (b : Fin 2) (s : State), (s.basin b).state = 1 → 1 ≤ (s.basin b).step → (s.basin b).step < 6 →
    Completes (.restartStepDone b .ok) s (fun t => (t.basin b).state = 1 ∧ (t.basin b).step = (s.basin b).step + 1 ∧
      (t.basin b).cause = (s.basin b).cause ∧ t.basin (1 - b.val) = s.basin (1 - b.val) ∧ t.record = s.record ∧
      t.indexes = s.indexes)) ∧
  (∀ (b : Fin 2) (s : State), (s.basin b).state = 1 → s.keeper.running = true →
    (s.recentStarts b).length + 1 ≤ s.regF Reg.RST_CFG 4 4 →
    (s.tick.toNat < (s.basin b).lastStart.toNat + s.regF Reg.RST_CFG 16 16 * 100000 →
      Completes (.restartLimit b) s (fun t => t = s)) ∧
    ((s.basin b).lastStart.toNat + s.regF Reg.RST_CFG 16 16 * 100000 ≤ s.tick.toNat →
      Completes (.restartLimit b) s (fun t => (t.basin b).state = 1 ∧ (t.basin b).step = 1 ∧
        (t.basin b).attempts = min 255 ((s.basin b).attempts + 1) ∧ (t.basin b).cause = (s.basin b).cause ∧
        CountedSat s t Reg.RST_CNT_RESTARTS 32 16 1))) ∧
  (∀ (b : Fin 2) (s : State), s.pageUp 0x13 = true → s.keeper.running = true → (s.basin b).state ≠ 3 →
    Completes (.restartBasin b) s (fun t => (t.basin b).state = 1 ∧ (t.basin b).step = 1 ∧ (t.basin b).cause = .control ∧
      (t.basin b).starts = [] ∧ t.rst.lastBasin = b.val)) ∧
  (∀ (b : Fin 2) (s : State), s.pageUp 0x13 = true → s.keeper.running = false →
    Completes (.restartBasin b) s (fun t => t = { s with regs := t.regs } ∧ OnlyRegs s t [Reg.RST_CTRL] ∧
      bit (t.reg Reg.RST_CTRL) b = true)) ∧
  (∀ (b : Fin 2) (s : State), s.pageUp 0x13 = false → ∀ i ∈ [Instr.restartBasin b, Instr.injectHang b],
    Completes i s (fun t => t = { s with regs := t.regs } ∧ OnlyRegs s t [Reg.NS_DROPS] ∧
      CountedSat s t Reg.NS_DROPS 0 32 1)) ∧
  (∀ (b : Fin 2) (s : State), s.pageUp 0x13 = true → Completes (.injectHang b) s (fun t =>
      t = { s with basins := t.basins, regs := t.regs } ∧ t.basin b = { s.basin b with hang := true } ∧
      bit (t.reg Reg.RST_INJECT) b = true ∧ OnlyRegs s t [Reg.RST_INJECT])) ∧
  (∀ (b : Fin 2) (s : State), (s.pumpRuns b = false → Completes (.pumphouseRestartRequest b) s (fun t => t = s)) ∧
    ((s.basin b).state = 0 → s.keeper.running = true → (s.recentStarts b).length + 1 ≤ s.regF Reg.RST_CFG 4 4 →
      Completes (.pumphouseRestartRequest b) s (fun t => (t.basin b).state = 1 ∧ (t.basin b).step = 1 ∧
        (t.basin b).cause = .pumphouse)))

/-! ### Keeper (R512 to R540) -/

/-- A sample updates its sensor, the averages and the peak, and a Terrace sensor at 105 °C trips its Terrace. A control interval
moves every operating point by at most one. A throttle, a hold, an advisory, a log flush and the SMBus reads do as their rules
say. -/
def Obligations.KeeperControls : Prop :=
  (∀ (r : Reading) (l : RailRead) (w : Nat) (s : State), s.keeper.running = true → s.keeper.sensors = [] → s.keeper.samples = [] →
    (∀ t, (s.region t).tripped = 0) → r.cls.val = 0 → r.idx.val < 120 → r.value < 1050 →
    w = railPower l.volts l.amps → w ≤ 11500 → vppOutside l = false →
    Completes (.sensorSample [r] [l]) s (fun t => t = { s with keeper := t.keeper, regs := t.regs } ∧
      OnlyRegs s t [Reg.KPR_POWER, Reg.KPR_CNT] ∧ t.regF Reg.KPR_POWER 0 16 = min 65535 (nearest w 10) ∧
      t.regF Reg.KPR_POWER 16 16 = max (s.regF Reg.KPR_POWER 16 16) (min (nearest w 10) 65535) ∧
      (∃ x, Store.find? t.keeper.sensors (sensorKey r.cls r.idx) = some x ∧ x.value = r.value) ∧
      t.keeper.overSince = (if 10 * s.pl1 < w then s.keeper.overSince + 1 else 0) ∧
      (10 * s.pl1 < w → 799 ≤ s.keeper.overSince → t.keeper.pcap = 0 ∧
        CountedSat s t Reg.KPR_CNT 16 16 (if 0 < s.keeper.pcap then 1 else 0)) ∧
      t.keeper.fast = s.keeper.fast ∧ (∀ u, (t.region u).point = (s.region u).point))) ∧
  (∀ (r : Reading) (tr j : Nat) (s : State), s.keeper.running = true → s.keeper.sensors = [] →
    (∀ t, (s.region t).tripped = 0) → tr < 16 → j < 5 → r.cls.val = 0 → r.idx.val = 5 * tr + j → 1050 ≤ r.value →
    s.terraceRids tr = [] →
    Completes (.sensorSample [r] []) s (fun t => (t.region tr).stopped = true ∧ (t.region tr).point = 0 ∧
      (t.region tr).tripped = 1 ∧ CountedSat s t Reg.KPR_CNT 48 16 1 ∧ bit (t.reg Reg.KPR_LOG) 32 = true ∧
      (∀ u, u ≠ tr → (t.region u).tripped = 0 ∧ (t.region u).point = (s.region u).point ∧
        (t.region u).stopped = (s.region u).stopped))) ∧
  (∀ s : State, s.keeper.running = true → Completes .controlInterval s (fun t =>
      t = { s with keeper := t.keeper, regs := t.regs, out := t.out } ∧ OnlyRegs s t [Reg.KPR_CNT, Reg.KPR_INJECT] ∧
      bit (t.reg Reg.KPR_INJECT) 0 = false ∧ (∃ more, t.out = s.out ++ more) ∧ (∀ tr, (t.region tr).point ≤ (s.region tr).point + 1 ∧
        (s.region tr).point ≤ (t.region tr).point + 1))) ∧
  (∀ (tr : Fin 16) (since : Time) (rids : List Nat) (s : State), (s.region tr).held = some since →
    (s.region tr).stopped = false →
    (s.terraceRids tr = [] → rids = [] → Completes (.holdClockStop tr rids) s (fun t =>
      t = { s with keeper := t.keeper, fabric := t.fabric } ∧
      t.region tr = { s.region tr with stopped := true } ∧ (∀ u, u ≠ tr.val → t.region u = s.region u) ∧
      (∀ p ∈ t.fabric.rills, p.1 % 2 = tr.val / 8 → p.1 / 2 % 8 = tr.val % 8 → p.2.rid = none))) ∧
    ((s.terraceRids tr ≠ [] ∨ rids ≠ []) → s.tick.toNat < since.toNat + 10000 →
      Completes (.holdClockStop tr rids) s (fun t => t = s)) ∧
    (since.toNat + 10000 ≤ s.tick.toNat → Completes (.holdClockStop tr rids) s (fun t => (t.region tr).stopped = true ∧
      ∀ u, u ≠ tr.val → t.region u = s.region u))) ∧
  (∀ s : State, Completes (.throttleNFall false) s (fun t => t = s) ∧
    Completes (.throttleNFall true) s (fun t => t.keeper.fast = true ∧ t.keeper.fastBelow = 0 ∧ t.rst.throttleN = false ∧
      CountedSat s t Reg.KPR_CNT 32 16 (if s.keeper.fast then 0 else 1)) ∧
    Completes .fastThrottleEnd s (fun t => t = { s with keeper := t.keeper, rst := { s.rst with throttleN := true } } ∧
      t.keeper = { s.keeper with fast := s.keeper.fast && decide (s.keeper.fastBelow < 10) })) ∧
  (∀ (last : List Reading) (s w : State), s.keeper.running = true →
    w = s.withKeeper { s.keeper with worst := s.noteWorst last } →
    Completes (.advisoryHour last) s (fun t => t = { s with keeper := t.keeper, regs := t.regs } ∧
      OnlyRegs s t [Reg.KPR_ADVISORY] ∧ t.keeper.intervals = 0 ∧ t.keeper.limited = 0 ∧ t.keeper.worst = [] ∧
      (∀ v ∈ w.hourValues, ∃ vs u, u ∈ w.hourValues ∧ advKey u.adv u.item = advKey v.adv v.item ∧
        Store.find? t.keeper.hourly (advKey v.adv v.item) = some vs ∧ vs.getLast? = some u.value ∧ vs.length ≤ 168) ∧
      (∀ v ∈ w.hourValues, Store.find? s.keeper.lastRaised (advKey v.adv v.item) = none →
        ((v.adv = 5 ∧ v.value ≤ 0) ∨ (v.adv = 7 ∧ 1000 ≤ v.value)) →
        bit (t.reg Reg.KPR_ADVISORY) v.adv = true ∧
        Store.find? t.keeper.lastRaised (advKey v.adv v.item) = some s.tick))) ∧
  (∀ s : State, Completes .logFlush s (fun t => t = { s with keeper := t.keeper } ∧ t.keeper.buffered = [] ∧
      (∀ e ∈ t.keeper.log, e ∈ s.keeper.log ++ s.keeper.buffered) ∧
      (∀ l, (s.keeper.log ++ s.keeper.buffered).getLast? = some l → ∀ e ∈ s.keeper.log ++ s.keeper.buffered,
        e ∈ t.keeper.log ↔ (l.seq.toNat / 128 + 1) * 128 ≤ e.seq.toNat + 131072))) ∧
  (∀ (seq : U32) (s : State), s.smbusUp = true → Completes (.logRead seq) s (fun t => t = { s with out := t.out } ∧
      (∀ e, (s.keeper.log ++ s.keeper.buffered).find? (fun e => e.seq == seq) = some e →
        t.out = s.out ++ [.smbus e.bytes]) ∧
      ((∀ e ∈ s.keeper.log ++ s.keeper.buffered, e.seq ≠ seq) → t.out = s.out ++ [.smbus (zeroBytes 32)]))) ∧
  (∀ (page : Byte) (off : U16) (s : State), s.smbusUp = true → Completes (.regRead page off) s (fun t =>
      t = { s with out := t.out } ∧
      (page.toNat ∈ [0, 1, 0x12, 0x13] →
        t.out = s.out ++ [.smbus (leBytes 8 (s.pageRead 0 page.toNat off.toNat).toNat)]) ∧
      (page.toNat ∉ [0, 1, 0x12, 0x13] → t.out = s.out ++ [.smbus (zeroBytes 8)]))) ∧
  (∀ (tr : Fin 16) (s : State), s.pageUp 0x12 = true → Completes (.injectHot tr) s (fun t => t = { s with regs := t.regs } ∧
      OnlyRegs s t [Reg.KPR_INJECT] ∧ bit (t.reg Reg.KPR_INJECT) 0 = true ∧ t.regF Reg.KPR_INJECT 1 4 = tr.val)) ∧
  (∀ (col : Fin 64) (k : Nat) (s : State), s.pageUp 0x0B = true →
    k = instKey Reg.CASC_INJECT (nodeTerrace (s.regF Reg.CASC_SEL 0 4 % 2) (s.regF Reg.CASC_SEL 0 4 / 2)) →
    Completes (.injectCascResidue col) s (fun t => t = { s with regs := t.regs } ∧ OnlyRegs s t [k] ∧
      bit (t.reg k) 0 = true ∧ t.regF k 1 6 = col.val)) ∧
  (∀ (tr : Fin 16) (col : Fin 64) (lane : Fin 16) (s : State), s.rst.phase ≠ 3 →
    ∀ i ∈ [Instr.injectHot tr, Instr.injectCascResidue col, Instr.injectWeirParity lane],
    Completes i s (fun t => t = { s with regs := t.regs } ∧ OnlyRegs s t [Reg.NS_DROPS] ∧
      CountedSat s t Reg.NS_DROPS 0 32 1))

/-- A bundle arrives in chunks of 1 to 240 bytes and is booted while the boot ROM waits for one and staged otherwise, where it
verifies. A nonce serves one authenticated command, which does its action once where its signature is valid; without a nonce every
command is refused, and a signature of another length than 96 bytes is not acknowledged. -/
def Obligations.FirmwareAuthorised : Prop :=
  (∀ (off : U32) (bs : List Byte) (s : State), s.smbusUp = true →
    (bs.length = 0 ∨ 240 < bs.length → Completes (.bundleChunk off bs) s (fun t => t = { s with out := s.out ++ [.nack] })) ∧
    (1 ≤ bs.length → bs.length ≤ 240 → Completes (.bundleChunk off bs) s (fun t => t = { s with keeper := t.keeper } ∧
      t.keeper = { s.keeper with chunks := t.keeper.chunks } ∧
      (∀ i, i < bs.length → Store.find? t.keeper.chunks (off.toNat + i) = bs[i]?) ∧
      (∀ a, (a < off.toNat ∨ off.toNat + bs.length ≤ a) →
        Store.find? t.keeper.chunks a = Store.find? s.keeper.chunks a)))) ∧
  (∀ (len : U32) (b : Bundle) (s : State), chunkBytes s.keeper.chunks len.toNat = some b → len.toNat ≤ 33550336 →
    (s.keeper.waitSmbus = true → s.regF Reg.RST_CTRL 0 2 = 0 → Completes (.bundleEnd len true) s (fun t => t.keeper.chunks = [] ∧
      t.out = s.out ++ [.smbus (leBytes 1 (s.verifyBundle b))] ∧
      (s.verifyBundle b = 0 → t.keeper.booted = some b ∧ t.keeper.running = true ∧ t.keeper.waitSmbus = false) ∧
      (s.verifyBundle b ≠ 0 → t.keeper.booted = s.keeper.booted ∧ t.keeper.waitSmbus = true))) ∧
    (s.keeper.waitSmbus = false → s.keeper.running = true → Completes (.bundleEnd len true) s (fun t => t.keeper.chunks = [] ∧
      t.out = s.out ++ [.smbus (leBytes 1 (s.verifyBundle b))] ∧ t.keeper.booted = s.keeper.booted ∧
      (s.verifyBundle b = 0 → t.keeper.staged = some b ∧ t.keeper.fwState = 4) ∧
      (s.verifyBundle b ≠ 0 → t.keeper.staged = s.keeper.staged ∧ t.keeper.fwState = 6 ∧
        t.keeper.fwErr = s.verifyBundle b)))) ∧
  (∀ (len : U32) (written : Bool) (s : State), s.keeper.waitSmbus = true →
    (33550336 < len.toNat ∨ chunkBytes s.keeper.chunks len.toNat = none) →
    Completes (.bundleEnd len written) s (fun t =>
      t = { s with keeper := { s.keeper with chunks := [] }, out := s.out ++ [.smbus [0x10]] })) ∧
  (∀ (b : Bundle) (s : State), 1 ≤ s.keeper.fwState → s.keeper.fwState ≤ 3 →
    Completes (.fwStageDone (some b) true) s (fun t =>
      (s.verifyBundle b = 0 → t.keeper.staged = some b ∧ t.keeper.fwState = 4) ∧
      (s.verifyBundle b ≠ 0 → t.keeper.staged = s.keeper.staged ∧ t.keeper.fwState = 6 ∧
        t.keeper.fwErr = s.verifyBundle b)) ∧
    Completes (.fwStageDone none true) s (fun t => t.keeper.staged = s.keeper.staged ∧ t.keeper.fwState = 6 ∧
      t.keeper.fwErr = 0x10)) ∧
  (∀ s : State, s.smbusUp = true → Completes .authNonce s (fun t => ∃ x : BitVec 384,
      t = { s with free := s.free + 1, keeper := { s.keeper with nonce := some x.toNat },
                   out := s.out ++ [.smbus (leBytes 48 x.toNat)] })) ∧
  (∀ (i : Instr) (sig : List Byte) (s : State), s.smbusUp = true → (s.keeper.nonce = none ∨ sig.length ≠ 96) →
    i ∈ [.authOpenDebug sig, .authBlowPwrokLevel sig, .authBlowResetnLevel sig, .authRaiseSvn sig] →
    (sig.length ≠ 96 → Completes i s (fun t => t = { s with out := s.out ++ [.nack] })) ∧
    (sig.length = 96 → Completes i s (fun t => t = { s with keeper := t.keeper, out := s.out ++ [.smbus [1]] } ∧ t.keeper.nonce = none ∧
      t.keeper.debug = s.keeper.debug ∧ t.keeper.svnFused = s.keeper.svnFused))) ∧
  (∀ (sig : List Byte) (n : Nat) (s : State), s.smbusUp = true → sig.length = 96 → s.keeper.nonce = some n →
    Completes (.authOpenDebug sig) s (fun t =>
      (Config.authValid n 1 sig = true → 8 ≤ s.rst.strap → t.keeper.debug = true ∧ t.out = s.out ++ [.smbus [0]] ∧
        t.keeper.nonce = none) ∧
      (Config.authValid n 1 sig = true → s.rst.strap < 8 → t.keeper.debug = s.keeper.debug ∧
        t.out = s.out ++ [.smbus [1]] ∧ t.keeper.nonce = none) ∧
      (Config.authValid n 1 sig = false → t.keeper.debug = s.keeper.debug ∧ t.out = s.out ++ [.smbus [1]])) ∧
    Completes (.authBlowPwrokLevel sig) s (fun t =>
      (Config.authValid n 2 sig = true → t.rst.pwrokBlown = true ∧ t.out = s.out ++ [.smbus [0]] ∧ t.keeper.nonce = none ∧
        t.rst.pwrokLevel = (if s.rst.pwrokBlown then s.rst.pwrokLevel else s.rst.pwrokLevel.other)) ∧
      (Config.authValid n 2 sig = false → t.rst = s.rst ∧ t.out = s.out ++ [.smbus [1]])) ∧
    Completes (.authBlowResetnLevel sig) s (fun t =>
      (Config.authValid n 3 sig = true → t.rst.resetnBlown = true ∧ t.out = s.out ++ [.smbus [0]] ∧ t.keeper.nonce = none ∧
        t.rst.resetnLevel = (if s.rst.resetnBlown then s.rst.resetnLevel else s.rst.resetnLevel.other)) ∧
      (Config.authValid n 3 sig = false → t.rst = s.rst ∧ t.out = s.out ++ [.smbus [1]])) ∧
    Completes (.authRaiseSvn sig) s (fun t =>
      (Config.authValid n 4 sig = true → t.keeper.svnFused = max s.keeper.svnFused (min 64 s.activeSvn) ∧
        t.out = s.out ++ [.smbus [0]] ∧ t.keeper.nonce = none) ∧
      (Config.authValid n 4 sig = false → t.keeper.svnFused = s.keeper.svnFused ∧ t.out = s.out ++ [.smbus [1]])))

end Statements
end

