-- ==== Sys2Proof/Laws/Bits.lean ====
section
/-! SUPPORT. Laws of bit fields: a field reads the value that was written to it, and a write leaves every other bit alone. -/

namespace Sys2Proof.Machine

/-- Bit `i` of a register with a field replaced. -/
theorem getLsbD_setField (w : U64) (l n v i : Nat) (h : l + n ≤ 64) :
    (setField w l n v).getLsbD i = if l ≤ i ∧ i < l + n then v.testBit (i - l) else w.getLsbD i := by
  unfold setField maskOf
  by_cases hi : i < 64
  · simp only [BitVec.getLsbD_or, BitVec.getLsbD_and, BitVec.getLsbD_not, BitVec.getLsbD_ofNat, hi, decide_true, Bool.true_and,
      Nat.testBit_shiftLeft, Nat.testBit_mod_two_pow, Nat.testBit_two_pow_sub_one]
    by_cases h1 : l ≤ i
    · by_cases h2 : i < l + n
      · have h3 : i - l < n := by omega
        simp [h1, h2, h3]
      · have h3 : ¬ i - l < n := by omega
        simp [h1, h2, h3]
    · simp [h1]
  · have hw : w.getLsbD i = false := BitVec.getLsbD_of_ge _ _ (by omega)
    have hs : ∀ x : U64, x.getLsbD i = false := fun x => BitVec.getLsbD_of_ge _ _ (by omega)
    have h2 : ¬ (l ≤ i ∧ i < l + n) := by omega
    rw [hs]
    simp [h2, hw]

/-- Bit `i` of a field. -/
theorem testBit_field (w : U64) (l n i : Nat) : (field w l n).testBit i = (decide (i < n) && w.getLsbD (l + i)) := by
  unfold field bitsOf
  rw [Nat.testBit_mod_two_pow, Nat.testBit_shiftRight]
  rfl

theorem field_lt (w : U64) (l n : Nat) : field w l n < 2 ^ n := by
  unfold field bitsOf
  exact Nat.mod_lt _ (Nat.two_pow_pos n)

/-- A field reads what was written to it. -/
theorem field_setField_same (w : U64) (l n v : Nat) (h : l + n ≤ 64) : field (setField w l n v) l n = v % 2 ^ n := by
  apply Nat.eq_of_testBit_eq
  intro i
  rw [testBit_field, getLsbD_setField _ _ _ _ _ h, Nat.testBit_mod_two_pow]
  by_cases hi : i < n
  · have h1 : l ≤ l + i ∧ l + i < l + n := by omega
    simp [hi]
  · simp [hi]

/-- A field that does not overlap the one written reads as before. -/
theorem field_setField_other (w : U64) (l n v l' n' : Nat) (h : l + n ≤ 64) (d : l + n ≤ l' ∨ l' + n' ≤ l) :
    field (setField w l n v) l' n' = field w l' n' := by
  apply Nat.eq_of_testBit_eq
  intro i
  rw [testBit_field, testBit_field, getLsbD_setField _ _ _ _ _ h]
  by_cases hi : i < n'
  · have h1 : ¬ (l ≤ l' + i ∧ l' + i < l + n) := by omega
    simp [hi, h1]
  · simp [hi]

/-- A bit outside the field written stays. -/
theorem bit_setField_other (w : U64) (l n v i : Nat) (h : l + n ≤ 64) (d : i < l ∨ l + n ≤ i) :
    bit (setField w l n v) i = bit w i := by
  unfold bit
  rw [getLsbD_setField _ _ _ _ _ h, if_neg (by omega)]

/-- A one-bit field reads as its bit. -/
theorem bit_setField_same (w : U64) (i v : Nat) (h : i + 1 ≤ 64) : bit (setField w i 1 v) i = v.testBit 0 := by
  unfold bit
  rw [getLsbD_setField _ _ _ _ _ h, if_pos (by omega), Nat.sub_self]

end Sys2Proof.Machine
end

