-- ==== Sys2Proof/Laws/Bytes.lean ====
section
/-! SUPPORT. Laws of byte strings, of the words and frames that a link carries, and of a Weir's sorted row: how long each is, what a
field of one reads, and what sorting keeps. -/

namespace Sys2Proof.Machine

/-! ### Byte strings -/

@[simp] theorem leBytes_length (n v : Nat) : (leBytes n v).length = n := by
  induction n generalizing v with
  | zero => rfl
  | succ n ih => simp [leBytes, ih]

/-- The number that `n` bytes of a number hold is that number modulo 256 ^ n. -/
@[simp] theorem leNat_leBytes (n v : Nat) : leNat (leBytes n v) = v % 256 ^ n := by
  induction n generalizing v with
  | zero => simp [leBytes, leNat, Nat.mod_one]
  | succ n ih =>
    have h : (BitVec.ofNat 8 v).toNat = v % 256 := BitVec.toNat_ofNat v 8
    rw [leBytes, leNat, ih, h, Nat.pow_succ', Nat.mod_mul]

@[simp] theorem padTo_length {α : Type} (d : α) (n : Nat) (l : List α) : (padTo d n l).length = n := by
  simp [padTo]
  omega

/-- A list of the right length is not changed. -/
theorem padTo_self {α : Type} (d : α) (l : List α) : padTo d l.length l = l := by simp [padTo]

@[simp] theorem zeroBytes_length (n : Nat) : (zeroBytes n).length = n := by simp [zeroBytes]

/-- A field that a byte string begins with. -/
theorem leAt_append_left (a b : List Byte) (off len : Nat) (h : off + len ≤ a.length) :
    leAt (a ++ b) off len = leAt a off len := by
  unfold leAt
  rw [List.drop_append_of_le_length (by omega), List.take_append_of_le_length (by simp; omega)]

/-- A field behind a byte string's first part. -/
theorem leAt_append_right (a b : List Byte) (off len : Nat) (h : a.length ≤ off) :
    leAt (a ++ b) off len = leAt b (off - a.length) len := by
  unfold leAt
  rw [List.drop_append, List.drop_eq_nil_of_le h, List.nil_append]

/-- A field written as bytes reads as the number, when it fits. -/
theorem leAt_leBytes (n v : Nat) (rest : List Byte) (h : v < 256 ^ n) : leAt (leBytes n v ++ rest) 0 n = v := by
  unfold leAt
  simp [Nat.mod_eq_of_lt h]

/-! ### Link words and frames -/

/-- A control word is 24 bytes (Table 15-6). -/
@[simp] theorem ctrlBytes_length (w : CtrlWord) : (ctrlBytes w).length = 24 := by
  cases w <;> simp [ctrlBytes]

/-- A frame is its header, payload and trailer (Table 15-5). -/
@[simp] theorem frameBytes_length (l : Nat) (f : Frame) (flip : U32) : (frameBytes l f flip).length = 48 + f.payload.length := by
  simp [frameBytes, frameBody]
  omega

/-- A word that the node sends passes the partner's check. -/
theorem ctrlGood_ctrlBytes (w : CtrlWord) : ctrlGood (ctrlBytes w) = true := by
  have key : ∀ b : List Byte, b.length = 16 →
      ctrlGood (b ++ leBytes 4 (crc32c b).toNat ++ zeroBytes 4) = true := by
    intro b hb
    have h1 : (b ++ leBytes 4 (crc32c b).toNat ++ zeroBytes 4).take 16 = b := by
      rw [List.append_assoc, ← hb]
      exact List.take_left
    have h2 : padTo 0 16 b = b := hb ▸ padTo_self 0 b
    have h3 : (crc32c b).toNat < 256 ^ 4 := (crc32c b).isLt
    unfold ctrlGood
    rw [h1, h2, List.append_assoc, leAt_append_right _ _ _ _ (by omega), hb, leAt_leBytes _ _ _ h3]
    simp
  cases w <;> exact key _ (by simp)

/-! ### Sorted rows -/

/-- Insertion in falling order of the key keeps what is in the list. -/
theorem insertBy_perm {α : Type} (key : α → Nat) (x : α) (l : List α) : (insertBy key x l).Perm (x :: l) := by
  induction l with
  | nil => exact List.Perm.refl _
  | cons y t ih =>
    simp only [insertBy]
    split
    · exact List.Perm.refl _
    · exact (List.Perm.cons y ih).trans (List.Perm.swap x y t)

/-- Sorting keeps what is in a list. -/
theorem sortBy_perm {α : Type} (key : α → Nat) (l : List α) : (sortBy key l).Perm l := by
  have go : ∀ (l acc : List α), (l.foldl (fun acc x => insertBy key x acc) acc).Perm (acc ++ l) := by
    intro l
    induction l with
    | nil => intro acc; simp
    | cons x t ih =>
      intro acc
      refine (ih _).trans ?_
      exact ((insertBy_perm key x acc).append_right t).trans (List.perm_middle.symm)
  simpa [sortBy] using go l []

/-- A pass keeps no more entries than its keep count (R170). -/
theorem weirPass_kept_length (score : Bool) (keep : Nat) (row : List WEnt) : (weirPass score keep row).kept.length ≤ keep := by
  simp only [weirPass]
  exact List.length_take_le _ _

/-- What a pass keeps stands among the row's distinct entries. -/
theorem weirPass_kept_mem (score : Bool) (keep : Nat) (row : List WEnt) (w : WEnt) (h : w ∈ (weirPass score keep row).kept) :
    w ∈ collapse row := by
  have h1 : w ∈ sortBy WEnt.key (collapse row) := List.mem_of_mem_take h
  exact (sortBy_perm _ _).mem_iff.mp h1

end Sys2Proof.Machine
end

