-- ==== Sys2Proof/Laws/Store.lean ====
section
/-! SUPPORT. Laws of the sparse tables: a read after a write at the same key gives the value written, and every other key is
left alone. They hold of any list, in canonical form or not; the operations that keep the canonical form are named last. -/

namespace Sys2Proof.Machine

variable {α : Type}

@[simp] theorem Store.find?_nil (k : Nat) : Store.find? ([] : Store α) k = none := rfl

@[simp] theorem Store.find?_insert_same (st : Store α) (k : Nat) (v : α) :
    Store.find? (Store.insert st k v) k = some v := by
  induction st with
  | nil => simp [Store.insert, Store.find?]
  | cons p t ih =>
    obtain ⟨k', v'⟩ := p
    simp only [Store.insert]
    split
    · simp [Store.find?]
    · split
      · simp [Store.find?]
      · have : ¬ k' = k := fun h => by omega
        simp [Store.find?, this, ih]

theorem Store.find?_insert_other (st : Store α) (k j : Nat) (v : α) (h : j ≠ k) :
    Store.find? (Store.insert st k v) j = Store.find? st j := by
  induction st with
  | nil => simp [Store.insert, Store.find?, Ne.symm h]
  | cons p t ih =>
    obtain ⟨k', v'⟩ := p
    simp only [Store.insert]
    split
    · simp [Store.find?, Ne.symm h]
    · split
      · subst k'
        simp [Store.find?, Ne.symm h]
      · simp [Store.find?, ih]

@[simp] theorem Store.find?_erase_same (st : Store α) (k : Nat) : Store.find? (Store.erase st k) k = none := by
  induction st with
  | nil => rfl
  | cons p t ih =>
    obtain ⟨k', v'⟩ := p
    simp only [Store.erase, List.filter_cons] at ih ⊢
    split
    · rename_i hk
      have : k' ≠ k := by simpa using hk
      simp [Store.find?, this, ih]
    · exact ih

theorem Store.find?_erase_other (st : Store α) (k j : Nat) (h : j ≠ k) :
    Store.find? (Store.erase st k) j = Store.find? st j := by
  induction st with
  | nil => rfl
  | cons p t ih =>
    obtain ⟨k', v'⟩ := p
    simp only [Store.erase, List.filter_cons] at ih ⊢
    split
    · simp [Store.find?, ih]
    · rename_i hk
      have e : k' = k := by simpa using hk
      have : ¬ k' = j := fun c => h (by omega)
      simp [Store.find?, this, ih]

@[simp] theorem Store.get_put_same [DecidableEq α] (d : Nat → α) (st : Store α) (k : Nat) (v : α) :
    Store.get d (Store.put d st k v) k = v := by
  unfold Store.get Store.put
  split
  · rename_i h
    simp [h]
  · simp

theorem Store.get_put_other [DecidableEq α] (d : Nat → α) (st : Store α) (k j : Nat) (v : α) (h : j ≠ k) :
    Store.get d (Store.put d st k v) j = Store.get d st j := by
  unfold Store.get Store.put
  split
  · rw [Store.find?_erase_other _ _ _ h]
  · rw [Store.find?_insert_other _ _ _ _ h]

theorem Store.find?_adjust_same (st : Store α) (k : Nat) (f : α → α) :
    Store.find? (Store.adjust st k f) k = (Store.find? st k).map f := by
  unfold Store.adjust
  split
  · rename_i v h
    simp [h]
  · rename_i h
    simp [h]

theorem Store.find?_adjust_other (st : Store α) (k j : Nat) (f : α → α) (h : j ≠ k) :
    Store.find? (Store.adjust st k f) j = Store.find? st j := by
  unfold Store.adjust
  split
  · rw [Store.find?_insert_other _ _ _ _ h]
  · rfl

/-- An operation on the table keeps its keys strictly rising. -/
theorem Store.sorted_erase (st : Store α) (k : Nat) (h : Store.Sorted st) : Store.Sorted (Store.erase st k) := by
  unfold Store.Sorted Store.keys Store.erase at *
  exact List.Pairwise.sublist ((List.filter_sublist).map _) h

theorem Store.keys_insert_mem (st : Store α) (k j : Nat) (v : α) (h : j ∈ Store.keys (Store.insert st k v)) :
    j = k ∨ j ∈ Store.keys st := by
  induction st with
  | nil => simpa [Store.insert, Store.keys] using h
  | cons p t ih =>
    obtain ⟨k', v'⟩ := p
    simp only [Store.insert] at h
    split at h
    · simpa [Store.keys] using h
    · split at h
      · subst k'
        simpa [Store.keys] using h
      · simp only [Store.keys, List.map_cons, List.mem_cons] at h ⊢
        rcases h with h | h
        · exact .inr (.inl h)
        · rcases ih h with h | h
          · exact .inl h
          · exact .inr (.inr h)

theorem Store.sorted_insert (st : Store α) (k : Nat) (v : α) (h : Store.Sorted st) : Store.Sorted (Store.insert st k v) := by
  induction st with
  | nil => simp [Store.insert, Store.Sorted, Store.keys]
  | cons p t ih =>
    obtain ⟨k', v'⟩ := p
    have hp : (∀ a ∈ Store.keys t, k' < a) ∧ Store.Sorted t := by
      simpa [Store.Sorted, Store.keys, List.pairwise_cons] using h
    simp only [Store.insert]
    split
    · rename_i hk
      simp only [Store.Sorted, Store.keys, List.map_cons, List.pairwise_cons, List.mem_cons]
      refine ⟨?_, hp.1, hp.2⟩
      rintro a (rfl | ha)
      · exact hk
      · exact Nat.lt_trans hk (hp.1 a ha)
    · split
      · subst k'
        simpa [Store.Sorted, Store.keys, List.pairwise_cons] using h
      · simp only [Store.Sorted, Store.keys, List.map_cons, List.pairwise_cons]
        refine ⟨?_, ih hp.2⟩
        intro a ha
        rcases Store.keys_insert_mem t k a v ha with rfl | ha
        · omega
        · exact hp.1 a ha

/-- A write keeps the canonical form, whichever value it writes. -/
theorem Store.wf_put [DecidableEq α] (d : Nat → α) (st : Store α) (k : Nat) (v : α) (h : Store.Wf d st) :
    Store.Wf d (Store.put d st k v) := by
  unfold Store.put
  split
  · refine ⟨Store.sorted_erase _ _ h.1, fun p hp => h.2 p ?_⟩
    exact (List.mem_filter.mp hp).1
  · rename_i hv
    refine ⟨Store.sorted_insert _ _ _ h.1, ?_⟩
    have aux : ∀ (l : Store α), (∀ p ∈ l, p.2 ≠ d p.1) → ∀ p ∈ Store.insert l k v, p.2 ≠ d p.1 := by
      intro l
      induction l with
      | nil =>
        intro _ p hp
        have : p = (k, v) := by simpa [Store.insert] using hp
        simpa [this] using hv
      | cons q t ih =>
        obtain ⟨k', v'⟩ := q
        intro hl p hp
        simp only [Store.insert] at hp
        split at hp
        · rcases List.mem_cons.mp hp with rfl | hp
          · simpa using hv
          · exact hl p hp
        · split at hp
          · rcases List.mem_cons.mp hp with rfl | hp
            · simpa using hv
            · exact hl p (List.mem_cons_of_mem _ hp)
          · rcases List.mem_cons.mp hp with rfl | hp
            · exact hl _ List.mem_cons_self
            · exact ih (fun p hp => hl p (List.mem_cons_of_mem _ hp)) p hp
    exact aux st h.2

end Sys2Proof.Machine
end

