-- ==== Sys2Proof/Laws/State.lean ====
section
/-! SUPPORT. One lemma per field of State and named update, true by rfl, so that no later proof unfolds a record update; then what a
read of a register, field or unit gives after a write. -/

namespace Sys2Proof.Machine

variable (s : State)

/-! ### setReg -/

@[simp] theorem State.setReg_pending (k : Nat) (v : U64) : (s.setReg k v).pending = s.pending := rfl
@[simp] theorem State.setReg_free (k : Nat) (v : U64) : (s.setReg k v).free = s.free := rfl
@[simp] theorem State.setReg_out (k : Nat) (v : U64) : (s.setReg k v).out = s.out := rfl
@[simp] theorem State.setReg_staged (k : Nat) (v : U64) : (s.setReg k v).staged = s.staged := rfl
@[simp] theorem State.setReg_commit (k : Nat) (v : U64) : (s.setReg k v).commit = s.commit := rfl
@[simp] theorem State.setReg_clep (k : Nat) (v : U64) : (s.setReg k v).clep = s.clep := rfl
@[simp] theorem State.setReg_reqs (k : Nat) (v : U64) : (s.setReg k v).reqs = s.reqs := rfl
@[simp] theorem State.setReg_nextRid (k : Nat) (v : U64) : (s.setReg k v).nextRid = s.nextRid := rfl
@[simp] theorem State.setReg_hwReq (k : Nat) (v : U64) : (s.setReg k v).hwReq = s.hwReq := rfl
@[simp] theorem State.setReg_partsOut (k : Nat) (v : U64) : (s.setReg k v).partsOut = s.partsOut := rfl
@[simp] theorem State.setReg_partsIn (k : Nat) (v : U64) : (s.setReg k v).partsIn = s.partsIn := rfl
@[simp] theorem State.setReg_nextToken (k : Nat) (v : U64) : (s.setReg k v).nextToken = s.nextToken := rfl
@[simp] theorem State.setReg_windows (k : Nat) (v : U64) : (s.setReg k v).windows = s.windows := rfl
@[simp] theorem State.setReg_indexes (k : Nat) (v : U64) : (s.setReg k v).indexes = s.indexes := rfl
@[simp] theorem State.setReg_slices (k : Nat) (v : U64) : (s.setReg k v).slices = s.slices := rfl
@[simp] theorem State.setReg_host (k : Nat) (v : U64) : (s.setReg k v).host = s.host := rfl
@[simp] theorem State.setReg_urdun (k : Nat) (v : U64) : (s.setReg k v).urdun = s.urdun := rfl
@[simp] theorem State.setReg_points (k : Nat) (v : U64) : (s.setReg k v).points = s.points := rfl
@[simp] theorem State.setReg_fabric (k : Nat) (v : U64) : (s.setReg k v).fabric = s.fabric := rfl
@[simp] theorem State.setReg_progs (k : Nat) (v : U64) : (s.setReg k v).progs = s.progs := rfl
@[simp] theorem State.setReg_hbm (k : Nat) (v : U64) : (s.setReg k v).hbm = s.hbm := rfl
@[simp] theorem State.setReg_mem (k : Nat) (v : U64) : (s.setReg k v).mem = s.mem := rfl
@[simp] theorem State.setReg_cist (k : Nat) (v : U64) : (s.setReg k v).cist = s.cist := rfl
@[simp] theorem State.setReg_rst (k : Nat) (v : U64) : (s.setReg k v).rst = s.rst := rfl
@[simp] theorem State.setReg_basins (k : Nat) (v : U64) : (s.setReg k v).basins = s.basins := rfl
@[simp] theorem State.setReg_record (k : Nat) (v : U64) : (s.setReg k v).record = s.record := rfl
@[simp] theorem State.setReg_keeper (k : Nat) (v : U64) : (s.setReg k v).keeper = s.keeper := rfl

/-! ### setRegF -/

@[simp] theorem State.setRegF_pending (k l n v : Nat) : (s.setRegF k l n v).pending = s.pending := rfl
@[simp] theorem State.setRegF_free (k l n v : Nat) : (s.setRegF k l n v).free = s.free := rfl
@[simp] theorem State.setRegF_out (k l n v : Nat) : (s.setRegF k l n v).out = s.out := rfl
@[simp] theorem State.setRegF_staged (k l n v : Nat) : (s.setRegF k l n v).staged = s.staged := rfl
@[simp] theorem State.setRegF_commit (k l n v : Nat) : (s.setRegF k l n v).commit = s.commit := rfl
@[simp] theorem State.setRegF_clep (k l n v : Nat) : (s.setRegF k l n v).clep = s.clep := rfl
@[simp] theorem State.setRegF_reqs (k l n v : Nat) : (s.setRegF k l n v).reqs = s.reqs := rfl
@[simp] theorem State.setRegF_nextRid (k l n v : Nat) : (s.setRegF k l n v).nextRid = s.nextRid := rfl
@[simp] theorem State.setRegF_hwReq (k l n v : Nat) : (s.setRegF k l n v).hwReq = s.hwReq := rfl
@[simp] theorem State.setRegF_partsOut (k l n v : Nat) : (s.setRegF k l n v).partsOut = s.partsOut := rfl
@[simp] theorem State.setRegF_partsIn (k l n v : Nat) : (s.setRegF k l n v).partsIn = s.partsIn := rfl
@[simp] theorem State.setRegF_nextToken (k l n v : Nat) : (s.setRegF k l n v).nextToken = s.nextToken := rfl
@[simp] theorem State.setRegF_windows (k l n v : Nat) : (s.setRegF k l n v).windows = s.windows := rfl
@[simp] theorem State.setRegF_indexes (k l n v : Nat) : (s.setRegF k l n v).indexes = s.indexes := rfl
@[simp] theorem State.setRegF_slices (k l n v : Nat) : (s.setRegF k l n v).slices = s.slices := rfl
@[simp] theorem State.setRegF_host (k l n v : Nat) : (s.setRegF k l n v).host = s.host := rfl
@[simp] theorem State.setRegF_urdun (k l n v : Nat) : (s.setRegF k l n v).urdun = s.urdun := rfl
@[simp] theorem State.setRegF_points (k l n v : Nat) : (s.setRegF k l n v).points = s.points := rfl
@[simp] theorem State.setRegF_fabric (k l n v : Nat) : (s.setRegF k l n v).fabric = s.fabric := rfl
@[simp] theorem State.setRegF_progs (k l n v : Nat) : (s.setRegF k l n v).progs = s.progs := rfl
@[simp] theorem State.setRegF_hbm (k l n v : Nat) : (s.setRegF k l n v).hbm = s.hbm := rfl
@[simp] theorem State.setRegF_mem (k l n v : Nat) : (s.setRegF k l n v).mem = s.mem := rfl
@[simp] theorem State.setRegF_cist (k l n v : Nat) : (s.setRegF k l n v).cist = s.cist := rfl
@[simp] theorem State.setRegF_rst (k l n v : Nat) : (s.setRegF k l n v).rst = s.rst := rfl
@[simp] theorem State.setRegF_basins (k l n v : Nat) : (s.setRegF k l n v).basins = s.basins := rfl
@[simp] theorem State.setRegF_record (k l n v : Nat) : (s.setRegF k l n v).record = s.record := rfl
@[simp] theorem State.setRegF_keeper (k l n v : Nat) : (s.setRegF k l n v).keeper = s.keeper := rfl

/-! ### bumpSat -/

@[simp] theorem State.bumpSat_pending (k l n v : Nat) : (s.bumpSat k l n v).pending = s.pending := rfl
@[simp] theorem State.bumpSat_free (k l n v : Nat) : (s.bumpSat k l n v).free = s.free := rfl
@[simp] theorem State.bumpSat_out (k l n v : Nat) : (s.bumpSat k l n v).out = s.out := rfl
@[simp] theorem State.bumpSat_staged (k l n v : Nat) : (s.bumpSat k l n v).staged = s.staged := rfl
@[simp] theorem State.bumpSat_commit (k l n v : Nat) : (s.bumpSat k l n v).commit = s.commit := rfl
@[simp] theorem State.bumpSat_clep (k l n v : Nat) : (s.bumpSat k l n v).clep = s.clep := rfl
@[simp] theorem State.bumpSat_reqs (k l n v : Nat) : (s.bumpSat k l n v).reqs = s.reqs := rfl
@[simp] theorem State.bumpSat_nextRid (k l n v : Nat) : (s.bumpSat k l n v).nextRid = s.nextRid := rfl
@[simp] theorem State.bumpSat_hwReq (k l n v : Nat) : (s.bumpSat k l n v).hwReq = s.hwReq := rfl
@[simp] theorem State.bumpSat_partsOut (k l n v : Nat) : (s.bumpSat k l n v).partsOut = s.partsOut := rfl
@[simp] theorem State.bumpSat_partsIn (k l n v : Nat) : (s.bumpSat k l n v).partsIn = s.partsIn := rfl
@[simp] theorem State.bumpSat_nextToken (k l n v : Nat) : (s.bumpSat k l n v).nextToken = s.nextToken := rfl
@[simp] theorem State.bumpSat_windows (k l n v : Nat) : (s.bumpSat k l n v).windows = s.windows := rfl
@[simp] theorem State.bumpSat_indexes (k l n v : Nat) : (s.bumpSat k l n v).indexes = s.indexes := rfl
@[simp] theorem State.bumpSat_slices (k l n v : Nat) : (s.bumpSat k l n v).slices = s.slices := rfl
@[simp] theorem State.bumpSat_host (k l n v : Nat) : (s.bumpSat k l n v).host = s.host := rfl
@[simp] theorem State.bumpSat_urdun (k l n v : Nat) : (s.bumpSat k l n v).urdun = s.urdun := rfl
@[simp] theorem State.bumpSat_points (k l n v : Nat) : (s.bumpSat k l n v).points = s.points := rfl
@[simp] theorem State.bumpSat_fabric (k l n v : Nat) : (s.bumpSat k l n v).fabric = s.fabric := rfl
@[simp] theorem State.bumpSat_progs (k l n v : Nat) : (s.bumpSat k l n v).progs = s.progs := rfl
@[simp] theorem State.bumpSat_hbm (k l n v : Nat) : (s.bumpSat k l n v).hbm = s.hbm := rfl
@[simp] theorem State.bumpSat_mem (k l n v : Nat) : (s.bumpSat k l n v).mem = s.mem := rfl
@[simp] theorem State.bumpSat_cist (k l n v : Nat) : (s.bumpSat k l n v).cist = s.cist := rfl
@[simp] theorem State.bumpSat_rst (k l n v : Nat) : (s.bumpSat k l n v).rst = s.rst := rfl
@[simp] theorem State.bumpSat_basins (k l n v : Nat) : (s.bumpSat k l n v).basins = s.basins := rfl
@[simp] theorem State.bumpSat_record (k l n v : Nat) : (s.bumpSat k l n v).record = s.record := rfl
@[simp] theorem State.bumpSat_keeper (k l n v : Nat) : (s.bumpSat k l n v).keeper = s.keeper := rfl

/-! ### bump -/

@[simp] theorem State.bump_pending (k l n v : Nat) : (s.bump k l n v).pending = s.pending := rfl
@[simp] theorem State.bump_free (k l n v : Nat) : (s.bump k l n v).free = s.free := rfl
@[simp] theorem State.bump_out (k l n v : Nat) : (s.bump k l n v).out = s.out := rfl
@[simp] theorem State.bump_staged (k l n v : Nat) : (s.bump k l n v).staged = s.staged := rfl
@[simp] theorem State.bump_commit (k l n v : Nat) : (s.bump k l n v).commit = s.commit := rfl
@[simp] theorem State.bump_clep (k l n v : Nat) : (s.bump k l n v).clep = s.clep := rfl
@[simp] theorem State.bump_reqs (k l n v : Nat) : (s.bump k l n v).reqs = s.reqs := rfl
@[simp] theorem State.bump_nextRid (k l n v : Nat) : (s.bump k l n v).nextRid = s.nextRid := rfl
@[simp] theorem State.bump_hwReq (k l n v : Nat) : (s.bump k l n v).hwReq = s.hwReq := rfl
@[simp] theorem State.bump_partsOut (k l n v : Nat) : (s.bump k l n v).partsOut = s.partsOut := rfl
@[simp] theorem State.bump_partsIn (k l n v : Nat) : (s.bump k l n v).partsIn = s.partsIn := rfl
@[simp] theorem State.bump_nextToken (k l n v : Nat) : (s.bump k l n v).nextToken = s.nextToken := rfl
@[simp] theorem State.bump_windows (k l n v : Nat) : (s.bump k l n v).windows = s.windows := rfl
@[simp] theorem State.bump_indexes (k l n v : Nat) : (s.bump k l n v).indexes = s.indexes := rfl
@[simp] theorem State.bump_slices (k l n v : Nat) : (s.bump k l n v).slices = s.slices := rfl
@[simp] theorem State.bump_host (k l n v : Nat) : (s.bump k l n v).host = s.host := rfl
@[simp] theorem State.bump_urdun (k l n v : Nat) : (s.bump k l n v).urdun = s.urdun := rfl
@[simp] theorem State.bump_points (k l n v : Nat) : (s.bump k l n v).points = s.points := rfl
@[simp] theorem State.bump_fabric (k l n v : Nat) : (s.bump k l n v).fabric = s.fabric := rfl
@[simp] theorem State.bump_progs (k l n v : Nat) : (s.bump k l n v).progs = s.progs := rfl
@[simp] theorem State.bump_hbm (k l n v : Nat) : (s.bump k l n v).hbm = s.hbm := rfl
@[simp] theorem State.bump_mem (k l n v : Nat) : (s.bump k l n v).mem = s.mem := rfl
@[simp] theorem State.bump_cist (k l n v : Nat) : (s.bump k l n v).cist = s.cist := rfl
@[simp] theorem State.bump_rst (k l n v : Nat) : (s.bump k l n v).rst = s.rst := rfl
@[simp] theorem State.bump_basins (k l n v : Nat) : (s.bump k l n v).basins = s.basins := rfl
@[simp] theorem State.bump_record (k l n v : Nat) : (s.bump k l n v).record = s.record := rfl
@[simp] theorem State.bump_keeper (k l n v : Nat) : (s.bump k l n v).keeper = s.keeper := rfl

/-! ### emit -/

@[simp] theorem State.emit_pending (o : Out) : (s.emit o).pending = s.pending := rfl
@[simp] theorem State.emit_free (o : Out) : (s.emit o).free = s.free := rfl
@[simp] theorem State.emit_regs (o : Out) : (s.emit o).regs = s.regs := rfl
@[simp] theorem State.emit_staged (o : Out) : (s.emit o).staged = s.staged := rfl
@[simp] theorem State.emit_commit (o : Out) : (s.emit o).commit = s.commit := rfl
@[simp] theorem State.emit_clep (o : Out) : (s.emit o).clep = s.clep := rfl
@[simp] theorem State.emit_reqs (o : Out) : (s.emit o).reqs = s.reqs := rfl
@[simp] theorem State.emit_nextRid (o : Out) : (s.emit o).nextRid = s.nextRid := rfl
@[simp] theorem State.emit_hwReq (o : Out) : (s.emit o).hwReq = s.hwReq := rfl
@[simp] theorem State.emit_partsOut (o : Out) : (s.emit o).partsOut = s.partsOut := rfl
@[simp] theorem State.emit_partsIn (o : Out) : (s.emit o).partsIn = s.partsIn := rfl
@[simp] theorem State.emit_nextToken (o : Out) : (s.emit o).nextToken = s.nextToken := rfl
@[simp] theorem State.emit_windows (o : Out) : (s.emit o).windows = s.windows := rfl
@[simp] theorem State.emit_indexes (o : Out) : (s.emit o).indexes = s.indexes := rfl
@[simp] theorem State.emit_slices (o : Out) : (s.emit o).slices = s.slices := rfl
@[simp] theorem State.emit_host (o : Out) : (s.emit o).host = s.host := rfl
@[simp] theorem State.emit_urdun (o : Out) : (s.emit o).urdun = s.urdun := rfl
@[simp] theorem State.emit_points (o : Out) : (s.emit o).points = s.points := rfl
@[simp] theorem State.emit_fabric (o : Out) : (s.emit o).fabric = s.fabric := rfl
@[simp] theorem State.emit_progs (o : Out) : (s.emit o).progs = s.progs := rfl
@[simp] theorem State.emit_hbm (o : Out) : (s.emit o).hbm = s.hbm := rfl
@[simp] theorem State.emit_mem (o : Out) : (s.emit o).mem = s.mem := rfl
@[simp] theorem State.emit_cist (o : Out) : (s.emit o).cist = s.cist := rfl
@[simp] theorem State.emit_rst (o : Out) : (s.emit o).rst = s.rst := rfl
@[simp] theorem State.emit_basins (o : Out) : (s.emit o).basins = s.basins := rfl
@[simp] theorem State.emit_record (o : Out) : (s.emit o).record = s.record := rfl
@[simp] theorem State.emit_keeper (o : Out) : (s.emit o).keeper = s.keeper := rfl

/-! ### emits -/

@[simp] theorem State.emits_pending (o : List Out) : (s.emits o).pending = s.pending := rfl
@[simp] theorem State.emits_free (o : List Out) : (s.emits o).free = s.free := rfl
@[simp] theorem State.emits_regs (o : List Out) : (s.emits o).regs = s.regs := rfl
@[simp] theorem State.emits_staged (o : List Out) : (s.emits o).staged = s.staged := rfl
@[simp] theorem State.emits_commit (o : List Out) : (s.emits o).commit = s.commit := rfl
@[simp] theorem State.emits_clep (o : List Out) : (s.emits o).clep = s.clep := rfl
@[simp] theorem State.emits_reqs (o : List Out) : (s.emits o).reqs = s.reqs := rfl
@[simp] theorem State.emits_nextRid (o : List Out) : (s.emits o).nextRid = s.nextRid := rfl
@[simp] theorem State.emits_hwReq (o : List Out) : (s.emits o).hwReq = s.hwReq := rfl
@[simp] theorem State.emits_partsOut (o : List Out) : (s.emits o).partsOut = s.partsOut := rfl
@[simp] theorem State.emits_partsIn (o : List Out) : (s.emits o).partsIn = s.partsIn := rfl
@[simp] theorem State.emits_nextToken (o : List Out) : (s.emits o).nextToken = s.nextToken := rfl
@[simp] theorem State.emits_windows (o : List Out) : (s.emits o).windows = s.windows := rfl
@[simp] theorem State.emits_indexes (o : List Out) : (s.emits o).indexes = s.indexes := rfl
@[simp] theorem State.emits_slices (o : List Out) : (s.emits o).slices = s.slices := rfl
@[simp] theorem State.emits_host (o : List Out) : (s.emits o).host = s.host := rfl
@[simp] theorem State.emits_urdun (o : List Out) : (s.emits o).urdun = s.urdun := rfl
@[simp] theorem State.emits_points (o : List Out) : (s.emits o).points = s.points := rfl
@[simp] theorem State.emits_fabric (o : List Out) : (s.emits o).fabric = s.fabric := rfl
@[simp] theorem State.emits_progs (o : List Out) : (s.emits o).progs = s.progs := rfl
@[simp] theorem State.emits_hbm (o : List Out) : (s.emits o).hbm = s.hbm := rfl
@[simp] theorem State.emits_mem (o : List Out) : (s.emits o).mem = s.mem := rfl
@[simp] theorem State.emits_cist (o : List Out) : (s.emits o).cist = s.cist := rfl
@[simp] theorem State.emits_rst (o : List Out) : (s.emits o).rst = s.rst := rfl
@[simp] theorem State.emits_basins (o : List Out) : (s.emits o).basins = s.basins := rfl
@[simp] theorem State.emits_record (o : List Out) : (s.emits o).record = s.record := rfl
@[simp] theorem State.emits_keeper (o : List Out) : (s.emits o).keeper = s.keeper := rfl

/-! ### setFn -/

@[simp] theorem State.setFn_pending (f : Nat) (h : HostFn) : (s.setFn f h).pending = s.pending := rfl
@[simp] theorem State.setFn_free (f : Nat) (h : HostFn) : (s.setFn f h).free = s.free := rfl
@[simp] theorem State.setFn_out (f : Nat) (h : HostFn) : (s.setFn f h).out = s.out := rfl
@[simp] theorem State.setFn_regs (f : Nat) (h : HostFn) : (s.setFn f h).regs = s.regs := rfl
@[simp] theorem State.setFn_staged (f : Nat) (h : HostFn) : (s.setFn f h).staged = s.staged := rfl
@[simp] theorem State.setFn_commit (f : Nat) (h : HostFn) : (s.setFn f h).commit = s.commit := rfl
@[simp] theorem State.setFn_clep (f : Nat) (h : HostFn) : (s.setFn f h).clep = s.clep := rfl
@[simp] theorem State.setFn_reqs (f : Nat) (h : HostFn) : (s.setFn f h).reqs = s.reqs := rfl
@[simp] theorem State.setFn_nextRid (f : Nat) (h : HostFn) : (s.setFn f h).nextRid = s.nextRid := rfl
@[simp] theorem State.setFn_hwReq (f : Nat) (h : HostFn) : (s.setFn f h).hwReq = s.hwReq := rfl
@[simp] theorem State.setFn_partsOut (f : Nat) (h : HostFn) : (s.setFn f h).partsOut = s.partsOut := rfl
@[simp] theorem State.setFn_partsIn (f : Nat) (h : HostFn) : (s.setFn f h).partsIn = s.partsIn := rfl
@[simp] theorem State.setFn_nextToken (f : Nat) (h : HostFn) : (s.setFn f h).nextToken = s.nextToken := rfl
@[simp] theorem State.setFn_windows (f : Nat) (h : HostFn) : (s.setFn f h).windows = s.windows := rfl
@[simp] theorem State.setFn_indexes (f : Nat) (h : HostFn) : (s.setFn f h).indexes = s.indexes := rfl
@[simp] theorem State.setFn_slices (f : Nat) (h : HostFn) : (s.setFn f h).slices = s.slices := rfl
@[simp] theorem State.setFn_urdun (f : Nat) (h : HostFn) : (s.setFn f h).urdun = s.urdun := rfl
@[simp] theorem State.setFn_points (f : Nat) (h : HostFn) : (s.setFn f h).points = s.points := rfl
@[simp] theorem State.setFn_fabric (f : Nat) (h : HostFn) : (s.setFn f h).fabric = s.fabric := rfl
@[simp] theorem State.setFn_progs (f : Nat) (h : HostFn) : (s.setFn f h).progs = s.progs := rfl
@[simp] theorem State.setFn_hbm (f : Nat) (h : HostFn) : (s.setFn f h).hbm = s.hbm := rfl
@[simp] theorem State.setFn_mem (f : Nat) (h : HostFn) : (s.setFn f h).mem = s.mem := rfl
@[simp] theorem State.setFn_cist (f : Nat) (h : HostFn) : (s.setFn f h).cist = s.cist := rfl
@[simp] theorem State.setFn_rst (f : Nat) (h : HostFn) : (s.setFn f h).rst = s.rst := rfl
@[simp] theorem State.setFn_basins (f : Nat) (h : HostFn) : (s.setFn f h).basins = s.basins := rfl
@[simp] theorem State.setFn_record (f : Nat) (h : HostFn) : (s.setFn f h).record = s.record := rfl
@[simp] theorem State.setFn_keeper (f : Nat) (h : HostFn) : (s.setFn f h).keeper = s.keeper := rfl

/-! ### setBasin -/

@[simp] theorem State.setBasin_pending (b : Nat) (v : Basin) : (s.setBasin b v).pending = s.pending := rfl
@[simp] theorem State.setBasin_free (b : Nat) (v : Basin) : (s.setBasin b v).free = s.free := rfl
@[simp] theorem State.setBasin_out (b : Nat) (v : Basin) : (s.setBasin b v).out = s.out := rfl
@[simp] theorem State.setBasin_regs (b : Nat) (v : Basin) : (s.setBasin b v).regs = s.regs := rfl
@[simp] theorem State.setBasin_staged (b : Nat) (v : Basin) : (s.setBasin b v).staged = s.staged := rfl
@[simp] theorem State.setBasin_commit (b : Nat) (v : Basin) : (s.setBasin b v).commit = s.commit := rfl
@[simp] theorem State.setBasin_clep (b : Nat) (v : Basin) : (s.setBasin b v).clep = s.clep := rfl
@[simp] theorem State.setBasin_reqs (b : Nat) (v : Basin) : (s.setBasin b v).reqs = s.reqs := rfl
@[simp] theorem State.setBasin_nextRid (b : Nat) (v : Basin) : (s.setBasin b v).nextRid = s.nextRid := rfl
@[simp] theorem State.setBasin_hwReq (b : Nat) (v : Basin) : (s.setBasin b v).hwReq = s.hwReq := rfl
@[simp] theorem State.setBasin_partsOut (b : Nat) (v : Basin) : (s.setBasin b v).partsOut = s.partsOut := rfl
@[simp] theorem State.setBasin_partsIn (b : Nat) (v : Basin) : (s.setBasin b v).partsIn = s.partsIn := rfl
@[simp] theorem State.setBasin_nextToken (b : Nat) (v : Basin) : (s.setBasin b v).nextToken = s.nextToken := rfl
@[simp] theorem State.setBasin_windows (b : Nat) (v : Basin) : (s.setBasin b v).windows = s.windows := rfl
@[simp] theorem State.setBasin_indexes (b : Nat) (v : Basin) : (s.setBasin b v).indexes = s.indexes := rfl
@[simp] theorem State.setBasin_slices (b : Nat) (v : Basin) : (s.setBasin b v).slices = s.slices := rfl
@[simp] theorem State.setBasin_host (b : Nat) (v : Basin) : (s.setBasin b v).host = s.host := rfl
@[simp] theorem State.setBasin_urdun (b : Nat) (v : Basin) : (s.setBasin b v).urdun = s.urdun := rfl
@[simp] theorem State.setBasin_points (b : Nat) (v : Basin) : (s.setBasin b v).points = s.points := rfl
@[simp] theorem State.setBasin_fabric (b : Nat) (v : Basin) : (s.setBasin b v).fabric = s.fabric := rfl
@[simp] theorem State.setBasin_progs (b : Nat) (v : Basin) : (s.setBasin b v).progs = s.progs := rfl
@[simp] theorem State.setBasin_hbm (b : Nat) (v : Basin) : (s.setBasin b v).hbm = s.hbm := rfl
@[simp] theorem State.setBasin_mem (b : Nat) (v : Basin) : (s.setBasin b v).mem = s.mem := rfl
@[simp] theorem State.setBasin_cist (b : Nat) (v : Basin) : (s.setBasin b v).cist = s.cist := rfl
@[simp] theorem State.setBasin_rst (b : Nat) (v : Basin) : (s.setBasin b v).rst = s.rst := rfl
@[simp] theorem State.setBasin_record (b : Nat) (v : Basin) : (s.setBasin b v).record = s.record := rfl
@[simp] theorem State.setBasin_keeper (b : Nat) (v : Basin) : (s.setBasin b v).keeper = s.keeper := rfl

/-! ### setIndex -/

@[simp] theorem State.setIndex_pending (i : Nat) (x : Index) : (s.setIndex i x).pending = s.pending := rfl
@[simp] theorem State.setIndex_free (i : Nat) (x : Index) : (s.setIndex i x).free = s.free := rfl
@[simp] theorem State.setIndex_out (i : Nat) (x : Index) : (s.setIndex i x).out = s.out := rfl
@[simp] theorem State.setIndex_regs (i : Nat) (x : Index) : (s.setIndex i x).regs = s.regs := rfl
@[simp] theorem State.setIndex_staged (i : Nat) (x : Index) : (s.setIndex i x).staged = s.staged := rfl
@[simp] theorem State.setIndex_commit (i : Nat) (x : Index) : (s.setIndex i x).commit = s.commit := rfl
@[simp] theorem State.setIndex_clep (i : Nat) (x : Index) : (s.setIndex i x).clep = s.clep := rfl
@[simp] theorem State.setIndex_reqs (i : Nat) (x : Index) : (s.setIndex i x).reqs = s.reqs := rfl
@[simp] theorem State.setIndex_nextRid (i : Nat) (x : Index) : (s.setIndex i x).nextRid = s.nextRid := rfl
@[simp] theorem State.setIndex_hwReq (i : Nat) (x : Index) : (s.setIndex i x).hwReq = s.hwReq := rfl
@[simp] theorem State.setIndex_partsOut (i : Nat) (x : Index) : (s.setIndex i x).partsOut = s.partsOut := rfl
@[simp] theorem State.setIndex_partsIn (i : Nat) (x : Index) : (s.setIndex i x).partsIn = s.partsIn := rfl
@[simp] theorem State.setIndex_nextToken (i : Nat) (x : Index) : (s.setIndex i x).nextToken = s.nextToken := rfl
@[simp] theorem State.setIndex_windows (i : Nat) (x : Index) : (s.setIndex i x).windows = s.windows := rfl
@[simp] theorem State.setIndex_slices (i : Nat) (x : Index) : (s.setIndex i x).slices = s.slices := rfl
@[simp] theorem State.setIndex_host (i : Nat) (x : Index) : (s.setIndex i x).host = s.host := rfl
@[simp] theorem State.setIndex_urdun (i : Nat) (x : Index) : (s.setIndex i x).urdun = s.urdun := rfl
@[simp] theorem State.setIndex_points (i : Nat) (x : Index) : (s.setIndex i x).points = s.points := rfl
@[simp] theorem State.setIndex_fabric (i : Nat) (x : Index) : (s.setIndex i x).fabric = s.fabric := rfl
@[simp] theorem State.setIndex_progs (i : Nat) (x : Index) : (s.setIndex i x).progs = s.progs := rfl
@[simp] theorem State.setIndex_hbm (i : Nat) (x : Index) : (s.setIndex i x).hbm = s.hbm := rfl
@[simp] theorem State.setIndex_mem (i : Nat) (x : Index) : (s.setIndex i x).mem = s.mem := rfl
@[simp] theorem State.setIndex_cist (i : Nat) (x : Index) : (s.setIndex i x).cist = s.cist := rfl
@[simp] theorem State.setIndex_rst (i : Nat) (x : Index) : (s.setIndex i x).rst = s.rst := rfl
@[simp] theorem State.setIndex_basins (i : Nat) (x : Index) : (s.setIndex i x).basins = s.basins := rfl
@[simp] theorem State.setIndex_record (i : Nat) (x : Index) : (s.setIndex i x).record = s.record := rfl
@[simp] theorem State.setIndex_keeper (i : Nat) (x : Index) : (s.setIndex i x).keeper = s.keeper := rfl

/-! ### setReq -/

@[simp] theorem State.setReq_pending (i : Nat) (r : Req) : (s.setReq i r).pending = s.pending := rfl
@[simp] theorem State.setReq_free (i : Nat) (r : Req) : (s.setReq i r).free = s.free := rfl
@[simp] theorem State.setReq_out (i : Nat) (r : Req) : (s.setReq i r).out = s.out := rfl
@[simp] theorem State.setReq_regs (i : Nat) (r : Req) : (s.setReq i r).regs = s.regs := rfl
@[simp] theorem State.setReq_staged (i : Nat) (r : Req) : (s.setReq i r).staged = s.staged := rfl
@[simp] theorem State.setReq_commit (i : Nat) (r : Req) : (s.setReq i r).commit = s.commit := rfl
@[simp] theorem State.setReq_clep (i : Nat) (r : Req) : (s.setReq i r).clep = s.clep := rfl
@[simp] theorem State.setReq_nextRid (i : Nat) (r : Req) : (s.setReq i r).nextRid = s.nextRid := rfl
@[simp] theorem State.setReq_hwReq (i : Nat) (r : Req) : (s.setReq i r).hwReq = s.hwReq := rfl
@[simp] theorem State.setReq_partsOut (i : Nat) (r : Req) : (s.setReq i r).partsOut = s.partsOut := rfl
@[simp] theorem State.setReq_partsIn (i : Nat) (r : Req) : (s.setReq i r).partsIn = s.partsIn := rfl
@[simp] theorem State.setReq_nextToken (i : Nat) (r : Req) : (s.setReq i r).nextToken = s.nextToken := rfl
@[simp] theorem State.setReq_windows (i : Nat) (r : Req) : (s.setReq i r).windows = s.windows := rfl
@[simp] theorem State.setReq_indexes (i : Nat) (r : Req) : (s.setReq i r).indexes = s.indexes := rfl
@[simp] theorem State.setReq_slices (i : Nat) (r : Req) : (s.setReq i r).slices = s.slices := rfl
@[simp] theorem State.setReq_host (i : Nat) (r : Req) : (s.setReq i r).host = s.host := rfl
@[simp] theorem State.setReq_urdun (i : Nat) (r : Req) : (s.setReq i r).urdun = s.urdun := rfl
@[simp] theorem State.setReq_points (i : Nat) (r : Req) : (s.setReq i r).points = s.points := rfl
@[simp] theorem State.setReq_fabric (i : Nat) (r : Req) : (s.setReq i r).fabric = s.fabric := rfl
@[simp] theorem State.setReq_progs (i : Nat) (r : Req) : (s.setReq i r).progs = s.progs := rfl
@[simp] theorem State.setReq_hbm (i : Nat) (r : Req) : (s.setReq i r).hbm = s.hbm := rfl
@[simp] theorem State.setReq_mem (i : Nat) (r : Req) : (s.setReq i r).mem = s.mem := rfl
@[simp] theorem State.setReq_cist (i : Nat) (r : Req) : (s.setReq i r).cist = s.cist := rfl
@[simp] theorem State.setReq_rst (i : Nat) (r : Req) : (s.setReq i r).rst = s.rst := rfl
@[simp] theorem State.setReq_basins (i : Nat) (r : Req) : (s.setReq i r).basins = s.basins := rfl
@[simp] theorem State.setReq_record (i : Nat) (r : Req) : (s.setReq i r).record = s.record := rfl
@[simp] theorem State.setReq_keeper (i : Nat) (r : Req) : (s.setReq i r).keeper = s.keeper := rfl

/-! ### modReq -/

@[simp] theorem State.modReq_pending (i : Nat) (f : Req → Req) : (s.modReq i f).pending = s.pending := rfl
@[simp] theorem State.modReq_free (i : Nat) (f : Req → Req) : (s.modReq i f).free = s.free := rfl
@[simp] theorem State.modReq_out (i : Nat) (f : Req → Req) : (s.modReq i f).out = s.out := rfl
@[simp] theorem State.modReq_regs (i : Nat) (f : Req → Req) : (s.modReq i f).regs = s.regs := rfl
@[simp] theorem State.modReq_staged (i : Nat) (f : Req → Req) : (s.modReq i f).staged = s.staged := rfl
@[simp] theorem State.modReq_commit (i : Nat) (f : Req → Req) : (s.modReq i f).commit = s.commit := rfl
@[simp] theorem State.modReq_clep (i : Nat) (f : Req → Req) : (s.modReq i f).clep = s.clep := rfl
@[simp] theorem State.modReq_nextRid (i : Nat) (f : Req → Req) : (s.modReq i f).nextRid = s.nextRid := rfl
@[simp] theorem State.modReq_hwReq (i : Nat) (f : Req → Req) : (s.modReq i f).hwReq = s.hwReq := rfl
@[simp] theorem State.modReq_partsOut (i : Nat) (f : Req → Req) : (s.modReq i f).partsOut = s.partsOut := rfl
@[simp] theorem State.modReq_partsIn (i : Nat) (f : Req → Req) : (s.modReq i f).partsIn = s.partsIn := rfl
@[simp] theorem State.modReq_nextToken (i : Nat) (f : Req → Req) : (s.modReq i f).nextToken = s.nextToken := rfl
@[simp] theorem State.modReq_windows (i : Nat) (f : Req → Req) : (s.modReq i f).windows = s.windows := rfl
@[simp] theorem State.modReq_indexes (i : Nat) (f : Req → Req) : (s.modReq i f).indexes = s.indexes := rfl
@[simp] theorem State.modReq_slices (i : Nat) (f : Req → Req) : (s.modReq i f).slices = s.slices := rfl
@[simp] theorem State.modReq_host (i : Nat) (f : Req → Req) : (s.modReq i f).host = s.host := rfl
@[simp] theorem State.modReq_urdun (i : Nat) (f : Req → Req) : (s.modReq i f).urdun = s.urdun := rfl
@[simp] theorem State.modReq_points (i : Nat) (f : Req → Req) : (s.modReq i f).points = s.points := rfl
@[simp] theorem State.modReq_fabric (i : Nat) (f : Req → Req) : (s.modReq i f).fabric = s.fabric := rfl
@[simp] theorem State.modReq_progs (i : Nat) (f : Req → Req) : (s.modReq i f).progs = s.progs := rfl
@[simp] theorem State.modReq_hbm (i : Nat) (f : Req → Req) : (s.modReq i f).hbm = s.hbm := rfl
@[simp] theorem State.modReq_mem (i : Nat) (f : Req → Req) : (s.modReq i f).mem = s.mem := rfl
@[simp] theorem State.modReq_cist (i : Nat) (f : Req → Req) : (s.modReq i f).cist = s.cist := rfl
@[simp] theorem State.modReq_rst (i : Nat) (f : Req → Req) : (s.modReq i f).rst = s.rst := rfl
@[simp] theorem State.modReq_basins (i : Nat) (f : Req → Req) : (s.modReq i f).basins = s.basins := rfl
@[simp] theorem State.modReq_record (i : Nat) (f : Req → Req) : (s.modReq i f).record = s.record := rfl
@[simp] theorem State.modReq_keeper (i : Nat) (f : Req → Req) : (s.modReq i f).keeper = s.keeper := rfl

/-! ### setStack -/

@[simp] theorem State.setStack_pending (k : Nat) (v : Stack) : (s.setStack k v).pending = s.pending := rfl
@[simp] theorem State.setStack_free (k : Nat) (v : Stack) : (s.setStack k v).free = s.free := rfl
@[simp] theorem State.setStack_out (k : Nat) (v : Stack) : (s.setStack k v).out = s.out := rfl
@[simp] theorem State.setStack_regs (k : Nat) (v : Stack) : (s.setStack k v).regs = s.regs := rfl
@[simp] theorem State.setStack_staged (k : Nat) (v : Stack) : (s.setStack k v).staged = s.staged := rfl
@[simp] theorem State.setStack_commit (k : Nat) (v : Stack) : (s.setStack k v).commit = s.commit := rfl
@[simp] theorem State.setStack_clep (k : Nat) (v : Stack) : (s.setStack k v).clep = s.clep := rfl
@[simp] theorem State.setStack_reqs (k : Nat) (v : Stack) : (s.setStack k v).reqs = s.reqs := rfl
@[simp] theorem State.setStack_nextRid (k : Nat) (v : Stack) : (s.setStack k v).nextRid = s.nextRid := rfl
@[simp] theorem State.setStack_hwReq (k : Nat) (v : Stack) : (s.setStack k v).hwReq = s.hwReq := rfl
@[simp] theorem State.setStack_partsOut (k : Nat) (v : Stack) : (s.setStack k v).partsOut = s.partsOut := rfl
@[simp] theorem State.setStack_partsIn (k : Nat) (v : Stack) : (s.setStack k v).partsIn = s.partsIn := rfl
@[simp] theorem State.setStack_nextToken (k : Nat) (v : Stack) : (s.setStack k v).nextToken = s.nextToken := rfl
@[simp] theorem State.setStack_windows (k : Nat) (v : Stack) : (s.setStack k v).windows = s.windows := rfl
@[simp] theorem State.setStack_indexes (k : Nat) (v : Stack) : (s.setStack k v).indexes = s.indexes := rfl
@[simp] theorem State.setStack_slices (k : Nat) (v : Stack) : (s.setStack k v).slices = s.slices := rfl
@[simp] theorem State.setStack_host (k : Nat) (v : Stack) : (s.setStack k v).host = s.host := rfl
@[simp] theorem State.setStack_urdun (k : Nat) (v : Stack) : (s.setStack k v).urdun = s.urdun := rfl
@[simp] theorem State.setStack_points (k : Nat) (v : Stack) : (s.setStack k v).points = s.points := rfl
@[simp] theorem State.setStack_fabric (k : Nat) (v : Stack) : (s.setStack k v).fabric = s.fabric := rfl
@[simp] theorem State.setStack_progs (k : Nat) (v : Stack) : (s.setStack k v).progs = s.progs := rfl
@[simp] theorem State.setStack_mem (k : Nat) (v : Stack) : (s.setStack k v).mem = s.mem := rfl
@[simp] theorem State.setStack_cist (k : Nat) (v : Stack) : (s.setStack k v).cist = s.cist := rfl
@[simp] theorem State.setStack_rst (k : Nat) (v : Stack) : (s.setStack k v).rst = s.rst := rfl
@[simp] theorem State.setStack_basins (k : Nat) (v : Stack) : (s.setStack k v).basins = s.basins := rfl
@[simp] theorem State.setStack_record (k : Nat) (v : Stack) : (s.setStack k v).record = s.record := rfl
@[simp] theorem State.setStack_keeper (k : Nat) (v : Stack) : (s.setStack k v).keeper = s.keeper := rfl

/-! ### setPoint -/

@[simp] theorem State.setPoint_pending (k : Nat) (v : SPoint) : (s.setPoint k v).pending = s.pending := rfl
@[simp] theorem State.setPoint_free (k : Nat) (v : SPoint) : (s.setPoint k v).free = s.free := rfl
@[simp] theorem State.setPoint_out (k : Nat) (v : SPoint) : (s.setPoint k v).out = s.out := rfl
@[simp] theorem State.setPoint_regs (k : Nat) (v : SPoint) : (s.setPoint k v).regs = s.regs := rfl
@[simp] theorem State.setPoint_staged (k : Nat) (v : SPoint) : (s.setPoint k v).staged = s.staged := rfl
@[simp] theorem State.setPoint_commit (k : Nat) (v : SPoint) : (s.setPoint k v).commit = s.commit := rfl
@[simp] theorem State.setPoint_clep (k : Nat) (v : SPoint) : (s.setPoint k v).clep = s.clep := rfl
@[simp] theorem State.setPoint_reqs (k : Nat) (v : SPoint) : (s.setPoint k v).reqs = s.reqs := rfl
@[simp] theorem State.setPoint_nextRid (k : Nat) (v : SPoint) : (s.setPoint k v).nextRid = s.nextRid := rfl
@[simp] theorem State.setPoint_hwReq (k : Nat) (v : SPoint) : (s.setPoint k v).hwReq = s.hwReq := rfl
@[simp] theorem State.setPoint_partsOut (k : Nat) (v : SPoint) : (s.setPoint k v).partsOut = s.partsOut := rfl
@[simp] theorem State.setPoint_partsIn (k : Nat) (v : SPoint) : (s.setPoint k v).partsIn = s.partsIn := rfl
@[simp] theorem State.setPoint_nextToken (k : Nat) (v : SPoint) : (s.setPoint k v).nextToken = s.nextToken := rfl
@[simp] theorem State.setPoint_windows (k : Nat) (v : SPoint) : (s.setPoint k v).windows = s.windows := rfl
@[simp] theorem State.setPoint_indexes (k : Nat) (v : SPoint) : (s.setPoint k v).indexes = s.indexes := rfl
@[simp] theorem State.setPoint_slices (k : Nat) (v : SPoint) : (s.setPoint k v).slices = s.slices := rfl
@[simp] theorem State.setPoint_host (k : Nat) (v : SPoint) : (s.setPoint k v).host = s.host := rfl
@[simp] theorem State.setPoint_urdun (k : Nat) (v : SPoint) : (s.setPoint k v).urdun = s.urdun := rfl
@[simp] theorem State.setPoint_fabric (k : Nat) (v : SPoint) : (s.setPoint k v).fabric = s.fabric := rfl
@[simp] theorem State.setPoint_progs (k : Nat) (v : SPoint) : (s.setPoint k v).progs = s.progs := rfl
@[simp] theorem State.setPoint_hbm (k : Nat) (v : SPoint) : (s.setPoint k v).hbm = s.hbm := rfl
@[simp] theorem State.setPoint_mem (k : Nat) (v : SPoint) : (s.setPoint k v).mem = s.mem := rfl
@[simp] theorem State.setPoint_cist (k : Nat) (v : SPoint) : (s.setPoint k v).cist = s.cist := rfl
@[simp] theorem State.setPoint_rst (k : Nat) (v : SPoint) : (s.setPoint k v).rst = s.rst := rfl
@[simp] theorem State.setPoint_basins (k : Nat) (v : SPoint) : (s.setPoint k v).basins = s.basins := rfl
@[simp] theorem State.setPoint_record (k : Nat) (v : SPoint) : (s.setPoint k v).record = s.record := rfl
@[simp] theorem State.setPoint_keeper (k : Nat) (v : SPoint) : (s.setPoint k v).keeper = s.keeper := rfl

/-! ### setPort -/

@[simp] theorem State.setPort_pending (k : Nat) (v : UPort) : (s.setPort k v).pending = s.pending := rfl
@[simp] theorem State.setPort_free (k : Nat) (v : UPort) : (s.setPort k v).free = s.free := rfl
@[simp] theorem State.setPort_out (k : Nat) (v : UPort) : (s.setPort k v).out = s.out := rfl
@[simp] theorem State.setPort_regs (k : Nat) (v : UPort) : (s.setPort k v).regs = s.regs := rfl
@[simp] theorem State.setPort_staged (k : Nat) (v : UPort) : (s.setPort k v).staged = s.staged := rfl
@[simp] theorem State.setPort_commit (k : Nat) (v : UPort) : (s.setPort k v).commit = s.commit := rfl
@[simp] theorem State.setPort_clep (k : Nat) (v : UPort) : (s.setPort k v).clep = s.clep := rfl
@[simp] theorem State.setPort_reqs (k : Nat) (v : UPort) : (s.setPort k v).reqs = s.reqs := rfl
@[simp] theorem State.setPort_nextRid (k : Nat) (v : UPort) : (s.setPort k v).nextRid = s.nextRid := rfl
@[simp] theorem State.setPort_hwReq (k : Nat) (v : UPort) : (s.setPort k v).hwReq = s.hwReq := rfl
@[simp] theorem State.setPort_partsOut (k : Nat) (v : UPort) : (s.setPort k v).partsOut = s.partsOut := rfl
@[simp] theorem State.setPort_partsIn (k : Nat) (v : UPort) : (s.setPort k v).partsIn = s.partsIn := rfl
@[simp] theorem State.setPort_nextToken (k : Nat) (v : UPort) : (s.setPort k v).nextToken = s.nextToken := rfl
@[simp] theorem State.setPort_windows (k : Nat) (v : UPort) : (s.setPort k v).windows = s.windows := rfl
@[simp] theorem State.setPort_indexes (k : Nat) (v : UPort) : (s.setPort k v).indexes = s.indexes := rfl
@[simp] theorem State.setPort_slices (k : Nat) (v : UPort) : (s.setPort k v).slices = s.slices := rfl
@[simp] theorem State.setPort_host (k : Nat) (v : UPort) : (s.setPort k v).host = s.host := rfl
@[simp] theorem State.setPort_points (k : Nat) (v : UPort) : (s.setPort k v).points = s.points := rfl
@[simp] theorem State.setPort_fabric (k : Nat) (v : UPort) : (s.setPort k v).fabric = s.fabric := rfl
@[simp] theorem State.setPort_progs (k : Nat) (v : UPort) : (s.setPort k v).progs = s.progs := rfl
@[simp] theorem State.setPort_hbm (k : Nat) (v : UPort) : (s.setPort k v).hbm = s.hbm := rfl
@[simp] theorem State.setPort_mem (k : Nat) (v : UPort) : (s.setPort k v).mem = s.mem := rfl
@[simp] theorem State.setPort_cist (k : Nat) (v : UPort) : (s.setPort k v).cist = s.cist := rfl
@[simp] theorem State.setPort_rst (k : Nat) (v : UPort) : (s.setPort k v).rst = s.rst := rfl
@[simp] theorem State.setPort_basins (k : Nat) (v : UPort) : (s.setPort k v).basins = s.basins := rfl
@[simp] theorem State.setPort_record (k : Nat) (v : UPort) : (s.setPort k v).record = s.record := rfl
@[simp] theorem State.setPort_keeper (k : Nat) (v : UPort) : (s.setPort k v).keeper = s.keeper := rfl

/-! ### setLane -/

@[simp] theorem State.setLane_pending (k : Nat) (v : Lane) : (s.setLane k v).pending = s.pending := rfl
@[simp] theorem State.setLane_free (k : Nat) (v : Lane) : (s.setLane k v).free = s.free := rfl
@[simp] theorem State.setLane_out (k : Nat) (v : Lane) : (s.setLane k v).out = s.out := rfl
@[simp] theorem State.setLane_regs (k : Nat) (v : Lane) : (s.setLane k v).regs = s.regs := rfl
@[simp] theorem State.setLane_staged (k : Nat) (v : Lane) : (s.setLane k v).staged = s.staged := rfl
@[simp] theorem State.setLane_commit (k : Nat) (v : Lane) : (s.setLane k v).commit = s.commit := rfl
@[simp] theorem State.setLane_clep (k : Nat) (v : Lane) : (s.setLane k v).clep = s.clep := rfl
@[simp] theorem State.setLane_reqs (k : Nat) (v : Lane) : (s.setLane k v).reqs = s.reqs := rfl
@[simp] theorem State.setLane_nextRid (k : Nat) (v : Lane) : (s.setLane k v).nextRid = s.nextRid := rfl
@[simp] theorem State.setLane_hwReq (k : Nat) (v : Lane) : (s.setLane k v).hwReq = s.hwReq := rfl
@[simp] theorem State.setLane_partsOut (k : Nat) (v : Lane) : (s.setLane k v).partsOut = s.partsOut := rfl
@[simp] theorem State.setLane_partsIn (k : Nat) (v : Lane) : (s.setLane k v).partsIn = s.partsIn := rfl
@[simp] theorem State.setLane_nextToken (k : Nat) (v : Lane) : (s.setLane k v).nextToken = s.nextToken := rfl
@[simp] theorem State.setLane_windows (k : Nat) (v : Lane) : (s.setLane k v).windows = s.windows := rfl
@[simp] theorem State.setLane_indexes (k : Nat) (v : Lane) : (s.setLane k v).indexes = s.indexes := rfl
@[simp] theorem State.setLane_slices (k : Nat) (v : Lane) : (s.setLane k v).slices = s.slices := rfl
@[simp] theorem State.setLane_host (k : Nat) (v : Lane) : (s.setLane k v).host = s.host := rfl
@[simp] theorem State.setLane_points (k : Nat) (v : Lane) : (s.setLane k v).points = s.points := rfl
@[simp] theorem State.setLane_fabric (k : Nat) (v : Lane) : (s.setLane k v).fabric = s.fabric := rfl
@[simp] theorem State.setLane_progs (k : Nat) (v : Lane) : (s.setLane k v).progs = s.progs := rfl
@[simp] theorem State.setLane_hbm (k : Nat) (v : Lane) : (s.setLane k v).hbm = s.hbm := rfl
@[simp] theorem State.setLane_mem (k : Nat) (v : Lane) : (s.setLane k v).mem = s.mem := rfl
@[simp] theorem State.setLane_cist (k : Nat) (v : Lane) : (s.setLane k v).cist = s.cist := rfl
@[simp] theorem State.setLane_rst (k : Nat) (v : Lane) : (s.setLane k v).rst = s.rst := rfl
@[simp] theorem State.setLane_basins (k : Nat) (v : Lane) : (s.setLane k v).basins = s.basins := rfl
@[simp] theorem State.setLane_record (k : Nat) (v : Lane) : (s.setLane k v).record = s.record := rfl
@[simp] theorem State.setLane_keeper (k : Nat) (v : Lane) : (s.setLane k v).keeper = s.keeper := rfl

/-! ### setLun -/

@[simp] theorem State.setLun_pending (k : Nat) (v : Lun) : (s.setLun k v).pending = s.pending := rfl
@[simp] theorem State.setLun_free (k : Nat) (v : Lun) : (s.setLun k v).free = s.free := rfl
@[simp] theorem State.setLun_out (k : Nat) (v : Lun) : (s.setLun k v).out = s.out := rfl
@[simp] theorem State.setLun_regs (k : Nat) (v : Lun) : (s.setLun k v).regs = s.regs := rfl
@[simp] theorem State.setLun_staged (k : Nat) (v : Lun) : (s.setLun k v).staged = s.staged := rfl
@[simp] theorem State.setLun_commit (k : Nat) (v : Lun) : (s.setLun k v).commit = s.commit := rfl
@[simp] theorem State.setLun_clep (k : Nat) (v : Lun) : (s.setLun k v).clep = s.clep := rfl
@[simp] theorem State.setLun_reqs (k : Nat) (v : Lun) : (s.setLun k v).reqs = s.reqs := rfl
@[simp] theorem State.setLun_nextRid (k : Nat) (v : Lun) : (s.setLun k v).nextRid = s.nextRid := rfl
@[simp] theorem State.setLun_hwReq (k : Nat) (v : Lun) : (s.setLun k v).hwReq = s.hwReq := rfl
@[simp] theorem State.setLun_partsOut (k : Nat) (v : Lun) : (s.setLun k v).partsOut = s.partsOut := rfl
@[simp] theorem State.setLun_partsIn (k : Nat) (v : Lun) : (s.setLun k v).partsIn = s.partsIn := rfl
@[simp] theorem State.setLun_nextToken (k : Nat) (v : Lun) : (s.setLun k v).nextToken = s.nextToken := rfl
@[simp] theorem State.setLun_windows (k : Nat) (v : Lun) : (s.setLun k v).windows = s.windows := rfl
@[simp] theorem State.setLun_indexes (k : Nat) (v : Lun) : (s.setLun k v).indexes = s.indexes := rfl
@[simp] theorem State.setLun_slices (k : Nat) (v : Lun) : (s.setLun k v).slices = s.slices := rfl
@[simp] theorem State.setLun_host (k : Nat) (v : Lun) : (s.setLun k v).host = s.host := rfl
@[simp] theorem State.setLun_urdun (k : Nat) (v : Lun) : (s.setLun k v).urdun = s.urdun := rfl
@[simp] theorem State.setLun_points (k : Nat) (v : Lun) : (s.setLun k v).points = s.points := rfl
@[simp] theorem State.setLun_fabric (k : Nat) (v : Lun) : (s.setLun k v).fabric = s.fabric := rfl
@[simp] theorem State.setLun_progs (k : Nat) (v : Lun) : (s.setLun k v).progs = s.progs := rfl
@[simp] theorem State.setLun_hbm (k : Nat) (v : Lun) : (s.setLun k v).hbm = s.hbm := rfl
@[simp] theorem State.setLun_mem (k : Nat) (v : Lun) : (s.setLun k v).mem = s.mem := rfl
@[simp] theorem State.setLun_rst (k : Nat) (v : Lun) : (s.setLun k v).rst = s.rst := rfl
@[simp] theorem State.setLun_basins (k : Nat) (v : Lun) : (s.setLun k v).basins = s.basins := rfl
@[simp] theorem State.setLun_record (k : Nat) (v : Lun) : (s.setLun k v).record = s.record := rfl
@[simp] theorem State.setLun_keeper (k : Nat) (v : Lun) : (s.setLun k v).keeper = s.keeper := rfl

/-! ### setRegion -/

@[simp] theorem State.setRegion_pending (k : Nat) (v : Region) : (s.setRegion k v).pending = s.pending := rfl
@[simp] theorem State.setRegion_free (k : Nat) (v : Region) : (s.setRegion k v).free = s.free := rfl
@[simp] theorem State.setRegion_out (k : Nat) (v : Region) : (s.setRegion k v).out = s.out := rfl
@[simp] theorem State.setRegion_regs (k : Nat) (v : Region) : (s.setRegion k v).regs = s.regs := rfl
@[simp] theorem State.setRegion_staged (k : Nat) (v : Region) : (s.setRegion k v).staged = s.staged := rfl
@[simp] theorem State.setRegion_commit (k : Nat) (v : Region) : (s.setRegion k v).commit = s.commit := rfl
@[simp] theorem State.setRegion_clep (k : Nat) (v : Region) : (s.setRegion k v).clep = s.clep := rfl
@[simp] theorem State.setRegion_reqs (k : Nat) (v : Region) : (s.setRegion k v).reqs = s.reqs := rfl
@[simp] theorem State.setRegion_nextRid (k : Nat) (v : Region) : (s.setRegion k v).nextRid = s.nextRid := rfl
@[simp] theorem State.setRegion_hwReq (k : Nat) (v : Region) : (s.setRegion k v).hwReq = s.hwReq := rfl
@[simp] theorem State.setRegion_partsOut (k : Nat) (v : Region) : (s.setRegion k v).partsOut = s.partsOut := rfl
@[simp] theorem State.setRegion_partsIn (k : Nat) (v : Region) : (s.setRegion k v).partsIn = s.partsIn := rfl
@[simp] theorem State.setRegion_nextToken (k : Nat) (v : Region) : (s.setRegion k v).nextToken = s.nextToken := rfl
@[simp] theorem State.setRegion_windows (k : Nat) (v : Region) : (s.setRegion k v).windows = s.windows := rfl
@[simp] theorem State.setRegion_indexes (k : Nat) (v : Region) : (s.setRegion k v).indexes = s.indexes := rfl
@[simp] theorem State.setRegion_slices (k : Nat) (v : Region) : (s.setRegion k v).slices = s.slices := rfl
@[simp] theorem State.setRegion_host (k : Nat) (v : Region) : (s.setRegion k v).host = s.host := rfl
@[simp] theorem State.setRegion_urdun (k : Nat) (v : Region) : (s.setRegion k v).urdun = s.urdun := rfl
@[simp] theorem State.setRegion_points (k : Nat) (v : Region) : (s.setRegion k v).points = s.points := rfl
@[simp] theorem State.setRegion_fabric (k : Nat) (v : Region) : (s.setRegion k v).fabric = s.fabric := rfl
@[simp] theorem State.setRegion_progs (k : Nat) (v : Region) : (s.setRegion k v).progs = s.progs := rfl
@[simp] theorem State.setRegion_hbm (k : Nat) (v : Region) : (s.setRegion k v).hbm = s.hbm := rfl
@[simp] theorem State.setRegion_mem (k : Nat) (v : Region) : (s.setRegion k v).mem = s.mem := rfl
@[simp] theorem State.setRegion_cist (k : Nat) (v : Region) : (s.setRegion k v).cist = s.cist := rfl
@[simp] theorem State.setRegion_rst (k : Nat) (v : Region) : (s.setRegion k v).rst = s.rst := rfl
@[simp] theorem State.setRegion_basins (k : Nat) (v : Region) : (s.setRegion k v).basins = s.basins := rfl
@[simp] theorem State.setRegion_record (k : Nat) (v : Region) : (s.setRegion k v).record = s.record := rfl

/-! ### setProg -/

@[simp] theorem State.setProg_pending (k : Nat) (v : ProgSlot) : (s.setProg k v).pending = s.pending := rfl
@[simp] theorem State.setProg_free (k : Nat) (v : ProgSlot) : (s.setProg k v).free = s.free := rfl
@[simp] theorem State.setProg_out (k : Nat) (v : ProgSlot) : (s.setProg k v).out = s.out := rfl
@[simp] theorem State.setProg_regs (k : Nat) (v : ProgSlot) : (s.setProg k v).regs = s.regs := rfl
@[simp] theorem State.setProg_staged (k : Nat) (v : ProgSlot) : (s.setProg k v).staged = s.staged := rfl
@[simp] theorem State.setProg_commit (k : Nat) (v : ProgSlot) : (s.setProg k v).commit = s.commit := rfl
@[simp] theorem State.setProg_clep (k : Nat) (v : ProgSlot) : (s.setProg k v).clep = s.clep := rfl
@[simp] theorem State.setProg_reqs (k : Nat) (v : ProgSlot) : (s.setProg k v).reqs = s.reqs := rfl
@[simp] theorem State.setProg_nextRid (k : Nat) (v : ProgSlot) : (s.setProg k v).nextRid = s.nextRid := rfl
@[simp] theorem State.setProg_hwReq (k : Nat) (v : ProgSlot) : (s.setProg k v).hwReq = s.hwReq := rfl
@[simp] theorem State.setProg_partsOut (k : Nat) (v : ProgSlot) : (s.setProg k v).partsOut = s.partsOut := rfl
@[simp] theorem State.setProg_partsIn (k : Nat) (v : ProgSlot) : (s.setProg k v).partsIn = s.partsIn := rfl
@[simp] theorem State.setProg_nextToken (k : Nat) (v : ProgSlot) : (s.setProg k v).nextToken = s.nextToken := rfl
@[simp] theorem State.setProg_windows (k : Nat) (v : ProgSlot) : (s.setProg k v).windows = s.windows := rfl
@[simp] theorem State.setProg_indexes (k : Nat) (v : ProgSlot) : (s.setProg k v).indexes = s.indexes := rfl
@[simp] theorem State.setProg_slices (k : Nat) (v : ProgSlot) : (s.setProg k v).slices = s.slices := rfl
@[simp] theorem State.setProg_host (k : Nat) (v : ProgSlot) : (s.setProg k v).host = s.host := rfl
@[simp] theorem State.setProg_urdun (k : Nat) (v : ProgSlot) : (s.setProg k v).urdun = s.urdun := rfl
@[simp] theorem State.setProg_points (k : Nat) (v : ProgSlot) : (s.setProg k v).points = s.points := rfl
@[simp] theorem State.setProg_fabric (k : Nat) (v : ProgSlot) : (s.setProg k v).fabric = s.fabric := rfl
@[simp] theorem State.setProg_hbm (k : Nat) (v : ProgSlot) : (s.setProg k v).hbm = s.hbm := rfl
@[simp] theorem State.setProg_mem (k : Nat) (v : ProgSlot) : (s.setProg k v).mem = s.mem := rfl
@[simp] theorem State.setProg_cist (k : Nat) (v : ProgSlot) : (s.setProg k v).cist = s.cist := rfl
@[simp] theorem State.setProg_rst (k : Nat) (v : ProgSlot) : (s.setProg k v).rst = s.rst := rfl
@[simp] theorem State.setProg_basins (k : Nat) (v : ProgSlot) : (s.setProg k v).basins = s.basins := rfl
@[simp] theorem State.setProg_record (k : Nat) (v : ProgSlot) : (s.setProg k v).record = s.record := rfl
@[simp] theorem State.setProg_keeper (k : Nat) (v : ProgSlot) : (s.setProg k v).keeper = s.keeper := rfl

/-! ### withClep -/

@[simp] theorem State.withClep_pending (c : Clep) : (s.withClep c).pending = s.pending := rfl
@[simp] theorem State.withClep_free (c : Clep) : (s.withClep c).free = s.free := rfl
@[simp] theorem State.withClep_out (c : Clep) : (s.withClep c).out = s.out := rfl
@[simp] theorem State.withClep_regs (c : Clep) : (s.withClep c).regs = s.regs := rfl
@[simp] theorem State.withClep_staged (c : Clep) : (s.withClep c).staged = s.staged := rfl
@[simp] theorem State.withClep_commit (c : Clep) : (s.withClep c).commit = s.commit := rfl
@[simp] theorem State.withClep_reqs (c : Clep) : (s.withClep c).reqs = s.reqs := rfl
@[simp] theorem State.withClep_nextRid (c : Clep) : (s.withClep c).nextRid = s.nextRid := rfl
@[simp] theorem State.withClep_hwReq (c : Clep) : (s.withClep c).hwReq = s.hwReq := rfl
@[simp] theorem State.withClep_partsOut (c : Clep) : (s.withClep c).partsOut = s.partsOut := rfl
@[simp] theorem State.withClep_partsIn (c : Clep) : (s.withClep c).partsIn = s.partsIn := rfl
@[simp] theorem State.withClep_nextToken (c : Clep) : (s.withClep c).nextToken = s.nextToken := rfl
@[simp] theorem State.withClep_windows (c : Clep) : (s.withClep c).windows = s.windows := rfl
@[simp] theorem State.withClep_indexes (c : Clep) : (s.withClep c).indexes = s.indexes := rfl
@[simp] theorem State.withClep_slices (c : Clep) : (s.withClep c).slices = s.slices := rfl
@[simp] theorem State.withClep_host (c : Clep) : (s.withClep c).host = s.host := rfl
@[simp] theorem State.withClep_urdun (c : Clep) : (s.withClep c).urdun = s.urdun := rfl
@[simp] theorem State.withClep_points (c : Clep) : (s.withClep c).points = s.points := rfl
@[simp] theorem State.withClep_fabric (c : Clep) : (s.withClep c).fabric = s.fabric := rfl
@[simp] theorem State.withClep_progs (c : Clep) : (s.withClep c).progs = s.progs := rfl
@[simp] theorem State.withClep_hbm (c : Clep) : (s.withClep c).hbm = s.hbm := rfl
@[simp] theorem State.withClep_mem (c : Clep) : (s.withClep c).mem = s.mem := rfl
@[simp] theorem State.withClep_cist (c : Clep) : (s.withClep c).cist = s.cist := rfl
@[simp] theorem State.withClep_rst (c : Clep) : (s.withClep c).rst = s.rst := rfl
@[simp] theorem State.withClep_basins (c : Clep) : (s.withClep c).basins = s.basins := rfl
@[simp] theorem State.withClep_record (c : Clep) : (s.withClep c).record = s.record := rfl
@[simp] theorem State.withClep_keeper (c : Clep) : (s.withClep c).keeper = s.keeper := rfl

/-! ### withKeeper -/

@[simp] theorem State.withKeeper_pending (k : Keeper) : (s.withKeeper k).pending = s.pending := rfl
@[simp] theorem State.withKeeper_free (k : Keeper) : (s.withKeeper k).free = s.free := rfl
@[simp] theorem State.withKeeper_out (k : Keeper) : (s.withKeeper k).out = s.out := rfl
@[simp] theorem State.withKeeper_regs (k : Keeper) : (s.withKeeper k).regs = s.regs := rfl
@[simp] theorem State.withKeeper_staged (k : Keeper) : (s.withKeeper k).staged = s.staged := rfl
@[simp] theorem State.withKeeper_commit (k : Keeper) : (s.withKeeper k).commit = s.commit := rfl
@[simp] theorem State.withKeeper_clep (k : Keeper) : (s.withKeeper k).clep = s.clep := rfl
@[simp] theorem State.withKeeper_reqs (k : Keeper) : (s.withKeeper k).reqs = s.reqs := rfl
@[simp] theorem State.withKeeper_nextRid (k : Keeper) : (s.withKeeper k).nextRid = s.nextRid := rfl
@[simp] theorem State.withKeeper_hwReq (k : Keeper) : (s.withKeeper k).hwReq = s.hwReq := rfl
@[simp] theorem State.withKeeper_partsOut (k : Keeper) : (s.withKeeper k).partsOut = s.partsOut := rfl
@[simp] theorem State.withKeeper_partsIn (k : Keeper) : (s.withKeeper k).partsIn = s.partsIn := rfl
@[simp] theorem State.withKeeper_nextToken (k : Keeper) : (s.withKeeper k).nextToken = s.nextToken := rfl
@[simp] theorem State.withKeeper_windows (k : Keeper) : (s.withKeeper k).windows = s.windows := rfl
@[simp] theorem State.withKeeper_indexes (k : Keeper) : (s.withKeeper k).indexes = s.indexes := rfl
@[simp] theorem State.withKeeper_slices (k : Keeper) : (s.withKeeper k).slices = s.slices := rfl
@[simp] theorem State.withKeeper_host (k : Keeper) : (s.withKeeper k).host = s.host := rfl
@[simp] theorem State.withKeeper_urdun (k : Keeper) : (s.withKeeper k).urdun = s.urdun := rfl
@[simp] theorem State.withKeeper_points (k : Keeper) : (s.withKeeper k).points = s.points := rfl
@[simp] theorem State.withKeeper_fabric (k : Keeper) : (s.withKeeper k).fabric = s.fabric := rfl
@[simp] theorem State.withKeeper_progs (k : Keeper) : (s.withKeeper k).progs = s.progs := rfl
@[simp] theorem State.withKeeper_hbm (k : Keeper) : (s.withKeeper k).hbm = s.hbm := rfl
@[simp] theorem State.withKeeper_mem (k : Keeper) : (s.withKeeper k).mem = s.mem := rfl
@[simp] theorem State.withKeeper_cist (k : Keeper) : (s.withKeeper k).cist = s.cist := rfl
@[simp] theorem State.withKeeper_rst (k : Keeper) : (s.withKeeper k).rst = s.rst := rfl
@[simp] theorem State.withKeeper_basins (k : Keeper) : (s.withKeeper k).basins = s.basins := rfl
@[simp] theorem State.withKeeper_record (k : Keeper) : (s.withKeeper k).record = s.record := rfl

@[simp] theorem State.withClep_clep (c : Clep) : (s.withClep c).clep = c := rfl
@[simp] theorem State.withKeeper_keeper (k : Keeper) : (s.withKeeper k).keeper = k := rfl
@[simp] theorem State.emit_out (o : Out) : (s.emit o).out = s.out ++ [o] := rfl
@[simp] theorem State.emits_out (o : List Out) : (s.emits o).out = s.out ++ o := rfl
@[simp] theorem State.takeFree_val (w : Nat) : (s.takeFree w).1 = Config.freeValue w s.free := rfl
@[simp] theorem State.takeFree_free (w : Nat) : (s.takeFree w).2.free = s.free + 1 := rfl

@[simp] theorem State.takeFree_pending (w : Nat) : (s.takeFree w).2.pending = s.pending := rfl
@[simp] theorem State.takeFree_out (w : Nat) : (s.takeFree w).2.out = s.out := rfl
@[simp] theorem State.takeFree_regs (w : Nat) : (s.takeFree w).2.regs = s.regs := rfl
@[simp] theorem State.takeFree_staged (w : Nat) : (s.takeFree w).2.staged = s.staged := rfl
@[simp] theorem State.takeFree_commit (w : Nat) : (s.takeFree w).2.commit = s.commit := rfl
@[simp] theorem State.takeFree_clep (w : Nat) : (s.takeFree w).2.clep = s.clep := rfl
@[simp] theorem State.takeFree_reqs (w : Nat) : (s.takeFree w).2.reqs = s.reqs := rfl
@[simp] theorem State.takeFree_nextRid (w : Nat) : (s.takeFree w).2.nextRid = s.nextRid := rfl
@[simp] theorem State.takeFree_hwReq (w : Nat) : (s.takeFree w).2.hwReq = s.hwReq := rfl
@[simp] theorem State.takeFree_partsOut (w : Nat) : (s.takeFree w).2.partsOut = s.partsOut := rfl
@[simp] theorem State.takeFree_partsIn (w : Nat) : (s.takeFree w).2.partsIn = s.partsIn := rfl
@[simp] theorem State.takeFree_nextToken (w : Nat) : (s.takeFree w).2.nextToken = s.nextToken := rfl
@[simp] theorem State.takeFree_windows (w : Nat) : (s.takeFree w).2.windows = s.windows := rfl
@[simp] theorem State.takeFree_indexes (w : Nat) : (s.takeFree w).2.indexes = s.indexes := rfl
@[simp] theorem State.takeFree_slices (w : Nat) : (s.takeFree w).2.slices = s.slices := rfl
@[simp] theorem State.takeFree_host (w : Nat) : (s.takeFree w).2.host = s.host := rfl
@[simp] theorem State.takeFree_urdun (w : Nat) : (s.takeFree w).2.urdun = s.urdun := rfl
@[simp] theorem State.takeFree_points (w : Nat) : (s.takeFree w).2.points = s.points := rfl
@[simp] theorem State.takeFree_fabric (w : Nat) : (s.takeFree w).2.fabric = s.fabric := rfl
@[simp] theorem State.takeFree_progs (w : Nat) : (s.takeFree w).2.progs = s.progs := rfl
@[simp] theorem State.takeFree_hbm (w : Nat) : (s.takeFree w).2.hbm = s.hbm := rfl
@[simp] theorem State.takeFree_mem (w : Nat) : (s.takeFree w).2.mem = s.mem := rfl
@[simp] theorem State.takeFree_cist (w : Nat) : (s.takeFree w).2.cist = s.cist := rfl
@[simp] theorem State.takeFree_rst (w : Nat) : (s.takeFree w).2.rst = s.rst := rfl
@[simp] theorem State.takeFree_basins (w : Nat) : (s.takeFree w).2.basins = s.basins := rfl
@[simp] theorem State.takeFree_record (w : Nat) : (s.takeFree w).2.record = s.record := rfl
@[simp] theorem State.takeFree_keeper (w : Nat) : (s.takeFree w).2.keeper = s.keeper := rfl

/-! ### setRill -/

@[simp] theorem State.setRill_pending (k : Nat) (v : Rill) : (s.setRill k v).pending = s.pending := rfl
@[simp] theorem State.setRill_free (k : Nat) (v : Rill) : (s.setRill k v).free = s.free := rfl
@[simp] theorem State.setRill_out (k : Nat) (v : Rill) : (s.setRill k v).out = s.out := rfl
@[simp] theorem State.setRill_regs (k : Nat) (v : Rill) : (s.setRill k v).regs = s.regs := rfl
@[simp] theorem State.setRill_staged (k : Nat) (v : Rill) : (s.setRill k v).staged = s.staged := rfl
@[simp] theorem State.setRill_commit (k : Nat) (v : Rill) : (s.setRill k v).commit = s.commit := rfl
@[simp] theorem State.setRill_clep (k : Nat) (v : Rill) : (s.setRill k v).clep = s.clep := rfl
@[simp] theorem State.setRill_reqs (k : Nat) (v : Rill) : (s.setRill k v).reqs = s.reqs := rfl
@[simp] theorem State.setRill_nextRid (k : Nat) (v : Rill) : (s.setRill k v).nextRid = s.nextRid := rfl
@[simp] theorem State.setRill_hwReq (k : Nat) (v : Rill) : (s.setRill k v).hwReq = s.hwReq := rfl
@[simp] theorem State.setRill_partsOut (k : Nat) (v : Rill) : (s.setRill k v).partsOut = s.partsOut := rfl
@[simp] theorem State.setRill_partsIn (k : Nat) (v : Rill) : (s.setRill k v).partsIn = s.partsIn := rfl
@[simp] theorem State.setRill_nextToken (k : Nat) (v : Rill) : (s.setRill k v).nextToken = s.nextToken := rfl
@[simp] theorem State.setRill_windows (k : Nat) (v : Rill) : (s.setRill k v).windows = s.windows := rfl
@[simp] theorem State.setRill_indexes (k : Nat) (v : Rill) : (s.setRill k v).indexes = s.indexes := rfl
@[simp] theorem State.setRill_slices (k : Nat) (v : Rill) : (s.setRill k v).slices = s.slices := rfl
@[simp] theorem State.setRill_host (k : Nat) (v : Rill) : (s.setRill k v).host = s.host := rfl
@[simp] theorem State.setRill_urdun (k : Nat) (v : Rill) : (s.setRill k v).urdun = s.urdun := rfl
@[simp] theorem State.setRill_points (k : Nat) (v : Rill) : (s.setRill k v).points = s.points := rfl
@[simp] theorem State.setRill_progs (k : Nat) (v : Rill) : (s.setRill k v).progs = s.progs := rfl
@[simp] theorem State.setRill_hbm (k : Nat) (v : Rill) : (s.setRill k v).hbm = s.hbm := rfl
@[simp] theorem State.setRill_mem (k : Nat) (v : Rill) : (s.setRill k v).mem = s.mem := rfl
@[simp] theorem State.setRill_cist (k : Nat) (v : Rill) : (s.setRill k v).cist = s.cist := rfl
@[simp] theorem State.setRill_rst (k : Nat) (v : Rill) : (s.setRill k v).rst = s.rst := rfl
@[simp] theorem State.setRill_basins (k : Nat) (v : Rill) : (s.setRill k v).basins = s.basins := rfl
@[simp] theorem State.setRill_record (k : Nat) (v : Rill) : (s.setRill k v).record = s.record := rfl
@[simp] theorem State.setRill_keeper (k : Nat) (v : Rill) : (s.setRill k v).keeper = s.keeper := rfl

/-! ### setRouter -/

@[simp] theorem State.setRouter_pending (k : Nat) (v : List Msg) : (s.setRouter k v).pending = s.pending := rfl
@[simp] theorem State.setRouter_free (k : Nat) (v : List Msg) : (s.setRouter k v).free = s.free := rfl
@[simp] theorem State.setRouter_out (k : Nat) (v : List Msg) : (s.setRouter k v).out = s.out := rfl
@[simp] theorem State.setRouter_regs (k : Nat) (v : List Msg) : (s.setRouter k v).regs = s.regs := rfl
@[simp] theorem State.setRouter_staged (k : Nat) (v : List Msg) : (s.setRouter k v).staged = s.staged := rfl
@[simp] theorem State.setRouter_commit (k : Nat) (v : List Msg) : (s.setRouter k v).commit = s.commit := rfl
@[simp] theorem State.setRouter_clep (k : Nat) (v : List Msg) : (s.setRouter k v).clep = s.clep := rfl
@[simp] theorem State.setRouter_reqs (k : Nat) (v : List Msg) : (s.setRouter k v).reqs = s.reqs := rfl
@[simp] theorem State.setRouter_nextRid (k : Nat) (v : List Msg) : (s.setRouter k v).nextRid = s.nextRid := rfl
@[simp] theorem State.setRouter_hwReq (k : Nat) (v : List Msg) : (s.setRouter k v).hwReq = s.hwReq := rfl
@[simp] theorem State.setRouter_partsOut (k : Nat) (v : List Msg) : (s.setRouter k v).partsOut = s.partsOut := rfl
@[simp] theorem State.setRouter_partsIn (k : Nat) (v : List Msg) : (s.setRouter k v).partsIn = s.partsIn := rfl
@[simp] theorem State.setRouter_nextToken (k : Nat) (v : List Msg) : (s.setRouter k v).nextToken = s.nextToken := rfl
@[simp] theorem State.setRouter_windows (k : Nat) (v : List Msg) : (s.setRouter k v).windows = s.windows := rfl
@[simp] theorem State.setRouter_indexes (k : Nat) (v : List Msg) : (s.setRouter k v).indexes = s.indexes := rfl
@[simp] theorem State.setRouter_slices (k : Nat) (v : List Msg) : (s.setRouter k v).slices = s.slices := rfl
@[simp] theorem State.setRouter_host (k : Nat) (v : List Msg) : (s.setRouter k v).host = s.host := rfl
@[simp] theorem State.setRouter_urdun (k : Nat) (v : List Msg) : (s.setRouter k v).urdun = s.urdun := rfl
@[simp] theorem State.setRouter_points (k : Nat) (v : List Msg) : (s.setRouter k v).points = s.points := rfl
@[simp] theorem State.setRouter_progs (k : Nat) (v : List Msg) : (s.setRouter k v).progs = s.progs := rfl
@[simp] theorem State.setRouter_hbm (k : Nat) (v : List Msg) : (s.setRouter k v).hbm = s.hbm := rfl
@[simp] theorem State.setRouter_mem (k : Nat) (v : List Msg) : (s.setRouter k v).mem = s.mem := rfl
@[simp] theorem State.setRouter_cist (k : Nat) (v : List Msg) : (s.setRouter k v).cist = s.cist := rfl
@[simp] theorem State.setRouter_rst (k : Nat) (v : List Msg) : (s.setRouter k v).rst = s.rst := rfl
@[simp] theorem State.setRouter_basins (k : Nat) (v : List Msg) : (s.setRouter k v).basins = s.basins := rfl
@[simp] theorem State.setRouter_record (k : Nat) (v : List Msg) : (s.setRouter k v).record = s.record := rfl
@[simp] theorem State.setRouter_keeper (k : Nat) (v : List Msg) : (s.setRouter k v).keeper = s.keeper := rfl

/-! ### setSram -/

@[simp] theorem State.setSram_pending (k : Nat) (v : Sram) : (s.setSram k v).pending = s.pending := rfl
@[simp] theorem State.setSram_free (k : Nat) (v : Sram) : (s.setSram k v).free = s.free := rfl
@[simp] theorem State.setSram_out (k : Nat) (v : Sram) : (s.setSram k v).out = s.out := rfl
@[simp] theorem State.setSram_regs (k : Nat) (v : Sram) : (s.setSram k v).regs = s.regs := rfl
@[simp] theorem State.setSram_staged (k : Nat) (v : Sram) : (s.setSram k v).staged = s.staged := rfl
@[simp] theorem State.setSram_commit (k : Nat) (v : Sram) : (s.setSram k v).commit = s.commit := rfl
@[simp] theorem State.setSram_clep (k : Nat) (v : Sram) : (s.setSram k v).clep = s.clep := rfl
@[simp] theorem State.setSram_reqs (k : Nat) (v : Sram) : (s.setSram k v).reqs = s.reqs := rfl
@[simp] theorem State.setSram_nextRid (k : Nat) (v : Sram) : (s.setSram k v).nextRid = s.nextRid := rfl
@[simp] theorem State.setSram_hwReq (k : Nat) (v : Sram) : (s.setSram k v).hwReq = s.hwReq := rfl
@[simp] theorem State.setSram_partsOut (k : Nat) (v : Sram) : (s.setSram k v).partsOut = s.partsOut := rfl
@[simp] theorem State.setSram_partsIn (k : Nat) (v : Sram) : (s.setSram k v).partsIn = s.partsIn := rfl
@[simp] theorem State.setSram_nextToken (k : Nat) (v : Sram) : (s.setSram k v).nextToken = s.nextToken := rfl
@[simp] theorem State.setSram_windows (k : Nat) (v : Sram) : (s.setSram k v).windows = s.windows := rfl
@[simp] theorem State.setSram_indexes (k : Nat) (v : Sram) : (s.setSram k v).indexes = s.indexes := rfl
@[simp] theorem State.setSram_slices (k : Nat) (v : Sram) : (s.setSram k v).slices = s.slices := rfl
@[simp] theorem State.setSram_host (k : Nat) (v : Sram) : (s.setSram k v).host = s.host := rfl
@[simp] theorem State.setSram_urdun (k : Nat) (v : Sram) : (s.setSram k v).urdun = s.urdun := rfl
@[simp] theorem State.setSram_points (k : Nat) (v : Sram) : (s.setSram k v).points = s.points := rfl
@[simp] theorem State.setSram_progs (k : Nat) (v : Sram) : (s.setSram k v).progs = s.progs := rfl
@[simp] theorem State.setSram_hbm (k : Nat) (v : Sram) : (s.setSram k v).hbm = s.hbm := rfl
@[simp] theorem State.setSram_mem (k : Nat) (v : Sram) : (s.setSram k v).mem = s.mem := rfl
@[simp] theorem State.setSram_cist (k : Nat) (v : Sram) : (s.setSram k v).cist = s.cist := rfl
@[simp] theorem State.setSram_rst (k : Nat) (v : Sram) : (s.setSram k v).rst = s.rst := rfl
@[simp] theorem State.setSram_basins (k : Nat) (v : Sram) : (s.setSram k v).basins = s.basins := rfl
@[simp] theorem State.setSram_record (k : Nat) (v : Sram) : (s.setSram k v).record = s.record := rfl
@[simp] theorem State.setSram_keeper (k : Nat) (v : Sram) : (s.setSram k v).keeper = s.keeper := rfl

/-! ### setBridge -/

@[simp] theorem State.setBridge_pending (n : Nat) (v : Bridge) : (s.setBridge n v).pending = s.pending := rfl
@[simp] theorem State.setBridge_free (n : Nat) (v : Bridge) : (s.setBridge n v).free = s.free := rfl
@[simp] theorem State.setBridge_out (n : Nat) (v : Bridge) : (s.setBridge n v).out = s.out := rfl
@[simp] theorem State.setBridge_regs (n : Nat) (v : Bridge) : (s.setBridge n v).regs = s.regs := rfl
@[simp] theorem State.setBridge_staged (n : Nat) (v : Bridge) : (s.setBridge n v).staged = s.staged := rfl
@[simp] theorem State.setBridge_commit (n : Nat) (v : Bridge) : (s.setBridge n v).commit = s.commit := rfl
@[simp] theorem State.setBridge_clep (n : Nat) (v : Bridge) : (s.setBridge n v).clep = s.clep := rfl
@[simp] theorem State.setBridge_reqs (n : Nat) (v : Bridge) : (s.setBridge n v).reqs = s.reqs := rfl
@[simp] theorem State.setBridge_nextRid (n : Nat) (v : Bridge) : (s.setBridge n v).nextRid = s.nextRid := rfl
@[simp] theorem State.setBridge_hwReq (n : Nat) (v : Bridge) : (s.setBridge n v).hwReq = s.hwReq := rfl
@[simp] theorem State.setBridge_partsOut (n : Nat) (v : Bridge) : (s.setBridge n v).partsOut = s.partsOut := rfl
@[simp] theorem State.setBridge_partsIn (n : Nat) (v : Bridge) : (s.setBridge n v).partsIn = s.partsIn := rfl
@[simp] theorem State.setBridge_nextToken (n : Nat) (v : Bridge) : (s.setBridge n v).nextToken = s.nextToken := rfl
@[simp] theorem State.setBridge_windows (n : Nat) (v : Bridge) : (s.setBridge n v).windows = s.windows := rfl
@[simp] theorem State.setBridge_indexes (n : Nat) (v : Bridge) : (s.setBridge n v).indexes = s.indexes := rfl
@[simp] theorem State.setBridge_slices (n : Nat) (v : Bridge) : (s.setBridge n v).slices = s.slices := rfl
@[simp] theorem State.setBridge_host (n : Nat) (v : Bridge) : (s.setBridge n v).host = s.host := rfl
@[simp] theorem State.setBridge_urdun (n : Nat) (v : Bridge) : (s.setBridge n v).urdun = s.urdun := rfl
@[simp] theorem State.setBridge_points (n : Nat) (v : Bridge) : (s.setBridge n v).points = s.points := rfl
@[simp] theorem State.setBridge_progs (n : Nat) (v : Bridge) : (s.setBridge n v).progs = s.progs := rfl
@[simp] theorem State.setBridge_hbm (n : Nat) (v : Bridge) : (s.setBridge n v).hbm = s.hbm := rfl
@[simp] theorem State.setBridge_mem (n : Nat) (v : Bridge) : (s.setBridge n v).mem = s.mem := rfl
@[simp] theorem State.setBridge_cist (n : Nat) (v : Bridge) : (s.setBridge n v).cist = s.cist := rfl
@[simp] theorem State.setBridge_rst (n : Nat) (v : Bridge) : (s.setBridge n v).rst = s.rst := rfl
@[simp] theorem State.setBridge_basins (n : Nat) (v : Bridge) : (s.setBridge n v).basins = s.basins := rfl
@[simp] theorem State.setBridge_record (n : Nat) (v : Bridge) : (s.setBridge n v).record = s.record := rfl
@[simp] theorem State.setBridge_keeper (n : Nat) (v : Bridge) : (s.setBridge n v).keeper = s.keeper := rfl

/-! ### setSpout -/

@[simp] theorem State.setSpout_pending (k : Nat) (v : Spout) : (s.setSpout k v).pending = s.pending := rfl
@[simp] theorem State.setSpout_free (k : Nat) (v : Spout) : (s.setSpout k v).free = s.free := rfl
@[simp] theorem State.setSpout_out (k : Nat) (v : Spout) : (s.setSpout k v).out = s.out := rfl
@[simp] theorem State.setSpout_regs (k : Nat) (v : Spout) : (s.setSpout k v).regs = s.regs := rfl
@[simp] theorem State.setSpout_staged (k : Nat) (v : Spout) : (s.setSpout k v).staged = s.staged := rfl
@[simp] theorem State.setSpout_commit (k : Nat) (v : Spout) : (s.setSpout k v).commit = s.commit := rfl
@[simp] theorem State.setSpout_clep (k : Nat) (v : Spout) : (s.setSpout k v).clep = s.clep := rfl
@[simp] theorem State.setSpout_reqs (k : Nat) (v : Spout) : (s.setSpout k v).reqs = s.reqs := rfl
@[simp] theorem State.setSpout_nextRid (k : Nat) (v : Spout) : (s.setSpout k v).nextRid = s.nextRid := rfl
@[simp] theorem State.setSpout_hwReq (k : Nat) (v : Spout) : (s.setSpout k v).hwReq = s.hwReq := rfl
@[simp] theorem State.setSpout_partsOut (k : Nat) (v : Spout) : (s.setSpout k v).partsOut = s.partsOut := rfl
@[simp] theorem State.setSpout_partsIn (k : Nat) (v : Spout) : (s.setSpout k v).partsIn = s.partsIn := rfl
@[simp] theorem State.setSpout_nextToken (k : Nat) (v : Spout) : (s.setSpout k v).nextToken = s.nextToken := rfl
@[simp] theorem State.setSpout_windows (k : Nat) (v : Spout) : (s.setSpout k v).windows = s.windows := rfl
@[simp] theorem State.setSpout_indexes (k : Nat) (v : Spout) : (s.setSpout k v).indexes = s.indexes := rfl
@[simp] theorem State.setSpout_slices (k : Nat) (v : Spout) : (s.setSpout k v).slices = s.slices := rfl
@[simp] theorem State.setSpout_host (k : Nat) (v : Spout) : (s.setSpout k v).host = s.host := rfl
@[simp] theorem State.setSpout_urdun (k : Nat) (v : Spout) : (s.setSpout k v).urdun = s.urdun := rfl
@[simp] theorem State.setSpout_points (k : Nat) (v : Spout) : (s.setSpout k v).points = s.points := rfl
@[simp] theorem State.setSpout_fabric (k : Nat) (v : Spout) : (s.setSpout k v).fabric = s.fabric := rfl
@[simp] theorem State.setSpout_progs (k : Nat) (v : Spout) : (s.setSpout k v).progs = s.progs := rfl
@[simp] theorem State.setSpout_mem (k : Nat) (v : Spout) : (s.setSpout k v).mem = s.mem := rfl
@[simp] theorem State.setSpout_cist (k : Nat) (v : Spout) : (s.setSpout k v).cist = s.cist := rfl
@[simp] theorem State.setSpout_rst (k : Nat) (v : Spout) : (s.setSpout k v).rst = s.rst := rfl
@[simp] theorem State.setSpout_basins (k : Nat) (v : Spout) : (s.setSpout k v).basins = s.basins := rfl
@[simp] theorem State.setSpout_record (k : Nat) (v : Spout) : (s.setSpout k v).record = s.record := rfl
@[simp] theorem State.setSpout_keeper (k : Nat) (v : Spout) : (s.setSpout k v).keeper = s.keeper := rfl

/-! ### setSlot -/

@[simp] theorem State.setSlot_pending (n : Nat) (v : EvSlot) : (s.setSlot n v).pending = s.pending := rfl
@[simp] theorem State.setSlot_free (n : Nat) (v : EvSlot) : (s.setSlot n v).free = s.free := rfl
@[simp] theorem State.setSlot_out (n : Nat) (v : EvSlot) : (s.setSlot n v).out = s.out := rfl
@[simp] theorem State.setSlot_regs (n : Nat) (v : EvSlot) : (s.setSlot n v).regs = s.regs := rfl
@[simp] theorem State.setSlot_staged (n : Nat) (v : EvSlot) : (s.setSlot n v).staged = s.staged := rfl
@[simp] theorem State.setSlot_commit (n : Nat) (v : EvSlot) : (s.setSlot n v).commit = s.commit := rfl
@[simp] theorem State.setSlot_reqs (n : Nat) (v : EvSlot) : (s.setSlot n v).reqs = s.reqs := rfl
@[simp] theorem State.setSlot_nextRid (n : Nat) (v : EvSlot) : (s.setSlot n v).nextRid = s.nextRid := rfl
@[simp] theorem State.setSlot_hwReq (n : Nat) (v : EvSlot) : (s.setSlot n v).hwReq = s.hwReq := rfl
@[simp] theorem State.setSlot_partsOut (n : Nat) (v : EvSlot) : (s.setSlot n v).partsOut = s.partsOut := rfl
@[simp] theorem State.setSlot_partsIn (n : Nat) (v : EvSlot) : (s.setSlot n v).partsIn = s.partsIn := rfl
@[simp] theorem State.setSlot_nextToken (n : Nat) (v : EvSlot) : (s.setSlot n v).nextToken = s.nextToken := rfl
@[simp] theorem State.setSlot_windows (n : Nat) (v : EvSlot) : (s.setSlot n v).windows = s.windows := rfl
@[simp] theorem State.setSlot_indexes (n : Nat) (v : EvSlot) : (s.setSlot n v).indexes = s.indexes := rfl
@[simp] theorem State.setSlot_slices (n : Nat) (v : EvSlot) : (s.setSlot n v).slices = s.slices := rfl
@[simp] theorem State.setSlot_host (n : Nat) (v : EvSlot) : (s.setSlot n v).host = s.host := rfl
@[simp] theorem State.setSlot_urdun (n : Nat) (v : EvSlot) : (s.setSlot n v).urdun = s.urdun := rfl
@[simp] theorem State.setSlot_points (n : Nat) (v : EvSlot) : (s.setSlot n v).points = s.points := rfl
@[simp] theorem State.setSlot_fabric (n : Nat) (v : EvSlot) : (s.setSlot n v).fabric = s.fabric := rfl
@[simp] theorem State.setSlot_progs (n : Nat) (v : EvSlot) : (s.setSlot n v).progs = s.progs := rfl
@[simp] theorem State.setSlot_hbm (n : Nat) (v : EvSlot) : (s.setSlot n v).hbm = s.hbm := rfl
@[simp] theorem State.setSlot_mem (n : Nat) (v : EvSlot) : (s.setSlot n v).mem = s.mem := rfl
@[simp] theorem State.setSlot_cist (n : Nat) (v : EvSlot) : (s.setSlot n v).cist = s.cist := rfl
@[simp] theorem State.setSlot_rst (n : Nat) (v : EvSlot) : (s.setSlot n v).rst = s.rst := rfl
@[simp] theorem State.setSlot_basins (n : Nat) (v : EvSlot) : (s.setSlot n v).basins = s.basins := rfl
@[simp] theorem State.setSlot_record (n : Nat) (v : EvSlot) : (s.setSlot n v).record = s.record := rfl
@[simp] theorem State.setSlot_keeper (n : Nat) (v : EvSlot) : (s.setSlot n v).keeper = s.keeper := rfl

/-! ### setQueue -/

@[simp] theorem State.setQueue_pending (f q : Nat) (v : Queue) : (s.setQueue f q v).pending = s.pending := rfl
@[simp] theorem State.setQueue_free (f q : Nat) (v : Queue) : (s.setQueue f q v).free = s.free := rfl
@[simp] theorem State.setQueue_out (f q : Nat) (v : Queue) : (s.setQueue f q v).out = s.out := rfl
@[simp] theorem State.setQueue_regs (f q : Nat) (v : Queue) : (s.setQueue f q v).regs = s.regs := rfl
@[simp] theorem State.setQueue_staged (f q : Nat) (v : Queue) : (s.setQueue f q v).staged = s.staged := rfl
@[simp] theorem State.setQueue_commit (f q : Nat) (v : Queue) : (s.setQueue f q v).commit = s.commit := rfl
@[simp] theorem State.setQueue_clep (f q : Nat) (v : Queue) : (s.setQueue f q v).clep = s.clep := rfl
@[simp] theorem State.setQueue_reqs (f q : Nat) (v : Queue) : (s.setQueue f q v).reqs = s.reqs := rfl
@[simp] theorem State.setQueue_nextRid (f q : Nat) (v : Queue) : (s.setQueue f q v).nextRid = s.nextRid := rfl
@[simp] theorem State.setQueue_hwReq (f q : Nat) (v : Queue) : (s.setQueue f q v).hwReq = s.hwReq := rfl
@[simp] theorem State.setQueue_partsOut (f q : Nat) (v : Queue) : (s.setQueue f q v).partsOut = s.partsOut := rfl
@[simp] theorem State.setQueue_partsIn (f q : Nat) (v : Queue) : (s.setQueue f q v).partsIn = s.partsIn := rfl
@[simp] theorem State.setQueue_nextToken (f q : Nat) (v : Queue) : (s.setQueue f q v).nextToken = s.nextToken := rfl
@[simp] theorem State.setQueue_windows (f q : Nat) (v : Queue) : (s.setQueue f q v).windows = s.windows := rfl
@[simp] theorem State.setQueue_indexes (f q : Nat) (v : Queue) : (s.setQueue f q v).indexes = s.indexes := rfl
@[simp] theorem State.setQueue_slices (f q : Nat) (v : Queue) : (s.setQueue f q v).slices = s.slices := rfl
@[simp] theorem State.setQueue_urdun (f q : Nat) (v : Queue) : (s.setQueue f q v).urdun = s.urdun := rfl
@[simp] theorem State.setQueue_points (f q : Nat) (v : Queue) : (s.setQueue f q v).points = s.points := rfl
@[simp] theorem State.setQueue_fabric (f q : Nat) (v : Queue) : (s.setQueue f q v).fabric = s.fabric := rfl
@[simp] theorem State.setQueue_progs (f q : Nat) (v : Queue) : (s.setQueue f q v).progs = s.progs := rfl
@[simp] theorem State.setQueue_hbm (f q : Nat) (v : Queue) : (s.setQueue f q v).hbm = s.hbm := rfl
@[simp] theorem State.setQueue_mem (f q : Nat) (v : Queue) : (s.setQueue f q v).mem = s.mem := rfl
@[simp] theorem State.setQueue_cist (f q : Nat) (v : Queue) : (s.setQueue f q v).cist = s.cist := rfl
@[simp] theorem State.setQueue_rst (f q : Nat) (v : Queue) : (s.setQueue f q v).rst = s.rst := rfl
@[simp] theorem State.setQueue_basins (f q : Nat) (v : Queue) : (s.setQueue f q v).basins = s.basins := rfl
@[simp] theorem State.setQueue_record (f q : Nat) (v : Queue) : (s.setQueue f q v).record = s.record := rfl
@[simp] theorem State.setQueue_keeper (f q : Nat) (v : Queue) : (s.setQueue f q v).keeper = s.keeper := rfl

/-! ### setDip -/

@[simp] theorem State.setDip_pending (f : Nat) (d : Dipper) : (s.setDip f d).pending = s.pending := rfl
@[simp] theorem State.setDip_free (f : Nat) (d : Dipper) : (s.setDip f d).free = s.free := rfl
@[simp] theorem State.setDip_out (f : Nat) (d : Dipper) : (s.setDip f d).out = s.out := rfl
@[simp] theorem State.setDip_regs (f : Nat) (d : Dipper) : (s.setDip f d).regs = s.regs := rfl
@[simp] theorem State.setDip_staged (f : Nat) (d : Dipper) : (s.setDip f d).staged = s.staged := rfl
@[simp] theorem State.setDip_commit (f : Nat) (d : Dipper) : (s.setDip f d).commit = s.commit := rfl
@[simp] theorem State.setDip_clep (f : Nat) (d : Dipper) : (s.setDip f d).clep = s.clep := rfl
@[simp] theorem State.setDip_reqs (f : Nat) (d : Dipper) : (s.setDip f d).reqs = s.reqs := rfl
@[simp] theorem State.setDip_nextRid (f : Nat) (d : Dipper) : (s.setDip f d).nextRid = s.nextRid := rfl
@[simp] theorem State.setDip_hwReq (f : Nat) (d : Dipper) : (s.setDip f d).hwReq = s.hwReq := rfl
@[simp] theorem State.setDip_partsOut (f : Nat) (d : Dipper) : (s.setDip f d).partsOut = s.partsOut := rfl
@[simp] theorem State.setDip_partsIn (f : Nat) (d : Dipper) : (s.setDip f d).partsIn = s.partsIn := rfl
@[simp] theorem State.setDip_nextToken (f : Nat) (d : Dipper) : (s.setDip f d).nextToken = s.nextToken := rfl
@[simp] theorem State.setDip_windows (f : Nat) (d : Dipper) : (s.setDip f d).windows = s.windows := rfl
@[simp] theorem State.setDip_indexes (f : Nat) (d : Dipper) : (s.setDip f d).indexes = s.indexes := rfl
@[simp] theorem State.setDip_slices (f : Nat) (d : Dipper) : (s.setDip f d).slices = s.slices := rfl
@[simp] theorem State.setDip_urdun (f : Nat) (d : Dipper) : (s.setDip f d).urdun = s.urdun := rfl
@[simp] theorem State.setDip_points (f : Nat) (d : Dipper) : (s.setDip f d).points = s.points := rfl
@[simp] theorem State.setDip_fabric (f : Nat) (d : Dipper) : (s.setDip f d).fabric = s.fabric := rfl
@[simp] theorem State.setDip_progs (f : Nat) (d : Dipper) : (s.setDip f d).progs = s.progs := rfl
@[simp] theorem State.setDip_hbm (f : Nat) (d : Dipper) : (s.setDip f d).hbm = s.hbm := rfl
@[simp] theorem State.setDip_mem (f : Nat) (d : Dipper) : (s.setDip f d).mem = s.mem := rfl
@[simp] theorem State.setDip_cist (f : Nat) (d : Dipper) : (s.setDip f d).cist = s.cist := rfl
@[simp] theorem State.setDip_rst (f : Nat) (d : Dipper) : (s.setDip f d).rst = s.rst := rfl
@[simp] theorem State.setDip_basins (f : Nat) (d : Dipper) : (s.setDip f d).basins = s.basins := rfl
@[simp] theorem State.setDip_record (f : Nat) (d : Dipper) : (s.setDip f d).record = s.record := rfl
@[simp] theorem State.setDip_keeper (f : Nat) (d : Dipper) : (s.setDip f d).keeper = s.keeper := rfl

/-! ### setCredit -/

@[simp] theorem State.setCredit_pending (pt c : Nat) (v : Int) : (s.setCredit pt c v).pending = s.pending := rfl
@[simp] theorem State.setCredit_free (pt c : Nat) (v : Int) : (s.setCredit pt c v).free = s.free := rfl
@[simp] theorem State.setCredit_out (pt c : Nat) (v : Int) : (s.setCredit pt c v).out = s.out := rfl
@[simp] theorem State.setCredit_regs (pt c : Nat) (v : Int) : (s.setCredit pt c v).regs = s.regs := rfl
@[simp] theorem State.setCredit_staged (pt c : Nat) (v : Int) : (s.setCredit pt c v).staged = s.staged := rfl
@[simp] theorem State.setCredit_commit (pt c : Nat) (v : Int) : (s.setCredit pt c v).commit = s.commit := rfl
@[simp] theorem State.setCredit_clep (pt c : Nat) (v : Int) : (s.setCredit pt c v).clep = s.clep := rfl
@[simp] theorem State.setCredit_reqs (pt c : Nat) (v : Int) : (s.setCredit pt c v).reqs = s.reqs := rfl
@[simp] theorem State.setCredit_nextRid (pt c : Nat) (v : Int) : (s.setCredit pt c v).nextRid = s.nextRid := rfl
@[simp] theorem State.setCredit_hwReq (pt c : Nat) (v : Int) : (s.setCredit pt c v).hwReq = s.hwReq := rfl
@[simp] theorem State.setCredit_partsOut (pt c : Nat) (v : Int) : (s.setCredit pt c v).partsOut = s.partsOut := rfl
@[simp] theorem State.setCredit_partsIn (pt c : Nat) (v : Int) : (s.setCredit pt c v).partsIn = s.partsIn := rfl
@[simp] theorem State.setCredit_nextToken (pt c : Nat) (v : Int) : (s.setCredit pt c v).nextToken = s.nextToken := rfl
@[simp] theorem State.setCredit_windows (pt c : Nat) (v : Int) : (s.setCredit pt c v).windows = s.windows := rfl
@[simp] theorem State.setCredit_indexes (pt c : Nat) (v : Int) : (s.setCredit pt c v).indexes = s.indexes := rfl
@[simp] theorem State.setCredit_slices (pt c : Nat) (v : Int) : (s.setCredit pt c v).slices = s.slices := rfl
@[simp] theorem State.setCredit_host (pt c : Nat) (v : Int) : (s.setCredit pt c v).host = s.host := rfl
@[simp] theorem State.setCredit_urdun (pt c : Nat) (v : Int) : (s.setCredit pt c v).urdun = s.urdun := rfl
@[simp] theorem State.setCredit_fabric (pt c : Nat) (v : Int) : (s.setCredit pt c v).fabric = s.fabric := rfl
@[simp] theorem State.setCredit_progs (pt c : Nat) (v : Int) : (s.setCredit pt c v).progs = s.progs := rfl
@[simp] theorem State.setCredit_hbm (pt c : Nat) (v : Int) : (s.setCredit pt c v).hbm = s.hbm := rfl
@[simp] theorem State.setCredit_mem (pt c : Nat) (v : Int) : (s.setCredit pt c v).mem = s.mem := rfl
@[simp] theorem State.setCredit_cist (pt c : Nat) (v : Int) : (s.setCredit pt c v).cist = s.cist := rfl
@[simp] theorem State.setCredit_rst (pt c : Nat) (v : Int) : (s.setCredit pt c v).rst = s.rst := rfl
@[simp] theorem State.setCredit_basins (pt c : Nat) (v : Int) : (s.setCredit pt c v).basins = s.basins := rfl
@[simp] theorem State.setCredit_record (pt c : Nat) (v : Int) : (s.setCredit pt c v).record = s.record := rfl
@[simp] theorem State.setCredit_keeper (pt c : Nat) (v : Int) : (s.setCredit pt c v).keeper = s.keeper := rfl

/-! ### withReasm -/

@[simp] theorem State.withReasm_pending (l : List Partial) : (s.withReasm l).pending = s.pending := rfl
@[simp] theorem State.withReasm_free (l : List Partial) : (s.withReasm l).free = s.free := rfl
@[simp] theorem State.withReasm_out (l : List Partial) : (s.withReasm l).out = s.out := rfl
@[simp] theorem State.withReasm_regs (l : List Partial) : (s.withReasm l).regs = s.regs := rfl
@[simp] theorem State.withReasm_staged (l : List Partial) : (s.withReasm l).staged = s.staged := rfl
@[simp] theorem State.withReasm_commit (l : List Partial) : (s.withReasm l).commit = s.commit := rfl
@[simp] theorem State.withReasm_clep (l : List Partial) : (s.withReasm l).clep = s.clep := rfl
@[simp] theorem State.withReasm_reqs (l : List Partial) : (s.withReasm l).reqs = s.reqs := rfl
@[simp] theorem State.withReasm_nextRid (l : List Partial) : (s.withReasm l).nextRid = s.nextRid := rfl
@[simp] theorem State.withReasm_hwReq (l : List Partial) : (s.withReasm l).hwReq = s.hwReq := rfl
@[simp] theorem State.withReasm_partsOut (l : List Partial) : (s.withReasm l).partsOut = s.partsOut := rfl
@[simp] theorem State.withReasm_partsIn (l : List Partial) : (s.withReasm l).partsIn = s.partsIn := rfl
@[simp] theorem State.withReasm_nextToken (l : List Partial) : (s.withReasm l).nextToken = s.nextToken := rfl
@[simp] theorem State.withReasm_windows (l : List Partial) : (s.withReasm l).windows = s.windows := rfl
@[simp] theorem State.withReasm_indexes (l : List Partial) : (s.withReasm l).indexes = s.indexes := rfl
@[simp] theorem State.withReasm_slices (l : List Partial) : (s.withReasm l).slices = s.slices := rfl
@[simp] theorem State.withReasm_host (l : List Partial) : (s.withReasm l).host = s.host := rfl
@[simp] theorem State.withReasm_points (l : List Partial) : (s.withReasm l).points = s.points := rfl
@[simp] theorem State.withReasm_fabric (l : List Partial) : (s.withReasm l).fabric = s.fabric := rfl
@[simp] theorem State.withReasm_progs (l : List Partial) : (s.withReasm l).progs = s.progs := rfl
@[simp] theorem State.withReasm_hbm (l : List Partial) : (s.withReasm l).hbm = s.hbm := rfl
@[simp] theorem State.withReasm_mem (l : List Partial) : (s.withReasm l).mem = s.mem := rfl
@[simp] theorem State.withReasm_cist (l : List Partial) : (s.withReasm l).cist = s.cist := rfl
@[simp] theorem State.withReasm_rst (l : List Partial) : (s.withReasm l).rst = s.rst := rfl
@[simp] theorem State.withReasm_basins (l : List Partial) : (s.withReasm l).basins = s.basins := rfl
@[simp] theorem State.withReasm_record (l : List Partial) : (s.withReasm l).record = s.record := rfl
@[simp] theorem State.withReasm_keeper (l : List Partial) : (s.withReasm l).keeper = s.keeper := rfl

/-! ### withReads -/

@[simp] theorem State.withReads_pending (l : List LtRead) : (s.withReads l).pending = s.pending := rfl
@[simp] theorem State.withReads_free (l : List LtRead) : (s.withReads l).free = s.free := rfl
@[simp] theorem State.withReads_out (l : List LtRead) : (s.withReads l).out = s.out := rfl
@[simp] theorem State.withReads_regs (l : List LtRead) : (s.withReads l).regs = s.regs := rfl
@[simp] theorem State.withReads_staged (l : List LtRead) : (s.withReads l).staged = s.staged := rfl
@[simp] theorem State.withReads_commit (l : List LtRead) : (s.withReads l).commit = s.commit := rfl
@[simp] theorem State.withReads_clep (l : List LtRead) : (s.withReads l).clep = s.clep := rfl
@[simp] theorem State.withReads_reqs (l : List LtRead) : (s.withReads l).reqs = s.reqs := rfl
@[simp] theorem State.withReads_nextRid (l : List LtRead) : (s.withReads l).nextRid = s.nextRid := rfl
@[simp] theorem State.withReads_hwReq (l : List LtRead) : (s.withReads l).hwReq = s.hwReq := rfl
@[simp] theorem State.withReads_partsOut (l : List LtRead) : (s.withReads l).partsOut = s.partsOut := rfl
@[simp] theorem State.withReads_partsIn (l : List LtRead) : (s.withReads l).partsIn = s.partsIn := rfl
@[simp] theorem State.withReads_nextToken (l : List LtRead) : (s.withReads l).nextToken = s.nextToken := rfl
@[simp] theorem State.withReads_windows (l : List LtRead) : (s.withReads l).windows = s.windows := rfl
@[simp] theorem State.withReads_indexes (l : List LtRead) : (s.withReads l).indexes = s.indexes := rfl
@[simp] theorem State.withReads_slices (l : List LtRead) : (s.withReads l).slices = s.slices := rfl
@[simp] theorem State.withReads_host (l : List LtRead) : (s.withReads l).host = s.host := rfl
@[simp] theorem State.withReads_urdun (l : List LtRead) : (s.withReads l).urdun = s.urdun := rfl
@[simp] theorem State.withReads_points (l : List LtRead) : (s.withReads l).points = s.points := rfl
@[simp] theorem State.withReads_fabric (l : List LtRead) : (s.withReads l).fabric = s.fabric := rfl
@[simp] theorem State.withReads_progs (l : List LtRead) : (s.withReads l).progs = s.progs := rfl
@[simp] theorem State.withReads_hbm (l : List LtRead) : (s.withReads l).hbm = s.hbm := rfl
@[simp] theorem State.withReads_cist (l : List LtRead) : (s.withReads l).cist = s.cist := rfl
@[simp] theorem State.withReads_rst (l : List LtRead) : (s.withReads l).rst = s.rst := rfl
@[simp] theorem State.withReads_basins (l : List LtRead) : (s.withReads l).basins = s.basins := rfl
@[simp] theorem State.withReads_record (l : List LtRead) : (s.withReads l).record = s.record := rfl
@[simp] theorem State.withReads_keeper (l : List LtRead) : (s.withReads l).keeper = s.keeper := rfl

/-! ### withCist -/

@[simp] theorem State.withCist_pending (c : Cistern) : (s.withCist c).pending = s.pending := rfl
@[simp] theorem State.withCist_free (c : Cistern) : (s.withCist c).free = s.free := rfl
@[simp] theorem State.withCist_out (c : Cistern) : (s.withCist c).out = s.out := rfl
@[simp] theorem State.withCist_regs (c : Cistern) : (s.withCist c).regs = s.regs := rfl
@[simp] theorem State.withCist_staged (c : Cistern) : (s.withCist c).staged = s.staged := rfl
@[simp] theorem State.withCist_commit (c : Cistern) : (s.withCist c).commit = s.commit := rfl
@[simp] theorem State.withCist_clep (c : Cistern) : (s.withCist c).clep = s.clep := rfl
@[simp] theorem State.withCist_reqs (c : Cistern) : (s.withCist c).reqs = s.reqs := rfl
@[simp] theorem State.withCist_nextRid (c : Cistern) : (s.withCist c).nextRid = s.nextRid := rfl
@[simp] theorem State.withCist_hwReq (c : Cistern) : (s.withCist c).hwReq = s.hwReq := rfl
@[simp] theorem State.withCist_partsOut (c : Cistern) : (s.withCist c).partsOut = s.partsOut := rfl
@[simp] theorem State.withCist_partsIn (c : Cistern) : (s.withCist c).partsIn = s.partsIn := rfl
@[simp] theorem State.withCist_nextToken (c : Cistern) : (s.withCist c).nextToken = s.nextToken := rfl
@[simp] theorem State.withCist_windows (c : Cistern) : (s.withCist c).windows = s.windows := rfl
@[simp] theorem State.withCist_indexes (c : Cistern) : (s.withCist c).indexes = s.indexes := rfl
@[simp] theorem State.withCist_slices (c : Cistern) : (s.withCist c).slices = s.slices := rfl
@[simp] theorem State.withCist_host (c : Cistern) : (s.withCist c).host = s.host := rfl
@[simp] theorem State.withCist_urdun (c : Cistern) : (s.withCist c).urdun = s.urdun := rfl
@[simp] theorem State.withCist_points (c : Cistern) : (s.withCist c).points = s.points := rfl
@[simp] theorem State.withCist_fabric (c : Cistern) : (s.withCist c).fabric = s.fabric := rfl
@[simp] theorem State.withCist_progs (c : Cistern) : (s.withCist c).progs = s.progs := rfl
@[simp] theorem State.withCist_hbm (c : Cistern) : (s.withCist c).hbm = s.hbm := rfl
@[simp] theorem State.withCist_mem (c : Cistern) : (s.withCist c).mem = s.mem := rfl
@[simp] theorem State.withCist_rst (c : Cistern) : (s.withCist c).rst = s.rst := rfl
@[simp] theorem State.withCist_basins (c : Cistern) : (s.withCist c).basins = s.basins := rfl
@[simp] theorem State.withCist_record (c : Cistern) : (s.withCist c).record = s.record := rfl
@[simp] theorem State.withCist_keeper (c : Cistern) : (s.withCist c).keeper = s.keeper := rfl

/-! ### eraseIndex -/

@[simp] theorem State.eraseIndex_pending (i : Nat) : (s.eraseIndex i).pending = s.pending := rfl
@[simp] theorem State.eraseIndex_free (i : Nat) : (s.eraseIndex i).free = s.free := rfl
@[simp] theorem State.eraseIndex_out (i : Nat) : (s.eraseIndex i).out = s.out := rfl
@[simp] theorem State.eraseIndex_regs (i : Nat) : (s.eraseIndex i).regs = s.regs := rfl
@[simp] theorem State.eraseIndex_staged (i : Nat) : (s.eraseIndex i).staged = s.staged := rfl
@[simp] theorem State.eraseIndex_commit (i : Nat) : (s.eraseIndex i).commit = s.commit := rfl
@[simp] theorem State.eraseIndex_clep (i : Nat) : (s.eraseIndex i).clep = s.clep := rfl
@[simp] theorem State.eraseIndex_reqs (i : Nat) : (s.eraseIndex i).reqs = s.reqs := rfl
@[simp] theorem State.eraseIndex_nextRid (i : Nat) : (s.eraseIndex i).nextRid = s.nextRid := rfl
@[simp] theorem State.eraseIndex_hwReq (i : Nat) : (s.eraseIndex i).hwReq = s.hwReq := rfl
@[simp] theorem State.eraseIndex_partsOut (i : Nat) : (s.eraseIndex i).partsOut = s.partsOut := rfl
@[simp] theorem State.eraseIndex_partsIn (i : Nat) : (s.eraseIndex i).partsIn = s.partsIn := rfl
@[simp] theorem State.eraseIndex_nextToken (i : Nat) : (s.eraseIndex i).nextToken = s.nextToken := rfl
@[simp] theorem State.eraseIndex_windows (i : Nat) : (s.eraseIndex i).windows = s.windows := rfl
@[simp] theorem State.eraseIndex_slices (i : Nat) : (s.eraseIndex i).slices = s.slices := rfl
@[simp] theorem State.eraseIndex_host (i : Nat) : (s.eraseIndex i).host = s.host := rfl
@[simp] theorem State.eraseIndex_urdun (i : Nat) : (s.eraseIndex i).urdun = s.urdun := rfl
@[simp] theorem State.eraseIndex_points (i : Nat) : (s.eraseIndex i).points = s.points := rfl
@[simp] theorem State.eraseIndex_fabric (i : Nat) : (s.eraseIndex i).fabric = s.fabric := rfl
@[simp] theorem State.eraseIndex_progs (i : Nat) : (s.eraseIndex i).progs = s.progs := rfl
@[simp] theorem State.eraseIndex_hbm (i : Nat) : (s.eraseIndex i).hbm = s.hbm := rfl
@[simp] theorem State.eraseIndex_mem (i : Nat) : (s.eraseIndex i).mem = s.mem := rfl
@[simp] theorem State.eraseIndex_cist (i : Nat) : (s.eraseIndex i).cist = s.cist := rfl
@[simp] theorem State.eraseIndex_rst (i : Nat) : (s.eraseIndex i).rst = s.rst := rfl
@[simp] theorem State.eraseIndex_basins (i : Nat) : (s.eraseIndex i).basins = s.basins := rfl
@[simp] theorem State.eraseIndex_record (i : Nat) : (s.eraseIndex i).record = s.record := rfl
@[simp] theorem State.eraseIndex_keeper (i : Nat) : (s.eraseIndex i).keeper = s.keeper := rfl

/-! ### setStaging -/

@[simp] theorem State.setStaging_pending (k : Nat) (v : Store Byte) : (s.setStaging k v).pending = s.pending := rfl
@[simp] theorem State.setStaging_free (k : Nat) (v : Store Byte) : (s.setStaging k v).free = s.free := rfl
@[simp] theorem State.setStaging_out (k : Nat) (v : Store Byte) : (s.setStaging k v).out = s.out := rfl
@[simp] theorem State.setStaging_regs (k : Nat) (v : Store Byte) : (s.setStaging k v).regs = s.regs := rfl
@[simp] theorem State.setStaging_staged (k : Nat) (v : Store Byte) : (s.setStaging k v).staged = s.staged := rfl
@[simp] theorem State.setStaging_commit (k : Nat) (v : Store Byte) : (s.setStaging k v).commit = s.commit := rfl
@[simp] theorem State.setStaging_clep (k : Nat) (v : Store Byte) : (s.setStaging k v).clep = s.clep := rfl
@[simp] theorem State.setStaging_reqs (k : Nat) (v : Store Byte) : (s.setStaging k v).reqs = s.reqs := rfl
@[simp] theorem State.setStaging_nextRid (k : Nat) (v : Store Byte) : (s.setStaging k v).nextRid = s.nextRid := rfl
@[simp] theorem State.setStaging_hwReq (k : Nat) (v : Store Byte) : (s.setStaging k v).hwReq = s.hwReq := rfl
@[simp] theorem State.setStaging_partsOut (k : Nat) (v : Store Byte) : (s.setStaging k v).partsOut = s.partsOut := rfl
@[simp] theorem State.setStaging_partsIn (k : Nat) (v : Store Byte) : (s.setStaging k v).partsIn = s.partsIn := rfl
@[simp] theorem State.setStaging_nextToken (k : Nat) (v : Store Byte) : (s.setStaging k v).nextToken = s.nextToken := rfl
@[simp] theorem State.setStaging_windows (k : Nat) (v : Store Byte) : (s.setStaging k v).windows = s.windows := rfl
@[simp] theorem State.setStaging_indexes (k : Nat) (v : Store Byte) : (s.setStaging k v).indexes = s.indexes := rfl
@[simp] theorem State.setStaging_slices (k : Nat) (v : Store Byte) : (s.setStaging k v).slices = s.slices := rfl
@[simp] theorem State.setStaging_host (k : Nat) (v : Store Byte) : (s.setStaging k v).host = s.host := rfl
@[simp] theorem State.setStaging_urdun (k : Nat) (v : Store Byte) : (s.setStaging k v).urdun = s.urdun := rfl
@[simp] theorem State.setStaging_points (k : Nat) (v : Store Byte) : (s.setStaging k v).points = s.points := rfl
@[simp] theorem State.setStaging_progs (k : Nat) (v : Store Byte) : (s.setStaging k v).progs = s.progs := rfl
@[simp] theorem State.setStaging_hbm (k : Nat) (v : Store Byte) : (s.setStaging k v).hbm = s.hbm := rfl
@[simp] theorem State.setStaging_mem (k : Nat) (v : Store Byte) : (s.setStaging k v).mem = s.mem := rfl
@[simp] theorem State.setStaging_cist (k : Nat) (v : Store Byte) : (s.setStaging k v).cist = s.cist := rfl
@[simp] theorem State.setStaging_rst (k : Nat) (v : Store Byte) : (s.setStaging k v).rst = s.rst := rfl
@[simp] theorem State.setStaging_basins (k : Nat) (v : Store Byte) : (s.setStaging k v).basins = s.basins := rfl
@[simp] theorem State.setStaging_record (k : Nat) (v : Store Byte) : (s.setStaging k v).record = s.record := rfl
@[simp] theorem State.setStaging_keeper (k : Nat) (v : Store Byte) : (s.setStaging k v).keeper = s.keeper := rfl

/-! ### stage -/

@[simp] theorem State.stage_pending (k : Nat) (v : U64) : (s.stage k v).pending = s.pending := rfl
@[simp] theorem State.stage_free (k : Nat) (v : U64) : (s.stage k v).free = s.free := rfl
@[simp] theorem State.stage_out (k : Nat) (v : U64) : (s.stage k v).out = s.out := rfl
@[simp] theorem State.stage_regs (k : Nat) (v : U64) : (s.stage k v).regs = s.regs := rfl
@[simp] theorem State.stage_commit (k : Nat) (v : U64) : (s.stage k v).commit = s.commit := rfl
@[simp] theorem State.stage_clep (k : Nat) (v : U64) : (s.stage k v).clep = s.clep := rfl
@[simp] theorem State.stage_reqs (k : Nat) (v : U64) : (s.stage k v).reqs = s.reqs := rfl
@[simp] theorem State.stage_nextRid (k : Nat) (v : U64) : (s.stage k v).nextRid = s.nextRid := rfl
@[simp] theorem State.stage_hwReq (k : Nat) (v : U64) : (s.stage k v).hwReq = s.hwReq := rfl
@[simp] theorem State.stage_partsOut (k : Nat) (v : U64) : (s.stage k v).partsOut = s.partsOut := rfl
@[simp] theorem State.stage_partsIn (k : Nat) (v : U64) : (s.stage k v).partsIn = s.partsIn := rfl
@[simp] theorem State.stage_nextToken (k : Nat) (v : U64) : (s.stage k v).nextToken = s.nextToken := rfl
@[simp] theorem State.stage_windows (k : Nat) (v : U64) : (s.stage k v).windows = s.windows := rfl
@[simp] theorem State.stage_indexes (k : Nat) (v : U64) : (s.stage k v).indexes = s.indexes := rfl
@[simp] theorem State.stage_slices (k : Nat) (v : U64) : (s.stage k v).slices = s.slices := rfl
@[simp] theorem State.stage_host (k : Nat) (v : U64) : (s.stage k v).host = s.host := rfl
@[simp] theorem State.stage_urdun (k : Nat) (v : U64) : (s.stage k v).urdun = s.urdun := rfl
@[simp] theorem State.stage_points (k : Nat) (v : U64) : (s.stage k v).points = s.points := rfl
@[simp] theorem State.stage_fabric (k : Nat) (v : U64) : (s.stage k v).fabric = s.fabric := rfl
@[simp] theorem State.stage_progs (k : Nat) (v : U64) : (s.stage k v).progs = s.progs := rfl
@[simp] theorem State.stage_hbm (k : Nat) (v : U64) : (s.stage k v).hbm = s.hbm := rfl
@[simp] theorem State.stage_mem (k : Nat) (v : U64) : (s.stage k v).mem = s.mem := rfl
@[simp] theorem State.stage_cist (k : Nat) (v : U64) : (s.stage k v).cist = s.cist := rfl
@[simp] theorem State.stage_rst (k : Nat) (v : U64) : (s.stage k v).rst = s.rst := rfl
@[simp] theorem State.stage_basins (k : Nat) (v : U64) : (s.stage k v).basins = s.basins := rfl
@[simp] theorem State.stage_record (k : Nat) (v : U64) : (s.stage k v).record = s.record := rfl
@[simp] theorem State.stage_keeper (k : Nat) (v : U64) : (s.stage k v).keeper = s.keeper := rfl

@[simp] theorem State.withCist_cist (c : Cistern) : (s.withCist c).cist = c := rfl
@[simp] theorem State.withReads_mem (l : List LtRead) : (s.withReads l).mem = { s.mem with reads := l } := rfl

/-! ### Reading a register -/

/-- A register reads the value written to it. -/
@[simp] theorem State.reg_setReg_same (k : Nat) (v : U64) : (s.setReg k v).reg k = v := Store.get_put_same _ _ _ _

/-- Every other register reads as before. -/
theorem State.reg_setReg_other (k j : Nat) (v : U64) (h : j ≠ k) : (s.setReg k v).reg j = s.reg j :=
  Store.get_put_other _ _ _ _ _ h

/-- A field reads the value written to it. -/
theorem State.regF_setRegF_same (k l n v : Nat) (h : l + n ≤ 64) : (s.setRegF k l n v).regF k l n = v % 2 ^ n := by
  unfold State.regF State.setRegF
  rw [State.reg_setReg_same, field_setField_same _ _ _ _ h]

/-- A field of the same register that does not overlap reads as before. -/
theorem State.regF_setRegF_apart (k l n v l' n' : Nat) (h : l + n ≤ 64) (d : l + n ≤ l' ∨ l' + n' ≤ l) :
    (s.setRegF k l n v).regF k l' n' = s.regF k l' n' := by
  unfold State.regF State.setRegF
  rw [State.reg_setReg_same, field_setField_other _ _ _ _ _ _ h d]

/-- A write of a field leaves every other register alone. -/
theorem State.reg_setRegF_other (k j l n v : Nat) (h : j ≠ k) : (s.setRegF k l n v).reg j = s.reg j :=
  s.reg_setReg_other _ _ _ h

theorem State.reg_bump_other (k j l n v : Nat) (h : j ≠ k) : (s.bump k l n v).reg j = s.reg j := s.reg_setReg_other _ _ _ h

theorem State.reg_bumpSat_other (k j l n v : Nat) (h : j ≠ k) : (s.bumpSat k l n v).reg j = s.reg j :=
  s.reg_setReg_other _ _ _ h

/-- A counter that wraps. -/
theorem State.regF_bump_same (k l n v : Nat) (h : l + n ≤ 64) : (s.bump k l n v).regF k l n = (s.regF k l n + v) % 2 ^ n :=
  s.regF_setRegF_same _ _ _ _ h

/-- A counter that saturates. -/
theorem State.regF_bumpSat_same (k l n v : Nat) (h : l + n ≤ 64) :
    (s.bumpSat k l n v).regF k l n = min (s.regF k l n + v) (2 ^ n - 1) := by
  unfold State.bumpSat
  rw [State.regF_setRegF_same _ _ _ _ _ h]
  unfold satAdd
  have : 0 < 2 ^ n := Nat.two_pow_pos n
  exact Nat.mod_eq_of_lt (by omega)

/-- A bit set to 1 reads 1. -/
theorem State.bit_setRegF_one (k i : Nat) (h : i + 1 ≤ 64) : bit ((s.setRegF k i 1 1).reg k) i = true := by
  unfold State.setRegF
  rw [State.reg_setReg_same, bit_setField_same _ _ _ h]
  rfl

/-! ### Reading a unit -/

@[simp] theorem State.fn_setFn_same (f : Nat) (h : HostFn) : (s.setFn f h).fn f = h := Store.get_put_same _ _ _ _
theorem State.fn_setFn_other (f g : Nat) (h : HostFn) (d : g ≠ f) : (s.setFn f h).fn g = s.fn g :=
  Store.get_put_other _ _ _ _ _ d
@[simp] theorem State.basin_setBasin_same (b : Nat) (v : Basin) : (s.setBasin b v).basin b = v := Store.get_put_same _ _ _ _
theorem State.basin_setBasin_other (b c : Nat) (v : Basin) (d : c ≠ b) : (s.setBasin b v).basin c = s.basin c :=
  Store.get_put_other _ _ _ _ _ d
@[simp] theorem State.index?_setIndex_same (i : Nat) (x : Index) : (s.setIndex i x).index? i = some x :=
  Store.find?_insert_same _ _ _
theorem State.index?_setIndex_other (i j : Nat) (x : Index) (d : j ≠ i) : (s.setIndex i x).index? j = s.index? j :=
  Store.find?_insert_other _ _ _ _ d
@[simp] theorem State.req?_setReq_same (i : Nat) (r : Req) : (s.setReq i r).req? i = some r := Store.find?_insert_same _ _ _
theorem State.req?_setReq_other (i j : Nat) (r : Req) (d : j ≠ i) : (s.setReq i r).req? j = s.req? j :=
  Store.find?_insert_other _ _ _ _ d
theorem State.req?_modReq_same (i : Nat) (f : Req → Req) : (s.modReq i f).req? i = (s.req? i).map f :=
  Store.find?_adjust_same _ _ _
theorem State.req?_modReq_other (i j : Nat) (f : Req → Req) (d : j ≠ i) : (s.modReq i f).req? j = s.req? j :=
  Store.find?_adjust_other _ _ _ _ d
@[simp] theorem State.stack_setStack_same (k : Nat) (v : Stack) : (s.setStack k v).stack k = v := Store.get_put_same _ _ _ _
@[simp] theorem State.point_setPoint_same (k : Nat) (v : SPoint) : (s.setPoint k v).point k = v := Store.get_put_same _ _ _ _
theorem State.point_setPoint_other (k j : Nat) (v : SPoint) (d : j ≠ k) : (s.setPoint k v).point j = s.point j :=
  Store.get_put_other _ _ _ _ _ d
@[simp] theorem State.port_setPort_same (k : Nat) (v : UPort) : (s.setPort k v).port k = v := Store.get_put_same _ _ _ _
theorem State.port_setPort_other (k j : Nat) (v : UPort) (d : j ≠ k) : (s.setPort k v).port j = s.port j :=
  Store.get_put_other _ _ _ _ _ d
@[simp] theorem State.lane_setLane_same (k : Nat) (v : Lane) : (s.setLane k v).lane k = v := Store.get_put_same _ _ _ _
@[simp] theorem State.lun_setLun_same (k : Nat) (v : Lun) : (s.setLun k v).lun k = v := Store.get_put_same _ _ _ _
@[simp] theorem State.region_setRegion_same (k : Nat) (v : Region) : (s.setRegion k v).region k = v := Store.get_put_same _ _ _ _
@[simp] theorem State.prog_setProg_same (k : Nat) (v : ProgSlot) : (s.setProg k v).prog k = v := Store.get_put_same _ _ _ _

@[simp] theorem State.rill_setRill_same (k : Nat) (v : Rill) : (s.setRill k v).rill k = v := Store.get_put_same _ _ _ _
theorem State.rill_setRill_other (k j : Nat) (v : Rill) (d : j ≠ k) : (s.setRill k v).rill j = s.rill j :=
  Store.get_put_other _ _ _ _ _ d
@[simp] theorem State.router_setRill (k j : Nat) (v : Rill) : (s.setRill k v).router j = s.router j := rfl
@[simp] theorem State.sram_setRill (k j : Nat) (v : Rill) : (s.setRill k v).sram j = s.sram j := rfl
@[simp] theorem State.router_setRouter_same (k : Nat) (v : List Msg) : (s.setRouter k v).router k = v :=
  Store.get_put_same _ _ _ _
theorem State.router_setRouter_other (k j : Nat) (v : List Msg) (d : j ≠ k) : (s.setRouter k v).router j = s.router j :=
  Store.get_put_other _ _ _ _ _ d
@[simp] theorem State.rill_setRouter (k j : Nat) (v : List Msg) : (s.setRouter k v).rill j = s.rill j := rfl
@[simp] theorem State.sram_setSram_same (k : Nat) (v : Sram) : (s.setSram k v).sram k = v := Store.get_put_same _ _ _ _
theorem State.sram_setSram_other (k j : Nat) (v : Sram) (d : j ≠ k) : (s.setSram k v).sram j = s.sram j :=
  Store.get_put_other _ _ _ _ _ d
@[simp] theorem State.rill_setSram (k j : Nat) (v : Sram) : (s.setSram k v).rill j = s.rill j := rfl
@[simp] theorem State.spout_setSpout_same (k : Nat) (v : Spout) : (s.setSpout k v).spout k = v := Store.get_put_same _ _ _ _
theorem State.spout_setSpout_other (k j : Nat) (v : Spout) (d : j ≠ k) : (s.setSpout k v).spout j = s.spout j :=
  Store.get_put_other _ _ _ _ _ d
@[simp] theorem State.stack_setSpout (k j : Nat) (v : Spout) : (s.setSpout k v).stack j = s.stack j := rfl
@[simp] theorem State.spout_setStack (k j : Nat) (v : Stack) : (s.setStack k v).spout j = s.spout j := rfl
theorem State.stack_setStack_other (k j : Nat) (v : Stack) (d : j ≠ k) : (s.setStack k v).stack j = s.stack j :=
  Store.get_put_other _ _ _ _ _ d
theorem State.lane_setLane_other (k j : Nat) (v : Lane) (d : j ≠ k) : (s.setLane k v).lane j = s.lane j :=
  Store.get_put_other _ _ _ _ _ d
theorem State.lun_setLun_other (k j : Nat) (v : Lun) (d : j ≠ k) : (s.setLun k v).lun j = s.lun j :=
  Store.get_put_other _ _ _ _ _ d
theorem State.region_setRegion_other (k j : Nat) (v : Region) (d : j ≠ k) : (s.setRegion k v).region j = s.region j :=
  Store.get_put_other _ _ _ _ _ d
theorem State.prog_setProg_other (k j : Nat) (v : ProgSlot) (d : j ≠ k) : (s.setProg k v).prog j = s.prog j :=
  Store.get_put_other _ _ _ _ _ d
@[simp] theorem State.index?_eraseIndex_same (i : Nat) : (s.eraseIndex i).index? i = none := Store.find?_erase_same _ _
theorem State.index?_eraseIndex_other (i j : Nat) (d : j ≠ i) : (s.eraseIndex i).index? j = s.index? j :=
  Store.find?_erase_other _ _ _ d
/-- A queue pair reads the value written to it. -/
@[simp] theorem State.queue_setQueue_same (f q : Nat) (v : Queue) : (s.setQueue f q v).queue f q = v := by
  unfold State.queue State.setQueue
  rw [State.fn_setFn_same]
  exact Store.get_put_same _ _ _ _

/-- Every other queue pair of the function reads as before. -/
theorem State.queue_setQueue_other (f q r : Nat) (v : Queue) (d : r ≠ q) : (s.setQueue f q v).queue f r = s.queue f r := by
  unfold State.queue State.setQueue
  rw [State.fn_setFn_same]
  exact Store.get_put_other _ _ _ _ _ d

/-- A queue pair of another function reads as before. -/
theorem State.queue_setQueue_fn (f g q r : Nat) (v : Queue) (d : g ≠ f) : (s.setQueue f q v).queue g r = s.queue g r := by
  unfold State.queue State.setQueue
  rw [State.fn_setFn_other _ _ _ _ d]

@[simp] theorem State.slot_setSlot_same (k : Nat) (v : EvSlot) : (s.setSlot k v).slot k = v := Store.get_put_same _ _ _ _
theorem State.slot_setSlot_other (k j : Nat) (v : EvSlot) (d : j ≠ k) : (s.setSlot k v).slot j = s.slot j :=
  Store.get_put_other _ _ _ _ _ d
@[simp] theorem State.bridge_setBridge_same (k : Nat) (v : Bridge) : (s.setBridge k v).bridge k = v := Store.get_put_same _ _ _ _
@[simp] theorem State.stagedReg_stage_same (k : Nat) (v : U64) : (s.stage k v).stagedReg k = v := by
  have h : Store.get (fun j => s.reg j) (s.stage k v).staged k = v := Store.get_put_same _ _ _ _
  exact h
theorem State.stagedReg_stage_other (k j : Nat) (v : U64) (d : j ≠ k) : (s.stage k v).stagedReg j = s.stagedReg j :=
  Store.get_put_other (fun j => s.reg j) _ _ _ _ d

/-! ### Events, and writes that are dropped -/

/-- A message-signalled interrupt changes the function and what leaves the node, and nothing else. -/
theorem State.sendVector_frame (f v : Nat) : ∃ h o, s.sendVector f v = { s with
    host := h
    out := o } := by
  unfold State.sendVector
  dsimp only
  split
  · exact ⟨_, s.out, rfl⟩
  · exact ⟨s.host, _, rfl⟩

/-- An event of a function changes registers, the function and what leaves the node, and nothing else. -/
theorem State.hqEvent_frame (f b : Nat) : ∃ r h o, s.hqEvent f b = { s with
    regs := r
    host := h
    out := o } := by
  have go : ∀ k e : Nat, ∃ r h o, (if bit (s.reg k) b then s
      else if bit (s.reg e) b then (s.setRegF k b 1 1).sendVector f 0 else s.setRegF k b 1 1) = { s with
        regs := r
        host := h
        out := o } := by
    intro k e
    split
    · exact ⟨s.regs, s.host, s.out, rfl⟩
    · split
      · obtain ⟨h, o, q⟩ := State.sendVector_frame (s.setRegF k b 1 1) f 0
        exact ⟨(s.setRegF k b 1 1).regs, h, o, q⟩
      · exact ⟨(s.setRegF k b 1 1).regs, s.host, s.out, rfl⟩
  exact go (instKey Reg.HQ_EVENT f) (instKey Reg.HQ_EVENT_EN f)

/-- A write that is dropped changes registers, the function and what leaves the node, and nothing else. -/
theorem State.dropWrite_frame (f p o : Nat) : ∃ r h w, s.dropWrite f p o = { s with
    regs := r
    host := h
    out := w } := by
  unfold State.dropWrite
  generalize dropKey f p = k
  dsimp only
  split
  · exact ⟨(s.bumpSat Reg.NS_DROPS 0 32 1).regs, s.host, s.out, rfl⟩
  · generalize fieldsOf _ = v
    obtain ⟨r, h, w, q⟩ := State.hqEvent_frame (s.setReg k v) f 3
    exact ⟨r, h, w, q⟩

/-- A write by the physical function acts where its page answers, and is dropped elsewhere. -/
theorem State.pfWrite_cases (p o : Nat) (go : State) :
    (s.pageUp p = true ∧ s.pfWrite p o go = go) ∨ (s.pageUp p = false ∧ s.pfWrite p o go = s.dropWrite 0 p o) := by
  unfold State.pfWrite
  cases h : s.pageUp p
  · exact .inr ⟨rfl, rfl⟩
  · exact .inl ⟨rfl, rfl⟩

/-! ### The canonical form of the tables -/

theorem State.setFn_wf (f : Nat) (h : HostFn) (w : Store.Wf (fun _ => HostFn.reset) s.host) :
    Store.Wf (fun _ => HostFn.reset) (s.setFn f h).host := Store.wf_put _ _ _ _ w
theorem State.setBasin_wf (b : Nat) (v : Basin) (w : Store.Wf (fun _ => Basin.reset) s.basins) :
    Store.Wf (fun _ => Basin.reset) (s.setBasin b v).basins := Store.wf_put _ _ _ _ w
theorem State.setPoint_wf (p : Nat) (v : SPoint) (w : Store.Wf (fun _ => SPoint.reset) s.points) :
    Store.Wf (fun _ => SPoint.reset) (s.setPoint p v).points := Store.wf_put _ _ _ _ w
theorem State.setStack_wf (k : Nat) (v : Stack) (w : Store.Wf (fun _ => Stack.reset) s.hbm.dram) :
    Store.Wf (fun _ => Stack.reset) (s.setStack k v).hbm.dram := Store.wf_put _ _ _ _ w
theorem State.setSpout_wf (k : Nat) (v : Spout) (w : Store.Wf (fun _ => Spout.reset) s.hbm.spouts) :
    Store.Wf (fun _ => Spout.reset) (s.setSpout k v).hbm.spouts := Store.wf_put _ _ _ _ w
theorem State.setRill_wf (k : Nat) (v : Rill) (w : Store.Wf (fun _ => Rill.reset) s.fabric.rills) :
    Store.Wf (fun _ => Rill.reset) (s.setRill k v).fabric.rills := Store.wf_put _ _ _ _ w
theorem State.setPort_wf (p : Nat) (v : UPort) (w : Store.Wf UPort.reset s.urdun.ports) :
    Store.Wf UPort.reset (s.setPort p v).urdun.ports := Store.wf_put _ _ _ _ w
theorem State.setLane_wf (n : Nat) (v : Lane) (w : Store.Wf (fun _ => Lane.reset) s.urdun.lanes) :
    Store.Wf (fun _ => Lane.reset) (s.setLane n v).urdun.lanes := Store.wf_put _ _ _ _ w
theorem State.setLun_wf (k : Nat) (v : Lun) (w : Store.Wf (fun _ => Lun.reset) s.cist.luns) :
    Store.Wf (fun _ => Lun.reset) (s.setLun k v).cist.luns := Store.wf_put _ _ _ _ w
theorem State.setRegion_wf (t : Nat) (v : Region) (w : Store.Wf (fun _ => Region.reset) s.keeper.regions) :
    Store.Wf (fun _ => Region.reset) (s.setRegion t v).keeper.regions := Store.wf_put _ _ _ _ w
theorem State.setProg_wf (n : Nat) (v : ProgSlot) (w : Store.Wf (fun _ => ProgSlot.reset) s.progs) :
    Store.Wf (fun _ => ProgSlot.reset) (s.setProg n v).progs := Store.wf_put _ _ _ _ w
theorem State.setSlot_wf (n : Nat) (v : EvSlot) (w : Store.Wf (fun _ => EvSlot.none) s.clep.slots) :
    Store.Wf (fun _ => EvSlot.none) (s.setSlot n v).clep.slots := Store.wf_put _ _ _ _ w
/-- The tables whose absence is a state of its own keep their keys strictly rising. -/
theorem State.setIndex_sorted (i : Nat) (x : Index) (w : Store.Sorted s.indexes) : Store.Sorted (s.setIndex i x).indexes :=
  Store.sorted_insert _ _ _ w
theorem State.eraseIndex_sorted (i : Nat) (w : Store.Sorted s.indexes) : Store.Sorted (s.eraseIndex i).indexes :=
  Store.sorted_erase _ _ w
theorem State.setReq_sorted (i : Nat) (r : Req) (w : Store.Sorted s.reqs) : Store.Sorted (s.setReq i r).reqs :=
  Store.sorted_insert _ _ _ w

/-- Writes of registers keep the canonical form of the register table. -/
theorem State.setReg_wf (k : Nat) (v : U64) (h : Store.Wf resetReg s.regs) : Store.Wf resetReg (s.setReg k v).regs :=
  Store.wf_put _ _ _ _ h

end Sys2Proof.Machine
end

