-- ==== Sys2Proof/Laws/Terms.lean ====
section
/-! SUPPORT. Laws of the terms of the statements: how "only these registers differ" and "this counter is raised" follow from the
named updates and compose, and how completion passes to a weaker claim. -/

namespace Sys2Proof.Machine

variable {s t u : State} {ks js : List Nat}

/-! ### Completion -/

/-- A command that completes with a claim completes with every weaker one. -/
theorem Completes.mono {i : Instr} {P Q : State → Prop} (h : Completes i s P) (w : ∀ t, P t → Q t) : Completes i s Q := by
  obtain ⟨t, e, p⟩ := h
  exact ⟨t, e, w t p⟩

/-- What a completed command answers is the state of which the claim was made. -/
theorem Completes.next {i : Instr} {P : State → Prop} (h : Completes i s P) (e : exec i s = .next t) : P t := by
  obtain ⟨v, ev, p⟩ := h
  rw [ev] at e
  exact (Host.Outcome.next.inj e) ▸ p

/-! ### Only these registers differ -/

theorem OnlyRegs.refl (s : State) (ks : List Nat) : OnlyRegs s s ks := fun _ _ => rfl

theorem OnlyRegs.trans (a : OnlyRegs s t ks) (b : OnlyRegs t u ks) : OnlyRegs s u ks := fun k h => (b k h).trans (a k h)

/-- More registers may be named. -/
theorem OnlyRegs.mono (a : OnlyRegs s t ks) (h : ∀ k ∈ ks, k ∈ js) : OnlyRegs s t js := fun k hk => a k (fun c => hk (h k c))

/-- States with one register table. -/
theorem OnlyRegs.of_regs (h : t.regs = s.regs) : OnlyRegs s t ks := by
  intro k _
  unfold State.reg
  rw [h]

theorem OnlyRegs.setReg (k : Nat) (v : U64) (h : k ∈ ks) : OnlyRegs s (s.setReg k v) ks :=
  fun _ hj => s.reg_setReg_other _ _ _ (fun e => hj (e ▸ h))

theorem OnlyRegs.setRegF (k l n v : Nat) (h : k ∈ ks) : OnlyRegs s (s.setRegF k l n v) ks := OnlyRegs.setReg k _ h

theorem OnlyRegs.bump (k l n v : Nat) (h : k ∈ ks) : OnlyRegs s (s.bump k l n v) ks := OnlyRegs.setReg k _ h

theorem OnlyRegs.bumpSat (k l n v : Nat) (h : k ∈ ks) : OnlyRegs s (s.bumpSat k l n v) ks := OnlyRegs.setReg k _ h

/-- A field of a register that is not named reads as before. -/
theorem OnlyRegs.regF (a : OnlyRegs s t ks) (k l n : Nat) (h : k ∉ ks) : t.regF k l n = s.regF k l n := by
  unfold State.regF
  rw [a k h]

/-! ### Counters -/

theorem Counted.of_bump (k l n d : Nat) (h : l + n ≤ 64) : Counted s (s.bump k l n d) k l n d := s.regF_bump_same _ _ _ _ h

theorem CountedSat.of_bumpSat (k l n d : Nat) (h : l + n ≤ 64) : CountedSat s (s.bumpSat k l n d) k l n d :=
  s.regF_bumpSat_same _ _ _ _ h

/-- A counter that an update before leaves alone. -/
theorem Counted.after (k l n d : Nat) (a : t.regF k l n = s.regF k l n) (b : Counted t u k l n d) : Counted s u k l n d := by
  unfold Counted at *
  rw [b, a]

theorem CountedSat.after (k l n d : Nat) (a : t.regF k l n = s.regF k l n) (b : CountedSat t u k l n d) :
    CountedSat s u k l n d := by
  unfold CountedSat at *
  rw [b, a]

/-- A counter that an update behind leaves alone. -/
theorem Counted.before (k l n d : Nat) (a : Counted s t k l n d) (b : u.regF k l n = t.regF k l n) : Counted s u k l n d := by
  unfold Counted at *
  rw [b, a]

theorem CountedSat.before (k l n d : Nat) (a : CountedSat s t k l n d) (b : u.regF k l n = t.regF k l n) :
    CountedSat s u k l n d := by
  unfold CountedSat at *
  rw [b, a]

/-- Two counts add up. -/
theorem Counted.add (k l n d e : Nat) (a : Counted s t k l n d) (b : Counted t u k l n e) : Counted s u k l n (d + e) := by
  unfold Counted at *
  rw [b, a, Nat.mod_add_mod, Nat.add_assoc]

/-! ### One bit set -/

/-- Setting a bit of a register sets exactly that bit. -/
theorem OnlyBitSet.of_setRegF (k b : Nat) (h : b < 64) : OnlyBitSet s (s.setRegF k b 1 1) k b := by
  refine ⟨rfl, OnlyRegs.setRegF k _ _ _ List.mem_cons_self, s.bit_setRegF_one k b (by omega), ?_⟩
  intro j hj
  unfold State.setRegF
  rw [State.reg_setReg_same, bit_setField_other _ _ _ _ _ (by omega) (by omega)]

/-! ### Work for a request -/

/-- A state in which the units, parts, windows and reads are those of another. -/
theorem State.NoWork.of_eq (rid : Nat) (h : s.NoWork rid) (a : t.fabric = s.fabric) (b : t.partsOut = s.partsOut)
    (c : t.windows = s.windows) (d : t.mem.reads = s.mem.reads) : t.NoWork rid := by
  unfold State.NoWork at *
  rw [a, b, c, d]
  exact h

end Sys2Proof.Machine
end

