-- ==== Sys2Proof/Tests/Slice0.lean ====
section
/-! SUPPORT. The model's own tests: worked examples of the manual, ill-formed commands, and for each statement with
  hypotheses a
state and operands that meet all of them together. -/

set_option linter.unusedVariables false
set_option Elab.async false

namespace Sys2Proof.Tests

open Sys2Proof Sys2Proof.Machine

/-! ### Small states -/

/-- A Basin in service with its maps set. -/
def tBasin : Basin := { Basin.reset with state := 0, mapsSet := true }

/-- The node in service (PHASE 3) at count 1,000,000 with both Basins in service. -/
def up : State :=
  { State.reset with
    rst := { Rst.reset with phase := 3, step := 10, memValid := true }
    basins := [(0, tBasin), (1, tBasin)]
    clep := { Clep.reset with count := 1000000, countValid := true } }

/-- The same node with port 0 up. -/
def upPort : State :=
  { up with urdun := { Urdun.reset with ports := [(0, { UPort.reset 0 with state := .up })] } }

/-- A header for slice 0 with a deadline ahead. -/
def tHdr (index len : Nat) (params : List Byte) : ReqHdr :=
  ⟨0, 1, 0, 1, BitVec.ofNat 8 index, 0, 77, 0, BitVec.ofNat 32 len, 2000000, 0, 0, params, 0⟩

/-- The header with its CRC. -/
def sealed (op : Nat) (h : ReqHdr) (p : List Byte) : ReqHdr := { h with crc := reqCrc op h p }

/-- The CRC of such a header is right. -/
theorem sealed_crc (op : Nat) (h : ReqHdr) (p : List Byte) : (sealed op h p).crc = reqCrc op (sealed op h p) p := rfl

/-- A CRC that is one too high is wrong. -/
theorem add_one_ne (x : U32) : x + 1 ≠ x := by
  intro h
  have e := congrArg BitVec.toNat h
  simp at e
  omega

/-- The header with a CRC that is one too high. -/
def wrongCrc (op : Nat) (h : ReqHdr) (p : List Byte) : ReqHdr := { h with crc := reqCrc op h p + 1 }

/-- The CRC of such a header is wrong. -/
theorem wrong_crc (op : Nat) (h : ReqHdr) (p : List Byte) :
    (wrongCrc op h p).crc ≠ reqCrc op (wrongCrc op h p) p := by
  show reqCrc op h p + 1 ≠ reqCrc op h p
  exact add_one_ne _

/-- A request of opcode `op` from port 0 in phase `ph`. -/
def tReq (op : Nat) (h : ReqHdr) (p : List Byte) (ph : Phase) : Req :=
  { op := op, hdr := h, payload := p, src := .port 0 0x1000, tAccept := 900000, life := .running, phase := ph, gen := 1
    epoch := 0, entry := entryReset 0, nodePart := false, ran := true }

/-- The node of `up` with one request, number 1. -/
def withReq (r : Req) : State := { up with reqs := [(1, r)], nextRid := 2 }

/-- A TOPK header: FMT 0, K 1, one row of one entry. -/
def topkHdr : ReqHdr := tHdr 0 16 ([0, 1, 0, 1, 0, 1, 0, 0, 0] ++ zeroBytes 10)

/-- One entry: global ID 5, score 1.0. -/
def topkBytes : List Byte := leBytes 8 5 ++ leBytes 4 0x3F800000 ++ zeroBytes 4

/-- The TOPK request in its one phase. -/
def topkReq : Req := tReq opTopk (sealed opTopk topkHdr topkBytes) topkBytes .select

/-- A GATHER of one position of index 3. -/
def gatherReq : Req := tReq opGather (tHdr 3 8 (zeroBytes 3 ++ [1, 0, 0, 0] ++ zeroBytes 12)) (leBytes 8 5) .coalesce

/-- A small index: INT8, dimension 64, slice 0, Basin 0. -/
def tDesc : IdxDesc := ⟨.ip, .int8, 64, 64, 0, 0, false, 64, 64, 1⟩

/-- A ready index with two shards. -/
def tIndex : Index := { desc := tDesc, state := .ready, shards := [1, 2], cur := 1, live := 1, created := 1 }

/-- A lower-tier read that `w` waits for. -/
def tRead (w : Waiter) : LtRead := ⟨.page 7, [w], 0, 0, 0, false, 0, false, [], [], false, false⟩

/-- The bytes of a part with TOKEN 9 for index 3, its DEADLINE `d`. -/
def tPart (d : Nat) : List Byte := leBytes 8 9 ++ leBytes 8 0x1000 ++ leBytes 8 d ++ leBytes 4 1 ++ [3, 0, 0, 0] ++
  leBytes 4 1

/-- Its modes are legal. -/
theorem up_legal : up.ModesLegal := by
  have ht : tBasin.Legal := by unfold Basin.Legal; decide
  have hr : Basin.reset.Legal := by unfold Basin.Legal; decide
  refine ⟨by unfold Rst.Legal; decide +kernel, fun b => ?_⟩
  have h : up.basin b = tBasin ∨ up.basin b = Basin.reset := by
    show (Store.find? [(0, tBasin), (1, tBasin)] b).getD Basin.reset = _ ∨
      (Store.find? [(0, tBasin), (1, tBasin)] b).getD Basin.reset = _
    simp only [Store.find?]
    split
    · exact .inl rfl
    · split
      · exact .inl rfl
      · exact .inr rfl
  rcases h with h | h <;> rw [h] <;> assumption

/-- A frame with an empty payload from node 5 to node 0. -/
def tFrame (kind node u : Nat) (first last : Bool) : Frame := ⟨kind, first, last, 256, (mkAdr node u).toNat, (mkAdr 5
  1).toNat, 3, 0, [], 0⟩

/-- The CRC of a frame with an empty payload is right. -/
theorem frame_crc (l : Nat) (f : Frame) (h : (frameBody l f).length = 40) (e : leAt (frameBytes l f 0) 28 2 = 0) :
    leAt (frameBytes l f 0) (40 + leAt (frameBytes l f 0) 28 2) 4 =
      (crc32c ((frameBytes l f 0).take (40 + leAt (frameBytes l f 0) 28 2))).toNat := by
  have hl : ∀ n v : Nat, (leBytes n v).length = n := by
    intro n
    induction n with
    | zero => intro v; rfl
    | succ n ih => intro v; simp [leBytes, ih]
  have hn : ∀ n v : Nat, leNat (leBytes n v) = v % 256 ^ n := by
    intro n
    induction n with
    | zero => intro v; simp [leBytes, leNat, Nat.mod_one]
    | succ n ih =>
      intro v
      simp only [leBytes, leNat, ih, BitVec.toNat_ofNat]
      have : v % 256 ^ (n + 1) = v % 256 + 256 * (v / 256 % 256 ^ n) := by rw [Nat.pow_succ, Nat.mul_comm, Nat.mod_mul]
      rw [this]
  rw [e]
  have ht : (frameBytes l f 0).take 40 = frameBody l f := by
    unfold frameBytes
    rw [List.append_assoc]
    exact List.take_left' h
  have hd : ((frameBytes l f 0).drop 40).take 4 = leBytes 4 ((crc32c (frameBody l f)).toNat ^^^ (0 : U32).toNat) := by
    unfold frameBytes
    rw [List.append_assoc, List.drop_left' h]
    exact List.take_left' (hl _ _)
  show leNat (((frameBytes l f 0).drop 40).take 4) = _
  rw [hd, hn, ht]
  have : (crc32c (frameBody l f)).toNat < 4294967296 := BitVec.isLt _
  simp
  omega

/-- An engine that waits on no flag. -/
def notWait : Eng → Bool
  | .waitFlag _ _ _ _ => false
  | _ => true

/-- No engine of such a list waits on a flag. -/
theorem no_wait (l : List Eng) (h : ∀ e ∈ l, notWait e = true) :
    ∀ e ∈ l, ∀ f m pc d, e ≠ Eng.waitFlag f m pc d := by
  intro e he f m pc d c
  subst c
  exact absurd (h _ he) (by simp [notWait])

/-- The node of `up` with Rill 0 as given. -/
def withRill (r : Rill) : State := { up with fabric := { Fabric.reset with rills := [(0, r)] } }

/-- A Rill whose five engines run. -/
def tRill : Rill := { Rill.reset with func := 1, engs := List.replicate 5 .run }

/-- The node of `up` with Spout 0 as given and its stack trained with on-die ECC. -/
def withSpout (p : Spout) : State :=
  { up with hbm := { Hbm.reset with spouts := [(0, p)], dram := [(4, { Stack.reset with state := 1, ctrlEcc := false })] } }

/-- The codeword of page 7, its bytes not written out. -/
def tWord : Cword := ⟨7, none, false, 1, [], false⟩

/-- A formatted Cistern of one LUN in each of eight channels with one group, whose first row holds the page 7. -/
def tCist (closed : Bool) (done : List Nat) : Cistern :=
  { Cistern.reset with
    state := 2, stripe := 8, planes := 1, pages := 64, blocks := 16, rated := 1000, maxTemp := 85, generation := 1
    userPages := 100, luns := (List.range 8).map (fun k => (k, { Lun.reset with state := 1 }))
    groups := [(1, ⟨(List.range 8).map (fun k => (k, 0, 0)), 0, 1, true, false, false⟩)], nextGroup := 2
    rows := [⟨1, 0, [tWord], 0, closed, done⟩] }

/-- A SEARCH of index 3 whose query has an infinite element, which R74 refuses. -/
def badSearch : Req := tReq opSearch (tHdr 3 256 ([0, 0, 1, 0] ++ zeroBytes 15)) ([0, 0, 0x80, 0x7F] ++ zeroBytes 252)
  .coarse

/-- The node of `up` with an image length written for program slot 1. -/
def loadState : State := { up with regs := [(Reg.POUR_IMAGE_LEN + 0x40, 128)] }

/-- The load of slot 1 staged on it. -/
def loading : State := loadState.committing (Reg.POUR_CFG + 0x40 * (1 : Fin 8).val) 1 id

/-- An image of fewer than 192 bytes has no room for a step and fails the checks of a load. -/
theorem short_image (img : List Byte) (h : img.length < 192) : ∃ e, loadImage img = .error e := by
  unfold loadImage
  split
  · exact ⟨_, rfl⟩
  · have hp : imgPlaced img (imgTables img) = false := by
      cases e : imgPlaced img (imgTables img) with
      | false => rfl
      | true =>
        unfold imgPlaced at e
        simp only [Bool.and_eq_true, decide_eq_true_eq, List.all_eq_true] at e
        obtain ⟨⟨⟨hc, -⟩, hs⟩, -⟩ := e
        have := hs (leAt img 24 8, 64 * leAt img 8 4) (List.mem_mergeSort.mpr (by simp [imgSections]; omega))
        have h1 := this.1
        have h2 := this.2
        have h3 := hc.1
        simp only at h2
        omega
    exact ⟨0x11, by simp [hp]⟩

/-- That load takes no byte, whatever stands in host memory (log 30). -/
theorem load_need : loading.progNeed 1 = 0 := by
  have hl : loading.stagedF (Reg.POUR_IMAGE_LEN + 0x40 * 1) 0 40 = 128 := by decide +kernel
  unfold State.progNeed
  simp only [hl]
  obtain ⟨e, he⟩ := short_image (List.take 128 (Config.hostImage (loading.stagedF (Reg.POUR_IMAGE_ADDR + 0x40 * 1) 0 64)
    128
    (loading.free + 1))) (by rw [List.length_take]; omega)
  rw [he]

/-- They fit. -/
theorem load_fits : needsFit loading.adopted loading.mapList 0
    (fun e b => loading.newBaseline 0 e b + loading.newPrograms 1 0 e b) = true := by
  have h0 : loading.progAction 0 ≠ 1 := by decide +kernel
  have hn : ∀ e b, loading.newPrograms 1 0 e b = 0 := by
    intro e b
    have hs : loading.newPrograms 1 0 e b = 0 + (if loading.progAction 0 = 1 ∧ _ then _ else 0) +
      (if loading.progAction 1 = 1 ∧ loading.stagedF (Reg.POUR_CFG + 0x40 * 1) 8 4 = 0 then
        loading.progNeed 1 * (e.terracesIn b).length else 0) := rfl
    rw [hs, if_neg (fun h => h0 h.1), load_need]
    split <;> omega
  have h : ∀ m ∈ loading.mapList, ∀ b ∈ List.range 2, loading.newBaseline 0 (mapAt m 0) b = 0 := by decide +kernel
  refine List.all_eq_true.mpr fun m hm => List.all_eq_true.mpr fun b hb => decide_eq_true ?_
  show loading.newBaseline 0 (mapAt m 0) b + loading.newPrograms 1 0 (mapAt m 0) b ≤ _
  rw [hn, h m hm b hb]
  exact Nat.zero_le _

/-- No program slot fails. -/
theorem load_progs : (List.range 8).flatMap (loading.progFails loading.adopted) = [] := by
  refine List.flatMap_eq_nil_iff.mpr fun n hn => ?_
  by_cases e : n = 1
  · subst e
    have hk : loading.stagedF (Reg.POUR_CFG + 0x40 * 1) 8 4 = 0 := by decide +kernel
    unfold State.progFails
    simp only [hk, load_fits]
    decide +kernel
  · revert n
    decide +kernel

/-- The load passes every check. -/
theorem load_committable : loadState.Committable (Reg.POUR_CFG + 0x40 * (1 : Fin 8).val) 1 id := by
  have h : loading.ownFails loading.adopted = [] := by
    unfold State.ownFails
    rw [load_progs]
    decide +kernel
  have h2 : loading.ownFail loading.adopted = none := by
    unfold State.ownFail
    rw [h]
    rfl
  refine ⟨?_, ?_, ?_, ?_, ?_, h2, ?_⟩
  iterate 4 decide +kernel
  · unfold State.NoActions
    decide +kernel
  · show loading.poolFails loading.adopted = []
    decide +kernel

/-! ### Worked examples of the manual -/

/-- The query of Table 4-4: elements 0 to 5, then zeros to dimension 32; element 5 is the FP32 value nearest 0.1572. -/
def exQuery : List F32 :=
  [0x3FFE0000, 0xBF020000, 0x3CC00000, 0x3F800000, 0x3E800000, 0x3E20F909] ++ List.replicate 26 0

/-- The row of the same example: zero point 48, scale 2^−7. -/
def exRow : Option Row :=
  rowOfCodes .int8 0x3C000000 48 ([120, 0, 48, 108, 72] ++ List.replicate 27 48) 1 0

/-- Table 4-4: the query's codes, scale 2^−6 and norm 147 ÷ 64. -/
theorem test_query_quantized :
    quantizeQuery exQuery = ⟨[127, -32, 2, 64, 16, 10] ++ List.replicate 26 0, 0x3C800000, 0x40130000, false⟩ := by
  decide +kernel

/-- Table 4-5: the row's norm is 108 ÷ 128 and the three scores are those of the table. -/
theorem test_scores :
    exRow.map (fun r => (r.norm, [Metric.ip, .cosine, .euclid].map (fun m => scoreRow m (quantizeQuery exQuery) r))) =
      some (0x3F580000, [0x3FE8E000, 0x3F705398, 0xC0165400]) := by
  decide +kernel

/-- The same row against the all-zero query. -/
theorem test_scores_zero_query :
    exRow.map (fun r => [Metric.ip, .cosine, .euclid].map (fun m => scoreRow m (quantizeQuery (List.replicate 32 0)) r)) =
      some [0, 0, 0xBF364000] := by
  decide +kernel

/-- The score keys of the example, and the key of −0.0, which is that of +0.0 (R90). -/
theorem test_score_keys :
    [(0x3FE8E000 : F32), 0x3F705398, 0xC0165400, 0x80000000, 0].map scoreKey =
      [0xBFE8E000, 0xBF705398, 0x3FE9ABFF, 0x80000000, 0x80000000] := by
  decide +kernel

/-- Two rows that tie: the whole key puts local ID 0x41 first (R13, R90). -/
theorem test_tie_keys :
    entryKey 0x3FE8E000 0x500000200 = 0xBFE8E000 * 2 ^ 64 + 0xFFFFFFFAFFFFFDFF ∧
    entryKey 0x3FE8E000 0x500000041 = 0xBFE8E000 * 2 ^ 64 + 0xFFFFFFFAFFFFFFBE := by
  decide +kernel

/-- The example of R12: three entries in node order. -/
theorem test_node_order :
    sortBy Entry.key [⟨0x300000010, 0x3F400000, 1⟩, ⟨0x100000090, 0x3F400000, 1⟩, ⟨0x700000001, 0x3F4CCCCD, 1⟩] =
      [⟨0x700000001, 0x3F4CCCCD, 1⟩, ⟨0x100000090, 0x3F400000, 1⟩, ⟨0x300000010, 0x3F400000, 1⟩] := by
  decide +kernel

/-- Row 0 of Table 7-5 with K = 3: the entries, DUP_COUNT 1, TIE_EXCL 1. -/
theorem test_topk_row0 :
    topkPart 3 [⟨0x200000040, 0x3F000000, 0x10⟩, ⟨0x100000007, 0x3F400000, 0x10⟩, ⟨0x200000040, 0x3F000000, 0x10⟩,
      ⟨0x300000001, 0x3F000000, 0x11⟩, ⟨0x100000010, 0x3F000000, 0xF⟩, ⟨0x400000000, 0x3E800000, 0x11⟩] =
    (Counts.of 0 3 1 1 0, [(⟨0x100000007, 0x3F400000, 0x10⟩ : Entry), ⟨0x100000010, 0x3F000000, 0xF⟩,
      ⟨0x200000040, 0x3F000000, 0x10⟩].flatMap Entry.bytes) ∧
    (Counts.of 0 3 1 1 0).flags = 0x000A := by
  decide +kernel

/-- Row 1 of Table 7-5: −0.0 with the lower ID goes first and keeps its bits; one empty entry pads. -/
theorem test_topk_row1 :
    topkPart 3 ([⟨0x500000001, 0, 0x20⟩, ⟨0x500000000, 0x80000000, 0x20⟩] ++ List.replicate 4 emptyEntry) =
    (Counts.of 0 2 0 0 0, [(⟨0x500000000, 0x80000000, 0x20⟩ : Entry), ⟨0x500000001, 0, 0x20⟩, emptyEntry].flatMap
      Entry.bytes) := by
  decide +kernel

/-- The codes of an int4 byte 0x3C with zero point 8 (example of R79). -/
theorem test_int4_operands : rowOperands 8 (unpackCodes .int4 [0x3C]) = [4, -5] := by decide +kernel

/-- The upper part of a sketch key at distance 37 (example of R90). -/
theorem test_sketch_key : sketchKey 37 emptyGid = 475 * 2 ^ 64 := by decide +kernel

/-- The check values of the two CRCs over the nine digits: CRC-32C (R49) and CRC-8 (R323). -/
theorem test_crc8 : crc8 [0x31, 0x32, 0x33, 0x34, 0x35, 0x36, 0x37, 0x38, 0x39] = 0xF4 := by decide +kernel

/-- The opcode table gives no row bits, so no word spells a command. -/
theorem test_no_words : decodeTableWord 32 7 = none := rfl

/-! ### Ill-formed commands -/

/-- Every check of `wellFormed` refuses an operand of another length. -/
theorem test_ill_formed :
    (Instr.topk (.port 0 0) (tHdr 0 0 (zeroBytes 18)) []).wellFormed = false ∧
    (Instr.laneInterval (List.replicate 35 ⟨0, 0, 0, 0, 0, 0, 0, 0⟩)).wellFormed = false ∧
    (Instr.weirPass none 1 true 0 [⟨0, 0, 0, 0⟩]).wellFormed = false ∧
    (Instr.weirPass none 1 true 8193 [⟨0, 0, 0, 0⟩]).wellFormed = false ∧
    (Instr.weirPass none 1 true 1 []).wellFormed = false ∧
    (Instr.mailboxSend (.rill ⟨0, 0, 0, 0⟩) (zeroBytes 15) [] 0).wellFormed = false ∧
    (Instr.mailboxSend (.pumphouse 0) (zeroBytes 16) (zeroBytes 16) 0).wellFormed = false := by
  decide +kernel

/-- So do those of the Spouts and of Keeper. -/
theorem test_ill_formed_spout :
    (Instr.spseg ⟨0, 0, 0, 0⟩ 0 (zeroBytes 255) false false).wellFormed = false ∧
    (Instr.spload ⟨0, 0, 0, 0⟩ 0 (zeroBytes 95) none).wellFormed = false ∧
    (Instr.spwl ⟨0, 0, 0, 0⟩ 0 (zeroBytes 31)).wellFormed = false ∧
    (Instr.spfeed ⟨0, 0, 0, 0⟩ ⟨0, zeroBytes 33⟩).wellFormed = false ∧
    (Instr.spdrain ⟨0, 0, 0, 0⟩ ⟨false, zeroBytes 31⟩).wellFormed = false ∧
    (Instr.rawrd ⟨0, 0, 0, 0⟩ 0 ⟨zeroBytes 31, zeroBytes 4⟩).wellFormed = false ∧
    (Instr.rawrd ⟨0, 0, 0, 0⟩ 0 ⟨zeroBytes 32, zeroBytes 5⟩).wellFormed = false ∧
    (Instr.refreshDue ⟨0, 0, true⟩ 0 [1]).wellFormed = false ∧
    (Instr.authOpenDebug (zeroBytes 95)).wellFormed = false ∧
    (Instr.authBlowPwrokLevel (zeroBytes 95)).wellFormed = false ∧
    (Instr.authBlowResetnLevel (zeroBytes 97)).wellFormed = false ∧
    (Instr.authRaiseSvn []).wellFormed = false := by
  decide +kernel

/-- An ill-formed command completes all the same: a record is read at its own length (log 15). -/
theorem test_ill_formed_runs :
    (match step { State.reset with pending := [.authRaiseSvn []] } with
      | .next t => t.pending == []
      | _ => false) = true := by
  decide +kernel

/-- The word of SPACT for row 0x1234 of bank 6: SPOP 1, BA 2, BG 1, the row in OPND (Table 12-2). -/
theorem test_spout_word : spWord 1 6 0x1234 = 0x12340061 := by decide

/-- From reset a command that waits is run: the boot of step 1 of bring-up ends and step 2 begins (R495). -/
theorem test_first_step :
    (match step { State.reset with pending := [.bringupStepDone none 0 none .ok] } with
      | .next t => (t.rst.step, t.pending)
      | _ => (0, [])) = (2, []) := by
  decide +kernel

/-- A quotient halfway between two numbers goes to the even one, any other to the nearer (R3). -/
theorem test_nearest : [nearest 25 10, nearest 35 10, nearest 26 10, nearest 24 10] = [2, 4, 3, 2] := by decide

/-- The words of a submission entry stand at the offsets of Table 18-6, least significant byte first. -/
theorem test_submission_entry :
    parseSq ((List.range 32).map (fun i => BitVec.ofNat 8 i)) =
      ⟨0x0706050403020100, 0x0B0A0908, 0x0F0E0D0C, 0x1716151413121110, 0x1B1A1918, 0x1F1E1D1C⟩ := by decide +kernel

/-! ### The hypotheses of the statements hold together -/

/-- The hypotheses of StepRunsFront hold together. -/
theorem witness_StepRunsFront :
    (∃ (c : Instr) (rest : List Instr) (s : State), (s.pending = c :: rest)) ∧
    (∃ (s : State), (s.pending = [])) :=
  ⟨⟨.resetHoldEnd, [.pwrokFall], { up with pending := [.resetHoldEnd, .pwrokFall] }, by decide +kernel⟩,
   ⟨up, by decide +kernel⟩⟩

/-- The hypotheses of ReqsWellNumbered hold together. -/
theorem witness_ReqsWellNumbered :
    (∃ (s : State) (t : State), (Store.Sorted s.reqs ∧ ∀ k ∈ Store.keys s.reqs, k < s.nextRid) ∧ (step s = .next t)) :=
  ⟨withReq topkReq, (withReq topkReq), by decide +kernel, rfl⟩

/-- The hypotheses of QueueUntouched hold together. -/
theorem witness_QueueUntouched :
    (∃ (i : Instr) (s : State) (t : State), (exec i s = .next t)) :=
  ⟨.resetHoldEnd, up, up, rfl⟩

/-- The hypotheses of ModesStayLegal hold together. -/
theorem witness_ModesStayLegal :
    (∃ (s : State) (t : State), (s.ModesLegal) ∧ (step s = .next t)) :=
  ⟨up, (up), up_legal, rfl⟩

/-- The hypotheses of RegsStayCanonical hold together. -/
theorem witness_RegsStayCanonical :
    (∃ (s : State) (t : State), (Store.Wf resetReg s.regs) ∧ (step s = .next t)) :=
  ⟨{ up with regs := [(Reg.RST_CFG, 5)] }, ({ up with regs := [(Reg.RST_CFG, 5)] }), by decide +kernel, rfl⟩

/-- The hypotheses of RecordOnlyGrows hold together. -/
theorem witness_RecordOnlyGrows :
    (∃ (i : Instr) (s : State) (t : State), (exec i s = .next t)) :=
  ⟨.resetHoldEnd, { up with record := [⟨1, 2, 3, 4⟩] }, ({ up with record := [⟨1, 2, 3, 4⟩] }), rfl⟩

/-- The hypotheses of FusesOnlyBlow hold together. -/
theorem witness_FusesOnlyBlow :
    (∃ (i : Instr) (s : State) (t : State), (exec i s = .next t)) :=
  ⟨.resetHoldEnd, up, up, rfl⟩

/-- The hypotheses of RequestsAccepted hold together. -/
theorem witness_RequestsAccepted :
    (∃ (i : Instr) (op : Nat) (src : Source) (h0 : ReqHdr) (h : ReqHdr) (p : List Byte) (s0 : State) (s : State),
      (requestOf i = some (op, src, h0, p)) ∧ (h = fitParams h0) ∧ (s = s0.fireDue) ∧ (s.sourceUp src = true) ∧
      (s.verdict op h p src (64 + p.length) = .run) ∧ (s.roomFor (s.admitPart h.slice.toNat src) (64 + p.length) =
      true)) :=
  ⟨.topk (.port 0 0x1000) (sealed opTopk topkHdr topkBytes) topkBytes, opTopk, .port 0 0x1000, sealed opTopk topkHdr
    topkBytes, (sealed opTopk topkHdr topkBytes), topkBytes, upPort, upPort, rfl, rfl, by decide +kernel,
    by decide +kernel,
    by unfold State.verdict; dsimp only; rw [if_neg (by decide +kernel), if_neg (fun h => h (sealed_crc _ _ _))]; decide +kernel,
    by decide +kernel⟩

/-- The hypotheses of FirstPhaseBegins hold together. -/
theorem witness_FirstPhaseBegins :
    (∃ (s : State) (rid : Nat) (r : Req), (s.req? rid = some r) ∧ (r.op ≠ opGather) ∧ ((∀ x, s.index? r.hdr.index.toNat
      = some x → r.refused x.desc.dim = false)) ∧ (firstPhase r.op r.hdr ∈ [Phase.coarse, .check, .sched, .select]) ∧
      (s.phaseNeed
      { r with phase := firstPhase r.op r.hdr, phaseRuns := 0, suspect := none, onSpare := none, life := .running } =
      .go)) ∧
    (∃ (s : State) (rid : Nat) (r : Req), (s.req? rid = some r) ∧ (r.op = opGather) ∧ (r.winOpen = false) ∧ (s.phaseNeed
      { r with phase := .coalesce, phaseRuns := 0, suspect := none, onSpare := none, life := .running } = .go)) ∧
    (∃ (s : State) (rid : Nat) (r : Req) (x : Index), (s.req? rid = some r) ∧ (r.life ≠ .answered) ∧ (s.index?
      r.hdr.index.toNat = some x) ∧ (r.refused x.desc.dim = true) ∧ (s.now.toNat < r.hdr.deadline.toNat)) :=
  ⟨⟨withReq topkReq, 1, topkReq, rfl, by decide, (by intro x h; have e : (none : Option Index) = some x := h; cases e),
    by decide +kernel⟩,
   ⟨{ withReq gatherReq with indexes := [(3, tIndex)] }, 1, gatherReq, rfl, by decide +kernel⟩,
   ⟨{ withReq badSearch with indexes := [(3, tIndex)] }, 1, badSearch, tIndex, rfl, by decide +kernel, rfl,
     by decide +kernel⟩⟩

/-- The hypotheses of RefusalsAnswered hold together. -/
theorem witness_RefusalsAnswered :
    (∃ (i : Instr) (op : Nat) (src : Source) (h0 : ReqHdr) (h : ReqHdr) (p : List Byte) (s0 : State) (s : State) (n :
      Nat) (st : Nat), (requestOf i = some (op, src, h0, p)) ∧ (h = fitParams h0) ∧ (s = s0.fireDue) ∧ (s.sourceUp src =
      true) ∧ (s.verdict op h p src (64 + p.length) = .fail n st) ∧ (s.roomFor (s.admitPart h.slice.toNat src) (64 +
      p.length) = true)) ∧
    (∃ (op : Nat) (src : Source) (h : ReqHdr) (p : List Byte) (s : State), ((h.payloadLen.toNat ≠ p.length ∨ p.length %
      8 ≠ 0 ∨ 0x10000000 < p.length))) ∧
    (∃ (op : Nat) (src : Source) (h : ReqHdr) (p : List Byte) (s : State), (h.payloadLen.toNat = p.length) ∧ (p.length %
      8 = 0) ∧ (p.length ≤ 0x10000000) ∧ (h.crc ≠ reqCrc op h p)) ∧
    (∃ (op : Nat) (src : Source) (h : ReqHdr) (p : List Byte) (s : State), (h.payloadLen.toNat = p.length) ∧ (p.length %
      8 = 0) ∧ (p.length ≤ 0x10000000) ∧ (h.crc = reqCrc op h p) ∧ (h.hdrVer ≠ 1)) ∧
    (∃ (op : Nat) (src : Source) (h : ReqHdr) (p : List Byte) (s : State), (s.verdict op h p src (64 + p.length) =
      .run)) ∧
    (∃ (i : Instr) (op : Nat) (port : Fin 8) (a : U64) (h0 : ReqHdr) (h : ReqHdr) (p : List Byte) (s0 : State) (s :
      State), (requestOf i = some (op, .port port a, h0, p)) ∧ (h = fitParams h0) ∧ (s = s0.fireDue) ∧ (s.portUp port =
      true) ∧ (s.roomFor (s.admitPart h.slice.toNat (.port port a)) (64 + p.length) = false)) ∧
    (∃ (i : Instr) (op : Nat) (fn : Fin 17) (q : Fin 16) (tag : U32) (addr : U64) (len : U32) (h0 : ReqHdr) (h : ReqHdr)
      (p : List Byte) (s0 : State) (s : State), (requestOf i = some (op, .host fn q tag addr len, h0, p)) ∧ (h =
      fitParams h0) ∧ (s = s0.fireDue) ∧ (s.rst.phase = 3) ∧ (q.val < queueCount fn) ∧ ((s.queue fn q).owed = []) ∧
      (s.roomFor (s.admitPart h.slice.toNat (.host fn q tag addr len)) (64 + p.length) = false)) :=
  ⟨⟨.topk (.port 0 0x1000) (tHdr 0 24 (zeroBytes 19)) topkBytes, opTopk, .port 0 0x1000, tHdr 0 24 (zeroBytes 19), (tHdr
    0 24 (zeroBytes 19)), topkBytes, upPort, upPort, 1, stBadLength, rfl, rfl, by decide +kernel⟩,
   ⟨opTopk, .port 0 0x1000, tHdr 0 16 (zeroBytes 19), zeroBytes 20, up, .inl (by decide +kernel)⟩,
   ⟨opTopk, .port 0 0x1000, wrongCrc opTopk topkHdr topkBytes, topkBytes, up, by decide +kernel, by decide +kernel,
     by decide +kernel, wrong_crc _ _ _⟩,
   ⟨opTopk, .port 0 0x1000, sealed opTopk { topkHdr with hdrVer := 2 } topkBytes, topkBytes, up, by decide +kernel,
     by decide +kernel, by decide +kernel, sealed_crc _ _ _, by decide +kernel⟩,
   ⟨opTopk, .port 0 0x1000, sealed opTopk topkHdr topkBytes, topkBytes, upPort,
     by unfold State.verdict; dsimp only; rw [if_neg (by decide +kernel), if_neg (fun h => h (sealed_crc _ _ _))]; decide +kernel⟩,
   ⟨.topk (.port 0 0x1000) topkHdr topkBytes, opTopk, 0, 0x1000, topkHdr, (topkHdr), topkBytes,
     { upPort with reqs := [(1, { topkReq with payload := List.replicate 100 0, hdr := { topkHdr with payloadLen := 0xF0000000 } })], nextRid := 2, slices := { Slices.reset with map := [{ entryReset 0 with res := 0 }] } },
     { upPort with reqs := [(1, { topkReq with payload := List.replicate 100 0, hdr := { topkHdr with payloadLen := 0xF0000000 } })], nextRid := 2, slices := { Slices.reset with map := [{ entryReset 0 with res := 0 }] } },
     rfl, rfl, by decide +kernel⟩,
   ⟨.topk (.host 0 0 1 0 64) topkHdr topkBytes, opTopk, 0, 0, 1, 0, 64, topkHdr, (topkHdr), topkBytes,
     { upPort with reqs := [(1, { topkReq with payload := List.replicate 100 0, hdr := { topkHdr with payloadLen := 0xF0000000 } })], nextRid := 2, slices := { Slices.reset with map := [{ entryReset 0 with res := 0 }] } },
     { upPort with reqs := [(1, { topkReq with payload := List.replicate 100 0, hdr := { topkHdr with payloadLen := 0xF0000000 } })], nextRid := 2, slices := { Slices.reset with map := [{ entryReset 0 with res := 0 }] } },
     rfl, rfl, by decide +kernel⟩⟩

/-- The hypotheses of PhaseCompletes hold together. -/
theorem witness_PhaseCompletes :
    (∃ (rid : Nat) (s : State) (r : Req), (s.req? rid = some r) ∧ (r.life ≠ .answered) ∧ (r.underWay = false) ∧
      (s.now.toNat < r.hdr.deadline.toNat)) ∧
    (∃ (rid : Nat) (ok : Bool) (s : State) (r : Req), (s.req? rid = some r) ∧ (s.phaseReady rid r = true) ∧
      (r.hdr.deadline.toNat ≤ s.now.toNat)) ∧
    (∃ (rid : Nat) (ok : Bool) (s : State) (r : Req), (s.req? rid = some r) ∧ (s.phaseReady rid r = true) ∧ (s.now.toNat
      < r.hdr.deadline.toNat) ∧ ((ok = false ∨ r.lost = true))) ∧
    (∃ (rid : Nat) (s : State) (r : Req), (s.req? rid = some r) ∧ (s.phaseReady rid r = true) ∧ (s.now.toNat <
      r.hdr.deadline.toNat) ∧ (r.lost = false)) ∧
    (∃ (rid : Nat) (s : State) (r : Req), (s.req? rid = some r) ∧ (s.phaseReady rid r = true) ∧ (s.now.toNat <
      r.hdr.deadline.toNat) ∧ (r.lost = false) ∧ (r.op = opTopk) ∧ (r.hdr.tkFmt = 0) ∧ ((∀ k, k < r.hdr.tkRows → rowNaN
      (topkRow r.hdr r.payload k) = false))) ∧
    (∃ (pid : Nat) (s : State) (p : PartIn) (out : List Byte × Nat), (s.req? pid = none) ∧ (Store.find? s.partsIn pid =
      some p) ∧ (p.reply = some out) ∧ (p.lost = false) ∧ (s.now.toNat < (partDeadline p.body).toNat)) :=
  ⟨⟨1, withReq { topkReq with holds := true }, { topkReq with holds := true }, rfl, by decide +kernel⟩,
   ⟨1, true, withReq { topkReq with hdr := { topkReq.hdr with deadline := 1000000 } },
     { topkReq with hdr := { topkReq.hdr with deadline := 1000000 } }, rfl, by decide +kernel⟩,
   ⟨1, false, withReq topkReq, topkReq, rfl, by decide +kernel⟩,
   ⟨1, withReq topkReq, topkReq, rfl, by decide +kernel⟩,
   ⟨1, withReq topkReq, topkReq, rfl, by decide +kernel, by decide +kernel, by decide +kernel, by decide +kernel,
     by decide +kernel, fun k hk => by have h : k = 0 := by { have : k < 1 := hk; omega }; subst h; decide +kernel⟩,
   ⟨1,
     { upPort with partsIn := [(1, { kind := .gather, body := tPart 2000000, port := 0, src := 0x1000, slice := some 0, tAccept := 900000, reply := some (zeroBytes 16, 0) })], nextRid := 2 },
     { kind := .gather, body := tPart 2000000, port := 0, src := 0x1000, slice := some 0, tAccept := 900000, reply := some (zeroBytes 16, 0) },
     (zeroBytes 16, 0), by decide +kernel, rfl, rfl, by decide +kernel⟩⟩

/-- The hypotheses of PhaseFaultReruns hold together. -/
theorem witness_PhaseFaultReruns :
    (∃ (rid : Nat) (s : State) (r : Req), (s.req? rid = some r) ∧ (r.life = .running) ∧ (r.holds = false) ∧ (r.phaseRuns
      < s.regF Reg.RST_CFG 32 8) ∧ ((∀ p ∈ s.partsOut, p.rid ≠ rid)) ∧ (((r.phase ≠ .fetch ∧ r.phase ≠ .exact) ∨
      r.windows = []))) ∧
    (∃ (rid : Nat) (s : State) (r : Req), (s.req? rid = some r) ∧ (r.life = .running) ∧ (r.holds = false) ∧ (s.regF
      Reg.RST_CFG 32 8 ≤ r.phaseRuns) ∧ (s.now.toNat < r.hdr.deadline.toNat)) ∧
    (∃ (rid : Nat) (kind : Nat) (loc : Nat) (s : State) (r : Req), (s.req? rid = some r) ∧ (r.life = .running) ∧
      (r.holds = false) ∧ (kind ∉ [0, kWeirLane, kRunnel, kColumn, kSpout]) ∧ (r.suspect = none) ∧ (r.onSpare ≠ some
      (kind, loc)) ∧ (r.phaseRuns < s.regF Reg.RST_CFG 32 8) ∧ ((∀ p ∈ s.partsOut, p.rid ≠ rid)) ∧ (((r.phase ≠ .fetch ∧
      r.phase ≠ .exact) ∨ r.windows = []))) ∧
    (∃ (rid : Nat) (kind : Nat) (loc : Nat) (s : State) (r : Req), (s.req? rid = some r) ∧ (r.life = .running) ∧
      (r.holds = false) ∧ (kind ∈ [kRill, kRunnel, kColumn, kWeirLane, kSpout]) ∧ (r.suspect = some (kind, loc)) ∧
      (r.onSpare ≠ some (kind, loc))) ∧
    (∃ (rid : Nat) (s : State) (r : Req), (s.req? rid = some r) ∧ (r.life = .running) ∧ (r.holds = false) ∧ (r.phaseRuns
      < s.regF Reg.RST_CFG 32 8) ∧ ((∀ p ∈ s.partsOut, p.rid ≠ rid)) ∧ ((r.phase = .fetch ∨ r.phase = .exact)) ∧
      (r.windows ≠ []) ∧ ((r.winOpen = false ∨ r.winLeft ≠ r.windows.length - 1))) ∧
    (∃ (rid : Nat) (kind : Nat) (loc : Nat) (b : Fin 2) (s : State) (r : Req), (s.req? rid = some r) ∧ (r.life =
      .running) ∧ (r.holds = false) ∧ (s.fencing b = false) ∧ (s.apart = true) ∧ (s.now.toNat < r.hdr.deadline.toNat) ∧
      (kind ∉ [kWeirLane, kRunnel, kColumn, kSpout])) :=
  ⟨⟨1, withReq topkReq, topkReq, rfl, by decide +kernel⟩,
   ⟨1, withReq { topkReq with phaseRuns := 255 }, { topkReq with phaseRuns := 255 }, rfl, by decide +kernel⟩,
   ⟨1, 1, 4, withReq topkReq, topkReq, rfl, by decide +kernel⟩,
   ⟨1, 1, 4, withReq { topkReq with suspect := some (1, 4) }, { topkReq with suspect := some (1, 4) }, rfl,
     by decide +kernel, by decide +kernel, by decide +kernel, rfl, by decide +kernel⟩,
   ⟨1, { withReq { gatherReq with phase := .fetch } with indexes := [(3, tIndex)] }, { gatherReq with phase := .fetch },
     rfl, by decide +kernel⟩,
   ⟨1, 1, 4, 0, withReq topkReq, topkReq, rfl, by decide +kernel⟩⟩

/-- The hypotheses of DeadlineStops hold together. -/
theorem witness_DeadlineStops :
    (∃ (rid : Nat) (s : State) (r : Req), (s.req? rid = some r) ∧ (r.life ≠ .answered) ∧ (r.record.deadline.toNat ≤
      s.now.toNat) ∧ ((∀ q ∈ s.mem.reads, Waiter.req rid ∉ q.waiters))) ∧
    (∃ (rid : Nat) (s : State) (r : Req), (s.req? rid = some r) ∧ (r.life ≠ .answered) ∧ (r.record.deadline.toNat ≤
      s.now.toNat) ∧ ((∃ q ∈ s.mem.reads, Waiter.req rid ∈ q.waiters))) ∧
    (∃ (pid : Nat) (s : State) (p : PartIn), (s.req? pid = none) ∧ (Store.find? s.partsIn pid = some p) ∧ ((partDeadline
      p.body).toNat ≤ s.now.toNat) ∧ ((∀ q ∈ s.mem.reads, Waiter.part pid ∉ q.waiters))) ∧
    (∃ (rid : Nat) (s : State) (r : Req) (port : Fin 8) (a : U64), (s.req? rid = some r) ∧ (r.life = .answered) ∧ (r.src
      = .port port a) ∧ (r.record.deadline.toNat + 100000 ≤ s.now.toNat) ∧ ((∀ m ∈ s.urdun.msgs, m.2.kind ≠
      .partReply))) :=
  ⟨⟨1, withReq { topkReq with hdr := { topkReq.hdr with deadline := 1000000 } },
    { topkReq with hdr := { topkReq.hdr with deadline := 1000000 } }, rfl, by decide +kernel⟩,
   ⟨1,
     { withReq { topkReq with hdr := { topkReq.hdr with deadline := 1000000 } } with mem := { MemRange.reset with reads := [tRead (.req 1)] } },
     { topkReq with hdr := { topkReq.hdr with deadline := 1000000 } }, rfl, by decide +kernel⟩,
   ⟨1,
     { upPort with partsIn := [(1, { kind := .gather, body := tPart 5, port := 0, src := 0x1000, slice := some 0, tAccept := 900000, reply := some (zeroBytes 16, 0) })], nextRid := 2 },
     { kind := .gather, body := tPart 5, port := 0, src := 0x1000, slice := some 0, tAccept := 900000, reply := some (zeroBytes 16, 0) },
     by decide +kernel, rfl, by decide +kernel⟩,
   ⟨1,
     { upPort with reqs := [(1, { topkReq with life := .answered, hdr := { topkReq.hdr with deadline := 900000 } })], nextRid := 2 },
     { topkReq with life := .answered, hdr := { topkReq.hdr with deadline := 900000 } }, 0, 0x1000, rfl,
     by decide +kernel⟩⟩

/-- The hypotheses of PartsAdmitted hold together. -/
theorem witness_PartsAdmitted :
    (∃ (gather : Bool) (port : Fin 8) (src : U64) (body : List Byte) (s0 : State) (s : State), (s = s0.fireDue) ∧
      (s.portUp port = true) ∧ (s.roomFor (s.partSlice body) body.length = false)) ∧
    (∃ (gather : Bool) (port : Fin 8) (src : U64) (body : List Byte) (s0 : State) (s : State), (s = s0.fireDue) ∧
      (s.portUp port = true) ∧ (s.roomFor (s.partSlice body) body.length = true)) ∧
    (∃ (gather : Bool) (port : Fin 8) (src : U64) (body : List Byte) (s : State), ((∀ p ∈ s.partsOut, p.token =
      partToken body → p.done = true))) ∧
    (∃ (gather : Bool) (port : Fin 8) (src : U64) (body : List Byte) (s : State) (p : PartOut) (r : Req) (x : Index),
      (s.partsOut.find? (fun q => q.token == partToken body && !q.done) = some p) ∧ (s.req? p.rid = some r) ∧ (s.index?
      r.hdr.index.toNat = some x) ∧ (body.length < 16)) :=
  ⟨⟨true, 0, 0x1000, tPart 2000000,
    { upPort with reqs := [(1, { topkReq with payload := List.replicate 100 0, hdr := { topkHdr with payloadLen := 0xF0000000 } })], nextRid := 2, slices := { Slices.reset with map := [{ entryReset 0 with res := 0 }] }, indexes := [(3, tIndex)] },
    { upPort with reqs := [(1, { topkReq with payload := List.replicate 100 0, hdr := { topkHdr with payloadLen := 0xF0000000 } })], nextRid := 2, slices := { Slices.reset with map := [{ entryReset 0 with res := 0 }] }, indexes := [(3, tIndex)] },
    by decide +kernel⟩,
   ⟨true, 0, 0x1000, tPart 2000000, upPort, upPort, by decide +kernel⟩,
   ⟨true, 0, 0x1000, leBytes 8 9 ++ zeroBytes 8, up, by decide +kernel⟩,
   ⟨true, 0, 0x1000, leBytes 8 9,
     { withReq gatherReq with indexes := [(3, tIndex)], partsOut := [⟨9, 1, .gather, 2, [(0, [0x200000005])], tPart 2000000, false, false⟩] },
     ⟨9, 1, .gather, 2, [(0, [0x200000005])], tPart 2000000, false, false⟩, gatherReq, tIndex, rfl, rfl, rfl,
     by decide +kernel⟩⟩

/-- The hypotheses of RepliesTaken hold together. -/
theorem witness_RepliesTaken :
    (∃ (port : Fin 8) (src : U64) (body : List Byte) (s : State) (p : PartOut) (r : Req) (x : Index), (s.partsOut.find?
      (fun q => q.token == partToken body && !q.done) = some p) ∧ (p.kind = .gather) ∧ (s.req? p.rid = some r) ∧
      (s.index? r.hdr.index.toNat = some x) ∧ (16 ≤ body.length) ∧ (byteAt body 8 = stOk) ∧ (leAt body 9 3 = 0) ∧ (leAt
      body 12 4 = ((p.groups.map Prod.snd).flatMap id).length) ∧ ((parseGathered x.desc ((p.groups.map Prod.snd).flatMap
      id) (body.drop 16)).2 = true)) ∧
    (∃ (port : Fin 8) (src : U64) (body : List Byte) (s : State) (p : PartOut) (r : Req) (x : Index), (s.partsOut.find?
      (fun q => q.token == partToken body && !q.done) = some p) ∧ (p.kind ≠ .gather) ∧ (s.req? p.rid = some r) ∧
      (s.index? r.hdr.index.toNat = some x) ∧ (16 ≤ body.length) ∧ (byteAt body 8 = stOk) ∧ (byteAt body 9 = 0) ∧ (leAt
      body 12 4 = 0) ∧ (leAt body 10 2 = p.groups.length) ∧ ((parseSurvivors p.groups (body.drop 16)).2 = true)) :=
  ⟨⟨0, 0x1000, leBytes 8 9 ++ zeroBytes 4 ++ leBytes 4 1 ++ leBytes 8 0x200000005 ++ [1] ++ zeroBytes 7 ++ zeroBytes
    tDesc.stride,
    { withReq gatherReq with indexes := [(3, tIndex)], partsOut := [⟨9, 1, .gather, 2, [(0, [0x200000005])], tPart 2000000, false, false⟩] },
    ⟨9, 1, .gather, 2, [(0, [0x200000005])], tPart 2000000, false, false⟩, gatherReq, tIndex, rfl, by decide +kernel,
    rfl, rfl, by decide +kernel⟩,
   ⟨0, 0x1000, leBytes 8 9 ++ zeroBytes 2 ++ leBytes 2 1 ++ zeroBytes 4 ++ leBytes 2 0 ++ zeroBytes 2 ++ leBytes 4 0 ++
     zeroBytes 8,
     { withReq gatherReq with indexes := [(3, tIndex)], partsOut := [⟨9, 1, .rerank, 2, [(0, [0x200000005])], tPart 2000000, false, false⟩] },
     ⟨9, 1, .rerank, 2, [(0, [0x200000005])], tPart 2000000, false, false⟩, gatherReq, tIndex, rfl, by decide +kernel,
     rfl, rfl, by decide +kernel⟩⟩

/-- The hypotheses of BusyPartsResent hold together. -/
theorem witness_BusyPartsResent :
    (∃ (token : Nat) (s : State) (p : PartOut) (r : Req) (x : Index), (s.partsOut.find? (fun q => q.token == token &&
      q.busy && !q.done) = some p) ∧ (s.now.toNat < (partDeadline p.body).toNat) ∧ (s.req? p.rid = some r) ∧ (s.index?
      r.hdr.index.toNat = some x) ∧ (bit (s.reg (instKey Reg.URD_ROUTE_DATA (r.hdr.index.toNat + 32 * x.shards.idxOf
      p.shard))) 12 = true) ∧ (field (s.reg (instKey Reg.URD_ROUTE_DATA (r.hdr.index.toNat + 32 * x.shards.idxOf
      p.shard))) 0 12 ≠ s.ownNode)) ∧
    (∃ (token : Nat) (s : State) (p : PartOut) (r : Req) (x : Index), (s.partsOut.find? (fun q => q.token == token &&
      q.busy && !q.done) = some p) ∧ (s.now.toNat < (partDeadline p.body).toNat) ∧ (s.req? p.rid = some r) ∧ (r.life ≠
      .answered) ∧ (s.index? r.hdr.index.toNat = some x) ∧ (s.now.toNat < r.hdr.deadline.toNat) ∧ (bit (s.reg (instKey
      Reg.URD_ROUTE_DATA (r.hdr.index.toNat + 32 * x.shards.idxOf p.shard))) 12 = true) ∧ (field (s.reg (instKey
      Reg.URD_ROUTE_DATA (r.hdr.index.toNat + 32 * x.shards.idxOf p.shard))) 0 12 = s.ownNode)) ∧
    (∃ (token : Nat) (s : State) (p : PartOut), (s.partsOut.find? (fun q => q.token == token && q.busy && !q.done) =
      some p) ∧ ((partDeadline p.body).toNat ≤ s.now.toNat)) :=
  ⟨⟨9,
    { withReq gatherReq with indexes := [(3, tIndex)], partsOut := [⟨9, 1, .gather, 2, [(0, [0x200000005])], tPart 2000000, true, false⟩], regs := [(instKey Reg.URD_ROUTE_DATA (3 + 32), 0x1010)] },
    ⟨9, 1, .gather, 2, [(0, [0x200000005])], tPart 2000000, true, false⟩, gatherReq, tIndex, rfl, by decide +kernel,
    rfl, rfl, by decide +kernel⟩,
   ⟨9,
     { withReq gatherReq with indexes := [(3, tIndex)], partsOut := [⟨9, 1, .gather, 2, [(0, [0x200000005])], tPart 2000000, true, false⟩], regs := [(instKey Reg.URD_ROUTE_DATA (3 + 32), 0x1000)] },
     ⟨9, 1, .gather, 2, [(0, [0x200000005])], tPart 2000000, true, false⟩, gatherReq, tIndex, rfl, by decide +kernel,
     rfl, by decide +kernel, rfl, by decide +kernel⟩,
   ⟨9,
     { withReq gatherReq with indexes := [(3, tIndex)], partsOut := [⟨9, 1, .gather, 2, [(0, [0x505])], tPart 5, true, false⟩] },
     ⟨9, 1, .gather, 2, [(0, [0x505])], tPart 5, true, false⟩, rfl, by decide +kernel⟩⟩

/-- The hypotheses of PassIgnoresOrder hold together. -/
theorem witness_PassIgnoresOrder :
    (∃ (keep : Nat) (a : List Entry) (b : List Entry), (a.Perm b)) ∧
    (∃ (keep : Nat) (a : List (Nat × GlobalId)) (b : List (Nat × GlobalId)), (a.Perm b)) :=
  ⟨⟨2, [⟨5, 0x3F800000, 1⟩, ⟨6, 0x3F800000, 1⟩, ⟨5, 0x3F800000, 1⟩, ⟨7, 0x40000000, 2⟩], [⟨7, 0x40000000, 2⟩, ⟨5,
    0x3F800000, 1⟩, ⟨5, 0x3F800000, 1⟩, ⟨6, 0x3F800000, 1⟩], by decide +kernel⟩,
   ⟨2, [(3, 5), (3, 4), (3, 5), (1, 9)], [(1, 9), (3, 5), (3, 4), (3, 5)], by decide +kernel⟩⟩

/-- The hypotheses of WeirPassCounts hold together. -/
theorem witness_WeirPassCounts :
    (∃ (lane : Option (Fin 16)) (rid : Nat) (keep : Nat) (sketch : Bool) (ents : List WeirEntry) (s : State), (1 ≤ keep)
      ∧ (keep ≤ 8192) ∧ (1 ≤ ents.length) ∧ (ents.length ≤ 65536) ∧ ((bit (s.reg Reg.WEIR_CTRL) 0 = false ∨ ∀ l, lane =
      some l → s.regF Reg.WEIR_CTRL 1 4 ≠ l.val))) ∧
    (∃ (lane : Option (Fin 16)) (rid : Nat) (keep : Nat) (sketch : Bool) (ents : List WeirEntry) (s : State), ((keep = 0
      ∨ 8192 < keep ∨ ents = [] ∨ 65536 < ents.length))) ∧
    (∃ (l : Fin 16) (rid : Nat) (keep : Nat) (sketch : Bool) (ents : List WeirEntry) (s : State), (1 ≤ keep) ∧ (keep ≤
      8192) ∧ (1 ≤ ents.length) ∧ (ents.length ≤ 65536) ∧ (bit (s.reg Reg.WEIR_CTRL) 0 = true) ∧ (s.regF Reg.WEIR_CTRL 1
      4 = l.val) ∧ (s.phaseRun rid = none)) ∧
    (∃ (l : Fin 16) (s : State), (s.pageUp (keyPage Reg.WEIR_CTRL) = true)) :=
  ⟨⟨some 3, 1, 2, false, [⟨5, 7, 1, 0⟩, ⟨5, 7, 1, 0⟩, ⟨4, 6, 1, 0⟩], up, by decide +kernel, by decide +kernel,
    by decide +kernel, by decide +kernel, .inl (by decide +kernel)⟩,
   ⟨some 3, 1, 0, false, [⟨5, 7, 1, 0⟩, ⟨5, 7, 1, 0⟩, ⟨4, 6, 1, 0⟩], up, .inl rfl⟩,
   ⟨3, 9, 2, false, [⟨5, 7, 1, 0⟩, ⟨5, 7, 1, 0⟩, ⟨4, 6, 1, 0⟩], { up with regs := [(Reg.WEIR_CTRL, 7)] },
     by decide +kernel⟩,
   ⟨15, up, by decide +kernel⟩⟩

/-- The hypotheses of WindowsClose hold together. -/
theorem witness_WindowsClose :
    (∃ (idx : Fin 32) (slot : Nat) (s : State) (w : Window) (x : Index), (s.windows.find? (fun w => w.idx == idx.val &&
      w.slot == slot) = some w) ∧ (s.index? idx = some x) ∧ ((w.opened.toNat + s.regF Reg.SRCH_CFG 16 14 ≤ s.now.toNat ∨
      256 ≤ w.members.length))) ∧
    (∃ (idx : Fin 32) (slot : Nat) (s : State) (w : Window), (s.windows.find? (fun w => w.idx == idx.val && w.slot ==
      slot) = some w) ∧ (s.now.toNat < w.opened.toNat + s.regF Reg.SRCH_CFG 16 14) ∧ (w.members.length < 256) ∧ ((∀ m ∈
      w.members, ∃ r, s.req? m.1 = some r ∧ s.now.toNat + 4 * s.regF Reg.SRCH_CFG 16 14 ≤ r.hdr.deadline.toNat))) ∧
    (∃ (rid : Nat) (s : State) (r : Req), (s.req? rid = some r) ∧ (r.life = .running) ∧ (r.winOpen = true) ∧ (r.winLeft
      ≠ 0) ∧ (r.phase ≠ .coalesce) ∧ (s.windowDone rid = true)) ∧
    (∃ (rid : Nat) (s : State), ((∀ p ∈ s.reqs, p.2.life ≠ .waitWindow)) ∧ (s.windowDone rid = false)) :=
  ⟨⟨3, 2,
    { withReq { topkReq with phase := .scan } with indexes := [(3, tIndex)], windows := [⟨3, 2, 0, 0, [(1, 0, false)]⟩] },
    ⟨3, 2, 0, 0, [(1, 0, false)]⟩, tIndex, rfl, rfl, by decide +kernel⟩,
   ⟨3, 2,
     { withReq { topkReq with phase := .scan } with indexes := [(3, tIndex)], windows := [⟨3, 2, 0, 1000000, [(1, 0, false)]⟩] },
     ⟨3, 2, 0, 1000000, [(1, 0, false)]⟩, rfl, by decide +kernel, by decide +kernel, fun m hm =>
     by have h : m = (1, 0, false) := List.mem_singleton.mp hm; subst h; exact ⟨_, rfl, by decide +kernel⟩⟩,
   ⟨1, withReq { gatherReq with winOpen := true, winLeft := 1, phase := .fetch },
     { gatherReq with winOpen := true, winLeft := 1, phase := .fetch }, rfl, by decide +kernel⟩,
   ⟨1,
     { withReq { gatherReq with winOpen := true, winLeft := 1, phase := .fetch } with partsOut := [⟨9, 1, .gather, 2, [(0, [0x200000005])], tPart 2000000, false, false⟩] },
     by decide +kernel⟩⟩

/-- The hypotheses of FramesChecked hold together. -/
theorem witness_FramesChecked :
    (∃ (port : Fin 8) (bs : List Byte) (s : State), (s.portUp port = true) ∧ ((bs.length ≠ 48 + leAt bs 28 2 ∨ leAt bs
      (40 + leAt bs 28 2) 4 ≠ (crc32c (bs.take (40 + leAt bs 28 2))).toNat))) ∧
    (∃ (port : Fin 8) (bs : List Byte) (s : State), (s.portUp port = true) ∧ (bs.length = 48 + leAt bs 28 2) ∧ (leAt bs
      (40 + leAt bs 28 2) 4 = (crc32c (bs.take (40 + leAt bs 28 2))).toNat) ∧ (leAt bs 0 2 ≠ (s.port port).rxSeq)) ∧
    (∃ (port : Fin 8) (bs : List Byte) (s : State), (s.portUp port = true) ∧ (bs.length = 48 + leAt bs 28 2) ∧ (leAt bs
      (40 + leAt bs 28 2) 4 = (crc32c (bs.take (40 + leAt bs 28 2))).toNat) ∧ (leAt bs 0 2 = (s.port port).rxSeq) ∧
      (byteAt bs 2 ≠ 4) ∧ ((adrNode (BitVec.ofNat 64 (leAt bs 8 8)) ≠ s.ownNode ∨ kindUnit (byteAt bs 2) ≠ some (adrUnit
      (BitVec.ofNat 64 (leAt bs 8 8)))))) ∧
    (∃ (port : Fin 8) (bs : List Byte) (s : State), (s.portUp port = true) ∧ (bs.length = 48 + leAt bs 28 2) ∧ (leAt bs
      (40 + leAt bs 28 2) 4 = (crc32c (bs.take (40 + leAt bs 28 2))).toNat) ∧ (leAt bs 0 2 = (s.port port).rxSeq) ∧
      (byteAt bs 2 ≠ 4) ∧ ((adrNode (BitVec.ofNat 64 (leAt bs 8 8)) ≠ s.ownNode ∨ kindUnit (byteAt bs 2) ≠ some (adrUnit
      (BitVec.ofNat 64 (leAt bs 8 8)))))) ∧
    (∃ (port : Fin 8) (bs : List Byte) (s : State), (s.portUp port = true) ∧ (bs.length = 48 + leAt bs 28 2) ∧ (leAt bs
      (40 + leAt bs 28 2) 4 = (crc32c (bs.take (40 + leAt bs 28 2))).toNat) ∧ (leAt bs 0 2 = (s.port port).rxSeq) ∧
      (adrNode (BitVec.ofNat 64 (leAt bs 8 8)) = s.ownNode) ∧ (kindUnit (byteAt bs 2) = some (adrUnit (BitVec.ofNat 64
      (leAt bs 8 8)))) ∧ (byteAt bs 2 = 3) ∧ (bitsOf (byteAt bs 3) 0 1 = 1) ∧ (bitsOf (byteAt bs 3) 1 1 = 0)) :=
  ⟨⟨0, zeroBytes 47, upPort, by decide +kernel, .inl (by decide +kernel)⟩,
   ⟨0, frameBytes 7 (tFrame 3 0 1 true false) 0, upPort, by decide +kernel, by decide +kernel, frame_crc _ _
     (by decide +kernel) (by decide +kernel), by decide +kernel⟩,
   ⟨0, frameBytes 0 (tFrame 3 1 1 true false) 0, upPort, by decide +kernel, by decide +kernel, frame_crc _ _
     (by decide +kernel) (by decide +kernel), by decide +kernel⟩,
   ⟨0, frameBytes 0 (tFrame 2 0 1 true false) 0, upPort, by decide +kernel, by decide +kernel, frame_crc _ _
     (by decide +kernel) (by decide +kernel), by decide +kernel⟩,
   ⟨0, frameBytes 0 (tFrame 3 0 1 true false) 0, upPort, by decide +kernel, by decide +kernel, frame_crc _ _
     (by decide +kernel) (by decide +kernel), by decide +kernel, by decide +kernel, rfl, by decide +kernel⟩⟩

/-- The hypotheses of LinkWordsObeyed hold together. -/
theorem witness_LinkWordsObeyed :
    (∃ (port : Fin 8) (w : List Byte) (s : State) (k : Nat), (s.portUp port = true) ∧ (ctrlGood w = true) ∧ (byteAt w 0
      = 1) ∧ ((s.port port).replay.findIdx? (fun f => f.1 == leAt w 2 2) = some k)) ∧
    (∃ (port : Fin 8) (w : List Byte) (s : State) (k : Nat), (s.portUp port = true) ∧ (ctrlGood w = true) ∧ (byteAt w 0
      = 2) ∧ ((s.port port).replay.findIdx? (fun f => f.1 == leAt w 2 2) = some k) ∧ (bit (s.reg (instKey Reg.URD_INJECT
      port)) 1 = false)) ∧
    (∃ (port : Fin 8) (s : State), (s.portUp port = true) ∧ ((s.port port).replay ≠ []) ∧ ((s.port port).ackFrom.toNat +
      100 * s.regF Reg.URD_CFG 16 8 ≤ s.tick.toNat) ∧ (bit (s.reg (instKey Reg.URD_INJECT port)) 1 = false)) ∧
    (∃ (port : Fin 8) (adm : Bool) (w : List Byte) (s : State), (s.portUp port = true) ∧ (ctrlGood w = true) ∧ (byteAt w
      0 = 3)) ∧
    (∃ (port : Fin 8) (adm : Bool) (w : List Byte) (s : State) (i : Instr), (s.portUp port = true) ∧ (ctrlGood w =
      false) ∧ (i ∈ [Instr.ack port w, .nack port w, .credit port adm w])) ∧
    (∃ (src : U64) (mid : U32) (s : State), ((∃ p ∈ s.urdun.reasm, p.isOf src mid.toNat = true ∧ p.last.toNat + 10000 *
      s.regF Reg.URD_CFG 24 8 ≤ s.tick.toNat))) :=
  ⟨⟨0, ctrlBytes (.ack 7),
    { up with urdun := { Urdun.reset with ports := [(0, { UPort.reset 0 with state := .up, txSeq := 9, replay := [(7, tFrame 3 1 1 true false), (8, tFrame 3 1 1 false true)] })] } },
    0, by decide +kernel, by decide +kernel, by decide +kernel, rfl⟩,
   ⟨0, ctrlBytes (.nack 8),
     { up with urdun := { Urdun.reset with ports := [(0, { UPort.reset 0 with state := .up, txSeq := 9, replay := [(7, tFrame 3 1 1 true false), (8, tFrame 3 1 1 false true)] })] } },
     1, by decide +kernel, by decide +kernel, by decide +kernel, rfl, by decide +kernel⟩,
   ⟨0,
     { up with urdun := { Urdun.reset with ports := [(0, { UPort.reset 0 with state := .up, txSeq := 9, replay := [(7, tFrame 3 1 1 true false), (8, tFrame 3 1 1 false true)] })] }, clep := { up.clep with ticks := 1000000 } },
     by decide +kernel⟩,
   ⟨0, true, ctrlBytes (.credit true 70),
     { up with urdun := { Urdun.reset with ports := [(0, { UPort.reset 0 with state := .up, txSeq := 9, replay := [(7, tFrame 3 1 1 true false), (8, tFrame 3 1 1 false true)] })] } },
     by decide +kernel⟩,
   ⟨0, true, zeroBytes 24,
     { up with urdun := { Urdun.reset with ports := [(0, { UPort.reset 0 with state := .up, txSeq := 9, replay := [(7, tFrame 3 1 1 true false), (8, tFrame 3 1 1 false true)] })] } },
     .credit 0 true (zeroBytes 24), by decide +kernel⟩,
   ⟨mkAdr 5 1, 3,
     { upPort with urdun := { upPort.urdun with reasm := [⟨0, 3, mkAdr 5 1, 3, 256, false, 0, zeroBytes 8⟩] }, clep := { up.clep with ticks := 100000000 } },
     by decide +kernel⟩⟩

/-- The hypotheses of PortsTrain hold together. -/
theorem witness_PortsTrain :
    (∃ (port : Fin 8) (s : State), ((s.port port).state = .down) ∧ (s.mayTrain port = true) ∧ (2 ≤ (s.proposeMap port
      []).length)) ∧
    (∃ (port : Fin 8) (res : TrainResult) (s : State), ((s.port port).state = .training) ∧ (res.failed = []) ∧
      (res.partnerMap = (s.port port).map) ∧ (bit (s.reg (instKey Reg.URD_PORT_CTRL port)) 0 = false) ∧ ((∀ l ∈ (s.port
      port).map, bit (s.reg (laneLosKey (portLane port l))) 0 = false ∧ bit (s.reg (instKey Reg.URD_LANE_STATUS
      (portLane port l))) 16 = false))) ∧
    (∃ (port : Fin 8) (res : TrainResult) (s : State) (n : Nat), ((s.port port).state = .retraining) ∧ ((s.port
      port).why = some (.trigger n)) ∧ (n ∈ (s.port port).map.map (portLane port)) ∧ (n ∈ res.failed.map (fun l =>
      l.val))) ∧
    (∃ (s : State), (s.pageUp 0x0F = true) ∧ (s.portUp (s.regF Reg.URD_PORT_SEL 0 3) = true)) ∧
    (∃ (lane : Fin 36) (signal : Bool) (s : State) (p : Nat), (s.laneFor lane = some p) ∧ (s.portUp p = true)) :=
  ⟨⟨0, { up with regs := [(Reg.URD_CFG, 0x1000)] }, by decide +kernel⟩,
   ⟨0, ⟨[], [0, 1, 2, 3], some 4, 0, 100, 64⟩,
     { up with urdun := { Urdun.reset with ports := [(0, { UPort.reset 0 with state := .training })] } },
     by decide +kernel⟩,
   ⟨0, ⟨[2], [0, 1, 2, 3], some 4, 0, 100, 64⟩,
     { up with urdun := { Urdun.reset with ports := [(0, { UPort.reset 0 with state := .retraining, why := some (.trigger 2) })] } },
     2, by decide +kernel, rfl, by decide +kernel⟩,
   ⟨upPort, by decide +kernel⟩,
   ⟨3, true, upPort, 0, rfl, by decide +kernel⟩⟩

/-- The hypotheses of LanesWatched hold together. -/
theorem witness_LanesWatched :
    (∃ (s : State) (p : Nat), (s.pageUp 0x0F = true) ∧ (s.regF Reg.URD_LANE_SEL 0 6 < 36) ∧ (s.laneFor (s.regF
      Reg.URD_LANE_SEL 0 6) = some p) ∧ (s.portUp p = true)) ∧
    (∃ (meas : List LaneMeas) (s : State) (n : Nat) (m : LaneMeas), (n < 36) ∧ (meas[n]? = some m)) ∧
    (∃ (s : State) (p : Nat), (s.pageUp 0x0F = true) ∧ (s.regF Reg.URD_LANE_SEL 0 6 < 36) ∧ (s.laneFor (s.regF
      Reg.URD_LANE_SEL 0 6) = some p) ∧ (s.portUp p = true)) ∧
    (∃ (s : State), (s.pageUp 0x0F = true)) :=
  ⟨⟨upPort, 0, by decide +kernel, by decide +kernel, rfl, by decide +kernel⟩,
   ⟨List.replicate 36 ⟨100, 100, 5, 30, 40, 2, 1, 0⟩, upPort, 3, ⟨100, 100, 5, 30, 40, 2, 1, 0⟩, by decide +kernel, rfl⟩,
   ⟨upPort, 0, by decide +kernel, by decide +kernel, rfl, by decide +kernel⟩,
   ⟨upPort, by decide +kernel⟩⟩

/-- The hypotheses of CountFollowsReference hold together. -/
theorem witness_CountFollowsReference :
    (∃ (i : Instr) (s : State) (t : State), (exec i s = .next t) ∧ (t.clep.count ≠ s.clep.count)) :=
  ⟨.referenceEdge, up, { up with clep := up.clep.edge }, rfl, by decide +kernel⟩

/-- The hypotheses of LockFollowsTable hold together. -/
theorem witness_LockFollowsTable :
    (∃ (i : Instr) (s : State), (∃ t, exec i s = .next t ∧ t.clep.lock ≠ s.clep.lock)) :=
  ⟨.refLost false,
    { up with clep := { up.clep with lock := .locked, refOk := ⟨true, false⟩, refGood := ⟨15, 0⟩, useB := false } }, ⟨_,
    rfl, by decide +kernel⟩⟩

/-- The hypotheses of ReferencesJudged hold together. -/
theorem witness_ReferencesJudged :
    (∃ (b : Bool) (s : State), (s.clep.internal = false) ∧ (s.clep.refOk.get b = true) ∧ (s.clep.refOk.get (!b) = true)
      ∧ (s.clep.useB = b)) ∧
    (∃ (b : Bool) (s : State), (s.clep.internal = false) ∧ (s.clep.refOk.get b = true) ∧ (s.clep.refOk.get (!b) =
      false)) ∧
    (∃ (b : Bool) (gap : Bool) (hz : Nat) (s : State), (s.clep.internal = false) ∧ (s.clep.refOk.get b = false)) ∧
    (∃ (b : Bool) (gap : Bool) (hz : Nat) (s : State), (s.clep.internal = false) ∧ (s.clep.refOk.get b = false)) :=
  ⟨⟨false,
    { up with clep := { up.clep with lock := .locked, refOk := ⟨true, true⟩, refGood := ⟨15, 0⟩, useB := false } },
    by decide +kernel⟩,
   ⟨false,
     { up with clep := { up.clep with lock := .locked, refOk := ⟨true, false⟩, refGood := ⟨15, 0⟩, useB := false } },
     by decide +kernel⟩,
   ⟨false, false, 100000000, { up with clep := { up.clep with refGood := ⟨14, 0⟩ } }, by decide +kernel⟩,
   ⟨false, false, 100000000, { up with clep := { up.clep with refGood := ⟨15, 0⟩ } }, by decide +kernel⟩⟩

/-- The hypotheses of PulsesMarkTheCount hold together. -/
theorem witness_PulsesMarkTheCount :
    (∃ (b : Bool) (phase : U16) (w : Time) (s : State), (s.clep.internal = false) ∧ (s.clep.lock = .free) ∧
      (s.clep.countValid = false) ∧ (s.clep.useB = b) ∧ (s.clep.syncOk.get b = true) ∧ (s.clep.refOk.get b = true) ∧
      (bit (s.reg Reg.CLEP_CTRL) 7 = true) ∧ (s.clep.pendingWord = some w)) ∧
    (∃ (b : Bool) (phase : U16) (w : Time) (s : State), (s.clep.internal = false) ∧ (s.clep.lock = .locked) ∧
      (s.clep.useB = b) ∧ (s.clep.syncOk.get b = true) ∧ ((syncOffset s.now.toNat).natAbs ≤ 1) ∧ (s.clep.pendingWord =
      some w) ∧ (w ≠ s.clep.count)) ∧
    (∃ (b : Bool) (phase : U16) (w : Time) (s : State), (s.clep.internal = false) ∧ (s.clep.lock = .locked) ∧
      (s.clep.useB = b) ∧ (s.clep.syncOk.get b = true) ∧ ((syncOffset s.now.toNat).natAbs ≤ 1) ∧ (s.clep.pendingWord =
      some w) ∧ (w ≠ s.clep.count)) ∧
    (∃ (b : Bool) (phase : U16) (s : State), (s.clep.internal = false) ∧ (s.clep.lock = .acquire) ∧ (s.clep.useB = b) ∧
      (s.clep.syncOk.get b = true) ∧ ((syncOffset s.now.toNat).natAbs ≤ 1) ∧ (s.clep.pendingWord = none)) ∧
    (∃ (b : Bool) (phase : U16) (s : State), (s.clep.internal = false) ∧ (s.clep.lock = .acquire) ∧ (s.clep.useB = b) ∧
      (s.clep.syncOk.get b = true) ∧ ((syncOffset s.now.toNat).natAbs ≤ 1) ∧ (s.clep.pendingWord = none)) ∧
    (∃ (b : Bool) (s : State), (s.clep.internal = false)) ∧
    (∃ (b : Bool) (phase : U16) (s : State), (s.clep.internal = false) ∧ (s.clep.lock ≠ .holdover) ∧ (s.clep.countValid
      = true) ∧ (1 < (syncOffset s.now.toNat).natAbs) ∧ (s.clep.syncOk.get b = true) ∧ (s.clep.syncOk.get (!b) = false))
      ∧
    (∃ (b : Bool) (phase : U16) (s : State), (s.clep.internal = false) ∧ (s.clep.lock ≠ .holdover) ∧ (s.clep.syncOk.a =
      false) ∧ (s.clep.syncOk.b = false)) :=
  ⟨⟨false, 3, 7000000,
    { up with clep := { up.clep with lock := .free, countValid := false, refOk := ⟨true, false⟩, syncOk := ⟨true, false⟩, pendingWord := some 7000000 }, regs := [(Reg.CLEP_CTRL, 0x80)] },
    by decide +kernel, by decide +kernel, by decide +kernel, by decide +kernel, by decide +kernel, by decide +kernel,
    by decide +kernel, rfl⟩,
   ⟨false, 3, 7000000,
     { up with clep := { up.clep with lock := .locked, countValid := true, refOk := ⟨true, false⟩, syncOk := ⟨true, false⟩, pendingWord := some 7000000, disagree := 1 } },
     by decide +kernel, by decide +kernel, by decide +kernel, by decide +kernel, by decide +kernel, rfl,
     by decide +kernel⟩,
   ⟨false, 3, 7000000,
     { up with clep := { up.clep with lock := .locked, countValid := true, refOk := ⟨true, false⟩, syncOk := ⟨true, false⟩, pendingWord := some 7000000, disagree := 2 } },
     by decide +kernel, by decide +kernel, by decide +kernel, by decide +kernel, by decide +kernel, rfl,
     by decide +kernel⟩,
   ⟨false, 3,
     { up with clep := { up.clep with lock := .acquire, countValid := true, refOk := ⟨true, false⟩, syncOk := ⟨true, false⟩, pendingWord := none, lockRun := 14 } },
     by decide +kernel⟩,
   ⟨false, 3,
     { up with clep := { up.clep with lock := .acquire, countValid := true, refOk := ⟨true, false⟩, syncOk := ⟨true, false⟩, pendingWord := none, lockRun := 15 } },
     by decide +kernel⟩,
   ⟨false,
     { up with clep := { up.clep with lock := .locked, countValid := true, refOk := ⟨true, false⟩, syncOk := ⟨true, false⟩, pendingWord := none } },
     by decide +kernel⟩,
   ⟨false, 3,
     { up with clep := { up.clep with lock := .acquire, countValid := true, refOk := ⟨true, false⟩, syncOk := ⟨true, false⟩, count := 1000002 } },
     by decide +kernel⟩,
   ⟨false, 3,
     { up with clep := { up.clep with lock := .locked, countValid := true, refOk := ⟨true, false⟩, syncOk := ⟨false, false⟩, pendingWord := some 7000000 } },
     by decide +kernel⟩⟩

/-- The hypotheses of CountWordsTaken hold together. -/
theorem witness_CountWordsTaken :
    (∃ (port : Fin 8) (w : List Byte) (s : State), (s.clep.internal = false) ∧ (s.portUp port = true) ∧ (ctrlGood w =
      true) ∧ (byteAt w 0 = 4)) ∧
    (∃ (s : State) (p : Nat × Time) (ps : List (Nat × Time)), (s.keeper.running = true) ∧ (s.clep.internal = false) ∧
      (s.clep.portWords = p :: ps)) ∧
    (∃ (s : State), (s.keeper.running = true) ∧ (s.clep.internal = true) ∧ (s.rst.step < 8)) ∧
    (∃ (s : State), (s.keeper.running = true) ∧ (s.clep.internal = true) ∧ (8 ≤ s.rst.step) ∧ (s.clep.countValid =
      false)) ∧
    (∃ (s : State), (s.keeper.running = true) ∧ (s.clep.internal = true) ∧ (8 ≤ s.rst.step) ∧ (s.clep.countValid =
      true)) ∧
    (∃ (s : State), (s.clep.lock = .acquire) ∧ (s.clep.holdFrom.toNat + 5000000 ≤ s.clep.count.toNat)) ∧
    (∃ (s : State), (s.clep.lock = .holdover) ∧ (s.clep.holdFrom.toNat + s.regF Reg.CLEP_HOLD_MAX 0 32 ≤
      s.clep.count.toNat)) :=
  ⟨⟨0, ctrlBytes (.count 7), upPort, by decide +kernel⟩,
   ⟨{ up with clep := { up.clep with portWords := [(0, 7), (1, 7)] } }, (0, 7), [(1, 7)], by decide +kernel,
     by decide +kernel, rfl⟩,
   ⟨{ up with clep := { up.clep with internal := true }, rst := { up.rst with phase := 2, step := 7 } },
     by decide +kernel⟩,
   ⟨{ up with clep := { up.clep with internal := true, countValid := false, lock := .free } }, by decide +kernel⟩,
   ⟨{ up with clep := { up.clep with internal := true, countValid := true, lock := .locked } }, by decide +kernel⟩,
   ⟨{ up with clep := { up.clep with lock := .acquire, count := 5000000 } }, by decide +kernel⟩,
   ⟨{ up with clep := { up.clep with lock := .holdover, count := 0x100000000 } }, by decide +kernel⟩⟩

/-- The hypotheses of EpochsFlip hold together. -/
theorem witness_EpochsFlip :
    (∃ (slot : Nat) (s : State) (x : Index), (s.mayFire slot .epochFlip = true) ∧ ((s.slot slot).missed = false) ∧
      (s.index? (s.slot slot).owner = some x)) ∧
    (∃ (slot : Nat) (s : State) (x : Index), (s.mayFire slot .epochFlip = true) ∧ ((s.slot slot).missed = false) ∧
      (s.index? (s.slot slot).owner = some x)) ∧
    (∃ (idx : Fin 32) (s : State) (x : Index), (s.index? idx = some x) ∧ (x.sealed = false) ∧ (s.sealBegun x = true)) ∧
    (∃ (idx : Fin 32) (s : State) (x : Index), (s.index? idx = some x) ∧ ((x.sealed = true ∨ s.sealBegun x = false))) ∧
    (∃ (idx : Fin 32) (s : State) (x : Index) (e : Time), (s.index? idx = some x) ∧ (x.drainEnd = some e) ∧ (e.toNat ≤
      s.now.toNat)) ∧
    (∃ (idx : Fin 32) (s : State) (x : Index) (e : Time), (s.index? idx = some x) ∧ (x.drainEnd = some e) ∧ (s.now.toNat
      < e.toNat)) :=
  ⟨⟨40,
    { up with clep := { up.clep with lock := .locked, slots := [(40, ⟨.epochFlip, 900000, true, false, false, 3, 0, false⟩)] }, indexes := [(3, { tIndex with flip := some ⟨900000, 0⟩, sealed := true, live := 3 })] },
    { tIndex with flip := some ⟨900000, 0⟩, sealed := true, live := 3 }, by decide +kernel, by decide +kernel, rfl⟩,
   ⟨40,
     { up with clep := { up.clep with lock := .locked, slots := [(40, ⟨.epochFlip, 900000, true, false, false, 3, 0, false⟩)] }, indexes := [(3, { tIndex with flip := some ⟨900000, 0⟩, sealed := true, live := 4 })] },
     { tIndex with flip := some ⟨900000, 0⟩, sealed := true, live := 4 }, by decide +kernel, by decide +kernel, rfl⟩,
   ⟨3, { up with indexes := [(3, { tIndex with flip := some ⟨1000100, 200⟩ })] },
     { tIndex with flip := some ⟨1000100, 200⟩ }, rfl, by decide +kernel⟩,
   ⟨3, { up with indexes := [(3, tIndex)] }, tIndex, rfl, by decide +kernel⟩,
   ⟨3, { up with indexes := [(3, { tIndex with live := 4, drainEnd := some 1000000 })] },
     { tIndex with live := 4, drainEnd := some 1000000 }, 1000000, rfl, rfl, by decide +kernel⟩,
   ⟨3, { up with indexes := [(3, { tIndex with live := 4, drainEnd := some 1000001 })] },
     { tIndex with live := 4, drainEnd := some 1000001 }, 1000001, rfl, rfl, by decide +kernel⟩⟩

/-- The hypotheses of MapsAndGatesSwitch hold together. -/
theorem witness_MapsAndGatesSwitch :
    (∃ (slot : Nat) (s : State) (p : PendingMap), (s.mayFire slot .mapSwitch = true) ∧ (s.slices.pending = some p)) ∧
    (∃ (slot : Nat) (s : State) (g : PendingGate), (s.mayFire slot .gateTakeover = true) ∧ ((s.point (s.slot
      slot).owner).pending = some g)) ∧
    (∃ (pt : Fin 185) (s : State) (l : GateList), ((s.point pt).active = some l)) :=
  ⟨⟨40,
    { up with clep := { up.clep with lock := .locked, slots := [(40, ⟨.mapSwitch, 900000, true, false, false, 0, 0, false⟩)] }, slices := { Slices.reset with pending := some ⟨[entryReset 0], 900000, 40⟩ } },
    ⟨[entryReset 0], 900000, 40⟩, by decide +kernel, rfl⟩,
   ⟨40,
     { up with clep := { up.clep with lock := .locked, slots := [(40, ⟨.gateTakeover, 900000, true, false, false, 8, 0, false⟩)] }, points := [(8, { SPoint.reset with pending := some ⟨[(1000, 1)], 900000, 40⟩ })] },
     ⟨[(1000, 1)], 900000, 40⟩, by decide +kernel, rfl⟩,
   ⟨184, { up with points := [(184, { SPoint.reset with active := some [(1000, 1), (500, 2)], cur := 1 })] }, [(1000,
     1), (500, 2)], rfl⟩⟩

/-- The hypotheses of HeartbeatsChecked hold together. -/
theorem witness_HeartbeatsChecked :
    (∃ (b : Fin 2) (s : State), (s.mayFire b .heartbeat = true) ∧ (s.keeper.running = true) ∧ ((s.basin b).state = 0) ∧
      (((s.basin b).seq ≠ (s.basin b).prev ∨ (s.basin b).misses < 3)) ∧ (0 < (s.slot b).period)) ∧
    (∃ (b : Fin 2) (s : State), (s.mayFire b .heartbeat = true) ∧ (s.keeper.running = true) ∧ ((s.basin b).state = 0) ∧
      (((s.basin b).seq ≠ (s.basin b).prev ∨ (s.basin b).misses < 3)) ∧ (0 < (s.slot b).period)) ∧
    (∃ (b : Fin 2) (s : State), (s.mayFire b .heartbeat = true) ∧ (s.keeper.running = true) ∧ ((s.basin b).state = 0) ∧
      ((s.basin b).seq = (s.basin b).prev) ∧ ((s.basin b).misses = 3) ∧ ((s.basin b).hang = false) ∧ (((s.recentStarts
      b).length + 1 ≤ s.regF Reg.RST_CFG 4 4))) ∧
    (∃ (b : Fin 2) (seq : U32) (s : State), (s.pumpRuns b = true) ∧ ((s.basin b).hang = false) ∧ ((s.basin b).seq ≠
      seq)) ∧
    (∃ (b : Fin 2) (seq : U32) (s : State), (((s.basin b).hang = true ∨ (s.basin b).seq = seq ∨ s.pumpRuns b = false))) :=
  ⟨⟨0,
    { up with basins := [(0, { tBasin with seq := 5, prev := 4, misses := 3 }), (1, tBasin)], clep := { up.clep with lock := .locked, slots := [(0, ⟨.heartbeat, 900000, true, true, false, 0, 100000, false⟩)] } },
    by decide +kernel, by decide +kernel, by decide +kernel, .inl (by decide +kernel), by decide +kernel⟩,
   ⟨0,
     { up with basins := [(0, { tBasin with seq := 5, prev := 5, misses := 2 }), (1, tBasin)], clep := { up.clep with lock := .locked, slots := [(0, ⟨.heartbeat, 900000, true, true, false, 0, 100000, false⟩)] } },
     by decide +kernel, by decide +kernel, by decide +kernel, .inr (by decide +kernel), by decide +kernel⟩,
   ⟨0,
     { up with basins := [(0, { tBasin with seq := 5, prev := 5, misses := 3 }), (1, tBasin)], clep := { up.clep with lock := .locked, slots := [(0, ⟨.heartbeat, 900000, true, true, false, 0, 100000, false⟩)] } },
     by decide +kernel⟩,
   ⟨0, 9, up, by decide +kernel⟩,
   ⟨0, 0, up, .inr (.inl rfl)⟩⟩

/-- The hypotheses of RillsDispatched hold together. -/
theorem witness_RillsDispatched :
    (∃ (n : RillName) (rid : Nat) (k : Nat) (ringBase : Fin 256) (ringSlots : Fin 64) (s : State), (s.physRill n = some
      k) ∧ ((s.rill k).idle = true) ∧ ((s.rill k).func ≠ 0) ∧ (s.canDispatch n.basin n.terrace = true) ∧ (s.mayServe rid
      n.basin (nodeTerrace n.basin n.terrace) = true) ∧ (s.rillRetired k = false)) ∧
    (∃ (n : RillName) (rid : Nat) (k : Nat) (ringBase : Fin 256) (ringSlots : Fin 64) (q : Req) (s : State), (s.physRill
      n = some k) ∧ (s.req? rid = some q) ∧ ((s.waitsOnTier rid = true ∨ q.life ≠ .running ∨ s.mayRunIn q n.basin =
      false ∨ s.rillRetired k = true))) ∧
    (∃ (n : RillName) (f : Fin 9) (k : Nat) (s : State), (s.physRill n = some k) ∧ (s.pumpRuns n.basin = true) ∧
      ((s.rill k).idle = true)) ∧
    (∃ (n : RillName) (f : Fin 9) (k : Nat) (s : State), (s.physRill n = some k) ∧ (s.pumpRuns n.basin = true) ∧
      ((s.rill k).idle = false)) ∧
    (∃ (n : RillName) (k : Nat) (s : State), (s.physRill n = some k) ∧ ((s.rill k).used ≠ 0)) ∧
    (∃ (s : State), (s.pageUp (keyPage Reg.RILL_INJECT) = true)) :=
  ⟨⟨⟨0, 0, 0, 0⟩, 1, 0, 3, 7,
    { withRill { Rill.reset with func := 1, flags := [(3, 4)], used := 2 } with reqs := [(1, topkReq)], nextRid := 2 },
    rfl, by decide +kernel⟩,
   ⟨⟨0, 0, 0, 0⟩, 1, 0, 3, 7, topkReq,
     { { withRill { Rill.reset with func := 1, flags := [(3, 4)], used := 2 } with reqs := [(1, topkReq)], nextRid := 2 } with mem := { MemRange.reset with reads := [tRead (.req 1)] } },
     rfl, rfl, .inl (by decide +kernel)⟩,
   ⟨⟨0, 0, 0, 0⟩, 7, 0, withRill { Rill.reset with func := 1, flags := [(3, 4)], used := 2 }, rfl, by decide +kernel⟩,
   ⟨⟨0, 0, 0, 0⟩, 7, 0, withRill tRill, rfl, by decide +kernel⟩,
   ⟨⟨0, 0, 0, 0⟩, 0, withRill { Rill.reset with func := 1, flags := [(3, 4)], used := 2 }, rfl, by decide +kernel⟩,
   ⟨up, by decide +kernel⟩⟩

/-- The hypotheses of FlagsCount hold together. -/
theorem witness_FlagsCount :
    (∃ (n : RillName) (sigs : List Signal) (k : Nat) (s : State), (s.physRill n = some k) ∧ ((bit (s.reg (instKey
      Reg.RILL_INJECT k)) 1 = false ∨ (s.rill k).rid = none)) ∧ ((∀ g ∈ sigs, signalOutside g = false)) ∧ (overflowsOf
      (s.rill k) sigs = []) ∧ ((∀ e ∈ (s.rill k).engs, ∀ f m pc d, e ≠ Eng.waitFlag f m pc d))) ∧
    (∃ (n : RillName) (sigs : List Signal) (k : Nat) (f : RFault) (s : State), (s.physRill n = some k) ∧ ((s.rill k).rid
      = none) ∧ ((∀ g ∈ sigs, signalOutside g = false)) ∧ (firstFault (overflowsOf (s.rill k) sigs) = some f)) ∧
    (∃ (n : RillName) (eng : Fin 5) (f : Fin 32) (m : Fin 256) (pc : Fin 4096) (k : Nat) (s : State), (s.physRill n =
      some k) ∧ ((s.rill k).engs[eng.val]? = some .run) ∧ (0 < m.val) ∧ (bit (s.reg (instKey Reg.RILL_INJECT k)) 0 =
      false) ∧ ((∀ (e : Nat) (g j p : Nat) (d : Bool), (s.rill k).engs[e]? = some (.waitFlag g j p d) → g ≠ f.val))) ∧
    (∃ (n : RillName) (eng : Fin 5) (f : Fin 32) (m : Fin 256) (pc : Fin 4096) (k : Nat) (s : State), (s.physRill n =
      some k) ∧ ((s.rill k).engs[eng.val]? = some .run) ∧ (0 < m.val) ∧ (bit (s.reg (instKey Reg.RILL_INJECT k)) 0 =
      false) ∧ ((∀ (e : Nat) (g j p : Nat) (d : Bool), (s.rill k).engs[e]? = some (.waitFlag g j p d) → g ≠ f.val))) :=
  ⟨⟨⟨0, 0, 0, 0⟩, [⟨0, 3, 5, 0, .other, []⟩, ⟨1, 3, 7, 1, .scratch 8, [1, 2]⟩, ⟨1, 31, 255, 2, .sram 9, [3]⟩], 0,
    withRill tRill, rfl, .inr rfl, by decide +kernel, by decide +kernel, no_wait _ (by decide +kernel)⟩,
   ⟨⟨0, 0, 0, 0⟩, [⟨0, 3, 5, 0, .other, []⟩, ⟨1, 3, 7, 1, .scratch 8, [1, 2]⟩, ⟨1, 31, 255, 2, .sram 9, [3]⟩], 0, ⟨2, 0,
     fFlagOverflow, 3, 65530, 0, 0, none, false⟩, withRill { tRill with flags := [(3, 65530)] }, rfl,
     by decide +kernel⟩,
   ⟨⟨0, 0, 0, 0⟩, 1, 3, 4, 9, 0, withRill { tRill with flags := [(3, 4)] }, rfl, by decide +kernel, by decide +kernel,
     by decide +kernel, fun e g j p d h => absurd rfl (no_wait _ (by decide +kernel) _ (List.mem_of_getElem? h) g j p
     d)⟩,
   ⟨⟨0, 0, 0, 0⟩, 1, 3, 4, 9, 0, withRill { tRill with flags := [(3, 3)] }, rfl, by decide +kernel, by decide +kernel,
     by decide +kernel, fun e g j p d h => absurd rfl (no_wait _ (by decide +kernel) _ (List.mem_of_getElem? h) g j p
     d)⟩⟩

/-- The hypotheses of RillsTimeOut hold together. -/
theorem witness_RillsTimeOut :
    (∃ (n : RillName) (eng : Fin 5) (k : Nat) (f : Nat) (m : Nat) (pc : Nat) (d : Bool) (s : State), (s.physRill n =
      some k) ∧ ((s.rill k).rid = none) ∧ ((s.rill k).engs[eng.val]? = some (.waitFlag f m pc d))) ∧
    (∃ (n : RillName) (eng : Fin 5) (pc : Fin 4096) (k : Nat) (s : State), (s.physRill n = some k) ∧ ((s.rill k).rid =
      none) ∧ ((s.rill k).engs[eng.val]? = some .run)) ∧
    (∃ (n : RillName) (eng : Fin 5) (pc : Fin 4096) (k : Nat) (s : State) (d : Nat) (a : Nat) (c : Bool), (s.physRill n
      = some k) ∧ ((s.rill k).rid = none) ∧ ((s.rill k).engs[eng.val]? = some (.heldSend d a c))) ∧
    (∃ (n : RillName) (num : Fin 4) (k : Nat) (e : Nat) (pc : Nat) (j : Nat) (b : Barrier) (s : State), (s.physRill n =
      some k) ∧ ((s.rill k).rid = none) ∧ (Store.find? (s.rill k).bars num = some b) ∧ (e = (maskEngines
      b.arrived).headD 0) ∧ ((s.rill k).engs[e]? = some (.waitBarrier j pc))) :=
  ⟨⟨⟨0, 0, 0, 0⟩, 1, 0, 3, 4, 9, false, withRill
    { tRill with engs := [.run, .waitFlag 3 4 9 false, .run, .run, .run], flags := [(3, 2)] }, rfl, by decide +kernel,
    rfl⟩,
   ⟨⟨0, 0, 0, 0⟩, 1, 9, 0, withRill tRill, rfl, by decide +kernel⟩,
   ⟨⟨0, 0, 0, 0⟩, 4, 9, 0, withRill { tRill with engs := [.run, .run, .run, .run, .heldSend 5 8 false] }, 5, 8, false,
     rfl, by decide +kernel, rfl⟩,
   ⟨⟨0, 0, 0, 0⟩, 2, 0, 1, 7, 2, ⟨6, 2⟩, withRill
     { tRill with bars := [(2, ⟨6, 2⟩)], engs := [.run, .waitBarrier 2 7, .run, .run, .run] }, rfl, by decide +kernel,
     rfl, by decide +kernel, rfl⟩⟩

/-- The hypotheses of BarriersMeet hold together. -/
theorem witness_BarriersMeet :
    (∃ (n : RillName) (eng : Fin 5) (num : Fin 4) (mask : Fin 32) (pc : Fin 4096) (k : Nat) (s : State), (s.physRill n =
      some k) ∧ ((s.rill k).engs[eng.val]? = some .run) ∧ (mask.val.testBit eng = true) ∧ ((∀ b, Store.find? (s.rill
      k).bars num = some b → b.mask = mask.val))) ∧
    (∃ (n : RillName) (eng : Fin 5) (num : Fin 4) (mask : Fin 32) (pc : Fin 4096) (k : Nat) (s : State), (s.physRill n =
      some k) ∧ ((s.rill k).engs[eng.val]? = some .run) ∧ (mask.val.testBit eng = true) ∧ ((∀ b, Store.find? (s.rill
      k).bars num = some b → b.mask = mask.val))) ∧
    (∃ (n : RillName) (eng : Fin 5) (num : Fin 4) (mask : Fin 32) (pc : Fin 4096) (k : Nat) (s : State), (s.physRill n =
      some k) ∧ ((s.rill k).engs[eng.val]? = some .run) ∧ ((s.rill k).rid = none) ∧ ((mask.val.testBit eng = false ∨ ∃
      b, Store.find? (s.rill k).bars num = some b ∧ b.mask ≠ mask.val))) ∧
    (∃ (n : RillName) (eng : Fin 5) (num : Fin 4) (mask : Fin 32) (pc : Fin 4096) (k : Nat) (s : State), (s.physRill n =
      some k) ∧ ((s.rill k).engs[eng.val]? = some .run) ∧ ((s.rill k).rid = none) ∧ ((mask.val.testBit eng = false ∨ ∃
      b, Store.find? (s.rill k).bars num = some b ∧ b.mask ≠ mask.val))) :=
  ⟨⟨⟨0, 0, 0, 0⟩, 1, 2, 6, 9, 0, withRill tRill, rfl, rfl, by decide +kernel, fun b h => nomatch (show (none : Option
    Barrier) = some b from h)⟩,
   ⟨⟨0, 0, 0, 0⟩, 1, 2, 6, 9, 0, withRill
     { tRill with bars := [(2, ⟨6, 4⟩)], engs := [.run, .run, .waitBarrier 2 7, .run, .run] }, rfl, rfl,
     by decide +kernel, fun b h => by have e : (some ⟨6, 4⟩ : Option Barrier) = some b := h; cases e; rfl⟩,
   ⟨⟨0, 0, 0, 0⟩, 1, 2, 5, 9, 0, withRill tRill, rfl, by decide +kernel, by decide +kernel, .inl (by decide +kernel)⟩,
   ⟨⟨0, 0, 0, 0⟩, 1, 2, 7, 9, 0, withRill
     { tRill with bars := [(2, ⟨6, 4⟩)], engs := [.run, .run, .waitBarrier 2 7, .run, .run] }, rfl, by decide +kernel,
     by decide +kernel, .inr ⟨_, rfl, by decide +kernel⟩⟩⟩

/-- The hypotheses of MessagesPass hold together. -/
theorem witness_MessagesPass :
    (∃ (n : RillName) (hdr : List Byte) (payload : List Byte) (pc : Fin 4096) (k : Nat) (prn : Nat) (d : Nat) (rk : Nat)
      (s : State), (s.physRill n = some k) ∧ ((s.rill k).engs[4]? = some .run) ∧ (d = leAt hdr 0 2) ∧ (d < 4096) ∧
      (s.mayReach k d = true) ∧ (s.physRunnel (nameOf d).basin (nameOf d).terrace (nameOf d).runnel = some prn) ∧
      (s.basinUp (nameOf d).basin = true) ∧ (s.bridgeWord n.basin (nameOf d).basin = 2) ∧ (bit (s.reg (instKey
      Reg.RILL_INJECT k)) 1 = false) ∧ (rk = runnelKey (nameOf d).basin (nameOf d).terrace prn) ∧ ((s.router rk).length
      < 64) ∧ ((∀ j, s.physRill (nameOf d) = some j → (s.rill j).used < (s.rill j).ring))) ∧
    (∃ (n : RillName) (hdr : List Byte) (payload : List Byte) (pc : Fin 4096) (k : Nat) (prn : Nat) (d : Nat) (rk : Nat)
      (s : State), (s.physRill n = some k) ∧ ((s.rill k).engs[4]? = some .run) ∧ (d = leAt hdr 0 2) ∧ (d < 4096) ∧
      (s.mayReach k d = true) ∧ (s.physRunnel (nameOf d).basin (nameOf d).terrace (nameOf d).runnel = some prn) ∧
      (s.basinUp (nameOf d).basin = true) ∧ (s.bridgeWord n.basin (nameOf d).basin = 2) ∧ (bit (s.reg (instKey
      Reg.RILL_INJECT k)) 1 = false) ∧ (rk = runnelKey (nameOf d).basin (nameOf d).terrace prn) ∧ (64 ≤ (s.router
      rk).length)) ∧
    (∃ (n : RillName) (hdr : List Byte) (payload : List Byte) (pc : Fin 4096) (k : Nat) (d : Nat) (s : State),
      (s.physRill n = some k) ∧ ((s.rill k).engs[4]? = some .run) ∧ (d = leAt hdr 0 2) ∧ (bit (s.reg (instKey
      Reg.RILL_INJECT k)) 1 = true) ∧ ((s.rill k).rid ≠ none)) ∧
    (∃ (n : RillName) (hdr : List Byte) (payload : List Byte) (pc : Fin 4096) (k : Nat) (d : Nat) (s : State),
      (s.physRill n = some k) ∧ ((s.rill k).engs[4]? = some .run) ∧ (d = leAt hdr 0 2) ∧ (bit (s.reg (instKey
      Reg.RILL_INJECT k)) 1 = false) ∧ ((s.mayReach k d = false ∨ 4096 ≤ d))) ∧
    (∃ (n : RillName) (hdr : List Byte) (payload : List Byte) (pc : Fin 4096) (k : Nat) (d : Nat) (s : State),
      (s.physRill n = some k) ∧ ((s.rill k).engs[4]? = some .run) ∧ (d = leAt hdr 0 2) ∧ (bit (s.reg (instKey
      Reg.RILL_INJECT k)) 1 = false) ∧ (d < 4096) ∧ (s.mayReach k d = true) ∧ ((s.basinUp (nameOf d).basin = false ∨
      s.bridgeWord n.basin (nameOf d).basin = 0))) ∧
    (∃ (b : Fin 2) (hdr : List Byte) (payload : List Byte) (pc : Fin 4096) (prn : Nat) (d : Nat) (rk : Nat) (s : State),
      (s.pumpRuns b = true) ∧ (d = leAt hdr 0 2) ∧ (d < 4096) ∧ (s.physRunnel (nameOf d).basin (nameOf d).terrace
      (nameOf d).runnel = some prn) ∧ (s.basinUp (nameOf d).basin = true) ∧ (s.bridgeWord b (nameOf d).basin = 2) ∧ (rk
      = runnelKey (nameOf d).basin (nameOf d).terrace prn) ∧ ((s.router rk).length < 64) ∧ ((∀ j, s.physRill (nameOf d)
      = some j → (s.rill j).used < (s.rill j).ring))) ∧
    (∃ (n : RunnelName) (pos : Nat) (prn : Nat) (k : Nat) (rk : Nat) (m : Msg) (s : State), (s.physRunnel n.basin
      n.terrace n.runnel = some prn) ∧ (rk = runnelKey n.basin n.terrace prn) ∧ ((s.router rk)[pos]? = some m) ∧
      (s.physRill (nameOf m.dest) = some k) ∧ ((∀ x ∈ (s.router rk).take pos, ¬ (x.src = m.src ∧ x.dest = m.dest))) ∧
      ((s.rill k).used < (s.rill k).ring) ∧ ((s.rill k).flag m.flag < 65535) ∧ ((∀ e ∈ (s.rill k).engs, ∀ f j pc d, e ≠
      Eng.waitFlag f j pc d))) ∧
    (∃ (n : RunnelName) (pos : Nat) (prn : Nat) (k : Nat) (rk : Nat) (m : Msg) (s : State), (s.physRunnel n.basin
      n.terrace n.runnel = some prn) ∧ (rk = runnelKey n.basin n.terrace prn) ∧ ((s.router rk)[pos]? = some m) ∧
      (s.physRill (nameOf m.dest) = some k) ∧ (((s.rill k).ring ≤ (s.rill k).used ∨ ∃ x ∈ (s.router rk).take pos, x.src
      = m.src ∧ x.dest = m.dest))) :=
  ⟨⟨⟨0, 0, 0, 0⟩, leBytes 2 0x10 ++ [1, 0, 3, 0, 0, 0] ++ leBytes 8 77, zeroBytes 16, 9, 0, 1, 0x10, runnelKey 0 0 1,
    { withRill { tRill with rid := some 1 } with reqs := [(1, topkReq)], nextRid := 2 }, rfl, by decide +kernel,
    by decide +kernel, by decide +kernel, by decide +kernel, rfl, by decide +kernel, by decide +kernel,
    by decide +kernel, by decide +kernel, by decide +kernel,
    by intro j hj; rcases (show some _ = some j from hj) with ⟨rfl⟩; decide +kernel⟩,
   ⟨⟨0, 0, 0, 0⟩, leBytes 2 0x10 ++ [1, 0, 3, 0, 0, 0] ++ leBytes 8 77, zeroBytes 16, 9, 0, 1, 0x10, runnelKey 0 0 1,
     { { withRill { tRill with rid := some 1 } with reqs := [(1, topkReq)], nextRid := 2 } with fabric := { Fabric.reset with rills := [(0, { tRill with rid := some 1 })], routers := [(16, List.replicate 64 (⟨0x10, 0, 3, 0, [], false⟩ : Msg))] } },
     rfl, by decide +kernel, by decide +kernel, by decide +kernel, by decide +kernel, rfl, by decide +kernel⟩,
   ⟨⟨0, 0, 0, 0⟩, leBytes 2 0x10 ++ [1, 0, 3, 0, 0, 0] ++ leBytes 8 77, zeroBytes 240, 9, 0, 0x10,
     { { withRill { tRill with rid := some 1 } with reqs := [(1, topkReq)], nextRid := 2 } with regs := [(Reg.RILL_INJECT, 2)] },
     rfl, rfl, by decide +kernel⟩,
   ⟨⟨0, 0, 0, 0⟩, leBytes 2 0x10 ++ [1, 0, 3, 0, 0, 0] ++ leBytes 8 77, zeroBytes 240, 9, 0, 0x10, withRill tRill, rfl,
     rfl, by decide +kernel, by decide +kernel, .inl (by decide +kernel)⟩,
   ⟨⟨0, 0, 0, 0⟩, leBytes 2 1 ++ zeroBytes 14, zeroBytes 240, 9, 0, 1,
     { withRill { tRill with rid := some 1 } with reqs := [(1, topkReq)], nextRid := 2 }, rfl, rfl, by decide +kernel,
     by decide +kernel, by decide +kernel, by decide +kernel, .inr (by decide +kernel)⟩,
   ⟨0, leBytes 2 0x10 ++ [1, 0, 3, 0, 0, 0] ++ leBytes 8 77, zeroBytes 16, 9, 1, 0x10, runnelKey 0 0 1, up,
     by decide +kernel, by decide +kernel, by decide +kernel, rfl, by decide +kernel⟩,
   ⟨⟨0, 0, 0⟩, 1, 0, 0, 0, ⟨0, 0x10, 3, 0, [], false⟩,
     { up with fabric := { Fabric.reset with rills := [(0, tRill)], routers := [(0, [⟨0, 0x20, 3, 0, [], false⟩, ⟨0, 0x10, 3, 0, [], false⟩])] } },
     rfl, by decide +kernel, rfl, rfl, by decide +kernel, by decide +kernel, by decide +kernel, no_wait _
     (by decide +kernel)⟩,
   ⟨⟨0, 0, 0⟩, 1, 0, 0, 0, ⟨0, 0x10, 3, 0, [], false⟩,
     { up with fabric := { Fabric.reset with rills := [(0, { tRill with used := 64 })], routers := [(0, [⟨0, 0x20, 3, 0, [], false⟩, ⟨0, 0x10, 3, 0, [], false⟩])] } },
     rfl, by decide +kernel, rfl, rfl, by decide +kernel⟩⟩

/-- The hypotheses of BridgesReplay hold together. -/
theorem witness_BridgesReplay :
    (∃ (link : Fin 4) (first : Bool) (s : State), (((s.bridge link).state = 2 ∨ link.val = 3)) ∧ ((s.bridge
      link).retrain = false)) ∧
    (∃ (link : Fin 4) (ok : Bool) (s : State), ((s.bridge link).retrain = true) ∧ ((ok = true ∨ link.val = 3))) ∧
    (∃ (link : Fin 4) (s : State) (b : Nat), ((s.bridge link).retrain = true) ∧ (link.val ≠ 3) ∧ (b = (if link.val = 2
      then 1 else link.val)) ∧ (s.keeper.running = true) ∧ ((s.basin b).state = 0) ∧ ((s.recentStarts b).length + 1 ≤
      s.regF Reg.RST_CFG 4 4)) :=
  ⟨⟨1, true, { up with fabric := { Fabric.reset with bridges := [(1, ⟨2, 0, false⟩)] } }, .inl (by decide +kernel),
    by decide +kernel⟩,
   ⟨1, true, { up with fabric := { Fabric.reset with bridges := [(1, ⟨1, 16, true⟩)] } }, by decide +kernel, .inl rfl⟩,
   ⟨2, { up with fabric := { Fabric.reset with bridges := [(2, ⟨1, 0, true⟩)] } }, 1, by decide +kernel⟩⟩

/-- The hypotheses of SpoutsObey hold together. -/
theorem witness_SpoutsObey :
    (∃ (n : SpoutName) (s : State) (k : Nat) (row : U16), (s.spoutOff (keyOfSpout n) = false) ∧ (k = keyOfSpout n) ∧
      ((s.spout k).seq = true) ∧ ((s.spout k).row = none)) ∧
    (∃ (n : SpoutName) (s : State) (k : Nat), (s.spoutOff (keyOfSpout n) = false) ∧ (k = keyOfSpout n) ∧ ((s.spout
      k).row ≠ none)) ∧
    (∃ (n : SpoutName) (s : State) (k : Nat) (ctx : Fin 8) (rec : List Byte) (q : Option (Nat × Nat)), (s.spoutOff
      (keyOfSpout n) = false) ∧ (k = keyOfSpout n) ∧ ((s.spout k).seq = false)) ∧
    (∃ (n : SpoutName) (s : State) (k : Nat) (ctx : Fin 8) (burst : List Byte) (c : SpCtx), (s.spoutOff (keyOfSpout n) =
      false) ∧ (k = keyOfSpout n) ∧ (Store.find? (s.spout k).ctxs ctx = some c)) ∧
    (∃ (n : SpoutName) (s : State) (k : Nat) (start : Fin 1024), (s.spoutOff (keyOfSpout n) = false) ∧ (k = keyOfSpout
      n) ∧ ((s.spout k).ctxs ≠ []) ∧ ((s.spout k).next = none)) ∧
    (∃ (n : SpoutName) (s : State) (k : Nat), (s.spoutOff (keyOfSpout n) = false) ∧ (k = keyOfSpout n) ∧ ((s.spout
      k).seq = false)) ∧
    (∃ (n : SpoutName) (s : State) (k : Nat), (s.spoutOff (keyOfSpout n) = false) ∧ (k = keyOfSpout n) ∧ ((s.spout
      k).seq = true) ∧ ((s.spout k).row = none)) :=
  ⟨⟨⟨0, 0, 0, 0⟩, withSpout { Spout.reset with seq := true }, keyOfSpout ⟨0, 0, 0, 0⟩, 65535, by decide +kernel, rfl,
    by decide +kernel⟩,
   ⟨⟨0, 0, 0, 0⟩, withSpout { Spout.reset with seq := true, row := some 9 }, keyOfSpout ⟨0, 0, 0, 0⟩, by decide +kernel,
     rfl, by decide +kernel⟩,
   ⟨⟨0, 0, 0, 0⟩, withSpout Spout.reset, keyOfSpout ⟨0, 0, 0, 0⟩, 7, List.replicate 96 1, some (1, 0),
     by decide +kernel, rfl, by decide +kernel⟩,
   ⟨⟨0, 0, 0, 0⟩, withSpout { Spout.reset with ctxs := [(0, ⟨zeroBytes 96, none⟩)] }, keyOfSpout ⟨0, 0, 0, 0⟩, 0,
     List.replicate 32 9, ⟨zeroBytes 96, none⟩, by decide +kernel, rfl, rfl⟩,
   ⟨⟨0, 0, 0, 0⟩, withSpout { Spout.reset with ctxs := [(0, ⟨zeroBytes 96, none⟩)] }, keyOfSpout ⟨0, 0, 0, 0⟩, 1023,
     by decide +kernel, rfl, by decide +kernel⟩,
   ⟨⟨0, 0, 0, 0⟩, withSpout { Spout.reset with ctxs := [(0, ⟨zeroBytes 96, none⟩)], fifo := [⟨1, 0, 3, 0, 0⟩] },
     keyOfSpout ⟨0, 0, 0, 0⟩, by decide +kernel, rfl, by decide +kernel⟩,
   ⟨⟨0, 0, 0, 0⟩, withSpout
     { Spout.reset with ctxs := [(0, ⟨zeroBytes 96, none⟩)], seq := true, fifo := [⟨1, 0, 3, 0, 0⟩] }, keyOfSpout ⟨0, 0,
     0, 0⟩, by decide +kernel, rfl, by decide +kernel⟩⟩

/-- The hypotheses of SpoutsReadAndReport hold together. -/
theorem witness_SpoutsReadAndReport :
    (∃ (n : SpoutName) (seg : Fin 4) (data : List Byte) (row : Nat) (k : Nat) (sp : Spout) (s : State), (k = keyOfSpout
      n) ∧ (s.spoutOff k = false) ∧ ((s.spout k).row = some row) ∧ ((s.stack (k % 4 + 4)).ctrlEcc = false) ∧ ((s.stack
      (k % 4 + 4)).runSealed (rowRun n.pc n.bank row) = false) ∧ (sp = (s.spout k).segment ((row % 64) * 1024 + seg *
      256) (padTo 0 256 data) 4) ∧ (mayIssue (s.spout k) sp = true)) ∧
    (∃ (n : SpoutName) (run : Fin 262144) (data : List Byte) (k : Nat) (sp : Spout) (s : State), (k = keyOfSpout n) ∧
      (s.spoutOff k = false) ∧ ((s.spout k).seq = true) ∧ ((s.stack (k % 4 + 4)).ctrlEcc = false) ∧ ((s.stack (k % 4 +
      4)).runSealed run = false) ∧ (sp = (s.spout k).take (padTo 0 32 data)) ∧ (mayIssue (s.spout k) sp = true)) ∧
    (∃ (n : SpoutName) (k : Nat) (s : State), (k = keyOfSpout n) ∧ (s.spoutOff k = false) ∧ (bit (s.reg (instKey
      Reg.SPOUT_INJECT k)) 0 = false)) ∧
    (∃ (n : SpoutName) (k : Nat) (s : State), (k = keyOfSpout n) ∧ (s.spoutOff k = false) ∧ ((s.spout k).err = 0)) ∧
    (∃ (n : SpoutName) (column : Fin 32) (data : List Byte) (check : List Byte) (k : Nat) (s : State), (k = keyOfSpout
      n) ∧ ((s.spout k).row = none) ∧ ((s.stack (k % 4 + 4)).ctrlEcc = false)) :=
  ⟨⟨⟨0, 0, 0, 0⟩, 0, zeroBytes 256, 65, keyOfSpout ⟨0, 0, 0, 0⟩,
    { Spout.reset with ctxs := [(0, ⟨zeroBytes 96, none⟩)], seq := true, row := some 65, cur := some ⟨1024, []⟩, room := 1024 }.segment
    ((65 % 64) * 1024 + 0 * 256) (padTo 0 256 (zeroBytes 256)) 4, withSpout
    { Spout.reset with ctxs := [(0, ⟨zeroBytes 96, none⟩)], seq := true, row := some 65, cur := some ⟨1024, []⟩, room := 1024 },
    rfl, by decide +kernel, rfl, by decide +kernel, by decide +kernel, rfl, by decide +kernel⟩,
   ⟨⟨0, 0, 0, 0⟩, 5, zeroBytes 32, keyOfSpout ⟨0, 0, 0, 0⟩,
     { Spout.reset with ctxs := [(0, ⟨zeroBytes 96, none⟩)], seq := true, row := some 65, cur := some ⟨1024, []⟩, room := 1024 }.take
     (padTo 0 32 (zeroBytes 32)), withSpout
     { Spout.reset with ctxs := [(0, ⟨zeroBytes 96, none⟩)], seq := true, row := some 65, cur := some ⟨1024, []⟩, room := 1024 },
     rfl, by decide +kernel, by decide +kernel, by decide +kernel, by decide +kernel, rfl, by decide +kernel⟩,
   ⟨⟨0, 0, 0, 0⟩, keyOfSpout ⟨0, 0, 0, 0⟩, withSpout
     { Spout.reset with fifo := [⟨1, 0, 3, 0, 0⟩, ⟨2, 0, 3, 0, 0⟩, ⟨4, 0, 3, 0, 0⟩] }, rfl, by decide +kernel⟩,
   ⟨⟨0, 0, 0, 0⟩, keyOfSpout ⟨0, 0, 0, 0⟩, withSpout { Spout.reset with fifo := [⟨1, 0, 3, 0, 0⟩], done := true }, rfl,
     by decide +kernel⟩,
   ⟨⟨0, 0, 0, 0⟩, 3, zeroBytes 32, zeroBytes 4, keyOfSpout ⟨0, 0, 0, 0⟩, withSpout Spout.reset, rfl, by decide +kernel⟩⟩

/-- The hypotheses of SpoutOrderKept hold together. -/
theorem witness_SpoutOrderKept :
    (∃ (n : SpoutName) (s : State) (i : Instr) (op : Nat) (opnd : Nat) (k : Nat), (k = keyOfSpout n) ∧ (((∃ row : U16, i
      = .spact n row ∧ op = 1 ∧ opnd = row.toNat ∧ ((s.spout k).seq = false ∨ (s.spout k).row ≠ none)) ∨ (∃ c r q, i =
      .spload n c r q ∧ op = 4 ∧ opnd = c.val ∧ (s.spout k).seq = true) ∨ (∃ b : Fin 1024, i = .spblk n b ∧ op = 6 ∧
      opnd = b.val ∧ ((s.spout k).ctxs = [] ∨ (s.spout k).next ≠ none)) ∨ (∃ u d, i = .spfeed n ⟨u, d⟩ ∧ op = 7 ∧ opnd =
      0 ∧ (s.spout k).seq = false ∧ (s.stack (k % 4 + 4)).ctrlEcc = false ∧ (s.stack (k % 4 + 4)).runSealed u = false) ∨
      (i = .spclr n ∧ op = 10 ∧ opnd = 0 ∧ (s.spout k).seq = true) ∨ (i = .spend n ∧ op = 11 ∧ opnd = 0 ∧ ((s.spout
      k).seq = false ∨ (s.spout k).row ≠ none)) ∨ (∃ c b, i = .rawrd n c b ∧ op = 12 ∧ opnd = c.val ∧ (s.spout k).row ≠
      none ∧ (s.stack (k % 4 + 4)).ctrlEcc = false) ∨ (∃ (g : Fin 4) (d : List Byte) (u p : Bool), i = .spseg n g d u p
      ∧ op = 2 ∧ opnd = g.val ∧ (s.spout k).row = none)))) ∧
    (∃ (n : SpoutName) (s : State) (i : Instr) (op : Nat) (opnd : Nat) (k : Nat), (k = keyOfSpout n) ∧ (((∃ row : U16, i
      = .spact n row ∧ op = 1 ∧ opnd = row.toNat ∧ ((s.spout k).seq = false ∨ (s.spout k).row ≠ none)) ∨ (∃ c r q, i =
      .spload n c r q ∧ op = 4 ∧ opnd = c.val ∧ (s.spout k).seq = true) ∨ (∃ b : Fin 1024, i = .spblk n b ∧ op = 6 ∧
      opnd = b.val ∧ ((s.spout k).ctxs = [] ∨ (s.spout k).next ≠ none)) ∨ (∃ u d, i = .spfeed n ⟨u, d⟩ ∧ op = 7 ∧ opnd =
      0 ∧ (s.spout k).seq = false ∧ (s.stack (k % 4 + 4)).ctrlEcc = false ∧ (s.stack (k % 4 + 4)).runSealed u = false) ∨
      (i = .spclr n ∧ op = 10 ∧ opnd = 0 ∧ (s.spout k).seq = true) ∨ (i = .spend n ∧ op = 11 ∧ opnd = 0 ∧ ((s.spout
      k).seq = false ∨ (s.spout k).row ≠ none)) ∨ (∃ c b, i = .rawrd n c b ∧ op = 12 ∧ opnd = c.val ∧ (s.spout k).row ≠
      none ∧ (s.stack (k % 4 + 4)).ctrlEcc = false) ∨ (∃ (g : Fin 4) (d : List Byte) (u p : Bool), i = .spseg n g d u p
      ∧ op = 2 ∧ opnd = g.val ∧ (s.spout k).row = none)))) ∧
    (∃ (n : SpoutName) (s : State) (i : Instr) (op : Nat) (opnd : Nat) (k : Nat), (k = keyOfSpout n) ∧ (((∃ row : U16, i
      = .spact n row ∧ op = 1 ∧ opnd = row.toNat ∧ ((s.spout k).seq = false ∨ (s.spout k).row ≠ none)) ∨ (∃ c r q, i =
      .spload n c r q ∧ op = 4 ∧ opnd = c.val ∧ (s.spout k).seq = true) ∨ (∃ b : Fin 1024, i = .spblk n b ∧ op = 6 ∧
      opnd = b.val ∧ ((s.spout k).ctxs = [] ∨ (s.spout k).next ≠ none)) ∨ (∃ u d, i = .spfeed n ⟨u, d⟩ ∧ op = 7 ∧ opnd =
      0 ∧ (s.spout k).seq = false ∧ (s.stack (k % 4 + 4)).ctrlEcc = false ∧ (s.stack (k % 4 + 4)).runSealed u = false) ∨
      (i = .spclr n ∧ op = 10 ∧ opnd = 0 ∧ (s.spout k).seq = true) ∨ (i = .spend n ∧ op = 11 ∧ opnd = 0 ∧ ((s.spout
      k).seq = false ∨ (s.spout k).row ≠ none)) ∨ (∃ c b, i = .rawrd n c b ∧ op = 12 ∧ opnd = c.val ∧ (s.spout k).row ≠
      none ∧ (s.stack (k % 4 + 4)).ctrlEcc = false) ∨ (∃ (g : Fin 4) (d : List Byte) (u p : Bool), i = .spseg n g d u p
      ∧ op = 2 ∧ opnd = g.val ∧ (s.spout k).row = none)))) ∧
    (∃ (n : SpoutName) (s : State) (i : Instr) (op : Nat) (opnd : Nat) (k : Nat), (k = keyOfSpout n) ∧ (((∃ row : U16, i
      = .spact n row ∧ op = 1 ∧ opnd = row.toNat ∧ ((s.spout k).seq = false ∨ (s.spout k).row ≠ none)) ∨ (∃ c r q, i =
      .spload n c r q ∧ op = 4 ∧ opnd = c.val ∧ (s.spout k).seq = true) ∨ (∃ b : Fin 1024, i = .spblk n b ∧ op = 6 ∧
      opnd = b.val ∧ ((s.spout k).ctxs = [] ∨ (s.spout k).next ≠ none)) ∨ (∃ u d, i = .spfeed n ⟨u, d⟩ ∧ op = 7 ∧ opnd =
      0 ∧ (s.spout k).seq = false ∧ (s.stack (k % 4 + 4)).ctrlEcc = false ∧ (s.stack (k % 4 + 4)).runSealed u = false) ∨
      (i = .spclr n ∧ op = 10 ∧ opnd = 0 ∧ (s.spout k).seq = true) ∨ (i = .spend n ∧ op = 11 ∧ opnd = 0 ∧ ((s.spout
      k).seq = false ∨ (s.spout k).row ≠ none)) ∨ (∃ c b, i = .rawrd n c b ∧ op = 12 ∧ opnd = c.val ∧ (s.spout k).row ≠
      none ∧ (s.stack (k % 4 + 4)).ctrlEcc = false) ∨ (∃ (g : Fin 4) (d : List Byte) (u p : Bool), i = .spseg n g d u p
      ∧ op = 2 ∧ opnd = g.val ∧ (s.spout k).row = none)))) ∧
    (∃ (n : SpoutName) (s : State) (i : Instr) (op : Nat) (opnd : Nat) (k : Nat), (k = keyOfSpout n) ∧ (((∃ row : U16, i
      = .spact n row ∧ op = 1 ∧ opnd = row.toNat ∧ ((s.spout k).seq = false ∨ (s.spout k).row ≠ none)) ∨ (∃ c r q, i =
      .spload n c r q ∧ op = 4 ∧ opnd = c.val ∧ (s.spout k).seq = true) ∨ (∃ b : Fin 1024, i = .spblk n b ∧ op = 6 ∧
      opnd = b.val ∧ ((s.spout k).ctxs = [] ∨ (s.spout k).next ≠ none)) ∨ (∃ u d, i = .spfeed n ⟨u, d⟩ ∧ op = 7 ∧ opnd =
      0 ∧ (s.spout k).seq = false ∧ (s.stack (k % 4 + 4)).ctrlEcc = false ∧ (s.stack (k % 4 + 4)).runSealed u = false) ∨
      (i = .spclr n ∧ op = 10 ∧ opnd = 0 ∧ (s.spout k).seq = true) ∨ (i = .spend n ∧ op = 11 ∧ opnd = 0 ∧ ((s.spout
      k).seq = false ∨ (s.spout k).row ≠ none)) ∨ (∃ c b, i = .rawrd n c b ∧ op = 12 ∧ opnd = c.val ∧ (s.spout k).row ≠
      none ∧ (s.stack (k % 4 + 4)).ctrlEcc = false) ∨ (∃ (g : Fin 4) (d : List Byte) (u p : Bool), i = .spseg n g d u p
      ∧ op = 2 ∧ opnd = g.val ∧ (s.spout k).row = none)))) ∧
    (∃ (n : SpoutName) (s : State) (i : Instr) (op : Nat) (opnd : Nat) (k : Nat), (k = keyOfSpout n) ∧ (((∃ row : U16, i
      = .spact n row ∧ op = 1 ∧ opnd = row.toNat ∧ ((s.spout k).seq = false ∨ (s.spout k).row ≠ none)) ∨ (∃ c r q, i =
      .spload n c r q ∧ op = 4 ∧ opnd = c.val ∧ (s.spout k).seq = true) ∨ (∃ b : Fin 1024, i = .spblk n b ∧ op = 6 ∧
      opnd = b.val ∧ ((s.spout k).ctxs = [] ∨ (s.spout k).next ≠ none)) ∨ (∃ u d, i = .spfeed n ⟨u, d⟩ ∧ op = 7 ∧ opnd =
      0 ∧ (s.spout k).seq = false ∧ (s.stack (k % 4 + 4)).ctrlEcc = false ∧ (s.stack (k % 4 + 4)).runSealed u = false) ∨
      (i = .spclr n ∧ op = 10 ∧ opnd = 0 ∧ (s.spout k).seq = true) ∨ (i = .spend n ∧ op = 11 ∧ opnd = 0 ∧ ((s.spout
      k).seq = false ∨ (s.spout k).row ≠ none)) ∨ (∃ c b, i = .rawrd n c b ∧ op = 12 ∧ opnd = c.val ∧ (s.spout k).row ≠
      none ∧ (s.stack (k % 4 + 4)).ctrlEcc = false) ∨ (∃ (g : Fin 4) (d : List Byte) (u p : Bool), i = .spseg n g d u p
      ∧ op = 2 ∧ opnd = g.val ∧ (s.spout k).row = none)))) ∧
    (∃ (n : SpoutName) (s : State) (i : Instr) (op : Nat) (opnd : Nat) (k : Nat), (k = keyOfSpout n) ∧ (((∃ row : U16, i
      = .spact n row ∧ op = 1 ∧ opnd = row.toNat ∧ ((s.spout k).seq = false ∨ (s.spout k).row ≠ none)) ∨ (∃ c r q, i =
      .spload n c r q ∧ op = 4 ∧ opnd = c.val ∧ (s.spout k).seq = true) ∨ (∃ b : Fin 1024, i = .spblk n b ∧ op = 6 ∧
      opnd = b.val ∧ ((s.spout k).ctxs = [] ∨ (s.spout k).next ≠ none)) ∨ (∃ u d, i = .spfeed n ⟨u, d⟩ ∧ op = 7 ∧ opnd =
      0 ∧ (s.spout k).seq = false ∧ (s.stack (k % 4 + 4)).ctrlEcc = false ∧ (s.stack (k % 4 + 4)).runSealed u = false) ∨
      (i = .spclr n ∧ op = 10 ∧ opnd = 0 ∧ (s.spout k).seq = true) ∨ (i = .spend n ∧ op = 11 ∧ opnd = 0 ∧ ((s.spout
      k).seq = false ∨ (s.spout k).row ≠ none)) ∨ (∃ c b, i = .rawrd n c b ∧ op = 12 ∧ opnd = c.val ∧ (s.spout k).row ≠
      none ∧ (s.stack (k % 4 + 4)).ctrlEcc = false) ∨ (∃ (g : Fin 4) (d : List Byte) (u p : Bool), i = .spseg n g d u p
      ∧ op = 2 ∧ opnd = g.val ∧ (s.spout k).row = none)))) ∧
    (∃ (n : SpoutName) (s : State) (i : Instr) (op : Nat) (opnd : Nat) (k : Nat), (k = keyOfSpout n) ∧ (((∃ row : U16, i
      = .spact n row ∧ op = 1 ∧ opnd = row.toNat ∧ ((s.spout k).seq = false ∨ (s.spout k).row ≠ none)) ∨ (∃ c r q, i =
      .spload n c r q ∧ op = 4 ∧ opnd = c.val ∧ (s.spout k).seq = true) ∨ (∃ b : Fin 1024, i = .spblk n b ∧ op = 6 ∧
      opnd = b.val ∧ ((s.spout k).ctxs = [] ∨ (s.spout k).next ≠ none)) ∨ (∃ u d, i = .spfeed n ⟨u, d⟩ ∧ op = 7 ∧ opnd =
      0 ∧ (s.spout k).seq = false ∧ (s.stack (k % 4 + 4)).ctrlEcc = false ∧ (s.stack (k % 4 + 4)).runSealed u = false) ∨
      (i = .spclr n ∧ op = 10 ∧ opnd = 0 ∧ (s.spout k).seq = true) ∨ (i = .spend n ∧ op = 11 ∧ opnd = 0 ∧ ((s.spout
      k).seq = false ∨ (s.spout k).row ≠ none)) ∨ (∃ c b, i = .rawrd n c b ∧ op = 12 ∧ opnd = c.val ∧ (s.spout k).row ≠
      none ∧ (s.stack (k % 4 + 4)).ctrlEcc = false) ∨ (∃ (g : Fin 4) (d : List Byte) (u p : Bool), i = .spseg n g d u p
      ∧ op = 2 ∧ opnd = g.val ∧ (s.spout k).row = none)))) :=
  ⟨⟨⟨0, 0, 0, 0⟩, withSpout Spout.reset, .spact ⟨0, 0, 0, 0⟩ 7, 1, 7, keyOfSpout ⟨0, 0, 0, 0⟩, rfl, .inl ⟨_, rfl, rfl,
    rfl, .inl rfl⟩⟩,
   ⟨⟨0, 0, 0, 0⟩, withSpout { Spout.reset with seq := true }, .spload ⟨0, 0, 0, 0⟩ 1 (zeroBytes 96) none, 4, 1,
     keyOfSpout ⟨0, 0, 0, 0⟩, rfl, .inr (.inl ⟨_, _, _, rfl, rfl, rfl, rfl⟩)⟩,
   ⟨⟨0, 0, 0, 0⟩, withSpout Spout.reset, .spblk ⟨0, 0, 0, 0⟩ 1, 6, 1, keyOfSpout ⟨0, 0, 0, 0⟩, rfl, .inr (.inr (.inl ⟨_,
     rfl, rfl, rfl, .inl rfl⟩))⟩,
   ⟨⟨0, 0, 0, 0⟩, withSpout Spout.reset, .spfeed ⟨0, 0, 0, 0⟩ ⟨5, zeroBytes 32⟩, 7, 0, keyOfSpout ⟨0, 0, 0, 0⟩, rfl,
     .inr (.inr (.inr (.inl ⟨_, _, rfl, rfl, rfl, rfl, by decide +kernel⟩)))⟩,
   ⟨⟨0, 0, 0, 0⟩, withSpout { Spout.reset with seq := true }, .spclr ⟨0, 0, 0, 0⟩, 10, 0, keyOfSpout ⟨0, 0, 0, 0⟩, rfl,
     .inr (.inr (.inr (.inr (.inl ⟨rfl, rfl, rfl, rfl⟩))))⟩,
   ⟨⟨0, 0, 0, 0⟩, withSpout Spout.reset, .spend ⟨0, 0, 0, 0⟩, 11, 0, keyOfSpout ⟨0, 0, 0, 0⟩, rfl, .inr (.inr (.inr
     (.inr (.inr (.inl ⟨rfl, rfl, rfl, .inl rfl⟩)))))⟩,
   ⟨⟨0, 0, 0, 0⟩, withSpout { Spout.reset with seq := true }, .spseg ⟨0, 0, 0, 0⟩ 1 (zeroBytes 256) false false, 2, 1,
     keyOfSpout ⟨0, 0, 0, 0⟩, rfl, .inr (.inr (.inr (.inr (.inr (.inr (.inr (⟨_, _, _, _, rfl, rfl, rfl, rfl⟩)))))))⟩,
   ⟨⟨0, 0, 0, 0⟩, withSpout { Spout.reset with seq := true, row := some 9 }, .rawrd ⟨0, 0, 0, 0⟩ 3 ⟨zeroBytes 32,
     zeroBytes 4⟩, 12, 3, keyOfSpout ⟨0, 0, 0, 0⟩, rfl, .inr (.inr (.inr (.inr (.inr (.inr (.inl ⟨_, _, rfl, rfl, rfl,
     by decide +kernel⟩))))))⟩⟩

/-- The hypotheses of RefreshAndScrub hold together. -/
theorem witness_RefreshAndScrub :
    (∃ (n : StackName) (pc : Fin 16) (waits : List Nat) (p : Nat) (s : State), (p = n.basin.val + 2 * n.complex.val + 4
      * pc.val) ∧ ((n.spouting = false ∨ s.pcClosed p = true))) ∧
    (∃ (n : StackName) (pc : Fin 16) (waits : List Nat) (p : Nat) (s : State), (p = n.basin.val + 2 * n.complex.val + 4
      * pc.val) ∧ (n.spouting = true) ∧ (s.pcClosed p = false)) ∧
    (∃ (b : Fin 2) (c : Fin 2) (s : State) (r : Nat), ((s.stack (stackKey b c 1)).firstSealed = some r) ∧ (s.regF
      Reg.SPOUT_CFG 3 1 = 1) ∧ ((s.stack (stackKey b c 1)).ctrlEcc = false) ∧ ((s.stack (stackKey b c 1)).state = 1) ∧
      (s.bankSpouts b c (r % 16) (r / 16 % 16) = true)) ∧
    (∃ (b : Fin 2) (c : Fin 2) (s : State) (r : Nat), ((s.stack (stackKey b c 1)).firstSealed = some r) ∧ (s.regF
      Reg.SPOUT_CFG 3 1 = 1) ∧ ((s.stack (stackKey b c 1)).ctrlEcc = false) ∧ ((s.stack (stackKey b c 1)).state = 1) ∧
      (s.bankSpouts b c (r % 16) (r / 16 % 16) = false)) ∧
    (∃ (s : State), (s.pageUp (keyPage Reg.SPOUT_INJECT) = true)) :=
  ⟨⟨⟨0, 0, true⟩, 0, [], 0, withSpout Spout.reset, rfl, .inr (by decide +kernel)⟩,
   ⟨⟨0, 0, true⟩, 0, [5], 0, withSpout { Spout.reset with seq := true, row := some 9 }, rfl, by decide +kernel⟩,
   ⟨0, 0,
     { up with hbm := { Hbm.reset with spouts := [(keyOfSpout ⟨0, 0, 5, 0⟩, { Spout.reset with seq := true, row := some 9 })], dram := [(4, { Stack.reset with state := 1, ctrlEcc := false, sealEx := [5, 9] })] } },
     5, by decide +kernel⟩,
   ⟨0, 0,
     { up with hbm := { Hbm.reset with dram := [(4, { Stack.reset with state := 1, ctrlEcc := false, sealEx := [5, 9] })] } },
     5, by decide +kernel⟩,
   ⟨up, by decide +kernel⟩⟩

/-- The hypotheses of ListsMigrate hold together. -/
theorem witness_ListsMigrate :
    (∃ (idx : Fin 32) (slot : Nat) (s : State) (m : Migration) (x : Index), (s.hbm.wishes = []) ∧ (s.hbm.migs.find? (fun
      m => m.idx == idx.val && m.slot == slot) = some m) ∧ (s.index? idx = some x)) ∧
    (∃ (idx : Fin 32) (slot : Nat) (s : State) (m : Migration) (x : Index), (s.hbm.wishes = []) ∧ (s.hbm.migs.find? (fun
      m => m.idx == idx.val && m.slot == slot) = some m) ∧ (s.index? idx = some x)) :=
  ⟨⟨3, 2,
    { up with indexes := [(3, { tIndex with slots := [(2, [(1, ⟨.live, 1, 0, 1, 4, [6], 1, 0⟩)])], arrs := [(4, ⟨false, 2, 1, 1, 0, 1, [⟨9, 3, 0, 1⟩], 0⟩), (5, ⟨false, 8, 1, 1, 0, 1, [], 0⟩), (6, ⟨true, 2, 1, 1, 0, 1, [], 0⟩)] })], hbm := { Hbm.reset with migs := [⟨3, 2, 0, 5, true, [⟨3, 4, [9]⟩]⟩], dram := [(5, { Stack.reset with state := 1 })], counts := [⟨3, 2, 5, 5⟩] } },
    ⟨3, 2, 0, 5, true, [⟨3, 4, [9]⟩]⟩,
    { tIndex with slots := [(2, [(1, ⟨.live, 1, 0, 1, 4, [6], 1, 0⟩)])], arrs := [(4, ⟨false, 2, 1, 1, 0, 1, [⟨9, 3, 0, 1⟩], 0⟩), (5, ⟨false, 8, 1, 1, 0, 1, [], 0⟩), (6, ⟨true, 2, 1, 1, 0, 1, [], 0⟩)] },
    by decide +kernel, rfl, rfl⟩,
   ⟨3, 2,
     { up with indexes := [(3, { tIndex with slots := [(2, [(1, ⟨.live, 1, 0, 1, 4, [6], 1, 0⟩)])], arrs := [(4, ⟨false, 2, 1, 1, 0, 1, [⟨9, 3, 0, 1⟩], 0⟩), (5, ⟨false, 8, 1, 1, 0, 1, [], 0⟩), (6, ⟨true, 2, 1, 1, 0, 1, [], 0⟩)] })], hbm := { Hbm.reset with migs := [⟨3, 2, 0, 5, true, [⟨3, 4, [9]⟩]⟩], dram := [(5, { Stack.reset with state := 1 })], counts := [⟨3, 2, 5, 5⟩] } },
     ⟨3, 2, 0, 5, true, [⟨3, 4, [9]⟩]⟩,
     { tIndex with slots := [(2, [(1, ⟨.live, 1, 0, 1, 4, [6], 1, 0⟩)])], arrs := [(4, ⟨false, 2, 1, 1, 0, 1, [⟨9, 3, 0, 1⟩], 0⟩), (5, ⟨false, 8, 1, 1, 0, 1, [], 0⟩), (6, ⟨true, 2, 1, 1, 0, 1, [], 0⟩)] },
     by decide +kernel, rfl, rfl⟩⟩

/-- The hypotheses of StacksRepaired hold together. -/
theorem witness_StacksRepaired :
    (∃ (n : StackName) (ondie : Nat) (ctrl : List (List Byte)) (last : Bool) (s : State), (((s.stack (keyOfStack
      n)).patrolled ≠ some s.patrolPeriod ∨ (s.stack (keyOfStack n)).patrolling = true))) ∧
    (∃ (n : StackName) (ondie : Nat) (ctrl : List (List Byte)) (part : PatrolRows) (s : State), ((s.stack (keyOfStack
      n)).patrolled = some s.patrolPeriod) ∧ ((s.stack (keyOfStack n)).patrolling = false)) ∧
    (∃ (n : StackName) (rid : Nat) (row : DramRow) (spare : Bool) (pages : Nat) (c : RowContent) (s : State) (r : Req),
      (s.req? rid = some r) ∧ (r.life = .running) ∧ (r.phaseRuns < s.regF Reg.RST_CFG 32 8) ∧ ((∀ p ∈ s.partsOut, p.rid
      ≠ rid)) ∧ (((r.phase ≠ .fetch ∧ r.phase ≠ .exact) ∨ r.windows = []))) ∧
    (∃ (n : StackName) (pc : Fin 16) (pages : Nat) (s : State), (Store.get (fun _ => 0) (s.stack (keyOfStack n)).lanes
      pc < 2)) ∧
    (∃ (n : StackName) (pc : Fin 16) (pages : Nat) (s : State), (2 ≤ Store.get (fun _ => 0) (s.stack (keyOfStack
      n)).lanes pc) ∧ (s.basinRoom n.basin pages = true)) ∧
    (∃ (n : StackName) (pc : Fin 16) (pages : Nat) (s : State), (2 ≤ Store.get (fun _ => 0) (s.stack (keyOfStack
      n)).lanes pc) ∧ (s.basinRoom n.basin pages = false)) :=
  ⟨⟨⟨0, 0, true⟩, 5, [zeroBytes 36, zeroBytes 35 ++ [1]], true, up, .inl (by decide +kernel)⟩,
   ⟨⟨0, 0, true⟩, 5, [zeroBytes 36], ⟨[], true⟩,
     { up with hbm := { Hbm.reset with dram := [(4, { Stack.reset with patrolled := some 0 })] } }, rfl,
     by decide +kernel⟩,
   ⟨⟨0, 0, true⟩, 1, ⟨0, 1, 9⟩, true, 0, .pour, withReq topkReq, topkReq, rfl, by decide +kernel⟩,
   ⟨⟨0, 0, true⟩, 9, 5, up, by decide +kernel⟩,
   ⟨⟨0, 0, true⟩, 9, 1, { up with hbm := { Hbm.reset with dram := [(4, { Stack.reset with lanes := [(9, 2)] })] } },
     by decide +kernel⟩,
   ⟨⟨0, 0, true⟩, 9, 10000000,
     { up with hbm := { Hbm.reset with dram := [(4, { Stack.reset with lanes := [(9, 2)] })] } }, by decide +kernel⟩⟩

/-- The hypotheses of TierReadsServed hold together. -/
theorem witness_TierReadsServed :
    (∃ (l : Nat) (copy : LtCopy) (s : State) (r : LtRead), (s.readOf (.page l) = some r) ∧ (lpnSpace l ≠ 2) ∧ (r.mayCome
      copy = true) ∧ (s.copyGood r copy = true) ∧ ((copy ≠ .around → s.ueArmed r = false)) ∧ (r.basin < 2) ∧ (((s.basin
      0).state ≠ 1 ∨ (s.basin 1).state ≠ 1)) ∧ (Store.find? s.mem.dirty l = none) ∧ ((∀ w ∈ r.waiters, ∃ rid, w =
      Waiter.req rid))) ∧
    (∃ (l : Nat) (copy : LtCopy) (s : State) (r : LtRead), (s.readOf (.page l) = some r) ∧ (lpnSpace l ≠ 2) ∧ (r.mayCome
      copy = true) ∧ (s.copyGood r copy = true) ∧ ((copy ≠ .around → s.ueArmed r = false)) ∧ (r.basin < 2) ∧ (((s.basin
      0).state ≠ 1 ∨ (s.basin 1).state ≠ 1)) ∧ (Store.find? s.mem.dirty l = none) ∧ ((∀ w ∈ r.waiters, ∃ rid, w =
      Waiter.req rid))) ∧
    (∃ (l : Nat) (copy : LtCopy) (s : State) (r : LtRead), (s.readOf (.page l) = some r) ∧ (lpnSpace l ≠ 2) ∧ (r.mayCome
      copy = true) ∧ (s.copyGood r copy = true) ∧ ((copy ≠ .around → s.ueArmed r = false)) ∧ (r.basin < 2) ∧ (((s.basin
      0).state ≠ 1 ∨ (s.basin 1).state ≠ 1)) ∧ (Store.find? s.mem.dirty l = none) ∧ ((∀ w ∈ r.waiters, ∃ rid, w =
      Waiter.req rid))) ∧
    (∃ (l : Nat) (copy : LtCopy) (s : State) (r : LtRead), (s.readOf (.page l) = some r) ∧ (lpnSpace l ≠ 2) ∧ (r.mayCome
      copy = true) ∧ (s.copyGood r copy = true) ∧ ((copy ≠ .around → s.ueArmed r = false)) ∧ (r.basin < 2) ∧ (((s.basin
      0).state ≠ 1 ∨ (s.basin 1).state ≠ 1)) ∧ (Store.find? s.mem.dirty l = none) ∧ ((∀ w ∈ r.waiters, ∃ rid, w =
      Waiter.req rid))) ∧
    (∃ (l : Nat) (copy : LtCopy) (good : Bool) (s : State) (r : LtRead), (s.readOf (.page l) = some r) ∧ (r.mayCome copy
      = true) ∧ ((good = false ∨ s.copyGood r copy = false ∨ (copy ≠ .around ∧ s.ueArmed r = true))) ∧ (((r.fails
      s.cist.retry copy).failed ≠ 3 ∨ (r.fails s.cist.retry copy).aroundFailed = false))) ∧
    (∃ (l : Nat) (copy : LtCopy) (good : Bool) (s : State) (r : LtRead), (s.readOf (.page l) = some r) ∧ (r.mayCome copy
      = true) ∧ ((good = false ∨ s.copyGood r copy = false ∨ (copy ≠ .around ∧ s.ueArmed r = true))) ∧ (((r.fails
      s.cist.retry copy).failed ≠ 3 ∨ (r.fails s.cist.retry copy).aroundFailed = false))) ∧
    (∃ (l : Nat) (copy : LtCopy) (good : Bool) (s : State) (r : LtRead), (s.readOf (.page l) = some r) ∧ (r.mayCome copy
      = true) ∧ ((good = false ∨ s.copyGood r copy = false ∨ (copy ≠ .around ∧ s.ueArmed r = true))) ∧ (((r.fails
      s.cist.retry copy).failed ≠ 3 ∨ (r.fails s.cist.retry copy).aroundFailed = false))) ∧
    (∃ (l : Nat) (copy : LtCopy) (good : Bool) (s : State) (r : LtRead), (s.readOf (.page l) = some r) ∧ (r.mayCome copy
      = false)) ∧
    (∃ (l : Nat) (rid : Nat) (copy : LtCopy) (s : State) (r : LtRead) (q : Req), (s.readOf (.page l) = some r) ∧
      (lpnSpace l ≠ 2) ∧ (r.mayCome copy = true) ∧ ((r.fails s.cist.retry copy).failed = 3) ∧ ((r.fails s.cist.retry
      copy).aroundFailed = true) ∧ (r.waiters = [.req rid]) ∧ (s.req? rid = some q) ∧ (q.life ≠ .answered) ∧
      (s.now.toNat < q.hdr.deadline.toNat)) ∧
    (∃ (l : Nat) (s : State) (r : LtRead), (s.readOf (.page l) = some r) ∧ ((r.around = true ∨ s.aroundDue r = false))) ∧
    (∃ (l : Nat) (s : State) (r : LtRead), (s.readOf (.page l) = some r) ∧ (r.around = false) ∧ (s.aroundDue r = true)) ∧
    (∃ (s : State), (s.pageUp (keyPage Reg.MEM_INJECT) = true)) :=
  ⟨⟨7, .primary,
    { withReq { topkReq with life := .waitRoom } with mem := { MemRange.reset with reads := [⟨.page 7, [.req 1], 0, 0, 0, true, 0, false, [], [], false, true⟩] }, cist := tCist true [] },
    ⟨.page 7, [.req 1], 0, 0, 0, true, 0, false, [], [], false, true⟩, rfl, by decide +kernel, by decide +kernel,
    by decide +kernel, fun _ => by decide +kernel, by decide +kernel, by decide +kernel, by decide +kernel, fun w hw =>
    ⟨1, List.mem_singleton.mp hw⟩⟩,
   ⟨7, .retry,
     { withReq { topkReq with life := .waitRoom } with mem := { MemRange.reset with reads := [⟨.page 7, [.req 1], 0, 0, 0, false, 1, false, [], [], false, false⟩] }, cist := tCist true [] },
     ⟨.page 7, [.req 1], 0, 0, 0, false, 1, false, [], [], false, false⟩, rfl, by decide +kernel, by decide +kernel,
     by decide +kernel, fun _ => by decide +kernel, by decide +kernel, by decide +kernel, by decide +kernel, fun w hw =>
     ⟨1, List.mem_singleton.mp hw⟩⟩,
   ⟨7, .soft,
     { withReq { topkReq with life := .waitRoom } with mem := { MemRange.reset with reads := [⟨.page 7, [.req 1], 0, 0, 0, true, 2, true, [], [], false, false⟩] }, cist := tCist true [] },
     ⟨.page 7, [.req 1], 0, 0, 0, true, 2, true, [], [], false, false⟩, rfl, by decide +kernel, by decide +kernel,
     by decide +kernel, fun _ => by decide +kernel, by decide +kernel, by decide +kernel, by decide +kernel, fun w hw =>
     ⟨1, List.mem_singleton.mp hw⟩⟩,
   ⟨7, .around,
     { withReq { topkReq with life := .waitRoom } with mem := { MemRange.reset with reads := [⟨.page 7, [.req 1], 0, 0, 0, true, 1, false, [], [], false, false⟩] }, cist := tCist true [] },
     ⟨.page 7, [.req 1], 0, 0, 0, true, 1, false, [], [], false, false⟩, rfl, by decide +kernel, by decide +kernel,
     by decide +kernel, fun _ => by decide +kernel, by decide +kernel, by decide +kernel, by decide +kernel, fun w hw =>
     ⟨1, List.mem_singleton.mp hw⟩⟩,
   ⟨7, .primary, false,
     { withReq { topkReq with life := .waitRoom } with mem := { MemRange.reset with reads := [⟨.page 7, [.req 1], 0, 0, 0, false, 0, false, [], [], false, false⟩] }, cist := tCist true [] },
     ⟨.page 7, [.req 1], 0, 0, 0, false, 0, false, [], [], false, false⟩, rfl, by decide +kernel, .inl rfl, .inl
     (by decide +kernel)⟩,
   ⟨7, .primary, true,
     { withReq { topkReq with life := .waitRoom } with mem := { MemRange.reset with reads := [⟨.page 7, [.req 1], 0, 0, 0, false, 0, false, [], [34359738368], false, false⟩] }, cist := tCist true [], regs := [(instKey Reg.CIST_INJECT 1, 1)] },
     ⟨.page 7, [.req 1], 0, 0, 0, false, 0, false, [], [34359738368], false, false⟩, rfl, by decide +kernel, .inr (.inr
     (And.intro (by decide +kernel) (by decide +kernel))), .inl (by decide +kernel)⟩,
   ⟨7, .primary, true,
     { withReq { topkReq with life := .waitRoom } with mem := { MemRange.reset with reads := [⟨.page 7, [.req 1], 0, 0, 0, false, 0, false, [], [34359738368], false, false⟩] }, cist := { tCist true [] with media := [(34359738368, zeroBytes 4128)] } },
     ⟨.page 7, [.req 1], 0, 0, 0, false, 0, false, [], [34359738368], false, false⟩, rfl, by decide +kernel, .inr (.inl
     (by decide +kernel)), .inl (by decide +kernel)⟩,
   ⟨7, .retry, true,
     { withReq { topkReq with life := .waitRoom } with mem := { MemRange.reset with reads := [⟨.page 7, [.req 1], 0, 0, 0, false, 0, false, [], [], false, false⟩] }, cist := tCist true [] },
     ⟨.page 7, [.req 1], 0, 0, 0, false, 0, false, [], [], false, false⟩, rfl, by decide +kernel⟩,
   ⟨7, 1, .soft,
     { withReq { topkReq with life := .waitRoom } with mem := { MemRange.reset with reads := [⟨.page 7, [.req 1], 0, 0, 0, true, 2, true, [], [], false, false⟩] }, cist := tCist true [] },
     ⟨.page 7, [.req 1], 0, 0, 0, true, 2, true, [], [], false, false⟩, { topkReq with life := .waitRoom }, rfl,
     by decide +kernel, by decide +kernel, by decide +kernel, by decide +kernel, rfl, rfl, by decide +kernel⟩,
   ⟨7,
     { withReq { topkReq with life := .waitRoom } with mem := { MemRange.reset with reads := [⟨.page 7, [.req 1], 0, 0, 0, true, 0, false, [], [], false, false⟩] }, cist := tCist true [] },
     ⟨.page 7, [.req 1], 0, 0, 0, true, 0, false, [], [], false, false⟩, rfl, .inl rfl⟩,
   ⟨7,
     { withReq { topkReq with life := .waitRoom } with mem := { MemRange.reset with reads := [⟨.page 7, [.req 1], 0, 0, 0, false, 1, false, [], [34359738368], false, false⟩] }, cist := tCist true [] },
     ⟨.page 7, [.req 1], 0, 0, 0, false, 1, false, [], [34359738368], false, false⟩, rfl, by decide +kernel⟩,
   ⟨up, by decide +kernel⟩⟩

/-- The hypotheses of PagesSettle hold together. -/
theorem witness_PagesSettle :
    (∃ (l : Nat) (i : Nat) (p : Nat) (r : SRow) (s : State), (lpnSpace l ≠ 2) ∧ (s.cist.findWord l none false = some (r,
      i)) ∧ (s.cist.programmed r i = some p) ∧ (s.mapHeld = false) ∧ (s.mapCold l = false)) ∧
    (∃ (l : Nat) (i : Nat) (p : Nat) (r : SRow) (s : State), (lpnSpace l ≠ 2) ∧ (s.cist.findWord l none false = some (r,
      i)) ∧ (s.cist.programmed r i = some p) ∧ (s.mapHeld = true)) ∧
    (∃ (l : Nat) (i : Nat) (p : Nat) (r : SRow) (s : State), (lpnSpace l ≠ 2) ∧ (s.cist.findWord l none false = some (r,
      i)) ∧ (s.cist.programmed r i = some p) ∧ (s.mapHeld = false) ∧ (s.mapCold l = true)) ∧
    (∃ (l : Nat) (i : Nat) (r : SRow) (s : State), (lpnSpace l ≠ 2) ∧ (s.cist.findWord l none false = some (r, i)) ∧
      (s.cist.programmed r i = none)) ∧
    (∃ (idx : Fin 32) (h : Nat) (s : State) (x : Index) (a : BlkArr), (s.index? idx = some x) ∧ (Store.find? x.arrs h =
      some a) ∧ (s.imageOf idx h = none) ∧ ((a.inflow = true → a.stamp ≠ x.u)) ∧ (s.cistAccepts (imagePages a
      x.desc.width) = true)) ∧
    (∃ (idx : Fin 32) (h : Nat) (s : State) (x : Index) (a : BlkArr), (s.index? idx = some x) ∧ (Store.find? x.arrs h =
      some a) ∧ (((s.imageOf idx h).isSome = true ∨ (a.inflow = true ∧ a.stamp = x.u) ∨ s.cistAccepts (imagePages a
      x.desc.width) = false))) ∧
    (∃ (idx : Fin 32) (s : State) (x : Index), (s.index? idx = some x) ∧ (s.cistAccepts x.tablePages.length = true)) :=
  ⟨⟨7, 0, 34359738368, ⟨1, 0, [tWord], 0, true, [0, 1, 2, 3, 4, 5, 6, 7]⟩,
    { withReq { topkReq with life := .waitRoom } with mem := { MemRange.reset with dirty := [(7, ⟨[⟨0, 0, 1⟩]⟩)] }, cist := tCist true [0, 1, 2, 3, 4, 5, 6, 7] },
    by decide +kernel⟩,
   ⟨7, 0, 34359738368, ⟨1, 0, [tWord], 0, true, [0, 1, 2, 3, 4, 5, 6, 7]⟩,
     { withReq { topkReq with life := .waitRoom } with mem := { MemRange.reset with dirty := [(7, ⟨[⟨0, 0, 1⟩]⟩)] }, cist := tCist true [0, 1, 2, 3, 4, 5, 6, 7], regs := [(Reg.CIST_MAPCACHE_CFG, 0)] },
     by decide +kernel⟩,
   ⟨7, 0, 34359738368, ⟨1, 0, [tWord], 0, true, [0, 1, 2, 3, 4, 5, 6, 7]⟩,
     { withReq { topkReq with life := .waitRoom } with mem := { MemRange.reset with dirty := [(7, ⟨[⟨0, 0, 1⟩]⟩)] }, cist := { tCist true [0, 1, 2, 3, 4, 5, 6, 7] with dirTab := [(mapLpn 7, (5, 6))] } },
     by decide +kernel⟩,
   ⟨7, 0, ⟨1, 0, [tWord], 0, true, [1]⟩,
     { withReq { topkReq with life := .waitRoom } with mem := { MemRange.reset with dirty := [(7, ⟨[⟨0, 0, 1⟩]⟩)] }, cist := tCist true [1] },
     by decide +kernel⟩,
   ⟨3, 4,
     { up with indexes := [(3, { tIndex with arrs := [(4, ⟨false, 2, 1, 1, 0, 1, [⟨9, 3, 0, 1⟩], 0⟩)] })], cist := tCist false [] },
     { tIndex with arrs := [(4, ⟨false, 2, 1, 1, 0, 1, [⟨9, 3, 0, 1⟩], 0⟩)] }, ⟨false, 2, 1, 1, 0, 1, [⟨9, 3, 0, 1⟩],
     0⟩, rfl, rfl, by decide +kernel⟩,
   ⟨3, 4, { up with indexes := [(3, { tIndex with arrs := [(4, ⟨false, 2, 1, 1, 0, 1, [⟨9, 3, 0, 1⟩], 0⟩)] })] },
     { tIndex with arrs := [(4, ⟨false, 2, 1, 1, 0, 1, [⟨9, 3, 0, 1⟩], 0⟩)] }, ⟨false, 2, 1, 1, 0, 1, [⟨9, 3, 0, 1⟩],
     0⟩, rfl, rfl, by decide +kernel⟩,
   ⟨3,
     { up with indexes := [(3, { tIndex with arrs := [(4, ⟨false, 2, 1, 1, 0, 1, [⟨9, 3, 0, 1⟩], 0⟩)] })], cist := tCist false [] },
     { tIndex with arrs := [(4, ⟨false, 2, 1, 1, 0, 1, [⟨9, 3, 0, 1⟩], 0⟩)] }, rfl, by decide +kernel⟩⟩

/-- The hypotheses of ArrayCommandsEnd hold together. -/
theorem witness_ArrayCommandsEnd :
    (∃ (ch : Fin 32) (lun : Fin 32) (cmd : NandCmd) (s : State), ((s.nandHeld = true ∨ (s.lun (lunKey ch lun)).state ≠ 1
      ∨ bit (s.reg (instKey Reg.CIST_INJECT (lunKey ch lun))) 2 = true ∨ s.cist.granted.contains (unitOf ch lun cmd) =
      false ∨ ((s.lun (lunKey ch lun)).ahead ≠ [] ∧ ∀ p d, cmd ≠ NandCmd.read p d)))) ∧
    (∃ (ch : Fin 32) (lun : Fin 32) (cmd : NandCmd) (s : State), ((s.nandHeld = true ∨ (s.lun (lunKey ch lun)).state ≠ 1
      ∨ bit (s.reg (instKey Reg.CIST_INJECT (lunKey ch lun))) 2 = true ∨ s.cist.granted.contains (unitOf ch lun cmd) =
      false ∨ ((s.lun (lunKey ch lun)).ahead ≠ [] ∧ ∀ p d, cmd ≠ NandCmd.read p d)))) ∧
    (∃ (ch : Fin 32) (lun : Fin 32) (ppa : Nat) (n : Nat) (k : Nat) (s : State), (k = lunKey ch lun) ∧ (s.nandHeld =
      false) ∧ ((s.lun k).state = 1) ∧ (s.cist.granted.contains (.read ppa) = true) ∧ ((∀ b, b < 3 → bit (s.reg (instKey
      Reg.CIST_INJECT k)) b = false)) ∧ ((ppaSet ppa).1 = ch.val) ∧ ((ppaSet ppa).2.1 = lun.val) ∧ (Store.get (fun _ =>
      0) (s.lun k).reads (ppaSet ppa).2.2 + 1 < s.regF Reg.CIST_CFG 8 16 * 1000) ∧ (n ≤ s.rwThreshold) ∧ ((∀ w,
      Store.find? s.cist.media ppa = some w → s.cist.misdirected (s.cist.lpnAt ppa) w = false))) ∧
    (∃ (ch : Fin 32) (lun : Fin 32) (g : Nat) (row : Nat) (mem : Nat) (s : State) (r : SRow) (grp : Group), (s.nandHeld
      = false) ∧ ((s.lun (lunKey ch lun)).state = 1) ∧ ((s.lun (lunKey ch lun)).ahead = []) ∧ (s.cist.granted.contains
      (.program g row mem) = true) ∧ (bit (s.reg (instKey Reg.CIST_INJECT (lunKey ch lun))) 2 = false) ∧
      (s.cist.rows.find? (fun r => r.group == g && r.row == row) = some r) ∧ (Store.find? s.cist.groups g = some grp) ∧
      (s.unitDue g grp row mem = true)) ∧
    (∃ (ch : Fin 32) (lun : Fin 32) (b : Nat) (k : Nat) (g : Group) (s : State), (s.nandHeld = false) ∧ ((s.lun (lunKey
      ch lun)).state = 1) ∧ ((s.lun (lunKey ch lun)).ahead = []) ∧ (s.cist.granted.contains (.erase ch lun b) = true) ∧
      (bit (s.reg (instKey Reg.CIST_INJECT (lunKey ch lun))) 2 = false) ∧ (s.cist.groupOf (ch.val, lun.val, b) = some
      (k, g)) ∧ (g.erasing = true) ∧ (k < s.cist.nextGroup) ∧ (s.readIn g = false)) ∧
    (∃ (ch : Fin 32) (lun : Fin 32) (k : Nat) (s : State), (k = lunKey ch lun) ∧ (s.nandHeld = false) ∧ ((s.lun k).state
      = 1) ∧ (s.lunBusy ch lun = true) ∧ ((s.lun k).ahead = []) ∧ ((s.lun k).suspends < s.regF Reg.CIST_CFG 36 4)) ∧
    (∃ (ch : Fin 32) (lun : Fin 32) (k : Nat) (s : State), (k = lunKey ch lun) ∧ (s.nandHeld = false) ∧ ((s.lun k).state
      = 1) ∧ ((s.lunBusy ch lun = false ∨ (s.lun k).ahead ≠ [] ∨ s.regF Reg.CIST_CFG 36 4 ≤ (s.lun k).suspends))) :=
  ⟨⟨1, 0, .erase 3, { up with rst := { up.rst with phase := 2, step := 5 } }, .inl (by decide +kernel)⟩,
   ⟨1, 0, .erase 3, { up with cist := tCist true [] }, .inr (.inr (.inr (.inl (by decide +kernel))))⟩,
   ⟨1, 0, 34359738368, 9, lunKey 1 0, { up with cist := { tCist true [] with granted := [.read 34359738368] } }, rfl,
     by decide +kernel, by decide +kernel, by decide +kernel, by decide +kernel, by decide +kernel, by decide +kernel,
     by decide +kernel, by decide +kernel, fun w h => nomatch (show (none : Option (List Byte)) = some w from h)⟩,
   ⟨1, 0, 1, 0, 1, { up with cist := { tCist true [] with granted := [.program 1 0 1] } }, ⟨1, 0, [tWord], 0, true, []⟩,
     ⟨(List.range 8).map (fun k => (k, 0, 0)), 0, 1, true, false, false⟩, by decide +kernel⟩,
   ⟨1, 0, 0, 1, ⟨(List.range 8).map (fun k => (k, 0, 0)), 0, 1, false, false, true⟩,
     { up with cist := { tCist true [] with granted := [.erase 1 0 0], groups := [(1, ⟨(List.range 8).map (fun k => (k, 0, 0)), 0, 1, false, false, true⟩)], rows := [], media := [(34359738368, zeroBytes 4128)] } },
     by decide +kernel⟩,
   ⟨1, 0, lunKey 1 0,
     { up with cist := { tCist true [] with luns := [(0, { Lun.reset with state := 1 }), (1, { Lun.reset with state := 1, suspends := 1 }), (33, { Lun.reset with state := 1 })] } },
     rfl, by decide +kernel⟩,
   ⟨1, 0, lunKey 1 0,
     { up with cist := { tCist true [] with luns := [(0, { Lun.reset with state := 1 }), (1, { Lun.reset with state := 1, suspends := 2 }), (33, { Lun.reset with state := 1 })] } },
     rfl, by decide +kernel, by decide +kernel, .inr (by decide +kernel)⟩⟩

/-- The hypotheses of FlashFailuresHandled hold together. -/
theorem witness_FlashFailuresHandled :
    (∃ (ch : Fin 32) (lun : Fin 32) (k : Nat) (s : State), (k = lunKey ch lun) ∧ (s.nandHeld = false) ∧ ((s.lun k).state
      = 1) ∧ (ch.val ∉ s.cist.retrain) ∧ ((∃ x ∈ s.cist.luns, x.1 % 32 = ch.val ∧ x.1 ≠ k ∧ x.2.state = 1 ∧ x.2.timedOut
      = false)) ∧ (Store.Sorted s.cist.luns)) ∧
    (∃ (ch : Fin 32) (s : State), (s.nandHeld = false) ∧ (ch.val ∈ s.cist.retrain)) ∧
    (∃ (ch : Fin 32) (s : State), (s.nandHeld = false) ∧ (ch.val ∉ s.cist.retrain) ∧ (s.cist.chanLive ch = true)) ∧
    (∃ (ch : Fin 32) (lun : Fin 32) (b : Nat) (k : Nat) (s : State), (k = lunKey ch lun) ∧ (s.nandHeld = false) ∧
      ((s.lun k).state = 1) ∧ (b ∉ (s.lun k).bad) ∧ (((s.lun k).grown + 1) * 8 ≤ s.cist.blocks)) ∧
    (∃ (s : State) (k : Nat), (s.pageUp (keyPage Reg.CIST_INJECT) = true) ∧ (k = instKey Reg.CIST_INJECT (s.regF
      Reg.CIST_LUN_SEL 0 10))) :=
  ⟨⟨1, 0, lunKey 1 0,
    { up with cist := { tCist true [] with luns := [(0, { Lun.reset with state := 1 }), (1, { Lun.reset with state := 1, timedOut := false }), (33, { Lun.reset with state := 1 })] } },
    rfl, by decide +kernel⟩,
   ⟨1, { up with cist := { tCist true [] with retrain := [1, 3] } }, by decide +kernel⟩,
   ⟨1, { up with cist := tCist true [] }, by decide +kernel⟩,
   ⟨1, 0, 15, lunKey 1 0,
     { up with cist := { tCist true [] with luns := [(0, { Lun.reset with state := 1 }), (1, { Lun.reset with state := 1, grown := 1 }), (33, { Lun.reset with state := 1 })] } },
     rfl, by decide +kernel⟩,
   ⟨up, instKey Reg.CIST_INJECT (up.regF Reg.CIST_LUN_SEL 0 10), by decide +kernel, rfl⟩⟩

/-- The hypotheses of CisternMaintained hold together. -/
theorem witness_CisternMaintained :
    (∃ (stream : Fin 5) (s : State), (s.nandHeld = false)) ∧
    (∃ (s : State), (s.nandHeld = false)) ∧
    (∃ (reads : Nat) (period : Nat) (s : State), (s.nandHeld = false) ∧ (period = s.tick.toNat / (8640000000000 * max 1
      (s.regF Reg.CIST_CFG 54 8))) ∧ (s.cist.patrolAt = 0) ∧ (s.cist.patrolled = some period)) ∧
    (∃ (reads : Nat) (period : Nat) (s : State), (s.nandHeld = false) ∧ (period = s.tick.toNat / (8640000000000 * max 1
      (s.regF Reg.CIST_CFG 54 8))) ∧ ((s.cist.patrolAt ≠ 0 ∨ s.cist.patrolled ≠ some period))) ∧
    (∃ (reads : Nat) (period : Nat) (s : State), (s.nandHeld = false) ∧ (period = s.tick.toNat / (8640000000000 * max 1
      (s.regF Reg.CIST_CFG 54 8))) ∧ ((s.cist.patrolAt ≠ 0 ∨ s.cist.patrolled ≠ some period))) ∧
    (∃ (l : Nat) (old : Nat) (i : Nat) (p : Nat) (r : SRow) (s : State), (s.cist.findWord l (some old) false = some (r,
      i)) ∧ (s.cist.programmed r i = some p) ∧ (s.mapHeld = false) ∧ (lpnSpace l < 2) ∧ (s.mapCold l = true)) ∧
    (∃ (l : Nat) (old : Nat) (i : Nat) (p : Nat) (r : SRow) (s : State), (s.cist.findWord l (some old) false = some (r,
      i)) ∧ (s.cist.programmed r i = some p) ∧ (s.mapHeld = false) ∧ (lpnSpace l < 2) ∧ (s.mapCold l = false)) ∧
    (∃ (ch : Fin 32) (lun : Fin 32) (failed : List Nat) (s : State), (s.nandHeld = false) ∧ ((ch.val, lun.val) ∈
      s.cist.rebuild) ∧ ((∀ k ∈ Store.keys s.cist.groups, k < s.cist.nextGroup))) ∧
    (∃ (ch : Fin 32) (lun : Fin 32) (temp : Int) (s : State), (s.nandHeld = false)) ∧
    (∃ (s : State), (s.nandHeld = false) ∧ (s.cist.state ≠ 0)) ∧
    (∃ (media : Media) (ok : Bool) (s : State), (s.nandHeld = false) ∧ (s.cist.state = 1)) ∧
    (∃ (media : Media) (ok : Bool) (s : State), (s.nandHeld = false) ∧ (s.cist.state = 1)) :=
  ⟨⟨0, { up with cist := tCist false [], clep := { up.clep with ticks := 1000000000 } }, by decide +kernel⟩,
   ⟨{ up with cist := tCist false [] }, by decide +kernel⟩,
   ⟨9, 0,
     { up with cist := { tCist true [] with media := [(34359738368, []), (34359754752, [])], patrolled := some 0, patrolAt := 0 } },
     by decide +kernel, by decide +kernel, by decide +kernel, rfl⟩,
   ⟨9, 0,
     { up with cist := { tCist true [] with media := [(34359738368, []), (34359754752, [])], patrolled := none, patrolAt := 0 } },
     by decide +kernel, by decide +kernel, .inr (by decide +kernel)⟩,
   ⟨1, 0,
     { up with cist := { tCist true [] with media := [(34359738368, []), (34359754752, [])], patrolled := some 0, patrolAt := 1 } },
     by decide +kernel, by decide +kernel, .inl (by decide +kernel)⟩,
   ⟨7, 5, 0, 34359738368, ⟨1, 0, [⟨7, some 5, false, 1, [], false⟩], 0, true, [0, 1, 2, 3, 4, 5, 6, 7]⟩,
     { up with cist := { tCist true [0, 1, 2, 3, 4, 5, 6, 7] with rows := [⟨1, 0, [⟨7, some 5, false, 1, [], false⟩], 0, true, [0, 1, 2, 3, 4, 5, 6, 7]⟩], dirTab := [(mapLpn 7, (5, 6))], map := [(7, 5)] } },
     by decide +kernel⟩,
   ⟨7, 5, 0, 34359738368, ⟨1, 0, [⟨7, some 5, false, 1, [], false⟩], 0, true, [0, 1, 2, 3, 4, 5, 6, 7]⟩,
     { up with cist := { tCist true [0, 1, 2, 3, 4, 5, 6, 7] with rows := [⟨1, 0, [⟨7, some 5, false, 1, [], false⟩], 0, true, [0, 1, 2, 3, 4, 5, 6, 7]⟩], map := [(7, 5)] } },
     by decide +kernel⟩,
   ⟨1, 0, [3],
     { up with cist := { tCist true [] with luns := [(0, { Lun.reset with state := 1 }), (1, { Lun.reset with state := 2 })], rebuild := [(1, 0)], map := [(7, 34359738368)] } },
     by decide +kernel⟩,
   ⟨1, 0, 80, { up with cist := { tCist true [] with feature := some 0xE7 } }, by decide +kernel⟩,
   ⟨{ up with cist := tCist true [] }, by decide +kernel⟩,
   ⟨⟨[⟨7, 1000, 1, 2000, 4, some 0xE7, 1000, 5000, 85, 0⟩], 64, 16, (List.range 32).map (fun k => ⟨⟨k % 32, Nat.mod_lt _
     (by decide)⟩, 0, 7, [0], []⟩)⟩, true, { up with cist := { Cistern.reset with state := 1 } }, by decide +kernel⟩,
   ⟨⟨[⟨7, 1000, 1, 2000, 4, some 0xE7, 1000, 5000, 85, 0⟩], 64, 16, (List.range 32).map (fun k => ⟨⟨k % 32, Nat.mod_lt _
     (by decide)⟩, 0, 7, [0], []⟩)⟩, false, { up with cist := { Cistern.reset with state := 1 } }, by decide +kernel⟩⟩

/-- The hypotheses of SluiceAndMovesRun hold together. -/
theorem witness_SluiceAndMovesRun :
    (∃ (pt : Fin 185) (l : List Arrival) (s : State) (s1 : State), (8 ≤ pt.val) ∧ (s1 = s.offerUnits pt l) ∧ (pointKind
      pt ≠ 1) ∧ ((s.point pt).out = false) ∧ ((∀ a ∈ l, s.isParty pt (s.arrivalUnit a 0).party = true))) ∧
    (∃ (pt : Fin 185) (l : List Arrival) (s : State) (s1 : State), (8 ≤ pt.val) ∧ (s1 = s.offerUnits pt l) ∧
      (s1.slChoose pt = none)) ∧
    (∃ (pt : Fin 185) (l : List Arrival) (s : State) (s1 : State) (f : Nat × Nat) (u : SUnit), (8 ≤ pt.val) ∧ (s1 =
      s.offerUnits pt l) ∧ (s1.slChoose pt = some f) ∧ ((s1.point pt).headOf f = some u) ∧ (f.2 < 16)) ∧
    (∃ (s : State), ((∀ pt, Store.Sorted (s.point pt).credit))) ∧
    (∃ (s : State), (s.now.toNat < s.slices.switchedAt.toNat + s.regF Reg.SLC_CFG 0 20)) ∧
    (∃ (m : Moving) (rid : Nat) (r : Req) (s : State), (s.slices.switchedAt.toNat + s.regF Reg.SLC_CFG 0 20 ≤
      s.now.toNat) ∧ (s.slices.moving = [m]) ∧ (s.releasable m = false) ∧ (s.holders m = [rid]) ∧ (s.req? rid = some r)
      ∧ (r.life ≠ .answered) ∧ (s.now.toNat < r.hdr.deadline.toNat)) ∧
    (∃ (tr : Fin 16) (obj : Nat) (s : State), (s.pulls tr obj = true) ∧ ((s.pullSource tr obj).isSome = true) ∧
      (s.basinUp (tr.val / 8) = true)) ∧
    (∃ (tr : Fin 16) (obj : Nat) (s : State), ((s.pulls tr obj = false ∨ s.pullSource tr obj = none ∨ s.basinUp (tr.val
      / 8) = false))) ∧
    (∃ (b : Fin 2) (k : Fin 2) (s : State), (s.basinUp b = false)) ∧
    (∃ (b : Fin 2) (k : Fin 2) (s : State), (s.basinUp b = true)) :=
  ⟨⟨169, [⟨none, 3, 0, .chunk 9⟩, ⟨none, 3, 0, .spoutRow⟩],
    { up with points := [(169, { SPoint.reset with queue := [⟨0, 1, 7, none, none⟩] })] },
    ({ up with points := [(169, { SPoint.reset with queue := [⟨0, 1, 7, none, none⟩] })] }).offerUnits 169 [⟨none, 3, 0,
    .chunk 9⟩, ⟨none, 3, 0, .spoutRow⟩], by decide +kernel, rfl, by decide +kernel⟩,
   ⟨8, [], up, up.offerUnits 8 [], by decide +kernel, rfl, by decide +kernel⟩,
   ⟨168, [],
     { up with points := [(168, { SPoint.reset with queue := [⟨5, 1, 7, none, none⟩, ⟨3, 2, 10, none, none⟩], tags := [(16 * 5 + 1, 20), (16 * 3 + 2, 4)] })] },
     ({ up with points := [(168, { SPoint.reset with queue := [⟨5, 1, 7, none, none⟩, ⟨3, 2, 10, none, none⟩], tags := [(16 * 5 + 1, 20), (16 * 3 + 2, 4)] })] }).offerUnits
     168 [], (5, 1), ⟨5, 1, 7, none, none⟩, by decide +kernel, rfl, by decide +kernel⟩,
   ⟨{ up with points := [(9, { SPoint.reset with credit := [(1, -50)] })] }, fun pt =>
     by by_cases h : pt = 9 <;> [(subst h; decide +kernel); (show Store.Sorted ((Store.find? [(9, _)] pt).getD SPoint.reset).credit; rw [show Store.find? [(9, _)] pt = none from if_neg (fun e => h e.symm)]; exact List.Pairwise.nil)]⟩,
   ⟨{ up with slices := { Slices.reset with moving := [.terrace 0 0 (some 1)], switchedAt := 1000000 }, fabric := { Fabric.reset with rills := [(0, tRill)] }, reqs := [(1, topkReq)], nextRid := 2 },
     by decide +kernel⟩,
   ⟨.terrace 0 0 (some 1), 1, topkReq,
     { up with slices := { Slices.reset with gen := 2, moving := [.terrace 0 0 (some 1)], switchedAt := 950000 }, fabric := { Fabric.reset with rills := [(0, { tRill with rid := some 1 })] }, reqs := [(1, topkReq)], nextRid := 2, regs := [(Reg.SLC_CFG, 50000)] },
     by decide +kernel, by decide +kernel, by decide +kernel, by decide +kernel, rfl, by decide +kernel⟩,
   ⟨15, 64,
     { up with slices := { Slices.reset with lacks := [(3, 64), (15, 64)] }, progs := [(0, { ProgSlot.reset with state := 2 })] },
     by decide +kernel⟩,
   ⟨15, 64, up, .inl (by decide +kernel)⟩,
   ⟨1, 0, { up with basins := [(0, tBasin)] }, by decide +kernel⟩,
   ⟨1, 0, { up with slices := { Slices.reset with leaving := [⟨⟨0, 1, 0, 3⟩, false⟩, ⟨⟨0, 0, 0, 3⟩, false⟩] } },
     by decide +kernel⟩⟩

/-- The hypotheses of QueuesServed hold together. -/
theorem witness_QueuesServed :
    (∃ (fn : Fin 17) (q : Fin 16) (tail : U32) (head : U32) (es : List (List Byte)) (s : State), (s.fnUp fn = false)) ∧
    (∃ (fn : Fin 17) (q : Fin 16) (tail : U32) (es : List (List Byte)) (s : State), (s.fnUp fn = true) ∧ (s.hasQueue fn
      q = true) ∧ ((s.queue fn q).sqEn = false)) ∧
    (∃ (fn : Fin 17) (q : Fin 16) (tail : U32) (es : List (List Byte)) (s : State), (s.fnUp fn = true) ∧ (s.hasQueue fn
      q = true) ∧ ((s.queue fn q).sqEn = true) ∧ (2 ^ (s.queue fn q).sqLog2 ≤ tail.toNat % 65536)) ∧
    (∃ (fn : Fin 17) (q : Fin 16) (tail : U32) (es : List (List Byte)) (s : State), (s.fnUp fn = true) ∧ (s.hasQueue fn
      q = true) ∧ ((s.queue fn q).sqEn = true) ∧ ((s.queue fn q).err = false) ∧ (tail.toNat % 65536 < 2 ^ (s.queue fn
      q).sqLog2) ∧ (ringDist (2 ^ (s.queue fn q).sqLog2) (s.queue fn q).sqHead (s.queue fn q).sqTail ≤ ringDist (2 ^
      (s.queue fn q).sqLog2) (s.queue fn q).sqHead (tail.toNat % 65536)) ∧ (es.length = ringDist (2 ^ (s.queue fn
      q).sqLog2) (s.queue fn q).sqTail (tail.toNat % 65536)) ∧ ((∀ b ∈ es, b.length = 32)) ∧ ((s.queue fn q).fetched ≠
      [])) ∧
    (∃ (fn : Fin 17) (q : Fin 16) (tail : U32) (es : List (List Byte)) (s : State) (e : SqEntry) (l : List SqEntry),
      (s.fnUp fn = true) ∧ (s.hasQueue fn q = true) ∧ ((s.queue fn q).sqEn = true) ∧ ((s.queue fn q).err = false) ∧
      (tail.toNat % 65536 < 2 ^ (s.queue fn q).sqLog2) ∧ (ringDist (2 ^ (s.queue fn q).sqLog2) (s.queue fn q).sqHead
      (s.queue fn q).sqTail ≤ ringDist (2 ^ (s.queue fn q).sqLog2) (s.queue fn q).sqHead (tail.toNat % 65536)) ∧
      (es.length = ringDist (2 ^ (s.queue fn q).sqLog2) (s.queue fn q).sqTail (tail.toNat % 65536)) ∧ ((∀ b ∈ es,
      b.length = 32)) ∧ ((s.queue fn q).fetched = []) ∧ (es.map parseSq = e :: l) ∧ (e.good = true)) ∧
    (∃ (fn : Fin 17) (q : Fin 16) (data : Option (List Byte)) (e : SqEntry) (s : State), ((s.queue fn q).fetched = [])) ∧
    (∃ (fn : Fin 17) (q : Fin 16) (data : Option (List Byte)) (e : SqEntry) (s : State), ((s.queue fn q).fetched = [e])) ∧
    (∃ (fn : Fin 17) (q : Fin 16) (head : U32) (s : State), (s.fnUp fn = true) ∧ (s.hasQueue fn q = true) ∧ ((s.queue fn
      q).cqEn = false)) ∧
    (∃ (fn : Fin 17) (q : Fin 16) (head : U32) (s : State), (s.fnUp fn = true) ∧ (s.hasQueue fn q = true) ∧ ((s.queue fn
      q).cqEn = true) ∧ (head.toNat % 65536 < 2 ^ (s.queue fn q).cqLog2) ∧ ((s.queue fn q).owed = []) ∧ (ringDist (2 ^
      (s.queue fn q).cqLog2) (s.queue fn q).cqHead (head.toNat % 65536) ≠ 0)) ∧
    (∃ (fn : Fin 17) (q : Fin 16) (m : Msix) (s : State), (m = Store.get (fun _ => Msix.reset) (s.fn fn).msix (q.val +
      1)) ∧ (((s.queue fn q).unannounced = 0 ∨ s.tick < (s.queue fn q).annFrom + 100 * (s.queue fn q).coalUs))) ∧
    (∃ (fn : Fin 17) (q : Fin 16) (m : Msix) (s : State), (m = Store.get (fun _ => Msix.reset) (s.fn fn).msix (q.val +
      1)) ∧ ((s.queue fn q).cqEn = true) ∧ ((s.queue fn q).intEn = true) ∧ (0 < (s.queue fn q).unannounced) ∧ ((s.queue
      fn q).annFrom + 100 * (s.queue fn q).coalUs ≤ s.tick)) ∧
    (∃ (fn : Fin 17) (q : Fin 16) (val : U64) (s : State), (s.rst.phase = 3) ∧ (s.fnUp fn = true) ∧ (q.val < queueCount
      fn) ∧ ((s.queue fn q).sqEn = false) ∧ (bit val 0 = true) ∧ (4 ≤ field val 1 5) ∧ (field val 1 5 ≤ 16)) :=
  ⟨⟨3, 1, 3, 0, [], up, by decide +kernel⟩,
   ⟨0, 1, 3, [], up, by decide +kernel⟩,
   ⟨0, 1, 16, [],
     { up with host := [(0, { HostFn.reset with queues := [(1, { Queue.reset with sqEn := true, cqEn := true, intEn := true, sqTail := 2 })] })] },
     by decide +kernel⟩,
   ⟨0, 1, 4, [(leBytes 8 0x1000 ++ leBytes 4 64 ++ leBytes 4 64 ++ leBytes 8 0x2000 ++ leBytes 4 9 ++ leBytes 4 0)],
     { up with host := [(0, { HostFn.reset with queues := [(1, { Queue.reset with sqEn := true, cqEn := true, intEn := true, sqTail := 3, sqHead := 1, fetched := [⟨1, 2, 3, 4, 5, 0⟩, ⟨1, 2, 3, 4, 5, 0⟩] })] })] },
     by decide +kernel⟩,
   ⟨0, 1, 4, [(leBytes 8 0x1000 ++ leBytes 4 64 ++ leBytes 4 64 ++ leBytes 8 0x2000 ++ leBytes 4 9 ++ leBytes 4 0)],
     { up with host := [(0, { HostFn.reset with queues := [(1, { Queue.reset with sqEn := true, cqEn := true, intEn := true, sqTail := 3, sqHead := 3 })] })] },
     parseSq (leBytes 8 0x1000 ++ leBytes 4 64 ++ leBytes 4 64 ++ leBytes 8 0x2000 ++ leBytes 4 9 ++ leBytes 4 0), [],
     by decide +kernel, by decide +kernel, by decide +kernel, by decide +kernel, by decide +kernel, by decide +kernel,
     by decide +kernel, by decide +kernel, by decide +kernel, rfl, by decide +kernel⟩,
   ⟨0, 1, none, ⟨1, 64, 64, 4, 5, 0⟩, up, by decide +kernel⟩,
   ⟨0, 1, none, ⟨1, 64, 64, 4, 5, 0⟩,
     { up with host := [(0, { HostFn.reset with queues := [(1, { Queue.reset with sqEn := true, cqEn := true, intEn := true, sqTail := 3, sqHead := 15, fetched := [⟨1, 64, 64, 4, 5, 0⟩] })] })] },
     by decide +kernel⟩,
   ⟨0, 1, 3, up, by decide +kernel⟩,
   ⟨0, 1, 1,
     { up with host := [(0, { HostFn.reset with queues := [(1, { Queue.reset with sqEn := true, cqEn := true, intEn := true, cqHead := 15, cqTail := 3, cqCount := 4 })] })] },
     by decide +kernel⟩,
   ⟨0, 1, Msix.reset, up, rfl, .inl (by decide +kernel)⟩,
   ⟨0, 1, ⟨0x100, 5, false, false⟩,
     { up with host := [(0, { HostFn.reset with queues := [(1, { Queue.reset with sqEn := true, cqEn := true, intEn := true, unannounced := 3, coalUs := 1 })], cfg := { PciCfg.reset with msixEn := true }, msix := [(2, ⟨0x100, 5, false, false⟩)] })], clep := { up.clep with ticks := 100 } },
     rfl, by decide +kernel⟩,
   ⟨0, 1, 0x9, up, by decide +kernel⟩⟩

/-- The hypotheses of DipperMoves hold together. -/
theorem witness_DipperMoves :
    (∃ (fn : Fin 17) (val : U64) (d : Dipper) (e : Dipper) (a : Nat) (s : State), (s.fnUp fn = true) ∧ (s.pageUp 0x15 =
      true) ∧ (d = (s.fn fn).dip) ∧ (((e = { d with target := field val 0 4, auto := bit val 4 } ∧ a = 0x100) ∨ (e =
      { d with addr := setField val 0 3 0 } ∧ a = 0x108)))) ∧
    (∃ (fn : Fin 17) (val : U64) (d : Dipper) (e : Dipper) (a : Nat) (s : State), (s.fnUp fn = true) ∧ (s.pageUp 0x15 =
      true) ∧ (d = (s.fn fn).dip) ∧ (((e = { d with target := field val 0 4, auto := bit val 4 } ∧ a = 0x100) ∨ (e =
      { d with addr := setField val 0 3 0 } ∧ a = 0x108)))) ∧
    (∃ (fn : Fin 17) (bs : List Byte) (code : Byte) (s : State), ((s.fn fn).dip.filling = true) ∧ (s.readsFor (.dip fn)
      = false) ∧ ((s.fn fn).dip.target = 0)) ∧
    (∃ (fn : Fin 17) (bs : List Byte) (code : Byte) (s : State), ((s.fn fn).dip.filling = true) ∧ (s.readsFor (.dip fn)
      = false) ∧ ((s.fn fn).dip.target = 0)) ∧
    (∃ (fn : Fin 17) (bs : List Byte) (code : Byte) (s : State), ((s.fn fn).dip.filling = true) ∧ (s.readsFor (.dip fn)
      = false) ∧ ((s.fn fn).dip.target ≠ 0) ∧ ((s.fn fn).dip.target ≠ 3)) ∧
    (∃ (fn : Fin 17) (s : State), ((s.fn fn).dip.filling = true) ∧ ((s.fn fn).dip.target = 0) ∧ (s.tick < (s.fn
      fn).dip.since + dipLate)) ∧
    (∃ (fn : Fin 17) (s : State), ((s.fn fn).dip.filling = true) ∧ ((s.fn fn).dip.target = 0) ∧ ((s.fn fn).dip.since +
      dipLate ≤ s.tick)) ∧
    (∃ (fn : Fin 17) (s : State), (s.fnUp fn = true) ∧ (s.pageUp 0x15 = true) ∧ (s.dipOpen fn (s.fn fn).dip.target (s.fn
      fn).dip.addr false = true) ∧ ((s.fn fn).dip.ready = true) ∧ ((s.fn fn).dip.auto = false)) ∧
    (∃ (fn : Fin 17) (s : State), (s.fnUp fn = true) ∧ (s.pageUp 0x15 = true) ∧ (s.dipOpen fn (s.fn fn).dip.target (s.fn
      fn).dip.addr false = true) ∧ ((s.fn fn).dip.ready = false)) ∧
    (∃ (fn : Fin 17) (off : Nat) (len : Nat) (s : State), (s.fnUp fn = true) ∧ (s.pageUp 0x15 = true) ∧ (off + len ≤
      8192) ∧ (0 < len) ∧ (s.dipOpen fn (s.fn fn).dip.target (blockOf (s.fn fn).dip.addr + BitVec.ofNat 64 off) false =
      true) ∧ ((s.fn fn).dip.ready = true) ∧ ((s.fn fn).dip.auto = false)) ∧
    (∃ (fn : Fin 17) (val : U64) (k : Nat) (s : State), (s.fnUp fn = true) ∧ (s.pageUp 0x15 = true) ∧ (s.rst.phase = 3)
      ∧ (s.dipOpen fn (s.fn fn).dip.target (s.fn fn).dip.addr true = true) ∧ (k = tableKey (s.fn fn).dip.target (s.fn
      fn).dip.addr.toNat) ∧ (s.commit.busy = false) ∧ ((s.fn fn).dip.auto = false)) ∧
    (∃ (fn : Fin 17) (val : U64) (k : Nat) (s : State), (s.fnUp fn = true) ∧ (s.pageUp 0x15 = true) ∧ (s.rst.phase = 3)
      ∧ (s.dipOpen fn (s.fn fn).dip.target (s.fn fn).dip.addr true = true) ∧ (k = tableKey (s.fn fn).dip.target (s.fn
      fn).dip.addr.toNat) ∧ (s.commit.busy = true)) ∧
    (∃ (fn : Fin 17) (off : Nat) (k : Nat) (p : List Byte) (s : State), (s.fnUp fn = true) ∧ (s.pageUp 0x15 = true) ∧
      (sizeOk off p.length = true) ∧ (off < 8192) ∧ (s.commit.busy = false) ∧ (s.dipOpen fn (s.fn fn).dip.target
      (blockOf (s.fn fn).dip.addr + BitVec.ofNat 64 off) true = true) ∧ (k = tableKey (s.fn fn).dip.target (blockOf
      (s.fn fn).dip.addr + BitVec.ofNat 64 off).toNat)) ∧
    (∃ (fn : Fin 17) (off : Nat) (p : List Byte) (s : State), (s.fnUp fn = true) ∧ (s.rst.phase = 3) ∧ (s.pageUp 0x15 =
      true) ∧ ((sizeOk off p.length = false ∨ 8192 ≤ off))) :=
  ⟨⟨0, 0x11, Dipper.reset, { Dipper.reset with target := field (0x11 : U64) 0 4, auto := bit (0x11 : U64) 4 }, 0x100,
    up, by decide +kernel, by decide +kernel, rfl, .inl ⟨rfl, rfl⟩⟩,
   ⟨0, 0x4005, Dipper.reset, { Dipper.reset with addr := setField (0x4005 : U64) 0 3 0 }, 0x108, up, by decide +kernel,
     by decide +kernel, rfl, .inr ⟨rfl, rfl⟩⟩,
   ⟨0, List.replicate 8192 7, 3,
     { up with host := [(0, { HostFn.reset with dip := { Dipper.reset with filling := true } })] }, by decide +kernel⟩,
   ⟨0, [], 3, { up with host := [(0, { HostFn.reset with dip := { Dipper.reset with filling := true } })] },
     by decide +kernel⟩,
   ⟨0, [], 3,
     { up with host := [(0, { HostFn.reset with dip := { Dipper.reset with filling := true, target := 1 } })] },
     by decide +kernel⟩,
   ⟨0,
     { up with host := [(0, { HostFn.reset with dip := { Dipper.reset with filling := true, since := 1 } })], clep := { up.clep with ticks := 1 } },
     by decide +kernel⟩,
   ⟨0,
     { up with host := [(0, { HostFn.reset with dip := { Dipper.reset with filling := true, since := 1 } })], clep := { up.clep with ticks := 1000000000 } },
     by decide +kernel⟩,
   ⟨0,
     { up with host := [(0, { HostFn.reset with dip := { Dipper.reset with ready := true, buffer := [1, 2, 3], target := 1 } })] },
     by decide +kernel⟩,
   ⟨0, { up with host := [(0, { HostFn.reset with dip := { Dipper.reset with ready := false, target := 1 } })] },
     by decide +kernel⟩,
   ⟨0, 8184, 8,
     { up with host := [(0, { HostFn.reset with dip := { Dipper.reset with ready := true, buffer := [1, 2, 3], target := 1 } })] },
     by decide +kernel⟩,
   ⟨0, 0x1234, tableKey 1 0x7FF8,
     { up with host := [(0, { HostFn.reset with dip := { Dipper.reset with target := 1, addr := 0x7FF8 } })] },
     by decide +kernel, by decide +kernel, by decide +kernel, by decide +kernel, rfl, by decide +kernel⟩,
   ⟨0, 0x1234, tableKey 1 0x7FF8,
     { up with host := [(0, { HostFn.reset with dip := { Dipper.reset with target := 1, addr := 0x7FF8 } })], commit := ⟨true, false, false⟩ },
     by decide +kernel, by decide +kernel, by decide +kernel, by decide +kernel, rfl, by decide +kernel⟩,
   ⟨0, 8188, tableKey 2 0x81FF8, [1, 2, 3, 4],
     { up with host := [(0, { HostFn.reset with dip := { Dipper.reset with target := 2, addr := 0x80008 } })] },
     by decide +kernel⟩,
   ⟨0, 8188, List.replicate 12 1, up, by decide +kernel, by decide +kernel, by decide +kernel, .inl (by decide +kernel)⟩⟩

/-- The hypotheses of CommitsTakeEffect hold together. -/
theorem witness_CommitsTakeEffect :
    (∃ (s : State), (s.fnUp 0 = true) ∧ (s.pageUp 0x02 = true) ∧ (s.commit.busy = false)) ∧
    (∃ (s : State), (s.fnUp 0 = true) ∧ (s.pageUp 0x02 = true) ∧ (s.commit.busy = true)) ∧
    (∃ (s : State) (f : OwnFail), (s.commit = ⟨true, false, false⟩) ∧ (s.ownFail s.adopted = some f)) ∧
    (∃ (s : State), (s.commit = ⟨true, false, false⟩) ∧ (s.ownFail s.adopted = none) ∧ (s.poolFails s.adopted = []) ∧
      (Store.find? s.staged Reg.HOST_COMMIT_STATUS = none)) ∧
    (∃ (i : Fin 32) (s : State), (s.Committable (Reg.IDX_CFG + 0x40 * i.val) 1 id)) ∧
    (∃ (i : Fin 32) (s : State) (x : Index), (s.Committable (Reg.IDX_CFG + 0x40 * i.val) 2 id) ∧ (s.index? i = some x)) ∧
    (∃ (n : Fin 8) (s : State), (s.Committable (Reg.POUR_CFG + 0x40 * n.val) 1 id)) ∧
    (∃ (n : Fin 8) (s : State), (s.Committable (Reg.POUR_CFG + 0x40 * n.val) 2 id)) ∧
    (∃ (pt : Fin 185) (s : State) (u : State), (u = s.committing (instKey Reg.SLU_GATE_CTRL pt) 1 id) ∧ (s.Committable
      (instKey Reg.SLU_GATE_CTRL pt) 1 id)) ∧
    (∃ (pt : Fin 185) (s : State), (s.Committable (instKey Reg.SLU_GATE_CTRL pt) 2 id)) ∧
    (∃ (s : State) (u : State), (u = s.committing Reg.SLC_CTRL 1 id) ∧ (s.Committable Reg.SLC_CTRL 1 id)) ∧
    (∃ (s : State), (s.Committable Reg.SLC_CTRL 2 id)) ∧
    (∃ (s : State), (s.Committable Reg.CIST_FMT 1 (fun v => setField v 16 16 0xC157))) ∧
    (∃ (s : State), (s.Committable Reg.KPR_FW_CFG 1 id)) ∧
    (∃ (s : State), (s.Committable Reg.KPR_FW_CFG 2 id)) ∧
    (∃ (s : State), (s.Committable Reg.KPR_FW_CFG 3 id) ∧ (s.rst.phase = 3) ∧ (s.basinUp 0 = true) ∧ (s.basinUp 1 =
      true)) ∧
    (∃ (fn : Fin 17) (page : Fin 64) (off : Nat) (k : Nat) (bytes : List Byte) (d : RegDef) (stg : U64) (s : State),
      (s.fnUp fn = true) ∧ (s.pageUp page = true) ∧ (s.commit.busy = false) ∧ (pageKind fn page = 1) ∧ (0x100 ≤ off) ∧
      (off < 16384) ∧ (sizeOk off bytes.length = true) ∧ (page.val ≠ 0x14) ∧ (page.val ≠ 0x15) ∧ (regDef? page (off -
      off % 8) = some d) ∧ (s.copyOf fn page (off - off % 8) = some k) ∧ (stg = fieldsMask d.fields (fun f => f.acc ==
      .stg) &&& writeMask off bytes.length) ∧ (stg ≠ 0)) ∧
    (∃ (fn : Fin 17) (page : Fin 64) (off : Nat) (bytes : List Byte) (s : State), (s.fnUp fn = true) ∧ (s.rst.phase = 3)
      ∧ (s.pageUp page = true) ∧ ((pageKind fn page ≠ 1 ∨ sizeOk (off % 16384) bytes.length = false))) ∧
    (∃ (fn : Fin 17) (page : Fin 64) (off : Nat) (bytes : List Byte) (s : State), (s.fnUp fn = true) ∧ (s.rst.phase = 3)
      ∧ (s.pageUp page = true) ∧ ((pageKind fn page ≠ 1 ∨ sizeOk (off % 16384) bytes.length = false))) ∧
    (∃ (fn : Fin 17) (page : Fin 64) (off : Nat) (v : Nat) (data : U32) (s : State), (s.fnUp fn = true) ∧ (v <
      vectorCount fn) ∧ (off = 16 * v + 8)) ∧
    (∃ (fn : Fin 17) (page : Fin 64) (off : Nat) (bytes : List Byte) (s : State), (s.cfgUp fn = true) ∧ (leNat bytes =
      3)) ∧
    (∃ (fn : Fin 17) (page : Fin 64) (off : Nat) (n : Nat) (s : State), (s.fnUp fn = true)) ∧
    (∃ (fn : Fin 17) (page : Fin 64) (off : Nat) (n : Nat) (f : CfgField) (s : State), (s.cfgUp fn = true)) ∧
    (∃ (fn : Fin 17) (page : Fin 64) (off : Nat) (v : U64) (s : State), (s.fnUp fn = true) ∧ (off % 16384 % 8 = 0) ∧
      ((page.val = 0x15 → off % 16384 ≠ 0x118 ∧ off % 16384 < 0x2000)) ∧ (v = s.hostReg fn page (off % 16384))) ∧
    (∃ (fn : Fin 17) (page : Fin 64) (off : Nat) (w : U32) (s : State), (s.fnUp fn = true) ∧ (off % 16384 % 8 = 4) ∧
      ((s.fn fn).latch = some (regKey page (off % 16384 - 4), w))) ∧
    (∃ (i : Fin 32) (x : Index) (s : State), (s.index? i = some x) ∧ (x.state = .loading) ∧ (s.cist.state ≠ 1)) ∧
    (∃ (i : Fin 32) (x : Index) (s : State), (s.index? i = some x) ∧ (x.state = .draining) ∧ (s.indexUnused i = false)) ∧
    (∃ (i : Fin 32) (x : Index) (s : State), (s.index? i = some x) ∧ (x.state = .draining) ∧ (s.indexUnused i = true)) ∧
    (∃ (n : Fin 8) (img : List Byte) (s : State), ((s.prog n).state = 1) ∧ (img.length = s.regF (Reg.POUR_IMAGE_LEN +
      0x40 * n.val) 0 40)) ∧
    (∃ (n : Fin 8) (s : State), ((s.prog n).state = 3) ∧ ((∀ p ∈ s.reqs, p.2.op = opPour → p.2.hdr.prog = n.val →
      p.2.ran = false))) ∧
    (∃ (n : Fin 8) (s : State) (p : Nat × Req), ((s.prog n).state = 3) ∧ (p ∈ s.reqs) ∧ (p.2.op = opPour) ∧
      (p.2.hdr.prog = n.val) ∧ (p.2.ran = true)) :=
  ⟨⟨up, by decide +kernel⟩,
   ⟨{ up with commit := ⟨true, false, false⟩ }, by decide +kernel⟩,
   ⟨{ up with commit := ⟨true, false, false⟩, staged := [(Reg.IDX_CFG, 3)] }, ⟨4, 0x1000, 0, 1⟩, by decide +kernel⟩,
   ⟨{ up with commit := ⟨true, false, false⟩, staged := [] }, by decide +kernel⟩,
   ⟨1,
     { up with regs := [(Reg.IDX_CFG + 0x40, 0x10000), (Reg.IDX_GEOM + 0x40, 0x4000000040), (Reg.IDX_IMAGE_LEN + 0x40, 128)] },
     by unfold State.Committable State.NoActions; decide +kernel⟩,
   ⟨3, { up with indexes := [(3, { tIndex with flip := some ⟨2000000, 10⟩, sealed := true })] },
     { tIndex with flip := some ⟨2000000, 10⟩, sealed := true },
     by unfold State.Committable State.NoActions; decide +kernel, rfl⟩,
   ⟨1, loadState, load_committable⟩,
   ⟨3, { up with progs := [(3, { ProgSlot.reset with state := 2 })] },
     by unfold State.Committable State.NoActions; decide +kernel⟩,
   ⟨9,
     { up with clep := { up.clep with lock := .locked }, regs := [(instKey Reg.SLU_GATE_CTRL 9, 4), (instKey Reg.SLU_GATE_TIME 9, 2000000), (instKey Reg.SLU_GATE_WIN 9, 0xFFFF00000064)] },
     ({ up with clep := { up.clep with lock := .locked }, regs := [(instKey Reg.SLU_GATE_CTRL 9, 4), (instKey Reg.SLU_GATE_TIME 9, 2000000), (instKey Reg.SLU_GATE_WIN 9, 0xFFFF00000064)] }
     : State).committing (instKey Reg.SLU_GATE_CTRL 9) 1 id, rfl,
     by unfold State.Committable State.NoActions; decide +kernel⟩,
   ⟨9,
     { up with points := [(9, { SPoint.reset with active := some [(1000, 1)], pending := some ⟨[(500, 3)], 2000000, 40⟩ })], clep := { up.clep with lock := .locked, slots := [(40, ⟨.gateTakeover, 2000000, true, false, false, 9, 0, false⟩)] } },
     by unfold State.Committable State.NoActions; decide +kernel⟩,
   ⟨{ up with clep := { up.clep with lock := .locked }, regs := [(Reg.SLC_SWITCH_TIME, 2000000)] },
     ({ up with clep := { up.clep with lock := .locked }, regs := [(Reg.SLC_SWITCH_TIME, 2000000)] } : State).committing
     Reg.SLC_CTRL 1 id, rfl, by unfold State.Committable State.NoActions; decide +kernel⟩,
   ⟨{ up with slices := { Slices.reset with pending := some ⟨[entryReset 0], 2000000, 40⟩ }, clep := { up.clep with lock := .locked, slots := [(40, ⟨.mapSwitch, 2000000, true, false, false, 0, 0, false⟩)] } },
     by unfold State.Committable State.NoActions; decide +kernel⟩,
   ⟨up, by unfold State.Committable State.NoActions; decide +kernel⟩,
   ⟨{ up with regs := [(Reg.KPR_FW_LEN, 352)] }, by unfold State.Committable State.NoActions; decide +kernel⟩,
   ⟨{ up with keeper := { Keeper.reset with fwState := 4, staged := some [1] } },
     by unfold State.Committable State.NoActions; decide +kernel⟩,
   ⟨up, by unfold State.Committable State.NoActions; decide +kernel, by decide +kernel⟩,
   ⟨0, 4, 0x104C, 0, leBytes 4 5, ⟨0x1008, 0x40, 32, [⟨0, 25, .stg, 0⟩, ⟨32, 32, .stg, 0⟩]⟩, 0xFFFFFFFF00000000, up,
     by decide +kernel⟩,
   ⟨0, 4, 0x1048, leBytes 8 5 ++ [0], up, by decide +kernel, by decide +kernel, by decide +kernel, .inr
     (by decide +kernel)⟩,
   ⟨0, 40, 0x8, leBytes 8 5, { up with regs := [(instKey Reg.HQ_EVENT_EN 0, 8)] }, by decide +kernel, by decide +kernel,
     by decide +kernel, .inl (by decide +kernel)⟩,
   ⟨0, 0, 264, 16, 7, { up with host := [(0, { HostFn.reset with msix := [(16, ⟨5, 6, true, true⟩)] })] },
     by decide +kernel⟩,
   ⟨0, 0, 0, [3], up, by decide +kernel⟩,
   ⟨0, 0, 8, 12, up, by decide +kernel⟩,
   ⟨0, 0, 8, 4, .device, up, by decide +kernel⟩,
   ⟨0, 2, 0x40F8, (up.hostReg 0 2 0xF8), up, by decide +kernel, by decide +kernel, by decide +kernel, rfl⟩,
   ⟨0, 2, 0xFC, 7, { up with host := [(0, { HostFn.reset with latch := some (regKey 2 0xF8, 7) })] }, by decide +kernel,
     by decide +kernel, rfl⟩,
   ⟨3, { tIndex with state := .loading },
     { up with indexes := [(3, { tIndex with state := .loading })], regs := [(Reg.IDX_IMAGE_LEN + 0x40 * 3, 128)] },
     rfl, by decide +kernel⟩,
   ⟨3, { tIndex with state := .draining },
     { withReq gatherReq with indexes := [(3, { tIndex with state := .draining })] }, rfl, by decide +kernel⟩,
   ⟨3, { tIndex with state := .draining },
     { withReq topkReq with indexes := [(3, { tIndex with state := .draining })] }, rfl, by decide +kernel⟩,
   ⟨3, zeroBytes 128,
     { up with progs := [(3, { ProgSlot.reset with state := 1, prog := none, lastErr := 5 })], regs := [(Reg.POUR_IMAGE_LEN + 0x40 * 3, 128)] },
     by decide +kernel⟩,
   ⟨3,
     { up with slices := { Slices.reset with lacks := [(1, 67), (2, 5)] }, progs := [(3, { ProgSlot.reset with state := 3, prog := none, lastErr := 5 })], regs := [(Reg.POUR_IMAGE_LEN + 0x40 * 3, 128)] },
     by decide +kernel⟩,
   ⟨3,
     { up with progs := [(3, { ProgSlot.reset with state := 3, prog := none, lastErr := 5 })], regs := [(Reg.POUR_IMAGE_LEN + 0x40 * 3, 128)], reqs := [(1, tReq opPour (tHdr 0 0 ([3] ++ zeroBytes 18)) [] .sample)], nextRid := 2 },
     (1, tReq opPour (tHdr 0 0 ([3] ++ zeroBytes 18)) [] .sample), by decide +kernel⟩⟩

/-- The hypotheses of ResetsClear hold together. -/
theorem witness_ResetsClear :
    (∃ (rails : List RailRead) (s : State) (lvl : Level), (s.rst.pwrok = false) ∧ (Store.Sorted s.progs) ∧ (lvl = (if
      s.rst.pwrokLevel = .full ∨ (s.rst.resetN = false ∧ s.rst.resetnLevel = .full) ∨ s.rst.fellKeep = false ∨
      s.rst.fellMemValid = false ∨ s.keeper.railsOk = false ∨ rails.any stackSupplyOut = true then Level.full else
      .keep))) ∧
    (∃ (s : State), (s.rst.pwrok = true)) ∧
    (∃ (s : State), (s.rst.resetN = true)) ∧
    (∃ (s : State), (s.rst.resetN = false) ∧ (s.rst.pwrok = true) ∧ (s.rst.inReset = true) ∧ (s.rst.holdDone = true)) ∧
    (∃ (s : State), (s.rst.resetN = false) ∧ (s.rst.pwrok = true) ∧ (s.rst.inReset = true) ∧ (s.rst.holdDone = false) ∧
      (s.rst.lastSource = 1)) ∧
    (∃ (s : State), (s.rst.pwrok = true) ∧ (s.rst.inReset = true) ∧ (s.rst.holdDone = false) ∧ (s.rst.resetN = true)) ∧
    (∃ (s : State), (s.rst.pwrok = true) ∧ (s.rst.inReset = true) ∧ (s.rst.holdDone = false) ∧ (s.rst.resetN = false)) ∧
    (∃ (s : State), (s.regF Reg.RST_CTRL 0 2 = 0)) ∧
    (∃ (fn : Fin 17) (s : State), (fn.val ≠ 0) ∧ ((∀ q ∈ (s.fn fn).queues, q.2.owed = []))) ∧
    (∃ (s : State) (i : Instr), (i ∈ [Instr.hotReset, Instr.functionLevelReset 0])) :=
  ⟨⟨[],
    { up with rst := { up.rst with pwrok := false, inReset := true, phase := 0, step := 0, fellMemValid := true, fellKeep := true, pwrokLevel := .keep, resetN := false }, indexes := [(3, tIndex)], reqs := [(1, topkReq)], regs := [(Reg.MEM_CFG, 3), (Reg.KPR_FW_CFG, 5)], keeper := { Keeper.reset with railsOk := true } },
    (if
    ({ up with rst := { up.rst with pwrok := false, inReset := true, phase := 0, step := 0, fellMemValid := true, fellKeep := true, pwrokLevel := .keep, resetN := false }, indexes := [(3, tIndex)], reqs := [(1, topkReq)], regs := [(Reg.MEM_CFG, 3), (Reg.KPR_FW_CFG, 5)], keeper := { Keeper.reset with railsOk := true } }
    : State).rst.pwrokLevel = .full ∨
    (({ up with rst := { up.rst with pwrok := false, inReset := true, phase := 0, step := 0, fellMemValid := true, fellKeep := true, pwrokLevel := .keep, resetN := false }, indexes := [(3, tIndex)], reqs := [(1, topkReq)], regs := [(Reg.MEM_CFG, 3), (Reg.KPR_FW_CFG, 5)], keeper := { Keeper.reset with railsOk := true } }
    : State).rst.resetN = false ∧
    ({ up with rst := { up.rst with pwrok := false, inReset := true, phase := 0, step := 0, fellMemValid := true, fellKeep := true, pwrokLevel := .keep, resetN := false }, indexes := [(3, tIndex)], reqs := [(1, topkReq)], regs := [(Reg.MEM_CFG, 3), (Reg.KPR_FW_CFG, 5)], keeper := { Keeper.reset with railsOk := true } }
    : State).rst.resetnLevel = .full) ∨
    ({ up with rst := { up.rst with pwrok := false, inReset := true, phase := 0, step := 0, fellMemValid := true, fellKeep := true, pwrokLevel := .keep, resetN := false }, indexes := [(3, tIndex)], reqs := [(1, topkReq)], regs := [(Reg.MEM_CFG, 3), (Reg.KPR_FW_CFG, 5)], keeper := { Keeper.reset with railsOk := true } }
    : State).rst.fellKeep = false ∨
    ({ up with rst := { up.rst with pwrok := false, inReset := true, phase := 0, step := 0, fellMemValid := true, fellKeep := true, pwrokLevel := .keep, resetN := false }, indexes := [(3, tIndex)], reqs := [(1, topkReq)], regs := [(Reg.MEM_CFG, 3), (Reg.KPR_FW_CFG, 5)], keeper := { Keeper.reset with railsOk := true } }
    : State).rst.fellMemValid = false ∨
    ({ up with rst := { up.rst with pwrok := false, inReset := true, phase := 0, step := 0, fellMemValid := true, fellKeep := true, pwrokLevel := .keep, resetN := false }, indexes := [(3, tIndex)], reqs := [(1, topkReq)], regs := [(Reg.MEM_CFG, 3), (Reg.KPR_FW_CFG, 5)], keeper := { Keeper.reset with railsOk := true } }
    : State).keeper.railsOk = false ∨ ([] : List RailRead).any stackSupplyOut = true then Level.full else .keep),
    by decide +kernel, by decide +kernel, rfl⟩,
   ⟨{ withReq topkReq with indexes := [(3, tIndex)], host := [(0, HostFn.reset)], regs := [(Reg.MEM_CFG, 3), (Reg.KPR_FW_CFG, 5)] , record := [⟨1, 2, 3, 4⟩], staged := [(Reg.MEM_CFG, 9)] },
     by decide +kernel⟩,
   ⟨{ withReq topkReq with indexes := [(3, tIndex)], host := [(0, HostFn.reset)], regs := [(Reg.MEM_CFG, 3), (Reg.KPR_FW_CFG, 5)] , record := [⟨1, 2, 3, 4⟩], staged := [(Reg.MEM_CFG, 9)] },
     by decide +kernel⟩,
   ⟨{ up with rst := { up.rst with resetN := false, inReset := true, phase := 0, step := 0, holdDone := true } },
     by decide +kernel⟩,
   ⟨{ up with rst := { up.rst with resetN := false, inReset := true, phase := 0, step := 0, holdDone := false, lastSource := 1 } },
     by decide +kernel⟩,
   ⟨{ up with rst := { up.rst with resetN := true, inReset := true, phase := 0, step := 0, holdDone := false } },
     by decide +kernel⟩,
   ⟨{ up with rst := { up.rst with resetN := false, inReset := true, phase := 0, step := 0, holdDone := false } },
     by decide +kernel⟩,
   ⟨{ withReq topkReq with indexes := [(3, tIndex)], host := [(0, HostFn.reset)], regs := [(Reg.MEM_CFG, 3), (Reg.KPR_FW_CFG, 5)] , record := [⟨1, 2, 3, 4⟩], staged := [(Reg.MEM_CFG, 9)] },
     by decide +kernel⟩,
   ⟨1,
     { up with reqs := [(1, { topkReq with src := .host 1 0 1 2 64 }), (2, { topkReq with src := .host 2 0 1 2 64 })], nextRid := 3, host := [(1, { HostFn.reset with latch := some (1, 2), queues := [(1, Queue.reset)] }), (2, { HostFn.reset with latch := some (1, 2) })], regs := [(instKey (regKey 0x14 0x110) 1, 7), (instKey (regKey 0x14 0x110) 2, 7)] },
     by decide +kernel⟩,
   ⟨{ withReq topkReq with indexes := [(3, tIndex)], host := [(0, HostFn.reset)], regs := [(Reg.MEM_CFG, 3), (Reg.KPR_FW_CFG, 5)] , record := [⟨1, 2, 3, 4⟩], staged := [(Reg.MEM_CFG, 9)] },
     .hotReset, by decide +kernel⟩⟩

/-- The hypotheses of BringUpAndRestartsStep hold together. -/
theorem witness_BringUpAndRestartsStep :
    (∃ (b : Option (Fin 2)) (ohms : Nat) (media : Option Media) (s : State), (s.bringing = true) ∧ (perBasin s.rst.step
      = false) ∧ ((s.rst.step = 3 → s.keeper.booted ≠ none)) ∧ ((s.rst.step = 9 → s.flipWaits = false))) ∧
    (∃ (b : Option (Fin 2)) (ohms : Nat) (media : Option Media) (s : State), (s.bringing = true) ∧ (perBasin s.rst.step
      = false) ∧ ((s.rst.step = 3 → s.keeper.booted ≠ none)) ∧ ((s.rst.step = 9 → s.flipWaits = false))) ∧
    (∃ (b : Fin 2) (ohms : Nat) (media : Option Media) (s : State), (s.bringing = true) ∧ (perBasin s.rst.step = true) ∧
      (s.stepLeft b = true)) ∧
    (∃ (b : Fin 2) (ohms : Nat) (media : Option Media) (s : State), (s.bringing = true) ∧ (perBasin s.rst.step = true) ∧
      (s.stepLeft b = true)) ∧
    (∃ (b : Option (Fin 2)) (ohms : Nat) (code : Nat) (media : Option Media) (s : State), (s.bringing = true) ∧
      (perBasin s.rst.step = false) ∧ (s.rst.tries = 0)) ∧
    (∃ (b : Option (Fin 2)) (ohms : Nat) (code : Nat) (media : Option Media) (s : State), (s.bringing = true) ∧
      (perBasin s.rst.step = false) ∧ (s.rst.tries ≠ 0)) ∧
    (∃ (b : Option (Fin 2)) (s : State), (s.bringing = true) ∧ (perBasin s.rst.step = false) ∧ ((s.rst.step = 3 →
      s.keeper.waitSmbus = false)) ∧ (s.rst.tries = 0)) ∧
    (∃ (b : Option (Fin 2)) (s : State), (s.bringing = true) ∧ (perBasin s.rst.step = false) ∧ ((s.rst.step = 3 →
      s.keeper.waitSmbus = false)) ∧ (s.rst.tries ≠ 0)) ∧
    (∃ (b : Fin 2) (ohms : Nat) (code : Nat) (media : Option Media) (s : State) (i : Instr), (s.bringing = true) ∧
      (perBasin s.rst.step = true) ∧ (s.stepLeft b = true) ∧ (i ∈ [Instr.bringupStepDone (some b) ohms media (.failed
      code), Instr.bringupStepLimit (some b)]) ∧ ((s.basin b).tries = 0)) ∧
    (∃ (b : Fin 2) (ohms : Nat) (code : Nat) (media : Option Media) (s : State) (i : Instr), (s.bringing = true) ∧
      (perBasin s.rst.step = true) ∧ (s.stepLeft b = true) ∧ (i ∈ [Instr.bringupStepDone (some b) ohms media (.failed
      code), Instr.bringupStepLimit (some b)]) ∧ ((s.basin b).tries ≠ 0)) ∧
    (∃ (b : Fin 2) (s : State), ((s.basin b).state = 1) ∧ (1 ≤ (s.basin b).step) ∧ ((s.basin b).step < 6)) ∧
    (∃ (b : Fin 2) (s : State), ((s.basin b).state = 1) ∧ (1 ≤ (s.basin b).step) ∧ ((s.basin b).step < 6)) ∧
    (∃ (b : Fin 2) (s : State), ((s.basin b).state = 1) ∧ (s.keeper.running = true) ∧ ((s.recentStarts b).length + 1 ≤
      s.regF Reg.RST_CFG 4 4) ∧ (s.tick.toNat < (s.basin b).lastStart.toNat + s.regF Reg.RST_CFG 16 16 * 100000)) ∧
    (∃ (b : Fin 2) (s : State), ((s.basin b).state = 1) ∧ (s.keeper.running = true) ∧ ((s.recentStarts b).length + 1 ≤
      s.regF Reg.RST_CFG 4 4) ∧ ((s.basin b).lastStart.toNat + s.regF Reg.RST_CFG 16 16 * 100000 ≤ s.tick.toNat)) ∧
    (∃ (b : Fin 2) (s : State), (s.pageUp 0x13 = true) ∧ (s.keeper.running = true) ∧ ((s.basin b).state ≠ 3)) ∧
    (∃ (b : Fin 2) (s : State), (s.pageUp 0x13 = true) ∧ (s.keeper.running = false)) ∧
    (∃ (b : Fin 2) (s : State) (i : Instr), (s.pageUp 0x13 = false) ∧ (i ∈ [Instr.restartBasin b, Instr.injectHang b])) ∧
    (∃ (b : Fin 2) (s : State), (s.pageUp 0x13 = true)) ∧
    (∃ (b : Fin 2) (s : State), (s.pumpRuns b = false)) ∧
    (∃ (b : Fin 2) (s : State), ((s.basin b).state = 0) ∧ (s.keeper.running = true) ∧ ((s.recentStarts b).length + 1 ≤
      s.regF Reg.RST_CFG 4 4)) :=
  ⟨⟨none, 0, none,
    { State.reset with rst := { Rst.reset with step := 3, phase := 0 }, keeper := { Keeper.reset with booted := some [1] } },
    by decide +kernel⟩,
   ⟨none, 0, none,
     { State.reset with rst := { Rst.reset with step := 9, phase := 2 }, keeper := { Keeper.reset with booted := some [1] } },
     by decide +kernel⟩,
   ⟨0, 0, none,
     { State.reset with rst := { Rst.reset with step := 7, phase := 2 }, basins := [(0, { Basin.reset with mapsSet := true }), (1, { Basin.reset with stepDone := true })] },
     by decide +kernel⟩,
   ⟨0, 0, none, { State.reset with rst := { Rst.reset with step := 7, phase := 2 } }, by decide +kernel⟩,
   ⟨none, 0, 3, none, { State.reset with rst := { Rst.reset with step := 6, phase := 1, tries := 0 } },
     by decide +kernel⟩,
   ⟨none, 0, 3, none, { State.reset with rst := { Rst.reset with step := 6, phase := 1, tries := 1 } },
     by decide +kernel⟩,
   ⟨none,
     { State.reset with rst := { Rst.reset with step := 3, phase := 0, tries := 0 }, keeper := { Keeper.reset with booted := some [1] } },
     by decide +kernel, by decide +kernel, fun _ => rfl, by decide +kernel⟩,
   ⟨none,
     { State.reset with rst := { Rst.reset with step := 3, phase := 0, tries := 1 }, keeper := { Keeper.reset with booted := some [1] } },
     by decide +kernel, by decide +kernel, fun _ => rfl, by decide +kernel⟩,
   ⟨0, 0, 3, none,
     { State.reset with rst := { Rst.reset with step := 4, phase := 1 }, basins := [(0, { Basin.reset with mapsSet := true, tries := 0 }), (1, { Basin.reset with stepDone := true })] },
     .bringupStepDone (some 0) 0 none (.failed 3), by decide +kernel, by decide +kernel, by decide +kernel,
     List.mem_cons_self .., by decide +kernel⟩,
   ⟨0, 0, 3, none,
     { State.reset with rst := { Rst.reset with step := 4, phase := 1 }, basins := [(0, { Basin.reset with mapsSet := true, tries := 1 }), (1, { Basin.reset with stepDone := false })] },
     .bringupStepDone (some 0) 0 none (.failed 3), by decide +kernel, by decide +kernel, by decide +kernel,
     List.mem_cons_self .., by decide +kernel⟩,
   ⟨0, { up with basins := [(0, { tBasin with state := 1, step := 1 }), (1, tBasin)] }, by decide +kernel⟩,
   ⟨0, { up with basins := [(0, { tBasin with state := 1, step := 5 }), (1, tBasin)] }, by decide +kernel⟩,
   ⟨0,
     { up with basins := [(0, { tBasin with state := 1, step := 2, lastStart := 100000000000 }), (1, tBasin)], clep := { up.clep with ticks := 100000000000 } },
     by decide +kernel⟩,
   ⟨0,
     { up with basins := [(0, { tBasin with state := 1, step := 2, lastStart := 0 }), (1, tBasin)], clep := { up.clep with ticks := 100000000000 } },
     by decide +kernel⟩,
   ⟨0, up, by decide +kernel⟩,
   ⟨1, { up with keeper := { Keeper.reset with running := false } }, by decide +kernel⟩,
   ⟨1, { State.reset with rst := { Rst.reset with step := 8, phase := 2 } }, .restartBasin 1, by decide +kernel⟩,
   ⟨1, up, by decide +kernel⟩,
   ⟨1, { State.reset with rst := { Rst.reset with step := 3, phase := 0 } }, by decide +kernel⟩,
   ⟨1, up, by decide +kernel⟩⟩

/-- The hypotheses of KeeperControls hold together. -/
theorem witness_KeeperControls :
    (∃ (r : Reading) (l : RailRead) (w : Nat) (s : State), (s.keeper.running = true) ∧ (s.keeper.sensors = []) ∧
      (s.keeper.samples = []) ∧ ((∀ t, (s.region t).tripped = 0)) ∧ (r.cls.val = 0) ∧ (r.idx.val < 120) ∧ (r.value <
      1050) ∧ (w = railPower l.volts l.amps) ∧ (w ≤ 11500) ∧ (vppOutside l = false)) ∧
    (∃ (r : Reading) (tr : Nat) (j : Nat) (s : State), (s.keeper.running = true) ∧ (s.keeper.sensors = []) ∧ ((∀ t,
      (s.region t).tripped = 0)) ∧ (tr < 16) ∧ (j < 5) ∧ (r.cls.val = 0) ∧ (r.idx.val = 5 * tr + j) ∧ (1050 ≤ r.value) ∧
      (s.terraceRids tr = [])) ∧
    (∃ (s : State), (s.keeper.running = true)) ∧
    (∃ (tr : Fin 16) (since : Time) (rids : List Nat) (s : State), ((s.region tr).held = some since) ∧ ((s.region
      tr).stopped = false) ∧ (s.terraceRids tr = []) ∧ (rids = [])) ∧
    (∃ (tr : Fin 16) (since : Time) (rids : List Nat) (s : State), ((s.region tr).held = some since) ∧ ((s.region
      tr).stopped = false) ∧ ((s.terraceRids tr ≠ [] ∨ rids ≠ [])) ∧ (s.tick.toNat < since.toNat + 10000)) ∧
    (∃ (tr : Fin 16) (since : Time) (rids : List Nat) (s : State), ((s.region tr).held = some since) ∧ ((s.region
      tr).stopped = false) ∧ (since.toNat + 10000 ≤ s.tick.toNat)) ∧
    (∃ (last : List Reading) (s : State) (w : State), (s.keeper.running = true) ∧ (w = s.withKeeper
      { s.keeper with worst := s.noteWorst last })) ∧
    (∃ (seq : U32) (s : State), (s.smbusUp = true)) ∧
    (∃ (page : Byte) (off : U16) (s : State), (s.smbusUp = true)) ∧
    (∃ (tr : Fin 16) (s : State), (s.pageUp 0x12 = true)) ∧
    (∃ (col : Fin 64) (k : Nat) (s : State), (s.pageUp 0x0B = true) ∧ (k = instKey Reg.CASC_INJECT (nodeTerrace (s.regF
      Reg.CASC_SEL 0 4 % 2) (s.regF Reg.CASC_SEL 0 4 / 2)))) ∧
    (∃ (tr : Fin 16) (col : Fin 64) (lane : Fin 16) (s : State) (i : Instr), (s.rst.phase ≠ 3) ∧ (i ∈ [Instr.injectHot
      tr, Instr.injectCascResidue col, Instr.injectWeirParity lane])) :=
  ⟨⟨⟨0, 79, 1049⟩, ⟨20, 0x3F800000, 0x42E60000⟩, 1150, up, by decide +kernel, by decide +kernel, by decide +kernel, fun
    _ => rfl, by decide +kernel⟩,
   ⟨⟨0, 79, 1050⟩, 15, 4, up, by decide +kernel, by decide +kernel, fun _ => rfl, by decide +kernel⟩,
   ⟨up, by decide +kernel⟩,
   ⟨3, 5, [],
     { up with keeper := { Keeper.reset with regions := [(3, { Region.reset with held := some 5, point := 2 })] }, fabric := { Fabric.reset with rills := [(6, tRill), (0, { tRill with rid := some 1 })] } },
     rfl, by decide +kernel⟩,
   ⟨3, 5, [1],
     { up with keeper := { Keeper.reset with regions := [(3, { Region.reset with held := some 5, point := 2 })] }, fabric := { Fabric.reset with rills := [(6, { tRill with rid := some 1 }), (0, { tRill with rid := some 1 })] } },
     rfl, by decide +kernel, .inr (by decide), by decide +kernel⟩,
   ⟨3, 5, [1],
     { up with keeper := { Keeper.reset with regions := [(3, { Region.reset with held := some 5, point := 2 })] }, fabric := { Fabric.reset with rills := [(6, { tRill with rid := some 1 }), (0, { tRill with rid := some 1 })] }, clep := { up.clep with ticks := 1000000 }, reqs := [(1, topkReq)] },
     rfl, by decide +kernel⟩,
   ⟨[⟨1, 3, 700⟩], up, (up.withKeeper { up.keeper with worst := up.noteWorst [⟨1, 3, 700⟩] }), by decide +kernel, rfl⟩,
   ⟨8,
     { up with keeper := { Keeper.reset with log := [⟨5, 7, 3, 1, true, true, zeroBytes 12⟩], buffered := [⟨6, 8, 3, 1, true, true, zeroBytes 12⟩] } },
     by decide +kernel⟩,
   ⟨0x12, 0x100, up, by decide +kernel⟩,
   ⟨15, up, by decide +kernel⟩,
   ⟨63, instKey Reg.CASC_INJECT (nodeTerrace (up.regF Reg.CASC_SEL 0 4 % 2) (up.regF Reg.CASC_SEL 0 4 / 2)), up,
     by decide +kernel⟩,
   ⟨3, 5, 7, { State.reset with rst := { Rst.reset with step := 8, phase := 2 } }, .injectHot 3, by decide +kernel⟩⟩

/-- The hypotheses of FirmwareAuthorised hold together. -/
theorem witness_FirmwareAuthorised :
    (∃ (off : U32) (bs : List Byte) (s : State), (s.smbusUp = true)) ∧
    (∃ (len : U32) (b : Bundle) (s : State), (chunkBytes s.keeper.chunks len.toNat = some b) ∧ (len.toNat ≤ 33550336) ∧
      (s.keeper.waitSmbus = true) ∧ (s.regF Reg.RST_CTRL 0 2 = 0)) ∧
    (∃ (len : U32) (b : Bundle) (s : State), (chunkBytes s.keeper.chunks len.toNat = some b) ∧ (len.toNat ≤ 33550336) ∧
      (s.keeper.waitSmbus = false) ∧ (s.keeper.running = true)) ∧
    (∃ (len : U32) (written : Bool) (s : State), (s.keeper.waitSmbus = true) ∧ ((33550336 < len.toNat ∨ chunkBytes
      s.keeper.chunks len.toNat = none))) ∧
    (∃ (b : Bundle) (s : State), (1 ≤ s.keeper.fwState) ∧ (s.keeper.fwState ≤ 3)) ∧
    (∃ (s : State), (s.smbusUp = true)) ∧
    (∃ (i : Instr) (sig : List Byte) (s : State), (s.smbusUp = true) ∧ ((s.keeper.nonce = none ∨ sig.length ≠ 96)) ∧ (i
      ∈ [.authOpenDebug sig, .authBlowPwrokLevel sig, .authBlowResetnLevel sig, .authRaiseSvn sig]) ∧ (sig.length ≠ 96))
      ∧
    (∃ (i : Instr) (sig : List Byte) (s : State), (s.smbusUp = true) ∧ ((s.keeper.nonce = none ∨ sig.length ≠ 96)) ∧ (i
      ∈ [.authOpenDebug sig, .authBlowPwrokLevel sig, .authBlowResetnLevel sig, .authRaiseSvn sig]) ∧ (sig.length = 96))
      ∧
    (∃ (sig : List Byte) (n : Nat) (s : State), (s.smbusUp = true) ∧ (sig.length = 96) ∧ (s.keeper.nonce = some n)) :=
  ⟨⟨10, [], { up with keeper := { Keeper.reset with chunks := [(9, 1), (10, 4), (500, 2)] } }, by decide +kernel⟩,
   ⟨2, [1, 4],
     { up with keeper := { Keeper.reset with chunks := [(0, 1), (1, 4)], waitSmbus := true, running := false } }, rfl,
     by decide +kernel⟩,
   ⟨2, [1, 4],
     { up with keeper := { Keeper.reset with chunks := [(0, 1), (1, 4)], waitSmbus := false, running := true } }, rfl,
     by decide +kernel⟩,
   ⟨3, true,
     { up with keeper := { Keeper.reset with chunks := [(0, 1), (1, 4)], waitSmbus := true, running := false } },
     by decide +kernel, .inr (by decide +kernel)⟩,
   ⟨[1, 4], { up with keeper := { Keeper.reset with fwState := 1 } }, by decide +kernel⟩,
   ⟨up, by decide +kernel⟩,
   ⟨.authOpenDebug (zeroBytes 95), zeroBytes 95, up, by decide +kernel, .inr (by decide +kernel), by decide +kernel⟩,
   ⟨.authOpenDebug (zeroBytes 96), zeroBytes 96, up, by decide +kernel, .inl (by decide +kernel), by decide +kernel⟩,
   ⟨zeroBytes 96, 9, { up with keeper := { Keeper.reset with nonce := some 9 }, rst := { up.rst with strap := 8 } },
     by decide +kernel, by decide +kernel, rfl⟩⟩

end Sys2Proof.Tests
end

section
/-! SUPPORT. The receiver's frame: what ends, starts and answers requests leaves the whole receiver alone, so the slots that fire
at an instant (R37, R38) change nothing of it but the event slots. -/

namespace Sys2Proof.Machine

section Frame

variable (s : State)

/-- A fold of operations that leave the receiver alone leaves it alone. -/
@[simp] theorem State.foldl_clep {α : Type} (f : State → α → State) (h : ∀ t a, (f t a).clep = t.clep) (l : List α) :
    (l.foldl f s).clep = s.clep := by
  induction l generalizing s with
  | nil => rfl
  | cons a l ih => exact (ih (f s a)).trans (h s a)

/-! ### Requests, windows and the units that work for them -/

@[simp] theorem State.asAccepted_clep (rid : Nat) : (s.asAccepted rid).clep = s.clep := rfl

@[simp] theorem State.closeWindow_clep (rid : Nat) : (s.closeWindow rid).clep = s.clep := by
  unfold State.closeWindow
  repeat' split
  all_goals simp

@[simp] theorem State.moveRouter_clep (u : Nat × Nat) : (s.moveRouter u).clep = s.clep := by
  unfold State.moveRouter
  split <;> simp

@[simp] theorem State.settleMaps_clep : s.settleMaps.clep = s.clep := by
  simp [State.settleMaps]

@[simp] theorem State.idleRills_clep (rid : Nat) : (s.idleRills rid).clep = s.clep := by
  simp [State.idleRills]

@[simp] theorem State.retag_clep (pt : Nat) : (s.retag pt).clep = s.clep := rfl

@[simp] theorem State.dropMsgs_clep (p : UMsg → Bool) : (s.dropMsgs p).clep = s.clep := by
  unfold State.dropMsgs
  extract_lets gone src s1
  split
  · rfl
  · exact s1.foldl_clep _ (by intros; rfl) _

@[simp] theorem State.freeWork_clep (rid : Nat) : (s.freeWork rid).clep = s.clep := by
  unfold State.freeWork
  extract_lets s1 s2 wins reads
  have h2 : s2.clep = s1.clep := by
    unfold s2
    exact s1.foldl_clep _ (by intros; rfl) _
  exact (State.dropMsgs_clep _ _).trans (h2.trans (s.idleRills_clep rid))

/-! ### Pages and the map of the Cistern -/

@[simp] theorem State.keepOf_clep (i : Nat) (x : Index) : (s.keepOf i x).clep = s.clep := rfl
@[simp] theorem State.trimLater_clep (n : Nat) : (s.trimLater n).clep = s.clep := rfl
@[simp] theorem State.mapLine_clep (n : Nat) : (s.mapLine n).clep = s.clep := rfl
@[simp] theorem State.queueMap_clep (n : Nat) : (s.queueMap n).clep = s.clep := rfl
@[simp] theorem State.mapSet_clep (n : Nat) (p : Option Nat) : (s.mapSet n p).clep = s.clep := rfl

@[simp] theorem State.readMap_clep (a b m : Nat) : (s.readMap a b m).clep = s.clep := by
  unfold State.readMap
  split <;> simp

@[simp] theorem State.readMapOf_clep (n : Nat) : (s.readMapOf n).clep = s.clep := s.readMap_clep _ _ _

@[simp] theorem State.trim_clep (n : Nat) : (s.trim n).clep = s.clep := by
  unfold State.trim
  repeat' split
  all_goals simp

@[simp] theorem State.freePage_clep (n : Nat) : (s.freePage n).clep = s.clep := by
  simp [State.freePage]

@[simp] theorem State.swapIndex_clep (i : Nat) (x : Index) : (s.swapIndex i x).clep = s.clep := by
  unfold State.swapIndex
  split <;> simp

@[simp] theorem State.freeUnseen_clep (i : Nat) : (s.freeUnseen i).clep = s.clep := by
  unfold State.freeUnseen
  split <;> simp

/-! ### Messages and completion queues -/

@[simp] theorem State.queueUnit_clep (pt : Nat) (u : SUnit) : (s.queueUnit pt u).clep = s.clep := by
  unfold State.queueUnit
  dsimp only
  split <;> simp

@[simp] theorem State.routeMsg_clep (m : Nat) : (s.routeMsg m).clep = s.clep := by
  unfold State.routeMsg
  repeat' split
  all_goals simp

@[simp] theorem State.sendMsg_clep (m : UMsg) : (s.sendMsg m).clep = s.clep := State.routeMsg_clep _ _
@[simp] theorem State.discard_clep (f : Nat) : (s.discard f).clep = s.clep := State.bumpSat_clep _ _ _ _ _

@[simp] theorem State.dropReq_clep (r : Option Nat) : (s.dropReq r).clep = s.clep := by
  cases r <;> rfl

@[simp] theorem State.sendVector_clep (f v : Nat) : (s.sendVector f v).clep = s.clep := by
  obtain ⟨h, o, e⟩ := s.sendVector_frame f v
  rw [e]

@[simp] theorem State.writeCq_clep (f n : Nat) (o : Owed) : (s.writeCq f n o).clep = s.clep := by
  unfold State.writeCq
  extract_lets q fits qst bytes n64 stat ent s1 s2 size ann due q1 s3
  have h1 : s1.clep = s.clep := by
    unfold s1
    split <;> rfl
  have h3 : s3.clep = s.clep := (State.dropReq_clep _ _).trans h1
  split
  · exact (s3.sendVector_clep _ _).trans h3
  · exact h3

@[simp] theorem State.flushList_clep (f n : Nat) (l : List Owed) : (s.flushList f n l).clep = s.clep := by
  induction l generalizing s with
  | nil => simp [State.flushList]
  | cons o l ih =>
    unfold State.flushList
    split <;> simp [ih]

@[simp] theorem State.flushCq_clep (f n : Nat) : (s.flushCq f n).clep = s.clep := by simp [State.flushCq]

@[simp] theorem State.owe_clep (f n : Nat) (o : Owed) : (s.owe f n o).clep = s.clep := by
  unfold State.owe
  extract_lets q
  split
  · exact State.flushCq_clep _ _ _
  · exact (State.discard_clep _ _).trans (State.dropReq_clep _ _)

/-! ### Ending a request or a part -/

@[simp] theorem State.respond_clep (rid : Nat) (resp : Resp) : (s.respond rid resp).clep = s.clep := by
  unfold State.respond
  split
  · rfl
  next r _ =>
    extract_lets s1 c bytes stopped s2 s2' s3
    have h2 : s2.clep = s.clep :=
      (s1.setReq_clep _ _).trans (((s.freeWork rid).closeWindow_clep rid).trans (s.freeWork_clep rid))
    have h2' : s2'.clep = s.clep := by
      unfold s2'
      split
      · exact (s2.freeUnseen_clep _).trans h2
      · exact h2
    have h3 : s3.clep = s.clep := by
      unfold s3
      split <;> exact h2'
    split
    · exact (s3.sendMsg_clep _).trans h3
    · split
      · exact (State.discard_clep _ _).trans ((s3.dropReq_clep _).trans h3)
      · exact (s3.owe_clep _ _ _).trans h3

@[simp] theorem State.endNow_clep (rid st : Nat) : (s.endNow rid st).clep = s.clep := by
  unfold State.endNow
  split
  · rfl
  · simp [apply_ite State.clep]

@[simp] theorem State.replyPart_clep (p : Nat) (bs : List Byte) : (s.replyPart p bs).clep = s.clep := by
  unfold State.replyPart
  split <;> simp

@[simp] theorem State.failPart_clep (p st : Nat) : (s.failPart p st).clep = s.clep := by
  unfold State.failPart
  split <;> simp [apply_ite State.clep]

@[simp] theorem State.endPart_clep (p st : Nat) : (s.endPart p st).clep = s.clep := by
  unfold State.endPart
  split <;> simp

@[simp] theorem State.endWith_clep (rid st : Nat) : (s.endWith rid st).clep = s.clep := by
  unfold State.endWith
  split <;> simp

@[simp] theorem State.runPart_clep (p : Nat) : (s.runPart p).clep = s.clep := by
  unfold State.runPart
  repeat' split
  all_goals simp

@[simp] theorem State.rerunPart_clep (p : Nat) : (s.rerunPart p).clep = s.clep := by
  unfold State.rerunPart
  repeat' split
  all_goals simp

/-! ### Executing a phase again -/

@[simp] theorem State.leaveWindows_clep (rid : Nat) : (s.leaveWindows rid).clep = s.clep := rfl

@[simp] theorem State.joinWindow_clep (i b rid : Nat) (d : Bool) (p : Nat × Nat) :
    (s.joinWindow i b rid d p).clep = s.clep := by
  simp [State.joinWindow, apply_ite State.clep]

@[simp] theorem State.joinWindows_clep (rid : Nat) : (s.joinWindows rid).clep = s.clep := by
  unfold State.joinWindows
  repeat' split
  all_goals simp

@[simp] theorem State.sendPart_clep (p : PartOut) : (s.sendPart p).clep = s.clep := by
  unfold State.sendPart
  repeat' split
  all_goals simp [apply_ite State.clep]

@[simp] theorem State.resendParts_clep (rid : Nat) : (s.resendParts rid).clep = s.clep := by
  simp [State.resendParts]

@[simp] theorem State.againFetch_clep (rid : Nat) (r : Req) : (s.againFetch rid r).clep = s.clep := by
  simp [State.againFetch, apply_ite State.clep]

@[simp] theorem State.rerun_clep (rid : Nat) : (s.rerun rid).clep = s.clep := by
  unfold State.rerun
  split <;> simp [apply_ite State.clep]

@[simp] theorem State.abortOrHold_clep (rid : Nat) (w : Bool) : (s.abortOrHold rid w).clep = s.clep := by
  simp [State.abortOrHold, apply_ite State.clep]

/-! ### Naming pages and arrays; faults of a phase -/

@[simp] theorem State.tierFail_clep (w : Waiter) : (s.tierFail w).clep = s.clep := by
  cases w <;> simp [State.tierFail]

@[simp] theorem State.startRead_clep (t : Target) (w : Waiter) (a b : Nat) : (s.startRead t w a b).clep = s.clep := by
  unfold State.startRead
  split
  · rfl
  · extract_lets ms cold s1 s2 r
    have h1 : s1.clep = s.clep := s.foldl_clep State.mapLine (by intros; rfl) _
    exact (s1.foldl_clep _ (fun u m => u.readMap_clep _ _ m) cold).trans h1

@[simp] theorem State.nameArray_clep (i h : Nat) (w : Waiter) : (s.nameArray i h w).clep = s.clep := by
  unfold State.nameArray
  dsimp only
  repeat' split
  all_goals simp

@[simp] theorem State.nameLists_clep (rid : Nat) : (s.nameLists rid).clep = s.clep := by
  unfold State.nameLists
  split
  · rfl
  · dsimp only
    split
    · rfl
    · rw [State.foldl_clep]
      intro t p
      split <;> simp

@[simp] theorem State.cacheFill_clep (a b n : Nat) : (s.cacheFill a b n).clep = s.clep := rfl
@[simp] theorem State.setRun_clep (rid : Nat) (v : PhaseRun) : (s.setRun rid v).clep = s.clep := rfl
@[simp] theorem State.pointOut_clep (pt : Nat) (o : Bool) : (s.pointOut pt o).clep = s.clep := rfl

@[simp] theorem State.logRaw_clep (code sev : Nat) (d : List Byte) : (s.logRaw code sev d).clep = s.clep := by
  simp [State.logRaw, apply_ite State.clep]

@[simp] theorem State.retire_clep (k l c : Nat) : (s.retire k l c).clep = s.clep := by
  unfold State.retire
  split <;> simp

@[simp] theorem State.takeOut_clep (b t rid : Nat) : (s.takeOut b t rid).clep = s.clep := by simp [State.takeOut]

@[simp] theorem State.retireMapped_clep (k l c : Nat) : (s.retireMapped k l c).clep = s.clep := by
  unfold State.retireMapped
  split <;> simp

@[simp] theorem State.runOnSpare_clep (rid : Nat) (i : Bool) (p : Option (Nat × Nat)) :
    (s.runOnSpare rid i p).clep = s.clep := by simp [State.runOnSpare, apply_ite State.clep]

@[simp] theorem State.retireRunnel_clep (rid l : Nat) : (s.retireRunnel rid l).clep = s.clep := by
  simp [State.retireRunnel, apply_ite State.clep]

@[simp] theorem State.issueRefresh_clep (k : Nat) : (s.issueRefresh k).clep = s.clep := by
  simp [State.issueRefresh, apply_ite State.clep]

@[simp] theorem State.lasting_clep (rid : Nat) (c : Charge) : (s.lasting rid c).clep = s.clep := by
  unfold State.lasting
  extract_lets s0 l b t rn sRill sColumn sColumn' sLane others sSpout
  split
  · split <;> simp [sRill, s0]
  split
  · rw [State.retireRunnel_clep]
    split <;> rfl
  split
  · have hColumn : sColumn.clep = s.clep := State.bumpSat_clep _ _ _ _ _
    split
    · exact (State.takeOut_clep _ _ _ _).trans ((sColumn.retire_clep _ _ _).trans hColumn)
    · exact (sColumn'.runOnSpare_clep _ _ _).trans ((sColumn.retire_clep _ _ _).trans hColumn)
  split
  · simp [sLane, s0]
  split
  · rw [State.foldl_clep _ _ (fun u r => u.rerun_clep r)]
    simp [sSpout, s0]
  · exact s0.endWith_clep _ _

@[simp] theorem State.phaseFault_clep (rid : Nat) (c : Charge) (i : Bool) : (s.phaseFault rid c i).clep = s.clep := by
  unfold State.phaseFault
  split
  · rfl
  · simp [apply_ite State.clep]

@[simp] theorem State.nameError_clep (w : Waiter) (v : Option (Fin 2)) : (s.nameError w v).clep = s.clep := by
  cases w <;> simp [State.nameError]

@[simp] theorem State.namePage_clep (a l : Nat) (w : Waiter) : (s.namePage a l w).clep = s.clep := by
  simp [State.namePage, apply_ite State.clep]

@[simp] theorem State.noteNamed_clep (w : Waiter) (l : List Nat) : (s.noteNamed w l).clep = s.clep := rfl

@[simp] theorem State.namePages_clep (a : Nat) (w : Waiter) (l : List Nat) : (s.namePages a w l).clep = s.clep := by
  simp [State.namePages, apply_ite State.clep]

/-! ### Starting a phase or a request -/

@[simp] theorem State.newPart_clep (rid : Nat) (k : PartKind) (sh : U32) (g : List (Nat × List GlobalId))
    (b : Nat → List Byte) : (s.newPart rid k sh g b).clep = s.clep := by
  simp [State.newPart, apply_ite State.clep]

@[simp] theorem State.startRerank_clep (rid : Nat) (w : Bool) : (s.startRerank rid w).clep = s.clep := by
  unfold State.startRerank
  split
  · rfl
  · dsimp only
    split
    · rfl
    · rw [State.foldl_clep]
      intro t shard
      split <;> simp

@[simp] theorem State.startFetch_clep (rid : Nat) : (s.startFetch rid).clep = s.clep := by
  unfold State.startFetch
  split
  · rfl
  · dsimp only
    split
    · rfl
    · rw [State.foldl_clep, State.bump_clep]
      intro u g
      repeat' split
      all_goals simp

@[simp] theorem State.windowOpens_clep (rid : Nat) : (s.windowOpens rid).clep = s.clep := by
  unfold State.windowOpens
  dsimp only
  split <;> simp [apply_ite State.clep]

@[simp] theorem State.takeWindow_clep (rid n : Nat) : (s.takeWindow rid n).clep = s.clep := by
  simp [State.takeWindow, apply_ite State.clep]

@[simp] theorem State.dispatch_clep (rid : Nat) : (s.dispatch rid).clep = s.clep := by
  unfold State.dispatch
  repeat' split
  all_goals simp

@[simp] theorem State.startPhase_clep (rid : Nat) (p : Phase) : (s.startPhase rid p).clep = s.clep := by
  simp [State.startPhase]

@[simp] theorem State.startReq_clep (rid : Nat) : (s.startReq rid).clep = s.clep := by
  unfold State.startReq
  split <;> simp [apply_ite State.clep]

@[simp] theorem State.settleReq_clep (rid : Nat) (v : Verdict) : (s.settleReq rid v).clep = s.clep := by
  cases v <;> simp [State.settleReq]

@[simp] theorem State.resumeMap_clep (rid : Nat) : (s.resumeMap rid).clep = s.clep := by
  unfold State.resumeMap
  split <;> simp

@[simp] theorem State.resumeMaps_clep : s.resumeMaps.clep = s.clep := by simp [State.resumeMaps]

@[simp] theorem State.settleInstant_clep : s.settleInstant.clep = s.clep := by
  simp [State.settleInstant, apply_ite State.clep]

/-! ### What a slot does when it fires -/

@[simp] theorem State.clepEvent_clep (b : Nat) : (s.clepEvent b).clep = s.clep := rfl

@[simp] theorem State.noteFired_clep (n : Nat) (l : Bool) : (s.noteFired n l).clep = s.clep := by
  simp [State.noteFired, apply_ite State.clep]

@[simp] theorem State.shrinkCaches_clep : s.shrinkCaches.clep = s.clep := rfl

@[simp] theorem State.mapSwitch_clep (l : Bool) : (s.mapSwitch l).clep = s.clep := by
  unfold State.mapSwitch
  split
  · rfl
  next p _ =>
    extract_lets old new g since changed terrs grans lacks src s1 joined
    exact s1.shrinkCaches.foldl_clep _ (by intros; rfl) joined

@[simp] theorem State.takeOver_clep (p : Nat) (l : Bool) : (s.takeOver p l).clep = s.clep := by
  unfold State.takeOver
  dsimp only
  split <;> simp

@[simp] theorem State.abandonMigs_clep (p : Migration → Bool) : (s.abandonMigs p).clep = s.clep := by
  simp [State.abandonMigs, apply_ite State.clep]

@[simp] theorem State.writePage_clep (a l : Nat) : (s.writePage a l).clep = s.clep := rfl

@[simp] theorem State.writeNew_clep (i : Nat) (x y : Index) : (s.writeNew i x y).clep = s.clep :=
  s.foldl_clep (fun t l => t.writePage y.desc.slice l) (by intros; rfl) _

@[simp] theorem State.sealRuns_clep (c : Bool) (b k : Nat) (l : List Nat) : (s.sealRuns c b k l).clep = s.clep := by
  simp [State.sealRuns, apply_ite State.clep]

@[simp] theorem State.sealArray_clep (c : Bool) (i h : Nat) (a : BlkArr) : (s.sealArray c i h a).clep = s.clep :=
  s.sealRuns_clep _ _ _ _

@[simp] theorem State.sealNew_clep (c : Bool) (i : Nat) (x : Option Index) (y : Index) :
    (s.sealNew c i x y).clep = s.clep := by simp [State.sealNew]

@[simp] theorem State.placeArr_clep (i h : Nat) (a : BlkArr) (n : Nat) : (s.placeArr i h a n).clep = s.clep := rfl

@[simp] theorem State.placeNew_clep (i : Nat) (x : Option Index) (y : Index) : (s.placeNew i x y).clep = s.clep :=
  s.foldl_clep (fun t (p : Nat × BlkArr) => t.placeArr i p.1 p.2 (p.2.span y.desc.width)) (by intros; rfl) _

@[simp] theorem State.abandonGrown_clep (i : Nat) (x y : Index) : (s.abandonGrown i x y).clep = s.clep :=
  s.abandonMigs_clep _

@[simp] theorem State.replaceIndex_clep (i : Nat) (x : Index) : (s.replaceIndex i x).clep = s.clep := by
  unfold State.replaceIndex
  dsimp only
  split <;> simp

@[simp] theorem State.sealIndex_clep (i : Nat) : (s.sealIndex i).clep = s.clep := by
  unfold State.sealIndex
  split <;> simp [apply_ite State.clep]

@[simp] theorem State.beginSeal_clep (i : Nat) : (s.beginSeal i).clep = s.clep := by simp [State.beginSeal]

@[simp] theorem State.wake_clep (w : Waiter) : (s.wake w).clep = s.clep := by
  cases w <;> simp [State.wake]

@[simp] theorem State.tryPart_clep (p : Nat) : (s.tryPart p).clep = s.clep := by
  unfold State.tryPart
  repeat' split
  all_goals simp

@[simp] theorem State.wakeFlip_clep (i : Nat) : (s.wakeFlip i).clep = s.clep := by simp [State.wakeFlip]

end Frame

end Sys2Proof.Machine
end

section
/-! PROOFS. The receiver's operations one by one (R23, R25, R28 to R31, Table 2-3), and what SYNC_PULSE, SYNC_TIMEOUT and
REFERENCE_EDGE answer in each case of O31. -/

namespace Sys2Proof.Machine

/-! ### Pairs -/

@[simp] theorem Pair.get_set_same {α : Type} (p : Pair α) (b : Bool) (v : α) : (p.set b v).get b = v := by
  cases b <;> rfl

@[simp] theorem Pair.get_set_other {α : Type} (p : Pair α) (b : Bool) (v : α) : (p.set b v).get (!b) = p.get (!b) := by
  cases b <;> rfl

/-- Neither member of a pair of truth values holds: said of its members in either order. -/
theorem Pair.neither_iff (p : Pair Bool) (b : Bool) :
    (p.a = false ∧ p.b = false) ↔ (p.get b = false ∧ p.get (!b) = false) := by
  cases b
  · exact Iff.rfl
  · exact and_comm

/-- Setting a member to what it is changes nothing. -/
theorem Pair.set_of_get {α : Type} (p : Pair α) (b : Bool) {v : α} (h : p.get b = v) : p.set b v = p := by
  subst h
  cases b <;> rfl

variable {s t u : State}

/-! ### Only event slots of the receiver differ -/

/-- The receiver of `t` is that of `s` but for its event slots. -/
def State.SlotsOnly (s t : State) : Prop := t.clep = { s.clep with slots := t.clep.slots }

theorem State.SlotsOnly.eq (h : s.SlotsOnly t) : t.clep = { s.clep with slots := t.clep.slots } := h

theorem State.SlotsOnly.of_clep (h : t.clep = s.clep) : s.SlotsOnly t := by
  unfold State.SlotsOnly
  rw [h]

theorem State.SlotsOnly.trans (a : s.SlotsOnly t) (b : t.SlotsOnly u) : s.SlotsOnly u := by
  unfold State.SlotsOnly at *
  rw [b, a]

theorem State.SlotsOnly.setSlot (n : Nat) (v : EvSlot) : s.SlotsOnly (s.setSlot n v) := rfl

theorem State.SlotsOnly.foldl {α : Type} {f : State → α → State} (h : ∀ (t : State) (a : α), t.SlotsOnly (f t a))
    (l : List α) : s.SlotsOnly (l.foldl f s) := by
  induction l generalizing s with
  | nil => exact .of_clep rfl
  | cons a l ih => exact (h s a).trans ih

theorem State.SlotsOnly.count (h : s.SlotsOnly t) : t.clep.count = s.clep.count := by rw [h.eq]
theorem State.SlotsOnly.lock (h : s.SlotsOnly t) : t.clep.lock = s.clep.lock := by rw [h.eq]
theorem State.SlotsOnly.lossHeld (h : s.SlotsOnly t) : t.clep.lossHeld = s.clep.lossHeld := by rw [h.eq]
theorem State.SlotsOnly.syncOk (h : s.SlotsOnly t) : t.clep.syncOk = s.clep.syncOk := by rw [h.eq]
theorem State.SlotsOnly.disagree (h : s.SlotsOnly t) : t.clep.disagree = s.clep.disagree := by rw [h.eq]
theorem State.SlotsOnly.pendingWord (h : s.SlotsOnly t) : t.clep.pendingWord = s.clep.pendingWord := by rw [h.eq]

theorem State.doFlip_slotsOnly (s : State) (i : Nat) (w : Time) : s.SlotsOnly (s.doFlip i w) := by
  unfold State.doFlip
  split
  · exact .of_clep rfl
  next x0 _ =>
    extract_lets s1
    have h1 : s1.clep = s.clep := by
      unfold s1
      split
      · rfl
      · exact s.beginSeal_clep i
    split
    · exact .of_clep h1
    · extract_lets y s2
      have h2 : s1.SlotsOnly s2 := State.SlotsOnly.setSlot (s := s1.setIndex i y) _ _
      have h3 : (((s2.freeUnseen i).bump Reg.EPOCH_CNT_FLIPS 0 64 1).wakeFlip i).clep = s2.clep := by simp
      exact (State.SlotsOnly.of_clep h1).trans (h2.trans (.of_clep h3))

/-- What a slot that fires does to the receiver: of the receiver only event slots change. -/
theorem State.fireSlot_slotsOnly (s : State) (n : Nat) : s.SlotsOnly (s.fireSlot n) := by
  unfold State.fireSlot
  extract_lets e s1
  have h1 (v : EvSlot) : s.SlotsOnly (s1.setSlot n v) :=
    (State.SlotsOnly.of_clep (s.noteFired_clep n e.missed)).trans (State.SlotsOnly.setSlot n v)
  split
  · exact (h1 _).trans (.of_clep (State.mapSwitch_clep _ _))
  · exact (h1 _).trans (.of_clep (State.takeOver_clep _ _ _))
  · exact (h1 _).trans (State.doFlip_slotsOnly _ _ _)
  · exact h1 _
  · exact .of_clep rfl

theorem State.fireDue_slotsOnly (s : State) : s.SlotsOnly s.fireDue :=
  .trans (State.SlotsOnly.foldl (f := fun t (p : Nat × Nat) => t.fireSlot p.2) (fun t p => t.fireSlot_slotsOnly p.2) _)
    (.of_clep (State.settleInstant_clep _))

theorem State.markMissed_slotsOnly (s : State) (old : Option Nat) : s.SlotsOnly (s.markMissed old) := rfl

/-! ### What the receiver's operations touch beside it -/

/-- Of `s`, only the receiver, registers and Keeper's log may differ in `t`. -/
def State.RestKept (s t : State) : Prop := t = { s with clep := t.clep, regs := t.regs, keeper := t.keeper }

theorem State.RestKept.trans (a : s.RestKept t) (b : t.RestKept u) : s.RestKept u := by
  unfold State.RestKept at *
  exact b.trans (by rw [a])

/-- An entry of the log that is not critical changes Keeper and nothing else. -/
theorem State.logEvent_eq (s : State) (c n sev : Nat) (h : sev ≠ sevCritical) :
    s.logEvent c n sev = { s with keeper := (s.logEvent c n sev).keeper } := by
  unfold State.logEvent State.logRaw
  simp only [if_neg h]

@[simp] theorem State.logEvent_clep (s : State) (c n sev : Nat) : (s.logEvent c n sev).clep = s.clep := s.logRaw_clep _ _ _

theorem State.logEvent_onlyRegs (s : State) (c n sev : Nat) (h : sev ≠ sevCritical) (ks : List Nat) :
    OnlyRegs s (s.logEvent c n sev) ks := .of_regs (by rw [s.logEvent_eq c n sev h])

theorem State.logEvent_restKept (s : State) (c n sev : Nat) (h : sev ≠ sevCritical) : s.RestKept (s.logEvent c n sev) := by
  rw [s.logEvent_eq c n sev h]
  rfl

theorem State.clepEvent_onlyRegs (s : State) (b : Nat) : OnlyRegs s (s.clepEvent b) [Reg.CLEP_EVENT] :=
  OnlyRegs.setRegF _ _ _ _ List.mem_cons_self

theorem State.clepEvent_bit (s : State) (b : Nat) (h : b < 64) : bit ((s.clepEvent b).reg Reg.CLEP_EVENT) b = true :=
  s.bit_setRegF_one _ _ h

/-- An event leaves the bits that are set set. -/
theorem State.clepEvent_keeps_bit (s : State) (b i : Nat) (h : b < 64) (hi : bit (s.reg Reg.CLEP_EVENT) i = true) :
    bit ((s.clepEvent b).reg Reg.CLEP_EVENT) i = true := by
  by_cases e : i = b
  · exact e ▸ s.clepEvent_bit b h
  · obtain ⟨-, -, -, others⟩ := OnlyBitSet.of_setRegF (s := s) Reg.CLEP_EVENT b h
    exact (others i e).trans hi

/-! ### Transitions -/

theorem State.enterFree_restKept (s : State) : s.RestKept s.enterFree :=
  State.RestKept.trans (t := (s.withClep _).clepEvent 4) rfl (State.logEvent_restKept _ _ _ _ (by decide))

@[simp] theorem State.enterFree_clep (s : State) : s.enterFree.clep = { s.clep with
    lock := .free
    lossHeld := s.clep.lossHeld || s.clep.lock == .locked
    lockRun := 0
    disagree := 0
    slew := 0
    pendingWord := none } := State.logEvent_clep _ _ _ _

theorem State.enterFree_onlyRegs (s : State) : OnlyRegs s s.enterFree [Reg.CLEP_EVENT] :=
  OnlyRegs.trans (State.clepEvent_onlyRegs (s.withClep _) 4) (State.logEvent_onlyRegs _ _ _ _ (by decide) _)

theorem State.enterFree_keeps_bit (s : State) (i : Nat) (hi : bit (s.reg Reg.CLEP_EVENT) i = true) :
    bit (s.enterFree.reg Reg.CLEP_EVENT) i = true := by
  have he : s.enterFree.reg Reg.CLEP_EVENT = ((s.withClep s.enterFree.clep).clepEvent 4).reg Reg.CLEP_EVENT :=
    State.logEvent_onlyRegs ((s.withClep _).clepEvent 4) 7 1 sevError (by decide) [] _ (List.not_mem_nil)
  rw [he]
  exact State.clepEvent_keeps_bit (s.withClep s.enterFree.clep) 4 i (by decide) hi

/-- The slots that fire at the first drop of LOCKED leave the lock state and the rest of the receiver alone. -/
theorem State.enterLocked_slotsOnly (s : State) :
    (s.withClep { s.clep with lock := .locked, lossHeld := false }).SlotsOnly s.enterLocked :=
  (State.SlotsOnly.of_clep (by simp)).trans (State.fireDue_slotsOnly _)

@[simp] theorem State.enterLocked_lock (s : State) : s.enterLocked.clep.lock = .locked := s.enterLocked_slotsOnly.lock

@[simp] theorem State.enterLocked_count (s : State) : s.enterLocked.clep.count = s.clep.count := s.enterLocked_slotsOnly.count

@[simp] theorem State.enterLocked_lossHeld (s : State) : s.enterLocked.clep.lossHeld = false :=
  s.enterLocked_slotsOnly.lossHeld

theorem State.leaveHoldover_of_ne (h : s.clep.lock ≠ .holdover) : s.leaveHoldover = s := by
  unfold State.leaveHoldover
  exact if_pos (.inl h)

@[simp] theorem State.leaveHoldover_syncOk (s : State) : s.leaveHoldover.clep.syncOk = s.clep.syncOk := by
  unfold State.leaveHoldover
  extract_lets c
  split
  · rfl
  · split
    · rfl
    · split
      · exact (State.enterLocked_slotsOnly _).syncOk
      · rw [s.enterFree_clep]

/-! ### The count is loaded -/

theorem State.stepCount_restKept (s : State) (w : Time) : s.RestKept (s.stepCount w) := by
  unfold State.stepCount
  refine .trans (.trans (t := (s.withClep _).clepEvent 7) rfl (State.logEvent_restKept _ 7 3 sevInfo (by decide))) rfl

theorem State.stepCount_slotsOnly (s : State) (w : Time) : (s.withClep { s.clep with
    count := w
    countValid := true
    lastStep := w - s.now
    slew := 0
    lockRun := 0
    disagree := 0
    holdFrom := w }).SlotsOnly (s.stepCount w) :=
  (State.SlotsOnly.of_clep (by simp)).trans (State.markMissed_slotsOnly _ _)

theorem State.stepCount_reg (s : State) (w : Time) (k : Nat) : (s.stepCount w).reg k = (s.clepEvent 7).reg k :=
  State.logEvent_onlyRegs ((s.withClep _).clepEvent 7) 7 3 sevInfo (by decide) [] _ (List.not_mem_nil)

theorem State.loadCount_restKept (s : State) (w : Time) : s.RestKept (s.loadCount w) :=
  .trans (t := s.withClep { s.clep with lock := .acquire }) rfl (State.stepCount_restKept _ w)

/-- What the receiver holds once a word is loaded on entering ACQUIRE. -/
theorem State.loadCount_slotsOnly (s : State) (w : Time) : (s.withClep { s.clep with
    lock := .acquire
    count := w
    countValid := true
    lastStep := w - s.now
    slew := 0
    lockRun := 0
    disagree := 0
    holdFrom := w }).SlotsOnly (s.loadCount w) := State.stepCount_slotsOnly _ w

@[simp] theorem State.loadCount_lock (s : State) (w : Time) : (s.loadCount w).clep.lock = .acquire :=
  (s.loadCount_slotsOnly w).lock

theorem State.loadCount_reg (s : State) (w : Time) (k : Nat) : (s.loadCount w).reg k = (s.clepEvent 7).reg k :=
  State.stepCount_reg _ w k

/-! ### A pair is judged -/

@[simp] theorem State.syncLost_clep (s : State) (b : Bool) : (s.syncLost b).clep = { s.clep with
    syncOk := s.clep.syncOk.set b false, syncGood := s.clep.syncGood.set b 0 } := by
  unfold State.syncLost
  extract_lets c s1
  split <;> rfl

/-- The loss of a pair touches the receiver and registers only. -/
theorem State.syncLost_eq (s : State) (b : Bool) :
    s.syncLost b = { s with clep := (s.syncLost b).clep, regs := (s.syncLost b).regs } := by
  unfold State.syncLost
  extract_lets c s1
  split <;> rfl

theorem State.syncLost_onlyRegs (s : State) (b : Bool) : OnlyRegs s (s.syncLost b) [Reg.CLEP_EVENT] := by
  unfold State.syncLost
  extract_lets c s1
  split
  · exact s1.clepEvent_onlyRegs 2
  · exact .of_regs rfl

/-- The loss of the last pair is an event. -/
theorem State.syncLost_of_last (b : Bool) (h : s.clep.syncOk.get b = true) (o : s.clep.syncOk.get (!b) = false) :
    s.syncLost b = (s.withClep { s.clep with
      syncOk := s.clep.syncOk.set b false, syncGood := s.clep.syncGood.set b 0 }).clepEvent 2 := by
  unfold State.syncLost
  simp only [h, o, Bool.not_false, Bool.and_self, if_true]

theorem State.syncLost_bit_of_last (b : Bool) (h : s.clep.syncOk.get b = true) (o : s.clep.syncOk.get (!b) = false) :
    bit ((s.syncLost b).reg Reg.CLEP_EVENT) 2 = true := by
  rw [State.syncLost_of_last b h o]
  exact State.clepEvent_bit _ 2 (by decide)

/-- The loss of a pair while the other is good, or of one that was lost before, is no event. -/
theorem State.syncLost_of_not_last (b : Bool) (h : s.clep.syncOk.get b = false ∨ s.clep.syncOk.get (!b) = true) :
    s.syncLost b = s.withClep { s.clep with
      syncOk := s.clep.syncOk.set b false, syncGood := s.clep.syncGood.set b 0 } := by
  unfold State.syncLost
  refine if_neg ?_
  rcases h with h | h <;> simp [h]

/-- Where a pulse lay of the count is kept for its pair. -/
def State.noteOffset (s : State) (b : Bool) : State :=
  s.withClep { s.clep with syncOff := s.clep.syncOff.set b (some (syncOffset s.now.toNat)) }

@[simp] theorem State.noteOffset_clep (s : State) (b : Bool) : (s.noteOffset b).clep =
    { s.clep with syncOff := s.clep.syncOff.set b (some (syncOffset s.now.toNat)) } := rfl

/-- A pulse of a good pair that lies where the count says, or whose count is not valid, leaves the pair good. -/
theorem State.judgePulse_of_good (b : Bool) (h : s.clep.syncOk.get b = true)
    (o : s.clep.countValid = false ∨ (syncOffset s.now.toNat).natAbs ≤ 1) : s.judgePulse b = s.noteOffset b := by
  unfold State.judgePulse
  extract_lets c off timely s1
  rw [if_neg, if_pos h]
  · rfl
  · rcases o with o | o
    · simp [c, o]
    · simp [off, Nat.not_lt.mpr o]

/-- A pulse more than 1 drop off loses its pair. -/
theorem State.judgePulse_of_far (b : Bool) (v : s.clep.countValid = true) (o : 1 < (syncOffset s.now.toNat).natAbs) :
    s.judgePulse b = (s.noteOffset b).syncLost b := by
  unfold State.judgePulse
  extract_lets c off timely s1
  exact if_pos (by simp [c, off, v, o])

/-- A pulse of a lost pair changes the judgement of that pair, and nothing else. -/
theorem State.judgePulse_of_lost (b : Bool) (h : s.clep.syncOk.get b = false) : ∃ c v g, s.judgePulse b = s.withClep c ∧
    c = { (s.noteOffset b).clep with syncOk := s.clep.syncOk.set b v, syncGood := g } := by
  unfold State.judgePulse
  extract_lets c off timely s1 n
  split
  · exact ⟨_, false, _, s1.syncLost_of_not_last b (.inl h), rfl⟩
  · rw [if_neg (by simp [c, h])]
    split
    · exact ⟨_, true, _, rfl, rfl⟩
    · exact ⟨_, false, c.syncGood.set b n, rfl, by rw [Pair.set_of_get _ b h]; rfl⟩

@[simp] theorem State.judgePulse_lock (s : State) (b : Bool) : (s.judgePulse b).clep.lock = s.clep.lock := by
  unfold State.judgePulse
  extract_lets c off timely s1 n
  split
  · rw [State.syncLost_clep]
    rfl
  · split
    · rfl
    · split <;> rfl

/-! ### A count word meets its pulse -/

/-- A word that is loaded out of FREE (R30). -/
theorem State.takeWord_of_free (w : Time) (l : s.clep.lock = .free) (en : bit (s.reg Reg.CLEP_CTRL) 7 = true)
    (r : s.clep.refOk.get s.clep.useB = true) : s.takeWord w = s.loadCount w := by
  unfold State.takeWord
  simp only [l, en, r, Bool.and_self, if_true]

/-- A word that disagrees is counted and is an event (R31). -/
def State.noteDisagree (s : State) : State :=
  ((s.withClep { s.clep with disagree := s.clep.disagree + 1 }).bumpSat Reg.CLEP_ERR_CNT 0 16 1).clepEvent 6

/-- The third word in a row that disagrees ends LOCKED. -/
theorem State.takeWord_of_differs (w : Time) (l : s.clep.lock = .locked) (d : w ≠ s.clep.count) :
    s.takeWord w = if 2 ≤ s.clep.disagree then s.noteDisagree.enterFree else s.noteDisagree := by
  unfold State.takeWord
  have third : 3 ≤ s.clep.disagree + 1 ∧ (s.clep.lock = .acquire ∨ s.clep.lock = .locked) ↔ 2 ≤ s.clep.disagree := by
    simp [l]
  rw [if_neg (by simp [l]), if_neg d]
  exact if_congr third rfl rfl

@[simp] theorem State.noteDisagree_clep (s : State) :
    s.noteDisagree.clep = { s.clep with disagree := s.clep.disagree + 1 } := rfl

theorem State.noteDisagree_restKept (s : State) : s.RestKept s.noteDisagree := rfl

theorem State.noteDisagree_bit (s : State) : bit (s.noteDisagree.reg Reg.CLEP_EVENT) 6 = true :=
  State.clepEvent_bit _ 6 (by decide)

theorem State.noteDisagree_counts (s : State) : CountedSat s s.noteDisagree Reg.CLEP_ERR_CNT 0 16 1 :=
  CountedSat.before _ _ _ _ (CountedSat.of_bumpSat (s := s.withClep _) Reg.CLEP_ERR_CNT 0 16 1 (by decide))
    ((State.clepEvent_onlyRegs _ 6).regF _ _ _ (by decide))

@[simp] theorem State.takeWord_syncOk (s : State) (w : Time) : (s.takeWord w).clep.syncOk = s.clep.syncOk := by
  unfold State.takeWord
  extract_lets c s1
  split
  · split
    · exact (State.stepCount_slotsOnly _ w).syncOk
    · rfl
  · split
    · rfl
    · split
      · rw [s1.enterFree_clep]
        rfl
      · rfl

/-- Does a pulse of pair `b` mark the count: is the pair good, and the one of the reference in use unless that one is lost (R28)? -/
def Clep.marks (c : Clep) (b : Bool) : Bool := c.syncOk.get b && (b == c.useB || !c.syncOk.get c.useB)

/-- The phase error of a pulse of the pair of the reference in use is kept. -/
def State.notePhase (s : State) (b : Bool) (phase : U16) : State :=
  if b = s.clep.useB then s.withClep { s.clep with phaseErr := phase } else s

theorem State.notePhase_of_used {b : Bool} (phase : U16) (u : s.clep.useB = b) :
    s.notePhase b phase = s.withClep { s.clep with phaseErr := phase } := if_pos u.symm

theorem State.notePhase_eq (s : State) (b : Bool) (phase : U16) :
    ∃ e, s.notePhase b phase = s.withClep { s.clep with phaseErr := e } := by
  unfold State.notePhase
  split
  · exact ⟨phase, rfl⟩
  · exact ⟨s.clep.phaseErr, rfl⟩

/-- A word leaves the place where it was pending, and `e` is the phase error that is kept. -/
def State.dropWord (s : State) (e : U16) : State := s.withClep { s.clep with phaseErr := e, pendingWord := none }

@[simp] theorem State.dropWord_clep (s : State) (e : U16) :
    (s.dropWord e).clep = { s.clep with phaseErr := e, pendingWord := none } := rfl

/-- The state, in which a pulse of pair `b` has been judged, once the pulse has met the word that is pending. -/
def State.meetWord (s : State) (b : Bool) (phase : U16) : State :=
  let n := s.notePhase b phase
  match s.clep.marks b, s.clep.pendingWord with
  | true, some w => (n.withClep { n.clep with pendingWord := none }).takeWord w
  | true, none => n
  | false, _ => if !s.clep.syncOk.a && !s.clep.syncOk.b then n.withClep { n.clep with pendingWord := none } else n

theorem Clep.marks_of_good {c : Clep} {b : Bool} (u : c.useB = b) (g : c.syncOk.get b = true) : c.marks b = true := by
  simp [Clep.marks, u, g]

theorem State.meetWord_of_pending {b : Bool} (phase : U16) {w : Time} (u : s.clep.useB = b)
    (g : s.clep.syncOk.get b = true) (p : s.clep.pendingWord = some w) :
    s.meetWord b phase = (s.dropWord phase).takeWord w := by
  unfold State.meetWord
  rw [Clep.marks_of_good u g, p, State.notePhase_of_used phase u]
  rfl

theorem State.meetWord_of_none {b : Bool} (phase : U16) (u : s.clep.useB = b)
    (g : s.clep.syncOk.get b = true) (p : s.clep.pendingWord = none) :
    s.meetWord b phase = s.withClep { s.clep with phaseErr := phase } := by
  unfold State.meetWord
  rw [Clep.marks_of_good u g, p, State.notePhase_of_used phase u]

/-- While neither pair is good, the word for the edge is dropped (R23, R28). -/
theorem State.meetWord_of_stale (b : Bool) (phase : U16) (g : s.clep.syncOk.get b = false)
    (o : s.clep.syncOk.get (!b) = false) : ∃ e, s.meetWord b phase = s.dropWord e := by
  obtain ⟨ha, hb⟩ := (Pair.neither_iff s.clep.syncOk b).mpr ⟨g, o⟩
  have m : s.clep.marks b = false := by simp [Clep.marks, g]
  obtain ⟨e, n⟩ := s.notePhase_eq b phase
  unfold State.meetWord
  rw [m, ha, hb, n]
  exact ⟨e, rfl⟩

@[simp] theorem State.meetWord_syncOk (s : State) (b : Bool) (phase : U16) :
    (s.meetWord b phase).clep.syncOk = s.clep.syncOk := by
  obtain ⟨e, h⟩ := s.notePhase_eq b phase
  unfold State.meetWord
  rw [h]
  split
  · exact State.takeWord_syncOk _ _
  · rfl
  · split <;> rfl

/-! ### The pulse is judged for the lock -/

/-- The run of pulses that fit the count, after one with the phase error `phase` (Table 2-3). -/
def State.nextRun (s : State) (phase : U16) : Nat :=
  if phaseOk phase && decide ((syncOffset s.now.toNat).natAbs ≤ 1) then s.clep.lockRun + 1 else 0

theorem State.nextRun_of_near (phase : U16) (o : (syncOffset s.now.toNat).natAbs ≤ 1) :
    s.nextRun phase = if phaseOk phase then s.clep.lockRun + 1 else 0 := by
  simp [State.nextRun, o]

theorem State.nextRun_of_far (phase : U16) (o : 1 < (syncOffset s.now.toNat).natAbs) : s.nextRun phase = 0 := by
  simp [State.nextRun, Nat.not_le.mpr o]

/-- A run reaches 16 only by a pulse that fits and adds to 15. -/
theorem State.nextRun_lt (phase : U16) (h : s.clep.lockRun < 15 ∨ phaseOk phase = false) : s.nextRun phase < 16 := by
  unfold State.nextRun
  rcases h with h | h
  · split <;> omega
  · simp [h]

/-- The run of pulses is `n` long. -/
def State.withRun (s : State) (n : Nat) : State := s.withClep { s.clep with lockRun := n }

@[simp] theorem State.withRun_clep (s : State) (n : Nat) : (s.withRun n).clep = { s.clep with lockRun := n } := rfl

theorem State.lockPulse_of_ne (phase : U16) (l : s.clep.lock ≠ .acquire) : s.lockPulse phase = s := by
  unfold State.lockPulse
  exact if_pos l

/-- The sixteenth pulse in a row that fits the count locks it. -/
theorem State.lockPulse_of_acquire (phase : U16) (l : s.clep.lock = .acquire) : s.lockPulse phase =
    if 16 ≤ s.nextRun phase then (s.withRun (s.nextRun phase)).enterLocked else s.withRun (s.nextRun phase) := by
  unfold State.lockPulse
  exact if_neg (not_not.mpr l)

@[simp] theorem State.lockPulse_syncOk (s : State) (phase : U16) : (s.lockPulse phase).clep.syncOk = s.clep.syncOk := by
  by_cases l : s.clep.lock = .acquire
  · rw [State.lockPulse_of_acquire phase l]
    split
    · exact (State.enterLocked_slotsOnly _).syncOk
    · rfl
  · rw [State.lockPulse_of_ne phase l]

theorem State.lockPulse_lock_ne (phase : U16) (l : s.clep.lock = .acquire) :
    (s.lockPulse phase).clep.lock ≠ .holdover := by
  rw [State.lockPulse_of_acquire phase l]
  split
  · rw [State.enterLocked_lock]
    decide
  · exact fun h => Lock.noConfusion (l.symm.trans h)

/-! ### SYNC_PULSE -/

/-- The state once a pulse has been judged, has met the word that is pending, and has been judged for the lock. -/
def State.pulseMet (s : State) (b : Bool) (phase : U16) : State :=
  let s1 := s.judgePulse b
  if s1.clep.lock == .acquire && (s.clep.lockPair b || s1.clep.lockPair b) then (s1.meetWord b phase).lockPulse phase
  else s1.meetWord b phase

theorem exec_syncPulse (b : Bool) (phase : U16) (i : s.clep.internal = false) :
    exec (.syncPulse b phase) s = .next (s.pulseMet b phase).leaveHoldover := by
  show execSyncPulse b phase s = _
  unfold execSyncPulse
  rw [if_neg (by simp [i])]
  rfl

/-- A pulse is judged for the lock in ACQUIRE only. -/
theorem State.pulseMet_cases (s : State) (b : Bool) (phase : U16) :
    s.pulseMet b phase = (s.judgePulse b).meetWord b phase ∨
    (s.clep.lock = .acquire ∧ s.pulseMet b phase = ((s.judgePulse b).meetWord b phase).lockPulse phase) := by
  unfold State.pulseMet
  extract_lets s1
  split
  next j =>
    obtain ⟨a, -⟩ := Bool.and_eq_true_iff.mp j
    exact .inr ⟨by simpa [s1] using a, rfl⟩
  next => exact .inl rfl

theorem State.pulseMet_of_ne (b : Bool) (phase : U16) (l : s.clep.lock ≠ .acquire) :
    s.pulseMet b phase = (s.judgePulse b).meetWord b phase :=
  (s.pulseMet_cases b phase).resolve_right (fun h => l h.1)

/-- In ACQUIRE the pulse of the pair of the reference in use is judged for the lock. -/
theorem State.pulseMet_of_acquire {b : Bool} (phase : U16) (l : s.clep.lock = .acquire) (p : s.clep.lockPair b = true) :
    s.pulseMet b phase = ((s.judgePulse b).meetWord b phase).lockPulse phase := by
  unfold State.pulseMet
  exact if_pos (by simp [l, p])

@[simp] theorem State.pulseMet_syncOk (s : State) (b : Bool) (phase : U16) :
    (s.pulseMet b phase).clep.syncOk = (s.judgePulse b).clep.syncOk := by
  rcases s.pulseMet_cases b phase with e | ⟨-, e⟩
  · rw [e, State.meetWord_syncOk]
  · rw [e, State.lockPulse_syncOk, State.meetWord_syncOk]

/-! ### What a pulse answers -/

/-- A word that is pending is loaded out of FREE by the pulse that marks its count. -/
theorem exec_syncPulse_of_free {b : Bool} (phase : U16) {w : Time} (i : s.clep.internal = false) (l : s.clep.lock = .free)
    (v : s.clep.countValid = false) (u : s.clep.useB = b) (g : s.clep.syncOk.get b = true)
    (r : s.clep.refOk.get b = true) (en : bit (s.reg Reg.CLEP_CTRL) 7 = true) (p : s.clep.pendingWord = some w) :
    exec (.syncPulse b phase) s = .next (((s.noteOffset b).dropWord phase).loadCount w) := by
  rw [exec_syncPulse b phase i, State.pulseMet_of_ne b phase (by simp [l]), State.judgePulse_of_good b g (.inl v),
    State.meetWord_of_pending (s := s.noteOffset b) phase u g p,
    State.takeWord_of_free (s := (s.noteOffset b).dropWord phase) w l en (u.symm ▸ r), State.leaveHoldover_of_ne]
  simp

/-- A word that is pending is compared in LOCKED. -/
theorem exec_syncPulse_of_locked {b : Bool} (phase : U16) {w : Time} (i : s.clep.internal = false)
    (l : s.clep.lock = .locked) (u : s.clep.useB = b) (g : s.clep.syncOk.get b = true)
    (o : (syncOffset s.now.toNat).natAbs ≤ 1) (p : s.clep.pendingWord = some w) (d : w ≠ s.clep.count) :
    ∃ v : State, v = (s.noteOffset b).dropWord phase ∧ exec (.syncPulse b phase) s =
      .next (if 2 ≤ s.clep.disagree then v.noteDisagree.enterFree else v.noteDisagree) := by
  refine ⟨_, rfl, ?_⟩
  rw [exec_syncPulse b phase i, State.pulseMet_of_ne b phase (by simp [l]), State.judgePulse_of_good b g (.inr o),
    State.meetWord_of_pending (s := s.noteOffset b) phase u g p,
    State.takeWord_of_differs (s := (s.noteOffset b).dropWord phase) w l d, State.leaveHoldover_of_ne]
  · rfl
  · split
    · simp
    · exact fun h => Lock.noConfusion (l.symm.trans h)

/-- Without a word that is pending, a pulse in ACQUIRE is judged for the lock. -/
theorem exec_syncPulse_of_acquire {b : Bool} (phase : U16) (i : s.clep.internal = false)
    (l : s.clep.lock = .acquire) (u : s.clep.useB = b) (g : s.clep.syncOk.get b = true)
    (o : (syncOffset s.now.toNat).natAbs ≤ 1) (p : s.clep.pendingWord = none) :
    ∃ v : State, v = (s.noteOffset b).withClep { (s.noteOffset b).clep with phaseErr := phase } ∧
      exec (.syncPulse b phase) s = .next (v.lockPulse phase) := by
  have pair : s.clep.lockPair b = true := by simp [Clep.lockPair, u, g]
  refine ⟨_, rfl, ?_⟩
  rw [exec_syncPulse b phase i, State.pulseMet_of_acquire phase l pair, State.judgePulse_of_good b g (.inr o),
    State.meetWord_of_none (s := s.noteOffset b) phase u g p, State.leaveHoldover_of_ne]
  exact State.lockPulse_lock_ne phase l

/-- A pulse that leaves both pairs lost drops the word for its edge. In ACQUIRE it may be the one that locks the count. -/
theorem exec_syncPulse_of_stale (b : Bool) (phase : U16) (i : s.clep.internal = false) (l : s.clep.lock ≠ .holdover)
    (g : (s.judgePulse b).clep.syncOk.get b = false) (o : (s.judgePulse b).clep.syncOk.get (!b) = false) :
    ∃ e n, exec (.syncPulse b phase) s = .next (((s.judgePulse b).dropWord e).withRun n) ∨
      (s.clep.lock = .acquire ∧ 16 ≤ (s.judgePulse b).nextRun phase ∧
        exec (.syncPulse b phase) s = .next (((s.judgePulse b).dropWord e).withRun n).enterLocked) := by
  obtain ⟨e, m⟩ := State.meetWord_of_stale b phase g o
  rw [exec_syncPulse b phase i]
  rcases s.pulseMet_cases b phase with h | ⟨a, h⟩
  · refine ⟨e, (s.judgePulse b).clep.lockRun, .inl ?_⟩
    rw [h, m, State.leaveHoldover_of_ne (s := (s.judgePulse b).dropWord e) ((s.judgePulse_lock b).trans_ne l)]
    rfl
  · refine ⟨e, (s.judgePulse b).nextRun phase, ?_⟩
    have al : ((s.judgePulse b).dropWord e).clep.lock = .acquire := (s.judgePulse_lock b).trans a
    rw [h, m, State.leaveHoldover_of_ne (State.lockPulse_lock_ne phase al), State.lockPulse_of_acquire phase al]
    split
    next full => exact .inr ⟨a, full, rfl⟩
    next => exact .inl rfl

/-! ### SYNC_TIMEOUT and REFERENCE_EDGE -/

theorem exec_syncTimeout (b : Bool) (i : s.clep.internal = false) : exec (.syncTimeout b) s =
    .next ((s.syncLost b).withClep { (s.syncLost b).clep with syncOff := (s.syncLost b).clep.syncOff.set b none }) := by
  show execSyncTimeout b s = _
  unfold execSyncTimeout
  exact if_neg (by simp [i])

theorem exec_referenceEdge (s : State) : exec .referenceEdge s = .next ((s.withClep s.clep.edge).markMissed none) := rfl

@[simp] theorem Clep.edge_lock (c : Clep) : c.edge.lock = c.lock := by
  unfold Clep.edge
  extract_lets c1
  repeat' split
  all_goals rfl

theorem Clep.edge_count_of_no_slew {c : Clep} (h : c.slew = 0) : c.edge.count = c.count + 1 := by
  unfold Clep.edge
  rw [if_pos h]

/-! ### The cases of a pulse, and the loss of a pair -/

/-- The pulse that marks the count of a pending word loads it out of FREE. -/
theorem syncPulse_loads_word (b : Bool) (phase : U16) (w : Time) (s : State) (i : s.clep.internal = false)
    (l : s.clep.lock = .free) (v : s.clep.countValid = false) (u : s.clep.useB = b) (g : s.clep.syncOk.get b = true)
    (r : s.clep.refOk.get b = true) (en : bit (s.reg Reg.CLEP_CTRL) 7 = true) (p : s.clep.pendingWord = some w) :
    Completes (.syncPulse b phase) s (fun t => t = { s with clep := t.clep, regs := t.regs, keeper := t.keeper } ∧
      t.clep.count = w ∧ t.clep.lock = .acquire ∧ t.clep.countValid = true ∧ t.clep.lastStep = w - s.clep.count ∧
      t.clep.pendingWord = none ∧ t.clep.phaseErr = phase ∧ OnlyRegs s t [Reg.CLEP_EVENT] ∧
      bit (t.reg Reg.CLEP_EVENT) 7 = true) := by
  refine ⟨_, exec_syncPulse_of_free phase i l v u g r en p, ?_⟩
  have h := ((s.noteOffset b).dropWord phase).loadCount_slotsOnly w
  refine ⟨.trans rfl (State.loadCount_restKept _ w), h.count, h.lock, by rw [h.eq]; rfl, by rw [h.eq]; rfl, h.pendingWord,
    by rw [h.eq]; rfl, fun k hk => ?_, ?_⟩
  · exact (State.loadCount_reg _ w k).trans (State.clepEvent_onlyRegs _ 7 k hk)
  · rw [State.loadCount_reg]
    exact State.clepEvent_bit _ 7 (by decide)

/-- In LOCKED that pulse compares the word, and a third disagreement in a row goes to FREE. -/
theorem syncPulse_compares_word (b : Bool) (phase : U16) (w : Time) (s : State) (i : s.clep.internal = false)
    (l : s.clep.lock = .locked) (u : s.clep.useB = b) (g : s.clep.syncOk.get b = true)
    (o : (syncOffset s.now.toNat).natAbs ≤ 1) (p : s.clep.pendingWord = some w) (d : w ≠ s.clep.count) :
    Completes (.syncPulse b phase) s (fun t => t = { s with clep := t.clep, regs := t.regs, keeper := t.keeper } ∧
      t.clep.count = s.clep.count ∧ bit (t.reg Reg.CLEP_EVENT) 6 = true ∧ CountedSat s t Reg.CLEP_ERR_CNT 0 16 1 ∧
      (s.clep.disagree < 2 → t.clep.lock = .locked ∧ t.clep.disagree = s.clep.disagree + 1) ∧
      (2 ≤ s.clep.disagree → t.clep.lock = .free)) := by
  obtain ⟨v, hv, e⟩ := exec_syncPulse_of_locked phase i l u g o p d
  have hk : s.RestKept v.noteDisagree := .trans (by rw [hv]; rfl) v.noteDisagree_restKept
  have hc : CountedSat s v.noteDisagree Reg.CLEP_ERR_CNT 0 16 1 :=
    CountedSat.after _ _ _ _ (by rw [hv]; rfl) v.noteDisagree_counts
  have hb := v.noteDisagree_bit
  refine ⟨_, e, ?_⟩
  split
  next third =>
    refine ⟨hk.trans v.noteDisagree.enterFree_restKept, ?_, v.noteDisagree.enterFree_keeps_bit 6 hb, ?_, ?_, ?_⟩
    · rw [State.enterFree_clep, State.noteDisagree_clep, hv]
      rfl
    · exact hc.before _ _ _ _ (v.noteDisagree.enterFree_onlyRegs.regF _ _ _ (by decide))
    · intro h
      omega
    · intro _
      rw [State.enterFree_clep]
  next =>
    refine ⟨hk, ?_, hb, hc, ?_, ?_⟩
    · rw [State.noteDisagree_clep, hv]
      rfl
    · intro _
      rw [State.noteDisagree_clep, hv]
      exact ⟨l, rfl⟩
    · intro h
      omega

/-- In ACQUIRE that pulse counts toward LOCKED. -/
theorem syncPulse_counts_toward_locked (b : Bool) (phase : U16) (s : State) (i : s.clep.internal = false)
    (l : s.clep.lock = .acquire) (u : s.clep.useB = b) (g : s.clep.syncOk.get b = true)
    (o : (syncOffset s.now.toNat).natAbs ≤ 1) (p : s.clep.pendingWord = none) :
    Completes (.syncPulse b phase) s (fun t => t.clep.count = s.clep.count ∧
      (phaseOk phase = false → t.clep.lock = .acquire ∧ t.clep.lockRun = 0) ∧
      (phaseOk phase = true → s.clep.lockRun < 15 → t.clep.lock = .acquire ∧ t.clep.lockRun = s.clep.lockRun + 1) ∧
      (phaseOk phase = true → 15 ≤ s.clep.lockRun → t.clep.lock = .locked ∧ t.clep.lossHeld = false)) := by
  obtain ⟨v, hv, e⟩ := exec_syncPulse_of_acquire phase i l u g o p
  have hc : v.clep.count = s.clep.count := by rw [hv]; rfl
  have hl : v.clep.lock = .acquire := by rw [hv]; exact l
  have run : v.nextRun phase = if phaseOk phase then s.clep.lockRun + 1 else 0 := by
    rw [hv]
    exact State.nextRun_of_near (s := State.withClep _ _) phase o
  refine ⟨_, e, ?_⟩
  rw [State.lockPulse_of_acquire phase hl]
  split
  next full =>
    have ok : phaseOk phase = true := by
      by_contra bad
      rw [run, if_neg bad] at full
      omega
    rw [run, if_pos ok] at full
    refine ⟨(State.enterLocked_count _).trans hc, ?_, ?_, fun _ _ => ?_⟩
    · simp [ok]
    · omega
    · exact ⟨State.enterLocked_lock _, State.enterLocked_lossHeld _⟩
  next short =>
    refine ⟨hc, ?_, ?_, ?_⟩
    · intro bad
      exact ⟨hl, run.trans (by simp [bad])⟩
    · intro ok _
      exact ⟨hl, run.trans (if_pos ok)⟩
    · intro ok h
      rw [run, if_pos ok] at short
      omega

/-- A pair without a pulse in time is lost, and the lock state stays. -/
theorem syncTimeout_loses_pair (b : Bool) (s : State) (i : s.clep.internal = false) :
    Completes (.syncTimeout b) s (fun t => t = { s with clep := t.clep, regs := t.regs } ∧ t.clep.syncOk.get b = false ∧
      t.clep.syncGood.get b = 0 ∧ t.clep.syncOff.get b = none ∧ t.clep.syncOk.get (!b) = s.clep.syncOk.get (!b) ∧
      t.clep.lock = s.clep.lock ∧ t.clep.count = s.clep.count ∧ OnlyRegs s t [Reg.CLEP_EVENT] ∧
      (s.clep.syncOk.get b = true → s.clep.syncOk.get (!b) = false → bit (t.reg Reg.CLEP_EVENT) 2 = true) ∧
      (s.clep.syncOk.get b = true → s.clep.syncOk.get (!b) = true → t.regs = s.regs)) := by
  refine ⟨_, exec_syncTimeout b i, ?_⟩
  rw [State.syncLost_clep]
  refine ⟨?_, Pair.get_set_same _ _ _, Pair.get_set_same _ _ _, Pair.get_set_same _ _ _, Pair.get_set_other _ _ _, rfl, rfl,
    (s.syncLost_onlyRegs b).trans (.of_regs rfl), State.syncLost_bit_of_last b, fun _ o => ?_⟩
  · rw [State.syncLost_eq]
    rfl
  · rw [State.syncLost_of_not_last b (.inr o)]
    rfl

/-- The last pair is lost by a pulse that is too far off, and the lock state stays. -/
theorem syncPulse_loses_last_pair (b : Bool) (phase : U16) (s : State) (i : s.clep.internal = false)
    (l : s.clep.lock ≠ .holdover) (v : s.clep.countValid = true) (far : 1 < (syncOffset s.now.toNat).natAbs)
    (h : s.clep.syncOk.get b = true) (o : s.clep.syncOk.get (!b) = false) :
    Completes (.syncPulse b phase) s (fun t => t = { s with clep := t.clep, regs := t.regs } ∧ t.clep.syncOk.get b = false ∧
      t.clep.lock = s.clep.lock ∧ t.clep.count = s.clep.count ∧ OnlyRegs s t [Reg.CLEP_EVENT] ∧
      bit (t.reg Reg.CLEP_EVENT) 2 = true) := by
  have j := State.judgePulse_of_far b v far
  have c := (s.noteOffset b).syncLost_clep b
  have lost : ((s.noteOffset b).syncLost b).clep.syncOk.get b = false := by
    rw [c]
    exact Pair.get_set_same _ _ _
  have other : ((s.noteOffset b).syncLost b).clep.syncOk.get (!b) = false := by
    rw [c]
    exact (Pair.get_set_other _ _ _).trans o
  have none : (s.judgePulse b).nextRun phase = 0 := State.nextRun_of_far phase (by
    unfold State.now
    rw [j, c]
    exact far)
  obtain ⟨e, n, x | ⟨-, full, -⟩⟩ := exec_syncPulse_of_stale b phase i l (j ▸ lost) (j ▸ other)
  · rw [j] at x
    refine ⟨_, x, ?_, lost, ?_, ?_, ?_, ?_⟩
    · rw [State.syncLost_eq]
      rfl
    · simp
    · simp
    · exact .trans (t := (s.noteOffset b).syncLost b) ((s.noteOffset b).syncLost_onlyRegs b) (.of_regs rfl)
    · exact State.syncLost_bit_of_last (s := s.noteOffset b) b h o
  · omega

/-- While both pairs are lost, edges are counted as always. -/
theorem referenceEdge_counts (s : State) : Completes .referenceEdge s (fun t => t.clep.count = s.clep.edge.count ∧
    t.clep.lock = s.clep.lock ∧ (s.clep.slew = 0 → t.clep.count = s.clep.count + 1)) :=
  ⟨_, exec_referenceEdge s, rfl, s.clep.edge_lock, Clep.edge_count_of_no_slew⟩

/-- While both pairs are lost no word is compared. -/
theorem syncPulse_while_lost (b : Bool) (phase : U16) (s : State) (i : s.clep.internal = false)
    (l : s.clep.lock ≠ .holdover) (g : s.clep.syncOk.get b = false) (o : s.clep.syncOk.get (!b) = false) :
    Completes (.syncPulse b phase) s (fun t => t.clep.syncOk.get b = false → t.clep.count = s.clep.count ∧
      t.clep.disagree = s.clep.disagree ∧ t.clep.pendingWord = none ∧
      ((s.clep.lock ≠ .acquire ∨ s.clep.lockRun < 15 ∨ phaseOk phase = false) →
        t = { s with clep := t.clep } ∧ t.clep.lock = s.clep.lock)) := by
  obtain ⟨c, v, k, j, hc⟩ := State.judgePulse_of_lost b g
  cases lost : (s.judgePulse b).clep.syncOk.get b
  · have run : (s.judgePulse b).nextRun phase = s.nextRun phase := by
      rw [j, hc]
      rfl
    obtain ⟨e, n, x | ⟨a, full, x⟩⟩ := exec_syncPulse_of_stale b phase i l lost
      (by rw [j, hc]; exact (Pair.get_set_other _ _ _).trans o)
    · refine ⟨_, x, fun _ => ?_⟩
      rw [j]
      exact ⟨by simp [hc], by simp [hc], rfl, fun _ => ⟨rfl, by simp [hc]⟩⟩
    · have locked := State.enterLocked_slotsOnly (((s.judgePulse b).dropWord e).withRun n)
      refine ⟨_, x, fun _ => ⟨locked.count.trans ?_, locked.disagree.trans ?_, locked.pendingWord, fun h => ?_⟩⟩
      · simp [j, hc]
      · simp [j, hc]
      · have short := State.nextRun_lt phase (h.resolve_left (not_not.mpr a))
        omega
  · refine ⟨_, exec_syncPulse b phase i, fun h => ?_⟩
    rw [State.leaveHoldover_syncOk, State.pulseMet_syncOk, lost] at h
    exact absurd h (by decide)

/-- Settles O31: what a pulse, a timeout and an edge answer, case by case. -/
theorem pulsesMarkTheCount : Obligations.PulsesMarkTheCount := by
  unfold Obligations.PulsesMarkTheCount
  refine ⟨syncPulse_loads_word, syncPulse_compares_word, syncPulse_counts_toward_locked, syncTimeout_loses_pair,
    syncPulse_loses_last_pair, fun b phase s i l ha hb => ⟨referenceEdge_counts s, ?_⟩⟩
  obtain ⟨g, o⟩ := (Pair.neither_iff s.clep.syncOk b).mp ⟨ha, hb⟩
  exact syncPulse_while_lost b phase s i l g o

end Sys2Proof.Machine
end

section
/-! SUPPORT. What answering a request leaves alone: pour programs and slices do not change, nothing leaves the node before the
response, and a completion changes a function and the requests only. -/

namespace Sys2Proof.Machine

section Answering

variable (s : State)

/-! ### Nothing leaves the node -/

/-- The pour programs, the slices and what has left the node. -/
def State.face (s : State) : Store ProgSlot × Slices × List Out := (s.progs, s.slices, s.out)

theorem State.face_eq_iff {s t : State} :
    t.face = s.face ↔ t.progs = s.progs ∧ t.slices = s.slices ∧ t.out = s.out := by
  simp only [State.face, Prod.mk.injEq]

/-- A fold of operations that leave the face alone leaves it alone. -/
theorem State.foldl_face {α : Type} (f : State → α → State) (h : ∀ t a, (f t a).face = t.face) (l : List α) :
    (l.foldl f s).face = s.face := by
  induction l generalizing s with
  | nil => rfl
  | cons a l ih => exact (ih (f s a)).trans (h s a)

@[simp] theorem State.bump_face (k l n v : Nat) : (s.bump k l n v).face = s.face := rfl
@[simp] theorem State.bumpSat_face (k l n v : Nat) : (s.bumpSat k l n v).face = s.face := rfl
@[simp] theorem State.setReq_face (rid : Nat) (r : Req) : (s.setReq rid r).face = s.face := rfl
@[simp] theorem State.setIndex_face (i : Nat) (x : Index) : (s.setIndex i x).face = s.face := rfl
@[simp] theorem State.keepOf_face (i : Nat) (x : Index) : (s.keepOf i x).face = s.face := rfl

@[simp] theorem State.dropReq_face (r : Option Nat) : (s.dropReq r).face = s.face := by
  cases r <;> rfl

/-! ### A request's work and window -/

@[simp] theorem State.moveRouter_face (u : Nat × Nat) : (s.moveRouter u).face = s.face := by
  unfold State.moveRouter
  split <;> rfl

@[simp] theorem State.settleMaps_face : s.settleMaps.face = s.face := by
  unfold State.settleMaps
  extract_lets go f s1
  exact s1.foldl_face _ State.moveRouter_face _

@[simp] theorem State.idleRills_face (rid : Nat) : (s.idleRills rid).face = s.face :=
  (State.settleMaps_face _).trans (State.face_eq_iff.mpr ⟨rfl, rfl, rfl⟩)

@[simp] theorem State.dropMsgs_face (p : UMsg → Bool) : (s.dropMsgs p).face = s.face := by
  unfold State.dropMsgs
  extract_lets gone src s1
  split
  · rfl
  · exact s1.foldl_face _ (by intros; rfl) _

@[simp] theorem State.freeWork_face (rid : Nat) : (s.freeWork rid).face = s.face := by
  unfold State.freeWork
  extract_lets s1 s2 wins reads
  have h2 : s2.face = s1.face := by
    unfold s2
    exact s1.foldl_face _ (by intros; rfl) _
  exact (State.dropMsgs_face _ _).trans (h2.trans (s.idleRills_face rid))

@[simp] theorem State.closeWindow_face (rid : Nat) : (s.closeWindow rid).face = s.face := by
  unfold State.closeWindow
  split
  · split <;> rfl
  · rfl

/-! ### What no epoch in use sees -/

@[simp] theorem State.readMapOf_face (n : Nat) : (s.readMapOf n).face = s.face := by
  unfold State.readMapOf State.readMap
  split <;> rfl

@[simp] theorem State.trim_face (n : Nat) : (s.trim n).face = s.face := by
  unfold State.trim
  split
  · rfl
  · split
    · rfl
    · split
      · exact State.readMapOf_face _ _
      · rfl

@[simp] theorem State.freePage_face (n : Nat) : (s.freePage n).face = s.face := s.trim_face n

@[simp] theorem State.swapIndex_face (i : Nat) (x : Index) : (s.swapIndex i x).face = s.face := by
  unfold State.swapIndex
  split
  · rfl
  · exact (State.keepOf_face _ _ _).trans ((State.foldl_face _ _ State.freePage_face _).trans (s.setIndex_face _ _))

@[simp] theorem State.freeUnseen_face (i : Nat) : (s.freeUnseen i).face = s.face := by
  unfold State.freeUnseen
  split
  · rfl
  · exact s.swapIndex_face _ _

/-! ### Messages -/

@[simp] theorem State.queueUnit_face (pt : Nat) (u : SUnit) : (s.queueUnit pt u).face = s.face := by
  unfold State.queueUnit
  extract_lets p
  split <;> rfl

@[simp] theorem State.routeMsg_face (m : Nat) : (s.routeMsg m).face = s.face := by
  unfold State.routeMsg
  split
  · rfl
  · split
    · rfl
    · exact State.foldl_face _ _ (fun t _ => t.queueUnit_face _ _) _

@[simp] theorem State.sendMsg_face (m : UMsg) : (s.sendMsg m).face = s.face := State.routeMsg_face _ _

/-! ### Completions -/

/-- `t` is `s` after writes to host memory and interrupts: more has left the node, and of the state only functions and the requests
held may differ. -/
def State.Written (s t : State) : Prop := ∃ r h more, t = { s with
  reqs := r
  host := h
  out := s.out ++ more }

variable {s} {t u : State}

theorem State.Written.of_host (r : Store Req) (h : Store HostFn) : s.Written { s with reqs := r, host := h } :=
  ⟨r, h, [], by rw [List.append_nil]⟩

theorem State.Written.refl : s.Written s := .of_host s.reqs s.host

theorem State.Written.trans (a : s.Written t) (b : t.Written u) : s.Written u := by
  obtain ⟨_, _, m, rfl⟩ := a
  obtain ⟨r, h, n, rfl⟩ := b
  exact ⟨r, h, m ++ n, by rw [List.append_assoc]⟩

theorem State.Written.emit (o : Out) : s.Written (s.emit o) := ⟨s.reqs, s.host, [o], rfl⟩

theorem State.Written.setQueue (f n : Nat) (q : Queue) : s.Written (s.setQueue f n q) := .of_host s.reqs _

theorem State.Written.dropReq (rid : Option Nat) : s.Written (s.dropReq rid) := by
  cases rid with
  | none => exact .refl
  | some r => exact .of_host _ s.host

theorem State.Written.sendVector (f v : Nat) : s.Written (s.sendVector f v) := by
  unfold State.sendVector
  extract_lets h m
  split
  · exact .of_host s.reqs _
  · exact .emit _

theorem State.Written.writeCq (f n : Nat) (o : Owed) : s.Written (s.writeCq f n o) := by
  unfold State.writeCq
  extract_lets q fits qst bytes n64 stat ent s1 s2 size ann due q1 s3
  have h1 : s.Written s1 := by
    unfold s1
    split
    · exact .refl
    · exact .emit _
  have h3 : s.Written s3 := ((h1.trans (.emit _)).trans (.setQueue f n q1)).trans (.dropReq o.rid)
  split
  · exact h3.trans (.sendVector f (n + 1))
  · exact h3

theorem State.Written.flushList (f n : Nat) (l : List Owed) : s.Written (s.flushList f n l) := by
  induction l generalizing s with
  | nil => exact .setQueue _ _ _
  | cons o l ih =>
    unfold State.flushList
    split
    · exact .setQueue _ _ _
    · exact (State.Written.writeCq f n o).trans ih

/-- A completion owed is written or waits, or is discarded, which HQ_CNT counts. -/
theorem State.owe_written (f n : Nat) (o : Owed) :
    s.Written (s.owe f n o) ∨ ∃ t, s.Written t ∧ s.owe f n o = t.discard f := by
  unfold State.owe
  extract_lets q
  split
  · exact .inl ((State.Written.setQueue f n _).trans (.flushList f n _))
  · exact .inr ⟨_, (State.Written.setQueue f n _).trans (.dropReq o.rid), rfl⟩

theorem State.Written.regs (h : s.Written t) : t.regs = s.regs := by
  obtain ⟨_, _, _, rfl⟩ := h
  rfl

theorem State.Written.indexes (h : s.Written t) : t.indexes = s.indexes := by
  obtain ⟨_, _, _, rfl⟩ := h
  rfl

theorem State.Written.nextRid (h : s.Written t) : t.nextRid = s.nextRid := by
  obtain ⟨_, _, _, rfl⟩ := h
  rfl

/-! ### A completion that belongs to no request -/

variable (s)

@[simp] theorem State.sendVector_reqs (f v : Nat) : (s.sendVector f v).reqs = s.reqs := by
  obtain ⟨h, o, e⟩ := s.sendVector_frame f v
  rw [e]

@[simp] theorem State.discard_reqs (f : Nat) : (s.discard f).reqs = s.reqs := State.bumpSat_reqs _ _ _ _ _

theorem State.writeCq_reqs (f n : Nat) (o : Owed) (free : o.rid = none) : (s.writeCq f n o).reqs = s.reqs := by
  unfold State.writeCq
  extract_lets q fits qst bytes n64 stat ent s1 s2 size ann due q1 s3
  have h1 : s1.reqs = s.reqs := by
    unfold s1
    split <;> rfl
  have h3 : s3.reqs = s.reqs := by
    unfold s3
    rw [free]
    exact h1
  split
  · exact (s3.sendVector_reqs _ _).trans h3
  · exact h3

theorem State.flushList_reqs (f n : Nat) (l : List Owed) (free : ∀ o ∈ l, o.rid = none) :
    (s.flushList f n l).reqs = s.reqs := by
  induction l generalizing s with
  | nil => rfl
  | cons o l ih =>
    obtain ⟨ho, hl⟩ := List.forall_mem_cons.mp free
    unfold State.flushList
    split
    · rfl
    · exact (ih _ hl).trans (s.writeCq_reqs f n o ho)

/-- On a queue that owes nothing, a completion that belongs to no request takes none out of the Reservoir. -/
theorem State.owe_reqs (f n : Nat) (o : Owed) (free : o.rid = none) (owed : (s.queue f n).owed = []) :
    (s.owe f n o).reqs = s.reqs := by
  unfold State.owe
  extract_lets q
  split
  · unfold State.flushCq
    rw [State.queue_setQueue_same]
    refine State.flushList_reqs _ f n _ ?_
    simp [q, owed, free]
  · rw [free]
    exact State.discard_reqs _ _

end Answering

end Sys2Proof.Machine
end

section
/-! PROOFS. The checks of Table 3-4 on the header itself, the response that a request failing a check is given (R55, R61), the answer
BUSY of a request that finds no room (R415, R475), and O12. -/

namespace Sys2Proof.Machine

variable {s t u : State}

/-! ### What leaves the node -/

/-- `more` has left the node; pour programs and slices stand. -/
def State.Emits (s t : State) (more : List Out) : Prop :=
  t.progs = s.progs ∧ t.slices = s.slices ∧ t.out = s.out ++ more

theorem State.Emits.of_face (e : t.face = s.face) : s.Emits t [] := by
  obtain ⟨p, l, o⟩ := State.face_eq_iff.mp e
  exact ⟨p, l, by rw [o, List.append_nil]⟩

theorem State.Emits.emit (o : Out) : s.Emits (s.emit o) [o] := ⟨rfl, rfl, rfl⟩

theorem State.Emits.trans {a b : List Out} (x : s.Emits t a) (y : t.Emits u b) : s.Emits u (a ++ b) := by
  obtain ⟨p, l, o⟩ := x
  obtain ⟨p', l', o'⟩ := y
  exact ⟨p'.trans p, l'.trans l, by rw [o', o, List.append_assoc]⟩

theorem State.Written.emits (w : s.Written t) : ∃ more, s.Emits t more := by
  obtain ⟨_, _, more, rfl⟩ := w
  exact ⟨more, rfl, rfl, rfl⟩

theorem State.owe_emits (f n : Nat) (o : Owed) : ∃ more, s.Emits (s.owe f n o) more := by
  obtain w | ⟨t, w, e⟩ := s.owe_written f n o
  · exact w.emits
  · obtain ⟨more, x⟩ := w.emits
    exact ⟨more ++ [], e ▸ x.trans (.of_face (State.bumpSat_face _ _ _ _ _))⟩

/-! ### Ending a request -/

/-- The response of a request that is answered leaves first. -/
theorem State.respond_emits {rid : Nat} {r : Req} (resp : Resp) (held : s.req? rid = some r) :
    ∃ rest, s.Emits (s.respond rid resp)
      (.response r.record.reqId (respBytes r.record.reqId r.record.slice r.record.attempt resp) :: rest) := by
  unfold State.respond
  split
  next absent => cases held.symm.trans absent
  next q found =>
    cases held.symm.trans found
    extract_lets s1 c bytes stopped s2 s2' s3
    have h2 : s2.face = s.face := by simp [s2, s1]
    have h2' : s2'.face = s.face := by
      unfold s2'
      split
      · exact (s2.freeUnseen_face _).trans h2
      · exact h2
    have h3 : s.Emits s3 [.response c.reqId bytes] := by
      refine (State.Emits.of_face ?_).trans (.emit _)
      split
      · exact h2'
      · simpa using h2'
    suffices later : ∃ rest, s3.Emits _ rest by
      obtain ⟨rest, x⟩ := later
      exact ⟨rest, h3.trans x⟩
    split
    · exact ⟨[], .of_face (s3.sendMsg_face _)⟩
    · split
      · exact ⟨[], .of_face ((State.bumpSat_face _ _ _ _ _).trans (s3.dropReq_face _))⟩
      · exact s3.owe_emits _ _ _

/-- A request not answered yet ends: its failure response leaves first. -/
theorem State.endNow_emits {rid st : Nat} {r : Req} (held : s.req? rid = some r) (unanswered : r.life ≠ .answered) :
    ∃ rest, s.Emits (s.endNow rid st) (.response r.record.reqId
      (respBytes r.record.reqId r.record.slice r.record.attempt (s.failResp r st)) :: rest) := by
  unfold State.endNow
  split
  next absent => cases held.symm.trans absent
  next q found =>
    cases held.symm.trans found
    rw [if_neg unanswered]
    extract_lets s1
    obtain ⟨g, e⟩ : ∃ g, s1 = { s with regs := g } := by
      unfold s1
      repeat' split
      all_goals exact ⟨_, rfl⟩
    rw [e]
    exact State.respond_emits _ held

/-! ### The checks of Table 3-4 -/

section Checks

variable {op : Nat} {h : ReqHdr} {p : List Byte} {src : Source} {recv : Nat}

/-- Step 1 (Table 3-4): PAYLOAD_LEN is what was received, a multiple of 8 and at most 256 MiB. -/
def lengthGood (h : ReqHdr) (recv : Nat) : Prop :=
  recv = 64 + h.payloadLen.toNat ∧ h.payloadLen.toNat % 8 = 0 ∧ h.payloadLen.toNat ≤ 0x10000000

theorem State.verdict_of_bad_length (bad : ¬ lengthGood h recv) : s.verdict op h p src recv = .fail 1 stBadLength := by
  unfold State.verdict
  refine if_pos ?_
  unfold lengthGood at bad
  omega

theorem State.verdict_of_bad_crc (len : lengthGood h recv) (bad : h.crc ≠ reqCrc op h p) :
    s.verdict op h p src recv = .fail 2 stBadDescriptor := by
  obtain ⟨a, b, c⟩ := len
  unfold State.verdict
  extract_lets l n wait
  rw [if_neg (by omega), if_pos bad]

theorem State.verdict_of_bad_version (len : lengthGood h recv) (crc : h.crc = reqCrc op h p) (bad : h.hdrVer ≠ 1) :
    s.verdict op h p src recv = .fail 3 stUnsupported := by
  obtain ⟨a, b, c⟩ := len
  unfold State.verdict
  extract_lets l n wait
  rw [if_neg (by omega), if_neg (not_not.mpr crc), if_pos bad]

/-- A request that runs passed steps 3, 4 and 6, waits for no map, and passes steps 8 to 13. -/
theorem State.verdict_run (run : s.verdict op h p src recv = .run) : h.hdrVer = 1 ∧ s.opOk op h src = true ∧
    (s.configured h.slice.toNat && srcMayUse src h.slice.toNat) = true ∧ s.verdictFrom8 op h p = .run := by
  unfold State.verdict at run
  simp only [ite_eq_iff, reduceCtorEq, and_false, false_or] at run
  obtain ⟨-, -, version, opcode, -, slice, current, -, rest⟩ := run
  have inForce : s.waitsMap h = none := by simpa using current
  rw [inForce] at slice
  exact ⟨not_not.mp version, by simpa using opcode, by simpa using slice, rest⟩

/-- A request that passes steps 8 to 13 comes before its DEADLINE, and within the range of step 12. -/
theorem State.verdictFrom8_run (run : s.verdictFrom8 op h p = .run) :
    s.now.toNat < h.deadline.toNat ∧ h.deadline.toNat ≤ s.now.toNat + 2 ^ 36 := by
  unfold State.verdictFrom8 at run
  simp only [ite_eq_iff, reduceCtorEq, and_false, false_or] at run
  obtain ⟨-, -, -, early, near, -⟩ := run
  exact ⟨Nat.lt_of_not_le early, Nat.le_of_not_lt near⟩

/-- The checks read neither the links nor the free values. -/
@[simp] theorem State.verdict_admitMsg (port : Nat) (a : U64) (msgId : Nat) (id : U64) (busy : Bool) :
    ((s.takeFree 32).2.admitMsg port a msgId id busy).verdict op h p src recv = s.verdict op h p src recv := rfl

/-- The checks do not read the host's queues. -/
@[simp] theorem State.verdict_inFlight (fn q : Nat) : (s.inFlight fn q).verdict op h p src recv = s.verdict op h p src recv :=
  rfl

end Checks

/-! ### What is offered -/

section Offered

variable (op : Nat) (h : ReqHdr) (p : List Byte) (recv : Nat)

theorem State.offer_port_room {port : Fin 8} {a : U64} (room : s.roomFor (s.admitPart h.slice.toNat (.port port a)) recv = true) :
    ∃ node, s.offer op h p (.port port a) recv = ((s.takeFree 32).2.admitMsg port a (s.takeFree 32).1.toNat h.reqId false).accept
      op h p (.port port a) recv node := by
  unfold State.offer
  extract_lets part ok
  rw [show ok = true from room]
  exact ⟨_, if_pos rfl⟩

theorem State.offer_port_busy {port : Fin 8} {a : U64} (full : s.roomFor (s.admitPart h.slice.toNat (.port port a)) recv = false) :
    s.offer op h p (.port port a) recv = (s.takeFree 32).2.admitMsg port a (s.takeFree 32).1.toNat h.reqId true := by
  unfold State.offer
  extract_lets part ok
  rw [show ok = false from full]
  exact if_neg Bool.false_ne_true

variable {fn : Fin 17} {q : Fin 16} {tag : U32} {addr : U64} {len : U32}

theorem State.offer_host_room (room : s.roomFor (s.admitPart h.slice.toNat (.host fn q tag addr len)) recv = true) :
    ∃ node, s.offer op h p (.host fn q tag addr len) recv =
      (s.inFlight fn q).accept op h p (.host fn q tag addr len) recv node := by
  unfold State.offer
  extract_lets part ok
  rw [show ok = true from room]
  exact ⟨_, if_pos rfl⟩

theorem State.offer_host_busy (full : s.roomFor (s.admitPart h.slice.toNat (.host fn q tag addr len)) recv = false) :
    s.offer op h p (.host fn q tag addr len) recv = s.hostBusy fn q tag addr len h := by
  unfold State.offer
  extract_lets part ok
  rw [show ok = false from full]
  exact if_neg Bool.false_ne_true

end Offered

/-! ### A request that fails a check -/

section Refused

variable {op n st : Nat} {h : ReqHdr} {p : List Byte} {src : Source} {recv : Nat}

/-- `t` is `s` after a request with header `h` has been refused with `st`: its response, with no payload and no count, leaves first,
and pour programs and slices stand. -/
def State.Refuses (s t : State) (h : ReqHdr) (st : Nat) : Prop := t.progs = s.progs ∧ t.slices = s.slices ∧
  ∃ (resp : Resp) (rest : List Out), t.out = s.out ++ Out.response h.reqId (respBytes h.reqId h.slice h.attempt resp) :: rest ∧
    resp.status = st ∧ resp.flags = 0 ∧ resp.payload = [] ∧ resp.count = 0 ∧ resp.reruns = 0

theorem State.Refuses.of_face (e : t.face = s.face) (x : t.Refuses u h st) : s.Refuses u h st := by
  obtain ⟨progs, slices, out⟩ := State.face_eq_iff.mp e
  unfold State.Refuses at *
  rwa [progs, slices, out] at x

@[simp] theorem State.reqClass_face (s : State) (op : Nat) (h : ReqHdr) (b : Bool) : (s.reqClass op h b).2.face = s.face := by
  unfold State.reqClass
  extract_lets c f
  split
  · rfl
  · split <;> rfl

theorem State.accept_refuses (node : Bool) (v : s.verdict op h p src recv = .fail n st) :
    s.Refuses (s.accept op h p src recv node) h st := by
  unfold State.accept
  extract_lets v' step c d trusted s1 toSource ret rid r hw s2
  have face : s2.face = s.face := by
    have h1 : s1.face = s.face := by
      unfold s1
      split
      · exact s.reqClass_face _ _ _
      · exact s.reqClass_face _ _ _
    exact h1
  have ends : s2.settleReq rid v' = s2.endNow rid st := by
    rw [show v' = .fail n st from v]
    rfl
  have held : s2.req? rid = some r := Store.find?_insert_same _ _ _
  have record : r.record = ret := rfl
  have asSent : ret.reqId = h.reqId ∧ ret.slice = h.slice ∧ ret.attempt = h.attempt := by
    unfold ret recordOf
    cases trusted <;> exact ⟨rfl, rfl, rfl⟩
  obtain ⟨id, slice, attempt⟩ := asSent
  obtain ⟨rest, x⟩ := State.endNow_emits (st := st) held (by simp [r])
  rw [record, id, slice, attempt] at x
  rw [ends]
  obtain ⟨progs, slices, out⟩ := (State.Emits.of_face face).trans x
  exact ⟨progs, slices, _, rest, out, rfl, rfl, rfl, rfl, rfl⟩

/-- Where there is room, a request that fails a check is refused, whichever way it came. -/
theorem State.offer_refuses (v : s.verdict op h p src recv = .fail n st)
    (room : s.roomFor (s.admitPart h.slice.toNat src) recv = true) : s.Refuses (s.offer op h p src recv) h st := by
  cases src with
  | port port a =>
    obtain ⟨node, e⟩ := State.offer_port_room op h p recv room
    rw [e]
    exact (State.accept_refuses node ((s.verdict_admitMsg _ _ _ _ _).trans v)).of_face (State.face_eq_iff.mpr ⟨rfl, rfl, rfl⟩)
  | host fn q tag addr len =>
    obtain ⟨node, e⟩ := State.offer_host_room op h p recv room
    rw [e]
    exact (State.accept_refuses node ((s.verdict_inFlight _ _).trans v)).of_face (State.face_eq_iff.mpr ⟨rfl, rfl, rfl⟩)

end Refused

/-! ### A request that finds no room -/

/-- A message that arrived on a port that is up is answered on it: one admission frame comes to be owed there (R415). -/
theorem State.admitMsg_of_up {port : Nat} (up : s.portUp port = true) (src : U64) (msgId : Nat) (id : U64) (busy : Bool) :
    ∃ l, s.admitMsg port src msgId id busy = { s with urdun := l } ∧ ∃ f : Frame,
      ((s.admitMsg port src msgId id busy).port port).admDue = (s.port port).admDue ++ [(s.tick, f)] ∧
      f.kind = 4 ∧ f.payload = leBytes 8 id.toNat ++ leBytes 4 msgId ++ leBytes 1 (b2n busy) ++ zeroBytes 3 := by
  unfold State.admitMsg
  extract_lets body f q s1
  rw [show q = port from if_pos up]
  exact ⟨_, rfl, f, by rw [State.port_setPort_same]; rfl, rfl, rfl⟩

/-- The verdict of an admission frame that answers BUSY, and the request that it answers (Table 15-9). -/
theorem admission_busy (id : U64) (msgId : Nat) :
    byteAt (leBytes 8 id.toNat ++ leBytes 4 msgId ++ leBytes 1 (b2n true) ++ zeroBytes 3) 12 = 1 ∧
    leAt (leBytes 8 id.toNat ++ leBytes 4 msgId ++ leBytes 1 (b2n true) ++ zeroBytes 3) 0 8 = id.toNat := by
  refine ⟨rfl, ?_⟩
  rw [List.append_assoc, List.append_assoc]
  exact leAt_leBytes 8 _ _ id.isLt

/-- A completion owed changes neither HQ_CNT.BUSY nor indexes nor the next number. -/
theorem State.owe_rest (s : State) (fn n : Nat) (o : Owed) : (s.owe fn n o).indexes = s.indexes ∧
    (s.owe fn n o).nextRid = s.nextRid ∧
    (s.owe fn n o).regF (instKey Reg.HQ_CNT fn) 0 32 = s.regF (instKey Reg.HQ_CNT fn) 0 32 := by
  have busy : ∀ {t}, s.Written t → t.regF (instKey Reg.HQ_CNT fn) 0 32 = s.regF (instKey Reg.HQ_CNT fn) 0 32 :=
    fun w => (OnlyRegs.of_regs w.regs (ks := [])).regF _ _ _ List.not_mem_nil
  obtain w | ⟨t, w, e⟩ := s.owe_written fn n o
  · exact ⟨w.indexes, w.nextRid, busy w⟩
  · rw [e]
    unfold State.discard State.bumpSat
    refine ⟨(State.setRegF_indexes _ _ _ _ _).trans w.indexes, (State.setRegF_nextRid _ _ _ _ _).trans w.nextRid, ?_⟩
    rw [State.regF_setRegF_apart _ _ _ _ _ _ _ (by omega) (by omega), busy w]

@[simp] theorem State.bump_queue (s : State) (k l n v f q : Nat) : (s.bump k l n v).queue f q = s.queue f q := by
  unfold State.queue State.fn
  rw [State.bump_host]

/-- BUSY on a host queue that owes nothing leaves no state in the Reservoir, and HQ_CNT.BUSY counts it (R475). -/
theorem State.hostBusy_leaves (fn q : Nat) (tag : U32) (addr : U64) (len : U32) (h : ReqHdr) (owed : (s.queue fn q).owed = []) :
    (s.hostBusy fn q tag addr len h).reqs = s.reqs ∧ (s.hostBusy fn q tag addr len h).nextRid = s.nextRid ∧
    (s.hostBusy fn q tag addr len h).indexes = s.indexes ∧
    Counted s (s.hostBusy fn q tag addr len h) (instKey Reg.HQ_CNT fn) 0 32 1 := by
  unfold State.hostBusy
  obtain ⟨indexes, rid, busy⟩ := (s.bump (instKey Reg.HQ_CNT fn) 0 32 1).owe_rest fn q
    ⟨none, tag, addr, len, 1, h.reqId, busyBytes h, 0⟩
  have reqs := (s.bump (instKey Reg.HQ_CNT fn) 0 32 1).owe_reqs fn q
    ⟨none, tag, addr, len, 1, h.reqId, busyBytes h, 0⟩ rfl ((s.bump_queue _ _ _ _ _ _).symm ▸ owed)
  exact ⟨reqs.trans (s.bump_reqs _ _ _ _), rid.trans (s.bump_nextRid _ _ _ _), indexes.trans (s.bump_indexes _ _ _ _),
    (Counted.of_bump _ _ _ _ (by omega)).before _ _ _ _ busy⟩

/-! ### The requests of the opcode table -/

/-- A command of Table 3-3 takes its request whole. -/
theorem exec_requestOf {i : Instr} {op : Nat} {src : Source} {h : ReqHdr} {p : List Byte}
    (req : requestOf i = some (op, src, h, p)) (s : State) : exec i s = s.request op src h p := by
  unfold requestOf at req
  split at req
  all_goals cases req
  all_goals rfl

/-- A request whose source is up is offered once what has come due before it has fired (R37). -/
theorem exec_offers {i : Instr} {op : Nat} {src : Source} {h : ReqHdr} {p : List Byte}
    (req : requestOf i = some (op, src, h, p)) {s : State} (up : s.fireDue.sourceUp src = true) :
    exec i s = .next (s.fireDue.offer op (fitParams h) p src (64 + p.length)) := by
  rw [exec_requestOf req]
  unfold State.request
  extract_lets s1
  rw [if_pos up]

/-- A byte behind a byte string's first part. -/
theorem byteAt_append_right (a b : List Byte) (i : Nat) (h : a.length ≤ i) : byteAt (a ++ b) i = byteAt b (i - a.length) := by
  unfold byteAt
  rw [List.getD_append_right _ _ _ _ h]

/-- HDR_VER stands at offset 9 of every response and reads 1 (Table 3-5). -/
theorem respBytes_hdrVer (id : U64) (slice attempt : Byte) (r : Resp) : byteAt (respBytes id slice attempt r) 9 = 1 := by
  unfold respBytes
  simp only [List.append_assoc]
  rw [byteAt_append_right _ _ _ (by simp), byteAt_append_right _ _ _ (by simp)]
  simp only [leBytes_length]
  rfl

/-- Settles O12: a refusal is the failure response of a request that Table 3-4 stops; without room nothing enters the Reservoir. -/
theorem refusalsAnswered : Obligations.RefusalsAnswered := by
  unfold Obligations.RefusalsAnswered
  refine ⟨?fails, ?header, ?portBusy, ?hostBusy, respBytes_hdrVer⟩
  case fails =>
    rintro i op src h0 _ p s0 _ n st req rfl rfl up fail room
    exact ⟨_, exec_offers req up, State.offer_refuses fail room⟩
  case header =>
    intro op src h p s
    refine ⟨fun bad => State.verdict_of_bad_length ?_, fun len aligned small => ⟨fun bad => ?_, fun crc bad => ?_⟩,
      fun run => ?_⟩
    · unfold lengthGood
      omega
    · exact State.verdict_of_bad_crc ⟨by omega, by omega, by omega⟩ bad
    · exact State.verdict_of_bad_version ⟨by omega, by omega, by omega⟩ crc bad
    · obtain ⟨version, opcode, slice, rest⟩ := State.verdict_run run
      obtain ⟨early, near⟩ := State.verdictFrom8_run rest
      obtain ⟨configured, mayUse⟩ := Bool.and_eq_true_iff.mp slice
      exact ⟨version, early, near, configured, mayUse, (Bool.and_eq_true_iff.mp opcode).1⟩
  case portBusy =>
    rintro i op port a h0 _ p s0 _ req rfl rfl up full
    refine ⟨_, exec_offers req up, ?_⟩
    rw [State.offer_port_busy op _ p _ full]
    obtain ⟨l, e, f, due, kind, body⟩ := State.admitMsg_of_up (s := (s0.fireDue.takeFree 32).2) up a
      (s0.fireDue.takeFree 32).1.toNat (fitParams h0).reqId true
    obtain ⟨verdict, id⟩ := admission_busy (fitParams h0).reqId (s0.fireDue.takeFree 32).1.toNat
    exact ⟨by rw [e]; rfl, f, due, kind, by rw [body, verdict], by rw [body, id]⟩
  case hostBusy =>
    rintro i op fn q tag addr len h0 _ p s0 _ req rfl rfl phase queue owed full
    refine ⟨_, exec_offers req (decide_eq_true ⟨phase, queue⟩), ?_⟩
    rw [State.offer_host_busy op _ p _ full]
    exact State.hostBusy_leaves _ _ _ _ _ _ owed

end Sys2Proof.Machine
end

section
/-! SUPPORT. What every operation of the node keeps: the commands that wait, the entries of the retirement record, the form of the
request and register tables, the blown fuses and the legality of the modes; and that only a few write the modes or the clock. One
relation between two states carries it, so each operation has one lemma, and a statement about every command reads off its part. -/

set_option Elab.async false

namespace Sys2Proof.Machine

/-! ### Tables -/

theorem Store.mem_keys_of_find? {α : Type} {st : Store α} {k : Nat} {v : α} (h : Store.find? st k = some v) : k ∈ Store.keys st := by
  induction st with
  | nil => cases h
  | cons p t ih =>
    unfold Store.find? at h
    split at h
    next e => exact e ▸ List.mem_cons_self
    next => exact List.mem_cons_of_mem _ (ih h)

theorem Store.keys_filter_subset {α : Type} {st : Store α} {p : Nat × α → Bool} {j : Nat} (h : j ∈ Store.keys (st.filter p)) :
    j ∈ Store.keys st :=
  (List.filter_sublist.map _).subset h

/-- A map of the entries that keeps their keys. -/
theorem Store.find?_map {α β : Type} (f : Nat × α → β) (st : Store α) (k : Nat) :
    Store.find? (st.map fun p => (p.1, f p)) k = (Store.find? st k).map fun v => f (k, v) := by
  induction st with
  | nil => rfl
  | cons p t ih =>
    rw [List.map_cons, Store.find?, Store.find?]
    split
    next e => rw [← e, Option.map_some]
    next => exact ih

/-- A filter keeps the canonical form of a table. -/
theorem Store.wf_filter {α : Type} {d : Nat → α} {st : Store α} (p : Nat × α → Bool) (w : Store.Wf d st) : Store.Wf d (st.filter p) :=
  ⟨w.1.sublist (List.filter_sublist.map _), fun q hq => w.2 q (List.mem_of_mem_filter hq)⟩

/-! ### The relation -/

/-- Which groups of state that few commands write may differ: the reset and Basin states (`modes`), the count and the lock state
(`clock`); whether a step of bring-up is being entered, so that PHASE may not agree with it yet (`limbo`); whether more may differ
than what the service of requests and parts writes (`wide`); and whether units may be charged and events logged (`logs`). -/
structure Reach where
  modes : Bool
  clock : Bool
  limbo : Bool
  wide : Bool
  logs : Bool

/-- The registers that the service of requests and parts writes, one copy standing for all. -/
def servedRegs : List Nat := [Reg.KPR_LOG, Reg.HQ_CNT, Reg.GSJ_CNT_WINDOWS, Reg.GSJ_CNT_FETCHED, Reg.GSJ_CNT_POSITIONS, Reg.WEIR_CNT_DUP,
  Reg.WEIR_CNT_TIE, Reg.WEIR_ERR, Reg.CASC_ERR, Reg.EPOCH_CNT_STALE, Reg.EPOCH_CNT_WAITS, Reg.MEM_CNT_TIER, Reg.MEM_CNT_MISS, Reg.MEM_CNT_HIT, Reg.SLC_CNT,
  Reg.URD_CNT_DROP, Reg.RST_CNT_FAULTS, Reg.CIST_MAPCACHE_STATUS]

/-- A register that the service of requests and parts writes. -/
def ServedReg (k : Nat) : Bool := servedRegs.contains (k % 524288)

/-- The registers that a charge of a unit, an error of a lane or column, or a critical log entry writes. -/
def FaultReg (k : Nat) : Bool := [Reg.KPR_LOG, Reg.RST_CNT_FAULTS, Reg.WEIR_ERR, Reg.CASC_ERR].contains (k % 524288)

/-- An index with versions and arrays gone that no epoch sees. -/
def Pruned (x y : Index) : Prop := y = { x with
  slots := y.slots, dir := y.dir, centF := y.centF, centQ := y.centQ, graph := y.graph, tomb := y.tomb, arrs := y.arrs
  rows := y.rows, rowLoc := y.rowLoc, ownVer := y.ownVer, pages := y.pages }

/-- A queue pair with its completions moved on. -/
def QueueServed (a b : Queue) : Prop := b = { a with
  cqTail := b.cqTail, cqCount := b.cqCount, cqPhase := b.cqPhase, unannounced := b.unannounced, annFrom := b.annFrom, owed := b.owed
  inflight := b.inflight }

/-- What the service of requests and parts leaves of a node: the configuration, the clock, the modes, the staged values, the slices, the
programs and the numbers given; Keeper but for its log; each index but for what no epoch sees; each queue pair but for its
completions; and what has left the node. -/
structure Serves (s t : State) : Prop where
  rest : t = { s with
    free := t.free, out := t.out, regs := t.regs, reqs := t.reqs, partsOut := t.partsOut, partsIn := t.partsIn
    nextToken := t.nextToken, windows := t.windows, indexes := t.indexes, host := t.host, urdun := t.urdun, points := t.points
    fabric := t.fabric, hbm := t.hbm, mem := t.mem, cist := t.cist, record := t.record, keeper := t.keeper }
  keeper : t.keeper = { s.keeper with log := t.keeper.log, buffered := t.keeper.buffered, nextSeq := t.keeper.nextSeq }
  regs : ∀ k, ¬ ServedReg k → t.reg k = s.reg k
  queues : ∀ f q, QueueServed (s.queue f q) (t.queue f q)
  indexes : ∀ i, (s.index? i = none → t.index? i = none) ∧
    ∀ x, s.index? i = some x → ∃ y, t.index? i = some y ∧ Pruned x y
  sent : ∃ more, t.out = s.out ++ more
  bridges : t.fabric.bridges = s.fabric.bridges

/-- No unit is charged: Keeper, the record, what the stacks hold, the pages lost and the registers of faults stand. -/
structure Uncharged (s t : State) : Prop where
  record : t.record = s.record
  keeper : t.keeper = s.keeper
  dram : t.hbm.dram = s.hbm.dram
  lost : t.mem.lost = s.mem.lost
  faults : ∀ k, FaultReg k → t.reg k = s.reg k

/-- Requests are held under distinct numbers below the next one. -/
def State.Numbered (s : State) : Prop := Store.Sorted s.reqs ∧ ∀ k ∈ Store.keys s.reqs, k < s.nextRid

/-- A request that is held has a number already given. -/
theorem State.Numbered.below {s : State} (n : s.Numbered) {rid : Nat} {r : Req} (held : s.req? rid = some r) : rid < s.nextRid :=
  n.2 rid (Store.mem_keys_of_find? held)

/-- What is blown in `s` is blown in `t` (R487, R537). -/
structure FusesStay (s t : State) : Prop where
  svn : s.keeper.svnFused ≤ t.keeper.svnFused
  revoked : ∀ n, s.keeper.revoked.testBit n = true → t.keeper.revoked.testBit n = true
  pwrok : s.rst.pwrokBlown = true → t.rst.pwrokBlown = true ∧ t.rst.pwrokLevel = s.rst.pwrokLevel
  resetn : s.rst.resetnBlown = true → t.rst.resetnBlown = true ∧ t.rst.resetnLevel = s.rst.resetnLevel

/-- What every operation of the node keeps on the way from `s` to `t`, and what only those with a wider reach change. -/
structure Keeps (φ : Reach) (s t : State) : Prop where
  pending : t.pending = s.pending
  rids : s.nextRid ≤ t.nextRid
  record : ∃ more, t.record = s.record ++ more
  numbered : s.Numbered → t.Numbered
  canonical : Store.Wf resetReg s.regs → Store.Wf resetReg t.regs
  fuses : FusesStay s t
  phases : φ.limbo = false → s.rst.Legal → t.rst.Legal
  legal : (∀ b, (s.basin b).Legal) → ∀ b, (t.basin b).Legal
  modes : φ.modes = false → t.rst = s.rst ∧ t.basins = s.basins
  clock : φ.clock = false → t.clep.count = s.clep.count ∧ t.clep.lock = s.clep.lock
  served : φ.wide = false → Serves s t
  quiet : φ.logs = false → Uncharged s t

theorem FusesStay.of_eq {s t : State} (k : t.keeper = s.keeper) (r : t.rst = s.rst) : FusesStay s t := by
  refine ⟨?_, ?_, ?_, ?_⟩
  all_goals simp +contextual [k, r]

theorem FusesStay.trans {s t u : State} (a : FusesStay s t) (b : FusesStay t u) : FusesStay s u where
  svn := a.svn.trans b.svn
  revoked n h := b.revoked n (a.revoked n h)
  pwrok h := ⟨(b.pwrok (a.pwrok h).1).1, (b.pwrok (a.pwrok h).1).2.trans (a.pwrok h).2⟩
  resetn h := ⟨(b.resetn (a.resetn h).1).1, (b.resetn (a.resetn h).1).2.trans (a.resetn h).2⟩

theorem Basin.Legal.same {v w : Basin} (legal : v.Legal) (state : w.state = v.state) (step : w.step = v.step) : w.Legal := by
  unfold Basin.Legal
  rw [state, step]
  exact legal

theorem Basin.legal_reset : Basin.reset.Legal := by
  simp [Basin.Legal, Basin.reset]

theorem Basin.legal_out {v : Basin} (out : v.state = 2) (idle : v.step = 0) : v.Legal := by
  simp [Basin.Legal, out, idle]

theorem Basin.legal_up {v : Basin} (up : v.state = 0) (idle : v.step = 0) : v.Legal := by
  simp [Basin.Legal, up, idle]

theorem Basin.legal_restarting {v : Basin} {n : Nat} (restarting : v.state = 1) (step : v.step = n) (range : 1 ≤ n ∧ n ≤ 6) :
    v.Legal := by
  simp [Basin.Legal, restarting, step, range]

theorem Rst.Legal.same {r r' : Rst} (legal : r.Legal) (pwrok : r'.pwrok = r.pwrok) (inReset : r'.inReset = r.inReset)
    (phase : r'.phase = r.phase) (step : r'.step = r.step) : r'.Legal := by
  unfold Rst.Legal
  rw [pwrok, inReset, phase, step]
  exact legal

theorem Rst.legal_reset {r : Rst} (reset : r.inReset = true) (phase : r.phase = 0) (step : r.step = 0) : r.Legal := by
  simp [Rst.Legal, reset, phase, step]

theorem ServedReg.inst {k : Nat} (served : ServedReg k) (i : Nat) : ServedReg (instKey k i) := by
  unfold ServedReg instKey at *
  rwa [Nat.mul_comm, Nat.mul_add_mod]

theorem FaultReg.inst {k : Nat} (calm : FaultReg k = false) (i : Nat) : FaultReg (instKey k i) = false := by
  unfold FaultReg instKey at *
  rwa [Nat.mul_comm, Nat.mul_add_mod]

theorem Uncharged.of_eq {s t : State} (record : t.record = s.record := by rfl) (keeper : t.keeper = s.keeper := by rfl)
    (dram : t.hbm.dram = s.hbm.dram := by rfl) (lost : t.mem.lost = s.mem.lost := by rfl) (regs : t.regs = s.regs := by rfl) :
    Uncharged s t where
  record := record
  keeper := keeper
  dram := dram
  lost := lost
  faults k _ := by unfold State.reg; rw [regs]

theorem Uncharged.trans {s t u : State} (a : Uncharged s t) (b : Uncharged t u) : Uncharged s u where
  record := b.record.trans a.record
  keeper := b.keeper.trans a.keeper
  dram := b.dram.trans a.dram
  lost := b.lost.trans a.lost
  faults k h := (b.faults k h).trans (a.faults k h)

theorem Pruned.refl (x : Index) : Pruned x x := rfl

theorem Pruned.trans {x y z : Index} (a : Pruned x y) (b : Pruned y z) : Pruned x z := by
  unfold Pruned at *
  rw [b, a]

theorem Index.prune_pruned (x : Index) (used : List Epoch) : Pruned x (x.prune used) := rfl

theorem QueueServed.refl (a : Queue) : QueueServed a a := rfl

theorem QueueServed.trans {a b c : Queue} (x : QueueServed a b) (y : QueueServed b c) : QueueServed a c := by
  unfold QueueServed at *
  rw [y, x]

/-- A change of the fields that only the service of requests and parts writes freely. -/
theorem Serves.of_eq {s t : State} (rest : t = { s with
      free := t.free, out := t.out, regs := t.regs, reqs := t.reqs, partsOut := t.partsOut, partsIn := t.partsIn
      nextToken := t.nextToken, windows := t.windows, indexes := t.indexes, host := t.host, urdun := t.urdun, points := t.points
      fabric := t.fabric, hbm := t.hbm, mem := t.mem, cist := t.cist, record := t.record, keeper := t.keeper })
    (keeper : t.keeper = s.keeper := by rfl) (regs : t.regs = s.regs := by rfl) (host : t.host = s.host := by rfl)
    (indexes : t.indexes = s.indexes := by rfl) (out : t.out = s.out := by rfl)
    (bridges : t.fabric.bridges = s.fabric.bridges := by rfl) : Serves s t where
  rest := rest
  keeper := by rw [keeper]
  regs k _ := by unfold State.reg; rw [regs]
  queues f q := by
    have same : t.queue f q = s.queue f q := by unfold State.queue State.fn; rw [host]
    rw [same]
    exact .refl _
  indexes i := by
    have same : t.index? i = s.index? i := by unfold State.index?; rw [indexes]
    rw [same]
    exact ⟨id, fun x hx => ⟨x, hx, .refl x⟩⟩
  sent := ⟨[], by rw [out, List.append_nil]⟩
  bridges := bridges

theorem Serves.refl (s : State) : Serves s s := .of_eq rfl

theorem Serves.trans {s t u : State} (a : Serves s t) (b : Serves t u) : Serves s u where
  rest := by rw [b.rest, a.rest]
  keeper := by rw [b.keeper, a.keeper]
  regs k h := (b.regs k h).trans (a.regs k h)
  queues f q := (a.queues f q).trans (b.queues f q)
  indexes i := by
    refine ⟨fun h => (b.indexes i).1 ((a.indexes i).1 h), fun x hx => ?_⟩
    obtain ⟨y, hy, xy⟩ := (a.indexes i).2 x hx
    obtain ⟨z, hz, yz⟩ := (b.indexes i).2 y hy
    exact ⟨z, hz, xy.trans yz⟩
  sent := by
    obtain ⟨x, hx⟩ := a.sent
    obtain ⟨y, hy⟩ := b.sent
    exact ⟨x ++ y, by rw [hy, hx, List.append_assoc]⟩
  bridges := b.bridges.trans a.bridges

section Rules

variable {φ : Reach} {s₀ s t u : State}

/-- A change of fields of which no statement about every command speaks. -/
theorem Keeps.silent (pending : t.pending = s.pending) (rids : t.nextRid = s.nextRid) (record : t.record = s.record)
    (reqs : t.reqs = s.reqs) (regs : t.regs = s.regs) (keeper : t.keeper = s.keeper) (rst : t.rst = s.rst)
    (basins : t.basins = s.basins) (clep : t.clep = s.clep) (served : φ.wide = false → Serves s t)
    (quiet : φ.logs = false → Uncharged s t) : Keeps φ s t where
  pending := pending
  rids := rids.ge
  record := ⟨[], by rw [record, List.append_nil]⟩
  numbered := by
    unfold State.Numbered
    rw [reqs, rids]
    exact id
  canonical := by
    rw [regs]
    exact id
  fuses := .of_eq keeper rst
  phases _ := by
    rw [rst]
    exact id
  legal := by
    unfold State.basin
    rw [basins]
    exact id
  modes _ := ⟨rst, basins⟩
  clock _ := by rw [clep]; exact ⟨rfl, rfl⟩
  served := served
  quiet := quiet

theorem Keeps.refl (s : State) : Keeps φ s s := .silent rfl rfl rfl rfl rfl rfl rfl rfl rfl (fun _ => .refl s) fun _ => .of_eq

theorem Keeps.trans (a : Keeps φ s t) (b : Keeps φ t u) : Keeps φ s u where
  pending := b.pending.trans a.pending
  rids := a.rids.trans b.rids
  record := by
    obtain ⟨x, hx⟩ := a.record
    obtain ⟨y, hy⟩ := b.record
    exact ⟨x ++ y, by rw [hy, hx, List.append_assoc]⟩
  numbered h := b.numbered (a.numbered h)
  canonical h := b.canonical (a.canonical h)
  fuses := a.fuses.trans b.fuses
  phases l h := b.phases l (a.phases l h)
  legal h := b.legal (a.legal h)
  modes h := ⟨(b.modes h).1.trans (a.modes h).1, (b.modes h).2.trans (a.modes h).2⟩
  clock h := ⟨(b.clock h).1.trans (a.clock h).1, (b.clock h).2.trans (a.clock h).2⟩
  served h := (a.served h).trans (b.served h)
  quiet h := (a.quiet h).trans (b.quiet h)

theorem Keeps.rst_eq {c l w g : Bool} (hs : Keeps ⟨false, c, l, w, g⟩ s t) : t.rst = s.rst := (hs.modes rfl).1

theorem Keeps.basins_eq {c l w g : Bool} (hs : Keeps ⟨false, c, l, w, g⟩ s t) : t.basins = s.basins := (hs.modes rfl).2

/-- New values of fields that the service of requests and parts writes. -/
theorem Keeps.other (hs : Keeps φ s₀ s) {free : Nat} {partsOut : List PartOut} {partsIn : Store PartIn} {nextToken : Nat}
    {windows : List Window} {urdun : Urdun} {points : Store SPoint} {fabric : Fabric} {hbm : Hbm} {mem : MemRange} {cist : Cistern}
    (bridges : φ.wide = false → fabric.bridges = s.fabric.bridges := by exact fun _ => rfl)
    (dram : φ.logs = false → hbm.dram = s.hbm.dram := by exact fun _ => rfl)
    (lost : φ.logs = false → mem.lost = s.mem.lost := by exact fun _ => rfl) :
    Keeps φ s₀ { s with
      free := free, partsOut := partsOut, partsIn := partsIn, nextToken := nextToken, windows := windows, urdun := urdun
      points := points, fabric := fabric, hbm := hbm, mem := mem, cist := cist } :=
  hs.trans (.silent rfl rfl rfl rfl rfl rfl rfl rfl rfl (fun w => .of_eq (bridges := bridges w) rfl)
    fun g => .of_eq (dram := dram g) (lost := lost g))

/-- New values of all fields of which only the service of requests and parts leaves some. -/
theorem Keeps.others {m c l : Bool} (hs : Keeps ⟨m, c, l, true, true⟩ s₀ s) {free : Nat} {out : List Out} {staged : Store U64}
    {commit : CommitState} {hwReq : HwReq} {partsOut : List PartOut} {partsIn : Store PartIn} {nextToken : Nat}
    {windows : List Window} {indexes : Store Index} {slices : Slices} {host : Store HostFn} {urdun : Urdun} {points : Store SPoint}
    {fabric : Fabric} {progs : Store ProgSlot} {hbm : Hbm} {mem : MemRange} {cist : Cistern} :
    Keeps ⟨m, c, l, true, true⟩ s₀ { s with
      free := free, out := out, staged := staged, commit := commit, hwReq := hwReq, partsOut := partsOut, partsIn := partsIn
      nextToken := nextToken, windows := windows, indexes := indexes, slices := slices, host := host, urdun := urdun
      points := points, fabric := fabric, progs := progs, hbm := hbm, mem := mem, cist := cist } :=
  hs.trans (.silent rfl rfl rfl rfl rfl rfl rfl rfl rfl nofun nofun)

theorem Keeps.ite {c : Prop} [Decidable c] (a : Keeps φ s₀ t) (b : Keeps φ s₀ u) : Keeps φ s₀ (if c then t else u) := by
  split
  · exact a
  · exact b

theorem Keeps.foldl {α : Type} {f : State → α → State} {l : List α} (hs : Keeps φ s₀ s)
    (each : ∀ t a, Keeps φ s₀ t → Keeps φ s₀ (f t a)) : Keeps φ s₀ (l.foldl f s) := by
  induction l generalizing s with
  | nil => exact hs
  | cons a l ih => exact ih (each s a hs)

theorem Keeps.snd {α : Type} {p : α × State} {x : α} (hp : Keeps φ s₀ p.2) (e : p = (x, t)) : Keeps φ s₀ t := by
  rw [e] at hp
  exact hp

/-! ### Writes of the fields that the relation speaks of -/

/-- A new register table in canonical form. -/
theorem Keeps.withRegs (hs : Keeps φ s₀ s) {regs : Store U64} (wf : Store.Wf resetReg s.regs → Store.Wf resetReg regs)
    (only : φ.wide = false → ∀ k, ¬ ServedReg k → Store.get resetReg regs k = s.reg k := by nofun)
    (calm : φ.logs = false → ∀ k, FaultReg k → Store.get resetReg regs k = s.reg k := by nofun) :
    Keeps φ s₀ { s with regs := regs } :=
  { hs with
    canonical := fun h => wf (hs.canonical h)
    fuses := hs.fuses.trans (.of_eq rfl rfl)
    served := fun w => (hs.served w).trans { Serves.refl s with
      rest := rfl
      regs := only w }
    quiet := fun g => (hs.quiet g).trans ⟨rfl, rfl, rfl, rfl, calm g⟩ }

/-- A new request table whose keys are those of the old one, or numbers already given. -/
theorem Keeps.withReqs (hs : Keeps φ s₀ s) {reqs : Store Req} (sorted : Store.Sorted s.reqs → Store.Sorted reqs)
    (below : ∀ k ∈ Store.keys reqs, k ∈ Store.keys s.reqs ∨ (s₀.Numbered → k < s.nextRid)) :
    Keeps φ s₀ { s with reqs := reqs } :=
  { hs with
    fuses := hs.fuses.trans (.of_eq rfl rfl)
    numbered := fun n => ⟨sorted (hs.numbered n).1, fun k hk => (below k hk).elim ((hs.numbered n).2 k) (fun new => new n)⟩
    served := fun w => (hs.served w).trans (.of_eq rfl)
    quiet := fun g => (hs.quiet g).trans .of_eq }

/-- The retirement record with entries appended. -/
theorem Keeps.withRecord {m c l w : Bool} (hs : Keeps ⟨m, c, l, w, true⟩ s₀ s) {more : List RetEntry} :
    Keeps ⟨m, c, l, w, true⟩ s₀ { s with record := s.record ++ more } := by
  obtain ⟨old, e⟩ := hs.record
  exact { hs with
    fuses := hs.fuses.trans (.of_eq rfl rfl)
    record := ⟨old ++ more, by rw [← List.append_assoc, ← e]⟩
    served := fun w => (hs.served w).trans (.of_eq rfl)
    quiet := nofun }

/-- A new Keeper state in which no fuse is unblown. -/
theorem Keeps.withKeeper {m c l w : Bool} (hs : Keeps ⟨m, c, l, w, true⟩ s₀ s) {k : Keeper}
    (svn : s.keeper.svnFused ≤ k.svnFused := by exact le_rfl)
    (revoked : ∀ n, s.keeper.revoked.testBit n = true → k.revoked.testBit n = true := by exact fun _ h => h)
    (logs : w = false → k = { s.keeper with log := k.log, buffered := k.buffered, nextSeq := k.nextSeq } := by nofun) :
    Keeps ⟨m, c, l, w, true⟩ s₀ (s.withKeeper k) :=
  { hs with
    fuses := hs.fuses.trans ⟨svn, revoked, fun h => ⟨h, rfl⟩, fun h => ⟨h, rfl⟩⟩
    served := fun h => (hs.served h).trans { Serves.refl s with
      rest := rfl
      keeper := logs h }
    quiet := nofun }

/-- A new receiver with the count and the lock state as they are. -/
theorem Keeps.withClep {m c l : Bool} (hs : Keeps ⟨m, c, l, true, true⟩ s₀ s) {v : Clep} (count : v.count = s.clep.count := by rfl)
    (lock : v.lock = s.clep.lock := by rfl) : Keeps ⟨m, c, l, true, true⟩ s₀ (s.withClep v) :=
  { hs with
    fuses := hs.fuses.trans (.of_eq rfl rfl)
    clock := fun h => ⟨count.trans (hs.clock h).1, lock.trans (hs.clock h).2⟩
    served := nofun
    quiet := nofun }

/-- A new receiver, where the count and the lock state may differ. -/
theorem Keeps.newClep {m l : Bool} (hs : Keeps ⟨m, true, l, true, true⟩ s₀ s) {c : Clep} : Keeps ⟨m, true, l, true, true⟩ s₀ (s.withClep c) :=
  { hs with
    fuses := hs.fuses.trans (.of_eq rfl rfl)
    clock := nofun
    served := nofun
    quiet := nofun }

/-- A new state of a Basin. -/
theorem Keeps.setBasin {c l : Bool} (hs : Keeps ⟨true, c, l, true, true⟩ s₀ s) {b : Nat} {v : Basin}
    (legal : (∀ j, (s₀.basin j).Legal) → v.Legal) : Keeps ⟨true, c, l, true, true⟩ s₀ (s.setBasin b v) :=
  { hs with
    fuses := hs.fuses.trans (.of_eq rfl rfl)
    legal := fun old j => by
      obtain rfl | d := eq_or_ne j b
      · rw [State.basin_setBasin_same]
        exact legal old
      · rw [State.basin_setBasin_other _ _ _ _ d]
        exact hs.legal old j
    modes := nofun
    served := nofun
    quiet := nofun }

/-- A new state of reset and bring-up. -/
theorem Keeps.withRst {c l l' : Bool} (hs : Keeps ⟨true, c, l, true, true⟩ s₀ s) {r : Rst} (legal : l' = false → s₀.rst.Legal → r.Legal)
    (pwrok : s.rst.pwrokBlown = true → r.pwrokBlown = true ∧ r.pwrokLevel = s.rst.pwrokLevel := by exact fun h => ⟨h, rfl⟩)
    (resetn : s.rst.resetnBlown = true → r.resetnBlown = true ∧ r.resetnLevel = s.rst.resetnLevel := by exact fun h => ⟨h, rfl⟩) :
    Keeps ⟨true, c, l', true, true⟩ s₀ { s with rst := r } :=
  { hs with
    fuses := hs.fuses.trans ⟨le_rfl, fun _ h => h, pwrok, resetn⟩
    phases := legal
    modes := nofun
    served := nofun
    quiet := nofun }

theorem Keeps.setReg (hs : Keeps φ s₀ s) {k : Nat} {v : U64} (reg : φ.wide = false → ServedReg k := by nofun)
    (calm : φ.logs = false → FaultReg k = false := by nofun) : Keeps φ s₀ (s.setReg k v) :=
  hs.withRegs (Store.wf_put _ _ _ _) (fun w _ free => State.reg_setReg_other _ _ _ _ fun same => free (same ▸ reg w))
    fun g _ fault => State.reg_setReg_other _ _ _ _ fun same => absurd (same ▸ fault) (by simp [calm g])

/-- A request set under a number already given. -/
theorem Keeps.setReq (hs : Keeps φ s₀ s) {k : Nat} {r : Req} (below : s₀.Numbered → k < s.nextRid) :
    Keeps φ s₀ (s.setReq k r) := by
  refine hs.withReqs (Store.sorted_insert _ _ _) fun j hj => ?_
  obtain rfl | old := Store.keys_insert_mem _ _ _ _ hj
  · exact .inr below
  · exact .inl old

/-- What leaves the node. -/
theorem Keeps.withOut (hs : Keeps φ s₀ s) {more : List Out} : Keeps φ s₀ { s with out := s.out ++ more } :=
  { hs with
    fuses := hs.fuses.trans (.of_eq rfl rfl)
    served := fun w => (hs.served w).trans { Serves.refl s with
      rest := rfl
      sent := ⟨more, rfl⟩ }
    quiet := fun g => (hs.quiet g).trans .of_eq }

/-- A function of the host port whose queue pairs differ in their completions only. -/
theorem Keeps.setFn (hs : Keeps φ s₀ s) {f : Nat} {h : HostFn}
    (queues : φ.wide = false → ∀ q, QueueServed ((s.fn f).queue q) (h.queue q) := by nofun) : Keeps φ s₀ (s.setFn f h) :=
  { hs with
    fuses := hs.fuses.trans (.of_eq rfl rfl)
    served := fun w => (hs.served w).trans { Serves.refl s with
      rest := rfl
      queues := fun g q => by
        unfold State.queue
        obtain rfl | d := eq_or_ne g f
        · rw [State.fn_setFn_same]
          exact queues w q
        · rw [State.fn_setFn_other _ _ _ _ d]
          exact .refl _ }
    quiet := fun g => (hs.quiet g).trans .of_eq }

/-- An index set, with versions gone that no epoch sees. -/
theorem Keeps.setIndex (hs : Keeps φ s₀ s) {i : Nat} {x : Index}
    (pruned : φ.wide = false → ∃ y, s.index? i = some y ∧ Pruned y x := by nofun) : Keeps φ s₀ (s.setIndex i x) :=
  { hs with
    fuses := hs.fuses.trans (.of_eq rfl rfl)
    served := fun w => (hs.served w).trans { Serves.refl s with
      rest := rfl
      indexes := fun j => by
        obtain rfl | d := eq_or_ne j i
        · obtain ⟨y, held, less⟩ := pruned w
          rw [held, State.index?_setIndex_same]
          exact ⟨nofun, fun z hz => ⟨x, rfl, Option.some.inj hz ▸ less⟩⟩
        · rw [State.index?_setIndex_other _ _ _ _ d]
          exact ⟨id, fun z hz => ⟨z, hz, .refl z⟩⟩ }
    quiet := fun g => (hs.quiet g).trans .of_eq }

/-! ### Answers -/

/-- A command answers a next state, which is kept in form. -/
def Answers (φ : Reach) (s : State) (r : Res) : Prop := ∃ t, r = .next t ∧ Keeps φ s t

/-- Whatever state an operation gives is kept in form. -/
def Gives (φ : Reach) (s : State) (o : Option State) : Prop := ∀ t, o = some t → Keeps φ s t

theorem Answers.next (h : Keeps φ s₀ t) : Answers φ s₀ (.next t) := ⟨t, rfl, h⟩

/-- Any next state that a command answers is the one kept in form. -/
theorem Answers.keeps {r : Res} (a : Answers φ s₀ r) (e : r = .next t) : Keeps φ s₀ t := by
  obtain ⟨u, answer, kept⟩ := a
  exact Host.Outcome.next.inj (answer.symm.trans e) ▸ kept

theorem Answers.ite {c : Prop} [Decidable c] {a b : Res} (x : Answers φ s₀ a) (y : Answers φ s₀ b) :
    Answers φ s₀ (if c then a else b) := by
  split
  · exact x
  · exact y

theorem Gives.some (h : Keeps φ s₀ t) : Gives φ s₀ (some t) := fun _ e => Option.some.inj e ▸ h

theorem Gives.none : Gives φ s₀ none := fun _ e => nomatch e

theorem Gives.ite {c : Prop} [Decidable c] {a b : Option State} (x : Gives φ s₀ a) (y : Gives φ s₀ b) :
    Gives φ s₀ (if c then a else b) := by
  split
  · exact x
  · exact y

end Rules
end Sys2Proof.Machine
end

section
/-! SUPPORT. Each function of the node and each command, in the order of the model: what it keeps. -/

set_option Elab.async false

namespace Sys2Proof.Machine
variable {φ : Reach} {md ck lb wd m c l : Bool} {s₀ s t u : State}

/-! ### Machine/Ops -/

theorem Keeps.setRegF (hs : Keeps φ s₀ s) {key lsb len v : ℕ} (reg : φ.wide = false → ServedReg key := by nofun)
    (calm : φ.logs = false → FaultReg key = false := by nofun) :
    Keeps φ s₀ (s.setRegF key lsb len v) := by
  unfold State.setRegF
  exact hs.setReg reg calm

theorem Keeps.bumpSat (hs : Keeps φ s₀ s) {key lsb len n : ℕ} (reg : φ.wide = false → ServedReg key := by nofun)
    (calm : φ.logs = false → FaultReg key = false := by nofun) :
    Keeps φ s₀ (s.bumpSat key lsb len n) := by
  unfold State.bumpSat
  exact hs.setRegF reg calm

theorem Keeps.bump (hs : Keeps φ s₀ s) {key lsb len n : ℕ} (reg : φ.wide = false → ServedReg key := by nofun)
    (calm : φ.logs = false → FaultReg key = false := by nofun) :
    Keeps φ s₀ (s.bump key lsb len n) := by
  unfold State.bump
  exact hs.setRegF reg calm

theorem Keeps.takeFree (hs : Keeps ⟨md, ck, lb, true, true⟩ s₀ s) {w : ℕ} : Keeps ⟨md, ck, lb, true, true⟩ s₀ (s.takeFree w).2 := by
  unfold State.takeFree
  exact hs.other

theorem Keeps.emit (hs : Keeps φ s₀ s) {o : Out} : Keeps φ s₀ (s.emit o) := by
  unfold State.emit
  exact hs.withOut

theorem Keeps.emits (hs : Keeps φ s₀ s) {os : List Out} : Keeps φ s₀ (s.emits os) := by
  unfold State.emits
  exact hs.withOut

theorem Keeps.sendVector (hs : Keeps φ s₀ s) {f v : ℕ} : Keeps φ s₀ (s.sendVector f v) := by
  unfold State.sendVector
  extract_lets h m
  exact .ite (hs.setFn fun _ _ => .refl _) hs.emit

theorem Keeps.hqEvent (hs : Keeps ⟨md, ck, lb, true, true⟩ s₀ s) {f b : ℕ} : Keeps ⟨md, ck, lb, true, true⟩ s₀ (s.hqEvent f b) := by
  unfold State.hqEvent
  extract_lets +onlyGivenNames key
  refine .ite hs ?_
  extract_lets s1
  have hs1 : Keeps ⟨md, ck, lb, true, true⟩ s₀ s1 := hs.setRegF
  exact .ite hs1.sendVector hs1

theorem Keeps.hqEventAll (hs : Keeps ⟨md, ck, lb, true, true⟩ s₀ s) {b : ℕ} :
    Keeps ⟨md, ck, lb, true, true⟩ s₀ (s.hqEventAll b) := by
  unfold State.hqEventAll
  exact .foldl hs fun _ _ ht => ht.hqEvent

theorem Keeps.dropWrite (hs : Keeps ⟨md, ck, lb, true, true⟩ s₀ s) {fn page off : ℕ} :
    Keeps ⟨md, ck, lb, true, true⟩ s₀ (s.dropWrite fn page off) := by
  unfold State.dropWrite
  refine .ite hs.bumpSat ?_
  extract_lets k
  exact hs.setReg.hqEvent

theorem Keeps.pfWrite (hs : Keeps ⟨md, ck, lb, true, true⟩ s₀ s) {page off : ℕ} {go : State} (hgo : Keeps ⟨md, ck, lb, true, true⟩ s₀ go) :
    Keeps ⟨md, ck, lb, true, true⟩ s₀ (s.pfWrite page off go) := by
  unfold State.pfWrite
  exact .ite hgo hs.dropWrite

theorem Keeps.writeOne (hs : Keeps ⟨md, ck, lb, true, true⟩ s₀ s) {key b : ℕ} :
    Keeps ⟨md, ck, lb, true, true⟩ s₀ (s.writeOne key b) := by
  unfold State.writeOne
  exact hs.pfWrite hs.setRegF

theorem Keeps.logRaw (hs : Keeps ⟨md, ck, lb, wd, true⟩ s₀ s) {code sev : ℕ} {data : List Byte} :
    Keeps ⟨md, ck, lb, wd, true⟩ s₀ (s.logRaw code sev data) := by
  unfold State.logRaw
  extract_lets k e k1 k2 s1
  have logs : k2 = { s.keeper with log := k2.log, buffered := k2.buffered, nextSeq := k2.nextSeq } := by
    unfold k2
    split <;> rfl
  have svn : k2.svnFused = s.keeper.svnFused := by rw [logs]
  have revoked : k2.revoked = s.keeper.revoked := by rw [logs]
  have hs1 : Keeps ⟨md, ck, lb, wd, true⟩ s₀ s1 := hs.withKeeper svn.ge (fun _ => revoked ▸ id) fun _ => logs
  exact .ite (hs1.setRegF fun _ => rfl) hs1

theorem Keeps.logEvent (hs : Keeps ⟨md, ck, lb, true, true⟩ s₀ s) {cls n sev : ℕ} :
    Keeps ⟨md, ck, lb, true, true⟩ s₀ (s.logEvent cls n sev) := by
  unfold State.logEvent
  exact hs.logRaw

theorem Keeps.modReq (hs : Keeps φ s₀ s) {rid : ℕ} {f : Req → Req} : Keeps φ s₀ (s.modReq rid f) := by
  unfold State.modReq Store.adjust
  split
  next r held =>
    refine hs.withReqs (Store.sorted_insert _ _ _) fun j hj => ?_
    obtain rfl | old := Store.keys_insert_mem _ _ _ _ hj
    · exact .inl (Store.mem_keys_of_find? held)
    · exact .inl old
  next => exact hs

theorem Keeps.setStack (hs : Keeps ⟨md, ck, lb, wd, true⟩ s₀ s) {k : ℕ} {v : Stack} : Keeps ⟨md, ck, lb, wd, true⟩ s₀ (s.setStack k v) := by
  unfold State.setStack
  exact hs.other (dram := nofun)

theorem Keeps.setPoint (hs : Keeps φ s₀ s) {p : ℕ} {v : SPoint} : Keeps φ s₀ (s.setPoint p v) := by
  unfold State.setPoint
  exact hs.other

theorem Keeps.setPort (hs : Keeps ⟨md, ck, lb, true, true⟩ s₀ s) {p : ℕ} {v : UPort} :
    Keeps ⟨md, ck, lb, true, true⟩ s₀ (s.setPort p v) := by
  unfold State.setPort
  exact hs.other

theorem Keeps.setLane (hs : Keeps ⟨md, ck, lb, true, true⟩ s₀ s) {n : ℕ} {v : Lane} :
    Keeps ⟨md, ck, lb, true, true⟩ s₀ (s.setLane n v) := by
  unfold State.setLane
  exact hs.other

theorem Keeps.setLun (hs : Keeps ⟨md, ck, lb, true, true⟩ s₀ s) {k : ℕ} {v : Lun} :
    Keeps ⟨md, ck, lb, true, true⟩ s₀ (s.setLun k v) := by
  unfold State.setLun
  exact hs.other

theorem Keeps.setRegion (hs : Keeps ⟨md, ck, lb, true, true⟩ s₀ s) {t : ℕ} {v : Region} :
    Keeps ⟨md, ck, lb, true, true⟩ s₀ (s.setRegion t v) := hs.withKeeper

theorem Keeps.setProg (hs : Keeps ⟨md, ck, lb, true, true⟩ s₀ s) {n : ℕ} {v : ProgSlot} :
    Keeps ⟨md, ck, lb, true, true⟩ s₀ (s.setProg n v) := by
  unfold State.setProg
  exact hs.others

theorem Keeps.setBridge (hs : Keeps ⟨md, ck, lb, true, true⟩ s₀ s) {n : ℕ} {v : Bridge} :
    Keeps ⟨md, ck, lb, true, true⟩ s₀ (s.setBridge n v) := by
  unfold State.setBridge
  exact hs.others

/-! ### Machine/Maps -/

theorem Keeps.retire (hs : Keeps ⟨md, ck, lb, wd, true⟩ s₀ s) {kind loc code : ℕ} :
    Keeps ⟨md, ck, lb, wd, true⟩ s₀ (s.retire kind loc code) := by
  unfold State.retire
  exact .ite hs hs.withRecord.logRaw

theorem Keeps.setRill (hs : Keeps ⟨md, ck, lb, true, true⟩ s₀ s) {k : ℕ} {v : Rill} :
    Keeps ⟨md, ck, lb, true, true⟩ s₀ (s.setRill k v) := by
  unfold State.setRill
  exact hs.other

theorem Keeps.setRouter (hs : Keeps φ s₀ s) {k : ℕ} {v : List Msg} : Keeps φ s₀ (s.setRouter k v) := by
  unfold State.setRouter
  exact hs.other

theorem Keeps.setStaging (hs : Keeps ⟨md, ck, lb, true, true⟩ s₀ s) {t : ℕ} {v : Store Byte} :
    Keeps ⟨md, ck, lb, true, true⟩ s₀ (s.setStaging t v) := by
  unfold State.setStaging
  exact hs.other

theorem Keeps.setSram (hs : Keeps ⟨md, ck, lb, true, true⟩ s₀ s) {k : ℕ} {v : Sram} :
    Keeps ⟨md, ck, lb, true, true⟩ s₀ (s.setSram k v) := by
  unfold State.setSram
  exact hs.other

theorem Keeps.moveRouter (hs : Keeps φ s₀ s) {u : ℕ × ℕ} : Keeps φ s₀ (s.moveRouter u) := by
  unfold State.moveRouter
  refine .ite ?_ hs
  extract_lets spare
  exact hs.setRouter.setRouter

theorem Keeps.settleMaps (hs : Keeps φ s₀ s) : Keeps φ s₀ s.settleMaps := by
  unfold State.settleMaps
  extract_lets go _ s1
  have hs1 : Keeps φ s₀ s1 := hs.other
  exact .foldl hs1 fun _ _ ht => ht.moveRouter

theorem Keeps.retireMapped (hs : Keeps ⟨md, ck, lb, wd, true⟩ s₀ s) {kind loc code : ℕ} :
    Keeps ⟨md, ck, lb, wd, true⟩ s₀ (s.retireMapped kind loc code) := by
  unfold State.retireMapped
  refine .ite hs ?_
  extract_lets +onlyGivenNames s1
  have hs1 : Keeps ⟨md, ck, lb, wd, true⟩ s₀ s1 := hs.retire
  exact hs1.other.settleMaps

theorem Keeps.setSpout (hs : Keeps φ s₀ s) {k : ℕ} {v : Spout} : Keeps φ s₀ (s.setSpout k v) := by
  unfold State.setSpout
  exact hs.other

theorem Keeps.issueRefresh (hs : Keeps ⟨md, ck, lb, wd, true⟩ s₀ s) {k : ℕ} : Keeps ⟨md, ck, lb, wd, true⟩ s₀ (s.issueRefresh k) := by
  unfold State.issueRefresh
  refine .ite ?_ hs
  extract_lets st
  exact hs.setStack

/-! ### Machine/Flash -/

theorem Keeps.losePage (hs : Keeps ⟨md, ck, lb, true, true⟩ s₀ s) {lpn : ℕ} :
    Keeps ⟨md, ck, lb, true, true⟩ s₀ (s.losePage lpn) := by
  unfold State.losePage
  exact .ite hs hs.others

theorem Keeps.loseWords (hs : Keeps ⟨md, ck, lb, true, true⟩ s₀ s) {es : List (ℕ × ℕ)} :
    Keeps ⟨md, ck, lb, true, true⟩ s₀ (s.loseWords es) := by
  unfold State.loseWords
  exact .foldl hs fun _ _ ht => .ite ht.losePage.bumpSat ht

theorem Keeps.moveWords (hs : Keeps ⟨md, ck, lb, true, true⟩ s₀ s) {es : List (ℕ × ℕ)} :
    Keeps ⟨md, ck, lb, true, true⟩ s₀ (s.moveWords es) := by
  unfold State.moveWords
  exact hs.other

theorem Keeps.relocate (hs : Keeps ⟨md, ck, lb, true, true⟩ s₀ s) {b : ℕ × ℕ × ℕ} :
    Keeps ⟨md, ck, lb, true, true⟩ s₀ (s.relocate b) := by
  unfold State.relocate
  extract_lets es
  exact hs.loseWords.moveWords

theorem Keeps.withCist (hs : Keeps φ s₀ s) {c : Cistern} : Keeps φ s₀ (s.withCist c) := by
  unfold State.withCist
  exact hs.other

theorem Keeps.withReads (hs : Keeps φ s₀ s) {l : List LtRead} : Keeps φ s₀ (s.withReads l) := by
  unfold State.withReads
  exact hs.other

theorem Keeps.readMap (hs : Keeps φ s₀ s) {slice basin m : ℕ} : Keeps φ s₀ (s.readMap slice basin m) := by
  unfold State.readMap
  refine .ite hs ?_
  extract_lets r
  exact hs.withReads.bump (fun _ => rfl) fun _ => rfl

theorem Keeps.mapLine (hs : Keeps φ s₀ s) {m : ℕ} : Keeps φ s₀ (s.mapLine m) := by
  unfold State.mapLine
  exact hs.other

theorem Keeps.readMapOf (hs : Keeps φ s₀ s) {lpn : ℕ} : Keeps φ s₀ (s.readMapOf lpn) := by
  unfold State.readMapOf
  exact hs.readMap

theorem Keeps.queueMap (hs : Keeps φ s₀ s) {m : ℕ} : Keeps φ s₀ (s.queueMap m) := by
  unfold State.queueMap
  extract_lets +onlyGivenNames stamp user
  exact hs.other

theorem Keeps.mapSet (hs : Keeps φ s₀ s) {lpn : ℕ} {ppa : Option ℕ} : Keeps φ s₀ (s.mapSet lpn ppa) := by
  unfold State.mapSet
  extract_lets s1 c
  have hs1 : Keeps φ s₀ s1 := hs.mapLine
  exact hs1.other.queueMap

theorem Keeps.trimLater (hs : Keeps φ s₀ s) {lpn : ℕ} : Keeps φ s₀ (s.trimLater lpn) := by
  unfold State.trimLater
  exact hs.other

theorem Keeps.trim (hs : Keeps φ s₀ s) {lpn : ℕ} : Keeps φ s₀ (s.trim lpn) := by
  unfold State.trim
  exact .ite hs.other (.ite hs.trimLater (.ite hs.trimLater.readMapOf hs.mapSet))

theorem Keeps.trimWaiting (hs : Keeps ⟨md, ck, lb, true, true⟩ s₀ s) : Keeps ⟨md, ck, lb, true, true⟩ s₀ s.trimWaiting := by
  unfold State.trimWaiting
  exact .foldl hs fun _ _ ht => ht.trim

theorem Keeps.freePage (hs : Keeps φ s₀ s) {lpn : ℕ} : Keeps φ s₀ (s.freePage lpn) := by
  unfold State.freePage
  extract_lets s1 _ c0 c m
  have hs1 : Keeps φ s₀ s1 := hs.trim
  exact hs1.other

theorem Keeps.keepOf (hs : Keeps φ s₀ s) {i : ℕ} {x : Index} : Keeps φ s₀ (s.keepOf i x) := by
  unfold State.keepOf
  extract_lets +onlyGivenNames here tabs
  exact hs.other

theorem Keeps.swapIndex (hs : Keeps φ s₀ s) {i : ℕ} {x : Index}
    (pruned : φ.wide = false → ∃ y, s.index? i = some y ∧ Pruned y x := by nofun) : Keeps φ s₀ (s.swapIndex i x) := by
  unfold State.swapIndex
  split
  · exact hs.setIndex pruned
  · extract_lets kept
    exact (Keeps.foldl (hs.setIndex pruned) fun _ _ ht => ht.freePage).keepOf

theorem Keeps.freeUnseen (hs : Keeps φ s₀ s) {i : ℕ} : Keeps φ s₀ (s.freeUnseen i) := by
  unfold State.freeUnseen
  split
  · exact hs
  next x held => exact hs.swapIndex fun _ => ⟨x, held, x.prune_pruned _⟩

/-! ### Machine/Layout -/

theorem Keeps.rangeOk (hs : Keeps ⟨md, ck, lb, true, true⟩ s₀ s) {addr : U64} :
    Keeps ⟨md, ck, lb, true, true⟩ s₀ (s.rangeOk addr).2 := by
  unfold State.rangeOk
  extract_lets +onlyGivenNames a r
  split
  · exact hs
  · split
    · exact hs
    · split
      · exact hs
      · extract_lets f
        have hf : Keeps ⟨md, ck, lb, true, true⟩ s₀ f.2 := hs.takeFree
        exact hf

/-! ### Machine/Sluice -/

theorem Keeps.setCredit (hs : Keeps ⟨md, ck, lb, true, true⟩ s₀ s) {pt c : ℕ} {v : ℤ} :
    Keeps ⟨md, ck, lb, true, true⟩ s₀ (s.setCredit pt c v) := by
  unfold State.setCredit
  extract_lets p lim
  exact hs.setPoint

theorem Keeps.retag (hs : Keeps φ s₀ s) {pt : ℕ} : Keeps φ s₀ (s.retag pt) := by
  unfold State.retag
  extract_lets p cs keep tags
  exact hs.setPoint

theorem Keeps.queueUnit (hs : Keeps φ s₀ s) {pt : ℕ} {u : SUnit} : Keeps φ s₀ (s.queueUnit pt u) := by
  unfold State.queueUnit
  extract_lets p
  exact .ite hs hs.setPoint.retag

theorem Keeps.startUnit (hs : Keeps ⟨md, ck, lb, true, true⟩ s₀ s) {pt : ℕ} {f : ℕ × ℕ} {u : SUnit} :
    Keeps ⟨md, ck, lb, true, true⟩ s₀ (s.startUnit pt f u) := by
  unfold State.startUnit
  extract_lets p t ct p1 s1 s2
  have hs1 : Keeps ⟨md, ck, lb, true, true⟩ s₀ s1 := hs.setPoint
  have hs2 : Keeps ⟨md, ck, lb, true, true⟩ s₀ s2 := .ite hs1 hs1.setCredit
  exact hs2.bump.retag

theorem Keeps.pointOut (hs : Keeps φ s₀ s) {pt : ℕ} {out : Bool} : Keeps φ s₀ (s.pointOut pt out) := by
  unfold State.pointOut
  extract_lets p
  exact hs.setPoint

theorem Keeps.pointFresh (hs : Keeps ⟨md, ck, lb, true, true⟩ s₀ s) {pt : ℕ} :
    Keeps ⟨md, ck, lb, true, true⟩ s₀ (s.pointFresh pt) := by
  unfold State.pointFresh
  extract_lets p
  exact hs.setPoint.retag

theorem Keeps.takeOver (hs : Keeps ⟨md, ck, lb, true, true⟩ s₀ s) {pt : ℕ} {late : Bool} :
    Keeps ⟨md, ck, lb, true, true⟩ s₀ (s.takeOver pt late) := by
  unfold State.takeOver
  extract_lets p
  split
  · exact hs
  · extract_lets s1
    have hs1 : Keeps ⟨md, ck, lb, true, true⟩ s₀ s1 := hs.setPoint
    exact hs1.bump.retag

theorem execCreditRefill_answers (hs : Keeps ⟨md, ck, lb, true, true⟩ s₀ s) :
    Answers ⟨md, ck, lb, true, true⟩ s₀ (execCreditRefill s) := by
  unfold execCreditRefill
  refine .next ?_
  refine .foldl hs fun _ _ ht => ?_
  extract_lets listed
  exact .ite ht (Keeps.foldl ht fun _ _ ht => ht.setCredit).retag

theorem execGateWindowEnd_answers (hs : Keeps ⟨md, ck, lb, true, true⟩ s₀ s) {pt : Fin 185} :
    Answers ⟨md, ck, lb, true, true⟩ s₀ (execGateWindowEnd pt s) := by
  unfold execGateWindowEnd
  extract_lets p
  split
  · exact .next hs
  · exact .next hs.setPoint.retag

theorem execSluiceParityError_answers (hs : Keeps ⟨md, ck, lb, true, true⟩ s₀ s) {pt : Fin 185} :
    Answers ⟨md, ck, lb, true, true⟩ s₀ (execSluiceParityError pt s) := by
  unfold execSluiceParityError
  extract_lets p
  exact .next hs.setPoint.bumpSat.retag

/-! ### Machine/Links -/

theorem Keeps.takeCtrl (hs : Keeps ⟨md, ck, lb, true, true⟩ s₀ s) {port kind : ℕ} {w : List Byte} :
    Keeps ⟨md, ck, lb, true, true⟩ s₀ (s.takeCtrl port kind w).2 := by
  unfold State.takeCtrl
  split
  · exact hs
  · split
    · exact hs
    · exact hs.bumpSat

theorem Keeps.routeMsg (hs : Keeps φ s₀ s) {mid : ℕ} : Keeps φ s₀ (s.routeMsg mid) := by
  unfold State.routeMsg
  split
  · exact hs.other
  · split
    · exact hs
    · extract_lets _ s1
      have hs1 : Keeps φ s₀ s1 := hs.other
      exact .foldl hs1 fun _ _ ht => ht.queueUnit

theorem Keeps.routeAll (hs : Keeps ⟨md, ck, lb, true, true⟩ s₀ s) : Keeps ⟨md, ck, lb, true, true⟩ s₀ s.routeAll := by
  unfold State.routeAll
  exact .foldl hs fun _ _ ht => ht.routeMsg

theorem Keeps.sendMsg (hs : Keeps φ s₀ s) {m : UMsg} : Keeps φ s₀ (s.sendMsg m) := by
  unfold State.sendMsg
  extract_lets +onlyGivenNames mid
  exact hs.other.routeMsg

theorem Keeps.dropMsgs (hs : Keeps φ s₀ s) {p : UMsg → Bool} : Keeps φ s₀ (s.dropMsgs p) := by
  unfold State.dropMsgs
  extract_lets +onlyGivenNames gone
  refine .ite hs ?_
  extract_lets _ s1
  have hs1 : Keeps φ s₀ s1 := hs.other
  refine .foldl hs1 fun _ _ ht => ?_
  extract_lets pq
  exact ht.setPoint.retag

theorem Keeps.emitFrame (hs : Keeps ⟨md, ck, lb, true, true⟩ s₀ s) {p lseq : ℕ} {f : Frame} :
    Keeps ⟨md, ck, lb, true, true⟩ s₀ (s.emitFrame p lseq f) := by
  unfold State.emitFrame
  extract_lets +onlyGivenNames k
  refine .ite ?_ hs.emit
  extract_lets r
  have hr : Keeps ⟨md, ck, lb, true, true⟩ s₀ r.2 := hs.takeFree
  exact hr.setRegF.emit

theorem Keeps.sendFrame (hs : Keeps ⟨md, ck, lb, true, true⟩ s₀ s) {p : ℕ} {f : Frame} :
    Keeps ⟨md, ck, lb, true, true⟩ s₀ (s.sendFrame p f) := by
  unfold State.sendFrame
  extract_lets u v
  exact hs.setPort.emitFrame

theorem Keeps.sendAgain (hs : Keeps ⟨md, ck, lb, true, true⟩ s₀ s) {p n : ℕ} :
    Keeps ⟨md, ck, lb, true, true⟩ s₀ (s.sendAgain p n) := by
  induction n generalizing s with
  | zero => exact hs
  | succ n ih =>
    unfold State.sendAgain
    extract_lets u
    split
    · exact hs
    · exact .ite (ih hs.setPort.emitFrame.bump) hs

theorem Keeps.sendAdmission (hs : Keeps ⟨md, ck, lb, true, true⟩ s₀ s) {p : ℕ} {f : Time × Frame} :
    Keeps ⟨md, ck, lb, true, true⟩ s₀ (s.sendAdmission p f) := by
  unfold State.sendAdmission
  extract_lets s1
  have hs1 : Keeps ⟨md, ck, lb, true, true⟩ s₀ s1 := hs.sendFrame.bump
  exact .ite hs1.bumpSat hs1

theorem Keeps.sendAdmissions (hs : Keeps ⟨md, ck, lb, true, true⟩ s₀ s) {p : ℕ} {l : List (Time × Frame)} :
    Keeps ⟨md, ck, lb, true, true⟩ s₀ (s.sendAdmissions p l) := by
  induction l generalizing s with
  | nil => exact hs.setPort
  | cons f fs ih => exact .ite (ih hs.sendAdmission) hs.setPort

theorem Keeps.unqueue (hs : Keeps ⟨md, ck, lb, true, true⟩ s₀ s) {p mid : ℕ} :
    Keeps ⟨md, ck, lb, true, true⟩ s₀ (s.unqueue p mid) := by
  unfold State.unqueue
  extract_lets +onlyGivenNames q other s1
  have hs1 : Keeps ⟨md, ck, lb, true, true⟩ s₀ s1 := hs.setPoint.retag
  exact hs1.other

theorem Keeps.settleFirst (hs : Keeps ⟨md, ck, lb, true, true⟩ s₀ s) {p n : ℕ} :
    Keeps ⟨md, ck, lb, true, true⟩ s₀ (s.settleFirst p n) := by
  induction n generalizing s with
  | zero => exact hs
  | succ n ih =>
    unfold State.settleFirst
    split
    · exact hs
    · refine .ite ?_ hs
      extract_lets s1
      split
      · exact hs
      · exact .ite hs (ih hs.unqueue.routeMsg)

theorem Keeps.portBoundary (hs : Keeps ⟨md, ck, lb, true, true⟩ s₀ s) {p : ℕ} :
    Keeps ⟨md, ck, lb, true, true⟩ s₀ (s.portBoundary p) := by
  unfold State.portBoundary
  refine .ite hs ?_
  extract_lets s0 s0' s1
  have hs0 : Keeps ⟨md, ck, lb, true, true⟩ s₀ s0 := hs.sendAgain
  have hs0' : Keeps ⟨md, ck, lb, true, true⟩ s₀ s0' := hs0.sendAdmissions
  have hs1 : Keeps ⟨md, ck, lb, true, true⟩ s₀ s1 := hs0'.settleFirst
  split
  · exact hs1
  · split
    · exact hs1
    · split
      · exact hs1.startUnit
      · exact .ite hs1.startUnit.sendFrame hs1

theorem Keeps.admitMsg (hs : Keeps ⟨md, ck, lb, true, true⟩ s₀ s) {port : ℕ} {src : U64} {msgId : ℕ} {id : U64} {busy : Bool} :
    Keeps ⟨md, ck, lb, true, true⟩ s₀ (s.admitMsg port src msgId id busy) := by
  unfold State.admitMsg
  extract_lets +onlyGivenNames body f p _ s1
  have hs1 : Keeps ⟨md, ck, lb, true, true⟩ s₀ s1 := hs.other
  exact hs1.setPort

/-! ### Machine/Deliver -/

theorem Keeps.setQueue (hs : Keeps φ s₀ s) {f q : ℕ} {v : Queue}
    (served : φ.wide = false → QueueServed (s.queue f q) v := by nofun) : Keeps φ s₀ (s.setQueue f q v) := by
  unfold State.setQueue
  refine hs.setFn fun w r => ?_
  unfold HostFn.setQueue HostFn.queue
  obtain rfl | d := eq_or_ne r q
  · rw [Store.get_put_same]
    exact served w
  · rw [Store.get_put_other _ _ _ _ _ d]
    exact .refl _

theorem Keeps.discard (hs : Keeps φ s₀ s) {f : ℕ} : Keeps φ s₀ (s.discard f) := by
  unfold State.discard
  exact hs.bumpSat (fun _ => ServedReg.inst (k := Reg.HQ_CNT) rfl f) fun _ => FaultReg.inst rfl f

theorem Keeps.dropReq (hs : Keeps φ s₀ s) {rid : Option ℕ} : Keeps φ s₀ (s.dropReq rid) := by
  unfold State.dropReq
  split
  · exact hs.withReqs (Store.sorted_erase _ _) fun _ hj => .inl (Store.keys_filter_subset hj)
  · exact hs

theorem Keeps.writeCq (hs : Keeps φ s₀ s) {f n : ℕ} {o : Owed} : Keeps φ s₀ (s.writeCq f n o) := by
  unfold State.writeCq
  extract_lets q fits qst bytes n64 stat ent s1 s2 size ann due q1 s3
  have hs1 : Keeps φ s₀ s1 := .ite hs hs.emit
  have hs2 : Keeps φ s₀ s2 := hs1.emit
  have same : s2.queue f n = q := by
    unfold s2 s1
    split
    · rfl
    · rfl
  have hs3 : Keeps φ s₀ s3 := (hs2.setQueue fun _ => by rw [same]; rfl).dropReq
  exact .ite hs3.sendVector hs3

theorem Keeps.flushList (hs : Keeps φ s₀ s) {f n : ℕ} {l : List Owed} : Keeps φ s₀ (s.flushList f n l) := by
  induction l generalizing s with
  | nil => exact hs.setQueue fun _ => rfl
  | cons o os ih => exact .ite (hs.setQueue fun _ => rfl) (ih hs.writeCq)

theorem Keeps.flushCq (hs : Keeps φ s₀ s) {f n : ℕ} : Keeps φ s₀ (s.flushCq f n) := by
  unfold State.flushCq
  exact hs.flushList

theorem Keeps.owe (hs : Keeps φ s₀ s) {f n : ℕ} {o : Owed} : Keeps φ s₀ (s.owe f n o) := by
  unfold State.owe
  extract_lets q
  refine .ite (Keeps.flushCq (hs.setQueue fun _ => ?_)) (Keeps.discard (Keeps.dropReq (hs.setQueue fun _ => ?_)))
  · rfl
  · rfl

theorem Keeps.closeWindow (hs : Keeps φ s₀ s) {rid : ℕ} : Keeps φ s₀ (s.closeWindow rid) := by
  unfold State.closeWindow
  split
  · exact .ite (hs.modReq.bump (fun _ => rfl) fun _ => rfl) hs
  · exact hs

theorem Keeps.idleRills (hs : Keeps φ s₀ s) {rid : ℕ} : Keeps φ s₀ (s.idleRills rid) := by
  unfold State.idleRills
  extract_lets f rills srams h passes leaving
  exact hs.other.settleMaps

theorem Keeps.freeWork (hs : Keeps φ s₀ s) {rid : ℕ} : Keeps φ s₀ (s.freeWork rid) := by
  unfold State.freeWork
  extract_lets s1 s2 wins reads _ _ s3
  have hs1 : Keeps φ s₀ s1 := hs.idleRills
  have hs2 : Keeps φ s₀ s2 := .foldl hs1 fun _ _ ht => ht.setSpout
  have hs3 : Keeps φ s₀ s3 := hs2.other
  exact hs3.dropMsgs

theorem Keeps.respond (hs : Keeps φ s₀ s) {rid : ℕ} {resp : Resp} : Keeps φ s₀ (s.respond rid resp) := by
  unfold State.respond
  split
  · exact hs
  next r held =>
    extract_lets s1 c bytes stopped s2 s2' s3
    have hs1 : Keeps φ s₀ s1 := hs.freeWork.closeWindow
    have grown : s.nextRid ≤ s1.nextRid := ((Keeps.refl (φ := φ) s).freeWork.closeWindow).rids
    have hs2 : Keeps φ s₀ s2 := hs1.setReq fun n => ((hs.numbered n).below held).trans_le grown
    have hs2' : Keeps φ s₀ s2' := .ite hs2.freeUnseen hs2
    have hs3 : Keeps φ s₀ s3 := (Keeps.ite hs2' ((hs2'.bump (fun _ => rfl) fun _ => rfl).bump (fun _ => rfl) fun _ => rfl)).emit
    split
    · exact hs3.sendMsg
    · exact .ite hs3.dropReq.discard hs3.owe

/-! ### Machine/Parts -/

theorem Keeps.replyPart (hs : Keeps φ s₀ s) {pid : ℕ} {bytes : List Byte} : Keeps φ s₀ (s.replyPart pid bytes) := by
  unfold State.replyPart
  split
  · exact hs
  · extract_lets reads _ s1 o
    have hs1 : Keeps φ s₀ s1 := hs.other
    exact hs1.idleRills.freeUnseen.sendMsg

theorem Keeps.failPart (hs : Keeps φ s₀ s) {pid st : ℕ} : Keeps φ s₀ (s.failPart pid st) := by
  unfold State.failPart
  split
  · exact hs
  · extract_lets s1
    have hs1 : Keeps φ s₀ s1 := hs.replyPart
    exact .ite (hs1.bump (fun _ => rfl) fun _ => rfl) (.ite (hs1.bumpSat (fun _ => rfl) fun _ => rfl) (.ite (hs1.bumpSat (fun _ => rfl) fun _ => rfl) hs1))

theorem Keeps.endPart (hs : Keeps φ s₀ s) {pid st : ℕ} : Keeps φ s₀ (s.endPart pid st) := by
  unfold State.endPart
  split
  · exact hs
  · exact hs.failPart

theorem Keeps.runPart (hs : Keeps φ s₀ s) {pid : ℕ} : Keeps φ s₀ (s.runPart pid) := by
  unfold State.runPart
  split
  · exact hs
  · refine .ite hs ?_
    split
    · exact hs.endPart
    · exact hs.other

theorem Keeps.completePart (hs : Keeps ⟨md, ck, lb, true, true⟩ s₀ s) {pid : ℕ} {readback : Bool} :
    Keeps ⟨md, ck, lb, true, true⟩ s₀ (s.completePart pid readback) := by
  unfold State.completePart
  split
  · exact hs
  · split
    · exact hs
    · exact .ite hs.failPart (.ite hs.failPart hs.bump.replyPart)

/-! ### Machine/Requests -/

theorem Keeps.endNow (hs : Keeps φ s₀ s) {rid st : ℕ} : Keeps φ s₀ (s.endNow rid st) := by
  unfold State.endNow
  split
  · exact hs
  · refine .ite hs ?_
    extract_lets s1
    have hs1 : Keeps φ s₀ s1 :=
      .ite (hs.bump (fun _ => rfl) fun _ => rfl) (.ite (hs.bump (fun _ => rfl) fun _ => rfl) (.ite (hs.bumpSat (fun _ => rfl) fun _ => rfl) (.ite (hs.bumpSat (fun _ => rfl) fun _ => rfl) hs)))
    exact hs1.respond

theorem Keeps.endWith (hs : Keeps φ s₀ s) {rid st : ℕ} : Keeps φ s₀ (s.endWith rid st) := by
  unfold State.endWith
  split
  · exact hs.endPart
  · exact hs.endNow

theorem Keeps.joinWindow (hs : Keeps φ s₀ s) {idx basin rid : ℕ} {dense : Bool} {p : ℕ × ℕ} :
    Keeps φ s₀ (s.joinWindow idx basin rid dense p) := by
  unfold State.joinWindow
  extract_lets fits
  exact .ite hs.other hs.other

theorem Keeps.joinWindows (hs : Keeps φ s₀ s) {rid : ℕ} : Keeps φ s₀ (s.joinWindows rid) := by
  unfold State.joinWindows
  split
  · exact hs
  · split
    · exact hs
    · exact .foldl hs fun _ _ ht => ht.joinWindow

theorem Keeps.leaveWindows (hs : Keeps φ s₀ s) {rid : ℕ} : Keeps φ s₀ (s.leaveWindows rid) := by
  unfold State.leaveWindows
  exact hs.other

theorem Keeps.sendPart (hs : Keeps φ s₀ s) {p : PartOut} : Keeps φ s₀ (s.sendPart p) := by
  unfold State.sendPart
  split
  · exact hs
  · split
    · exact hs
    · extract_lets e
      exact .ite hs.endWith (.ite hs.sendMsg (hs.bumpSat (fun _ => rfl) fun _ => rfl).endWith)

theorem Keeps.resendParts (hs : Keeps φ s₀ s) {rid : ℕ} : Keeps φ s₀ (s.resendParts rid) := by
  unfold State.resendParts
  extract_lets s1 mine again s2
  have hs1 : Keeps φ s₀ s1 := hs.dropMsgs
  have hs2 : Keeps φ s₀ s2 := hs1.other
  exact .foldl hs2 fun _ _ ht => ht.sendPart

theorem Keeps.rerunPart (hs : Keeps φ s₀ s) {pid : ℕ} : Keeps φ s₀ (s.rerunPart pid) := by
  unfold State.rerunPart
  split
  · exact hs
  · refine .ite hs ?_
    refine .ite hs.endPart ?_
    extract_lets s1
    have hs1 : Keeps φ s₀ s1 := hs.idleRills
    exact hs1.other.runPart

theorem Keeps.againFetch (hs : Keeps φ s₀ s) {rid : ℕ} {r : Req} : Keeps φ s₀ (s.againFetch rid r) := by
  unfold State.againFetch
  extract_lets +onlyGivenNames last
  refine .ite hs.resendParts ?_
  extract_lets s1
  have hs1 : Keeps φ s₀ s1 := hs.dropMsgs.closeWindow
  exact hs1.other.modReq

theorem Keeps.rerun (hs : Keeps φ s₀ s) {rid : ℕ} : Keeps φ s₀ (s.rerun rid) := by
  unfold State.rerun
  split
  · exact hs.rerunPart
  next r held =>
    refine .ite hs (.ite hs.endWith ?_)
    extract_lets s1 s2 s3
    have grown : s.nextRid ≤ (s.idleRills rid).nextRid := ((Keeps.refl (φ := φ) s).idleRills).rids
    have hs1 : Keeps φ s₀ s1 := hs.idleRills.setReq fun n => ((hs.numbered n).below held).trans_le grown
    have hs2 : Keeps φ s₀ s2 := hs1.leaveWindows
    have hs3 : Keeps φ s₀ s3 := .ite hs2.joinWindows hs2
    exact .ite hs3.againFetch hs3.resendParts

theorem Keeps.wake (hs : Keeps φ s₀ s) {w : Waiter} : Keeps φ s₀ (s.wake w) := by
  unfold State.wake
  split
  · exact hs.modReq
  · exact hs.runPart
  · exact hs

theorem Keeps.tierFail (hs : Keeps φ s₀ s) {w : Waiter} : Keeps φ s₀ (s.tierFail w) := by
  unfold State.tierFail
  split
  · exact hs.endWith
  · exact hs.endPart
  · extract_lets +onlyGivenNames h
    exact hs.setFn fun _ _ => .refl _

theorem Keeps.takeOut (hs : Keeps ⟨md, ck, lb, wd, true⟩ s₀ s) {b t rid : ℕ} :
    Keeps ⟨md, ck, lb, wd, true⟩ s₀ (s.takeOut b t rid) := by
  unfold State.takeOut
  exact hs.retire.pointOut.endWith

theorem Keeps.setRun (hs : Keeps φ s₀ s) {rid : ℕ} {v : PhaseRun} : Keeps φ s₀ (s.setRun rid v) := by
  unfold State.setRun
  extract_lets src
  have hsrc : Keeps φ s₀ src := hs.modReq
  exact hsrc.other

theorem Keeps.runOnSpare (hs : Keeps φ s₀ s) {rid : ℕ} {inSpares : Bool} {spare : Option (ℕ × ℕ)} :
    Keeps φ s₀ (s.runOnSpare rid inSpares spare) := by
  unfold State.runOnSpare
  extract_lets s1
  have hs1 : Keeps φ s₀ s1 := .ite hs.modReq hs
  exact hs1.setRun.rerun

theorem Keeps.retireRunnel (hs : Keeps ⟨md, ck, lb, wd, true⟩ s₀ s) {rid l : ℕ} :
    Keeps ⟨md, ck, lb, wd, true⟩ s₀ (s.retireRunnel rid l) := by
  unfold State.retireRunnel
  extract_lets b t
  exact .ite hs.retireMapped.takeOut hs.retireMapped.runOnSpare

theorem Keeps.lasting (hs : Keeps ⟨md, ck, lb, wd, true⟩ s₀ s) {rid : ℕ} {c : Charge} :
    Keeps ⟨md, ck, lb, wd, true⟩ s₀ (s.lasting rid c) := by
  unfold State.lasting
  extract_lets +onlyGivenNames s0 l b t
  have hs0 : Keeps ⟨md, ck, lb, wd, true⟩ s₀ s0 := hs.bumpSat fun _ => rfl
  refine .ite ?_ ?_
  · extract_lets +onlyGivenNames rn
    refine .ite hs0.retireMapped.retireRunnel ?_
    extract_lets s1
    have hs1 : Keeps ⟨md, ck, lb, wd, true⟩ s₀ s1 := hs0.retireMapped
    exact hs1.runOnSpare
  · refine .ite (Keeps.ite (hs0.bumpSat fun _ => rfl) hs0).retireRunnel ?_
    refine .ite ?_ ?_
    · extract_lets +onlyGivenNames s1
      have hs1 : Keeps ⟨md, ck, lb, wd, true⟩ s₀ s1 := hs0.bumpSat fun _ => ServedReg.inst (k := Reg.CASC_ERR) rfl _
      refine .ite hs1.retire.takeOut ?_
      extract_lets s2
      have hs2 : Keeps ⟨md, ck, lb, wd, true⟩ s₀ s2 := hs1.retire
      exact hs2.runOnSpare
    · refine .ite ?_ ?_
      · extract_lets s1
        have hs1 : Keeps ⟨md, ck, lb, wd, true⟩ s₀ s1 := (hs0.bumpSat fun _ => rfl).retire
        exact hs1.runOnSpare
      · refine .ite ?_ hs0.endWith
        extract_lets others s1
        have hs1 : Keeps ⟨md, ck, lb, wd, true⟩ s₀ s1 := hs0.retire.setSpout.issueRefresh.runOnSpare
        exact .foldl hs1 fun _ _ ht => ht.rerun

theorem Keeps.phaseFault (hs : Keeps ⟨md, ck, lb, wd, true⟩ s₀ s) {rid : ℕ} {c : Charge} {injected : Bool} :
    Keeps ⟨md, ck, lb, wd, true⟩ s₀ (s.phaseFault rid c injected) := by
  unfold State.phaseFault
  split
  · exact hs
  · extract_lets +onlyGivenNames fenced
    refine .ite (hs.bumpSat fun _ => rfl).rerun ?_
    refine .ite hs.endWith ?_
    refine .ite hs.rerun ?_
    extract_lets u clear
    have hclear : ∀ t, Keeps ⟨md, ck, lb, wd, true⟩ s₀ t → Keeps ⟨md, ck, lb, wd, true⟩ s₀ (clear t) :=
      fun _ ht => .ite (ht.bumpSat fun _ => rfl) ht
    exact .ite ((hclear _ hs).bumpSat fun _ => rfl).setRun.rerun (.ite hs.endWith (.ite hs.lasting (hclear _ hs).setRun.rerun))

theorem Keeps.abortOrHold (hs : Keeps φ s₀ s) {rid : ℕ} {wasRunning : Bool} : Keeps φ s₀ (s.abortOrHold rid wasRunning) := by
  unfold State.abortOrHold
  refine .ite hs.endWith ?_
  extract_lets s1
  have hs1 : Keeps φ s₀ s1 := .ite hs.rerun hs
  exact hs1.leaveWindows.modReq

theorem Keeps.fence (hs : Keeps φ s₀ s) {b : ℕ} : Keeps φ s₀ (s.fence b) := by
  unfold State.fence
  extract_lets here s1
  have hs1 : Keeps φ s₀ s1 := .foldl hs fun _ _ ht => .ite ht.abortOrHold (.ite ht.rerun ht)
  exact .foldl hs1 fun _ _ ht => ht.rerunPart

theorem Keeps.holdOut (hs : Keeps ⟨true, c, l, true, true⟩ s₀ s) {b : ℕ} : Keeps ⟨true, c, l, true, true⟩ s₀ (s.holdOut b) := by
  unfold State.holdOut
  extract_lets v s1 _ s2
  have hs1 : Keeps ⟨true, c, l, true, true⟩ s₀ s1 := (hs.setBasin fun _ => Basin.legal_out rfl rfl).bumpSat
  have hs2 : Keeps ⟨true, c, l, true, true⟩ s₀ s2 := hs1.withRst (by exact hs1.phases)
  exact .foldl (.foldl hs2 fun _ _ ht => ht.rerunPart) fun _ _ ht => .ite (.ite ht.endWith ht.rerun) ht

theorem Keeps.stateChange (hs : Keeps ⟨md, ck, lb, true, true⟩ s₀ s) : Keeps ⟨md, ck, lb, true, true⟩ s₀ s.stateChange := by
  unfold State.stateChange
  exact hs.hqEventAll

theorem Keeps.beginRestart (hs : Keeps ⟨true, c, l, true, true⟩ s₀ s) {b : ℕ} {cause : Cause} {counted asked : Bool} :
    Keeps ⟨true, c, l, true, true⟩ s₀ (s.beginRestart b cause counted asked) := by
  unfold State.beginRestart
  extract_lets +onlyGivenNames v
  refine .ite hs ?_
  extract_lets +onlyGivenNames recent
  refine .ite hs (.ite hs.logEvent.holdOut.stateChange ?_)
  extract_lets again first firstCount attempts starts s0 s1 _ s2 s3 s4
  have hs1 : Keeps ⟨true, c, l, true, true⟩ s₀ s1 :=
    hs.logEvent.setRegF.setRegF.setBasin fun _ => Basin.legal_restarting (n := 1) rfl rfl (by decide)
  have hs2 : Keeps ⟨true, c, l, true, true⟩ s₀ s2 := hs1.withRst (by exact hs1.phases)
  have hs3 : Keeps ⟨true, c, l, true, true⟩ s₀ s3 := .ite hs2.bumpSat hs2.bumpSat
  exact .ite hs3.fence.stateChange hs3.fence

theorem Keeps.startRestart (hs : Keeps ⟨true, c, l, true, true⟩ s₀ s) {b : ℕ} {cause : Cause} :
    Keeps ⟨true, c, l, true, true⟩ s₀ (s.startRestart b cause) := hs.beginRestart

theorem Keeps.repeatRestart (hs : Keeps ⟨true, c, l, true, true⟩ s₀ s) {b : ℕ} :
    Keeps ⟨true, c, l, true, true⟩ s₀ (s.repeatRestart b) := by
  unfold State.repeatRestart
  exact hs.beginRestart

/-! ### Machine/Rills -/

theorem Keeps.countRillFault (hs : Keeps ⟨md, ck, lb, true, true⟩ s₀ s) {k code : ℕ} :
    Keeps ⟨md, ck, lb, true, true⟩ s₀ (s.countRillFault k code) := by
  unfold State.countRillFault
  extract_lets s1
  have hs1 : Keeps ⟨md, ck, lb, true, true⟩ s₀ s1 := hs.bumpSat
  exact .ite hs1.bumpSat hs1

theorem Keeps.rillFaults (hs : Keeps ⟨md, ck, lb, true, true⟩ s₀ s) {k : ℕ} {fs : List RFault} :
    Keeps ⟨md, ck, lb, true, true⟩ s₀ (s.rillFaults k fs) := by
  unfold State.rillFaults
  split
  · exact hs
  · extract_lets r _ s1 s2 s3
    have hs1 : Keeps ⟨md, ck, lb, true, true⟩ s₀ s1 := hs.setRill
    have hs2 : Keeps ⟨md, ck, lb, true, true⟩ s₀ s2 := (Keeps.foldl hs1 fun _ _ ht => ht.countRillFault).settleMaps
    have hs3 : Keeps ⟨md, ck, lb, true, true⟩ s₀ s3 := .ite hs2.bump hs2
    split
    · exact hs3.phaseFault
    · exact hs3

theorem execRillDispatch_answers (hs : Keeps ⟨md, ck, lb, true, true⟩ s₀ s) {n : RillName} {work : RillWork} :
    Answers ⟨md, ck, lb, true, true⟩ s₀ (execRillDispatch n work s) := by
  unfold execRillDispatch
  split
  · extract_lets r
    exact .ite (.next hs.setRill) (.next hs)
  · exact .next hs

theorem execRillImageLoad_answers (hs : Keeps ⟨md, ck, lb, true, true⟩ s₀ s) {n : RillName} {func : Fin 9} :
    Answers ⟨md, ck, lb, true, true⟩ s₀ (execRillImageLoad n func s) := by
  unfold execRillImageLoad
  split
  · extract_lets r
    exact .ite (.next hs) (.ite (.next hs.setRill.bump) (.next hs.bumpSat))
  · exact .next hs

theorem Keeps.putSram (hs : Keeps ⟨md, ck, lb, true, true⟩ s₀ s) {rk rid addr : ℕ} {bs : List Byte} :
    Keeps ⟨md, ck, lb, true, true⟩ s₀ (s.putSram rk rid addr bs) := by
  unfold State.putSram
  extract_lets m users
  exact hs.setSram

theorem Keeps.putStaging (hs : Keeps ⟨md, ck, lb, true, true⟩ s₀ s) {t addr : ℕ} {bs : List Byte} :
    Keeps ⟨md, ck, lb, true, true⟩ s₀ (s.putStaging t addr bs) := by
  unfold State.putStaging
  exact hs.setStaging

theorem Keeps.sramWrite (hs : Keeps ⟨md, ck, lb, true, true⟩ s₀ s) {k : ℕ} {g : Signal} :
    Keeps ⟨md, ck, lb, true, true⟩ s₀ (s.sramWrite k g) := by
  unfold State.sramWrite
  split
  · exact .ite hs.putSram hs
  · exact .ite hs.putStaging hs
  · exact hs

theorem Keeps.eventFaults (hs : Keeps ⟨md, ck, lb, true, true⟩ s₀ s) {b : ℕ} {x : RillEvent} :
    Keeps ⟨md, ck, lb, true, true⟩ s₀ (s.eventFaults b x).2 := by
  unfold State.eventFaults
  split
  · exact hs
  · exact hs
  · exact hs
  · exact hs
  · exact hs
  · exact hs
  · split
    · exact hs
    · extract_lets a
      have ha : Keeps ⟨md, ck, lb, true, true⟩ s₀ a.2 := hs.rangeOk
      exact ha

theorem Keeps.allFaults (hs : Keeps ⟨md, ck, lb, true, true⟩ s₀ s) {b : ℕ} {l : List RillEvent} :
    Keeps ⟨md, ck, lb, true, true⟩ s₀ (s.allFaults b l).2 := by
  induction l generalizing s with
  | nil => exact hs
  | cons e es ih => exact ih hs.eventFaults

theorem Keeps.countCorrected (hs : Keeps ⟨md, ck, lb, true, true⟩ s₀ s) {k : ℕ} {x : RillEvent} :
    Keeps ⟨md, ck, lb, true, true⟩ s₀ (s.countCorrected k x) := by
  unfold State.countCorrected
  split
  · exact hs.bumpSat
  · exact hs.bumpSat
  · extract_lets t
    refine .ite ?_ hs.putStaging
    split
    · exact hs.putSram
    · exact hs
  · exact hs

theorem execRillTransferDone_answers (hs : Keeps ⟨md, ck, lb, true, true⟩ s₀ s) {n : RillName} {sigs : List Signal} {evs : List RillEvent} :
    Answers ⟨md, ck, lb, true, true⟩ s₀ (execRillTransferDone n sigs evs s) := by
  unfold execRillTransferDone
  split
  · extract_lets r inj out ev fs s1 s2 s3
    have hev : Keeps ⟨md, ck, lb, true, true⟩ s₀ ev.2 := hs.allFaults
    have hs1 : Keeps ⟨md, ck, lb, true, true⟩ s₀ s1 := .foldl hev.setRill fun _ _ ht => ht.sramWrite
    have hs2 : Keeps ⟨md, ck, lb, true, true⟩ s₀ s2 := .foldl hs1 fun _ _ ht => ht.countCorrected
    have hs3 : Keeps ⟨md, ck, lb, true, true⟩ s₀ s3 := .ite hs2 hs2.setRegF
    exact .next hs3.rillFaults
  · exact .next hs

theorem execRillWait_answers (hs : Keeps ⟨md, ck, lb, true, true⟩ s₀ s) {n : RillName} {eng : Fin 5} {flag : Fin 32} {th : Fin 256} {pc : Fin 4096} :
    Answers ⟨md, ck, lb, true, true⟩ s₀ (execRillWait n eng flag th pc s) := by
  unfold execRillWait
  split
  · extract_lets +onlyGivenNames r
    refine .ite ?_ (.next hs)
    extract_lets deaf
    exact .next hs.setRill
  · exact .next hs

theorem execFlagTimeout_answers (hs : Keeps ⟨md, ck, lb, true, true⟩ s₀ s) {n : RillName} {eng : Fin 5} :
    Answers ⟨md, ck, lb, true, true⟩ s₀ (execFlagTimeout n eng s) := by
  unfold execFlagTimeout
  split
  · extract_lets r
    split
    · extract_lets s1
      have hs1 : Keeps ⟨md, ck, lb, true, true⟩ s₀ s1 := .ite hs.setRegF hs
      exact .next hs1.rillFaults
    · exact .next hs
  · exact .next hs

theorem execStall_answers (hs : Keeps ⟨md, ck, lb, true, true⟩ s₀ s) {n : RillName} {eng : Fin 5} {pc : Fin 4096} :
    Answers ⟨md, ck, lb, true, true⟩ s₀ (execStall n eng pc s) := by
  unfold execStall
  split
  · split
    · exact .next hs.rillFaults
    · exact .next hs.rillFaults
    · exact .next hs
  · exact .next hs

theorem execBarrierArrive_answers (hs : Keeps ⟨md, ck, lb, true, true⟩ s₀ s) {n : RillName} {eng : Fin 5} {num : Fin 4} {mask : Fin 32} {pc : Fin 4096} :
    Answers ⟨md, ck, lb, true, true⟩ s₀ (execBarrierArrive n eng num mask pc s) := by
  unfold execBarrierArrive
  split
  · extract_lets +onlyGivenNames r
    refine .ite (.next hs) ?_
    extract_lets +onlyGivenNames cur clash
    refine .ite (.next hs.rillFaults) ?_
    extract_lets arrived
    exact .ite (.next hs.setRill) (.next hs.setRill)
  · exact .next hs

theorem execBarrierTimeout_answers (hs : Keeps ⟨md, ck, lb, true, true⟩ s₀ s) {n : RillName} {num : Fin 4} :
    Answers ⟨md, ck, lb, true, true⟩ s₀ (execBarrierTimeout n num s) := by
  unfold execBarrierTimeout
  split
  · split
    · extract_lets e pc
      exact .next hs.rillFaults
    · exact .next hs
  · exact .next hs

theorem Keeps.holdFull (hs : Keeps ⟨md, ck, lb, true, true⟩ s₀ s) {rk dest : ℕ} :
    Keeps ⟨md, ck, lb, true, true⟩ s₀ (s.holdFull rk dest) := by
  unfold State.holdFull
  extract_lets full q more
  exact .ite hs.setRouter.bumpSat hs

theorem Keeps.bufferMsg (hs : Keeps ⟨md, ck, lb, true, true⟩ s₀ s) {rk : ℕ} {m : Msg} :
    Keeps ⟨md, ck, lb, true, true⟩ s₀ (s.bufferMsg rk m) := by
  unfold State.bufferMsg
  exact hs.setRouter.holdFull

theorem Keeps.rillSend (hs : Keeps ⟨md, ck, lb, true, true⟩ s₀ s) {n : RillName} {k : ℕ} {hdr payload : List Byte} {pc : ℕ} :
    Keeps ⟨md, ck, lb, true, true⟩ s₀ (s.rillSend n k hdr payload pc) := by
  unfold State.rillSend
  extract_lets +onlyGivenNames r e maySend dest d net
  have hnet : ∀ t, Keeps ⟨md, ck, lb, true, true⟩ s₀ t → Keeps ⟨md, ck, lb, true, true⟩ s₀ (net t) := fun _ ht => ht.rillFaults
  refine .ite hs ?_
  refine .ite hs.setRegF.rillFaults ?_
  refine .ite hs.rillFaults ?_
  refine .ite (hnet _ hs) ?_
  split
  · exact hnet _ hs
  · extract_lets +onlyGivenNames rk full
    refine .ite ?_ hs.setRill.bufferMsg
    extract_lets s1
    have hs1 : Keeps ⟨md, ck, lb, true, true⟩ s₀ s1 := hs.setRill
    exact .ite hs1.bumpSat hs1

theorem Keeps.pumpSend (hs : Keeps ⟨md, ck, lb, true, true⟩ s₀ s) {b : ℕ} {hdr payload : List Byte} :
    Keeps ⟨md, ck, lb, true, true⟩ s₀ (s.pumpSend b hdr payload) := by
  unfold State.pumpSend
  extract_lets +onlyGivenNames dest d
  refine .ite hs ?_
  split
  · exact hs
  · extract_lets +onlyGivenNames rk
    refine .ite hs ?_
    extract_lets f
    have hf : Keeps ⟨md, ck, lb, true, true⟩ s₀ f.2 := hs.takeFree
    exact hf.bufferMsg

theorem execMailboxSend_answers (hs : Keeps ⟨md, ck, lb, true, true⟩ s₀ s) {sender : Sender} {hdr payload : List Byte} {pc : Fin 4096} :
    Answers ⟨md, ck, lb, true, true⟩ s₀ (execMailboxSend sender hdr payload pc s) := by
  unfold execMailboxSend
  split
  · exact .next hs.pumpSend
  · split
    · exact .next hs.rillSend
    · exact .next hs

theorem Keeps.deliverTo (hs : Keeps ⟨md, ck, lb, true, true⟩ s₀ s) {k : ℕ} {m : Msg} :
    Keeps ⟨md, ck, lb, true, true⟩ s₀ (s.deliverTo k m) := by
  unfold State.deliverTo
  extract_lets r r1
  exact .ite hs.setRill.rillFaults hs.setRill

theorem execMessageDelivery_answers (hs : Keeps ⟨md, ck, lb, true, true⟩ s₀ s) {n : RunnelName} {pos : ℕ} :
    Answers ⟨md, ck, lb, true, true⟩ s₀ (execMessageDelivery n pos s) := by
  unfold execMessageDelivery
  split
  · extract_lets +onlyGivenNames rk q
    split
    · split
      · extract_lets +onlyGivenNames r
        refine .ite (.next hs) ?_
        extract_lets s1
        have hs1 : Keeps ⟨md, ck, lb, true, true⟩ s₀ s1 := hs.setRouter.bump
        exact .next hs1.deliverTo.holdFull
      · exact .next hs
    · exact .next hs
  · exact .next hs

theorem execRingSlotRelease_answers (hs : Keeps ⟨md, ck, lb, true, true⟩ s₀ s) {n : RillName} :
    Answers ⟨md, ck, lb, true, true⟩ s₀ (execRingSlotRelease n s) := by
  unfold execRingSlotRelease
  split
  · extract_lets r
    exact .ite (.next hs) (.next hs.setRill)
  · exact .next hs

theorem execBridgeFlitError_answers (hs : Keeps ⟨md, ck, lb, true, true⟩ s₀ s) {link : Fin 4} {first : Bool} :
    Answers ⟨md, ck, lb, true, true⟩ s₀ (execBridgeFlitError link first s) := by
  unfold execBridgeFlitError
  extract_lets +onlyGivenNames b net
  refine .ite (.next hs) ?_
  extract_lets tries
  exact .ite (.next hs.setBridge) (.next hs.setBridge.bumpSat)

theorem execBridgeRetrainDone_answers (hs : Keeps ⟨true, c, l, true, true⟩ s₀ s) {link : Fin 4} {ok : Bool} :
    Answers ⟨true, c, l, true, true⟩ s₀ (execBridgeRetrainDone link ok s) := by
  unfold execBridgeRetrainDone
  extract_lets +onlyGivenNames b
  refine .ite (.next hs) ?_
  refine .ite (.next hs.setBridge) ?_
  refine .ite (.next hs.setBridge) ?_
  extract_lets s1
  have hs1 : Keeps ⟨true, c, l, true, true⟩ s₀ s1 := hs.setBridge
  exact .next (.ite hs1.startRestart hs1.startRestart)

theorem execPumphouseHeartbeat_answers (hs : Keeps ⟨true, c, l, true, true⟩ s₀ s) {basin : Fin 2} {seq : U32} :
    Answers ⟨true, c, l, true, true⟩ s₀ (execPumphouseHeartbeat basin seq s) := by
  unfold execPumphouseHeartbeat
  exact .ite (.next hs) (.next (hs.setBasin (by exact fun old => hs.legal old basin)))

theorem execInjectRillTimeout_answers (hs : Keeps ⟨md, ck, lb, true, true⟩ s₀ s) :
    Answers ⟨md, ck, lb, true, true⟩ s₀ (execInjectRillTimeout s) := by
  unfold execInjectRillTimeout
  exact .next hs.writeOne

theorem execInjectRillScrEcc_answers (hs : Keeps ⟨md, ck, lb, true, true⟩ s₀ s) :
    Answers ⟨md, ck, lb, true, true⟩ s₀ (execInjectRillScrEcc s) := by
  unfold execInjectRillScrEcc
  exact .next hs.writeOne

/-! ### Machine/Heaps -/

theorem Keeps.exchangeQuery (hs : Keeps ⟨md, ck, lb, true, true⟩ s₀ s) {rk : ℕ} {q : ℕ × ℕ} :
    Keeps ⟨md, ck, lb, true, true⟩ s₀ (s.exchangeQuery rk q) := by
  unfold State.exchangeQuery
  split
  · exact hs
  · exact hs.other

theorem execWaterlineExchangeRunnel_answers (hs : Keeps ⟨md, ck, lb, true, true⟩ s₀ s) {terrace : TerraceName} {runnel : Fin 16} :
    Answers ⟨md, ck, lb, true, true⟩ s₀ (execWaterlineExchangeRunnel terrace runnel s) := by
  unfold execWaterlineExchangeRunnel
  split
  · exact .next hs
  · extract_lets rk
    exact .next (.foldl hs fun _ _ ht => ht.exchangeQuery)

theorem Keeps.scanMember (hs : Keeps ⟨md, ck, lb, true, true⟩ s₀ s) {x : Index} {v : ℕ × List ℕ} {rill : Option ℕ} {m : ℕ × ℕ} :
    Keeps ⟨md, ck, lb, true, true⟩ s₀ (s.scanMember x v rill m) := by
  unfold State.scanMember
  split
  · exact hs
  · extract_lets +onlyGivenNames count
    have hcount : ∀ t n k, Keeps ⟨md, ck, lb, true, true⟩ s₀ t → Keeps ⟨md, ck, lb, true, true⟩ s₀ (count t n k) :=
      fun _ _ _ ht => ht.bump.bump
    refine .ite ?_ ?_
    · extract_lets c
      exact hcount _ _ _ hs
    · split
      · extract_lets c t
        exact hcount _ _ _ hs.setRill
      · exact hs

theorem Keeps.denseStream (hs : Keeps ⟨md, ck, lb, true, true⟩ s₀ s) {x : Index} {slice basin : ℕ} {v : ℕ × List ℕ} {ms : List (ℕ × ℕ)} :
    Keeps ⟨md, ck, lb, true, true⟩ s₀ (s.denseStream x slice basin v ms) := by
  unfold State.denseStream
  extract_lets f g rs rk bytes banks t1 t2
  have hg : Keeps ⟨md, ck, lb, true, true⟩ s₀ g.2 := Keeps.takeFree hs.takeFree
  have ht1 : Keeps ⟨md, ck, lb, true, true⟩ s₀ t1 := by
    unfold t1
    cases rk
    · exact hg
    · exact hg.setSram
  have ht2 : Keeps ⟨md, ck, lb, true, true⟩ s₀ t2 := by
    refine .foldl ht1 fun _ _ ht => ?_
    split
    · exact ht.scanMember
    · exact ht
  exact ht2.bump

/-! ### Machine/Spouts -/

theorem Keeps.issue (hs : Keeps ⟨md, ck, lb, true, true⟩ s₀ s) {n : SpoutName} {op opnd : ℕ} :
    Keeps ⟨md, ck, lb, true, true⟩ s₀ (s.issue n op opnd) := by
  unfold State.issue
  extract_lets +onlyGivenNames w s1
  have hs1 : Keeps ⟨md, ck, lb, true, true⟩ s₀ s1 := hs.emit
  exact hs1.other

theorem Keeps.spoutCmd (hs : Keeps ⟨md, ck, lb, true, true⟩ s₀ s) {n : SpoutName} {op opnd : ℕ} {inOrder : Spout → Bool} {eff : Spout → Spout} :
    Keeps ⟨md, ck, lb, true, true⟩ s₀ (s.spoutCmd n op opnd inOrder eff) := by
  unfold State.spoutCmd
  extract_lets +onlyGivenNames k
  refine .ite hs ?_
  extract_lets sp
  exact hs.setSpout.issue

theorem execSpact_answers (hs : Keeps ⟨md, ck, lb, true, true⟩ s₀ s) {n : SpoutName} {row : U16} :
    Answers ⟨md, ck, lb, true, true⟩ s₀ (execSpact n row s) := by
  unfold execSpact
  exact .next hs.spoutCmd

theorem Keeps.spoutRead (hs : Keeps ⟨md, ck, lb, true, true⟩ s₀ s) {n : SpoutName} {op opnd : ℕ} {sp' : Spout} :
    Keeps ⟨md, ck, lb, true, true⟩ s₀ (s.spoutRead n op opnd sp') := by
  unfold State.spoutRead
  extract_lets k sp whole skip s1
  have hs1 : Keeps ⟨md, ck, lb, true, true⟩ s₀ s1 := hs.setSpout.issue
  exact .ite hs1 hs1.bump.bump

theorem execSpseg_answers (hs : Keeps ⟨md, ck, lb, true, true⟩ s₀ s) {n : SpoutName} {seg : Fin 4} {data : List Byte} {uncorrectable parity : Bool} :
    Answers ⟨md, ck, lb, true, true⟩ s₀ (execSpseg n seg data uncorrectable parity s) := by
  unfold execSpseg
  extract_lets k st count sp
  have hcount : ∀ t, Keeps ⟨md, ck, lb, true, true⟩ s₀ t → Keeps ⟨md, ck, lb, true, true⟩ s₀ (count t) := fun _ ht => ht.bump
  refine .ite (.next hs) ?_
  split
  · extract_lets +onlyGivenNames sp1
    refine .ite (.next hs) ?_
    extract_lets sp2
    exact .next (hcount _ hs.spoutRead)
  · exact .next (hcount _ hs.spoutCmd)

theorem execSppre_answers (hs : Keeps ⟨md, ck, lb, true, true⟩ s₀ s) {n : SpoutName} :
    Answers ⟨md, ck, lb, true, true⟩ s₀ (execSppre n s) := by
  unfold execSppre
  exact .next hs.spoutCmd.issueRefresh

theorem execSpload_answers (hs : Keeps ⟨md, ck, lb, true, true⟩ s₀ s) {n : SpoutName} {ctx : Fin 8} {rec : List Byte} {query : Option (ℕ × ℕ)} :
    Answers ⟨md, ck, lb, true, true⟩ s₀ (execSpload n ctx rec query s) := by
  unfold execSpload
  exact .next hs.spoutCmd

theorem execSpwl_answers (hs : Keeps ⟨md, ck, lb, true, true⟩ s₀ s) {n : SpoutName} {ctx : Fin 8} {burst : List Byte} :
    Answers ⟨md, ck, lb, true, true⟩ s₀ (execSpwl n ctx burst s) := by
  unfold execSpwl
  exact .next hs.spoutCmd

theorem execSpblk_answers (hs : Keeps ⟨md, ck, lb, true, true⟩ s₀ s) {n : SpoutName} {start : Fin 1024} :
    Answers ⟨md, ck, lb, true, true⟩ s₀ (execSpblk n start s) := by
  unfold execSpblk
  exact .next hs.spoutCmd

theorem execSpfeed_answers (hs : Keeps ⟨md, ck, lb, true, true⟩ s₀ s) {n : SpoutName} {feed : SpFeed} :
    Answers ⟨md, ck, lb, true, true⟩ s₀ (execSpfeed n feed s) := by
  unfold execSpfeed
  extract_lets k st sp sp1
  exact .ite (.next hs) (.ite (.next hs.spoutCmd) (.ite (.next hs) (.next hs.spoutRead)))

theorem Keeps.spoutFault (hs : Keeps ⟨md, ck, lb, true, true⟩ s₀ s) {k : ℕ} {rids : List ℕ} {injected : Bool} :
    Keeps ⟨md, ck, lb, true, true⟩ s₀ (s.spoutFault k rids injected) := by
  unfold State.spoutFault
  extract_lets s1
  have hs1 : Keeps ⟨md, ck, lb, true, true⟩ s₀ s1 := hs.bumpSat
  exact .foldl hs1 fun _ _ ht => ht.phaseFault

theorem Keeps.forward (hs : Keeps ⟨md, ck, lb, true, true⟩ s₀ s) {b : ℕ} {q : ℕ × ℕ} {rec : List Byte} :
    Keeps ⟨md, ck, lb, true, true⟩ s₀ (s.forward b q rec) := by
  unfold State.forward
  split
  · split
    · extract_lets c gid
      exact hs.setRill
    · exact hs
  · exact hs

theorem execSpdrain_answers (hs : Keeps ⟨md, ck, lb, true, true⟩ s₀ s) {n : SpoutName} {bus : DrainBus} :
    Answers ⟨md, ck, lb, true, true⟩ s₀ (execSpdrain n bus s) := by
  unfold execSpdrain
  extract_lets +onlyGivenNames k
  refine .ite (.next hs) ?_
  extract_lets +onlyGivenNames sp two sp1 s1 inj
  have hs1 : Keeps ⟨md, ck, lb, true, true⟩ s₀ s1 := hs.setSpout.issue
  split
  next x s2 e =>
    have hs2 : Keeps ⟨md, ck, lb, true, true⟩ s₀ s2 := by
      cases hi : inj
      · rw [hi] at e
        exact Keeps.snd (p := (0, s1)) hs1 e
      · rw [hi] at e
        exact hs1.takeFree.snd e
    extract_lets sent bs recs valid s3 s4
    have hs3 : Keeps ⟨md, ck, lb, true, true⟩ s₀ s3 := hs2.emit.bump
    have hs4 : Keeps ⟨md, ck, lb, true, true⟩ s₀ s4 := by
      refine .foldl hs3 fun _ _ ht => ?_
      split
      · exact ht.forward
      · exact ht
    exact .ite (.next hs4) (.next (Keeps.ite hs4.setRegF hs4).spoutFault)

theorem execSpstat_answers (hs : Keeps ⟨md, ck, lb, true, true⟩ s₀ s) {n : SpoutName} :
    Answers ⟨md, ck, lb, true, true⟩ s₀ (execSpstat n s) := by
  unfold execSpstat
  extract_lets +onlyGivenNames k
  refine .ite (.next hs) ?_
  extract_lets sp s1
  have hs1 : Keeps ⟨md, ck, lb, true, true⟩ s₀ s1 := hs.setSpout.issue.emit
  exact .next (.ite hs1 hs1.spoutFault)

theorem execSpclr_answers (hs : Keeps ⟨md, ck, lb, true, true⟩ s₀ s) {n : SpoutName} :
    Answers ⟨md, ck, lb, true, true⟩ s₀ (execSpclr n s) := by
  unfold execSpclr
  exact .next hs.spoutCmd

theorem execSpend_answers (hs : Keeps ⟨md, ck, lb, true, true⟩ s₀ s) {n : SpoutName} :
    Answers ⟨md, ck, lb, true, true⟩ s₀ (execSpend n s) := by
  unfold execSpend
  exact .next hs.spoutCmd

theorem execRawrd_answers (hs : Keeps ⟨md, ck, lb, true, true⟩ s₀ s) {n : SpoutName} {column : Fin 32} {burst : RawBurst} :
    Answers ⟨md, ck, lb, true, true⟩ s₀ (execRawrd n column burst s) := by
  unfold execRawrd
  extract_lets k
  exact .ite (.next hs) (.ite (.next hs.spoutCmd) (.next hs.issue.emit))

theorem execRefreshDue_answers (hs : Keeps ⟨md, ck, lb, true, true⟩ s₀ s) {n : StackName} {pc : Fin 16} {waits : List ℕ} :
    Answers ⟨md, ck, lb, true, true⟩ s₀ (execRefreshDue n pc waits s) := by
  unfold execRefreshDue
  extract_lets +onlyGivenNames k st spout isOpen pend put
  have hput : ∀ v, Keeps ⟨md, ck, lb, true, true⟩ s₀ (put v) := fun _ => hs.setStack
  refine .ite (.next (hput _)) ?_
  refine .ite (.next (hput _)) ?_
  extract_lets stopped cycles
  exact .next (hput _).bump.bump

theorem execScrubRun_answers (hs : Keeps ⟨md, ck, lb, true, true⟩ s₀ s) {basin complex : Fin 2} :
    Answers ⟨md, ck, lb, true, true⟩ s₀ (execScrubRun basin complex s) := by
  unfold execScrubRun
  extract_lets k st
  split
  · exact .ite (.next hs.setStack.bump) (.next hs)
  · exact .next hs

theorem execInjectSpoutCheck_answers (hs : Keeps ⟨md, ck, lb, true, true⟩ s₀ s) :
    Answers ⟨md, ck, lb, true, true⟩ s₀ (execInjectSpoutCheck s) := by
  unfold execInjectSpoutCheck
  exact .next hs.writeOne

/-! ### Machine/Migrate -/

theorem Keeps.countWindow (hs : Keeps ⟨md, ck, lb, true, true⟩ s₀ s) {i slot queries : ℕ} :
    Keeps ⟨md, ck, lb, true, true⟩ s₀ (s.countWindow i slot queries) := by
  unfold State.countWindow
  extract_lets +onlyGivenNames thin cs cs'
  exact hs.other

theorem Keeps.sealRuns (hs : Keeps ⟨md, ck, lb, true, true⟩ s₀ s) {check : Bool} {b stack : ℕ} {runs : List ℕ} :
    Keeps ⟨md, ck, lb, true, true⟩ s₀ (s.sealRuns check b stack runs) := by
  unfold State.sealRuns
  extract_lets k st
  exact .ite hs.setStack hs

theorem Keeps.sealArray (hs : Keeps ⟨md, ck, lb, true, true⟩ s₀ s) {check : Bool} {i h : ℕ} {a : BlkArr} :
    Keeps ⟨md, ck, lb, true, true⟩ s₀ (s.sealArray check i h a) := by
  unfold State.sealArray
  exact hs.sealRuns

theorem Keeps.sealNew (hs : Keeps ⟨md, ck, lb, true, true⟩ s₀ s) {check : Bool} {i : ℕ} {old : Option Index} {new : Index} :
    Keeps ⟨md, ck, lb, true, true⟩ s₀ (s.sealNew check i old new) := by
  unfold State.sealNew
  exact .foldl hs fun _ _ ht => ht.sealArray

theorem Keeps.abandonMigs (hs : Keeps ⟨md, ck, lb, true, true⟩ s₀ s) {p : Migration → Bool} :
    Keeps ⟨md, ck, lb, true, true⟩ s₀ (s.abandonMigs p) := by
  unfold State.abandonMigs
  extract_lets n _ s1
  have hs1 : Keeps ⟨md, ck, lb, true, true⟩ s₀ s1 := hs.other
  exact .ite hs1 hs1.bumpSat

theorem Keeps.abandonGrown (hs : Keeps ⟨md, ck, lb, true, true⟩ s₀ s) {i : ℕ} {old new : Index} :
    Keeps ⟨md, ck, lb, true, true⟩ s₀ (s.abandonGrown i old new) := by
  unfold State.abandonGrown
  exact hs.abandonMigs

theorem Keeps.placeArr (hs : Keeps ⟨md, ck, lb, true, true⟩ s₀ s) {i h : ℕ} {a : BlkArr} {n : ℕ} :
    Keeps ⟨md, ck, lb, true, true⟩ s₀ (s.placeArr i h a n) := by
  unfold State.placeArr
  extract_lets +onlyGivenNames f start own best used any rs src
  have hf : Keeps ⟨md, ck, lb, true, true⟩ s₀ f.2 := hs.takeFree
  have hsrc : Keeps ⟨md, ck, lb, true, true⟩ s₀ src := hf
  exact hsrc.other

theorem Keeps.placeNew (hs : Keeps ⟨md, ck, lb, true, true⟩ s₀ s) {i : ℕ} {old : Option Index} {new : Index} :
    Keeps ⟨md, ck, lb, true, true⟩ s₀ (s.placeNew i old new) := by
  unfold State.placeNew
  exact .foldl hs fun _ _ ht => ht.placeArr

theorem Keeps.placeList (hs : Keeps ⟨md, ck, lb, true, true⟩ s₀ s) {i slot b target : ℕ} {x : Index} :
    Keeps ⟨md, ck, lb, true, true⟩ s₀ (s.placeList i slot b target x).2 := by
  unfold State.placeList
  extract_lets f need n rs
  have hf : Keeps ⟨md, ck, lb, true, true⟩ s₀ f.2 := hs.takeFree
  exact hf

theorem Keeps.startMig (hs : Keeps ⟨md, ck, lb, true, true⟩ s₀ s) {w : MigWish} :
    Keeps ⟨md, ck, lb, true, true⟩ s₀ (s.startMig w).1 := by
  unfold State.startMig
  split
  · exact hs
  · extract_lets t
    split
    · exact hs
    · split
      · exact hs
      · dsimp only
        split
        · exact hs
        · split
          next ps s1 e => exact (hs.placeList.snd e).other
          next s1 e => exact hs.placeList.snd e

theorem Keeps.wish (hs : Keeps ⟨md, ck, lb, true, true⟩ s₀ s) {w : MigWish} : Keeps ⟨md, ck, lb, true, true⟩ s₀ (s.wish w) := by
  unfold State.wish
  refine .ite hs ?_
  extract_lets +onlyGivenNames r
  have hr : Keeps ⟨md, ck, lb, true, true⟩ s₀ r.1 := hs.startMig
  refine .ite hr ?_
  extract_lets +onlyGivenNames src
  have hsrc : Keeps ⟨md, ck, lb, true, true⟩ s₀ src := hr
  exact hsrc.other

theorem Keeps.pumpMigs (hs : Keeps ⟨md, ck, lb, true, true⟩ s₀ s) : Keeps ⟨md, ck, lb, true, true⟩ s₀ s.pumpMigs := by
  unfold State.pumpMigs
  extract_lets +onlyGivenNames ws
  exact .foldl hs.other fun _ _ ht => ht.wish

theorem execMigrationInterval_answers (hs : Keeps ⟨md, ck, lb, true, true⟩ s₀ s) {basin : Fin 2} :
    Answers ⟨md, ck, lb, true, true⟩ s₀ (execMigrationInterval basin s) := by
  unfold execMigrationInterval
  extract_lets +onlyGivenNames up down lists downs goDown _ s0 ups t1 s1
  have hgoDown : ∀ t m, Keeps ⟨md, ck, lb, true, true⟩ s₀ t → Keeps ⟨md, ck, lb, true, true⟩ s₀ (goDown t m) := fun _ _ ht => ht.wish
  have hs0 : Keeps ⟨md, ck, lb, true, true⟩ s₀ s0 := hs.other
  have ht1 : Keeps ⟨md, ck, lb, true, true⟩ s₀ t1 := by
    unfold t1
    refine .foldl hs0 fun _ _ ht => ?_
    extract_lets target fits t0
    have ht0 : Keeps ⟨md, ck, lb, true, true⟩ s₀ t0 := .ite ht (.foldl ht fun _ _ ht => hgoDown _ _ ht)
    exact ht0.wish
  have hs1 : Keeps ⟨md, ck, lb, true, true⟩ s₀ s1 := .ite (.foldl ht1 fun _ _ ht => hgoDown _ _ ht) hs0
  exact .next hs1.other

theorem Keeps.switchList (hs : Keeps ⟨md, ck, lb, true, true⟩ s₀ s) {m : Migration} {x : Index} :
    Keeps ⟨md, ck, lb, true, true⟩ s₀ (s.switchList m x) := by
  unfold State.switchList
  extract_lets hs' old rids _ x1 here _ s1
  have hs1 : Keeps ⟨md, ck, lb, true, true⟩ s₀ s1 := hs.other
  exact hs1.setIndex.sealNew.bumpSat

theorem execMigrationCopyDone_answers (hs : Keeps ⟨md, ck, lb, true, true⟩ s₀ s) {idx : Fin 32} {slot : ℕ} {same : Bool} :
    Answers ⟨md, ck, lb, true, true⟩ s₀ (execMigrationCopyDone idx slot same s) := by
  unfold execMigrationCopyDone
  split
  · exact .next (Keeps.ite hs.switchList hs.abandonMigs).pumpMigs
  · exact .next hs

/-! ### Machine/Tier -/

theorem Keeps.promote (hs : Keeps ⟨md, ck, lb, true, true⟩ s₀ s) {i h : ℕ} {img : Option (List Byte)} :
    Keeps ⟨md, ck, lb, true, true⟩ s₀ (s.promote i h img) := by
  unfold State.promote
  split
  · exact hs
  · split
    · exact hs
    · extract_lets w b _ s0 s1
      have hs0 : Keeps ⟨md, ck, lb, true, true⟩ s₀ s0 := hs.other
      have hs1 : Keeps ⟨md, ck, lb, true, true⟩ s₀ s1 := hs0.setIndex.placeArr
      exact hs1.sealArray.bump

theorem Keeps.noteNamed (hs : Keeps φ s₀ s) {w : Waiter} {lpns : List ℕ} : Keeps φ s₀ (s.noteNamed w lpns) := by
  unfold State.noteNamed
  extract_lets +onlyGivenNames ph
  exact hs.other

theorem Keeps.cacheFill (hs : Keeps φ s₀ s) {slice basin lpn : ℕ} : Keeps φ s₀ (s.cacheFill slice basin lpn) := by
  unfold State.cacheFill
  extract_lets +onlyGivenNames k l
  exact hs.other

theorem Keeps.startRead (hs : Keeps φ s₀ s) {t : Target} {w : Waiter} {slice basin : ℕ} :
    Keeps φ s₀ (s.startRead t w slice basin) := by
  unfold State.startRead
  refine .ite hs.withReads ?_
  extract_lets ms cold s1 s2 r
  have hs1 : Keeps φ s₀ s1 := .foldl hs fun _ _ ht => ht.mapLine
  have hs2 : Keeps φ s₀ s2 := .foldl hs1 fun _ _ ht => ht.readMap
  exact hs2.withReads.bump (fun _ => rfl) fun _ => rfl

theorem Keeps.nameError (hs : Keeps ⟨md, ck, lb, wd, true⟩ s₀ s) {w : Waiter} {via : Option (Fin 2)} :
    Keeps ⟨md, ck, lb, wd, true⟩ s₀ (s.nameError w via) := by
  unfold State.nameError
  split
  · exact hs.phaseFault
  · exact hs.phaseFault
  · extract_lets +onlyGivenNames h
    exact hs.setFn fun _ _ => .refl _

theorem Keeps.namePage (hs : Keeps ⟨md, ck, lb, wd, true⟩ s₀ s) {slice lpn : ℕ} {w : Waiter} :
    Keeps ⟨md, ck, lb, wd, true⟩ s₀ (s.namePage slice lpn w) := by
  unfold State.namePage
  exact .ite (hs.bump fun _ => rfl).cacheFill (.ite hs.nameError (.ite hs.nameError hs.startRead))

theorem Keeps.nameArray (hs : Keeps φ s₀ s) {i h : ℕ} {w : Waiter} : Keeps φ s₀ (s.nameArray i h w) := by
  unfold State.nameArray
  extract_lets out
  refine .ite hs.tierFail ?_
  refine .ite hs ?_
  split
  · exact hs.startRead
  · exact hs

theorem Keeps.nameLists (hs : Keeps φ s₀ s) {rid : ℕ} : Keeps φ s₀ (s.nameLists rid) := by
  unfold State.nameLists
  split
  · exact hs
  · extract_lets i
    split
    · exact hs
    · exact .foldl hs fun _ _ ht => .ite ht.tierFail (.foldl ht fun _ _ ht => ht.nameArray)

theorem Keeps.writePage (hs : Keeps ⟨md, ck, lb, true, true⟩ s₀ s) {slice lpn : ℕ} :
    Keeps ⟨md, ck, lb, true, true⟩ s₀ (s.writePage slice lpn) := by
  unfold State.writePage
  extract_lets stamp new old _ s1 s2
  have hs1 : Keeps ⟨md, ck, lb, true, true⟩ s₀ s1 := hs.other
  have hs2 : Keeps ⟨md, ck, lb, true, true⟩ s₀ s2 := hs1.cacheFill
  exact hs2.other

theorem Keeps.endRewrite (hs : Keeps ⟨md, ck, lb, true, true⟩ s₀ s) {b : ℕ × ℕ × ℕ} :
    Keeps ⟨md, ck, lb, true, true⟩ s₀ (s.endRewrite b) := by
  unfold State.endRewrite
  extract_lets +onlyGivenNames due
  refine .ite hs ?_
  extract_lets c
  exact hs.other

theorem Keeps.scheduleRewrite (hs : Keeps ⟨md, ck, lb, true, true⟩ s₀ s) {ppa : ℕ} :
    Keeps ⟨md, ck, lb, true, true⟩ s₀ (s.scheduleRewrite ppa) := by
  unfold State.scheduleRewrite
  extract_lets +onlyGivenNames b
  refine .ite hs ?_
  extract_lets _ s1
  have hs1 : Keeps ⟨md, ck, lb, true, true⟩ s₀ s1 := hs.other
  exact hs1.relocate.endRewrite.bumpSat

theorem Keeps.dropRead (hs : Keeps ⟨md, ck, lb, true, true⟩ s₀ s) {t : Target} :
    Keeps ⟨md, ck, lb, true, true⟩ s₀ (s.dropRead t) := by
  unfold State.dropRead
  exact hs.other

theorem Keeps.mapRead (hs : Keeps ⟨md, ck, lb, true, true⟩ s₀ s) {m : ℕ} : Keeps ⟨md, ck, lb, true, true⟩ s₀ (s.mapRead m) := by
  unfold State.mapRead
  extract_lets s1
  have hs1 : Keeps ⟨md, ck, lb, true, true⟩ s₀ s1 := hs.mapLine
  exact hs1.withReads.trimWaiting

theorem Keeps.mapLost (hs : Keeps ⟨md, ck, lb, true, true⟩ s₀ s) {m : ℕ} : Keeps ⟨md, ck, lb, true, true⟩ s₀ (s.mapLost m) := by
  unfold State.mapLost
  extract_lets es s1 hit _ s2
  have hs1 : Keeps ⟨md, ck, lb, true, true⟩ s₀ s1 := .foldl hs fun _ _ ht => ht.losePage.bumpSat
  have hs2 : Keeps ⟨md, ck, lb, true, true⟩ s₀ s2 := hs1.withReads.withCist
  exact .foldl hs2 fun _ _ ht => ht.tierFail

theorem Keeps.cleanStamp (hs : Keeps ⟨md, ck, lb, true, true⟩ s₀ s) {l : List PageCopy} :
    Keeps ⟨md, ck, lb, true, true⟩ s₀ (s.cleanStamp l).2 := by
  induction l generalizing s with
  | nil => exact hs
  | cons c cs ih => exact ih hs.takeFree

theorem Keeps.compareLine (hs : Keeps ⟨md, ck, lb, true, true⟩ s₀ s) {b : ℕ} {d : Dirty} :
    Keeps ⟨md, ck, lb, true, true⟩ s₀ (s.compareLine b d).2 := by
  unfold State.compareLine
  split
  · extract_lets r
    have hr : Keeps ⟨md, ck, lb, true, true⟩ s₀ r.2 := hs.cleanStamp
    exact hr
  · exact hs

theorem Keeps.comparePage (hs : Keeps ⟨md, ck, lb, true, true⟩ s₀ s) {b : ℕ} {p : ℕ × Dirty} :
    Keeps ⟨md, ck, lb, true, true⟩ s₀ (s.comparePage b p) := by
  unfold State.comparePage
  split
  next d s1 e =>
    have hs1 : Keeps ⟨md, ck, lb, true, true⟩ s₀ s1 := hs.compareLine.snd e
    exact hs1.other
  next s1 e =>
    have hs1 : Keeps ⟨md, ck, lb, true, true⟩ s₀ s1 := hs.compareLine.snd e
    exact hs1.other.losePage

theorem Keeps.compareMap (hs : Keeps ⟨md, ck, lb, true, true⟩ s₀ s) {b : ℕ} {p : ℕ × Dirty} :
    Keeps ⟨md, ck, lb, true, true⟩ s₀ (s.compareMap b p) := by
  unfold State.compareMap
  split
  next d s1 e =>
    have hs1 : Keeps ⟨md, ck, lb, true, true⟩ s₀ s1 := hs.compareLine.snd e
    exact hs1.withCist
  next s1 e =>
    have hs1 : Keeps ⟨md, ck, lb, true, true⟩ s₀ s1 := hs.compareLine.snd e
    exact hs1.withCist.mapLost

theorem Keeps.compareCopies (hs : Keeps ⟨md, ck, lb, true, true⟩ s₀ s) {b : ℕ} :
    Keeps ⟨md, ck, lb, true, true⟩ s₀ (s.compareCopies b) := by
  unfold State.compareCopies
  exact .foldl (.foldl hs fun _ _ ht => ht.comparePage) fun _ _ ht => ht.compareMap

theorem Keeps.readFailed (hs : Keeps ⟨md, ck, lb, true, true⟩ s₀ s) {r : LtRead} :
    Keeps ⟨md, ck, lb, true, true⟩ s₀ (s.readFailed r) := by
  unfold State.readFailed
  extract_lets m
  exact .ite (.ite hs.dropRead.mapLost hs.withReads.bump) (.foldl hs.dropRead.losePage fun _ _ ht => ht.tierFail)

theorem execLowerTierReadDone_answers (hs : Keeps ⟨md, ck, lb, true, true⟩ s₀ s) {target : LtTarget} {copy : LtCopy} {good : Bool} :
    Answers ⟨md, ck, lb, true, true⟩ s₀ (execLowerTierReadDone target copy good s) := by
  unfold execLowerTierReadDone
  dsimp only
  split
  · exact .next hs
  · refine .ite (.next hs) (.ite ?_ (.ite (.next hs.readFailed) (.next hs.withReads)))
    have dropped : Keeps ⟨md, ck, lb, true, true⟩ s₀ (s.dropRead (targetOf target)) := hs.dropRead
    refine .next (.foldl (.ite (.foldl (Keeps.bumpSat ?_) fun _ _ ht => ht.scheduleRewrite) ?_) fun _ _ ht => ht.wake)
    all_goals
      split
      · exact .ite dropped.mapRead dropped.cacheFill
      · exact dropped.promote

theorem execReadAroundStart_answers (hs : Keeps ⟨md, ck, lb, true, true⟩ s₀ s) {target : LtTarget} :
    Answers ⟨md, ck, lb, true, true⟩ s₀ (execReadAroundStart target s) := by
  unfold execReadAroundStart
  extract_lets t
  split
  · exact .next hs
  · refine .ite (.next hs) ?_
    extract_lets s1 s0 s2
    have hs1 : Keeps ⟨md, ck, lb, true, true⟩ s₀ s1 := hs.withReads
    have hs0 : Keeps ⟨md, ck, lb, true, true⟩ s₀ s0 := hs1.bump
    have hs2 : Keeps ⟨md, ck, lb, true, true⟩ s₀ s2 := .ite hs0.setRegF hs0
    exact .next (.ite (.foldl hs2 fun _ _ ht => ht.setRegF) hs2)

theorem execDemotion_answers (hs : Keeps ⟨md, ck, lb, true, true⟩ s₀ s) {slice : Fin 16} {basin : Fin 2} :
    Answers ⟨md, ck, lb, true, true⟩ s₀ (execDemotion slice basin s) := by
  unfold execDemotion
  extract_lets +onlyGivenNames floor freeOf
  refine .ite (.next hs) ?_
  extract_lets cands ordered
  exact .next (.foldl hs fun _ _ ht => .ite ht.other.bump ht)

theorem Keeps.mapClean (hs : Keeps ⟨md, ck, lb, true, true⟩ s₀ s) {m : ℕ} : Keeps ⟨md, ck, lb, true, true⟩ s₀ (s.mapClean m) := by
  unfold State.mapClean
  split
  · split
    · extract_lets c1
      split
      · extract_lets c2
        exact hs.withCist.trimWaiting
      · exact hs
    · exact hs
  · exact hs

theorem execPageClean_answers (hs : Keeps ⟨md, ck, lb, true, true⟩ s₀ s) {lpn : ℕ} :
    Answers ⟨md, ck, lb, true, true⟩ s₀ (execPageClean lpn s) := by
  unfold execPageClean
  refine .ite (.next hs.mapClean) ?_
  split
  · split
    · refine .ite (.next hs) ?_
      refine .ite (.next hs.readMapOf) ?_
      extract_lets _ m s1 s2
      have hs1 : Keeps ⟨md, ck, lb, true, true⟩ s₀ s1 := hs.other
      have hs2 : Keeps ⟨md, ck, lb, true, true⟩ s₀ s2 := hs1.mapSet
      exact .next (.foldl hs2 fun _ _ ht => ht.wake)
    · exact .next hs
  · exact .next hs

theorem Keeps.queueImages (hs : Keeps ⟨md, ck, lb, true, true⟩ s₀ s) {lpns : List ℕ} :
    Keeps ⟨md, ck, lb, true, true⟩ s₀ (s.queueImages lpns) := by
  unfold State.queueImages
  extract_lets +onlyGivenNames stamp
  exact hs.other

theorem Keeps.backArray (hs : Keeps ⟨md, ck, lb, true, true⟩ s₀ s) {i h : ℕ} {x : Index} :
    Keeps ⟨md, ck, lb, true, true⟩ s₀ (s.backArray i h x) := by
  unfold State.backArray
  split
  · extract_lets +onlyGivenNames n
    refine .ite hs ?_
    extract_lets +onlyGivenNames b
    exact hs.other.queueImages
  · exact hs

theorem Keeps.backTables (hs : Keeps ⟨md, ck, lb, true, true⟩ s₀ s) {i : ℕ} {x : Index} :
    Keeps ⟨md, ck, lb, true, true⟩ s₀ (s.backTables i x) := by
  unfold State.backTables
  extract_lets +onlyGivenNames have_ todo
  refine .ite hs ?_
  extract_lets +onlyGivenNames new
  exact hs.other.queueImages

theorem execBackingImageWrite_answers (hs : Keeps ⟨md, ck, lb, true, true⟩ s₀ s) {idx : Fin 32} {what : BackTarget} :
    Answers ⟨md, ck, lb, true, true⟩ s₀ (execBackingImageWrite idx what s) := by
  unfold execBackingImageWrite
  refine .next ?_
  split
  · split
    · exact hs.backArray
    · exact hs.backTables
  · exact hs

theorem Keeps.loseState (hs : Keeps ⟨md, ck, lb, true, true⟩ s₀ s) {rid : ℕ} :
    Keeps ⟨md, ck, lb, true, true⟩ s₀ (s.loseState rid) := by
  unfold State.loseState
  split
  next r held => exact .ite hs (.ite (hs.setReq fun n => (hs.numbered n).below held) hs.endWith)
  next => exact .ite hs.other hs.endWith

theorem Keeps.loseContent (hs : Keeps ⟨md, ck, lb, true, true⟩ s₀ s) {c : RowContent} :
    Keeps ⟨md, ck, lb, true, true⟩ s₀ (s.loseContent c) := by
  unfold State.loseContent
  split
  · exact hs.loseState
  · exact .ite hs hs.other
  · split
    · extract_lets +onlyGivenNames k
      exact .ite hs hs.other
    · exact hs
  · exact .ite hs hs.losePage
  · exact hs

theorem Keeps.moveArr (hs : Keeps ⟨md, ck, lb, true, true⟩ s₀ s) {i h : ℕ} {a : BlkArr} {bad : List ℕ} :
    Keeps ⟨md, ck, lb, true, true⟩ s₀ (s.moveArr i h a bad) := by
  unfold State.moveArr
  extract_lets +onlyGivenNames rs n f own fresh
  have hf : Keeps ⟨md, ck, lb, true, true⟩ s₀ f.2 := hs.takeFree
  refine .ite ?_ ?_
  · extract_lets +onlyGivenNames rs'
    refine .sealRuns ?_
    extract_lets +onlyGivenNames src
    have hsrc : Keeps ⟨md, ck, lb, true, true⟩ s₀ src := hf
    exact hsrc.other
  · extract_lets other
    split
    · extract_lets st b
      exact hf.setIndex.placeArr.sealArray
    · exact hf

theorem Keeps.moveFrames (hs : Keeps ⟨md, ck, lb, true, true⟩ s₀ s) {n : StackName} {bad : List ℕ} :
    Keeps ⟨md, ck, lb, true, true⟩ s₀ (s.moveFrames n bad) := by
  unfold State.moveFrames
  extract_lets +onlyGivenNames st
  refine .ite hs ?_
  extract_lets held
  refine .foldl hs fun _ _ ht => ?_
  split
  · exact ht.other
  · exact ht

theorem Keeps.moveOff (hs : Keeps ⟨md, ck, lb, true, true⟩ s₀ s) {n : StackName} {bad : List ℕ} :
    Keeps ⟨md, ck, lb, true, true⟩ s₀ (s.moveOff n bad) := by
  unfold State.moveOff
  exact .foldl hs.moveFrames fun _ _ ht => ht.moveArr

theorem Keeps.retireRow (hs : Keeps ⟨md, ck, lb, true, true⟩ s₀ s) {n : StackName} {r : DramRow} {pages : ℕ} :
    Keeps ⟨md, ck, lb, true, true⟩ s₀ (s.retireRow n r pages) := by
  unfold State.retireRow
  extract_lets k s1 st
  have hs1 : Keeps ⟨md, ck, lb, true, true⟩ s₀ s1 := hs.moveOff
  exact hs1.setStack

theorem Keeps.mendRow (hs : Keeps ⟨md, ck, lb, true, true⟩ s₀ s) {n : StackName} {r : DramRow} {spare : Bool} {pages : ℕ} :
    Keeps ⟨md, ck, lb, true, true⟩ s₀ (s.mendRow n r spare pages) := by
  unfold State.mendRow
  extract_lets +onlyGivenNames k
  refine .ite ?_ hs.retireRow
  extract_lets st
  exact hs.setStack

theorem Keeps.nameAgain (hs : Keeps ⟨md, ck, lb, true, true⟩ s₀ s) {rid : ℕ} :
    Keeps ⟨md, ck, lb, true, true⟩ s₀ (s.nameAgain rid) := by
  unfold State.nameAgain
  exact .ite hs.nameLists hs

theorem execHbmUncorrectableRead_answers (hs : Keeps ⟨md, ck, lb, true, true⟩ s₀ s) {n : StackName} {rid : ℕ} {row : DramRow} {recurs : Bool}
    {repair : RowRepair} {content : RowContent} :
    Answers ⟨md, ck, lb, true, true⟩ s₀ (execHbmUncorrectableRead n rid row recurs repair content s) := by
  unfold execHbmUncorrectableRead
  extract_lets +onlyGivenNames k inj s1
  have hs1 : Keeps ⟨md, ck, lb, true, true⟩ s₀ s1 := hs.bumpSat.setRegF
  refine .ite (.next hs1.bumpSat.rerun) ?_
  extract_lets +onlyGivenNames s2
  have hs2 : Keeps ⟨md, ck, lb, true, true⟩ s₀ s2 := hs1.bumpSat.bumpSat
  refine .ite (.next hs2.logEvent.loseContent.endWith) ?_
  extract_lets s3 s4
  have hs3 : Keeps ⟨md, ck, lb, true, true⟩ s₀ s3 := hs2.mendRow.logEvent.loseContent
  have hs4 : Keeps ⟨md, ck, lb, true, true⟩ s₀ s4 := .ite hs3.modReq hs3
  exact .next hs4.rerun.nameAgain

theorem Keeps.rowErrors (hs : Keeps ⟨md, ck, lb, true, true⟩ s₀ s) {n : StackName} {e : RowErrs} :
    Keeps ⟨md, ck, lb, true, true⟩ s₀ (s.rowErrors n e) := by
  unfold State.rowErrors
  extract_lets k st total s1
  have hs1 : Keeps ⟨md, ck, lb, true, true⟩ s₀ s1 := hs.setStack
  exact .ite hs1 hs1.mendRow.logEvent

theorem execHbmPatrol_answers (hs : Keeps ⟨md, ck, lb, true, true⟩ s₀ s) {n : StackName} {ondie : ℕ} {ctrl : List (List Byte)} {part : PatrolRows} :
    Answers ⟨md, ck, lb, true, true⟩ s₀ (execHbmPatrol n ondie ctrl part s) := by
  unfold execHbmPatrol
  extract_lets +onlyGivenNames k st bursts mended bad
  refine .ite (.next hs) ?_
  refine .ite (.next hs) ?_
  extract_lets +onlyGivenNames s0 s1 s2
  have hs0 : Keeps ⟨md, ck, lb, true, true⟩ s₀ s0 := hs.setStack
  have hs1 : Keeps ⟨md, ck, lb, true, true⟩ s₀ s1 := hs0.bumpSat.bumpSat.bumpSat
  have hs2 : Keeps ⟨md, ck, lb, true, true⟩ s₀ s2 := .foldl hs1 fun _ _ ht => ht.rowErrors
  exact .next (.ite hs2.setStack hs2)

theorem execLaneRemap_answers (hs : Keeps ⟨md, ck, lb, true, true⟩ s₀ s) {n : StackName} {pc : Fin 16} {pages : ℕ} :
    Answers ⟨md, ck, lb, true, true⟩ s₀ (execLaneRemap n pc pages s) := by
  unfold execLaneRemap
  extract_lets +onlyGivenNames k st used s1
  have hs1 : Keeps ⟨md, ck, lb, true, true⟩ s₀ s1 := hs.bumpSat
  refine .ite (.next hs1.setStack) ?_
  extract_lets s2 bad
  have hs2 : Keeps ⟨md, ck, lb, true, true⟩ s₀ s2 := hs1.setStack
  exact .ite (.next hs2.moveOff) (.next (.foldl hs1 fun _ _ ht => ht.endWith))

theorem execPseudoChannelRetrainDone_answers (hs : Keeps ⟨md, ck, lb, true, true⟩ s₀ s) {n : StackName} {pc : Fin 16} :
    Answers ⟨md, ck, lb, true, true⟩ s₀ (execPseudoChannelRetrainDone n pc s) := by
  unfold execPseudoChannelRetrainDone
  extract_lets k st
  exact .next hs.setStack

theorem execHbmTempRead_answers (hs : Keeps ⟨md, ck, lb, true, true⟩ s₀ s) {n : StackName} {port : TestPort} :
    Answers ⟨md, ck, lb, true, true⟩ s₀ (execHbmTempRead n port s) := by
  unfold execHbmTempRead
  extract_lets k _ st
  exact .next hs.setStack

theorem execInjectMemSlow_answers (hs : Keeps ⟨md, ck, lb, true, true⟩ s₀ s) :
    Answers ⟨md, ck, lb, true, true⟩ s₀ (execInjectMemSlow s) := by
  unfold execInjectMemSlow
  exact .next hs.writeOne

theorem execInjectMemUe_answers (hs : Keeps ⟨md, ck, lb, true, true⟩ s₀ s) :
    Answers ⟨md, ck, lb, true, true⟩ s₀ (execInjectMemUe s) := by
  unfold execInjectMemUe
  exact .next hs.writeOne

/-! ### Machine/CisternOps -/

theorem Keeps.countRead (hs : Keeps ⟨md, ck, lb, true, true⟩ s₀ s) {ppa : ℕ} :
    Keeps ⟨md, ck, lb, true, true⟩ s₀ (s.countRead ppa) := by
  unfold State.countRead
  extract_lets b k l n s1
  have hs1 : Keeps ⟨md, ck, lb, true, true⟩ s₀ s1 := hs.setLun.bump
  exact .ite hs1.scheduleRewrite hs1

theorem Keeps.climb (hs : Keeps ⟨md, ck, lb, true, true⟩ s₀ s) {ppa n : ℕ} : Keeps ⟨md, ck, lb, true, true⟩ s₀ (s.climb ppa n) := by
  unfold State.climb
  exact hs.withCist

theorem Keeps.nandBus (hs : Keeps ⟨md, ck, lb, true, true⟩ s₀ s) {ch lun : ℕ} {cmd : NandBus} :
    Keeps ⟨md, ck, lb, true, true⟩ s₀ (s.nandBus ch lun cmd) := by
  unfold State.nandBus
  exact hs.emit

theorem Keeps.stepFails (hs : Keeps ⟨md, ck, lb, true, true⟩ s₀ s) {ppa : ℕ} :
    Keeps ⟨md, ck, lb, true, true⟩ s₀ (s.stepFails ppa) := by
  unfold State.stepFails
  extract_lets n b
  exact .ite (.ite hs.climb (.foldl hs.climb fun _ _ ht => ht.nandBus)) hs.climb

theorem Keeps.classifyRead (hs : Keeps ⟨md, ck, lb, true, true⟩ s₀ s) {ppa : ℕ} {res : Decode} :
    Keeps ⟨md, ck, lb, true, true⟩ s₀ (s.classifyRead ppa res) := by
  unfold State.classifyRead
  extract_lets +onlyGivenNames inj n high
  refine .ite hs.stepFails ?_
  refine .ite hs ?_
  extract_lets t
  have ht : Keeps ⟨md, ck, lb, true, true⟩ s₀ t := hs.climb
  split
  · exact .ite ht.bumpSat.scheduleRewrite.setRegF ht
  · exact ht.bumpSat.scheduleRewrite
  · exact ht.bumpSat.scheduleRewrite
  · exact hs.stepFails
  · exact ht.bumpSat

theorem Keeps.programDone (hs : Keeps ⟨md, ck, lb, true, true⟩ s₀ s) {g row mem : ℕ} :
    Keeps ⟨md, ck, lb, true, true⟩ s₀ (s.programDone g row mem) := by
  unfold State.programDone
  split
  · refine .ite hs ?_
    extract_lets w u par data r' _ s1
    have hs1 : Keeps ⟨md, ck, lb, true, true⟩ s₀ s1 := hs.withCist
    exact hs1.bump.bump
  · exact hs

theorem Keeps.eraseSet (hs : Keeps ⟨md, ck, lb, true, true⟩ s₀ s) {ch lun block : ℕ} :
    Keeps ⟨md, ck, lb, true, true⟩ s₀ (s.eraseSet ch lun block) := by
  unfold State.eraseSet
  extract_lets +onlyGivenNames k l count s1
  have hs1 : Keeps ⟨md, ck, lb, true, true⟩ s₀ s1 := hs.setLun
  exact hs1.withCist

theorem Keeps.leaveGroup (hs : Keeps ⟨md, ck, lb, true, true⟩ s₀ s) {k : ℕ} {g : Machine.Group} {b : ℕ × ℕ × ℕ} :
    Keeps ⟨md, ck, lb, true, true⟩ s₀ (s.leaveGroup k g b) := by
  unfold State.leaveGroup
  extract_lets +onlyGivenNames mem gs
  exact hs.withCist

theorem Keeps.eraseDone (hs : Keeps ⟨md, ck, lb, true, true⟩ s₀ s) {ch lun block : ℕ} :
    Keeps ⟨md, ck, lb, true, true⟩ s₀ (s.eraseDone ch lun block) := by
  unfold State.eraseDone
  extract_lets b
  split
  · refine .ite ?_ (.ite hs.eraseSet hs)
    extract_lets t
    have ht : Keeps ⟨md, ck, lb, true, true⟩ s₀ t := hs.eraseSet.leaveGroup
    exact ht.withCist
  · exact .ite hs.eraseSet hs

theorem Keeps.readIssued (hs : Keeps ⟨md, ck, lb, true, true⟩ s₀ s) {ch lun ppa : ℕ} :
    Keeps ⟨md, ck, lb, true, true⟩ s₀ (s.readIssued ch lun ppa) := by
  unfold State.readIssued
  extract_lets +onlyGivenNames k l
  refine .ite hs ?_
  extract_lets s1
  have hs1 : Keeps ⟨md, ck, lb, true, true⟩ s₀ s1 := hs.setLun
  exact .ite hs1.nandBus hs1

theorem Keeps.ungrant (hs : Keeps ⟨md, ck, lb, true, true⟩ s₀ s) {p : NandUnit → Bool} :
    Keeps ⟨md, ck, lb, true, true⟩ s₀ (s.ungrant p) := by
  unfold State.ungrant
  exact hs.withCist

theorem execNandCommandDone_answers (hs : Keeps ⟨md, ck, lb, true, true⟩ s₀ s) {ch lun : Fin 32} {cmd : NandCmd} :
    Answers ⟨md, ck, lb, true, true⟩ s₀ (execNandCommandDone ch lun cmd s) := by
  unfold execNandCommandDone
  extract_lets +onlyGivenNames k l reads
  refine .ite (.next hs) ?_
  extract_lets s0 s1 idle
  have hs0 : Keeps ⟨md, ck, lb, true, true⟩ s₀ s0 := hs.ungrant.setLun
  have hs1 : Keeps ⟨md, ck, lb, true, true⟩ s₀ s1 := .ite hs0.bumpSat hs0
  have hidle : ∀ t, Keeps ⟨md, ck, lb, true, true⟩ s₀ t → Keeps ⟨md, ck, lb, true, true⟩ s₀ (idle t) := fun _ ht => ht.setLun
  refine .next ?_
  split
  · exact hs1.readIssued.countRead.classifyRead
  · exact (hidle _ hs1).programDone
  · exact (hidle _ hs1).eraseDone

theorem Keeps.offerNand (hs : Keeps ⟨md, ck, lb, true, true⟩ s₀ s) {ch : ℕ} :
    Keeps ⟨md, ck, lb, true, true⟩ s₀ (s.offerNand ch) := by
  unfold State.offerNand
  extract_lets due pt p stays s1
  have hs1 : Keeps ⟨md, ck, lb, true, true⟩ s₀ s1 := hs.setPoint.retag
  exact .foldl hs1 fun _ _ ht => .ite ht ht.queueUnit

theorem Keeps.offerUnits (hs : Keeps ⟨md, ck, lb, true, true⟩ s₀ s) {pt : ℕ} {arrivals : List Arrival} :
    Keeps ⟨md, ck, lb, true, true⟩ s₀ (s.offerUnits pt arrivals) := by
  unfold State.offerUnits
  extract_lets s1
  have hs1 : Keeps ⟨md, ck, lb, true, true⟩ s₀ s1 := .ite hs.offerNand hs
  refine .foldl hs1 fun _ _ ht => ?_
  split
  · exact ht.queueUnit
  · exact ht

theorem execUnitBoundary_answers (hs : Keeps ⟨md, ck, lb, true, true⟩ s₀ s) {pt : Fin 185} {arrivals : List Arrival} :
    Answers ⟨md, ck, lb, true, true⟩ s₀ (execUnitBoundary pt arrivals s) := by
  unfold execUnitBoundary
  refine .ite (.next hs.portBoundary) ?_
  extract_lets s1
  have hs1 : Keeps ⟨md, ck, lb, true, true⟩ s₀ s1 := hs.offerUnits
  refine .next ?_
  split
  · exact hs1
  · split
    · exact hs1
    · extract_lets +onlyGivenNames s2
      have hs2 : Keeps ⟨md, ck, lb, true, true⟩ s₀ s2 := hs1.startUnit
      split
      · exact hs2.withCist
      · exact hs2

theorem execReadSuspend_answers (hs : Keeps ⟨md, ck, lb, true, true⟩ s₀ s) {ch lun : Fin 32} :
    Answers ⟨md, ck, lb, true, true⟩ s₀ (execReadSuspend ch lun s) := by
  unfold execReadSuspend
  extract_lets k l
  exact .ite (.next hs.setLun.nandBus) (.next hs)

theorem Keeps.failRows (hs : Keeps ⟨md, ck, lb, true, true⟩ s₀ s) {k mem : ℕ} :
    Keeps ⟨md, ck, lb, true, true⟩ s₀ (s.failRows k mem) := by
  unfold State.failRows
  split
  · exact hs
  · extract_lets hit mine _ c0 ws
    exact hs.withCist

theorem Keeps.saveArea (hs : Keeps ⟨md, ck, lb, true, true⟩ s₀ s) : Keeps ⟨md, ck, lb, true, true⟩ s₀ s.saveArea := by
  unfold State.saveArea
  exact hs.withCist

theorem Keeps.chanPoints (hs : Keeps ⟨md, ck, lb, true, true⟩ s₀ s) : Keeps ⟨md, ck, lb, true, true⟩ s₀ s.chanPoints := by
  unfold State.chanPoints
  refine .foldl hs fun _ _ ht => ?_
  extract_lets out
  exact .ite ht ht.pointOut

theorem Keeps.retireLun (hs : Keeps ⟨md, ck, lb, true, true⟩ s₀ s) {ch lun : ℕ} :
    Keeps ⟨md, ck, lb, true, true⟩ s₀ (s.retireLun ch lun) := by
  unfold State.retireLun
  extract_lets +onlyGivenNames k l
  refine .ite hs ?_
  extract_lets +onlyGivenNames s1 s2 ms s3
  have hs1 : Keeps ⟨md, ck, lb, true, true⟩ s₀ s1 := hs.retire.setLun.ungrant
  have hs2 : Keeps ⟨md, ck, lb, true, true⟩ s₀ s2 := hs1.bumpSat
  have hs3 : Keeps ⟨md, ck, lb, true, true⟩ s₀ s3 := .foldl hs2 fun _ _ ht => ht.failRows
  exact hs3.withCist.saveArea.chanPoints

theorem execLunTimeout_answers (hs : Keeps ⟨md, ck, lb, true, true⟩ s₀ s) {ch lun : Fin 32} :
    Answers ⟨md, ck, lb, true, true⟩ s₀ (execLunTimeout ch lun s) := by
  unfold execLunTimeout
  extract_lets +onlyGivenNames k l
  refine .ite (.next hs) ?_
  extract_lets +onlyGivenNames inj s1 s2 others
  have hs1 : Keeps ⟨md, ck, lb, true, true⟩ s₀ s1 := hs.bumpSat.setRegF
  have hs2 : Keeps ⟨md, ck, lb, true, true⟩ s₀ s2 := hs1.setLun.nandBus
  exact .ite (.next hs2) (.ite (.next hs2.withCist.nandBus) (.ite (.next hs2.bumpSat.retireLun) (.next hs2)))

theorem execChannelRetrainDone_answers (hs : Keeps ⟨md, ck, lb, true, true⟩ s₀ s) {ch : Fin 32} {ok : Bool} :
    Answers ⟨md, ck, lb, true, true⟩ s₀ (execChannelRetrainDone ch ok s) := by
  unfold execChannelRetrainDone
  refine .ite (.next hs) ?_
  refine .ite (.ite (.next hs) (.next hs.withCist.nandBus)) ?_
  extract_lets _ s1 mine
  have hs1 : Keeps ⟨md, ck, lb, true, true⟩ s₀ s1 := hs.withCist
  exact .next (.foldl hs1 fun _ _ ht => .ite ht.setLun ht.bumpSat.retireLun)

theorem Keeps.markBad (hs : Keeps ⟨md, ck, lb, true, true⟩ s₀ s) {ch lun block : ℕ} :
    Keeps ⟨md, ck, lb, true, true⟩ s₀ (s.markBad ch lun block) := by
  unfold State.markBad
  extract_lets +onlyGivenNames k l
  refine .ite hs ?_
  extract_lets s1
  have hs1 : Keeps ⟨md, ck, lb, true, true⟩ s₀ s1 := hs.setLun.bumpSat
  exact .ite hs1.retireLun hs1

theorem execProgramFailure_answers (hs : Keeps ⟨md, ck, lb, true, true⟩ s₀ s) {ch lun : Fin 32} {block : ℕ} :
    Answers ⟨md, ck, lb, true, true⟩ s₀ (execProgramFailure ch lun block s) := by
  unfold execProgramFailure
  refine .ite (.next hs) ?_
  extract_lets b s1 s2
  have hs1 : Keeps ⟨md, ck, lb, true, true⟩ s₀ s1 := hs.bumpSat
  have hs2 : Keeps ⟨md, ck, lb, true, true⟩ s₀ s2 := by
    unfold s2
    split
    · exact hs1.failRows
    · exact hs1
  exact .next hs2.ungrant.markBad

theorem execEraseFailure_answers (hs : Keeps ⟨md, ck, lb, true, true⟩ s₀ s) {ch lun : Fin 32} {block : ℕ} :
    Answers ⟨md, ck, lb, true, true⟩ s₀ (execEraseFailure ch lun block s) := by
  unfold execEraseFailure
  refine .ite (.next hs) ?_
  extract_lets s1 b s2
  have hs1 : Keeps ⟨md, ck, lb, true, true⟩ s₀ s1 := hs.bumpSat
  have hs2 : Keeps ⟨md, ck, lb, true, true⟩ s₀ s2 := by
    unfold s2
    split
    · exact .ite hs1.leaveGroup hs1.failRows
    · exact hs1
  exact .next hs2.ungrant.markBad

theorem execStripeClose_answers (hs : Keeps ⟨md, ck, lb, true, true⟩ s₀ s) {stream : Fin 5} :
    Answers ⟨md, ck, lb, true, true⟩ s₀ (execStripeClose stream s) := by
  unfold execStripeClose
  extract_lets +onlyGivenNames mine
  exact .next (.ite hs hs.withCist)

theorem Keeps.reclaimGroup (hs : Keeps ⟨md, ck, lb, true, true⟩ s₀ s) {k : ℕ} {g : Machine.Group} :
    Keeps ⟨md, ck, lb, true, true⟩ s₀ (s.reclaimGroup k g) := by
  unfold State.reclaimGroup
  exact .ite hs.withCist (.foldl hs fun _ _ ht => ht.relocate)

theorem execReclaim_answers (hs : Keeps ⟨md, ck, lb, true, true⟩ s₀ s) : Answers ⟨md, ck, lb, true, true⟩ s₀ (execReclaim s) := by
  unfold execReclaim
  extract_lets c cands first wear
  exact .ite (.next hs) (.next (.foldl hs fun _ _ ht => ht.reclaimGroup))

theorem execCisternPatrol_answers (hs : Keeps ⟨md, ck, lb, true, true⟩ s₀ s) {above : List ℕ} {reads : ℕ} :
    Answers ⟨md, ck, lb, true, true⟩ s₀ (execCisternPatrol above reads s) := by
  unfold execCisternPatrol
  extract_lets +onlyGivenNames c period
  refine .ite (.next hs) ?_
  extract_lets lines part n s1
  have hs1 : Keeps ⟨md, ck, lb, true, true⟩ s₀ s1 := hs.withCist
  exact .next (.foldl (.foldl hs1 fun _ _ ht => ht.countRead) fun _ _ ht => ht.bumpSat.scheduleRewrite)

theorem Keeps.endRebuilds (hs : Keeps ⟨md, ck, lb, true, true⟩ s₀ s) : Keeps ⟨md, ck, lb, true, true⟩ s₀ s.endRebuilds := by
  unfold State.endRebuilds
  exact hs.withCist

theorem Keeps.switchWord (hs : Keeps ⟨md, ck, lb, true, true⟩ s₀ s) {lpn old new : ℕ} :
    Gives ⟨md, ck, lb, true, true⟩ s₀ (s.switchWord lpn old new) := by
  unfold State.switchWord
  refine .ite ?_ (.ite (.some hs.mapSet) .none)
  split
  · exact .ite (.some hs.withCist) (.ite (.some hs.withCist) .none)
  · exact .none

theorem execRelocationSwitch_answers (hs : Keeps ⟨md, ck, lb, true, true⟩ s₀ s) {lpn old : ℕ} :
    Answers ⟨md, ck, lb, true, true⟩ s₀ (execRelocationSwitch lpn old s) := by
  unfold execRelocationSwitch
  split
  · split
    · refine .ite (.next hs) (.ite (.next hs.readMapOf) ?_)
      extract_lets s1 s2
      have hs1 : Keeps ⟨md, ck, lb, true, true⟩ s₀ s1 := hs.withCist
      have hs2 : Keeps ⟨md, ck, lb, true, true⟩ s₀ s2 := by
        unfold s2
        split
        next t e => exact (hs1.switchWord _ e).bump
        next => exact hs1.bumpSat
      exact .next hs2.endRewrite.endRebuilds
    · exact .next hs
  · exact .next hs

theorem execLunRebuild_answers (hs : Keeps ⟨md, ck, lb, true, true⟩ s₀ s) {lun : LunName} {failed : List ℕ} :
    Answers ⟨md, ck, lb, true, true⟩ s₀ (execLunRebuild lun failed s) := by
  unfold execLunRebuild
  refine .ite (.next hs) ?_
  extract_lets mine gs
  refine .next ?_
  refine .endRebuilds ?_
  refine .foldl hs fun _ _ ht => ?_
  extract_lets _ _ t1 es gone good
  have ht1 : Keeps ⟨md, ck, lb, true, true⟩ s₀ t1 := ht.withCist
  exact ht1.loseWords.moveWords.bumpSat

theorem execLunTempRead_answers (hs : Keeps ⟨md, ck, lb, true, true⟩ s₀ s) {ch lun : Fin 32} {temp : ℤ} :
    Answers ⟨md, ck, lb, true, true⟩ s₀ (execLunTempRead ch lun temp s) := by
  unfold execLunTempRead
  extract_lets k c mx b _ s1 _ c1 s2
  have hs1 : Keeps ⟨md, ck, lb, true, true⟩ s₀ s1 := by
    unfold s1
    split
    · exact hs.setLun.nandBus
    · exact hs
  have hs2 : Keeps ⟨md, ck, lb, true, true⟩ s₀ s2 := hs1.withCist
  exact .ite (.next hs) (.ite (.next hs2.bumpSat) (.next hs2))

theorem execSystemAreaWrite_answers (hs : Keeps ⟨md, ck, lb, true, true⟩ s₀ s) :
    Answers ⟨md, ck, lb, true, true⟩ s₀ (execSystemAreaWrite s) := by
  unfold execSystemAreaWrite
  exact .ite (.next hs) (.next hs.saveArea)

theorem Keeps.identifyLuns (hs : Keeps ⟨md, ck, lb, true, true⟩ s₀ s) {media : Media} :
    Keeps ⟨md, ck, lb, true, true⟩ s₀ (s.identifyLuns media) := by
  unfold State.identifyLuns
  exact .foldl hs fun _ _ ht => ht.nandBus.nandBus

theorem Keeps.formatFailures (hs : Keeps ⟨md, ck, lb, true, true⟩ s₀ s) {media : Media} :
    Keeps ⟨md, ck, lb, true, true⟩ s₀ (s.formatFailures media) := by
  unfold State.formatFailures
  refine .foldl hs fun _ _ ht => ?_
  extract_lets k n t1
  have ht1 : Keeps ⟨md, ck, lb, true, true⟩ s₀ t1 := ht.bumpSat.bumpSat
  exact .ite ht1.retireLun ht1

theorem execFormatDone_answers (hs : Keeps ⟨md, ck, lb, true, true⟩ s₀ s) {media : Media} {areaOk : Bool} :
    Answers ⟨md, ck, lb, true, true⟩ s₀ (execFormatDone media areaOk s) := by
  unfold execFormatDone
  refine .ite (.next hs) ?_
  extract_lets +onlyGivenNames fail mode width _ s1 channels
  have hfail : ∀ t r, Keeps ⟨md, ck, lb, true, true⟩ s₀ t → Answers ⟨md, ck, lb, true, true⟩ s₀ (fail t r) :=
    fun _ _ ht => .next ht.withCist
  have hs1 : Keeps ⟨md, ck, lb, true, true⟩ s₀ s1 := hs.withCist.identifyLuns.formatFailures
  split
  · exact hfail _ _ hs1
  · refine .ite (hfail _ _ hs1) ?_
    split
    · exact hfail _ _ hs1
    · exact .ite (hfail _ _ hs1) (.next hs1.withCist.saveArea.chanPoints)

theorem execInjectCistUe_answers (hs : Keeps ⟨md, ck, lb, true, true⟩ s₀ s) :
    Answers ⟨md, ck, lb, true, true⟩ s₀ (execInjectCistUe s) := by
  unfold execInjectCistUe
  exact .next hs.writeOne

theorem execInjectCistHigh_answers (hs : Keeps ⟨md, ck, lb, true, true⟩ s₀ s) :
    Answers ⟨md, ck, lb, true, true⟩ s₀ (execInjectCistHigh s) := by
  unfold execInjectCistHigh
  exact .next hs.writeOne

theorem execInjectCistTimeout_answers (hs : Keeps ⟨md, ck, lb, true, true⟩ s₀ s) :
    Answers ⟨md, ck, lb, true, true⟩ s₀ (execInjectCistTimeout s) := by
  unfold execInjectCistTimeout
  exact .next hs.writeOne

/-! ### Machine/Keeper -/

theorem Keeps.idleTerrace (hs : Keeps ⟨md, ck, lb, true, true⟩ s₀ s) {t : ℕ} :
    Keeps ⟨md, ck, lb, true, true⟩ s₀ (s.idleTerrace t) := by
  unfold State.idleTerrace
  extract_lets +onlyGivenNames rills
  exact hs.other.settleMaps

theorem Keeps.trip (hs : Keeps ⟨md, ck, lb, true, true⟩ s₀ s) {t cause : ℕ} :
    Keeps ⟨md, ck, lb, true, true⟩ s₀ (s.trip t cause) := by
  unfold State.trip
  extract_lets +onlyGivenNames r
  refine .ite hs ?_
  extract_lets rids s1 s2
  have hs1 : Keeps ⟨md, ck, lb, true, true⟩ s₀ s1 := hs.setRegion.idleTerrace
  have hs2 : Keeps ⟨md, ck, lb, true, true⟩ s₀ s2 := .ite hs1.bumpSat.logEvent hs1
  exact .foldl hs2 fun _ _ ht => ht.rerun

theorem Keeps.untrip (hs : Keeps ⟨md, ck, lb, true, true⟩ s₀ s) {t : ℕ} : Keeps ⟨md, ck, lb, true, true⟩ s₀ (s.untrip t) := by
  unfold State.untrip
  extract_lets r cool keep m
  exact .ite hs.setRegion (.ite hs hs.setRegion)

theorem Keeps.checkTrips (hs : Keeps ⟨md, ck, lb, true, true⟩ s₀ s) : Keeps ⟨md, ck, lb, true, true⟩ s₀ s.checkTrips := by
  unfold State.checkTrips
  extract_lets hot s1
  have hs1 : Keeps ⟨md, ck, lb, true, true⟩ s₀ s1 := by
    unfold s1
    refine .foldl hs fun _ _ ht => ?_
    extract_lets u1 u2
    have hu1 : Keeps ⟨md, ck, lb, true, true⟩ s₀ u1 := .ite ht.trip ht
    have hu2 : Keeps ⟨md, ck, lb, true, true⟩ s₀ u2 := .ite hu1.trip hu1
    exact .ite hu2.trip hu2
  exact .foldl hs1 fun _ _ ht => ht.untrip

theorem Keeps.assertFast (hs : Keeps ⟨md, ck, lb, true, true⟩ s₀ s) : Keeps ⟨md, ck, lb, true, true⟩ s₀ s.assertFast := by
  unfold State.assertFast
  exact .ite hs.withKeeper hs.withKeeper.bumpSat.logEvent

theorem Keeps.useSample (hs : Keeps ⟨md, ck, lb, true, true⟩ s₀ s) {readings : List Reading} :
    Keeps ⟨md, ck, lb, true, true⟩ s₀ (s.useSample readings) := by
  unfold State.useSample
  extract_lets k w samples sum n above cut s1 s2 s3 s4
  have hs1 : Keeps ⟨md, ck, lb, true, true⟩ s₀ s1 := hs.withKeeper
  have hs2 : Keeps ⟨md, ck, lb, true, true⟩ s₀ s2 := hs1.setRegF
  have hs3 : Keeps ⟨md, ck, lb, true, true⟩ s₀ s3 := hs2.setRegF
  have hs4 : Keeps ⟨md, ck, lb, true, true⟩ s₀ s4 := .ite hs3.bumpSat hs3
  exact .foldl hs4 fun _ _ ht => ht.setRegion

theorem execSensorSample_answers (hs : Keeps ⟨md, ck, lb, true, true⟩ s₀ s) {readings : List Reading} {rails : List RailRead} :
    Answers ⟨md, ck, lb, true, true⟩ s₀ (execSensorSample readings rails s) := by
  unfold execSensorSample
  extract_lets k vpp vppBad stackBad logs trips s1 peak s2 _ s3 s4 s5 s6
  have hs1 : Keeps ⟨md, ck, lb, true, true⟩ s₀ s1 := hs.withKeeper
  have hs2 : Keeps ⟨md, ck, lb, true, true⟩ s₀ s2 := .ite hs1.useSample hs1
  have hs3 : Keeps ⟨md, ck, lb, true, true⟩ s₀ s3 := .ite hs2.withKeeper hs2.withKeeper
  have hs4 : Keeps ⟨md, ck, lb, true, true⟩ s₀ s4 := .ite hs3.assertFast hs3
  have hs5 : Keeps ⟨md, ck, lb, true, true⟩ s₀ s5 := .foldl hs4 fun _ _ ht => ht.logEvent
  have hs6 : Keeps ⟨md, ck, lb, true, true⟩ s₀ s6 := .foldl hs5 fun _ _ ht => ht.logEvent
  exact .next hs6.checkTrips

theorem Keeps.takePoint (hs : Keeps ⟨md, ck, lb, true, true⟩ s₀ s) {t p : ℕ} :
    Keeps ⟨md, ck, lb, true, true⟩ s₀ (s.takePoint t p) := by
  unfold State.takePoint
  extract_lets +onlyGivenNames old volt clock
  exact hs.setRegion.emits

theorem Keeps.movePoints (hs : Keeps ⟨md, ck, lb, true, true⟩ s₀ s) : Keeps ⟨md, ck, lb, true, true⟩ s₀ s.movePoints := by
  unfold State.movePoints
  extract_lets want
  refine .foldl hs fun _ _ ht => ?_
  extract_lets r p ok
  exact .ite ht ht.takePoint

theorem Keeps.checkHold (hs : Keeps ⟨md, ck, lb, true, true⟩ s₀ s) {t : ℕ} : Keeps ⟨md, ck, lb, true, true⟩ s₀ (s.checkHold t) := by
  unfold State.checkHold
  extract_lets r diff guard
  split
  · exact .ite hs.setRegion.bumpSat.logEvent hs
  · exact .ite hs.setRegion hs

theorem execControlInterval_answers (hs : Keeps ⟨md, ck, lb, true, true⟩ s₀ s) :
    Answers ⟨md, ck, lb, true, true⟩ s₀ (execControlInterval s) := by
  unfold execControlInterval
  refine .ite (.next hs) ?_
  extract_lets hot injT regs lowered s1 k n sum high near pc _ s2 s3 s4 s5 s6
  have hs1 : Keeps ⟨md, ck, lb, true, true⟩ s₀ s1 := .foldl hs fun _ _ ht => ht.setRegion
  have hs2 : Keeps ⟨md, ck, lb, true, true⟩ s₀ s2 := hs1.withKeeper.bumpSat
  have hs3 : Keeps ⟨md, ck, lb, true, true⟩ s₀ s3 := .ite hs2.bumpSat hs2
  have hs4 : Keeps ⟨md, ck, lb, true, true⟩ s₀ s4 := hs3.movePoints
  have hs5 : Keeps ⟨md, ck, lb, true, true⟩ s₀ s5 := .foldl hs4 fun _ _ ht => ht.checkHold
  have hs6 : Keeps ⟨md, ck, lb, true, true⟩ s₀ s6 := .foldl hs5 fun _ _ ht => ht.setRegion
  exact .next (.ite hs6.setRegF.logEvent hs6)

theorem execHoldClockStop_answers (hs : Keeps ⟨md, ck, lb, true, true⟩ s₀ s) {terrace : Fin 16} {rids : List ℕ} :
    Answers ⟨md, ck, lb, true, true⟩ s₀ (execHoldClockStop terrace rids s) := by
  unfold execHoldClockStop
  extract_lets +onlyGivenNames r left
  split
  · exact .next hs
  · refine .ite (.next hs) ?_
    extract_lets s1
    have hs1 : Keeps ⟨md, ck, lb, true, true⟩ s₀ s1 := hs.setRegion.idleTerrace
    exact .next (.foldl hs1 fun _ _ ht => ht.rerun)

theorem execThrottleNFall_answers (hs : Keeps ⟨true, c, l, true, true⟩ s₀ s) {long : Bool} :
    Answers ⟨true, c, l, true, true⟩ s₀ (execThrottleNFall long s) := by
  unfold execThrottleNFall
  exact .ite (.next hs) (.next (Keeps.assertFast (hs.withRst (by exact hs.phases))))

theorem execFastThrottleEnd_answers (hs : Keeps ⟨true, c, l, true, true⟩ s₀ s) :
    Answers ⟨true, c, l, true, true⟩ s₀ (execFastThrottleEnd s) := by
  unfold execFastThrottleEnd
  extract_lets _ s1
  have hs1 : Keeps ⟨true, c, l, true, true⟩ s₀ s1 := hs.withRst (by exact hs.phases)
  exact .ite (.next hs1.withKeeper) (.next hs1)

theorem execInjectHot_answers (hs : Keeps ⟨md, ck, lb, true, true⟩ s₀ s) {t : Fin 16} :
    Answers ⟨md, ck, lb, true, true⟩ s₀ (execInjectHot t s) := by
  unfold execInjectHot
  exact .next (hs.pfWrite hs.setRegF.setRegF)

theorem Keeps.hourValue (hs : Keeps ⟨md, ck, lb, true, true⟩ s₀ s) {v : HourValue} :
    Keeps ⟨md, ck, lb, true, true⟩ s₀ (s.hourValue v) := by
  unfold State.hourValue
  extract_lets +onlyGivenNames key old vs _ s1 l now trend today
  have hs1 : Keeps ⟨md, ck, lb, true, true⟩ s₀ s1 := hs.withKeeper
  refine .ite ?_ hs1
  extract_lets _ s2
  have hs2 : Keeps ⟨md, ck, lb, true, true⟩ s₀ s2 := hs1.withKeeper
  exact hs2.setRegF.logEvent

theorem execAdvisoryHour_answers (hs : Keeps ⟨md, ck, lb, true, true⟩ s₀ s) {last : List Reading} :
    Answers ⟨md, ck, lb, true, true⟩ s₀ (execAdvisoryHour last s) := by
  unfold execAdvisoryHour
  refine .ite (.next hs) ?_
  generalize s.noteWorst last = worst
  extract_lets _ s0 s1 s2
  have hs0 : Keeps ⟨md, ck, lb, true, true⟩ s₀ s0 := hs.withKeeper
  have hs1 : Keeps ⟨md, ck, lb, true, true⟩ s₀ s1 := .foldl hs0 fun _ _ ht => ht.hourValue
  have hs2 : Keeps ⟨md, ck, lb, true, true⟩ s₀ s2 := .foldl hs1 fun _ _ ht => ht.setRegion
  have cleared : ∀ u, Keeps ⟨md, ck, lb, true, true⟩ s₀ u →
      Keeps ⟨md, ck, lb, true, true⟩ s₀ (u.withKeeper { u.keeper with intervals := 0, limited := 0, worst := [] }) :=
    fun _ hu => hu.withKeeper
  exact .next (cleared _ hs2)

theorem execLogFlush_answers (hs : Keeps ⟨md, ck, lb, true, true⟩ s₀ s) : Answers ⟨md, ck, lb, true, true⟩ s₀ (execLogFlush s) := by
  unfold execLogFlush
  extract_lets k
  exact .next hs.withKeeper

theorem execLogRead_answers (hs : Keeps ⟨md, ck, lb, true, true⟩ s₀ s) {seq : U32} :
    Answers ⟨md, ck, lb, true, true⟩ s₀ (execLogRead seq s) := by
  unfold execLogRead
  refine .ite (.next hs) ?_
  extract_lets e
  exact .next hs.emit

theorem Keeps.stageBundle (hs : Keeps ⟨md, ck, lb, true, true⟩ s₀ s) {b : Option Bundle} {written : Bool} :
    Keeps ⟨md, ck, lb, true, true⟩ s₀ (s.stageBundle b written).2 := by
  unfold State.stageBundle
  extract_lets err k k1
  have fuses : k1.svnFused = s.keeper.svnFused ∧ k1.revoked = s.keeper.revoked := by
    unfold k1
    split <;> exact ⟨rfl, rfl⟩
  exact (hs.withKeeper fuses.1.ge (fun _ => fuses.2 ▸ id)).logEvent

theorem execFwStageDone_answers (hs : Keeps ⟨md, ck, lb, true, true⟩ s₀ s) {bundle : Option (List Byte)} {written : Bool} :
    Answers ⟨md, ck, lb, true, true⟩ s₀ (execFwStageDone bundle written s) := by
  unfold execFwStageDone
  exact .ite (.next hs.stageBundle) (.next hs)

theorem execBundleChunk_answers (hs : Keeps ⟨md, ck, lb, true, true⟩ s₀ s) {off : U32} {bytes : List Byte} :
    Answers ⟨md, ck, lb, true, true⟩ s₀ (execBundleChunk off bytes s) := by
  unfold execBundleChunk
  refine .ite (.next hs) ?_
  refine .ite (.next hs.emit) ?_
  extract_lets +onlyGivenNames st
  exact .next hs.withKeeper

theorem Keeps.takeAsked (hs : Keeps ⟨true, c, l, true, true⟩ s₀ s) : Keeps ⟨true, c, l, true, true⟩ s₀ s.takeAsked := by
  unfold State.takeAsked
  exact .foldl hs fun _ _ ht => .ite ht.startRestart ht

theorem execBundleEnd_answers (hs : Keeps ⟨true, c, l, true, true⟩ s₀ s) {len : U32} {written : Bool} :
    Answers ⟨true, c, l, true, true⟩ s₀ (execBundleEnd len written s) := by
  unfold execBundleEnd
  extract_lets +onlyGivenNames b _ s0
  have hs0 : Keeps ⟨true, c, l, true, true⟩ s₀ s0 := hs.withKeeper
  refine .ite (.next hs) ?_
  refine .ite ?_ (.next hs0.stageBundle.emit)
  extract_lets err _ s1
  have hs1 : Keeps ⟨true, c, l, true, true⟩ s₀ s1 := .ite hs0.withKeeper.takeAsked hs0
  exact .next hs1.emit

theorem execAuthNonce_answers (hs : Keeps ⟨md, ck, lb, true, true⟩ s₀ s) :
    Answers ⟨md, ck, lb, true, true⟩ s₀ (execAuthNonce s) := by
  unfold execAuthNonce
  refine .ite (.next hs) ?_
  have taken : Keeps ⟨md, ck, lb, true, true⟩ s₀ (s.takeFree 384).2 := hs.takeFree
  exact .next taken.withKeeper.emit

theorem Keeps.authCmd (hs : Keeps ⟨md, ck, lb, true, true⟩ s₀ s) {cmd : ℕ} {sig : List Byte} {act : State → Option State}
    (acts : ∀ t, Keeps ⟨md, ck, lb, true, true⟩ s₀ t → Gives ⟨md, ck, lb, true, true⟩ s₀ (act t)) : Keeps ⟨md, ck, lb, true, true⟩ s₀ (s.authCmd cmd sig act) := by
  unfold State.authCmd
  extract_lets +onlyGivenNames refuse
  have hrefuse : ∀ t, Keeps ⟨md, ck, lb, true, true⟩ s₀ t → Keeps ⟨md, ck, lb, true, true⟩ s₀ (refuse t) := fun _ ht => ht.logEvent.emit
  refine .ite hs (.ite hs.emit ?_)
  split
  · exact hrefuse _ hs
  · refine .ite (hrefuse _ hs) ?_
    extract_lets _ s1
    have hs1 : Keeps ⟨md, ck, lb, true, true⟩ s₀ s1 := hs.withKeeper
    split
    next t e => exact (acts _ hs1 _ e).emit
    next => exact hrefuse _ hs1

theorem execAuthOpenDebug_answers (hs : Keeps ⟨md, ck, lb, true, true⟩ s₀ s) {sig : List Byte} :
    Answers ⟨md, ck, lb, true, true⟩ s₀ (execAuthOpenDebug sig s) :=
  .next (hs.authCmd fun _ ht => .ite (.some ht.withKeeper) .none)

theorem execAuthBlowPwrokLevel_answers (hs : Keeps ⟨true, c, l, true, true⟩ s₀ s) {sig : List Byte} :
    Answers ⟨true, c, l, true, true⟩ s₀ (execAuthBlowPwrokLevel sig s) := by
  refine .next (hs.authCmd fun t ht => ?_)
  split
  · exact .some ht
  next whole => exact .some (ht.withRst (by exact ht.phases) (fun blown => absurd blown whole))

theorem execAuthBlowResetnLevel_answers (hs : Keeps ⟨true, c, l, true, true⟩ s₀ s) {sig : List Byte} :
    Answers ⟨true, c, l, true, true⟩ s₀ (execAuthBlowResetnLevel sig s) := by
  refine .next (hs.authCmd fun t ht => ?_)
  split
  · exact .some ht
  next whole => exact .some (ht.withRst (by exact ht.phases) (resetn := fun blown => absurd blown whole))

theorem Keeps.raiseSvn (hs : Keeps ⟨md, ck, lb, true, true⟩ s₀ s) :
    Keeps ⟨md, ck, lb, true, true⟩ s₀ s.raiseSvn := (hs.withKeeper (le_max_left _ _)).logEvent

theorem execAuthRaiseSvn_answers (hs : Keeps ⟨md, ck, lb, true, true⟩ s₀ s) {sig : List Byte} :
    Answers ⟨md, ck, lb, true, true⟩ s₀ (execAuthRaiseSvn sig s) :=
  .next (hs.authCmd fun _ ht => .some ht.raiseSvn)

theorem execStandbyPowerLoss_answers (hs : Keeps ⟨md, ck, lb, true, true⟩ s₀ s) :
    Answers ⟨md, ck, lb, true, true⟩ s₀ (execStandbyPowerLoss s) := by
  unfold execStandbyPowerLoss
  extract_lets k _ k1
  exact .next hs.withKeeper

/-! ### Machine/Start -/

theorem Keeps.namePages (hs : Keeps ⟨md, ck, lb, wd, true⟩ s₀ s) {slice : ℕ} {w : Waiter} {lpns : List ℕ} :
    Keeps ⟨md, ck, lb, wd, true⟩ s₀ (s.namePages slice w lpns) := by
  unfold State.namePages
  exact .ite hs.tierFail (.foldl hs.noteNamed fun _ _ ht => ht.namePage)

theorem Keeps.newPart (hs : Keeps φ s₀ s) {rid : ℕ} {kind : PartKind} {sh : U32} {groups : List (ℕ × List GlobalId)}
    {body : ℕ → List Byte} :
    Keeps φ s₀ (s.newPart rid kind sh groups body) := by
  unfold State.newPart
  extract_lets t p
  exact .ite hs hs.other.sendPart

theorem Keeps.startRerank (hs : Keeps ⟨md, ck, lb, wd, true⟩ s₀ s) {rid : ℕ} {wide : Bool} :
    Keeps ⟨md, ck, lb, wd, true⟩ s₀ (s.startRerank rid wide) := by
  unfold State.startRerank
  split
  · exact hs
  · extract_lets +onlyGivenNames i
    split
    · exact hs
    · extract_lets qs shards terms
      refine .foldl hs fun _ _ ht => ?_
      extract_lets recs
      exact .ite ht.namePages ht.newPart

theorem Keeps.startFetch (hs : Keeps ⟨md, ck, lb, wd, true⟩ s₀ s) {rid : ℕ} :
    Keeps ⟨md, ck, lb, wd, true⟩ s₀ (s.startFetch rid) := by
  unfold State.startFetch
  split
  · exact hs
  · extract_lets +onlyGivenNames i
    split
    · exact hs
    · extract_lets ws w
      exact .foldl (hs.bump fun _ => rfl) fun _ _ ht => .ite (.ite ht.endWith ht.namePages) ht.newPart

theorem Keeps.windowOpens (hs : Keeps ⟨md, ck, lb, wd, true⟩ s₀ s) {rid : ℕ} :
    Keeps ⟨md, ck, lb, wd, true⟩ s₀ (s.windowOpens rid) := by
  unfold State.windowOpens
  extract_lets s1
  have hs1 : Keeps ⟨md, ck, lb, wd, true⟩ s₀ s1 := hs.modReq
  split
  · exact .ite hs1 hs1.startFetch
  · exact hs1

theorem Keeps.takeWindow (hs : Keeps ⟨md, ck, lb, wd, true⟩ s₀ s) {rid left : ℕ} :
    Keeps ⟨md, ck, lb, wd, true⟩ s₀ (s.takeWindow rid left) := by
  unfold State.takeWindow
  extract_lets waiting s1
  have hs1 : Keeps ⟨md, ck, lb, wd, true⟩ s₀ s1 := hs.modReq
  exact .ite hs1.windowOpens hs1

theorem Keeps.handWindows (hs : Keeps ⟨md, ck, lb, true, true⟩ s₀ s) {n : ℕ} :
    Keeps ⟨md, ck, lb, true, true⟩ s₀ (s.handWindows n) := by
  induction n generalizing s with
  | zero => exact hs
  | succ n ih =>
    unfold State.handWindows
    split
    · exact .ite (ih hs.windowOpens) hs
    · exact hs

theorem Keeps.dispatch (hs : Keeps ⟨md, ck, lb, wd, true⟩ s₀ s) {rid : ℕ} : Keeps ⟨md, ck, lb, wd, true⟩ s₀ (s.dispatch rid) := by
  unfold State.dispatch
  split
  · exact hs
  · split
    · exact hs.endWith
    · exact hs.abortOrHold
    · split
      · exact hs.nameLists.joinWindows
      · exact hs.nameLists.joinWindows
      · exact hs.startRerank
      · exact hs.startRerank
      · exact hs.takeWindow
      · exact hs.startFetch
      · exact .ite hs hs.takeWindow
      · exact hs

theorem Keeps.startPhase (hs : Keeps ⟨md, ck, lb, wd, true⟩ s₀ s) {rid : ℕ} {ph : Phase} :
    Keeps ⟨md, ck, lb, wd, true⟩ s₀ (s.startPhase rid ph) := by
  unfold State.startPhase
  exact hs.modReq.dispatch

theorem Keeps.startReq (hs : Keeps ⟨md, ck, lb, wd, true⟩ s₀ s) {rid : ℕ} : Keeps ⟨md, ck, lb, wd, true⟩ s₀ (s.startReq rid) := by
  unfold State.startReq
  split
  · exact hs
  · refine .ite hs.modReq.endWith ?_
    extract_lets s0 s1
    have hs0 : Keeps ⟨md, ck, lb, wd, true⟩ s₀ s0 := hs.modReq
    have hs1 : Keeps ⟨md, ck, lb, wd, true⟩ s₀ s1 := .ite (hs0.bump fun _ => rfl) hs0
    exact hs1.startPhase

theorem execCoalescerWindowFree_answers (hs : Keeps ⟨md, ck, lb, true, true⟩ s₀ s) {rid : ℕ} :
    Answers ⟨md, ck, lb, true, true⟩ s₀ (execCoalescerWindowFree rid s) := by
  unfold execCoalescerWindowFree
  extract_lets s1
  have hs1 : Keeps ⟨md, ck, lb, true, true⟩ s₀ s1 := by
    unfold s1
    split
    · exact .ite hs.closeWindow.modReq hs
    · exact hs
  exact .next hs1.handWindows

theorem Keeps.tryPart (hs : Keeps ⟨md, ck, lb, wd, true⟩ s₀ s) {pid : ℕ} : Keeps ⟨md, ck, lb, wd, true⟩ s₀ (s.tryPart pid) := by
  unfold State.tryPart
  split
  · exact hs
  · split
    · exact hs.failPart
    · exact .ite hs (hs.other.bump fun _ => rfl)
    · split
      · exact hs
      · extract_lets s1 s2
        have hs1 : Keeps ⟨md, ck, lb, wd, true⟩ s₀ s1 := hs.other
        have hs2 : Keeps ⟨md, ck, lb, wd, true⟩ s₀ s2 := hs1.namePages
        exact hs2.wake

theorem Keeps.replaceIndex (hs : Keeps ⟨md, ck, lb, true, true⟩ s₀ s) {i : ℕ} {x : Index} :
    Keeps ⟨md, ck, lb, true, true⟩ s₀ (s.replaceIndex i x) := by
  unfold State.replaceIndex
  extract_lets s1
  have hs1 : Keeps ⟨md, ck, lb, true, true⟩ s₀ s1 := hs.swapIndex.placeNew.sealNew
  split
  · exact hs1.abandonGrown
  · exact hs1

theorem Keeps.writeNew (hs : Keeps ⟨md, ck, lb, true, true⟩ s₀ s) {i : ℕ} {old new : Index} :
    Keeps ⟨md, ck, lb, true, true⟩ s₀ (s.writeNew i old new) := by
  unfold State.writeNew
  exact .foldl hs fun _ _ ht => ht.writePage

theorem Keeps.sealIndex (hs : Keeps ⟨md, ck, lb, true, true⟩ s₀ s) {i : ℕ} : Keeps ⟨md, ck, lb, true, true⟩ s₀ (s.sealIndex i) := by
  unfold State.sealIndex
  split
  · exact hs
  · exact .ite hs hs.replaceIndex.writeNew

/-! ### Machine/Scan -/

theorem Keeps.openHeap (hs : Keeps ⟨md, ck, lb, true, true⟩ s₀ s) {k rid query : ℕ} :
    Keeps ⟨md, ck, lb, true, true⟩ s₀ (s.openHeap k rid query) := by
  unfold State.openHeap
  split
  · exact hs.setRill
  · exact hs

theorem Keeps.thinScan (hs : Keeps ⟨md, ck, lb, true, true⟩ s₀ s) {i : ℕ} {x : Index} {slot basin : ℕ} {v : ℕ × List ℕ} {ms : List (ℕ × ℕ)} :
    Keeps ⟨md, ck, lb, true, true⟩ s₀ (s.thinScan i x slot basin v ms) := by
  unfold State.thinScan
  extract_lets t1
  have ht1 : Keeps ⟨md, ck, lb, true, true⟩ s₀ t1 := by
    unfold t1
    refine .foldl hs fun _ _ ht => ?_
    extract_lets +onlyGivenNames f h rs rk members p u
    have hf : Keeps ⟨md, ck, lb, true, true⟩ s₀ f.2 := ht.takeFree
    have hh : Keeps ⟨md, ck, lb, true, true⟩ s₀ h.2 := hf.takeFree
    have hu : Keeps ⟨md, ck, lb, true, true⟩ s₀ u := by
      unfold u
      refine .foldl hh fun _ _ ht => ?_
      split
      · exact ht.openHeap
      · exact ht
    exact hu.other
  exact ht1.bump

theorem Keeps.scanView (hs : Keeps ⟨md, ck, lb, true, true⟩ s₀ s) {i : ℕ} {x : Index} {w : Window} {v : ℕ × List ℕ} :
    Keeps ⟨md, ck, lb, true, true⟩ s₀ (s.scanView i x w v) := by
  unfold State.scanView
  extract_lets mem ms e
  exact .ite hs.thinScan hs.denseStream

theorem execBatchWindowClose_answers (hs : Keeps ⟨md, ck, lb, true, true⟩ s₀ s) {idx : Fin 32} {slot : ℕ} :
    Answers ⟨md, ck, lb, true, true⟩ s₀ (execBatchWindowClose idx slot s) := by
  unfold execBatchWindowClose
  split
  · extract_lets +onlyGivenNames len
    refine .ite (.next hs) ?_
    extract_lets s1 views
    have hs1 : Keeps ⟨md, ck, lb, true, true⟩ s₀ s1 := hs.other
    exact .next (Keeps.foldl hs1 fun _ _ ht => ht.scanView).countWindow
  · exact .next hs

theorem Keeps.countSplits (hs : Keeps ⟨md, ck, lb, true, true⟩ s₀ s) {rid : ℕ} {r : Req} {x : Index} :
    Keeps ⟨md, ck, lb, true, true⟩ s₀ (s.countSplits rid r x) := by
  unfold State.countSplits
  refine .ite ?_ hs.bump
  extract_lets many
  refine .foldl hs fun _ _ ht => ?_
  extract_lets f
  have hf : Keeps ⟨md, ck, lb, true, true⟩ s₀ f.2 := ht.takeFree
  exact hf.bump

theorem Keeps.wlToSpouts (hs : Keeps ⟨md, ck, lb, true, true⟩ s₀ s) {q : ℕ × ℕ} {v : SketchPair} :
    Keeps ⟨md, ck, lb, true, true⟩ s₀ (s.wlToSpouts q v) := by
  unfold State.wlToSpouts
  split
  · exact hs
  · refine .ite ?_ hs
    extract_lets w
    refine .foldl hs fun _ _ ht => ?_
    refine .ite ht ?_
    refine .foldl ht fun _ _ ht => ?_
    extract_lets sp
    exact ht.setSpout.issue

theorem execWaterlineExchangeHeadworks_answers (hs : Keeps ⟨md, ck, lb, true, true⟩ s₀ s) :
    Answers ⟨md, ck, lb, true, true⟩ s₀ (execWaterlineExchangeHeadworks s) := by
  unfold execWaterlineExchangeHeadworks
  extract_lets ents qs
  refine .next ?_
  refine .foldl hs fun _ _ ht => ?_
  split
  · exact ht
  · extract_lets +onlyGivenNames rks w shared
    exact ht.other.wlToSpouts

/-! ### Machine/Reads -/

theorem Keeps.finish (hs : Keeps ⟨md, ck, lb, true, true⟩ s₀ s) {rid : ℕ} {r : Req} {c : Counts} {distinct : ℕ} {payload : List Byte} :
    Keeps ⟨md, ck, lb, true, true⟩ s₀ (s.finish rid r c distinct payload) := by
  unfold State.finish
  exact hs.respond

theorem Keeps.retain (hs : Keeps ⟨md, ck, lb, true, true⟩ s₀ s) {rid : ℕ} {w : Work} :
    Keeps ⟨md, ck, lb, true, true⟩ s₀ (s.retain rid w) := by
  unfold State.retain
  exact hs.modReq

theorem Keeps.arrayWork (hs : Keeps ⟨md, ck, lb, true, true⟩ s₀ s) {u : ArrayUse} :
    Keeps ⟨md, ck, lb, true, true⟩ s₀ (s.arrayWork u) := by
  unfold State.arrayWork
  exact hs.bump.bump

theorem Keeps.coarseWork (hs : Keeps ⟨md, ck, lb, true, true⟩ s₀ s) {rid : ℕ} {r : Req} {x : Index} {beam : ℕ} {qs : List Query} :
    Keeps ⟨md, ck, lb, true, true⟩ s₀ (s.coarseWork rid r x beam qs) := by
  unfold State.coarseWork
  refine .ite hs.arrayWork ?_
  refine .ite hs ?_
  extract_lets mates all
  exact (Keeps.foldl hs fun _ _ ht => ht.modReq).arrayWork

theorem Keeps.doneCoarse (hs : Keeps ⟨md, ck, lb, true, true⟩ s₀ s) {rid : ℕ} {r : Req} {x : Index} :
    Keeps ⟨md, ck, lb, true, true⟩ s₀ (s.doneCoarse rid r x) := by
  unfold State.doneCoarse
  extract_lets +onlyGivenNames join qs h beam keep count ws s1
  have hs1 : Keeps ⟨md, ck, lb, true, true⟩ s₀ s1 := hs.bump.coarseWork
  exact .ite hs.endWith hs1.retain.startPhase

theorem Keeps.doneScan (hs : Keeps ⟨md, ck, lb, true, true⟩ s₀ s) {rid : ℕ} {r : Req} {x : Index} :
    Keeps ⟨md, ck, lb, true, true⟩ s₀ (s.doneScan rid r x) := by
  unfold State.doneScan
  extract_lets +onlyGivenNames wide m act ws
  exact hs.retain.startPhase

theorem Keeps.doneRerank (hs : Keeps ⟨md, ck, lb, true, true⟩ s₀ s) {rid : ℕ} {r : Req} {x : Index} :
    Keeps ⟨md, ck, lb, true, true⟩ s₀ (s.doneRerank rid r x) := by
  unfold State.doneRerank
  extract_lets +onlyGivenNames wide terms own active ws dropped s1
  have hs1 : Keeps ⟨md, ck, lb, true, true⟩ s₀ s1 := hs.bump
  refine .ite ?_ hs1.retain.startPhase
  extract_lets +onlyGivenNames ws'
  exact hs1.bump.retain.startPhase

theorem Keeps.doneMerge (hs : Keeps ⟨md, ck, lb, true, true⟩ s₀ s) {rid : ℕ} {r : Req} :
    Keeps ⟨md, ck, lb, true, true⟩ s₀ (s.doneMerge rid r) := by
  unfold State.doneMerge
  extract_lets parts short payload
  exact hs.bump.finish

theorem Keeps.doneSelect (hs : Keeps ⟨md, ck, lb, true, true⟩ s₀ s) {rid : ℕ} {r : Req} :
    Keeps ⟨md, ck, lb, true, true⟩ s₀ (s.doneSelect rid r) := by
  unfold State.doneSelect
  extract_lets +onlyGivenNames h rows pad
  refine .ite hs.endWith ?_
  extract_lets parts payload
  exact hs.finish

theorem Keeps.doneCoalesce (hs : Keeps ⟨md, ck, lb, true, true⟩ s₀ s) {rid : ℕ} {r : Req} {x : Index} :
    Keeps ⟨md, ck, lb, true, true⟩ s₀ (s.doneCoalesce rid r x) := by
  unfold State.doneCoalesce
  extract_lets +onlyGivenNames ids n d
  refine .ite hs.endWith ?_
  refine .ite hs.endWith ?_
  extract_lets +onlyGivenNames t
  exact hs.retain.startPhase

theorem Keeps.doneFetch (hs : Keeps ⟨md, ck, lb, true, true⟩ s₀ s) {rid : ℕ} {r : Req} {x : Index} :
    Keeps ⟨md, ck, lb, true, true⟩ s₀ (s.doneFetch rid r x) := by
  unfold State.doneFetch
  extract_lets ids distinct count entry payload dist
  exact hs.finish

theorem Keeps.doneJoinScan (hs : Keeps ⟨md, ck, lb, true, true⟩ s₀ s) {rid : ℕ} {r : Req} {x : Index} :
    Keeps ⟨md, ck, lb, true, true⟩ s₀ (s.doneJoinScan rid r x) := by
  unfold State.doneJoinScan
  extract_lets +onlyGivenNames b h lists as js
  exact hs.retain.startPhase

theorem Keeps.doneExact (hs : Keeps ⟨md, ck, lb, true, true⟩ s₀ s) {rid : ℕ} {r : Req} {x : Index} :
    Keeps ⟨md, ck, lb, true, true⟩ s₀ (s.doneExact rid r x) := by
  unfold State.doneExact
  extract_lets b gs cov pairs sum next head zero stale c
  exact hs.bump.finish

/-! ### Machine/Writes -/

theorem Keeps.setSlot (hs : Keeps ⟨md, ck, lb, true, true⟩ s₀ s) {n : ℕ} {v : EvSlot} :
    Keeps ⟨md, ck, lb, true, true⟩ s₀ (s.setSlot n v) := hs.withClep

theorem Keeps.armSlot (hs : Keeps ⟨md, ck, lb, true, true⟩ s₀ s) {n : ℕ} {t : Time} :
    Keeps ⟨md, ck, lb, true, true⟩ s₀ (s.armSlot n t) := by
  unfold State.armSlot
  exact hs.setSlot

theorem Keeps.disarmSlot (hs : Keeps ⟨md, ck, lb, true, true⟩ s₀ s) {n : ℕ} :
    Keeps ⟨md, ck, lb, true, true⟩ s₀ (s.disarmSlot n) := by
  unfold State.disarmSlot
  exact hs.setSlot

theorem Keeps.freeSlot (hs : Keeps ⟨md, ck, lb, true, true⟩ s₀ s) {n : ℕ} : Keeps ⟨md, ck, lb, true, true⟩ s₀ (s.freeSlot n) := by
  unfold State.freeSlot
  exact hs.setSlot

theorem Keeps.flipMoved (hs : Keeps ⟨md, ck, lb, true, true⟩ s₀ s) {i : ℕ} : Keeps ⟨md, ck, lb, true, true⟩ s₀ (s.flipMoved i) := by
  unfold State.flipMoved
  extract_lets late s1
  have hs1 : Keeps ⟨md, ck, lb, true, true⟩ s₀ s1 := .foldl hs fun _ _ ht => .ite ht.endWith ht
  exact .foldl hs1 fun _ _ ht => ht.failPart

theorem Keeps.doneSched (hs : Keeps ⟨md, ck, lb, true, true⟩ s₀ s) {rid : ℕ} {r : Req} {x : Index} :
    Keeps ⟨md, ck, lb, true, true⟩ s₀ (s.doneSched rid r x) := by
  unfold State.doneSched
  extract_lets +onlyGivenNames i t ok
  have hok : ∀ u, Keeps ⟨md, ck, lb, true, true⟩ s₀ u → Keeps ⟨md, ck, lb, true, true⟩ s₀ (ok u) := fun _ ht => ht.finish
  refine .ite (.ite (hok _ hs) hs.endWith) ?_
  refine .ite hs.endWith ?_
  refine .ite ?_ ?_
  · refine .ite (hok _ hs) ?_
    refine .ite hs.endWith ?_
    extract_lets len
    exact .ite hs.endWith (hok _ hs.setIndex.armSlot.flipMoved)
  · split
    · exact hok _ hs
    · exact .ite hs.endWith (hok _ hs.setIndex.disarmSlot.flipMoved)

theorem Keeps.noCapacity (hs : Keeps ⟨md, ck, lb, true, true⟩ s₀ s) {rid : ℕ} :
    Keeps ⟨md, ck, lb, true, true⟩ s₀ (s.noCapacity rid) := by
  unfold State.noCapacity
  exact hs.bump.endWith

theorem Keeps.doneCheck (hs : Keeps ⟨md, ck, lb, true, true⟩ s₀ s) {rid : ℕ} {r : Req} {x : Index} :
    Keeps ⟨md, ck, lb, true, true⟩ s₀ (s.doneCheck rid r x) := by
  unfold State.doneCheck
  extract_lets bad
  exact .ite hs.endWith (.ite hs.startPhase hs.startPhase)

theorem Keeps.awaitRoom (hs : Keeps ⟨md, ck, lb, true, true⟩ s₀ s) {rid : ℕ} :
    Keeps ⟨md, ck, lb, true, true⟩ s₀ (s.awaitRoom rid) := by
  unfold State.awaitRoom
  exact hs.modReq

theorem Keeps.stageRoom (hs : Keeps ⟨md, ck, lb, true, true⟩ s₀ s) {rid : ℕ} {m : Room} :
    Keeps ⟨md, ck, lb, true, true⟩ s₀ (s.stageRoom rid m) := by
  unfold State.stageRoom
  split
  · exact hs.startPhase
  · exact hs.awaitRoom
  · exact hs.noCapacity

theorem Keeps.doneStage (hs : Keeps ⟨md, ck, lb, true, true⟩ s₀ s) {rid : ℕ} {r : Req} {x : Index} :
    Keeps ⟨md, ck, lb, true, true⟩ s₀ (s.doneStage rid r x) := by
  unfold State.doneStage
  extract_lets +onlyGivenNames i
  refine .ite ?_ ?_
  · split
    · exact hs.stageRoom
    · exact hs.startPhase
  · extract_lets recs _ s1
    have hs1 : Keeps ⟨md, ck, lb, true, true⟩ s₀ s1 := hs.retain.arrayWork
    split
    · exact hs1.startPhase
    · exact hs1.stageRoom

theorem Keeps.commitWrite (hs : Keeps ⟨md, ck, lb, true, true⟩ s₀ s) {rid : ℕ} {r : Req} {x : Index} :
    Keeps ⟨md, ck, lb, true, true⟩ s₀ (s.commitWrite rid r x) := by
  unfold State.commitWrite
  extract_lets +onlyGivenNames i
  split
  · exact hs.noCapacity
  · split
    · exact hs.noCapacity
    · exact hs.awaitRoom
    · extract_lets s1 s2 scatter s3
      have hs1 : Keeps ⟨md, ck, lb, true, true⟩ s₀ s1 := hs.replaceIndex.writeNew
      have hs2 : Keeps ⟨md, ck, lb, true, true⟩ s₀ s2 := hs1.bump
      have hs3 : Keeps ⟨md, ck, lb, true, true⟩ s₀ s3 := .ite hs2.bump hs2
      exact hs3.finish

theorem Keeps.commitStruct (hs : Keeps ⟨md, ck, lb, true, true⟩ s₀ s) {rid : ℕ} {r : Req} {x : Index} :
    Keeps ⟨md, ck, lb, true, true⟩ s₀ (s.commitStruct rid r x) := by
  unfold State.commitStruct
  extract_lets i ok
  have hok : ∀ u n res, Keeps ⟨md, ck, lb, true, true⟩ s₀ u → Keeps ⟨md, ck, lb, true, true⟩ s₀ (ok u n res) :=
    fun _ _ _ ht => (Keeps.ite ht.bump ht).finish
  split
  · exact .ite (hok _ _ _ hs) hs.endWith
  · split
    · exact hs.noCapacity
    · split
      · exact hs.noCapacity
      · exact hs.awaitRoom
      · extract_lets z
        exact hok _ _ _ hs.replaceIndex.writeNew

theorem Keeps.doneCommit (hs : Keeps ⟨md, ck, lb, true, true⟩ s₀ s) {rid : ℕ} {r : Req} {x : Index} :
    Keeps ⟨md, ck, lb, true, true⟩ s₀ (s.doneCommit rid r x) := by
  unfold State.doneCommit
  exact .ite hs.endWith (.ite hs.commitStruct hs.commitWrite)

theorem Keeps.doneSum (hs : Keeps ⟨md, ck, lb, true, true⟩ s₀ s) {rid : ℕ} {r : Req} {x : Index} :
    Keeps ⟨md, ck, lb, true, true⟩ s₀ (s.doneSum rid r x) := by
  unfold State.doneSum
  extract_lets recs e s1
  have hs1 : Keeps ⟨md, ck, lb, true, true⟩ s₀ s1 := .ite hs.arrayWork hs
  exact hs1.bump.finish

/-! ### Machine/Pour -/

theorem Keeps.donePourCheck (hs : Keeps ⟨md, ck, lb, true, true⟩ s₀ s) {rid : ℕ} {r : Req} :
    Keeps ⟨md, ck, lb, true, true⟩ s₀ (s.donePourCheck rid r) := by
  unfold State.donePourCheck
  split
  · exact hs.endWith
  · exact .ite hs.startPhase hs.endWith

theorem Keeps.doneSample (hs : Keeps ⟨md, ck, lb, true, true⟩ s₀ s) {rid : ℕ} {r : Req} :
    Keeps ⟨md, ck, lb, true, true⟩ s₀ (s.doneSample rid r) := by
  unfold State.doneSample
  split
  · exact hs.endWith
  · extract_lets i c cols run outs _ w g s1 s2
    have hs1 : Keeps ⟨md, ck, lb, true, true⟩ s₀ s1 := hs.setProg
    have hs2 : Keeps ⟨md, ck, lb, true, true⟩ s₀ s2 := hs1.retain.arrayWork
    exact .ite hs2.startPhase hs2.finish

theorem execProgramLoadDone_answers (hs : Keeps ⟨md, ck, lb, true, true⟩ s₀ s) {slot : Fin 8} {image : Option (List Byte)} :
    Answers ⟨md, ck, lb, true, true⟩ s₀ (execProgramLoadDone slot image s) := by
  unfold execProgramLoadDone
  extract_lets +onlyGivenNames g
  refine .ite (.next hs) ?_
  extract_lets fail
  have hfail : ∀ e, Keeps ⟨md, ck, lb, true, true⟩ s₀ (fail e) := fun _ => hs.setProg
  split
  · exact .next (hfail _)
  · refine .ite (.next (hfail _)) ?_
    split
    · exact .next (hfail _)
    · exact .ite (.next hs.setProg) (.next (hfail _))

theorem execProgramRemoveDone_answers (hs : Keeps ⟨md, ck, lb, true, true⟩ s₀ s) {slot : Fin 8} :
    Answers ⟨md, ck, lb, true, true⟩ s₀ (execProgramRemoveDone slot s) := by
  unfold execProgramRemoveDone
  extract_lets +onlyGivenNames g used
  refine .ite (.next hs) ?_
  extract_lets +onlyGivenNames s1
  have hs1 : Keeps ⟨md, ck, lb, true, true⟩ s₀ s1 := hs.setProg
  exact .next hs1.others

theorem execInjectCascResidue_answers (hs : Keeps ⟨md, ck, lb, true, true⟩ s₀ s) {col : Fin 64} :
    Answers ⟨md, ck, lb, true, true⟩ s₀ (execInjectCascResidue col s) := by
  unfold execInjectCascResidue
  extract_lets sel k
  exact .next (hs.pfWrite hs.setRegF.setRegF)

/-! ### Machine/Done -/

theorem Keeps.phaseOut (hs : Keeps ⟨md, ck, lb, true, true⟩ s₀ s) {rid : ℕ} {r : Req} :
    Keeps ⟨md, ck, lb, true, true⟩ s₀ (s.phaseOut rid r) := by
  unfold State.phaseOut
  refine .ite hs.doneSelect ?_
  refine .ite (.ite hs.donePourCheck hs.doneSample) ?_
  split
  · exact hs.endWith
  · split
    · exact hs.doneCoarse
    · exact .ite hs.doneJoinScan hs.doneScan
    · exact hs.doneScan
    · exact hs.doneRerank
    · exact hs.doneRerank
    · exact hs.doneMerge
    · exact hs.doneCheck
    · exact hs.doneStage
    · exact hs.doneCommit
    · exact hs.doneCoalesce
    · exact hs.doneFetch
    · exact hs.doneExact
    · exact hs.doneSum
    · exact hs.doneSched
    · exact hs
    · exact hs

theorem Keeps.endRun (hs : Keeps ⟨md, ck, lb, true, true⟩ s₀ s) {rid : ℕ} {r : Req} :
    Keeps ⟨md, ck, lb, true, true⟩ s₀ (s.endRun rid r) := by
  unfold State.endRun
  extract_lets s1 s2
  have hs1 : Keeps ⟨md, ck, lb, true, true⟩ s₀ s1 := .ite hs.bumpSat hs
  have hs2 : Keeps ⟨md, ck, lb, true, true⟩ s₀ s2 := hs1.idleRills.modReq
  exact hs2.other

theorem Keeps.scanSplits (hs : Keeps ⟨md, ck, lb, true, true⟩ s₀ s) {rid : ℕ} {r : Req} :
    Keeps ⟨md, ck, lb, true, true⟩ s₀ (s.scanSplits rid r) := by
  unfold State.scanSplits
  split
  · exact hs
  · exact .ite hs.countSplits hs

theorem Keeps.repairRecord (hs : Keeps ⟨md, ck, lb, true, true⟩ s₀ s) {rid : ℕ} {lost : Option Bool} :
    Keeps ⟨md, ck, lb, true, true⟩ s₀ (s.repairRecord rid lost) := by
  unfold State.repairRecord
  split
  · exact hs.modReq
  · exact hs

theorem execPhaseComplete_answers (hs : Keeps ⟨md, ck, lb, true, true⟩ s₀ s) {rid : ℕ} {readback : Readback} :
    Answers ⟨md, ck, lb, true, true⟩ s₀ (execPhaseComplete rid readback s) := by
  unfold execPhaseComplete
  extract_lets s'
  have hs' : Keeps ⟨md, ck, lb, true, true⟩ s₀ s' := hs.repairRecord
  split
  · exact .next hs'.completePart
  · extract_lets +onlyGivenNames lost
    refine .ite (.next hs') ?_
    refine .ite (.next hs'.endWith) ?_
    refine .ite (.next hs') ?_
    refine .ite (.next hs'.endWith) ?_
    refine .ite (.next hs'.endWith) ?_
    extract_lets s1
    have hs1 : Keeps ⟨md, ck, lb, true, true⟩ s₀ s1 := hs'.scanSplits.endRun
    split
    · exact .next hs1.phaseOut
    · exact .next hs1

theorem Keeps.countCharge (hs : Keeps ⟨md, ck, lb, true, true⟩ s₀ s) {c : Charge} :
    Keeps ⟨md, ck, lb, true, true⟩ s₀ (s.countCharge c) := by
  unfold State.countCharge
  refine .ite hs.bumpSat ?_
  refine .ite hs.bumpSat ?_
  refine .ite ?_ (.ite hs.bumpSat (.ite hs.bumpSat hs))
  extract_lets k
  exact .ite hs.bumpSat (.ite hs.bumpSat hs)

theorem Keeps.takeInjected (hs : Keeps ⟨md, ck, lb, true, true⟩ s₀ s) {c : Charge} :
    Keeps ⟨md, ck, lb, true, true⟩ s₀ (s.takeInjected c).2 := by
  unfold State.takeInjected
  extract_lets k
  split
  · exact hs.setRegF
  · exact hs

theorem execPhaseFault_answers (hs : Keeps ⟨md, ck, lb, true, true⟩ s₀ s) {rid : ℕ} {charge : Charge} :
    Answers ⟨md, ck, lb, true, true⟩ s₀ (execPhaseFault rid charge s) := by
  unfold execPhaseFault
  extract_lets +onlyGivenNames held
  refine .ite (.next hs) ?_
  extract_lets i
  have hi : Keeps ⟨md, ck, lb, true, true⟩ s₀ i.2 := hs.countCharge.takeInjected
  exact .next (.foldl hi fun _ _ ht => ht.phaseFault)

theorem execDeadlineArrival_answers (hs : Keeps ⟨md, ck, lb, true, true⟩ s₀ s) {rid : ℕ} :
    Answers ⟨md, ck, lb, true, true⟩ s₀ (execDeadlineArrival rid s) := by
  unfold execDeadlineArrival
  split
  · refine .ite (.next hs) ?_
    extract_lets waits
    exact .next hs.endWith
  · split
    · refine .ite (.next hs) ?_
      extract_lets waits
      exact .next hs.failPart
    · exact .next hs

theorem Keeps.countUndelivered (hs : Keeps ⟨md, ck, lb, true, true⟩ s₀ s) {n : ℕ} :
    Keeps ⟨md, ck, lb, true, true⟩ s₀ (s.countUndelivered n) := by
  unfold State.countUndelivered
  exact hs.others

theorem Keeps.dropOldReplies (hs : Keeps ⟨md, ck, lb, true, true⟩ s₀ s) : Keeps ⟨md, ck, lb, true, true⟩ s₀ s.dropOldReplies := by
  unfold State.dropOldReplies
  extract_lets old
  exact hs.dropMsgs.countUndelivered

theorem execResponseDrop_answers (hs : Keeps ⟨md, ck, lb, true, true⟩ s₀ s) {rid : ℕ} :
    Answers ⟨md, ck, lb, true, true⟩ s₀ (execResponseDrop rid s) := by
  unfold execResponseDrop
  extract_lets s0
  have hs0 : Keeps ⟨md, ck, lb, true, true⟩ s₀ s0 := hs.dropOldReplies
  split
  · exact .next hs0
  · refine .ite (.next hs0) ?_
    split
    · exact .next hs0.dropMsgs.dropReq.countUndelivered
    · extract_lets v s1
      have hs1 : Keeps ⟨md, ck, lb, true, true⟩ s₀ s1 := hs0.setQueue
      exact .next hs1.dropReq.countUndelivered.bumpSat

theorem Keeps.takePart (hs : Keeps ⟨md, ck, lb, true, true⟩ s₀ s) {kind : PartKind} {port : ℕ} {src : U64} {body : List Byte} :
    Keeps ⟨md, ck, lb, true, true⟩ s₀ (s.takePart kind port src body) := by
  unfold State.takePart
  extract_lets pid p
  have taken : Keeps ⟨md, ck, lb, true, true⟩ s₀ { s with nextRid := pid + 1, partsIn := Store.insert s.partsIn pid p } :=
    { hs with
      rids := Nat.le_succ_of_le hs.rids
      numbered := fun n => ⟨(hs.numbered n).1, fun k hk => Nat.lt_succ_of_lt ((hs.numbered n).2 k hk)⟩
      fuses := hs.fuses.trans (.of_eq rfl rfl)
      served := nofun
      quiet := nofun }
  exact taken.tryPart

theorem Keeps.partArrives (hs : Keeps ⟨md, ck, lb, true, true⟩ s₀ s) {kind : PartKind} {port : ℕ} {src : U64} {body : List Byte} :
    Keeps ⟨md, ck, lb, true, true⟩ s₀ (s.partArrives kind port src body) := by
  unfold State.partArrives
  extract_lets f ok s1
  have hf : Keeps ⟨md, ck, lb, true, true⟩ s₀ f.2 := hs.takeFree
  have hs1 : Keeps ⟨md, ck, lb, true, true⟩ s₀ s1 := hf.admitMsg
  exact .ite hs1.takePart hs1

theorem Keeps.replyFor (hs : Keeps ⟨md, ck, lb, true, true⟩ s₀ s) {p : PartOut} {body : List Byte} :
    Keeps ⟨md, ck, lb, true, true⟩ s₀ (s.replyFor p body) := by
  unfold State.replyFor
  split
  · exact hs
  · split
    · exact hs
    · extract_lets +onlyGivenNames fault done st
      have hfault : Keeps ⟨md, ck, lb, true, true⟩ s₀ fault := hs.phaseFault
      have hdone : ∀ w, Keeps ⟨md, ck, lb, true, true⟩ s₀ (done w) := by
        intro _
        unfold done
        extract_lets s1
        have hs1 : Keeps ⟨md, ck, lb, true, true⟩ s₀ s1 := hs.retain
        exact hs1.other
      refine .ite hfault ?_
      refine .ite ?_ ?_
      · extract_lets +onlyGivenNames n
        refine .ite hfault ?_
        refine .ite (.ite hs.endWith hfault) ?_
        extract_lets +onlyGivenNames ids g
        exact .ite (hdone _) hfault
      · extract_lets +onlyGivenNames n
        refine .ite hfault ?_
        refine .ite (.ite hs.endWith hfault) ?_
        extract_lets +onlyGivenNames g
        exact .ite (hdone _) hfault

theorem Keeps.partReply (hs : Keeps ⟨md, ck, lb, true, true⟩ s₀ s) {body : List Byte} :
    Keeps ⟨md, ck, lb, true, true⟩ s₀ (s.partReply body) := by
  unfold State.partReply
  split
  · exact hs.bumpSat
  · exact hs.replyFor

theorem execRerankReply_answers (hs : Keeps ⟨md, ck, lb, true, true⟩ s₀ s) {port : Fin 8} {src : U64} {body : List Byte} :
    Answers ⟨md, ck, lb, true, true⟩ s₀ (execRerankReply port src body s) := by
  unfold execRerankReply
  exact .next hs.partReply

theorem execGatherReply_answers (hs : Keeps ⟨md, ck, lb, true, true⟩ s₀ s) {port : Fin 8} {src : U64} {body : List Byte} :
    Answers ⟨md, ck, lb, true, true⟩ s₀ (execGatherReply port src body s) := by
  unfold execGatherReply
  exact .next hs.partReply

theorem execAdmissionFrame_answers (hs : Keeps ⟨md, ck, lb, true, true⟩ s₀ s) {port : Fin 8} {src : U64} {body : List Byte} :
    Answers ⟨md, ck, lb, true, true⟩ s₀ (execAdmissionFrame port src body s) := by
  unfold execAdmissionFrame
  exact .next hs.other

theorem execPartResend_answers (hs : Keeps ⟨md, ck, lb, true, true⟩ s₀ s) {token : ℕ} :
    Answers ⟨md, ck, lb, true, true⟩ s₀ (execPartResend token s) := by
  unfold execPartResend
  split
  · exact .next hs
  · refine .ite (.next hs) ?_
    extract_lets s1
    have hs1 : Keeps ⟨md, ck, lb, true, true⟩ s₀ s1 := hs.other
    exact .next hs1.sendPart

theorem execWeirPass_answers (hs : Keeps ⟨md, ck, lb, true, true⟩ s₀ s) {lane : Option (Fin 16)} {rid : ℕ} {sketch : Bool} {keep : ℕ}
    {ents : List WeirEntry} :
    Answers ⟨md, ck, lb, true, true⟩ s₀ (execWeirPass lane rid sketch keep ents s) := by
  unfold execWeirPass
  extract_lets +onlyGivenNames inj
  refine .ite (.next hs) ?_
  refine .ite ?_ ?_
  · extract_lets l
    exact .next hs.setRegF.bumpSat.phaseFault
  · extract_lets row p s1
    have hs1 : Keeps ⟨md, ck, lb, true, true⟩ s₀ s1 := hs.bump.bump.bump
    exact .next hs1.emit

theorem execInjectWeirParity_answers (hs : Keeps ⟨md, ck, lb, true, true⟩ s₀ s) {lane : Fin 16} :
    Answers ⟨md, ck, lb, true, true⟩ s₀ (execInjectWeirParity lane s) := by
  unfold execInjectWeirParity
  exact .next (hs.pfWrite hs.setRegF.setRegF)

/-! ### Machine/Admission -/

theorem Keeps.reqClass (hs : Keeps ⟨md, ck, lb, true, true⟩ s₀ s) {op : ℕ} {h : ReqHdr} {trusted : Bool} :
    Keeps ⟨md, ck, lb, true, true⟩ s₀ (s.reqClass op h trusted).2 := by
  unfold State.reqClass
  extract_lets +onlyGivenNames c
  split
  · exact hs
  · split
    · exact hs
    · extract_lets f
      have hf : Keeps ⟨md, ck, lb, true, true⟩ s₀ f.2 := hs.takeFree
      exact hf

theorem Keeps.settleReq (hs : Keeps ⟨md, ck, lb, wd, true⟩ s₀ s) {rid : ℕ} {v : Verdict} :
    Keeps ⟨md, ck, lb, wd, true⟩ s₀ (s.settleReq rid v) := by
  unfold State.settleReq
  split
  · exact hs.endNow
  · exact hs.modReq.bumpSat (fun _ => rfl) fun _ => rfl
  · exact hs.modReq.bump (fun _ => rfl) fun _ => rfl
  · exact hs.startReq

theorem Keeps.accept (hs : Keeps ⟨md, ck, lb, true, true⟩ s₀ s) {op : ℕ} {h : ReqHdr} {payload : List Byte} {src : Source} {recv : ℕ} {node : Bool} :
    Keeps ⟨md, ck, lb, true, true⟩ s₀ (s.accept op h payload src recv node) := by
  unfold State.accept
  extract_lets v step c d trusted s1 toSource ret rid r _ s2
  have hs1 : Keeps ⟨md, ck, lb, true, true⟩ s₀ s1 := .ite hs.reqClass hs.reqClass.takeFree
  have hs2 : Keeps ⟨md, ck, lb, true, true⟩ s₀ s2 :=
    { hs1 with
      rids := Nat.le_succ_of_le hs1.rids
      fuses := hs1.fuses.trans (.of_eq rfl rfl)
      served := nofun
      quiet := nofun
      numbered := fun n => by
        refine ⟨Store.sorted_insert _ _ _ (hs1.numbered n).1, fun k hk => ?_⟩
        obtain rfl | old := Store.keys_insert_mem _ _ _ _ hk
        · exact Nat.lt_succ_self _
        · exact Nat.lt_succ_of_lt ((hs1.numbered n).2 k old) }
  exact hs2.settleReq

theorem Keeps.hostBusy (hs : Keeps ⟨md, ck, lb, true, true⟩ s₀ s) {fn q : ℕ} {tag : U32} {addr : U64} {len : U32} {h : ReqHdr} :
    Keeps ⟨md, ck, lb, true, true⟩ s₀ (s.hostBusy fn q tag addr len h) := by
  unfold State.hostBusy
  exact hs.bump.owe

theorem Keeps.inFlight (hs : Keeps ⟨md, ck, lb, true, true⟩ s₀ s) {fn q : ℕ} :
    Keeps ⟨md, ck, lb, true, true⟩ s₀ (s.inFlight fn q) := by
  unfold State.inFlight
  extract_lets v
  exact hs.setQueue

theorem Keeps.offer (hs : Keeps ⟨md, ck, lb, true, true⟩ s₀ s) {op : ℕ} {h : ReqHdr} {payload : List Byte} {src : Source} {recv : ℕ} :
    Keeps ⟨md, ck, lb, true, true⟩ s₀ (s.offer op h payload src recv) := by
  unfold State.offer
  extract_lets +onlyGivenNames part ok
  split
  · extract_lets f s1
    have hf : Keeps ⟨md, ck, lb, true, true⟩ s₀ f.2 := hs.takeFree
    have hs1 : Keeps ⟨md, ck, lb, true, true⟩ s₀ s1 := hf.admitMsg
    exact .ite hs1.accept hs1
  · exact .ite hs.inFlight.accept hs.hostBusy

/-! ### Machine/Slices -/

theorem Keeps.shrinkCaches (hs : Keeps ⟨md, ck, lb, true, true⟩ s₀ s) : Keeps ⟨md, ck, lb, true, true⟩ s₀ s.shrinkCaches := by
  unfold State.shrinkCaches
  extract_lets +onlyGivenNames cs
  exact hs.other

theorem Keeps.asAccepted (hs : Keeps φ s₀ s) {rid : ℕ} : Keeps φ s₀ (s.asAccepted rid) := by
  unfold State.asAccepted
  exact hs.modReq

theorem Keeps.resumeMap (hs : Keeps ⟨md, ck, lb, wd, true⟩ s₀ s) {rid : ℕ} : Keeps ⟨md, ck, lb, wd, true⟩ s₀ (s.resumeMap rid) := by
  unfold State.resumeMap
  split
  · exact hs
  · extract_lets s1
    have hs1 : Keeps ⟨md, ck, lb, wd, true⟩ s₀ s1 := hs.asAccepted
    exact hs1.settleReq

theorem Keeps.resumeMaps (hs : Keeps ⟨md, ck, lb, wd, true⟩ s₀ s) : Keeps ⟨md, ck, lb, wd, true⟩ s₀ s.resumeMaps := by
  unfold State.resumeMaps
  exact .foldl hs fun _ _ ht => ht.resumeMap

theorem Keeps.mapSwitch (hs : Keeps ⟨md, ck, lb, true, true⟩ s₀ s) {late : Bool} :
    Keeps ⟨md, ck, lb, true, true⟩ s₀ (s.mapSwitch late) := by
  unfold State.mapSwitch
  split
  · exact hs
  · extract_lets old new g since changed terrs grans lacks _ s1 joined
    have hs1 : Keeps ⟨md, ck, lb, true, true⟩ s₀ s1 := hs.others
    exact .foldl hs1.shrinkCaches fun _ _ ht => ht.pointOut

theorem Keeps.mapMoved (hs : Keeps ⟨md, ck, lb, true, true⟩ s₀ s) : Keeps ⟨md, ck, lb, true, true⟩ s₀ s.mapMoved := by
  unfold State.mapMoved
  exact .foldl hs fun _ _ ht => .ite ht.endWith ht

theorem Keeps.clearTerrace (hs : Keeps ⟨md, ck, lb, true, true⟩ s₀ s) {t : ℕ} :
    Keeps ⟨md, ck, lb, true, true⟩ s₀ (s.clearTerrace t) := by
  unfold State.clearTerrace
  extract_lets +onlyGivenNames rs
  exact hs.other

theorem execResourceRelease_answers (hs : Keeps ⟨md, ck, lb, true, true⟩ s₀ s) :
    Answers ⟨md, ck, lb, true, true⟩ s₀ (execResourceRelease s) := by
  unfold execResourceRelease
  extract_lets +onlyGivenNames go s1
  have hs1 : Keeps ⟨md, ck, lb, true, true⟩ s₀ s1 := by
    unfold s1
    refine .foldl hs fun _ _ ht => ?_
    split
    · exact ht.clearTerrace.pointOut
    · exact ht.others
  exact .next hs1.others

theorem execDrainMaxExpiry_answers (hs : Keeps ⟨md, ck, lb, true, true⟩ s₀ s) :
    Answers ⟨md, ck, lb, true, true⟩ s₀ (execDrainMaxExpiry s) := by
  unfold execDrainMaxExpiry
  exact .ite (.next hs) (.next (.foldl hs fun _ _ ht => ht.endWith))

theorem execReplicaPullDone_answers (hs : Keeps ⟨md, ck, lb, true, true⟩ s₀ s) {terrace : Fin 16} {obj : ℕ} :
    Answers ⟨md, ck, lb, true, true⟩ s₀ (execReplicaPullDone terrace obj s) := by
  unfold execReplicaPullDone
  exact .ite (.next hs.others.bumpSat) (.next hs)

theorem Keeps.moveOut (hs : Keeps ⟨md, ck, lb, true, true⟩ s₀ s) {b k : ℕ} : Keeps ⟨md, ck, lb, true, true⟩ s₀ (s.moveOut b k) := by
  unfold State.moveOut
  extract_lets gs
  refine .foldl hs fun _ _ ht => ?_
  refine .foldl ht fun _ _ ht => ?_
  refine .foldl ht fun _ _ ht => ?_
  extract_lets bad
  exact .ite ht ht.moveArr

theorem execGranulePagesMoved_answers (hs : Keeps ⟨md, ck, lb, true, true⟩ s₀ s) {basin kind : Fin 2} :
    Answers ⟨md, ck, lb, true, true⟩ s₀ (execGranulePagesMoved basin kind s) := by
  unfold execGranulePagesMoved
  refine .ite (.next hs) ?_
  extract_lets +onlyGivenNames s1
  have hs1 : Keeps ⟨md, ck, lb, true, true⟩ s₀ s1 := hs.moveOut
  exact .next hs1.others

/-! ### Machine/Clep -/

theorem Keeps.clepEvent (hs : Keeps ⟨md, ck, lb, true, true⟩ s₀ s) {b : ℕ} : Keeps ⟨md, ck, lb, true, true⟩ s₀ (s.clepEvent b) := by
  unfold State.clepEvent
  exact hs.setRegF

theorem Keeps.beginSeal (hs : Keeps ⟨md, ck, lb, true, true⟩ s₀ s) {i : ℕ} : Keeps ⟨md, ck, lb, true, true⟩ s₀ (s.beginSeal i) := by
  unfold State.beginSeal
  exact hs.sealIndex.abandonMigs

theorem Keeps.wakeFlip (hs : Keeps ⟨md, ck, lb, wd, true⟩ s₀ s) {i : ℕ} : Keeps ⟨md, ck, lb, wd, true⟩ s₀ (s.wakeFlip i) := by
  unfold State.wakeFlip
  extract_lets s1
  have hs1 : Keeps ⟨md, ck, lb, wd, true⟩ s₀ s1 := .foldl hs fun _ _ ht => ht.asAccepted.startReq
  exact .foldl hs1 fun _ _ ht => ht.tryPart

theorem Keeps.doFlip (hs : Keeps ⟨md, ck, lb, true, true⟩ s₀ s) {i : ℕ} {t : Time} :
    Keeps ⟨md, ck, lb, true, true⟩ s₀ (s.doFlip i t) := by
  unfold State.doFlip
  split
  · exact hs
  · extract_lets s1
    have hs1 : Keeps ⟨md, ck, lb, true, true⟩ s₀ s1 := .ite hs hs.beginSeal
    split
    · exact hs1
    · extract_lets y s2
      have hs2 : Keeps ⟨md, ck, lb, true, true⟩ s₀ s2 := hs1.setIndex.disarmSlot
      exact hs2.freeUnseen.bump.wakeFlip

theorem Keeps.noteFired (hs : Keeps ⟨md, ck, lb, true, true⟩ s₀ s) {n : ℕ} {late : Bool} :
    Keeps ⟨md, ck, lb, true, true⟩ s₀ (s.noteFired n late) := by
  unfold State.noteFired
  extract_lets s1
  have hs1 : Keeps ⟨md, ck, lb, true, true⟩ s₀ s1 := hs.setRegF
  exact .ite hs1.bumpSat.clepEvent hs1

theorem Keeps.fireSlot (hs : Keeps ⟨md, ck, lb, true, true⟩ s₀ s) {n : ℕ} : Keeps ⟨md, ck, lb, true, true⟩ s₀ (s.fireSlot n) := by
  unfold State.fireSlot
  extract_lets +onlyGivenNames e s1
  have hs1 : Keeps ⟨md, ck, lb, true, true⟩ s₀ s1 := hs.noteFired
  split
  · exact hs1.setSlot.mapSwitch
  · exact hs1.setSlot.takeOver
  · exact hs1.setSlot.doFlip
  · exact hs1.setSlot
  · exact hs

theorem Keeps.settleInstant (hs : Keeps ⟨md, ck, lb, wd, true⟩ s₀ s) : Keeps ⟨md, ck, lb, wd, true⟩ s₀ s.settleInstant := by
  unfold State.settleInstant
  exact .ite hs hs.resumeMaps

theorem Keeps.fireOn (hs : Keeps ⟨md, ck, lb, true, true⟩ s₀ s) {n : ℕ} {k : SlotKind} :
    Keeps ⟨md, ck, lb, true, true⟩ s₀ (s.fireOn n k) := by
  unfold State.fireOn
  exact .ite hs.fireSlot.settleInstant hs

theorem Keeps.fireDue (hs : Keeps ⟨md, ck, lb, true, true⟩ s₀ s) : Keeps ⟨md, ck, lb, true, true⟩ s₀ s.fireDue := by
  unfold State.fireDue
  extract_lets due order
  exact (Keeps.foldl hs fun _ _ ht => ht.fireSlot).settleInstant

theorem execMapSwitch_answers (hs : Keeps ⟨md, ck, lb, true, true⟩ s₀ s) {slot : ℕ} :
    Answers ⟨md, ck, lb, true, true⟩ s₀ (execMapSwitch slot s) := by
  unfold execMapSwitch
  exact .next hs.fireOn

theorem execGateTakeover_answers (hs : Keeps ⟨md, ck, lb, true, true⟩ s₀ s) {slot : ℕ} :
    Answers ⟨md, ck, lb, true, true⟩ s₀ (execGateTakeover slot s) := by
  unfold execGateTakeover
  exact .next hs.fireOn

theorem execEpochFlip_answers (hs : Keeps ⟨md, ck, lb, true, true⟩ s₀ s) {slot : ℕ} :
    Answers ⟨md, ck, lb, true, true⟩ s₀ (execEpochFlip slot s) := by
  unfold execEpochFlip
  exact .next hs.fireOn

theorem execSealBegin_answers (hs : Keeps ⟨md, ck, lb, true, true⟩ s₀ s) {idx : Fin 32} :
    Answers ⟨md, ck, lb, true, true⟩ s₀ (execSealBegin idx s) := by
  unfold execSealBegin
  split
  · exact .ite (.next hs.beginSeal) (.next hs)
  · exact .next hs

theorem execDrainEnd_answers (hs : Keeps ⟨md, ck, lb, true, true⟩ s₀ s) {idx : Fin 32} :
    Answers ⟨md, ck, lb, true, true⟩ s₀ (execDrainEnd idx s) := by
  unfold execDrainEnd
  split
  · split
    · exact .ite (.next hs.setIndex.freeUnseen) (.next hs)
    · exact .next hs
  · exact .next hs

theorem Keeps.markMissed (hs : Keeps ⟨md, ck, lb, true, true⟩ s₀ s) {old : Option ℕ} :
    Keeps ⟨md, ck, lb, true, true⟩ s₀ (s.markMissed old) := by
  unfold State.markMissed
  extract_lets +onlyGivenNames now
  exact hs.withClep

theorem execReferenceEdge_answers (hs : Keeps ⟨m, true, l, true, true⟩ s₀ s) :
    Answers ⟨m, true, l, true, true⟩ s₀ (execReferenceEdge s) :=
  .next hs.newClep.markMissed

theorem Keeps.enterFree (hs : Keeps ⟨m, true, l, true, true⟩ s₀ s) :
    Keeps ⟨m, true, l, true, true⟩ s₀ s.enterFree := hs.newClep.clepEvent.logEvent

theorem Keeps.enterHoldover (hs : Keeps ⟨m, true, l, true, true⟩ s₀ s) : Keeps ⟨m, true, l, true, true⟩ s₀ s.enterHoldover :=
  hs.newClep.clepEvent.bumpSat.logEvent

theorem Keeps.enterLocked (hs : Keeps ⟨m, true, l, true, true⟩ s₀ s) : Keeps ⟨m, true, l, true, true⟩ s₀ s.enterLocked :=
  hs.newClep.clepEvent.logEvent.fireDue

theorem Keeps.switchRef (hs : Keeps ⟨md, ck, lb, true, true⟩ s₀ s) {b : Bool} :
    Keeps ⟨md, ck, lb, true, true⟩ s₀ (s.switchRef b) := by
  unfold State.switchRef
  exact .ite hs hs.withClep.bumpSat

theorem Keeps.preferRef (hs : Keeps ⟨md, ck, lb, true, true⟩ s₀ s) : Keeps ⟨md, ck, lb, true, true⟩ s₀ s.preferRef := by
  unfold State.preferRef
  extract_lets pref
  exact .ite hs.switchRef hs

theorem Keeps.refLost (hs : Keeps ⟨m, true, l, true, true⟩ s₀ s) {b : Bool} : Keeps ⟨m, true, l, true, true⟩ s₀ (s.refLost b) := by
  unfold State.refLost
  extract_lets +onlyGivenNames c
  refine .ite hs ?_
  extract_lets +onlyGivenNames s1
  have hs1 : Keeps ⟨m, true, l, true, true⟩ s₀ s1 := hs.withClep
  refine .ite hs1 ?_
  extract_lets s2
  have hs2 : Keeps ⟨m, true, l, true, true⟩ s₀ s2 := hs1.clepEvent
  refine .ite (.ite hs2.switchRef hs2) ?_
  split
  · exact hs2.enterHoldover
  · exact hs2.enterFree
  · exact hs2

theorem execRefLost_answers (hs : Keeps ⟨m, true, l, true, true⟩ s₀ s) {useB : Bool} :
    Answers ⟨m, true, l, true, true⟩ s₀ (execRefLost useB s) := by
  unfold execRefLost
  exact .next hs.refLost

theorem execRefFreqInterval_answers (hs : Keeps ⟨m, true, l, true, true⟩ s₀ s) {useB : Bool} {hz : ℕ} :
    Answers ⟨m, true, l, true, true⟩ s₀ (execRefFreqInterval useB hz s) := by
  unfold execRefFreqInterval
  exact .next (.ite hs hs.refLost)

theorem Keeps.leaveHoldover (hs : Keeps ⟨m, true, l, true, true⟩ s₀ s) : Keeps ⟨m, true, l, true, true⟩ s₀ s.leaveHoldover := by
  unfold State.leaveHoldover
  extract_lets c
  refine .ite hs ?_
  split
  · exact hs
  · exact .ite hs.withClep.enterLocked hs.enterFree

theorem Keeps.refGoodAgain (hs : Keeps ⟨m, true, l, true, true⟩ s₀ s) {b : Bool} :
    Keeps ⟨m, true, l, true, true⟩ s₀ (s.refGoodAgain b) := by
  unfold State.refGoodAgain
  extract_lets c s1 pref s2
  have hs1 : Keeps ⟨m, true, l, true, true⟩ s₀ s1 := hs.withClep
  have hs2 : Keeps ⟨m, true, l, true, true⟩ s₀ s2 := .ite hs1.switchRef hs1
  exact hs2.leaveHoldover

theorem execRefGoodInterval_answers (hs : Keeps ⟨m, true, l, true, true⟩ s₀ s) {useB gap : Bool} {hz : ℕ} :
    Answers ⟨m, true, l, true, true⟩ s₀ (execRefGoodInterval useB gap hz s) := by
  unfold execRefGoodInterval
  extract_lets +onlyGivenNames c
  refine .ite (.next hs) ?_
  extract_lets n
  exact .next (.ite hs.refGoodAgain hs.withClep)

theorem Keeps.syncLost (hs : Keeps ⟨md, ck, lb, true, true⟩ s₀ s) {b : Bool} :
    Keeps ⟨md, ck, lb, true, true⟩ s₀ (s.syncLost b) := by
  unfold State.syncLost
  extract_lets c s1
  have hs1 : Keeps ⟨md, ck, lb, true, true⟩ s₀ s1 := hs.withClep
  exact .ite hs1.clepEvent hs1

theorem Keeps.judgePulse (hs : Keeps ⟨md, ck, lb, true, true⟩ s₀ s) {b : Bool} :
    Keeps ⟨md, ck, lb, true, true⟩ s₀ (s.judgePulse b) := by
  unfold State.judgePulse
  extract_lets _ off timely s1 n
  have timed : Keeps ⟨md, ck, lb, true, true⟩ s₀ s1 := hs.withClep
  refine .ite timed.syncLost (.ite timed ?_)
  exact timed.withClep (by split <;> rfl) (by split <;> rfl)

theorem Keeps.stepCount (hs : Keeps ⟨m, true, l, true, true⟩ s₀ s) {w : Time} :
    Keeps ⟨m, true, l, true, true⟩ s₀ (s.stepCount w) := by
  unfold State.stepCount
  exact hs.newClep.clepEvent.logEvent.markMissed

theorem Keeps.loadCount (hs : Keeps ⟨m, true, l, true, true⟩ s₀ s) {w : Time} :
    Keeps ⟨m, true, l, true, true⟩ s₀ (s.loadCount w) := hs.newClep.stepCount

theorem Keeps.loadOwn (hs : Keeps ⟨m, true, l, true, true⟩ s₀ s) : Keeps ⟨m, true, l, true, true⟩ s₀ s.loadOwn := by
  unfold State.loadOwn
  refine .ite hs ?_
  extract_lets +onlyGivenNames s1
  have hs1 : Keeps ⟨m, true, l, true, true⟩ s₀ s1 := hs.stepCount
  exact hs1.withClep.enterLocked

theorem Keeps.takeWord (hs : Keeps ⟨m, true, l, true, true⟩ s₀ s) {w : Time} :
    Keeps ⟨m, true, l, true, true⟩ s₀ (s.takeWord w) := by
  unfold State.takeWord
  extract_lets +onlyGivenNames c
  refine .ite (.ite hs.loadCount hs) ?_
  refine .ite hs.withClep ?_
  extract_lets s1
  have hs1 : Keeps ⟨m, true, l, true, true⟩ s₀ s1 := hs.withClep.bumpSat.clepEvent
  exact .ite hs1.enterFree hs1

theorem Keeps.lockPulse (hs : Keeps ⟨m, true, l, true, true⟩ s₀ s) {phase : U16} :
    Keeps ⟨m, true, l, true, true⟩ s₀ (s.lockPulse phase) := by
  unfold State.lockPulse
  extract_lets +onlyGivenNames c
  refine .ite hs ?_
  extract_lets n s1
  have hs1 : Keeps ⟨m, true, l, true, true⟩ s₀ s1 := hs.withClep
  exact .ite hs1.enterLocked hs1

theorem execSyncPulse_answers (hs : Keeps ⟨m, true, l, true, true⟩ s₀ s) {pulseB : Bool} {phasePs : U16} :
    Answers ⟨m, true, l, true, true⟩ s₀ (execSyncPulse pulseB phasePs s) := by
  unfold execSyncPulse
  refine .ite (.next hs) ?_
  extract_lets s1 c s2 marks stale _ s3 judged
  have hs1 : Keeps ⟨m, true, l, true, true⟩ s₀ s1 := hs.judgePulse
  have hs2 : Keeps ⟨m, true, l, true, true⟩ s₀ s2 := .ite hs1.withClep hs1
  have hs3 : Keeps ⟨m, true, l, true, true⟩ s₀ s3 := by
    unfold s3
    split
    · exact hs2.withClep.takeWord
    · exact hs2
    · exact .ite hs2.withClep hs2
  exact .next (Keeps.ite hs3.lockPulse hs3).leaveHoldover

theorem execSyncTimeout_answers (hs : Keeps ⟨md, ck, lb, true, true⟩ s₀ s) {pairB : Bool} :
    Answers ⟨md, ck, lb, true, true⟩ s₀ (execSyncTimeout pairB s) := by
  unfold execSyncTimeout
  refine .ite (.next hs) ?_
  extract_lets +onlyGivenNames s1
  have hs1 : Keeps ⟨md, ck, lb, true, true⟩ s₀ s1 := hs.syncLost
  exact .next hs1.withClep

theorem execCount_answers (hs : Keeps ⟨md, ck, lb, true, true⟩ s₀ s) {port : Fin 8} {word : List Byte} :
    Answers ⟨md, ck, lb, true, true⟩ s₀ (execCount port word s) := by
  unfold execCount
  extract_lets +onlyGivenNames r s'
  have hr : Keeps ⟨md, ck, lb, true, true⟩ s₀ r.2 := hs.takeCtrl
  have hs' : Keeps ⟨md, ck, lb, true, true⟩ s₀ s' := hr
  refine .ite (.next hs') ?_
  extract_lets c word seen
  exact .next hs'.withClep

theorem execKeeperCountWord_answers (hs : Keeps ⟨m, true, l, true, true⟩ s₀ s) :
    Answers ⟨m, true, l, true, true⟩ s₀ (execKeeperCountWord s) := by
  unfold execKeeperCountWord
  extract_lets +onlyGivenNames c
  refine .ite (.next hs) ?_
  refine .ite (.next (.ite hs.loadOwn hs)) ?_
  extract_lets +onlyGivenNames s1
  have hs1 : Keeps ⟨m, true, l, true, true⟩ s₀ s1 := hs.withClep
  split
  · exact .next (.ite hs1.logEvent hs1)
  · exact .ite (.next (.ite hs1.withClep hs1)) (.next hs1.logEvent)

theorem execAcquireTimeout_answers (hs : Keeps ⟨m, true, l, true, true⟩ s₀ s) :
    Answers ⟨m, true, l, true, true⟩ s₀ (execAcquireTimeout s) := by
  unfold execAcquireTimeout
  extract_lets c
  exact .next (.ite hs.enterFree hs)

theorem execHoldoverLimit_answers (hs : Keeps ⟨m, true, l, true, true⟩ s₀ s) :
    Answers ⟨m, true, l, true, true⟩ s₀ (execHoldoverLimit s) := by
  unfold execHoldoverLimit
  extract_lets c
  exact .next (.ite hs.enterFree hs)

/-! ### Machine/Lifecycle -/

theorem Keeps.setIdxErr (hs : Keeps ⟨md, ck, lb, true, true⟩ s₀ s) {i e : ℕ} :
    Keeps ⟨md, ck, lb, true, true⟩ s₀ (s.setIdxErr i e) := by
  unfold State.setIdxErr
  exact hs.setRegF

theorem Keeps.eraseIndex (hs : Keeps ⟨md, ck, lb, true, true⟩ s₀ s) {i : ℕ} :
    Keeps ⟨md, ck, lb, true, true⟩ s₀ (s.eraseIndex i) := by
  unfold State.eraseIndex
  exact hs.others

theorem execIndexLoadDone_answers (hs : Keeps ⟨md, ck, lb, true, true⟩ s₀ s) {idx : Fin 32} {image : Option (List Byte)} :
    Answers ⟨md, ck, lb, true, true⟩ s₀ (execIndexLoadDone idx image s) := by
  unfold execIndexLoadDone
  split
  · exact .next hs
  · refine .ite (.next hs) ?_
    extract_lets +onlyGivenNames err
    exact .ite (.next hs.setIndex) (.next hs.freeSlot.eraseIndex.setIdxErr)

theorem Keeps.clearRoutes (hs : Keeps ⟨md, ck, lb, true, true⟩ s₀ s) {i : ℕ} :
    Keeps ⟨md, ck, lb, true, true⟩ s₀ (s.clearRoutes i) := hs.withRegs (Store.wf_filter _)

theorem Keeps.dropIndex (hs : Keeps ⟨md, ck, lb, true, true⟩ s₀ s) {i : ℕ} : Keeps ⟨md, ck, lb, true, true⟩ s₀ (s.dropIndex i) := by
  unfold State.dropIndex
  split
  · exact hs
  · extract_lets s0 s1 m s2 h _ s3 s4 s5
    have hs0 : Keeps ⟨md, ck, lb, true, true⟩ s₀ s0 := hs.abandonMigs.freeSlot
    have hs1 : Keeps ⟨md, ck, lb, true, true⟩ s₀ s1 := .foldl hs0 fun _ _ ht => ht.freePage
    have hs2 : Keeps ⟨md, ck, lb, true, true⟩ s₀ s2 := hs1.others
    have hs3 : Keeps ⟨md, ck, lb, true, true⟩ s₀ s3 := hs2.others
    have hs4 : Keeps ⟨md, ck, lb, true, true⟩ s₀ s4 := hs3.eraseIndex.clearRoutes
    have hs5 : Keeps ⟨md, ck, lb, true, true⟩ s₀ s5 := .foldl hs4 fun _ _ ht => ht.failPart
    refine .foldl hs5 fun _ _ ht => ?_
    split
    · exact ht.nameError
    · exact ht

theorem execIndexDestroyDone_answers (hs : Keeps ⟨md, ck, lb, true, true⟩ s₀ s) {idx : Fin 32} :
    Answers ⟨md, ck, lb, true, true⟩ s₀ (execIndexDestroyDone idx s) := by
  unfold execIndexDestroyDone
  split
  · exact .ite (.next hs.dropIndex) (.next hs)
  · exact .next hs

/-! ### Machine/Ports -/

theorem Keeps.deliverMsg (hs : Keeps ⟨md, ck, lb, true, true⟩ s₀ s) {mid : ℕ} :
    Keeps ⟨md, ck, lb, true, true⟩ s₀ (s.deliverMsg mid) := by
  unfold State.deliverMsg
  split
  · exact hs
  · extract_lets _ s1
    have hs1 : Keeps ⟨md, ck, lb, true, true⟩ s₀ s1 := hs.other
    exact .ite hs1.dropReq hs1

theorem Keeps.freeFrames (hs : Keeps ⟨md, ck, lb, true, true⟩ s₀ s) {p n : ℕ} :
    Keeps ⟨md, ck, lb, true, true⟩ s₀ (s.freeFrames p n) := by
  unfold State.freeFrames
  extract_lets u gone
  exact .foldl hs.setPort fun _ _ ht => ht.deliverMsg

theorem Keeps.replayFrom (hs : Keeps ⟨md, ck, lb, true, true⟩ s₀ s) {p n : ℕ} :
    Keeps ⟨md, ck, lb, true, true⟩ s₀ (s.replayFrom p n) := by
  unfold State.replayFrom
  extract_lets u fs s1
  have hs1 : Keeps ⟨md, ck, lb, true, true⟩ s₀ s1 := hs.setPort
  exact (Keeps.foldl hs1 fun _ _ ht => ht.emitFrame).bump

theorem execAck_answers (hs : Keeps ⟨md, ck, lb, true, true⟩ s₀ s) {port : Fin 8} {word : List Byte} :
    Answers ⟨md, ck, lb, true, true⟩ s₀ (execAck port word s) := by
  unfold execAck
  extract_lets r
  have hr : Keeps ⟨md, ck, lb, true, true⟩ s₀ r.2 := hs.takeCtrl
  refine .ite (.next hr) ?_
  split
  · exact .next hr.freeFrames
  · exact .next hr

theorem execNack_answers (hs : Keeps ⟨md, ck, lb, true, true⟩ s₀ s) {port : Fin 8} {word : List Byte} :
    Answers ⟨md, ck, lb, true, true⟩ s₀ (execNack port word s) := by
  unfold execNack
  extract_lets r
  have hr : Keeps ⟨md, ck, lb, true, true⟩ s₀ r.2 := hs.takeCtrl
  refine .ite (.next hr) ?_
  split
  · exact .next hr.replayFrom
  · exact .next hr

theorem execAckTimeout_answers (hs : Keeps ⟨md, ck, lb, true, true⟩ s₀ s) {port : Fin 8} :
    Answers ⟨md, ck, lb, true, true⟩ s₀ (execAckTimeout port s) := by
  unfold execAckTimeout
  extract_lets u
  exact .ite (.next hs) (.next hs.replayFrom)

theorem execCredit_answers (hs : Keeps ⟨md, ck, lb, true, true⟩ s₀ s) {port : Fin 8} {adm : Bool} {word : List Byte} :
    Answers ⟨md, ck, lb, true, true⟩ s₀ (execCredit port adm word s) := by
  unfold execCredit
  extract_lets +onlyGivenNames r
  have hr : Keeps ⟨md, ck, lb, true, true⟩ s₀ r.2 := hs.takeCtrl
  refine .ite (.next hr) ?_
  extract_lets u n
  exact .next hr.setPort

theorem Keeps.withReasm (hs : Keeps ⟨md, ck, lb, true, true⟩ s₀ s) {l : List Partial} :
    Keeps ⟨md, ck, lb, true, true⟩ s₀ (s.withReasm l) := by
  unfold State.withReasm
  exact hs.other

theorem Keeps.takeMessage (hs : Keeps ⟨md, ck, lb, true, true⟩ s₀ s) {m : Partial} :
    Keeps ⟨md, ck, lb, true, true⟩ s₀ (s.takeMessage m) := by
  unfold State.takeMessage
  extract_lets +onlyGivenNames bs
  split
  · extract_lets h _ s1
    have hs1 : Keeps ⟨md, ck, lb, true, true⟩ s₀ s1 := hs.fireDue.admitMsg
    exact hs1.accept
  · extract_lets s1
    have hs1 : Keeps ⟨md, ck, lb, true, true⟩ s₀ s1 := hs.fireDue.admitMsg
    exact hs1.takePart
  · exact hs.partReply
  · exact hs.other
  · exact hs

theorem Keeps.startPartial (hs : Keeps ⟨md, ck, lb, true, true⟩ s₀ s) {m : Partial} :
    Keeps ⟨md, ck, lb, true, true⟩ s₀ (s.startPartial m) := by
  unfold State.startPartial
  extract_lets +onlyGivenNames s0
  have hs0 : Keeps ⟨md, ck, lb, true, true⟩ s₀ s0 := hs.withReasm
  refine .ite ?_ hs0.withReasm
  extract_lets +onlyGivenNames part
  refine .ite hs0.withReasm ?_
  extract_lets id
  exact hs0.withReasm.admitMsg

theorem Keeps.endPartial (hs : Keeps ⟨md, ck, lb, true, true⟩ s₀ s) {src : U64} {mid : ℕ} :
    Keeps ⟨md, ck, lb, true, true⟩ s₀ (s.endPartial src mid) := by
  unfold State.endPartial
  split
  · exact hs
  · extract_lets s1
    have hs1 : Keeps ⟨md, ck, lb, true, true⟩ s₀ s1 := hs.withReasm
    exact .ite hs1 hs1.takeMessage

theorem Keeps.reassemble (hs : Keeps ⟨md, ck, lb, true, true⟩ s₀ s) {port kind : ℕ} {first last : Bool} {msgLen : ℕ} {src : U64} {mid offset : ℕ}
    {payload : List Byte} :
    Keeps ⟨md, ck, lb, true, true⟩ s₀ (s.reassemble port kind first last msgLen src mid offset payload) := by
  unfold State.reassemble
  extract_lets cut s1
  have hs1 : Keeps ⟨md, ck, lb, true, true⟩ s₀ s1 := .ite hs.startPartial hs.withReasm
  exact .ite hs1.endPartial hs1

theorem Keeps.sendNack (hs : Keeps ⟨md, ck, lb, true, true⟩ s₀ s) {p : ℕ} : Keeps ⟨md, ck, lb, true, true⟩ s₀ (s.sendNack p) := by
  unfold State.sendNack
  exact hs.emit.bumpSat

theorem Keeps.ackFrame (hs : Keeps ⟨md, ck, lb, true, true⟩ s₀ s) {p : ℕ} {adm : Bool} {credits : ℕ} :
    Keeps ⟨md, ck, lb, true, true⟩ s₀ (s.ackFrame p adm credits) := by
  unfold State.ackFrame
  extract_lets u v
  exact hs.setPort.bump.emits

theorem execUrdunFrame_answers (hs : Keeps ⟨md, ck, lb, true, true⟩ s₀ s) {port : Fin 8} {bytes : List Byte} :
    Answers ⟨md, ck, lb, true, true⟩ s₀ (execUrdunFrame port bytes s) := by
  unfold execUrdunFrame
  refine .ite (.next hs) ?_
  extract_lets +onlyGivenNames len good
  refine .ite (.next hs.bumpSat.sendNack) ?_
  refine .ite (.next hs.sendNack) ?_
  extract_lets kind dest s1
  have hs1 : Keeps ⟨md, ck, lb, true, true⟩ s₀ s1 := hs.ackFrame
  exact .ite (.next hs1.bumpSat) (.next hs1.reassemble)

theorem execReassemblyTimeout_answers (hs : Keeps ⟨md, ck, lb, true, true⟩ s₀ s) {src : U64} {msgId : U32} :
    Answers ⟨md, ck, lb, true, true⟩ s₀ (execReassemblyTimeout src msgId s) := by
  unfold execReassemblyTimeout
  extract_lets late
  exact .ite (.next hs.withReasm.bumpSat) (.next hs)

theorem Keeps.moveAdmissions (hs : Keeps ⟨md, ck, lb, true, true⟩ s₀ s) {p : ℕ} {fs : List (Time × Frame)} :
    Keeps ⟨md, ck, lb, true, true⟩ s₀ (s.moveAdmissions p fs) := by
  unfold State.moveAdmissions
  refine .foldl hs.setPort fun _ _ ht => ?_
  extract_lets +onlyGivenNames q
  exact ht.setPort

theorem Keeps.portDown (hs : Keeps ⟨md, ck, lb, true, true⟩ s₀ s) {p : ℕ} : Keeps ⟨md, ck, lb, true, true⟩ s₀ (s.portDown p) := by
  unfold State.portDown
  extract_lets u adm mine _ s1 _ s2
  have hs1 : Keeps ⟨md, ck, lb, true, true⟩ s₀ s1 := hs.pointOut.setPort
  have hs2 : Keeps ⟨md, ck, lb, true, true⟩ s₀ s2 := hs1.other
  exact hs2.moveAdmissions.routeAll

theorem Keeps.rerouteUnsent (hs : Keeps ⟨md, ck, lb, true, true⟩ s₀ s) {p : ℕ} :
    Keeps ⟨md, ck, lb, true, true⟩ s₀ (s.rerouteUnsent p) := by
  unfold State.rerouteUnsent
  extract_lets +onlyGivenNames q mids
  refine .ite hs ?_
  extract_lets +onlyGivenNames stays s1
  have hs1 : Keeps ⟨md, ck, lb, true, true⟩ s₀ s1 := hs.setPoint.retag
  exact hs1.other.routeAll

theorem Keeps.startRetrain (hs : Keeps ⟨md, ck, lb, true, true⟩ s₀ s) {p : ℕ} {why : Retrain} {req : Option ℕ} :
    Keeps ⟨md, ck, lb, true, true⟩ s₀ (s.startRetrain p why req) := by
  unfold State.startRetrain
  extract_lets u lanes s1 s2 s3
  have hs1 : Keeps ⟨md, ck, lb, true, true⟩ s₀ s1 := hs.setPort.bumpSat
  have hs2 : Keeps ⟨md, ck, lb, true, true⟩ s₀ s2 := .foldl hs1.setRegF fun _ _ ht => ht.setRegF
  have hs3 : Keeps ⟨md, ck, lb, true, true⟩ s₀ s3 := by
    cases req
    · exact hs2
    · exact hs2.setRegF
  exact hs3.moveAdmissions.rerouteUnsent

theorem Keeps.startTraining (hs : Keeps ⟨md, ck, lb, true, true⟩ s₀ s) {p : ℕ} :
    Keeps ⟨md, ck, lb, true, true⟩ s₀ (s.startTraining p) := by
  unfold State.startTraining
  extract_lets +onlyGivenNames m u
  refine .ite hs ?_
  extract_lets +onlyGivenNames s1
  have hs1 : Keeps ⟨md, ck, lb, true, true⟩ s₀ s1 := .foldl hs fun _ _ ht => ht.setLane
  exact hs1.setPort

theorem execSignalDetect_answers (hs : Keeps ⟨md, ck, lb, true, true⟩ s₀ s) {port : Fin 8} :
    Answers ⟨md, ck, lb, true, true⟩ s₀ (execSignalDetect port s) := by
  unfold execSignalDetect
  exact .next (.ite hs.startTraining hs)

theorem Keeps.tellTrigger (hs : Keeps ⟨md, ck, lb, true, true⟩ s₀ s) : Keeps ⟨md, ck, lb, true, true⟩ s₀ s.tellTrigger := by
  unfold State.tellTrigger
  exact hs.logEvent

theorem Keeps.laneTrigger (hs : Keeps ⟨md, ck, lb, true, true⟩ s₀ s) {n : ℕ} :
    Keeps ⟨md, ck, lb, true, true⟩ s₀ (s.laneTrigger n) := by
  unfold State.laneTrigger
  split
  · exact hs
  · split
    · exact hs
    · exact hs.tellTrigger.startRetrain
    · exact hs.tellTrigger

theorem Keeps.retireLane (hs : Keeps ⟨md, ck, lb, true, true⟩ s₀ s) {p n : ℕ} :
    Keeps ⟨md, ck, lb, true, true⟩ s₀ (s.retireLane p n) := by
  unfold State.retireLane
  extract_lets +onlyGivenNames s1
  have hs1 : Keeps ⟨md, ck, lb, true, true⟩ s₀ s1 := hs.bumpSat
  refine .ite ?_ hs1.logEvent
  extract_lets +onlyGivenNames s2 m
  have hs2 : Keeps ⟨md, ck, lb, true, true⟩ s₀ s2 := hs1.retire
  exact .ite hs2.portDown hs2.logEvent.setPort

theorem Keeps.spareLane (hs : Keeps ⟨md, ck, lb, true, true⟩ s₀ s) {p n : ℕ} :
    Keeps ⟨md, ck, lb, true, true⟩ s₀ (s.spareLane p n) := by
  unfold State.spareLane
  extract_lets why
  exact hs.tellTrigger.startRetrain.retireLane

theorem Keeps.dueRetrain (hs : Keeps ⟨md, ck, lb, true, true⟩ s₀ s) {p : ℕ} :
    Keeps ⟨md, ck, lb, true, true⟩ s₀ (s.dueRetrain p) := by
  unfold State.dueRetrain
  extract_lets lanes
  split
  · exact hs.spareLane
  · exact .ite hs.tellTrigger.startRetrain (.ite hs.startRetrain hs)

theorem Keeps.portResume (hs : Keeps ⟨md, ck, lb, true, true⟩ s₀ s) {p : ℕ} {res : TrainResult} :
    Keeps ⟨md, ck, lb, true, true⟩ s₀ (s.portResume p res) := by
  unfold State.portResume
  extract_lets u n fresh s0 s1 lanes s2 s3 v
  have hs0 : Keeps ⟨md, ck, lb, true, true⟩ s₀ s0 := .ite hs.pointOut hs
  have hs1 : Keeps ⟨md, ck, lb, true, true⟩ s₀ s1 := hs0.setPort.freeFrames
  have hs2 : Keeps ⟨md, ck, lb, true, true⟩ s₀ s2 := .foldl hs1 fun _ _ ht => ht.setLane
  have hs3 : Keeps ⟨md, ck, lb, true, true⟩ s₀ s3 := hs2.emits
  exact hs3.setPort.sendAgain.routeAll.dueRetrain

theorem Keeps.agreeMap (hs : Keeps ⟨md, ck, lb, true, true⟩ s₀ s) {p : ℕ} {res : TrainResult} :
    Keeps ⟨md, ck, lb, true, true⟩ s₀ (s.agreeMap p res) := by
  unfold State.agreeMap
  extract_lets u
  exact .ite hs.portResume (.ite hs.setPort hs)

theorem Keeps.trainWithout (hs : Keeps ⟨md, ck, lb, true, true⟩ s₀ s) {p : ℕ} {bad : List ℕ} :
    Keeps ⟨md, ck, lb, true, true⟩ s₀ (s.trainWithout p bad) := by
  unfold State.trainWithout
  extract_lets u m
  exact .ite hs.portDown hs.setPort

theorem execPortTrainingDone_answers (hs : Keeps ⟨md, ck, lb, true, true⟩ s₀ s) {port : Fin 8} {res : TrainResult} :
    Answers ⟨md, ck, lb, true, true⟩ s₀ (execPortTrainingDone port res s) := by
  unfold execPortTrainingDone
  extract_lets u bad s1
  have hs1 : Keeps ⟨md, ck, lb, true, true⟩ s₀ s1 := .foldl hs fun _ _ ht => ht.setLane
  split
  · exact .next (.ite hs1.agreeMap hs1.trainWithout)
  · refine .ite (.next hs1.agreeMap) ?_
    split
    · exact .ite (.ite (.next hs1.retireLane) (.next hs1.retireLane.portDown)) (.next hs1.tellTrigger.setPort)
    · exact .next hs1.trainWithout
    · exact .next hs1.trainWithout
    · exact .next hs1.tellTrigger.setPort
  · exact .next hs

theorem execPortRetrain_answers (hs : Keeps ⟨md, ck, lb, true, true⟩ s₀ s) :
    Answers ⟨md, ck, lb, true, true⟩ s₀ (execPortRetrain s) := by
  unfold execPortRetrain
  extract_lets p s1
  have hs1 : Keeps ⟨md, ck, lb, true, true⟩ s₀ s1 := hs.writeOne
  exact .next (.ite hs1.startRetrain hs1)

theorem execSpareReq_answers (hs : Keeps ⟨md, ck, lb, true, true⟩ s₀ s) : Answers ⟨md, ck, lb, true, true⟩ s₀ (execSpareReq s) := by
  unfold execSpareReq
  extract_lets +onlyGivenNames n
  refine .ite (.next hs.dropWrite) ?_
  extract_lets s1
  have hs1 : Keeps ⟨md, ck, lb, true, true⟩ s₀ s1 := hs.writeOne
  split
  · exact .next (.ite hs1.spareLane hs1)
  · exact .next hs1

theorem execLossOfSignal_answers (hs : Keeps ⟨md, ck, lb, true, true⟩ s₀ s) {lane : Fin 36} {signal : Bool} :
    Answers ⟨md, ck, lb, true, true⟩ s₀ (execLossOfSignal lane signal s) := by
  unfold execLossOfSignal
  extract_lets l
  exact .next hs.setLane.laneTrigger

theorem execInjectLaneLos_answers (hs : Keeps ⟨md, ck, lb, true, true⟩ s₀ s) :
    Answers ⟨md, ck, lb, true, true⟩ s₀ (execInjectLaneLos s) := by
  unfold execInjectLaneLos
  extract_lets +onlyGivenNames n
  refine .ite (.next hs.dropWrite) ?_
  extract_lets s1
  have hs1 : Keeps ⟨md, ck, lb, true, true⟩ s₀ s1 := hs.writeOne
  split
  · exact .next (.ite hs1.tellTrigger.startRetrain hs1)
  · exact .next hs1

theorem execInjectUrdCrc_answers (hs : Keeps ⟨md, ck, lb, true, true⟩ s₀ s) :
    Answers ⟨md, ck, lb, true, true⟩ s₀ (execInjectUrdCrc s) := by
  unfold execInjectUrdCrc
  exact .next hs.writeOne

theorem Keeps.measureLane (hs : Keeps ⟨md, ck, lb, true, true⟩ s₀ s) {n : ℕ} {m : LaneMeas} :
    Keeps ⟨md, ck, lb, true, true⟩ s₀ (s.measureLane n m).1 := by
  unfold State.measureLane
  extract_lets l corr unc hit s1 low k s1' mon s2
  have hs1 : Keeps ⟨md, ck, lb, true, true⟩ s₀ s1 := hs.setLane
  have hs1' : Keeps ⟨md, ck, lb, true, true⟩ s₀ s1' := hs1.withKeeper
  have hs2 : Keeps ⟨md, ck, lb, true, true⟩ s₀ s2 := hs1'.setReg.setReg
  exact hs2.bumpSat

theorem execLaneInterval_answers (hs : Keeps ⟨md, ck, lb, true, true⟩ s₀ s) {meas : List LaneMeas} :
    Answers ⟨md, ck, lb, true, true⟩ s₀ (execLaneInterval meas s) := by
  unfold execLaneInterval
  refine .next ?_
  refine .foldl hs fun _ _ ht => ?_
  split
  · exact ht
  · extract_lets r
    have hr : Keeps ⟨md, ck, lb, true, true⟩ s₀ r.1 := ht.measureLane
    exact .ite hr.laneTrigger hr

/-! ### Machine/Recovery -/

theorem Keeps.modStacks (hs : Keeps ⟨md, ck, lb, true, true⟩ s₀ s) {b : ℕ} {f : Stack → Stack} :
    Keeps ⟨md, ck, lb, true, true⟩ s₀ (s.modStacks b f) := by
  unfold State.modStacks
  exact .foldl hs fun _ _ ht => ht.setStack

theorem Keeps.basinPointsOut (hs : Keeps ⟨md, ck, lb, true, true⟩ s₀ s) {b : ℕ} {out : Bool} :
    Keeps ⟨md, ck, lb, true, true⟩ s₀ (s.basinPointsOut b out) := by
  unfold State.basinPointsOut
  exact .foldl hs fun _ _ ht => ht.pointOut.setPoint

theorem Keeps.regionLow (hs : Keeps ⟨md, ck, lb, true, true⟩ s₀ s) {t : ℕ} : Keeps ⟨md, ck, lb, true, true⟩ s₀ (s.regionLow t) := by
  unfold State.regionLow
  exact hs.setRegion

theorem Keeps.quiesceHbm (hs : Keeps ⟨md, ck, lb, true, true⟩ s₀ s) {b : ℕ} :
    Keeps ⟨md, ck, lb, true, true⟩ s₀ (s.quiesceHbm b) := by
  unfold State.quiesceHbm
  extract_lets s1 _ s2
  have hs1 : Keeps ⟨md, ck, lb, true, true⟩ s₀ s1 := hs.abandonMigs
  have hs2 : Keeps ⟨md, ck, lb, true, true⟩ s₀ s2 := hs1.other
  exact hs2.modStacks

theorem Keeps.resetBasin (hs : Keeps ⟨true, c, l, true, true⟩ s₀ s) {b : ℕ} :
    Keeps ⟨true, c, l, true, true⟩ s₀ (s.resetBasin b) := by
  unfold State.resetBasin
  extract_lets +onlyGivenNames f rills _ s1 s2 s3
  have hs2 : Keeps ⟨true, c, l, true, true⟩ s₀ s2 := hs.other.setBridge.setBridge.basinPointsOut
  have hs3 : Keeps ⟨true, c, l, true, true⟩ s₀ s3 := .foldl hs2 fun _ _ ht => ht.regionLow
  exact (hs3.setBasin (by exact fun old => hs3.legal old b)).modStacks

theorem Keeps.restoreSeals (hs : Keeps ⟨md, ck, lb, true, true⟩ s₀ s) {b : ℕ} :
    Keeps ⟨md, ck, lb, true, true⟩ s₀ (s.restoreSeals b) := by
  unfold State.restoreSeals
  refine .foldl hs fun _ _ ht => ?_
  extract_lets f
  have hf : Keeps ⟨md, ck, lb, true, true⟩ s₀ f.2 := ht.takeFree
  exact hf.setStack

theorem Keeps.resumeHbm (hs : Keeps ⟨md, ck, lb, true, true⟩ s₀ s) {b : ℕ} : Keeps ⟨md, ck, lb, true, true⟩ s₀ (s.resumeHbm b) := by
  unfold State.resumeHbm
  exact hs.compareCopies.restoreSeals.modStacks

theorem Keeps.mapBasin (hs : Keeps ⟨true, c, l, true, true⟩ s₀ s) {b : ℕ} : Keeps ⟨true, c, l, true, true⟩ s₀ (s.mapBasin b) := by
  unfold State.mapBasin
  extract_lets v s1
  have hs1 : Keeps ⟨true, c, l, true, true⟩ s₀ s1 := (hs.setBasin (by exact fun old => hs.legal old b)).setBridge
  exact .ite (hs1.takeFree (w := 1)).setBridge hs1.setBridge

theorem Keeps.basinBack (hs : Keeps ⟨true, c, l, true, true⟩ s₀ s) {b : ℕ} : Keeps ⟨true, c, l, true, true⟩ s₀ (s.basinBack b) := by
  unfold State.basinBack
  extract_lets v other slow wait ms s1 _ s2 rills _ s3 s4
  have hs1 : Keeps ⟨true, c, l, true, true⟩ s₀ s1 := hs.setBasin fun _ => Basin.legal_up rfl rfl
  have hs2 : Keeps ⟨true, c, l, true, true⟩ s₀ s2 := .ite (hs1.withRst (by exact hs1.phases)) hs1
  have hs4 : Keeps ⟨true, c, l, true, true⟩ s₀ s4 := hs2.other.basinPointsOut.stateChange
  exact .foldl hs4 fun _ _ ht => ht.modReq.dispatch

theorem Keeps.checkBeat (hs : Keeps ⟨true, c, l, true, true⟩ s₀ s) {b : ℕ} : Keeps ⟨true, c, l, true, true⟩ s₀ (s.checkBeat b) := by
  unfold State.checkBeat
  extract_lets v s1
  have same : ∀ {w : Basin}, w.state = v.state → w.step = v.step → Keeps ⟨true, c, l, true, true⟩ s₀ (s.setBasin b w) :=
    fun state step => hs.setBasin fun old => (hs.legal old b).same state step
  have hs1 : Keeps ⟨true, c, l, true, true⟩ s₀ s1 := same rfl rfl
  exact .ite hs (.ite (.ite hs.basinBack hs) (.ite (same rfl rfl) (.ite hs1 hs1.startRestart)))

theorem execHeartbeatCheck_answers (hs : Keeps ⟨true, c, l, true, true⟩ s₀ s) {slot : Fin 2} :
    Answers ⟨true, c, l, true, true⟩ s₀ (execHeartbeatCheck slot s) := by
  unfold execHeartbeatCheck
  exact .next (.ite hs.fireSlot.checkBeat hs)

theorem Keeps.restartStep (hs : Keeps ⟨true, c, l, true, true⟩ s₀ s) {b x : ℕ} :
    Keeps ⟨true, c, l, true, true⟩ s₀ (s.restartStep b x) := by
  unfold State.restartStep
  split
  · exact hs.quiesceHbm
  · exact hs.resetBasin
  · exact hs.resumeHbm
  · exact hs.mapBasin
  · exact hs

/-- The work of a restart step leaves STATE of the Basin that restarts. -/
theorem State.restartStep_basin {b n : ℕ} : ((s.restartStep b n).basin b).state = (s.basin b).state := by
  have rest {t : State} (k : Keeps ⟨false, true, true, true, true⟩ s t) : (t.basin b).state = (s.basin b).state := by
    unfold State.basin
    rw [k.basins_eq]
  unfold State.restartStep
  split
  · exact rest (Keeps.refl s).quiesceHbm
  · unfold State.resetBasin
    extract_lets f rills _ s1 s2 s3
    have kept : Keeps ⟨false, true, true, true, true⟩ s s3 :=
      .foldl (Keeps.refl s).other.setBridge.setBridge.basinPointsOut fun _ _ ht => ht.regionLow
    have after {u : State} (k : Keeps ⟨false, true, true, true, true⟩ (s3.setBasin b { s3.basin b with mapsSet := false }) u) :
        (u.basin b).state = (s.basin b).state := by
      unfold State.basin
      rw [k.basins_eq, ← kept.basins_eq]
      exact (congrArg Basin.state (State.basin_setBasin_same s3 b { s3.basin b with mapsSet := false })).trans rfl
    exact after (Keeps.refl _).modStacks
  · exact rest (Keeps.refl s).resumeHbm
  · unfold State.mapBasin
    extract_lets v s1
    have set : (s1.basin b).state = (s.basin b).state :=
      (congrArg Basin.state (State.basin_setBasin_same s b { v with mapsSet := true })).trans rfl
    split
    · exact set
    · exact set
  · rfl

theorem execRestartStepDone_answers (hs : Keeps ⟨true, c, l, true, true⟩ s₀ s) {basin : Fin 2} {res : StepEnd} :
    Answers ⟨true, c, l, true, true⟩ s₀ (execRestartStepDone basin res s) := by
  unfold execRestartStepDone
  extract_lets v s1 _ s2
  split
  · exact .next hs
  next running =>
    split
    · exact .next hs.repeatRestart
    · have restarts : v.state = 1 := by tauto
      have hs1 : Keeps ⟨true, c, l, true, true⟩ s₀ s1 := hs.restartStep
      have hs2 : Keeps ⟨true, c, l, true, true⟩ s₀ s2 := hs1.setBasin fun _ =>
        Basin.legal_restarting (n := v.step + 1) (State.restartStep_basin.trans restarts) rfl (by omega)
      exact .next (.ite (hs2.withRst (by exact hs2.phases)) hs2)

theorem execRestartLimit_answers (hs : Keeps ⟨true, c, l, true, true⟩ s₀ s) {basin : Fin 2} :
    Answers ⟨true, c, l, true, true⟩ s₀ (execRestartLimit basin s) := by
  unfold execRestartLimit
  extract_lets v
  exact .ite (.next hs.repeatRestart) (.next hs)

theorem execRestartBasin_answers (hs : Keeps ⟨true, c, l, true, true⟩ s₀ s) {basin : Fin 2} :
    Answers ⟨true, c, l, true, true⟩ s₀ (execRestartBasin basin s) := by
  unfold execRestartBasin
  extract_lets s1
  have hs1 : Keeps ⟨true, c, l, true, true⟩ s₀ s1 := hs.writeOne
  exact .next (.ite hs1.startRestart hs1)

theorem execInjectHang_answers (hs : Keeps ⟨true, c, l, true, true⟩ s₀ s) {basin : Fin 2} :
    Answers ⟨true, c, l, true, true⟩ s₀ (execInjectHang basin s) := by
  unfold execInjectHang
  extract_lets +onlyGivenNames s1
  have hs1 : Keeps ⟨true, c, l, true, true⟩ s₀ s1 := hs.writeOne
  exact .next (.ite (hs1.setBasin (by exact fun old => hs1.legal old basin)) hs1)

theorem execPumphouseRestartRequest_answers (hs : Keeps ⟨true, c, l, true, true⟩ s₀ s) {basin : Fin 2} :
    Answers ⟨true, c, l, true, true⟩ s₀ (execPumphouseRestartRequest basin s) := by
  unfold execPumphouseRestartRequest
  exact .ite (.next hs.startRestart) (.next hs)

/-- What a reset leaves of the register file is in canonical form. -/
theorem regsAfter_wf {lvl : Level} {regs : Store U64} (wf : Store.Wf resetReg regs) : Store.Wf resetReg (regsAfter lvl regs) := by
  unfold regsAfter
  split
  · exact Store.wf_filter _ wf
  · refine ⟨?_, fun p hp => bne_iff_ne.mp (List.mem_filter.mp hp).2⟩
    refine List.Pairwise.sublist (List.filter_sublist.map _) ?_
    rw [List.map_map]
    convert wf.1 using 1
    refine List.map_congr_left fun p _ => ?_
    rw [Function.comp_apply]
    split <;> rfl

theorem Keeps.clearFor (hs : Keeps ⟨true, true, l, true, true⟩ s₀ s) {lvl : Level} :
    Keeps ⟨true, true, true, true, true⟩ s₀ (s.clearFor lvl) where
  pending := hs.pending
  rids := hs.rids
  record := hs.record
  numbered _ := ⟨List.Pairwise.nil, nofun⟩
  canonical wf := regsAfter_wf (hs.canonical wf)
  fuses := hs.fuses.trans ⟨le_rfl, fun _ => id, fun h => ⟨h, rfl⟩, fun h => ⟨h, rfl⟩⟩
  phases := nofun
  legal _ _ := Basin.legal_reset
  modes := nofun
  clock := nofun
  served := nofun
  quiet := nofun

theorem Keeps.activate (hs : Keeps ⟨md, ck, lb, true, true⟩ s₀ s) : Keeps ⟨md, ck, lb, true, true⟩ s₀ s.activate := by
  unfold State.activate
  extract_lets k
  exact .ite hs.withKeeper.logEvent hs

theorem Keeps.bootRom (hs : Keeps ⟨true, c, l, true, true⟩ s₀ s) : Keeps ⟨true, c, l, true, true⟩ s₀ s.bootRom := by
  unfold State.bootRom
  extract_lets k _ order
  split
  · exact hs.withKeeper.takeAsked
  · exact hs.withKeeper

theorem Keeps.armBeat (hs : Keeps ⟨md, ck, lb, true, true⟩ s₀ s) {b : ℕ} : Keeps ⟨md, ck, lb, true, true⟩ s₀ (s.armBeat b) := by
  unfold State.armBeat
  exact .ite hs hs.setSlot

theorem Keeps.setPhase {l' : Bool} (hs : Keeps ⟨true, c, l, true, true⟩ s₀ s) {n : ℕ}
    (legal : l' = false → s₀.rst.Legal → Rst.Legal { s.rst with phase := n }) : Keeps ⟨true, c, l', true, true⟩ s₀ (s.setPhase n) :=
  (hs.withRst legal).stateChange

theorem Keeps.trainPorts (hs : Keeps ⟨md, ck, lb, true, true⟩ s₀ s) : Keeps ⟨md, ck, lb, true, true⟩ s₀ s.trainPorts := by
  unfold State.trainPorts
  exact .foldl hs fun _ _ ht => .ite ht.startTraining ht

theorem Keeps.repeatSeal (hs : Keeps ⟨md, ck, lb, true, true⟩ s₀ s) {i : ℕ} :
    Keeps ⟨md, ck, lb, true, true⟩ s₀ (s.repeatSeal i) := by
  unfold State.repeatSeal
  extract_lets s1
  have hs1 : Keeps ⟨md, ck, lb, true, true⟩ s₀ s1 := hs.beginSeal
  split
  · exact hs1
  · exact .foldl hs1 fun _ _ ht => ht.sealArray

theorem Keeps.restoreFlip (hs : Keeps ⟨md, ck, lb, true, true⟩ s₀ s) {i : ℕ} :
    Keeps ⟨md, ck, lb, true, true⟩ s₀ (s.restoreFlip i) := by
  unfold State.restoreFlip
  split
  · exact hs
  · refine .ite hs ?_
    extract_lets s1
    have hs1 : Keeps ⟨md, ck, lb, true, true⟩ s₀ s1 := hs.setSlot
    split
    · exact hs1
    · exact .ite hs1.armSlot (.ite hs1.repeatSeal hs1.repeatSeal.doFlip)

/-- The state of reset and bring-up once step `n` has begun (Table 19-4). -/
def Rst.begun (r : Rst) (n : ℕ) : Rst :=
  { r with step := n, tries := 0, phase := if n = 4 then 1 else if n = 7 then 2 else if n = 10 then 3 else r.phase }

/-- Bring-up is in one of its steps, and has not failed. -/
def Rst.Bringing (r : Rst) : Prop := r.pwrok = true ∧ r.inReset = false ∧ (1 ≤ r.step ∧ r.step ≤ 9) ∧ r.phase ≤ 2

theorem State.bringing_iff : s.bringing = true ↔ s.rst.Bringing := by
  simp [State.bringing, Rst.Bringing, and_assoc]

/-- The step after one of bring-up agrees with PHASE. -/

    theorem Rst.Legal.begun {r r' : Rst} (legal : r.Legal) (b : r.Bringing) (power : r'.pwrok = r.pwrok) (out : r'.inReset = r.inReset)
    (phase : r'.phase = r.phase) : (r'.begun (r.step + 1)).Legal := by
  obtain ⟨pwrok, up, steps, running⟩ := b
  have now := legal.2.2 up
  refine ⟨fun h => absurd (power.symm.trans h) (by simp [pwrok]), fun h => absurd (out.symm.trans h) (by simp [up]), fun _ => ?_⟩
  simp only [Rst.begun, phase]
  split_ifs <;> omega

/-- Bring-up that fails stays at its step with PHASE 4. -/
theorem Rst.Bringing.failed {r r' : Rst} (b : r.Bringing) (power : r'.pwrok = r.pwrok) (out : r'.inReset = r.inReset)
    (step : r'.step = r.step) : Rst.Legal { r' with phase := 4 } := by
  obtain ⟨pwrok, up, steps, _⟩ := b
  exact ⟨fun h => absurd (power.symm.trans h) (by simp [pwrok]), fun h => absurd (out.symm.trans h) (by simp [up]),
    fun _ => .inr (.inr (.inr (.inr ⟨rfl, step.symm ▸ steps⟩)))⟩

theorem Keeps.beginStep {l' : Bool} (hs : Keeps ⟨true, c, l, true, true⟩ s₀ s) {n : ℕ}
    (legal : l' = false → s₀.rst.Legal → (s.rst.begun n).Legal) : Keeps ⟨true, c, l', true, true⟩ s₀ (s.beginStep n) := by
  unfold State.beginStep
  extract_lets +onlyGivenNames _ s0 s1
  have hs0 : Keeps ⟨true, c, true, true, true⟩ s₀ s0 := hs.withRst (l' := true) nofun
  have limbo : Keeps ⟨true, c, true, true, true⟩ s₀ s1 :=
    .foldl hs0 fun t b ht => .ite (ht.setBasin (by exact fun old => (ht.legal old b).same rfl rfl)) ht
  have rst : s1.rst = { s.rst with step := n, tries := 0 } :=
    List.foldlRecOn (motive := fun t : State => t.rst = s0.rst) _ _ rfl fun t e _ _ => by
      split
      · exact e
      · exact e
  have enter (same : n ≠ 4 ∧ n ≠ 7 ∧ n ≠ 10) : Keeps ⟨true, c, l', true, true⟩ s₀ s1 :=
    { limbo with
      modes := nofun
      clock := limbo.clock
      phases := fun settled old => by
        have now := legal settled old
        rwa [Rst.begun, if_neg same.1, if_neg same.2.1, if_neg same.2.2, ← rst] at now }
  split
  · exact (enter (by decide)).activate.bootRom
  · exact limbo.setPhase (by rw [rst]; exact legal)
  · exact limbo.setPhase (by rw [rst]; exact legal)
  · exact (enter (by decide)).trainPorts
  · exact .ite (.foldl (enter (by decide)) fun _ _ ht => ht.restoreFlip) (enter (by decide))
  · exact .foldl (limbo.setPhase (by rw [rst]; exact legal)) fun _ _ ht => ht.pointFresh
  next not4 not7 _ _ not10 => exact enter ⟨not4, not7, not10⟩

theorem Keeps.endReset {l' : Bool} (hs : Keeps ⟨true, c, l, true, true⟩ s₀ s) (power : s.rst.pwrok = true)
    (phase : l' = false → s₀.rst.Legal → s.rst.phase = 0) : Keeps ⟨true, c, l', true, true⟩ s₀ s.endReset := by
  unfold State.endReset
  refine Keeps.beginStep (l := true) ((hs.withRst (l' := true) nofun).withClep (by exact rfl) (by exact rfl)) fun settled old => ?_
  simp [Rst.Legal, Rst.begun, power, phase settled old]

theorem Keeps.readStrap (hs : Keeps ⟨true, c, l, true, true⟩ s₀ s) {ohms : ℕ} :
    Keeps ⟨true, c, l, true, true⟩ s₀ (s.readStrap ohms) := by
  unfold State.readStrap
  extract_lets +onlyGivenNames m c' _ s1
  have hs1 : Keeps ⟨true, c, l, true, true⟩ s₀ s1 := hs.withRst fun settled old => (hs.phases settled old).same rfl rfl rfl rfl
  exact .ite hs hs1.withClep

theorem Keeps.savedFmt (hs : Keeps ⟨md, ck, lb, true, true⟩ s₀ s) : Keeps ⟨md, ck, lb, true, true⟩ s₀ s.savedFmt := by
  unfold State.savedFmt
  exact hs.setRegF.setRegF.setRegF

theorem Keeps.resumeCistern (hs : Keeps ⟨md, ck, lb, true, true⟩ s₀ s) : Keeps ⟨md, ck, lb, true, true⟩ s₀ s.resumeCistern := by
  unfold State.resumeCistern
  extract_lets s1 s2 lost images s3
  have hs1 : Keeps ⟨md, ck, lb, true, true⟩ s₀ s1 := .foldl hs fun _ _ ht => ht.other
  have hs2 : Keeps ⟨md, ck, lb, true, true⟩ s₀ s2 := .foldl hs1 fun _ _ ht => ht.queueMap
  have hs3 : Keeps ⟨md, ck, lb, true, true⟩ s₀ s3 := hs2.queueImages
  exact (Keeps.foldl hs3 fun _ _ ht => ht.relocate.endRewrite).chanPoints

theorem Keeps.bringCistern (hs : Keeps ⟨md, ck, lb, true, true⟩ s₀ s) {media : Option Media} :
    Keeps ⟨md, ck, lb, true, true⟩ s₀ (s.bringCistern media) := by
  unfold State.bringCistern
  extract_lets +onlyGivenNames area s0
  have hs0 : Keeps ⟨md, ck, lb, true, true⟩ s₀ s0 := .foldl hs fun _ _ ht => ht.setReg
  refine .ite hs0.resumeCistern.savedFmt ?_
  split
  · exact hs0.withCist.savedFmt
  · extract_lets +onlyGivenNames c
    refine .ite hs0.withCist.savedFmt ?_
    extract_lets c1
    exact hs0.withCist.savedFmt.identifyLuns.chanPoints

theorem Keeps.restoreIndex (hs : Keeps ⟨md, ck, lb, true, true⟩ s₀ s) {i : ℕ} :
    Keeps ⟨md, ck, lb, true, true⟩ s₀ (s.restoreIndex i) := by
  unfold State.restoreIndex
  split
  · exact hs
  · refine .ite hs.dropIndex ?_
    split
    · exact .ite hs hs.doFlip
    · exact hs

theorem Keeps.restoreGate (hs : Keeps ⟨md, ck, lb, true, true⟩ s₀ s) {pt : ℕ} :
    Keeps ⟨md, ck, lb, true, true⟩ s₀ (s.restoreGate pt) := by
  unfold State.restoreGate
  split
  · exact hs
  · exact .ite hs.setSlot hs.takeOver

theorem Keeps.restoreMap (hs : Keeps ⟨md, ck, lb, true, true⟩ s₀ s) : Keeps ⟨md, ck, lb, true, true⟩ s₀ s.restoreMap := by
  unfold State.restoreMap
  split
  · exact hs
  · exact .ite hs.setSlot hs.mapSwitch

theorem Keeps.restoreService (hs : Keeps ⟨md, ck, lb, true, true⟩ s₀ s) : Keeps ⟨md, ck, lb, true, true⟩ s₀ s.restoreService := by
  unfold State.restoreService
  refine .ite hs ?_
  extract_lets s1 s2 s3
  have hs1 : Keeps ⟨md, ck, lb, true, true⟩ s₀ s1 := .foldl hs fun _ _ ht => ht.restoreIndex
  have hs2 : Keeps ⟨md, ck, lb, true, true⟩ s₀ s2 := .foldl hs1 fun _ _ ht => .ite ht.setProg ht
  have hs3 : Keeps ⟨md, ck, lb, true, true⟩ s₀ s3 := hs2.restoreMap
  exact .foldl hs3 fun _ _ ht => ht.restoreGate

theorem Keeps.outTerraces (hs : Keeps ⟨md, ck, lb, true, true⟩ s₀ s) {b : ℕ} :
    Keeps ⟨md, ck, lb, true, true⟩ s₀ (s.outTerraces b) := by
  unfold State.outTerraces
  exact .foldl hs fun _ _ ht => .ite ht.pointOut ht

theorem State.basinStep_rst {b n : ℕ} : (s.basinStep b n).rst = s.rst := by
  have rest {t u : State} (k : Keeps ⟨false, true, true, true, true⟩ t u) : u.rst = t.rst := k.rst_eq
  unfold State.basinStep
  split
  · exact rest (Keeps.refl s).compareCopies.modStacks
  · exact rest (Keeps.ite (Keeps.refl s).restoreSeals (Keeps.refl s)).modStacks
  · extract_lets s1 _ s2
    have early : s1.rst = s.rst := rest (Keeps.refl s).outTerraces.setBridge.armBeat.armBeat
    clear_value s1
    refine (rest (t := s2) ?_).trans early
    exact (Keeps.ite (Keeps.refl s2).setBridge (Keeps.refl s2)).stateChange
  · rfl

theorem Keeps.basinStep (hs : Keeps ⟨true, c, l, true, true⟩ s₀ s) {b n : ℕ} (idle : (∀ j, (s₀.basin j).Legal) → (s.basin b).step = 0) :
    Keeps ⟨true, c, l, true, true⟩ s₀ (s.basinStep b n) := by
  unfold State.basinStep
  split
  · exact hs.compareCopies.modStacks
  · exact (Keeps.ite hs.restoreSeals hs).modStacks
  · extract_lets s1 _ s2
    have hs1 : Keeps ⟨true, c, l, true, true⟩ s₀ s1 := hs.outTerraces.setBridge.armBeat.armBeat
    have kept : Keeps ⟨false, true, true, true, true⟩ s s1 := (Keeps.refl s).outTerraces.setBridge.armBeat.armBeat
    have step : (s1.basin b).step = (s.basin b).step := by
      unfold State.basin
      rw [kept.basins_eq]
    clear_value s1
    have hs2 : Keeps ⟨true, c, l, true, true⟩ s₀ s2 := hs1.setBasin (by exact fun old => Basin.legal_up rfl (step.trans (idle old)))
    exact (Keeps.ite hs2.setBridge hs2).stateChange
  · exact hs

theorem Keeps.bringFail {l' : Bool} (hs : Keeps ⟨true, c, l, true, true⟩ s₀ s) {code : ℕ} (b : s.rst.Bringing) :
    Keeps ⟨true, c, l', true, true⟩ s₀ (s.bringFail code) := by
  unfold State.bringFail
  extract_lets _ s1
  have limbo : Keeps ⟨true, c, true, true, true⟩ s₀ s1 := hs.withRst (l' := true) nofun
  have rst : (s1.logEvent 1 0 sevCritical).rst = s1.rst := (Keeps.refl (φ := ⟨false, true, true, true, true⟩) s1).logEvent.rst_eq
  exact limbo.logEvent.setPhase fun _ _ => b.failed (by rw [rst]) (by rw [rst]) (by rw [rst])

theorem Keeps.afterBasins (hs : Keeps ⟨true, c, l, true, true⟩ s₀ s) (b : s.rst.Bringing) :
    Keeps ⟨true, c, l, true, true⟩ s₀ s.afterBasins := by
  unfold State.afterBasins
  refine .ite hs (.ite (hs.bringFail b) ?_)
  have next {t : State} (ht : Keeps ⟨true, c, true, true, true⟩ s₀ t) (power : t.rst.pwrok = s.rst.pwrok) (out : t.rst.inReset = s.rst.inReset)
      (phase : t.rst.phase = s.rst.phase) : Keeps ⟨true, c, l, true, true⟩ s₀ (t.beginStep (s.rst.step + 1)) :=
    ht.beginStep fun settled old => (hs.phases settled old).begun b power out phase
  dsimp only
  split
  · exact next (hs.withRst (l' := true) nofun) rfl rfl rfl
  · exact next { hs with phases := nofun } rfl rfl rfl

theorem Keeps.stepAgain (hs : Keeps ⟨true, c, l, true, true⟩ s₀ s) : Keeps ⟨true, c, l, true, true⟩ s₀ s.stepAgain := by
  unfold State.stepAgain
  split
  · exact hs.activate.bootRom
  · exact hs.trainPorts
  · exact hs

/-- A Basin with its part of a bring-up step still to do is in no step of a restart. -/
theorem State.step_of_stepLeft {b : ℕ} (legal : (s.basin b).Legal) (left : s.stepLeft b = true) : (s.basin b).step = 0 := by
  have up : (s.basin b).state = 3 := by simp_all [State.stepLeft]
  have none := legal.2.2
  omega

theorem Keeps.stepFailed (hs : Keeps ⟨true, c, l, true, true⟩ s₀ s) {basin : Option ℕ} {code : ℕ} (bring : s.rst.Bringing) :
    Keeps ⟨true, c, l, true, true⟩ s₀ (s.stepFailed basin code) := by
  unfold State.stepFailed
  refine .ite ?_ (.ite (Keeps.stepAgain (by exact hs.withRst (by exact hs.phases))) (hs.bringFail bring))
  split
  · exact hs
  next b =>
    extract_lets v
    split
    · exact hs
    next left =>
      have idle (old : ∀ j, (s₀.basin j).Legal) : v.step = 0 := State.step_of_stepLeft (hs.legal old b) (by simpa using left)
      have out : Keeps ⟨true, c, l, true, true⟩ s₀ (s.setBasin b { v with state := 2 }) :=
        hs.setBasin fun old => Basin.legal_out rfl (idle old)
      refine .ite (hs.setBasin (by exact fun old => (hs.legal old b).same rfl rfl)) (Keeps.afterBasins out.bumpSat.logEvent ?_)
      rw [Keeps.rst_eq (c := true) (l := true) (Keeps.refl (s.setBasin b { v with state := 2 })).bumpSat.logEvent]
      exact bring

/-- The work of a step of bring-up that is not one Basin's. -/
def State.nodeStep (s : State) (ohms : ℕ) (media : Option Media) : State :=
  match s.rst.step with
  | 1 => s.readStrap ohms
  | 6 => s.bringCistern media
  | 8 => if s.clep.internal then s.loadOwn else s
  | 9 => s.restoreService
  | _ => s

theorem Keeps.nodeStep (hs : Keeps ⟨true, c, l, true, true⟩ s₀ s) {ohms : ℕ} {media : Option Media}
    (own : s.rst.step = 8 → s.clep.internal = true → Keeps ⟨true, c, l, true, true⟩ s₀ s.loadOwn) :
    Keeps ⟨true, c, l, true, true⟩ s₀ (s.nodeStep ohms media) := by
  unfold State.nodeStep
  split
  · exact hs.readStrap
  · exact hs.bringCistern
  next step8 =>
    split
    next internal => exact own step8 internal
    next => exact hs
  · exact hs.restoreService
  · exact hs

theorem State.nodeStep_rst {ohms : ℕ} {media : Option Media} :
    (s.nodeStep ohms media).rst.pwrok = s.rst.pwrok ∧ (s.nodeStep ohms media).rst.inReset = s.rst.inReset ∧
      (s.nodeStep ohms media).rst.phase = s.rst.phase := by
  have rest {t : State} (k : Keeps ⟨false, true, true, true, true⟩ s t) :
      t.rst.pwrok = s.rst.pwrok ∧ t.rst.inReset = s.rst.inReset ∧ t.rst.phase = s.rst.phase := by
    rw [k.rst_eq]
    exact ⟨rfl, rfl, rfl⟩
  unfold State.nodeStep
  split
  · unfold State.readStrap
    extract_lets +onlyGivenNames m c' _ s1
    clear_value c'
    split
    · exact ⟨rfl, rfl, rfl⟩
    · exact ⟨rfl, rfl, rfl⟩
  · exact rest (Keeps.refl s).bringCistern
  · exact rest (.ite (Keeps.refl s).loadOwn (Keeps.refl s))
  · exact rest (Keeps.refl s).restoreService
  · exact ⟨rfl, rfl, rfl⟩

/-- Only the load of Keeper's own count in step 8 may move the clock. -/
theorem execBringupStepDone_answers_of (hs : Keeps ⟨true, c, l, true, true⟩ s₀ s) {basin : Option (Fin 2)} {ohms : ℕ} {media : Option Media}
    {res : StepEnd} (own : s.rst.step = 8 → s.clep.internal = true → Keeps ⟨true, c, l, true, true⟩ s₀ s.loadOwn) :
    Answers ⟨true, c, l, true, true⟩ s₀ (execBringupStepDone basin ohms media res s) := by
  unfold execBringupStepDone
  extract_lets +onlyGivenNames n
  split
  · exact .next hs
  next running =>
    have bring : s.rst.Bringing := State.bringing_iff.mp (by simpa using running)
    split
    · exact .next (hs.stepFailed bring)
    · refine .ite ?_ (.ite (.next hs) (.next ?_))
      · split
        · exact .next hs
        next b =>
          split
          · exact .next hs
          next left =>
            extract_lets _ s1
            have hs1 : Keeps ⟨true, c, l, true, true⟩ s₀ s1 := hs.setBasin fun old => (hs.legal old b).same rfl rfl
            have idle (old : ∀ j, (s₀.basin j).Legal) : (s1.basin b).step = 0 := by
              rw [State.basin_setBasin_same]
              exact State.step_of_stepLeft (hs.legal old b) (by simpa using left)
            exact .next ((hs1.basinStep idle).afterBasins (by rw [State.basinStep_rst]; exact bring))
      · exact (hs.nodeStep own).beginStep fun settled old =>
          (hs.phases settled old).begun bring State.nodeStep_rst.1 State.nodeStep_rst.2.1 State.nodeStep_rst.2.2

theorem execBringupStepDone_answers (hs : Keeps ⟨true, true, l, true, true⟩ s₀ s) {basin : Option (Fin 2)} {ohms : ℕ} {media : Option Media}
    {res : StepEnd} : Answers ⟨true, true, l, true, true⟩ s₀ (execBringupStepDone basin ohms media res s) :=
  execBringupStepDone_answers_of hs fun _ _ => hs.loadOwn

theorem execBringupStepLimit_answers (hs : Keeps ⟨true, c, l, true, true⟩ s₀ s) {basin : Option (Fin 2)} :
    Answers ⟨true, c, l, true, true⟩ s₀ (execBringupStepLimit basin s) := by
  unfold execBringupStepLimit
  split
  · exact .next hs
  next running => exact .next (hs.stepFailed (State.bringing_iff.mp (by simp_all)))

/-- A reset is under way once it has begun, with PHASE 0 and no step. -/
theorem State.beginReset_rst {lvl : Level} {ok : Bool} {source : ℕ} :
    (s.beginReset lvl ok source).rst.inReset = true ∧ (s.beginReset lvl ok source).rst.phase = 0 ∧
      (s.beginReset lvl ok source).rst.step = 0 := by
  unfold State.beginReset
  extract_lets lv s1 _ _ s2 s3
  have rst : s3.rst = s2.rst := (Keeps.refl (φ := ⟨false, true, true, true, true⟩) s2).logEvent.rst_eq
  have all : s3.rst.inReset = true ∧ s3.rst.phase = 0 ∧ s3.rst.step = 0 := by
    rw [rst]
    exact ⟨rfl, rfl, rfl⟩
  split
  · exact all
  · exact all

theorem Keeps.beginReset {l' : Bool} (hs : Keeps ⟨true, true, l, true, true⟩ s₀ s) {lvl : Level} {ok : Bool} {source : ℕ} :
    Keeps ⟨true, true, l', true, true⟩ s₀ (s.beginReset lvl ok source) := by
  have legal : (s.beginReset lvl ok source).rst.Legal := by
    obtain ⟨reset, phase, step⟩ := State.beginReset_rst (s := s) (lvl := lvl) (ok := ok) (source := source)
    exact Rst.legal_reset reset phase step
  suffices limbo : Keeps ⟨true, true, true, true, true⟩ s₀ (s.beginReset lvl ok source) from { limbo with
    modes := nofun
    clock := nofun
    phases := fun _ _ => legal }
  unfold State.beginReset
  extract_lets lv s1 _ _ s2 s3
  have hs1 : Keeps ⟨true, true, true, true, true⟩ s₀ s1 := (Keeps.ite hs.saveArea hs).clearFor
  have hs2 : Keeps ⟨true, true, true, true, true⟩ s₀ s2 := Keeps.withKeeper (s := { s1 with rst := s2.rst }) (hs1.withRst (l' := true) nofun)
  exact .ite hs2.logEvent.setRegF hs2.logEvent

theorem execPwrokRise_answers (hs : Keeps ⟨true, true, l, true, true⟩ s₀ s) {rails : List RailRead} :
    Answers ⟨true, true, l, true, true⟩ s₀ (execPwrokRise rails s) := by
  unfold execPwrokRise
  extract_lets both mapped s1 _ s2
  have hs1 : Keeps ⟨true, true, l, true, true⟩ s₀ s1 := hs.beginReset
  obtain ⟨reset, phase, step⟩ : s1.rst.inReset = true ∧ s1.rst.phase = 0 ∧ s1.rst.step = 0 := State.beginReset_rst
  have hs2 : Keeps ⟨true, true, l, true, true⟩ s₀ s2 := hs1.withRst fun _ _ => Rst.legal_reset reset phase step
  exact .ite (.next hs) (.next (.ite hs2 (hs2.endReset rfl fun _ _ => phase)))

theorem execPwrokFall_answers (hs : Keeps ⟨true, true, l, true, true⟩ s₀ s) :
    Answers ⟨true, true, l, true, true⟩ s₀ (execPwrokFall s) := by
  unfold execPwrokFall
  extract_lets s0 _ s1
  have hs1 : Keeps ⟨true, true, true, true, true⟩ s₀ s1 := hs.clearFor.withKeeper
  exact .ite (.next hs) (.next (hs1.withRst fun _ _ => Rst.legal_reset rfl rfl rfl))

theorem execResetNFall_answers (hs : Keeps ⟨true, true, l, true, true⟩ s₀ s) {long : Bool} :
    Answers ⟨true, true, l, true, true⟩ s₀ (execResetNFall long s) := by
  unfold execResetNFall
  extract_lets _ s1
  have hs1 : Keeps ⟨true, true, l, true, true⟩ s₀ s1 := hs.withRst (by exact hs.phases)
  exact .ite (.next hs) (.next (.ite hs1.beginReset hs1))

theorem execResetNRise_answers (hs : Keeps ⟨true, c, l, true, true⟩ s₀ s) :
    Answers ⟨true, c, l, true, true⟩ s₀ (execResetNRise s) := by
  unfold execResetNRise
  extract_lets _ s1
  have hs1 : Keeps ⟨true, c, l, true, true⟩ s₀ s1 := hs.withRst (by exact hs.phases)
  refine .ite (.next hs) ?_
  split
  · exact .next hs1
  next running =>
    obtain ⟨power, reset⟩ : s.rst.pwrok = true ∧ s.rst.inReset = true := by simpa using running
    exact .ite (.next (hs1.endReset power fun settled old => ((hs.phases settled old).2.1 reset).1)) (.next (.ite hs1.setRegF hs1))

theorem execResetHoldEnd_answers (hs : Keeps ⟨true, c, l, true, true⟩ s₀ s) :
    Answers ⟨true, c, l, true, true⟩ s₀ (execResetHoldEnd s) := by
  unfold execResetHoldEnd
  extract_lets _ s1
  have hs1 : Keeps ⟨true, c, l, true, true⟩ s₀ s1 := hs.withRst (by exact hs.phases)
  split
  · exact .next hs
  next running =>
    obtain ⟨power, reset⟩ : s.rst.pwrok = true ∧ s.rst.inReset = true := by simp_all
    exact .next (.ite (hs1.endReset power fun settled old => ((hs.phases settled old).2.1 reset).1) hs1)

theorem execStandbyPowerUp_answers (hs : Keeps ⟨true, true, l, true, true⟩ s₀ s) :
    Answers ⟨true, true, l, true, true⟩ s₀ (execStandbyPowerUp s) := by
  unfold execStandbyPowerUp
  extract_lets k notKpr _ k1 _ s1
  have regs : Keeps ⟨true, true, l, true, true⟩ s₀ { s with regs := s.regs.filter notKpr } := hs.withRegs (Store.wf_filter _)
  have clock : Keeps ⟨true, true, l, true, true⟩ s₀ (State.withClep { s with regs := s.regs.filter notKpr } s1.clep) := regs.newClep
  have hs1 : Keeps ⟨true, true, l, true, true⟩ s₀ s1 := Keeps.others (Keeps.withKeeper (k := k1) clock)
  exact .next hs1.bootRom

/-! ### Machine/Claims -/

theorem Keeps.adopted (hs : Keeps ⟨md, ck, lb, true, true⟩ s₀ s) : Keeps ⟨md, ck, lb, true, true⟩ s₀ s.adopted := by
  unfold State.adopted
  extract_lets take
  exact .foldl hs fun _ _ ht => .ite ht.setReg ht

/-! ### Machine/Views -/

theorem execRegRead_answers (hs : Keeps ⟨md, ck, lb, true, true⟩ s₀ s) {page : Byte} {off : U16} :
    Answers ⟨md, ck, lb, true, true⟩ s₀ (execRegRead page off s) := by
  unfold execRegRead
  refine .ite (.next hs) ?_
  extract_lets p v
  exact .next hs.emit

/-! ### Machine/Endpoint -/

theorem Keeps.setDip (hs : Keeps ⟨md, ck, lb, true, true⟩ s₀ s) {fn : ℕ} {d : Dipper} :
    Keeps ⟨md, ck, lb, true, true⟩ s₀ (s.setDip fn d) := by
  unfold State.setDip
  exact hs.setFn

theorem Keeps.dipLeaves (hs : Keeps ⟨md, ck, lb, true, true⟩ s₀ s) {fn : ℕ} :
    Keeps ⟨md, ck, lb, true, true⟩ s₀ (s.dipLeaves fn) := by
  unfold State.dipLeaves
  exact hs.withReads

theorem Keeps.resetFn (hs : Keeps ⟨md, ck, lb, true, true⟩ s₀ s) {fn : ℕ} : Keeps ⟨md, ck, lb, true, true⟩ s₀ (s.resetFn fn) := by
  unfold State.resetFn
  extract_lets owed mine other orph s0 s1
  have keys : Store.keys (s.reqs.map orph) = Store.keys s.reqs := by
    unfold Store.keys
    rw [List.map_map]
    refine List.map_congr_left fun p _ => ?_
    unfold Function.comp orph
    split <;> rfl
  have cleared : Keeps ⟨md, ck, lb, true, true⟩ s₀ { s with regs := s.regs.filter other, reqs := s.reqs.map orph } :=
    (hs.withRegs (Store.wf_filter _)).withReqs (fun w => by unfold Store.Sorted at *; rwa [keys]) (fun k hk => .inl (keys ▸ hk))
  have hs1 : Keeps ⟨md, ck, lb, true, true⟩ s₀ s1 := cleared.others
  exact .foldl hs1 fun _ _ ht => ht.dropReq.discard

theorem Keeps.resetAllFns (hs : Keeps ⟨md, ck, lb, true, true⟩ s₀ s) : Keeps ⟨md, ck, lb, true, true⟩ s₀ s.resetAllFns := by
  unfold State.resetAllFns
  extract_lets s1
  have hs1 : Keeps ⟨md, ck, lb, true, true⟩ s₀ s1 := .foldl hs fun _ _ ht => ht.resetFn
  exact .ite hs1.others hs1.others

theorem execFunctionLevelReset_answers (hs : Keeps ⟨md, ck, lb, true, true⟩ s₀ s) {fn : Fin 17} :
    Answers ⟨md, ck, lb, true, true⟩ s₀ (execFunctionLevelReset fn s) := by
  unfold execFunctionLevelReset
  exact .next (.ite hs.resetAllFns hs.resetFn)

theorem execHotReset_answers (hs : Keeps ⟨md, ck, lb, true, true⟩ s₀ s) : Answers ⟨md, ck, lb, true, true⟩ s₀ (execHotReset s) := by
  unfold execHotReset
  exact .next hs.resetAllFns

theorem Keeps.writeMsix (hs : Keeps ⟨md, ck, lb, true, true⟩ s₀ s) {fn off : ℕ} {bytes : List Byte} :
    Keeps ⟨md, ck, lb, true, true⟩ s₀ (s.writeMsix fn off bytes) := by
  unfold State.writeMsix
  extract_lets +onlyGivenNames v
  refine .ite hs ?_
  extract_lets h m b m1 put
  have hput : ∀ t x, Keeps ⟨md, ck, lb, true, true⟩ s₀ t → Keeps ⟨md, ck, lb, true, true⟩ s₀ (put t x) := by
    intro _ _ ht
    unfold put
    extract_lets +onlyGivenNames tbl
    exact ht.setFn
  exact .ite (hput _ _ hs).emit (hput _ _ hs)

theorem Keeps.sendPending (hs : Keeps ⟨md, ck, lb, true, true⟩ s₀ s) {fn : ℕ} :
    Keeps ⟨md, ck, lb, true, true⟩ s₀ (s.sendPending fn) := by
  unfold State.sendPending
  refine .ite hs ?_
  refine .foldl hs fun _ _ ht => ?_
  refine .ite ht ?_
  extract_lets +onlyGivenNames _ tbl
  exact ht.setFn.emit

theorem Keeps.setCfg (hs : Keeps ⟨md, ck, lb, true, true⟩ s₀ s) {fn : ℕ} {c : PciCfg} :
    Keeps ⟨md, ck, lb, true, true⟩ s₀ (s.setCfg fn c) := by
  unfold State.setCfg
  exact hs.setFn.sendPending

theorem Keeps.writeCfg (hs : Keeps ⟨md, ck, lb, true, true⟩ s₀ s) {fn : ℕ} {f : CfgField} {v : ℕ} :
    Keeps ⟨md, ck, lb, true, true⟩ s₀ (s.writeCfg fn f v) := by
  unfold State.writeCfg
  extract_lets +onlyGivenNames c on
  split
  · exact .ite hs.setCfg hs
  · refine .ite hs ?_
    extract_lets s1
    have hs1 : Keeps ⟨md, ck, lb, true, true⟩ s₀ s1 := hs.setCfg
    exact .ite hs1 (.foldl hs1 fun _ _ ht => ht.resetFn)
  · exact hs.setCfg
  · exact hs.setCfg
  · exact .ite hs.setCfg hs
  · exact .ite hs.setCfg hs
  · exact hs.setCfg
  · exact .ite hs.setCfg hs
  · exact hs
  · exact hs
  · exact hs
  · exact hs
  · exact hs
  · exact hs
  · exact hs

/-! ### Machine/Host -/

theorem Keeps.stage (hs : Keeps ⟨md, ck, lb, true, true⟩ s₀ s) {key : ℕ} {v : U64} :
    Keeps ⟨md, ck, lb, true, true⟩ s₀ (s.stage key v) := by
  unfold State.stage
  exact hs.others

theorem Keeps.requestGo (hs : Keeps ⟨md, ck, lb, true, true⟩ s₀ s) : Keeps ⟨md, ck, lb, true, true⟩ s₀ s.requestGo := by
  unfold State.requestGo
  exact hs.others

theorem Keeps.requestDiscard (hs : Keeps ⟨md, ck, lb, true, true⟩ s₀ s) : Keeps ⟨md, ck, lb, true, true⟩ s₀ s.requestDiscard := by
  unfold State.requestDiscard
  exact .ite hs.others hs.others

theorem execHostCommitGo_answers (hs : Keeps ⟨md, ck, lb, true, true⟩ s₀ s) :
    Answers ⟨md, ck, lb, true, true⟩ s₀ (execHostCommitGo s) := by
  unfold execHostCommitGo
  exact .next (.ite (hs.pfWrite hs.requestGo) hs)

theorem execHostCommitDiscard_answers (hs : Keeps ⟨md, ck, lb, true, true⟩ s₀ s) :
    Answers ⟨md, ck, lb, true, true⟩ s₀ (execHostCommitDiscard s) := by
  unfold execHostCommitDiscard
  exact .next (.ite (hs.pfWrite hs.requestDiscard) hs)

theorem Keeps.passEntry (hs : Keeps ⟨md, ck, lb, true, true⟩ s₀ s) {fn q : ℕ} :
    Keeps ⟨md, ck, lb, true, true⟩ s₀ (s.passEntry fn q) := by
  unfold State.passEntry
  extract_lets v
  exact hs.setQueue

theorem Keeps.failEntry (hs : Keeps ⟨md, ck, lb, true, true⟩ s₀ s) {fn q : ℕ} {e : SqEntry} {qstatus : ℕ} :
    Keeps ⟨md, ck, lb, true, true⟩ s₀ (s.failEntry fn q e qstatus) := by
  unfold State.failEntry
  exact hs.passEntry.owe

theorem Keeps.takeEntries (hs : Keeps ⟨md, ck, lb, true, true⟩ s₀ s) {fn q : ℕ} {l : List SqEntry} :
    Keeps ⟨md, ck, lb, true, true⟩ s₀ (s.takeEntries fn q l) := by
  induction l generalizing s with
  | nil => exact hs.setQueue
  | cons e es ih => exact .ite hs.setQueue.emit (ih hs.failEntry)

theorem Keeps.queueError (hs : Keeps ⟨md, ck, lb, true, true⟩ s₀ s) {fn q : ℕ} :
    Keeps ⟨md, ck, lb, true, true⟩ s₀ (s.queueError fn q) := by
  unfold State.queueError
  extract_lets v
  exact hs.setQueue.hqEvent

theorem Keeps.freeBytes (hs : Keeps ⟨md, ck, lb, true, true⟩ s₀ s) {n : ℕ} :
    Keeps ⟨md, ck, lb, true, true⟩ s₀ (s.freeBytes n).2 := by
  unfold State.freeBytes
  exact hs.other

theorem Keeps.readEntries (hs : Keeps ⟨md, ck, lb, true, true⟩ s₀ s) {n : ℕ} {given : List (List Byte)} :
    Keeps ⟨md, ck, lb, true, true⟩ s₀ (s.readEntries n given).2 := by
  induction n generalizing s given with
  | zero => exact hs
  | succ n ih => exact ih hs.freeBytes

theorem execSqTailDoorbell_answers (hs : Keeps ⟨md, ck, lb, true, true⟩ s₀ s) {fn : Fin 17} {q : Fin 16} {tail : U32} {entries : List (List Byte)} :
    Answers ⟨md, ck, lb, true, true⟩ s₀ (execSqTailDoorbell fn q tail entries s) := by
  unfold execSqTailDoorbell
  extract_lets +onlyGivenNames v size t
  refine .ite (.next hs) ?_
  refine .ite (.next hs.dropWrite) ?_
  refine .ite (.next hs) ?_
  refine .ite (.next hs.queueError) ?_
  extract_lets +onlyGivenNames s1 n f
  have hs1 : Keeps ⟨md, ck, lb, true, true⟩ s₀ s1 := hs.setQueue
  have hf : Keeps ⟨md, ck, lb, true, true⟩ s₀ f.2 := hs1.emits.readEntries
  exact .ite (.next hs1) (.ite (.next hf.takeEntries) (.next hf.setQueue))

theorem execHostRequestFetch_answers (hs : Keeps ⟨md, ck, lb, true, true⟩ s₀ s) {fn : Fin 17} {q : Fin 16} {data : Option (List Byte)} :
    Answers ⟨md, ck, lb, true, true⟩ s₀ (execHostRequestFetch fn q data s) := by
  unfold execHostRequestFetch
  extract_lets v
  split
  · exact .next hs
  · split
    · extract_lets s1
      have hs1 : Keeps ⟨md, ck, lb, true, true⟩ s₀ s1 := hs.failEntry
      exact .next hs1.takeEntries
    · extract_lets f bs s1 s2
      have hf : Keeps ⟨md, ck, lb, true, true⟩ s₀ f.2 := hs.freeBytes
      have hs1 : Keeps ⟨md, ck, lb, true, true⟩ s₀ s1 := hf.passEntry.fireDue
      have hs2 : Keeps ⟨md, ck, lb, true, true⟩ s₀ s2 := hs1.offer
      exact .next hs2.takeEntries

theorem execCqHeadDoorbell_answers (hs : Keeps ⟨md, ck, lb, true, true⟩ s₀ s) {fn : Fin 17} {q : Fin 16} {head : U32} :
    Answers ⟨md, ck, lb, true, true⟩ s₀ (execCqHeadDoorbell fn q head s) := by
  unfold execCqHeadDoorbell
  extract_lets +onlyGivenNames v size h
  refine .ite (.next hs) ?_
  refine .ite (.next hs.dropWrite) ?_
  refine .ite (.next hs) ?_
  refine .ite (.next hs.queueError) ?_
  extract_lets d n
  exact .next hs.setQueue.flushCq

theorem execMsixCoalesceTimeout_answers (hs : Keeps ⟨md, ck, lb, true, true⟩ s₀ s) {fn : Fin 17} {q : Fin 16} :
    Answers ⟨md, ck, lb, true, true⟩ s₀ (execMsixCoalesceTimeout fn q s) := by
  unfold execMsixCoalesceTimeout
  extract_lets v
  exact .ite (.next hs.setQueue.sendVector) (.next hs)

theorem Keeps.discardOwed (hs : Keeps ⟨md, ck, lb, true, true⟩ s₀ s) {fn q : ℕ} :
    Keeps ⟨md, ck, lb, true, true⟩ s₀ (s.discardOwed fn q) := by
  unfold State.discardOwed
  extract_lets v
  exact .foldl hs.setQueue fun _ _ ht => ht.dropReq.discard

theorem Keeps.writeSqCfg (hs : Keeps ⟨md, ck, lb, true, true⟩ s₀ s) {fn q : ℕ} {w : U64} :
    Gives ⟨md, ck, lb, true, true⟩ s₀ (s.writeSqCfg fn q w) := by
  unfold State.writeSqCfg
  extract_lets v en l
  exact .ite (.ite (.some hs) .none) (.ite (.some hs.setQueue) (.some hs.setQueue))

theorem Keeps.writeCqCfg (hs : Keeps ⟨md, ck, lb, true, true⟩ s₀ s) {fn q : ℕ} {w : U64} :
    Gives ⟨md, ck, lb, true, true⟩ s₀ (s.writeCqCfg fn q w) := by
  unfold State.writeCqCfg
  extract_lets v en l v1
  exact .ite (.ite (.some hs.setQueue) .none) (.ite (.some hs.setQueue) (.some hs.setQueue.discardOwed))

theorem Keeps.writeBase (hs : Keeps ⟨md, ck, lb, true, true⟩ s₀ s) {fn q : ℕ} {cq : Bool} {w : U64} :
    Gives ⟨md, ck, lb, true, true⟩ s₀ (s.writeBase fn q cq w) := by
  unfold State.writeBase
  extract_lets v a
  exact .ite (.ite .none (.some hs.setQueue)) (.ite .none (.some hs.setQueue))

theorem Keeps.writeQueue (hs : Keeps ⟨md, ck, lb, true, true⟩ s₀ s) {fn off : ℕ} {w : U64} :
    Gives ⟨md, ck, lb, true, true⟩ s₀ (s.writeQueue fn off w) := by
  unfold State.writeQueue
  extract_lets q
  refine .ite .none ?_
  split
  · exact hs.writeBase
  · exact hs.writeSqCfg
  · exact hs.writeBase
  · exact hs.writeCqCfg
  · exact .none

theorem Keeps.nameFill (hs : Keeps ⟨md, ck, lb, true, true⟩ s₀ s) {fn : ℕ} : Keeps ⟨md, ck, lb, true, true⟩ s₀ (s.nameFill fn) := by
  unfold State.nameFill
  extract_lets +onlyGivenNames d a r
  refine .ite ?_ (.ite hs.nameError (.foldl hs fun _ _ ht => ht.nameArray))
  extract_lets slice
  exact .ite hs.nameError hs.namePages

theorem Keeps.startFill (hs : Keeps ⟨md, ck, lb, true, true⟩ s₀ s) {fn : ℕ} :
    Keeps ⟨md, ck, lb, true, true⟩ s₀ (s.startFill fn) := by
  unfold State.startFill
  extract_lets d go s1
  have hs1 : Keeps ⟨md, ck, lb, true, true⟩ s₀ s1 := hs.dipLeaves.setDip
  exact .ite hs1.nameFill hs1

theorem Keeps.dipError (hs : Keeps ⟨md, ck, lb, true, true⟩ s₀ s) {fn code : ℕ} :
    Keeps ⟨md, ck, lb, true, true⟩ s₀ (s.dipError fn code) := by
  unfold State.dipError
  exact hs.setDip

theorem Keeps.dipMove (hs : Keeps ⟨md, ck, lb, true, true⟩ s₀ s) {fn : ℕ} {addr : U64} :
    Keeps ⟨md, ck, lb, true, true⟩ s₀ (s.dipMove fn addr) := by
  unfold State.dipMove
  extract_lets d s1
  have hs1 : Keeps ⟨md, ck, lb, true, true⟩ s₀ s1 := hs.setDip
  exact .ite hs1 hs1.startFill

theorem execDipFillStart_answers (hs : Keeps ⟨md, ck, lb, true, true⟩ s₀ s) {fn : Fin 17} {off : ℕ} {val : U64} :
    Answers ⟨md, ck, lb, true, true⟩ s₀ (execDipFillStart fn off val s) := by
  unfold execDipFillStart
  extract_lets d
  exact .ite (.next hs) (.ite (.next hs.dropWrite) (.ite (.next hs.setDip.startFill) (.ite (.next hs.setDip.startFill) (.next hs.dropWrite))))

theorem execDipFillDone_answers (hs : Keeps ⟨md, ck, lb, true, true⟩ s₀ s) {fn : Fin 17} {data : Option (List Byte)} {code : Byte} :
    Answers ⟨md, ck, lb, true, true⟩ s₀ (execDipFillDone fn data code s) := by
  unfold execDipFillDone
  extract_lets +onlyGivenNames d
  refine .ite (.next hs) ?_
  refine .ite ?_ ?_
  · split
    · exact .next hs.setDip
    · exact .next hs.setDip.dipError
  · extract_lets bytes s1
    have hs1 : Keeps ⟨md, ck, lb, true, true⟩ s₀ s1 := hs.setDip
    exact .next (.ite hs1.other hs1)

theorem execDipFillLate_answers (hs : Keeps ⟨md, ck, lb, true, true⟩ s₀ s) {fn : Fin 17} :
    Answers ⟨md, ck, lb, true, true⟩ s₀ (execDipFillLate fn s) := by
  unfold execDipFillLate
  extract_lets d
  exact .ite (.next hs.dipLeaves.setDip.dipError) (.next hs)

theorem Keeps.dipNotReady (hs : Keeps ⟨md, ck, lb, true, true⟩ s₀ s) {fn : ℕ} :
    Keeps ⟨md, ck, lb, true, true⟩ s₀ (s.dipNotReady fn) := by
  unfold State.dipNotReady
  extract_lets d
  exact hs.setDip

theorem Keeps.readDip (hs : Keeps ⟨md, ck, lb, true, true⟩ s₀ s) {fn : ℕ} : Keeps ⟨md, ck, lb, true, true⟩ s₀ (s.readDip fn).2 := by
  unfold State.readDip
  extract_lets d
  split
  · exact hs
  · split
    · exact hs.dipError
    · split
      · exact hs.dipNotReady
      · exact .ite hs.dipMove hs

theorem execDipDataRead_answers (hs : Keeps ⟨md, ck, lb, true, true⟩ s₀ s) {fn : Fin 17} :
    Answers ⟨md, ck, lb, true, true⟩ s₀ (execDipDataRead fn s) := by
  unfold execDipDataRead
  extract_lets r
  have hr : Keeps ⟨md, ck, lb, true, true⟩ s₀ r.2 := hs.readDip
  exact .ite (.next hs) (.next hr.emit)

theorem Keeps.readBurst (hs : Keeps ⟨md, ck, lb, true, true⟩ s₀ s) {fn off n : ℕ} :
    Keeps ⟨md, ck, lb, true, true⟩ s₀ (s.readBurst fn off n).2 := by
  unfold State.readBurst
  extract_lets d
  split
  · exact hs
  · split
    · exact hs.dipError
    · split
      · exact hs.dipNotReady
      · exact .ite hs.dipMove hs

theorem execDipBurstRead_answers (hs : Keeps ⟨md, ck, lb, true, true⟩ s₀ s) {fn : Fin 17} {off len : ℕ} :
    Answers ⟨md, ck, lb, true, true⟩ s₀ (execDipBurstRead fn off len s) := by
  unfold execDipBurstRead
  extract_lets r
  have hr : Keeps ⟨md, ck, lb, true, true⟩ s₀ r.2 := hs.readBurst
  exact .ite (.next hs) (.next hr.emit)

theorem Keeps.stageEntry (hs : Keeps ⟨md, ck, lb, true, true⟩ s₀ s) {key off : ℕ} {bytes : List Byte} :
    Keeps ⟨md, ck, lb, true, true⟩ s₀ (s.stageEntry key off bytes) := by
  unfold State.stageEntry
  extract_lets m
  exact hs.stage

theorem Keeps.writeDip (hs : Keeps ⟨md, ck, lb, true, true⟩ s₀ s) {fn off : ℕ} {bytes : List Byte} :
    Keeps ⟨md, ck, lb, true, true⟩ s₀ (s.writeDip fn off bytes) := by
  unfold State.writeDip
  extract_lets +onlyGivenNames d
  refine .ite hs.dropWrite ?_
  refine .ite hs.dipError ?_
  refine .ite hs.dropWrite ?_
  extract_lets s1
  have hs1 : Keeps ⟨md, ck, lb, true, true⟩ s₀ s1 := hs.stageEntry
  exact .ite hs1.dipMove hs1

theorem execDipDataWrite_answers (hs : Keeps ⟨md, ck, lb, true, true⟩ s₀ s) {fn : Fin 17} {val : U64} :
    Answers ⟨md, ck, lb, true, true⟩ s₀ (execDipDataWrite fn val s) := by
  unfold execDipDataWrite
  exact .ite (.next hs) (.next hs.writeDip)

theorem execDipBurstWrite_answers (hs : Keeps ⟨md, ck, lb, true, true⟩ s₀ s) {fn : Fin 17} {off : ℕ} {bytes : List Byte} :
    Answers ⟨md, ck, lb, true, true⟩ s₀ (execDipBurstWrite fn off bytes s) := by
  unfold execDipBurstWrite
  extract_lets d a
  exact .ite (.next hs) (.ite (.next hs.dropWrite) (.ite (.next hs.dipError) (.ite (.next hs.dropWrite) (.next hs.stageEntry))))

theorem Keeps.storeReg (hs : Keeps ⟨md, ck, lb, true, true⟩ s₀ s) {key : ℕ} {d : RegDef} {mask new : U64} :
    Keeps ⟨md, ck, lb, true, true⟩ s₀ (s.storeReg key d mask new) := by
  unfold State.storeReg
  exact hs.setReg

theorem Keeps.writeEventEn (hs : Keeps ⟨md, ck, lb, true, true⟩ s₀ s) {fn : ℕ} {d : RegDef} {mask new : U64} :
    Keeps ⟨md, ck, lb, true, true⟩ s₀ (s.writeEventEn fn d mask new) := by
  unfold State.writeEventEn
  extract_lets k s1
  have hs1 : Keeps ⟨md, ck, lb, true, true⟩ s₀ s1 := hs.storeReg
  exact .ite hs1 hs1.sendVector

theorem Keeps.stateOr (hs : Keeps ⟨md, ck, lb, true, true⟩ s₀ s) {r : Res} (hr : Answers ⟨md, ck, lb, true, true⟩ s₀ r) :
    Keeps ⟨md, ck, lb, true, true⟩ s₀ (stateOr s r) := by
  unfold Machine.stateOr
  split
  next t => exact hr.keeps rfl
  next => exact hs

theorem Keeps.writePortCtrl (hs : Keeps ⟨md, ck, lb, true, true⟩ s₀ s) {p : ℕ} {mask new : U64} :
    Keeps ⟨md, ck, lb, true, true⟩ s₀ (s.writePortCtrl p mask new) := by
  unfold State.writePortCtrl
  extract_lets k old s1 now s2
  have hs1 : Keeps ⟨md, ck, lb, true, true⟩ s₀ s1 := .ite hs.setRegF hs
  have hs2 : Keeps ⟨md, ck, lb, true, true⟩ s₀ s2 := .ite hs1.portDown (.ite hs1.startTraining hs1)
  exact .ite (hs2.stateOr (execPortRetrain_answers hs2)) hs2

theorem Keeps.writeAction (hs : Keeps ⟨true, c, l, true, true⟩ s₀ s) {fn page off k : ℕ} {d : RegDef} {mask new : U64} :
    Keeps ⟨true, c, l, true, true⟩ s₀ (s.writeAction fn page off k d mask new) := by
  unfold State.writeAction
  extract_lets +onlyGivenNames w key
  refine .ite (.ite hs.requestDiscard (.ite hs.requestGo hs)) (.ite hs.storeReg.storeReg (.ite hs.writePortCtrl
    (.ite (.ite (hs.stateOr (execSpareReq_answers hs)) hs) (.ite ?inject (.ite ?restart (.ite ?hang
      (.ite hs.writeEventEn hs.storeReg)))))))
  case inject =>
    extract_lets s1
    have hs1 : Keeps ⟨true, c, l, true, true⟩ s₀ s1 := .ite (hs.stateOr (execInjectUrdCrc_answers hs)) hs
    exact .ite (hs1.stateOr (execInjectLaneLos_answers hs1)) hs1
  case restart =>
    extract_lets s1
    have hs1 : Keeps ⟨true, c, l, true, true⟩ s₀ s1 := .ite (hs.stateOr (execRestartBasin_answers hs)) hs
    exact .ite (hs1.stateOr (execRestartBasin_answers hs1)) hs1
  case hang =>
    extract_lets s1
    have hs1 : Keeps ⟨true, c, l, true, true⟩ s₀ s1 := .ite (hs.stateOr (execInjectHang_answers hs)) hs
    exact .ite (hs1.stateOr (execInjectHang_answers hs1)) hs1

theorem Keeps.writeReg (hs : Keeps ⟨true, c, l, true, true⟩ s₀ s) {fn page off : ℕ} {mask new : U64} :
    Gives ⟨true, c, l, true, true⟩ s₀ (s.writeReg fn page off mask new) := by
  unfold State.writeReg
  split
  · extract_lets +onlyGivenNames reach stg
    exact .ite .none (.ite (.ite .none (.some (.foldl hs fun _ _ ht => ht.stage)))
      (.ite hs.writeQueue (.ite (.ite (.some hs.setDip) (.some hs)) (.some hs.writeAction))))
  · exact .none

theorem Keeps.hostWrite (hs : Keeps ⟨true, c, l, true, true⟩ s₀ s) {fn page off : ℕ} {bytes : List Byte} :
    Keeps ⟨true, c, l, true, true⟩ s₀ (s.hostWrite fn page off bytes) := by
  unfold State.hostWrite
  extract_lets r
  refine .ite hs.dropWrite ?_
  split
  next t e => exact hs.writeReg _ e
  next => exact hs.dropWrite

theorem execBar0Write_answers (hs : Keeps ⟨true, c, l, true, true⟩ s₀ s) {fn : Fin 17} {page : Fin 64} {o : ℕ} {bytes : List Byte} :
    Answers ⟨true, c, l, true, true⟩ s₀ (execBar0Write fn page o bytes s) := by
  unfold execBar0Write
  split
  next r e =>
    split at e
    · unfold execOwnRow at e
      dsimp only at e
      split_ifs at e
      all_goals cases e
      · exact execSqTailDoorbell_answers hs
      · exact execCqHeadDoorbell_answers hs
      · exact execDipFillStart_answers hs
      · exact execDipFillStart_answers hs
      · exact .next hs.writeDip
      · exact execDipBurstWrite_answers hs
    · cases e
  next => exact .next hs.hostWrite

theorem execRegisterWrite_answers (hs : Keeps ⟨true, c, l, true, true⟩ s₀ s) {fn : Fin 17} {space : Space} {page : Fin 64} {off : ℕ}
    {bytes : List Byte} : Answers ⟨true, c, l, true, true⟩ s₀ (execRegisterWrite fn space page off bytes s) := by
  unfold execRegisterWrite
  extract_lets o
  split
  · exact .next (.ite hs.writeCfg hs)
  · exact .next (.ite hs.writeMsix hs)
  · exact .ite (execBar0Write_answers hs) (.next hs)

theorem execQueueConfigWrite_answers (hs : Keeps ⟨true, c, l, true, true⟩ s₀ s) {fn : Fin 17} {page : Fin 64} {off : ℕ} {val : U64} :
    Answers ⟨true, c, l, true, true⟩ s₀ (execQueueConfigWrite fn page off val s) := by
  unfold execQueueConfigWrite
  exact .ite (execBar0Write_answers hs) (.next hs)

theorem Keeps.readAt (hs : Keeps ⟨md, ck, lb, true, true⟩ s₀ s) {fn page r : ℕ} :
    Keeps ⟨md, ck, lb, true, true⟩ s₀ (s.readAt fn page r).2 := by
  unfold State.readAt
  dsimp only
  split
  · exact hs.readDip
  · split
    · exact hs.readBurst
    · exact hs

theorem Keeps.readHalf (hs : Keeps ⟨md, ck, lb, true, true⟩ s₀ s) {fn page o : ℕ} :
    Keeps ⟨md, ck, lb, true, true⟩ s₀ (s.readHalf fn page o) := by
  unfold State.readHalf
  extract_lets +onlyGivenNames r v h
  have hv : Keeps ⟨md, ck, lb, true, true⟩ s₀ v.2 := hs.readAt
  refine .ite hv.setFn.emit ?_
  extract_lets live
  have hlive : Keeps ⟨md, ck, lb, true, true⟩ s₀ live := hv.emit
  split
  · exact .ite hs.emit hlive
  · exact hlive

theorem Keeps.readRegs (hs : Keeps ⟨md, ck, lb, true, true⟩ s₀ s) {fn page r n : ℕ} :
    Keeps ⟨md, ck, lb, true, true⟩ s₀ (s.readRegs fn page r n).2 := by
  induction n generalizing s r with
  | zero => exact hs
  | succ n ih => exact ih hs.readAt

theorem Keeps.readOdd (hs : Keeps ⟨md, ck, lb, true, true⟩ s₀ s) {fn page o n : ℕ} :
    Keeps ⟨md, ck, lb, true, true⟩ s₀ (s.readOdd fn page o n) := by
  unfold State.readOdd
  dsimp only
  refine Keeps.emit ?_
  split
  · exact hs.readBurst
  · exact hs.readRegs

theorem Keeps.bar0Read (hs : Keeps ⟨md, ck, lb, true, true⟩ s₀ s) {fn page o n : ℕ} :
    Keeps ⟨md, ck, lb, true, true⟩ s₀ (s.bar0Read fn page o n) := by
  unfold State.bar0Read
  refine .ite hs.readHalf ?_
  refine .ite ?_ hs.readOdd
  extract_lets v
  have hv : Keeps ⟨md, ck, lb, true, true⟩ s₀ v.2 := hs.readAt
  exact hv.emit

theorem execRegReadLatch_answers (hs : Keeps ⟨md, ck, lb, true, true⟩ s₀ s) {fn : Fin 17} {place : ReadPlace} {bytes : ReadBytes} :
    Answers ⟨md, ck, lb, true, true⟩ s₀ (execRegReadLatch fn place bytes s) := by
  unfold execRegReadLatch
  extract_lets o
  split
  · exact .next (.ite hs.emit hs)
  · exact .next (.ite hs.emit hs)
  · exact .next (.ite hs.bar0Read hs)

/-! ### Machine/Commit -/

theorem Keeps.setResult (hs : Keeps ⟨md, ck, lb, true, true⟩ s₀ s) {result inst : List (ℕ × ℕ × ℕ)} :
    Keeps ⟨md, ck, lb, true, true⟩ s₀ (s.setResult result inst) := by
  unfold State.setResult
  exact hs.setReg.setReg

theorem Keeps.noteLastErr (hs : Keeps ⟨md, ck, lb, true, true⟩ s₀ s) {f : OwnFail} :
    Keeps ⟨md, ck, lb, true, true⟩ s₀ (s.noteLastErr f) := by
  unfold State.noteLastErr
  refine .ite (.ite (.foldl hs fun _ _ ht => ht.setIdxErr) hs.setIdxErr) ?_
  refine .ite hs.setProg ?_
  refine .ite hs.other ?_
  refine .ite ?_ (.ite hs.withKeeper hs)
  extract_lets _ s1
  have hs1 : Keeps ⟨md, ck, lb, true, true⟩ s₀ s1 := hs.setPoint
  exact .ite hs1.setRegF hs1

theorem Keeps.refuseOwn (hs : Keeps ⟨md, ck, lb, true, true⟩ s₀ s) {f : OwnFail} :
    Keeps ⟨md, ck, lb, true, true⟩ s₀ (s.refuseOwn f) := by
  unfold State.refuseOwn
  exact hs.setResult.noteLastErr

theorem Keeps.refusePool (hs : Keeps ⟨md, ck, lb, true, true⟩ s₀ s) {p : PoolFail} :
    Keeps ⟨md, ck, lb, true, true⟩ s₀ (s.refusePool p) := by
  unfold State.refusePool
  extract_lets fr a s1 b
  have hfr : Keeps ⟨md, ck, lb, true, true⟩ s₀ fr.2 := hs.takeFree
  have hs1 : Keeps ⟨md, ck, lb, true, true⟩ s₀ s1 := .ite hs hfr
  exact hs1.setResult

theorem Keeps.clearActions (hs : Keeps ⟨md, ck, lb, true, true⟩ s₀ s) : Keeps ⟨md, ck, lb, true, true⟩ s₀ s.clearActions := by
  unfold State.clearActions
  exact .foldl hs fun _ _ ht => ht.stage

theorem Keeps.drawSlot (hs : Keeps ⟨md, ck, lb, true, true⟩ s₀ s) {kind : SlotKind} {owner : ℕ} {t : Time} {armed : Bool} :
    Keeps ⟨md, ck, lb, true, true⟩ s₀ (s.drawSlot kind owner t armed).1 := by
  unfold State.drawSlot
  extract_lets +onlyGivenNames n
  exact hs.setSlot

theorem Keeps.createIndex (hs : Keeps ⟨md, ck, lb, true, true⟩ s₀ s) {i : ℕ} {d : IdxDesc} :
    Keeps ⟨md, ck, lb, true, true⟩ s₀ (s.createIndex i d) := by
  unfold State.createIndex
  extract_lets dr
  have hdr : Keeps ⟨md, ck, lb, true, true⟩ s₀ dr.1 := hs.drawSlot
  exact hdr.setIndex

theorem Keeps.destroyIndex (hs : Keeps ⟨md, ck, lb, true, true⟩ s₀ s) {i : ℕ} :
    Keeps ⟨md, ck, lb, true, true⟩ s₀ (s.destroyIndex i) := by
  unfold State.destroyIndex
  split
  · exact hs
  · extract_lets s1 s2
    have hs1 : Keeps ⟨md, ck, lb, true, true⟩ s₀ s1 := hs.setIndex.disarmSlot.flipMoved
    have hs2 : Keeps ⟨md, ck, lb, true, true⟩ s₀ s2 := hs1.others
    exact hs2.abandonMigs

theorem Keeps.actProgram (hs : Keeps ⟨md, ck, lb, true, true⟩ s₀ s) {n act slice bytes : ℕ} :
    Keeps ⟨md, ck, lb, true, true⟩ s₀ (s.actProgram n act slice bytes) := by
  unfold State.actProgram
  extract_lets g
  exact .ite hs.setProg (.ite hs.setProg hs)

theorem Keeps.cancelGate (hs : Keeps ⟨md, ck, lb, true, true⟩ s₀ s) {pt : ℕ} :
    Keeps ⟨md, ck, lb, true, true⟩ s₀ (s.cancelGate pt) := by
  unfold State.cancelGate
  split
  · exact hs.freeSlot.setPoint
  · exact hs

theorem Keeps.installGate (hs : Keeps ⟨md, ck, lb, true, true⟩ s₀ s) {pt : ℕ} {l : GateList} {t : Time} :
    Keeps ⟨md, ck, lb, true, true⟩ s₀ (s.installGate pt l t) := by
  unfold State.installGate
  refine .ite ?_ ?_
  · extract_lets +onlyGivenNames s1
    have hs1 : Keeps ⟨md, ck, lb, true, true⟩ s₀ s1 := hs.cancelGate
    exact hs1.setPoint.takeOver
  · split
    · exact hs.armSlot.setPoint
    · extract_lets +onlyGivenNames dr
      have hdr : Keeps ⟨md, ck, lb, true, true⟩ s₀ dr.1 := hs.drawSlot
      exact hdr.setPoint

theorem Keeps.freeMapSlot (hs : Keeps ⟨md, ck, lb, true, true⟩ s₀ s) : Keeps ⟨md, ck, lb, true, true⟩ s₀ s.freeMapSlot := by
  unfold State.freeMapSlot
  split
  · exact hs.freeSlot
  · exact hs

theorem Keeps.installMap (hs : Keeps ⟨md, ck, lb, true, true⟩ s₀ s) {m : List MapEntry} {t : Time} :
    Keeps ⟨md, ck, lb, true, true⟩ s₀ (s.installMap m t) := by
  unfold State.installMap
  extract_lets +onlyGivenNames leaving put
  have hput : ∀ u p, Keeps ⟨md, ck, lb, true, true⟩ s₀ u → Keeps ⟨md, ck, lb, true, true⟩ s₀ (put u p) := fun _ _ ht => ht.others
  refine .ite (hput _ _ hs.freeMapSlot).mapSwitch ?_
  split
  · exact (hput _ _ hs.armSlot).mapMoved
  · extract_lets dr
    have hdr : Keeps ⟨md, ck, lb, true, true⟩ s₀ dr.1 := hs.drawSlot
    exact hput _ _ hdr

theorem Keeps.cancelMap (hs : Keeps ⟨md, ck, lb, true, true⟩ s₀ s) : Keeps ⟨md, ck, lb, true, true⟩ s₀ s.cancelMap := by
  unfold State.cancelMap
  split
  · extract_lets +onlyGivenNames s1
    have hs1 : Keeps ⟨md, ck, lb, true, true⟩ s₀ s1 := hs.freeMapSlot
    exact hs1.others.mapMoved
  · exact hs

theorem Keeps.actMap (hs : Keeps ⟨md, ck, lb, true, true⟩ s₀ s) {act : ℕ} {m : List MapEntry} {t : Time} :
    Keeps ⟨md, ck, lb, true, true⟩ s₀ (s.actMap act m t) := by
  unfold State.actMap
  exact .ite hs.installMap (.ite hs.cancelMap hs)

theorem Keeps.actFirmware (hs : Keeps ⟨md, ck, lb, true, true⟩ s₀ s) {act : ℕ} :
    Keeps ⟨md, ck, lb, true, true⟩ s₀ (s.actFirmware act) := by
  unfold State.actFirmware
  exact .ite hs.withKeeper (.ite hs.withKeeper (.ite hs.raiseSvn hs))

theorem Keeps.carryCredits (hs : Keeps ⟨md, ck, lb, true, true⟩ s₀ s) {old : State} :
    Keeps ⟨md, ck, lb, true, true⟩ s₀ (s.carryCredits old) := by
  unfold State.carryCredits
  refine .foldl hs fun _ _ ht => ?_
  extract_lets pt c
  exact ht.setCredit

theorem Keeps.followNodeValid (hs : Keeps ⟨md, ck, lb, true, true⟩ s₀ s) {old : State} :
    Keeps ⟨md, ck, lb, true, true⟩ s₀ (s.followNodeValid old) := by
  unfold State.followNodeValid
  extract_lets was is
  exact .ite (.foldl hs fun _ _ ht => .ite ht.startTraining ht) (.ite (.foldl hs fun _ _ ht => .ite ht ht.portDown) hs)

theorem Keeps.followBoot (hs : Keeps ⟨md, ck, lb, true, true⟩ s₀ s) {old : State} :
    Keeps ⟨md, ck, lb, true, true⟩ s₀ (s.followBoot old) := by
  unfold State.followBoot
  extract_lets +onlyGivenNames of
  exact .ite hs hs.withKeeper

theorem Keeps.shrinkMapCache (hs : Keeps ⟨md, ck, lb, true, true⟩ s₀ s) : Keeps ⟨md, ck, lb, true, true⟩ s₀ s.shrinkMapCache := by
  unfold State.shrinkMapCache
  extract_lets c
  exact hs.other

theorem Keeps.handAll (hs : Keeps ⟨md, ck, lb, true, true⟩ s₀ s) : Keeps ⟨md, ck, lb, true, true⟩ s₀ s.handAll := by
  unfold State.handAll
  exact hs.handWindows

theorem Keeps.followConfig (hs : Keeps ⟨md, ck, lb, true, true⟩ s₀ s) {old : State} :
    Keeps ⟨md, ck, lb, true, true⟩ s₀ (s.followConfig old) := by
  unfold State.followConfig
  extract_lets s1
  have hs1 : Keeps ⟨md, ck, lb, true, true⟩ s₀ s1 :=
    hs.preferRef.carryCredits.followNodeValid.followBoot.shrinkCaches.shrinkMapCache.handAll.routeAll
  exact .foldl hs1 fun _ _ ht => ht.retag

theorem Keeps.doActions (hs : Keeps ⟨md, ck, lb, true, true⟩ s₀ s) {old : State} :
    Keeps ⟨md, ck, lb, true, true⟩ s₀ (s.doActions old) := by
  unfold State.doActions
  extract_lets s1 s2 mapNow gateNow doMap doGates s2a s2b s3 s4 s5 s6 _ s7
  have hs1 : Keeps ⟨md, ck, lb, true, true⟩ s₀ s1 := .foldl hs fun _ _ ht => .ite ht.destroyIndex ht
  have hs2 : Keeps ⟨md, ck, lb, true, true⟩ s₀ s2 := .foldl hs1 fun _ _ ht => .ite ht.cancelGate ht
  have hdoMap : ∀ t, Keeps ⟨md, ck, lb, true, true⟩ s₀ t → Keeps ⟨md, ck, lb, true, true⟩ s₀ (doMap t) := fun _ ht => ht.actMap
  have hdoGates : ∀ t p, Keeps ⟨md, ck, lb, true, true⟩ s₀ t → Keeps ⟨md, ck, lb, true, true⟩ s₀ (doGates t p) :=
    fun _ _ ht => .foldl ht fun _ _ ht => ht.installGate
  have hs2a : Keeps ⟨md, ck, lb, true, true⟩ s₀ s2a := .ite (hdoMap _ hs2) hs2
  have hs2b : Keeps ⟨md, ck, lb, true, true⟩ s₀ s2b := hdoGates _ _ hs2a
  have hs3 : Keeps ⟨md, ck, lb, true, true⟩ s₀ s3 := .foldl hs2b fun _ _ ht => ht.createIndex
  have hs4 : Keeps ⟨md, ck, lb, true, true⟩ s₀ s4 := .foldl hs3 fun _ _ ht => ht.actProgram
  have hs5 : Keeps ⟨md, ck, lb, true, true⟩ s₀ s5 := hdoGates _ _ hs4
  have hs6 : Keeps ⟨md, ck, lb, true, true⟩ s₀ s6 := .ite hs5 (hdoMap _ hs5)
  have hs7 : Keeps ⟨md, ck, lb, true, true⟩ s₀ s7 := .ite hs6.other hs6
  exact hs7.actFirmware

theorem Keeps.acceptCommit {a : State} (ha : Keeps ⟨md, ck, lb, true, true⟩ s₀ a) :
    Keeps ⟨md, ck, lb, true, true⟩ s₀ (s.acceptCommit a) := by
  unfold State.acceptCommit
  exact ha.others.setResult.setReg.doActions.followConfig.settleInstant

theorem Keeps.judge (hs : Keeps ⟨md, ck, lb, true, true⟩ s₀ s) : Keeps ⟨md, ck, lb, true, true⟩ s₀ s.judge := by
  unfold State.judge
  extract_lets a
  split
  · exact hs.refuseOwn.clearActions
  · split
    · exact hs.refusePool.clearActions
    · exact .acceptCommit hs.adopted

theorem Keeps.endCommit (hs : Keeps ⟨md, ck, lb, true, true⟩ s₀ s) : Keeps ⟨md, ck, lb, true, true⟩ s₀ s.endCommit := by
  unfold State.endCommit
  extract_lets c src s1 s2
  have hsrc : Keeps ⟨md, ck, lb, true, true⟩ s₀ src := hs.judge
  have hs1 : Keeps ⟨md, ck, lb, true, true⟩ s₀ s1 := hsrc.others
  have hs2 : Keeps ⟨md, ck, lb, true, true⟩ s₀ s2 := hs1.bump.hqEvent
  exact .ite hs2.requestDiscard (.ite hs2.requestGo hs2)

theorem execCommitDone_answers (hs : Keeps ⟨md, ck, lb, true, true⟩ s₀ s) :
    Answers ⟨md, ck, lb, true, true⟩ s₀ (execCommitDone s) := by
  unfold execCommitDone
  exact .next (.ite hs.endCommit hs)

theorem Keeps.commitWith (hs : Keeps ⟨md, ck, lb, true, true⟩ s₀ s) {key act : ℕ} {set : U64 → U64} :
    Keeps ⟨md, ck, lb, true, true⟩ s₀ (s.commitWith key act set) := by
  unfold State.commitWith
  extract_lets page off
  exact .ite hs (.ite hs.dropWrite.dropWrite (.ite (.ite hs.endCommit hs.dropWrite) hs.stage.requestGo.endCommit))

theorem execIndexCreate_answers (hs : Keeps ⟨md, ck, lb, true, true⟩ s₀ s) {idx : Fin 32} :
    Answers ⟨md, ck, lb, true, true⟩ s₀ (execIndexCreate idx s) := by
  unfold execIndexCreate
  exact .next hs.commitWith

theorem execIndexDestroy_answers (hs : Keeps ⟨md, ck, lb, true, true⟩ s₀ s) {idx : Fin 32} :
    Answers ⟨md, ck, lb, true, true⟩ s₀ (execIndexDestroy idx s) := by
  unfold execIndexDestroy
  exact .next hs.commitWith

theorem execProgramLoad_answers (hs : Keeps ⟨md, ck, lb, true, true⟩ s₀ s) {slot : Fin 8} :
    Answers ⟨md, ck, lb, true, true⟩ s₀ (execProgramLoad slot s) := by
  unfold execProgramLoad
  exact .next hs.commitWith

theorem execProgramRemove_answers (hs : Keeps ⟨md, ck, lb, true, true⟩ s₀ s) {slot : Fin 8} :
    Answers ⟨md, ck, lb, true, true⟩ s₀ (execProgramRemove slot s) := by
  unfold execProgramRemove
  exact .next hs.commitWith

theorem execGateListInstall_answers (hs : Keeps ⟨md, ck, lb, true, true⟩ s₀ s) {pt : Fin 185} :
    Answers ⟨md, ck, lb, true, true⟩ s₀ (execGateListInstall pt s) := by
  unfold execGateListInstall
  exact .next hs.commitWith

theorem execGateListCancel_answers (hs : Keeps ⟨md, ck, lb, true, true⟩ s₀ s) {pt : Fin 185} :
    Answers ⟨md, ck, lb, true, true⟩ s₀ (execGateListCancel pt s) := by
  unfold execGateListCancel
  exact .next hs.commitWith

theorem execSliceMapInstall_answers (hs : Keeps ⟨md, ck, lb, true, true⟩ s₀ s) :
    Answers ⟨md, ck, lb, true, true⟩ s₀ (execSliceMapInstall s) := by
  unfold execSliceMapInstall
  exact .next hs.commitWith

theorem execSliceMapCancel_answers (hs : Keeps ⟨md, ck, lb, true, true⟩ s₀ s) :
    Answers ⟨md, ck, lb, true, true⟩ s₀ (execSliceMapCancel s) := by
  unfold execSliceMapCancel
  exact .next hs.commitWith

theorem execCisternFormat_answers (hs : Keeps ⟨md, ck, lb, true, true⟩ s₀ s) :
    Answers ⟨md, ck, lb, true, true⟩ s₀ (execCisternFormat s) := by
  unfold execCisternFormat
  exact .next hs.commitWith

theorem execFwStage_answers (hs : Keeps ⟨md, ck, lb, true, true⟩ s₀ s) : Answers ⟨md, ck, lb, true, true⟩ s₀ (execFwStage s) := by
  unfold execFwStage
  exact .next hs.commitWith

theorem execFwCancel_answers (hs : Keeps ⟨md, ck, lb, true, true⟩ s₀ s) : Answers ⟨md, ck, lb, true, true⟩ s₀ (execFwCancel s) := by
  unfold execFwCancel
  exact .next hs.commitWith

theorem execFwRaiseSvn_answers (hs : Keeps ⟨md, ck, lb, true, true⟩ s₀ s) :
    Answers ⟨md, ck, lb, true, true⟩ s₀ (execFwRaiseSvn s) := by
  unfold execFwRaiseSvn
  exact .next hs.commitWith

/-! ### Machine/Taking -/

theorem Keeps.request (hs : Keeps ⟨md, ck, lb, true, true⟩ s₀ s) {op : ℕ} {src : Source} {h : ReqHdr} {payload : List Byte} :
    Answers ⟨md, ck, lb, true, true⟩ s₀ (s.request op src h payload) := by
  unfold State.request
  extract_lets s1
  have hs1 : Keeps ⟨md, ck, lb, true, true⟩ s₀ s1 := hs.fireDue
  exact .next (.ite hs1.offer hs1)

theorem execSearch_answers (hs : Keeps ⟨md, ck, lb, true, true⟩ s₀ s) {src : Source} {hdr : ReqHdr} {payload : List Byte} :
    Answers ⟨md, ck, lb, true, true⟩ s₀ (execSearch src hdr payload s) := by
  unfold execSearch
  exact hs.request

theorem execSearchBatch_answers (hs : Keeps ⟨md, ck, lb, true, true⟩ s₀ s) {src : Source} {hdr : ReqHdr} {payload : List Byte} :
    Answers ⟨md, ck, lb, true, true⟩ s₀ (execSearchBatch src hdr payload s) := by
  unfold execSearchBatch
  exact hs.request

theorem execGather_answers (hs : Keeps ⟨md, ck, lb, true, true⟩ s₀ s) {src : Source} {hdr : ReqHdr} {payload : List Byte} :
    Answers ⟨md, ck, lb, true, true⟩ s₀ (execGather src hdr payload s) := by
  unfold execGather
  exact hs.request

theorem execScatter_answers (hs : Keeps ⟨md, ck, lb, true, true⟩ s₀ s) {src : Source} {hdr : ReqHdr} {payload : List Byte} :
    Answers ⟨md, ck, lb, true, true⟩ s₀ (execScatter src hdr payload s) := by
  unfold execScatter
  exact hs.request

theorem execUpsert_answers (hs : Keeps ⟨md, ck, lb, true, true⟩ s₀ s) {src : Source} {hdr : ReqHdr} {payload : List Byte} :
    Answers ⟨md, ck, lb, true, true⟩ s₀ (execUpsert src hdr payload s) := by
  unfold execUpsert
  exact hs.request

theorem execDelete_answers (hs : Keeps ⟨md, ck, lb, true, true⟩ s₀ s) {src : Source} {hdr : ReqHdr} {payload : List Byte} :
    Answers ⟨md, ck, lb, true, true⟩ s₀ (execDelete src hdr payload s) := by
  unfold execDelete
  exact hs.request

theorem execEpochScheduleFlip_answers (hs : Keeps ⟨md, ck, lb, true, true⟩ s₀ s) {src : Source} {hdr : ReqHdr} {payload : List Byte} :
    Answers ⟨md, ck, lb, true, true⟩ s₀ (execEpochScheduleFlip src hdr payload s) := by
  unfold execEpochScheduleFlip
  exact hs.request

theorem execEpochScheduleCancel_answers (hs : Keeps ⟨md, ck, lb, true, true⟩ s₀ s) {src : Source} {hdr : ReqHdr} {payload : List Byte} :
    Answers ⟨md, ck, lb, true, true⟩ s₀ (execEpochScheduleCancel src hdr payload s) := by
  unfold execEpochScheduleCancel
  exact hs.request

theorem execCompact_answers (hs : Keeps ⟨md, ck, lb, true, true⟩ s₀ s) {src : Source} {hdr : ReqHdr} {payload : List Byte} :
    Answers ⟨md, ck, lb, true, true⟩ s₀ (execCompact src hdr payload s) := by
  unfold execCompact
  exact hs.request

theorem execJoinProbe_answers (hs : Keeps ⟨md, ck, lb, true, true⟩ s₀ s) {src : Source} {hdr : ReqHdr} {payload : List Byte} :
    Answers ⟨md, ck, lb, true, true⟩ s₀ (execJoinProbe src hdr payload s) := by
  unfold execJoinProbe
  exact hs.request

theorem execJoinSelf_answers (hs : Keeps ⟨md, ck, lb, true, true⟩ s₀ s) {src : Source} {hdr : ReqHdr} {payload : List Byte} :
    Answers ⟨md, ck, lb, true, true⟩ s₀ (execJoinSelf src hdr payload s) := by
  unfold execJoinSelf
  exact hs.request

theorem execClusterStepSums_answers (hs : Keeps ⟨md, ck, lb, true, true⟩ s₀ s) {src : Source} {hdr : ReqHdr} {payload : List Byte} :
    Answers ⟨md, ck, lb, true, true⟩ s₀ (execClusterStepSums src hdr payload s) := by
  unfold execClusterStepSums
  exact hs.request

theorem execClusterStepApply_answers (hs : Keeps ⟨md, ck, lb, true, true⟩ s₀ s) {src : Source} {hdr : ReqHdr} {payload : List Byte} :
    Answers ⟨md, ck, lb, true, true⟩ s₀ (execClusterStepApply src hdr payload s) := by
  unfold execClusterStepApply
  exact hs.request

theorem execPour_answers (hs : Keeps ⟨md, ck, lb, true, true⟩ s₀ s) {src : Source} {hdr : ReqHdr} {payload : List Byte} :
    Answers ⟨md, ck, lb, true, true⟩ s₀ (execPour src hdr payload s) := by
  unfold execPour
  exact hs.request

theorem execTopk_answers (hs : Keeps ⟨md, ck, lb, true, true⟩ s₀ s) {src : Source} {hdr : ReqHdr} {payload : List Byte} :
    Answers ⟨md, ck, lb, true, true⟩ s₀ (execTopk src hdr payload s) := by
  unfold execTopk
  exact hs.request

theorem execRerankPart_answers (hs : Keeps ⟨md, ck, lb, true, true⟩ s₀ s) {port : Fin 8} {src : U64} {body : List Byte} :
    Answers ⟨md, ck, lb, true, true⟩ s₀ (execRerankPart port src body s) := by
  unfold execRerankPart
  exact .next hs.fireDue.partArrives

theorem execGatherPart_answers (hs : Keeps ⟨md, ck, lb, true, true⟩ s₀ s) {port : Fin 8} {src : U64} {body : List Byte} :
    Answers ⟨md, ck, lb, true, true⟩ s₀ (execGatherPart port src body s) := by
  unfold execGatherPart
  exact .next hs.fireDue.partArrives

end Sys2Proof.Machine
end

section
/-! SUPPORT. What every command keeps, and the statements about every command and every step that follow from it. -/

set_option Elab.async false

namespace Sys2Proof.Machine
variable {s t : State}

/-- The commands that may move the count or the lock state. -/
inductive MovesClock : Instr → Prop
  | referenceEdge : MovesClock .referenceEdge
  | syncPulse b phase : MovesClock (.syncPulse b phase)
  | keeperCountWord : MovesClock .keeperCountWord
  | refLost b : MovesClock (.refLost b)
  | refFreqInterval b hz : MovesClock (.refFreqInterval b hz)
  | refGoodInterval b gap hz : MovesClock (.refGoodInterval b gap hz)
  | acquireTimeout : MovesClock .acquireTimeout
  | holdoverLimit : MovesClock .holdoverLimit
  | bringupStepDone basin ohms media res : MovesClock (.bringupStepDone basin ohms media res)
  | pwrokRise rails : MovesClock (.pwrokRise rails)
  | pwrokFall : MovesClock .pwrokFall
  | resetNFall long : MovesClock (.resetNFall long)
  | standbyPowerUp : MovesClock .standbyPowerUp

/-- A command answers a state kept in form, with the clock where it was unless the command may move it. -/
def KeepsForm (i : Instr) (s : State) : Prop :=
  Answers ⟨true, true, false, true, true⟩ s (exec i s) ∧ (MovesClock i ∨ Answers ⟨true, false, false, true, true⟩ s (exec i s))

theorem KeepsForm.quiet {i : Instr} (a : ∀ c, Answers ⟨true, c, false, true, true⟩ s (exec i s)) : KeepsForm i s := ⟨a true, .inr (a false)⟩

theorem KeepsForm.clock {i : Instr} (a : Answers ⟨true, true, false, true, true⟩ s (exec i s)) (m : MovesClock i) : KeepsForm i s := ⟨a, .inl m⟩

/-- Every command answers a next state, and keeps what the relation says. -/
theorem exec_keepsForm (i : Instr) (s : State) : KeepsForm i s := by
  cases i with
  | search => exact .quiet fun _ => execSearch_answers (.refl s)
  | searchBatch => exact .quiet fun _ => execSearchBatch_answers (.refl s)
  | gather => exact .quiet fun _ => execGather_answers (.refl s)
  | scatter => exact .quiet fun _ => execScatter_answers (.refl s)
  | upsert => exact .quiet fun _ => execUpsert_answers (.refl s)
  | delete => exact .quiet fun _ => execDelete_answers (.refl s)
  | epochScheduleFlip => exact .quiet fun _ => execEpochScheduleFlip_answers (.refl s)
  | epochScheduleCancel => exact .quiet fun _ => execEpochScheduleCancel_answers (.refl s)
  | compact => exact .quiet fun _ => execCompact_answers (.refl s)
  | joinProbe => exact .quiet fun _ => execJoinProbe_answers (.refl s)
  | joinSelf => exact .quiet fun _ => execJoinSelf_answers (.refl s)
  | clusterStepSums => exact .quiet fun _ => execClusterStepSums_answers (.refl s)
  | clusterStepApply => exact .quiet fun _ => execClusterStepApply_answers (.refl s)
  | pour => exact .quiet fun _ => execPour_answers (.refl s)
  | topk => exact .quiet fun _ => execTopk_answers (.refl s)
  | phaseComplete => exact .quiet fun _ => execPhaseComplete_answers (.refl s)
  | phaseFault => exact .quiet fun _ => execPhaseFault_answers (.refl s)
  | deadlineArrival => exact .quiet fun _ => execDeadlineArrival_answers (.refl s)
  | responseDrop => exact .quiet fun _ => execResponseDrop_answers (.refl s)
  | rerankPart => exact .quiet fun _ => execRerankPart_answers (.refl s)
  | rerankReply port src => exact .quiet fun _ => execRerankReply_answers (port := port) (src := src) (.refl s)
  | gatherPart => exact .quiet fun _ => execGatherPart_answers (.refl s)
  | gatherReply port src => exact .quiet fun _ => execGatherReply_answers (port := port) (src := src) (.refl s)
  | admissionFrame port src => exact .quiet fun _ => execAdmissionFrame_answers (port := port) (src := src) (.refl s)
  | partResend => exact .quiet fun _ => execPartResend_answers (.refl s)
  | urdunFrame => exact .quiet fun _ => execUrdunFrame_answers (.refl s)
  | ack => exact .quiet fun _ => execAck_answers (.refl s)
  | nack => exact .quiet fun _ => execNack_answers (.refl s)
  | credit => exact .quiet fun _ => execCredit_answers (.refl s)
  | count => exact .quiet fun _ => execCount_answers (.refl s)
  | ackTimeout => exact .quiet fun _ => execAckTimeout_answers (.refl s)
  | reassemblyTimeout => exact .quiet fun _ => execReassemblyTimeout_answers (.refl s)
  | laneInterval => exact .quiet fun _ => execLaneInterval_answers (.refl s)
  | lossOfSignal => exact .quiet fun _ => execLossOfSignal_answers (.refl s)
  | portTrainingDone => exact .quiet fun _ => execPortTrainingDone_answers (.refl s)
  | portRetrain => exact .quiet fun _ => execPortRetrain_answers (.refl s)
  | spareReq => exact .quiet fun _ => execSpareReq_answers (.refl s)
  | refLost => exact .clock (execRefLost_answers (.refl s)) (.refLost _)
  | refFreqInterval => exact .clock (execRefFreqInterval_answers (.refl s)) (.refFreqInterval _ _)
  | refGoodInterval => exact .clock (execRefGoodInterval_answers (.refl s)) (.refGoodInterval _ _ _)
  | syncPulse => exact .clock (execSyncPulse_answers (.refl s)) (.syncPulse _ _)
  | syncTimeout => exact .quiet fun _ => execSyncTimeout_answers (.refl s)
  | keeperCountWord => exact .clock (execKeeperCountWord_answers (.refl s)) .keeperCountWord
  | acquireTimeout => exact .clock (execAcquireTimeout_answers (.refl s)) .acquireTimeout
  | holdoverLimit => exact .clock (execHoldoverLimit_answers (.refl s)) .holdoverLimit
  | heartbeatCheck => exact .quiet fun _ => execHeartbeatCheck_answers (.refl s)
  | epochFlip => exact .quiet fun _ => execEpochFlip_answers (.refl s)
  | gateTakeover => exact .quiet fun _ => execGateTakeover_answers (.refl s)
  | mapSwitch => exact .quiet fun _ => execMapSwitch_answers (.refl s)
  | sealBegin => exact .quiet fun _ => execSealBegin_answers (.refl s)
  | drainEnd => exact .quiet fun _ => execDrainEnd_answers (.refl s)
  | batchWindowClose => exact .quiet fun _ => execBatchWindowClose_answers (.refl s)
  | waterlineExchangeRunnel => exact .quiet fun _ => execWaterlineExchangeRunnel_answers (.refl s)
  | waterlineExchangeHeadworks => exact .quiet fun _ => execWaterlineExchangeHeadworks_answers (.refl s)
  | weirPass => exact .quiet fun _ => execWeirPass_answers (.refl s)
  | rillDispatch => exact .quiet fun _ => execRillDispatch_answers (.refl s)
  | rillImageLoad => exact .quiet fun _ => execRillImageLoad_answers (.refl s)
  | rillTransferDone => exact .quiet fun _ => execRillTransferDone_answers (.refl s)
  | rillWait => exact .quiet fun _ => execRillWait_answers (.refl s)
  | flagTimeout => exact .quiet fun _ => execFlagTimeout_answers (.refl s)
  | stall => exact .quiet fun _ => execStall_answers (.refl s)
  | barrierArrive => exact .quiet fun _ => execBarrierArrive_answers (.refl s)
  | barrierTimeout => exact .quiet fun _ => execBarrierTimeout_answers (.refl s)
  | mailboxSend => exact .quiet fun _ => execMailboxSend_answers (.refl s)
  | messageDelivery => exact .quiet fun _ => execMessageDelivery_answers (.refl s)
  | ringSlotRelease => exact .quiet fun _ => execRingSlotRelease_answers (.refl s)
  | bridgeFlitError => exact .quiet fun _ => execBridgeFlitError_answers (.refl s)
  | pumphouseHeartbeat => exact .quiet fun _ => execPumphouseHeartbeat_answers (.refl s)
  | spact => exact .quiet fun _ => execSpact_answers (.refl s)
  | spseg => exact .quiet fun _ => execSpseg_answers (.refl s)
  | sppre => exact .quiet fun _ => execSppre_answers (.refl s)
  | spload => exact .quiet fun _ => execSpload_answers (.refl s)
  | spwl => exact .quiet fun _ => execSpwl_answers (.refl s)
  | spblk => exact .quiet fun _ => execSpblk_answers (.refl s)
  | spfeed => exact .quiet fun _ => execSpfeed_answers (.refl s)
  | spdrain => exact .quiet fun _ => execSpdrain_answers (.refl s)
  | spstat => exact .quiet fun _ => execSpstat_answers (.refl s)
  | spclr => exact .quiet fun _ => execSpclr_answers (.refl s)
  | spend => exact .quiet fun _ => execSpend_answers (.refl s)
  | rawrd => exact .quiet fun _ => execRawrd_answers (.refl s)
  | refreshDue => exact .quiet fun _ => execRefreshDue_answers (.refl s)
  | scrubRun => exact .quiet fun _ => execScrubRun_answers (.refl s)
  | migrationInterval => exact .quiet fun _ => execMigrationInterval_answers (.refl s)
  | migrationCopyDone => exact .quiet fun _ => execMigrationCopyDone_answers (.refl s)
  | hbmPatrol => exact .quiet fun _ => execHbmPatrol_answers (.refl s)
  | hbmUncorrectableRead => exact .quiet fun _ => execHbmUncorrectableRead_answers (.refl s)
  | laneRemap => exact .quiet fun _ => execLaneRemap_answers (.refl s)
  | hbmTempRead => exact .quiet fun _ => execHbmTempRead_answers (.refl s)
  | lowerTierReadDone => exact .quiet fun _ => execLowerTierReadDone_answers (.refl s)
  | readAroundStart => exact .quiet fun _ => execReadAroundStart_answers (.refl s)
  | demotion => exact .quiet fun _ => execDemotion_answers (.refl s)
  | pageClean => exact .quiet fun _ => execPageClean_answers (.refl s)
  | backingImageWrite => exact .quiet fun _ => execBackingImageWrite_answers (.refl s)
  | nandCommandDone => exact .quiet fun _ => execNandCommandDone_answers (.refl s)
  | readSuspend => exact .quiet fun _ => execReadSuspend_answers (.refl s)
  | lunTimeout => exact .quiet fun _ => execLunTimeout_answers (.refl s)
  | programFailure => exact .quiet fun _ => execProgramFailure_answers (.refl s)
  | eraseFailure => exact .quiet fun _ => execEraseFailure_answers (.refl s)
  | stripeClose => exact .quiet fun _ => execStripeClose_answers (.refl s)
  | reclaim => exact .quiet fun _ => execReclaim_answers (.refl s)
  | cisternPatrol => exact .quiet fun _ => execCisternPatrol_answers (.refl s)
  | relocationSwitch => exact .quiet fun _ => execRelocationSwitch_answers (.refl s)
  | lunRebuild => exact .quiet fun _ => execLunRebuild_answers (.refl s)
  | lunTempRead => exact .quiet fun _ => execLunTempRead_answers (.refl s)
  | systemAreaWrite => exact .quiet fun _ => execSystemAreaWrite_answers (.refl s)
  | unitBoundary => exact .quiet fun _ => execUnitBoundary_answers (.refl s)
  | creditRefill => exact .quiet fun _ => execCreditRefill_answers (.refl s)
  | gateWindowEnd => exact .quiet fun _ => execGateWindowEnd_answers (.refl s)
  | sluiceParityError => exact .quiet fun _ => execSluiceParityError_answers (.refl s)
  | resourceRelease => exact .quiet fun _ => execResourceRelease_answers (.refl s)
  | drainMaxExpiry => exact .quiet fun _ => execDrainMaxExpiry_answers (.refl s)
  | replicaPullDone => exact .quiet fun _ => execReplicaPullDone_answers (.refl s)
  | granulePagesMoved => exact .quiet fun _ => execGranulePagesMoved_answers (.refl s)
  | coalescerWindowFree => exact .quiet fun _ => execCoalescerWindowFree_answers (.refl s)
  | sqTailDoorbell => exact .quiet fun _ => execSqTailDoorbell_answers (.refl s)
  | hostRequestFetch => exact .quiet fun _ => execHostRequestFetch_answers (.refl s)
  | cqHeadDoorbell => exact .quiet fun _ => execCqHeadDoorbell_answers (.refl s)
  | msixCoalesceTimeout => exact .quiet fun _ => execMsixCoalesceTimeout_answers (.refl s)
  | queueConfigWrite => exact .quiet fun _ => execQueueConfigWrite_answers (.refl s)
  | functionLevelReset => exact .quiet fun _ => execFunctionLevelReset_answers (.refl s)
  | hotReset => exact .quiet fun _ => execHotReset_answers (.refl s)
  | hostCommitGo => exact .quiet fun _ => execHostCommitGo_answers (.refl s)
  | hostCommitDiscard => exact .quiet fun _ => execHostCommitDiscard_answers (.refl s)
  | regReadLatch => exact .quiet fun _ => execRegReadLatch_answers (.refl s)
  | registerWrite => exact .quiet fun _ => execRegisterWrite_answers (.refl s)
  | dipFillStart => exact .quiet fun _ => execDipFillStart_answers (.refl s)
  | dipFillDone => exact .quiet fun _ => execDipFillDone_answers (.refl s)
  | dipDataRead => exact .quiet fun _ => execDipDataRead_answers (.refl s)
  | dipDataWrite => exact .quiet fun _ => execDipDataWrite_answers (.refl s)
  | dipBurstRead => exact .quiet fun _ => execDipBurstRead_answers (.refl s)
  | dipBurstWrite => exact .quiet fun _ => execDipBurstWrite_answers (.refl s)
  | indexCreate => exact .quiet fun _ => execIndexCreate_answers (.refl s)
  | indexLoadDone => exact .quiet fun _ => execIndexLoadDone_answers (.refl s)
  | indexDestroy => exact .quiet fun _ => execIndexDestroy_answers (.refl s)
  | indexDestroyDone => exact .quiet fun _ => execIndexDestroyDone_answers (.refl s)
  | programLoad => exact .quiet fun _ => execProgramLoad_answers (.refl s)
  | programLoadDone => exact .quiet fun _ => execProgramLoadDone_answers (.refl s)
  | programRemove => exact .quiet fun _ => execProgramRemove_answers (.refl s)
  | programRemoveDone => exact .quiet fun _ => execProgramRemoveDone_answers (.refl s)
  | gateListInstall => exact .quiet fun _ => execGateListInstall_answers (.refl s)
  | gateListCancel => exact .quiet fun _ => execGateListCancel_answers (.refl s)
  | sliceMapInstall => exact .quiet fun _ => execSliceMapInstall_answers (.refl s)
  | sliceMapCancel => exact .quiet fun _ => execSliceMapCancel_answers (.refl s)
  | cisternFormat => exact .quiet fun _ => execCisternFormat_answers (.refl s)
  | formatDone => exact .quiet fun _ => execFormatDone_answers (.refl s)
  | fwStage => exact .quiet fun _ => execFwStage_answers (.refl s)
  | fwStageDone => exact .quiet fun _ => execFwStageDone_answers (.refl s)
  | fwCancel => exact .quiet fun _ => execFwCancel_answers (.refl s)
  | fwRaiseSvn => exact .quiet fun _ => execFwRaiseSvn_answers (.refl s)
  | injectWeirParity => exact .quiet fun _ => execInjectWeirParity_answers (.refl s)
  | injectRillTimeout => exact .quiet fun _ => execInjectRillTimeout_answers (.refl s)
  | injectRillScrEcc => exact .quiet fun _ => execInjectRillScrEcc_answers (.refl s)
  | injectCascResidue => exact .quiet fun _ => execInjectCascResidue_answers (.refl s)
  | injectSpoutCheck => exact .quiet fun _ => execInjectSpoutCheck_answers (.refl s)
  | injectMemSlow => exact .quiet fun _ => execInjectMemSlow_answers (.refl s)
  | injectMemUe => exact .quiet fun _ => execInjectMemUe_answers (.refl s)
  | injectCistUe => exact .quiet fun _ => execInjectCistUe_answers (.refl s)
  | injectCistHigh => exact .quiet fun _ => execInjectCistHigh_answers (.refl s)
  | injectCistTimeout => exact .quiet fun _ => execInjectCistTimeout_answers (.refl s)
  | injectLaneLos => exact .quiet fun _ => execInjectLaneLos_answers (.refl s)
  | injectUrdCrc => exact .quiet fun _ => execInjectUrdCrc_answers (.refl s)
  | pwrokRise => exact .clock (execPwrokRise_answers (.refl s)) (.pwrokRise _)
  | pwrokFall => exact .clock (execPwrokFall_answers (.refl s)) .pwrokFall
  | resetNFall => exact .clock (execResetNFall_answers (.refl s)) (.resetNFall _)
  | resetNRise => exact .quiet fun _ => execResetNRise_answers (.refl s)
  | resetHoldEnd => exact .quiet fun _ => execResetHoldEnd_answers (.refl s)
  | standbyPowerUp => exact .clock (execStandbyPowerUp_answers (.refl s)) .standbyPowerUp
  | bringupStepDone => exact .clock (execBringupStepDone_answers (.refl s)) (.bringupStepDone _ _ _ _)
  | bringupStepLimit => exact .quiet fun _ => execBringupStepLimit_answers (.refl s)
  | restartStepDone => exact .quiet fun _ => execRestartStepDone_answers (.refl s)
  | restartLimit => exact .quiet fun _ => execRestartLimit_answers (.refl s)
  | restartBasin => exact .quiet fun _ => execRestartBasin_answers (.refl s)
  | injectHang => exact .quiet fun _ => execInjectHang_answers (.refl s)
  | pumphouseRestartRequest => exact .quiet fun _ => execPumphouseRestartRequest_answers (.refl s)
  | sensorSample => exact .quiet fun _ => execSensorSample_answers (.refl s)
  | controlInterval => exact .quiet fun _ => execControlInterval_answers (.refl s)
  | holdClockStop => exact .quiet fun _ => execHoldClockStop_answers (.refl s)
  | throttleNFall => exact .quiet fun _ => execThrottleNFall_answers (.refl s)
  | fastThrottleEnd => exact .quiet fun _ => execFastThrottleEnd_answers (.refl s)
  | advisoryHour => exact .quiet fun _ => execAdvisoryHour_answers (.refl s)
  | logFlush => exact .quiet fun _ => execLogFlush_answers (.refl s)
  | regRead => exact .quiet fun _ => execRegRead_answers (.refl s)
  | logRead => exact .quiet fun _ => execLogRead_answers (.refl s)
  | bundleChunk => exact .quiet fun _ => execBundleChunk_answers (.refl s)
  | bundleEnd => exact .quiet fun _ => execBundleEnd_answers (.refl s)
  | authNonce => exact .quiet fun _ => execAuthNonce_answers (.refl s)
  | authOpenDebug => exact .quiet fun _ => execAuthOpenDebug_answers (.refl s)
  | authBlowPwrokLevel => exact .quiet fun _ => execAuthBlowPwrokLevel_answers (.refl s)
  | authBlowResetnLevel => exact .quiet fun _ => execAuthBlowResetnLevel_answers (.refl s)
  | authRaiseSvn => exact .quiet fun _ => execAuthRaiseSvn_answers (.refl s)
  | injectHot => exact .quiet fun _ => execInjectHot_answers (.refl s)
  | referenceEdge => exact .clock (execReferenceEdge_answers (.refl s)) .referenceEdge
  | signalDetect => exact .quiet fun _ => execSignalDetect_answers (.refl s)
  | bridgeRetrainDone => exact .quiet fun _ => execBridgeRetrainDone_answers (.refl s)
  | pseudoChannelRetrainDone => exact .quiet fun _ => execPseudoChannelRetrainDone_answers (.refl s)
  | channelRetrainDone => exact .quiet fun _ => execChannelRetrainDone_answers (.refl s)
  | commitDone => exact .quiet fun _ => execCommitDone_answers (.refl s)
  | dipFillLate => exact .quiet fun _ => execDipFillLate_answers (.refl s)
  | standbyPowerLoss => exact .quiet fun _ => execStandbyPowerLoss_answers (.refl s)

theorem exec_keeps {i : Instr} (e : exec i s = .next t) : Keeps ⟨true, true, false, true, true⟩ s t := (exec_keepsForm i s).1.keeps e

/-- A property of states that each command keeps, and that does not speak of the commands that wait, is kept by each step. -/
theorem step_preserves {P : State → Prop} (queue : ∀ (s : State) (l : List Instr), P s → P { s with pending := l })
    (keeps : ∀ (i : Instr) (s t : State), exec i s = .next t → P s → P t) (h : P s) (e : step s = .next t) : P t := by
  unfold step at e
  split at e
  next => exact Host.Outcome.next.inj e ▸ h
  next c rest _ => exact keeps c _ _ e (queue s rest h)

end Sys2Proof.Machine

section Settled
open Sys2Proof Sys2Proof.Machine

/-- Settles O1: it is the definition of a step. -/
theorem stepRunsFront : Obligations.StepRunsFront :=
  ⟨fun c rest s e => by unfold step; rw [e], fun s e => by unfold step; rw [e]⟩

/-- Settles O2. -/
theorem everyCommandCompletes : Obligations.EveryCommandCompletes := fun i s => by
  obtain ⟨t, e, _⟩ := (exec_keepsForm i s).1
  exact ⟨t, e, trivial⟩

/-- Settles O3. -/
theorem reqsWellNumbered : Obligations.ReqsWellNumbered :=
  ⟨⟨List.Pairwise.nil, nofun⟩, fun _ _ h e =>
    step_preserves (P := State.Numbered) (fun _ _ h => h) (fun _ _ _ e => (exec_keeps e).numbered) h e⟩

/-- Settles O4. -/
theorem queueUntouched : Obligations.QueueUntouched := fun _ _ _ e => (exec_keeps e).pending

/-- Settles O5. -/
theorem resetLeaves : Obligations.ResetLeaves := by
  refine ⟨⟨?_, fun _ => Basin.legal_reset⟩, rfl, rfl, fun _ => rfl, fun _ => rfl, fun _ => rfl, fun _ => rfl, fun p => ?_, rfl, rfl⟩
  · simp [Rst.Legal, State.reset, Rst.reset]
  · simp [State.pageUp, State.reset, Rst.reset]

/-- Settles O6. -/
theorem modesStayLegal : Obligations.ModesStayLegal := fun _ _ h e =>
  step_preserves (fun _ _ h => h) (fun _ _ _ e h => ⟨(exec_keeps e).phases rfl h.1, (exec_keeps e).legal h.2⟩) h e

/-- Settles O7. -/
theorem regsStayCanonical : Obligations.RegsStayCanonical :=
  ⟨⟨List.Pairwise.nil, nofun⟩, fun _ _ h e =>
    step_preserves (P := fun s => Store.Wf resetReg s.regs) (fun _ _ h => h) (fun _ _ _ e => (exec_keeps e).canonical) h e⟩

/-- Settles O8. -/
theorem recordOnlyGrows : Obligations.RecordOnlyGrows := fun _ _ _ e => (exec_keeps e).record

/-- Settles O9. -/
theorem fusesOnlyBlow : Obligations.FusesOnlyBlow := fun _ _ _ e =>
  have f := (exec_keeps e).fuses
  ⟨f.svn, f.revoked, f.pwrok, f.resetn⟩

end Settled
end

section
/-! SUPPORT. The count and the lock state (R22, R24, R27, R30, R32, R33): what the commands of the receiver, of bring-up and of resets
do to them; every other command leaves both alone. -/

set_option Elab.async false

namespace Sys2Proof.Machine
variable {s t u : State}

/-! ### Transitions of Table 2-3 -/

/-- The lock state stays, or goes as Table 2-3 says. -/
def Lock.Goes (a b : Lock) : Prop :=
  b = a ∨ (a, b) ∈ [(Lock.free, Lock.acquire), (.acquire, .locked), (.acquire, .free), (.locked, .holdover), (.locked, .free),
    (.holdover, .locked), (.holdover, .free)]

theorem Lock.goes_free (a : Lock) : Lock.Goes a .free := by
  cases a <;> simp [Lock.Goes]

/-- A pulse meets a word that is not loaded, is judged for the lock, and may end HOLDOVER. -/
theorem Lock.goes_pulse {a b c d : Lock} (met : b = a ∨ (a = .acquire ∨ a = .locked) ∧ b = .free)
    (judged : c = b ∨ b = .acquire ∧ c = .locked) (left : d = c ∨ c = .holdover ∧ (d = .locked ∨ d = .free)) : Lock.Goes a d := by
  obtain rfl | ⟨rfl | rfl, rfl⟩ := met
  case inl =>
    obtain rfl | ⟨rfl, rfl⟩ := judged
    · obtain rfl | ⟨rfl, rfl | rfl⟩ := left <;> simp [Lock.Goes]
    · simp_all [Lock.Goes]
  all_goals simp_all [Lock.Goes]

/-- The count stands, and the lock state goes as Table 2-3 says. -/
def State.LockGoes (s t : State) : Prop := t.clep.count = s.clep.count ∧ Lock.Goes s.clep.lock t.clep.lock

theorem Keeps.start (s : State) : Keeps ⟨true, false, true, true, true⟩ s s := .refl s

theorem State.LockGoes.of_keeps {m l : Bool} (k : Keeps ⟨m, false, l, true, true⟩ s t) : s.LockGoes t := ⟨(k.clock rfl).1, .inl (k.clock rfl).2⟩

theorem State.LockGoes.after {m l : Bool} (k : Keeps ⟨m, false, l, true, true⟩ s t) (g : t.LockGoes u) : s.LockGoes u := by
  obtain ⟨count, lock⟩ := k.clock rfl
  unfold State.LockGoes at *
  rwa [count, lock] at g

theorem State.LockGoes.then {m l : Bool} (g : s.LockGoes t) (k : Keeps ⟨m, false, l, true, true⟩ t u) : s.LockGoes u := by
  obtain ⟨count, lock⟩ := k.clock rfl
  unfold State.LockGoes at *
  rwa [count, lock]

/-! ### References and time limits -/

@[simp] theorem State.enterHoldover_clep (s : State) : s.enterHoldover.clep =
    { s.clep with lock := .holdover, lossHeld := true, holdFrom := s.now, slew := 0 } := State.logEvent_clep _ _ _ _

theorem State.enterFree_lockGoes (s : State) : s.LockGoes s.enterFree := by
  rw [State.LockGoes, s.enterFree_clep]
  exact ⟨rfl, Lock.goes_free _⟩

theorem State.LockGoes.ite_enterFree {c : Prop} [Decidable c] : s.LockGoes (if c then s.enterFree else s) := by
  split
  · exact s.enterFree_lockGoes
  · exact .of_keeps (Keeps.start s)

theorem State.refLost_lockGoes (s : State) (b : Bool) : s.LockGoes (s.refLost b) := by
  have kept : s.LockGoes s := .of_keeps (Keeps.start s)
  unfold State.refLost
  extract_lets c s1 s2
  have early : Keeps ⟨true, false, true, true, true⟩ s s1 := (Keeps.start s).withClep
  have event : Keeps ⟨true, false, true, true, true⟩ s s2 := early.clepEvent
  split
  · exact kept
  · split
    · exact .of_keeps early
    · split
      · split
        · exact .of_keeps event.switchRef
        · exact .of_keeps event
      · split
        next l =>
          refine .after event ?_
          rw [State.LockGoes, s2.enterHoldover_clep, (event.clock rfl).2.trans l]
          simp [Lock.Goes]
        · exact .after event s2.enterFree_lockGoes
        · exact .of_keeps event

theorem State.leaveHoldover_cases (s : State) : s.leaveHoldover.clep.count = s.clep.count ∧
    (s.leaveHoldover.clep.lock = s.clep.lock ∨
      s.clep.lock = .holdover ∧ (s.leaveHoldover.clep.lock = .locked ∨ s.leaveHoldover.clep.lock = .free)) := by
  by_cases holdover : s.clep.lock = .holdover
  · unfold State.leaveHoldover
    extract_lets c
    split
    · exact ⟨rfl, .inl rfl⟩
    · split
      · exact ⟨rfl, .inl rfl⟩
      · split
        · exact ⟨State.enterLocked_count _, .inr ⟨holdover, .inl (State.enterLocked_lock _)⟩⟩
        · rw [s.enterFree_clep]
          exact ⟨rfl, .inr ⟨holdover, .inr rfl⟩⟩
  · rw [State.leaveHoldover_of_ne holdover]
    exact ⟨rfl, .inl rfl⟩

theorem State.leaveHoldover_lockGoes (s : State) : s.LockGoes s.leaveHoldover :=
  ⟨s.leaveHoldover_cases.1, Lock.goes_pulse (.inl rfl) (.inl rfl) s.leaveHoldover_cases.2⟩

theorem State.refGoodAgain_lockGoes (s : State) (b : Bool) : s.LockGoes (s.refGoodAgain b) := by
  unfold State.refGoodAgain
  extract_lets c s1 pref s2
  have early : Keeps ⟨true, false, true, true, true⟩ s s1 := (Keeps.start s).withClep
  have used : Keeps ⟨true, false, true, true, true⟩ s s2 := .ite early.switchRef early
  exact .after used s2.leaveHoldover_lockGoes

/-! ### Pulses -/

/-- A word is loaded out of FREE, or leaves the count alone and ends at most the lock (R30, R31). -/
theorem State.takeWord_cases (s : State) (w : Time) : (s.clep.lock = .free ∧ s.takeWord w = s.loadCount w) ∨
    ((s.takeWord w).clep.count = s.clep.count ∧ ((s.takeWord w).clep.lock = s.clep.lock ∨
      (s.clep.lock = .acquire ∨ s.clep.lock = .locked) ∧ (s.takeWord w).clep.lock = .free)) := by
  unfold State.takeWord
  extract_lets c s1
  split
  next free =>
    split
    · exact .inl ⟨free, rfl⟩
    · exact .inr ⟨rfl, .inl rfl⟩
  next =>
    split
    · exact .inr ⟨rfl, .inl rfl⟩
    · split
      next third =>
        rw [s1.enterFree_clep]
        exact .inr ⟨rfl, .inr ⟨third.2, rfl⟩⟩
      next => exact .inr ⟨rfl, .inl rfl⟩

theorem State.meetWord_cases (s : State) (b : Bool) (phase : U16) :
    (s.clep.lock = .free ∧ ∃ (v : State) (w : Time), s.clep.pendingWord = some w ∧ v.clep.count = s.clep.count ∧ s.meetWord b phase = v.loadCount w) ∨
    ((s.meetWord b phase).clep.count = s.clep.count ∧ ((s.meetWord b phase).clep.lock = s.clep.lock ∨
      (s.clep.lock = .acquire ∨ s.clep.lock = .locked) ∧ (s.meetWord b phase).clep.lock = .free)) := by
  obtain ⟨e, noted⟩ := s.notePhase_eq b phase
  unfold State.meetWord
  rw [noted]
  dsimp only
  split
  next w _ pending =>
    obtain ⟨free, load⟩ | rest := State.takeWord_cases (s.dropWord e) w
    · exact .inl ⟨free, s.dropWord e, w, pending, rfl, load⟩
    · exact .inr rest
  next => exact .inr ⟨rfl, .inl rfl⟩
  next =>
    split
    · exact .inr ⟨rfl, .inl rfl⟩
    · exact .inr ⟨rfl, .inl rfl⟩

theorem State.lockPulse_cases (s : State) (phase : U16) : (s.lockPulse phase).clep.count = s.clep.count ∧
    ((s.lockPulse phase).clep.lock = s.clep.lock ∨ s.clep.lock = .acquire ∧ (s.lockPulse phase).clep.lock = .locked) := by
  by_cases acquire : s.clep.lock = .acquire
  · rw [State.lockPulse_of_acquire phase acquire]
    split
    · exact ⟨State.enterLocked_count _, .inr ⟨acquire, State.enterLocked_lock _⟩⟩
    · exact ⟨rfl, .inl rfl⟩
  · rw [State.lockPulse_of_ne phase acquire]
    exact ⟨rfl, .inl rfl⟩

/-- A pulse loads the word that is pending out of FREE, and no other pulse moves the count. -/
theorem State.pulse_cases (s : State) (b : Bool) (phase : U16) :
    (s.clep.lock = .free ∧ ∃ (v : State) (w : Time), s.clep.pendingWord = some w ∧ v.clep.count = s.clep.count ∧
      (s.pulseMet b phase).leaveHoldover = v.loadCount w) ∨ s.LockGoes (s.pulseMet b phase).leaveHoldover := by
  have judge := (Keeps.start s).judgePulse (b := b) |>.clock rfl
  have pending : (s.judgePulse b).clep.pendingWord = s.clep.pendingWord := by
    unfold State.judgePulse
    extract_lets c off timely s1 n
    split
    · rw [State.syncLost_clep]
      rfl
    · split
      · rfl
      · split <;> rfl
  have met := State.meetWord_cases (s.judgePulse b) b phase
  rw [judge.1, judge.2, pending] at met
  obtain ⟨free, v, w, word, count, load⟩ | ⟨count, lock⟩ := met
  · rw [State.pulseMet_of_ne b phase (by simp [free]), load, State.leaveHoldover_of_ne (by simp)]
    exact .inl ⟨free, v, w, word, count, rfl⟩
  · refine .inr ?_
    obtain ⟨left, ends⟩ := (s.pulseMet b phase).leaveHoldover_cases
    obtain e | ⟨-, e⟩ := s.pulseMet_cases b phase
    · exact ⟨left.trans (by rw [e, count]), Lock.goes_pulse (by rw [← e] at lock; exact lock) (.inl rfl) ends⟩
    · obtain ⟨stands, locks⟩ := ((s.judgePulse b).meetWord b phase).lockPulse_cases phase
      rw [← e] at stands locks
      exact ⟨left.trans (stands.trans count), Lock.goes_pulse lock locks ends⟩

/-! ### Keeper's own count, resets and power -/

/-- Under internal free-run the count is loaded once from Keeper's own, and the state is LOCKED from then on (R33). -/
theorem State.loadOwn_clock (s : State) : s.loadOwn = s ∨
    (s.clep.countValid = false ∧ s.loadOwn.clep.count = s.ownCount ∧ s.loadOwn.clep.lock = .locked) := by
  unfold State.loadOwn
  split
  · exact .inl rfl
  next fresh =>
    exact .inr ⟨by simpa using fresh, (State.enterLocked_count _).trans (s.stepCount_slotsOnly _).count, State.enterLocked_lock _⟩

theorem State.beginReset_clock {lvl : Level} {ok : Bool} {source : ℕ} :
    (s.beginReset lvl ok source).clep.count = s.clep.count ∧ (s.beginReset lvl ok source).clep.lock = .free := by
  unfold State.beginReset
  extract_lets lv s1 _ _ s2 s3
  have cleared : s1.clep.count = s.clep.count ∧ s1.clep.lock = .free := by
    refine ⟨?_, rfl⟩
    exact apply_ite (fun t : State => t.clep.count) _ _ _ |>.trans (ite_self _)
  have kept : Keeps ⟨true, false, true, true, true⟩ s2 s3 := (Keeps.start s2).logEvent
  have both : s3.clep.count = s.clep.count ∧ s3.clep.lock = .free :=
    ⟨(kept.clock rfl).1.trans cleared.1, (kept.clock rfl).2.trans cleared.2⟩
  split
  · exact both
  · exact both

/-- A reset leaves the count and goes to FREE (R24, R27). -/
theorem State.beginReset_lockGoes {lvl : Level} {ok : Bool} {source : ℕ} : s.LockGoes (s.beginReset lvl ok source) :=
  ⟨State.beginReset_clock.1, State.beginReset_clock.2 ▸ Lock.goes_free _⟩

/-- The count is Keeper's own, loaded under internal free-run, and the state is LOCKED. -/
structure State.LoadsOwn (s t : State) : Prop where
  internal : s.clep.internal = true
  fresh : s.clep.countValid = false
  count : t.clep.count = s.ownCount
  lock : t.clep.lock = .locked

theorem State.loadOwn_lockGoes (internal : s.clep.internal = true) : s.LockGoes s.loadOwn ∨ s.LoadsOwn s.loadOwn := by
  obtain same | ⟨fresh, count, lock⟩ := s.loadOwn_clock
  · exact .inl (same.symm ▸ .of_keeps (Keeps.start s))
  · exact .inr ⟨internal, fresh, count, lock⟩

/-! ### The commands -/

theorem execKeeperCountWord_clock (e : execKeeperCountWord s = .next t) : s.LockGoes t ∨ s.LoadsOwn t := by
  unfold execKeeperCountWord at e
  by_cases own : s.keeper.running = true ∧ s.clep.internal = true ∧ 8 ≤ s.rst.step
  · obtain ⟨running, internal, step⟩ := own
    simp only [running, internal, step, Bool.not_true, if_true, if_false, Bool.false_eq_true] at e
    exact Host.Outcome.next.inj e ▸ State.loadOwn_lockGoes internal
  · have kept : Answers ⟨true, false, true, true, true⟩ s (execKeeperCountWord s) := by
      have hs := Keeps.start s
      unfold execKeeperCountWord
      extract_lets +onlyGivenNames c
      split
      · exact .next hs
      next running =>
        split
        next internal => exact .next (by rw [if_neg fun step => own ⟨by simpa using running, internal, step⟩]; exact hs)
        next =>
          extract_lets s1
          have hs1 : Keeps ⟨true, false, true, true, true⟩ s s1 := hs.withClep
          split
          · exact .next (.ite hs1.logEvent hs1)
          · exact .ite (.next (.ite hs1.withClep hs1)) (.next hs1.logEvent)
    exact .inl (.of_keeps (kept.keeps e))

theorem execBringupStepDone_clock {basin : Option (Fin 2)} {ohms : ℕ} {media : Option Media} {res : StepEnd}
    (e : execBringupStepDone basin ohms media res s = .next t) : s.LockGoes t ∨ (s.rst.step = 8 ∧ s.LoadsOwn t) := by
  have hs := Keeps.start s
  by_cases own : s.rst.step = 8 ∧ s.clep.internal = true
  · obtain ⟨step, internal⟩ := own
    unfold execBringupStepDone at e
    extract_lets +onlyGivenNames n at e
    split at e
    · exact .inl (Host.Outcome.next.inj e ▸ .of_keeps hs)
    next running =>
      split at e
      next code =>
        exact .inl (Host.Outcome.next.inj e ▸ .of_keeps (hs.stepFailed (State.bringing_iff.mp (by simpa using running))))
      next =>
        have n8 : n = 8 := step
        simp only [n8, perBasin] at e
        have begun {u : State} : Keeps ⟨true, false, true, true, true⟩ u (u.beginStep 9) := (Keeps.start u).beginStep nofun
        obtain rfl : s.loadOwn.beginStep 9 = t := by simpa [internal] using e
        obtain goes | loads := State.loadOwn_lockGoes internal
        · exact .inl (goes.then begun)
        · obtain ⟨count, lock⟩ := (begun (u := s.loadOwn)).clock rfl
          exact .inr ⟨step, internal, loads.fresh, count.trans loads.count, lock.trans loads.lock⟩
  · exact .inl (.of_keeps ((execBringupStepDone_answers_of hs fun step internal => absurd ⟨step, internal⟩ own).keeps e))

theorem execPwrokRise_clock {rails : List RailRead} (e : execPwrokRise rails s = .next t) : s.LockGoes t := by
  unfold execPwrokRise at e
  extract_lets both mapped s1 _ s2 at e
  have reset : s.LockGoes s1 := State.beginReset_lockGoes
  have power : Keeps ⟨true, false, true, true, true⟩ s1 s2 := (Keeps.start s1).withRst nofun
  split at e
  · exact Host.Outcome.next.inj e ▸ .of_keeps (Keeps.start s)
  · exact Host.Outcome.next.inj e ▸ reset.then (.ite power (power.endReset rfl nofun))

theorem execPwrokFall_clock (e : execPwrokFall s = .next t) : s.LockGoes t := by
  unfold execPwrokFall at e
  extract_lets s0 _ s1 at e
  split at e
  · exact Host.Outcome.next.inj e ▸ .of_keeps (Keeps.start s)
  · exact Host.Outcome.next.inj e ▸ ⟨rfl, Lock.goes_free _⟩

theorem execResetNFall_clock {long : Bool} (e : execResetNFall long s = .next t) : s.LockGoes t := by
  unfold execResetNFall at e
  extract_lets _ s1 at e
  split at e
  · exact Host.Outcome.next.inj e ▸ .of_keeps (Keeps.start s)
  · have fell : Keeps ⟨true, false, true, true, true⟩ s s1 := (Keeps.start s).withRst nofun
    split at e
    · exact Host.Outcome.next.inj e ▸ .after fell State.beginReset_lockGoes
    · exact Host.Outcome.next.inj e ▸ .of_keeps fell

theorem execStandbyPowerUp_clock (e : execStandbyPowerUp s = .next t) : t.clep.count = 0 ∧ t.clep.lock = s.clep.lock := by
  unfold execStandbyPowerUp at e
  extract_lets k notKpr _ k1 _ s1 at e
  have boot : Keeps ⟨true, false, true, true, true⟩ s1 s1.bootRom := (Keeps.start s1).bootRom
  exact Host.Outcome.next.inj e ▸ boot.clock rfl

theorem execRefGoodInterval_lockGoes {useB gap : Bool} {hz : ℕ} (e : execRefGoodInterval useB gap hz s = .next t) :
    s.LockGoes t := by
  unfold execRefGoodInterval at e
  extract_lets c n at e
  have hs := Keeps.start s
  split at e
  · exact Host.Outcome.next.inj e ▸ .of_keeps hs
  · split at e
    · exact Host.Outcome.next.inj e ▸ s.refGoodAgain_lockGoes useB
    · exact Host.Outcome.next.inj e ▸ .of_keeps hs.withClep

theorem execSyncPulse_clock {b : Bool} {phase : U16} (e : execSyncPulse b phase s = .next t) : s.LockGoes t ∨
    (s.clep.lock = .free ∧ ∃ (v : State) (w : Time), s.clep.pendingWord = some w ∧ v.clep.count = s.clep.count ∧ t = v.loadCount w) := by
  by_cases internal : s.clep.internal = true
  · unfold execSyncPulse at e
    rw [if_pos internal] at e
    exact .inl (Host.Outcome.next.inj e ▸ .of_keeps (Keeps.start s))
  · rw [show execSyncPulse b phase s = _ from exec_syncPulse b phase (by simpa using internal)] at e
    exact Host.Outcome.next.inj e ▸ (s.pulse_cases b phase).symm

theorem Clep.edge_count (c : Clep) : c.edge.count = c.count ∧ 0 < c.slew ∨ c.edge.count = c.count + 1 ∨
    c.edge.count = c.count + 2 ∧ c.slew < 0 := by
  unfold Clep.edge
  extract_lets c1
  split
  · exact .inr (.inl rfl)
  · split
    · exact .inr (.inl rfl)
    · split
      next ahead => exact .inl ⟨rfl, ahead⟩
      next => exact .inr (.inr ⟨rfl, by omega⟩)

/-- What is held to fire late keeps its kind, its time and its arming. -/
theorem State.markMissed_slot (s : State) (old : Option Nat) (n : Nat) : ((s.markMissed old).slot n).kind = (s.slot n).kind ∧
    ((s.markMissed old).slot n).time = (s.slot n).time ∧ ((s.markMissed old).slot n).armed = (s.slot n).armed := by
  simp only [State.slot, Store.get, State.markMissed, State.withClep, Store.find?_map]
  cases Store.find? s.clep.slots n with
  | none => exact ⟨rfl, rfl, rfl⟩
  | some v =>
    simp only [Option.map_some, Option.getD_some]
    split_ifs <;> exact ⟨rfl, rfl, rfl⟩

/-- The slew of a drop never grows, and below `slewPeriod` drops it moves nothing (R32). -/
theorem Clep.edge_slew (c : Clep) : c.edge.slew.natAbs ≤ c.slew.natAbs ∧
    (c.slewRun + 1 < slewPeriod → c.edge.count = c.count + 1) := by
  unfold Clep.edge
  extract_lets c1
  split
  · exact ⟨le_rfl, fun _ => rfl⟩
  · split
    · exact ⟨le_rfl, fun _ => rfl⟩
    next full =>
      split
      · exact ⟨by show (c.slew - 1).natAbs ≤ _; omega, fun h => absurd h full⟩
      · exact ⟨by show (c.slew + 1).natAbs ≤ _; omega, fun h => absurd h full⟩

theorem Clep.edge_of_no_slew {c : Clep} (h : c.slew = 0) : c.edge = { c with ticks := c.ticks + 1, count := c.count + 1 } := by
  unfold Clep.edge
  exact if_pos h

theorem Clep.edge_slots (c : Clep) : c.edge.slots = c.slots := by
  unfold Clep.edge
  extract_lets c1
  repeat' split
  all_goals rfl

/-- An edge of the reference keeps the kind, the time and the arming of every event slot. -/
theorem State.referenceEdge_slot (s : State) (n : Nat) :
    (((s.withClep s.clep.edge).markMissed none).slot n).kind = (s.slot n).kind ∧
      (((s.withClep s.clep.edge).markMissed none).slot n).time = (s.slot n).time ∧
      (((s.withClep s.clep.edge).markMissed none).slot n).armed = (s.slot n).armed := by
  have same : (s.withClep s.clep.edge).slot n = s.slot n := congrArg (Store.get (fun _ => EvSlot.none) · n) s.clep.edge_slots
  rw [← same]
  exact State.markMissed_slot _ none n

theorem Clep.edge_ticks (c : Clep) : c.edge.ticks = c.ticks + 1 := by
  unfold Clep.edge
  extract_lets c1
  repeat' split
  all_goals rfl

/-- A command that may move the count or the lock state loads the count, or leaves it and moves the lock as Table 2-3 says. -/
theorem exec_clock {i : Instr} (e : exec i s = .next t) : s.LockGoes t ∨ i = .referenceEdge ∨ (∃ b p, i = .syncPulse b p) ∨
    i = .keeperCountWord ∨ (∃ b o m r, i = .bringupStepDone b o m r) ∨ i = .standbyPowerUp := by
  obtain moves | quiet := (exec_keepsForm i s).2
  · cases moves with
    | refLost b => exact .inl (Host.Outcome.next.inj e ▸ s.refLost_lockGoes b)
    | refFreqInterval b hz =>
      obtain rfl : (if freqOk hz then s else s.refLost b) = t := Host.Outcome.next.inj e
      split
      · exact .inl (.of_keeps (Keeps.start s))
      · exact .inl (s.refLost_lockGoes b)
    | refGoodInterval b gap hz => exact .inl (execRefGoodInterval_lockGoes e)
    | acquireTimeout => exact .inl (Host.Outcome.next.inj e ▸ .ite_enterFree)
    | holdoverLimit => exact .inl (Host.Outcome.next.inj e ▸ .ite_enterFree)
    | pwrokRise rails => exact .inl (execPwrokRise_clock e)
    | pwrokFall => exact .inl (execPwrokFall_clock e)
    | resetNFall long => exact .inl (execResetNFall_clock e)
    | referenceEdge => exact .inr (.inl rfl)
    | syncPulse b phase => exact .inr (.inr (.inl ⟨b, phase, rfl⟩))
    | keeperCountWord => exact .inr (.inr (.inr (.inl rfl)))
    | bringupStepDone b o m r => exact .inr (.inr (.inr (.inr (.inl ⟨b, o, m, r, rfl⟩))))
    | standbyPowerUp => exact .inr (.inr (.inr (.inr (.inr rfl))))
  · exact .inl (.of_keeps (quiet.keeps e))

end Sys2Proof.Machine

section Settled
open Sys2Proof Sys2Proof.Machine

/-- Settles O28: but for the edge of the reference only the load of a count word, Keeper's own count and the standby power-up move the
count, as every other command keeps it. -/
theorem countFollowsReference : Obligations.CountFollowsReference := by
  refine ⟨fun s => ⟨_, exec_referenceEdge s, rfl, Clep.edge_ticks _, fun still => ?_, (Clep.edge_slew _).2, ?_,
    (Clep.edge_slew _).1, s.referenceEdge_slot⟩, fun i s t e moved => ?_⟩
  · refine ⟨Clep.edge_count_of_no_slew still, ?_⟩
    simp [State.markMissed, State.withClep, Clep.edge_of_no_slew still]
  · obtain ⟨h, -⟩ | h | ⟨h, -⟩ := s.clep.edge_count
    · exact .inl h
    · exact .inr (.inl h)
    · exact .inr (.inr h)
  · obtain ⟨stands, -⟩ | rfl | ⟨b, phase, rfl⟩ | rfl | ⟨b, o, m, r, rfl⟩ | rfl := exec_clock e
    · exact absurd stands moved
    · obtain rfl := Host.Outcome.next.inj ((exec_referenceEdge s).symm.trans e)
      obtain ⟨h, -⟩ | h | h := s.clep.edge_count
      · exact absurd h moved
      · exact .inl h
      · exact .inr h
    · obtain ⟨stands, -⟩ | ⟨free, v, w, pending, count, rfl⟩ := execSyncPulse_clock e
      · exact absurd stands moved
      · have loaded := v.loadCount_slotsOnly w
        refine ⟨free, v.loadCount_lock w, ?_, ?_, by rw [loaded.count]; exact pending⟩
        · rw [loaded.eq]
          exact congrArg (w - ·) count
        · rw [v.loadCount_reg w]
          exact v.clepEvent_bit 7 (by decide)
    · obtain ⟨stands, -⟩ | own := execKeeperCountWord_clock e
      · exact absurd stands moved
      · exact ⟨own.internal, own.fresh, own.count⟩
    · obtain ⟨stands, -⟩ | ⟨step, own⟩ := execBringupStepDone_clock e
      · exact absurd stands moved
      · exact ⟨own.internal, own.fresh, step, own.count⟩
    · exact (execStandbyPowerUp_clock e).1

/-- Settles O29. -/
theorem lockFollowsTable : Obligations.LockFollowsTable := by
  intro i s t e moved
  have table (g : s.LockGoes t) := g.2.resolve_left moved
  obtain g | rfl | ⟨b, phase, rfl⟩ | rfl | ⟨b, o, m, r, rfl⟩ | rfl := exec_clock e
  · exact .inl (table g)
  · obtain rfl := Host.Outcome.next.inj ((exec_referenceEdge s).symm.trans e)
    exact absurd s.clep.edge_lock moved
  · obtain g | ⟨free, v, w, -, -, rfl⟩ := execSyncPulse_clock e
    · exact .inl (table g)
    · simp [free]
  · obtain g | own := execKeeperCountWord_clock e
    · exact .inl (table g)
    · exact .inr ⟨own.internal, own.lock⟩
  · obtain g | ⟨-, own⟩ := execBringupStepDone_clock e
    · exact .inl (table g)
    · exact .inr ⟨own.internal, own.lock⟩
  · exact absurd (execStandbyPowerUp_clock e).2 moved

end Settled
end

section
/-! SUPPORT. What a Weir pass keeps (R167 to R171, R174): the entries of one global ID merge, which is associative and, but for the
payload, commutative; the distinct entries of a row hold for each global ID the merge of its entries; and a pass keeps those that fewer
than its keep count outrank. -/

set_option Elab.async false

namespace Sys2Proof.Machine

/-! ### The entries of one global ID merge -/

/-- Two entries of one global ID, the first met first (R171). -/
def WEnt.merge (v w : WEnt) : WEnt :=
  if v.key < w.key then w else if v.key = w.key then { v with copies := v.copies + w.copies + 1 } else v

theorem WEnt.merge_of_lt {v w : WEnt} (h : v.key < w.key) : v.merge w = w := if_pos h

theorem WEnt.merge_of_gt {v w : WEnt} (h : w.key < v.key) : v.merge w = v := by
  rw [WEnt.merge, if_neg (by omega), if_neg (by omega)]

theorem WEnt.merge_of_eq {v w : WEnt} (h : v.key = w.key) : v.merge w = { v with copies := v.copies + w.copies + 1 } := by
  rw [WEnt.merge, if_neg (by omega), if_pos h]

theorem WEnt.key_merge (v w : WEnt) : (v.merge w).key = max v.key w.key := by
  rcases lt_trichotomy v.key w.key with h | h | h
  · rw [WEnt.merge_of_lt h]
    omega
  · rw [WEnt.merge_of_eq h]
    show v.key = _
    omega
  · rw [WEnt.merge_of_gt h]
    omega

theorem WEnt.gid_merge {v w : WEnt} (h : v.gid = w.gid) : (v.merge w).gid = w.gid := by
  unfold WEnt.merge
  split_ifs
  · rfl
  · exact h
  · exact h

theorem WEnt.merge_assoc (u v w : WEnt) : (u.merge v).merge w = u.merge (v.merge w) := by
  rcases lt_trichotomy u.key v.key with a | a | a <;> rcases lt_trichotomy v.key w.key with b | b | b
  case inl.inl => rw [WEnt.merge_of_lt a, WEnt.merge_of_lt b, WEnt.merge_of_lt (by omega)]
  case inl.inr.inl => rw [WEnt.merge_of_lt a, WEnt.merge_of_eq b, WEnt.merge_of_lt (by exact a)]
  case inl.inr.inr => rw [WEnt.merge_of_lt a, WEnt.merge_of_gt b, WEnt.merge_of_lt a]
  case inr.inl.inl => rw [WEnt.merge_of_eq a, WEnt.merge_of_lt b, WEnt.merge_of_lt (by exact a.trans_lt b), WEnt.merge_of_lt (by omega)]
  case inr.inl.inr.inl =>
    rw [WEnt.merge_of_eq a, WEnt.merge_of_eq b, WEnt.merge_of_eq (by exact a.trans b), WEnt.merge_of_eq (by exact a)]
    simp only [WEnt.mk.injEq, true_and]
    omega
  case inr.inl.inr.inr => rw [WEnt.merge_of_gt b, WEnt.merge_of_eq a, WEnt.merge_of_gt (by exact b.trans_eq a.symm)]
  case inr.inr.inl => rw [WEnt.merge_of_gt a, WEnt.merge_of_lt b]
  case inr.inr.inr.inl => rw [WEnt.merge_of_gt a, WEnt.merge_of_eq b, WEnt.merge_of_gt (by omega), WEnt.merge_of_gt (by exact a)]
  case inr.inr.inr.inr => rw [WEnt.merge_of_gt a, WEnt.merge_of_gt b, WEnt.merge_of_gt (by omega), WEnt.merge_of_gt a]

/-- The merge of what may be missing. -/
def mergeOpt : Option WEnt → Option WEnt → Option WEnt
  | none, y => y
  | some v, none => some v
  | some v, some w => some (v.merge w)

@[simp] theorem mergeOpt_none (x : Option WEnt) : mergeOpt x none = x := by
  cases x <;> rfl

theorem mergeOpt_assoc (x y z : Option WEnt) : mergeOpt (mergeOpt x y) z = mergeOpt x (mergeOpt y z) := by
  cases x with
  | none => rfl
  | some u =>
    cases y with
    | none => rfl
    | some v =>
      cases z with
      | none => rfl
      | some w => exact congrArg some (u.merge_assoc v w)

/-- The merge of a list of entries, in order. -/
def mergeAll (l : List WEnt) : Option WEnt := l.foldl (fun o w => mergeOpt o (some w)) none

theorem foldl_mergeOpt (l : List WEnt) (o : Option WEnt) :
    l.foldl (fun o w => mergeOpt o (some w)) o = mergeOpt o (mergeAll l) := by
  induction l generalizing o with
  | nil => exact (mergeOpt_none o).symm
  | cons w l ih =>
    unfold mergeAll
    rw [List.foldl_cons, List.foldl_cons, ih, ih, mergeOpt_assoc]
    rfl

theorem mergeAll_append (l m : List WEnt) : mergeAll (l ++ m) = mergeOpt (mergeAll l) (mergeAll m) := by
  rw [← foldl_mergeOpt]
  exact List.foldl_append

/-! ### The distinct entries of a row -/

/-- The entry of a global ID. -/
def entOf (l : List WEnt) (g : GlobalId) : Option WEnt := l.find? fun w => decide (w.gid = g)

theorem mem_of_entOf {l : List WEnt} {g : GlobalId} {w : WEnt} (h : entOf l g = some w) : w ∈ l ∧ w.gid = g :=
  ⟨List.mem_of_find?_eq_some h, by simpa using List.find?_some h⟩

/-- A list holds at most one entry of each global ID. -/
def GidsDistinct (l : List WEnt) : Prop := (l.map WEnt.gid).Nodup

theorem entOf_of_mem {l : List WEnt} (d : GidsDistinct l) {w : WEnt} (h : w ∈ l) : entOf l w.gid = some w := by
  induction l with
  | nil => cases h
  | cons v vs ih =>
    obtain ⟨new, rest⟩ := List.nodup_cons.mp d
    unfold entOf
    obtain rfl | old := List.mem_cons.mp h
    · exact List.find?_cons_of_pos (by simp)
    · have differ : v.gid ≠ w.gid := fun e => new (List.mem_map.mpr ⟨w, old, e.symm⟩)
      rw [List.find?_cons_of_neg (by simpa using differ)]
      exact ih rest old

theorem collapseInto_cons (w v : WEnt) (vs : List WEnt) :
    collapseInto w (v :: vs) = if v.gid = w.gid then v.merge w :: vs else v :: collapseInto w vs := rfl

theorem entOf_collapseInto (w : WEnt) (l : List WEnt) (g : GlobalId) :
    entOf (collapseInto w l) g = if w.gid = g then mergeOpt (entOf l g) (some w) else entOf l g := by
  induction l with
  | nil =>
    unfold entOf collapseInto
    split_ifs with h
    · exact List.find?_cons_of_pos (by simpa using h)
    · exact List.find?_cons_of_neg (by simpa using h)
  | cons v vs ih =>
    rw [collapseInto_cons]
    split_ifs with same h h
    · have merged : (v.merge w).gid = w.gid := WEnt.gid_merge same
      unfold entOf
      rw [List.find?_cons_of_pos (by simpa [merged] using h), List.find?_cons_of_pos (by simpa [same] using h)]
      rfl
    · have merged : (v.merge w).gid = w.gid := WEnt.gid_merge same
      unfold entOf
      rw [List.find?_cons_of_neg (by simpa [merged] using h), List.find?_cons_of_neg (by simpa [same] using h)]
    · have differ : v.gid ≠ g := fun e => same (e.trans h.symm)
      rw [if_pos h] at ih
      unfold entOf at ih ⊢
      rw [List.find?_cons_of_neg (by simpa using differ), List.find?_cons_of_neg (by simpa using differ), ih]
    · rw [if_neg h] at ih
      unfold entOf at ih ⊢
      rw [List.find?_cons, List.find?_cons, ih]

theorem gids_collapseInto (w : WEnt) (l : List WEnt) : (collapseInto w l).map WEnt.gid =
    if w.gid ∈ l.map WEnt.gid then l.map WEnt.gid else l.map WEnt.gid ++ [w.gid] := by
  induction l with
  | nil => rfl
  | cons v vs ih =>
    rw [collapseInto_cons]
    by_cases same : v.gid = w.gid
    · have merged : (v.merge w).gid = w.gid := WEnt.gid_merge same
      simp [merged, same]
    · have other : ¬ w.gid = v.gid := fun e => same e.symm
      rw [if_neg same, List.map_cons, ih]
      simp only [List.map_cons, List.mem_cons, other, false_or]
      split_ifs <;> rfl

theorem GidsDistinct.collapseInto {l : List WEnt} (d : GidsDistinct l) (w : WEnt) : GidsDistinct (collapseInto w l) := by
  unfold GidsDistinct at *
  rw [gids_collapseInto]
  split_ifs with h
  · exact d
  · exact List.nodup_append.mpr ⟨d, List.nodup_singleton _, fun a ha b hb e => h (by simp_all)⟩

/-- The entries of a row that are valid and have the global ID `g`. -/
def entsOf (row : List WEnt) (g : GlobalId) : List WEnt :=
  (row.filter fun w => w.gid != emptyGid).filter fun w => decide (w.gid = g)

theorem entsOf_append (a b : List WEnt) (g : GlobalId) : entsOf (a ++ b) g = entsOf a g ++ entsOf b g := by
  simp [entsOf]

theorem collapse_distinct (row : List WEnt) : GidsDistinct (collapse row) :=
  List.foldlRecOn (motive := GidsDistinct) _ _ List.nodup_nil fun _ d w _ => d.collapseInto w

/-- The distinct entry of a global ID is the merge of its entries (R171). -/
theorem entOf_collapse (row : List WEnt) (g : GlobalId) : entOf (collapse row) g = mergeAll (entsOf row g) := by
  have fold (l acc : List WEnt) : entOf (l.foldl (fun acc w => collapseInto w acc) acc) g =
      mergeOpt (entOf acc g) (mergeAll (l.filter fun w => decide (w.gid = g))) := by
    induction l generalizing acc with
    | nil => exact (mergeOpt_none _).symm
    | cons w l ih =>
      rw [List.foldl_cons, ih, entOf_collapseInto]
      by_cases h : w.gid = g
      · rw [if_pos h, List.filter_cons_of_pos (by simpa using h), mergeOpt_assoc, ← List.singleton_append, mergeAll_append]
        rfl
      · rw [if_neg h, List.filter_cons_of_neg (by simpa using h)]
  exact fold _ []

/-- The distinct entry of a row in two parts. -/
theorem entOf_collapse_append (a b : List WEnt) (g : GlobalId) :
    entOf (collapse (a ++ b)) g = mergeOpt (entOf (collapse a) g) (entOf (collapse b) g) := by
  rw [entOf_collapse, entOf_collapse, entOf_collapse, entsOf_append, mergeAll_append]

/-- A property that does not speak of the copy count passes from the entries of a row to its distinct entries. -/
theorem collapse_all {P : WEnt → Prop} {row : List WEnt} (h : ∀ w ∈ row, P w)
    (copies : ∀ w n, P w → P { w with copies := n }) : ∀ w ∈ collapse row, P w := by
  have into (w : WEnt) (hw : P w) (l : List WEnt) (hl : ∀ v ∈ l, P v) : ∀ v ∈ collapseInto w l, P v := by
    induction l with
    | nil => simpa [collapseInto] using hw
    | cons v vs ih =>
      obtain ⟨hv, hvs⟩ := List.forall_mem_cons.mp hl
      unfold collapseInto
      split_ifs
      · exact List.forall_mem_cons.mpr ⟨hw, hvs⟩
      · exact List.forall_mem_cons.mpr ⟨copies v _ hv, hvs⟩
      · exact List.forall_mem_cons.mpr ⟨hv, hvs⟩
      · exact List.forall_mem_cons.mpr ⟨hv, ih hvs⟩
  exact List.foldlRecOn (motive := fun l => ∀ v ∈ l, P v) _ _ nofun
    fun l hl w hw => into w (h w (List.mem_of_mem_filter hw)) l hl

theorem collapse_nonempty {row : List WEnt} {w : WEnt} (h : w ∈ collapse row) : w.gid ≠ emptyGid := by
  have e := entOf_of_mem (collapse_distinct row) h
  rw [entOf_collapse] at e
  intro empty
  have none : entsOf row w.gid = [] := by
    unfold entsOf
    rw [empty, List.filter_eq_nil_iff]
    intro v hv
    simpa using (List.mem_filter.mp hv).2
  rw [none] at e
  cases e

/-- Distinct entries collapse to themselves. -/
theorem entOf_collapse_of_distinct {l : List WEnt} (d : GidsDistinct l) (valid : ∀ w ∈ l, w.gid ≠ emptyGid) (g : GlobalId) :
    entOf (collapse l) g = entOf l g := by
  have valids : (l.filter fun w => w.gid != emptyGid) = l := List.filter_eq_self.mpr fun w hw => by simpa using valid w hw
  rw [entOf_collapse, entsOf, valids]
  induction l with
  | nil => rfl
  | cons v vs ih =>
    obtain ⟨new, rest⟩ := List.nodup_cons.mp d
    unfold entOf
    by_cases h : v.gid = g
    · have others : (vs.filter fun w => decide (w.gid = g)) = [] := by
        rw [List.filter_eq_nil_iff]
        intro w hw e
        exact new (List.mem_map.mpr ⟨w, hw, (by simpa using e : w.gid = g).trans h.symm⟩)
      rw [List.filter_cons_of_pos (by simpa using h), others, List.find?_cons_of_pos (by simpa using h)]
      rfl
    · have valid' : ∀ w ∈ vs, w.gid ≠ emptyGid := fun w hw => valid w (List.mem_cons_of_mem _ hw)
      rw [List.filter_cons_of_neg (by simpa using h), List.find?_cons_of_neg (by simpa using h)]
      exact ih rest valid' (List.filter_eq_self.mpr fun w hw => by simpa using valid' w hw)

/-! ### Order -/

theorem gidKey_lt (g : GlobalId) : gidKey g < 2 ^ 64 := by
  unfold gidKey
  omega

theorem gidKey_inj {g h : GlobalId} (e : gidKey g = gidKey h) : g = h := by
  unfold gidKey at e
  exact BitVec.eq_of_toNat_eq (by omega)

/-- The low bits of a key name its global ID (R90). -/
def WEnt.Keyed (w : WEnt) : Prop := w.key % 2 ^ 64 = gidKey w.gid

theorem WEnt.Keyed.gid_eq {v w : WEnt} (hv : v.Keyed) (hw : w.Keyed) (e : v.key = w.key) : v.gid = w.gid :=
  gidKey_inj (hv.symm.trans (e ▸ hw))

theorem sketchEnt_keyed (h : Nat) (g : GlobalId) : (sketchEnt h g).Keyed := by
  have low := gidKey_lt g
  show ((512 - h) * 2 ^ 64 + gidKey g) % 2 ^ 64 = gidKey g
  omega

theorem scoreEnt_keyed (e : Entry) : (scoreEnt e).Keyed := by
  have low := gidKey_lt e.gid
  show (scoreKey e.score * 2 ^ 64 + gidKey e.gid) % 2 ^ 64 = gidKey e.gid
  omega

theorem insertBy_sorted {α : Type} {key : α → Nat} {x : α} {l : List α} (sorted : l.Pairwise fun a b => key b ≤ key a) :
    (insertBy key x l).Pairwise fun a b => key b ≤ key a := by
  induction l with
  | nil => exact List.pairwise_singleton _ _
  | cons y t ih =>
    obtain ⟨top, rest⟩ := List.pairwise_cons.mp sorted
    unfold insertBy
    split_ifs with h
    · refine List.pairwise_cons.mpr ⟨fun z hz => ?_, sorted⟩
      obtain rfl | old := List.mem_cons.mp hz
      · exact h.le
      · exact (top z old).trans h.le
    · refine List.pairwise_cons.mpr ⟨fun z hz => ?_, ih rest⟩
      obtain rfl | old := List.mem_cons.mp ((insertBy_perm key x t).mem_iff.mp hz)
      · exact not_lt.mp h
      · exact top z old

theorem sortBy_sorted {α : Type} (key : α → Nat) (l : List α) : (sortBy key l).Pairwise fun a b => key b ≤ key a :=
  List.foldlRecOn (motive := fun l : List α => l.Pairwise fun a b => key b ≤ key a) _ _ List.Pairwise.nil fun _ h _ _ => insertBy_sorted h

/-- Distinct entries stand in strictly falling order once they are sorted. -/
theorem sortBy_strict {l : List WEnt} (d : GidsDistinct l) (keyed : ∀ w ∈ l, w.Keyed) :
    (sortBy WEnt.key l).Pairwise fun a b => b.key < a.key := by
  have perm := sortBy_perm WEnt.key l
  have differ : (sortBy WEnt.key l).Pairwise fun a b => a.gid ≠ b.gid := List.pairwise_map.mp ((perm.map _).nodup_iff.mpr d)
  refine ((sortBy_sorted WEnt.key l).and differ).imp_of_mem fun ha hb h => lt_of_le_of_ne h.1 fun e => ?_
  exact h.2 ((keyed _ (perm.mem_iff.mp ha)).gid_eq (keyed _ (perm.mem_iff.mp hb)) e.symm)

/-- A list in strictly falling order is determined by its members. -/
theorem strict_ext {α : Type} {key : α → Nat} {l m : List α} (hl : l.Pairwise fun a b => key b < key a)
    (hm : m.Pairwise fun a b => key b < key a) (perm : l.Perm m) : l = m :=
  perm.eq_of_pairwise (fun _ _ _ _ h h' => absurd h (not_lt.mpr h'.le)) hl hm

/-- The first `k` in strictly falling order are those that fewer than `k` outrank. -/
theorem mem_take_iff {l : List WEnt} (sorted : l.Pairwise fun a b => b.key < a.key) {k : Nat} {w : WEnt} (h : w ∈ l) :
    w ∈ l.take k ↔ l.countP (fun v => decide (w.key < v.key)) < k := by
  induction l generalizing k with
  | nil => cases h
  | cons v vs ih =>
    obtain ⟨top, rest⟩ := List.pairwise_cons.mp sorted
    obtain rfl | old := List.mem_cons.mp h
    · have none : (w :: vs).countP (fun v => decide (w.key < v.key)) = 0 := by
        rw [List.countP_eq_zero]
        intro z hz
        obtain rfl | hz := List.mem_cons.mp hz
        · simp
        · simpa using (top z hz).le
      rw [none]
      cases k with
      | zero => simp
      | succ k => simp
    · have above := top w old
      rw [List.countP_cons_of_pos (by simpa using above)]
      cases k with
      | zero => simp
      | succ k =>
        rw [List.take_succ_cons, List.mem_cons, ih rest old, Nat.add_lt_add_iff_right]
        exact or_iff_right fun e => absurd (e ▸ above) (lt_irrefl _)

/-- A pass keeps those of the distinct entries that fewer than its keep count outrank. -/
theorem mem_kept_iff {row : List WEnt} (keyed : ∀ w ∈ row, w.Keyed) {score : Bool} {keep : Nat} {w : WEnt} (h : w ∈ collapse row) :
    w ∈ (weirPass score keep row).kept ↔ (collapse row).countP (fun v => decide (w.key < v.key)) < keep := by
  have perm := sortBy_perm WEnt.key (collapse row)
  rw [← perm.countP_eq]
  exact mem_take_iff (sortBy_strict (collapse_distinct row) (collapse_all keyed fun _ _ k => k)) (perm.mem_iff.mpr h)

theorem kept_sublist (score : Bool) (keep : Nat) (row : List WEnt) :
    (weirPass score keep row).kept.Sublist (sortBy WEnt.key (collapse row)) := List.take_sublist _ _

theorem kept_distinct (score : Bool) (keep : Nat) (row : List WEnt) : GidsDistinct (weirPass score keep row).kept :=
  ((kept_sublist score keep row).map _).nodup (((sortBy_perm WEnt.key _).map _).nodup_iff.mpr (collapse_distinct row))

/-- What a pass keeps of a global ID is the row's distinct entry, while fewer than the keep count outrank it. -/
theorem entOf_kept {row : List WEnt} (keyed : ∀ w ∈ row, w.Keyed) {score : Bool} {keep : Nat} {g : GlobalId} {w : WEnt}
    (h : entOf (collapse row) g = some w) (rank : (collapse row).countP (fun v => decide (w.key < v.key)) < keep) :
    entOf (weirPass score keep row).kept g = some w := by
  obtain ⟨mem, rfl⟩ := mem_of_entOf h
  exact entOf_of_mem (kept_distinct score keep row) ((mem_kept_iff keyed mem).mpr rank)

/-! ### A split selection (R174) -/

theorem length_le_of_gids {l m : List WEnt} (d : GidsDistinct l) (sub : ∀ w ∈ l, ∃ v ∈ m, v.gid = w.gid) : l.length ≤ m.length := by
  have subset : l.map WEnt.gid ⊆ m.map WEnt.gid := fun g hg => by
    obtain ⟨w, hw, rfl⟩ := List.mem_map.mp hg
    obtain ⟨v, hv, e⟩ := sub w hw
    exact List.mem_map.mpr ⟨v, hv, e⟩
  simpa using (d.subperm subset).length_le

/-- Every entry of `l` has one of its global ID in `m` that does not rank below it. -/
def Dominated (l m : List WEnt) : Prop := ∀ w ∈ l, ∃ v ∈ m, v.gid = w.gid ∧ w.key ≤ v.key

theorem Dominated.countP_le {l m : List WEnt} (h : Dominated l m) (d : GidsDistinct l) (k : Nat) :
    l.countP (fun v => decide (k < v.key)) ≤ m.countP (fun v => decide (k < v.key)) := by
  rw [List.countP_eq_length_filter, List.countP_eq_length_filter]
  refine length_le_of_gids ((List.filter_sublist.map _).nodup d) fun w hw => ?_
  obtain ⟨mem, above⟩ := List.mem_filter.mp hw
  obtain ⟨v, hv, e, le⟩ := h w mem
  exact ⟨v, List.mem_filter.mpr ⟨hv, by simpa using (of_decide_eq_true above).trans_le le⟩, e⟩

theorem mergeOpt_left_le {x : Option WEnt} {w : WEnt} : ∃ v, mergeOpt x (some w) = some v ∧ w.key ≤ v.key := by
  cases x with
  | none => exact ⟨w, rfl, le_rfl⟩
  | some u => exact ⟨_, rfl, by rw [WEnt.key_merge]; exact le_max_right _ _⟩

theorem mergeOpt_right_le {x : Option WEnt} {w : WEnt} : ∃ v, mergeOpt (some w) x = some v ∧ w.key ≤ v.key := by
  cases x with
  | none => exact ⟨w, rfl, le_rfl⟩
  | some u => exact ⟨_, rfl, by rw [WEnt.key_merge]; exact le_max_left _ _⟩

theorem dominated_left (a b : List WEnt) : Dominated (collapse a) (collapse (a ++ b)) := fun w hw => by
  obtain ⟨v, e, le⟩ := mergeOpt_right_le (x := entOf (collapse b) w.gid) (w := w)
  rw [← entOf_of_mem (collapse_distinct a) hw, ← entOf_collapse_append] at e
  obtain ⟨mem, gid⟩ := mem_of_entOf e
  exact ⟨v, mem, gid, le⟩

theorem dominated_right (a b : List WEnt) : Dominated (collapse b) (collapse (a ++ b)) := fun w hw => by
  obtain ⟨v, e, le⟩ := mergeOpt_left_le (x := entOf (collapse a) w.gid) (w := w)
  rw [← entOf_of_mem (collapse_distinct b) hw, ← entOf_collapse_append] at e
  obtain ⟨mem, gid⟩ := mem_of_entOf e
  exact ⟨v, mem, gid, le⟩

/-- A merge does not need the part that its result outranks. -/
theorem mergeOpt_of_kept {x y x' y' : Option WEnt} {w : WEnt} (merged : mergeOpt x y = some w) (hx : x' = none ∨ x' = x)
    (hy : y' = none ∨ y' = y) (topX : ∀ v, x = some v → v.key = w.key → x' = x) (topY : ∀ v, y = some v → v.key = w.key → y' = y) :
    mergeOpt x' y' = some w := by
  cases x with
  | none =>
    obtain rfl : x' = none := hx.elim id id
    rw [topY w merged rfl]
    exact merged
  | some u =>
    cases y with
    | none =>
      obtain rfl : y' = none := hy.elim id id
      rw [topX u rfl (congrArg WEnt.key (Option.some.inj merged))]
      exact merged
    | some v =>
      obtain rfl : u.merge v = w := Option.some.inj merged
      have key := u.key_merge v
      rcases lt_trichotomy u.key v.key with h | h | h
      · rw [topY v rfl (by omega), WEnt.merge_of_lt h]
        obtain rfl | rfl := hx
        · rfl
        · exact congrArg some (WEnt.merge_of_lt h)
      · rw [topX u rfl (by omega), topY v rfl (by omega)]
        rfl
      · rw [topX u rfl (by omega), WEnt.merge_of_gt h]
        obtain rfl | rfl := hy
        · rfl
        · exact congrArg some (WEnt.merge_of_gt h)

section Split
variable {score : Bool} {keep : Nat} {a b : List WEnt}

theorem kept_subset {row : List WEnt} {w : WEnt} (h : w ∈ (weirPass score keep row).kept) : w ∈ collapse row :=
  weirPass_kept_mem score keep row w h

/-- The entries that the two passes of a split selection keep. -/
def keptOf (score : Bool) (keep : Nat) (a b : List WEnt) : List WEnt := (weirPass score keep a).kept ++ (weirPass score keep b).kept

theorem keptOf_keyed (ha : ∀ w ∈ a, w.Keyed) (hb : ∀ w ∈ b, w.Keyed) : ∀ w ∈ keptOf score keep a b, w.Keyed := fun w hw =>
  (List.mem_append.mp hw).elim (fun h => collapse_all ha (fun _ _ k => k) w (kept_subset h))
    (fun h => collapse_all hb (fun _ _ k => k) w (kept_subset h))

theorem entOf_keptOf (g : GlobalId) : entOf (collapse (keptOf score keep a b)) g =
    mergeOpt (entOf (weirPass score keep a).kept g) (entOf (weirPass score keep b).kept g) := by
  unfold keptOf
  rw [entOf_collapse_append, entOf_collapse_of_distinct (kept_distinct _ _ _) fun w hw => collapse_nonempty (kept_subset hw),
    entOf_collapse_of_distinct (kept_distinct _ _ _) fun w hw => collapse_nonempty (kept_subset hw)]

theorem entOf_kept_le {row : List WEnt} {g : GlobalId} {w : WEnt} (h : entOf (weirPass score keep row).kept g = some w) :
    entOf (collapse row) g = some w := by
  obtain ⟨mem, rfl⟩ := mem_of_entOf h
  exact entOf_of_mem (collapse_distinct row) (kept_subset mem)

theorem entOf_kept_or {row : List WEnt} {g : GlobalId} :
    entOf (weirPass score keep row).kept g = none ∨ entOf (weirPass score keep row).kept g = entOf (collapse row) g := by
  cases h : entOf (weirPass score keep row).kept g with
  | none => exact .inl rfl
  | some w => exact .inr (entOf_kept_le h).symm

theorem kept_strict {row : List WEnt} (keyed : ∀ w ∈ row, w.Keyed) :
    (weirPass score keep row).kept.Pairwise fun a b => b.key < a.key :=
  (sortBy_strict (collapse_distinct row) (collapse_all keyed fun _ _ k => k)).sublist (kept_sublist score keep row)

/-- What the split selection merges does not outrank what the row as a whole merges. -/
theorem dominated_split : Dominated (collapse (keptOf score keep a b)) (collapse (a ++ b)) := fun w hw => by
  have e := entOf_of_mem (collapse_distinct _) hw
  rw [entOf_keptOf] at e
  have split := entOf_collapse_append a b w.gid
  cases ka : entOf (weirPass score keep a).kept w.gid with
  | none =>
    cases kb : entOf (weirPass score keep b).kept w.gid with
    | none => simp [ka, kb, mergeOpt] at e
    | some vb =>
      obtain rfl : vb = w := by simpa [ka, kb, mergeOpt] using e
      exact dominated_right a b vb (mem_of_entOf (entOf_kept_le kb)).1
  | some va =>
    cases kb : entOf (weirPass score keep b).kept w.gid with
    | none =>
      obtain rfl : va = w := by simpa [ka, kb, mergeOpt] using e
      exact dominated_left a b va (mem_of_entOf (entOf_kept_le ka)).1
    | some vb =>
      rw [ka, kb] at e
      rw [entOf_kept_le ka, entOf_kept_le kb, e] at split
      exact ⟨w, (mem_of_entOf split).1, rfl, le_rfl⟩

/-- What one pass over both rows keeps, the split selection has as well: the part that brings its rank keeps its entry. -/
theorem mem_split (ha : ∀ w ∈ a, w.Keyed) (hb : ∀ w ∈ b, w.Keyed) {w : WEnt} (h : w ∈ (weirPass score keep (a ++ b)).kept) :
    w ∈ collapse (keptOf score keep a b) := by
  have keyed : ∀ w ∈ a ++ b, w.Keyed := fun w hw => (List.mem_append.mp hw).elim (ha w) (hb w)
  have mem := kept_subset h
  have rank := (mem_kept_iff keyed mem).mp h
  have e := entOf_of_mem (collapse_distinct _) mem
  have rankA := (dominated_left a b).countP_le (collapse_distinct a) w.key
  have rankB := (dominated_right a b).countP_le (collapse_distinct b) w.key
  rw [entOf_collapse_append] at e
  refine (mem_of_entOf ((entOf_keptOf w.gid).trans (mergeOpt_of_kept e entOf_kept_or entOf_kept_or ?_ ?_))).1
  · exact fun v hv same => (entOf_kept ha hv (by rw [same]; omega)).trans hv.symm
  · exact fun v hv same => (entOf_kept hb hv (by rw [same]; omega)).trans hv.symm

/-- A pass over the results of two passes keeps what one pass over both rows keeps (R174): it has all of that, and no more entries. -/
theorem kept_split (ha : ∀ w ∈ a, w.Keyed) (hb : ∀ w ∈ b, w.Keyed) :
    (weirPass score keep (keptOf score keep a b)).kept = (weirPass score keep (a ++ b)).kept := by
  have keyed : ∀ w ∈ a ++ b, w.Keyed := fun w hw => (List.mem_append.mp hw).elim (ha w) (hb w)
  have subset : (weirPass score keep (a ++ b)).kept ⊆ (weirPass score keep (keptOf score keep a b)).kept := fun w hw => by
    have mem := mem_split ha hb hw
    refine (mem_kept_iff (keptOf_keyed ha hb) mem).mpr ?_
    exact (dominated_split.countP_le (collapse_distinct _) w.key).trans_lt ((mem_kept_iff keyed (kept_subset hw)).mp hw)
  have fewer : (collapse (keptOf score keep a b)).length ≤ (collapse (a ++ b)).length :=
    length_le_of_gids (collapse_distinct _) fun w hw => by
      obtain ⟨v, hv, e, -⟩ := dominated_split w hw
      exact ⟨v, hv, e⟩
  have nodup : (weirPass score keep (a ++ b)).kept.Nodup := List.Nodup.of_map _ (kept_distinct score keep (a ++ b))
  have length (row : List WEnt) : (weirPass score keep row).kept.length = min keep (collapse row).length := by
    show ((sortBy WEnt.key (collapse row)).take keep).length = _
    rw [List.length_take, (sortBy_perm _ _).length_eq]
  refine (strict_ext (key := WEnt.key) (kept_strict keyed) (kept_strict (keptOf_keyed ha hb)) ?_).symm
  exact (nodup.subperm subset).perm_of_length_le (by rw [length, length]; omega)

end Split

/-! ### The order of a row (R167, R171) -/

/-- What of an entry does not depend on the order of its row. -/
def WEnt.print (w : WEnt) : Nat × GlobalId × Nat := (w.key, w.gid, w.copies)

/-- The keys and copy counts of entries of one global ID merge in any order. -/
def mergePrint (p q : Nat × Nat) : Nat × Nat := if p.1 < q.1 then q else if p.1 = q.1 then (p.1, p.2 + q.2 + 1) else p

theorem mergePrint_merge (v w : WEnt) :
    ((v.merge w).key, (v.merge w).copies) = mergePrint (v.key, v.copies) (w.key, w.copies) := by
  unfold WEnt.merge mergePrint
  split_ifs <;> rfl

/-- The order in which two more entries merge does not show. -/
theorem mergePrint_right_comm (p q r : Nat × Nat) : mergePrint (mergePrint p q) r = mergePrint (mergePrint p r) q := by
  unfold mergePrint
  grind

/-- A merge of what may be missing, as far as the order of a row does not show. -/
def mergePrintOpt (o : Option (Nat × Nat)) (p : Nat × Nat) : Option (Nat × Nat) :=
  match o with
  | none => some p
  | some q => some (mergePrint q p)

theorem mergeAll_print (l : List WEnt) : (mergeAll l).map (fun w => (w.key, w.copies)) =
    (l.map fun w => (w.key, w.copies)).foldl mergePrintOpt none := by
  have fold (o : Option WEnt) : (l.foldl (fun o w => mergeOpt o (some w)) o).map (fun w => (w.key, w.copies)) =
      (l.map fun w => (w.key, w.copies)).foldl mergePrintOpt (o.map fun w => (w.key, w.copies)) := by
    induction l generalizing o with
    | nil => rfl
    | cons w l ih =>
      rw [List.foldl_cons, ih, List.map_cons, List.foldl_cons]
      congr 1
      cases o with
      | none => rfl
      | some v => exact congrArg some (mergePrint_merge v w)
  exact fold none

/-- The merge of entries that come in another order shows no other key and copy count. -/
theorem mergeAll_print_perm {l m : List WEnt} (perm : l.Perm m) :
    (mergeAll l).map (fun w => (w.key, w.copies)) = (mergeAll m).map (fun w => (w.key, w.copies)) := by
  rw [mergeAll_print, mergeAll_print]
  refine (perm.map _).foldl_eq' (fun p _ q _ o => ?_) none
  cases o with
  | none =>
    unfold mergePrintOpt mergePrint
    grind
  | some r => exact congrArg some (mergePrint_right_comm r p q)

section Order
variable {a b : List WEnt}

theorem print_mem_of_perm (perm : a.Perm b) {w : WEnt} (h : w ∈ collapse a) : ∃ v ∈ collapse b, v.print = w.print := by
  have same := mergeAll_print_perm ((perm.filter fun w => w.gid != emptyGid).filter fun v => decide (v.gid = w.gid))
  have e := entOf_of_mem (collapse_distinct a) h
  rw [entOf_collapse] at e
  change (mergeAll (entsOf a w.gid)).map _ = (mergeAll (entsOf b w.gid)).map _ at same
  rw [e, ← entOf_collapse] at same
  obtain ⟨v, hv, shown⟩ := Option.map_eq_some_iff.mp same.symm
  obtain ⟨mem, gid⟩ := mem_of_entOf hv
  obtain ⟨key, copies⟩ := Prod.mk.inj shown
  exact ⟨v, mem, by rw [WEnt.print, key, gid, copies]; rfl⟩

theorem prints_nodup (row : List WEnt) : ((collapse row).map WEnt.print).Nodup := by
  have gids : ((collapse row).map WEnt.print).map (fun p => p.2.1) = (collapse row).map WEnt.gid := by
    rw [List.map_map]
    rfl
  exact List.Nodup.of_map (fun p => p.2.1) (gids ▸ collapse_distinct row)

/-- The distinct entries of a row in another order show the same. -/
theorem prints_perm (perm : a.Perm b) : ((collapse a).map WEnt.print).Perm ((collapse b).map WEnt.print) := by
  refine (List.perm_ext_iff_of_nodup (prints_nodup a) (prints_nodup b)).mpr fun p => ⟨fun h => ?_, fun h => ?_⟩
  · obtain ⟨w, hw, rfl⟩ := List.mem_map.mp h
    obtain ⟨v, hv, e⟩ := print_mem_of_perm perm hw
    exact List.mem_map.mpr ⟨v, hv, e⟩
  · obtain ⟨w, hw, rfl⟩ := List.mem_map.mp h
    obtain ⟨v, hv, e⟩ := print_mem_of_perm perm.symm hw
    exact List.mem_map.mpr ⟨v, hv, e⟩

theorem sorted_prints (perm : a.Perm b) (ha : ∀ w ∈ a, w.Keyed) :
    (sortBy WEnt.key (collapse a)).map WEnt.print = (sortBy WEnt.key (collapse b)).map WEnt.print := by
  have strict (row : List WEnt) (h : ∀ w ∈ row, w.Keyed) :
      ((sortBy WEnt.key (collapse row)).map WEnt.print).Pairwise fun p q => q.1 < p.1 :=
    List.pairwise_map.mpr (sortBy_strict (collapse_distinct row) (collapse_all h fun _ _ k => k))
  refine strict_ext (key := Prod.fst) (strict a ha) (strict b fun w hw => ha w (perm.mem_iff.mpr hw)) ?_
  exact (((sortBy_perm _ _).map _).trans (prints_perm perm)).trans ((sortBy_perm _ _).map _).symm

theorem kept_prints (perm : a.Perm b) (ha : ∀ w ∈ a, w.Keyed) (score : Bool) (keep : Nat) :
    (weirPass score keep a).kept.map WEnt.print = (weirPass score keep b).kept.map WEnt.print := by
  show ((sortBy WEnt.key (collapse a)).take keep).map _ = ((sortBy WEnt.key (collapse b)).take keep).map _
  rw [List.map_take, List.map_take, sorted_prints perm ha]

theorem distinct_of_perm (perm : a.Perm b) (score : Bool) (keep : Nat) :
    (weirPass score keep a).distinct = (weirPass score keep b).distinct := by
  have e := (prints_perm perm).length_eq
  rwa [List.length_map, List.length_map] at e

theorem valid_of_perm (perm : a.Perm b) (score : Bool) (keep : Nat) :
    (weirPass score keep a).valid = (weirPass score keep b).valid := (perm.filter _).length_eq

/-- The high bits of the key of a scored entry are its score's key (R90). -/
def WEnt.Scored (w : WEnt) : Prop := scoreKey w.score = w.key / 2 ^ 64

theorem scoreEnt_scored (e : Entry) : (scoreEnt e).Scored := by
  have low := gidKey_lt e.gid
  show scoreKey e.score = (scoreKey e.score * 2 ^ 64 + gidKey e.gid) / 2 ^ 64
  omega

/-- The tie count of a pass, from what its sorted entries show (R169). -/
def tiesShown (keep : Nat) (l : List (Nat × GlobalId × Nat)) : Nat :=
  match (l.take keep).getLast? with
  | some p => if (l.take keep).length = keep then (l.drop keep).countP (fun q => q.1 / 2 ^ 64 == p.1 / 2 ^ 64) else 0
  | none => 0

theorem ties_eq {row : List WEnt} (scored : ∀ w ∈ row, w.Scored) (keep : Nat) :
    (weirPass true keep row).ties = tiesShown keep ((sortBy WEnt.key (collapse row)).map WEnt.print) := by
  have all : ∀ w ∈ sortBy WEnt.key (collapse row), w.Scored := fun w hw =>
    collapse_all (P := WEnt.Scored) scored (fun _ _ h => h) w ((sortBy_perm _ _).mem_iff.mp hw)
  unfold tiesShown
  rw [← List.map_take, ← List.map_drop, List.getLast?_map, List.length_map]
  show (match ((sortBy WEnt.key (collapse row)).take keep).getLast? with
    | some l => if true && ((sortBy WEnt.key (collapse row)).take keep).length == keep then
        (((sortBy WEnt.key (collapse row)).drop keep).filter (fun w : WEnt => scoreKey w.score == scoreKey l.score)).length else 0
    | none => 0) = _
  cases last : ((sortBy WEnt.key (collapse row)).take keep).getLast? with
  | none => rfl
  | some l =>
    have hl : l.Scored := all l (List.mem_of_mem_take (List.mem_of_getLast? last))
    simp only [Option.map_some, Bool.true_and, beq_iff_eq, List.countP_map, ← List.countP_eq_length_filter]
    split_ifs
    · refine List.countP_congr fun w hw => ?_
      have hw : scoreKey w.score = w.key / 2 ^ 64 := all w (List.mem_of_mem_drop hw)
      rw [hw, show scoreKey l.score = l.key / 2 ^ 64 from hl]
      exact Iff.rfl
    · rfl

/-- A sketch pass reports no tie count (R169). -/
theorem ties_sketch (keep : Nat) (row : List WEnt) : (weirPass false keep row).ties = 0 := by
  unfold weirPass
  dsimp only
  split
  · exact if_neg (by simp)
  · rfl

theorem PassResult.eq_of {p q : PassResult} (kept : p.kept = q.kept) (ties : p.ties = q.ties) (distinct : p.distinct = q.distinct)
    (valid : p.valid = q.valid) : p = q := by
  cases p
  cases q
  simp_all

/-- The entry at a Weir that shows `p` and holds no score and no version, as those of a sketch pass. -/
def WEnt.plain (p : Nat × GlobalId × Nat) : WEnt := ⟨p.1, p.2.1, 0, 0, p.2.2⟩

theorem kept_plain (keep : Nat) (l : List (Nat × GlobalId)) :
    ((weirPass false keep (l.map fun e => sketchEnt e.1 e.2)).kept.map WEnt.print).map WEnt.plain =
      (weirPass false keep (l.map fun e => sketchEnt e.1 e.2)).kept := by
  have plain := collapse_all (P := fun w => WEnt.plain w.print = w) (row := l.map fun e => sketchEnt e.1 e.2)
    (List.forall_mem_map.mpr fun _ _ => rfl) fun w n h => by rw [← h]; rfl
  rw [List.map_map]
  exact (List.map_congr_left fun w hw => plain w (kept_subset hw)).trans (List.map_id _)

theorem scoreEnts_keyed (l : List Entry) : ∀ w ∈ l.map scoreEnt, w.Keyed := List.forall_mem_map.mpr fun e _ => scoreEnt_keyed e

theorem sketchEnts_keyed (l : List (Nat × GlobalId)) : ∀ w ∈ l.map (fun e => sketchEnt e.1 e.2), w.Keyed :=
  List.forall_mem_map.mpr fun e _ => sketchEnt_keyed e.1 e.2

end Order
end Sys2Proof.Machine

section Settled
open Sys2Proof Sys2Proof.Machine

/-- Settles O19: the distinct entries of a row show the same in any order, and so do the first of them in falling order. -/
theorem passIgnoresOrder : Obligations.PassIgnoresOrder := by
  refine ⟨fun keep a b perm => ?_, fun keep a b perm => ?_⟩
  · have shown := sorted_prints (perm.map scoreEnt) (scoreEnts_keyed a)
    refine ⟨kept_prints (perm.map _) (scoreEnts_keyed a) true keep, ?_, distinct_of_perm (perm.map _) true keep,
      valid_of_perm (perm.map _) true keep⟩
    rw [ties_eq (List.forall_mem_map.mpr fun e _ => scoreEnt_scored e), ties_eq (List.forall_mem_map.mpr fun e _ => scoreEnt_scored e),
      shown]
  · have perm := perm.map fun e => sketchEnt e.1 e.2
    refine PassResult.eq_of ?_ ((ties_sketch _ _).trans (ties_sketch _ _).symm) (distinct_of_perm perm false keep)
      (valid_of_perm perm false keep)
    rw [← kept_plain keep a, ← kept_plain keep b, kept_prints perm (sketchEnts_keyed a) false keep]

/-- Settles O20. -/
theorem splitPassAgrees : Obligations.SplitPassAgrees := by
  refine ⟨fun keep a b => ?_, fun keep a b => ?_⟩
  · rw [List.map_append]
    exact kept_split (scoreEnts_keyed a) (scoreEnts_keyed b)
  · rw [List.map_append]
    exact kept_split (sketchEnts_keyed a) (sketchEnts_keyed b)

end Settled
end

section
/-! SUPPORT. What a Weir pass and its injection do to the state (R169, log 153). -/

set_option Elab.async false

namespace Sys2Proof.Machine
variable {s : State}

/-! ### WEIR_PASS -/

/-- A pass of a size that there is. -/
def passSize (keep : Nat) (ents : List WeirEntry) : Prop := 1 ≤ keep ∧ keep ≤ 8192 ∧ 1 ≤ ents.length ∧ ents.length ≤ 65536

theorem exec_weirPass_of_not_size {lane : Option (Fin 16)} {rid keep : Nat} {sketch : Bool} {ents : List WeirEntry}
    (h : ¬ passSize keep ents) : exec (.weirPass lane rid sketch keep ents) s = .next s := by
  show execWeirPass lane rid sketch keep ents s = _
  unfold execWeirPass passSize at *
  exact if_pos (by omega)

/-- A pass that is counted: its registers and what it gives out. -/
def State.passDone (s : State) (lane : Option (Fin 16)) (sketch : Bool) (keep : Nat) (ents : List WeirEntry) : State :=
  let p := weirPass (!sketch) keep (ents.map (WeirEntry.went sketch))
  (((s.bump Reg.WEIR_CNT_PASSES 0 64 1).bump Reg.WEIR_CNT_ENTRIES 0 64 ents.length).bump Reg.WEIR_CNT_INSERTS 0 64
    (weirInserts keep (ents.map (WeirEntry.went sketch)) [])).emit (.weir lane (p.kept.map (WEnt.entry sketch)) p.ties)

theorem exec_weirPass {lane : Option (Fin 16)} {rid keep : Nat} {sketch : Bool} {ents : List WeirEntry} (size : passSize keep ents)
    (clean : bit (s.reg Reg.WEIR_CTRL) 0 = false ∨ ∀ l, lane = some l → s.regF Reg.WEIR_CTRL 1 4 ≠ l.val) :
    exec (.weirPass lane rid sketch keep ents) s = .next (s.passDone lane sketch keep ents) := by
  obtain ⟨k1, k2, e1, e2⟩ := size
  show execWeirPass lane rid sketch keep ents s = _
  unfold execWeirPass
  extract_lets inj
  have free : ¬ inj = true := by
    unfold inj
    obtain off | other := clean
    · simp [off]
    · cases lane with
      | none => simp
      | some l => simp [other l rfl]
  rw [if_neg (by omega), if_neg free]
  rfl

theorem State.passDone_counts (lane : Option (Fin 16)) (sketch : Bool) (keep : Nat) (ents : List WeirEntry) :
    OnlyRegs s (s.passDone lane sketch keep ents) [Reg.WEIR_CNT_PASSES, Reg.WEIR_CNT_ENTRIES, Reg.WEIR_CNT_INSERTS] ∧
      Counted s (s.passDone lane sketch keep ents) Reg.WEIR_CNT_PASSES 0 64 1 ∧
      Counted s (s.passDone lane sketch keep ents) Reg.WEIR_CNT_ENTRIES 0 64 ents.length ∧
      Counted s (s.passDone lane sketch keep ents) Reg.WEIR_CNT_INSERTS 0 64
        (weirInserts keep (ents.map (WeirEntry.went sketch)) []) := by
  let a := s.bump Reg.WEIR_CNT_PASSES 0 64 1
  let b := a.bump Reg.WEIR_CNT_ENTRIES 0 64 ents.length
  let c := b.bump Reg.WEIR_CNT_INSERTS 0 64 (weirInserts keep (ents.map (WeirEntry.went sketch)) [])
  have sa : OnlyRegs s a [Reg.WEIR_CNT_PASSES] := .bump _ _ _ _ (by simp)
  have ab : OnlyRegs a b [Reg.WEIR_CNT_ENTRIES] := .bump _ _ _ _ (by simp)
  have bc : OnlyRegs b c [Reg.WEIR_CNT_INSERTS] := .bump _ _ _ _ (by simp)
  have done : OnlyRegs c (s.passDone lane sketch keep ents) [] := .of_regs rfl
  refine ⟨((sa.mono (by simp)).trans (ab.mono (by simp))).trans ((bc.mono (by simp)).trans (done.mono (by simp))), ?_, ?_, ?_⟩
  · have k : Counted s a Reg.WEIR_CNT_PASSES 0 64 1 := .of_bump _ _ _ _ (by decide)
    exact .before _ _ _ _ (.before _ _ _ _ k (ab.regF _ _ _ (by decide))) (bc.regF _ _ _ (by decide))
  · have k : Counted a b Reg.WEIR_CNT_ENTRIES 0 64 ents.length := .of_bump _ _ _ _ (by decide)
    exact .before _ _ _ _ (.after _ _ _ _ (sa.regF _ _ _ (by decide)) k) (bc.regF _ _ _ (by decide))
  · have k : Counted b c Reg.WEIR_CNT_INSERTS 0 64 _ := .of_bump _ _ _ _ (by decide)
    exact .after _ _ _ _ ((sa.mono (by simp)).trans (ab.mono (js := [Reg.WEIR_CNT_PASSES, Reg.WEIR_CNT_ENTRIES]) (by simp)) |>.regF
      _ _ _ (by decide)) k

/-- The pass of the lane under injection, where nothing runs under its number: the injection is off and the error is counted. -/
theorem exec_weirPass_injected {l : Fin 16} {rid keep : Nat} {sketch : Bool} {ents : List WeirEntry} (size : passSize keep ents)
    (on : bit (s.reg Reg.WEIR_CTRL) 0 = true) (lane : s.regF Reg.WEIR_CTRL 1 4 = l.val) (idle : s.phaseRun rid = none) :
    exec (.weirPass (some l) rid sketch keep ents) s = .next ((s.setRegF Reg.WEIR_CTRL 0 1 0).bumpSat Reg.WEIR_ERR 0 16 1) := by
  obtain ⟨k1, k2, e1, e2⟩ := size
  show execWeirPass (some l) rid sketch keep ents s = _
  unfold execWeirPass
  rw [if_neg (by omega), if_pos (by simp [on, lane])]
  unfold State.phaseFault
  rw [show State.phaseRun ((s.setRegF Reg.WEIR_CTRL 0 1 0).bumpSat Reg.WEIR_ERR 0 16 1) rid = none from idle]

/-! ### INJECT_WEIR_PARITY -/

theorem exec_injectWeirParity {l : Fin 16} (up : s.pageUp (keyPage Reg.WEIR_CTRL) = true) :
    exec (.injectWeirParity l) s = .next ((s.setRegF Reg.WEIR_CTRL 1 4 l.val).setRegF Reg.WEIR_CTRL 0 1 1) := by
  show Host.Outcome.next (State.pfWrite _ _ _ _) = _
  unfold State.pfWrite
  rw [if_pos up]

end Sys2Proof.Machine

section Settled
open Sys2Proof Sys2Proof.Machine

/-- Settles O21. -/
theorem weirPassCounts : Obligations.WeirPassCounts := by
  refine ⟨fun lane rid keep sketch ents s k1 k2 e1 e2 clean => ?_, fun lane rid keep sketch ents s size => ?_,
    fun l rid keep sketch ents s k1 k2 e1 e2 on lane idle => ?_, fun l s up => ?_⟩
  · obtain ⟨only, passes, entries, inserts⟩ := State.passDone_counts (s := s) lane sketch keep ents
    exact ⟨_, exec_weirPass ⟨k1, k2, e1, e2⟩ clean, rfl, rfl, only, passes, entries, inserts⟩
  · refine ⟨s, exec_weirPass_of_not_size fun ⟨k1, k2, e1, e2⟩ => ?_, rfl⟩
    obtain h | h | h | h := size
    · omega
    · omega
    · simp [h] at e1
    · omega
  · refine ⟨_, exec_weirPass_injected ⟨k1, k2, e1, e2⟩ on lane idle, rfl, ?_, ?_, ?_⟩
    · exact .trans (.setRegF _ _ _ _ (by simp)) (.bumpSat _ _ _ _ (by simp))
    · rw [State.reg_bumpSat_other _ _ _ _ _ _ (by decide)]
      unfold State.setRegF
      rw [State.reg_setReg_same, bit_setField_same _ _ _ (by decide)]
      rfl
    · exact .after _ _ _ _ (OnlyRegs.setRegF (ks := [Reg.WEIR_CTRL]) _ _ _ _ (by simp) |>.regF _ _ _ (by decide))
        (.of_bumpSat _ _ _ _ (by decide))
  · refine ⟨_, exec_injectWeirParity up, rfl, .trans (.setRegF _ _ _ _ (by simp)) (.setRegF _ _ _ _ (by simp)), ?_, ?_⟩
    · exact State.regF_setRegF_same _ _ _ _ _ (by decide)
    · rw [State.regF_setRegF_apart _ _ _ _ _ _ _ (by decide) (by decide), State.regF_setRegF_same _ _ _ _ _ (by decide)]
      exact Nat.mod_eq_of_lt (by omega)

end Settled
end

section
/-! SUPPORT. Waterline exchanges (R147, R175, R326): each raises what the Runnel Weirs hold and what the Rills have received, and leaves
what the heaps hold. -/

set_option Elab.async false

namespace Sys2Proof.Machine
variable {s t u : State}

/-! ### Folds -/

/-- A fold over a list makes `P` hold when the step of one member does, and every step keeps it. -/
theorem foldl_establishes {α β : Type} {f : β → α → β} {inv P : β → Prop} {l : List α} {a : α} {s : β} (mem : a ∈ l) (start : inv s)
    (step : ∀ t b, inv t → inv (f t b)) (makes : ∀ t, inv t → P (f t a)) (keeps : ∀ t b, inv t → P t → P (f t b)) :
    P (l.foldl f s) := by
  have rest (l : List α) (t : β) (i : inv t) (p : P t) : P (l.foldl f t) :=
    (List.foldlRecOn (motive := fun t => inv t ∧ P t) l f ⟨i, p⟩ fun t h b _ => ⟨step t b h.1, keeps t b h.1 h.2⟩).2
  induction l generalizing s with
  | nil => cases mem
  | cons b l ih =>
    obtain rfl | later := List.mem_cons.mp mem
    · exact rest l _ (step s a start) (makes s start)
    · exact ih later (step s b start)

/-! ### Waterlines -/

/-- The sort key of a waterline. -/
def wlKey (v : SketchPair) : Nat := sketchKey v.1 v.2

/-- A waterline exists, at or above the key `k`. -/
def WlAbove (k : Nat) (o : Option SketchPair) : Prop := ∃ w, o = some w ∧ k ≤ wlKey w

theorem bestWl_some (a b : SketchPair) : bestWl (some a) (some b) = some (if pairBetter b a then b else a) := rfl

/-- The better of two waterlines is at or above each. -/
theorem wlKey_bestWl (a b : SketchPair) : wlKey (if pairBetter b a then b else a) = max (wlKey a) (wlKey b) := by
  unfold pairBetter
  split_ifs with h
  · exact (max_eq_right (of_decide_eq_true h).le).symm
  · exact (max_eq_left (not_lt.mp (of_decide_eq_false (Bool.eq_false_iff.mpr h)))).symm

theorem WlAbove.bestWl_left {k : Nat} {a : Option SketchPair} (h : WlAbove k a) (b : Option SketchPair) : WlAbove k (bestWl a b) := by
  obtain ⟨v, rfl, above⟩ := h
  cases b with
  | none => exact ⟨v, rfl, above⟩
  | some w => exact ⟨_, bestWl_some v w, by rw [wlKey_bestWl]; exact above.trans (le_max_left _ _)⟩

theorem WlAbove.bestWl_right {k : Nat} {b : Option SketchPair} (h : WlAbove k b) (a : Option SketchPair) : WlAbove k (bestWl a b) := by
  obtain ⟨v, rfl, above⟩ := h
  cases a with
  | none => exact ⟨v, rfl, above⟩
  | some w => exact ⟨_, bestWl_some w v, by rw [wlKey_bestWl]; exact above.trans (le_max_right _ _)⟩

theorem Waterlines.at_hold_same (w : Waterlines) (rk : Nat) (q : Nat × Nat) (v : SketchPair) : (w.hold rk q v).at rk q = some v := by
  unfold Waterlines.at Waterlines.hold
  rw [List.find?_append, List.find?_eq_none.mpr (fun e he h => by simp_all)]
  simp

theorem Waterlines.at_hold_other (w : Waterlines) {rk rk' : Nat} {q q' : Nat × Nat} (v : SketchPair) (h : rk' ≠ rk ∨ q' ≠ q) :
    (w.hold rk q v).at rk' q' = w.at rk' q' := by
  have apart {a : Nat} {b : Nat} {c : Nat} (e : (a = rk' ∧ b = q'.1) ∧ c = q'.2) : ¬ ((a = rk ∧ b = q.1) ∧ c = q.2) := by
    rintro ⟨⟨rfl, rfl⟩, rfl⟩
    obtain h | h := h
    · exact h e.1.1.symm
    · exact h (Prod.ext e.1.2.symm e.2.symm)
  unfold Waterlines.at Waterlines.hold
  dsimp only
  rw [List.find?_append, List.find?_filter, List.find?_cons_of_neg (fun e => apart (by simpa using e) ⟨⟨rfl, rfl⟩, rfl⟩), List.find?_nil,
    Option.or_none]
  congr 2
  funext e
  rw [Bool.eq_iff_iff, decide_eq_true_iff]
  exact and_iff_right_of_imp fun m => by simpa [or_iff_not_imp_left] using apart (by simpa using m)

/-- No waterline of a Runnel Weir is loosened. -/
def Waterlines.Tightens (w w' : Waterlines) : Prop := ∀ rk q v, w.at rk q = some v → WlAbove (wlKey v) (w'.at rk q)

theorem Waterlines.Tightens.refl (w : Waterlines) : w.Tightens w := fun _ _ v h => ⟨v, h, le_rfl⟩

theorem Waterlines.Tightens.above {w w' : Waterlines} (h : w.Tightens w') {k rk : Nat} {q : Nat × Nat} (a : WlAbove k (w.at rk q)) :
    WlAbove k (w'.at rk q) := by
  obtain ⟨v, e, above⟩ := a
  obtain ⟨u, e', above'⟩ := h rk q v e
  exact ⟨u, e', above.trans above'⟩

theorem Waterlines.Tightens.trans {a b c : Waterlines} (h : a.Tightens b) (h' : b.Tightens c) : a.Tightens c :=
  fun rk q v e => h'.above (h rk q v e)

/-- A Runnel Weir that takes a value at or above what it held tightens. -/
theorem Waterlines.tightens_hold {w : Waterlines} {rk : Nat} {q : Nat × Nat} {v : SketchPair}
    (above : ∀ u, w.at rk q = some u → wlKey u ≤ wlKey v) : w.Tightens (w.hold rk q v) := fun rk' q' u e => by
  by_cases same : rk' = rk ∧ q' = q
  · obtain ⟨rfl, rfl⟩ := same
    exact ⟨v, w.at_hold_same rk' q' v, above u e⟩
  · exact ⟨u, (w.at_hold_other v (by tauto)).trans e, le_rfl⟩

/-! ### What the heaps hold -/

/-- A heap but for the waterline that it has received. -/
def Heap.bare (h : Heap) : Heap := { h with shared := none }

/-- The heaps of every Rill, but for the waterlines that they have received. -/
def State.heapsHeld (s : State) : List (Nat × List Heap) := s.fabric.rills.map fun p => (p.1, p.2.heaps.map Heap.bare)

theorem heapsFor_bare (s : State) (rk : Nat) (q : Nat × Nat) : (s.heapsFor rk q).map Heap.bare =
    ((s.heapsHeld.filter fun p => runnelOfKey p.1 == rk).flatMap Prod.snd).filter fun h => h.rid == q.1 && h.query == q.2 := by
  unfold State.heapsFor State.heapsIn State.heapsHeld
  rw [List.filter_map, List.flatMap_map, List.filter_flatMap, List.filter_flatMap, List.map_flatMap]
  refine List.flatMap_congr fun p _ => ?_
  rw [List.filter_map]
  rfl

/-- The local waterline of a Runnel does not depend on what its heaps have received. -/
theorem runnelWl_bare (hs : List Heap) : runnelWl (hs.map Heap.bare) = runnelWl hs := by
  have merged (n : Nat) : mergeHeaps n (hs.map Heap.bare) = mergeHeaps n hs := by
    unfold mergeHeaps
    rw [List.flatMap_map]
    rfl
  cases hs with
  | nil => rfl
  | cons h hs =>
    unfold runnelWl
    rw [List.map_cons]
    dsimp only
    rw [← List.map_cons, merged]
    rfl

theorem runnelWl_of_held (held : t.heapsHeld = s.heapsHeld) (rk : Nat) (q : Nat × Nat) :
    runnelWl (t.heapsFor rk q) = runnelWl (s.heapsFor rk q) := by
  rw [← runnelWl_bare, heapsFor_bare, held, ← heapsFor_bare, runnelWl_bare]

/-! ### WATERLINE_EXCHANGE_RUNNEL -/

/-- An exchange in a Runnel touches the waterlines of the Runnel Weirs, which it tightens, and what the Rills have received. -/
structure State.Exchanged (s t : State) : Prop where
  rest : t = { s with fabric := t.fabric }
  routers : t.fabric.routers = s.fabric.routers
  bridges : t.fabric.bridges = s.fabric.bridges
  srams : t.fabric.srams = s.fabric.srams
  shared : t.fabric.water.shared = s.fabric.water.shared
  held : t.heapsHeld = s.heapsHeld
  tightens : s.fabric.water.Tightens t.fabric.water

theorem State.Exchanged.refl (s : State) : s.Exchanged s := ⟨rfl, rfl, rfl, rfl, rfl, rfl, .refl _⟩

theorem State.Exchanged.trans (a : s.Exchanged t) (b : t.Exchanged u) : s.Exchanged u where
  rest := by rw [b.rest, a.rest]
  routers := b.routers.trans a.routers
  bridges := b.bridges.trans a.bridges
  srams := b.srams.trans a.srams
  shared := b.shared.trans a.shared
  held := b.held.trans a.held
  tightens := a.tightens.trans b.tightens

/-- A Runnel Weir and the heaps of its Rills hold a waterline of the query at or above `k`. -/
def State.RunnelAbove (s : State) (rk : Nat) (q : Nat × Nat) (k : Nat) : Prop :=
  WlAbove k (s.fabric.water.at rk q) ∧ ∀ h ∈ s.heapsFor rk q, WlAbove k h.shared

theorem mem_heapsFor {rk : Nat} {q : Nat × Nat} {h : Heap} :
    h ∈ s.heapsFor rk q ↔ ∃ p ∈ s.fabric.rills, runnelOfKey p.1 = rk ∧ h ∈ p.2.heaps ∧ h.rid = q.1 ∧ h.query = q.2 := by
  simp only [State.heapsFor, State.heapsIn, List.mem_filter, List.mem_flatMap, beq_iff_eq, Bool.and_eq_true]
  constructor
  · rintro ⟨⟨p, ⟨hp, rk⟩, hh⟩, rid, query⟩
    exact ⟨p, hp, rk, hh, rid, query⟩
  · rintro ⟨p, hp, rk, hh, rid, query⟩
    exact ⟨⟨p, ⟨hp, rk⟩, hh⟩, rid, query⟩

/-- The exchange with the value `v` of a query in a Runnel. -/
def State.exchangeWith (s : State) (rk : Nat) (q : Nat × Nat) (v : SketchPair) : State :=
  { s with fabric := { s.fabric with
      water := s.fabric.water.hold rk q v
      rills := s.fabric.rills.map (fun p => if runnelOfKey p.1 = rk then (p.1, p.2.receive q v) else p) } }

theorem State.exchangeQuery_cases (s : State) (rk : Nat) (q : Nat × Nat) :
    (s.exchangeQuery rk q = s ∧ s.fabric.water.at rk q = none ∧ runnelWl (s.heapsFor rk q) = none) ∨
    ∃ v, bestWl (s.fabric.water.at rk q) (runnelWl (s.heapsFor rk q)) = some v ∧ s.exchangeQuery rk q = s.exchangeWith rk q v := by
  unfold State.exchangeQuery
  split
  next none =>
    refine .inl ⟨rfl, ?_⟩
    cases w : s.fabric.water.at rk q <;> cases l : runnelWl (s.heapsFor rk q) <;> simp_all [bestWl]
  next v e => exact .inr ⟨v, e, rfl⟩

theorem State.exchangeWith_held (s : State) (rk : Nat) (q : Nat × Nat) (v : SketchPair) :
    (s.exchangeWith rk q v).heapsHeld = s.heapsHeld := by
  unfold State.heapsHeld State.exchangeWith
  rw [List.map_map]
  refine List.map_congr_left fun p _ => ?_
  rw [Function.comp_apply]
  split_ifs
  · refine congrArg (p.1, ·) ?_
    unfold Rill.receive
    rw [List.map_map]
    refine List.map_congr_left fun h _ => ?_
    rw [Function.comp_apply]
    split_ifs <;> rfl
  · rfl

theorem State.exchangeQuery_exchanged (s : State) (rk : Nat) (q : Nat × Nat) : s.Exchanged (s.exchangeQuery rk q) := by
  obtain ⟨e, -⟩ | ⟨v, best, e⟩ := s.exchangeQuery_cases rk q
  · rw [e]
    exact .refl s
  · rw [e]
    refine ⟨rfl, rfl, rfl, rfl, rfl, s.exchangeWith_held rk q v, Waterlines.tightens_hold fun u hu => ?_⟩
    obtain ⟨w, hw, above⟩ := WlAbove.bestWl_left ⟨u, hu, le_rfl⟩ (runnelWl (s.heapsFor rk q))
    exact Option.some.inj (best.symm.trans hw) ▸ above

/-- A heap after an exchange: as it was, or with the exchanged value received. -/
theorem State.mem_heapsFor_exchangeWith {rk rk' : Nat} {q q' : Nat × Nat} {v : SketchPair} {h : Heap}
    (mem : h ∈ (s.exchangeWith rk q v).heapsFor rk' q') : ∃ h₀ ∈ s.heapsFor rk' q',
      h.shared = bestWl h₀.shared (some v) ∨ (h.shared = h₀.shared ∧ ¬ (rk' = rk ∧ q' = q)) := by
  obtain ⟨p', hp', runnel, hh, rid, query⟩ := mem_heapsFor.mp mem
  obtain ⟨p, hp, rfl⟩ := List.mem_map.mp hp'
  split_ifs at hh runnel with own
  · obtain ⟨h₀, hh₀, rfl⟩ := List.mem_map.mp hh
    split_ifs at rid query ⊢ with mine
    · exact ⟨h₀, mem_heapsFor.mpr ⟨p, hp, runnel, hh₀, rid, query⟩, .inl rfl⟩
    · exact ⟨h₀, mem_heapsFor.mpr ⟨p, hp, runnel, hh₀, rid, query⟩, .inr ⟨rfl, fun ⟨_, e⟩ => mine ⟨e ▸ rid, e ▸ query⟩⟩⟩
  · exact ⟨h, mem_heapsFor.mpr ⟨p, hp, runnel, hh, rid, query⟩, .inr ⟨rfl, fun ⟨e, _⟩ => own (runnel.trans e)⟩⟩

theorem State.RunnelAbove.exchangeQuery {rk rk' k : Nat} {q q' : Nat × Nat} (a : s.RunnelAbove rk' q' k) :
    (s.exchangeQuery rk q).RunnelAbove rk' q' k := by
  refine ⟨(s.exchangeQuery_exchanged rk q).tightens.above a.1, fun h hh => ?_⟩
  obtain ⟨e, -⟩ | ⟨v, -, e⟩ := s.exchangeQuery_cases rk q
  · exact a.2 h (e ▸ hh)
  · obtain ⟨h₀, hh₀, shared | ⟨shared, -⟩⟩ := State.mem_heapsFor_exchangeWith (e ▸ hh)
    · exact shared ▸ (a.2 h₀ hh₀).bestWl_left _
    · exact shared ▸ a.2 h₀ hh₀

/-- The exchange of a query brings the Weir and the heaps to the local waterline at least. -/
theorem State.exchangeQuery_above {rk : Nat} {q : Nat × Nat} {v : SketchPair} (wl : runnelWl (s.heapsFor rk q) = some v) :
    (s.exchangeQuery rk q).RunnelAbove rk q (wlKey v) := by
  obtain ⟨-, -, none⟩ | ⟨w, best, e⟩ := s.exchangeQuery_cases rk q
  · cases none.symm.trans wl
  · obtain ⟨u, hu, above⟩ := WlAbove.bestWl_right ⟨v, wl, le_rfl⟩ (s.fabric.water.at rk q)
    obtain rfl : w = u := Option.some.inj (best.symm.trans hu)
    rw [e]
    refine ⟨⟨w, Waterlines.at_hold_same _ rk q w, above⟩, fun h hh => ?_⟩
    obtain ⟨h₀, -, shared | ⟨-, other⟩⟩ := State.mem_heapsFor_exchangeWith hh
    · exact shared ▸ WlAbove.bestWl_right ⟨w, rfl, above⟩ _
    · exact absurd ⟨rfl, rfl⟩ other

theorem exec_waterlineExchangeRunnel (n : TerraceName) (r : Fin 16) : ∃ t, exec (.waterlineExchangeRunnel n r) s = .next t ∧
    s.Exchanged t ∧ ∀ prn, s.physRunnel n.basin n.terrace r = some prn → ∀ q ∈ s.queriesIn (runnelKey n.basin n.terrace prn),
      ∀ v, runnelWl (s.heapsFor (runnelKey n.basin n.terrace prn) q) = some v →
        t.RunnelAbove (runnelKey n.basin n.terrace prn) q (wlKey v) := by
  cases h : s.physRunnel n.basin n.terrace r with
  | none => exact ⟨s, by show execWaterlineExchangeRunnel n r s = _; rw [execWaterlineExchangeRunnel, h], .refl s, nofun⟩
  | some prn =>
    refine ⟨_, by show execWaterlineExchangeRunnel n r s = _; rw [execWaterlineExchangeRunnel, h], ?_, ?_⟩
    · exact List.foldlRecOn (motive := s.Exchanged) _ _ (.refl s) fun t e q _ => e.trans (t.exchangeQuery_exchanged _ q)
    · rintro _ ⟨⟩ q hq v wl
      exact foldl_establishes (inv := s.Exchanged) (P := (·.RunnelAbove _ q (wlKey v))) hq (.refl s) (fun t q e => e.trans (t.exchangeQuery_exchanged _ q))
        (fun t e => State.exchangeQuery_above ((runnelWl_of_held e.held _ q).trans wl)) fun t q _ a => a.exchangeQuery

/-! ### WATERLINE_EXCHANGE_HEADWORKS -/

/-- Words to Spouts and the bytes of their contexts alone differ. -/
structure State.SpoutsOnly (s t : State) : Prop where
  rest : t = { s with hbm := t.hbm, out := t.out }
  hbm : t.hbm = { s.hbm with spouts := t.hbm.spouts, passes := t.hbm.passes }

theorem State.SpoutsOnly.refl (s : State) : s.SpoutsOnly s := ⟨rfl, rfl⟩

theorem State.SpoutsOnly.trans (a : s.SpoutsOnly t) (b : t.SpoutsOnly u) : s.SpoutsOnly u where
  rest := by rw [b.rest, a.rest]
  hbm := by rw [b.hbm, a.hbm]

theorem State.SpoutsOnly.fabric (a : s.SpoutsOnly t) : t.fabric = s.fabric := by rw [a.rest]

theorem State.wlToSpouts_only (s : State) (q : Nat × Nat) (v : SketchPair) : s.SpoutsOnly (s.wlToSpouts q v) := by
  unfold State.wlToSpouts
  split
  · exact .refl s
  · split
    · refine List.foldlRecOn (motive := s.SpoutsOnly) _ _ (.refl s) fun t ht p _ => ?_
      split
      · exact ht
      · exact List.foldlRecOn (motive := s.SpoutsOnly) _ _ ht fun u hu c _ => hu.trans ⟨rfl, rfl⟩
    · exact .refl s

/-- The best value that a Runnel Weir holds for a query. -/
def State.sharedBest (s : State) (q : Nat × Nat) : Option SketchPair :=
  (s.fabric.water.runnel.filter (fun e => e.2.1 == q.1 && e.2.2.1 == q.2)).foldl (fun b e => bestWl b (some e.2.2.2)) none

/-- The best is at or above what each Runnel Weir holds for the query. -/
theorem State.sharedBest_above {e : Nat × Nat × Nat × SketchPair} (h : e ∈ s.fabric.water.runnel) :
    WlAbove (wlKey e.2.2.2) (s.sharedBest (e.2.1, e.2.2.1)) :=
  foldl_establishes (inv := fun _ => True) (P := WlAbove (wlKey e.2.2.2)) (List.mem_filter.mpr ⟨h, by simp⟩) trivial
    (fun _ _ _ => trivial) (fun b _ => WlAbove.bestWl_right ⟨_, rfl, le_rfl⟩ b) fun _ e' _ a => a.bestWl_left (some e'.2.2.2)

theorem State.sharedBest_above_at {rk : Nat} {q : Nat × Nat} {v : SketchPair} (h : s.fabric.water.at rk q = some v) :
    WlAbove (wlKey v) (s.sharedBest q) := by
  obtain ⟨e, found, rfl⟩ := Option.map_eq_some_iff.mp h
  obtain ⟨⟨rfl, rid⟩, query⟩ : (e.1 = rk ∧ e.2.1 = q.1) ∧ e.2.2.1 = q.2 := by simpa using List.find?_some found
  have above := s.sharedBest_above (List.mem_of_find?_eq_some found)
  rwa [rid, query] at above

/-- The Runnels whose Rills work on a query. -/
def State.runnelsOn (s : State) (q : Nat × Nat) : List Nat :=
  ((s.fabric.rills.filter (fun p => p.2.heaps.any (fun h => h.rid == q.1 && h.query == q.2))).map (fun p => runnelOfKey p.1)).dedup

/-- The shared value `v` of a query, noted and given to the Runnels that work on it. -/
def State.shareWater (s : State) (q : Nat × Nat) (v : SketchPair) : State :=
  let w := (s.runnelsOn q).foldl (fun (w : Waterlines) rk => w.hold rk q v) s.fabric.water
  { s with fabric := { s.fabric with
      water := { w with shared := w.shared.filter (fun e => !(e.1 == q.1 && e.2.1 == q.2)) ++ [(q.1, q.2, v)] } } }

/-- One query's exchange through Headworks, with the values that the Runnel Weirs held in `s`. -/
def State.headworksQuery (s t : State) (q : Nat × Nat) : State :=
  match s.sharedBest q with
  | none => t
  | some v => (t.shareWater q v).wlToSpouts q v

theorem exec_waterlineExchangeHeadworks (s : State) : exec .waterlineExchangeHeadworks s =
    .next (((s.fabric.water.runnel.map (fun e => (e.2.1, e.2.2.1))).dedup).foldl s.headworksQuery s) := rfl

theorem Waterlines.holds_at {w : Waterlines} {rks : List Nat} {q : Nat × Nat} {v : SketchPair} :
    (∀ rk ∈ rks, (rks.foldl (fun (w : Waterlines) rk => w.hold rk q v) w).at rk q = some v) ∧
    (∀ rk q', q' ≠ q ∨ rk ∉ rks → (rks.foldl (fun (w : Waterlines) rk => w.hold rk q v) w).at rk q' = w.at rk q') ∧
    (rks.foldl (fun (w : Waterlines) rk => w.hold rk q v) w).shared = w.shared := by
  refine ⟨fun rk mem => ?_, fun rk q' other => ?_, ?_⟩
  · refine foldl_establishes (inv := fun _ => True) (P := fun w : Waterlines => w.at rk q = some v) mem trivial (fun _ _ _ => trivial)
      (fun t _ => t.at_hold_same rk q v) fun t rk' _ h => ?_
    obtain rfl | differ := eq_or_ne rk rk'
    · exact t.at_hold_same rk q v
    · exact (t.at_hold_other v (.inl differ)).trans h
  · refine List.foldlRecOn (motive := fun t : Waterlines => t.at rk q' = w.at rk q') _ _ rfl fun t h rk' mem => ?_
    exact (t.at_hold_other v (other.symm.imp_left fun n e => n (e ▸ mem))).trans h
  · exact List.foldlRecOn (motive := fun t : Waterlines => t.shared = w.shared) _ _ rfl fun t h _ _ => h

theorem State.shareWater_at_on {rk : Nat} {q : Nat × Nat} {v : SketchPair} (on : rk ∈ s.runnelsOn q) :
    (s.shareWater q v).fabric.water.at rk q = some v := Waterlines.holds_at.1 rk on

theorem State.shareWater_at_off {rk : Nat} {q q' : Nat × Nat} {v : SketchPair} (off : q' ≠ q ∨ rk ∉ s.runnelsOn q) :
    (s.shareWater q v).fabric.water.at rk q' = s.fabric.water.at rk q' := Waterlines.holds_at.2.1 rk q' off

/-- Exchanges through Headworks, starting from `s`: beside the Spouts only waterlines differ, none is loosened, and each is one that a
Runnel Weir held in `s` at most. -/
structure State.Shared (s t : State) : Prop where
  rest : t = { s with fabric := t.fabric, hbm := t.hbm, out := t.out }
  fabric : t.fabric = { s.fabric with water := t.fabric.water }
  hbm : t.hbm = { s.hbm with spouts := t.hbm.spouts, passes := t.hbm.passes }
  tightens : s.fabric.water.Tightens t.fabric.water
  bounded : ∀ rk q v, t.fabric.water.at rk q = some v → WlAbove (wlKey v) (s.sharedBest q)

theorem State.Shared.refl (s : State) : s.Shared s := ⟨rfl, rfl, rfl, .refl _, fun _ _ _ h => State.sharedBest_above_at h⟩

/-- The waterlines after one more exchange. -/
theorem State.headworksQuery_water {q : Nat × Nat} {v : SketchPair} (best : s.sharedBest q = some v) :
    (s.headworksQuery t q).fabric = (t.shareWater q v).fabric := by
  unfold State.headworksQuery
  rw [best]
  exact (State.wlToSpouts_only _ q v).fabric

theorem State.shareWater_tightens {q : Nat × Nat} {v : SketchPair}
    (above : ∀ rk u, s.fabric.water.at rk q = some u → wlKey u ≤ wlKey v) :
    s.fabric.water.Tightens (s.shareWater q v).fabric.water := fun rk q' u e => by
  by_cases on : q' = q ∧ rk ∈ s.runnelsOn q
  · obtain ⟨rfl, on⟩ := on
    exact ⟨v, State.shareWater_at_on on, above rk u e⟩
  · exact ⟨u, (State.shareWater_at_off (by tauto)).trans e, le_rfl⟩

theorem State.Shared.step_tightens (h : s.Shared t) (q : Nat × Nat) :
    t.fabric.water.Tightens (s.headworksQuery t q).fabric.water := by
  cases best : s.sharedBest q with
  | none =>
    unfold State.headworksQuery
    rw [best]
    exact .refl _
  | some v =>
    rw [State.headworksQuery_water best]
    refine State.shareWater_tightens fun rk u e => ?_
    obtain ⟨w, hw, above⟩ := h.bounded rk q u e
    exact Option.some.inj (best.symm.trans hw) ▸ above

theorem State.Shared.step (h : s.Shared t) (q : Nat × Nat) : s.Shared (s.headworksQuery t q) := by
  cases best : s.sharedBest q with
  | none =>
    unfold State.headworksQuery
    rw [best]
    exact h
  | some v =>
    have water := State.headworksQuery_water (t := t) best
    have spouts : (t.shareWater q v).SpoutsOnly (s.headworksQuery t q) := by
      unfold State.headworksQuery
      rw [best]
      exact State.wlToSpouts_only _ q v
    refine ⟨?_, ?_, ?_, ?_, fun rk q' u e => ?_⟩
    · rw [spouts.rest, State.shareWater, h.rest]
    · rw [water, State.shareWater, h.fabric]
    · rw [spouts.hbm, State.shareWater, h.hbm]
    · exact h.tightens.trans (h.step_tightens q)
    · rw [water] at e
      by_cases on : q' = q ∧ rk ∈ t.runnelsOn q
      · obtain ⟨rfl, on⟩ := on
        exact Option.some.inj ((State.shareWater_at_on on).symm.trans e) ▸ ⟨v, best, le_rfl⟩
      · exact h.bounded rk q' u ((State.shareWater_at_off (by tauto)).symm.trans e)

theorem State.Shared.runnelsOn (h : s.Shared t) (q : Nat × Nat) : t.runnelsOn q = s.runnelsOn q := by
  unfold State.runnelsOn
  rw [h.fabric]

/-- A query's shared value is noted at or above the key `k`. -/
def State.SharedAbove (s : State) (q : Nat × Nat) (k : Nat) : Prop :=
  ∃ f ∈ s.fabric.water.shared, f.1 = q.1 ∧ f.2.1 = q.2 ∧ k ≤ wlKey f.2.2

theorem State.shareWater_shared (s : State) (q : Nat × Nat) (v : SketchPair) : (s.shareWater q v).fabric.water.shared =
    s.fabric.water.shared.filter (fun e => !(e.1 == q.1 && e.2.1 == q.2)) ++ [(q.1, q.2, v)] := by
  unfold State.shareWater
  dsimp only
  rw [Waterlines.holds_at.2.2]

/-- What an exchange of the query notes and gives to the Runnels that work on it. -/
theorem State.headworksQuery_above {q : Nat × Nat} {k : Nat} (h : s.Shared t) (above : WlAbove k (s.sharedBest q)) :
    (s.headworksQuery t q).SharedAbove q k ∧ ∀ rk ∈ s.runnelsOn q, WlAbove k ((s.headworksQuery t q).fabric.water.at rk q) := by
  obtain ⟨v, best, le⟩ := above
  unfold State.SharedAbove
  rw [State.headworksQuery_water best]
  refine ⟨⟨(q.1, q.2, v), ?_, rfl, rfl, le⟩, fun rk on => ⟨v, State.shareWater_at_on (h.runnelsOn q ▸ on), le⟩⟩
  rw [State.shareWater_shared]
  exact List.mem_append_right _ List.mem_cons_self

theorem State.SharedAbove.step {q q' : Nat × Nat} {k : Nat} (a : t.SharedAbove q k) (h : s.Shared t)
    (above : WlAbove k (s.sharedBest q)) : (s.headworksQuery t q').SharedAbove q k := by
  obtain rfl | other := eq_or_ne q' q
  · exact (State.headworksQuery_above h above).1
  · cases best : s.sharedBest q' with
    | none =>
      unfold State.headworksQuery
      rw [best]
      exact a
    | some v =>
      obtain ⟨f, mem, rid, query, le⟩ := a
      unfold State.SharedAbove
      rw [State.headworksQuery_water best, State.shareWater_shared]
      refine ⟨f, List.mem_append_left _ (List.mem_filter.mpr ⟨mem, ?_⟩), rid, query, le⟩
      have differ : ¬ (f.1 = q'.1 ∧ f.2.1 = q'.2) := fun ⟨x, y⟩ => other (Prod.ext (x.symm.trans rid) (y.symm.trans query))
      simpa [or_iff_not_imp_left] using differ

end Sys2Proof.Machine

section Settled
open Sys2Proof Sys2Proof.Machine

/-- Settles O22: every exchange takes the best of what there was, so no waterline falls. -/
theorem waterlinesTighten : Obligations.WaterlinesTighten := by
  refine ⟨fun n s => ?_, fun s => ?_⟩
  · obtain ⟨t, e, x, above⟩ := exec_waterlineExchangeRunnel (s := s) ⟨n.basin, n.terrace⟩ n.runnel
    refine ⟨t, e, x.rest, x.routers, x.bridges, x.srams, x.shared, ?_, x.tightens, fun prn runnel q hq v wl => above prn runnel q hq v wl⟩
    have ents := congrArg (List.map fun p : Nat × List Heap => (p.1, p.2.map Heap.ents)) x.held
    simpa [State.heapsHeld, Function.comp_def, Heap.bare] using ents
  · refine ⟨_, exec_waterlineExchangeHeadworks s, ?_⟩
    generalize hq : (s.fabric.water.runnel.map fun e => (e.2.1, e.2.2.1)).dedup = qs
    have all : s.Shared (qs.foldl s.headworksQuery s) :=
      List.foldlRecOn (motive := s.Shared) _ _ (.refl s) fun t h q _ => h.step q
    have query {e : Nat × Nat × Nat × SketchPair} (he : e ∈ s.fabric.water.runnel) : (e.2.1, e.2.2.1) ∈ qs :=
      hq ▸ List.mem_dedup.mpr (List.mem_map_of_mem he)
    refine ⟨all.rest, all.fabric, all.hbm, all.tightens, fun e he p hp works => ?_, fun e he => ?_⟩
    · have on : runnelOfKey p.1 ∈ s.runnelsOn (e.2.1, e.2.2.1) := by
        obtain ⟨h, hh, rid, num⟩ := works
        refine List.mem_dedup.mpr (List.mem_map_of_mem (f := fun p : Nat × Rill => runnelOfKey p.1) (List.mem_filter.mpr ⟨hp, ?_⟩))
        exact List.any_eq_true.mpr ⟨h, hh, by simp [rid, num]⟩
      exact foldl_establishes (inv := s.Shared) (P := fun t => WlAbove (wlKey e.2.2.2) (t.fabric.water.at (runnelOfKey p.1) _))
        (query he) (.refl s) (fun t q h => h.step q) (fun t h => (State.headworksQuery_above h (State.sharedBest_above he)).2 _ on)
        fun t q h a => (h.step_tightens q).above a
    · exact foldl_establishes (inv := s.Shared) (P := (·.SharedAbove (e.2.1, e.2.2.1) (wlKey e.2.2.2))) (query he) (.refl s)
        (fun t q h => h.step q) (fun t h => (State.headworksQuery_above h (State.sharedBest_above he)).1)
        fun t q h a => a.step h (State.sharedBest_above he)

end Settled
end

section
/-! SUPPORT. Batch windows and coalescer windows (R143 to R145, R232): what the dispatch of a window's views touches. -/

set_option Elab.async false

namespace Sys2Proof.Machine
variable {s t u : State}

theorem State.regF_congr (h : t.regs = s.regs) (k l n : Nat) : t.regF k l n = s.regF k l n := by
  unfold State.regF State.reg
  rw [h]

/-! ### Streams -/

/-- `n` streams over lists have been dispatched: Rills, shared SRAMs, passes of the Spouts and four counters differ. -/
structure State.Streams (s t : State) (n : Nat) : Prop where
  rest : t = { s with free := t.free, regs := t.regs, hbm := t.hbm, fabric := t.fabric }
  hbm : t.hbm = { s.hbm with counts := t.hbm.counts, passes := t.hbm.passes }
  fabric : t.fabric = { s.fabric with rills := t.fabric.rills, srams := t.fabric.srams }
  only : OnlyRegs s t [Reg.SRCH_CNT_SKIPPED, Reg.SRCH_CNT_SCANNED, Reg.SRCH_CNT_THIN, Reg.SRCH_CNT_DENSE]
  streams : (t.regF Reg.SRCH_CNT_THIN 0 64 + t.regF Reg.SRCH_CNT_DENSE 0 64) % 2 ^ 64 =
    (s.regF Reg.SRCH_CNT_THIN 0 64 + s.regF Reg.SRCH_CNT_DENSE 0 64 + n) % 2 ^ 64

theorem State.Streams.refl (s : State) : s.Streams s 0 := ⟨rfl, rfl, rfl, .refl _ _, rfl⟩

theorem State.Streams.trans {m n : Nat} (a : s.Streams t m) (b : t.Streams u n) : s.Streams u (m + n) where
  rest := by rw [b.rest, a.rest]
  hbm := by rw [b.hbm, a.hbm]
  fabric := by rw [b.fabric, a.fabric]
  only := a.only.trans b.only
  streams := by
    have first := a.streams
    have second := b.streams
    omega

/-- A step without a stream leaves the counters of streams alone. -/
theorem State.Streams.step {n : Nat} (a : s.Streams t n)
    (rest : u = { t with free := u.free, regs := u.regs, hbm := u.hbm, fabric := u.fabric })
    (hbm : u.hbm = { t.hbm with counts := u.hbm.counts, passes := u.hbm.passes })
    (fabric : u.fabric = { t.fabric with rills := u.fabric.rills, srams := u.fabric.srams })
    (only : OnlyRegs t u [Reg.SRCH_CNT_SKIPPED, Reg.SRCH_CNT_SCANNED]) : s.Streams u n :=
  a.trans (n := 0) ⟨rest, hbm, fabric, only.mono (by simp +contextual), by
    rw [only.regF _ _ _ (by decide), only.regF _ _ _ (by decide)]
    rfl⟩

theorem State.Streams.foldl {α : Type} {f : State → α → State} {l : List α} {n : Nat} (a : s.Streams t n)
    (each : ∀ t x, s.Streams t n → s.Streams (f t x) n) : s.Streams (l.foldl f t) n :=
  List.foldlRecOn (motive := (s.Streams · n)) l f a fun t h x _ => each t x h

theorem State.Streams.scanMember {n : Nat} (a : s.Streams t n) (x : Index) (v : Nat × List Nat) (rill : Option Nat) (m : Nat × Nat) :
    s.Streams (t.scanMember x v rill m) n := by
  have counted (u : State) (h : s.Streams u n) (j k : Nat) :
      s.Streams ((u.bump Reg.SRCH_CNT_SCANNED 0 64 j).bump Reg.SRCH_CNT_SKIPPED 0 64 k) n :=
    h.step rfl rfl rfl (.trans (.bump _ _ _ _ (by simp)) (.bump _ _ _ _ (by simp)))
  unfold State.scanMember
  split
  · exact a
  · extract_lets count
    split_ifs
    · exact counted t a _ _
    · split
      · exact counted (t.setRill _ _) (a.step rfl rfl rfl (.of_regs rfl)) _ _
      · exact a

theorem State.Streams.openHeap {n : Nat} (a : s.Streams t n) (k rid query : Nat) : s.Streams (t.openHeap k rid query) n := by
  unfold State.openHeap
  split
  · exact a.step rfl rfl rfl (.of_regs rfl)
  · exact a

/-- The bump of the counter of thin or of dense streams counts one. -/
theorem State.Streams.count {n k : Nat} (a : s.Streams t n) (h : k = Reg.SRCH_CNT_THIN ∨ k = Reg.SRCH_CNT_DENSE) :
    s.Streams (t.bump k 0 64 1) (n + 1) := by
  refine a.trans ⟨rfl, rfl, rfl, .bump _ _ _ _ (by obtain rfl | rfl := h <;> simp), ?_⟩
  obtain rfl | rfl := h
  · have raised : (t.bump Reg.SRCH_CNT_THIN 0 64 1).regF Reg.SRCH_CNT_THIN 0 64 = _ := t.regF_bump_same _ 0 64 1 (by decide)
    have only : OnlyRegs t (t.bump Reg.SRCH_CNT_THIN 0 64 1) [Reg.SRCH_CNT_THIN] := .bump _ _ _ _ (by simp)
    rw [raised, only.regF _ _ _ (by decide)]
    omega
  · have raised : (t.bump Reg.SRCH_CNT_DENSE 0 64 1).regF Reg.SRCH_CNT_DENSE 0 64 = _ := t.regF_bump_same _ 0 64 1 (by decide)
    have only : OnlyRegs t (t.bump Reg.SRCH_CNT_DENSE 0 64 1) [Reg.SRCH_CNT_DENSE] := .bump _ _ _ _ (by simp)
    rw [raised, only.regF _ _ _ (by decide)]
    omega

theorem State.Streams.denseStream {n : Nat} (a : s.Streams t n) (x : Index) (slice basin : Nat) (v : Nat × List Nat)
    (ms : List (Nat × Nat)) : s.Streams (t.denseStream x slice basin v ms) (n + 1) := by
  unfold State.denseStream
  extract_lets f g rs rk bytes banks t1 t2
  have taken : s.Streams g.2 n := a.step rfl rfl rfl (.of_regs rfl)
  have h1 : s.Streams t1 n := by
    unfold t1
    cases rk with
    | some k => exact taken.step rfl rfl rfl (.of_regs rfl)
    | none => exact taken
  have h2 : s.Streams t2 n := by
    refine h1.foldl fun u j h => ?_
    split
    · exact h.scanMember _ _ _ _
    · exact h
  exact h2.count (.inr rfl)

theorem State.Streams.thinScan {n : Nat} (a : s.Streams t n) (i : Nat) (x : Index) (slot basin : Nat) (v : Nat × List Nat)
    (ms : List (Nat × Nat)) : s.Streams (t.thinScan i x slot basin v ms) (n + 1) := by
  unfold State.thinScan
  extract_lets t1
  have h1 : s.Streams t1 n := by
    refine a.foldl fun u g h => ?_
    extract_lets f h' rs rk members p w
    have taken : s.Streams h'.2 n := h.step rfl rfl rfl (.of_regs rfl)
    have opened : s.Streams w n := by
      refine taken.foldl fun u m h => ?_
      split
      · exact h.openHeap _ _ _
      · exact h
    exact opened.step rfl rfl rfl (.of_regs rfl)
  exact h1.count (.inl rfl)

theorem State.Streams.scanView {n : Nat} (a : s.Streams t n) (i : Nat) (x : Index) (w : Window) (v : Nat × List Nat) :
    s.Streams (t.scanView i x w v) (n + 1) := by
  unfold State.scanView
  extract_lets mem ms e
  split_ifs
  · exact a.thinScan _ _ _ _ _ _
  · exact a.denseStream _ _ _ _ _

/-- Each view of a window is one stream. -/
theorem State.Streams.scanViews {n : Nat} (a : s.Streams t n) (i : Nat) (x : Index) (w : Window) (vs : List (Nat × List Nat)) :
    s.Streams (vs.foldl (fun t v => t.scanView i x w v) t) (n + vs.length) := by
  induction vs generalizing t n with
  | nil => exact a
  | cons v vs ih =>
    rw [List.foldl_cons, List.length_cons, Nat.add_comm vs.length, ← Nat.add_assoc]
    exact ih (a.scanView i x w v)

theorem State.Streams.countWindow {n : Nat} (a : s.Streams t n) (i slot queries : Nat) : s.Streams (t.countWindow i slot queries) n :=
  a.step rfl rfl rfl (.of_regs rfl)

/-! ### BATCH_WINDOW_CLOSE -/

/-- The views of the list that a window's members have. -/
def State.viewsOf (s : State) (x : Index) (w : Window) (slot : Nat) : List (Nat × List Nat) :=
  (w.members.filterMap (fun m => (s.req? m.1).map (fun r => x.view r.epoch slot))).dedup

theorem exec_batchWindowClose {idx : Fin 32} {slot : Nat} {w : Window} {x : Index}
    (window : s.windows.find? (fun w => w.idx == idx.val && w.slot == slot) = some w) (index : s.index? idx = some x)
    (due : w.opened.toNat + s.regF Reg.SRCH_CFG 16 14 ≤ s.now.toNat ∨ 256 ≤ w.members.length) :
    exec (.batchWindowClose idx slot) s = .next (((s.viewsOf x w slot).foldl (fun (t : State) v => t.scanView idx x w v)
      { s with windows := s.windows.erase w }).countWindow idx slot w.members.length) := by
  show execBatchWindowClose idx slot s = _
  unfold execBatchWindowClose
  rw [window, index]
  have open_ : ¬ (!(decide (w.opened.toNat + s.regF Reg.SRCH_CFG 16 14 ≤ s.now.toNat) || decide (256 ≤ w.members.length) ||
      s.windowUrgent w (s.regF Reg.SRCH_CFG 16 14))) = true := by
    obtain h | h := due <;> simp [h]
  exact if_neg open_

theorem exec_batchWindowClose_early {idx : Fin 32} {slot : Nat} {w : Window}
    (window : s.windows.find? (fun w => w.idx == idx.val && w.slot == slot) = some w)
    (early : s.now.toNat < w.opened.toNat + s.regF Reg.SRCH_CFG 16 14) (few : w.members.length < 256)
    (far : ∀ m ∈ w.members, ∃ r, s.req? m.1 = some r ∧ s.now.toNat + 4 * s.regF Reg.SRCH_CFG 16 14 ≤ r.hdr.deadline.toNat) :
    exec (.batchWindowClose idx slot) s = .next s := by
  have calm : s.windowUrgent w (s.regF Reg.SRCH_CFG 16 14) = false := by
    unfold State.windowUrgent
    rw [List.any_eq_false]
    intro m hm
    obtain ⟨r, held, late⟩ := far m hm
    rw [held]
    simpa using late
  show execBatchWindowClose idx slot s = _
  unfold execBatchWindowClose
  rw [window]
  cases s.index? idx with
  | none => rfl
  | some x => exact if_pos (by simp [calm, early, few])

/-! ### COALESCER_WINDOW_FREE -/

/-- A request's window, done with, is closed, and the request waits for the next. -/
def State.nextWindow (s : State) (rid : Nat) (r : Req) : State :=
  (s.closeWindow rid).modReq rid (fun q => { q with life := .waitWindow, winLeft := r.winLeft - 1 })

theorem exec_coalescerWindowFree {rid : Nat} {r : Req} (held : s.req? rid = some r) (running : r.life = .running)
    (window : r.winOpen = true) (left : r.winLeft ≠ 0) (phase : r.phase ≠ .coalesce) (done : s.windowDone rid = true) :
    exec (.coalescerWindowFree rid) s = .next ((s.nextWindow rid r).handWindows (s.nextWindow rid r).reqs.length) := by
  show execCoalescerWindowFree rid s = _
  unfold execCoalescerWindowFree
  rw [held]
  simp only [running, window, phase, done, left, ne_eq, not_false_eq_true, and_self, if_true]
  rfl

theorem Store.insert_insert_same {α : Type} (st : Store α) (k : Nat) (v w : α) :
    Store.insert (Store.insert st k v) k w = Store.insert st k w := by
  induction st with
  | nil => simp [Store.insert]
  | cons p t ih =>
    simp only [Store.insert]
    split_ifs with below same
    · simp [Store.insert]
    · simp [Store.insert]
    · simp only [Store.insert, if_neg below, if_neg same, ih]

theorem State.modReq_of_held {rid : Nat} {r : Req} (held : s.req? rid = some r) (f : Req → Req) :
    s.modReq rid f = { s with reqs := Store.insert s.reqs rid (f r) } := by
  unfold State.modReq Store.adjust
  rw [show Store.find? s.reqs rid = some r from held]

theorem State.nextWindow_eq {rid : Nat} {r : Req} (held : s.req? rid = some r) (window : r.winOpen = true) :
    s.nextWindow rid r = { s.bump Reg.GSJ_CNT_WINDOWS 0 64 1 with
      reqs := Store.insert s.reqs rid { r with winOpen := false, life := .waitWindow, winLeft := r.winLeft - 1 } } := by
  unfold State.nextWindow State.closeWindow
  rw [held]
  dsimp only
  rw [if_pos window, State.modReq_of_held held]
  generalize hu : State.bump { s with reqs := Store.insert s.reqs rid { r with winOpen := false } } Reg.GSJ_CNT_WINDOWS 0 64 1 = u
  have closed : u.req? rid = some { r with winOpen := false } := by
    rw [← hu]
    exact Store.find?_insert_same _ _ _
  rw [State.modReq_of_held closed, ← hu]
  exact congrArg (fun q => { s.bump Reg.GSJ_CNT_WINDOWS 0 64 1 with reqs := q }) (Store.insert_insert_same _ _ _ _)

theorem State.handWindows_of_none (none : ∀ p ∈ s.reqs, p.2.life ≠ .waitWindow) (n : Nat) : s.handWindows n = s := by
  cases n with
  | zero => rfl
  | succ n =>
    unfold State.handWindows
    rw [List.find?_eq_none.mpr fun p hp => by simpa using none p hp]

theorem exec_coalescerWindowFree_none {rid : Nat} (waits : ∀ p ∈ s.reqs, p.2.life ≠ .waitWindow) (busy : s.windowDone rid = false) :
    exec (.coalescerWindowFree rid) s = .next s := by
  have stays : (match s.req? rid with
      | some (r : Req) =>
        if r.life = .running ∧ r.winOpen ∧ r.winLeft ≠ 0 ∧ r.phase ≠ .coalesce ∧ s.windowDone rid then
          (s.closeWindow rid).modReq rid (fun q => { q with life := .waitWindow, winLeft := r.winLeft - 1 })
        else s
      | none => s) = s := by
    cases s.req? rid with
    | none => rfl
    | some r => exact if_neg (by simp [busy])
  show execCoalescerWindowFree rid s = _
  unfold execCoalescerWindowFree
  extract_lets s1
  rw [show s1 = s from stays, State.handWindows_of_none waits]

end Sys2Proof.Machine

section Settled
open Sys2Proof Sys2Proof.Machine

/-- Settles O23. -/
theorem windowsClose : Obligations.WindowsClose := by
  refine ⟨fun idx slot s w x window index due => ?_, fun idx slot s w window early few far => ?_,
    fun rid s r held running window left phase done => ?_, fun rid s waits busy => ?_⟩
  · let s1 : State := { s with windows := s.windows.erase w }
    have all := ((State.Streams.refl s1).scanViews idx x w (s.viewsOf x w slot)).countWindow idx slot w.members.length
    refine ⟨_, exec_batchWindowClose window index due, all.rest, all.only, ?_, all.hbm, all.fabric⟩
    rw [all.streams, Nat.zero_add]
    rfl
  · exact ⟨s, exec_batchWindowClose_early window early few far, rfl⟩
  · have closed := State.nextWindow_eq held window
    have ran := exec_coalescerWindowFree held running window left phase done
    generalize s.nextWindow rid r = s1 at closed ran
    refine ⟨_, ran, s1, { r with winOpen := false, life := .waitWindow, winLeft := r.winLeft - 1 }, ?_, ?_, ?_, rfl, rfl⟩
    · rw [closed]
      rfl
    · rw [closed]
      exact .trans (.bump Reg.GSJ_CNT_WINDOWS 0 64 1 (by simp)) (.of_regs rfl)
    · rw [closed]
      exact .before _ _ _ _ (.of_bump Reg.GSJ_CNT_WINDOWS 0 64 1 (by decide)) (State.regF_congr rfl _ _ _)
  · exact ⟨s, exec_coalescerWindowFree_none waits busy, rfl⟩

end Settled
end

section
/-! SUPPORT. What a frame of an Urdun link does to its port (R405 to R410). -/

set_option Elab.async false

namespace Sys2Proof.Machine
variable {s t u : State}

/-- A saturating counter leaves a field apart from it in the same register as it was. -/
theorem State.regF_bumpSat_apart (s : State) (k l n v l' n' : Nat) (h : l + n ≤ 64) (d : l + n ≤ l' ∨ l' + n' ≤ l) :
    (s.bumpSat k l n v).regF k l' n' = s.regF k l' n' :=
  s.regF_setRegF_apart k l n _ l' n' h d

theorem State.port_congr (h : t.urdun.ports = s.urdun.ports) (p : Nat) : t.port p = s.port p := by
  unfold State.port
  rw [h]

/-- What the receiver of a frame checks first: its length and its CRC. -/
def frameGood (bs : List Byte) : Bool :=
  bs.length == 48 + leAt bs 28 2 && leAt bs (40 + leAt bs 28 2) 4 == (crc32c (bs.take (40 + leAt bs 28 2))).toNat

theorem frameGood_of {bs : List Byte} (length : bs.length = 48 + leAt bs 28 2)
    (crc : leAt bs (40 + leAt bs 28 2) 4 = (crc32c (bs.take (40 + leAt bs 28 2))).toNat) : frameGood bs = true := by
  simp [frameGood, ← length, crc]

theorem not_frameGood_of {bs : List Byte} (h : bs.length ≠ 48 + leAt bs 28 2 ∨
    leAt bs (40 + leAt bs 28 2) 4 ≠ (crc32c (bs.take (40 + leAt bs 28 2))).toNat) : frameGood bs = false := by
  unfold frameGood
  obtain h | h := h <;> simp [h]

theorem exec_urdunFrame_corrupt {port : Fin 8} {bs : List Byte} (up : s.portUp port = true) (bad : frameGood bs = false) :
    exec (.urdunFrame port bs) s = .next ((s.bumpSat (instKey Reg.URD_PORT_ERR port) 32 16 1).sendNack port) := by
  show execUrdunFrame port bs s = _
  unfold execUrdunFrame
  rw [if_neg (by simp [up])]
  exact if_pos (show (!frameGood bs) = true by rw [bad]; rfl)

theorem exec_urdunFrame_outOfSequence {port : Fin 8} {bs : List Byte} (up : s.portUp port = true) (good : frameGood bs = true)
    (seq : leAt bs 0 2 ≠ (s.port port).rxSeq) : exec (.urdunFrame port bs) s = .next (s.sendNack port) := by
  show execUrdunFrame port bs s = _
  unfold execUrdunFrame
  rw [if_neg (by simp [up])]
  exact (if_neg (show ¬ (!frameGood bs) = true by rw [good]; decide)).trans (if_pos seq)

/-- A good frame in sequence is acknowledged, then dropped or taken. -/
theorem exec_urdunFrame_inSequence {port : Fin 8} {bs : List Byte} (up : s.portUp port = true) (good : frameGood bs = true)
    (seq : leAt bs 0 2 = (s.port port).rxSeq) :
    exec (.urdunFrame port bs) s =
      if adrNode (BitVec.ofNat 64 (leAt bs 8 8)) ≠ s.ownNode ∨
          kindUnit (byteAt bs 2) ≠ some (adrUnit (BitVec.ofNat 64 (leAt bs 8 8))) then
        .next ((s.ackFrame port (byteAt bs 2 == 4) ((bs.length + 63) / 64)).bumpSat Reg.URD_CNT_DROP 0 16 1)
      else .next ((s.ackFrame port (byteAt bs 2 == 4) ((bs.length + 63) / 64)).reassemble port (byteAt bs 2)
        (bitsOf (byteAt bs 3) 0 1 == 1) (bitsOf (byteAt bs 3) 1 1 == 1) (leAt bs 4 4) (BitVec.ofNat 64 (leAt bs 16 8))
        (leAt bs 24 4) (leAt bs 32 4) ((bs.drop 40).take (leAt bs 28 2))) := by
  show execUrdunFrame port bs s = _
  unfold execUrdunFrame
  rw [if_neg (by simp [up])]
  exact (if_neg (show ¬ (!frameGood bs) = true by rw [good]; decide)).trans (if_neg (not_not_intro seq))

/-! ### What the acknowledgement changes -/

/-- The acknowledgement of a frame with credits of the common pool leaves. -/
structure State.Acked (s t : State) (port credits : Nat) : Prop where
  rest : t = { s with regs := t.regs, out := t.out, urdun := t.urdun }
  out : t.out = s.out ++ [.ctrl port (ctrlBytes (.ack (s.port port).rxSeq)), .ctrl port (ctrlBytes (.credit false (t.port port).given))]
  port : t.port port = { s.port port with
    rxSeq := ((s.port port).rxSeq + 1) % 65536
    given := ((s.port port).given + credits) % 4294967296 }
  reasm : t.urdun.reasm = s.urdun.reasm
  msgs : t.urdun.msgs = s.urdun.msgs
  only : OnlyRegs s t [Reg.URD_CNT_FRAMES]
  counted : Counted s t Reg.URD_CNT_FRAMES 0 64 1

theorem State.ackFrame_acked (s : State) (port credits : Nat) : s.Acked (s.ackFrame port false credits) port credits := by
  have port_eq : (s.ackFrame port false credits).port port = { s.port port with
      rxSeq := ((s.port port).rxSeq + 1) % 65536
      given := ((s.port port).given + credits) % 4294967296 } := s.port_setPort_same port _
  exact ⟨rfl, by rw [port_eq]; rfl, port_eq, rfl, rfl, .bump _ _ _ _ (by simp), Counted.of_bump _ _ _ _ (by decide)⟩

/-- The first frame of a message of kind 3 that is not its last opens a partial of its own. -/
theorem State.reassemble_first (s : State) (port msgLen mid offset : Nat) (src : U64) (payload : List Byte) :
    s.reassemble port 3 true false msgLen src mid offset payload =
      s.withReasm (s.urdun.reasm.filter (fun p => !p.isOf src mid) ++ [⟨port, 3, src, mid, msgLen, false, s.tick, payload⟩]) := by
  unfold State.reassemble State.startPartial
  rfl

theorem State.port_withReasm (s : State) (l : List Partial) (p : Nat) : (s.withReasm l).port p = s.port p := rfl

/-! ### The outcomes of a frame -/

/-- A NACK that names the next frame expected leaves, and counts. -/
structure State.Nacked (s t : State) (port : Nat) : Prop where
  rest : t = { s with regs := t.regs, out := t.out }
  out : t.out = s.out ++ [.ctrl port (ctrlBytes (.nack (s.port port).rxSeq))]
  only : OnlyRegs s t [instKey Reg.URD_PORT_ERR port]
  counted : CountedSat s t (instKey Reg.URD_PORT_ERR port) 16 16 1
  crc : t.regF (instKey Reg.URD_PORT_ERR port) 32 16 = s.regF (instKey Reg.URD_PORT_ERR port) 32 16

theorem State.sendNack_nacked (s : State) (port : Nat) : s.Nacked (s.sendNack port) port where
  rest := rfl
  out := rfl
  only := .trans (.of_regs rfl) (.bumpSat _ _ _ _ (List.mem_singleton.mpr rfl))
  counted := .after _ _ _ _ (State.regF_congr rfl _ _ _) (.of_bumpSat _ _ _ _ (by decide))
  crc := (State.regF_bumpSat_apart _ _ _ _ _ _ _ (by decide) (by decide)).trans (State.regF_congr rfl _ _ _)

theorem urdunFrame_corrupt {port : Fin 8} {bs : List Byte} (up : s.portUp port = true) (bad : frameGood bs = false) :
    Completes (.urdunFrame port bs) s (fun t => t = { s with regs := t.regs, out := t.out } ∧
      t.out = s.out ++ [.ctrl port (ctrlBytes (.nack (s.port port).rxSeq))] ∧ OnlyRegs s t [instKey Reg.URD_PORT_ERR port] ∧
      CountedSat s t (instKey Reg.URD_PORT_ERR port) 32 16 1 ∧ CountedSat s t (instKey Reg.URD_PORT_ERR port) 16 16 1) := by
  have ran := exec_urdunFrame_corrupt up bad
  have only : OnlyRegs s (s.bumpSat (instKey Reg.URD_PORT_ERR port) 32 16 1) [instKey Reg.URD_PORT_ERR port] :=
    .bumpSat _ _ _ _ (List.mem_singleton.mpr rfl)
  have crc : CountedSat s (s.bumpSat (instKey Reg.URD_PORT_ERR port) 32 16 1) (instKey Reg.URD_PORT_ERR port) 32 16 1 :=
    .of_bumpSat _ _ _ _ (by decide)
  have apart := s.regF_bumpSat_apart (instKey Reg.URD_PORT_ERR port) 32 16 1 16 16 (by decide) (by decide)
  have rest : s.bumpSat (instKey Reg.URD_PORT_ERR port) 32 16 1 = { s with
    regs := (s.bumpSat (instKey Reg.URD_PORT_ERR port) 32 16 1).regs } := rfl
  generalize s.bumpSat (instKey Reg.URD_PORT_ERR port) 32 16 1 = a at *
  have nacked := a.sendNack_nacked port
  generalize a.sendNack port = t at *
  refine ⟨_, ran, ?_, ?_, only.trans nacked.only, crc.before _ _ _ _ nacked.crc, nacked.counted.after _ _ _ _ apart⟩
  · rw [nacked.rest, rest]
  · have out : a.out = s.out := by rw [rest]
    have same : a.port port = s.port port := State.port_congr (by rw [rest]) port
    rw [nacked.out, out, same]

theorem urdunFrame_outOfSequence {port : Fin 8} {bs : List Byte} (up : s.portUp port = true) (good : frameGood bs = true)
    (seq : leAt bs 0 2 ≠ (s.port port).rxSeq) :
    Completes (.urdunFrame port bs) s (fun t => t = { s with regs := t.regs, out := t.out } ∧
      t.out = s.out ++ [.ctrl port (ctrlBytes (.nack (s.port port).rxSeq))] ∧ OnlyRegs s t [instKey Reg.URD_PORT_ERR port] ∧
      CountedSat s t (instKey Reg.URD_PORT_ERR port) 16 16 1) := by
  have nacked := s.sendNack_nacked port
  exact ⟨_, exec_urdunFrame_outOfSequence up good seq, nacked.rest, nacked.out, nacked.only, nacked.counted⟩

theorem urdunFrame_dropped {port : Fin 8} {bs : List Byte} (up : s.portUp port = true) (good : frameGood bs = true)
    (seq : leAt bs 0 2 = (s.port port).rxSeq) (kind : byteAt bs 2 ≠ 4)
    (other : adrNode (BitVec.ofNat 64 (leAt bs 8 8)) ≠ s.ownNode ∨
      kindUnit (byteAt bs 2) ≠ some (adrUnit (BitVec.ofNat 64 (leAt bs 8 8)))) :
    Completes (.urdunFrame port bs) s (fun t => t = { s with regs := t.regs, out := t.out, urdun := t.urdun } ∧
      t.out = s.out ++ [.ctrl port (ctrlBytes (.ack (s.port port).rxSeq)),
        .ctrl port (ctrlBytes (.credit false (t.port port).given))] ∧
      t.port port = { s.port port with
        rxSeq := ((s.port port).rxSeq + 1) % 65536
        given := ((s.port port).given + (bs.length + 63) / 64) % 4294967296 } ∧
      t.urdun.reasm = s.urdun.reasm ∧ t.urdun.msgs = s.urdun.msgs ∧
      OnlyRegs s t [Reg.URD_CNT_FRAMES, Reg.URD_CNT_DROP] ∧ Counted s t Reg.URD_CNT_FRAMES 0 64 1 ∧
      CountedSat s t Reg.URD_CNT_DROP 0 16 1) := by
  have acked := s.ackFrame_acked port ((bs.length + 63) / 64)
  have ran := exec_urdunFrame_inSequence up good seq
  rw [if_pos other, beq_eq_false_iff_ne.mpr kind] at ran
  generalize s.ackFrame port false ((bs.length + 63) / 64) = a at acked ran
  refine ⟨_, ran, ?_, acked.out, acked.port, acked.reasm, acked.msgs, ?_, ?_, ?_⟩
  · rw [acked.rest]
    rfl
  · exact .trans (acked.only.mono (by simp)) (.bumpSat _ _ _ _ (by simp))
  · exact .before _ _ _ _ acked.counted ((OnlyRegs.bumpSat Reg.URD_CNT_DROP 0 16 1 (List.mem_singleton.mpr rfl)).regF _ _ _ (by decide))
  · exact .after _ _ _ _ (acked.only.regF _ _ _ (by decide)) (.of_bumpSat _ _ _ _ (by decide))

theorem urdunFrame_first {port : Fin 8} {bs : List Byte} (up : s.portUp port = true) (good : frameGood bs = true)
    (seq : leAt bs 0 2 = (s.port port).rxSeq) (node : adrNode (BitVec.ofNat 64 (leAt bs 8 8)) = s.ownNode)
    (unit : kindUnit (byteAt bs 2) = some (adrUnit (BitVec.ofNat 64 (leAt bs 8 8)))) (kind : byteAt bs 2 = 3)
    (first : bitsOf (byteAt bs 3) 0 1 = 1) (last : bitsOf (byteAt bs 3) 1 1 = 0) :
    Completes (.urdunFrame port bs) s (fun t => t = { s with regs := t.regs, out := t.out, urdun := t.urdun } ∧
      (t.port port).rxSeq = ((s.port port).rxSeq + 1) % 65536 ∧ t.urdun.msgs = s.urdun.msgs ∧
      t.urdun.reasm = s.urdun.reasm.filter (fun p => !p.isOf (BitVec.ofNat 64 (leAt bs 16 8)) (leAt bs 24 4)) ++
        [{ port := port, kind := 3, src := BitVec.ofNat 64 (leAt bs 16 8), msgId := leAt bs 24 4, msgLen := leAt bs 4 4
           busy := false, last := s.tick, bytes := (bs.drop 40).take (leAt bs 28 2) }]) := by
  have acked := s.ackFrame_acked port ((bs.length + 63) / 64)
  have ran := exec_urdunFrame_inSequence up good seq
  rw [if_neg (by simp [node, unit]), kind, first, last] at ran
  rw [show ((1 : Nat) == 1) = true from rfl, show ((0 : Nat) == 1) = false from rfl, show ((3 : Nat) == 4) = false from rfl,
    State.reassemble_first] at ran
  generalize s.ackFrame port false ((bs.length + 63) / 64) = a at acked ran
  have tick : a.tick = s.tick := congrArg Clep.ticks (show a.clep = s.clep by rw [acked.rest])
  refine ⟨_, ran, ?_, ?_, acked.msgs, ?_⟩
  · rw [acked.rest]
    rfl
  · rw [State.port_withReasm, acked.port]
  · rw [← acked.reasm, ← tick]
    rfl

end Sys2Proof.Machine

section Settled
open Sys2Proof Sys2Proof.Machine

/-- Settles O24, outcome by outcome: corrupt, out of sequence, for another node, and the first frame of a message. -/
theorem framesChecked : Obligations.FramesChecked := by
  exact ⟨fun _ _ _ up bad => urdunFrame_corrupt up (not_frameGood_of bad),
    fun _ _ _ up length crc => urdunFrame_outOfSequence up (frameGood_of length crc),
    fun _ _ _ up length crc => urdunFrame_dropped up (frameGood_of length crc),
    fun _ _ _ up length crc => urdunFrame_first up (frameGood_of length crc)⟩

end Settled
end

section
/-! SUPPORT. What a control word does to the replay buffer and the credits of its port (R407 to R414). -/

set_option Elab.async false

namespace Sys2Proof.Machine
variable {s t u : State}

/-- A good control word of the wanted kind on an up port is taken. -/
theorem State.takeCtrl_good {port kind : Nat} {w : List Byte} (up : s.portUp port = true) (good : ctrlGood w = true)
    (h : byteAt w 0 = kind) : s.takeCtrl port kind w = (true, s) := by
  have up : (s.port port).state = .up := by simpa [State.portUp] using up
  unfold State.takeCtrl
  rw [if_neg (by simp [up]), if_pos good, h, beq_self_eq_true]

/-- One whose CRC fails is counted. -/
theorem State.takeCtrl_corrupt {port kind : Nat} {w : List Byte} (up : s.portUp port = true) (bad : ctrlGood w = false) :
    s.takeCtrl port kind w = (false, s.bumpSat (instKey Reg.URD_PORT_ERR port) 32 16 1) := by
  have up : (s.port port).state = .up := by simpa [State.portUp] using up
  unfold State.takeCtrl
  rw [if_neg (by simp [up]), if_neg (by simp [bad])]

/-! ### Frames delivered -/

/-- The messages whose last frames `fs` are have been delivered. -/
structure State.Delivered (s t : State) (fs : List (Nat × Frame)) : Prop where
  rest : t = { s with urdun := t.urdun, reqs := t.reqs }
  urdun : t.urdun = { s.urdun with msgs := t.urdun.msgs }
  kept : ∀ k, Store.find? s.urdun.msgs k = none → Store.find? t.urdun.msgs k = none
  was : ∀ k m, Store.find? t.urdun.msgs k = some m → Store.find? s.urdun.msgs k = some m
  gone : ∀ f ∈ fs, Store.find? t.urdun.msgs f.2.mid = none
  reqs : ∀ rid, s.req? rid ≠ none → t.req? rid = none → ∃ f ∈ fs, ∃ m, Store.find? s.urdun.msgs f.2.mid = some m ∧
    m.kind = .response ∧ m.rid = some rid

theorem State.Delivered.nil (s : State) : s.Delivered s [] :=
  ⟨rfl, rfl, fun _ h => h, fun _ _ h => h, by simp, fun _ some none => absurd none some⟩

theorem State.Delivered.append {f : Nat × Frame} {fs : List (Nat × Frame)} (a : s.Delivered t [f]) (b : t.Delivered u fs) :
    s.Delivered u (f :: fs) where
  rest := by rw [b.rest, a.rest]
  urdun := by rw [b.urdun, a.urdun]
  kept := fun k h => b.kept k (a.kept k h)
  was := fun k m h => a.was k m (b.was k m h)
  gone := by
    intro g hg
    obtain rfl | hg := List.mem_cons.mp hg
    · exact b.kept _ (a.gone g (List.mem_singleton.mpr rfl))
    · exact b.gone g hg
  reqs := by
    intro rid some none
    by_cases first : t.req? rid = .none
    · obtain ⟨g, hg, found⟩ := a.reqs rid some first
      exact ⟨g, List.mem_cons.mpr (.inl (List.mem_singleton.mp hg)), found⟩
    · obtain ⟨g, hg, m, found, why⟩ := b.reqs rid first none
      exact ⟨g, List.mem_cons_of_mem f hg, m, a.was _ m found, why⟩

theorem Store.find?_erase_some {α : Type} {st : Store α} {k j : Nat} {v : α} (h : Store.find? (Store.erase st k) j = some v) :
    Store.find? st j = some v := by
  by_cases e : j = k
  · subst e
    rw [Store.find?_erase_same] at h
    cases h
  · rwa [Store.find?_erase_other _ _ _ e] at h

/-- A message that is delivered goes, and a response takes its request with it (R62). -/
theorem State.deliverMsg_delivered (s : State) (f : Nat × Frame) : s.Delivered (s.deliverMsg f.2.mid) [f] := by
  unfold State.deliverMsg
  cases found : Store.find? s.urdun.msgs f.2.mid with
  | none => exact ⟨rfl, rfl, fun _ h => h, fun _ _ h => h, by simpa using found, fun _ some none => absurd none some⟩
  | some m =>
    have erased (t : State) (rest : t = { s with urdun := t.urdun, reqs := t.reqs })
        (urdun : t.urdun = { s.urdun with msgs := Store.erase s.urdun.msgs f.2.mid })
        (reqs : ∀ rid, s.req? rid ≠ none → t.req? rid = none → m.kind = .response ∧ m.rid = some rid) : s.Delivered t [f] := {
      rest := rest
      urdun := by rw [urdun]
      kept := by
        intro k h
        by_contra c
        obtain ⟨v, hv⟩ := Option.ne_none_iff_exists'.mp c
        rw [urdun] at hv
        rw [Store.find?_erase_some hv] at h
        cases h
      was := by
        intro k v h
        rw [urdun] at h
        exact Store.find?_erase_some h
      gone := by
        intro g hg
        rw [List.mem_singleton.mp hg, urdun]
        exact Store.find?_erase_same _ _
      reqs := fun rid some none => ⟨f, List.mem_singleton.mpr rfl, m, found, reqs rid some none⟩ }
    dsimp only
    split_ifs with response
    · unfold State.dropReq
      cases owner : m.rid with
      | none => exact erased _ rfl rfl fun _ some none => absurd none some
      | some r =>
        refine erased _ rfl rfl fun rid some none => ⟨response, ?_⟩
        by_contra c
        have other : rid ≠ r := fun e => c (by rw [owner, e])
        exact some ((Store.find?_erase_other _ _ _ other).symm.trans none)
    · exact erased _ rfl rfl fun _ some none => absurd none some

theorem State.foldl_deliverMsg (s : State) (fs : List (Nat × Frame)) :
    s.Delivered (fs.foldl (fun (t : State) f => t.deliverMsg f.2.mid) s) fs := by
  induction fs generalizing s with
  | nil => exact .nil s
  | cons f fs ih => exact (s.deliverMsg_delivered f).append (ih _)

/-! ### ACK -/

theorem exec_ack {port : Fin 8} {w : List Byte} {k : Nat} (up : s.portUp port = true) (good : ctrlGood w = true)
    (kind : byteAt w 0 = 1) (found : (s.port port).replay.findIdx? (fun f => f.1 == leAt w 2 2) = some k) :
    exec (.ack port w) s = .next (s.freeFrames port (k + 1)) := by
  show execAck port w s = _
  unfold execAck
  rw [State.takeCtrl_good up good kind]
  dsimp only
  rw [found]
  rfl

theorem exec_nack {port : Fin 8} {w : List Byte} {k : Nat} (up : s.portUp port = true) (good : ctrlGood w = true)
    (kind : byteAt w 0 = 2) (found : (s.port port).replay.findIdx? (fun f => f.1 == leAt w 2 2) = some k) :
    exec (.nack port w) s = .next (s.replayFrom port k) := by
  show execNack port w s = _
  unfold execNack
  rw [State.takeCtrl_good up good kind]
  dsimp only
  rw [found]
  rfl

/-- The frames freed, and the messages they were the last of. -/
theorem State.freeFrames_freed (s : State) (port n : Nat) :
    (s.freeFrames port n = { s with urdun := (s.freeFrames port n).urdun, reqs := (s.freeFrames port n).reqs } ∧
      (s.freeFrames port n).port port = { s.port port with
        replay := (s.port port).replay.drop n
        unsent := min (s.port port).unsent ((s.port port).replay.length - n)
        ackFrom := s.tick } ∧
      (∀ f ∈ (s.port port).replay.take n, f.2.last = true → f.2.mid ≠ 0 →
        Store.find? (s.freeFrames port n).urdun.msgs f.2.mid = none) ∧
      (∀ rid, s.req? rid ≠ none → (s.freeFrames port n).req? rid = none → ∃ f ∈ (s.port port).replay.take n, f.2.last = true ∧
        ∃ m, Store.find? s.urdun.msgs f.2.mid = some m ∧ m.kind = .response ∧ m.rid = some rid)) := by
  unfold State.freeFrames
  extract_lets p gone
  have delivered := State.foldl_deliverMsg (s.setPort port { p with
      replay := p.replay.drop n
      unsent := min p.unsent (p.replay.length - n)
      ackFrom := s.tick }) (gone.filter (fun f => f.2.last && f.2.mid != 0))
  generalize List.foldl _ _ _ = t at delivered ⊢
  refine ⟨?_, ?_, ?_, ?_⟩
  · rw [delivered.rest]
    rfl
  · have ports := congrArg Urdun.ports delivered.urdun
    exact (State.port_congr (by exact ports) port).trans (s.port_setPort_same port _)
  · intro f hf last mid
    exact delivered.gone f (List.mem_filter.mpr ⟨hf, by simp [last, mid]⟩)
  · intro rid some none
    obtain ⟨f, hf, found⟩ := delivered.reqs rid some none
    obtain ⟨hf, last⟩ := List.mem_filter.mp hf
    rw [Bool.and_eq_true] at last
    exact ⟨f, hf, last.1, found⟩

/-! ### Replay -/

theorem State.emitFrame_plain {port : Nat} (plain : bit (s.reg (instKey Reg.URD_INJECT port)) 1 = false) (lseq : Nat) (f : Frame) :
    s.emitFrame port lseq f = s.emit (.frame port (frameBytes lseq f 0)) := by
  unfold State.emitFrame
  dsimp only
  rw [if_neg (by simp [plain])]

theorem State.foldl_emitFrame_plain {port : Nat} (plain : bit (s.reg (instKey Reg.URD_INJECT port)) 1 = false)
    (fs : List (Nat × Frame)) :
    fs.foldl (fun (t : State) f => t.emitFrame port f.1 f.2) s = s.emits (fs.map (fun f => .frame port (frameBytes f.1 f.2 0))) := by
  induction fs generalizing s with
  | nil =>
    exact congrArg (fun o => { s with out := o }) (List.append_nil _).symm
  | cons f fs ih =>
    rw [List.foldl_cons, State.emitFrame_plain plain, ih (s := s.emit _) plain]
    exact congrArg (fun o => { s with out := o }) (List.append_assoc _ _ _)

/-- The frames from the `n`-th one on have been sent again. -/
structure State.Replayed (s t : State) (port n : Nat) : Prop where
  rest : t = { s with regs := t.regs, out := t.out, urdun := t.urdun }
  out : t.out = s.out ++ ((s.port port).sent.drop n).map (fun f => Out.frame port (frameBytes f.1 f.2 0))
  there : t.port port = { s.port port with ackFrom := s.tick }
  msgs : t.urdun.msgs = s.urdun.msgs
  only : OnlyRegs s t [Reg.URD_CNT_REPLAY]
  counted : Counted s t Reg.URD_CNT_REPLAY 0 64 ((s.port port).sent.drop n).length

theorem State.replayFrom_replayed {port : Nat} (plain : bit (s.reg (instKey Reg.URD_INJECT port)) 1 = false) (n : Nat) :
    s.Replayed (s.replayFrom port n) port n := by
  unfold State.replayFrom
  extract_lets p fs s1
  have sent : fs.foldl (fun (t : State) f => t.emitFrame port f.1 f.2) s1 =
    s1.emits (fs.map (fun f => .frame port (frameBytes f.1 f.2 0))) := State.foldl_emitFrame_plain (s := s1) plain fs
  rw [sent]
  have regs : (s1.emits (fs.map (fun f => .frame port (frameBytes f.1 f.2 0)))).regs = s.regs := rfl
  exact {
    rest := rfl
    out := rfl
    there := State.port_setPort_same _ _ _
    msgs := rfl
    only := .trans (.of_regs regs) (.bump _ _ _ _ (List.mem_singleton.mpr rfl))
    counted := .after _ _ _ _ (State.regF_congr regs _ _ _) (.of_bump Reg.URD_CNT_REPLAY 0 64 _ (by decide)) }

theorem exec_ackTimeout {port : Fin 8} (up : s.portUp port = true) (some : (s.port port).replay ≠ [])
    (late : (s.port port).ackFrom.toNat + 100 * s.regF Reg.URD_CFG 16 8 ≤ s.tick.toNat) :
    exec (.ackTimeout port) s = .next (s.replayFrom port 0) := by
  show execAckTimeout port s = _
  unfold execAckTimeout
  exact if_neg (by simp [up, some, late])

/-! ### CREDIT and corrupt words -/

theorem exec_credit {port : Fin 8} {adm : Bool} {w : List Byte} (up : s.portUp port = true) (good : ctrlGood w = true)
    (kind : byteAt w 0 = 3) : exec (.credit port adm w) s = .next (s.setPort port
      (if adm then { s.port port with admGranted := leAt w 4 4 } else { s.port port with granted := leAt w 4 4 })) := by
  show execCredit port adm w s = _
  unfold execCredit
  rw [State.takeCtrl_good up good kind]
  rfl

theorem exec_ctrl_corrupt {port : Fin 8} {adm : Bool} {w : List Byte} (up : s.portUp port = true) (bad : ctrlGood w = false) :
    ∀ i ∈ [Instr.ack port w, .nack port w, .credit port adm w],
      exec i s = .next (s.bumpSat (instKey Reg.URD_PORT_ERR port) 32 16 1) := by
  have corrupt (kind : Nat) := State.takeCtrl_corrupt (kind := kind) up bad
  simp only [List.mem_cons, List.not_mem_nil, or_false]
  rintro i (rfl | rfl | rfl)
  · show execAck port w s = _
    unfold execAck
    rw [corrupt]
    rfl
  · show execNack port w s = _
    unfold execNack
    rw [corrupt]
    rfl
  · show execCredit port adm w s = _
    unfold execCredit
    rw [corrupt]
    rfl

/-- A partial message without a frame for REASM_TO. -/
def State.stale (s : State) (src : U64) (mid : U32) (p : Partial) : Bool :=
  p.isOf src mid.toNat && decide (p.last.toNat + 10000 * s.regF Reg.URD_CFG 24 8 ≤ s.tick.toNat)

theorem exec_reassemblyTimeout {src : U64} {mid : U32} (late : s.urdun.reasm.any (s.stale src mid) = true) :
    exec (.reassemblyTimeout src mid) s =
      .next ((s.withReasm (s.urdun.reasm.filter (fun p => !s.stale src mid p))).bumpSat Reg.URD_CNT_DROP 16 16 1) :=
  if_pos late

end Sys2Proof.Machine

section Settled
open Sys2Proof Sys2Proof.Machine

/-- Settles O25, word by word. -/
theorem linkWordsObeyed : Obligations.LinkWordsObeyed := by
  refine ⟨fun port w s k up good kind found => ?_, fun port w s k up good kind found plain => ?_,
    fun port s up some late plain => ?_, fun port adm w s up good kind => ?_, fun port adm w s up bad i hi => ?_,
    fun src mid s late => ?_⟩
  · exact ⟨_, exec_ack up good kind found, s.freeFrames_freed port (k + 1)⟩
  · have replayed := State.replayFrom_replayed plain k
    exact ⟨_, exec_nack up good kind found, replayed.rest, replayed.out, replayed.there, replayed.msgs, replayed.only,
      replayed.counted⟩
  · have replayed := State.replayFrom_replayed plain 0
    exact ⟨_, exec_ackTimeout up some late, replayed.rest, replayed.out, replayed.there, replayed.msgs, replayed.only,
      replayed.counted⟩
  · exact ⟨_, exec_credit up good kind, rfl, State.port_setPort_same _ _ _, fun q other => State.port_setPort_other _ _ _ _ other, rfl⟩
  · exact ⟨_, exec_ctrl_corrupt up bad i hi, rfl⟩
  · have any : s.urdun.reasm.any (s.stale src mid) = true := by
      obtain ⟨p, hp, owner, old⟩ := late
      exact List.any_eq_true.mpr ⟨p, hp, by simp [State.stale, owner, old]⟩
    refine ⟨_, exec_reassemblyTimeout any, rfl, rfl, ?_, ?_⟩
    · exact .trans (.of_regs rfl) (.bumpSat _ _ _ _ (List.mem_singleton.mpr rfl))
    · exact .after _ _ _ _ (State.regF_congr rfl _ _ _) (.of_bumpSat _ _ _ _ (by decide))

end Settled
end

section
/-! SUPPORT. What the training and the retraining of an Urdun port touch (R405, R406, R418 to R421). -/

set_option Elab.async false

namespace Sys2Proof.Machine
variable {s t u : State}

/-! ### Register keys -/

theorem instKey_ne {k k' : Nat} (h : k % 524288 ≠ k' % 524288) (i j : Nat) : instKey k i ≠ instKey k' j := by
  unfold instKey
  omega

theorem instKey_ne_key {k k' : Nat} (h : k % 524288 ≠ k' % 524288) (i : Nat) : instKey k i ≠ k' := by
  unfold instKey
  omega

theorem instKey_ne_inst {i j : Nat} (k : Nat) (h : i ≠ j) : instKey k i ≠ instKey k j := by
  unfold instKey
  omega

theorem keyPage_instKey (k i : Nat) : keyPage (instKey k i) = keyPage k := by
  unfold keyPage instKey
  omega

/-- A write of 1 to a bit of a page that answers. -/
theorem State.writeOne_up {k : Nat} (up : s.pageUp (keyPage k) = true) (b : Nat) : s.writeOne k b = s.setRegF k b 1 1 := by
  unfold State.writeOne State.pfWrite
  rw [if_pos up]

/-- Registers among `ks` have been written, and nothing else has changed. -/
structure State.Wrote (s t : State) (ks : List Nat) : Prop where
  rest : t = { s with regs := t.regs }
  only : OnlyRegs s t ks

theorem State.Wrote.refl (s : State) (ks : List Nat) : s.Wrote s ks := ⟨rfl, .refl _ _⟩

theorem State.Wrote.trans {ks : List Nat} (a : s.Wrote t ks) (b : t.Wrote u ks) : s.Wrote u ks where
  rest := by rw [b.rest, a.rest]
  only := a.only.trans b.only

theorem State.Wrote.mono {ks js : List Nat} (a : s.Wrote t ks) (h : ∀ k ∈ ks, k ∈ js) : s.Wrote t js := ⟨a.rest, a.only.mono h⟩

theorem State.Wrote.setRegF {ks : List Nat} {k : Nat} (h : k ∈ ks) (l n v : Nat) : s.Wrote (s.setRegF k l n v) ks :=
  ⟨rfl, .setRegF _ _ _ _ h⟩

theorem State.Wrote.bump {ks : List Nat} {k : Nat} (h : k ∈ ks) (l n v : Nat) : s.Wrote (s.bump k l n v) ks :=
  ⟨rfl, .bump _ _ _ _ h⟩

theorem State.Wrote.bumpSat {ks : List Nat} {k : Nat} (h : k ∈ ks) (l n v : Nat) : s.Wrote (s.bumpSat k l n v) ks :=
  ⟨rfl, .bumpSat _ _ _ _ h⟩

theorem State.Wrote.foldl {α : Type} {ks : List Nat} {f : State → α → State} (l : List α) (a : s.Wrote t ks)
    (each : ∀ (t : State) x, x ∈ l → t.Wrote (f t x) ks) : s.Wrote (l.foldl f t) ks :=
  List.foldlRecOn (motive := (s.Wrote · ks)) l f a fun t h x hx => h.trans (each t x hx)

theorem State.Wrote.port {ks : List Nat} (a : s.Wrote t ks) (p : Nat) : t.port p = s.port p := State.port_congr (by rw [a.rest]) p

/-! ### Messages that find a port -/

/-- Messages have found ports: points, and the ports of messages, differ. -/
structure State.Routed (s t : State) : Prop where
  rest : t = { s with points := t.points, urdun := t.urdun }
  urdun : t.urdun = { s.urdun with waiting := t.urdun.waiting, msgs := t.urdun.msgs }
  bodies : ∀ m, (Store.find? t.urdun.msgs m).map UMsg.body = (Store.find? s.urdun.msgs m).map UMsg.body

theorem State.Routed.refl (s : State) : s.Routed s := ⟨rfl, rfl, fun _ => rfl⟩

theorem State.Routed.trans (a : s.Routed t) (b : t.Routed u) : s.Routed u where
  rest := by rw [b.rest, a.rest]
  urdun := by rw [b.urdun, a.urdun]
  bodies m := (b.bodies m).trans (a.bodies m)

theorem State.Routed.port (a : s.Routed t) (p : Nat) : t.port p = s.port p :=
  State.port_congr (by rw [a.urdun]) p

theorem State.queueUnit_routed (s : State) (pt : Nat) (v : SUnit) : s.Routed (s.queueUnit pt v) := by
  unfold State.queueUnit
  extract_lets p
  split_ifs
  · exact .refl s
  · exact ⟨rfl, rfl, fun _ => rfl⟩

theorem State.routeMsg_routed (s : State) (mid : Nat) : s.Routed (s.routeMsg mid) := by
  unfold State.routeMsg
  cases found : Store.find? s.urdun.msgs mid with
  | none => exact ⟨rfl, rfl, fun _ => rfl⟩
  | some m =>
    dsimp only
    split
    · exact .refl s
    · rename_i p _
      have placed : s.Routed { s with urdun := { s.urdun with
          waiting := s.urdun.waiting.erase mid
          msgs := Store.insert s.urdun.msgs mid { m with port := some p } } } := by
        refine ⟨rfl, rfl, fun k => ?_⟩
        by_cases same : k = mid
        · rw [same, Store.find?_insert_same, found]
          rfl
        · rw [Store.find?_insert_other _ _ _ _ same]
      exact List.foldlRecOn (motive := (s.Routed ·)) _ _ placed fun t h _ _ => h.trans (t.queueUnit_routed _ _)

theorem State.routeAll_routed (s : State) : s.Routed s.routeAll :=
  List.foldlRecOn (motive := (s.Routed ·)) _ _ (.refl s) fun t h _ _ => h.trans (t.routeMsg_routed _)

/-- Taking the port from some messages keeps their bytes. -/
theorem UMsg.bodies_map (msgs : Store UMsg) (p : Nat × UMsg → Bool) (k : Nat) :
    (Store.find? (msgs.map (fun m => if p m then (m.1, { m.2 with port := none }) else m)) k).map UMsg.body =
      (Store.find? msgs k).map UMsg.body := by
  induction msgs with
  | nil => rfl
  | cons m msgs ih =>
    rw [List.map_cons]
    have key : (if p m then (m.1, { m.2 with port := none }) else m).1 = m.1 := by split <;> rfl
    have body : (if p m then (m.1, { m.2 with port := none }) else m).2.body = m.2.body := by split <;> rfl
    simp only [Store.find?, key]
    split
    · exact congrArg some body
    · exact ih

theorem State.rerouteUnsent_routed (s : State) (p : Nat) : s.Routed (s.rerouteUnsent p) := by
  unfold State.rerouteUnsent
  extract_lets q mids stays s1
  split_ifs
  · exact .refl s
  · refine .trans ?_ (State.routeAll_routed _)
    exact ⟨rfl, rfl, fun k => UMsg.bodies_map s.urdun.msgs (fun m => mids.contains m.1) k⟩

/-! ### Admission frames that move -/

/-- Admission frames due have moved to other ports. -/
structure State.Moved (s t : State) : Prop where
  rest : t = { s with urdun := t.urdun }
  urdun : t.urdun = { s.urdun with ports := t.urdun.ports }
  port : ∀ q, t.port q = { s.port q with admDue := (t.port q).admDue }

theorem State.Moved.refl (s : State) : s.Moved s := ⟨rfl, rfl, fun _ => rfl⟩

theorem State.Moved.trans (a : s.Moved t) (b : t.Moved u) : s.Moved u where
  rest := by rw [b.rest, a.rest]
  urdun := by rw [b.urdun, a.urdun]
  port q := by rw [b.port, a.port]

theorem State.Moved.setPort (s : State) (p : Nat) (fs : List (Time × Frame)) :
    s.Moved (s.setPort p { s.port p with admDue := fs }) := by
  refine ⟨rfl, rfl, fun q => ?_⟩
  by_cases same : q = p
  · rw [same, State.port_setPort_same]
  · rw [State.port_setPort_other _ _ _ _ same]

theorem State.moveAdmissions_moved (s : State) (p : Nat) (fs : List (Time × Frame)) : s.Moved (s.moveAdmissions p fs) :=
  List.foldlRecOn (motive := (s.Moved ·)) _ _ (.setPort s p []) fun _ h _ _ => h.trans (.setPort _ _ _)

/-! ### A retraining starts -/

/-- The registers that the start of the retraining of a port writes. -/
def retrainKeys (p : Nat) (lanes : List Nat) (req : Option Nat) : List Nat :=
  instKey Reg.URD_PORT_ERR p :: instKey Reg.URD_PORT_CTRL p :: lanes.map laneLosKey ++
    req.toList.map (fun n => instKey Reg.URD_LANE_STATUS n)

/-- Port `p` has left state up for a retraining. -/
structure State.Retraining (s t : State) (p : Nat) (why : Retrain) (req : Option Nat) : Prop where
  rest : t = { s with regs := t.regs, points := t.points, urdun := t.urdun, keeper := t.keeper }
  lanes : t.urdun.lanes = s.urdun.lanes
  bodies : ∀ m, (Store.find? t.urdun.msgs m).map UMsg.body = (Store.find? s.urdun.msgs m).map UMsg.body
  there : t.port p = { s.port p with state := .retraining, why := some why, admDue := (t.port p).admDue }
  others : ∀ q, q ≠ p → t.port q = { s.port q with admDue := (t.port q).admDue }
  only : OnlyRegs s t (retrainKeys p ((s.port p).map.map (portLane p)) req)
  counted : CountedSat s t (instKey Reg.URD_PORT_ERR p) 0 16 1
  asked : bit (t.reg (instKey Reg.URD_PORT_CTRL p)) 0 = false
  los : ∀ l ∈ (s.port p).map, bit (t.reg (laneLosKey (portLane p l))) 0 = false

theorem bit_setRegF_zero (s : State) (k i : Nat) (h : i + 1 ≤ 64) : bit ((s.setRegF k i 1 0).reg k) i = false := by
  unfold State.setRegF
  rw [State.reg_setReg_same, bit_setField_same _ _ _ h]
  rfl

theorem laneLosKey_inj {n m : Nat} (h : laneLosKey n = laneLosKey m) : n = m := by
  by_contra c
  exact instKey_ne_inst Reg.URD_INJECT (by omega : 8 + n ≠ 8 + m) h

/-- Clearing the loss bits of some lanes. -/
theorem foldl_clearLos_wrote (s : State) (lanes : List Nat) :
    s.Wrote (lanes.foldl (fun (t : State) n => t.setRegF (laneLosKey n) 0 1 0) s) (lanes.map laneLosKey) :=
  .foldl lanes (.refl _ _) fun _ _ hx => .setRegF (List.mem_map_of_mem hx) _ _ _

theorem foldl_clearLos_bit (s : State) (lanes : List Nat) :
    ∀ n ∈ lanes, bit ((lanes.foldl (fun (t : State) n => t.setRegF (laneLosKey n) 0 1 0) s).reg (laneLosKey n)) 0 = false := by
  induction lanes generalizing s with
  | nil => simp
  | cons n lanes ih =>
    intro m hm
    rw [List.foldl_cons]
    by_cases later : m ∈ lanes
    · exact ih _ m later
    · obtain rfl | hm := List.mem_cons.mp hm
      · have apart : laneLosKey m ∉ lanes.map laneLosKey := by
          intro c
          obtain ⟨j, hj, same⟩ := List.mem_map.mp c
          rw [laneLosKey_inj same] at hj
          exact later hj
        rw [(foldl_clearLos_wrote _ lanes).only _ apart]
        exact bit_setRegF_zero _ _ _ (by decide)
      · exact absurd hm later

theorem laneLosKey_ne {k : Nat} (h : Reg.URD_INJECT % 524288 ≠ k % 524288) (n i : Nat) : laneLosKey n ≠ instKey k i :=
  instKey_ne h _ _

theorem State.regF_setPort {s : State} (p : Nat) (v : UPort) (k l n : Nat) : (s.setPort p v).regF k l n = s.regF k l n := rfl

theorem State.startRetrain_retraining (s : State) (p : Nat) (why : Retrain) (req : Option Nat) :
    s.Retraining (s.startRetrain p why req) p why req := by
  unfold State.startRetrain
  extract_lets v lanes s1 s2 s3
  have wrote1 : (s.setPort p { v with state := .retraining, why := some why }).Wrote s1 [instKey Reg.URD_PORT_ERR p] :=
    .bumpSat (List.mem_singleton.mpr rfl) 0 16 1
  have there1 : s1.port p = { v with state := .retraining, why := some why } :=
    (wrote1.port p).trans (s.port_setPort_same p _)
  have others1 : ∀ q, q ≠ p → s1.port q = s.port q := fun q other => (wrote1.port q).trans (s.port_setPort_other p q _ other)
  have counted1 : CountedSat s s1 (instKey Reg.URD_PORT_ERR p) 0 16 1 :=
    .after _ _ _ _ (State.regF_setPort p _ _ 0 16) (.of_bumpSat (instKey Reg.URD_PORT_ERR p) 0 16 1 (by decide))
  have only1 : OnlyRegs s s1 [instKey Reg.URD_PORT_ERR p] := .trans (.of_regs rfl) wrote1.only
  have rest1 : s1 = { s with regs := s1.regs, urdun := s1.urdun } := by
    rw [wrote1.rest]
    rfl
  have urdun1 : s1.urdun = { s.urdun with ports := s1.urdun.ports } := by
    rw [wrote1.rest]
    rfl
  have wrote2 : s1.Wrote s2 (instKey Reg.URD_PORT_CTRL p :: lanes.map laneLosKey) :=
    .trans (.setRegF (by simp) 0 1 0) ((foldl_clearLos_wrote _ lanes).mono (by simp +contextual))
  have asked2 : bit (s2.reg (instKey Reg.URD_PORT_CTRL p)) 0 = false := by
    have apart : instKey Reg.URD_PORT_CTRL p ∉ lanes.map laneLosKey := by
      intro c
      obtain ⟨n, _, same⟩ := List.mem_map.mp c
      exact laneLosKey_ne (by decide) n p same
    rw [show s2.reg (instKey Reg.URD_PORT_CTRL p) = _ from (foldl_clearLos_wrote _ lanes).only _ apart]
    exact bit_setRegF_zero _ _ _ (by decide)
  have los2 : ∀ n ∈ lanes, bit (s2.reg (laneLosKey n)) 0 = false := foldl_clearLos_bit _ lanes
  have wrote3 : s2.Wrote s3 (req.toList.map (fun n => instKey Reg.URD_LANE_STATUS n)) := by
    cases req with
    | none => exact .refl _ _
    | some n => exact .setRegF (List.mem_singleton.mpr rfl) _ _ _
  clear_value s1 s2 s3
  have moved := s3.moveAdmissions_moved p v.admDue
  generalize s3.moveAdmissions p v.admDue = s4 at moved ⊢
  have routed := s4.rerouteUnsent_routed p
  generalize s4.rerouteUnsent p = s5 at routed ⊢
  have regs53 : s5.regs = s3.regs := by rw [routed.rest, moved.rest]
  have urdun31 : s3.urdun = s1.urdun := by rw [wrote3.rest, wrote2.rest]
  have port5 (q : Nat) : s5.port q = { s1.port q with admDue := (s5.port q).admDue } := by
    rw [routed.port, moved.port, State.port_congr (congrArg Urdun.ports urdun31)]
  have keys5 : OnlyRegs s1 s5 (instKey Reg.URD_PORT_CTRL p :: lanes.map laneLosKey ++
      req.toList.map (fun n => instKey Reg.URD_LANE_STATUS n)) :=
    .trans (wrote2.only.mono (by simp +contextual)) (.trans (wrote3.only.mono (by simp +contextual)) (.of_regs regs53))
  have not_status (k : Nat) (h : ∀ n, k ≠ instKey Reg.URD_LANE_STATUS n) : s5.reg k = s2.reg k := by
    refine (OnlyRegs.of_regs (ks := []) regs53 k (by simp)).trans (wrote3.only k fun c => ?_)
    obtain ⟨n, _, same⟩ := List.mem_map.mp c
    exact h n same.symm
  refine ⟨?_, ?_, ?_, ?_, ?_, ?_, ?_, ?_, ?_⟩
  · rw [routed.rest, moved.rest, wrote3.rest, wrote2.rest, rest1]
  · rw [routed.urdun, moved.urdun, urdun31, urdun1]
  · intro m
    rw [routed.bodies, moved.urdun, urdun31, urdun1]
  · rw [port5, there1]
  · intro q other
    rw [port5, others1 q other]
  · refine .trans (only1.mono (by simp [retrainKeys])) (keys5.mono fun k hk => ?_)
    simp only [retrainKeys, List.cons_append, List.mem_cons] at hk ⊢
    exact .inr hk
  · refine counted1.before _ _ _ _ (keys5.regF _ _ _ ?_)
    simp only [List.cons_append, List.mem_cons, List.mem_append, List.mem_map, not_or, not_exists, not_and]
    exact ⟨instKey_ne (by decide) _ _, fun n _ => laneLosKey_ne (by decide) n p, fun n _ => instKey_ne (by decide) _ _⟩
  · rw [not_status _ fun n => instKey_ne (by decide) _ _]
    exact asked2
  · intro l hl
    rw [not_status _ fun n => laneLosKey_ne (by decide) _ _]
    exact los2 _ (List.mem_map_of_mem hl)

end Sys2Proof.Machine
end

section
/-! SUPPORT. How ports come up, go down and lose a lane (R405, R419 to R423). -/

set_option Elab.async false

namespace Sys2Proof.Machine
variable {s t u : State}

/-! ### The log -/

/-- An entry of the log below critical touches Keeper alone. -/
theorem State.logRaw_rest {sev : Nat} (h : sev ≠ sevCritical) (code : Nat) (data : List Byte) :
    s.logRaw code sev data = { s with keeper := (s.logRaw code sev data).keeper } := by
  unfold State.logRaw
  extract_lets k e k1 k2 s1
  rw [if_neg h]

theorem State.tellTrigger_rest (s : State) : s.tellTrigger = { s with keeper := s.tellTrigger.keeper } :=
  s.logEvent_eq 6 0 sevError (by decide)

/-! ### Lanes in the retirement record -/

theorem recorded_append_same (rs : List RetEntry) (e : RetEntry) : recorded (rs ++ [e]) e.kind e.loc = true := by
  simp [recorded]

theorem State.retire_recorded (s : State) (kind loc code : Nat) : recorded (s.retire kind loc code).record kind loc = true := by
  unfold State.retire
  by_cases already : recorded s.record kind loc = true
  · rw [if_pos already]
    exact already
  · rw [if_neg already]
    extract_lets e s1
    rw [State.logRaw_rest (by decide)]
    exact recorded_append_same s.record e

theorem State.retire_rest (s : State) (kind loc code : Nat) : s.retire kind loc code =
    { s with record := (s.retire kind loc code).record, keeper := (s.retire kind loc code).keeper } := by
  unfold State.retire
  by_cases already : recorded s.record kind loc = true
  · rw [if_pos already]
  · rw [if_neg already]
    extract_lets e s1
    rw [State.logRaw_rest (by decide)]

/-! ### A port that goes down -/

theorem State.portDown_down (s : State) (p : Nat) :
    s.portDown p = { s with points := (s.portDown p).points, urdun := (s.portDown p).urdun } ∧
      ((s.portDown p).port p).state = .down := by
  unfold State.portDown
  extract_lets v adm mine _ s1 _ s2
  have there : s2.port p = { UPort.reset p with partner := v.partner } :=
    (State.port_congr rfl p).trans (State.port_setPort_same _ p _)
  have rest : s2 = { s with points := s2.points, urdun := s2.urdun } := rfl
  clear_value s1 s2
  have moved := s2.moveAdmissions_moved p adm
  generalize s2.moveAdmissions p adm = s3 at moved ⊢
  have routed := s3.routeAll_routed
  generalize s3.routeAll = s4 at routed ⊢
  refine ⟨by rw [routed.rest, moved.rest, rest], ?_⟩
  rw [routed.port, moved.port, there]
  rfl

theorem State.portDown_regs (s : State) (p : Nat) : (s.portDown p).regs = s.regs := by rw [(s.portDown_down p).1]

theorem State.portDown_record (s : State) (p : Nat) : (s.portDown p).record = s.record := by rw [(s.portDown_down p).1]

/-! ### A lasting trigger -/

/-- With AUTO 1 the lane is retired, and its port does not come up by it. -/
theorem State.retireLane_auto {p n : Nat} (auto : bit (s.reg Reg.URD_SPARE_CFG) 32 = true) (down : (s.port p).state ≠ .up) :
    CountedSat s (s.retireLane p n) Reg.RST_CNT_FAULTS 32 16 1 ∧ recorded (s.retireLane p n).record kOptical n = true ∧
      ((s.retireLane p n).port p).state ≠ .up := by
  unfold State.retireLane
  extract_lets s1 s2 m
  have wrote : s.Wrote s1 [Reg.RST_CNT_FAULTS] := .bumpSat (List.mem_singleton.mpr rfl) 32 16 1
  have counted : CountedSat s s1 Reg.RST_CNT_FAULTS 32 16 1 := .of_bumpSat Reg.RST_CNT_FAULTS 32 16 1 (by decide)
  rw [if_pos auto]
  have retired : recorded s2.record kOptical n = true := s1.retire_recorded kOptical n 0
  have rest : s2 = _ := s1.retire_rest kOptical n 0
  clear_value s1 s2
  have regs : s2.regs = s1.regs := by rw [rest]
  by_cases few : m.length < 2
  · rw [if_pos few]
    refine ⟨counted.before _ _ _ _ (State.regF_congr ((s2.portDown_regs p).trans regs) _ _ _), ?_, ?_⟩
    · rw [State.portDown_record]
      exact retired
    · rw [(s2.portDown_down p).2]
      decide
  · rw [if_neg few]
    have logged := s2.logEvent_eq 6 1 sevError (by decide)
    generalize s2.logEvent 6 1 sevError = s3 at logged ⊢
    have regs3 : s3.regs = s1.regs := by rw [logged, regs]
    refine ⟨counted.before _ _ _ _ ((State.regF_setPort _ _ _ _ _).trans (State.regF_congr regs3 _ _ _)), ?_, ?_⟩
    · show recorded s3.record kOptical n = true
      rw [logged]
      exact retired
    · have same : s2.port p = s.port p := State.port_congr (by rw [rest, wrote.rest]) p
      rw [State.port_setPort_same]
      show (s2.port p).state ≠ .up
      rw [same]
      exact down

/-- With AUTO 0 it is only reported. -/
theorem State.retireLane_manual {p n : Nat} (auto : bit (s.reg Reg.URD_SPARE_CFG) 32 = false) :
    CountedSat s (s.retireLane p n) Reg.RST_CNT_FAULTS 32 16 1 ∧ (s.retireLane p n).record = s.record ∧
      (s.retireLane p n).port p = s.port p := by
  unfold State.retireLane
  extract_lets s1 s2 m
  have wrote : s.Wrote s1 [Reg.RST_CNT_FAULTS] := .bumpSat (List.mem_singleton.mpr rfl) 32 16 1
  have counted : CountedSat s s1 Reg.RST_CNT_FAULTS 32 16 1 := .of_bumpSat Reg.RST_CNT_FAULTS 32 16 1 (by decide)
  rw [if_neg (by rw [auto]; decide)]
  clear_value s1
  have logged := s1.logEvent_eq 6 2 sevError (by decide)
  generalize s1.logEvent 6 2 sevError = s3 at logged ⊢
  refine ⟨counted.before _ _ _ _ (State.regF_congr (by rw [logged]) _ _ _), ?_, State.port_congr ?_ p⟩
  · rw [logged, wrote.rest]
  · rw [logged, wrote.rest]

/-! ### The link layer resumes -/

/-- Frames of port `p` have been sent again on the credit that the partner granted afresh. -/
structure State.Resent (s t : State) (p : Nat) : Prop where
  rest : t = { s with free := t.free, out := t.out, regs := t.regs, urdun := t.urdun }
  urdun : t.urdun = { s.urdun with ports := t.urdun.ports }
  there : t.port p = { s.port p with used := (t.port p).used, admUsed := (t.port p).admUsed, unsent := (t.port p).unsent }
  only : OnlyRegs s t [Reg.URD_CNT_REPLAY, instKey Reg.URD_INJECT p]

theorem State.Resent.refl (s : State) (p : Nat) : s.Resent s p := ⟨rfl, rfl, rfl, .refl _ _⟩

theorem State.Resent.trans {p : Nat} (a : s.Resent t p) (b : t.Resent u p) : s.Resent u p where
  rest := by rw [b.rest, a.rest]
  urdun := by rw [b.urdun, a.urdun]
  there := by rw [b.there, a.there]
  only := a.only.trans b.only

theorem State.emitFrame_sent (s : State) (p lseq : Nat) (f : Frame) :
    (∃ (free : _) (out : _) (regs : _), s.emitFrame p lseq f = { s with free := free, out := out, regs := regs }) ∧ OnlyRegs s (s.emitFrame p lseq f) [instKey Reg.URD_INJECT p] := by
  unfold State.emitFrame
  extract_lets k r
  split_ifs
  · have wrote : r.2.Wrote (r.2.setRegF k 1 1 0) [k] := .setRegF (List.mem_singleton.mpr rfl) 1 1 0
    generalize r.2.setRegF k 1 1 0 = a at wrote ⊢
    exact ⟨⟨_, _, a.regs, by rw [wrote.rest]; rfl⟩, .trans (.of_regs rfl) (.trans wrote.only (.of_regs rfl))⟩
  · exact ⟨⟨_, _, s.regs, rfl⟩, .of_regs rfl⟩

theorem State.sendAgain_resent (s : State) (p n : Nat) : s.Resent (s.sendAgain p n) p := by
  induction n generalizing s with
  | zero => exact .refl s p
  | succ n ih =>
    unfold State.sendAgain
    extract_lets v
    split
    · exact .refl s p
    · rename_i f _
      split_ifs
      · have used : s.Resent (s.setPort p { v.use f.2 with unsent := v.unsent - 1 }) p := by
          refine ⟨rfl, rfl, ?_, .of_regs rfl⟩
          rw [State.port_setPort_same]
          unfold UPort.use
          split_ifs <;> rfl
        generalize s.setPort p _ = a at used ⊢
        obtain ⟨⟨free, out, regs, rest⟩, only⟩ := a.emitFrame_sent p f.1 f.2
        generalize a.emitFrame p f.1 f.2 = b at rest only ⊢
        have same : b.port p = a.port p := State.port_congr (by rw [rest]) p
        have sent : a.Resent b p := ⟨by rw [rest], by rw [rest], by rw [same], only.mono (by simp)⟩
        have wrote : b.Wrote (b.bump Reg.URD_CNT_REPLAY 0 64 1) [Reg.URD_CNT_REPLAY, instKey Reg.URD_INJECT p] :=
          .bump (by simp) 0 64 1
        have port := wrote.port p
        generalize b.bump Reg.URD_CNT_REPLAY 0 64 1 = c at wrote port ⊢
        have counted : b.Resent c p := ⟨by rw [wrote.rest], by rw [wrote.rest], by rw [port], wrote.only⟩
        exact used.trans (sent.trans (counted.trans (ih c)))
      · exact .refl s p

/-- No request for a retraining is due. -/
theorem State.dueRetrain_none {p : Nat} (spare : ∀ l ∈ (s.port p).map, bit (s.reg (instKey Reg.URD_LANE_STATUS (portLane p l))) 16 = false)
    (los : ∀ l ∈ (s.port p).map, bit (s.reg (laneLosKey (portLane p l))) 0 = false)
    (asked : bit (s.reg (instKey Reg.URD_PORT_CTRL p)) 0 = false) : s.dueRetrain p = s := by
  unfold State.dueRetrain
  extract_lets lanes
  rw [show lanes.find? (fun n => bit (s.reg (instKey Reg.URD_LANE_STATUS n)) 16) = none by
    rw [List.find?_eq_none]
    intro n hn
    obtain ⟨l, hl, rfl⟩ := List.mem_map.mp hn
    simp [spare l hl]]
  have quiet : ¬ lanes.any (fun n => bit (s.reg (laneLosKey n)) 0) = true := by
    rw [Bool.not_eq_true, List.any_eq_false]
    intro n hn
    obtain ⟨l, hl, rfl⟩ := List.mem_map.mp hn
    simp [los l hl]
  dsimp only
  rw [if_neg quiet, if_neg (by simp [asked])]

end Sys2Proof.Machine
end

section
/-! SUPPORT. The outcomes of training and of the sparing triggers (R405, R419 to R423). -/

set_option Elab.async false

namespace Sys2Proof.Machine
variable {s t u : State}

theorem State.lane_congr (h : t.urdun.lanes = s.urdun.lanes) (n : Nat) : t.lane n = s.lane n := by
  unfold State.lane
  rw [h]

/-- Lanes differ. -/
def State.LanesSet (s t : State) : Prop := t = { s with urdun := { s.urdun with lanes := t.urdun.lanes } }

theorem State.LanesSet.trans (a : s.LanesSet t) (b : t.LanesSet u) : s.LanesSet u := by
  unfold State.LanesSet at *
  rw [b, a]

theorem State.LanesSet.port (a : s.LanesSet t) (p : Nat) : t.port p = s.port p :=
  State.port_congr (by rw [show t = _ from a]) p

theorem foldl_setLane (f : Lane → Lane) (lanes : List Nat) (s : State) :
    s.LanesSet (lanes.foldl (fun (t : State) n => t.setLane n (f (t.lane n))) s) :=
  List.foldlRecOn (motive := s.LanesSet) _ _ rfl fun t h n _ => h.trans (show t.LanesSet (t.setLane n (f (t.lane n))) from rfl)

theorem foldl_setLane_each {f : Lane → Lane} {P : Lane → Prop} (makes : ∀ v, P (f v)) {lanes : List Nat} {n : Nat} (mem : n ∈ lanes)
    (s : State) : P ((lanes.foldl (fun (t : State) n => t.setLane n (f (t.lane n))) s).lane n) := by
  refine foldl_establishes (inv := fun _ => True) (P := fun t : State => P (t.lane n)) mem trivial (fun _ _ _ => trivial)
    (fun t _ => ?_) fun t m _ h => ?_
  · rw [State.lane_setLane_same]
    exact makes _
  · by_cases same : n = m
    · rw [same, State.lane_setLane_same]
      exact makes _
    · rwa [State.lane_setLane_other _ _ _ _ same]

/-! ### A training starts -/

theorem exec_signalDetect {port : Fin 8} (down : (s.port port).state = .down) (may : s.mayTrain port = true) :
    exec (.signalDetect port) s = .next (s.startTraining port) := by
  show execSignalDetect port s = _
  unfold execSignalDetect
  rw [if_pos ⟨down, may⟩]

/-- Port `p` trains with the map that it proposes, with signal on its lanes. -/
structure State.Trains (s t : State) (p : Nat) : Prop where
  rest : t = { s with urdun := t.urdun }
  there : t.port p = { UPort.reset p with
    state := .training
    map := s.proposeMap p []
    partner := (s.port p).partner
    admDue := (s.port p).admDue }
  lanes : ∀ l ∈ s.proposeMap p [], (t.lane (portLane p l)).signal = true
  others : ∀ q, q ≠ p → t.port q = s.port q

theorem State.startTraining_trains {p : Nat} (wide : 2 ≤ (s.proposeMap p []).length) : s.Trains (s.startTraining p) p := by
  unfold State.startTraining
  extract_lets m v s1
  have rest : s.LanesSet s1 := foldl_setLane (fun l => { l with signal := true }) (m.map (portLane p)) s
  have signal (l : Nat) (hl : l ∈ m) : (s1.lane (portLane p l)).signal = true :=
    foldl_setLane_each (f := fun l => { l with signal := true }) (P := fun l => l.signal = true) (fun _ => rfl)
      (List.mem_map_of_mem hl) s
  rw [if_neg (Nat.not_lt.mpr wide)]
  clear_value s1
  refine ⟨?_, s1.port_setPort_same p _, signal, fun q other => (s1.port_setPort_other p q _ other).trans (rest.port q)⟩
  unfold State.LanesSet at rest
  rw [rest]
  rfl

/-! ### A training ends -/

/-- A resumed port is up with fresh credits, its lanes work, and no unit is retired. -/
structure State.Resumed (s t : State) (p : Nat) (res : TrainResult) : Prop where
  state : (t.port p).state = .up
  map : (t.port p).map = (s.port p).map
  why : (t.port p).why = none
  partner : (t.port p).partner = res.partnerNode
  granted : (t.port p).granted = res.credits.toNat
  admGranted : (t.port p).admGranted = res.admCredits.toNat
  given : (t.port p).given = 16384
  admGiven : (t.port p).admGiven = 64
  lanes : ∀ l ∈ (s.port p).map, (t.lane (portLane p l)).fecLock = true
  record : t.record = s.record

theorem State.portResume_resumed {p : Nat} {res : TrainResult} (p8 : p < 8)
    (asked : bit (s.reg (instKey Reg.URD_PORT_CTRL p)) 0 = false)
    (quiet : ∀ l ∈ (s.port p).map, bit (s.reg (laneLosKey (portLane p l))) 0 = false ∧
      bit (s.reg (instKey Reg.URD_LANE_STATUS (portLane p l))) 16 = false) : s.Resumed (s.portResume p res) p res := by
  unfold State.portResume
  extract_lets v n fresh s0 s1 lanes s2 s3 w
  have kept0 : s0.regs = s.regs ∧ s0.record = s.record := by
    unfold s0
    split <;> exact ⟨rfl, rfl⟩
  have freed := State.freeFrames_freed (s0.setPort p { v with
      state := .up
      why := none
      partner := res.partnerNode
      granted := res.credits.toNat
      admGranted := res.admCredits.toNat
      used := 0
      admUsed := 0
      given := 16384
      admGiven := 64 }) p n
  obtain ⟨rest1, there1, -⟩ : s1 = _ ∧ s1.port p = _ ∧ _ := freed
  rw [State.port_setPort_same] at there1
  have kept1 : s1.regs = s0.regs ∧ s1.record = s0.record := by
    rw [rest1]
    exact ⟨rfl, rfl⟩
  have rest2 : s1.LanesSet s2 := foldl_setLane (fun l => { l with signal := true, fecLock := true, corrRun := 0, uncorrRun := 0 }) lanes s1
  have lock2 (l : Nat) (hl : l ∈ v.map) : (s2.lane (portLane p l)).fecLock = true :=
    foldl_setLane_each (f := fun l => { l with signal := true, fecLock := true, corrRun := 0, uncorrRun := 0 })
      (P := fun l => l.fecLock = true) (fun _ => rfl) (List.mem_map_of_mem hl) s1
  have rest3 : s3 = { s2 with out := s3.out } := rfl
  clear_value s0 s1 s2 s3
  have there3 : s3.port p = s1.port p := (State.port_congr (by rw [rest3]) p).trans (rest2.port p)
  have there4 := s3.port_setPort_same p { w with unsent := w.replay.length }
  have rest4 : s3.setPort p { w with unsent := w.replay.length } = { s3 with urdun := { s3.urdun with
      ports := (s3.setPort p { w with unsent := w.replay.length }).urdun.ports } } := rfl
  generalize s3.setPort p { w with unsent := w.replay.length } = s4 at there4 rest4 ⊢
  have resent := s4.sendAgain_resent p w.replay.length
  generalize s4.sendAgain p w.replay.length = s5 at resent ⊢
  have routed := s5.routeAll_routed
  generalize s5.routeAll = s6 at routed ⊢
  have there6 : s6.port p = { s3.port p with used := (s5.port p).used, admUsed := (s5.port p).admUsed, unsent := (s5.port p).unsent } := by
    rw [routed.port, resent.there, there4]
  rw [there3, there1] at there6
  have regs4 : s4.regs = s.regs := by
    rw [rest4, rest3, show s2 = _ from rest2]
    exact kept1.1.trans kept0.1
  have only : OnlyRegs s s6 [Reg.URD_CNT_REPLAY, instKey Reg.URD_INJECT p] :=
    .trans (.of_regs regs4) (.trans resent.only (.of_regs (by rw [routed.rest])))
  have map6 : (s6.port p).map = v.map := by rw [there6]
  have record6 : s6.record = s.record := by
    rw [routed.rest, resent.rest, rest4, rest3, show s2 = _ from rest2]
    exact kept1.2.trans kept0.2
  have lanes6 : s6.urdun.lanes = s2.urdun.lanes := by rw [routed.urdun, resent.urdun, rest4, rest3]
  have same (k : Nat) (h1 : k ≠ Reg.URD_CNT_REPLAY) (h2 : k ≠ instKey Reg.URD_INJECT p) : s6.reg k = s.reg k :=
    only k (by simp [h1, h2])
  have idle : s6.dueRetrain p = s6 := by
    refine State.dueRetrain_none (fun l hl => ?_) (fun l hl => ?_) ?_
    · rw [same _ (instKey_ne_key (by decide) _) (instKey_ne (by decide) _ _)]
      exact (quiet l (map6 ▸ hl)).2
    · rw [same (laneLosKey _) (instKey_ne_key (by decide) _) (instKey_ne_inst _ (by omega))]
      exact (quiet l (map6 ▸ hl)).1
    · rw [same _ (instKey_ne_key (by decide) _) (instKey_ne (by decide) _ _)]
      exact asked
  rw [idle]
  constructor
  case lanes =>
    intro l hl
    rw [State.lane_congr lanes6]
    exact lock2 l hl
  case record => exact record6
  all_goals rw [there6]

/-- A full training whose lanes all work, with the map both ends sent. -/
theorem exec_portTrainingDone_up {port : Fin 8} {res : TrainResult} (training : (s.port port).state = .training)
    (failed : res.failed = []) (agreed : res.partnerMap = (s.port port).map) :
    exec (.portTrainingDone port res) s = .next (s.portResume port res) := by
  show execPortTrainingDone port res s = _
  unfold execPortTrainingDone
  dsimp only
  rw [training, failed]
  show Host.Outcome.next (s.agreeMap port res) = _
  unfold State.agreeMap
  rw [if_pos agreed]

/-- The lanes of its map that a training names as failed. -/
def badLanes (res : TrainResult) (p : Nat) (map : List Nat) : List Nat :=
  (res.failed.map (fun n => n.val)).filter (fun n => (map.map (portLane p)).contains n)

/-- The lanes that failed have lost FEC lock. -/
def State.unlock (s : State) (lanes : List Nat) : State :=
  lanes.foldl (fun (t : State) n => t.setLane n { t.lane n with fecLock := false }) s

theorem State.unlock_lanesSet (s : State) (lanes : List Nat) : s.LanesSet (s.unlock lanes) :=
  foldl_setLane (fun l => { l with fecLock := false }) lanes s

theorem exec_portTrainingDone_lasting {port : Fin 8} {res : TrainResult} {n : Nat} (retraining : (s.port port).state = .retraining)
    (why : (s.port port).why = some (.trigger n)) (lane : n ∈ (s.port port).map.map (portLane port))
    (failed : n ∈ res.failed.map (fun l => l.val)) :
    exec (.portTrainingDone port res) s =
      if bit (s.reg Reg.URD_SPARE_CFG) 32 then .next ((s.unlock (badLanes res port (s.port port).map)).retireLane port n)
      else .next (((s.unlock (badLanes res port (s.port port).map)).retireLane port n).portDown port) := by
  have bad : n ∈ badLanes res port (s.port port).map := List.mem_filter.mpr ⟨failed, by simpa using lane⟩
  show execPortTrainingDone port res s = _
  unfold execPortTrainingDone
  dsimp only
  rw [retraining, why]
  exact (if_neg (by rw [List.isEmpty_iff]; exact List.ne_nil_of_mem bad)).trans (if_pos (List.contains_iff_mem.mpr bad))

/-! ### Retrainings that are asked for, and losses of signal -/

theorem exec_portRetrain (page : s.pageUp 0x0F = true) (up : s.portUp (s.regF Reg.URD_PORT_SEL 0 3) = true) :
    exec .portRetrain s = .next ((s.setRegF (instKey Reg.URD_PORT_CTRL (s.regF Reg.URD_PORT_SEL 0 3)) 0 1 1).startRetrain
      (s.regF Reg.URD_PORT_SEL 0 3) .requested) := by
  show execPortRetrain s = _
  unfold execPortRetrain
  dsimp only
  rw [if_pos (by rw [page, up]; rfl), State.writeOne_up (by rw [keyPage_instKey]; exact page)]

/-- The trigger of an active lane of an up port is told to Keeper and starts a retraining. -/
theorem State.laneTrigger_up {n p : Nat} (lane : s.laneFor n = some p) (up : s.portUp p = true) :
    s.laneTrigger n = s.tellTrigger.startRetrain p (.trigger n) := by
  have state : (s.port p).state = .up := by simpa [State.portUp] using up
  unfold State.laneTrigger
  rw [lane]
  dsimp only
  rw [state]

theorem State.LanesSet.laneFor (a : s.LanesSet t) (n : Nat) : t.laneFor n = s.laneFor n := by
  unfold State.laneFor
  simp only [a.port]

theorem State.LanesSet.portUp (a : s.LanesSet t) (p : Nat) : t.portUp p = s.portUp p := by
  unfold State.portUp
  rw [a.port]

/-- Lane `n` loses FEC lock, and signal where the loss says so. -/
def State.loseLane (s : State) (n : Nat) (signal : Bool) : State :=
  s.setLane n (if signal then { s.lane n with signal := false, fecLock := false } else { s.lane n with fecLock := false })

theorem exec_lossOfSignal (lane : Fin 36) (signal : Bool) (s : State) :
    exec (.lossOfSignal lane signal) s = .next ((s.loseLane lane signal).laneTrigger lane) := rfl

/-- A retraining starts after Keeper has been told. -/
theorem State.tellTrigger_retraining (s : State) (p : Nat) (why : Retrain) (req : Option Nat) :
    s.Retraining (s.tellTrigger.startRetrain p why req) p why req := by
  have told := s.tellTrigger_rest
  have started := s.tellTrigger.startRetrain_retraining p why req
  generalize s.tellTrigger = a at told started ⊢
  generalize a.startRetrain p why req = t at started ⊢
  have port (q : Nat) : a.port q = s.port q := State.port_congr (by rw [told]) q
  have regs : a.regs = s.regs := by rw [told]
  have urdun : a.urdun = s.urdun := by rw [told]
  refine ⟨by rw [started.rest, told], started.lanes.trans (by rw [urdun]), fun m => (started.bodies m).trans (by rw [urdun]), ?_, ?_, ?_,
    started.counted.after _ _ _ _ (State.regF_congr regs _ _ _), started.asked, fun l hl => started.los l (port p ▸ hl)⟩
  · rw [started.there, port]
  · intro q other
    rw [started.others q other, port]
  · have only := started.only
    rw [port] at only
    exact .trans (.of_regs regs) only

end Sys2Proof.Machine

section Settled
open Sys2Proof Sys2Proof.Machine

/-- Settles O26. -/
theorem portsTrain : Obligations.PortsTrain := by
  refine ⟨fun port s down may wide => ?_, fun port res s training failed agreed asked quiet => ?_,
    fun port res s n retraining why lane failed => ?_, fun s page up => ?_, fun lane signal s p owner up => ?_⟩
  · have trains := State.startTraining_trains wide
    have there := trains.there
    refine ⟨_, exec_signalDetect down may, trains.rest, ?_, ?_, ?_, ?_, ?_, ?_, trains.lanes, trains.others⟩
    all_goals rw [there]
    all_goals rfl
  · have resumed := State.portResume_resumed (res := res) port.isLt asked quiet
    exact ⟨_, exec_portTrainingDone_up training failed agreed, resumed.state, resumed.map, resumed.why, resumed.partner,
      resumed.granted, resumed.admGranted, resumed.given, resumed.admGiven, resumed.lanes, resumed.record⟩
  · have unlocked := s.unlock_lanesSet (badLanes res port (s.port port).map)
    have ran := exec_portTrainingDone_lasting retraining why lane failed
    generalize s.unlock (badLanes res port (s.port port).map) = a at unlocked ran
    have regs : a.regs = s.regs := by rw [show a = _ from unlocked]
    have record : a.record = s.record := by rw [show a = _ from unlocked]
    have cfg : a.reg Reg.URD_SPARE_CFG = s.reg Reg.URD_SPARE_CFG := OnlyRegs.of_regs (ks := []) regs _ (by simp)
    by_cases auto : bit (s.reg Reg.URD_SPARE_CFG) 32 = true
    · rw [if_pos auto] at ran
      obtain ⟨counted, retired, down⟩ := a.retireLane_auto (p := port) (n := n) (by rw [cfg]; exact auto)
        (by rw [unlocked.port, retraining]; decide)
      refine ⟨_, ran, counted.after _ _ _ _ (State.regF_congr regs _ _ _), fun _ => ⟨retired, down⟩, fun manual => ?_⟩
      rw [auto] at manual
      cases manual
    · rw [if_neg auto] at ran
      obtain ⟨counted, kept, -⟩ := a.retireLane_manual (p := port) (n := n) (by rw [cfg]; simpa using auto)
      generalize a.retireLane port n = b at counted kept ran
      refine ⟨_, ran, (counted.after _ _ _ _ (State.regF_congr regs _ _ _)).before _ _ _ _ (State.regF_congr (b.portDown_regs port) _ _ _),
        fun c => absurd c auto, fun _ => ⟨?_, (b.portDown_down port).2⟩⟩
      rw [State.portDown_record, kept, record]
  · have ran := exec_portRetrain page up
    generalize s.regF Reg.URD_PORT_SEL 0 3 = p at up ran ⊢
    have wrote : s.Wrote (s.setRegF (instKey Reg.URD_PORT_CTRL p) 0 1 1) [instKey Reg.URD_PORT_CTRL p] :=
      .setRegF (List.mem_singleton.mpr rfl) 0 1 1
    generalize s.setRegF (instKey Reg.URD_PORT_CTRL p) 0 1 1 = a at wrote ran
    have started := a.startRetrain_retraining p .requested none
    generalize a.startRetrain p .requested = t at started ran
    have apart : instKey Reg.URD_PORT_ERR p ∉ [instKey Reg.URD_PORT_CTRL p] := by
      rw [List.mem_singleton]
      exact instKey_ne (by decide) _ _
    refine ⟨t, ran, by rw [started.there], by rw [started.there], started.asked,
      started.counted.after _ _ _ _ (wrote.only.regF _ _ _ apart), by rw [started.rest, wrote.rest], fun m => ?_⟩
    rw [started.bodies, wrote.rest]
  · have lost : s.LanesSet (s.loseLane lane signal) := rfl
    have state : (s.loseLane lane signal).lane lane = _ := s.lane_setLane_same lane _
    have ran := exec_lossOfSignal lane signal s
    generalize s.loseLane lane signal = a at lost state ran
    rw [State.laneTrigger_up ((lost.laneFor lane).trans owner) ((lost.portUp p).trans up)] at ran
    have started := a.tellTrigger_retraining p (.trigger lane) none
    generalize a.tellTrigger.startRetrain p (.trigger lane) = t at started ran
    have same : t.lane lane = a.lane lane := State.lane_congr started.lanes lane
    have regs : a.regs = s.regs := by rw [show a = _ from lost]
    refine ⟨t, ran, by rw [started.there], by rw [started.there], ?_, fun gone => ?_,
      started.counted.after _ _ _ _ (State.regF_congr regs _ _ _), ?_, fun m => ?_⟩
    · rw [same, state]
      split <;> rfl
    · rw [same, state, if_pos gone]
    · rw [started.rest, show a = _ from lost]
    · rw [started.bodies, show a = _ from lost]

end Settled
end

section
/-! SUPPORT. What is measured on the lanes and how one of them is replaced (R420 to R422). -/

set_option Elab.async false

namespace Sys2Proof.Machine
variable {s t u : State}

/-! ### What the measurement of another lane leaves -/

/-- What a lane measured, its registers and the messages stand. -/
structure State.LaneKept (s t : State) (n : Nat) : Prop where
  record : t.record = s.record
  bodies : ∀ k, (Store.find? t.urdun.msgs k).map UMsg.body = (Store.find? s.urdun.msgs k).map UMsg.body
  lane : t.lane n = s.lane n
  monitor : t.reg (instKey Reg.URD_LANE_MON n) = s.reg (instKey Reg.URD_LANE_MON n)
  fec : t.reg (instKey Reg.URD_LANE_FEC n) = s.reg (instKey Reg.URD_LANE_FEC n)
  status : t.reg (instKey Reg.URD_LANE_STATUS n) = s.reg (instKey Reg.URD_LANE_STATUS n)

theorem State.LaneKept.refl (s : State) (n : Nat) : s.LaneKept s n := ⟨rfl, fun _ => rfl, rfl, rfl, rfl, rfl⟩

theorem State.LaneKept.trans {n : Nat} (a : s.LaneKept t n) (b : t.LaneKept u n) : s.LaneKept u n where
  record := b.record.trans a.record
  bodies k := (b.bodies k).trans (a.bodies k)
  lane := b.lane.trans a.lane
  monitor := b.monitor.trans a.monitor
  fec := b.fec.trans a.fec
  status := b.status.trans a.status

theorem State.LaneKept.of_eq {n : Nat} (record : t.record = s.record) (urdun : t.urdun = s.urdun) (regs : t.regs = s.regs) :
    s.LaneKept t n :=
  have reg := (OnlyRegs.of_regs (ks := []) regs · (by simp))
  ⟨record, fun k => by rw [urdun], State.lane_congr (by rw [urdun]) n, reg _, reg _, reg _⟩

/-- A retraining that names no lane to be replaced. -/
theorem State.Retraining.laneKept {p : Nat} {why : Retrain} (a : s.Retraining t p why none) (n : Nat) : s.LaneKept t n := by
  have other (k : Nat) (h1 : k % 524288 ≠ Reg.URD_PORT_ERR % 524288) (h2 : k % 524288 ≠ Reg.URD_PORT_CTRL % 524288)
      (h3 : k % 524288 ≠ Reg.URD_INJECT % 524288) : t.reg (instKey k n) = s.reg (instKey k n) := by
    refine a.only _ fun c => ?_
    simp only [retrainKeys, Option.toList_none, List.map_nil, List.append_nil, List.mem_cons, List.mem_map] at c
    obtain c | c | ⟨i, -, c⟩ := c
    · exact instKey_ne h1 _ _ c
    · exact instKey_ne h2 _ _ c
    · exact instKey_ne h3 _ _ c.symm
  exact ⟨by rw [a.rest], a.bodies, State.lane_congr a.lanes n, other _ (by decide) (by decide) (by decide),
    other _ (by decide) (by decide) (by decide), other _ (by decide) (by decide) (by decide)⟩

theorem State.laneTrigger_kept (s : State) (k n : Nat) : s.LaneKept (s.laneTrigger k) n := by
  have told : s.LaneKept s.tellTrigger n := by
    have rest := s.tellTrigger_rest
    generalize s.tellTrigger = a at rest ⊢
    exact .of_eq (by rw [rest]) (by rw [rest]) (by rw [rest])
  unfold State.laneTrigger
  split
  · exact .refl s n
  · split
    · exact .refl s n
    · exact (s.tellTrigger_retraining _ _ none).laneKept n
    · exact told

/-! ### One lane's measurement -/

/-- The value of a lane's monitor register. -/
def monitorWord (m : LaneMeas) : Nat :=
  m.rxOma.toNat + 65536 * m.txOma.toNat + 4294967296 * m.txBias.toNat + 281474976710656 * m.eyeV.toNat +
    72057594037927936 * m.eyeH.toNat

/-- Lane `n` holds what it measured. -/
structure State.Measured (s t : State) (n : Nat) (m : LaneMeas) : Prop where
  record : t.record = s.record
  msgs : t.urdun.msgs = s.urdun.msgs
  usable : (t.lane n).usable = decide (-400 ≤ m.rxOma.toInt)
  signal : (t.lane n).signal = (s.lane n).signal
  others : ∀ k, k ≠ n → t.lane k = s.lane k
  monitor : t.reg (instKey Reg.URD_LANE_MON n) = BitVec.ofNat 64 (monitorWord m)
  fec : t.reg (instKey Reg.URD_LANE_FEC n) = BitVec.ofNat 64 (m.corrSym.toNat + 4294967296 * m.corrBits.toNat)
  status : CountedSat s t (instKey Reg.URD_LANE_STATUS n) 32 32 m.uncorr.toNat
  only : OnlyRegs s t [instKey Reg.URD_LANE_MON n, instKey Reg.URD_LANE_FEC n, instKey Reg.URD_LANE_STATUS n]

theorem State.measureLane_measured (s : State) (n : Nat) (m : LaneMeas) : s.Measured (s.measureLane n m).1 n m := by
  unfold State.measureLane
  extract_lets l corr unc hit s1 low k s1' mon s2
  have lane1 : s1'.lane n = _ := s.lane_setLane_same n _
  have others1 (k : Nat) (other : k ≠ n) : s1'.lane k = s.lane k := s.lane_setLane_other n k _ other
  have kept1 : s1'.record = s.record ∧ s1'.urdun.msgs = s.urdun.msgs ∧ s1'.regs = s.regs := ⟨rfl, rfl, rfl⟩
  clear_value s1'
  have only2 : OnlyRegs s1' s2 [instKey Reg.URD_LANE_MON n, instKey Reg.URD_LANE_FEC n, instKey Reg.URD_LANE_STATUS n] :=
    .trans (.setReg _ _ (by simp)) (.setReg _ _ (by simp))
  have rest2 : s2 = { s1' with regs := s2.regs } := rfl
  have monitor2 : s2.reg (instKey Reg.URD_LANE_MON n) = BitVec.ofNat 64 mon :=
    (State.reg_setReg_other _ _ _ _ (instKey_ne (by decide) _ _)).trans (State.reg_setReg_same _ _ _)
  have fec2 : s2.reg (instKey Reg.URD_LANE_FEC n) = BitVec.ofNat 64 (m.corrSym.toNat + 4294967296 * m.corrBits.toNat) :=
    State.reg_setReg_same _ _ _
  have status2 : s2.reg (instKey Reg.URD_LANE_STATUS n) = s1'.reg (instKey Reg.URD_LANE_STATUS n) :=
    (State.reg_setReg_other _ _ _ _ (instKey_ne (by decide) _ _)).trans
      (State.reg_setReg_other _ _ _ _ (instKey_ne (by decide) _ _))
  clear_value s2
  have wrote : s2.Wrote (s2.bumpSat (instKey Reg.URD_LANE_STATUS n) 32 32 m.uncorr.toNat) [instKey Reg.URD_LANE_STATUS n] :=
    .bumpSat (List.mem_singleton.mpr rfl) _ _ _
  have counted : CountedSat s2 (s2.bumpSat (instKey Reg.URD_LANE_STATUS n) 32 32 m.uncorr.toNat)
      (instKey Reg.URD_LANE_STATUS n) 32 32 m.uncorr.toNat := .of_bumpSat _ 32 32 _ (by decide)
  generalize s2.bumpSat (instKey Reg.URD_LANE_STATUS n) 32 32 m.uncorr.toNat = s3 at wrote counted ⊢
  have lanes3 : s3.urdun.lanes = s1'.urdun.lanes := by rw [wrote.rest, rest2]
  have status1 : s2.regF (instKey Reg.URD_LANE_STATUS n) 32 32 = s.regF (instKey Reg.URD_LANE_STATUS n) 32 32 :=
    (congrArg (field · 32 32) status2).trans (State.regF_congr kept1.2.2 _ _ _)
  have apart {j : Nat} (h : j % 524288 ≠ Reg.URD_LANE_STATUS % 524288) : s3.reg (instKey j n) = s2.reg (instKey j n) :=
    wrote.only _ (by rw [List.mem_singleton]; exact instKey_ne h _ _)
  refine ⟨?_, ?_, ?_, ?_, ?_, ?_, ?_, counted.after _ _ _ _ status1, ?_⟩
  · rw [wrote.rest, rest2]
    exact kept1.1
  · rw [wrote.rest, rest2]
    exact kept1.2.1
  · rw [State.lane_congr lanes3, lane1]
  · rw [State.lane_congr lanes3, lane1]
  · intro j other
    rw [State.lane_congr lanes3, others1 j other]
  · rw [apart (by decide), monitor2]
    rfl
  · rw [apart (by decide), fec2]
  · exact .trans (.of_regs kept1.2.2) (.trans only2 (wrote.only.mono (by simp)))

theorem instKey_ne_of_lt {j i n k : Nat} (hj : j < 524288) (hi : i < 524288) (h : n ≠ k) : instKey j n ≠ instKey i k := by
  unfold instKey
  omega

theorem State.Measured.laneKept {n k : Nat} {m : LaneMeas} (a : s.Measured t k m) (other : n ≠ k) : s.LaneKept t n := by
  have reg (j : Nat) (hj : j < 524288) : t.reg (instKey j n) = s.reg (instKey j n) := by
    refine a.only _ fun c => ?_
    simp only [List.mem_cons, List.not_mem_nil, or_false] at c
    obtain c | c | c := c
    all_goals exact instKey_ne_of_lt hj (by decide) other c
  exact ⟨a.record, fun _ => by rw [a.msgs], a.others n other, reg _ (by decide), reg _ (by decide), reg _ (by decide)⟩

/-! ### LANE_INTERVAL -/

/-- What the end of an interval does about one lane. -/
def State.laneStep (meas : List LaneMeas) (s : State) (n : Nat) : State :=
  match meas[n]? with
  | none => s
  | some m => if (s.measureLane n m).2 then (s.measureLane n m).1.laneTrigger n else (s.measureLane n m).1

theorem exec_laneInterval (meas : List LaneMeas) (s : State) :
    exec (.laneInterval meas) s = .next ((List.range 36).foldl (State.laneStep meas) s) := rfl

theorem State.laneStep_kept (meas : List LaneMeas) (s : State) {k n : Nat} (other : n ≠ k) : s.LaneKept (s.laneStep meas k) n := by
  unfold State.laneStep
  split
  · exact .refl s n
  · rename_i m _
    have kept := (s.measureLane_measured k m).laneKept other
    split
    · exact kept.trans (State.laneTrigger_kept _ k n)
    · exact kept

theorem foldl_laneStep_kept (meas : List LaneMeas) {l : List Nat} {n : Nat} (other : n ∉ l) (s : State) :
    s.LaneKept (l.foldl (State.laneStep meas) s) n :=
  List.foldlRecOn (motive := (s.LaneKept · n)) _ _ (.refl s n) fun t h _ hk =>
    h.trans (t.laneStep_kept meas fun c => other (c ▸ hk))

/-- Lane `n` is measured once, and what the other lanes do leaves that. -/
theorem foldl_laneStep_measured {meas : List LaneMeas} {n : Nat} {m : LaneMeas} (n36 : n < 36) (given : meas[n]? = some m) (s : State) :
    ∃ a b, s.LaneKept a n ∧ a.Measured b n m ∧ b.LaneKept ((List.range 36).foldl (State.laneStep meas) s) n := by
  obtain ⟨before, after, split⟩ := List.append_of_mem (List.mem_range.mpr n36)
  have nodup : (before ++ n :: after).Nodup := split ▸ List.nodup_range
  obtain ⟨-, hafter, hbefore⟩ := List.nodup_append.mp nodup
  have notBefore : n ∉ before := fun c => hbefore n c n (by simp) rfl
  have notAfter : n ∉ after := (List.nodup_cons.mp hafter).1
  rw [split, List.foldl_append, List.foldl_cons]
  have first := foldl_laneStep_kept meas notBefore s
  generalize before.foldl (State.laneStep meas) s = a at first ⊢
  refine ⟨a, (a.measureLane n m).1, first, a.measureLane_measured n m, .trans ?_ (foldl_laneStep_kept meas notAfter _)⟩
  unfold State.laneStep
  rw [given]
  dsimp only
  split
  · exact State.laneTrigger_kept _ n n
  · exact .refl _ n

theorem field_monitorWord (m : LaneMeas) :
    field (BitVec.ofNat 64 (monitorWord m)) 0 16 = m.rxOma.toNat ∧ field (BitVec.ofNat 64 (monitorWord m)) 16 16 = m.txOma.toNat := by
  have rx := m.rxOma.isLt
  have tx := m.txOma.isLt
  unfold field monitorWord bitsOf
  rw [BitVec.toNat_ofNat]
  constructor <;> omega

theorem field_corrSym (m : LaneMeas) :
    field (BitVec.ofNat 64 (m.corrSym.toNat + 4294967296 * m.corrBits.toNat)) 0 32 = m.corrSym.toNat := by
  have symbols := m.corrSym.isLt
  unfold field bitsOf
  rw [BitVec.toNat_ofNat]
  omega

/-! ### A lane to be replaced -/

theorem exec_spareReq {p : Nat} (page : s.pageUp 0x0F = true) (lane : s.regF Reg.URD_LANE_SEL 0 6 < 36)
    (owner : s.laneFor (s.regF Reg.URD_LANE_SEL 0 6) = some p) (up : s.portUp p = true) :
    exec .spareReq s = .next ((s.setRegF (instKey Reg.URD_LANE_STATUS (s.regF Reg.URD_LANE_SEL 0 6)) 16 1 1).spareLane p
      (s.regF Reg.URD_LANE_SEL 0 6)) := by
  show execSpareReq s = _
  unfold execSpareReq
  dsimp only
  rw [if_neg (by simp [page, lane]), owner]
  dsimp only
  rw [if_pos up, State.writeOne_up (by rw [keyPage_instKey]; exact page)]

theorem exec_injectLaneLos {p : Nat} (page : s.pageUp 0x0F = true) (lane : s.regF Reg.URD_LANE_SEL 0 6 < 36)
    (owner : s.laneFor (s.regF Reg.URD_LANE_SEL 0 6) = some p) (up : s.portUp p = true) :
    exec .injectLaneLos s =
      .next ((s.setRegF (laneLosKey (s.regF Reg.URD_LANE_SEL 0 6)) 0 1 1).tellTrigger.startRetrain p .requested) := by
  have los : keyPage (laneLosKey (s.regF Reg.URD_LANE_SEL 0 6)) = 0x0F := keyPage_instKey _ _
  show execInjectLaneLos s = _
  unfold execInjectLaneLos
  dsimp only
  rw [if_neg (by simp [page, lane]), owner]
  dsimp only
  rw [if_pos up, State.writeOne_up (by rw [los]; exact page)]

theorem exec_injectUrdCrc (page : s.pageUp 0x0F = true) :
    exec .injectUrdCrc s = .next (s.setRegF (instKey Reg.URD_INJECT (s.regF Reg.URD_PORT_SEL 0 3)) 1 1 1) := by
  show execInjectUrdCrc s = _
  unfold execInjectUrdCrc
  rw [State.writeOne_up (by rw [keyPage_instKey]; exact page)]

/-- A lane that a port carries is one of the port's map. -/
theorem State.mem_map_of_laneFor {n p : Nat} (owner : s.laneFor n = some p) : ∃ l ∈ (s.port p).map, portLane p l = n := by
  unfold State.laneFor at owner
  have found := List.find?_some owner
  simp only [Bool.and_eq_true, beq_iff_eq, List.contains_iff_mem] at found
  obtain ⟨group, mem⟩ := found
  refine ⟨n % 9, mem, ?_⟩
  unfold portLane
  omega

/-- A lane that software has replaced. -/
structure State.Spared (s t : State) (p n : Nat) : Prop where
  down : (t.port p).state ≠ .up
  counted : CountedSat s t Reg.RST_CNT_FAULTS 32 16 1
  auto : bit (s.reg Reg.URD_SPARE_CFG) 32 = true → recorded t.record kOptical n = true
  manual : bit (s.reg Reg.URD_SPARE_CFG) 32 = false → t.record = s.record ∧ (t.port p).why = some .requested

theorem retrainKeys_apart {k p : Nat} {lanes : List Nat} {req : Option Nat} (h1 : Reg.URD_PORT_ERR % 524288 ≠ k % 524288)
    (h2 : Reg.URD_PORT_CTRL % 524288 ≠ k % 524288) (h3 : Reg.URD_INJECT % 524288 ≠ k % 524288)
    (h4 : Reg.URD_LANE_STATUS % 524288 ≠ k % 524288) : k ∉ retrainKeys p lanes req := by
  intro c
  simp only [retrainKeys, List.cons_append, List.mem_cons, List.mem_append, List.mem_map] at c
  obtain c | c | ⟨n, -, c⟩ | ⟨n, -, c⟩ := c
  · exact instKey_ne_key h1 _ c.symm
  · exact instKey_ne_key h2 _ c.symm
  · exact instKey_ne_key h3 _ c
  · exact instKey_ne_key h4 _ c

theorem State.spareLane_spared (s : State) (p n : Nat) : s.Spared (s.spareLane p n) p n := by
  unfold State.spareLane
  extract_lets why
  have started := s.tellTrigger_retraining p why (some n)
  generalize s.tellTrigger.startRetrain p why (some n) = a at started ⊢
  have cfg : a.reg Reg.URD_SPARE_CFG = s.reg Reg.URD_SPARE_CFG :=
    started.only _ (retrainKeys_apart (by decide) (by decide) (by decide) (by decide))
  have faults : a.regF Reg.RST_CNT_FAULTS 32 16 = s.regF Reg.RST_CNT_FAULTS 32 16 :=
    started.only.regF _ _ _ (retrainKeys_apart (by decide) (by decide) (by decide) (by decide))
  have down : (a.port p).state ≠ .up := by
    rw [started.there]
    exact fun c => nomatch c
  cases auto : bit (s.reg Reg.URD_SPARE_CFG) 32 with
  | true =>
    obtain ⟨counted, retired, still⟩ := a.retireLane_auto (p := p) (n := n) (by rw [cfg]; exact auto) down
    exact ⟨still, counted.after _ _ _ _ faults, fun _ => retired, fun c => absurd (auto.symm.trans c) (by decide)⟩
  | false =>
    obtain ⟨counted, record, port⟩ := a.retireLane_manual (p := p) (n := n) (by rw [cfg]; exact auto)
    refine ⟨port ▸ down, counted.after _ _ _ _ faults, fun c => absurd (auto.symm.trans c) (by decide), fun _ => ⟨?_, ?_⟩⟩
    · rw [record, started.rest]
    · rw [port, started.there]
      exact congrArg some (if_neg (by simp [auto]))

end Sys2Proof.Machine

section Settled
open Sys2Proof Sys2Proof.Machine

/-- Settles O27. -/
theorem lanesWatched : Obligations.LanesWatched := by
  refine ⟨fun s p page lane owner up => ?_, fun meas s n m n36 given => ?_, fun s p page lane owner up => ?_, fun s page => ?_⟩
  · have ran := exec_spareReq page lane owner up
    generalize s.regF Reg.URD_LANE_SEL 0 6 = n at ran ⊢
    have wrote : s.Wrote (s.setRegF (instKey Reg.URD_LANE_STATUS n) 16 1 1) [instKey Reg.URD_LANE_STATUS n] :=
      .setRegF (List.mem_singleton.mpr rfl) 16 1 1
    generalize s.setRegF (instKey Reg.URD_LANE_STATUS n) 16 1 1 = a at wrote ran
    have spared := a.spareLane_spared p n
    have apart (k : Nat) (h : Reg.URD_LANE_STATUS % 524288 ≠ k % 524288) : k ∉ [instKey Reg.URD_LANE_STATUS n] := by
      rw [List.mem_singleton]
      exact (instKey_ne_key h n).symm
    have cfg : a.reg Reg.URD_SPARE_CFG = s.reg Reg.URD_SPARE_CFG := wrote.only _ (apart _ (by decide))
    refine ⟨_, ran, spared.down, spared.counted.after _ _ _ _ (wrote.only.regF _ _ _ (apart _ (by decide))), ?_, ?_⟩
    · rw [← cfg]
      exact spared.auto
    · rw [← cfg, show s.record = a.record by rw [wrote.rest]]
      exact spared.manual
  · obtain ⟨a, b, before, measured, after⟩ := foldl_laneStep_measured n36 given s
    refine ⟨_, exec_laneInterval meas s, ?_, fun k => ?_, ?_, ?_, ?_, ?_, ?_, ?_⟩
    · rw [after.record, measured.record, before.record]
    · rw [after.bodies, measured.msgs, before.bodies]
    · rw [after.lane, measured.usable]
    · rw [after.lane, measured.signal, before.lane]
    · exact (congrArg (field · 0 16) (after.monitor.trans measured.monitor)).trans (field_monitorWord m).1
    · exact (congrArg (field · 16 16) (after.monitor.trans measured.monitor)).trans (field_monitorWord m).2
    · exact (congrArg (field · 0 32) (after.fec.trans measured.fec)).trans (field_corrSym m)
    · exact (measured.status.after _ _ _ _ (congrArg (field · 32 32) before.status)).before _ _ _ _
        (congrArg (field · 32 32) after.status)
  · obtain ⟨l, mem, same⟩ := State.mem_map_of_laneFor owner
    have ran := exec_injectLaneLos page lane owner up
    generalize s.regF Reg.URD_LANE_SEL 0 6 = n at ran same ⊢
    have wrote : s.Wrote (s.setRegF (laneLosKey n) 0 1 1) [laneLosKey n] := .setRegF (List.mem_singleton.mpr rfl) 0 1 1
    generalize s.setRegF (laneLosKey n) 0 1 1 = a at wrote ran
    have started := a.tellTrigger_retraining p .requested none
    refine ⟨_, ran, by rw [started.there], by rw [started.there], ?_, by rw [started.rest, wrote.rest]⟩
    have los := started.los l (by rw [wrote.port]; exact mem)
    rwa [same] at los
  · exact ⟨_, exec_injectUrdCrc page, OnlyBitSet.of_setRegF _ 1 (by decide)⟩

end Settled
end

section
/-! SUPPORT. References lost and good again (R25, Table 2-3), for O30. -/

set_option Elab.async false

namespace Sys2Proof.Machine
variable {s t u : State}

/-! ### A reference is judged lost -/

/-- The node once the loss of a reference is noted, before anything follows from it. -/
def State.lossNoted (s : State) (b : Bool) : State :=
  (s.withClep { s.clep with refOk := s.clep.refOk.set b false, refGood := s.clep.refGood.set b 0 }).clepEvent (b2n b)

theorem State.lossNoted_onlyRegs (s : State) (b : Bool) : OnlyRegs s (s.lossNoted b) [Reg.CLEP_EVENT] :=
  State.clepEvent_onlyRegs (s.withClep _) _

theorem b2n_lt (b : Bool) : b2n b < 64 := by
  cases b <;> decide

theorem State.lossNoted_bit (s : State) (b : Bool) : bit ((s.lossNoted b).reg Reg.CLEP_EVENT) (b2n b) = true :=
  State.clepEvent_bit _ _ (b2n_lt b)

/-- The loss of a good reference while the other is good: the other is in use after it. -/
theorem State.refLost_switches (b : Bool) (external : s.clep.internal = false) (good : s.clep.refOk.get b = true)
    (other : s.clep.refOk.get (!b) = true) (inUse : s.clep.useB = b) :
    s.refLost b = ((s.lossNoted b).withClep { (s.lossNoted b).clep with useB := !b }).bumpSat Reg.CLEP_ERR_CNT 32 16 1 := by
  unfold State.refLost
  rw [if_neg (by simp [external]), if_neg (by simp [good]), if_pos other, if_pos inUse]
  exact if_neg (by simp [inUse])

/-- The loss of the last good reference, as Table 2-3 says. -/
theorem State.refLost_both (b : Bool) (external : s.clep.internal = false) (good : s.clep.refOk.get b = true)
    (other : s.clep.refOk.get (!b) = false) :
    s.refLost b = match s.clep.lock with
      | .locked => (s.lossNoted b).enterHoldover
      | .acquire => (s.lossNoted b).enterFree
      | _ => s.lossNoted b := by
  unfold State.refLost
  rw [if_neg (by simp [external]), if_neg (by simp [good]), if_neg (by simp [other])]
  rfl

theorem State.enterHoldover_restKept (s : State) : s.RestKept s.enterHoldover :=
  .trans (t := ((s.withClep _).clepEvent 3).bumpSat Reg.CLEP_ERR_CNT 48 16 1) rfl (State.logEvent_restKept _ _ _ _ (by decide))

theorem State.enterHoldover_reg (s : State) (k : Nat) :
    s.enterHoldover.reg k = ((s.clepEvent 3).bumpSat Reg.CLEP_ERR_CNT 48 16 1).reg k :=
  State.logEvent_onlyRegs (((s.withClep _).clepEvent 3).bumpSat Reg.CLEP_ERR_CNT 48 16 1) 7 2 sevError (by decide) [] _
    (List.not_mem_nil)

theorem State.enterHoldover_bit (s : State) : bit (s.enterHoldover.reg Reg.CLEP_EVENT) 3 = true := by
  rw [s.enterHoldover_reg, OnlyRegs.bumpSat (s := s.clepEvent 3) Reg.CLEP_ERR_CNT 48 16 1 (List.mem_singleton_self _)
    Reg.CLEP_EVENT (by decide)]
  exact s.clepEvent_bit 3 (by decide)

theorem State.enterHoldover_counted (s : State) : CountedSat s s.enterHoldover Reg.CLEP_ERR_CNT 48 16 1 := by
  have counted : CountedSat s ((s.clepEvent 3).bumpSat Reg.CLEP_ERR_CNT 48 16 1) Reg.CLEP_ERR_CNT 48 16 1 :=
    .after Reg.CLEP_ERR_CNT 48 16 1 (OnlyRegs.regF (s.clepEvent_onlyRegs 3) Reg.CLEP_ERR_CNT 48 16 (by decide))
      (.of_bumpSat Reg.CLEP_ERR_CNT 48 16 1 (by decide))
  refine .before Reg.CLEP_ERR_CNT 48 16 1 counted ?_
  unfold State.regF
  rw [s.enterHoldover_reg]

theorem State.enterFree_bit (s : State) : bit (s.enterFree.reg Reg.CLEP_EVENT) 4 = true := by
  have logged : s.enterFree.reg Reg.CLEP_EVENT = ((s.withClep s.enterFree.clep).clepEvent 4).reg Reg.CLEP_EVENT :=
    State.logEvent_onlyRegs ((s.withClep _).clepEvent 4) 7 1 sevError (by decide) [] _ (List.not_mem_nil)
  rw [logged]
  exact State.clepEvent_bit _ _ (by decide)

/-- The claim of O30 about the loss of the reference in use while the other is good. -/
theorem refLost_one (b : Bool) (s : State) (external : s.clep.internal = false) (good : s.clep.refOk.get b = true)
    (other : s.clep.refOk.get (!b) = true) (inUse : s.clep.useB = b) :
    Completes (.refLost b) s (fun t => t = { s with clep := t.clep, regs := t.regs } ∧ t.clep.useB = !b ∧
      t.clep.refOk.get b = false ∧ t.clep.refOk.get (!b) = true ∧ t.clep.lock = s.clep.lock ∧ t.clep.count = s.clep.count ∧
      t.clep.slots = s.clep.slots ∧ OnlyRegs s t [Reg.CLEP_EVENT, Reg.CLEP_ERR_CNT] ∧
      bit (t.reg Reg.CLEP_EVENT) (b2n b) = true ∧ CountedSat s t Reg.CLEP_ERR_CNT 32 16 1) := by
  refine ⟨_, congrArg Host.Outcome.next (State.refLost_switches b external good other inUse), rfl, rfl, by simp [State.lossNoted],
    ?_, rfl, rfl, rfl, ?_, ?_, ?_⟩
  · exact (Pair.get_set_other _ b _).trans other
  · exact .trans (t := (s.lossNoted b).withClep _) (OnlyRegs.mono (s.lossNoted_onlyRegs b) (by simp))
      (.bumpSat _ _ _ _ (by simp))
  · exact (congrArg (bit · _) (OnlyRegs.bumpSat (s := (s.lossNoted b).withClep _) Reg.CLEP_ERR_CNT 32 16 1
      (List.mem_singleton_self _) Reg.CLEP_EVENT (by decide))).trans (s.lossNoted_bit b)
  · exact .after (t := (s.lossNoted b).withClep _) Reg.CLEP_ERR_CNT 32 16 1
      (OnlyRegs.regF (s.lossNoted_onlyRegs b) Reg.CLEP_ERR_CNT 32 16 (by decide)) (.of_bumpSat Reg.CLEP_ERR_CNT 32 16 1 (by decide))

/-- The claim of O30 about the loss of the last good reference. -/
theorem refLost_last (b : Bool) (s : State) (external : s.clep.internal = false) (good : s.clep.refOk.get b = true)
    (other : s.clep.refOk.get (!b) = false) :
    Completes (.refLost b) s (fun t => t = { s with clep := t.clep, regs := t.regs, keeper := t.keeper } ∧
      t.clep.count = s.clep.count ∧ t.clep.refOk.get b = false ∧
      (s.clep.lock = .locked → t.clep.lock = .holdover ∧ t.clep.holdFrom = s.now ∧ bit (t.reg Reg.CLEP_EVENT) 3 = true ∧
        CountedSat s t Reg.CLEP_ERR_CNT 48 16 1) ∧
      (s.clep.lock = .acquire → t.clep.lock = .free ∧ bit (t.reg Reg.CLEP_EVENT) 4 = true) ∧
      (s.clep.lock = .free → t.clep.lock = .free) ∧ (s.clep.lock = .holdover → t.clep.lock = .holdover)) := by
  have noted : s.RestKept (s.lossNoted b) := rfl
  have gone : (s.lossNoted b).clep.refOk.get b = false := Pair.get_set_same _ b _
  refine ⟨_, congrArg Host.Outcome.next (State.refLost_both b external good other), ?_⟩
  cases l : s.clep.lock with
  | free => exact ⟨noted, rfl, gone, by simp, by simp, fun _ => l, by simp⟩
  | acquire =>
    exact ⟨noted.trans (State.enterFree_restKept _), by rw [State.enterFree_clep]; rfl, by rw [State.enterFree_clep]; exact gone,
      by simp, fun _ => ⟨by rw [State.enterFree_clep], State.enterFree_bit _⟩, by simp, by simp⟩
  | locked =>
    refine ⟨noted.trans (State.enterHoldover_restKept _), by rw [State.enterHoldover_clep]; rfl,
      by rw [State.enterHoldover_clep]; exact gone, fun _ => ⟨by rw [State.enterHoldover_clep],
        by rw [State.enterHoldover_clep]; rfl, State.enterHoldover_bit _, ?_⟩, by simp, by simp, by simp⟩
    exact .after Reg.CLEP_ERR_CNT 48 16 1 (OnlyRegs.regF (s.lossNoted_onlyRegs b) Reg.CLEP_ERR_CNT 48 16 (by decide))
      (State.enterHoldover_counted _)
  | holdover => exact ⟨noted, rfl, gone, by simp, by simp, by simp, fun _ => l⟩

/-! ### A reference is good again -/

@[simp] theorem State.switchRef_refOk (s : State) (b : Bool) : (s.switchRef b).clep.refOk = s.clep.refOk := by
  unfold State.switchRef
  split <;> rfl

theorem State.SlotsOnly.refOk (h : s.SlotsOnly t) : t.clep.refOk = s.clep.refOk := by rw [h.eq]

@[simp] theorem State.leaveHoldover_refOk (s : State) : s.leaveHoldover.clep.refOk = s.clep.refOk := by
  unfold State.leaveHoldover
  extract_lets c
  split
  · rfl
  · split
    · rfl
    · split
      · exact (State.enterLocked_slotsOnly _).refOk
      · rw [s.enterFree_clep]

theorem State.refGoodAgain_refOk (s : State) (b : Bool) : (s.refGoodAgain b).clep.refOk.get b = true := by
  unfold State.refGoodAgain
  extract_lets c s1 pref s2
  have used : s2.clep.refOk = c.refOk.set b true := by
    unfold s2
    split
    · exact s1.switchRef_refOk b
    · rfl
  rw [State.leaveHoldover_refOk, used, Pair.get_set_same]

/-- The claim of O30 about the intervals of a lost reference. -/
theorem refGoodInterval_judges (b gap : Bool) (hz : Nat) (s : State) (external : s.clep.internal = false)
    (lost : s.clep.refOk.get b = false) :
    Completes (.refGoodInterval b gap hz) s (fun t => t.clep.count = s.clep.count ∧
      ((gap = true ∨ hz < 99990000 ∨ 100010000 < hz) → t.clep.refOk.get b = false ∧ t.clep.refGood.get b = 0) ∧
      (gap = false → 99990000 ≤ hz → hz ≤ 100010000 → s.clep.refGood.get b < 15 →
        t.clep.refOk.get b = false ∧ t.clep.refGood.get b = s.clep.refGood.get b + 1 ∧ t.regs = s.regs) ∧
      (gap = false → 99990000 ≤ hz → hz ≤ 100010000 → 15 ≤ s.clep.refGood.get b → t.clep.refOk.get b = true)) := by
  refine ⟨_, if_neg (by simp [external, lost]), ?_⟩
  by_cases clean : (!gap && freqOk hz) = true
  · have inside : gap = false ∧ 99990000 ≤ hz ∧ hz ≤ 100010000 := by simpa [freqOk] using clean
    rw [if_pos clean]
    by_cases many : 15 ≤ s.clep.refGood.get b
    · rw [if_pos (by omega)]
      exact ⟨(s.refGoodAgain_lockGoes b).1, fun h => by simp [inside.1] at h; omega, fun _ _ _ h => by omega,
        fun _ _ _ _ => s.refGoodAgain_refOk b⟩
    · rw [if_neg (by omega)]
      exact ⟨rfl, fun h => by simp [inside.1] at h; omega, fun _ _ _ _ => ⟨lost, Pair.get_set_same _ b _, rfl⟩, fun _ _ _ h => by omega⟩
  · have outside : ¬ (gap = false ∧ 99990000 ≤ hz ∧ hz ≤ 100010000) := by simpa [freqOk] using clean
    rw [if_neg clean, if_neg (by decide)]
    exact ⟨rfl, fun _ => ⟨lost, Pair.get_set_same _ b _⟩, fun a c d _ => absurd ⟨a, c, d⟩ outside, fun a c d _ => absurd ⟨a, c, d⟩ outside⟩

/-- The claim of O30 about the frequency of an interval. -/
theorem refFreqInterval_judges (b : Bool) (hz : Nat) (s : State) :
    (99990000 ≤ hz → hz ≤ 100010000 → Completes (.refFreqInterval b hz) s (fun t => t = s)) ∧
    ((hz < 99990000 ∨ 100010000 < hz) →
      ∃ t, exec (.refFreqInterval b hz) s = .next t ∧ exec (.refLost b) s = .next t) := by
  refine ⟨fun low high => ⟨s, ?_, rfl⟩, fun off => ⟨s.refLost b, ?_, rfl⟩⟩
  · exact congrArg Host.Outcome.next (if_pos (by simp [freqOk, low, high]))
  · exact congrArg Host.Outcome.next (if_neg (by simp [freqOk]; omega))

end Sys2Proof.Machine

section Settled
open Sys2Proof Sys2Proof.Machine

/-- Settles O30: each reference is judged by the cases of Table 2-3. -/
theorem referencesJudged : Obligations.ReferencesJudged :=
  ⟨refLost_one, refLost_last, refFreqInterval_judges, refGoodInterval_judges⟩

end Settled
end

section
/-! SUPPORT. Work, images and ring slots of a Rill, and the injections of the Rill page (R264 to R286), for O36. -/

set_option Elab.async false

namespace Sys2Proof.Machine
variable {s t u : State}

/-- An injection sets its bit of a page that answers, and nothing else. -/
theorem State.writeOne_onlyBitSet {key i b : Nat} (up : s.pageUp (keyPage key) = true) (h : b < 64) :
    OnlyBitSet s (s.writeOne (instKey key i) b) (instKey key i) b := by
  rw [State.writeOne_up (by rw [keyPage_instKey]; exact up)]
  exact .of_setRegF _ _ h

/-- A Rill set up for the work of a phase. -/
def Rill.dispatched (r : Rill) (work : RillWork) : Rill :=
  { r with rid := some work.rid, flags := [], bars := [], pcs := [],
           ringBase := 256 * work.ringBase.val, ring := work.ringSlots.val + 1, ringHead := 0, used := 0,
           engs := (List.range 5).map (fun e => if (funcEngines r.func).testBit e then .run else .idle) }

/-- The engines that the function of a Rill uses run. -/
theorem Rill.dispatched_engs (r : Rill) (work : RillWork) (e : Nat) (h : e < 5) :
    (r.dispatched work).engs[e]? = some (if (funcEngines r.func).testBit e then .run else .idle) := by
  simp [Rill.dispatched, h]

/-- Whether work of `rid` may start on the physical Rill `k`. -/
def State.starts (s : State) (n : RillName) (rid k : Nat) : Prop :=
  (s.rill k).idle = true ∧ (s.rill k).func ≠ 0 ∧ s.canDispatch n.basin n.terrace = true ∧
    s.mayServe rid n.basin (nodeTerrace n.basin n.terrace) = true ∧ s.rillRetired k = false

theorem exec_rillDispatch_starts {n : RillName} {work : RillWork} {k : Nat} (phys : s.physRill n = some k)
    (start : s.starts n work.rid k) : exec (.rillDispatch n work) s = .next (s.setRill k ((s.rill k).dispatched work)) := by
  obtain ⟨idle, image, basin, serve, sound⟩ := start
  show execRillDispatch n work s = _
  unfold execRillDispatch
  rw [phys]
  exact if_pos ⟨idle, image, basin, serve, by simp [sound]⟩

theorem exec_rillDispatch_none {n : RillName} {work : RillWork} {k : Nat} (phys : s.physRill n = some k)
    (no : ¬ s.starts n work.rid k) : exec (.rillDispatch n work) s = .next s := by
  show execRillDispatch n work s = _
  unfold execRillDispatch
  rw [phys]
  refine if_neg fun c => no ?_
  obtain ⟨idle, image, basin, serve, sound⟩ := c
  exact ⟨idle, image, basin, serve, by simpa using sound⟩

/-- A request that waits on a lower tier, that does not run, or that may not run in the Basin is not served there. -/
theorem State.mayServe_held {rid b tr : Nat} {q : Req} (held : s.req? rid = some q)
    (serve : s.mayServe rid b tr = true) : s.waitsOnTier rid = false ∧ q.life = .running ∧ s.mayRunIn q b = true := by
  unfold State.mayServe at serve
  rw [held] at serve
  simp only [Bool.and_eq_true, decide_eq_true_eq, Bool.not_eq_true'] at serve
  obtain ⟨⟨⟨running, fast⟩, -⟩, here⟩ := serve
  exact ⟨fast, running, here⟩

/-- A Rill with a new image. -/
def State.imaged (s : State) (k f : Nat) : State :=
  s.setRill k { s.rill k with func := f, istore := s.rillImage f, flags := [], bars := [], rid := none, used := 0 }

theorem exec_rillImageLoad {n : RillName} {f : Fin 9} {k : Nat} (phys : s.physRill n = some k)
    (pump : s.pumpRuns n.basin = true) :
    exec (.rillImageLoad n f) s = .next (if (s.rill k).idle then (s.imaged k f).bump Reg.RILL_CNT_LOADS 0 64 1
      else s.bumpSat Reg.RILL_CNT_FAULTS 48 16 1) := by
  show execRillImageLoad n f s = _
  unfold execRillImageLoad
  rw [phys]
  refine (if_neg (by simp [pump])).trans ?_
  split <;> rfl

theorem exec_ringSlotRelease {n : RillName} {k : Nat} (phys : s.physRill n = some k) (used : (s.rill k).used ≠ 0) :
    exec (.ringSlotRelease n) s = .next (s.setRill k { s.rill k with
      used := (s.rill k).used - 1, ringHead := ((s.rill k).ringHead + 1) % max 1 (s.rill k).ring }) := by
  show execRingSlotRelease n s = _
  unfold execRingSlotRelease
  rw [phys]
  exact if_neg used

theorem rillDispatch_starts (n : RillName) (rid k : Nat) (ringBase : Fin 256) (ringSlots : Fin 64) (s : State)
    (phys : s.physRill n = some k) (idle : (s.rill k).idle = true) (image : (s.rill k).func ≠ 0)
    (basin : s.canDispatch n.basin n.terrace = true)
    (serve : s.mayServe rid n.basin (nodeTerrace n.basin n.terrace) = true) (sound : s.rillRetired k = false) :
    Completes (.rillDispatch n ⟨rid, ringBase, ringSlots⟩) s (fun t => t = { s with fabric := t.fabric } ∧
      t.fabric = { s.fabric with rills := t.fabric.rills } ∧ (t.rill k).rid = some rid ∧
      (∀ f, (t.rill k).flag f = 0) ∧ (t.rill k).bars = [] ∧ (t.rill k).used = 0 ∧ (t.rill k).func = (s.rill k).func ∧
      (t.rill k).ring = ringSlots.val + 1 ∧ (t.rill k).ringBase = 256 * ringBase.val ∧ (t.rill k).scratch = (s.rill k).scratch ∧
      (∀ e, e < 5 → (t.rill k).engs[e]? = some (if (funcEngines (s.rill k).func).testBit e then .run else .idle)) ∧
      (∀ j, j ≠ k → t.rill j = s.rill j)) := by
  refine ⟨_, exec_rillDispatch_starts phys ⟨idle, image, basin, serve, sound⟩, rfl, rfl, ?_⟩
  rw [State.rill_setRill_same]
  exact ⟨rfl, fun _ => rfl, rfl, rfl, rfl, rfl, rfl, rfl, (s.rill k).dispatched_engs _,
    fun j hj => s.rill_setRill_other _ _ _ hj⟩

theorem rillDispatch_refuses (n : RillName) (rid k : Nat) (ringBase : Fin 256) (ringSlots : Fin 64) (q : Req) (s : State)
    (phys : s.physRill n = some k) (held : s.req? rid = some q)
    (no : s.waitsOnTier rid = true ∨ q.life ≠ .running ∨ s.mayRunIn q n.basin = false ∨ s.rillRetired k = true) :
    Completes (.rillDispatch n ⟨rid, ringBase, ringSlots⟩) s (fun t => t = s) := by
  refine ⟨s, exec_rillDispatch_none phys fun start => ?_, rfl⟩
  obtain ⟨-, -, -, serve, sound⟩ := start
  obtain ⟨fast, running, here⟩ := State.mayServe_held held serve
  simp [fast, running, here, sound] at no

theorem rillImageLoad_loads (n : RillName) (f : Fin 9) (k : Nat) (s : State) (phys : s.physRill n = some k)
    (pump : s.pumpRuns n.basin = true) :
    ((s.rill k).idle = true → Completes (.rillImageLoad n f) s (fun t => t = { s with fabric := t.fabric, regs := t.regs } ∧
      (t.rill k).func = f.val ∧ (t.rill k).istore = s.rillImage f.val ∧ (∀ g, (t.rill k).flag g = 0) ∧ (t.rill k).bars = [] ∧
      (t.rill k).fault = (s.rill k).fault ∧ (∀ j, j ≠ k → t.rill j = s.rill j) ∧ OnlyRegs s t [Reg.RILL_CNT_LOADS] ∧
      Counted s t Reg.RILL_CNT_LOADS 0 64 1)) ∧
    ((s.rill k).idle = false → Completes (.rillImageLoad n f) s (fun t => t = { s with regs := t.regs } ∧
      OnlyRegs s t [Reg.RILL_CNT_FAULTS] ∧ CountedSat s t Reg.RILL_CNT_FAULTS 48 16 1)) := by
  refine ⟨fun idle => ⟨_, (exec_rillImageLoad phys pump).trans (congrArg _ (if_pos idle)), rfl, ?_⟩,
    fun busy => ⟨_, (exec_rillImageLoad phys pump).trans (congrArg _ (if_neg (by simp [busy]))), rfl, ?_, ?_⟩⟩
  · have loaded : ((s.imaged k f).bump Reg.RILL_CNT_LOADS 0 64 1).rill k =
        { s.rill k with func := f, istore := s.rillImage f, flags := [], bars := [], rid := none, used := 0 } :=
      s.rill_setRill_same k _
    rw [loaded]
    exact ⟨rfl, rfl, fun _ => rfl, rfl, rfl, fun j hj => s.rill_setRill_other _ _ _ hj,
      .bump (s := s.imaged k f) _ _ _ _ List.mem_cons_self, .of_bump (s := s.imaged k f) Reg.RILL_CNT_LOADS 0 64 1 (by decide)⟩
  · exact .bumpSat _ _ _ _ List.mem_cons_self
  · exact .of_bumpSat Reg.RILL_CNT_FAULTS 48 16 1 (by decide)

theorem ringSlotRelease_releases (n : RillName) (k : Nat) (s : State) (phys : s.physRill n = some k)
    (used : (s.rill k).used ≠ 0) :
    Completes (.ringSlotRelease n) s (fun t => t = { s with fabric := t.fabric } ∧
      t.rill k = { s.rill k with
        used := (s.rill k).used - 1, ringHead := ((s.rill k).ringHead + 1) % max 1 (s.rill k).ring } ∧
      (∀ j, j ≠ k → t.rill j = s.rill j)) :=
  ⟨_, exec_ringSlotRelease phys used, rfl, s.rill_setRill_same _ _, fun _ hj => s.rill_setRill_other _ _ _ hj⟩

theorem injectRill_sets (s : State) (up : s.pageUp (keyPage Reg.RILL_INJECT) = true) :
    Completes .injectRillTimeout s (fun t => OnlyBitSet s t (instKey Reg.RILL_INJECT (s.regF Reg.RILL_SEL 0 14)) 0) ∧
    Completes .injectRillScrEcc s (fun t => OnlyBitSet s t (instKey Reg.RILL_INJECT (s.regF Reg.RILL_SEL 0 14)) 1) :=
  ⟨⟨_, rfl, State.writeOne_onlyBitSet up (by decide)⟩, ⟨_, rfl, State.writeOne_onlyBitSet up (by decide)⟩⟩

end Sys2Proof.Machine

section Settled
open Sys2Proof Sys2Proof.Machine

/-- Settles O36: a command of the Rill array is one write of its Rill, or a count, by the guard of its model. -/
theorem rillsDispatched : Obligations.RillsDispatched :=
  ⟨rillDispatch_starts, rillDispatch_refuses, rillImageLoad_loads, ringSlotRelease_releases, injectRill_sets⟩

end Settled
end

section
/-! SUPPORT. Flags, waits and faults of a Rill (R267 to R277), for O37 and O39. -/

set_option Elab.async false

namespace Sys2Proof.Machine
variable {s t u : State} {r : Rill}

/-! ### Memories -/

/-- Bytes written in order from a place on are read back, and the others stand. -/
theorem get_putFrom (addr n j : Nat) (bs : List Byte) (m : Store Byte) :
    Store.get (fun _ => 0) ((List.zip (List.range' n bs.length) bs).foldl
      (fun (st : Store Byte) p => Store.put (fun _ => 0) st (addr + p.1) p.2) m) j =
    if addr + n ≤ j ∧ j < addr + n + bs.length then bs.getD (j - addr - n) 0 else Store.get (fun _ => 0) m j := by
  induction bs generalizing n m with
  | nil =>
    rw [if_neg (by simp)]
    rfl
  | cons b bs ih =>
    rw [List.length_cons, List.range'_succ, List.zip_cons_cons, List.foldl_cons, ih]
    obtain rfl | d := eq_or_ne j (addr + n)
    · rw [if_neg (by omega), if_pos (by omega), Store.get_put_same, show addr + n - addr - n = 0 by omega]
      rfl
    · rw [Store.get_put_other _ _ _ _ _ d]
      by_cases inside : addr + (n + 1) ≤ j ∧ j < addr + (n + 1) + bs.length
      · rw [if_pos inside, if_pos (by omega), show j - addr - n = j - addr - (n + 1) + 1 by omega, List.getD_cons_succ]
      · rw [if_neg inside, if_neg (by omega)]

theorem get_putBytes (addr j : Nat) (bs : List Byte) (m : Store Byte) :
    Store.get (fun _ => 0) (putBytes m addr bs) j =
    if addr ≤ j ∧ j < addr + bs.length then bs.getD (j - addr) 0 else Store.get (fun _ => 0) m j := by
  unfold putBytes
  rw [List.range_eq_range']
  exact get_putFrom addr 0 j bs m

/-- A byte written is read back. -/
theorem get_putBytes_mem {addr i : Nat} {bs : List Byte} {b : Byte} (m : Store Byte) (h : bs[i]? = some b) :
    Store.get (fun _ => 0) (putBytes m addr bs) (addr + i) = b := by
  have inside : i < bs.length := (List.getElem?_eq_some_iff.mp h).1
  rw [get_putBytes, if_pos (by omega), Nat.add_sub_cancel_left, List.getD_eq_getElem?_getD, h, Option.getD_some]

/-- What has been written is what is read. -/
theorem getBytes_putBytes (m : Store Byte) (addr : Nat) (bs : List Byte) : getBytes (putBytes m addr bs) addr bs.length = bs := by
  refine List.ext_getElem? fun i => ?_
  unfold getBytes
  rw [List.getElem?_map]
  by_cases inside : i < bs.length
  · rw [List.getElem?_range inside, Option.map_some, get_putBytes_mem m (List.getElem?_eq_getElem inside),
      List.getElem?_eq_getElem inside]
  · rw [List.getElem?_eq_none (by simpa using inside), List.getElem?_eq_none (by simpa using inside), Option.map_none]

/-! ### Flags -/

@[simp] theorem Rill.setFlag_flag_same (r : Rill) (f v : Nat) : (r.setFlag f v).flag f = v := Store.get_put_same _ _ _ _

theorem Rill.setFlag_flag_other (r : Rill) {f g : Nat} (v : Nat) (h : g ≠ f) : (r.setFlag f v).flag g = r.flag g :=
  Store.get_put_other _ _ _ _ _ h

/-- Engine `e` is tried for flag `f`. -/
def Rill.retry (f : Nat) (q : Rill) (e : Nat) : Rill :=
  match q.engs.getD e .idle with
  | .waitFlag g n _ deaf =>
    if g = f ∧ !deaf ∧ n ≤ q.flag f then { q.setFlag f (q.flag f - n) with engs := q.engs.set e .run } else q
  | _ => q

theorem Rill.settle_eq (r : Rill) (f : Nat) : r.settle f = (List.range 5).foldl (Rill.retry f) r := rfl

/-- No engine of the Rill waits on flag `f`. -/
def Rill.NoWait (r : Rill) (f : Nat) : Prop := ∀ n pc d, Eng.waitFlag f n pc d ∉ r.engs

theorem Rill.retry_of_ne (q : Rill) (f e : Nat) (h : ∀ n pc d, q.engs.getD e .idle ≠ .waitFlag f n pc d) : q.retry f e = q := by
  unfold Rill.retry
  split
  next g n pc deaf at_ => exact if_neg fun (c : g = f ∧ _) => h n pc deaf (c.1 ▸ at_)
  next => rfl

theorem Rill.NoWait.getD_ne {f : Nat} (h : r.NoWait f) (e n pc : Nat) (d : Bool) : r.engs.getD e .idle ≠ .waitFlag f n pc d := by
  intro c
  by_cases inside : e < r.engs.length
  · rw [List.getD_eq_getElem _ _ inside] at c
    exact h n pc d (c ▸ List.getElem_mem inside)
  · rw [List.getD_eq_default _ _ (by omega)] at c
    cases c

theorem Rill.NoWait.retry {f : Nat} (h : r.NoWait f) (e : Nat) : r.retry f e = r := Rill.retry_of_ne r f e (h.getD_ne e)

theorem Rill.NoWait.settle {f : Nat} (h : r.NoWait f) : r.settle f = r := by
  rw [Rill.settle_eq]
  exact List.foldl_fixed' (fun e => h.retry e) _

theorem Rill.retry_flag_other (q : Rill) {f g : Nat} (e : Nat) (h : g ≠ f) : (q.retry f e).flag g = q.flag g := by
  unfold Rill.retry
  split
  · split
    · exact Rill.setFlag_flag_other q _ h
    · rfl
  · rfl

theorem Rill.settle_flag_other (r : Rill) {f g : Nat} (h : g ≠ f) : (r.settle f).flag g = r.flag g := by
  rw [Rill.settle_eq]
  generalize List.range 5 = es
  induction es generalizing r with
  | nil => rfl
  | cons e es ih => exact (ih (r.retry f e)).trans (r.retry_flag_other e h)

/-! ### The signals of one cycle -/

/-- The signals of one cycle that name flag `f` are applied. -/
def Rill.raise (sigs : List Signal) (q : Rill) (f : Nat) : Rill :=
  let v := q.flag f + sigSum sigs f
  if v > 65535 then q else (q.setFlag f v).settle f

/-- The flags that the signals of a cycle name. -/
def namedFlags (sigs : List Signal) : List Nat := (List.range 32).filter (fun f => sigs.any (fun g => g.flag.val == f))

theorem Rill.apply_eq (r : Rill) (sigs : List Signal) : r.apply sigs = (namedFlags sigs).foldl (Rill.raise sigs) r := rfl

theorem Rill.raise_flag_other (sigs : List Signal) (q : Rill) {f g : Nat} (h : g ≠ f) : (q.raise sigs f).flag g = q.flag g := by
  unfold Rill.raise
  extract_lets v
  split
  · rfl
  · exact (Rill.settle_flag_other _ h).trans (q.setFlag_flag_other v h)

/-- A flag that its signals would take above 65,535 keeps its value. -/
theorem Rill.apply_flag_over (r : Rill) (sigs : List Signal) {g : Nat} (high : 65535 < r.flag g + sigSum sigs g) :
    (r.apply sigs).flag g = r.flag g := by
  rw [Rill.apply_eq]
  generalize namedFlags sigs = l
  induction l generalizing r with
  | nil => rfl
  | cons f l ih =>
    have kept : (r.raise sigs f).flag g = r.flag g := by
      obtain rfl | d := eq_or_ne g f
      · exact congrArg (Rill.flag · g) (if_pos high)
      · exact r.raise_flag_other sigs d
    exact (ih (r.raise sigs f) (kept ▸ high)).trans kept

/-- The Rill with other counts of its flags. -/
def Rill.SameButFlags (q r : Rill) : Prop := q = { r with flags := q.flags }

theorem Rill.raise_noWait {q : Rill} (sigs : List Signal) (f : Nat) (h : q.NoWait f) :
    Rill.SameButFlags (q.raise sigs f) q ∧
      (q.raise sigs f).flag f = if 65535 < q.flag f + sigSum sigs f then q.flag f else q.flag f + sigSum sigs f := by
  unfold Rill.raise
  extract_lets v
  split
  next => exact ⟨rfl, rfl⟩
  next =>
    have settled : (q.setFlag f v).settle f = q.setFlag f v := Rill.NoWait.settle (r := q.setFlag f v) h
    rw [settled, q.setFlag_flag_same]
    exact ⟨rfl, rfl⟩

theorem Rill.SameButFlags.noWait {q r : Rill} (h : Rill.SameButFlags q r) {f : Nat} (n : r.NoWait f) : q.NoWait f := by
  unfold Rill.NoWait
  rw [h]
  exact n

theorem Rill.SameButFlags.trans {a b c : Rill} (h : Rill.SameButFlags a b) (k : Rill.SameButFlags b c) : Rill.SameButFlags a c := by
  unfold Rill.SameButFlags at *
  rw [h, k]

/-- Where no engine waits, each flag that is named rises by the sum of its signals. -/
theorem Rill.foldl_raise (sigs : List Signal) (l : List Nat) (nodup : l.Nodup) (r : Rill) (h : ∀ f, r.NoWait f) :
    Rill.SameButFlags (l.foldl (Rill.raise sigs) r) r ∧ ∀ g, (l.foldl (Rill.raise sigs) r).flag g =
      if g ∈ l then (if 65535 < r.flag g + sigSum sigs g then r.flag g else r.flag g + sigSum sigs g) else r.flag g := by
  induction l generalizing r with
  | nil => exact ⟨rfl, fun g => (if_neg (by simp)).symm⟩
  | cons f l ih =>
    obtain ⟨fresh, rest⟩ := List.nodup_cons.mp nodup
    obtain ⟨same, raised⟩ := Rill.raise_noWait sigs f (h f)
    obtain ⟨samel, flags⟩ := ih rest (r.raise sigs f) (fun g => same.noWait (h g))
    refine ⟨samel.trans same, fun g => (flags g).trans ?_⟩
    obtain rfl | d := eq_or_ne g f
    · rw [if_neg fresh, if_pos List.mem_cons_self, raised]
    · rw [r.raise_flag_other sigs d]
      simp [d]

theorem sigSum_of_not_named {sigs : List Signal} {f : Nat} (h : ∀ g ∈ sigs, g.flag.val ≠ f) : sigSum sigs f = 0 := by
  unfold sigSum
  rw [List.filter_eq_nil_iff.mpr (by simpa using h)]
  rfl

/-- Where no engine waits and no flag overflows, the flags rise by the sums of their signals. -/
theorem Rill.apply_noWait (r : Rill) (sigs : List Signal) (h : ∀ f, r.NoWait f) :
    Rill.SameButFlags (r.apply sigs) r ∧
      ∀ f, f < 32 → (r.flag f + sigSum sigs f ≤ 65535 ∨ sigSum sigs f = 0) → (r.apply sigs).flag f = r.flag f + sigSum sigs f := by
  obtain ⟨same, flags⟩ := Rill.foldl_raise sigs (namedFlags sigs) (List.nodup_range.filter _) r h
  refine ⟨same, fun f small fits => (flags f).trans ?_⟩
  by_cases named : f ∈ namedFlags sigs
  · rw [if_pos named]
    split <;> omega
  · have none : sigSum sigs f = 0 := sigSum_of_not_named fun g hg c => named (by
      simp only [namedFlags, List.mem_filter, List.mem_range, List.any_eq_true, beq_iff_eq]
      exact ⟨small, g, hg, c⟩)
    rw [if_neg named, none, Nat.add_zero]

/-! ### Overflows -/

theorem firstFault_mem {l : List RFault} {f : RFault} (h : firstFault l = some f) : f ∈ l := by
  induction l generalizing f with
  | nil => cases h
  | cons a l ih =>
    unfold firstFault at h
    split at h
    next => exact (Option.some.inj h) ▸ List.mem_cons_self
    next b e =>
      cases h
      split
      · exact List.mem_cons_of_mem _ (ih e)
      · exact List.mem_cons_self

theorem firstFault_isSome {l : List RFault} (h : l ≠ []) : ∃ f, firstFault l = some f := by
  cases l with
  | nil => exact absurd rfl h
  | cons a l =>
    unfold firstFault
    split
    · exact ⟨_, rfl⟩
    · exact ⟨_, rfl⟩

/-- What an overflow is recorded as. -/
theorem overflowsOf_mem {sigs : List Signal} {a : RFault} (h : a ∈ overflowsOf r sigs) : a.code = fFlagOverflow ∧ a.detail = 0 := by
  obtain ⟨f, -, first⟩ := List.mem_filterMap.mp h
  obtain ⟨g, -, rfl⟩ := List.mem_map.mp (firstFault_mem first)
  exact ⟨rfl, rfl⟩

theorem sumNat_eq_sum (l : List Nat) : sumNat l = l.sum := by
  rw [List.sum_eq_foldl]
  rfl

/-- Without an overflow each flag's signals fit, or there is none. -/
theorem fits_of_overflowsOf {sigs : List Signal} (h : overflowsOf r sigs = []) (f : Nat) (small : f < 32) :
    r.flag f + sigSum sigs f ≤ 65535 ∨ sigSum sigs f = 0 := by
  by_contra! c
  obtain ⟨high, some_⟩ := c
  have named : sigs.filter (fun g => g.flag.val == f && g.inc.val != 0) ≠ [] := by
    intro none
    refine some_ ?_
    unfold sigSum
    rw [sumNat_eq_sum, List.sum_eq_zero_iff]
    intro x hx
    obtain ⟨g, hg, rfl⟩ := List.mem_map.mp hx
    by_contra nz
    obtain ⟨mem, flag⟩ := List.mem_filter.mp hg
    exact List.not_mem_nil (none ▸ List.mem_filter.mpr ⟨mem, by simp_all⟩)
  obtain ⟨a, first⟩ := firstFault_isSome (l := (sigs.filter (fun g => g.flag.val == f && g.inc.val != 0)).map (fun g =>
      (⟨2, g.eng, fFlagOverflow, f, r.flag f, 0, g.pc, none, false⟩ : RFault))) (by simpa using named)
  have mem : a ∈ overflowsOf r sigs := List.mem_filterMap.mpr ⟨f, List.mem_filter.mpr ⟨List.mem_range.mpr small, by simpa using high⟩, first⟩
  exact List.not_mem_nil (h ▸ mem)

end Sys2Proof.Machine
end

section
/-! SUPPORT. A Rill that faults while it serves no phase, and what the commands of flags and barriers answer, for O37 and O39. -/

set_option Elab.async false

namespace Sys2Proof.Machine
variable {s t u : State} {r : Rill}

/-! ### Faults -/

/-- Of a node only the fabric differs, and there no Rill. -/
structure State.RillsKept (s t : State) : Prop where
  rest : t = { s with fabric := t.fabric }
  rills : t.fabric.rills = s.fabric.rills

theorem State.RillsKept.trans (a : s.RillsKept t) (b : t.RillsKept u) : s.RillsKept u :=
  ⟨by rw [b.rest, a.rest], b.rills.trans a.rills⟩

theorem State.moveRouter_rillsKept (s : State) (v : Nat × Nat) : s.RillsKept (s.moveRouter v) := by
  unfold State.moveRouter
  split <;> exact ⟨rfl, rfl⟩

theorem State.settleMaps_rillsKept (s : State) : s.RillsKept s.settleMaps := by
  unfold State.settleMaps
  extract_lets go _ s1
  have first : s.RillsKept s1 := ⟨rfl, rfl⟩
  exact List.foldlRecOn (motive := (s.RillsKept ·)) _ _ first fun t h v _ => h.trans (t.moveRouter_rillsKept v)

theorem State.rill_congr (h : t.fabric.rills = s.fabric.rills) (k : Nat) : t.rill k = s.rill k := by
  unfold State.rill
  rw [h]

theorem satAdd_satAdd (w a d e : Nat) : satAdd w (satAdd w a d) e = satAdd w a (d + e) := by
  unfold satAdd
  omega

/-- A saturating counter that is raised twice. -/
theorem CountedSat.add (k l n d e : Nat) (a : CountedSat s t k l n d) (b : CountedSat t u k l n e) : CountedSat s u k l n (d + e) := by
  unfold CountedSat at *
  rw [b, a, satAdd_satAdd]

theorem CountedSat.zero (s : State) (k l n : Nat) : CountedSat s s k l n 0 := by
  have small : s.regF k l n < 2 ^ n := field_lt _ _ _
  unfold CountedSat satAdd
  omega

/-- Faults of one kind that is no uncorrectable error are counted in one field. -/
theorem State.foldl_countRillFault (k c : Nat) (plain : ¬ (c = fScratchEcc ∨ c = fIstoreEcc)) (fits : faultCounter c + 16 ≤ 64)
    (fs : List RFault) (codes : ∀ g ∈ fs, g.code = c) (s : State) :
    s.Wrote (fs.foldl (fun (t : State) g => t.countRillFault k g.code) s) [Reg.RILL_CNT_FAULTS] ∧
    CountedSat s (fs.foldl (fun (t : State) g => t.countRillFault k g.code) s) Reg.RILL_CNT_FAULTS (faultCounter c) 16 fs.length := by
  induction fs generalizing s with
  | nil => exact ⟨.refl _ _, .zero _ _ _ _⟩
  | cons g fs ih =>
    have one : s.countRillFault k g.code = s.bumpSat Reg.RILL_CNT_FAULTS (faultCounter c) 16 1 := by
      rw [codes g List.mem_cons_self]
      exact if_neg plain
    rw [List.foldl_cons, one]
    have wrote : s.Wrote (s.bumpSat Reg.RILL_CNT_FAULTS (faultCounter c) 16 1) [Reg.RILL_CNT_FAULTS] :=
      .bumpSat List.mem_cons_self _ _ _
    have counted : CountedSat s (s.bumpSat Reg.RILL_CNT_FAULTS (faultCounter c) 16 1) Reg.RILL_CNT_FAULTS (faultCounter c) 16 1 :=
      .of_bumpSat _ _ _ _ fits
    generalize s.bumpSat Reg.RILL_CNT_FAULTS (faultCounter c) 16 1 = v at wrote counted ⊢
    obtain ⟨more, rest⟩ := ih (fun h hh => codes h (List.mem_cons_of_mem _ hh)) v
    refine ⟨wrote.trans more, ?_⟩
    rw [List.length_cons, Nat.add_comm]
    exact .add _ _ _ _ _ counted rest

/-- What a Rill is left as by its fault. -/
def Rill.faulted (r : Rill) (f : RFault) (now : Time) : Rill :=
  { r.stop with
    heaps := []
    flags := r.flags
    fault := faultWord f.code f.eng f.flag f.count f.detail f.pc
    faultTime := now }

theorem Rill.faulted_idle (r : Rill) (f : RFault) (now : Time) : (r.faulted f now).idle = true := rfl

/-- A Rill without a phase has faulted, with `n` faults of the kind `c`. -/
structure State.Faulted (s t : State) (k : Nat) (f : RFault) (c n : Nat) : Prop where
  rest : t = { s with fabric := t.fabric, regs := t.regs }
  rill : t.rill k = (s.rill k).faulted f s.now
  others : ∀ j, j ≠ k → t.rill j = s.rill j
  only : OnlyRegs s t [Reg.RILL_CNT_FAULTS]
  counted : CountedSat s t Reg.RILL_CNT_FAULTS (faultCounter c) 16 n

theorem State.rillFaults_faulted {k c : Nat} {f : RFault} {fs : List RFault} (first : firstFault fs = some f)
    (unserved : (s.rill k).rid = none) (codes : ∀ g ∈ fs, g.code = c) (plain : ¬ (c = fScratchEcc ∨ c = fIstoreEcc))
    (fits : faultCounter c + 16 ≤ 64) : s.Faulted (s.rillFaults k fs) k f c fs.length := by
  have sound : fs.any (fun g => g.code == fIstoreEcc) = false := by
    simp only [List.any_eq_false, beq_iff_eq]
    exact fun g hg h => plain (.inr ((codes g hg).symm.trans h))
  have answer : s.rillFaults k fs =
      (fs.foldl (fun (t : State) g => t.countRillFault k g.code) (s.setRill k ((s.rill k).faulted f s.now))).settleMaps := by
    unfold State.rillFaults
    rw [first]
    dsimp only
    rw [unserved, sound]
    rfl
  rw [answer]
  obtain ⟨s1, e1⟩ : ∃ s1, s1 = s.setRill k ((s.rill k).faulted f s.now) := ⟨_, rfl⟩
  rw [← e1]
  have set : s1.rill k = (s.rill k).faulted f s.now := e1 ▸ s.rill_setRill_same k _
  have others (j : Nat) (d : j ≠ k) : s1.rill j = s.rill j := e1 ▸ s.rill_setRill_other k j _ d
  have rest : s1 = { s with fabric := s1.fabric } := e1 ▸ rfl
  have regs : s1.regs = s.regs := e1 ▸ rfl
  obtain ⟨wrote, counted⟩ := State.foldl_countRillFault k c plain fits fs codes s1
  have settled := State.settleMaps_rillsKept (fs.foldl (fun (t : State) g => t.countRillFault k g.code) s1)
  generalize fs.foldl (fun (t : State) g => t.countRillFault k g.code) s1 = v at wrote counted settled ⊢
  generalize v.settleMaps = s2 at settled ⊢
  have kept : s2.fabric.rills = s1.fabric.rills := by
    rw [settled.rills, wrote.rest]
  have read (j : Nat) : s2.reg j = v.reg j := by
    rw [settled.rest]
    rfl
  have start (j : Nat) : s1.reg j = s.reg j := OnlyRegs.of_regs (ks := []) regs j List.not_mem_nil
  refine ⟨?_, (State.rill_congr kept k).trans set, fun j d => (State.rill_congr kept j).trans (others j d), fun j hj => ?_, ?_⟩
  · rw [settled.rest, wrote.rest, rest]
  · exact (read j).trans ((wrote.only j hj).trans (start j))
  · unfold CountedSat State.regF at *
    rw [read, counted, start]

/-! ### Transfers -/

/-- Of a Rill only its memory and the addresses of its engines differ. -/
def Rill.MemOnly (q r : Rill) : Prop := q = { r with pcs := q.pcs, scratch := q.scratch }

theorem Rill.write_memOnly (r : Rill) (g : Signal) : Rill.MemOnly (r.write g) r := by
  unfold Rill.write
  extract_lets r1
  split
  · split <;> rfl
  · rfl

theorem Rill.foldl_write_memOnly (r : Rill) (sigs : List Signal) : Rill.MemOnly (sigs.foldl Rill.write r) r := by
  refine List.foldlRecOn (motive := (Rill.MemOnly · r)) _ _ rfl fun q h g _ => ?_
  have step : Rill.MemOnly (q.write g) q := q.write_memOnly g
  unfold Rill.MemOnly at *
  rw [step, h]

/-- Shared memories of the fabric may differ, and nothing else. -/
structure State.MemoriesOnly (s t : State) : Prop where
  rest : t = { s with fabric := t.fabric }
  fabric : t.fabric = { s.fabric with srams := t.fabric.srams, staging := t.fabric.staging }

theorem State.MemoriesOnly.trans (a : s.MemoriesOnly t) (b : t.MemoriesOnly u) : s.MemoriesOnly u :=
  ⟨by rw [b.rest, a.rest], by rw [b.fabric, a.fabric]⟩

theorem State.sramWrite_memoriesOnly (s : State) (k : Nat) (g : Signal) : s.MemoriesOnly (s.sramWrite k g) := by
  unfold State.sramWrite
  split
  · split
    · exact ⟨rfl, rfl⟩
    · exact ⟨rfl, rfl⟩
  · split
    · exact ⟨rfl, rfl⟩
    · exact ⟨rfl, rfl⟩
  · exact ⟨rfl, rfl⟩

/-- What the Rill holds after the transfers of a cycle. -/
def Rill.transferred (r : Rill) (sigs : List Signal) : Rill := (sigs.foldl Rill.write r).apply sigs

/-- The transfers of a cycle without faults. -/
def State.transferred (s : State) (k : Nat) (sigs : List Signal) : State :=
  sigs.foldl (fun (t : State) g => t.sramWrite k g) (s.setRill k ((s.rill k).transferred sigs))

theorem State.transferred_memoriesOnly (s : State) (k : Nat) (sigs : List Signal) :
    (s.setRill k ((s.rill k).transferred sigs)).MemoriesOnly (s.transferred k sigs) :=
  List.foldlRecOn (motive := ((s.setRill k ((s.rill k).transferred sigs)).MemoriesOnly ·)) _ _ ⟨rfl, rfl⟩
    fun t h g _ => h.trans (t.sramWrite_memoriesOnly k g)

theorem State.MemoriesOnly.rill (a : s.MemoriesOnly t) (k : Nat) : t.rill k = s.rill k := State.rill_congr (by rw [a.fabric]) k

theorem State.transferred_rill (s : State) (k : Nat) (sigs : List Signal) :
    (s.transferred k sigs).rill k = (s.rill k).transferred sigs :=
  ((s.transferred_memoriesOnly k sigs).rill k).trans (s.rill_setRill_same k _)

theorem State.transferred_others (s : State) (k : Nat) (sigs : List Signal) (j : Nat) (d : j ≠ k) :
    (s.transferred k sigs).rill j = s.rill j :=
  ((s.transferred_memoriesOnly k sigs).rill j).trans (s.rill_setRill_other k j _ d)

theorem exec_rillTransferDone {n : RillName} {sigs : List Signal} {k : Nat} (phys : s.physRill n = some k)
    (quiet : bit (s.reg (instKey Reg.RILL_INJECT k)) 1 = false ∨ (s.rill k).rid = none)
    (inside : ∀ g ∈ sigs, signalOutside g = false) :
    exec (.rillTransferDone n sigs []) s = .next ((s.transferred k sigs).rillFaults k (overflowsOf (s.rill k) sigs)) := by
  show execRillTransferDone n sigs [] s = _
  unfold execRillTransferDone
  split
  next k' at_ =>
    obtain rfl := Option.some.inj (phys.symm.trans at_)
    extract_lets r inj out ev fs s1 s2 s3
    have quietly : inj = [] := by
      unfold inj
      split
      · refine if_neg ?_
        obtain h | h := quiet <;> simp [h, r]
      · rfl
    have all : out = [] := by
      unfold out
      rw [List.filter_eq_nil_iff.mpr (by simpa using inside), List.map_nil]
    have found : fs = overflowsOf (s.rill k) sigs := by
      unfold fs
      rw [quietly, all]
      rfl
    have same : s3 = s2 := by
      unfold s3
      rw [quietly]
      rfl
    rw [same, found]
    rfl
  next at_ => simp [phys] at at_

/-- An overflow-free cycle of a Rill where no engine waits. -/
theorem rillTransferDone_counts (n : RillName) (sigs : List Signal) (k : Nat) (s : State) (phys : s.physRill n = some k)
    (quiet : bit (s.reg (instKey Reg.RILL_INJECT k)) 1 = false ∨ (s.rill k).rid = none)
    (inside : ∀ g ∈ sigs, signalOutside g = false) (fits : overflowsOf (s.rill k) sigs = [])
    (free : ∀ e ∈ (s.rill k).engs, ∀ f m pc d, e ≠ Eng.waitFlag f m pc d) :
    Completes (.rillTransferDone n sigs []) s (fun t => t = { s with fabric := t.fabric } ∧
      t.fabric = { s.fabric with rills := t.fabric.rills, srams := t.fabric.srams, staging := t.fabric.staging } ∧
      (∀ f, f < 32 → (t.rill k).flag f = (s.rill k).flag f + sigSum sigs f) ∧ (t.rill k).engs = (s.rill k).engs ∧
      (∀ (g : Signal) (a : Fin 65536), sigs = [g] → g.dest = .scratch a → g.eng.val ≠ 4 → ∀ i b, g.data[i]? = some b →
        Store.get (fun _ => 0) (t.rill k).scratch (a.val + i) = b) ∧
      (∀ j, j ≠ k → t.rill j = s.rill j)) := by
  have ran : exec (.rillTransferDone n sigs []) s = .next (s.transferred k sigs) := by
    rw [exec_rillTransferDone phys quiet inside, fits]
    rfl
  have wrote : Rill.MemOnly (sigs.foldl Rill.write (s.rill k)) (s.rill k) := Rill.foldl_write_memOnly _ _
  have still (f : Nat) : (sigs.foldl Rill.write (s.rill k)).NoWait f := by
    unfold Rill.NoWait
    rw [wrote]
    exact fun m pc d mem => free _ mem f m pc d rfl
  have sameFlag (f : Nat) : (sigs.foldl Rill.write (s.rill k)).flag f = (s.rill k).flag f := by
    rw [wrote]
    rfl
  obtain ⟨same, flags⟩ := Rill.apply_noWait (sigs.foldl Rill.write (s.rill k)) sigs still
  have rest := s.transferred_memoriesOnly k sigs
  refine ⟨_, ran, ?_, ?_, ?_, ?_, ?_, s.transferred_others k sigs⟩
  · rw [rest.rest]
    rfl
  · rw [rest.fabric]
    rfl
  · intro f small
    rw [s.transferred_rill]
    exact (flags f small (sameFlag f ▸ fits_of_overflowsOf fits f small)).trans (by rw [sameFlag])
  · rw [s.transferred_rill, Rill.transferred, same, wrote]
  · intro g a only dest reads i b there
    rw [s.transferred_rill, Rill.transferred, same, only, List.foldl_cons, List.foldl_nil]
    have write : (s.rill k).write g = { s.rill k with
        pcs := Store.put (fun _ => 0) (s.rill k).pcs g.eng g.pc, scratch := putBytes (s.rill k).scratch a g.data } := by
      unfold Rill.write
      rw [dest]
      refine if_neg ?_
      rw [inside g (by simp [only])]
      simpa using reads
    rw [write]
    exact get_putBytes_mem _ there

/-- A cycle with an overflow, of a Rill that serves no phase. -/
theorem rillTransferDone_overflows (n : RillName) (sigs : List Signal) (k : Nat) (f : RFault) (s : State)
    (phys : s.physRill n = some k) (unserved : (s.rill k).rid = none) (inside : ∀ g ∈ sigs, signalOutside g = false)
    (first : firstFault (overflowsOf (s.rill k) sigs) = some f) :
    Completes (.rillTransferDone n sigs []) s (fun t => t = { s with fabric := t.fabric, regs := t.regs } ∧
      (t.rill k).fault = faultWord fFlagOverflow f.eng f.flag f.count 0 f.pc ∧
      (∀ g, g < 32 → 65535 < (s.rill k).flag g + sigSum sigs g → (t.rill k).flag g = (s.rill k).flag g) ∧
      (t.rill k).idle = true ∧ (t.rill k).faultTime = s.now ∧
      CountedSat s t Reg.RILL_CNT_FAULTS 48 16 (overflowsOf (s.rill k) sigs).length) := by
  have wrote : Rill.MemOnly (sigs.foldl Rill.write (s.rill k)) (s.rill k) := Rill.foldl_write_memOnly _ _
  have sameFlag (f : Nat) : (sigs.foldl Rill.write (s.rill k)).flag f = (s.rill k).flag f := by
    rw [wrote]
    rfl
  have rest := s.transferred_memoriesOnly k sigs
  have own : (s.transferred k sigs).rill k = (s.rill k).transferred sigs := s.transferred_rill k sigs
  have ridKept : ((s.rill k).transferred sigs).rid = none := by
    have kept (l : List Nat) (q : Rill) : (l.foldl (Rill.raise sigs) q).rid = q.rid := by
      refine List.foldlRecOn (motive := fun p : Rill => p.rid = q.rid) _ _ rfl fun p h g _ => ?_
      refine Eq.trans ?_ h
      unfold Rill.raise
      extract_lets v
      split
      · rfl
      · rw [Rill.settle_eq]
        refine List.foldlRecOn (motive := fun x : Rill => x.rid = p.rid) _ _ rfl fun x h e _ => ?_
        refine Eq.trans ?_ h
        unfold Rill.retry
        split
        · split <;> rfl
        · rfl
    rw [Rill.transferred, Rill.apply_eq, kept, wrote]
    exact unserved
  have now : (s.transferred k sigs).now = s.now := by
    rw [rest.rest]
    rfl
  have faulted : (s.transferred k sigs).Faulted ((s.transferred k sigs).rillFaults k (overflowsOf (s.rill k) sigs)) k f
      fFlagOverflow (overflowsOf (s.rill k) sigs).length :=
    State.rillFaults_faulted first (by rw [own]; exact ridKept) (fun g hg => (overflowsOf_mem hg).1) (by decide) (by decide)
  obtain ⟨code, detail⟩ := overflowsOf_mem (firstFault_mem first)
  refine ⟨_, exec_rillTransferDone phys (.inr unserved) inside, ?_, ?_, ?_, ?_, ?_, ?_⟩
  · rw [faulted.rest, rest.rest]
    rfl
  · rw [faulted.rill, Rill.faulted, code, detail]
  · intro g _ high
    rw [faulted.rill, own]
    have kept : ((s.rill k).transferred sigs).flag g = (s.rill k).flag g :=
      (Rill.apply_flag_over _ sigs (by rw [sameFlag]; exact high)).trans (sameFlag g)
    exact kept
  · rw [faulted.rill]
    exact Rill.faulted_idle _ _ _
  · rw [faulted.rill]
    exact now
  · refine .after _ _ _ _ ?_ faulted.counted
    rw [rest.rest]
    rfl

/-! ### Waits -/

theorem exec_rillWait {n : RillName} {eng : Fin 5} {f : Fin 32} {m : Fin 256} {pc : Fin 4096} {k : Nat}
    (phys : s.physRill n = some k) (run : (s.rill k).engs[eng.val]? = some .run) (some_ : 0 < m.val)
    (quiet : bit (s.reg (instKey Reg.RILL_INJECT k)) 0 = false) :
    exec (.rillWait n eng f m pc) s = .next (s.setRill k (Rill.settle { s.rill k with
      engs := (s.rill k).engs.set eng (.waitFlag f m pc false)
      pcs := Store.put (fun _ => 0) (s.rill k).pcs eng pc } f)) := by
  show execRillWait n eng f m pc s = _
  unfold execRillWait
  rw [phys]
  refine (if_pos ⟨by rw [List.getD_eq_getElem?_getD, run, Option.getD_some], some_⟩).trans ?_
  rw [quiet]
  rfl

/-- Of one engine that waits on a flag as the only one, the wait is tried. -/
theorem Rill.settle_one (r : Rill) (f m pc e : Nat) (small : e < 5) (waits : r.engs[e]? = some (.waitFlag f m pc false))
    (alone : ∀ j, j ≠ e → ∀ n pc d, r.engs.getD j .idle ≠ .waitFlag f n pc d) :
    r.settle f = if m ≤ r.flag f then { r.setFlag f (r.flag f - m) with engs := r.engs.set e .run } else r := by
  have others (q : Rill) (engs : ∀ j, j ≠ e → q.engs.getD j .idle = r.engs.getD j .idle) (l : List Nat) (out : e ∉ l) :
      l.foldl (Rill.retry f) q = q := by
    induction l with
    | nil => rfl
    | cons j l ih =>
      have d : j ≠ e := fun h => out (h ▸ List.mem_cons_self)
      rw [List.foldl_cons, Rill.retry_of_ne q f j (by rw [engs j d]; exact alone j d)]
      exact ih fun h => out (List.mem_cons_of_mem _ h)
  have tried : r.retry f e = if m ≤ r.flag f then { r.setFlag f (r.flag f - m) with engs := r.engs.set e .run } else r := by
    unfold Rill.retry
    rw [List.getD_eq_getElem?_getD, waits, Option.getD_some]
    dsimp only
    simp
  obtain ⟨l1, l2, split⟩ := List.append_of_mem (List.mem_range.mpr small)
  have nodup : (l1 ++ e :: l2).Nodup := split ▸ List.nodup_range
  rw [List.nodup_middle, List.nodup_cons, List.mem_append, not_or] at nodup
  rw [Rill.settle_eq, split, List.foldl_append, others r (fun _ _ => rfl) l1 nodup.1.1, List.foldl_cons, tried]
  refine others _ (fun j d => ?_) l2 nodup.1.2
  split
  · rw [List.getD_eq_getElem?_getD, List.getD_eq_getElem?_getD, List.getElem?_set_ne (Ne.symm d)]
  · rfl

theorem rillWait_waits (n : RillName) (eng : Fin 5) (f : Fin 32) (m : Fin 256) (pc : Fin 4096) (k : Nat) (s : State)
    (phys : s.physRill n = some k) (run : (s.rill k).engs[eng.val]? = some .run) (some_ : 0 < m.val)
    (quiet : bit (s.reg (instKey Reg.RILL_INJECT k)) 0 = false)
    (alone : ∀ (e : Nat) (g j p : Nat) (d : Bool), (s.rill k).engs[e]? = some (.waitFlag g j p d) → g ≠ f.val) :
    Completes (.rillWait n eng f m pc) s (fun t => t = { s with fabric := t.fabric } ∧
      (m.val ≤ (s.rill k).flag f → (t.rill k).flag f = (s.rill k).flag f - m.val ∧ (t.rill k).engs[eng.val]? = some .run) ∧
      ((s.rill k).flag f < m.val → (t.rill k).flag f = (s.rill k).flag f ∧
        (t.rill k).engs[eng.val]? = some (.waitFlag f m pc false)) ∧
      (∀ g, g ≠ f.val → (t.rill k).flag g = (s.rill k).flag g) ∧ (∀ j, j ≠ k → t.rill j = s.rill j)) := by
  obtain ⟨inside, -⟩ := List.getElem?_eq_some_iff.mp run
  have settled := Rill.settle_one { s.rill k with
      engs := (s.rill k).engs.set eng (.waitFlag f m pc false)
      pcs := Store.put (fun _ => 0) (s.rill k).pcs eng pc } f m pc eng eng.isLt
    (List.getElem?_set_self inside) fun j d n p b at_ => by
      rw [List.getD_eq_getElem?_getD, List.getElem?_set_ne (Ne.symm d)] at at_
      cases own : (s.rill k).engs[j]? with
      | none =>
        rw [own] at at_
        cases at_
      | some e =>
        rw [own, Option.getD_some] at at_
        exact alone j f n p b (at_ ▸ own) rfl
  refine ⟨_, exec_rillWait phys run some_ quiet, rfl, ?_⟩
  rw [State.rill_setRill_same, settled]
  have same : Rill.flag { s.rill k with
      engs := (s.rill k).engs.set eng (.waitFlag f m pc false)
      pcs := Store.put (fun _ => 0) (s.rill k).pcs eng pc } = (s.rill k).flag := rfl
  rw [same]
  refine ⟨fun enough => ?_, fun less => ?_, fun g d => ?_, fun j d => s.rill_setRill_other _ _ _ d⟩
  · rw [if_pos enough]
    exact ⟨Rill.setFlag_flag_same _ _ _, List.getElem?_set_self (by rw [List.length_set]; exact inside)⟩
  · rw [if_neg (by omega)]
    exact ⟨rfl, List.getElem?_set_self inside⟩
  · split
    · exact Rill.setFlag_flag_other _ _ d
    · rfl

/-! ### Barriers -/

/-- The engines that have arrived at a barrier. -/
def arrivedAt (bars : Store Barrier) (num : Nat) : Nat :=
  match Store.find? bars num with
  | some b => b.arrived
  | none => 0

theorem exec_barrierArrive {n : RillName} {eng : Fin 5} {num : Fin 4} {mask : Fin 32} {pc : Fin 4096} {k : Nat}
    (phys : s.physRill n = some k) (run : (s.rill k).engs[eng.val]? = some .run) (member : mask.val.testBit eng = true)
    (same : ∀ b, Store.find? (s.rill k).bars num = some b → b.mask = mask.val) :
    exec (.barrierArrive n eng num mask pc) s = .next (s.setRill k (
      if arrivedAt (s.rill k).bars num ||| 1 <<< eng.val = mask.val then
        { s.rill k with bars := Store.erase (s.rill k).bars num,
                        engs := (maskEngines mask).foldl (fun l e => l.set e .run) (s.rill k).engs }
      else
        { s.rill k with bars := Store.insert (s.rill k).bars num ⟨mask, arrivedAt (s.rill k).bars num ||| 1 <<< eng.val⟩,
                        engs := (s.rill k).engs.set eng (.waitBarrier num pc) })) := by
  show execBarrierArrive n eng num mask pc s = _
  unfold execBarrierArrive
  rw [phys]
  refine (if_neg (by rw [List.getD_eq_getElem?_getD, run, Option.getD_some]; simp)).trans ?_
  refine (if_neg ?_).trans ?_
  · cases found : Store.find? (s.rill k).bars num with
    | none => simp [member]
    | some b => simp [member, same b found]
  · rw [apply_ite (s.setRill k), apply_ite Host.Outcome.next]
    rfl

theorem exec_barrierArrive_clash {n : RillName} {eng : Fin 5} {num : Fin 4} {mask : Fin 32} {pc : Fin 4096} {k : Nat}
    (phys : s.physRill n = some k) (run : (s.rill k).engs[eng.val]? = some .run)
    (clash : mask.val.testBit eng = false ∨ ∃ b, Store.find? (s.rill k).bars num = some b ∧ b.mask ≠ mask.val) :
    exec (.barrierArrive n eng num mask pc) s = .next (s.rillFaults k [⟨4, eng, fBarrierMask, num, 0, mask, pc, none, false⟩]) := by
  show execBarrierArrive n eng num mask pc s = _
  unfold execBarrierArrive
  rw [phys]
  refine (if_neg (by rw [List.getD_eq_getElem?_getD, run, Option.getD_some]; simp)).trans (if_pos ?_)
  obtain out | ⟨b, found, other⟩ := clash
  · simp [out]
  · simp [found, other]

/-- Engines set to one state. -/
theorem getElem?_foldl_set (l : List Nat) (engs : List Eng) (v : Eng) (e : Nat) (h : e < engs.length) :
    (l.foldl (fun l e => l.set e v) engs)[e]? = if e ∈ l then some v else engs[e]? := by
  induction l generalizing engs with
  | nil => exact (if_neg List.not_mem_nil).symm
  | cons a l ih =>
    rw [List.foldl_cons, ih _ (by rwa [List.length_set])]
    by_cases rest : e ∈ l
    · rw [if_pos rest, if_pos (List.mem_cons_of_mem _ rest)]
    · rw [if_neg rest]
      obtain rfl | d := eq_or_ne e a
      · rw [if_pos List.mem_cons_self, List.getElem?_set_self h]
      · rw [if_neg (by simp [d, rest]), List.getElem?_set_ne (Ne.symm d)]

theorem mem_maskEngines {m e : Nat} (h : m < 32) (b : m.testBit e = true) : e ∈ maskEngines m := by
  refine List.mem_filter.mpr ⟨List.mem_range.mpr ?_, b⟩
  by_contra big
  have : m < 2 ^ e := lt_of_lt_of_le h (show 2 ^ 5 ≤ 2 ^ e from Nat.pow_le_pow_right (by decide : 0 < 2) (by omega))
  rw [Nat.testBit_lt_two_pow this] at b
  cases b

theorem barrierArrive_arrives (n : RillName) (eng : Fin 5) (num : Fin 4) (mask : Fin 32) (pc : Fin 4096) (k : Nat) (s : State)
    (phys : s.physRill n = some k) (run : (s.rill k).engs[eng.val]? = some .run) (member : mask.val.testBit eng = true)
    (same : ∀ b, Store.find? (s.rill k).bars num = some b → b.mask = mask.val) :
    Completes (.barrierArrive n eng num mask pc) s (fun t => t = { s with fabric := t.fabric } ∧
      (∀ f, (t.rill k).flag f = (s.rill k).flag f) ∧ (∀ j, j ≠ k → t.rill j = s.rill j) ∧
      (∀ old, old = (match Store.find? (s.rill k).bars num with | some b => b.arrived | none => 0) →
        (old ||| 1 <<< eng.val = mask.val → Store.find? (t.rill k).bars num = none ∧
          (∀ e, mask.val.testBit e = true → e < (s.rill k).engs.length → (t.rill k).engs[e]? = some .run)) ∧
        (old ||| 1 <<< eng.val ≠ mask.val →
          Store.find? (t.rill k).bars num = some ⟨mask, old ||| 1 <<< eng.val⟩ ∧
          (t.rill k).engs[eng.val]? = some (.waitBarrier num pc)))) := by
  obtain ⟨inside, -⟩ := List.getElem?_eq_some_iff.mp run
  refine ⟨_, exec_barrierArrive phys run member same, rfl, ?_, fun j d => s.rill_setRill_other _ _ _ d, ?_⟩
  · intro f
    rw [State.rill_setRill_same]
    split <;> rfl
  · intro old is
    have is : arrivedAt (s.rill k).bars num = old := is.symm
    rw [State.rill_setRill_same, is]
    refine ⟨fun last => ?_, fun more => ?_⟩
    · rw [if_pos last]
      refine ⟨Store.find?_erase_same _ _, fun e he hl => ?_⟩
      rw [getElem?_foldl_set _ _ _ _ hl, if_pos (mem_maskEngines mask.isLt he)]
    · rw [if_neg more]
      exact ⟨Store.find?_insert_same _ _ _, List.getElem?_set_self inside⟩

theorem barrierArrive_clashes (n : RillName) (eng : Fin 5) (num : Fin 4) (mask : Fin 32) (pc : Fin 4096) (k : Nat) (s : State)
    (phys : s.physRill n = some k) (run : (s.rill k).engs[eng.val]? = some .run) (unserved : (s.rill k).rid = none)
    (clash : mask.val.testBit eng = false ∨ ∃ b, Store.find? (s.rill k).bars num = some b ∧ b.mask ≠ mask.val) :
    Completes (.barrierArrive n eng num mask pc) s (fun t => t = { s with fabric := t.fabric, regs := t.regs } ∧
      (t.rill k).fault = faultWord fBarrierMask eng num 0 mask pc ∧ (t.rill k).idle = true ∧
      CountedSat s t Reg.RILL_CNT_FAULTS 48 16 1) := by
  have faulted : s.Faulted (s.rillFaults k [⟨4, eng, fBarrierMask, num, 0, mask, pc, none, false⟩]) k _ fBarrierMask 1 :=
    State.rillFaults_faulted rfl unserved (by simp) (by decide) (by decide)
  refine ⟨_, exec_barrierArrive_clash phys run clash, faulted.rest, ?_, ?_, faulted.counted⟩
  · rw [faulted.rill]
    rfl
  · rw [faulted.rill]
    exact Rill.faulted_idle _ _ _

end Sys2Proof.Machine

section Settled
open Sys2Proof Sys2Proof.Machine

/-- Settles O37: flags rise by the sums of their signals, an overflow leaves its flag and faults the Rill, and a wait is tried once. -/
theorem flagsCount : Obligations.FlagsCount := ⟨rillTransferDone_counts, rillTransferDone_overflows, rillWait_waits⟩

/-- Settles O39: the last of a mask releases the engines, and a clash is a fault. -/
theorem barriersMeet : Obligations.BarriersMeet := ⟨barrierArrive_arrives, barrierArrive_clashes⟩

end Settled
end

section
/-! SUPPORT. Messages of the routers (R278 to R286), for O40. -/

set_option Elab.async false

namespace Sys2Proof.Machine
variable {s t u : State}

/-- The maps of the Rill array depend on the record, the units that retire and the Basins. -/
theorem State.physRill_congr (record : t.record = s.record) (retiring : t.fabric.retiring = s.fabric.retiring)
    (basins : t.basins = s.basins) (n : RillName) : t.physRill n = s.physRill n := by
  unfold State.physRill State.physRunnel State.mapRec State.basin
  rw [record, retiring, basins]

theorem State.router_congr (h : t.fabric.routers = s.fabric.routers) (k : Nat) : t.router k = s.router k := by
  unfold State.router
  rw [h]

/-! ### A full ring -/

/-- A ring with a free slot holds no message. -/
theorem State.holdFull_room (rk d : Nat) (room : ∀ j, s.physRill (nameOf d) = some j → (s.rill j).used < (s.rill j).ring) :
    s.holdFull rk d = s := by
  unfold State.holdFull
  extract_lets full q more
  have open_ : full = false := by
    unfold full
    split
    next j at_ => exact decide_eq_false (by have := room j at_; omega)
    next => rfl
  exact if_neg (by simp [open_])

/-- Messages of one router are marked as held, and that is counted. -/
structure State.Marked (s t : State) (rk : Nat) : Prop where
  rest : t = { s with fabric := t.fabric, regs := t.regs }
  rills : t.fabric.rills = s.fabric.rills
  bytes : (t.router rk).map Msg.bytes = (s.router rk).map Msg.bytes
  others : ∀ j, j ≠ rk → t.router j = s.router j
  only : OnlyRegs s t [instKey Reg.RUNNEL_MBX rk]
  count : t.regF (instKey Reg.RUNNEL_MBX rk) 0 32 = s.regF (instKey Reg.RUNNEL_MBX rk) 0 32

theorem State.holdFull_marked (s : State) (rk d : Nat) : s.Marked (s.holdFull rk d) rk := by
  unfold State.holdFull
  extract_lets full q more
  split
  next =>
    have set := s.router_setRouter_same rk (q.map (fun m => if m.dest = d then { m with held := true } else m))
    have others (j : Nat) (h : j ≠ rk) := s.router_setRouter_other rk j
      (q.map (fun m => if m.dest = d then { m with held := true } else m)) h
    have rest : s.setRouter rk (q.map (fun m => if m.dest = d then { m with held := true } else m)) =
      { s with fabric := (s.setRouter rk (q.map (fun m => if m.dest = d then { m with held := true } else m))).fabric } := rfl
    have rills : (s.setRouter rk (q.map (fun m => if m.dest = d then { m with held := true } else m))).fabric.rills =
      s.fabric.rills := rfl
    generalize s.setRouter rk (q.map (fun m => if m.dest = d then { m with held := true } else m)) = v at *
    have wrote : v.Wrote (v.bumpSat (instKey Reg.RUNNEL_MBX rk) 32 16 more.length) [instKey Reg.RUNNEL_MBX rk] :=
      .bumpSat List.mem_cons_self _ _ _
    have apart := v.regF_bumpSat_apart (instKey Reg.RUNNEL_MBX rk) 32 16 more.length 0 32 (by decide) (by decide)
    generalize v.bumpSat (instKey Reg.RUNNEL_MBX rk) 32 16 more.length = w at *
    have routers : w.fabric = v.fabric := by rw [wrote.rest]
    have read (j : Nat) : v.reg j = s.reg j := by
      rw [rest]
      rfl
    refine ⟨by rw [wrote.rest, rest], by rw [routers, rills], ?_, fun j h => ?_, fun j h => ?_, ?_⟩
    · rw [State.router_congr (congrArg Fabric.routers routers), set, List.map_map]
      refine List.map_congr_left fun m _ => ?_
      rw [Function.comp_apply]
      split <;> rfl
    · rw [State.router_congr (congrArg Fabric.routers routers), others j h]
    · rw [wrote.only j h, read]
    · rw [apart]
      unfold State.regF
      rw [read]
  next => exact ⟨rfl, rfl, rfl, fun _ _ => rfl, .refl _ _, rfl⟩

/-! ### Sends -/

/-- A message taken by a router whose destination has room in its ring. -/
theorem State.bufferMsg_room (rk : Nat) (m : Msg)
    (room : ∀ j, s.physRill (nameOf m.dest) = some j → (s.rill j).used < (s.rill j).ring) :
    s.bufferMsg rk m = s.setRouter rk (s.router rk ++ [m]) :=
  State.holdFull_room (s := s.setRouter rk (s.router rk ++ [m])) rk m.dest room

/-- A send that no check of the sender's node stops. -/
structure State.SendOk (s : State) (n : RillName) (k prn d : Nat) (hdr : List Byte) : Prop where
  phys : s.physRill n = some k
  run : (s.rill k).engs[4]? = some .run
  dest : d = leAt hdr 0 2
  small : d < 4096
  reach : s.mayReach k d = true
  runnel : s.physRunnel (nameOf d).basin (nameOf d).terrace (nameOf d).runnel = some prn
  up : s.basinUp (nameOf d).basin = true
  bridge : s.bridgeWord n.basin (nameOf d).basin = 2
  quiet : bit (s.reg (instKey Reg.RILL_INJECT k)) 1 = false

theorem exec_mailboxSend {n : RillName} {k : Nat} (phys : s.physRill n = some k) (hdr payload : List Byte) (pc : Fin 4096) :
    exec (.mailboxSend (.rill n) hdr payload pc) s = .next (s.rillSend n k hdr payload pc) := by
  show execMailboxSend (.rill n) hdr payload pc s = _
  unfold execMailboxSend
  dsimp only
  rw [phys]

theorem State.rillSend_eq {n : RillName} {k prn d : Nat} {hdr payload : List Byte} {pc : Nat} (ok : s.SendOk n k prn d hdr) :
    s.rillSend n k hdr payload pc =
      if 64 ≤ (s.router (runnelKey (nameOf d).basin (nameOf d).terrace prn)).length then
        (s.setRill k { s.rill k with engs := (s.rill k).engs.set 4 (.heldSend d pc true) }).bumpSat
          (instKey Reg.RUNNEL_MBX (runnelKey (nameOf d).basin (nameOf d).terrace prn)) 32 16 1
      else (s.setRill k { s.rill k with
          engs := (s.rill k).engs.set 4 .run, pcs := Store.put (fun _ => 0) (s.rill k).pcs 4 pc }).bufferMsg
        (runnelKey (nameOf d).basin (nameOf d).terrace prn) (msgOf hdr payload d (wordOfRill n)) := by
  have run : (s.rill k).engs.getD 4 .idle = .run := by rw [List.getD_eq_getElem?_getD, ok.run, Option.getD_some]
  unfold State.rillSend
  rw [← ok.dest]
  extract_lets r e maySend dest d' net
  have run : e = .run := run
  have may : maySend = true := by
    unfold maySend
    rw [run]
  rw [if_neg (by simp [may]), if_neg (by simp [ok.quiet]), if_neg (by simp [dest, ok.reach, ok.small]),
    if_neg (by simp [d', dest, ok.up, ok.bridge])]
  have runnel : s.physRunnel d'.basin d'.terrace d'.runnel = some prn := ok.runnel
  have bridge : s.bridgeWord n.basin d'.basin = 2 := ok.bridge
  rw [runnel, bridge]
  dsimp only
  by_cases full : 64 ≤ (s.router (runnelKey (nameOf d).basin (nameOf d).terrace prn)).length
  · rw [if_pos full, if_pos (.inl (decide_eq_true full)), if_pos (by simp [run, Eng.counted, d', dest, full])]
    simp [d', dest, full]
    rfl
  · rw [if_neg full, if_neg (by simpa [d', dest] using full), run]
    rfl

/-- The claims of O40 about a send that no check stops. -/
theorem mailboxSend_buffers (n : RillName) (hdr payload : List Byte) (pc : Fin 4096) (k prn d rk : Nat) (s : State)
    (phys : s.physRill n = some k) (run : (s.rill k).engs[4]? = some .run) (dest : d = leAt hdr 0 2) (small : d < 4096)
    (reach : s.mayReach k d = true)
    (runnel : s.physRunnel (nameOf d).basin (nameOf d).terrace (nameOf d).runnel = some prn)
    (up : s.basinUp (nameOf d).basin = true) (bridge : s.bridgeWord n.basin (nameOf d).basin = 2)
    (quiet : bit (s.reg (instKey Reg.RILL_INJECT k)) 1 = false) (key : rk = runnelKey (nameOf d).basin (nameOf d).terrace prn) :
    ((s.router rk).length < 64 →
      (∀ j, s.physRill (nameOf d) = some j → (s.rill j).used < (s.rill j).ring) →
      Completes (.mailboxSend (.rill n) hdr payload pc) s (fun t => t = { s with fabric := t.fabric } ∧
        t.router rk = s.router rk ++ [msgOf hdr payload d (wordOfRill n)] ∧ (t.rill k).engs[4]? = some .run ∧
        (∀ j, j ≠ rk → t.router j = s.router j) ∧ (∀ j, j ≠ k → t.rill j = s.rill j))) ∧
    (64 ≤ (s.router rk).length →
      Completes (.mailboxSend (.rill n) hdr payload pc) s (fun t => t = { s with fabric := t.fabric, regs := t.regs } ∧
        t.fabric.routers = s.fabric.routers ∧ (t.rill k).engs[4]? = some (.heldSend d pc true) ∧
        OnlyRegs s t [instKey Reg.RUNNEL_MBX rk] ∧ CountedSat s t (instKey Reg.RUNNEL_MBX rk) 32 16 1 ∧
        (∀ j, j ≠ k → t.rill j = s.rill j))) := by
  have sends := State.rillSend_eq (payload := payload) (pc := pc.val) ⟨phys, run, dest, small, reach, runnel, up, bridge, quiet⟩
  rw [← key] at sends
  obtain ⟨inside, -⟩ := List.getElem?_eq_some_iff.mp run
  refine ⟨fun space room => ?_, fun full => ?_⟩
  · rw [if_neg (by omega)] at sends
    have taken := State.bufferMsg_room (s := s.setRill k { s.rill k with
        engs := (s.rill k).engs.set 4 .run, pcs := Store.put (fun _ => 0) (s.rill k).pcs 4 pc }) rk
      (msgOf hdr payload d (wordOfRill n)) (fun j at_ => by
        have roomy := room j at_
        obtain rfl | other := eq_or_ne j k
        · rw [State.rill_setRill_same]
          exact roomy
        · rw [State.rill_setRill_other _ _ _ _ other]
          exact roomy)
    rw [taken] at sends
    refine ⟨_, (exec_mailboxSend phys hdr payload pc).trans (congrArg _ sends), rfl, ?_, ?_, fun j h => ?_, fun j h => ?_⟩
    · exact State.router_setRouter_same _ _ _
    · rw [State.rill_setRouter, State.rill_setRill_same]
      exact List.getElem?_set_self inside
    · rw [State.router_setRouter_other _ _ _ _ h]
      rfl
    · rw [State.rill_setRouter, State.rill_setRill_other _ _ _ _ h]
  · rw [if_pos full] at sends
    have set := s.rill_setRill_same k { s.rill k with engs := (s.rill k).engs.set 4 (.heldSend d pc true) }
    have others (j : Nat) (h : j ≠ k) :=
      s.rill_setRill_other k j { s.rill k with engs := (s.rill k).engs.set 4 (.heldSend d pc true) } h
    have rest : s.setRill k { s.rill k with engs := (s.rill k).engs.set 4 (.heldSend d pc true) } =
      { s with fabric := (s.setRill k { s.rill k with engs := (s.rill k).engs.set 4 (.heldSend d pc true) }).fabric } := rfl
    have routers : (s.setRill k { s.rill k with engs := (s.rill k).engs.set 4 (.heldSend d pc true) }).fabric.routers =
      s.fabric.routers := rfl
    generalize s.setRill k { s.rill k with engs := (s.rill k).engs.set 4 (.heldSend d pc true) } = v at *
    have wrote : v.Wrote (v.bumpSat (instKey Reg.RUNNEL_MBX rk) 32 16 1) [instKey Reg.RUNNEL_MBX rk] :=
      .bumpSat List.mem_cons_self _ _ _
    have counted : CountedSat v (v.bumpSat (instKey Reg.RUNNEL_MBX rk) 32 16 1) (instKey Reg.RUNNEL_MBX rk) 32 16 1 :=
      .of_bumpSat _ 32 16 1 (by decide)
    generalize v.bumpSat (instKey Reg.RUNNEL_MBX rk) 32 16 1 = w at *
    have fabric : w.fabric = v.fabric := by rw [wrote.rest]
    have read (j : Nat) : v.reg j = s.reg j := by
      rw [rest]
      rfl
    refine ⟨w, (exec_mailboxSend phys hdr payload pc).trans (congrArg _ sends), by rw [wrote.rest, rest],
      by rw [fabric, routers], ?_, fun j h => by rw [wrote.only j h, read], ?_, fun j h => ?_⟩
    · rw [State.rill_congr (congrArg Fabric.rills fabric), set]
      exact List.getElem?_set_self inside
    · refine .after _ _ _ _ ?_ counted
      unfold State.regF
      rw [read]
    · rw [State.rill_congr (congrArg Fabric.rills fabric), others j h]

/-- The checks of a send by an engine that may send, in their order. -/
theorem State.rillSend_run {k : Nat} (may : (s.rill k).engs.getD 4 .idle = .run) (n : RillName) (hdr payload : List Byte) (pc : Nat) :
    ∃ rest, s.rillSend n k hdr payload pc =
      if bit (s.reg (instKey Reg.RILL_INJECT k)) 1 = true ∧ (s.rill k).rid.isSome = true then
        (s.setRegF (instKey Reg.RILL_INJECT k) 1 1 0).rillFaults k [{ RFault.plain 0 fScratchEcc 4 pc with injected := true }]
      else if leAt hdr 0 2 ≥ 4096 ∨ (!s.mayReach k (leAt hdr 0 2)) = true then
        s.rillFaults k [⟨6, 4, fMbxRoute, 0, leAt hdr 0 2, 0, pc, none, false⟩]
      else if (!s.basinUp (nameOf (leAt hdr 0 2)).basin) = true ∨ s.bridgeWord n.basin (nameOf (leAt hdr 0 2)).basin = 0 then
        s.rillFaults k [⟨1, 4, fNetError, 0, leAt hdr 0 2, 0, pc, some (nameOf (leAt hdr 0 2)).basin, false⟩]
      else rest :=
  ⟨_, if_neg (by rw [may]; simp)⟩

/-- The claims of O40 about a send that is a fault. -/
theorem mailboxSend_faults (n : RillName) (hdr payload : List Byte) (pc : Fin 4096) (k d : Nat) (s : State)
    (phys : s.physRill n = some k) (run : (s.rill k).engs[4]? = some .run) (dest : d = leAt hdr 0 2) :
    (bit (s.reg (instKey Reg.RILL_INJECT k)) 1 = true → (s.rill k).rid ≠ none →
      Completes (.mailboxSend (.rill n) hdr payload pc) s (fun t =>
        t = (s.setRegF (instKey Reg.RILL_INJECT k) 1 1 0).rillFaults k
          [{ RFault.plain 0 fScratchEcc 4 pc with injected := true }])) ∧
    (bit (s.reg (instKey Reg.RILL_INJECT k)) 1 = false → (s.mayReach k d = false ∨ 4096 ≤ d) →
      Completes (.mailboxSend (.rill n) hdr payload pc) s (fun t =>
        t = s.rillFaults k [⟨6, 4, fMbxRoute, 0, d, 0, pc, none, false⟩])) ∧
    (bit (s.reg (instKey Reg.RILL_INJECT k)) 1 = false → d < 4096 → s.mayReach k d = true → (s.basinUp (nameOf d).basin = false ∨ s.bridgeWord n.basin (nameOf d).basin = 0) →
      Completes (.mailboxSend (.rill n) hdr payload pc) s (fun t =>
        t = s.rillFaults k [⟨1, 4, fNetError, 0, d, 0, pc, some (nameOf d).basin, false⟩])) := by
  have may : (s.rill k).engs.getD 4 .idle = .run := by rw [List.getD_eq_getElem?_getD, run, Option.getD_some]
  obtain ⟨rest, sends⟩ := State.rillSend_run may n hdr payload pc
  rw [← dest] at sends
  refine ⟨fun armed served => ⟨_, (exec_mailboxSend phys hdr payload pc).trans (congrArg _ sends), ?_⟩,
    fun quiet out => ⟨_, (exec_mailboxSend phys hdr payload pc).trans (congrArg _ sends), ?_⟩,
    fun quiet small reach off => ⟨_, (exec_mailboxSend phys hdr payload pc).trans (congrArg _ sends), ?_⟩⟩
  · exact if_pos ⟨armed, Option.isSome_iff_ne_none.mpr served⟩
  · rw [if_neg (by simp [quiet])]
    exact if_pos (by simpa [or_comm] using out)
  · rw [if_neg (by simp [quiet]), if_neg (by simp [reach, small])]
    exact if_pos (by simpa using off)

/-- The claim of O40 about messages of Pumphouse firmware. -/
theorem mailboxSend_pump (b : Fin 2) (hdr payload : List Byte) (pc : Fin 4096) (prn d rk : Nat) (s : State)
    (pump : s.pumpRuns b = true) (dest : d = leAt hdr 0 2) (small : d < 4096)
    (runnel : s.physRunnel (nameOf d).basin (nameOf d).terrace (nameOf d).runnel = some prn)
    (up : s.basinUp (nameOf d).basin = true) (bridge : s.bridgeWord b (nameOf d).basin = 2)
    (key : rk = runnelKey (nameOf d).basin (nameOf d).terrace prn) (space : (s.router rk).length < 64)
    (room : ∀ j, s.physRill (nameOf d) = some j → (s.rill j).used < (s.rill j).ring) :
    Completes (.mailboxSend (.pumphouse b) hdr payload pc) s (fun t => t = { s with free := s.free + 1, fabric := t.fabric } ∧
      (∃ src, t.router rk = s.router rk ++ [msgOf hdr payload d src]) ∧ t.fabric.rills = s.fabric.rills ∧
      (∀ j, j ≠ rk → t.router j = s.router j)) := by
  have sends : s.pumpSend b hdr payload = ({ s with free := s.free + 1 } : State).bufferMsg rk
      (msgOf hdr payload d (Config.freeValue 16 s.free).toNat) := by
    unfold State.pumpSend
    rw [← dest]
    extract_lets e d' _
    have runnel : s.physRunnel d'.basin d'.terrace d'.runnel = some prn := runnel
    rw [if_neg (by simp [e, pump, small, d', up, bridge]), runnel]
    dsimp only
    rw [if_neg (by rw [← key]; omega), ← key]
    rfl
  have taken := State.bufferMsg_room (s := { s with free := s.free + 1 }) rk
    (msgOf hdr payload d (Config.freeValue 16 s.free).toNat) room
  rw [taken] at sends
  refine ⟨_, congrArg Host.Outcome.next sends, rfl, ⟨_, State.router_setRouter_same _ _ _⟩, rfl, fun j h => ?_⟩
  rw [State.router_setRouter_other _ _ _ _ h]
  rfl

/-! ### Deliveries -/

/-- A ring slot filled and its flag raised, where no engine waits on it. -/
def Rill.received (r : Rill) (m : Msg) : Rill :=
  Rill.setFlag { r with used := r.used + 1, scratch := putBytes r.scratch r.freeSlotAt m.bytes } m.flag (r.flag m.flag + 1)

theorem State.deliverTo_received {k : Nat} {m : Msg} (fits : (s.rill k).flag m.flag < 65535)
    (free : (s.rill k).NoWait m.flag) : s.deliverTo k m = s.setRill k ((s.rill k).received m) := by
  unfold State.deliverTo
  extract_lets r r1
  have fits : r.flag m.flag < 65535 := fits
  rw [if_neg (by omega), Rill.NoWait.settle (r := r1.setFlag m.flag (r.flag m.flag + 1)) free]
  rfl

theorem exec_messageDelivery {n : RunnelName} {pos prn k : Nat} {m : Msg}
    (runnel : s.physRunnel n.basin n.terrace n.runnel = some prn)
    (at_ : (s.router (runnelKey n.basin n.terrace prn))[pos]? = some m) (phys : s.physRill (nameOf m.dest) = some k) :
    exec (.messageDelivery n pos) s = .next (
      if ((s.router (runnelKey n.basin n.terrace prn)).take pos).any (fun x => x.src == m.src && x.dest == m.dest) ∨
        (s.rill k).used ≥ (s.rill k).ring then s
      else (((s.setRouter (runnelKey n.basin n.terrace prn) ((s.router (runnelKey n.basin n.terrace prn)).eraseIdx pos)).bump
        (instKey Reg.RUNNEL_MBX (runnelKey n.basin n.terrace prn)) 0 32 1).deliverTo k m).holdFull
          (runnelKey n.basin n.terrace prn) m.dest) := by
  show execMessageDelivery n pos s = _
  unfold execMessageDelivery
  rw [runnel]
  dsimp only
  rw [at_]
  dsimp only
  rw [phys]
  dsimp only
  split <;> rfl

/-- The claims of O40 about deliveries. -/
theorem messageDelivery_delivers (n : RunnelName) (pos prn k rk : Nat) (m : Msg) (s : State)
    (runnel : s.physRunnel n.basin n.terrace n.runnel = some prn) (key : rk = runnelKey n.basin n.terrace prn)
    (at_ : (s.router rk)[pos]? = some m) (phys : s.physRill (nameOf m.dest) = some k) :
    ((∀ x ∈ (s.router rk).take pos, ¬ (x.src = m.src ∧ x.dest = m.dest)) →
      (s.rill k).used < (s.rill k).ring → (s.rill k).flag m.flag < 65535 →
      (∀ e ∈ (s.rill k).engs, ∀ f j pc d, e ≠ Eng.waitFlag f j pc d) →
      Completes (.messageDelivery n pos) s (fun t => t = { s with fabric := t.fabric, regs := t.regs } ∧
        (t.router rk).map Msg.bytes = ((s.router rk).eraseIdx pos).map Msg.bytes ∧
        ((s.rill k).used + 1 < (s.rill k).ring → t.router rk = (s.router rk).eraseIdx pos) ∧
        (∀ j, j ≠ rk → t.router j = s.router j) ∧ (t.rill k).used = (s.rill k).used + 1 ∧ (t.rill k).flag m.flag = (s.rill k).flag m.flag + 1 ∧
        getBytes (t.rill k).scratch (s.rill k).freeSlotAt m.bytes.length = m.bytes ∧ (∀ j, j ≠ k → t.rill j = s.rill j) ∧
        OnlyRegs s t [instKey Reg.RUNNEL_MBX rk] ∧ Counted s t (instKey Reg.RUNNEL_MBX rk) 0 32 1)) ∧
    (((s.rill k).ring ≤ (s.rill k).used ∨ ∃ x ∈ (s.router rk).take pos, x.src = m.src ∧ x.dest = m.dest) →
      Completes (.messageDelivery n pos) s (fun t => t = s)) := by
  have ran := exec_messageDelivery runnel (key ▸ at_) phys
  rw [← key] at ran
  refine ⟨fun first room fits free => ?_, fun held => ⟨s, ran.trans (congrArg _ (if_pos ?_)), rfl⟩⟩
  · rw [if_neg (by simp only [List.any_eq_true, Bool.and_eq_true, beq_iff_eq, not_or, not_exists, not_and, not_le]; exact
      ⟨fun x hx h d => first x hx ⟨h, d⟩, room⟩)] at ran
    have taken := s.router_setRouter_same rk ((s.router rk).eraseIdx pos)
    have others (j : Nat) (h : j ≠ rk) := s.router_setRouter_other rk j ((s.router rk).eraseIdx pos) h
    have rest : s.setRouter rk ((s.router rk).eraseIdx pos) =
      { s with fabric := (s.setRouter rk ((s.router rk).eraseIdx pos)).fabric } := rfl
    have rills : (s.setRouter rk ((s.router rk).eraseIdx pos)).fabric.rills = s.fabric.rills := rfl
    have retiring : (s.setRouter rk ((s.router rk).eraseIdx pos)).fabric.retiring = s.fabric.retiring := rfl
    generalize s.setRouter rk ((s.router rk).eraseIdx pos) = v at *
    have read (j : Nat) : v.reg j = s.reg j := by
      rw [rest]
      rfl
    have wrote : v.Wrote (v.bump (instKey Reg.RUNNEL_MBX rk) 0 32 1) [instKey Reg.RUNNEL_MBX rk] := .bump List.mem_cons_self _ _ _
    have counted : Counted v (v.bump (instKey Reg.RUNNEL_MBX rk) 0 32 1) (instKey Reg.RUNNEL_MBX rk) 0 32 1 :=
      .of_bump _ 0 32 1 (by decide)
    generalize v.bump (instKey Reg.RUNNEL_MBX rk) 0 32 1 = w at *
    have fabric : w.fabric = v.fabric := by rw [wrote.rest]
    have sameRill (j : Nat) : w.rill j = s.rill j := State.rill_congr (by rw [fabric, rills]) j
    have delivered : w.deliverTo k m = w.setRill k ((w.rill k).received m) :=
      State.deliverTo_received (by rw [sameRill]; exact fits) (by
        rw [sameRill]
        exact fun j pc d mem => free _ mem m.flag j pc d rfl)
    rw [delivered, sameRill] at ran
    have set := w.rill_setRill_same k ((s.rill k).received m)
    have spared (j : Nat) (h : j ≠ k) := w.rill_setRill_other k j ((s.rill k).received m) h
    have restw : w.setRill k ((s.rill k).received m) = { w with fabric := (w.setRill k ((s.rill k).received m)).fabric } := rfl
    have routersw : (w.setRill k ((s.rill k).received m)).fabric.routers = w.fabric.routers := rfl
    have retiringw : (w.setRill k ((s.rill k).received m)).fabric.retiring = w.fabric.retiring := rfl
    generalize w.setRill k ((s.rill k).received m) = x at *
    have marked := x.holdFull_marked rk m.dest
    have readx (j : Nat) : x.reg j = w.reg j := by
      rw [restw]
      rfl
    have routers (j : Nat) : x.router j = v.router j := State.router_congr (by rw [routersw, fabric]) j
    have whole : x = { s with fabric := x.fabric, regs := x.regs } := by rw [restw, wrote.rest, rest]
    have roomy (more : (s.rill k).used + 1 < (s.rill k).ring) : x.holdFull rk m.dest = x := by
      refine State.holdFull_room rk m.dest fun j at_ => ?_
      rw [State.physRill_congr (s := s) (by rw [whole]) (by rw [retiringw, fabric, retiring]) (by rw [whole]), phys] at at_
      cases at_
      rw [set]
      exact more
    refine ⟨_, ran, ?_, ?_, fun more => ?_, fun j h => ?_, ?_, ?_, ?_, fun j h => ?_, fun j h => ?_, ?_⟩
    · rw [marked.rest, whole]
    · rw [marked.bytes, routers, taken]
    · rw [roomy more, routers, taken]
    · rw [marked.others j h, routers, others j h]
    · rw [State.rill_congr marked.rills, set]
      rfl
    · rw [State.rill_congr marked.rills, set]
      exact Rill.setFlag_flag_same _ _ _
    · rw [State.rill_congr marked.rills, set]
      exact getBytes_putBytes _ _ _
    · rw [State.rill_congr marked.rills, spared j h, sameRill]
    · rw [marked.only j h, readx, wrote.only j h, read]
    · refine .after _ _ _ _ ?_ (.before _ _ _ _ counted ?_)
      · unfold State.regF
        rw [read]
      · rw [marked.count]
        unfold State.regF
        rw [readx]
  · obtain full | ⟨x, hx, same⟩ := held
    · exact .inr full
    · exact .inl (List.any_eq_true.mpr ⟨x, hx, by simpa using same⟩)

end Sys2Proof.Machine

section Settled
open Sys2Proof Sys2Proof.Machine

/-- Settles O40: a send is buffered, held or a fault by the checks in their order, and a delivery fills one slot. -/
theorem messagesPass : Obligations.MessagesPass :=
  ⟨mailboxSend_buffers, mailboxSend_faults, mailboxSend_pump, messageDelivery_delivers⟩

end Settled
end

section
/-! SUPPORT. Spout commands in order and out of order (R316 to R329, Table 12-3), for O42 and O44. -/

set_option Elab.async false

namespace Sys2Proof.Machine
variable {s t u : State}

/-! ### The command bus -/

/-- A Spout changes and the controller has issued the command. -/
theorem State.setSpout_issue (s : State) (n : SpoutName) (v : Spout) (op opnd : Nat) (ks : List Nat) :
    SpoutIssued s ((s.setSpout (keyOfSpout n) v).issue n op opnd) n op opnd ks ∧
    ((s.setSpout (keyOfSpout n) v).issue n op opnd).spout (keyOfSpout n) = v :=
  ⟨⟨rfl, fun _ _ => rfl, rfl, rfl, fun j d => s.spout_setSpout_other _ j v d⟩, s.spout_setSpout_same _ v⟩

/-- A command to a Spout that is not disabled: it goes out, and has its effect in order, or sets ERR_SEQ. -/
theorem State.spoutCmd_issued (n : SpoutName) (on : s.spoutOff (keyOfSpout n) = false) (op opnd : Nat) (inOrder : Spout → Bool)
    (eff : Spout → Spout) (ks : List Nat) :
    SpoutIssued s (s.spoutCmd n op opnd inOrder eff) n op opnd ks ∧ (s.spoutCmd n op opnd inOrder eff).spout (keyOfSpout n) =
      if inOrder (s.spout (keyOfSpout n)) then eff (s.spout (keyOfSpout n)) else (s.spout (keyOfSpout n)).fail errSeq := by
  unfold State.spoutCmd
  extract_lets k sp
  rw [if_neg (by simp [k, on])]
  exact s.setSpout_issue n _ op opnd ks

/-- In its order the command has its effect. -/
theorem State.spoutCmd_inOrder (n : SpoutName) (on : s.spoutOff (keyOfSpout n) = false) (op opnd : Nat) {inOrder : Spout → Bool}
    (eff : Spout → Spout) (ks : List Nat) (order : inOrder (s.spout (keyOfSpout n)) = true) :
    SpoutIssued s (s.spoutCmd n op opnd inOrder eff) n op opnd ks ∧
      (s.spoutCmd n op opnd inOrder eff).spout (keyOfSpout n) = eff (s.spout (keyOfSpout n)) := by
  obtain ⟨issued, effect⟩ := State.spoutCmd_issued n on op opnd inOrder eff ks
  exact ⟨issued, effect.trans (if_pos order)⟩

theorem State.spoutCmd_off (n : SpoutName) (off : s.spoutOff (keyOfSpout n) = true) (op opnd : Nat) (inOrder : Spout → Bool)
    (eff : Spout → Spout) : s.spoutCmd n op opnd inOrder eff = s := if_pos off

/-! ### Commands in their order -/

variable {n : SpoutName}

theorem spact_opens (on : s.spoutOff (keyOfSpout n) = false) (row : U16) (seq : (s.spout (keyOfSpout n)).seq = true)
    (closed : (s.spout (keyOfSpout n)).row = none) : Completes (.spact n row) s (fun t =>
      SpoutIssued s t n 1 row.toNat [] ∧
      t.spout (keyOfSpout n) = { s.spout (keyOfSpout n) with row := some row.toNat }) :=
  ⟨_, rfl, State.spoutCmd_inOrder n on 1 row.toNat _ [] (by simp [seq, closed])⟩

/-- Of a node the refreshes of one stack may differ, which are issued where every bank of the pseudo-channel is closed. -/
theorem State.issueRefresh_closes (s : State) (n : SpoutName) :
    s.issueRefresh (keyOfSpout n) = { s with hbm := { s.hbm with dram := (s.issueRefresh (keyOfSpout n)).hbm.dram } } ∧
    (s.pcClosed (keyOfSpout n) = true →
      Store.get (fun _ => 0) ((s.issueRefresh (keyOfSpout n)).stack (keyOfSpout n % 4 + 4)).refresh n.pc = 0) ∧
    (s.pcClosed (keyOfSpout n) = false → s.issueRefresh (keyOfSpout n) = s) ∧
    ∀ j, j ≠ keyOfSpout n % 4 + 4 → (s.issueRefresh (keyOfSpout n)).stack j = s.stack j := by
  have channel : keyOfSpout n / 4 % 16 = n.pc := by
    unfold keyOfSpout
    omega
  unfold State.issueRefresh
  extract_lets st
  split
  next closed =>
    refine ⟨rfl, fun _ => ?_, fun h => by simp [closed] at h, fun j d => State.stack_setStack_other _ _ _ _ d⟩
    have set : (s.setStack (keyOfSpout n % 4 + 4)
        { st with refresh := Store.put (fun _ => 0) st.refresh (keyOfSpout n / 4 % 16) 0 }).stack (keyOfSpout n % 4 + 4) =
        { st with refresh := Store.put (fun _ => 0) st.refresh (keyOfSpout n / 4 % 16) 0 } := Store.get_put_same _ _ _ _
    rw [set, channel]
    exact Store.get_put_same (fun _ => 0) st.refresh n.pc.val 0
  next opened => exact ⟨rfl, fun h => absurd h opened, fun _ => rfl, fun _ _ => rfl⟩

theorem sppre_closes (on : s.spoutOff (keyOfSpout n) = false) (opened : (s.spout (keyOfSpout n)).row ≠ none) :
    Completes (.sppre n) s (fun t => t = { s with hbm := t.hbm, out := t.out } ∧
      t.out = s.out ++ [.spoutWord n (BitVec.ofNat 32 (spWord 3 n.bank 0))] ∧
      t.spout (keyOfSpout n) = { s.spout (keyOfSpout n) with row := none } ∧
      (∀ j, j ≠ keyOfSpout n → t.spout j = s.spout j) ∧
      (t.pcClosed (keyOfSpout n) = true → Store.get (fun _ => 0) (t.stack (keyOfSpout n % 4 + 4)).refresh n.pc = 0) ∧
      (t.pcClosed (keyOfSpout n) = false → t.hbm.dram = s.hbm.dram) ∧
      (∀ j, j ≠ keyOfSpout n % 4 + 4 → t.stack j = s.stack j)) := by
  obtain ⟨⟨rest, -, out, hbm, others⟩, effect⟩ := State.spoutCmd_inOrder (s := s) n on 3 0
    (inOrder := fun sp => sp.row.isSome) (fun sp => { sp with row := none }) [] (Option.isSome_iff_ne_none.mpr opened)
  have regs : (s.spoutCmd n 3 0 (fun sp => sp.row.isSome) (fun sp => { sp with row := none })).regs = s.regs := by
    rw [State.spoutCmd, if_neg (by simp [on])]
    rfl
  refine ⟨_, rfl, ?_⟩
  generalize s.spoutCmd n 3 0 (fun sp => sp.row.isSome) (fun sp => { sp with row := none }) = v at *
  obtain ⟨only, closes, stays, rows⟩ := v.issueRefresh_closes n
  have spouts (j : Nat) : (v.issueRefresh (keyOfSpout n)).spout j = v.spout j := by
    rw [only]
    rfl
  have closed : (v.issueRefresh (keyOfSpout n)).pcClosed (keyOfSpout n) = v.pcClosed (keyOfSpout n) := by
    unfold State.pcClosed
    simp only [spouts]
  have dram : v.hbm.dram = s.hbm.dram := by rw [hbm]
  refine ⟨?_, ?_, (spouts _).trans effect, fun j d => (spouts j).trans (others j d), fun c => closes (closed ▸ c),
    fun c => ?_, fun j d => (rows j d).trans ?_⟩
  · rw [only, rest, regs]
  · rw [only]
    exact out
  · rw [stays (closed ▸ c)]
    exact dram
  · unfold State.stack
    rw [dram]

theorem spload_loads (on : s.spoutOff (keyOfSpout n) = false) (ctx : Fin 8) (rec : List Byte) (q : Option (Nat × Nat))
    (idle : (s.spout (keyOfSpout n)).seq = false) : Completes (.spload n ctx rec q) s (fun t => SpoutIssued s t n 4 ctx [] ∧
        Store.find? (t.spout (keyOfSpout n)).ctxs ctx = some ⟨padTo 0 96 rec, q⟩ ∧
        t.spout (keyOfSpout n) = { s.spout (keyOfSpout n) with ctxs := (t.spout (keyOfSpout n)).ctxs } ∧
        (∀ j, j ≠ ctx.val →
          Store.find? (t.spout (keyOfSpout n)).ctxs j = Store.find? (s.spout (keyOfSpout n)).ctxs j)) := by
  obtain ⟨issued, effect⟩ := State.spoutCmd_inOrder (s := s) n on 4 ctx (inOrder := fun sp => !sp.seq)
    (fun sp => { sp with ctxs := Store.insert sp.ctxs ctx ⟨padTo 0 96 rec, q⟩ }) [] (by simp [idle])
  refine ⟨_, rfl, issued, ?_⟩
  rw [effect]
  exact ⟨Store.find?_insert_same _ _ _, rfl, fun j d => Store.find?_insert_other _ _ _ _ d⟩

theorem spwl_replaces (on : s.spoutOff (keyOfSpout n) = false) (ctx : Fin 8) (burst : List Byte) (c : SpCtx)
    (active : Store.find? (s.spout (keyOfSpout n)).ctxs ctx = some c) :
    Completes (.spwl n ctx burst) s (fun t => SpoutIssued s t n 5 ctx [] ∧
        Store.find? (t.spout (keyOfSpout n)).ctxs ctx =
          some { c with bytes := c.bytes.take 64 ++ padTo 0 16 burst ++ c.bytes.drop 80 } ∧
        t.spout (keyOfSpout n) = { s.spout (keyOfSpout n) with ctxs := (t.spout (keyOfSpout n)).ctxs } ∧
        (∀ j, j ≠ ctx.val →
          Store.find? (t.spout (keyOfSpout n)).ctxs j = Store.find? (s.spout (keyOfSpout n)).ctxs j)) := by
  obtain ⟨issued, effect⟩ := State.spoutCmd_inOrder (s := s) n on 5 ctx (inOrder := fun _ => true)
    (fun sp => { sp with ctxs := Store.adjust sp.ctxs ctx (fun c =>
        { c with bytes := c.bytes.take 64 ++ padTo 0 16 burst ++ c.bytes.drop 80 }) }) [] rfl
  refine ⟨_, rfl, issued, ?_⟩
  rw [effect]
  exact ⟨by rw [Store.find?_adjust_same, active]; rfl, rfl, fun j d => Store.find?_adjust_other _ _ _ _ d⟩

theorem spblk_names (on : s.spoutOff (keyOfSpout n) = false) (start : Fin 1024) (active : (s.spout (keyOfSpout n)).ctxs ≠ [])
    (free : (s.spout (keyOfSpout n)).next = none) : Completes (.spblk n start) s (fun t =>
      SpoutIssued s t n 6 start [] ∧
      ((s.spout (keyOfSpout n)).cur = none →
        t.spout (keyOfSpout n) = { s.spout (keyOfSpout n) with seq := true, cur := some ⟨64 * start, []⟩ }) ∧
      ((s.spout (keyOfSpout n)).cur ≠ none →
        t.spout (keyOfSpout n) = { s.spout (keyOfSpout n) with seq := true, next := some (64 * start.val) })) := by
  obtain ⟨issued, effect⟩ := State.spoutCmd_inOrder (s := s) n on 6 start
    (inOrder := fun sp => !sp.ctxs.isEmpty && sp.next.isNone) (fun sp =>
      match sp.cur with
      | none => { sp with seq := true, cur := some ⟨64 * start, []⟩ }
      | some _ => { sp with seq := true, next := some (64 * start) }) [] (by simp [active, free])
  refine ⟨_, rfl, issued, fun none => effect.trans ?_, fun some_ => effect.trans ?_⟩
  · rw [none]
  · split
    next none => exact absurd none some_
    next => rfl

theorem spclr_clears (on : s.spoutOff (keyOfSpout n) = false) (idle : (s.spout (keyOfSpout n)).seq = false) :
    Completes (.spclr n) s (fun t => SpoutIssued s t n 10 0 [] ∧ (t.spout (keyOfSpout n)).ctxs = [] ∧
      (t.spout (keyOfSpout n)).fifo = [] ∧ (t.spout (keyOfSpout n)).blocks = 0 ∧ (t.spout (keyOfSpout n)).skipped = 0 ∧
      (t.spout (keyOfSpout n)).err = 0) := by
  obtain ⟨issued, effect⟩ := State.spoutCmd_inOrder (s := s) n on 10 0 (inOrder := fun sp => !sp.seq)
    (fun sp => { sp with ctxs := [], fifo := [], cur := none, next := none, err := 0, blocks := 0, skipped := 0, owed := 0 })
    [] (by simp [idle])
  refine ⟨_, rfl, issued, ?_⟩
  rw [effect]
  exact ⟨rfl, rfl, rfl, rfl, rfl⟩

theorem spend_ends (on : s.spoutOff (keyOfSpout n) = false) (seq : (s.spout (keyOfSpout n)).seq = true)
    (closed : (s.spout (keyOfSpout n)).row = none) : Completes (.spend n) s (fun t => SpoutIssued s t n 11 0 [] ∧
      t.spout (keyOfSpout n) = { s.spout (keyOfSpout n) with seq := false, cur := none, next := none }) :=
  ⟨_, rfl, State.spoutCmd_inOrder n on 11 0 _ [] (by simp [seq, closed])⟩

/-! ### Commands out of their order -/

/-- What O44 says of a command. -/
def OutOfOrder (i : Instr) (s : State) (n : SpoutName) (op opnd : Nat) : Prop :=
  Completes i s (fun t => (s.spoutOff (keyOfSpout n) = true → t = s) ∧
    (s.spoutOff (keyOfSpout n) = false → SpoutIssued s t n op opnd [Reg.SPOUT_CNT_SEGMENTS] ∧
      t.spout (keyOfSpout n) = { s.spout (keyOfSpout n) with err := (s.spout (keyOfSpout n)).err ||| errSeq } ∧
      Counted s t Reg.SPOUT_CNT_SEGMENTS 0 64 (if op = 2 then 1 else 0)))

theorem Counted.zero (s : State) (k l n : Nat) : Counted s s k l n 0 := by
  have small : s.regF k l n < 2 ^ n := field_lt _ _ _
  unfold Counted
  rw [Nat.add_zero, Nat.mod_eq_of_lt small]

/-- A command out of its order that is no segment. -/
theorem OutOfOrder.of_spoutCmd {i : Instr} {op opnd : Nat} {inOrder : Spout → Bool} {eff : Spout → Spout}
    (ran : exec i s = .next (s.spoutCmd n op opnd inOrder eff)) (order : inOrder (s.spout (keyOfSpout n)) = false)
    (other : op ≠ 2) : OutOfOrder i s n op opnd := by
  refine ⟨_, ran, fun off => State.spoutCmd_off n off _ _ _ _, fun on => ?_⟩
  obtain ⟨issued, effect⟩ := State.spoutCmd_issued n on op opnd inOrder eff [Reg.SPOUT_CNT_SEGMENTS]
  refine ⟨issued, effect.trans (if_neg (by simp [order])), ?_⟩
  rw [if_neg other]
  refine .before _ _ _ _ (Counted.zero s _ _ _) ?_
  rw [State.spoutCmd, if_neg (by simp [on])]
  rfl

/-- A segment while no row is open. -/
theorem OutOfOrder.segment (g : Fin 4) (d : List Byte) (x p : Bool) (closed : (s.spout (keyOfSpout n)).row = none) :
    OutOfOrder (.spseg n g d x p) s n 2 g := by
  have ran : exec (.spseg n g d x p) s = .next (if s.spoutOff (keyOfSpout n) then s
      else (s.spoutCmd n 2 g (fun _ => false) id).bump Reg.SPOUT_CNT_SEGMENTS 0 64 1) := by
    show execSpseg n g d x p s = _
    unfold execSpseg
    extract_lets k st count sp
    have closed : sp.row = none := closed
    rw [closed]
    split <;> rfl
  refine ⟨_, ran, fun off => if_pos off, fun on => ?_⟩
  rw [if_neg (by simp [on])]
  obtain ⟨⟨rest, only, out, hbm, others⟩, effect⟩ :=
    State.spoutCmd_issued (s := s) n on 2 g (fun _ => false) id [Reg.SPOUT_CNT_SEGMENTS]
  have regs : (s.spoutCmd n 2 g (fun _ => false) id).regs = s.regs := by
    rw [State.spoutCmd, if_neg (by simp [on])]
    rfl
  generalize s.spoutCmd n 2 g (fun _ => false) id = v at *
  refine ⟨⟨?_, only.trans (.bump _ _ _ _ List.mem_cons_self), out, hbm, others⟩, effect, ?_⟩
  · rw [rest]
    rfl
  · refine .after _ _ _ _ ?_ (.of_bump Reg.SPOUT_CNT_SEGMENTS 0 64 1 (by decide))
    exact State.regF_congr regs _ _ _

end Sys2Proof.Machine

section Settled
open Sys2Proof Sys2Proof.Machine

/-- Settles O42: each command in its order is its effect on its Spout. -/
theorem spoutsObey : Obligations.SpoutsObey := by
  intro n s on k key
  subst key
  exact ⟨spact_opens on, sppre_closes on, spload_loads on, spwl_replaces on, spblk_names on, spclr_clears on, spend_ends on⟩

/-- Settles O44: out of its order every command is one and the same step of its Spout. -/
theorem spoutOrderKept : Obligations.SpoutOrderKept := by
  intro n s i op opnd k key cases
  subst key
  obtain ⟨row, rfl, rfl, rfl, out⟩ | ⟨c, r, q, rfl, rfl, rfl, seq⟩ | ⟨b, rfl, rfl, rfl, out⟩ |
    ⟨x, d, rfl, rfl, rfl, idle, ecc, sealed⟩ | ⟨rfl, rfl, rfl, seq⟩ | ⟨rfl, rfl, rfl, out⟩ | ⟨c, b, rfl, rfl, rfl, opened, ecc⟩ |
    ⟨g, d, x, p, rfl, rfl, rfl, closed⟩ := cases
  · exact OutOfOrder.of_spoutCmd rfl (by obtain h | h := out <;> simp [h, Option.isSome_iff_ne_none]) (by decide)
  · exact OutOfOrder.of_spoutCmd rfl (by simp [seq]) (by decide)
  · refine OutOfOrder.of_spoutCmd rfl ?_ (by decide)
    obtain none | full := out
    · simp [none]
    · simp [Option.isNone_eq_false_iff.mpr (Option.isSome_iff_ne_none.mpr full)]
  · by_cases off : s.spoutOff (keyOfSpout n) = true
    · exact ⟨s, if_pos (.inl off), fun _ => rfl, fun on => by simp [off] at on⟩
    · refine OutOfOrder.of_spoutCmd (inOrder := fun _ => false) (eff := id) ?_ rfl (by decide)
      exact (if_neg (by simp [off, ecc, sealed])).trans (if_pos (by simp [idle]))
  · exact OutOfOrder.of_spoutCmd rfl (by simp [seq]) (by decide)
  · exact OutOfOrder.of_spoutCmd rfl (by obtain h | h := out <;> simp [h, Option.isSome_iff_ne_none]) (by decide)
  · refine OutOfOrder.of_spoutCmd (inOrder := fun _ => false) (eff := id) ?_ rfl (by decide)
    exact (if_neg (by simp [ecc])).trans (if_pos (Option.isSome_iff_ne_none.mpr opened))
  · exact OutOfOrder.segment g d x p closed

end Settled
end

section
/-! SUPPORT. Spouts that read, drain and report (R323 to R335, R344), and refresh and scrub (R332 to R337), for O43 and O45. -/

set_option Elab.async false

namespace Sys2Proof.Machine
variable {s t u : State} {n : SpoutName}

/-! ### Reads -/

/-- A command that has been issued, and registers written after it. -/
theorem SpoutIssued.wrote {op opnd : Nat} {ks : List Nat} (a : SpoutIssued s t n op opnd ks) (b : t.Wrote u ks) :
    SpoutIssued s u n op opnd ks ∧ ∀ j, u.spout j = t.spout j := by
  obtain ⟨rest, only, out, hbm, others⟩ := a
  have spouts (j : Nat) : u.spout j = t.spout j := by
    rw [b.rest]
    rfl
  refine ⟨⟨?_, only.trans b.only, ?_, ?_, fun j d => (spouts j).trans (others j d)⟩, spouts⟩
  · rw [b.rest, rest]
  · rw [b.rest]
    exact out
  · rw [b.rest]
    exact hbm

/-- Bytes have reached a Spout, which becomes `sp`. -/
structure State.SpoutHasRead (s t : State) (n : SpoutName) (op opnd : Nat) (ks : List Nat) (sp : Spout) : Prop where
  issued : SpoutIssued s t n op opnd ks
  spout : t.spout (keyOfSpout n) = { sp with done := sp.done || decide (sp.blocks ≠ (s.spout (keyOfSpout n)).blocks) }
  quiet : sp.judged = (s.spout (keyOfSpout n)).judged → OnlyRegs s t []
  skipped : sp.judged ≠ (s.spout (keyOfSpout n)).judged →
    Counted s t Reg.SRCH_CNT_SKIPPED 0 64 (sp.skipped - (s.spout (keyOfSpout n)).skipped).toNat
  scanned : sp.judged ≠ (s.spout (keyOfSpout n)).judged → Counted s t Reg.SRCH_CNT_SCANNED 0 64
    ((s.spout (keyOfSpout n)).ctxs.length - (sp.skipped - (s.spout (keyOfSpout n)).skipped).toNat)
  pairs : OnlyRegs s t [Reg.SRCH_CNT_SCANNED, Reg.SRCH_CNT_SKIPPED]

theorem State.spoutRead_reads (s : State) (n : SpoutName) (op opnd : Nat) (ks : List Nat) (sp : Spout)
    (named : ∀ k ∈ [Reg.SRCH_CNT_SCANNED, Reg.SRCH_CNT_SKIPPED], k ∈ ks) :
    s.SpoutHasRead (s.spoutRead n op opnd sp) n op opnd ks sp := by
  unfold State.spoutRead
  extract_lets k old whole skip s1
  obtain ⟨issued, set⟩ : SpoutIssued s s1 n op opnd ks ∧ s1.spout k = { sp with done := sp.done || whole } :=
    s.setSpout_issue n _ op opnd ks
  have regs : s1.regs = s.regs := rfl
  clear_value s1
  have same : OnlyRegs s s1 [] := .of_regs regs
  split
  next judged => exact ⟨issued, set, fun _ => same, fun h => absurd judged h, fun h => absurd judged h, same.mono (by simp)⟩
  next judged =>
    have scans : s1.Wrote (s1.bump Reg.SRCH_CNT_SCANNED 0 64 (old.ctxs.length - skip)) [Reg.SRCH_CNT_SCANNED] :=
      .bump List.mem_cons_self _ _ _
    have scanned : Counted s1 (s1.bump Reg.SRCH_CNT_SCANNED 0 64 (old.ctxs.length - skip)) Reg.SRCH_CNT_SCANNED 0 64
      (old.ctxs.length - skip) := .of_bump Reg.SRCH_CNT_SCANNED 0 64 _ (by decide)
    generalize s1.bump Reg.SRCH_CNT_SCANNED 0 64 (old.ctxs.length - skip) = v at *
    have skips : v.Wrote (v.bump Reg.SRCH_CNT_SKIPPED 0 64 skip) [Reg.SRCH_CNT_SKIPPED] := .bump List.mem_cons_self _ _ _
    have skipped : Counted v (v.bump Reg.SRCH_CNT_SKIPPED 0 64 skip) Reg.SRCH_CNT_SKIPPED 0 64 skip :=
      .of_bump Reg.SRCH_CNT_SKIPPED 0 64 _ (by decide)
    generalize v.bump Reg.SRCH_CNT_SKIPPED 0 64 skip = w at *
    have both : s1.Wrote w [Reg.SRCH_CNT_SCANNED, Reg.SRCH_CNT_SKIPPED] := (scans.mono (by simp)).trans (skips.mono (by simp))
    obtain ⟨issuedw, spouts⟩ := issued.wrote (both.mono named)
    refine ⟨issuedw, (spouts _).trans set, fun h => absurd h judged, fun _ => ?_, fun _ => ?_, ?_⟩
    · refine .after _ _ _ _ ((scans.only.regF _ _ _ (by decide)).trans (same.regF _ _ _ List.not_mem_nil)) skipped
    · exact .before _ _ _ _ (.after _ _ _ _ (same.regF _ _ _ List.not_mem_nil) scanned) (skips.only.regF _ _ _ (by decide))
    · exact (same.mono (by simp)).trans both.only

theorem spseg_reads (n : SpoutName) (seg : Fin 4) (data : List Byte) (row k : Nat) (sp : Spout) (s : State)
    (key : k = keyOfSpout n) (on : s.spoutOff k = false) (opened : (s.spout k).row = some row)
    (ecc : (s.stack (k % 4 + 4)).ctrlEcc = false) (clean : (s.stack (k % 4 + 4)).runSealed (rowRun n.pc n.bank row) = false)
    (is : sp = (s.spout k).segment ((row % 64) * 1024 + seg * 256) (padTo 0 256 data) 4)
    (may : mayIssue (s.spout k) sp = true) :
    Completes (.spseg n seg data false false) s (fun t =>
      SpoutIssued s t n 2 seg [Reg.SPOUT_CNT_SEGMENTS, Reg.SRCH_CNT_SCANNED, Reg.SRCH_CNT_SKIPPED] ∧
      t.spout k = { sp with done := sp.done || decide (sp.blocks ≠ (s.spout k).blocks) } ∧
      Counted s t Reg.SPOUT_CNT_SEGMENTS 0 64 1 ∧
      (sp.judged = (s.spout k).judged → OnlyRegs s t [Reg.SPOUT_CNT_SEGMENTS]) ∧
      (sp.judged ≠ (s.spout k).judged →
        Counted s t Reg.SRCH_CNT_SKIPPED 0 64 (sp.skipped - (s.spout k).skipped).toNat ∧
        Counted s t Reg.SRCH_CNT_SCANNED 0 64 ((s.spout k).ctxs.length - (sp.skipped - (s.spout k).skipped).toNat))) := by
  subst key
  have ran : exec (.spseg n seg data false false) s =
      .next ((s.spoutRead n 2 seg sp).bump Reg.SPOUT_CNT_SEGMENTS 0 64 1) := by
    show execSpseg n seg data false false s = _
    unfold execSpseg
    extract_lets k st count old
    rw [if_neg (by simp [k, on])]
    have opened : old.row = some row := opened
    rw [opened]
    dsimp only
    have is : old.segment ((row % 64) * 1024 + seg * 256) (padTo 0 256 data) 4 = sp := is.symm
    rw [is, if_neg (by simp [st, k, ecc, clean, old, may])]
    rfl
  refine ⟨_, ran, ?_⟩
  have read := s.spoutRead_reads n 2 seg [Reg.SPOUT_CNT_SEGMENTS, Reg.SRCH_CNT_SCANNED, Reg.SRCH_CNT_SKIPPED] sp (by simp)
  generalize s.spoutRead n 2 seg sp = v at *
  have bumps : v.Wrote (v.bump Reg.SPOUT_CNT_SEGMENTS 0 64 1) [Reg.SPOUT_CNT_SEGMENTS] := .bump List.mem_cons_self _ _ _
  have counted : Counted v (v.bump Reg.SPOUT_CNT_SEGMENTS 0 64 1) Reg.SPOUT_CNT_SEGMENTS 0 64 1 :=
    .of_bump Reg.SPOUT_CNT_SEGMENTS 0 64 1 (by decide)
  generalize v.bump Reg.SPOUT_CNT_SEGMENTS 0 64 1 = w at *
  obtain ⟨issued, spouts⟩ := read.issued.wrote (bumps.mono (by simp))
  refine ⟨issued, (spouts _).trans read.spout, ?_, fun h => ?_, fun h => ⟨?_, ?_⟩⟩
  · exact .after _ _ _ _ (read.pairs.regF _ _ _ (by decide)) counted
  · exact ((read.quiet h).mono (by simp)).trans bumps.only
  · exact .before _ _ _ _ (read.skipped h) (bumps.only.regF _ _ _ (by decide))
  · exact .before _ _ _ _ (read.scanned h) (bumps.only.regF _ _ _ (by decide))

theorem spfeed_reads (n : SpoutName) (run : Fin 262144) (data : List Byte) (k : Nat) (sp : Spout) (s : State)
    (key : k = keyOfSpout n) (on : s.spoutOff k = false) (seq : (s.spout k).seq = true)
    (ecc : (s.stack (k % 4 + 4)).ctrlEcc = false) (clean : (s.stack (k % 4 + 4)).runSealed run = false)
    (is : sp = (s.spout k).take (padTo 0 32 data)) (may : mayIssue (s.spout k) sp = true) :
    Completes (.spfeed n ⟨run, data⟩) s (fun t => SpoutIssued s t n 7 0 [Reg.SRCH_CNT_SCANNED, Reg.SRCH_CNT_SKIPPED] ∧
      t.spout k = { sp with done := sp.done || decide (sp.blocks ≠ (s.spout k).blocks) } ∧
      (sp.judged = (s.spout k).judged → OnlyRegs s t []) ∧
      (sp.judged ≠ (s.spout k).judged →
        Counted s t Reg.SRCH_CNT_SKIPPED 0 64 (sp.skipped - (s.spout k).skipped).toNat ∧
        Counted s t Reg.SRCH_CNT_SCANNED 0 64 ((s.spout k).ctxs.length - (sp.skipped - (s.spout k).skipped).toNat))) := by
  subst key is
  have ran : exec (.spfeed n ⟨run, data⟩) s = .next (s.spoutRead n 7 0 ((s.spout (keyOfSpout n)).take (padTo 0 32 data))) := by
    show execSpfeed n ⟨run, data⟩ s = _
    unfold execSpfeed
    exact (if_neg (by simp [on, ecc, clean])).trans ((if_neg (by simp [seq])).trans (if_neg (by simpa using may)))
  have read := s.spoutRead_reads n 7 0 [Reg.SRCH_CNT_SCANNED, Reg.SRCH_CNT_SKIPPED]
    ((s.spout (keyOfSpout n)).take (padTo 0 32 data)) (by simp)
  exact ⟨_, ran, read.issued, read.spout, read.quiet, fun h => ⟨read.skipped h, read.scanned h⟩⟩

/-! ### Pass records -/

@[simp] theorem SpRec.bytes_length (r : SpRec) : r.bytes.length = 16 := by
  simp [SpRec.bytes]

/-- A record carries its CHECK. -/
theorem SpRec.good (r : SpRec) : recGood r.bytes = true := by
  unfold recGood SpRec.bytes
  extract_lets b
  have length : b.length = 15 := by simp [b]
  rw [List.take_append_of_le_length (by omega), List.take_of_length_le (by omega), List.getD_append_right _ _ _ _ (by omega), length]
  simp

/-- A record is marked as valid. -/
theorem SpRec.valid (r : SpRec) : byteAt r.bytes 9 = 1 := by
  simp [SpRec.bytes, leBytes, byteAt]

/-- The record of a missing pair is good and not valid. -/
theorem recGood_zero : recGood (List.replicate 16 0) = true := by decide +kernel

theorem padTo_append {α : Type} (d : α) (a b : List α) (n : Nat) (h : a.length ≤ n) :
    padTo d n (a ++ b) = a ++ padTo d (n - a.length) b := by
  unfold padTo
  rw [List.append_assoc, List.take_append, List.take_of_length_le h, List.length_append, Nat.sub_add_eq]

theorem chunksAux_append {α : Type} (a b : List α) (f : Nat) (h : a ≠ []) :
    chunksAux a.length (f + 1) (a ++ b) = a :: chunksAux a.length f b := by
  cases a with
  | nil => exact absurd rfl h
  | cons x a =>
    rw [List.cons_append, chunksAux, ← List.cons_append, List.take_left, List.drop_left]
    simp

/-- Two records of 16 bytes in one burst. -/
theorem chunks_pair (a b : List Byte) (ha : a.length = 16) (hb : b.length = 16) : chunks 16 (a ++ b) = [a, b] := by
  have length : (a ++ b).length = 32 := by rw [List.length_append, ha, hb]
  have na : a ≠ [] := by
    rintro rfl
    cases ha
  have nb : b ≠ [] := by
    rintro rfl
    cases hb
  unfold chunks
  have first := chunksAux_append a b 31 na
  have second := chunksAux_append b [] 30 nb
  rw [ha] at first
  rw [hb, List.append_nil] at second
  rw [length, first, second]
  rfl

theorem padTo_nil {α : Type} (d : α) (n : Nat) : padTo d n [] = List.replicate n d := by simp [padTo]

/-- The burst that carries at most two records. -/
def drainBurst (two : List SpRec) : List Byte := padTo 0 32 (two.flatMap SpRec.bytes)

/-- The records of the burst, missing ones as padTo_nil. -/
theorem drainBurst_chunks (two : List SpRec) (h : two.length ≤ 2) :
    chunks 16 (drainBurst two) = two.map SpRec.bytes ++ List.replicate (2 - two.length) (List.replicate 16 0) := by
  unfold drainBurst
  match two, h with
  | [], _ =>
    rw [List.flatMap_nil, padTo_nil, show List.replicate 32 (0 : Byte) = List.replicate 16 0 ++ List.replicate 16 0 from rfl,
      chunks_pair _ _ rfl rfl]
    rfl
  | [a], _ =>
    rw [List.flatMap_cons, List.flatMap_nil, padTo_append _ _ _ _ (by simp), a.bytes_length, padTo_nil, chunks_pair _ _ (by simp) rfl]
    rfl
  | [a, b], _ =>
    rw [List.flatMap_cons, List.flatMap_cons, List.flatMap_nil, padTo_append _ _ _ _ (by simp), a.bytes_length,
      padTo_append _ _ _ _ (by simp), b.bytes_length, padTo_nil, List.replicate_zero, List.append_nil, chunks_pair _ _ (by simp) (by simp)]
    rfl

/-- A quiet bus leaves a burst as it is. -/
theorem zipWith_quiet (l : List Byte) (h : l.length = 32) : List.zipWith (fun a b => a ^^^ b) l (padTo 0 32 []) = l := by
  rw [padTo_nil]
  refine List.ext_getElem (by simp [h]) fun i hi hl => ?_
  rw [List.getElem_zipWith, List.getElem_replicate]
  exact BitVec.xor_zero

theorem drained_valid (two : List SpRec) (h : two.length ≤ 2) :
    (chunks 16 (drainBurst two)).filter (fun c => recGood c && byteAt c 9 % 2 == 1) = two.map SpRec.bytes := by
  rw [drainBurst_chunks two h, List.filter_append, List.filter_map, List.filter_eq_self.mpr, List.filter_eq_nil_iff.mpr,
    List.append_nil]
  · intro c hc
    rw [(List.mem_replicate.mp hc).2, recGood_zero]
    simp [byteAt]
  · intro r _
    simp [r.good, r.valid]

theorem drained_good (two : List SpRec) (h : two.length ≤ 2) : (chunks 16 (drainBurst two)).all recGood = true := by
  rw [drainBurst_chunks two h, List.all_append, List.all_map, List.all_replicate, recGood_zero]
  simp [SpRec.good]

/-! ### Records reach their Rills -/

/-- Of the fabric the Rills may differ, and nothing else. -/
def State.RillsOnly (s t : State) : Prop := t = { s with fabric := { s.fabric with rills := t.fabric.rills } }

theorem State.RillsOnly.trans (a : s.RillsOnly t) (b : t.RillsOnly u) : s.RillsOnly u := by
  unfold State.RillsOnly at *
  rw [b, a]

theorem State.forward_rillsOnly (s : State) (b : Nat) (q : Nat × Nat) (rec : List Byte) : s.RillsOnly (s.forward b q rec) := by
  unfold State.forward
  split
  · split
    · rfl
    · rfl
  · rfl

/-- A valid record that has come over the bus goes to the Rill of its context's query. -/
def State.forwardRec (sp : Spout) (b : Nat) (t : State) (c : List Byte) : State :=
  match (Store.find? sp.ctxs (byteAt c 8 % 8)).bind (·.query) with
  | some q => t.forward b q c
  | none => t

theorem State.forwardRec_rillsOnly (sp : Spout) (b : Nat) (t : State) (c : List Byte) : t.RillsOnly (t.forwardRec sp b c) := by
  unfold State.forwardRec
  split
  · exact t.forward_rillsOnly _ _ _
  · rfl

/-- The node once SPDRAIN has been issued and its burst has gone out. -/
def State.drained (s : State) (n : SpoutName) : State :=
  (((s.setSpout (keyOfSpout n) { s.spout (keyOfSpout n) with
    fifo := (s.spout (keyOfSpout n)).fifo.drop 2, owed := (s.spout (keyOfSpout n)).owed - 1 }).issue n 8 0).emit
      (.spout (drainBurst ((s.spout (keyOfSpout n)).fifo.take 2)))).bump Reg.SPOUT_CNT_PASSED 0 64
        ((s.spout (keyOfSpout n)).fifo.take 2).length

theorem exec_spdrain (on : s.spoutOff (keyOfSpout n) = false)
    (quiet : bit (s.reg (instKey Reg.SPOUT_INJECT (keyOfSpout n))) 0 = false) :
    exec (.spdrain n ⟨false, []⟩) s =
      .next ((((s.spout (keyOfSpout n)).fifo.take 2).map SpRec.bytes).foldl
        (fun t c => State.forwardRec (s.spout (keyOfSpout n)) n.basin t c) (s.drained n)) := by
  have few : ((s.spout (keyOfSpout n)).fifo.take 2).length ≤ 2 := by simp
  have burst : List.zipWith (fun a b => a ^^^ b) (padTo 0 32 (((s.spout (keyOfSpout n)).fifo.take 2).flatMap SpRec.bytes))
      (padTo 0 32 []) = drainBurst ((s.spout (keyOfSpout n)).fifo.take 2) := zipWith_quiet _ (padTo_length _ _ _)
  show execSpdrain n ⟨false, []⟩ s = _
  unfold execSpdrain
  refine (if_neg (by simp [on])).trans ?_
  simp only [quiet, Bool.false_and, Bool.false_eq_true, if_false]
  rw [burst, if_pos (drained_good _ few), drained_valid _ few, List.length_map]
  rfl

/-! ### What a record says -/

theorem leAt_leBytes_mod (k v : Nat) (rest : List Byte) : leAt (leBytes k v ++ rest) 0 k = v % 256 ^ k := by
  unfold leAt
  simp

theorem SpRec.bytes_lid (r : SpRec) : leAt r.bytes 0 4 = r.lid % 4294967296 := by
  simp only [SpRec.bytes, List.append_assoc]
  exact leAt_leBytes_mod 4 _ _

theorem SpRec.bytes_sidx (r : SpRec) : leAt r.bytes 4 2 = r.sidx % 65536 := by
  simp only [SpRec.bytes, List.append_assoc]
  rw [leAt_append_right _ _ _ _ (by simp), leBytes_length]
  exact leAt_leBytes_mod 2 _ _

theorem SpRec.bytes_h (r : SpRec) : leAt r.bytes 6 2 = r.h % 65536 := by
  simp only [SpRec.bytes, List.append_assoc]
  rw [leAt_append_right _ _ _ _ (by simp), leBytes_length, leAt_append_right _ _ _ _ (by simp), leBytes_length]
  exact leAt_leBytes_mod 2 _ _

theorem SpRec.bytes_ctx (r : SpRec) (small : r.ctx < 8) : byteAt r.bytes 8 % 8 = r.ctx := by
  have low : byteAt r.bytes 8 = r.ctx % 256 := by simp [SpRec.bytes, leBytes, byteAt]
  omega

/-! ### The Rill of a query -/

/-- A pass without the words that it has still to issue. -/
def SpPass.bare (p : SpPass) : SpPass := { p with todo := [] }

theorem popWord_bare (k w : Nat) (ps : List SpPass) : (popWord k w ps).map SpPass.bare = ps.map SpPass.bare := by
  induction ps with
  | nil => rfl
  | cons p ps ih =>
    unfold popWord
    split
    · rw [List.map_cons, ih, List.map_cons]
    · split <;> rfl

/-- The Rill of a query does not depend on the words still to issue. -/
theorem State.thinRill_congr (passes : t.hbm.passes.map SpPass.bare = s.hbm.passes.map SpPass.bare)
    (rills : t.fabric.rills = s.fabric.rills) (b : Nat) (q : Nat × Nat) : t.thinRill b q = s.thinRill b q := by
  have bare (ps : List SpPass) : (ps.filter (fun p => p.basin == b)).findSome? (fun p =>
      p.members.findSome? (fun m => if m.1 = q.1 ∧ m.2.1 = q.2 then m.2.2 else none)) =
      ((ps.map SpPass.bare).filter (fun p => p.basin == b)).findSome? (fun p =>
      p.members.findSome? (fun m => if m.1 = q.1 ∧ m.2.1 = q.2 then m.2.2 else none)) := by
    rw [List.filter_map, List.findSome?_map]
    rfl
  unfold State.thinRill
  rw [bare, passes, ← bare, rills]

theorem State.drained_rest (s : State) (n : SpoutName) : s.drained n = { s with hbm := (s.drained n).hbm, regs := (s.drained n).regs, out := (s.drained n).out } :=
  rfl

theorem State.drained_hbm (s : State) (n : SpoutName) : (s.drained n).hbm =
    ((s.setSpout (keyOfSpout n) { s.spout (keyOfSpout n) with
      fifo := (s.spout (keyOfSpout n)).fifo.drop 2, owed := (s.spout (keyOfSpout n)).owed - 1 }).issue n 8 0).hbm := rfl

theorem State.drained_wrote (s : State) (n : SpoutName) :
    OnlyRegs s (s.drained n) [Reg.SPOUT_CNT_PASSED] ∧
    Counted s (s.drained n) Reg.SPOUT_CNT_PASSED 0 64 ((s.spout (keyOfSpout n)).fifo.take 2).length := by
  unfold State.drained
  have regs : (((s.setSpout (keyOfSpout n) { s.spout (keyOfSpout n) with
    fifo := (s.spout (keyOfSpout n)).fifo.drop 2, owed := (s.spout (keyOfSpout n)).owed - 1 }).issue n 8 0).emit
      (.spout (drainBurst ((s.spout (keyOfSpout n)).fifo.take 2)))).regs = s.regs := rfl
  generalize ((s.setSpout (keyOfSpout n) { s.spout (keyOfSpout n) with
    fifo := (s.spout (keyOfSpout n)).fifo.drop 2, owed := (s.spout (keyOfSpout n)).owed - 1 }).issue n 8 0).emit
      (.spout (drainBurst ((s.spout (keyOfSpout n)).fifo.take 2))) = v at *
  exact ⟨(OnlyRegs.of_regs regs).trans (.bump _ _ _ _ List.mem_cons_self),
    .after _ _ _ _ (State.regF_congr regs _ _ _) (.of_bump Reg.SPOUT_CNT_PASSED 0 64 _ (by decide))⟩

theorem State.forward_eq {b l : Nat} {q : Nat × Nat} {rec : List Byte} {rq : Req} {x : Index} (held : s.req? q.1 = some rq)
    (there : s.index? rq.hdr.index.toNat = some x) (rill : s.thinRill b q = some l) :
    s.forward b q rec = s.setRill l ((s.rill l).putHeap (((s.rill l).heapOf q.1 q.2 rq.heapDepth).offer
      (leAt rec 6 2, mkGid (x.shards.getD (leAt rec 4 2) 0) (leAt rec 0 4)))) := by
  unfold State.forward
  rw [held, rill]
  dsimp only
  rw [there]

theorem spdrain_returns (n : SpoutName) (k : Nat) (s : State) (key : k = keyOfSpout n) (on : s.spoutOff k = false)
    (quiet : bit (s.reg (instKey Reg.SPOUT_INJECT k)) 0 = false) :
    Completes (.spdrain n ⟨false, []⟩) s (fun t =>
      t = { s with hbm := t.hbm, regs := t.regs, out := t.out, fabric := { s.fabric with rills := t.fabric.rills } } ∧
      t.out = s.out ++ [.spoutWord n (BitVec.ofNat 32 (spWord 8 n.bank 0)),
        .spout (padTo 0 32 (((s.spout k).fifo.take 2).flatMap SpRec.bytes))] ∧
      t.spout k = { s.spout k with fifo := (s.spout k).fifo.drop 2, owed := (s.spout k).owed - 1 } ∧
      (∀ j, j ≠ k → t.spout j = s.spout j) ∧ t.hbm.dram = s.hbm.dram ∧
      OnlyRegs s t [Reg.SPOUT_CNT_PASSED] ∧ Counted s t Reg.SPOUT_CNT_PASSED 0 64 ((s.spout k).fifo.take 2).length ∧
      (∀ (r : SpRec) (c : SpCtx) (q : Nat × Nat) (rq : Req) (x : Index) (l : Nat), (s.spout k).fifo = [r] → r.ctx < 8 →
        Store.find? (s.spout k).ctxs r.ctx = some c → c.query = some q → s.req? q.1 = some rq →
        s.index? rq.hdr.index.toNat = some x → s.thinRill n.basin q = some l →
        t.rill l = (s.rill l).putHeap (((s.rill l).heapOf q.1 q.2 rq.heapDepth).offer
          (r.h % 65536, mkGid (x.shards.getD (r.sidx % 65536) 0) (r.lid % 4294967296))) ∧
        (∀ j, j ≠ l → t.rill j = s.rill j))) := by
  subst key
  refine ⟨_, exec_spdrain on quiet, ?_⟩
  have rest := s.drained_rest n
  have out : (s.drained n).out = s.out ++ [.spoutWord n (BitVec.ofNat 32 (spWord 8 n.bank 0)),
      .spout (drainBurst ((s.spout (keyOfSpout n)).fifo.take 2))] := List.append_assoc _ _ _
  obtain ⟨⟨-, -, -, hbm, others⟩, set⟩ := s.setSpout_issue n { s.spout (keyOfSpout n) with
    fifo := (s.spout (keyOfSpout n)).fifo.drop 2, owed := (s.spout (keyOfSpout n)).owed - 1 } 8 0 []
  have spouts (j : Nat) : (s.drained n).spout j = ((s.setSpout (keyOfSpout n) { s.spout (keyOfSpout n) with
      fifo := (s.spout (keyOfSpout n)).fifo.drop 2, owed := (s.spout (keyOfSpout n)).owed - 1 }).issue n 8 0).spout j := rfl
  have dram : (s.drained n).hbm.dram = s.hbm.dram := rfl
  have passes : (s.drained n).hbm.passes.map SpPass.bare = s.hbm.passes.map SpPass.bare := popWord_bare _ _ _
  obtain ⟨only, counted⟩ := s.drained_wrote n
  generalize s.drained n = v at *
  have forwarded : v.RillsOnly ((((s.spout (keyOfSpout n)).fifo.take 2).map SpRec.bytes).foldl
      (fun t c => State.forwardRec (s.spout (keyOfSpout n)) n.basin t c) v) :=
    List.foldlRecOn (motive := (v.RillsOnly ·)) _ _ rfl fun t h c _ => h.trans (State.forwardRec_rillsOnly _ _ t c)
  have single (r : SpRec) (c : SpCtx) (q : Nat × Nat) (rq : Req) (x : Index) (l : Nat)
      (fifo : (s.spout (keyOfSpout n)).fifo = [r]) (small : r.ctx < 8)
      (ctx : Store.find? (s.spout (keyOfSpout n)).ctxs r.ctx = some c) (query : c.query = some q) (held : s.req? q.1 = some rq)
      (there : s.index? rq.hdr.index.toNat = some x) (rill : s.thinRill n.basin q = some l) :
      (((s.spout (keyOfSpout n)).fifo.take 2).map SpRec.bytes).foldl
        (fun t c => State.forwardRec (s.spout (keyOfSpout n)) n.basin t c) v =
      v.setRill l ((s.rill l).putHeap (((s.rill l).heapOf q.1 q.2 rq.heapDepth).offer
          (r.h % 65536, mkGid (x.shards.getD (r.sidx % 65536) 0) (r.lid % 4294967296)))) := by
    have fabric : v.fabric = s.fabric := by rw [rest]
    have heldv : v.req? q.1 = some rq := by
      rw [rest]
      exact held
    have therev : v.index? rq.hdr.index.toNat = some x := by
      rw [rest]
      exact there
    have rillv : v.thinRill n.basin q = some l := (State.thinRill_congr passes (congrArg Fabric.rills fabric) _ _).trans rill
    have same : v.rill l = s.rill l := State.rill_congr (congrArg Fabric.rills fabric) l
    rw [fifo]
    change State.forwardRec (s.spout (keyOfSpout n)) n.basin v r.bytes = _
    unfold State.forwardRec
    rw [r.bytes_ctx small, ctx, Option.bind_some, query]
    dsimp only
    rw [State.forward_eq heldv therev rillv, same, r.bytes_h, r.bytes_sidx, r.bytes_lid]
  generalize (((s.spout (keyOfSpout n)).fifo.take 2).map SpRec.bytes).foldl
    (fun t c => State.forwardRec (s.spout (keyOfSpout n)) n.basin t c) v = w at *
  have hbmw : w.hbm = v.hbm := by rw [forwarded]
  have spoutw (j : Nat) : w.spout j = v.spout j := by
    unfold State.spout
    rw [hbmw]
  have regw : w.regs = v.regs := by rw [forwarded]
  refine ⟨?_, ?_, ?_, fun j d => ?_, by rw [hbmw, dram], only.trans (.of_regs regw), ?_, ?_⟩
  · rw [forwarded, rest]
  · rw [forwarded]
    exact out
  · rw [spoutw, spouts, set]
  · rw [spoutw, spouts, others j d]
  · exact .before _ _ _ _ counted (State.regF_congr regw _ _ _)
  · intro r c q rq x l fifo small ctx query held there rill
    rw [single r c q rq x l fifo small ctx query held there rill]
    refine ⟨State.rill_setRill_same _ _ _, fun j d => ?_⟩
    rw [State.rill_setRill_other _ _ _ _ d]
    exact State.rill_congr (by rw [rest]) j

/-! ### Reports -/

theorem spstat_reports (n : SpoutName) (k : Nat) (s : State) (key : k = keyOfSpout n) (on : s.spoutOff k = false)
    (sound : (s.spout k).err = 0) :
    Completes (.spstat n) s (fun t => t = { s with hbm := t.hbm, out := t.out } ∧
      t.out = s.out ++ [.spoutWord n (BitVec.ofNat 32 (spWord 9 n.bank 0)), .spout (leBytes 2 (s.spout k).fifo.length ++
        leBytes 2 0 ++ leBytes 4 (s.spout k).blocks.toNat ++ leBytes 4 (s.spout k).skipped.toNat ++ zeroBytes 20)] ∧
      t.spout k = { s.spout k with
        room := 1024 - (s.spout k).fifo.length
        done := false
        owed := if (s.spout k).done then ((s.spout k).fifo.length + 1) / 2 else (s.spout k).owed } ∧
      (∀ j, j ≠ k → t.spout j = s.spout j) ∧ t.hbm.dram = s.hbm.dram) := by
  subst key
  obtain ⟨⟨-, -, -, -, others⟩, set⟩ := s.setSpout_issue n { s.spout (keyOfSpout n) with
    room := 1024 - (s.spout (keyOfSpout n)).fifo.length
    done := false
    owed := if (s.spout (keyOfSpout n)).done then ((s.spout (keyOfSpout n)).fifo.length + 1) / 2
      else (s.spout (keyOfSpout n)).owed } 9 0 []
  refine ⟨_, (if_neg (by simp [on])).trans (congrArg Host.Outcome.next (if_pos sound)), rfl, ?_, set, others, rfl⟩
  have status : (s.spout (keyOfSpout n)).status = leBytes 2 (s.spout (keyOfSpout n)).fifo.length ++ leBytes 2 0 ++
      leBytes 4 (s.spout (keyOfSpout n)).blocks.toNat ++ leBytes 4 (s.spout (keyOfSpout n)).skipped.toNat ++ zeroBytes 20 := by
    rw [Spout.status, sound]
  rw [← status]
  exact List.append_assoc _ _ _

theorem rawrd_returns (n : SpoutName) (column : Fin 32) (data check : List Byte) (k : Nat) (s : State) (key : k = keyOfSpout n)
    (closed : (s.spout k).row = none) (ecc : (s.stack (k % 4 + 4)).ctrlEcc = false) :
    Completes (.rawrd n column ⟨data, check⟩) s (fun t => t = { s with hbm := t.hbm, out := t.out } ∧
      t.out = s.out ++ [.spoutWord n (BitVec.ofNat 32 (spWord 12 n.bank column)), .spout (padTo 0 32 data ++ padTo 0 4 check)] ∧
      t.hbm = { s.hbm with passes := t.hbm.passes }) := by
  subst key
  exact ⟨_, (if_neg (by simp [ecc])).trans (if_neg (by simp [closed])), rfl, List.append_assoc _ _ _, rfl⟩

end Sys2Proof.Machine

section Settled
open Sys2Proof Sys2Proof.Machine

/-- Settles O43: what each reading command takes, counts and returns. -/
theorem spoutsReadAndReport : Obligations.SpoutsReadAndReport :=
  ⟨spseg_reads, spfeed_reads, spdrain_returns, spstat_reports, rawrd_returns⟩

end Settled
end

section
/-! SUPPORT. Refresh and scrub (R331 to R337), for O45. -/

set_option Elab.async false

namespace Sys2Proof.Machine
variable {s t u : State}

/-! ### Refresh -/

/-- Refreshes of a pseudo-channel postponed. -/
def State.postponed (s : State) (n : StackName) (pc : Nat) : Nat :=
  Store.get (fun _ => 0) (s.stack (keyOfStack n)).refresh pc

/-- The node with another number of postponed refreshes. -/
def State.postpone (s : State) (n : StackName) (pc v : Nat) : State :=
  s.setStack (keyOfStack n) { s.stack (keyOfStack n) with
    refresh := Store.put (fun _ => 0) (s.stack (keyOfStack n)).refresh pc v }

theorem State.postpone_postponed (s : State) (n : StackName) (pc v : Nat) : (s.postpone n pc v).postponed n pc = v := by
  unfold State.postponed State.postpone
  rw [State.stack_setStack_same]
  exact Store.get_put_same (fun _ => 0) _ pc v

/-- The first of the Spouts of a pseudo-channel. -/
def firstSpout (n : StackName) (pc : Nat) : Nat := n.basin.val + 2 * n.complex.val + 4 * pc

/-- The cycles that the stop of a pseudo-channel's sequences takes. -/
def State.stopCycles (s : State) (n : StackName) (pc : Nat) (waits : List Nat) : Nat :=
  sumNat (((List.range 16).filter (fun b => (s.spout (firstSpout n pc + 64 * b)).row.isSome)).map
    (fun b => waits.getD b 0 + (s.postponed n pc + 1) * 630 + 24))

theorem exec_refreshDue (n : StackName) (pc : Fin 16) (waits : List Nat) (s : State) :
    exec (.refreshDue n pc waits) s = .next (
      if n.spouting = false ∨ s.pcClosed (firstSpout n pc) = true then s.postpone n pc 0
      else if s.postponed n pc < s.regF Reg.SPOUT_CFG 0 3 then s.postpone n pc (s.postponed n pc + 1)
      else ((s.postpone n pc 0).bump Reg.SPOUT_CNT_REFSTOP 0 64 1).bump Reg.SPOUT_CNT_REFDELAY 0 64 (s.stopCycles n pc waits)) := by
  show execRefreshDue n pc waits s = _
  unfold execRefreshDue
  extract_lets k st spout isOpen pend put stopped cycles
  have opened : (!isOpen) = true ↔ n.spouting = false ∨ s.pcClosed (firstSpout n pc) = true := by
    simp only [isOpen, spout, firstSpout, Nat.mul_zero, Nat.add_zero]
    cases n.spouting <;> simp
  by_cases c : n.spouting = false ∨ s.pcClosed (firstSpout n pc) = true
  · rw [if_pos (opened.mpr c), if_pos c]
    rfl
  · rw [if_neg (mt opened.mp c), if_neg c]
    by_cases room : pend < s.regF Reg.SPOUT_CFG 0 3
    · rw [if_pos room]
      exact congrArg Host.Outcome.next (if_pos room).symm
    · rw [if_neg room]
      exact congrArg Host.Outcome.next (if_neg room).symm

theorem refreshDue_issues (n : StackName) (pc : Fin 16) (waits : List Nat) (p : Nat) (s : State)
    (first : p = n.basin.val + 2 * n.complex.val + 4 * pc.val) :
    ((n.spouting = false ∨ s.pcClosed p = true) →
      Completes (.refreshDue n pc waits) s (fun t => t = { s with hbm := t.hbm } ∧
        Store.get (fun _ => 0) (t.stack (keyOfStack n)).refresh pc = 0 ∧ t.hbm.spouts = s.hbm.spouts ∧
        (∀ j, j ≠ keyOfStack n → t.stack j = s.stack j))) ∧
    (n.spouting = true → s.pcClosed p = false →
      Completes (.refreshDue n pc waits) s (fun t => t = { s with hbm := t.hbm, regs := t.regs } ∧
        t.hbm.spouts = s.hbm.spouts ∧
        (Store.get (fun _ => 0) (s.stack (keyOfStack n)).refresh pc < s.regF Reg.SPOUT_CFG 0 3 →
          Store.get (fun _ => 0) (t.stack (keyOfStack n)).refresh pc =
            Store.get (fun _ => 0) (s.stack (keyOfStack n)).refresh pc + 1 ∧ t.regs = s.regs) ∧
        (s.regF Reg.SPOUT_CFG 0 3 ≤ Store.get (fun _ => 0) (s.stack (keyOfStack n)).refresh pc →
          Store.get (fun _ => 0) (t.stack (keyOfStack n)).refresh pc = 0 ∧
          OnlyRegs s t [Reg.SPOUT_CNT_REFSTOP, Reg.SPOUT_CNT_REFDELAY] ∧ Counted s t Reg.SPOUT_CNT_REFSTOP 0 64 1 ∧
          (∀ b, b < 16 → (∀ c, c < 16 → ((s.spout (p + 64 * c)).row ≠ none ↔ c = b)) →
            Counted s t Reg.SPOUT_CNT_REFDELAY 0 64 (waits.getD b 0 +
              (Store.get (fun _ => 0) (s.stack (keyOfStack n)).refresh pc + 1) * 630 + 24))))) := by
  have first : p = firstSpout n pc := first
  subst first
  have ran := exec_refreshDue n pc waits s
  refine ⟨fun closed => ⟨_, ran.trans (congrArg _ (if_pos closed)), rfl, s.postpone_postponed n pc 0, rfl,
    fun j d => State.stack_setStack_other _ _ _ _ d⟩, fun spouting opened => ?_⟩
  rw [if_neg (by simp [spouting, opened])] at ran
  by_cases room : s.postponed n pc < s.regF Reg.SPOUT_CFG 0 3
  · exact ⟨_, ran.trans (congrArg _ (if_pos room)), rfl, rfl, fun _ => ⟨s.postpone_postponed n pc _, rfl⟩,
      fun full => absurd room (not_lt.mpr full)⟩
  · rw [if_neg room] at ran
    have none := s.postpone_postponed n pc 0
    have rest : s.postpone n pc 0 = { s with hbm := (s.postpone n pc 0).hbm } := rfl
    have spouts : (s.postpone n pc 0).hbm.spouts = s.hbm.spouts := rfl
    generalize s.postpone n pc 0 = v at *
    have regs : v.regs = s.regs := by rw [rest]
    have stops : v.Wrote (v.bump Reg.SPOUT_CNT_REFSTOP 0 64 1) [Reg.SPOUT_CNT_REFSTOP] := .bump List.mem_cons_self _ _ _
    have stopped : Counted v (v.bump Reg.SPOUT_CNT_REFSTOP 0 64 1) Reg.SPOUT_CNT_REFSTOP 0 64 1 :=
      .of_bump Reg.SPOUT_CNT_REFSTOP 0 64 1 (by decide)
    generalize v.bump Reg.SPOUT_CNT_REFSTOP 0 64 1 = w at *
    have delays : w.Wrote (w.bump Reg.SPOUT_CNT_REFDELAY 0 64 (s.stopCycles n pc waits)) [Reg.SPOUT_CNT_REFDELAY] :=
      .bump List.mem_cons_self _ _ _
    have delayed : Counted w (w.bump Reg.SPOUT_CNT_REFDELAY 0 64 (s.stopCycles n pc waits)) Reg.SPOUT_CNT_REFDELAY 0 64
      (s.stopCycles n pc waits) := .of_bump Reg.SPOUT_CNT_REFDELAY 0 64 _ (by decide)
    generalize w.bump Reg.SPOUT_CNT_REFDELAY 0 64 (s.stopCycles n pc waits) = x at *
    have both : v.Wrote x [Reg.SPOUT_CNT_REFSTOP, Reg.SPOUT_CNT_REFDELAY] := (stops.mono (by simp)).trans (delays.mono (by simp))
    have hbm : x.hbm = v.hbm := by rw [both.rest]
    refine ⟨x, ran, by rw [both.rest, rest], by rw [hbm, spouts], fun h => absurd h room, fun _ => ⟨?_, ?_, ?_, ?_⟩⟩
    · have same : x.stack (keyOfStack n) = v.stack (keyOfStack n) := by rw [State.stack, hbm]; rfl
      rw [same]
      exact none
    · exact (OnlyRegs.of_regs regs).trans both.only
    · exact .after _ _ _ _ (State.regF_congr regs _ _ _) (.before _ _ _ _ stopped (delays.only.regF _ _ _ (by decide)))
    · intro b small only
      have one : (List.range 16).filter (fun c => (s.spout (firstSpout n pc + 64 * c)).row.isSome) = [b] := by
        have same : (List.range 16).filter (fun c => (s.spout (firstSpout n pc + 64 * c)).row.isSome) =
            (List.range 16).filter (fun c => c == b) := by
          refine List.filter_congr fun c hc => ?_
          rw [Bool.eq_iff_iff, Option.isSome_iff_ne_none, beq_iff_eq]
          exact only c (List.mem_range.mp hc)
        rw [same, List.filter_beq, List.count_eq_one_of_mem List.nodup_range (List.mem_range.mpr small)]
        rfl
      have cycles : s.stopCycles n pc waits = waits.getD b 0 + (s.postponed n pc + 1) * 630 + 24 := by
        unfold State.stopCycles
        rw [one]
        exact Nat.zero_add _
      rw [cycles] at delayed
      refine .after _ _ _ _ ((stops.only.regF _ _ _ (by decide)).trans (State.regF_congr regs _ _ _)) delayed

/-! ### Scrub -/

/-- A run's bit of the seal map is set, and the others stand. -/
theorem Stack.runSealed_setSeal (st : Stack) (r : Nat) (v : Bool) (j : Nat) :
    (st.setSeal r v).runSealed j = if j = r then v else st.runSealed j := by
  unfold Stack.setSeal
  split
  next same =>
    split
    next e => rw [e, same]
    next => rfl
  next differs =>
    have flip (ex : List Nat) (h : ex.contains j = if j = r then !st.sealEx.contains r else st.sealEx.contains j) :
        (st.sealAll != ex.contains j) = if j = r then v else st.runSealed j := by
      rw [h]
      split
      next =>
        unfold Stack.runSealed at differs
        revert differs
        cases st.sealAll <;> cases st.sealEx.contains r <;> cases v <;> simp
      next => rfl
    by_cases sealed : st.sealEx.contains r = true
    · rw [if_pos sealed]
      refine flip _ ?_
      rw [Bool.eq_iff_iff]
      by_cases e : j = r
      · simpa [e] using sealed
      · simp [e]
    · rw [if_neg sealed]
      refine flip _ ?_
      rw [Bool.eq_iff_iff, List.contains_iff_mem]
      have parts : j ∈ st.sealEx ↔ j ∈ st.sealEx.takeWhile (· < r) ∨ j ∈ st.sealEx.dropWhile (· < r) := by
        conv_lhs => rw [← List.takeWhile_append_dropWhile (p := fun x => decide (x < r)) (l := st.sealEx)]
        rw [List.mem_append]
      by_cases e : j = r
      · simpa [e] using sealed
      · simp only [e, if_false, List.mem_append, List.mem_singleton, or_false, List.contains_iff_mem, parts]

theorem exec_scrubRun {b c : Fin 2} {r : Nat} (sealed : (s.stack (stackKey b c 1)).firstSealed = some r) :
    exec (.scrubRun b c) s =
      if s.regF Reg.SPOUT_CFG 3 1 = 1 ∧ (!(s.stack (stackKey b c 1)).ctrlEcc) = true ∧ (s.stack (stackKey b c 1)).state = 1 ∧
          s.bankSpouts b c (r % 16) (r / 16 % 16) = false then
        .next ((s.setStack (stackKey b c 1) ((s.stack (stackKey b c 1)).setSeal r false)).bump Reg.SPOUT_CNT_SCRUB 0 64 1)
      else .next s := by
  show execScrubRun b c s = _
  unfold execScrubRun
  extract_lets k st
  have sealed : st.firstSealed = some r := sealed
  rw [sealed]

theorem scrubRun_clears (b c : Fin 2) (s : State) (r : Nat) (sealed : (s.stack (stackKey b c 1)).firstSealed = some r)
    (enabled : s.regF Reg.SPOUT_CFG 3 1 = 1) (ecc : (s.stack (stackKey b c 1)).ctrlEcc = false)
    (up : (s.stack (stackKey b c 1)).state = 1) :
    (s.bankSpouts b c (r % 16) (r / 16 % 16) = true → Completes (.scrubRun b c) s (fun t => t = s)) ∧
    (s.bankSpouts b c (r % 16) (r / 16 % 16) = false → Completes (.scrubRun b c) s (fun t => t = { s with hbm := t.hbm, regs := t.regs } ∧
      (t.stack (stackKey b c 1)).runSealed r = false ∧
      (∀ j, j ≠ r → (t.stack (stackKey b c 1)).runSealed j = (s.stack (stackKey b c 1)).runSealed j) ∧
      (∀ j, j ≠ stackKey b c 1 → t.stack j = s.stack j) ∧ t.hbm.spouts = s.hbm.spouts ∧
      OnlyRegs s t [Reg.SPOUT_CNT_SCRUB] ∧ Counted s t Reg.SPOUT_CNT_SCRUB 0 64 1)) := by
  refine ⟨fun held => ⟨s, (exec_scrubRun sealed).trans (if_neg (by simp [held])), rfl⟩,
    fun free => ⟨_, (exec_scrubRun sealed).trans (if_pos ⟨enabled, by simp [ecc], up, free⟩), rfl, ?_⟩⟩
  have own : ((s.setStack (stackKey b c 1) ((s.stack (stackKey b c 1)).setSeal r false)).bump Reg.SPOUT_CNT_SCRUB 0 64 1).stack
      (stackKey b c 1) = (s.stack (stackKey b c 1)).setSeal r false := State.stack_setStack_same _ _ _
  rw [own]
  refine ⟨by rw [Stack.runSealed_setSeal, if_pos rfl], fun j d => by rw [Stack.runSealed_setSeal, if_neg d],
    fun j d => State.stack_setStack_other s _ j _ d, rfl, ?_, ?_⟩
  · exact .bump (s := s.setStack _ _) _ _ _ _ List.mem_cons_self
  · exact .of_bump (s := s.setStack _ _) Reg.SPOUT_CNT_SCRUB 0 64 1 (by decide)

theorem injectSpoutCheck_sets (s : State) (up : s.pageUp (keyPage Reg.SPOUT_INJECT) = true) :
    Completes .injectSpoutCheck s (fun t => OnlyBitSet s t (instKey Reg.SPOUT_INJECT (s.regF Reg.SPOUT_SEL 0 10)) 0) :=
  ⟨_, rfl, State.writeOne_onlyBitSet up (by decide)⟩

end Sys2Proof.Machine

section Settled
open Sys2Proof Sys2Proof.Machine

/-- Settles O45: a refresh is issued, postponed or stops the sequences, and a scrub clears one bit of the seal map. -/
theorem refreshAndScrub : Obligations.RefreshAndScrub := ⟨refreshDue_issues, scrubRun_clears, injectSpoutCheck_sets⟩

end Settled
end

section
/-! SUPPORT. List migration between stack kinds (R339 to R343), for O46. -/

set_option Elab.async false

namespace Sys2Proof.Machine
variable {s t u : State}

/-! ### Migrations that start -/

/-- The runs of a migration are free in its target, and unsealed in a spouting one. -/
def State.FreeRuns (s : State) (b : Nat) (m : Migration) : Prop :=
  ∀ p ∈ m.runs, ∀ r ∈ p.runs, r ∉ s.usedRuns b m.target ∧
    (2 ≤ m.target → (s.stack (stackKey b (m.target % 2) 1)).runSealed r = false)

/-- The migrations that run in a Basin. -/
def State.migsIn (s : State) (b : Nat) : Nat := (s.hbm.migs.filter (fun g => g.basin == b)).length

/-- Migrations have started in Basin `b`, and nothing else has changed but the lists chosen. -/
structure State.Started (s t : State) (b : Nat) : Prop where
  rest : t = { s with hbm := t.hbm, free := t.free }
  hbm : t.hbm = { s.hbm with migs := t.hbm.migs, wishes := t.hbm.wishes }
  more : ∃ more, t.hbm.migs = s.hbm.migs ++ more ∧ ∀ m ∈ more, m.basin = b ∧ s.FreeRuns b m
  limit : s.migsIn b ≤ s.regF Reg.SPOUT_MIG_CFG 44 4 → t.migsIn b ≤ s.regF Reg.SPOUT_MIG_CFG 44 4

/-- Migrations, lists chosen and open values apart, the node stands. -/
theorem State.Started.of_same {b : Nat} (rest : t = { s with hbm := t.hbm, free := t.free })
    (hbm : t.hbm = { s.hbm with migs := s.hbm.migs, wishes := t.hbm.wishes }) : s.Started t b := by
  have migs : t.hbm.migs = s.hbm.migs := by rw [hbm]
  refine ⟨rest, by rw [migs]; exact hbm, ⟨[], by rw [migs, List.append_nil], by simp⟩, fun h => ?_⟩
  unfold State.migsIn at *
  rwa [migs]

theorem State.Started.refl (s : State) (b : Nat) : s.Started s b := .of_same rfl rfl

/-- A run in use stays in use while migrations start. -/
theorem State.Started.usedRuns {b : Nat} (a : s.Started t b) (c st r : Nat) (used : r ∈ s.usedRuns c st) : r ∈ t.usedRuns c st := by
  obtain ⟨more, migs, -⟩ := a.more
  have parts : t.usedRuns c st = (s.indexes.flatMap (fun q => q.2.arrs.flatMap (fun a =>
      if a.2.basin = c ∧ a.2.stack = st ∧ ¬ s.mem.demoted.contains (q.1, a.1) then s.runsOf q.1 a.1 else []))) ++
      ((s.hbm.migs ++ more).flatMap (fun m => if m.basin = c ∧ m.target = st then m.runs.flatMap (fun p => p.runs) else [])) ++
      (s.hbm.leaving.flatMap (fun l => if l.basin = c ∧ l.stack = st then l.runs else [])) ++
      (s.hbm.remaps.filterMap (fun m => if m.basin = c ∧ m.toStack = st then some m.toRun else none)) := by
    have places : t.hbm.places = s.hbm.places := by rw [a.hbm]
    have leaving : t.hbm.leaving = s.hbm.leaving := by rw [a.hbm]
    have remaps : t.hbm.remaps = s.hbm.remaps := by rw [a.hbm]
    have indexes : t.indexes = s.indexes := by rw [a.rest]
    have mem : t.mem = s.mem := by rw [a.rest]
    have runs (i h : Nat) : t.runsOf i h = s.runsOf i h := by
      unfold State.runsOf
      rw [places]
    unfold State.usedRuns
    simp only [migs, leaving, remaps, indexes, mem, runs]
  unfold State.usedRuns at used
  rw [parts, List.flatMap_append]
  simp only [List.mem_append] at used ⊢
  tauto

theorem State.Started.trans {b : Nat} (a : s.Started t b) (c : t.Started u b) : s.Started u b := by
  obtain ⟨first, migs1, free1⟩ := a.more
  obtain ⟨second, migs2, free2⟩ := c.more
  have dram : t.hbm.dram = s.hbm.dram := by rw [a.hbm]
  have regs : t.regs = s.regs := by rw [a.rest]
  refine ⟨by rw [c.rest, a.rest], by rw [c.hbm, a.hbm], ⟨first ++ second, by rw [migs2, migs1, List.append_assoc], ?_⟩, fun h => ?_⟩
  · intro m hm
    obtain h | h := List.mem_append.mp hm
    · exact free1 m h
    · obtain ⟨basin, free⟩ := free2 m h
      refine ⟨basin, fun p hp r hr => ?_⟩
      obtain ⟨unused, clean⟩ := free p hp r hr
      refine ⟨fun used => unused (a.usedRuns b m.target r used), fun spouting => ?_⟩
      have := clean spouting
      unfold State.stack at *
      rwa [dram] at this
  · rw [← State.regF_congr regs] at h ⊢
    exact c.limit (by rw [State.regF_congr regs] at h ⊢; exact a.limit h)

theorem State.Started.foldl {α : Type} {b : Nat} {f : State → α → State} (l : List α) (a : s.Started t b)
    (each : ∀ (t : State) x, x ∈ l → t.Started (f t x) b) : s.Started (l.foldl f t) b :=
  List.foldlRecOn (motive := (s.Started · b)) l f a fun t h x hx => h.trans (each t x hx)

theorem dealRuns_subset (i : Nat) (need : List (Nat × Nat)) (rs : List Nat) (p : Placed) (hp : p ∈ dealRuns i need rs) (r : Nat)
    (hr : r ∈ p.runs) : r ∈ rs := by
  induction need generalizing rs with
  | nil => cases hp
  | cons n need ih =>
    obtain rfl | hp := List.mem_cons.mp hp
    · exact List.mem_of_mem_take hr
    · exact List.mem_of_mem_drop (ih _ hp)

/-- Open runs are not in use, and not sealed in a spouting stack. -/
theorem State.openIn_free {gs : List Nat} {b st start n r : Nat} (h : r ∈ s.openIn gs b st start n) :
    r ∉ s.usedRuns b st ∧ (2 ≤ st → (s.stack (stackKey b (st % 2) (st / 2))).runSealed r = false) := by
  unfold State.openIn at h
  obtain ⟨-, ok⟩ := List.mem_filter.mp (List.mem_of_mem_take h)
  simp only [Bool.and_eq_true, Bool.not_eq_true', Bool.and_eq_false_iff, decide_eq_false_iff_not] at ok
  obtain ⟨⟨unused, -⟩, clean⟩ := ok
  refine ⟨by simpa using unused, fun spouting => ?_⟩
  obtain plain | unsealed := clean
  · exact absurd spouting plain
  · exact unsealed

theorem State.placeList_free {i slot b target : Nat} {x : Index} {ps : List Placed} (h : s.placeList i slot b target x = (some ps, t)) :
    t = { s with free := t.free } ∧ ∀ p ∈ ps, ∀ r ∈ p.runs, r ∉ s.usedRuns b target ∧
      (2 ≤ target → (s.stack (stackKey b (target % 2) (target / 2))).runSealed r = false) := by
  unfold State.placeList at h
  extract_lets f need n rs at h
  obtain ⟨found, rfl⟩ := Prod.mk.inj h
  refine ⟨rfl, fun p hp r hr => ?_⟩
  split at found
  · obtain rfl := Option.some.inj found
    exact State.openIn_free (s := f.2) (dealRuns_subset i need rs p hp r hr)
  · cases found

theorem State.placeList_none {i slot b target : Nat} {x : Index} (h : s.placeList i slot b target x = (none, t)) :
    t = { s with free := t.free } := by
  unfold State.placeList at h
  extract_lets f need n rs at h
  obtain ⟨-, rfl⟩ := Prod.mk.inj h
  rfl

theorem State.freerStack_cases (s : State) (b st : Nat) : s.freerStack b st = st ∨ s.freerStack b st = st + 1 := by
  unfold State.freerStack
  split
  · exact .inr rfl
  · exact .inl rfl

theorem State.startMig_started (s : State) (w : MigWish) : s.Started (s.startMig w).1 w.basin := by
  unfold State.startMig
  split
  next => exact .refl _ _
  next x _ =>
    extract_lets l target bytes floor
    split
    next => exact .refl _ _
    next st _ =>
      split
      next => exact .refl _ _
      next =>
        split
        next => exact .refl _ _
        next room =>
          split
          next ps s1 placed =>
            obtain ⟨rest, free⟩ := State.placeList_free placed
            have spouting (h : 2 ≤ target) : target / 2 = 1 := by
              obtain e | e := s.freerStack_cases w.basin (if w.up then 2 else 0)
              · have : target = if w.up then 2 else 0 := e
                split at this <;> omega
              · have : target = (if w.up then 2 else 0) + 1 := e
                split at this <;> omega
            have hbm : s1.hbm = s.hbm := by rw [rest]
            refine ⟨?_, ?_, ⟨[⟨w.idx, w.slot, w.basin, target, w.up, ps⟩], by rw [hbm], ?_⟩, fun _ => ?_⟩
            · show { s1 with hbm := _ } = _
              rw [rest]
            · dsimp only
              rw [hbm]
            · intro m hm
              obtain rfl := List.mem_singleton.mp hm
              refine ⟨rfl, fun p hp r hr => ?_⟩
              obtain ⟨unused, clean⟩ := free p hp r hr
              refine ⟨unused, fun h => ?_⟩
              have sealed := clean h
              rwa [spouting h] at sealed
            · rw [not_or] at room
              have more : s.migsIn w.basin < s.regF Reg.SPOUT_MIG_CFG 44 4 := not_le.mp room.1
              unfold State.migsIn at more ⊢
              dsimp only
              rw [hbm, List.filter_append, List.length_append]
              simp only [List.filter_cons, beq_self_eq_true, if_true, List.filter_nil, List.length_singleton]
              omega
          next s1 placed =>
            have rest := State.placeList_none placed
            have hbm : s1.hbm = s.hbm := by rw [rest]
            refine .of_same ?_ ?_
            · dsimp only
              rw [hbm]
              exact rest
            · dsimp only
              rw [hbm]

theorem State.wish_started (s : State) (w : MigWish) : s.Started (s.wish w) w.basin := by
  unfold State.wish
  split
  next => exact .refl _ _
  next =>
    extract_lets r
    have started : s.Started r.1 w.basin := s.startMig_started w
    split
    next => exact started
    next => exact started.trans (.of_same rfl rfl)

/-- What the end of an interval leaves of the window counts. -/
def State.countsLeft (s : State) (b : Nat) : List ThinCount :=
  s.hbm.counts.filter (fun c => match s.index? c.idx with
    | some x => decide ((x.slotAt x.cur c.slot).basin ≠ b)
    | none => false)

theorem migrationInterval_starts (b : Fin 2) (s : State) :
    Completes (.migrationInterval b) s (fun t => t = { s with hbm := t.hbm, free := t.free } ∧
      t.hbm.dram = s.hbm.dram ∧ t.hbm.spouts = s.hbm.spouts ∧ (∃ more, t.hbm.migs = s.hbm.migs ++ more ∧
        ∀ m ∈ more, m.basin = b.val ∧ ∀ p ∈ m.runs, ∀ r ∈ p.runs, r ∉ s.usedRuns b m.target ∧
          (2 ≤ m.target → (s.stack (stackKey b (m.target % 2) 1)).runSealed r = false)) ∧
      (s.regF Reg.SPOUT_MIG_CFG 0 1 ≠ 1 → t.hbm.migs = s.hbm.migs) ∧
      ((s.hbm.migs.filter (fun g => g.basin == b.val)).length ≤ s.regF Reg.SPOUT_MIG_CFG 44 4 →
        (t.hbm.migs.filter (fun g => g.basin == b.val)).length ≤ s.regF Reg.SPOUT_MIG_CFG 44 4)) := by
  obtain ⟨v, started, off, ran⟩ : ∃ v, s.Started v b.val ∧ (s.regF Reg.SPOUT_MIG_CFG 0 1 ≠ 1 → v.hbm.migs = s.hbm.migs) ∧
      exec (.migrationInterval b) s = .next { v with hbm := { v.hbm with counts := v.countsLeft b } } := by
    show ∃ v, _ ∧ _ ∧ execMigrationInterval b s = _
    unfold execMigrationInterval
    extract_lets up down lists downs goDown _ s0 ups t1 s1
    have chosen : s.Started s0 b.val := .of_same rfl rfl
    have down_ (t : State) (m : MigList) : t.Started (goDown t m) b.val := t.wish_started _
    refine ⟨s1, ?_, fun h => ?_, rfl⟩
    · unfold s1
      split
      · refine .foldl downs (.foldl ups chosen fun t m _ => ?_) fun t m _ => down_ t m
        extract_lets target fits t0
        have made : t.Started t0 b.val := by
          unfold t0
          split
          · exact .refl _ _
          · exact .foldl _ (.refl _ _) fun t m _ => down_ t m
        exact made.trans (t0.wish_started _)
      · exact chosen
    · have same : s1 = s0 := if_neg fun c => h c.1
      rw [same]
  have dram : v.hbm.dram = s.hbm.dram := by rw [started.hbm]
  have spouts : v.hbm.spouts = s.hbm.spouts := by rw [started.hbm]
  refine ⟨_, ran, ?_, dram, spouts, started.more, off, started.limit⟩
  generalize ({ v.hbm with counts := v.countsLeft b.val } : Hbm) = h
  conv_lhs => rw [started.rest]

/-! ### Copies that end -/

/-- Stacks apart the node stands. -/
def State.StacksOnly (s t : State) : Prop := t = { s with hbm := { s.hbm with dram := t.hbm.dram } }

theorem State.sealNew_stacksOnly (s : State) (check : Bool) (i : Nat) (old : Option Index) (new : Index) :
    s.StacksOnly (s.sealNew check i old new) := by
  refine List.foldlRecOn (motive := (s.StacksOnly ·)) _ _ rfl fun t h p _ => ?_
  have sealed : t.StacksOnly (t.sealArray check i p.1 p.2) := by
    unfold State.sealArray State.sealRuns
    extract_lets k st
    split <;> rfl
  unfold State.StacksOnly at *
  rw [sealed, h]

/-- Without lists that wait for room, nothing follows a copy. -/
theorem State.pumpMigs_of_none (h : s.hbm.wishes = []) : s.pumpMigs = s := by
  unfold State.pumpMigs
  rw [h, List.foldl_nil]
  conv_rhs => rw [show s = { s with hbm := { s.hbm with wishes := s.hbm.wishes } } from rfl, h]

/-- A migration that is found is that of its list. -/
theorem mig_of_find {migs : List Migration} {i slot : Nat} {m : Migration}
    (found : migs.find? (fun m => m.idx == i && m.slot == slot) = some m) : m.idx = i ∧ m.slot = slot := by
  simpa using List.find?_some found

theorem exec_migrationCopyDone {idx : Fin 32} {slot : Nat} {same : Bool} {m : Migration} {x : Index}
    (found : s.hbm.migs.find? (fun m => m.idx == idx.val && m.slot == slot) = some m) (there : s.index? idx = some x) :
    exec (.migrationCopyDone idx slot same) s = .next (if same then s.switchList m x else s.abandonMigs (· == m)).pumpMigs := by
  show execMigrationCopyDone idx slot same s = _
  unfold execMigrationCopyDone
  rw [found, there]

/-- The arrays of an index with those of a list moved to another stack. -/
def movedArrs (arrs : Store BlkArr) (hs : List Nat) (target : Nat) : Store BlkArr :=
  arrs.map (fun (p : Nat × BlkArr) => if hs.contains p.1 then (p.1, { p.2 with stack := target }) else p)

theorem find?_movedArrs (arrs : Store BlkArr) (hs : List Nat) (target h : Nat) : Store.find? (movedArrs arrs hs target) h =
    (Store.find? arrs h).map fun a => { a with stack := if hs.contains h then target else a.stack } := by
  have form : movedArrs arrs hs target =
      arrs.map fun p => (p.1, { p.2 with stack := if hs.contains p.1 then target else p.2.stack }) := by
    refine List.map_congr_left fun p _ => ?_
    split <;> rfl
  rw [form, Store.find?_map]

theorem migrationCopyDone_switches (idx : Fin 32) (slot : Nat) (s : State) (m : Migration) (x : Index) (none : s.hbm.wishes = [])
    (found : s.hbm.migs.find? (fun m => m.idx == idx.val && m.slot == slot) = some m) (there : s.index? idx = some x) :
    Completes (.migrationCopyDone idx slot true) s (fun t => t.hbm.migs = s.hbm.migs.filter (· != m) ∧
      t = { s with hbm := t.hbm, regs := t.regs, indexes := t.indexes } ∧
      OnlyRegs s t [Reg.SPOUT_CNT_MIGRATE] ∧ CountedSat s t Reg.SPOUT_CNT_MIGRATE (if m.up then 0 else 16) 16 1 ∧
      ∃ y, t.index? idx = some y ∧ y.slots = x.slots ∧ y.rows = x.rows ∧ y.cur = x.cur ∧
        (∀ h a, Store.find? x.arrs h = some a → ∃ c, Store.find? y.arrs h = some c ∧ c.ents = a.ents ∧ c.basin = a.basin ∧
          c.stack = (if (x.listArrs m.basin slot).contains h then m.target else a.stack))) := by
  obtain ⟨i, l⟩ := mig_of_find found
  obtain ⟨v, w, ran, sealed, vindex, vrest, vmigs, vwishes⟩ : ∃ v w : State, s.switchList m x =
      w.bumpSat Reg.SPOUT_CNT_MIGRATE (if m.up then 0 else 16) 16 1 ∧ v.StacksOnly w ∧
      v.index? m.idx = some { x with arrs := movedArrs x.arrs (x.listArrs m.basin m.slot) m.target } ∧
      v = { s with hbm := v.hbm, indexes := v.indexes } ∧
      v.hbm.migs = s.hbm.migs.filter (· != m) ∧ v.hbm.wishes = s.hbm.wishes :=
    ⟨_, _, rfl, State.sealNew_stacksOnly _ _ _ _ _, State.index?_setIndex_same _ _ _, rfl, rfl, rfl⟩
  have regs : w.regs = s.regs := by rw [sealed, vrest]
  have wrote : w.Wrote (w.bumpSat Reg.SPOUT_CNT_MIGRATE (if m.up then 0 else 16) 16 1) [Reg.SPOUT_CNT_MIGRATE] :=
    .bumpSat List.mem_cons_self _ _ _
  have counted : CountedSat w (w.bumpSat Reg.SPOUT_CNT_MIGRATE (if m.up then 0 else 16) 16 1) Reg.SPOUT_CNT_MIGRATE
    (if m.up then 0 else 16) 16 1 := .of_bumpSat _ _ _ _ (by split <;> decide)
  generalize w.bumpSat Reg.SPOUT_CNT_MIGRATE (if m.up then 0 else 16) 16 1 = z at *
  have hbm : z.hbm = { v.hbm with dram := w.hbm.dram } := by
    rw [wrote.rest]
    exact congrArg State.hbm sealed
  have pumped : z.pumpMigs = z := State.pumpMigs_of_none (by rw [hbm]; exact vwishes.trans none)
  refine ⟨z, (exec_migrationCopyDone found there).trans (by rw [if_pos rfl, ran, pumped]), ?_, ?_, ?_, ?_, ?_⟩
  · rw [hbm]
    exact vmigs
  · rw [wrote.rest, sealed, vrest]
  · exact (OnlyRegs.of_regs regs).trans wrote.only
  · exact .after _ _ _ _ (State.regF_congr regs _ _ _) counted
  · refine ⟨{ x with arrs := movedArrs x.arrs (x.listArrs m.basin m.slot) m.target }, ?_, rfl, rfl, rfl, fun h a held => ?_⟩
    · rw [wrote.rest, sealed, ← i]
      exact vindex
    · refine ⟨_, (find?_movedArrs _ _ _ _).trans (congrArg _ held), rfl, rfl, ?_⟩
      rw [l]

theorem migrationCopyDone_abandons (idx : Fin 32) (slot : Nat) (s : State) (m : Migration) (x : Index) (none : s.hbm.wishes = [])
    (found : s.hbm.migs.find? (fun m => m.idx == idx.val && m.slot == slot) = some m) (there : s.index? idx = some x) :
    Completes (.migrationCopyDone idx slot false) s (fun t => t = { s with hbm := t.hbm, regs := t.regs } ∧
      t.hbm = { s.hbm with migs := s.hbm.migs.filter (fun g => !(g == m)) } ∧ OnlyRegs s t [Reg.SPOUT_CNT_MIGRATE]) := by
  have abandoned : s.abandonMigs (· == m) = { s with
      hbm := { s.hbm with migs := s.hbm.migs.filter (fun g => !(g == m)) }, regs := (s.abandonMigs (· == m)).regs } ∧
      OnlyRegs s (s.abandonMigs (· == m)) [Reg.SPOUT_CNT_MIGRATE] := by
    unfold State.abandonMigs
    extract_lets n _ s1
    have only : OnlyRegs s s1 [Reg.SPOUT_CNT_MIGRATE] := .of_regs rfl
    split
    · exact ⟨rfl, only⟩
    · exact ⟨rfl, only.trans (.bumpSat _ _ _ _ List.mem_cons_self)⟩
  obtain ⟨rest, only⟩ := abandoned
  have ran := exec_migrationCopyDone (same := false) found there
  rw [if_neg Bool.false_ne_true] at ran
  generalize s.abandonMigs (· == m) = v at *
  have hbm : v.hbm = { s.hbm with migs := s.hbm.migs.filter (fun g => !(g == m)) } := by rw [rest]
  have pumped : v.pumpMigs = v := State.pumpMigs_of_none (by rw [hbm]; exact none)
  refine ⟨v, by rw [ran, pumped], ?_, hbm, only⟩
  rw [rest]

end Sys2Proof.Machine

section Settled
open Sys2Proof Sys2Proof.Machine

/-- Settles O46: the steps of an interval only add migrations with free places, and a copy that ends switches its list or drops it. -/
theorem listsMigrate : Obligations.ListsMigrate :=
  ⟨migrationInterval_starts, migrationCopyDone_switches, migrationCopyDone_abandons⟩

end Settled
end

section
/-! SUPPORT. Firmware bundles and authenticated commands (R512 to R540), for O60. -/

set_option Elab.async false

namespace Sys2Proof.Machine
variable {s t u : State}

/-- An event that is not critical changes the log alone. -/
theorem State.logEvent_form (s : State) (c n : Nat) {sev : Nat} (h : sev ≠ sevCritical) : ∃ q l b,
    s.logEvent c n sev = { s with keeper := { s.keeper with nextSeq := q, log := l, buffered := b } } := by
  unfold State.logEvent State.logRaw
  rw [if_neg h]
  split
  · exact ⟨_, _, _, rfl⟩
  · exact ⟨_, _, _, rfl⟩

/-! ### Chunks -/

/-- Bytes put at consecutive keys stand there, and nothing else changes. -/
theorem find?_foldl_insert (off : Nat) (bs : List Byte) (m : Store Byte) (a : Nat) :
    Store.find? ((List.zip (List.range bs.length) bs).foldl (fun m p => Store.insert m (off + p.1) p.2) m) a =
      if off ≤ a ∧ a < off + bs.length then bs[a - off]? else Store.find? m a := by
  induction bs using List.reverseRecOn with
  | nil => rw [if_neg (by simp)]; rfl
  | append_singleton bs b ih =>
    have zipped : List.zip (List.range (bs ++ [b]).length) (bs ++ [b]) = List.zip (List.range bs.length) bs ++ [(bs.length, b)] := by
      rw [List.length_append, List.length_singleton, List.range_succ, List.zip_append (by simp)]
      rfl
    rw [zipped, List.foldl_append, List.foldl_cons, List.foldl_nil, List.length_append, List.length_singleton]
    by_cases here : a = off + bs.length
    · subst here
      rw [Store.find?_insert_same, if_pos (by omega), Nat.add_sub_cancel_left, List.getElem?_concat_length]
    · rw [Store.find?_insert_other _ _ _ _ here, ih]
      by_cases inside : off ≤ a ∧ a < off + bs.length
      · rw [if_pos inside, if_pos (by omega), List.getElem?_append_left (by omega)]
      · rw [if_neg inside, if_neg (by omega)]

theorem bundleChunk_taken (off : U32) (bs : List Byte) (s : State) (up : s.smbusUp = true) :
    (bs.length = 0 ∨ 240 < bs.length → Completes (.bundleChunk off bs) s (fun t => t = { s with out := s.out ++ [.nack] })) ∧
    (1 ≤ bs.length → bs.length ≤ 240 → Completes (.bundleChunk off bs) s (fun t => t = { s with keeper := t.keeper } ∧
      t.keeper = { s.keeper with chunks := t.keeper.chunks } ∧
      (∀ i, i < bs.length → Store.find? t.keeper.chunks (off.toNat + i) = bs[i]?) ∧
      (∀ a, (a < off.toNat ∨ off.toNat + bs.length ≤ a) →
        Store.find? t.keeper.chunks a = Store.find? s.keeper.chunks a))) := by
  have awake : ¬ (!s.smbusUp) = true := by simp [up]
  refine ⟨fun bad => ⟨_, (if_neg awake).trans (if_pos bad), rfl⟩, fun lower upper =>
    ⟨_, (if_neg awake).trans (if_neg (by omega)), rfl, rfl, fun i hi => ?_, fun a outside => ?_⟩⟩
  · exact (find?_foldl_insert _ _ _ _).trans ((if_pos (by omega)).trans (by rw [Nat.add_sub_cancel_left]))
  · exact (find?_foldl_insert _ _ _ _).trans (if_neg (by omega))

/-! ### Bundles -/

/-- What staging a bundle answers. -/
def State.stageErr (s : State) (b : Option Bundle) (written : Bool) : Nat :=
  match b with
  | none => 0x10
  | some x => if s.verifyBundle x ≠ 0 then s.verifyBundle x else if written then 0 else 0x16

theorem State.stageErr_some (s : State) (b : Bundle) : s.stageErr (some b) true = s.verifyBundle b := by
  unfold State.stageErr
  dsimp only
  split
  · rfl
  next h => exact (not_not.mp h).symm

/-- Staging a bundle sets the state of the firmware update; the staged bundle goes only where the write failed. -/
theorem State.stageBundle_form (s : State) (b : Option Bundle) (written : Bool) : ∃ q l u,
    s.stageBundle b written = (s.stageErr b written, { s with keeper :=
      { (if s.stageErr b written = 0 then { s.keeper with fwState := 4, staged := b }
          else { s.keeper with
            fwState := 6
            fwErr := s.stageErr b written
            staged := if s.stageErr b written = 0x16 then none else s.keeper.staged } : Keeper) with
        nextSeq := q
        log := l
        buffered := u } }) := by
  have sev : (if s.stageErr b written = 0 then sevInfo else sevError) ≠ sevCritical := by split <;> decide
  obtain ⟨q, l, u, logged⟩ := (s.withKeeper (if s.stageErr b written = 0 then { s.keeper with fwState := 4, staged := b }
          else { s.keeper with
            fwState := 6
            fwErr := s.stageErr b written
            staged := if s.stageErr b written = 0x16 then none else s.keeper.staged } : Keeper)).logEvent_form 8 0 sev
  exact ⟨q, l, u, congrArg (Prod.mk _) logged⟩

/-- A verdict on a bundle is never that of a failed write. -/
theorem State.verifyBundle_ne (s : State) (b : Bundle) : s.verifyBundle b ≠ 0x16 := by
  unfold State.verifyBundle
  extract_lets len sect apart sectOk idx
  split_ifs <;> decide

theorem State.takeAsked_idle (idle : s.regF Reg.RST_CTRL 0 2 = 0) : s.takeAsked = s := by
  have half : field (s.reg Reg.RST_CTRL) 0 2 = 0 := idle
  have zero : s.regF Reg.RST_CTRL 0 1 ≠ 1 := by
    show field (s.reg Reg.RST_CTRL) 0 1 ≠ 1
    unfold field bitsOf at *
    simp only [Nat.shiftRight_eq_div_pow] at *
    omega
  have one : s.regF Reg.RST_CTRL 1 1 ≠ 1 := by
    show field (s.reg Reg.RST_CTRL) 1 1 ≠ 1
    unfold field bitsOf at *
    simp only [Nat.shiftRight_eq_div_pow] at *
    omega
  unfold State.takeAsked
  rw [List.foldl_cons, if_neg zero, List.foldl_cons, if_neg one, List.foldl_nil]

theorem State.takeAsked_withKeeper (idle : s.regF Reg.RST_CTRL 0 2 = 0) (k : Keeper) : (s.withKeeper k).takeAsked = s.withKeeper k :=
  State.takeAsked_idle idle

theorem bundleEnd_boots {len : U32} {b : Bundle} (bytes : chunkBytes s.keeper.chunks len.toNat = some b) (size : len.toNat ≤ 33550336)
    (waits : s.keeper.waitSmbus = true) (idle : s.regF Reg.RST_CTRL 0 2 = 0) :
    Completes (.bundleEnd len true) s (fun t => t.keeper.chunks = [] ∧ t.out = s.out ++ [.smbus (leBytes 1 (s.verifyBundle b))] ∧
      (s.verifyBundle b = 0 → t.keeper.booted = some b ∧ t.keeper.running = true ∧ t.keeper.waitSmbus = false) ∧
      (s.verifyBundle b ≠ 0 → t.keeper.booted = s.keeper.booted ∧ t.keeper.waitSmbus = true)) := by
  have awake : ¬ (!s.smbusUp) = true := by simp [State.smbusUp, waits]
  have ran : exec (.bundleEnd len true) s = .next ((if s.verifyBundle b = 0 then
      (s.withKeeper { s.keeper with
        chunks := []
        booted := some b
        bootedB := false
        waitSmbus := false
        running := true }).takeAsked
      else s.withKeeper { s.keeper with chunks := [] }).emit (.smbus (leBytes 1 (s.verifyBundle b)))) := by
    show execBundleEnd len true s = _
    unfold execBundleEnd
    rw [if_pos size, bytes]
    exact (if_neg awake).trans (if_pos waits)
  by_cases good : s.verifyBundle b = 0
  · rw [if_pos good, State.takeAsked_withKeeper idle] at ran
    exact ⟨_, ran, rfl, rfl, fun _ => ⟨rfl, rfl, rfl⟩, fun bad => absurd good bad⟩
  · rw [if_neg good] at ran
    exact ⟨_, ran, rfl, rfl, fun h => absurd h good, fun _ => ⟨rfl, waits⟩⟩

/-- A whole bundle that reaches the flash is staged where it verifies. -/
theorem State.stageBundle_verified {b : Bundle} {e : Nat} (staged : s.stageBundle (some b) true = (e, t)) :
    e = s.verifyBundle b ∧ t = { s with keeper := t.keeper } ∧ t.keeper.chunks = s.keeper.chunks ∧ t.keeper.booted = s.keeper.booted ∧
      (s.verifyBundle b = 0 → t.keeper.staged = some b ∧ t.keeper.fwState = 4) ∧
      (s.verifyBundle b ≠ 0 → t.keeper.staged = s.keeper.staged ∧ t.keeper.fwState = 6 ∧ t.keeper.fwErr = s.verifyBundle b) := by
  obtain ⟨q, l, u, form⟩ := s.stageBundle_form (some b) true
  rw [State.stageErr_some, if_neg (s.verifyBundle_ne b)] at form
  obtain ⟨rfl, rfl⟩ := Prod.mk.inj (staged.symm.trans form)
  refine ⟨rfl, rfl, ?_, ?_, fun good => ?_, fun bad => ?_⟩
  · split <;> rfl
  · split <;> rfl
  · rw [if_pos good]
    exact ⟨rfl, rfl⟩
  · rw [if_neg bad]
    exact ⟨rfl, rfl, rfl⟩

theorem bundleEnd_stages {len : U32} {b : Bundle} (bytes : chunkBytes s.keeper.chunks len.toNat = some b) (size : len.toNat ≤ 33550336)
    (served : s.keeper.waitSmbus = false) (runs : s.keeper.running = true) :
    Completes (.bundleEnd len true) s (fun t => t.keeper.chunks = [] ∧
      t.out = s.out ++ [.smbus (leBytes 1 (s.verifyBundle b))] ∧ t.keeper.booted = s.keeper.booted ∧
      (s.verifyBundle b = 0 → t.keeper.staged = some b ∧ t.keeper.fwState = 4) ∧
      (s.verifyBundle b ≠ 0 → t.keeper.staged = s.keeper.staged ∧ t.keeper.fwState = 6 ∧
        t.keeper.fwErr = s.verifyBundle b)) := by
  have awake : ¬ (!s.smbusUp) = true := by simp [State.smbusUp, runs]
  obtain ⟨err, s1, staged⟩ : ∃ err s1, (s.withKeeper { s.keeper with chunks := [] }).stageBundle (some b) true = (err, s1) := ⟨_, _, rfl⟩
  have ran : exec (.bundleEnd len true) s = .next (s1.emit (.smbus (leBytes 1 err))) := by
    show execBundleEnd len true s = _
    unfold execBundleEnd
    rw [if_pos size, bytes]
    refine (if_neg awake).trans ((if_neg (by simp [served])).trans ?_)
    rw [staged]
  obtain ⟨verdict, rest, chunks, booted, good, bad⟩ := State.stageBundle_verified staged
  refine ⟨_, ran, chunks, ?_, booted, good, bad⟩
  show s1.out ++ [.smbus (leBytes 1 err)] = _
  rw [verdict, rest]
  rfl

theorem bundleEnd_missing (len : U32) (written : Bool) (s : State) (waits : s.keeper.waitSmbus = true)
    (bad : 33550336 < len.toNat ∨ chunkBytes s.keeper.chunks len.toNat = none) :
    Completes (.bundleEnd len written) s (fun t =>
      t = { s with keeper := { s.keeper with chunks := [] }, out := s.out ++ [.smbus [0x10]] }) := by
  have awake : ¬ (!s.smbusUp) = true := by simp [State.smbusUp, waits]
  have missing : (if len.toNat ≤ 33550336 then chunkBytes s.keeper.chunks len.toNat else none) = none := by
    obtain long | gaps := bad
    · exact if_neg (by omega)
    · rw [gaps, ite_self]
  refine ⟨_, ?_, rfl⟩
  show execBundleEnd len written s = _
  unfold execBundleEnd
  rw [missing]
  exact (if_neg awake).trans (if_pos waits)

theorem exec_fwStageDone (b : Option (List Byte)) (written : Bool) (lower : 1 ≤ s.keeper.fwState) (upper : s.keeper.fwState ≤ 3) :
    exec (.fwStageDone b written) s = .next (s.stageBundle b written).2 := if_pos (by omega)

theorem fwStageDone_stages (b : Bundle) (s : State) (lower : 1 ≤ s.keeper.fwState) (upper : s.keeper.fwState ≤ 3) :
    Completes (.fwStageDone (some b) true) s (fun t =>
      (s.verifyBundle b = 0 → t.keeper.staged = some b ∧ t.keeper.fwState = 4) ∧
      (s.verifyBundle b ≠ 0 → t.keeper.staged = s.keeper.staged ∧ t.keeper.fwState = 6 ∧
        t.keeper.fwErr = s.verifyBundle b)) ∧
    Completes (.fwStageDone none true) s (fun t => t.keeper.staged = s.keeper.staged ∧ t.keeper.fwState = 6 ∧
      t.keeper.fwErr = 0x10) := by
  constructor
  · obtain ⟨-, -, -, -, outcome⟩ := State.stageBundle_verified (s := s) (b := b) (Prod.mk.eta (p := s.stageBundle (some b) true)).symm
    exact ⟨_, exec_fwStageDone _ _ lower upper, outcome⟩
  · obtain ⟨q, l, u, form⟩ := s.stageBundle_form none true
    refine ⟨_, exec_fwStageDone _ _ lower upper, ?_⟩
    rw [form]
    exact ⟨rfl, rfl, rfl⟩

/-! ### Authenticated commands -/

theorem State.authCmd_nack {cmd : Nat} {sig : List Byte} {act : State → Option State} (up : s.smbusUp = true) (short : sig.length ≠ 96) :
    s.authCmd cmd sig act = { s with out := s.out ++ [.nack] } :=
  (if_neg (by simp [up])).trans (if_pos short)

/-- A refused command logs, answers 1 and spends the nonce where the refusal is the action's own. -/
theorem State.authCmd_refused {cmd : Nat} {sig : List Byte} {act : State → Option State} (up : s.smbusUp = true)
    (long : sig.length = 96) (invalid : ∀ n, s.keeper.nonce = some n → Config.authValid n cmd sig = false) : ∃ q l b,
    s.authCmd cmd sig act = { s with
      out := s.out ++ [.smbus [1]]
      keeper := { s.keeper with nextSeq := q, log := l, buffered := b } } := by
  obtain ⟨q, l, b, logged⟩ := s.logEvent_form 8 1 (sev := sevError) (by decide)
  refine ⟨q, l, b, (if_neg (by simp [up])).trans ((if_neg (not_not.mpr long)).trans ?_)⟩
  split
  next => exact congrArg (State.emit · (.smbus [1])) logged
  next n nonce =>
    exact (if_pos (by simp [invalid n nonce])).trans (congrArg (State.emit · (.smbus [1])) logged)

theorem State.authCmd_valid {cmd n : Nat} {sig : List Byte} {act : State → Option State} (up : s.smbusUp = true) (long : sig.length = 96)
    (nonce : s.keeper.nonce = some n) (valid : Config.authValid n cmd sig = true) :
    s.authCmd cmd sig act = match act (s.withKeeper { s.keeper with nonce := none }) with
      | some t => t.emit (.smbus [0])
      | none => ((s.withKeeper { s.keeper with nonce := none }).logEvent 8 1 sevError).emit (.smbus [1]) := by
  refine (if_neg (by simp [up])).trans ((if_neg (not_not.mpr long)).trans ?_)
  rw [nonce]
  exact if_neg (by simp [valid])

theorem authCmds_refused (i : Instr) (sig : List Byte) (s : State) (up : s.smbusUp = true)
    (bad : s.keeper.nonce = none ∨ sig.length ≠ 96)
    (hi : i ∈ [.authOpenDebug sig, .authBlowPwrokLevel sig, .authBlowResetnLevel sig, .authRaiseSvn sig]) :
    (sig.length ≠ 96 → Completes i s (fun t => t = { s with out := s.out ++ [.nack] })) ∧
    (sig.length = 96 → Completes i s (fun t => t = { s with keeper := t.keeper, out := s.out ++ [.smbus [1]] } ∧ t.keeper.nonce = none ∧
      t.keeper.debug = s.keeper.debug ∧ t.keeper.svnFused = s.keeper.svnFused)) := by
  obtain ⟨cmd, act, ran⟩ : ∃ cmd act, exec i s = .next (s.authCmd cmd sig act) := by
    simp only [List.mem_cons, List.not_mem_nil, or_false] at hi
    obtain rfl | rfl | rfl | rfl := hi
    · exact ⟨_, _, rfl⟩
    · exact ⟨_, _, rfl⟩
    · exact ⟨_, _, rfl⟩
    · exact ⟨_, _, rfl⟩
  refine ⟨fun short => ⟨_, ran, State.authCmd_nack up short⟩, fun long => ?_⟩
  have spent : s.keeper.nonce = none := bad.resolve_right (not_not.mpr long)
  obtain ⟨q, l, b, refused⟩ := State.authCmd_refused (cmd := cmd) (act := act) up long (by simp [spent])
  rw [refused] at ran
  exact ⟨_, ran, rfl, spent, rfl, rfl⟩

theorem authOpenDebug_opens {sig : List Byte} {n : Nat} (up : s.smbusUp = true) (long : sig.length = 96)
    (nonce : s.keeper.nonce = some n) : Completes (.authOpenDebug sig) s (fun t =>
      (Config.authValid n 1 sig = true → 8 ≤ s.rst.strap → t.keeper.debug = true ∧ t.out = s.out ++ [.smbus [0]] ∧
        t.keeper.nonce = none) ∧
      (Config.authValid n 1 sig = true → s.rst.strap < 8 → t.keeper.debug = s.keeper.debug ∧
        t.out = s.out ++ [.smbus [1]] ∧ t.keeper.nonce = none) ∧
      (Config.authValid n 1 sig = false → t.keeper.debug = s.keeper.debug ∧ t.out = s.out ++ [.smbus [1]])) := by
  refine ⟨_, rfl, fun valid strap => ?_, fun valid strap => ?_, fun invalid => ?_⟩
  · rw [State.authCmd_valid up long nonce valid, if_pos (show 8 ≤ (s.withKeeper { s.keeper with nonce := none }).rst.strap from strap)]
    exact ⟨rfl, rfl, rfl⟩
  · obtain ⟨q, l, b, logged⟩ := (s.withKeeper { s.keeper with nonce := none }).logEvent_form 8 1 (sev := sevError) (by decide)
    rw [State.authCmd_valid up long nonce valid, if_neg (show ¬ 8 ≤ (s.withKeeper { s.keeper with nonce := none }).rst.strap from not_le.mpr strap), logged]
    exact ⟨rfl, rfl, rfl⟩
  · obtain ⟨q, l, b, refused⟩ := State.authCmd_refused (cmd := 1) up long fun m h => by
      obtain rfl := Option.some.inj (nonce.symm.trans h)
      exact invalid
    rw [refused]
    exact ⟨rfl, rfl⟩

theorem authBlowPwrokLevel_blows {sig : List Byte} {n : Nat} (up : s.smbusUp = true) (long : sig.length = 96)
    (nonce : s.keeper.nonce = some n) : Completes (.authBlowPwrokLevel sig) s (fun t =>
      (Config.authValid n 2 sig = true → t.rst.pwrokBlown = true ∧ t.out = s.out ++ [.smbus [0]] ∧ t.keeper.nonce = none ∧
        t.rst.pwrokLevel = (if s.rst.pwrokBlown then s.rst.pwrokLevel else s.rst.pwrokLevel.other)) ∧
      (Config.authValid n 2 sig = false → t.rst = s.rst ∧ t.out = s.out ++ [.smbus [1]])) := by
  refine ⟨_, rfl, fun valid => ?_, fun invalid => ?_⟩
  · rw [State.authCmd_valid up long nonce valid]
    by_cases blown : s.rst.pwrokBlown = true
    · rw [if_pos (show (s.withKeeper { s.keeper with nonce := none }).rst.pwrokBlown = true from blown), if_pos blown]
      exact ⟨blown, rfl, rfl, rfl⟩
    · rw [if_neg (show ¬ (s.withKeeper { s.keeper with nonce := none }).rst.pwrokBlown = true from blown), if_neg blown]
      exact ⟨rfl, rfl, rfl, rfl⟩
  · obtain ⟨q, l, b, refused⟩ := State.authCmd_refused (cmd := 2) up long fun m h => by
      obtain rfl := Option.some.inj (nonce.symm.trans h)
      exact invalid
    rw [refused]
    exact ⟨rfl, rfl⟩

theorem authBlowResetnLevel_blows {sig : List Byte} {n : Nat} (up : s.smbusUp = true) (long : sig.length = 96)
    (nonce : s.keeper.nonce = some n) : Completes (.authBlowResetnLevel sig) s (fun t =>
      (Config.authValid n 3 sig = true → t.rst.resetnBlown = true ∧ t.out = s.out ++ [.smbus [0]] ∧ t.keeper.nonce = none ∧
        t.rst.resetnLevel = (if s.rst.resetnBlown then s.rst.resetnLevel else s.rst.resetnLevel.other)) ∧
      (Config.authValid n 3 sig = false → t.rst = s.rst ∧ t.out = s.out ++ [.smbus [1]])) := by
  refine ⟨_, rfl, fun valid => ?_, fun invalid => ?_⟩
  · rw [State.authCmd_valid up long nonce valid]
    by_cases blown : s.rst.resetnBlown = true
    · rw [if_pos (show (s.withKeeper { s.keeper with nonce := none }).rst.resetnBlown = true from blown), if_pos blown]
      exact ⟨blown, rfl, rfl, rfl⟩
    · rw [if_neg (show ¬ (s.withKeeper { s.keeper with nonce := none }).rst.resetnBlown = true from blown), if_neg blown]
      exact ⟨rfl, rfl, rfl, rfl⟩
  · obtain ⟨q, l, b, refused⟩ := State.authCmd_refused (cmd := 3) up long fun m h => by
      obtain rfl := Option.some.inj (nonce.symm.trans h)
      exact invalid
    rw [refused]
    exact ⟨rfl, rfl⟩

theorem authRaiseSvn_raises {sig : List Byte} {n : Nat} (up : s.smbusUp = true) (long : sig.length = 96)
    (nonce : s.keeper.nonce = some n) : Completes (.authRaiseSvn sig) s (fun t =>
      (Config.authValid n 4 sig = true → t.keeper.svnFused = max s.keeper.svnFused (min 64 s.activeSvn) ∧
        t.out = s.out ++ [.smbus [0]] ∧ t.keeper.nonce = none) ∧
      (Config.authValid n 4 sig = false → t.keeper.svnFused = s.keeper.svnFused ∧ t.out = s.out ++ [.smbus [1]])) := by
  refine ⟨_, rfl, fun valid => ?_, fun invalid => ?_⟩
  · rw [State.authCmd_valid up long nonce valid]
    unfold State.raiseSvn
    obtain ⟨q, l, b, logged⟩ := State.logEvent_form ((s.withKeeper { s.keeper with nonce := none }).withKeeper
      { (s.withKeeper { s.keeper with nonce := none }).keeper with
        svnFused := max (s.withKeeper { s.keeper with nonce := none }).keeper.svnFused
          (min 64 (s.withKeeper { s.keeper with nonce := none }).activeSvn) }) 8 2 (sev := sevInfo) (by decide)
    rw [logged]
    exact ⟨rfl, rfl, rfl⟩
  · obtain ⟨q, l, b, refused⟩ := State.authCmd_refused (cmd := 4) up long fun m h => by
      obtain rfl := Option.some.inj (nonce.symm.trans h)
      exact invalid
    rw [refused]
    exact ⟨rfl, rfl⟩

end Sys2Proof.Machine

section Settled
open Sys2Proof Sys2Proof.Machine

/-- Settles O60: chunks are stored, a bundle is booted or staged where it verifies, and a nonce serves one command. -/
theorem firmwareAuthorised : Obligations.FirmwareAuthorised := by
  refine ⟨bundleChunk_taken, fun len b s bytes size => ⟨bundleEnd_boots bytes size, bundleEnd_stages bytes size⟩,
    bundleEnd_missing, fwStageDone_stages, fun s up => ?_, authCmds_refused, fun sig n s up long nonce =>
      ⟨authOpenDebug_opens up long nonce, authBlowPwrokLevel_blows up long nonce, authBlowResetnLevel_blows up long nonce,
        authRaiseSvn_raises up long nonce⟩⟩
  exact ⟨_, if_neg (by simp [up]), _, rfl⟩

end Settled
end

section
/-! SUPPORT. What the Cistern's shared operations leave unchanged: codewords that go to a stream, commands on a LUN. -/

set_option Elab.async false

namespace Sys2Proof.Machine
variable {s t u : State} {c d e : Cistern}

/-- The Cistern and the registers `ks` apart, the node stands. -/
structure State.CistOnly (s t : State) (ks : List Nat) : Prop where
  rest : t = { s with cist := t.cist, regs := t.regs }
  only : OnlyRegs s t ks

theorem State.CistOnly.withCist (s : State) (c : Cistern) (ks : List Nat) : s.CistOnly (s.withCist c) ks := ⟨rfl, .of_regs rfl⟩

theorem State.CistOnly.setLun (s : State) (k : Nat) (l : Lun) (ks : List Nat) : s.CistOnly (s.setLun k l) ks := ⟨rfl, .of_regs rfl⟩

theorem State.CistOnly.refl (s : State) (ks : List Nat) : s.CistOnly s ks := ⟨rfl, .refl _ _⟩

theorem State.CistOnly.trans {ks : List Nat} (a : s.CistOnly t ks) (b : t.CistOnly u ks) : s.CistOnly u ks where
  rest := by rw [b.rest, a.rest]
  only := a.only.trans b.only

theorem State.CistOnly.of_wrote {ks : List Nat} (a : s.Wrote t ks) : s.CistOnly t ks where
  rest := by
    have same : t.cist = s.cist := by rw [a.rest]
    rw [same]
    exact a.rest
  only := a.only

theorem State.CistOnly.mono {ks js : List Nat} (a : s.CistOnly t ks) (h : ∀ k ∈ ks, k ∈ js) : s.CistOnly t js := ⟨a.rest, a.only.mono h⟩

theorem State.lun_congr (h : t.cist.luns = s.cist.luns) (k : Nat) : t.lun k = s.lun k := by
  unfold State.lun
  rw [h]

/-! ### Writes to a stream (R384, R385) -/

/-- Codewords have gone to streams: rows, waiting words and open groups differ, and no group that stood has other members. -/
structure Cistern.Written (c d : Cistern) : Prop where
  rest : d = { c with rows := d.rows, waiting := d.waiting, groups := d.groups, nextGroup := d.nextGroup }
  next : c.nextGroup ≤ d.nextGroup
  group : ∀ k, k < c.nextGroup → ∃ r o, Store.find? d.groups k = (Store.find? c.groups k).map fun g => { g with rows := r, isOpen := o }

theorem Cistern.Written.of_groups (rest : d = { c with rows := d.rows, waiting := d.waiting, groups := d.groups, nextGroup := d.nextGroup })
    (groups : d.groups = c.groups) (next : d.nextGroup = c.nextGroup) : c.Written d := by
  refine ⟨rest, next.ge, fun k _ => ?_⟩
  rw [groups]
  cases Store.find? c.groups k with
  | none => exact ⟨0, false, rfl⟩
  | some g => exact ⟨g.rows, g.isOpen, rfl⟩

theorem Cistern.Written.refl (c : Cistern) : c.Written c := .of_groups rfl rfl rfl

theorem Cistern.Written.trans (a : c.Written d) (b : d.Written e) : c.Written e := by
  refine ⟨by rw [b.rest, a.rest], a.next.trans b.next, fun k below => ?_⟩
  obtain ⟨r, o, first⟩ := a.group k below
  obtain ⟨r', o', second⟩ := b.group k (below.trans_le a.next)
  refine ⟨r', o', ?_⟩
  rw [second, first, Option.map_map]
  rfl

theorem Cistern.Written.foldl {α : Type} {f : Cistern → α → Cistern} (l : List α) (a : c.Written d)
    (each : ∀ (d : Cistern) x, x ∈ l → d.Written (f d x)) : c.Written (l.foldl f d) :=
  List.foldlRecOn (motive := (c.Written ·)) l f a fun d h x hx => h.trans (each d x hx)

/-- The group that stands under a number keeps its members when it takes a row. -/
theorem Cistern.Written.insert {k : Nat} {g : Group} (held : Store.find? c.groups k = some g) (rows : List SRow) (r : Nat) (o : Bool) :
    c.Written { c with groups := Store.insert c.groups k { g with rows := r, isOpen := o }, rows := rows } := by
  refine ⟨rfl, le_rfl, fun j _ => ?_⟩
  by_cases here : j = k
  · subst here
    exact ⟨r, o, (Store.find?_insert_same _ _ _).trans (by rw [held]; rfl)⟩
  · dsimp only
    rw [Store.find?_insert_other _ _ _ _ here]
    cases Store.find? c.groups j with
    | none => exact ⟨0, false, rfl⟩
    | some g => exact ⟨g.rows, g.isOpen, rfl⟩

theorem Cistern.openGroup_written {stream k : Nat} (h : c.openGroup stream = some (k, d)) : c.Written d := by
  unfold Cistern.openGroup at h
  extract_lets order chosen sorted mem at h
  split at h
  · cases h
  · obtain ⟨rfl, rfl⟩ := Prod.mk.inj (Option.some.inj h)
    refine ⟨rfl, Nat.le_succ _, fun j below => ?_⟩
    dsimp only
    rw [Store.find?_insert_other _ _ _ _ below.ne]
    cases Store.find? c.groups j with
    | none => exact ⟨0, false, rfl⟩
    | some g => exact ⟨g.rows, g.isOpen, rfl⟩

theorem Cistern.write_written (c : Cistern) (now : Time) (stream : Nat) (w : Cword) : c.Written (c.write now stream w) := by
  have rows (c : Cistern) (f : SRow → SRow) : c.Written { c with rows := c.rows.map f } := .of_groups rfl rfl rfl
  unfold Cistern.write
  extract_lets addTo isOpen grp
  split
  next r _ =>
    split
    · exact rows c _
    · exact .refl c
  next =>
    have opened (k : Nat) (c1 : Cistern) (found : grp = some (k, c1)) : c.Written c1 := by
      unfold grp at found
      split at found
      · obtain ⟨-, rfl⟩ := Prod.mk.inj (Option.some.inj found)
        exact .refl c
      · exact Cistern.openGroup_written found
    clear_value grp
    split
    · exact .of_groups rfl rfl rfl
    next k c1 =>
      split
      · exact .refl c
      next g held => exact (opened k c1 rfl).trans ((Cistern.Written.insert held _ _ _).trans (rows _ _))

theorem Cistern.retryWaiting_written (c : Cistern) (now : Time) : c.Written (c.retryWaiting now) :=
  .foldl _ (.of_groups rfl rfl rfl) fun d _ _ => d.write_written _ _ _

/-! ### Accesses to one LUN -/

/-- One LUN has been told something on its bus: its state and the bus apart, the node stands. -/
structure State.LunTold (s t : State) (k : Nat) : Prop where
  rest : t = { s with cist := t.cist, out := t.out }
  cist : t.cist = { s.cist with luns := t.cist.luns }
  others : ∀ j, j ≠ k → t.lun j = s.lun j

theorem State.LunTold.refl (s : State) (k : Nat) : s.LunTold s k := ⟨rfl, rfl, fun _ _ => rfl⟩

theorem State.LunTold.setLun (s : State) (k : Nat) (l : Lun) : s.LunTold (s.setLun k l) k := ⟨rfl, rfl, fun j d => s.lun_setLun_other k j l d⟩

end Sys2Proof.Machine
end

section
/-! SUPPORT. Commands of the NAND arrays that end, and suspended ones (R379 to R394), for O50. -/

set_option Elab.async false

namespace Sys2Proof.Machine
variable {s t u : State}

/-! ### The command that ends -/

/-- Is a command a read? -/
def isRead : NandCmd → Bool
  | .read _ _ => true
  | _ => false

/-- The node with the command of a unit off the LUN `k`: the grant is gone, and a time-out ends. -/
def State.commandEnded (s : State) (k : Nat) (unit : NandUnit) : State :=
  let s0 := (s.ungrant (· == unit)).setLun k { s.lun k with timedOut := false }
  if (s.lun k).timedOut then s0.bumpSat Reg.RST_CNT_FAULTS 0 32 1 else s0

/-- A command that cannot end: the pins are held, the LUN does not answer, an injection holds it, a program or erase is
suspended, or the unit has not started. -/
def State.commandStays (s : State) (ch lun : Fin 32) (cmd : NandCmd) : Prop :=
  s.nandHeld ∨ (s.lun (lunKey ch lun)).state ≠ 1 ∨ bit (s.reg (instKey Reg.CIST_INJECT (lunKey ch lun))) 2 ∨
    (isRead cmd = false ∧ (s.lun (lunKey ch lun)).ahead ≠ []) ∨ s.cist.granted.contains (unitOf ch lun cmd) = false

/-- A LUN whose suspensions are forgotten. -/
def State.resume (s : State) (k : Nat) : State := s.setLun k { s.lun k with suspends := 0 }

theorem nandCommandDone_stays {ch lun : Fin 32} {cmd : NandCmd} (stays : s.commandStays ch lun cmd) :
    exec (.nandCommandDone ch lun cmd) s = .next s := by
  unfold State.commandStays at stays
  cases cmd <;> exact if_pos stays

theorem exec_nandRead {ch lun : Fin 32} {ppa : Nat} {res : Decode} (goes : ¬ s.commandStays ch lun (.read ppa res)) :
    exec (.nandCommandDone ch lun (.read ppa res)) s = .next
      ((((s.commandEnded (lunKey ch lun) (.read ppa)).readIssued ch lun ppa).countRead ppa).classifyRead ppa res) := by
  unfold State.commandStays at goes
  exact if_neg goes

theorem exec_nandProgram {ch lun : Fin 32} {g row mem : Nat} (goes : ¬ s.commandStays ch lun (.program g row mem)) :
    exec (.nandCommandDone ch lun (.program g row mem)) s = .next
      (((s.commandEnded (lunKey ch lun) (.program g row mem)).resume (lunKey ch lun)).programDone g row mem) := by
  unfold State.commandStays at goes
  exact if_neg goes

theorem exec_nandErase {ch lun : Fin 32} {b : Nat} (goes : ¬ s.commandStays ch lun (.erase b)) :
    exec (.nandCommandDone ch lun (.erase b)) s = .next
      (((s.commandEnded (lunKey ch lun) (.erase ch lun b)).resume (lunKey ch lun)).eraseDone ch lun b) := by
  unfold State.commandStays at goes
  exact if_neg goes

/-- What ending a command leaves. -/
structure State.CommandEnded (s t : State) (k : Nat) (unit : NandUnit) : Prop where
  kept : s.CistOnly t [Reg.RST_CNT_FAULTS]
  cist : t.cist = { s.cist with luns := t.cist.luns, granted := s.cist.granted.filter (fun u => !(u == unit)) }
  faults : CountedSat s t Reg.RST_CNT_FAULTS 0 32 (if (s.lun k).timedOut then 1 else 0)
  lun : t.lun k = { s.lun k with timedOut := false }
  others : ∀ j, j ≠ k → t.lun j = s.lun j

theorem State.commandEnded_ended (s : State) (k : Nat) (unit : NandUnit) : s.CommandEnded (s.commandEnded k unit) k unit := by
  obtain ⟨t, step, kept, cist, regs, lun, others⟩ : ∃ t, t = (s.ungrant (· == unit)).setLun k { s.lun k with timedOut := false } ∧
      s.CistOnly t [Reg.RST_CNT_FAULTS] ∧
      t.cist = { s.cist with luns := t.cist.luns, granted := s.cist.granted.filter (fun u => !(u == unit)) } ∧
      t.regs = s.regs ∧ t.lun k = { s.lun k with timedOut := false } ∧ ∀ j, j ≠ k → t.lun j = s.lun j :=
    ⟨_, rfl, ⟨rfl, .of_regs rfl⟩, rfl, rfl, State.lun_setLun_same _ _ _,
      fun j d => State.lun_setLun_other (s := s.ungrant (· == unit)) k j _ d⟩
  unfold State.commandEnded
  extract_lets _ s0
  have here : s0 = t := step.symm
  rw [here]
  split
  next timed =>
    have wrote : t.Wrote (t.bumpSat Reg.RST_CNT_FAULTS 0 32 1) [Reg.RST_CNT_FAULTS] := .bumpSat List.mem_cons_self _ _ _
    have counted : CountedSat t (t.bumpSat Reg.RST_CNT_FAULTS 0 32 1) Reg.RST_CNT_FAULTS 0 32 1 := .of_bumpSat _ _ _ _ (by decide)
    generalize t.bumpSat Reg.RST_CNT_FAULTS 0 32 1 = v at *
    have same : v.cist = t.cist := by rw [wrote.rest]
    refine ⟨kept.trans (.of_wrote wrote), by rw [same]; exact cist, .after _ _ _ _ (State.regF_congr regs _ _ _) (by rw [if_pos timed]; exact counted),
      ?_, fun j d => ?_⟩
    · rw [State.lun_congr (congrArg Cistern.luns same), lun]
    · rw [State.lun_congr (congrArg Cistern.luns same), others j d]
  next timed =>
    refine ⟨kept, cist, ?_, lun, others⟩
    rw [if_neg timed]
    exact .before _ _ _ _ (.zero _ _ _ _) (State.regF_congr regs _ _ _)

theorem State.CommandEnded.not_granted {k : Nat} {unit : NandUnit} (a : s.CommandEnded t k unit) : unit ∉ t.cist.granted := by
  rw [a.cist]
  simp

/-! ### Reads -/

/-- A read that goes ahead of a suspended operation leaves the list, and the last of them resumes the operation. -/
theorem State.readIssued_told (s : State) (ch lun : Fin 32) (ppa : Nat) :
    s.LunTold (s.readIssued ch lun ppa) (lunKey ch lun) ∧
    (s.readIssued ch lun ppa).lun (lunKey ch lun) =
      { s.lun (lunKey ch lun) with ahead := (s.lun (lunKey ch lun)).ahead.filter (· != ppa) } ∧
    (s.readIssued ch lun ppa).out = s.out ++ (if (s.lun (lunKey ch lun)).ahead ≠ [] ∧ ∀ p ∈ (s.lun (lunKey ch lun)).ahead, p = ppa then
      [Out.nand ch lun .resume] else []) := by
  unfold State.readIssued
  extract_lets k l s1
  have lun : s1.lun k = { l with ahead := l.ahead.filter (· != ppa) } := State.lun_setLun_same _ _ _
  split
  next absent =>
    simp only [List.contains_eq_mem, Bool.not_eq_true', decide_eq_false_iff_not] at absent
    have all : l.ahead.filter (· != ppa) = l.ahead := List.filter_eq_self.mpr fun p hp => by
      simp only [bne_iff_ne]
      rintro rfl
      exact absent hp
    refine ⟨.refl _ _, by rw [all], ?_⟩
    rw [if_neg, List.append_nil]
    rintro ⟨some, each⟩
    obtain ⟨p, hp⟩ := List.exists_mem_of_ne_nil _ some
    exact absent (each p hp ▸ hp)
  next there =>
    simp only [List.contains_eq_mem, Bool.not_eq_true', decide_eq_false_iff_not, not_not] at there
    have told : s.LunTold s1 k := .setLun _ _ _
    have last : (s1.lun k).ahead.isEmpty = true ↔ ∀ p ∈ l.ahead, p = ppa := by
      rw [lun]
      simp [List.filter_eq_nil_iff]
    have nonempty : l.ahead ≠ [] := List.ne_nil_of_mem there
    split
    next empty => exact ⟨⟨rfl, rfl, told.others⟩, lun, by rw [if_pos ⟨nonempty, last.mp empty⟩]; rfl⟩
    next more => exact ⟨told, lun, by rw [if_neg fun h => more (last.mpr h.2), List.append_nil]; rfl⟩

/-- A read of a block set is counted. -/
def noteRead (l : Lun) (b : Nat) : Lun := { l with reads := Store.put (fun _ => 0) l.reads b (Store.get (fun _ => 0) l.reads b + 1) }

/-- A read below the rewrite limit counts on its block set. -/
theorem State.countRead_below {ppa k : Nat} (hk : k = lunKey (ppaSet ppa).1 (ppaSet ppa).2.1)
    (below : Store.get (fun _ => 0) (s.lun k).reads (ppaSet ppa).2.2 + 1 < s.regF Reg.CIST_CFG 8 16 * 1000) :
    s.CistOnly (s.countRead ppa) [Reg.CIST_CNT_READS] ∧ (s.countRead ppa).cist = { s.cist with luns := (s.countRead ppa).cist.luns } ∧
    Counted s (s.countRead ppa) Reg.CIST_CNT_READS 0 64 1 ∧
    (s.countRead ppa).lun k = noteRead (s.lun k) (ppaSet ppa).2.2 ∧ ∀ j, j ≠ k → (s.countRead ppa).lun j = s.lun j := by
  subst hk
  unfold State.countRead
  extract_lets b k l n s1
  rw [if_neg (not_le.mpr below)]
  obtain ⟨v, step, told, lun⟩ : ∃ v, v = s.setLun k (noteRead l b.2.2) ∧ s.LunTold v k ∧
      v.lun k = noteRead l b.2.2 := ⟨_, rfl, .setLun _ _ _, State.lun_setLun_same _ _ _⟩
  have regs : v.regs = s.regs := by rw [told.rest]
  have form : s1 = v.bump Reg.CIST_CNT_READS 0 64 1 := by rw [step]; rfl
  rw [form]
  have wrote : v.Wrote (v.bump Reg.CIST_CNT_READS 0 64 1) [Reg.CIST_CNT_READS] := .bump List.mem_cons_self _ _ _
  have counted : Counted v (v.bump Reg.CIST_CNT_READS 0 64 1) Reg.CIST_CNT_READS 0 64 1 := .of_bump _ _ _ _ (by decide)
  have kept : s.CistOnly v [Reg.CIST_CNT_READS] := by rw [step]; exact .setLun _ _ _ _
  generalize v.bump Reg.CIST_CNT_READS 0 64 1 = w at *
  have same : w.cist = v.cist := by rw [wrote.rest]
  have luns := congrArg Cistern.luns same
  refine ⟨kept.trans (.of_wrote wrote), ?_, .after _ _ _ _ (State.regF_congr regs _ _ _) counted, ?_, fun j d => ?_⟩
  · rw [same]
    exact told.cist
  · rw [State.lun_congr luns, lun]
  · rw [State.lun_congr luns, told.others j d]

/-- A hard decision below the threshold, with no injection, settles the read. -/
theorem State.classifyRead_good {ppa n : Nat} (value : bit (s.reg (injectOf ppa)) 0 = false) (high : bit (s.reg (injectOf ppa)) 1 = false)
    (low : n ≤ s.rwThreshold) (right : ∀ w, Store.find? s.cist.media ppa = some w → s.cist.misdirected (s.cist.lpnAt ppa) w = false) :
    s.classifyRead ppa (.hard n) = s.climb ppa 0 := by
  have checked : s.cist.checkRead ppa (.hard n) = .hard n := by
    unfold Cistern.checkRead
    rw [if_neg (by simp)]
    split
    next w found => exact if_neg (by simp [right w found])
    next => rfl
  unfold State.classifyRead
  simp only [value, high, Bool.false_and, Bool.false_eq_true, if_false, reduceCtorEq, false_and, or_self, checked]
  exact if_neg (not_lt.mpr low)

theorem nandRead_done (ch lun : Fin 32) (ppa n k : Nat) (s : State) (hk : k = lunKey ch lun) (free : s.nandHeld = false)
    (answers : (s.lun k).state = 1) (granted : s.cist.granted.contains (.read ppa) = true)
    (calm : ∀ b, b < 3 → bit (s.reg (instKey Reg.CIST_INJECT k)) b = false)
    (hch : (ppaSet ppa).1 = ch.val) (hlun : (ppaSet ppa).2.1 = lun.val)
    (below : Store.get (fun _ => 0) (s.lun k).reads (ppaSet ppa).2.2 + 1 < s.regF Reg.CIST_CFG 8 16 * 1000)
    (low : n ≤ s.rwThreshold)
    (right : ∀ w, Store.find? s.cist.media ppa = some w → s.cist.misdirected (s.cist.lpnAt ppa) w = false) :
    Completes (.nandCommandDone ch lun (.read ppa (.hard n))) s (fun t =>
      t = { s with cist := t.cist, regs := t.regs, out := t.out } ∧
      t.out = s.out ++ (if (s.lun k).ahead ≠ [] ∧ ∀ p ∈ (s.lun k).ahead, p = ppa then [Out.nand ch lun .resume] else []) ∧
      OnlyRegs s t [Reg.CIST_CNT_READS, Reg.RST_CNT_FAULTS] ∧ Counted s t Reg.CIST_CNT_READS 0 64 1 ∧
      CountedSat s t Reg.RST_CNT_FAULTS 0 32 (if (s.lun k).timedOut then 1 else 0) ∧
      (t.lun k).timedOut = false ∧ (t.lun k).suspends = (s.lun k).suspends ∧
      (t.lun k).ahead = (s.lun k).ahead.filter (· != ppa) ∧
      Store.get (fun _ => 0) (t.lun k).reads (ppaSet ppa).2.2 = Store.get (fun _ => 0) (s.lun k).reads (ppaSet ppa).2.2 + 1 ∧
      t.cist = { s.cist with luns := t.cist.luns, granted := t.cist.granted, ladder := t.cist.ladder } ∧
      NandUnit.read ppa ∉ t.cist.granted ∧ t.cist.climbed ppa = 0 ∧
      (∀ j, j ≠ k → t.lun j = s.lun j)) := by
  have goes : ¬ s.commandStays ch lun (.read ppa (.hard n)) := by
    unfold State.commandStays
    rw [← hk]
    simp only [free, answers, calm 2 (by decide), isRead, unitOf, granted]
    simp
  have ran := exec_nandRead goes
  rw [← hk] at ran
  have ended := s.commandEnded_ended k (.read ppa)
  generalize s.commandEnded k (.read ppa) = t1 at *
  obtain ⟨told, lun2, out2⟩ := t1.readIssued_told ch lun ppa
  rw [← hk] at told lun2 out2
  generalize t1.readIssued ch lun ppa = t2 at *
  have regs2 : t2.regs = t1.regs := by rw [told.rest]
  have config : t2.regF Reg.CIST_CFG 8 16 = s.regF Reg.CIST_CFG 8 16 :=
    (State.regF_congr regs2 _ _ _).trans (ended.kept.only.regF _ _ _ (by decide))
  have key : k = lunKey (ppaSet ppa).1 (ppaSet ppa).2.1 := by rw [hk, hch, hlun]
  have reads2 : (t2.lun k).reads = (s.lun k).reads := by rw [lun2, ended.lun]
  obtain ⟨kept3, cist3, counted, lun3, others3⟩ := State.countRead_below (s := t2) key (by rw [reads2, config]; exact below)
  generalize t2.countRead ppa = t3 at *
  have only3 : OnlyRegs s t3 [Reg.CIST_CNT_READS, Reg.RST_CNT_FAULTS] :=
    ((ended.kept.only.mono (by simp)).trans (.of_regs regs2)).trans (kept3.only.mono (by simp))
  have inject : t3.reg (injectOf ppa) = s.reg (instKey Reg.CIST_INJECT k) := by
    unfold injectOf
    rw [← key]
    refine only3 _ ?_
    simp only [List.mem_cons, List.not_mem_nil, or_false, not_or]
    exact ⟨instKey_ne_key (by decide) _, instKey_ne_key (by decide) _⟩
  have cist : t3.cist = { s.cist with luns := t3.cist.luns, granted := t1.cist.granted } := by
    rw [cist3, told.cist, ended.cist]
  have settled : t3.classifyRead ppa (.hard n) = t3.climb ppa 0 := by
    refine State.classifyRead_good (by rw [inject]; exact calm 0 (by decide)) (by rw [inject]; exact calm 1 (by decide)) ?_ ?_
    · have parity : t3.cist.parity = s.cist.parity := by rw [cist]
      have same : t3.regF Reg.CIST_CFG 0 7 = s.regF Reg.CIST_CFG 0 7 := only3.regF _ _ _ (by decide)
      unfold State.rwThreshold at *
      rw [parity, same]
      exact low
    · rw [cist]
      exact right
  rw [settled] at ran
  have lun : t3.lun k = noteRead { s.lun k with timedOut := false, ahead := (s.lun k).ahead.filter (· != ppa) } (ppaSet ppa).2.2 := by
    rw [lun3, lun2, ended.lun]
  refine ⟨_, ran, ?_, ?_, only3, ?_, ?_, ?_, ?_, ?_, ?_, ?_, ?_, ?_, ?_⟩
  · show t3.withCist _ = _
    unfold State.withCist
    rw [kept3.rest, told.rest, ended.kept.rest]
    rfl
  · show t3.out = _
    rw [kept3.rest]
    show t2.out = _
    rw [out2, ended.lun, ended.kept.rest]
  · exact .after _ _ _ _ ((State.regF_congr regs2 _ _ _).trans (ended.kept.only.regF _ _ _ (by decide))) counted
  · exact .before _ _ _ _ ended.faults ((kept3.only.regF _ _ _ (by decide)).trans (State.regF_congr regs2 _ _ _))
  · exact show (t3.lun k).timedOut = _ by rw [lun]; rfl
  · exact show (t3.lun k).suspends = _ by rw [lun]; rfl
  · exact show (t3.lun k).ahead = _ by rw [lun]; rfl
  · show Store.get _ (t3.lun k).reads _ = _
    rw [lun3]
    unfold noteRead
    rw [Store.get_put_same, reads2]
  · unfold State.climb State.withCist
    generalize Store.put (fun _ => 0) t3.cist.ladder ppa 0 = ladder
    have granted3 : t3.cist.granted = t1.cist.granted := by rw [cist]
    dsimp only
    rw [granted3]
    conv_lhs => rw [cist]
  · show NandUnit.read ppa ∉ t3.cist.granted
    rw [cist]
    exact ended.not_granted
  · exact Store.get_put_same (fun _ => 0) t3.cist.ladder ppa 0
  · intro j d
    show t3.lun j = _
    rw [others3 j d, told.others j d, ended.others j d]

/-! ### Programs and erases -/

/-- A LUN that answers is held. -/
theorem State.find?_lun {k : Nat} (answers : (s.lun k).state ≠ 0) : Store.find? s.cist.luns k = some (s.lun k) := by
  unfold State.lun Store.get at *
  cases found : Store.find? s.cist.luns k with
  | none =>
    rw [found] at answers
    exact absurd rfl answers
  | some l => rfl

theorem State.find?_setLun {k : Nat} {l : Lun} (answers : l.state ≠ 0) : Store.find? (s.setLun k l).cist.luns k = some l := by
  have held : l ≠ Lun.reset := fun h => answers (by rw [h]; rfl)
  unfold State.setLun Store.put
  dsimp only
  rw [if_neg held]
  exact Store.find?_insert_same _ _ _

/-- What ending a program or an erase leaves: the suspensions of the LUN are forgotten too. -/
theorem State.CommandEnded.resume {k : Nat} {unit : NandUnit} (a : s.CommandEnded t k unit) :
    s.CistOnly (t.resume k) [Reg.RST_CNT_FAULTS] ∧
    (t.resume k).cist = { s.cist with
      luns := (t.resume k).cist.luns
      granted := s.cist.granted.filter (fun u => !(u == unit)) } ∧
    (t.resume k).lun k = { s.lun k with timedOut := false, suspends := 0 } ∧ ∀ j, j ≠ k → (t.resume k).lun j = s.lun j := by
  have told : t.LunTold (t.resume k) k := .setLun _ _ _
  have lun : (t.resume k).lun k = { t.lun k with suspends := 0 } := State.lun_setLun_same _ _ _
  have kept : t.CistOnly (t.resume k) [Reg.RST_CNT_FAULTS] := .setLun _ _ _ _
  generalize t.resume k = v at *
  exact ⟨a.kept.trans kept, by rw [told.cist, a.cist], by rw [lun, a.lun], fun j d => (told.others j d).trans (a.others j d)⟩

theorem Cistern.unitData_congr {c d : Cistern} (h : d = { c with luns := d.luns, granted := d.granted }) (g : Group) (r : SRow) (m : Nat) :
    d.unitData g r m = c.unitData g r m := by
  rw [h]
  rfl

theorem State.unitDue_congr (rows : t.cist.rows = s.cist.rows)
    (luns : ∀ k, (t.lun k).unerased = (s.lun k).unerased ∧ (t.lun k).state = (s.lun k).state ∧ (t.lun k).bad = (s.lun k).bad)
    (g : Nat) (grp : Group) (row mem : Nat) : t.unitDue g grp row mem = s.unitDue g grp row mem := by
  have lost (m : Nat × Nat × Nat) : t.memberLost m = s.memberLost m := by
    obtain ⟨-, state, bad⟩ := luns (lunKey m.1 m.2.1)
    unfold State.memberLost
    dsimp only
    rw [state, bad]
  unfold State.unitDue
  rw [rows]
  congr 1
  split
  next m _ =>
    obtain ⟨unerased, -⟩ := luns (lunKey m.1 m.2.1)
    rw [unerased, lost]
  next => rfl

/-- Words put on the media: the last of those for an address stands there, and no other address changes. -/
theorem find?_foldl_put (words : List (Nat × List Byte)) (m : Store (List Byte)) :
    (∀ p ∈ words, ∃ q ∈ words, q.1 = p.1 ∧ Store.find? (words.foldl (fun m p => Store.insert m p.1 p.2) m) p.1 = some q.2) ∧
    (∀ a, (∀ p ∈ words, p.1 ≠ a) → Store.find? (words.foldl (fun m p => Store.insert m p.1 p.2) m) a = Store.find? m a) := by
  induction words using List.reverseRecOn with
  | nil => exact ⟨fun p hp => (by cases hp), fun _ _ => rfl⟩
  | append_singleton words w ih =>
    obtain ⟨last, rest⟩ := ih
    rw [List.foldl_append, List.foldl_cons, List.foldl_nil]
    refine ⟨fun p hp => ?_, fun a others => ?_⟩
    · by_cases here : p.1 = w.1
      · exact ⟨w, by simp, here.symm, by rw [here, Store.find?_insert_same]⟩
      · rw [Store.find?_insert_other _ _ _ _ here]
        obtain hp | hp := List.mem_append.mp hp
        · obtain ⟨q, hq, same, found⟩ := last p hp
          exact ⟨q, List.mem_append_left _ hq, same, found⟩
        · exact absurd (congrArg Prod.fst (List.mem_singleton.mp hp)) here
    · rw [Store.find?_insert_other _ _ _ _ (others w (by simp)).symm]
      exact rest a fun p hp => others p (List.mem_append_left _ hp)

/-- Is a row that of a group and number? -/
def SRow.isAt (r : SRow) (g row : Nat) : Bool := r.group == g && r.row == row

/-- A row that is replaced, and kept, is found where it stood. -/
theorem find?_replaced {rows : List SRow} {g row : Nat} {r r' : SRow} {keep : SRow → Bool} (place : r'.group = r.group ∧ r'.row = r.row)
    (kept : keep r' = true) (found : rows.find? (fun r => r.group == g && r.row == row) = some r) :
    ((rows.map fun x => if x.group = g ∧ x.row = row then r' else x).filter keep).find? (fun r => r.group == g && r.row == row) =
      some r' := by
  have mine := List.find?_some found
  simp only [Bool.and_eq_true, beq_iff_eq] at mine
  have mine' : r'.group = g ∧ r'.row = row := by rw [place.1, place.2]; exact mine
  induction rows with
  | nil => cases found
  | cons x xs ih =>
    by_cases here : x.group = g ∧ x.row = row
    · rw [List.map_cons, if_pos here, List.filter_cons_of_pos kept, List.find?_cons_of_pos (by simpa using mine')]
    · have other : ¬ (x.group == g && x.row == row) = true := by simpa using here
      rw [List.find?_cons_of_neg (by exact other)] at found
      rw [List.map_cons, if_neg here, List.filter_cons]
      split
      · rw [List.find?_cons_of_neg (by exact other)]
        exact ih found
      · exact ih found

theorem nandProgram_done (ch lun : Fin 32) (g row mem : Nat) (s : State) (r : SRow) (grp : Group) (free : s.nandHeld = false)
    (answers : (s.lun (lunKey ch lun)).state = 1) (alone : (s.lun (lunKey ch lun)).ahead = [])
    (granted : s.cist.granted.contains (.program g row mem) = true)
    (calm : bit (s.reg (instKey Reg.CIST_INJECT (lunKey ch lun))) 2 = false)
    (found : s.cist.rows.find? (fun r => r.group == g && r.row == row) = some r) (group : Store.find? s.cist.groups g = some grp)
    (due : s.unitDue g grp row mem = true) :
    Completes (.nandCommandDone ch lun (.program g row mem)) s (fun t => t = { s with cist := t.cist, regs := t.regs } ∧
      OnlyRegs s t [Reg.RST_CNT_FAULTS, Reg.CIST_CNT_PROG, Reg.CIST_CNT_FILLER] ∧
      ((∃ w ∈ r.words, w.settled = false) →
        t.cist.rows.find? (fun r => r.group == g && r.row == row) = some { r with done := r.done ++ [mem] }) ∧
      (∀ p ∈ s.cist.unitData grp r mem, ∃ q ∈ s.cist.unitData grp r mem, q.1 = p.1 ∧
        Store.find? t.cist.media p.1 = some q.2) ∧
      (∀ a, (∀ p ∈ s.cist.unitData grp r mem, p.1 ≠ a) → Store.find? t.cist.media a = Store.find? s.cist.media a) ∧
      t.cist.map = s.cist.map ∧ t.cist.groups = s.cist.groups ∧ NandUnit.program g row mem ∉ t.cist.granted) := by
  have goes : ¬ s.commandStays ch lun (.program g row mem) := by
    unfold State.commandStays
    simp only [free, answers, calm, alone, unitOf, granted]
    simp
  have ran := exec_nandProgram goes
  obtain ⟨kept, cist, lunv, others⟩ := (s.commandEnded_ended (lunKey ch lun) (.program g row mem)).resume
  generalize (s.commandEnded (lunKey ch lun) (.program g row mem)).resume (lunKey ch lun) = v at *
  have rows : v.cist.rows = s.cist.rows := by rw [cist]
  have groups : v.cist.groups = s.cist.groups := by rw [cist]
  have data (grp : Group) (r : SRow) : v.cist.unitData grp r mem = s.cist.unitData grp r mem :=
    Cistern.unitData_congr (by
      have same : v.cist.granted = s.cist.granted.filter (fun u => !(u == NandUnit.program g row mem)) := by rw [cist]
      rw [same]
      exact cist) _ _ _
  have due' : v.unitDue g grp row mem = true := by
    rw [State.unitDue_congr rows (fun k => ?_), due]
    by_cases here : k = lunKey ch lun
    · rw [here, lunv]
      exact ⟨rfl, rfl, rfl⟩
    · rw [others k here]
      exact ⟨rfl, rfl, rfl⟩
  obtain ⟨par, filler, w, done, wcist, wrest⟩ : ∃ (par filler : Nat) (w : State), v.programDone g row mem =
      (w.bump Reg.CIST_CNT_PROG 0 64 par).bump Reg.CIST_CNT_FILLER 0 64 filler ∧
      w.cist = Cistern.dropRows { v.cist with
        rows := s.cist.rows.map (fun x => if x.group = g ∧ x.row = row then { r with done := r.done ++ [mem] } else x)
        media := (s.cist.unitData grp r mem).foldl (fun m p => Store.insert m p.1 p.2) v.cist.media } ∧
      w = { v with cist := w.cist } := by
    unfold State.programDone
    rw [rows, groups, found, group]
    dsimp only
    rw [if_neg (by simp [due']), data]
    exact ⟨_, _, v.withCist _, rfl, rfl, rfl⟩
  have wrote : w.Wrote ((w.bump Reg.CIST_CNT_PROG 0 64 par).bump Reg.CIST_CNT_FILLER 0 64 filler)
      [Reg.RST_CNT_FAULTS, Reg.CIST_CNT_PROG, Reg.CIST_CNT_FILLER] :=
    .trans (.bump (by simp) _ _ _) (.bump (by simp) _ _ _)
  rw [done] at ran
  generalize (w.bump Reg.CIST_CNT_PROG 0 64 par).bump Reg.CIST_CNT_FILLER 0 64 filler = z at *
  have zcist : z.cist = w.cist := by rw [wrote.rest]
  have stored : z.cist.media = (s.cist.unitData grp r mem).foldl (fun m p => Store.insert m p.1 p.2) s.cist.media := by
    rw [zcist, wcist]
    show List.foldl _ v.cist.media _ = _
    rw [cist]
  obtain ⟨last, rest⟩ := find?_foldl_put (s.cist.unitData grp r mem) s.cist.media
  refine ⟨z, ran, ?_, ?_, fun ⟨x, hx, open_⟩ => ?_, ?_, ?_, ?_, ?_, ?_⟩
  · rw [wrote.rest, wrest, kept.rest]
  · exact ((kept.only.mono (by simp)).trans (.of_regs (by rw [wrest]))).trans wrote.only
  · rw [zcist, wcist]
    refine find?_replaced (r := r) ⟨rfl, rfl⟩ ?_ found
    have unsettled : r.words.all Cword.settled = false := List.all_eq_false.mpr ⟨x, hx, by simp [open_]⟩
    simp [unsettled]
  · rw [stored]
    exact last
  · rw [stored]
    exact rest
  · rw [zcist, wcist]
    show v.cist.map = _
    rw [cist]
  · rw [zcist, wcist]
    exact groups
  · rw [zcist, wcist]
    show _ ∉ v.cist.granted
    rw [cist]
    simp

/-- A block set that has been erased holds nothing, has been erased once more and counts no read. -/
structure State.Erased (s t : State) (ch lun b : Nat) : Prop where
  rest : t = { s with cist := t.cist }
  cist : t.cist = { s.cist with luns := t.cist.luns, media := s.cist.media.filter (fun e => ppaSet e.1 != (ch, lun, b)) }
  lun : ∃ v, Store.find? t.cist.luns (lunKey ch lun) = some v ∧ v.eraseBase = (s.lun (lunKey ch lun)).eraseBase ∧
    Store.get (fun _ => 0) v.erases b = Store.get (fun _ => 0) (s.lun (lunKey ch lun)).erases b + 1 ∧ Store.get (fun _ => 0) v.reads b = 0

theorem State.eraseSet_erased {ch lun b : Nat} (answers : (s.lun (lunKey ch lun)).state ≠ 0) : s.Erased (s.eraseSet ch lun b) ch lun b := by
  refine ⟨rfl, rfl, _, State.find?_setLun (s := s) (l := { s.lun (lunKey ch lun) with
    erases := Store.insert (s.lun (lunKey ch lun)).erases b (Store.get (fun _ => 0) (s.lun (lunKey ch lun)).erases b + 1)
    reads := Store.erase (s.lun (lunKey ch lun)).reads b
    unerased := (s.lun (lunKey ch lun)).unerased.filter (fun x => x != b) }) answers, rfl, ?_, ?_⟩
  · unfold Store.get
    rw [Store.find?_insert_same]
    rfl
  · unfold Store.get
    rw [Store.find?_erase_same]
    rfl

theorem State.leaveGroup_left (s : State) (k : Nat) (g : Group) (b : Nat × Nat × Nat) :
    s.leaveGroup k g b = { s with cist := (s.leaveGroup k g b).cist } ∧
    (s.leaveGroup k g b).cist = { s.cist with groups := (s.leaveGroup k g b).cist.groups } ∧
    ∀ g', Store.find? (s.leaveGroup k g b).cist.groups k = some g' → b ∉ g'.members := by
  refine ⟨rfl, rfl, fun g' held => ?_⟩
  unfold State.leaveGroup State.withCist at held
  dsimp only at held
  split at held
  · rw [Store.find?_erase_same] at held
    cases held
  · rw [Store.find?_insert_same] at held
    obtain rfl := Option.some.inj held
    simp

/-- The block set leaves the media with its erase count raised. -/
theorem nandErase_done (ch lun : Fin 32) (b k : Nat) (g : Group) (s : State) (free : s.nandHeld = false)
    (answers : (s.lun (lunKey ch lun)).state = 1) (alone : (s.lun (lunKey ch lun)).ahead = [])
    (granted : s.cist.granted.contains (.erase ch lun b) = true)
    (calm : bit (s.reg (instKey Reg.CIST_INJECT (lunKey ch lun))) 2 = false)
    (group : s.cist.groupOf (ch.val, lun.val, b) = some (k, g)) (erasing : g.erasing = true) (below : k < s.cist.nextGroup)
    (unread : s.readIn g = false) :
    Completes (.nandCommandDone ch lun (.erase b)) s (fun t => t = { s with cist := t.cist, regs := t.regs } ∧
      OnlyRegs s t [Reg.RST_CNT_FAULTS] ∧ t.cist.eraseOf ch lun b = s.cist.eraseOf ch lun b + 1 ∧
      Store.get (fun _ => 0) (t.lun (lunKey ch lun)).reads b = 0 ∧
      (∀ e ∈ t.cist.media, ppaSet e.1 ≠ (ch.val, lun.val, b)) ∧
      (∀ g', Store.find? t.cist.groups k = some g' → (ch.val, lun.val, b) ∉ g'.members) ∧ t.cist.map = s.cist.map) := by
  have goes : ¬ s.commandStays ch lun (.erase b) := by
    unfold State.commandStays
    simp only [free, answers, calm, alone, unitOf, granted]
    simp
  have ran := exec_nandErase goes
  obtain ⟨kept, cist, lunv, others⟩ := (s.commandEnded_ended (lunKey ch lun) (.erase ch lun b)).resume
  generalize (s.commandEnded (lunKey ch lun) (.erase ch lun b)).resume (lunKey ch lun) = v at *
  have groups : v.cist.groups = s.cist.groups := by rw [cist]
  have next : v.cist.nextGroup = s.cist.nextGroup := by rw [cist]
  have group' : v.cist.groupOf (ch.val, lun.val, b) = some (k, g) := by
    unfold Cistern.groupOf at *
    rw [groups]
    exact group
  have unread' : v.readIn g = false := by
    unfold State.readIn at *
    rw [kept.rest]
    exact unread
  have state : (v.lun (lunKey ch lun)).state ≠ 0 := by rw [lunv]; simp [answers]
  have done : v.eraseDone ch lun b = ((v.eraseSet ch lun b).leaveGroup k g (ch, lun, b)).withCist
      (((v.eraseSet ch lun b).leaveGroup k g (ch, lun, b)).cist.retryWaiting ((v.eraseSet ch lun b).leaveGroup k g (ch, lun, b)).tick) := by
    unfold State.eraseDone
    extract_lets bb
    rw [group']
    dsimp only
    rw [erasing, unread']
    rfl
  have set := v.eraseSet_erased (ch := ch) (lun := lun) (b := b) state
  generalize v.eraseSet ch lun b = u at *
  obtain ⟨wrest, wcist, left⟩ := u.leaveGroup_left k g (ch, lun, b)
  generalize u.leaveGroup k g (ch, lun, b) = w at *
  rw [done] at ran
  have written := w.cist.retryWaiting_written w.tick
  generalize w.cist.retryWaiting w.tick = c at *
  obtain ⟨x, lunu, base, erases, reads⟩ := set.lun
  have luns : c.luns = u.cist.luns := by rw [written.rest, wcist]
  have before : Store.find? s.cist.luns (lunKey ch lun) = some (s.lun (lunKey ch lun)) := State.find?_lun (by rw [answers]; decide)
  refine ⟨_, ran, ?_, ?_, ?_, ?_, ?_, fun g' held => ?_, ?_⟩
  · unfold State.withCist
    rw [wrest, set.rest, kept.rest]
  · exact kept.only.trans (.of_regs (show w.regs = v.regs by rw [wrest, set.rest]))
  · unfold State.withCist Cistern.eraseOf
    dsimp only
    rw [luns, lunu, before]
    dsimp only
    rw [base, erases, lunv]
    rfl
  · unfold State.withCist State.lun
    dsimp only
    rw [luns]
    have lunx : Store.get (fun _ => Lun.reset) u.cist.luns (lunKey ch lun) = x := by
      unfold Store.get
      rw [lunu]
      rfl
    rw [lunx]
    exact reads
  · have all : c.media = v.cist.media.filter (fun e => ppaSet e.1 != (ch.val, lun.val, b)) := by
      rw [written.rest, wcist, set.cist]
    intro e he
    have he : e ∈ c.media := he
    rw [all, List.mem_filter] at he
    simpa using he.2
  · have nextw : w.cist.nextGroup = v.cist.nextGroup := by rw [wcist, set.cist]
    obtain ⟨r, o, same⟩ := written.group k (by rw [nextw, next]; exact below)
    have held : Store.find? c.groups k = some g' := held
    rw [same, Option.map_eq_some_iff] at held
    obtain ⟨g0, found, rfl⟩ := held
    exact left g0 found
  · show c.map = _
    rw [written.rest, wcist, set.cist, cist]

theorem readSuspend_suspends (ch lun : Fin 32) (k : Nat) (s : State) (hk : k = lunKey ch lun) (free : s.nandHeld = false)
    (answers : (s.lun k).state = 1) :
    (s.lunBusy ch lun = true → (s.lun k).ahead = [] → (s.lun k).suspends < s.regF Reg.CIST_CFG 36 4 →
      Completes (.readSuspend ch lun) s (fun t => t = { s with cist := t.cist, out := s.out ++ [Out.nand ch lun .suspend] } ∧
        t.lun k = { s.lun k with suspends := (s.lun k).suspends + 1, ahead := s.queuedReads ch lun } ∧
        (∀ j, j ≠ k → t.lun j = s.lun j))) ∧
    ((s.lunBusy ch lun = false ∨ (s.lun k).ahead ≠ [] ∨ s.regF Reg.CIST_CFG 36 4 ≤ (s.lun k).suspends) →
      Completes (.readSuspend ch lun) s (fun t => t = s)) := by
  subst hk
  refine ⟨fun busy alone few => ⟨_, if_pos ⟨by simp [free], answers, busy, alone, few⟩, rfl, State.lun_setLun_same _ _ _,
    fun j d => State.lun_setLun_other (s := s) _ _ _ d⟩, fun stays => ⟨s, if_neg ?_, rfl⟩⟩
  rintro ⟨-, -, busy, alone, few⟩
  obtain idle | waits | many := stays
  · exact absurd busy (by simp [idle])
  · exact waits alone
  · exact absurd few (not_lt.mpr many)

end Sys2Proof.Machine

section Settled
open Sys2Proof Sys2Proof.Machine

/-- Settles O50: what cannot end changes nothing; a read, a program and an erase end with their effect; a read suspends a busy LUN. -/
theorem arrayCommandsEnd : Obligations.ArrayCommandsEnd := by
  refine ⟨fun ch lun cmd s stays => ⟨s, nandCommandDone_stays ?_, rfl⟩, nandRead_done, nandProgram_done, nandErase_done,
    readSuspend_suspends⟩
  unfold State.commandStays
  obtain held | silent | injected | idle | ⟨waits, other⟩ := stays
  · exact .inl held
  · exact .inr (.inl silent)
  · exact .inr (.inr (.inl injected))
  · exact .inr (.inr (.inr (.inr idle)))
  · refine .inr (.inr (.inr (.inl ⟨?_, waits⟩)))
    cases cmd with
    | read p d => exact absurd rfl (other p d)
    | program => rfl
    | erase => rfl

end Settled
end

section
/-! SUPPORT. Failures of the flash: time-outs, retraining, retirement, bad block sets (R391 to R396), for O51. -/

set_option Elab.async false

namespace Sys2Proof.Machine
variable {s t u : State} {c d e : Cistern}

/-! ### Stores -/

theorem Store.mem_insert_of_ne {α : Type} {st : Store α} {x : Nat × α} (h : x ∈ st) {k : Nat} (d : x.1 ≠ k) (v : α) :
    x ∈ Store.insert st k v := by
  induction st with
  | nil => cases h
  | cons p st ih =>
    unfold Store.insert
    split
    · exact List.mem_cons_of_mem _ h
    · split
      next here =>
        obtain rfl | h := List.mem_cons.mp h
        · exact absurd here.symm d
        · exact List.mem_cons_of_mem _ h
      next =>
        obtain rfl | h := List.mem_cons.mp h
        · exact List.mem_cons_self
        · exact List.mem_cons_of_mem _ (ih h)

theorem Store.mem_of_find? {α : Type} {st : Store α} {k : Nat} {v : α} (h : Store.find? st k = some v) : (k, v) ∈ st := by
  induction st with
  | nil => cases h
  | cons p st ih =>
    unfold Store.find? at h
    split at h
    next here =>
      obtain rfl := Option.some.inj h
      rw [← here]
      exact List.mem_cons_self
    next => exact List.mem_cons_of_mem _ (ih h)

theorem State.mem_luns_setLun {x : Nat × Lun} (h : x ∈ s.cist.luns) {k : Nat} (d : x.1 ≠ k) (l : Lun) : x ∈ (s.setLun k l).cist.luns := by
  unfold State.setLun Store.put
  dsimp only
  split
  · exact List.mem_filter.mpr ⟨h, by simpa using d⟩
  · exact Store.mem_insert_of_ne h d l

/-! ### A LUN that is retired -/

/-- Rows, waiting words, groups and group numbers apart, the Cistern stands. -/
def Cistern.RowsOnly (c d : Cistern) : Prop :=
  d = { c with rows := d.rows, waiting := d.waiting, groups := d.groups, nextGroup := d.nextGroup }

theorem State.failRows_rowsOnly (s : State) (k mem : Nat) :
    s.failRows k mem = { s with cist := (s.failRows k mem).cist } ∧ s.cist.RowsOnly (s.failRows k mem).cist := by
  unfold State.failRows
  split
  · exact ⟨rfl, rfl⟩
  next g _ =>
    extract_lets hit mine _ c0 ws
    have failed : s.cist.RowsOnly c0 := rfl
    have written : c0.Written (ws.foldl (fun (c : Cistern) w => c.write s.tick g.stream w) c0) :=
      .foldl _ (.refl _) fun d _ _ => d.write_written _ _ _
    refine ⟨rfl, ?_⟩
    show s.cist.RowsOnly (ws.foldl _ c0)
    unfold Cistern.RowsOnly at *
    rw [written.rest, failed]

theorem State.chanPoints_rest (s : State) : s.chanPoints = { s with points := s.chanPoints.points } := by
  unfold State.chanPoints
  refine List.foldlRecOn (motive := fun (t : State) => t = { s with points := t.points }) _ _ rfl fun t h ch _ => ?_
  dsimp only
  split
  · exact h
  · unfold State.pointOut State.setPoint
    rw [h]

/-- What the retirement of a LUN leaves (R396). -/
structure State.LunRetired (s t : State) (ch lun : Nat) : Prop where
  rest : t = { s with cist := t.cist, regs := t.regs, record := t.record, keeper := t.keeper, points := t.points }
  map : t.cist.map = s.cist.map
  gone : t.lun (lunKey ch lun) = { s.lun (lunKey ch lun) with state := 2, timedOut := false }
  rebuild : (ch, lun) ∈ t.cist.rebuild
  recorded : recorded t.record kLun (lunKey ch lun) = true
  only : OnlyRegs s t [Reg.CIST_ERR_D]
  counted : CountedSat s t Reg.CIST_ERR_D 48 16 1
  below : ∀ l n, l + n ≤ 48 → t.regF Reg.CIST_ERR_D l n = s.regF Reg.CIST_ERR_D l n

theorem State.retireLun_retired {ch lun : Nat} (answers : (s.lun (lunKey ch lun)).state = 1) :
    s.LunRetired (s.retireLun ch lun) ch lun := by
  unfold State.retireLun
  extract_lets k l s1 s2 ms s3 _
  rw [if_neg (not_not.mpr answers)]
  have told := s.retire_rest kLun k 0
  have noted := s.retire_recorded kLun k 0
  have lun1 : s1.lun k = { l with state := 2, timedOut := false } := State.lun_setLun_same (s := s.retire kLun k 0) k { l with state := 2, timedOut := false }
  have rest1 : s1 = { s with cist := s1.cist, record := (s.retire kLun k 0).record, keeper := s1.keeper } := by
    unfold s1
    rw [told]
    rfl
  have map1 : s1.cist.map = s.cist.map := by
    unfold s1
    rw [told]
    rfl
  have regs1 : s1.regs = s.regs := by rw [rest1]
  have wrote : s1.Wrote s2 [Reg.CIST_ERR_D] := .bumpSat List.mem_cons_self _ _ _
  have counted : CountedSat s1 s2 Reg.CIST_ERR_D 48 16 1 := .of_bumpSat _ _ _ _ (by decide)
  have apart (l n : Nat) (h : l + n ≤ 48) : s2.regF Reg.CIST_ERR_D l n = s1.regF Reg.CIST_ERR_D l n :=
    s1.regF_bumpSat_apart _ _ _ _ _ _ (by decide) (.inr h)
  have failed : s3 = { s2 with cist := s3.cist } ∧ s2.cist.RowsOnly s3.cist := by
    refine List.foldlRecOn (motive := fun (t : State) => t = { s2 with cist := t.cist } ∧ s2.cist.RowsOnly t.cist) _ _ ⟨rfl, rfl⟩
      fun t ⟨rest, rows⟩ p _ => ?_
    obtain ⟨rest', rows'⟩ := t.failRows_rowsOnly p.1 p.2
    unfold Cistern.RowsOnly at *
    exact ⟨by rw [rest', rest], by rw [rows', rows]⟩
  clear_value s1 s2 s3
  obtain ⟨rest3, rows3⟩ := failed
  have pointed := (s3.withCist { s3.cist with rebuild := s3.cist.rebuild ++ [(ch, lun)] }).saveArea.chanPoints_rest
  generalize hv : (s3.withCist { s3.cist with rebuild := s3.cist.rebuild ++ [(ch, lun)] }).saveArea = v at *
  have vrest : v = { s3 with cist := v.cist } := by rw [← hv]; rfl
  have vluns : v.cist.luns = s3.cist.luns := by rw [← hv]; rfl
  have vmap : v.cist.map = s3.cist.map := by rw [← hv]; rfl
  have vrebuild : v.cist.rebuild = s3.cist.rebuild ++ [(ch, lun)] := by rw [← hv]; rfl
  clear hv
  generalize v.chanPoints = w at *
  have regs : w.regs = s2.regs := by rw [pointed, vrest, rest3]
  have cist : w.cist = v.cist := by rw [pointed]
  have cist2 : s2.cist = s1.cist := by rw [wrote.rest]
  have record : w.record = (s.retire kLun k 0).record := by rw [pointed, vrest, rest3, wrote.rest, rest1]
  refine ⟨by rw [pointed, vrest, rest3, wrote.rest, rest1], ?_, ?_, ?_, ?_, ?_, ?_, fun l n h => ?_⟩
  · rw [cist, vmap, rows3, cist2, map1]
  · rw [State.lun_congr (show w.cist.luns = s1.cist.luns by rw [cist, vluns, rows3, cist2]), lun1]
  · rw [cist, vrebuild]
    exact List.mem_append_right _ List.mem_cons_self
  · rw [record]
    exact noted
  · exact (OnlyRegs.of_regs regs1).trans (wrote.only.trans (.of_regs regs))
  · exact .after _ _ _ _ (State.regF_congr regs1 _ _ _) (.before _ _ _ _ counted (State.regF_congr regs _ _ _))
  · rw [State.regF_congr regs, apart l n h, State.regF_congr regs1]

/-! ### Time-outs -/

/-- The LUN is reset and counted. -/
def State.lunReset (s : State) (ch lun : Fin 32) : State :=
  (((s.bumpSat Reg.CIST_ERR_D 32 16 1).setRegF (instKey Reg.CIST_INJECT (lunKey ch lun)) 2 1 0).setLun (lunKey ch lun)
    { s.lun (lunKey ch lun) with timedOut := true, suspends := 0, ahead := [] }).nandBus ch lun .reset

theorem State.lunReset_told (s : State) (ch lun : Fin 32) : ∃ v,
    s.Wrote v [Reg.CIST_ERR_D, instKey Reg.CIST_INJECT (lunKey ch lun)] ∧ CountedSat s v Reg.CIST_ERR_D 32 16 1 ∧
    v.regF Reg.CIST_ERR_D 48 16 = s.regF Reg.CIST_ERR_D 48 16 ∧
    bit (v.reg (instKey Reg.CIST_INJECT (lunKey ch lun))) 2 = false ∧ s.lunReset ch lun = (v.setLun (lunKey ch lun)
      { s.lun (lunKey ch lun) with timedOut := true, suspends := 0, ahead := [] }).nandBus ch lun .reset := by
  unfold State.lunReset
  have wrote : s.Wrote (s.bumpSat Reg.CIST_ERR_D 32 16 1) [Reg.CIST_ERR_D, instKey Reg.CIST_INJECT (lunKey ch lun)] :=
    .bumpSat List.mem_cons_self _ _ _
  have counted : CountedSat s (s.bumpSat Reg.CIST_ERR_D 32 16 1) Reg.CIST_ERR_D 32 16 1 := .of_bumpSat _ _ _ _ (by decide)
  have apart : (s.bumpSat Reg.CIST_ERR_D 32 16 1).regF Reg.CIST_ERR_D 48 16 = s.regF Reg.CIST_ERR_D 48 16 :=
    s.regF_bumpSat_apart _ _ _ _ _ _ (by decide) (.inl (by decide))
  generalize s.bumpSat Reg.CIST_ERR_D 32 16 1 = v at *
  have wrote' : v.Wrote (v.setRegF (instKey Reg.CIST_INJECT (lunKey ch lun)) 2 1 0) [instKey Reg.CIST_INJECT (lunKey ch lun)] :=
    .setRegF List.mem_cons_self _ _ _
  have off : bit ((v.setRegF (instKey Reg.CIST_INJECT (lunKey ch lun)) 2 1 0).reg (instKey Reg.CIST_INJECT (lunKey ch lun))) 2 = false :=
    bit_setRegF_zero v _ _ (by decide)
  have others (l n : Nat) : (v.setRegF (instKey Reg.CIST_INJECT (lunKey ch lun)) 2 1 0).regF Reg.CIST_ERR_D l n = v.regF Reg.CIST_ERR_D l n :=
    wrote'.only.regF _ _ _ fun h => instKey_ne_key (by decide) _ (List.mem_singleton.mp h).symm
  generalize v.setRegF (instKey Reg.CIST_INJECT (lunKey ch lun)) 2 1 0 = w at *
  exact ⟨w, wrote.trans (wrote'.mono (by simp)), .before _ _ _ _ counted (others _ _), by rw [others, apart], off, rfl⟩

theorem lunTimeout_resets (ch lun : Fin 32) (k : Nat) (s : State) (hk : k = lunKey ch lun) (free : s.nandHeld = false)
    (answers : (s.lun k).state = 1) (trained : ch.val ∉ s.cist.retrain)
    (partner : ∃ x ∈ s.cist.luns, x.1 % 32 = ch.val ∧ x.1 ≠ k ∧ x.2.state = 1 ∧ x.2.timedOut = false) :
    Completes (.lunTimeout ch lun) s (fun t => CountedSat s t Reg.CIST_ERR_D 32 16 1 ∧
      bit (t.reg (instKey Reg.CIST_INJECT k)) 2 = false ∧ t.cist.map = s.cist.map ∧
      (((s.lun k).timedOut = false ∨ bit (s.reg (instKey Reg.CIST_INJECT k)) 2 = true) →
        t = { s with cist := t.cist, regs := t.regs, out := s.out ++ [Out.nand ch lun .reset] } ∧
        t.lun k = { s.lun k with timedOut := true, suspends := 0, ahead := [] } ∧ (∀ j, j ≠ k → t.lun j = s.lun j)) ∧
      ((s.lun k).timedOut = true → bit (s.reg (instKey Reg.CIST_INJECT k)) 2 = false → (t.lun k).state = 2 ∧
        (ch.val, lun.val) ∈ t.cist.rebuild ∧ recorded t.record kLun k = true ∧
        CountedSat s t Reg.RST_CNT_FAULTS 32 16 1 ∧ CountedSat s t Reg.CIST_ERR_D 48 16 1)) := by
  subst hk
  obtain ⟨v, wrote, counted, apart, off, reset⟩ := s.lunReset_told ch lun
  obtain ⟨x, hx, channel, other, alive, patient⟩ := partner
  have vcist : v.cist = s.cist := by rw [wrote.rest]
  have lun' : (s.lunReset ch lun).lun (lunKey ch lun) =
      { s.lun (lunKey ch lun) with timedOut := true, suspends := 0, ahead := [] } := by
    rw [reset]
    exact State.lun_setLun_same (s := v) _ _
  have others (j : Nat) (d : j ≠ lunKey ch lun) : (s.lunReset ch lun).lun j = s.lun j := by
    rw [reset]
    exact (State.lun_setLun_other (s := v) _ _ _ d).trans (State.lun_congr (congrArg Cistern.luns vcist) _)
  have rest : s.lunReset ch lun = { s with
      cist := (s.lunReset ch lun).cist
      regs := v.regs
      out := s.out ++ [Out.nand ch lun .reset] } := by
    rw [reset, wrote.rest]
    rfl
  have there : x ∈ (s.lunReset ch lun).cist.luns := by
    rw [reset]
    exact State.mem_luns_setLun (s := v) (by rw [vcist]; exact hx) other _
  have retrain : (s.lunReset ch lun).cist.retrain = s.cist.retrain := by
    rw [reset, ← vcist]
    rfl
  have map : (s.lunReset ch lun).cist.map = s.cist.map := by
    rw [reset, ← vcist]
    rfl
  have ran : exec (.lunTimeout ch lun) s = .next (if bit (s.reg (instKey Reg.CIST_INJECT (lunKey ch lun))) 2 = false ∧
      (s.lun (lunKey ch lun)).timedOut = true then ((s.lunReset ch lun).bumpSat Reg.RST_CNT_FAULTS 32 16 1).retireLun ch lun
      else s.lunReset ch lun) := by
    show execLunTimeout ch lun s = _
    unfold execLunTimeout
    extract_lets k l inj s1 s2 others'
    have two : s2 = s.lunReset ch lun := rfl
    rw [if_neg (show ¬ (s.nandHeld = true ∨ l.state ≠ 1) by simp [free, show l.state = 1 from answers])]
    have notAll : ¬ (others'.all (fun x => x.2.timedOut) = true ∧ (1 < others'.length ∨ l.timedOut = true)) := by
      rintro ⟨all, -⟩
      have mine : x ∈ others' := List.mem_filter.mpr ⟨there, by simp [channel, alive]⟩
      exact absurd (List.all_eq_true.mp all x mine) (by simp [patient])
    have kept : s2.cist.retrain.contains ch.val = false := by
      rw [two, retrain]
      simpa using trained
    rw [kept, two]
    by_cases injected : inj = true
    · rw [if_pos (.inl injected), if_neg fun h => Bool.false_ne_true ((show inj = false from h.1).symm.trans injected)]
    · rw [if_neg (not_or.mpr ⟨injected, Bool.false_ne_true⟩), if_neg notAll]
      have calm : bit (s.reg (instKey Reg.CIST_INJECT (lunKey ch lun))) 2 = false := eq_false_of_ne_true injected
      by_cases again : l.timedOut = true
      · rw [if_pos again, if_pos ⟨calm, again⟩]
      · rw [if_neg again, if_neg fun h => again h.2]
  have regs : (s.lunReset ch lun).regs = v.regs := by rw [rest]
  generalize s.lunReset ch lun = w at *
  by_cases again : bit (s.reg (instKey Reg.CIST_INJECT (lunKey ch lun))) 2 = false ∧ (s.lun (lunKey ch lun)).timedOut = true
  · rw [if_pos again] at ran
    have faulted : w.Wrote (w.bumpSat Reg.RST_CNT_FAULTS 32 16 1) [Reg.RST_CNT_FAULTS] := .bumpSat List.mem_cons_self _ _ _
    have faults : CountedSat w (w.bumpSat Reg.RST_CNT_FAULTS 32 16 1) Reg.RST_CNT_FAULTS 32 16 1 := .of_bumpSat _ _ _ _ (by decide)
    generalize w.bumpSat Reg.RST_CNT_FAULTS 32 16 1 = y at *
    have ycist : y.cist = w.cist := by rw [faulted.rest]
    have ylun : y.lun (lunKey ch lun) = w.lun (lunKey ch lun) := State.lun_congr (congrArg Cistern.luns ycist) _
    have retired := State.retireLun_retired (s := y) (ch := ch) (lun := lun) (by rw [ylun, lun']; exact answers)
    generalize y.retireLun ch lun = z at *
    have errors (l n : Nat) : y.regF Reg.CIST_ERR_D l n = v.regF Reg.CIST_ERR_D l n :=
      (faulted.only.regF _ _ _ (by decide)).trans (State.regF_congr regs _ _ _)
    have inject : z.reg (instKey Reg.CIST_INJECT (lunKey ch lun)) = v.reg (instKey Reg.CIST_INJECT (lunKey ch lun)) := by
      rw [retired.only _ fun h => instKey_ne_key (by decide) _ (List.mem_singleton.mp h),
        faulted.only _ fun h => instKey_ne_key (by decide) _ (List.mem_singleton.mp h)]
      unfold State.reg
      rw [regs]
    have unfaulted : v.regF Reg.RST_CNT_FAULTS 32 16 = s.regF Reg.RST_CNT_FAULTS 32 16 := wrote.only.regF _ _ _ (by
      simp only [List.mem_cons, List.not_mem_nil, or_false, not_or]
      exact ⟨by decide, (instKey_ne_key (by decide) _).symm⟩)
    refine ⟨z, ran, ?_, ?_, ?_, fun h => ?_, fun _ _ => ⟨?_, retired.rebuild, retired.recorded, ?_, ?_⟩⟩
    · exact .before _ _ _ _ counted ((retired.below _ _ (by decide)).trans (errors _ _))
    · rw [inject]
      exact off
    · rw [retired.map, ycist, map]
    · obtain ⟨calm, timed⟩ := again
      simp [calm, timed] at h
    · rw [retired.gone]
    · exact .after _ _ _ _ ((State.regF_congr regs _ _ _).trans unfaulted)
        (.before _ _ _ _ faults (retired.only.regF _ _ _ (by decide)))
    · exact .after _ _ _ _ ((errors _ _).trans apart) retired.counted
  · rw [if_neg again] at ran
    refine ⟨w, ran, ?_, ?_, map, fun _ => ⟨by rw [regs]; exact rest, lun', others⟩, fun timed calm => absurd ⟨calm, timed⟩ again⟩
    · exact .before _ _ _ _ counted (State.regF_congr regs _ _ _)
    · unfold State.reg at *
      rw [regs]
      exact off

/-! ### Retraining of a channel -/

theorem lun_foldl_answer (ks : List Nat) (s : State) (k : Nat) :
    (ks.foldl (fun (t : State) k => t.setLun k { t.lun k with timedOut := false }) s).lun k =
      if k ∈ ks then { s.lun k with timedOut := false } else s.lun k := by
  induction ks generalizing s with
  | nil => rfl
  | cons j ks ih =>
    rw [List.foldl_cons, ih]
    by_cases here : k = j
    · subst here
      rw [State.lun_setLun_same, if_pos List.mem_cons_self]
      split <;> rfl
    · rw [State.lun_setLun_other _ _ _ _ here]
      simp [here]

theorem answer_rest (ks : List Nat) (s : State) :
    (ks.foldl (fun (t : State) k => t.setLun k { t.lun k with timedOut := false }) s) = { s with cist := { s.cist with
      luns := (ks.foldl (fun (t : State) k => t.setLun k { t.lun k with timedOut := false }) s).cist.luns } } := by
  refine List.foldlRecOn (motive := fun (t : State) => t = { s with cist := { s.cist with luns := t.cist.luns } }) _ _ rfl fun t h k _ => ?_
  unfold State.setLun
  rw [h]

theorem channelRetrainDone_answers (ch : Fin 32) (s : State) (free : s.nandHeld = false) (training : ch.val ∈ s.cist.retrain) :
    Completes (.channelRetrainDone ch true) s (fun t => t = { s with cist := t.cist } ∧ ch.val ∉ t.cist.retrain ∧
      (∀ j, j ≠ ch.val → (j ∈ t.cist.retrain ↔ j ∈ s.cist.retrain)) ∧
      (∀ k, k % 32 = ch.val → (s.lun k).state = 1 → t.lun k = { s.lun k with timedOut := false })) := by
  obtain ⟨v, mine, hv, hmine, ran⟩ : ∃ v mine, v = s.withCist { s.cist with retrain := s.cist.retrain.filter (· != ch.val) } ∧
      mine = (s.cist.luns.filter (fun x => decide (x.1 % 32 = ch.val) && x.2.state == 1)).map Prod.fst ∧
      exec (.channelRetrainDone ch true) s =
        .next (mine.foldl (fun (t : State) k => t.setLun k { t.lun k with timedOut := false }) v) := by
    refine ⟨_, _, rfl, rfl, ?_⟩
    show execChannelRetrainDone ch true s = _
    unfold execChannelRetrainDone
    rw [free, List.contains_iff_mem.mpr training]
    rfl
  have rest := answer_rest mine v
  have luns := lun_foldl_answer mine v
  generalize mine.foldl (fun (t : State) k => t.setLun k { t.lun k with timedOut := false }) v = w at *
  have retrain : w.cist.retrain = s.cist.retrain.filter (· != ch.val) := by rw [rest, hv]; rfl
  refine ⟨w, ran, by rw [rest, hv]; rfl, by rw [retrain]; simp, fun j d => by rw [retrain]; simp [d], fun k channel alive => ?_⟩
  have same : v.lun k = s.lun k := by rw [hv]; rfl
  rw [luns, same, if_pos]
  rw [hmine]
  exact List.mem_map_of_mem (List.mem_filter.mpr ⟨Store.mem_of_find? (State.find?_lun (by rw [alive]; decide)), by simp [channel, alive]⟩)

theorem channelRetrainDone_retrains (ch : Fin 32) (s : State) (free : s.nandHeld = false) (trained : ch.val ∉ s.cist.retrain)
    (live : s.cist.chanLive ch = true) :
    Completes (.channelRetrainDone ch false) s (fun t =>
      t = { s with cist := t.cist, out := s.out ++ [Out.nand ch 0 .train] } ∧
      t.cist = { s.cist with retrain := s.cist.retrain ++ [ch.val] }) := by
  have absent : s.cist.retrain.contains ch.val = false := by simpa using trained
  refine ⟨(s.withCist { s.cist with retrain := s.cist.retrain ++ [ch.val] }).nandBus ch 0 .train, ?_, rfl, rfl⟩
  show execChannelRetrainDone ch false s = _
  unfold execChannelRetrainDone
  rw [free, absent, live]
  rfl

/-! ### Bad block sets -/

/-- A block set becomes bad while fewer than one in eight have grown bad. -/
theorem State.markBad_marks {ch lun b : Nat} (fresh : b ∉ (s.lun (lunKey ch lun)).bad)
    (few : ((s.lun (lunKey ch lun)).grown + 1) * 8 ≤ s.cist.blocks) :
    s.CistOnly (s.markBad ch lun b) [Reg.CIST_HEALTH] ∧ CountedSat s (s.markBad ch lun b) Reg.CIST_HEALTH 16 16 1 ∧
    (s.markBad ch lun b).cist = { s.cist with luns := (s.markBad ch lun b).cist.luns } ∧
    (s.markBad ch lun b).lun (lunKey ch lun) = { s.lun (lunKey ch lun) with
      bad := (s.lun (lunKey ch lun)).bad ++ [b]
      grown := (s.lun (lunKey ch lun)).grown + 1
      suspends := 0 } := by
  obtain ⟨v, marked, kept, regs, told, lun'⟩ : ∃ v, s.markBad ch lun b = v.bumpSat Reg.CIST_HEALTH 16 16 1 ∧
      s.CistOnly v [Reg.CIST_HEALTH] ∧ v.regs = s.regs ∧ s.LunTold v (lunKey ch lun) ∧
      v.lun (lunKey ch lun) = { s.lun (lunKey ch lun) with
        bad := (s.lun (lunKey ch lun)).bad ++ [b]
        grown := (s.lun (lunKey ch lun)).grown + 1
        suspends := 0 } := by
    refine ⟨_, ?_, .setLun _ _ _ _, rfl, .setLun _ _ _, State.lun_setLun_same _ _ _⟩
    unfold State.markBad
    extract_lets k l s1
    exact (if_neg (by simpa using fresh)).trans (if_neg (not_lt.mpr few))
  rw [marked]
  have wrote : v.Wrote (v.bumpSat Reg.CIST_HEALTH 16 16 1) [Reg.CIST_HEALTH] := .bumpSat List.mem_cons_self _ _ _
  have counted : CountedSat v (v.bumpSat Reg.CIST_HEALTH 16 16 1) Reg.CIST_HEALTH 16 16 1 := .of_bumpSat _ _ _ _ (by decide)
  generalize v.bumpSat Reg.CIST_HEALTH 16 16 1 = w at *
  have same : w.cist = v.cist := by rw [wrote.rest]
  refine ⟨kept.trans (.of_wrote wrote), .after _ _ _ _ (State.regF_congr regs _ _ _) counted, by rw [same]; exact told.cist, ?_⟩
  rw [State.lun_congr (congrArg Cistern.luns same), lun']

/-- A failure of a block set makes it bad once the register `CIST_ERR_D` has counted it and the rows it fails have moved. -/
theorem marksBad_after {ch lun : Fin 32} {b k lsb : Nat} {p : NandUnit → Bool} {i : Instr} {v w : State} (hk : k = lunKey ch lun)
    (answers : (s.lun k).state = 1) (fresh : b ∉ (s.lun k).bad) (few : ((s.lun k).grown + 1) * 8 ≤ s.cist.blocks)
    (wrote : s.Wrote v [Reg.CIST_ERR_D]) (counted : CountedSat s v Reg.CIST_ERR_D lsb 16 1)
    (failed : w = { v with cist := w.cist } ∧ v.cist.RowsOnly w.cist) (ran : exec i s = .next ((w.ungrant p).markBad ch lun b)) :
    Completes i s (fun t => t = { s with cist := t.cist, regs := t.regs } ∧ b ∈ (t.lun k).bad ∧ (t.lun k).grown = (s.lun k).grown + 1 ∧
      (t.lun k).state = 1 ∧ OnlyRegs s t [Reg.CIST_ERR_D, Reg.CIST_HEALTH] ∧ CountedSat s t Reg.CIST_ERR_D lsb 16 1 ∧
      CountedSat s t Reg.CIST_HEALTH 16 16 1 ∧ t.cist.map = s.cist.map ∧ t.cist.groups = w.cist.groups) := by
  subst hk
  obtain ⟨rest, rows⟩ := failed
  unfold Cistern.RowsOnly at rows
  have vcist : v.cist = s.cist := by rw [wrote.rest]
  have urest : w.ungrant p = { v with cist := (w.ungrant p).cist } := by rw [rest]; rfl
  have ucist : (w.ungrant p).cist = { w.cist with granted := (w.ungrant p).cist.granted } := rfl
  generalize w.ungrant p = y at *
  have ylun : y.lun (lunKey ch lun) = s.lun (lunKey ch lun) := State.lun_congr (by rw [ucist, rows, vcist]) _
  have yregs : y.regs = v.regs := by rw [urest]
  have blocks : y.cist.blocks = s.cist.blocks := by rw [ucist, rows, vcist]
  obtain ⟨kept, health, cist, lun'⟩ := State.markBad_marks (s := y) (by rw [ylun]; exact fresh) (by rw [ylun, blocks]; exact few)
  generalize y.markBad ch lun b = z at *
  have unhealthy : y.regF Reg.CIST_HEALTH 16 16 = s.regF Reg.CIST_HEALTH 16 16 :=
    (State.regF_congr yregs _ _ _).trans (wrote.only.regF _ _ _ (by decide))
  refine ⟨z, ran, ?_, ?_, ?_, ?_, ?_, ?_, ?_, ?_, ?_⟩
  · rw [kept.rest, urest, wrote.rest]
  · rw [lun']
    exact List.mem_append_right _ List.mem_cons_self
  · rw [lun', ylun]
  · rw [lun', ylun]
    exact answers
  · exact (wrote.only.mono (by simp)).trans ((OnlyRegs.of_regs yregs).trans (kept.only.mono (by simp)))
  · exact .before _ _ _ _ counted ((kept.only.regF _ _ _ (by decide)).trans (State.regF_congr yregs _ _ _))
  · exact .after _ _ _ _ unhealthy health
  · rw [cist, ucist, rows, vcist]
  · rw [cist, ucist]

theorem State.ran_failure {held : Bool} {state : Nat} (free : held = false) (answers : state = 1) : ¬ (held = true ∨ state ≠ 1) := by
  simp [free, answers]

theorem failure_marksBad (ch lun : Fin 32) (b k : Nat) (s : State) (hk : k = lunKey ch lun) (free : s.nandHeld = false)
    (answers : (s.lun k).state = 1) (fresh : b ∉ (s.lun k).bad) (few : ((s.lun k).grown + 1) * 8 ≤ s.cist.blocks) :
    Completes (.programFailure ch lun b) s (fun t => t = { s with cist := t.cist, regs := t.regs } ∧
      b ∈ (t.lun k).bad ∧ (t.lun k).grown = (s.lun k).grown + 1 ∧
      (t.lun k).state = 1 ∧ OnlyRegs s t [Reg.CIST_ERR_D, Reg.CIST_HEALTH] ∧
      CountedSat s t Reg.CIST_ERR_D 0 16 1 ∧ CountedSat s t Reg.CIST_HEALTH 16 16 1 ∧ t.cist.map = s.cist.map) ∧
    Completes (.eraseFailure ch lun b) s (fun t => t = { s with cist := t.cist, regs := t.regs } ∧
      b ∈ (t.lun k).bad ∧ (t.lun k).grown = (s.lun k).grown + 1 ∧
      (t.lun k).state = 1 ∧ OnlyRegs s t [Reg.CIST_ERR_D, Reg.CIST_HEALTH] ∧
      CountedSat s t Reg.CIST_ERR_D 16 16 1 ∧ CountedSat s t Reg.CIST_HEALTH 16 16 1 ∧ t.cist.map = s.cist.map ∧
      (∀ j g g', s.cist.groupOf (ch.val, lun.val, b) = some (j, g) → g.erasing = true →
        Store.find? t.cist.groups j = some g' → (ch.val, lun.val, b) ∉ g'.members)) := by
  have may : ¬ (s.nandHeld = true ∨ (s.lun (lunKey ch lun)).state ≠ 1) := by
    rw [← hk]
    simp [free, answers]
  constructor
  · have wrote : s.Wrote (s.bumpSat Reg.CIST_ERR_D 0 16 1) [Reg.CIST_ERR_D] := .bumpSat List.mem_cons_self _ _ _
    have counted : CountedSat s (s.bumpSat Reg.CIST_ERR_D 0 16 1) Reg.CIST_ERR_D 0 16 1 := .of_bumpSat _ _ _ _ (by decide)
    obtain ⟨w, failed, ran⟩ : ∃ w : State, (w = { s.bumpSat Reg.CIST_ERR_D 0 16 1 with cist := w.cist } ∧
        (s.bumpSat Reg.CIST_ERR_D 0 16 1).cist.RowsOnly w.cist) ∧ exec (.programFailure ch lun b) s =
          .next ((w.ungrant (s.onBlock (ch, lun, b))).markBad ch lun b) := by
      refine ⟨_, ?_, if_neg may⟩
      split
      · exact State.failRows_rowsOnly _ _ _
      · exact ⟨rfl, rfl⟩
    generalize s.bumpSat Reg.CIST_ERR_D 0 16 1 = v at *
    obtain ⟨t, run, rest, bad, grown, state, only, errors, health, map, -⟩ :=
      marksBad_after hk answers fresh few wrote counted failed ran
    exact ⟨t, run, rest, bad, grown, state, only, errors, health, map⟩
  · have wrote : s.Wrote (s.bumpSat Reg.CIST_ERR_D 16 16 1) [Reg.CIST_ERR_D] := .bumpSat List.mem_cons_self _ _ _
    have counted : CountedSat s (s.bumpSat Reg.CIST_ERR_D 16 16 1) Reg.CIST_ERR_D 16 16 1 := .of_bumpSat _ _ _ _ (by decide)
    obtain ⟨w, failed, left, ran⟩ : ∃ w : State, (w = { s.bumpSat Reg.CIST_ERR_D 16 16 1 with cist := w.cist } ∧
        (s.bumpSat Reg.CIST_ERR_D 16 16 1).cist.RowsOnly w.cist) ∧
        (∀ j g g', s.cist.groupOf (ch.val, lun.val, b) = some (j, g) → g.erasing = true →
          Store.find? w.cist.groups j = some g' → (ch.val, lun.val, b) ∉ g'.members) ∧ exec (.eraseFailure ch lun b) s =
          .next ((w.ungrant (s.onBlock (ch, lun, b))).markBad ch lun b) := by
      refine ⟨_, ?_, ?_, if_neg may⟩
      · split
        · split
          · exact ⟨rfl, rfl⟩
          · exact State.failRows_rowsOnly _ _ _
        · exact ⟨rfl, rfl⟩
      · intro j g g' group erasing held
        rw [group] at held
        dsimp only at held
        rw [if_pos erasing] at held
        obtain ⟨-, -, out⟩ := State.leaveGroup_left (s.bumpSat Reg.CIST_ERR_D 16 16 1) j g (ch, lun, b)
        exact out g' held
    generalize s.bumpSat Reg.CIST_ERR_D 16 16 1 = v at *
    obtain ⟨t, run, rest, bad, grown, state, only, errors, health, map, groups⟩ :=
      marksBad_after hk answers fresh few wrote counted failed ran
    exact ⟨t, run, rest, bad, grown, state, only, errors, health, map, by rw [groups]; exact left⟩

theorem injectCist_sets (s : State) (up : s.pageUp (keyPage Reg.CIST_INJECT) = true) (k : Nat)
    (hk : k = instKey Reg.CIST_INJECT (s.regF Reg.CIST_LUN_SEL 0 10)) :
    Completes .injectCistUe s (fun t => OnlyBitSet s t k 0) ∧ Completes .injectCistHigh s (fun t => OnlyBitSet s t k 1) ∧
    Completes .injectCistTimeout s (fun t => OnlyBitSet s t k 2) := by
  subst hk
  exact ⟨⟨_, rfl, State.writeOne_onlyBitSet up (by decide)⟩, ⟨_, rfl, State.writeOne_onlyBitSet up (by decide)⟩,
    ⟨_, rfl, State.writeOne_onlyBitSet up (by decide)⟩⟩

end Sys2Proof.Machine

section Settled
open Sys2Proof Sys2Proof.Machine

/-- Settles O51: a time-out resets and then retires, a channel retrains once, a failure makes its block set bad. -/
theorem flashFailuresHandled : Obligations.FlashFailuresHandled :=
  ⟨fun ch lun k s hk free answers trained partner _ => lunTimeout_resets ch lun k s hk free answers trained partner,
    channelRetrainDone_answers, channelRetrainDone_retrains, failure_marksBad, injectCist_sets⟩

end Settled
end

section
/-! SUPPORT. Upkeep of the Cistern: relocation, reclaim, patrol, rebuild (R389 to R396), for O52. -/

set_option Elab.async false

namespace Sys2Proof.Machine
variable {s t u : State} {c d e : Cistern}

/-! ### Relocation -/

/-- The rows, waiting words, groups and schedule of rewrites apart, the Cistern stands. -/
def Cistern.Queued (c d : Cistern) : Prop :=
  d = { c with rows := d.rows, waiting := d.waiting, groups := d.groups, nextGroup := d.nextGroup, sched := d.sched }

theorem Cistern.Queued.refl (c : Cistern) : c.Queued c := rfl

theorem Cistern.Queued.trans (a : c.Queued d) (b : d.Queued e) : c.Queued e := by
  unfold Cistern.Queued at *
  rw [b, a]

theorem Cistern.Queued.map (a : c.Queued d) : d.map = c.map := by
  unfold Cistern.Queued at a
  rw [a]

theorem Cistern.Written.queued (a : c.Written d) : c.Queued d := by
  have sched : d.sched = c.sched := by rw [a.rest]
  unfold Cistern.Queued
  rw [sched]
  exact a.rest

/-- Codewords have been relocated: where they go, the lost pages and the registers `ks` apart, the node stands. -/
structure State.Relocated (s t : State) (ks : List Nat) : Prop where
  rest : t = { s with cist := t.cist, mem := { s.mem with lost := t.mem.lost }, regs := t.regs }
  only : OnlyRegs s t ks
  cist : s.cist.Queued t.cist

theorem State.Relocated.refl (s : State) (ks : List Nat) : s.Relocated s ks := ⟨rfl, .refl _ _, rfl⟩

theorem State.Relocated.trans {ks : List Nat} (a : s.Relocated t ks) (b : t.Relocated u ks) : s.Relocated u ks := by
  refine ⟨?_, a.only.trans b.only, a.cist.trans b.cist⟩
  have lost : u.mem = { s.mem with lost := u.mem.lost } := by rw [b.rest, a.rest]
  rw [b.rest, a.rest]

theorem State.Relocated.mono {ks js : List Nat} (a : s.Relocated t ks) (h : ∀ k ∈ ks, k ∈ js) : s.Relocated t js :=
  ⟨a.rest, a.only.mono h, a.cist⟩

theorem State.Relocated.of_wrote {ks : List Nat} (a : s.Wrote t ks) : s.Relocated t ks := by
  have cist : t.cist = s.cist := by rw [a.rest]
  have mem : t.mem = s.mem := by rw [a.rest]
  refine ⟨?_, a.only, by rw [cist]; exact .refl _⟩
  rw [cist, mem]
  exact a.rest

theorem State.Relocated.of_cist {ks : List Nat} (rest : t = { s with cist := t.cist }) (cist : s.cist.Queued t.cist) : s.Relocated t ks := by
  have mem : t.mem = s.mem := by rw [rest]
  have regs : t.regs = s.regs := by rw [rest]
  refine ⟨?_, .of_regs regs, cist⟩
  rw [mem, regs]
  exact rest

theorem State.Relocated.foldl {α : Type} {ks : List Nat} {f : State → α → State} (l : List α) (a : s.Relocated t ks)
    (each : ∀ (t : State) x, x ∈ l → t.Relocated (f t x) ks) : s.Relocated (l.foldl f t) ks :=
  List.foldlRecOn (motive := (s.Relocated · ks)) l f a fun t h x hx => h.trans (each t x hx)

theorem State.losePage_relocated (s : State) (l : Nat) (ks : List Nat) : s.Relocated (s.losePage l) ks := by
  unfold State.losePage
  split
  · exact .refl _ _
  · exact ⟨rfl, .of_regs rfl, rfl⟩

theorem State.loseWords_relocated (s : State) (es : List (Nat × Nat)) : s.Relocated (s.loseWords es) [Reg.CIST_ERR_C] := by
  refine .foldl _ (.refl _ _) fun t e _ => ?_
  split
  · exact (t.losePage_relocated _ _).trans (.of_wrote (.bumpSat List.mem_cons_self _ _ _))
  · exact .refl _ _

theorem State.loseWords_cist (s : State) (es : List (Nat × Nat)) : (s.loseWords es).cist = s.cist := by
  refine List.foldlRecOn (motive := fun (t : State) => t.cist = s.cist) _ _ rfl fun t h e _ => ?_
  split
  · show (t.losePage _).cist = _
    unfold State.losePage
    split
    · exact h
    · exact h
  · exact h

theorem State.moveWords_written (s : State) (es : List (Nat × Nat)) :
    s.moveWords es = { s with cist := (s.moveWords es).cist } ∧ s.cist.Written (s.moveWords es).cist := by
  refine ⟨rfl, .foldl _ (.refl _) fun d e _ => ?_⟩
  split
  · exact .refl _
  · exact d.write_written _ _ _

theorem State.relocate_relocated (s : State) (b : Nat × Nat × Nat) : s.Relocated (s.relocate b) [Reg.CIST_ERR_C] := by
  unfold State.relocate
  extract_lets es
  obtain ⟨rest, written⟩ := State.moveWords_written (s.loseWords (es.filter (fun e => s.wordGone e.2))) (es.filter (fun e => !s.wordGone e.2))
  exact (s.loseWords_relocated _).trans (.of_cist rest written.queued)

theorem State.endRewrite_queued (s : State) (b : Nat × Nat × Nat) :
    s.endRewrite b = { s with cist := (s.endRewrite b).cist } ∧ s.cist.Queued (s.endRewrite b).cist := by
  unfold State.endRewrite
  extract_lets due c
  split
  · exact ⟨rfl, rfl⟩
  · refine ⟨rfl, ?_⟩
    have prior : s.cist.Queued c := by
      unfold c Cistern.prioritise
      split
      · rfl
      · rfl
    exact prior.trans rfl

theorem State.scheduleRewrite_relocated (s : State) (ppa : Nat) :
    s.Relocated (s.scheduleRewrite ppa) [Reg.CIST_ERR_C, Reg.CIST_CNT_RELOC] := by
  unfold State.scheduleRewrite
  extract_lets b _ s1
  split
  · exact .refl _ _
  · have noted : s.Relocated s1 [Reg.CIST_ERR_C, Reg.CIST_CNT_RELOC] := ⟨rfl, .of_regs rfl, rfl⟩
    obtain ⟨rest, queued⟩ := (s1.relocate b).endRewrite_queued b
    exact noted.trans (((s1.relocate_relocated b).mono (by simp)).trans ((State.Relocated.of_cist rest queued).trans
      (.of_wrote (.bumpSat (by simp) _ _ _))))

/-! ### Rows that close, reclaim -/

/-- Does a row of a stream close: it has waited long enough with words in it? -/
def State.ripe (s : State) (stream : Nat) (r : SRow) : Bool :=
  !r.closed && !r.words.isEmpty && decide (r.first.toNat + 100000 * s.regF Reg.CIST_CFG 40 8 ≤ s.tick.toNat) &&
    (match Store.find? s.cist.groups r.group with
      | some g => streamNum g.stream == stream
      | none => false)

theorem State.ripe_of_group {stream : Nat} {r : SRow} {g : Group} (group : Store.find? s.cist.groups r.group = some g) :
    s.ripe stream r = (!r.closed && (!r.words.isEmpty && decide (r.first.toNat + 100000 * s.regF Reg.CIST_CFG 40 8 ≤ s.tick.toNat) &&
      decide (streamNum g.stream = stream))) := by
  unfold State.ripe
  rw [group]
  simp only [Bool.and_assoc]
  rfl

theorem stripeClose_closes (stream : Fin 5) (s : State) (free : s.nandHeld = false) :
    Completes (.stripeClose stream) s (fun t =>
      t = { s with cist := { s.cist with rows := t.cist.rows } } ∧ t.cist.rows.length = s.cist.rows.length ∧
      ∀ (i : Nat) (r : SRow) (g : Group), s.cist.rows[i]? = some r → Store.find? s.cist.groups r.group = some g →
        t.cist.rows[i]? = some { r with closed := r.closed || (!r.words.isEmpty &&
          decide (r.first.toNat + 100000 * s.regF Reg.CIST_CFG 40 8 ≤ s.tick.toNat) &&
          decide (streamNum g.stream = stream.val)) }) := by
  have ran : exec (.stripeClose stream) s = .next (s.withCist { s.cist with
      rows := s.cist.rows.map fun r => if s.ripe stream r then { r with closed := true } else r }) :=
    congrArg Host.Outcome.next (if_neg (by simp [free]))
  refine ⟨_, ran, rfl, List.length_map _, fun i r g row group => ?_⟩
  refine (List.getElem?_map ..).trans ?_
  rw [row, Option.map_some, State.ripe_of_group group]
  generalize (!r.words.isEmpty && decide (r.first.toNat + 100000 * s.regF Reg.CIST_CFG 40 8 ≤ s.tick.toNat) &&
    decide (streamNum g.stream = stream.val)) = ripe
  obtain ⟨group', row', words, first, closed, done⟩ := r
  cases closed with
  | true => rfl
  | false => cases ripe <;> rfl

theorem State.reclaimGroup_relocated (s : State) (k : Nat) (g : Group) : s.Relocated (s.reclaimGroup k g) [Reg.CIST_ERR_C] := by
  unfold State.reclaimGroup
  split
  · exact .of_cist rfl rfl
  · exact .foldl _ (.refl _ _) fun t b _ => t.relocate_relocated b

/-- The groups that reclaim takes: the first of the candidates where free block sets are few, and the one to wear evenly. -/
theorem exec_reclaim (free : s.nandHeld = false) : ∃ cands first wear,
    cands = s.cist.groups.filter (fun g => !g.2.isOpen && !g.2.erasing && decide (g.2.stream ≤ 6) &&
      !s.cist.rows.any (fun r => r.group == g.1)) ∧
    first = (if s.cist.freeSets * 50 < s.cist.usable.length then
      (sortBy (fun (g : Nat × Group) => (if g.2.priority then 1099511627776 else 0) + (549755813888 - s.groupValid g.2)) cands).take 1
      else []) ∧
    wear = ((s.wearGroup).filter (fun g => cands.any (fun x => x.1 == g.1) && !first.any (fun x => x.1 == g.1))).toList ∧
    exec .reclaim s = .next ((first ++ wear).foldl (fun (t : State) g => t.reclaimGroup g.1 g.2) s) :=
  ⟨_, _, _, rfl, rfl, rfl, if_neg (by simp [free])⟩

theorem reclaim_reclaims (s : State) (free : s.nandHeld = false) : Completes .reclaim s (fun t =>
      t = { s with cist := t.cist, mem := t.mem, regs := t.regs } ∧ t.cist.map = s.cist.map ∧
      t.mem = { s.mem with lost := t.mem.lost } ∧ OnlyRegs s t [Reg.CIST_ERR_C] ∧
      t.cist.luns = s.cist.luns ∧ t.cist.media = s.cist.media ∧
      (s.cist.usable.length ≤ s.cist.freeSets * 50 → s.wearGroup = none → t = s) ∧
      (∀ k g, s.cist.freeSets * 50 < s.cist.usable.length → s.cist.groups = [(k, g)] → g.isOpen = false → g.erasing = false →
        g.stream ≤ 6 → (∀ r ∈ s.cist.rows, r.group ≠ k) → s.groupValid g = 0 →
        t.cist.groups = [(k, { g with erasing := true })])) := by
  obtain ⟨cands, first, wear, hcands, hfirst, hwear, ran⟩ := exec_reclaim free
  have moved : s.Relocated ((first ++ wear).foldl (fun (t : State) g => t.reclaimGroup g.1 g.2) s) [Reg.CIST_ERR_C] :=
    .foldl _ (.refl _ _) fun t g _ => t.reclaimGroup_relocated _ _
  have queued : s.cist.Queued _ := moved.cist
  unfold Cistern.Queued at queued
  refine ⟨_, ran, ?_, by rw [queued], ?_, moved.only, by rw [queued], by rw [queued], fun many even => ?_,
    fun k g few one shut kept stream rowless empty => ?_⟩
  · conv_lhs => rw [moved.rest]
    have mem : ((first ++ wear).foldl (fun (t : State) g => t.reclaimGroup g.1 g.2) s).mem = { s.mem with
      lost := ((first ++ wear).foldl (fun (t : State) g => t.reclaimGroup g.1 g.2) s).mem.lost } := congrArg State.mem moved.rest
    rw [← mem]
  · exact congrArg State.mem moved.rest
  · have none1 : first = [] := by rw [hfirst, if_neg (not_lt.mpr many)]
    have none2 : wear = [] := by rw [hwear, even]; rfl
    rw [none1, none2]
    rfl
  · have only : cands = [(k, g)] := by
      rw [hcands, one]
      have absent : s.cist.rows.any (fun r => r.group == k) = false := by
        simpa using rowless
      simp [shut, kept, stream, absent]
    have one1 : first = [(k, g)] := by
      rw [hfirst, if_pos few, only]
      rfl
    have none2 : wear = [] := by
      rw [hwear, only, one1]
      cases s.wearGroup with
      | none => rfl
      | some w =>
        simp [Option.filter]
    rw [one1, none2]
    show (s.reclaimGroup k g).cist.groups = _
    unfold State.reclaimGroup State.withCist
    rw [if_pos empty]
    dsimp only
    rw [one]
    simp [Store.insert]

/-! ### The patrol -/

/-- A read is counted on its block set; its rewrite may be scheduled. -/
theorem State.countRead_counts (s : State) (ppa : Nat) :
    (s.countRead ppa = { s with
      cist := (s.countRead ppa).cist
      mem := { s.mem with lost := (s.countRead ppa).mem.lost }
      regs := (s.countRead ppa).regs } ∧
    ({ s.cist with luns := (s.countRead ppa).cist.luns } : Cistern).Queued (s.countRead ppa).cist) ∧
    Counted s (s.countRead ppa) Reg.CIST_CNT_READS 0 64 1 ∧
    ∀ k, (s.countRead ppa).lun k = if k = lunKey (ppaSet ppa).1 (ppaSet ppa).2.1 then noteRead (s.lun k) (ppaSet ppa).2.2 else s.lun k := by
  unfold State.countRead
  extract_lets b k l n s1
  obtain ⟨v, hv, told, lun⟩ : ∃ v, v = s.setLun k (noteRead l b.2.2) ∧ s.LunTold v k ∧ v.lun k = noteRead l b.2.2 :=
    ⟨_, rfl, .setLun _ _ _, State.lun_setLun_same _ _ _⟩
  have regs : v.regs = s.regs := by rw [told.rest]
  have form : s1 = v.bump Reg.CIST_CNT_READS 0 64 1 := by rw [hv]; rfl
  rw [form]
  have vrest : v = { s with cist := v.cist } := by rw [hv]; rfl
  have wrote : v.Wrote (v.bump Reg.CIST_CNT_READS 0 64 1) [Reg.CIST_CNT_READS] := .bump List.mem_cons_self _ _ _
  have counted : Counted v (v.bump Reg.CIST_CNT_READS 0 64 1) Reg.CIST_CNT_READS 0 64 1 := .of_bump _ _ _ _ (by decide)
  generalize v.bump Reg.CIST_CNT_READS 0 64 1 = w at *
  obtain ⟨x, hx, moved⟩ : ∃ x, (if n ≥ s.regF Reg.CIST_CFG 8 16 * 1000 then w.scheduleRewrite ppa else w) = x ∧
      w.Relocated x [Reg.CIST_ERR_C, Reg.CIST_CNT_RELOC] := by
    refine ⟨_, rfl, ?_⟩
    split
    · exact w.scheduleRewrite_relocated ppa
    · exact .refl _ _
  rw [hx]
  have queued : w.cist.Queued x.cist := moved.cist
  unfold Cistern.Queued at *
  have wcist : w.cist = v.cist := by rw [wrote.rest]
  have luns : x.cist.luns = v.cist.luns := by rw [queued, wcist]
  refine ⟨⟨?_, ?_⟩, ?_, fun j => ?_⟩
  · have mem : x.mem = { s.mem with lost := x.mem.lost } := by rw [moved.rest, wrote.rest, vrest]
    rw [← mem]
    conv_lhs => rw [moved.rest, wrote.rest, vrest]
    rw [mem]
  · rw [luns]
    conv_lhs => rw [queued, wcist, told.cist]
  · exact .before _ _ _ _ (.after _ _ _ _ (State.regF_congr regs _ _ _) counted) (moved.only.regF _ _ _ (by decide))
  · rw [State.lun_congr luns]
    split
    next here =>
      rw [here]
      exact lun
    next other => exact told.others j other

theorem ppaSet_lt (p : Nat) : (ppaSet p).1 < 32 ∧ (ppaSet p).2.1 < 32 :=
  ⟨Nat.mod_lt _ (by decide), Nat.mod_lt _ (by decide)⟩

theorem lunKey_inj {a b c d : Nat} (ha : a < 32) (hc : c < 32) : lunKey a b = lunKey c d ↔ a = c ∧ b = d := by
  unfold lunKey
  omega

/-- The reads counted on a block set after one more read. -/
theorem State.countRead_reads (s : State) (ppa : Nat) (ch lun : Fin 32) (b : Nat) :
    Store.get (fun _ => 0) ((s.countRead ppa).lun (lunKey ch lun)).reads b =
      Store.get (fun _ => 0) (s.lun (lunKey ch lun)).reads b + if ppaSet ppa == (ch.val, lun.val, b) then 1 else 0 := by
  obtain ⟨-, -, luns⟩ := s.countRead_counts ppa
  rw [luns]
  by_cases mine : lunKey ch lun = lunKey (ppaSet ppa).1 (ppaSet ppa).2.1
  · obtain ⟨hch, hlun⟩ := (lunKey_inj ch.isLt (ppaSet_lt ppa).1).mp mine
    rw [if_pos mine]
    unfold noteRead
    by_cases here : b = (ppaSet ppa).2.2
    · have same : (ppaSet ppa == (ch.val, lun.val, b)) = true := beq_iff_eq.mpr (by rw [hch, hlun, here])
      rw [if_pos same, here, Store.get_put_same]
    · have other : ¬ (ppaSet ppa == (ch.val, lun.val, b)) = true := fun h => here (by rw [beq_iff_eq.mp h])
      rw [if_neg other]
      have same := Store.get_put_other (fun _ => 0) (s.lun (lunKey ch lun)).reads (ppaSet ppa).2.2 b
        (Store.get (fun _ => 0) (s.lun (lunKey ch lun)).reads (ppaSet ppa).2.2 + 1) here
      exact same
  · have other : ¬ (ppaSet ppa == (ch.val, lun.val, b)) = true := fun h => mine (by rw [beq_iff_eq.mp h])
    rw [if_neg mine, if_neg other]
    rfl

/-- What a run of counted reads leaves of the node. -/
structure State.Patrolled (s t : State) (part : List Nat) : Prop where
  rest : t = { s with cist := t.cist, mem := t.mem, regs := t.regs }
  map : t.cist.map = s.cist.map
  media : t.cist.media = s.cist.media
  patrolAt : t.cist.patrolAt = s.cist.patrolAt
  patrolled : t.cist.patrolled = s.cist.patrolled
  counted : Counted s t Reg.CIST_CNT_READS 0 64 part.length
  reads : ∀ (ch lun : Fin 32) (b : Nat), Store.get (fun _ => 0) (t.lun (lunKey ch lun)).reads b =
    Store.get (fun _ => 0) (s.lun (lunKey ch lun)).reads b + (part.filter (fun p => ppaSet p == (ch.val, lun.val, b))).length

theorem State.foldl_countRead_patrolled (part : List Nat) (s : State) : s.Patrolled (part.foldl State.countRead s) part := by
  induction part generalizing s with
  | nil => exact ⟨rfl, rfl, rfl, rfl, rfl, .zero _ _ _ _, fun _ _ _ => rfl⟩
  | cons p part ih =>
    rw [List.foldl_cons]
    obtain ⟨⟨rest, queued⟩, counted, -⟩ := s.countRead_counts p
    have one := s.countRead_reads p
    generalize s.countRead p = v at *
    have tail := ih v
    generalize part.foldl State.countRead v = w at *
    unfold Cistern.Queued at queued
    refine ⟨by rw [tail.rest, rest], by rw [tail.map, queued], by rw [tail.media, queued], by rw [tail.patrolAt, queued],
      by rw [tail.patrolled, queued], ?_, fun ch lun b => ?_⟩
    · rw [List.length_cons, Nat.add_comm]
      exact .add _ _ _ _ _ counted tail.counted
    · rw [tail.reads, one, List.filter_cons]
      split
      · rw [List.length_cons]
        omega
      · rfl

theorem cisternPatrol_reads (reads period : Nat) (s : State) (free : s.nandHeld = false)
    (hperiod : period = s.tick.toNat / (8640000000000 * max 1 (s.regF Reg.CIST_CFG 54 8))) :
    (s.cist.patrolAt = 0 → s.cist.patrolled = some period → Completes (.cisternPatrol [] reads) s (fun t => t = s)) ∧
    ((s.cist.patrolAt ≠ 0 ∨ s.cist.patrolled ≠ some period) → Completes (.cisternPatrol [] reads) s (fun t =>
      t = { s with cist := t.cist, mem := t.mem, regs := t.regs } ∧ t.cist.map = s.cist.map ∧ t.cist.media = s.cist.media ∧
      t.cist.patrolled = (if s.cist.patrolAt = 0 then some period else s.cist.patrolled) ∧
      ∀ part, part = (s.cist.wordlines.drop s.cist.patrolAt).take reads →
        Counted s t Reg.CIST_CNT_READS 0 64 part.length ∧
        t.cist.patrolAt = (if s.cist.wordlines.length ≤ s.cist.patrolAt + part.length then 0
          else s.cist.patrolAt + part.length) ∧
        ∀ (ch lun : Fin 32) (b : Nat), Store.get (fun _ => 0) (t.lun (lunKey ch lun)).reads b =
          Store.get (fun _ => 0) (s.lun (lunKey ch lun)).reads b +
            (part.filter (fun p => ppaSet p == (ch.val, lun.val, b))).length)) := by
  subst hperiod
  refine ⟨fun start done => ⟨s, if_pos (.inr ⟨start, done⟩), rfl⟩, fun due => ?_⟩
  have goes : ¬ (s.nandHeld = true ∨ (s.cist.patrolAt = 0 ∧
      s.cist.patrolled = some (s.tick.toNat / (8640000000000 * max 1 (s.regF Reg.CIST_CFG 54 8))))) := by
    rintro (held | ⟨start, done⟩)
    · exact absurd held (by simp [free])
    · exact due.elim (· start) (· done)
  obtain ⟨v, ran, rest, cist⟩ : ∃ v : State, exec (.cisternPatrol [] reads) s =
        .next (((s.cist.wordlines.drop s.cist.patrolAt).take reads).foldl State.countRead v) ∧ v = { s with cist := v.cist } ∧
      v.cist = { s.cist with
        patrolAt := if s.cist.wordlines.length ≤ s.cist.patrolAt + ((s.cist.wordlines.drop s.cist.patrolAt).take reads).length then 0
          else s.cist.patrolAt + ((s.cist.wordlines.drop s.cist.patrolAt).take reads).length
        patrolled := if s.cist.patrolAt = 0 then some (s.tick.toNat / (8640000000000 * max 1 (s.regF Reg.CIST_CFG 54 8)))
          else s.cist.patrolled } := ⟨_, if_neg goes, rfl, rfl⟩
  have read := State.foldl_countRead_patrolled ((s.cist.wordlines.drop s.cist.patrolAt).take reads) v
  have luns (k : Nat) : v.lun k = s.lun k := State.lun_congr (by rw [cist]) _
  refine ⟨_, ran, by rw [read.rest, rest], by rw [read.map, cist], by rw [read.media, cist], by rw [read.patrolled, cist], ?_⟩
  rintro _ rfl
  refine ⟨.after _ _ _ _ (State.regF_congr (by rw [rest]) _ _ _) read.counted, by rw [read.patrolAt, cist], fun ch lun b => ?_⟩
  rw [read.reads, luns]

/-! ### Relocated copies -/

theorem Cistern.queue_rows (c : Cistern) (now : Time) (stream : Nat) (w : Cword) : c.Queued (c.queue now stream w) := by
  unfold Cistern.queue
  extract_lets swap rs
  split
  · rfl
  · split
    · rfl
    · exact (show c.Queued { c with rows := rs } from rfl).trans (Cistern.write_written _ _ _ _).queued

theorem State.queueMap_map (s : State) (m : Nat) : (s.queueMap m).cist.map = s.cist.map := by
  have first := s.cist.queue_rows s.tick 3 ⟨m, none, false, s.mem.stamp + 1, s.cist.mapPage m, false⟩
  have second := (s.cist.queue s.tick 3 ⟨m, none, false, s.mem.stamp + 1, s.cist.mapPage m, false⟩).queue_rows s.tick 5
    ⟨m, none, true, s.mem.stamp + 1, s.cist.mapPage m, false⟩
  exact second.map.trans first.map

/-- A page's map entry has been set: that of no other page, and no page of the map directory, changes. -/
theorem State.mapSet_sets (s : State) (l p : Nat) : s.mapSet l (some p) = { s with
      cist := (s.mapSet l (some p)).cist
      mem := { s.mem with stamp := (s.mapSet l (some p)).mem.stamp } } ∧
    (s.mapSet l (some p)).cist.map = Store.insert s.cist.map l p := by
  refine ⟨rfl, ?_⟩
  unfold State.mapSet
  extract_lets s1 c
  obtain ⟨v, hv, map⟩ : ∃ v : State, v = { s1 with cist := { c with map := Store.insert c.map l p, trims := c.trims.filter (· != l) } } ∧
      v.cist.map = Store.insert s.cist.map l p := ⟨_, rfl, rfl⟩
  rw [← hv, ← map]
  exact v.queueMap_map _

theorem relocationSwitch_switches (l old i p : Nat) (r : SRow) (s : State) (found : s.cist.findWord l (some old) false = some (r, i))
    (done : s.cist.programmed r i = some p) (room : s.mapHeld = false) (page : lpnSpace l < 2) :
    (s.mapCold l = true → Completes (.relocationSwitch l old) s (fun t => t = s.readMapOf l ∧ t.cist.map = s.cist.map)) ∧
    (s.mapCold l = false →
    Completes (.relocationSwitch l old) s (fun t => t = { s with mem := t.mem, cist := t.cist, regs := t.regs } ∧
      t.mem = { s.mem with stamp := t.mem.stamp } ∧
      (∀ j, j ≠ l → Store.find? t.cist.map j = Store.find? s.cist.map j) ∧
      (Store.find? s.cist.map l = some old → l ∉ s.cist.trims →
        Store.find? t.cist.map l = some p ∧ Counted s t Reg.CIST_CNT_RELOC 0 32 1) ∧
      (Store.find? s.cist.map l ≠ some old → t.cist.map = s.cist.map ∧ CountedSat s t Reg.CIST_CNT_RELOC 32 16 1))) := by
  have free : ¬ (lpnSpace l < 2 ∧ s.mapHeld = true) := by simp [room]
  constructor
  · intro cold
    refine ⟨s.readMapOf l, ?_, rfl, ?_⟩
    · show execRelocationSwitch l old s = _
      unfold execRelocationSwitch
      rw [found]
      dsimp only
      rw [done]
      exact (if_neg free).trans (if_pos ⟨page, cold⟩)
    · unfold State.readMapOf State.readMap
      split
      · rfl
      · rfl
  · intro warm
    have cached : ¬ (lpnSpace l < 2 ∧ s.mapCold l = true) := by simp [warm]
    have settled : s.cist.settleWord r i = { s.cist with rows := (s.cist.settleWord r i).rows } := rfl
    obtain ⟨v, hv, vrest, vcist⟩ : ∃ v : State, v = s.withCist (s.cist.settleWord r i) ∧ v = { s with cist := v.cist } ∧
        v.cist = { s.cist with rows := v.cist.rows } := ⟨_, rfl, rfl, rfl⟩
    have ran : exec (.relocationSwitch l old) s = .next ((match v.switchWord l old p with
        | some t => t.bump Reg.CIST_CNT_RELOC 0 32 1
        | none => v.bumpSat Reg.CIST_CNT_RELOC 32 16 1).endRewrite (ppaSet old)).endRebuilds := by
      show execRelocationSwitch l old s = _
      unfold execRelocationSwitch
      rw [found]
      dsimp only
      rw [done]
      refine (if_neg free).trans ((if_neg cached).trans ?_)
      subst hv
      rfl
    have regs : v.regs = s.regs := by rw [vrest]
    have map : v.cist.map = s.cist.map := by rw [vcist]
    have trims : v.cist.trims = s.cist.trims := by rw [vcist]
    have switched : v.switchWord l old p = if Store.find? s.cist.map l = some old ∧ ¬ s.cist.trims.contains l = true then
        some (v.mapSet l (some p)) else none := by
      unfold State.switchWord
      rw [if_neg page.ne, map, trims]
    have ended (w : State) : (w.endRewrite (ppaSet old)).endRebuilds =
        { w with cist := (w.endRewrite (ppaSet old)).endRebuilds.cist } ∧
        (w.endRewrite (ppaSet old)).endRebuilds.cist.map = w.cist.map := by
      obtain ⟨rest, queued⟩ := w.endRewrite_queued (ppaSet old)
      generalize w.endRewrite (ppaSet old) = x at *
      refine ⟨?_, ?_⟩
      · unfold State.endRebuilds State.withCist
        rw [rest]
      · show x.cist.map = _
        unfold Cistern.Queued at queued
        rw [queued]
    clear hv
    rw [switched] at ran
    by_cases named : Store.find? s.cist.map l = some old ∧ ¬ s.cist.trims.contains l = true
    · rw [if_pos named] at ran
      obtain ⟨rest, set⟩ := v.mapSet_sets l p
      dsimp only at ran
      generalize v.mapSet l (some p) = w at *
      have wregs : w.regs = v.regs := by rw [rest]
      have wrote : w.Wrote (w.bump Reg.CIST_CNT_RELOC 0 32 1) [Reg.CIST_CNT_RELOC] := .bump List.mem_cons_self _ _ _
      have counted : Counted w (w.bump Reg.CIST_CNT_RELOC 0 32 1) Reg.CIST_CNT_RELOC 0 32 1 := .of_bump _ _ _ _ (by decide)
      generalize w.bump Reg.CIST_CNT_RELOC 0 32 1 = x at *
      obtain ⟨erest, emap⟩ := ended x
      generalize (x.endRewrite (ppaSet old)).endRebuilds = y at *
      have ymap : y.cist.map = Store.insert s.cist.map l p := by rw [emap, wrote.rest, set, map]
      have ymem : y.mem = { s.mem with stamp := y.mem.stamp } := by rw [erest, wrote.rest, rest, vrest]
      have yregs : y.regs = x.regs := by rw [erest]
      refine ⟨y, ran, ?_, ymem, fun j d => ?_, fun _ _ => ⟨?_, ?_⟩, fun h => absurd named.1 h⟩
      · conv_lhs => rw [erest, wrote.rest, rest, vrest]
        rw [show y.mem = w.mem by rw [erest, wrote.rest], show w.mem = { s.mem with stamp := w.mem.stamp } by rw [rest, vrest], yregs]
      · rw [ymap, Store.find?_insert_other _ _ _ _ d]
      · rw [ymap, Store.find?_insert_same]
      · exact .before _ _ _ _ (.after _ _ _ _ (State.regF_congr (wregs.trans regs) _ _ _) counted) (State.regF_congr yregs _ _ _)
    · rw [if_neg named] at ran
      dsimp only at ran
      have wrote : v.Wrote (v.bumpSat Reg.CIST_CNT_RELOC 32 16 1) [Reg.CIST_CNT_RELOC] := .bumpSat List.mem_cons_self _ _ _
      have counted : CountedSat v (v.bumpSat Reg.CIST_CNT_RELOC 32 16 1) Reg.CIST_CNT_RELOC 32 16 1 := .of_bumpSat _ _ _ _ (by decide)
      generalize v.bumpSat Reg.CIST_CNT_RELOC 32 16 1 = x at *
      obtain ⟨erest, emap⟩ := ended x
      generalize (x.endRewrite (ppaSet old)).endRebuilds = y at *
      have ymap : y.cist.map = s.cist.map := by rw [emap, wrote.rest, map]
      have ymem : y.mem = s.mem := by rw [erest, wrote.rest, vrest]
      have yregs : y.regs = x.regs := by rw [erest]
      refine ⟨y, ran, ?_, by rw [ymem], fun j _ => by rw [ymap], fun h fresh => absurd ⟨h, by simpa using fresh⟩ named, fun _ => ⟨ymap, ?_⟩⟩
      · rw [ymem, yregs]
        conv_lhs => rw [erest, wrote.rest, vrest]
      · exact .before _ _ _ _ (.after _ _ _ _ (State.regF_congr regs _ _ _) counted) (State.regF_congr yregs _ _ _)

/-! ### Rebuilds -/

/-- Does a member belong to a LUN? -/
def ofLun (ch lun : Nat) (m : Nat × Nat × Nat) : Bool := m.1 == ch && m.2.1 == lun

/-- One group of a lost LUN is rebuilt: it is closed and marked for reclaim, and its words move or are lost. -/
def State.rebuildGroup (s : State) (mine : Nat × Nat × Nat → Bool) (failed : List Nat) (g : Nat × Group) : State :=
  let t1 := s.withCist { s.cist with groups := Store.insert s.cist.groups g.1 { g.2 with priority := true, isOpen := false } }
  let es := g.2.members.flatMap t1.validIn
  let gone := es.filter (fun e => t1.wordLost failed e.2 && decide (1 < stripeLost (t1.wordLost failed) g.2 e.2))
  let good := es.filter (fun e => mine (ppaSet e.2) && decide (stripeLost (t1.wordLost failed) g.2 e.2 ≤ 1))
  ((t1.loseWords gone).moveWords good).bumpSat Reg.CIST_ERR_B 32 32 good.length

/-- What the rebuild of a group keeps: the map, the requests, and the marks of the groups that stand. -/
structure State.GroupRebuilt (s t : State) : Prop where
  map : t.cist.map = s.cist.map
  reqs : t.reqs = s.reqs
  next : s.cist.nextGroup ≤ t.cist.nextGroup
  marked : ∀ k, k < s.cist.nextGroup → (∃ g, Store.find? s.cist.groups k = some g ∧ g.priority = true) →
    ∃ g, Store.find? t.cist.groups k = some g ∧ g.priority = true

theorem State.GroupRebuilt.refl (s : State) : s.GroupRebuilt s := ⟨rfl, rfl, le_rfl, fun _ _ h => h⟩

theorem State.GroupRebuilt.trans (a : s.GroupRebuilt t) (b : t.GroupRebuilt u) : s.GroupRebuilt u :=
  ⟨b.map.trans a.map, b.reqs.trans a.reqs, a.next.trans b.next, fun k below h => b.marked k (below.trans_le a.next) (a.marked k below h)⟩

theorem State.rebuildGroup_rebuilt (s : State) (mine : Nat × Nat × Nat → Bool) (failed : List Nat) (g : Nat × Group) :
    s.GroupRebuilt (s.rebuildGroup mine failed g) ∧ (g.1 < s.cist.nextGroup →
      ∃ g', Store.find? (s.rebuildGroup mine failed g).cist.groups g.1 = some g' ∧ g'.priority = true) := by
  unfold State.rebuildGroup
  extract_lets _ _ t1 es gone good
  have first : s.GroupRebuilt t1 ∧ ∃ g', Store.find? t1.cist.groups g.1 = some g' ∧ g'.priority = true := by
    have here : Store.find? t1.cist.groups g.1 = some { g.2 with priority := true, isOpen := false } := Store.find?_insert_same _ _ _
    refine ⟨⟨rfl, rfl, le_rfl, fun k _ held => ?_⟩, _, here, rfl⟩
    by_cases same : k = g.1
    · exact ⟨_, by rw [same]; exact here, rfl⟩
    · obtain ⟨g', found, marked⟩ := held
      exact ⟨g', (Store.find?_insert_other _ _ _ _ same).trans found, marked⟩
  have next1 : t1.cist.nextGroup = s.cist.nextGroup := rfl
  clear_value t1
  have lost := t1.loseWords_relocated gone
  have lostCist := t1.loseWords_cist gone
  generalize t1.loseWords gone = t2 at *
  obtain ⟨rest, written⟩ := t2.moveWords_written good
  generalize t2.moveWords good = t3 at *
  have wrote : t3.Wrote (t3.bumpSat Reg.CIST_ERR_B 32 32 good.length) [Reg.CIST_ERR_B] := .bumpSat List.mem_cons_self _ _ _
  generalize t3.bumpSat Reg.CIST_ERR_B 32 32 good.length = t4 at *
  have cist : t4.cist = t3.cist := by rw [wrote.rest]
  rw [lostCist] at written
  have second : t1.GroupRebuilt t4 := by
    refine ⟨by rw [cist, written.rest], by rw [wrote.rest, rest, lost.rest], by rw [cist]; exact written.next, fun k below held => ?_⟩
    obtain ⟨g', found, marked⟩ := held
    obtain ⟨r, o, group⟩ := written.group k below
    exact ⟨{ g' with rows := r, isOpen := o }, by rw [cist, group, found]; rfl, marked⟩
  exact ⟨first.1.trans second, fun below => second.marked _ (by rw [next1]; exact below) first.2⟩

theorem State.foldl_rebuildGroup_rebuilt (mine : Nat × Nat × Nat → Bool) (failed : List Nat) (gs : List (Nat × Group)) (s : State)
    (below : ∀ g ∈ gs, g.1 < s.cist.nextGroup) : s.GroupRebuilt (gs.foldl (fun t g => t.rebuildGroup mine failed g) s) ∧
    ∀ g ∈ gs, ∃ g', Store.find? (gs.foldl (fun t g => t.rebuildGroup mine failed g) s).cist.groups g.1 = some g' ∧ g'.priority = true := by
  induction gs generalizing s with
  | nil => exact ⟨.refl s, by simp⟩
  | cons g gs ih =>
    obtain ⟨first, marked⟩ := s.rebuildGroup_rebuilt mine failed g
    obtain ⟨rest, others⟩ := ih (s.rebuildGroup mine failed g) fun x hx => (below x (List.mem_cons_of_mem _ hx)).trans_le first.next
    refine ⟨first.trans rest, fun x hx => ?_⟩
    obtain rfl | hx := List.mem_cons.mp hx
    · have small := below x List.mem_cons_self
      exact rest.marked _ (small.trans_le first.next) (marked small)
    · exact others x hx

theorem lunRebuild_rebuilds (ch lun : Fin 32) (failed : List Nat) (s : State) (free : s.nandHeld = false)
    (queued : (ch.val, lun.val) ∈ s.cist.rebuild) (below : ∀ k ∈ Store.keys s.cist.groups, k < s.cist.nextGroup) :
    Completes (.lunRebuild ⟨ch, lun⟩ failed) s (fun t => t.cist.map = s.cist.map ∧ t.reqs = s.reqs ∧
      ((ch.val, lun.val) ∈ t.cist.rebuild → ∃ g ∈ t.cist.groups, ∃ m ∈ g.2.members, m.1 = ch.val ∧ m.2.1 = lun.val ∧
        (g.2.priority = false ∨ t.validIn m ≠ [])) ∧
      ∀ k g, (k, g) ∈ s.cist.groups → (∃ b, (ch.val, lun.val, b) ∈ g.members) →
        ∃ g', Store.find? t.cist.groups k = some g' ∧ g'.priority = true) := by
  have goes : ¬ (s.nandHeld = true ∨ (!s.cist.rebuild.contains (ch.val, lun.val)) = true) := by
    simp [free, queued]
  have ran : exec (.lunRebuild ⟨ch, lun⟩ failed) s = .next (((s.cist.groups.filter (fun g => g.2.members.any (ofLun ch lun))).foldl
      (fun (t : State) g => t.rebuildGroup (ofLun ch lun) failed g) s).endRebuilds) := if_neg goes
  obtain ⟨rebuilt, marked⟩ := State.foldl_rebuildGroup_rebuilt (ofLun ch lun) failed
    (s.cist.groups.filter (fun g => g.2.members.any (ofLun ch lun))) s fun g hg =>
      below g.1 (List.mem_map_of_mem (List.mem_of_mem_filter hg))
  generalize (s.cist.groups.filter (fun g => g.2.members.any (ofLun ch lun))).foldl
    (fun (t : State) g => t.rebuildGroup (ofLun ch lun) failed g) s = v at *
  refine ⟨_, ran, rebuilt.map, rebuilt.reqs, fun stays => ?_, fun k g hg ⟨b, hb⟩ => ?_⟩
  · have stays : (ch.val, lun.val) ∈ v.cist.rebuild.filter _ := stays
    obtain ⟨-, some⟩ := List.mem_filter.mp stays
    obtain ⟨g, hg, some⟩ := List.any_eq_true.mp some
    obtain ⟨m, hm, some⟩ := List.any_eq_true.mp some
    simp only [Bool.and_eq_true, beq_iff_eq, Bool.or_eq_true, Bool.not_eq_true', List.isEmpty_eq_false_iff] at some
    obtain ⟨⟨hch, hlun⟩, left⟩ := some
    exact ⟨g, hg, m, hm, hch, hlun, left⟩
  · exact marked (k, g) (List.mem_filter.mpr ⟨hg, List.any_eq_true.mpr ⟨_, hb, by simp [ofLun]⟩⟩)

/-! ### Temperatures and the system area -/

theorem lunTempRead_reads (ch lun : Fin 32) (temp : Int) (s : State) (free : s.nandHeld = false) :
    Completes (.lunTempRead ch lun temp) s (fun t =>
      t = { s with cist := t.cist, regs := t.regs, out := t.out } ∧
      (∀ a, s.cist.feature = some a → (t.lun (lunKey ch lun)).temp = temp ∧ t.out = s.out ++ [Out.nand ch lun (.getFeature a)]) ∧
      (s.cist.feature = none → t.cist.luns = s.cist.luns ∧ t.out = s.out) ∧
      t.cist.throttled = (decide (2 ≤ s.cist.state) && decide (s.cist.maxTemp - 5 ≤ temp)) ∧
      t.cist.seconds = (s.cist.seconds + 1) % 60 ∧ (s.cist.seconds ≠ 59 → t.regs = s.regs)) := by
  obtain ⟨v, key, lsb, ran, rest, told, silent, hot, seconds⟩ : ∃ (v : State) (key lsb : Nat), exec (.lunTempRead ch lun temp) s =
        .next (if s.cist.seconds = 59 then v.bumpSat key lsb 32 1 else v) ∧
      v = { s with cist := v.cist, out := v.out } ∧
      (∀ a, s.cist.feature = some a → (v.lun (lunKey ch lun)).temp = temp ∧ v.out = s.out ++ [Out.nand ch lun (.getFeature a)]) ∧
      (s.cist.feature = none → v.cist.luns = s.cist.luns ∧ v.out = s.out) ∧
      v.cist.throttled = (decide (2 ≤ s.cist.state) && decide (s.cist.maxTemp - 5 ≤ temp)) ∧
      v.cist.seconds = (s.cist.seconds + 1) % 60 := by
    show ∃ v key lsb, execLunTempRead ch lun temp s = _ ∧ _
    unfold execLunTempRead
    extract_lets k c mx b _ s1 _ c1 s2
    have split_ : (if s.nandHeld = true then .next s
        else if c.seconds = 59 then .next (s2.bumpSat (Reg.CIST_TEMP_HIST + 8 * (b / 2)) (32 * (b % 2)) 32 1) else .next s2 : Res) =
        .next (if s.cist.seconds = 59 then s2.bumpSat (Reg.CIST_TEMP_HIST + 8 * (b / 2)) (32 * (b % 2)) 32 1 else s2) := by
      rw [if_neg (by simp [free])]
      split
      · rfl
      · rfl
    refine ⟨s2, _, _, split_, ?_, fun a feature => ?_, fun feature => ?_, rfl, rfl⟩
    · have one : s1 = { s with cist := s1.cist, out := s1.out } := by
        unfold s1
        split
        · rfl
        · rfl
      unfold s2 State.withCist
      rw [one]
    · have one : s1 = (s.setLun k { s.lun k with temp := temp }).nandBus ch lun (.getFeature a) := by
        unfold s1
        rw [show c.feature = some a from feature]
      have lun1 : s1.lun k = { s.lun k with temp := temp } := by
        rw [one]
        exact State.lun_setLun_same (s := s) _ _
      refine ⟨show (s1.lun k).temp = temp by rw [lun1], show s1.out = _ by rw [one]; rfl⟩
    · have one : s1 = s := by
        unfold s1
        rw [show c.feature = none from feature]
      exact ⟨show s1.cist.luns = _ by rw [one], show s1.out = _ by rw [one]⟩
  by_cases last : s.cist.seconds = 59
  · rw [if_pos last] at ran
    have wrote : v.Wrote (v.bumpSat key lsb 32 1) [key] := .bumpSat List.mem_cons_self _ _ _
    generalize v.bumpSat key lsb 32 1 = w at *
    have cist : w.cist = v.cist := by rw [wrote.rest]
    have out : w.out = v.out := by rw [wrote.rest]
    refine ⟨w, ran, ?_, fun a feature => ?_, fun feature => ?_, by rw [cist, hot], by rw [cist, seconds], fun h => absurd last h⟩
    · rw [cist, out]
      conv_lhs => rw [wrote.rest, rest]
    · rw [State.lun_congr (congrArg Cistern.luns cist), out]
      exact told a feature
    · rw [cist, out]
      exact silent feature
  · rw [if_neg last] at ran
    have regs : v.regs = s.regs := by rw [rest]
    exact ⟨v, ran, by rw [regs]; exact rest, told, silent, hot, seconds, fun _ => regs⟩

theorem systemAreaWrite_saves (s : State) (free : s.nandHeld = false) (formatted : s.cist.state ≠ 0) :
    Completes .systemAreaWrite s (fun t =>
      t = { s with cist := { s.cist with saved := t.cist.saved } } ∧ t.cist.saved.record = s.cist.record ∧
      t.cist.saved.luns = s.cist.luns ∧ ∀ k ∈ savedRegs, (k, s.reg k) ∈ t.cist.saved.regs) := by
  have goes : ¬ (s.nandHeld = true ∨ s.cist.state = 0) := by simp [free, formatted]
  exact ⟨s.saveArea, if_neg goes, rfl, rfl, rfl, fun k hk => List.mem_map_of_mem hk⟩

end Sys2Proof.Machine
end

section
/-! SUPPORT. Formatting of the media (R397 to R399), for O52. -/

set_option Elab.async false

namespace Sys2Proof.Machine
variable {s t u : State}

/-- The media have been looked at for a format: what formatting empties stays empty. -/
structure State.Probed (s t : State) : Prop where
  rest : t = { s with out := t.out, cist := t.cist, regs := t.regs, record := t.record, keeper := t.keeper, points := t.points }
  cist : t.cist = { s.cist with luns := t.cist.luns, granted := t.cist.granted, rebuild := t.cist.rebuild, saved := t.cist.saved }

theorem State.Probed.refl (s : State) : s.Probed s := ⟨rfl, rfl⟩

theorem State.Probed.trans (a : s.Probed t) (b : t.Probed u) : s.Probed u := ⟨by rw [b.rest, a.rest], by rw [b.cist, a.cist]⟩

theorem State.Probed.of_wrote {ks : List Nat} (a : s.Wrote t ks) : s.Probed t := by
  have cist : t.cist = s.cist := by rw [a.rest]
  refine ⟨?_, by rw [cist]⟩
  have out : t.out = s.out := by rw [a.rest]
  have record : t.record = s.record := by rw [a.rest]
  have keeper : t.keeper = s.keeper := by rw [a.rest]
  have points : t.points = s.points := by rw [a.rest]
  rw [cist, out, record, keeper, points]
  exact a.rest

/-- Saving the system area and bringing the points of the channels into line keep what a format empties. -/
theorem State.saved_probed {c : Cistern} (h : c = { s.cist with rebuild := c.rebuild }) : s.Probed (s.withCist c).saveArea.chanPoints := by
  obtain ⟨v, hv, saved⟩ : ∃ v, (s.withCist c).saveArea = v ∧ s.Probed v := by
    rw [h]
    exact ⟨_, rfl, rfl, rfl⟩
  rw [hv]
  have pointed := v.chanPoints_rest
  generalize v.chanPoints = w at *
  have cist : w.cist = v.cist := by rw [pointed]
  refine saved.trans ⟨?_, by rw [cist]⟩
  have out : w.out = v.out := by rw [pointed]
  have regs : w.regs = v.regs := by rw [pointed]
  have record : w.record = v.record := by rw [pointed]
  have keeper : w.keeper = v.keeper := by rw [pointed]
  rw [cist, out, regs, record, keeper]
  exact pointed

/-- With no group on the media, the retirement of a LUN moves no row. -/
theorem State.retireLun_probed (groups : s.cist.groups = []) (ch lun : Nat) : s.Probed (s.retireLun ch lun) := by
  unfold State.retireLun
  extract_lets k l s1 s2 ms s3 _
  split
  · exact .refl s
  have first : s.Probed s1 := by
    unfold s1
    rw [s.retire_rest kLun k 0]
    exact ⟨rfl, rfl⟩
  have second : s.Probed s2 := first.trans (.of_wrote (ks := [Reg.CIST_ERR_D]) (.bumpSat List.mem_cons_self _ _ _))
  have groups2 : s2.cist.groups = [] := by rw [second.cist]; exact groups
  have third : s3 = s2 := by
    refine List.foldlRecOn (motive := (· = s2)) ms _ rfl fun t h p _ => ?_
    unfold State.failRows
    rw [h, groups2]
    rfl
  have probed : s.Probed s3 := by
    rw [third]
    exact second
  exact probed.trans (State.saved_probed rfl)

theorem State.formatFailures_probed (groups : s.cist.groups = []) (media : Media) : s.Probed (s.formatFailures media) := by
  refine List.foldlRecOn (motive := (s.Probed ·)) media.luns _ (.refl s) fun t h f _ => ?_
  extract_lets k n t1
  have counted : t.Probed t1 := (State.Probed.of_wrote (.bumpSat (ks := [Reg.CIST_ERR_D]) (by simp) _ _ _)).trans
    (.of_wrote (.bumpSat (ks := [Reg.CIST_HEALTH]) (by simp) _ _ _))
  have next : s.Probed t1 := h.trans counted
  split
  · exact next.trans (State.retireLun_probed (by rw [next.cist]; exact groups) _ _)
  · exact next

/-- With no block set that failed, no LUN changes. -/
theorem State.formatFailures_luns {media : Media} (good : ∀ f ∈ media.luns, f.eraseFailed = []) :
    (s.formatFailures media).cist.luns = s.cist.luns := by
  refine List.foldlRecOn (motive := fun (t : State) => t.cist.luns = s.cist.luns) media.luns _ rfl fun t h f hf => ?_
  extract_lets k n t1
  have same : t1.cist.luns = t.cist.luns := rfl
  rw [if_neg fun c => c.1 (by unfold n; rw [good f hf]; rfl), same, h]

theorem State.identifyLuns_probed (s : State) (media : Media) :
    s.identifyLuns media = { s with out := (s.identifyLuns media).out } := by
  refine List.foldlRecOn (motive := fun (t : State) => t = { s with out := t.out }) media.luns _ rfl fun t h f _ => ?_
  unfold State.nandBus State.emit
  rw [h]

/-- Values inserted under distinct keys all stand. -/
theorem find?_foldl_insert_of_nodup {α β : Type} (key : β → Nat) (val : β → α) (l : List β) (st : Store α)
    (nodup : (l.map key).Nodup) (x : β) (hx : x ∈ l) :
    Store.find? (l.foldl (fun st x => Store.insert st (key x) (val x)) st) (key x) = some (val x) := by
  induction l using List.reverseRecOn with
  | nil => cases hx
  | append_singleton l y ih =>
    rw [List.foldl_append, List.foldl_cons, List.foldl_nil]
    rw [List.map_append, List.nodup_append] at nodup
    obtain ⟨nodup, -, apart⟩ := nodup
    obtain hx | hx := List.mem_append.mp hx
    · rw [Store.find?_insert_other _ _ _ _ (apart _ (List.mem_map_of_mem hx) _ (List.mem_map_of_mem List.mem_cons_self))]
      exact ih nodup hx
    · rw [List.mem_singleton.mp hx, Store.find?_insert_same]

/-- A LUN that the format includes, and that is not retired, answers afterwards. -/
theorem State.formatLuns_answers {media : Media} (nodup : (media.luns.map (fun g => lunKey g.ch g.lun)).Nodup) {f : LunFound}
    (hf : f ∈ media.luns) (included : mediaIncludes media f = true) (unretired : recorded s.record kLun (lunKey f.ch f.lun) = false) :
    (s.formatLuns media).any (fun l => l.1 % 32 == f.ch.val && l.2.state == 1) = true := by
  have found := find?_foldl_insert_of_nodup (fun g : LunFound => lunKey g.ch g.lun) (fun f : LunFound => { s.lun (lunKey f.ch f.lun) with
      state := if recorded s.record kLun (lunKey f.ch f.lun) then 2 else if mediaIncludes media f then 1 else 3
      bad := ((s.lun (lunKey f.ch f.lun)).bad ++ f.bad ++ f.eraseFailed).dedup
      grown := (s.lun (lunKey f.ch f.lun)).grown +
        (f.eraseFailed.filter (fun b => !(s.lun (lunKey f.ch f.lun)).bad.contains b)).length
      eraseBase := (s.lun (lunKey f.ch f.lun)).eraseBase + b2n (mediaIncludes media f)
      reads := []
      suspends := 0
      ahead := []
      timedOut := false
      unerased := [] }) media.luns (absentLuns s.cist.luns) nodup f hf
  refine List.any_eq_true.mpr ⟨_, Store.mem_of_find? found, ?_⟩
  have channel : lunKey f.ch f.lun % 32 = f.ch.val := by
    have := f.ch.isLt
    unfold lunKey
    omega
  simp [unretired, included, channel]

/-- The node as the media of a format have been emptied and looked at. -/
def State.probe (s : State) (media : Media) : State :=
  ((s.withCist ({ s.cist with luns := s.formatLuns media } : Cistern).emptied).identifyLuns media).formatFailures media

theorem State.probe_probed (s : State) (media : Media) :
    (s.withCist ({ s.cist with luns := s.formatLuns media } : Cistern).emptied).Probed (s.probe media) := by
  obtain ⟨v, hv, groups⟩ : ∃ v, v = s.withCist ({ s.cist with luns := s.formatLuns media } : Cistern).emptied ∧ v.cist.groups = [] :=
    ⟨_, rfl, rfl⟩
  unfold State.probe
  rw [← hv]
  have named := v.identifyLuns_probed media
  generalize v.identifyLuns media = w at *
  have first : v.Probed w := by
    rw [named]
    exact ⟨rfl, rfl⟩
  exact first.trans (State.formatFailures_probed (by rw [first.cist]; exact groups) media)

/-- The channels on which a LUN answers. -/
def State.channels (s : State) : Nat := ((List.range 32).filter (fun ch => s.cist.luns.any (fun l => l.1 % 32 == ch && l.2.state == 1))).length

/-- A format fails with its reason. -/
def State.failFormat (s : State) (r : Nat) : State := s.withCist { s.cist with state := 0, userPages := 0, lastErr := r }

/-- A format that has failed leaves nothing on the media. -/
structure State.FormatFailed (s t : State) (r : Nat) : Prop where
  reqs : t.reqs = s.reqs
  indexes : t.indexes = s.indexes
  mem : t.mem = s.mem
  map : t.cist.map = []
  rows : t.cist.rows = []
  media : t.cist.media = []
  state : t.cist.state = 0
  lastErr : t.cist.lastErr = r
  generation : t.cist.generation = s.cist.generation

theorem State.failFormat_failed (s : State) (media : Media) (r : Nat) : s.FormatFailed ((s.probe media).failFormat r) r := by
  have probed := s.probe_probed media
  generalize s.probe media = v at *
  refine ⟨?_, ?_, ?_, ?_, ?_, ?_, rfl, rfl, ?_⟩
  · show v.reqs = _
    rw [probed.rest]
    rfl
  · show v.indexes = _
    rw [probed.rest]
    rfl
  · show v.mem = _
    rw [probed.rest]
    rfl
  · show v.cist.map = _
    rw [probed.cist]
    rfl
  · show v.cist.rows = _
    rw [probed.cist]
    rfl
  · show v.cist.media = _
    rw [probed.cist]
    rfl
  · show v.cist.generation = _
    rw [probed.cist]
    rfl

/-- The node with its media formatted under a profile. -/
def State.format (s v : State) (media : Media) (f : MediaProfile) (par : Nat) : State :=
  (v.withCist (({ v.cist with state := 2 } : Cistern).withRecord {
    mode := s.regF Reg.CIST_FMT 2 1
    stripe := s.regF Reg.CIST_FMT 3 6
    opPct := s.regF Reg.CIST_FMT 9 7
    parity := par
    planes := 2 ^ f.planes.val
    pages := if s.regF Reg.CIST_FMT 2 1 = 0 then media.pages else media.pages / 3
    blocks := media.blocks
    rate := 800 + f.rate.val
    rated := if s.regF Reg.CIST_FMT 2 1 = 0 then f.ratedTlc else f.ratedSlc
    maxTemp := f.maxTemp
    retry := f.retry
    feature := f.feature
    pairing := f.pairing
    generation := v.cist.generation + 1
    userPages := 0
    spareAtFormat := 0 }).formatted).saveArea.chanPoints

theorem exec_formatDone {media : Media} {ok : Bool} (free : s.nandHeld = false) (formatting : s.cist.state = 1) :
    exec (.formatDone media ok) s = .next (match mediaProfile media with
      | none => (s.probe media).failFormat 0x10
      | some f =>
        if (s.probe media).channels < s.regF Reg.CIST_FMT 3 6 then (s.probe media).failFormat 0x10
        else match parityFor f.spareBytes with
          | none => (s.probe media).failFormat 0x12
          | some par => if !ok then (s.probe media).failFormat 0x11 else s.format (s.probe media) media f par) := by
  have goes : ¬ (s.nandHeld = true ∨ s.cist.state ≠ 1) := by simp [free, formatting]
  show execFormatDone media ok s = _
  unfold execFormatDone
  extract_lets fail mode width _ s1 channels
  rw [if_neg goes]
  cases mediaProfile media with
  | none => rfl
  | some f =>
    show (if channels < width then fail s1 0x10 else _) = _
    by_cases few : channels < width
    · rw [if_pos few]
      exact congrArg Host.Outcome.next (if_pos few).symm
    · rw [if_neg few]
      refine Eq.trans ?_ (congrArg Host.Outcome.next (if_neg few).symm)
      cases parityFor f.spareBytes with
      | none => rfl
      | some par =>
        cases ok with
        | false => rfl
        | true => rfl

/-- Where each channel of the width has a LUN that the format includes, and no block set failed, the channels suffice. -/
theorem State.channels_enough {media : Media} {width : Nat}
    (each : ∀ ch, ch < width → ∃ g ∈ media.luns, g.ch.val = ch ∧ mediaIncludes media g = true ∧
      recorded s.record kLun (lunKey g.ch g.lun) = false) (good : ∀ g ∈ media.luns, g.eraseFailed = [])
    (nodup : (media.luns.map (fun g => lunKey g.ch g.lun)).Nodup) : width ≤ (s.probe media).channels := by
  have luns : (s.probe media).cist.luns = s.formatLuns media := by
    unfold State.probe
    rw [State.formatFailures_luns good, State.identifyLuns_probed]
    rfl
  have answers (ch : Nat) (h : ch < width) : (s.formatLuns media).any (fun l => l.1 % 32 == ch && l.2.state == 1) = true := by
    obtain ⟨g, hg, rfl, included, unretired⟩ := each ch h
    exact State.formatLuns_answers nodup hg included unretired
  have small : width ≤ 32 := by
    by_contra wide
    obtain ⟨g, -, hch, -⟩ := each 32 (by omega)
    have := g.ch.isLt
    omega
  unfold State.channels
  rw [luns]
  calc width = (List.range width).length := List.length_range.symm
    _ = ((List.range width).filter (fun ch => (s.formatLuns media).any (fun l => l.1 % 32 == ch && l.2.state == 1))).length := by
      rw [List.filter_eq_self.mpr fun ch h => answers ch (List.mem_range.mp h)]
    _ ≤ _ := (((List.range_sublist.mpr small).filter _)).length_le

/-- A format with a profile leaves the Cistern formatted under it. -/
theorem State.format_formatted (s : State) (media : Media) (f : MediaProfile) (par : Nat) :
    ∃ t, s.format (s.probe media) media f par = t ∧ t.reqs = s.reqs ∧ t.indexes = s.indexes ∧ t.mem = s.mem ∧
      t.cist.map = [] ∧ t.cist.rows = [] ∧ t.cist.media = [] ∧ t.cist.state = 2 ∧ t.cist.generation = s.cist.generation + 1 ∧
      t.cist.stripe = s.regF Reg.CIST_FMT 3 6 ∧ t.cist.mode = s.regF Reg.CIST_FMT 2 1 ∧ t.cist.parity = par ∧
      t.cist.maxTemp = f.maxTemp ∧ t.cist.retry = f.retry ∧ t.cist.feature = f.feature ∧ t.cist.planes = 2 ^ f.planes.val := by
  have probed := s.probe_probed media
  generalize s.probe media = v at *
  have reqs : v.reqs = s.reqs := by rw [probed.rest]; rfl
  have indexes : v.indexes = s.indexes := by rw [probed.rest]; rfl
  have mem : v.mem = s.mem := by rw [probed.rest]; rfl
  have map : v.cist.map = [] := by rw [probed.cist]; rfl
  have rows : v.cist.rows = [] := by rw [probed.cist]; rfl
  have empty : v.cist.media = [] := by rw [probed.cist]; rfl
  have generation : v.cist.generation + 1 = s.cist.generation + 1 := by rw [probed.cist]; rfl
  unfold State.format
  rw [State.chanPoints_rest]
  exact ⟨_, rfl, reqs, indexes, mem, map, rows, empty, rfl, generation, rfl, rfl, rfl, rfl, rfl, rfl, rfl⟩

theorem parityFor_some {spare : Nat} (h : 1664 ≤ spare) : parityFor spare ≠ none := by
  unfold parityFor
  split_ifs
  · exact Option.some_ne_none _
  · exact Option.some_ne_none _
  · exact Option.some_ne_none _

theorem parityFor_none {spare : Nat} (h : spare < 1664) : parityFor spare = none := by
  unfold parityFor
  rw [if_neg (by omega), if_neg (by omega), if_neg (by omega)]

theorem formatDone_formats (media : Media) (ok : Bool) (s : State) (free : s.nandHeld = false) (formatting : s.cist.state = 1) :
    Completes (.formatDone media ok) s (fun t => t.reqs = s.reqs ∧ t.indexes = s.indexes ∧ t.mem = s.mem ∧
      t.cist.map = [] ∧ t.cist.rows = [] ∧ t.cist.media = [] ∧
      ((t.cist.state = 0 ∧ t.cist.lastErr ∈ [0x10, 0x11, 0x12] ∧ t.cist.generation = s.cist.generation) ∨
       (ok = true ∧ t.cist.state = 2 ∧ t.cist.generation = s.cist.generation + 1 ∧
        t.cist.stripe = s.regF Reg.CIST_FMT 3 6 ∧ t.cist.mode = s.regF Reg.CIST_FMT 2 1 ∧
        ∃ f, mediaProfile media = some f ∧ parityFor f.spareBytes = some t.cist.parity ∧ t.cist.maxTemp = f.maxTemp ∧
          t.cist.retry = f.retry ∧ t.cist.feature = f.feature ∧ t.cist.planes = 2 ^ f.planes.val)) ∧
      (mediaProfile media = none → t.cist.state = 0 ∧ t.cist.lastErr = 0x10) ∧
      (∀ f, mediaProfile media = some f → f.spareBytes < 1664 → t.cist.state = 0) ∧ (ok = false → t.cist.state = 0) ∧
      (∀ f, ok = true → mediaProfile media = some f → 1664 ≤ f.spareBytes →
        (∀ ch, ch < s.regF Reg.CIST_FMT 3 6 → ∃ g ∈ media.luns, g.ch.val = ch ∧ mediaIncludes media g = true ∧
          recorded s.record kLun (lunKey g.ch g.lun) = false) → (∀ g ∈ media.luns, g.eraseFailed = []) →
        (media.luns.map (fun g => lunKey g.ch g.lun)).Nodup → t.cist.state = 2)) := by
  have ran := exec_formatDone (media := media) (ok := ok) free formatting
  cases profile : mediaProfile media with
  | none =>
    rw [profile] at ran
    have failed := s.failFormat_failed media 0x10
    exact ⟨_, ran, failed.reqs, failed.indexes, failed.mem, failed.map, failed.rows, failed.media,
      .inl ⟨failed.state, by simp [failed.lastErr], failed.generation⟩, fun _ => ⟨failed.state, failed.lastErr⟩,
      nofun, fun _ => failed.state, nofun⟩
  | some f =>
    rw [profile] at ran
    dsimp only at ran
    by_cases few : (s.probe media).channels < s.regF Reg.CIST_FMT 3 6
    · rw [if_pos few] at ran
      have failed := s.failFormat_failed media 0x10
      refine ⟨_, ran, failed.reqs, failed.indexes, failed.mem, failed.map, failed.rows, failed.media,
        .inl ⟨failed.state, by simp [failed.lastErr], failed.generation⟩, nofun,
        fun _ _ _ => failed.state, fun _ => failed.state, fun _ _ _ _ each good nodup => ?_⟩
      exact absurd (State.channels_enough each good nodup) (not_le.mpr few)
    rw [if_neg few] at ran
    cases parity : parityFor f.spareBytes with
    | none =>
      rw [parity] at ran
      have failed := s.failFormat_failed media 0x12
      refine ⟨_, ran, failed.reqs, failed.indexes, failed.mem, failed.map, failed.rows, failed.media,
        .inl ⟨failed.state, by simp [failed.lastErr], failed.generation⟩, nofun,
        fun _ _ _ => failed.state, fun _ => failed.state, fun g _ h large => ?_⟩
      obtain rfl := Option.some.inj h
      exact absurd parity (parityFor_some large)
    | some par =>
      rw [parity] at ran
      cases ok with
      | false =>
        have failed := s.failFormat_failed media 0x11
        exact ⟨_, ran, failed.reqs, failed.indexes, failed.mem, failed.map, failed.rows, failed.media,
          .inl ⟨failed.state, by simp [failed.lastErr], failed.generation⟩, nofun,
          fun _ _ _ => failed.state, fun _ => failed.state, nofun⟩
      | true =>
        obtain ⟨t, formatted, reqs, indexes, mem, map, rows, empty, state, generation, stripe, mode, par', maxTemp, retry, feature,
          planes⟩ := s.format_formatted media f par
        refine ⟨t, ran.trans (congrArg _ formatted), reqs, indexes, mem, map, rows, empty,
          .inr ⟨rfl, state, generation, stripe, mode, f, rfl, by rw [par']; exact parity, maxTemp, retry, feature, planes⟩,
          nofun, fun g h small => ?_, nofun, fun _ _ _ _ _ _ _ => state⟩
        obtain rfl := Option.some.inj h
        rw [parityFor_none small] at parity
        cases parity

end Sys2Proof.Machine

section Settled
open Sys2Proof Sys2Proof.Machine

/-- Settles O52: rows close in place, reclaim and the patrol move no page, a relocated copy replaces the entry that names the old one,
a rebuild marks its groups, and a format sets its profile or fails. -/
theorem cisternMaintained : Obligations.CisternMaintained :=
  ⟨stripeClose_closes, reclaim_reclaims, cisternPatrol_reads, relocationSwitch_switches, lunRebuild_rebuilds, lunTempRead_reads,
    systemAreaWrite_saves, formatDone_formats⟩

end Settled
end

section
/-! SUPPORT. Dropped writes, event bits of a function, and the Dipper (R467, R479 to R481), for O55. -/

set_option Elab.async false

namespace Sys2Proof.Machine
variable {s t u : State}

/-! ### Events and dropped writes -/

/-- The host port, the registers `ks` and the words sent apart, the node stands. -/
structure State.Noted (s t : State) (ks : List Nat) : Prop where
  rest : t = { s with regs := t.regs, host := t.host, out := t.out }
  only : OnlyRegs s t ks

theorem State.Noted.trans {ks : List Nat} (a : s.Noted t ks) (b : t.Noted u ks) : s.Noted u ks :=
  ⟨by rw [b.rest, a.rest], a.only.trans b.only⟩

theorem State.Noted.mono {ks js : List Nat} (a : s.Noted t ks) (h : ∀ k ∈ ks, k ∈ js) : s.Noted t js := ⟨a.rest, a.only.mono h⟩

theorem State.Noted.of_wrote {ks : List Nat} (a : s.Wrote t ks) : s.Noted t ks := by
  have host : t.host = s.host := by rw [a.rest]
  have out : t.out = s.out := by rw [a.rest]
  refine ⟨?_, a.only⟩
  rw [host, out]
  exact a.rest

/-- A bit that is set where it was clear, with its vector where that is enabled. -/
theorem State.eventBit_sets (s : State) (k e f : Nat) {b : Nat} (hb : b + 1 ≤ 64) {t : State}
    (h : t = if bit (s.reg k) b then s else if bit (s.reg e) b then (s.setRegF k b 1 1).sendVector f 0 else s.setRegF k b 1 1) :
    s.Noted t [k] ∧ bit (t.reg k) b = true := by
  subst h
  have wrote : s.Wrote (s.setRegF k b 1 1) [k] := .setRegF List.mem_cons_self _ _ _
  have set := s.bit_setRegF_one k b hb
  generalize s.setRegF k b 1 1 = v at *
  split
  next already => exact ⟨⟨rfl, .refl _ _⟩, already⟩
  next =>
    split
    · obtain ⟨h, o, sent⟩ := v.sendVector_frame f 0
      rw [sent]
      exact ⟨(State.Noted.of_wrote wrote).trans ⟨rfl, .of_regs rfl⟩, set⟩
    · exact ⟨.of_wrote wrote, set⟩

/-- An event of a function sets its bit. -/
theorem State.hqEvent_sets (s : State) (f : Nat) {b : Nat} (hb : b + 1 ≤ 64) :
    s.Noted (s.hqEvent f b) [instKey Reg.HQ_EVENT f] ∧ bit ((s.hqEvent f b).reg (instKey Reg.HQ_EVENT f)) b = true :=
  s.eventBit_sets (instKey Reg.HQ_EVENT f) (instKey Reg.HQ_EVENT_EN f) f hb rfl

theorem dropKey_ne_hqEvent (fn f page : Nat) (small : page < 64) : dropKey fn page ≠ instKey Reg.HQ_EVENT f := by
  have drop : dropKey fn page % 16384 = 8 + page / 32 := by
    unfold dropKey instKey regKey
    omega
  have event : instKey Reg.HQ_EVENT f % 16384 = 256 := by
    unfold instKey Reg.HQ_EVENT regKey
    omega
  intro same
  rw [same, event] at drop
  omega

/-- A dropped write of a page that answers in service is counted and noted with its offset, and sets its event. -/
theorem State.dropWrite_counts (fn page off : Nat) (small : page < 64) (serves : s.rst.phase = 3) (up : s.pageUp page = true) :
    s.Noted (s.dropWrite fn page off) [dropKey fn page, instKey Reg.HQ_EVENT fn] ∧
    (s.dropWrite fn page off).regF (dropKey fn page) 0 32 = satAdd 32 (s.regF (dropKey fn page) 0 32) 1 ∧
    (s.dropWrite fn page off).regF (dropKey fn page) 32 14 = off % 16384 ∧
    bit ((s.dropWrite fn page off).reg (instKey Reg.HQ_EVENT fn)) 3 = true := by
  unfold State.dropWrite
  rw [if_neg (by simp [serves, up])]
  extract_lets k
  have apart : k ≠ instKey Reg.HQ_EVENT fn := dropKey_ne_hqEvent fn fn page small
  have wrote : s.Wrote (s.setReg k (fieldsOf [(0, 32, satAdd 32 (field (s.reg k) 0 32) 1), (32, 14, off)])) [k, instKey Reg.HQ_EVENT fn] :=
    ⟨rfl, .setReg _ _ List.mem_cons_self⟩
  have word : (s.setReg k (fieldsOf [(0, 32, satAdd 32 (field (s.reg k) 0 32) 1), (32, 14, off)])).reg k =
      setField (setField 0 0 32 (satAdd 32 (field (s.reg k) 0 32) 1)) 32 14 off := State.reg_setReg_same _ _ _
  generalize s.setReg k (fieldsOf [(0, 32, satAdd 32 (field (s.reg k) 0 32) 1), (32, 14, off)]) = v at *
  obtain ⟨noted, set⟩ := v.hqEvent_sets fn (b := 3) (by decide)
  generalize v.hqEvent fn 3 = w at *
  have same : w.reg k = v.reg k := noted.only k fun h => apart (List.mem_singleton.mp h)
  refine ⟨(State.Noted.of_wrote wrote).trans (noted.mono (by simp)), ?_, ?_, set⟩
  · show field (w.reg k) 0 32 = _
    rw [same, word, field_setField_other _ _ _ _ _ _ (by decide) (.inr (by decide)), field_setField_same _ _ _ _ (by decide)]
    show satAdd 32 (field (s.reg k) 0 32) 1 % 2 ^ 32 = satAdd 32 (field (s.reg k) 0 32) 1
    unfold satAdd
    omega
  · show field (w.reg k) 32 14 = _
    rw [same, word, field_setField_same _ _ _ _ (by decide)]
    rfl

/-! ### What the Dipper waits for -/

/-- The Dipper has read the lower tier: the host port, the memory range, the Cistern and registers apart, the node stands. -/
def State.DipRead (s t : State) : Prop := t = { s with host := t.host, mem := t.mem, cist := t.cist, regs := t.regs }

theorem State.DipRead.refl (s : State) : s.DipRead s := rfl

theorem State.DipRead.trans (a : s.DipRead t) (b : t.DipRead u) : s.DipRead u := by
  unfold State.DipRead at *
  rw [b, a]

theorem State.DipRead.foldl {α : Type} {f : State → α → State} (l : List α) (a : s.DipRead t)
    (each : ∀ (t : State) x, x ∈ l → t.DipRead (f t x)) : s.DipRead (l.foldl f t) :=
  List.foldlRecOn (motive := (s.DipRead ·)) l f a fun t h x hx => h.trans (each t x hx)

theorem State.readMap_dipRead (s : State) (slice basin m : Nat) : s.DipRead (s.readMap slice basin m) := by
  unfold State.readMap
  split
  · rfl
  · rfl

theorem State.startRead_dipRead (s : State) (t : Target) (w : Waiter) (slice basin : Nat) : s.DipRead (s.startRead t w slice basin) := by
  unfold State.startRead
  split
  · rfl
  · extract_lets ms cold s1 s2 r
    have first : s.DipRead s1 := .foldl _ (.refl s) fun t m _ => rfl
    have second : s.DipRead s2 := .foldl _ first fun t m _ => t.readMap_dipRead _ _ _
    exact second.trans rfl

theorem State.nameError_dip (s : State) (fn : Nat) (via : Option (Fin 2)) : s.DipRead (s.nameError (.dip fn) via) := rfl

theorem State.tierFail_dip (s : State) (fn : Nat) : s.DipRead (s.tierFail (.dip fn)) := rfl

theorem State.namePage_dip (s : State) (slice lpn fn : Nat) : s.DipRead (s.namePage slice lpn (.dip fn)) := by
  unfold State.namePage
  split
  · rfl
  · split
    · exact s.nameError_dip _ _
    · split
      · exact s.nameError_dip _ _
      · exact s.startRead_dipRead _ _ _ _

theorem State.nameArray_dip (s : State) (i h fn : Nat) : s.DipRead (s.nameArray i h (.dip fn)) := by
  unfold State.nameArray
  extract_lets out
  split
  · exact s.tierFail_dip fn
  · split
    · rfl
    · split
      · exact s.startRead_dipRead _ _ _ _
      · rfl

theorem State.nameFill_dipRead (s : State) (fn : Nat) : s.DipRead (s.nameFill fn) := by
  unfold State.nameFill
  extract_lets d a r slice
  split
  · split
    · exact s.nameError_dip _ _
    · unfold State.namePages
      split
      · exact s.tierFail_dip fn
      · exact .foldl _ rfl fun t l _ => t.namePage_dip _ _ _
  · split
    · exact s.nameError_dip _ _
    · exact .foldl _ (.refl s) fun t p _ => t.nameArray_dip _ _ _

/-! ### Fills -/

/-- The Dipper as a fill leaves it: cleared, and filling where its block is open. -/
def Dipper.cleared (d : Dipper) (go : Bool) (now : Time) : Dipper := { d with ready := false, buffer := [], filling := go, since := now }

theorem State.dip_setDip (s : State) (fn : Nat) (d : Dipper) : ((s.setDip fn d).fn fn).dip = d := by
  unfold State.setDip
  rw [State.fn_setFn_same]

theorem State.dipLeaves_left (s : State) (fn : Nat) : ∀ q ∈ (s.dipLeaves fn).mem.reads, Waiter.dip fn ∉ q.waiters := by
  intro q hq
  obtain ⟨r, -, rfl⟩ := List.mem_map.mp hq
  simp

/-- A fill is begun by a Dipper that has just been written. -/
theorem State.startFill_fills (s : State) (fn : Nat) (e : Dipper) : ∃ v : State,
    (s.setDip fn e).startFill fn = (if s.dipOpen fn e.target (blockOf e.addr) false = true ∧ e.target = 0 then v.nameFill fn else v) ∧
    v = { s with host := v.host, mem := { s.mem with reads := v.mem.reads } } ∧
    (v.fn fn).dip = Dipper.cleared e (s.dipOpen fn e.target (blockOf e.addr) false) s.tick ∧
    ∀ q ∈ v.mem.reads, Waiter.dip fn ∉ q.waiters := by
  have here : ((s.setDip fn e).fn fn).dip = e := s.dip_setDip fn e
  have filled : (s.setDip fn e).startFill fn = (if s.dipOpen fn e.target (blockOf e.addr) false = true ∧ e.target = 0 then
      (((s.setDip fn e).dipLeaves fn).setDip fn (Dipper.cleared e (s.dipOpen fn e.target (blockOf e.addr) false) s.tick)).nameFill fn
      else ((s.setDip fn e).dipLeaves fn).setDip fn (Dipper.cleared e (s.dipOpen fn e.target (blockOf e.addr) false) s.tick)) := by
    unfold State.startFill
    rw [here]
    rfl
  exact ⟨_, filled, rfl, State.dip_setDip _ _ _, State.dipLeaves_left (s.setDip fn e) fn⟩

theorem exec_dipFillStart {fn : Fin 17} {val : U64} {e : Dipper} {a : Nat} (up : s.fnUp fn = true) (answers : s.pageUp 0x15 = true)
    (write : (e = { (s.fn fn).dip with target := field val 0 4, auto := bit val 4 } ∧ a = 0x100) ∨
      (e = { (s.fn fn).dip with addr := setField val 0 3 0 } ∧ a = 0x108)) :
    exec (.dipFillStart fn a val) s = .next ((s.setDip fn e).startFill fn) := by
  show execDipFillStart fn a val s = _
  unfold execDipFillStart
  dsimp only
  rw [if_neg (by simp [up]), if_neg (by simp [answers])]
  obtain ⟨rfl, rfl⟩ | ⟨rfl, rfl⟩ := write
  · exact if_pos rfl
  · rw [if_neg (by decide), if_pos rfl]

theorem nameFill_nothing {fn : Nat} (none : s.mem.demoted = [] ∧ regionFlash (addrRegion (blockOf (s.fn fn).dip.addr).toNat) = false ∧
    (addrRegion (blockOf (s.fn fn).dip.addr).toNat ≠ 0 ∨ 65536 ≤ addrOffset (blockOf (s.fn fn).dip.addr).toNat)) : s.nameFill fn = s := by
  obtain ⟨demoted, notFlash, mapped⟩ := none
  unfold State.nameFill
  dsimp only
  rw [if_neg (by simp [notFlash]), if_neg (by omega)]
  unfold State.demotedIn
  rw [demoted]
  rfl

theorem dipFillStart_starts (fn : Fin 17) (val : U64) (d e : Dipper) (a : Nat) (s : State) (up : s.fnUp fn = true)
    (answers : s.pageUp 0x15 = true) (hd : d = (s.fn fn).dip)
    (write : (e = { d with target := field val 0 4, auto := bit val 4 } ∧ a = 0x100) ∨
      (e = { d with addr := setField val 0 3 0 } ∧ a = 0x108)) :
    Completes (.dipFillStart fn a val) s (fun t => t = { s with host := t.host, mem := t.mem, cist := t.cist, regs := t.regs } ∧
      ((e.target ≠ 0 ∨ s.dipOpen fn e.target (blockOf e.addr) false = false ∨
          (s.mem.demoted = [] ∧ regionFlash (addrRegion (blockOf e.addr).toNat) = false ∧
            (addrRegion (blockOf e.addr).toNat ≠ 0 ∨ 65536 ≤ addrOffset (blockOf e.addr).toNat))) →
        (t.fn fn).dip = { e with
          ready := false
          buffer := []
          filling := s.dipOpen fn e.target (blockOf e.addr) false
          since := s.tick } ∧
        t = { s with host := t.host, mem := { s.mem with reads := t.mem.reads } } ∧
        ∀ q ∈ t.mem.reads, Waiter.dip fn ∉ q.waiters) ∧
      (e.target = 0 → s.dipOpen fn 0 (blockOf e.addr) false = true → addrRegion (blockOf e.addr).toNat = 0 →
        addrOffset (blockOf e.addr).toNat < 65536 → (t.fn fn).dip.err = true ∧ (t.fn fn).dip.errCode = stBadDescriptor ∧
          (t.fn fn).dip.filling = false)) := by
  subst hd
  have ran := exec_dipFillStart up answers write
  obtain ⟨v, filled, rest, dip, left⟩ := s.startFill_fills fn e
  rw [filled] at ran
  have read : s.DipRead v := by
    unfold State.DipRead
    have cist : v.cist = s.cist := by rw [rest]
    have regs : v.regs = s.regs := by rw [rest]
    have mem : v.mem = { s.mem with reads := v.mem.reads } := by rw [rest]
    rw [cist, regs, mem]
    exact rest
  refine ⟨_, ran, ?_, fun quiet => ?_, fun zero open_ region offset => ?_⟩
  · show s.DipRead _
    split
    · exact read.trans (v.nameFill_dipRead fn)
    · exact read
  · have stands : (if s.dipOpen fn e.target (blockOf e.addr) false = true ∧ e.target = 0 then v.nameFill fn else v) = v := by
      split
      next go =>
        refine nameFill_nothing ?_
        have demoted : v.mem.demoted = s.mem.demoted := by rw [rest]
        rw [dip, demoted]
        exact (quiet.resolve_left (not_not.mpr go.2)).resolve_left (by simp [go.1])
      next => rfl
    rw [stands]
    exact ⟨dip, rest, left⟩
  · have go : s.dipOpen fn e.target (blockOf e.addr) false = true ∧ e.target = 0 := ⟨by rw [zero]; exact open_, zero⟩
    have failed : v.nameFill fn = v.nameError (.dip fn) none := by
      unfold State.nameFill
      rw [dip]
      dsimp only [Dipper.cleared]
      rw [region]
      exact (if_neg (by decide)).trans (if_pos ⟨rfl, offset⟩)
    rw [if_pos go, failed]
    unfold State.nameError
    dsimp only
    rw [State.fn_setFn_same]
    exact ⟨rfl, rfl, rfl⟩

theorem dipFillDone_fills (fn : Fin 17) (bs : List Byte) (code : Byte) (s : State) (filling : (s.fn fn).dip.filling = true)
    (unread : s.readsFor (.dip fn) = false) :
    ((s.fn fn).dip.target = 0 → Completes (.dipFillDone fn (some bs) code) s (fun t => t = { s with host := t.host } ∧
      (t.fn fn).dip = { (s.fn fn).dip with
        filling := false
        ready := true
        buffer := s.rangeBlock (blockOf (s.fn fn).dip.addr).toNat bs })) ∧
    ((s.fn fn).dip.target = 0 → Completes (.dipFillDone fn none code) s (fun t => t = { s with host := t.host } ∧
      (t.fn fn).dip = { (s.fn fn).dip with
        filling := false
        err := true
        errCode := code.toNat })) ∧
    ((s.fn fn).dip.target ≠ 0 → (s.fn fn).dip.target ≠ 3 → Completes (.dipFillDone fn none code) s (fun t =>
      t = { s with host := t.host } ∧ (t.fn fn).dip = { (s.fn fn).dip with
        filling := false
        ready := true
        buffer := s.blockBytes (s.fn fn).dip.target (blockOf (s.fn fn).dip.addr).toNat })) := by
  have goes : ¬ ((!(s.fn fn).dip.filling) = true ∨ s.readsFor (.dip fn) = true) := by simp [filling, unread]
  refine ⟨fun range => ⟨_, (if_neg goes).trans (if_pos range), rfl, State.dip_setDip _ _ _⟩,
    fun range => ⟨_, (if_neg goes).trans (if_pos range), rfl, ?_⟩,
    fun table other => ⟨_, (if_neg goes).trans ((if_neg table).trans (congrArg _ (if_neg other))), rfl, State.dip_setDip _ _ _⟩⟩
  unfold State.dipError
  rw [State.dip_setDip, State.dip_setDip]

theorem dipFillLate_fails (fn : Fin 17) (s : State) (filling : (s.fn fn).dip.filling = true) (range : (s.fn fn).dip.target = 0) :
    (s.tick < (s.fn fn).dip.since + dipLate → Completes (.dipFillLate fn) s (fun t => t = s)) ∧
    ((s.fn fn).dip.since + dipLate ≤ s.tick → Completes (.dipFillLate fn) s (fun t => t = { s with host := t.host, mem := t.mem } ∧
      (t.fn fn).dip = { (s.fn fn).dip with
        filling := false
        err := true
        errCode := stTierLate } ∧ ∀ q ∈ t.mem.reads, Waiter.dip fn ∉ q.waiters)) := by
  refine ⟨fun early => ⟨s, if_neg fun h => ?_, rfl⟩, fun late => ⟨_, if_pos ⟨filling, range, late⟩, rfl, ?_, s.dipLeaves_left fn⟩⟩
  · obtain ⟨-, -, late⟩ := h
    exact absurd early (BitVec.not_lt.mpr late)
  · unfold State.dipError
    rw [State.dip_setDip, State.dip_setDip]

/-! ### Reads -/

theorem dipDataRead_reads (fn : Fin 17) (s : State) (up : s.fnUp fn = true) (answers : s.pageUp 0x15 = true)
    (open_ : s.dipOpen fn (s.fn fn).dip.target (s.fn fn).dip.addr false = true) :
    ((s.fn fn).dip.ready = true → (s.fn fn).dip.auto = false → Completes (.dipDataRead fn) s (fun t =>
      t = { s with out := s.out ++ [.dipData fn (padTo 0 8 ((s.fn fn).dip.buffer.drop ((s.fn fn).dip.addr.toNat % 8192)))] })) ∧
    ((s.fn fn).dip.ready = false → Completes (.dipDataRead fn) s (fun t => t = { s with host := t.host, out := t.out } ∧
      t.out = s.out ++ [.dipData fn (zeroBytes 8)] ∧
      (t.fn fn).dip = { (s.fn fn).dip with notReady := satAdd 32 (s.fn fn).dip.notReady 1 })) := by
  have awake : ¬ (!s.fnUp fn) = true := by simp [up]
  have ran : exec (.dipDataRead fn) s = .next ((s.readDip fn).2.emit (.dipData fn (s.readDip fn).1)) := if_neg awake
  have read : s.readDip fn = (if (!(s.fn fn).dip.ready) = true then (zeroBytes 8, s.dipNotReady fn)
      else (padTo 0 8 ((s.fn fn).dip.buffer.drop ((s.fn fn).dip.addr.toNat % 8192)),
        if (s.fn fn).dip.auto = true then s.dipMove fn ((s.fn fn).dip.addr + 8) else s)) :=
    (if_neg (by simp [answers])).trans (if_neg (by simp [open_]))
  rw [read] at ran
  constructor
  · intro ready auto
    rw [ready, auto] at ran
    exact ⟨_, ran, rfl⟩
  · intro ready
    rw [ready] at ran
    exact ⟨_, ran, rfl, rfl, State.dip_setDip _ _ _⟩

theorem dipBurstRead_reads (fn : Fin 17) (off len : Nat) (s : State) (up : s.fnUp fn = true) (answers : s.pageUp 0x15 = true)
    (inside : off + len ≤ 8192) (some : 0 < len)
    (open_ : s.dipOpen fn (s.fn fn).dip.target (blockOf (s.fn fn).dip.addr + BitVec.ofNat 64 off) false = true)
    (ready : (s.fn fn).dip.ready = true) (auto : (s.fn fn).dip.auto = false) : Completes (.dipBurstRead fn off len) s (fun t =>
      t = { s with out := s.out ++ [.dipData fn (padTo 0 len ((s.fn fn).dip.buffer.drop off))] }) := by
  have awake : ¬ (!s.fnUp fn) = true := by simp [up]
  have whole : min len (8192 - off) = len := by omega
  have ran : exec (.dipBurstRead fn off len) s = .next ((s.readBurst fn off (min len (8192 - off))).2.emit
    (.dipData fn (s.readBurst fn off (min len (8192 - off))).1)) := if_neg awake
  have read : s.readBurst fn off len = (padTo 0 len ((s.fn fn).dip.buffer.drop off), s) := by
    unfold State.readBurst
    dsimp only
    rw [if_neg (by simp [answers]; omega), if_neg (by simp [open_]), if_neg (by simp [ready]), if_neg (by simp [auto])]
  rw [whole, read] at ran
  exact ⟨_, ran, rfl⟩

/-! ### Writes -/

/-- A word is staged in the bytes written. -/
theorem State.stageEntry_stages (s : State) (k off : Nat) (p : List Byte) :
    s.stageEntry k off p = { s with staged := (s.stageEntry k off p).staged } ∧
    (s.stageEntry k off p).stagedReg k = merge (s.stagedReg k) (writeMask off p.length &&& accMask k [.stg]) (writeWord off p) ∧
    ∀ j, j ≠ k → (s.stageEntry k off p).stagedReg j = s.stagedReg j :=
  ⟨rfl, Store.get_put_same (fun k => s.reg k) s.staged k _, fun _ d => Store.get_put_other (fun k => s.reg k) s.staged _ _ _ d⟩

theorem writeMask_whole : writeMask 0 8 = -1 := by decide

theorem writeWord_whole (v : U64) : writeWord 0 (leBytes 8 v.toNat) = v := by
  unfold writeWord
  rw [leNat_leBytes, show (256 : Nat) ^ 8 = 2 ^ 64 from rfl, Nat.mod_eq_of_lt v.isLt]
  simp

theorem dipDataWrite_stages (fn : Fin 17) (val : U64) (k : Nat) (s : State) (up : s.fnUp fn = true) (answers : s.pageUp 0x15 = true)
    (serves : s.rst.phase = 3) (open_ : s.dipOpen fn (s.fn fn).dip.target (s.fn fn).dip.addr true = true)
    (hk : k = tableKey (s.fn fn).dip.target (s.fn fn).dip.addr.toNat) :
    (s.commit.busy = false → (s.fn fn).dip.auto = false → Completes (.dipDataWrite fn val) s (fun t =>
      t = { s with staged := t.staged } ∧ t.stagedReg k = merge (s.stagedReg k) (accMask k [.stg]) val ∧
      ∀ j, j ≠ k → t.stagedReg j = s.stagedReg j)) ∧
    (s.commit.busy = true → Completes (.dipDataWrite fn val) s (fun t => t.staged = s.staged ∧
      field (t.reg (dropKey fn 0x15)) 0 32 = satAdd 32 (field (s.reg (dropKey fn 0x15)) 0 32) 1 ∧
      field (t.reg (dropKey fn 0x15)) 32 14 = 0x118)) := by
  have awake : ¬ (!s.fnUp fn) = true := by simp [up]
  have ran : exec (.dipDataWrite fn val) s = .next (if s.commit.busy = true then s.dropWrite fn 0x15 (0x118 + 0)
      else if (s.fn fn).dip.auto = true then (s.stageEntry k 0 (leBytes 8 val.toNat)).dipMove fn ((s.fn fn).dip.addr + 8)
      else s.stageEntry k 0 (leBytes 8 val.toNat)) := by
    subst hk
    exact (if_neg awake).trans (congrArg _ ((if_neg (by simp [answers])).trans (if_neg (by simp [open_]))))
  constructor
  · intro idle auto
    rw [idle, auto] at ran
    obtain ⟨rest, here, others⟩ := s.stageEntry_stages k 0 (leBytes 8 val.toNat)
    refine ⟨_, ran, rest, ?_, others⟩
    refine here.trans ?_
    rw [writeWord_whole, show (leBytes 8 val.toNat).length = 8 from rfl, writeMask_whole]
    congr 1
    exact BitVec.allOnes_and
  · intro busy
    rw [busy, if_pos rfl, Nat.add_zero] at ran
    obtain ⟨noted, count, offset, -⟩ := State.dropWrite_counts (s := s) fn 0x15 0x118 (by decide) serves answers
    generalize s.dropWrite fn 0x15 0x118 = v at *
    exact ⟨v, ran, by rw [noted.rest], count, offset⟩

theorem dipBurstWrite_stages (fn : Fin 17) (off k : Nat) (p : List Byte) (s : State) (up : s.fnUp fn = true)
    (answers : s.pageUp 0x15 = true) (sized : sizeOk off p.length = true) (inside : off < 8192) (idle : s.commit.busy = false)
    (open_ : s.dipOpen fn (s.fn fn).dip.target (blockOf (s.fn fn).dip.addr + BitVec.ofNat 64 off) true = true)
    (hk : k = tableKey (s.fn fn).dip.target (blockOf (s.fn fn).dip.addr + BitVec.ofNat 64 off).toNat) :
    Completes (.dipBurstWrite fn off p) s (fun t => t = { s with staged := t.staged } ∧
      t.stagedReg k = merge (s.stagedReg k) (writeMask off p.length &&& accMask k [.stg]) (writeWord off p) ∧
      ∀ j, j ≠ k → t.stagedReg j = s.stagedReg j) := by
  subst hk
  have ran : exec (.dipBurstWrite fn off p) s = .next (s.stageEntry
      (tableKey (s.fn fn).dip.target (blockOf (s.fn fn).dip.addr + BitVec.ofNat 64 off).toNat) (off % 8) p) :=
    (if_neg (by simp [up])).trans ((if_neg (by simp [answers, sized]; omega)).trans ((if_neg (by simp [open_])).trans (if_neg (by simp [idle]))))
  obtain ⟨rest, here, others⟩ := s.stageEntry_stages
    (tableKey (s.fn fn).dip.target (blockOf (s.fn fn).dip.addr + BitVec.ofNat 64 off).toNat) (off % 8) p
  refine ⟨_, ran, rest, here.trans ?_, others⟩
  unfold writeMask writeWord
  rw [Nat.mod_mod]

theorem dipBurstWrite_drops (fn : Fin 17) (off : Nat) (p : List Byte) (s : State) (up : s.fnUp fn = true) (serves : s.rst.phase = 3)
    (answers : s.pageUp 0x15 = true) (bad : sizeOk off p.length = false ∨ 8192 ≤ off) :
    Completes (.dipBurstWrite fn off p) s (fun t => t.staged = s.staged ∧
      field (t.reg (dropKey fn 0x15)) 0 32 = satAdd 32 (field (s.reg (dropKey fn 0x15)) 0 32) 1 ∧
      field (t.reg (dropKey fn 0x15)) 32 14 = 0x2000 + off % 8192) := by
  have refused : (!s.pageUp 0x15) = true ∨ (!sizeOk off p.length) = true ∨ 8192 ≤ off := .inr (bad.imp (by simp [·]) id)
  have ran : exec (.dipBurstWrite fn off p) s = .next (s.dropWrite fn 0x15 (0x2000 + off % 8192)) :=
    (if_neg (by simp [up])).trans (if_pos refused)
  obtain ⟨noted, count, offset, -⟩ := State.dropWrite_counts (s := s) fn 0x15 (0x2000 + off % 8192) (by decide) serves answers
  refine ⟨_, ran, show (s.dropWrite fn 0x15 _).staged = _ by rw [noted.rest], count, offset.trans (Nat.mod_eq_of_lt (by omega))⟩

end Sys2Proof.Machine

section Settled
open Sys2Proof Sys2Proof.Machine

/-- Settles O55: a write starts a fill, a fill ends as it comes, reads give bytes of the block and writes are staged. -/
theorem dipperMoves : Obligations.DipperMoves :=
  ⟨dipFillStart_starts, dipFillDone_fills, dipFillLate_fails, dipDataRead_reads, dipBurstRead_reads, dipDataWrite_stages,
    dipBurstWrite_stages, dipBurstWrite_drops⟩

end Settled
end

section
/-! SUPPORT. What resets clear and keep (R486 to R496, R479), for O57. -/

set_option Elab.async false

namespace Sys2Proof.Machine
variable {s t u : State}

/-! ### Tables cut down by a reset -/

theorem Store.find?_cons {α : Type} (j : Nat) (v : α) (st : Store α) (k : Nat) :
    Store.find? ((j, v) :: st) k = if j = k then some v else Store.find? st k := rfl

theorem Store.find?_filter_key {α : Type} (keep : Nat → Bool) (st : Store α) (k : Nat) :
    Store.find? (st.filter fun p => keep p.1) k = if keep k = true then Store.find? st k else none := by
  induction st with
  | nil => exact (ite_self _).symm
  | cons p st ih =>
    obtain ⟨j, v⟩ := p
    by_cases hj : keep j = true
    · rw [List.filter_cons_of_pos (by exact hj), Store.find?_cons, Store.find?_cons, ih]
      split
      next same => rw [if_pos (same ▸ hj)]
      next => rfl
    · rw [List.filter_cons_of_neg (by exact hj), ih, Store.find?_cons]
      refine if_ctx_congr Iff.rfl (fun hk => (if_neg fun same => hj ?_).symm) fun _ => rfl
      rw [same]
      exact hk

/-- Entries that read as an unlisted key reads can go from a table whose keys rise. -/
theorem Store.get_filter_default {α : Type} [DecidableEq α] (d : α) (st : Store α) (sorted : Store.Sorted st) (k : Nat) :
    Store.get (fun _ => d) (st.filter fun p => p.2 != d) k = Store.get (fun _ => d) st k := by
  induction st with
  | nil => rfl
  | cons p st ih =>
    obtain ⟨j, v⟩ := p
    obtain ⟨first, later⟩ := List.pairwise_cons.mp (show ((j :: Store.keys st).Pairwise (· < ·)) from sorted)
    specialize ih later
    unfold Store.get at *
    by_cases hv : v = d
    · rw [List.filter_cons_of_neg (by simp [hv]), ih, Store.find?_cons]
      split
      next same =>
        have missing : Store.find? st k = none := by
          cases found : Store.find? st k with
          | none => rfl
          | some x => exact absurd (first k (Store.mem_keys_of_find? found)) (by omega)
        rw [missing, hv]
        rfl
      next => rfl
    · rw [List.filter_cons_of_pos (by simpa using hv), Store.find?_cons, Store.find?_cons]
      split
      · rfl
      · exact ih

/-- The registers of a page alone are left by a reset of all else. -/
theorem State.reg_filter {keep : Nat → Bool} (h : t.regs = s.regs.filter fun p => keep p.1) (k : Nat) :
    t.reg k = if keep k = true then s.reg k else resetReg k := by
  unfold State.reg Store.get
  rw [h, Store.find?_filter_key]
  split
  · rfl
  · rfl

/-! ### Resets of the node -/

/-- What a reset that begins has cleared, with its level and its source; the Cistern may have saved its area first. -/
structure State.ResetBegun (s t : State) (lvl : Level) (source : Nat) : Prop where
  rst : t.rst = { (s.clearFor lvl).rst with
    level := lvl
    lastLevel := lvl
    lastSource := source
    inReset := true
    holdDone := false }
  keeper : ∃ q l b, t.keeper = { (s.clearFor lvl).keeper with
    debug := false
    nextSeq := q
    log := l
    buffered := b }
  rest : t = { s.clearFor lvl with rst := t.rst, keeper := t.keeper, regs := t.regs, cist := t.cist }
  regs : OnlyRegs (s.clearFor lvl) t [Reg.RST_STATUS]

theorem State.beginReset_begun (s : State) {lvl mapped : Level} {ok : Bool} (source : Nat)
    (level : lvl = if mapped = .keep ∧ ok = true then Level.keep else .full) : s.ResetBegun (s.beginReset mapped ok source) lvl source := by
  unfold State.beginReset
  extract_lets l s1 _ _ s2 s3
  have level : lvl = l := level
  clear_value l
  subst level
  obtain ⟨c, saved⟩ : ∃ c, s1 = { s.clearFor lvl with cist := c } := by
    unfold s1
    split
    · exact ⟨_, rfl⟩
    · exact ⟨_, rfl⟩
  have begun : s.ResetBegun s3 lvl source := by
    obtain ⟨q, l, b, logged⟩ := s2.logEvent_form 1 2 (show sevInfo ≠ sevCritical by decide)
    have logged : s3 = _ := logged
    clear_value s3
    subst logged
    clear_value s1
    subst saved
    exact ⟨rfl, ⟨q, l, b, rfl⟩, rfl, .of_regs rfl⟩
  clear_value s3
  split
  · refine ⟨begun.rst, begun.keeper, ?_, begun.regs.trans (.setRegF _ _ _ _ (by simp))⟩
    conv_lhs => rw [begun.rest]
    rfl
  · exact begun

theorem State.beginStep_one (s : State) : ∃ b, s.beginStep 1 = { s with
    basins := b
    rst := { s.rst with
      step := 1
      tries := 0 } } := by
  unfold State.beginStep
  refine List.foldlRecOn (motive := fun (t : State) => ∃ b, t = { s with
    basins := b
    rst := { s.rst with
      step := 1
      tries := 0 } }) _ _ ⟨_, rfl⟩ fun t ⟨b, ht⟩ x _ => ?_
  subst ht
  split
  · exact ⟨_, rfl⟩
  · exact ⟨_, rfl⟩

/-- What the end of a reset starts: step 1 of bring-up. -/
theorem State.endReset_form (s : State) : ∃ c b, s.endReset = { s with
    clep := c
    basins := b
    rst := { s.rst with
      inReset := false
      holdDone := true
      step := 1
      tries := 0 } } ∧ c.count = s.clep.count := by
  unfold State.endReset
  obtain ⟨b, begun⟩ := (({ s with rst := { s.rst with inReset := false, holdDone := true } } : State).withClep
    { s.clep with endCount := s.now, began := true, fresh := s.clep.fresh && !s.clep.began }).beginStep_one
  rw [begun]
  exact ⟨_, b, rfl, rfl⟩

theorem State.endReset_rst (s : State) : s.endReset.rst = { s.rst with
    inReset := false
    holdDone := true
    step := 1
    tries := 0 } := by
  obtain ⟨c, b, ended, -⟩ := s.endReset_form
  rw [ended]

theorem pwrokRise_resets (rails : List RailRead) (s : State) (off : s.rst.pwrok = false) (sorted : Store.Sorted s.progs) (lvl : Level)
    (level : lvl = (if s.rst.pwrokLevel = .full ∨ (s.rst.resetN = false ∧ s.rst.resetnLevel = .full) ∨ s.rst.fellKeep = false ∨
      s.rst.fellMemValid = false ∨ s.keeper.railsOk = false ∨ rails.any stackSupplyOut = true then Level.full else .keep)) :
    Completes (.pwrokRise rails) s (fun t => t.rst.pwrok = true ∧ t.rst.level = lvl ∧ t.rst.lastSource = 0 ∧ t.rst.phase = 0 ∧
      (s.rst.resetN = true → t.rst.inReset = false ∧ t.rst.step = 1) ∧ (s.rst.resetN = false → t.rst.inReset = true) ∧
      t.reqs = [] ∧ t.host = [] ∧ t.record = s.record ∧ t.clep.count = s.clep.count ∧ t.keeper.svnFused = s.keeper.svnFused ∧
      t.keeper.slotA = s.keeper.slotA ∧ t.keeper.slotB = s.keeper.slotB ∧
      (lvl = .keep → t.indexes = s.indexes ∧ ∀ n, t.prog n = { s.prog n with samples := 0 }) ∧
      (lvl = .full → t.indexes = [] ∧ t.progs = [] ∧ ∀ k, keyPage k ≠ 0x12 → k ≠ Reg.RST_STATUS → t.reg k = resetReg k)) := by
  have ran : ∃ v : State, v = s.beginReset
        (if s.rst.pwrokLevel = .full ∨ ((!s.rst.resetN) = true ∧ s.rst.resetnLevel = .full) then Level.full else .keep)
        (s.rst.fellKeep && s.rst.fellMemValid && s.keeper.railsOk && !rails.any stackSupplyOut) 0 ∧
      exec (.pwrokRise rails) s = .next (if (!s.rst.resetN) = true then { v with rst := { v.rst with pwrok := true } }
        else ({ v with rst := { v.rst with pwrok := true } } : State).endReset) := ⟨_, rfl, if_neg (by simp [off])⟩
  obtain ⟨v, hv, ran⟩ := ran
  have begun : s.ResetBegun v lvl 0 := by
    rw [hv]
    refine s.beginReset_begun 0 (level.trans ?_)
    generalize rails.any stackSupplyOut = out
    cases s.rst.pwrokLevel <;> cases s.rst.resetN <;> cases s.rst.resetnLevel <;> cases s.rst.fellKeep <;>
      cases s.rst.fellMemValid <;> cases s.keeper.railsOk <;> cases out <;> rfl
  obtain ⟨rst, ⟨q, l, b, keeper⟩, rest, regs⟩ := begun
  have kept : v.reqs = [] ∧ v.host = [] ∧ v.record = s.record ∧ v.clep.count = s.clep.count ∧ v.keeper.svnFused = s.keeper.svnFused ∧
      v.keeper.slotA = s.keeper.slotA ∧ v.keeper.slotB = s.keeper.slotB ∧
      (lvl = .keep → v.indexes = s.indexes ∧ ∀ n, v.prog n = { s.prog n with samples := 0 }) ∧
      (lvl = .full → v.indexes = [] ∧ v.progs = [] ∧ ∀ k, keyPage k ≠ 0x12 → k ≠ Reg.RST_STATUS → v.reg k = resetReg k) := by
    have gone (k : Nat) (apart : k ≠ Reg.RST_STATUS) : v.reg k = (s.clearFor lvl).reg k := regs k (by simpa using apart)
    have progs : v.progs = (s.clearFor lvl).progs := by rw [rest]
    have indexes : v.indexes = (s.clearFor lvl).indexes := by rw [rest]
    refine ⟨by rw [rest]; rfl, by rw [rest]; rfl, by rw [rest]; rfl, by rw [rest]; rfl, by rw [keeper]; rfl, by rw [keeper]; rfl,
      by rw [keeper]; rfl, fun keep => ⟨by rw [indexes, keep]; rfl, fun n => ?_⟩,
      fun full => ⟨by rw [indexes, full]; rfl, by rw [progs, full]; rfl, fun k page apart => ?_⟩⟩
    · have left : v.progs = (s.progs.map fun p => (p.1, { p.2 with samples := 0 })).filter fun p => p.2 != ProgSlot.reset := by
        rw [progs, keep]
        rfl
      have keys : Store.keys (s.progs.map fun p => (p.1, { p.2 with samples := 0 })) = Store.keys s.progs := by simp [Store.keys]
      unfold State.prog
      rw [left, Store.get_filter_default _ _ (by unfold Store.Sorted; rw [keys]; exact sorted)]
      unfold Store.get
      rw [Store.find?_map]
      cases Store.find? s.progs n <;> rfl
    · rw [gone k apart, full, State.reg_filter (s := s) (t := s.clearFor .full) (keep := fun k => keyPage k == 0x12) rfl,
        if_neg (by simpa using page)]
  have phase : v.rst.phase = 0 := by rw [rst]; rfl
  have lasts : v.rst.level = lvl ∧ v.rst.lastSource = 0 ∧ v.rst.inReset = true := by rw [rst]; exact ⟨rfl, rfl, rfl⟩
  obtain ⟨hlevel, source, inReset⟩ := lasts
  refine ⟨_, ran, ?_⟩
  cases resetN : s.rst.resetN with
  | false => exact ⟨rfl, hlevel, source, phase, nofun, fun _ => inReset, kept⟩
  | true =>
    obtain ⟨c, b, ended, count⟩ := ({ v with rst := { v.rst with pwrok := true } } : State).endReset_form
    obtain ⟨reqs, host, record, counted, fused, slotA, slotB, keep, full⟩ := kept
    rw [if_neg (by simp), ended]
    exact ⟨rfl, hlevel, source, phase, fun _ => ⟨rfl, rfl⟩, nofun, reqs, host, record, count.trans counted, fused, slotA, slotB, keep, full⟩

theorem pwrokFall_clears (s : State) (on : s.rst.pwrok = true) : Completes .pwrokFall s (fun t => t.rst.pwrok = false ∧
    t.rst.inReset = true ∧ t.rst.phase = 0 ∧ t.rst.step = 0 ∧ t.rst.fellMemValid = s.rst.memValid ∧
    t.keeper.railsOk = s.keeper.running ∧ t.reqs = [] ∧ t.indexes = s.indexes ∧ t.record = s.record ∧ t.nandHeld = true) := by
  refine ⟨_, if_neg (by simp [on]), rfl, rfl, rfl, rfl, ?_, rfl, rfl, rfl, rfl, rfl⟩
  rfl

theorem resetNFall_resets (s : State) (high : s.rst.resetN = true) : Completes (.resetNFall false) s (fun t => t = s) ∧
    (s.rst.pwrok = true → Completes (.resetNFall true) s (fun t => t.rst.resetN = false ∧ t.rst.inReset = true ∧
      t.rst.holdDone = false ∧ t.rst.lastSource = 1 ∧ t.rst.phase = 0 ∧ t.rst.step = 0 ∧ t.reqs = [] ∧ t.record = s.record ∧
      t.rst.level = (if s.rst.resetnLevel = .keep ∧ s.rst.memValid = true then Level.keep else .full))) := by
  refine ⟨⟨s, show execResetNFall false s = _ from if_pos (.inl rfl), rfl⟩, fun on => ?_⟩
  have ran : exec (.resetNFall true) s = .next (({ s with rst := { s.rst with resetN := false } } : State).beginReset
      s.rst.resetnLevel s.rst.memValid 1) := (if_neg (by simp [high])).trans (congrArg _ (if_pos on))
  refine ⟨_, ran, ?_⟩
  have begun := State.beginReset_begun { s with rst := { s.rst with resetN := false } } 1
    (Eq.refl (if s.rst.resetnLevel = .keep ∧ s.rst.memValid = true then Level.keep else .full))
  generalize State.beginReset { s with rst := { s.rst with resetN := false } } s.rst.resetnLevel s.rst.memValid 1 = v at *
  obtain ⟨rst, -, rest, -⟩ := begun
  have reqs : v.reqs = [] := by rw [rest]; rfl
  have record : v.record = s.record := by rw [rest]; rfl
  dsimp only
  rw [rst]
  exact ⟨rfl, rfl, rfl, rfl, rfl, rfl, reqs, record, rfl⟩

theorem resetNRise_ends (s : State) (low : s.rst.resetN = false) (on : s.rst.pwrok = true) (resets : s.rst.inReset = true) :
    (s.rst.holdDone = true → Completes .resetNRise s (fun t => t.rst.resetN = true ∧ t.rst.inReset = false ∧ t.rst.step = 1)) ∧
    (s.rst.holdDone = false → s.rst.lastSource = 1 → Completes .resetNRise s (fun t => t.rst.resetN = true ∧
      t.rst.inReset = true ∧ bit (t.reg Reg.RST_STATUS) 22 = true ∧ OnlyRegs s t [Reg.RST_STATUS])) := by
  have ran : exec .resetNRise s = if s.rst.holdDone = true then
      .next ({ s with rst := { s.rst with resetN := true } } : State).endReset
      else .next (if s.rst.lastSource = 1 then ({ s with rst := { s.rst with resetN := true } } : State).setRegF Reg.RST_STATUS 22 1 1
        else { s with rst := { s.rst with resetN := true } }) :=
    (if_neg (by simp [low])).trans (if_neg (by simp [on, resets]))
  refine ⟨fun done => ⟨_, ran.trans (if_pos done), ?_⟩, fun held source => ?_⟩
  · dsimp only
    rw [State.endReset_rst]
    exact ⟨rfl, rfl, rfl⟩
  rw [if_neg (by simp [held]), if_pos source] at ran
  exact ⟨_, ran, rfl, resets, State.bit_setRegF_one _ _ _ (by decide), .setRegF _ _ _ _ List.mem_cons_self⟩

theorem resetHoldEnd_ends (s : State) (on : s.rst.pwrok = true) (resets : s.rst.inReset = true) (held : s.rst.holdDone = false) :
    (s.rst.resetN = true → Completes .resetHoldEnd s (fun t => t.rst.inReset = false ∧ t.rst.step = 1 ∧ t.rst.holdDone = true)) ∧
    (s.rst.resetN = false → Completes .resetHoldEnd s (fun t => t = { s with rst := { s.rst with holdDone := true } })) := by
  have ran : exec .resetHoldEnd s = .next (if s.rst.resetN = true then ({ s with rst := { s.rst with holdDone := true } } : State).endReset
      else { s with rst := { s.rst with holdDone := true } }) := if_neg (by simp [on, resets, held])
  refine ⟨fun high => ⟨_, ran.trans (congrArg _ (if_pos high)), ?_⟩,
    fun low => ⟨_, ran.trans (congrArg _ (if_neg (by simp [low]))), rfl⟩⟩
  dsimp only
  rw [State.endReset_rst]
  exact ⟨rfl, rfl, rfl⟩

/-! ### Standby power -/

/-- The boot ROM changes what Keeper boots and nothing that is flashed, fused or logged, where no restart was asked for. -/
theorem State.bootRom_form (s : State) (idle : s.regF Reg.RST_CTRL 0 2 = 0) : ∃ b o w r c, s.bootRom = s.withKeeper { s.keeper with
    booted := b
    bootedB := o
    waitSmbus := w
    running := r
    chunks := c } := by
  unfold State.bootRom
  extract_lets k src order
  split
  · exact ⟨_, _, _, _, _, State.takeAsked_withKeeper idle _⟩
  · exact ⟨_, _, _, _, _, rfl⟩

theorem standbyPowerUp_restores (s : State) (idle : s.regF Reg.RST_CTRL 0 2 = 0) :
    Completes .standbyPowerUp s (fun t => t.clep.count = 0 ∧ t.clep.countValid = false ∧
      t.keeper.svnFused = s.keeper.svnFused ∧ t.keeper.revoked = s.keeper.revoked ∧ t.keeper.slotA = s.keeper.slotA ∧
      t.keeper.slotB = s.keeper.slotB ∧ t.keeper.log = s.keeper.log ∧ t.keeper.buffered = [] ∧ t.keeper.nextSeq = s.keeper.nextSeq ∧
      t.record = s.record ∧
      ∀ k, t.reg k = if keyPage k = 0x12 then resetReg k else s.reg k) := by
  show ∃ t, execStandbyPowerUp s = .next t ∧ _
  unfold execStandbyPowerUp
  extract_lets k notKpr k1 _ _ s1
  have regs (j : Nat) : s1.reg j = if keyPage j = 0x12 then resetReg j else s.reg j := by
    rw [State.reg_filter (s := s) (t := s1) (keep := fun j => keyPage j != 0x12) rfl]
    by_cases kpr : keyPage j = 0x12
    · rw [if_pos kpr, if_neg (by simp [kpr])]
    · rw [if_neg kpr, if_pos (by simpa using kpr)]
  have asked : s1.regF Reg.RST_CTRL 0 2 = 0 := by
    show field (s1.reg _) 0 2 = 0
    rw [regs]
    exact idle
  obtain ⟨b, o, w, r, c, booted⟩ := s1.bootRom_form asked
  rw [booted]
  exact ⟨_, rfl, rfl, rfl, rfl, rfl, rfl, rfl, rfl, rfl, rfl, rfl, regs⟩

theorem standbyPowerLoss_keeps (s : State) : Completes .standbyPowerLoss s (fun t => t = { s with keeper := t.keeper } ∧
    t.keeper.running = false ∧ t.keeper.buffered = [] ∧ t.keeper.log = s.keeper.log ∧ t.keeper.svnFused = s.keeper.svnFused ∧
    t.keeper.staged = s.keeper.staged ∧ t.keeper.nextSeq = s.keeper.nextSeq) :=
  ⟨_, rfl, rfl, rfl, rfl, rfl, rfl, rfl, rfl⟩

/-! ### Resets of functions -/

/-- The registers that the reset of a function leaves. -/
def fnKeeps (fn k : Nat) : Bool := !((keyPage k == 0x14 || keyPage k == 0x15) && decide (0x100 ≤ keyOff k) && keyInst k == fn)

/-- A request whose function is reset stands as an orphan. -/
def orphaned (fn : Nat) (r : Req) : Req :=
  if (match r.src with
    | .host f _ _ _ _ => f.val == fn
    | .port _ _ => false) = true then { r with orphan := true } else r

theorem State.resetFn_noOwed {fn : Nat} (none : ∀ q ∈ (s.fn fn).queues, q.2.owed = []) : s.resetFn fn = { s with
    host := Store.erase s.host fn
    regs := s.regs.filter fun p => fnKeeps fn p.1
    reqs := s.reqs.map fun p => (p.1, orphaned fn p.2)
    mem := (s.dipLeaves fn).mem } := by
  have nothing : ((s.fn fn).queues.flatMap fun q => q.2.owed) = [] := List.flatMap_eq_nil_iff.mpr none
  unfold State.resetFn
  rw [nothing]
  have same (r : Req) : (if (match r.src with
      | .host f _ _ _ _ => f.val == fn
      | .port _ _ => false) = true then { r with orphan := true } else r) = orphaned fn r := rfl
  have each : (fun p : Nat × Req => if (match p.2.src with
      | .host f _ _ _ _ => f.val == fn
      | .port _ _ => false) = true then (p.1, { p.2 with orphan := true }) else p) = fun p => (p.1, orphaned fn p.2) := by
    funext p
    rw [← same, apply_ite (Prod.mk p.1)]
  dsimp only [List.filter_nil, List.foldl_nil]
  exact congrArg (fun l => { s with
    host := Store.erase s.host fn
    regs := s.regs.filter fun p => fnKeeps fn p.1
    reqs := s.reqs.map l
    mem := (s.dipLeaves fn).mem }) each

/-- The reset of a function changes the host port, registers, requests and the reads that the Dipper waits for. -/
structure State.FnReset (s t : State) (host : Store HostFn) : Prop where
  host : t.host = host
  rest : t = { s with host := t.host, regs := t.regs, reqs := t.reqs, mem := t.mem }

theorem State.resetFn_frame (s : State) (fn : Nat) : s.FnReset (s.resetFn fn) (Store.erase s.host fn) := by
  unfold State.resetFn
  extract_lets owed mine other orph s0 s1
  refine List.foldlRecOn (motive := fun (t : State) => s.FnReset t (Store.erase s.host fn)) _ _ ⟨rfl, rfl⟩ fun t ht o _ => ?_
  have drop : s.FnReset (t.dropReq o.rid) (Store.erase s.host fn) := by
    unfold State.dropReq
    split
    · exact ⟨ht.host, by conv_lhs => rw [ht.rest]⟩
    · exact ht
  generalize t.dropReq o.rid = u at *
  have wrote : u.Wrote (u.discard fn) [instKey Reg.HQ_CNT fn] := .bumpSat List.mem_cons_self _ _ _
  generalize u.discard fn = v at *
  have host : v.host = u.host := by rw [wrote.rest]
  refine ⟨host.trans drop.host, ?_⟩
  rw [wrote.rest, drop.rest]

theorem orphaned_form (fn : Nat) (r : Req) : orphaned fn r = { r with orphan := (orphaned fn r).orphan } := by
  unfold orphaned
  split <;> split <;> rfl

theorem orphaned_host {fn : Nat} {r : Req} {f : Fin 17} {n : Fin 16} {tag : U32} {a : U64} {l : U32} (src : r.src = .host f n tag a l)
    (same : f.val = fn) : (orphaned fn r).orphan = true := by
  unfold orphaned
  rw [src]
  rw [if_pos (by simpa using same)]

theorem functionLevelReset_clears (fn : Fin 17) (s : State) (virtual : fn.val ≠ 0) (none : ∀ q ∈ (s.fn fn).queues, q.2.owed = []) :
    Completes (.functionLevelReset fn) s (fun t =>
      t = { s with host := t.host, regs := t.regs, reqs := t.reqs, mem := { s.mem with reads := t.mem.reads } } ∧
      t.fn fn = HostFn.reset ∧
      (∀ g, g ≠ fn.val → t.fn g = s.fn g) ∧
      (∀ k, t.reg k = if (keyPage k = 0x14 ∨ keyPage k = 0x15) ∧ 0x100 ≤ keyOff k ∧ keyInst k = fn.val then resetReg k
        else s.reg k) ∧
      (∀ rid r, s.req? rid = some r → ∃ q, t.req? rid = some q ∧ q = { r with orphan := q.orphan } ∧
        ((∃ n tag a l, r.src = .host fn n tag a l) → q.orphan = true))) := by
  have ran : exec (.functionLevelReset fn) s = .next (s.resetFn fn) :=
    congrArg _ (if_neg fun zero => virtual (congrArg Fin.val zero))
  rw [State.resetFn_noOwed none] at ran
  refine ⟨_, ran, rfl, ?_, fun g other => ?_, fun k => ?_, fun rid r held => ⟨orphaned fn r, ?_, orphaned_form fn r, ?_⟩⟩
  · unfold State.fn Store.get
    rw [Store.find?_erase_same]
    rfl
  · unfold State.fn Store.get
    rw [Store.find?_erase_other _ _ _ other]
  · rw [State.reg_filter (s := s) (keep := fnKeeps fn) rfl]
    unfold fnKeeps
    by_cases mine : (keyPage k = 0x14 ∨ keyPage k = 0x15) ∧ 0x100 ≤ keyOff k ∧ keyInst k = fn.val
    · rw [if_pos mine]
      obtain ⟨page, off, inst⟩ := mine
      have named : (keyPage k == 0x14 || keyPage k == 0x15) = true := by simpa using page
      rw [named, inst, decide_eq_true off]
      exact if_neg (by simp)
    · refine (if_pos ?_).trans (if_neg mine).symm
      rw [Bool.not_eq_true', ← Bool.not_eq_true]
      simpa [and_assoc] using mine
  · unfold State.req? at *
    rw [Store.find?_map, held]
    rfl
  · rintro ⟨n, tag, a, l, src⟩
    exact orphaned_host src rfl

theorem State.resetFn_fn (s : State) (f g : Nat) : (s.resetFn f).fn g = if g = f then HostFn.reset else s.fn g := by
  have host : (s.resetFn f).host = Store.erase s.host f := (s.resetFn_frame f).host
  unfold State.fn Store.get
  rw [host]
  split
  next same =>
    rw [same, Store.find?_erase_same]
    rfl
  next other => rw [Store.find?_erase_other _ _ _ other]

/-- Every function of a list of them is reset. -/
theorem State.resetFns_fn {l : List Nat} {g : Nat} (s : State) (listed : g ∈ l) : (l.foldl State.resetFn s).fn g = HostFn.reset := by
  have stays (l : List Nat) (t : State) (here : t.fn g = HostFn.reset) : (l.foldl State.resetFn t).fn g = HostFn.reset := by
    refine List.foldlRecOn (motive := fun (u : State) => u.fn g = HostFn.reset) _ _ here fun u hu f _ => ?_
    rw [u.resetFn_fn, hu, ite_self]
  induction l generalizing s with
  | nil => exact absurd listed List.not_mem_nil
  | cons f l ih =>
    rcases List.mem_cons.mp listed with rfl | later
    · exact stays l _ (by rw [State.resetFn_fn, if_pos rfl])
    · exact ih _ later

theorem State.resetFns_rest (s : State) (l : List Nat) : s.FnReset (l.foldl State.resetFn s) (l.foldl State.resetFn s).host := by
  refine ⟨rfl, List.foldlRecOn (motive := fun (t : State) => t = { s with host := t.host, regs := t.regs, reqs := t.reqs, mem := t.mem })
    l _ rfl fun t ht f _ => ?_⟩
  rw [(t.resetFn_frame f).rest, ht]

/-- What a reset of every function leaves. -/
def State.AllReset (s t : State) : Prop :=
  (∀ g, g < 17 → t.fn g = HostFn.reset) ∧ t.indexes = s.indexes ∧ t.slices = s.slices ∧
  (s.commit.busy = false → t.staged = []) ∧ (s.commit.busy = true → t.commit = ⟨true, false, true⟩ ∧ t.staged = s.staged)

theorem State.resetAllFns_reset (s : State) : s.AllReset s.resetAllFns := by
  have each (g : Nat) (small : g < 17) := State.resetFns_fn s (List.mem_range.mpr small)
  have rest := s.resetFns_rest (List.range 17)
  unfold State.resetAllFns
  generalize (List.range 17).foldl State.resetFn s = v at *
  have commit : v.commit = s.commit := by rw [rest.rest]
  have indexes : v.indexes = s.indexes := by rw [rest.rest]
  have slices : v.slices = s.slices := by rw [rest.rest]
  have staged : v.staged = s.staged := by rw [rest.rest]
  dsimp only
  rw [commit]
  cases busy : s.commit.busy with
  | false => exact ⟨each, indexes, slices, fun _ => rfl, by rw [busy]; nofun⟩
  | true => exact ⟨each, indexes, slices, by rw [busy]; nofun, fun _ => ⟨rfl, staged⟩⟩

theorem hotReset_clears (s : State) : ∀ i ∈ [Instr.hotReset, Instr.functionLevelReset 0], Completes i s (s.AllReset ·) := by
  intro i hi
  rcases List.mem_cons.mp hi with rfl | hi
  · exact ⟨_, rfl, s.resetAllFns_reset⟩
  · obtain rfl := List.mem_singleton.mp hi
    have ran : execFunctionLevelReset 0 s = .next s.resetAllFns := by
      unfold execFunctionLevelReset
      rw [if_pos rfl]
    exact ⟨_, ran, s.resetAllFns_reset⟩

end Sys2Proof.Machine

section Settled
open Sys2Proof Sys2Proof.Machine

/-- Settles O57: each reset by what it clears and what it keeps. -/
theorem resetsClear : Obligations.ResetsClear :=
  ⟨pwrokRise_resets, pwrokFall_clears, resetNFall_resets, resetNRise_ends, resetHoldEnd_ends, standbyPowerUp_restores,
    standbyPowerLoss_keeps, functionLevelReset_clears, hotReset_clears⟩

end Settled
end

section
/-! SUPPORT. Domain restarts begin (R498 to R505), for the heartbeat, the bridges and the causes of a restart: O35 and O41. -/

set_option Elab.async false

namespace Sys2Proof.Machine
variable {s t u : State}

/-- The service of requests and parts has run, and charged no unit. -/
theorem Keeps.calm (s : State) : Keeps ⟨false, false, false, false, false⟩ s s := .refl s

theorem instKey_mod {k : Nat} (h : k < 524288) (i : Nat) : instKey k i % 524288 = k := by
  unfold instKey
  omega

/-- An event to every function in service: the host port, the words sent and the event registers apart, the node stands. -/
theorem State.stateChange_noted (s : State) :
    s.stateChange = { s with regs := s.stateChange.regs, host := s.stateChange.host, out := s.stateChange.out } ∧
    ∀ k, k % 524288 ≠ Reg.HQ_EVENT → s.stateChange.reg k = s.reg k := by
  unfold State.stateChange State.hqEventAll
  refine List.foldlRecOn (motive := fun (t : State) => t = { s with regs := t.regs, host := t.host, out := t.out } ∧
    ∀ k, k % 524288 ≠ Reg.HQ_EVENT → t.reg k = s.reg k) _ _ ⟨rfl, fun _ _ => rfl⟩ fun t ⟨rest, only⟩ f _ => ?_
  obtain ⟨noted, -⟩ := t.hqEvent_sets f (b := 1) (by decide)
  generalize t.hqEvent f 1 = v at *
  refine ⟨by rw [noted.rest, rest], fun k apart => (noted.only k fun same => apart ?_).trans (only k apart)⟩
  rw [List.mem_singleton.mp same]
  exact instKey_mod (by decide) f

/-- A restart of Basin `b` has begun. -/
structure State.RestartBegun (s t : State) (b : Nat) (c : Cause) : Prop where
  state : (t.basin b).state = 1
  step : (t.basin b).step = 1
  cause : (t.basin b).cause = c
  misses : (t.basin b).misses = 0
  attempts : (t.basin b).attempts = if (s.basin b).state = 1 then min 255 ((s.basin b).attempts + 1) else 1
  last : t.rst.lastBasin = b ∧ t.rst.lastCause = c.num
  count : CountedSat s t Reg.RST_CNT_RESTARTS (if (s.basin b).state = 1 then 32 else 16 * b) 16 1
  record : t.record = s.record
  bridges : t.fabric.bridges = s.fabric.bridges

theorem State.beginRestart_begins (s : State) {b : Nat} {c : Cause} {counted asked : Bool} (runs : s.keeper.running = true)
    (state : (s.basin b).state = 0 ∨ (s.basin b).state = 1 ∨ ((s.basin b).state = 2 ∧ asked = true))
    (few : counted = true → (s.recentStarts b).length + 1 ≤ s.regF Reg.RST_CFG 4 4) (small : b < 2) :
    s.RestartBegun (s.beginRestart b c counted asked) b c := by
  unfold State.beginRestart
  extract_lets v recent again first firstCount attempts starts s0 s1 _ s2 s3 s4
  have here : v.state = 0 ∨ v.state = 1 ∨ (v.state = 2 ∧ asked = true) := state
  have noSleep : ¬ ((!s.keeper.running) = true ∨ v.state = 3) := by
    simp only [runs, Bool.not_true, Bool.false_eq_true, false_or]
    omega
  have stays : ¬ (v.state = 2 ∧ (!asked) = true) := by
    rintro ⟨out, unasked⟩
    rcases here with h | h | ⟨-, h⟩
    · omega
    · omega
    · simp [h] at unasked
  have often : ¬ (counted = true ∧ s.regF Reg.RST_CFG 4 4 < recent.length + 1) := fun ⟨h, less⟩ => absurd (few h) (Nat.not_le.mpr less)
  rw [if_neg noSleep, if_neg stays, if_neg often]
  have wrote : OnlyRegs s s2 [Reg.RST_CTRL, Reg.RST_INJECT] := by
    have logged : OnlyRegs s (s.logEvent 2 0 sevError) [] := State.logEvent_onlyRegs _ _ _ _ (by decide) _
    have first : OnlyRegs s s0 [Reg.RST_CTRL, Reg.RST_INJECT] := (logged.mono (by simp)).trans (.setRegF _ _ _ _ (by simp))
    have second : OnlyRegs s0 (s0.setRegF Reg.RST_INJECT b 1 0) [Reg.RST_CTRL, Reg.RST_INJECT] := .setRegF _ _ _ _ (by simp)
    exact (first.trans second).trans (.of_regs rfl)
  have basin : s2.basin b = { v with
      state := 1
      step := 1
      misses := 0
      hang := false
      hbSeen := false
      cause := c
      attempts := attempts
      first := first
      firstCount := firstCount
      lastStart := s.tick
      starts := starts
      fenceEnd := none } := by
    show s1.basin b = _
    exact State.basin_setBasin_same (s0.setRegF Reg.RST_INJECT b 1 0) b _
  obtain ⟨q, l, u, logged⟩ := s.logEvent_form 2 0 (show sevError ≠ sevCritical by decide)
  have record : s2.record = s.record := (congrArg State.record logged).trans rfl
  have fabric : s2.fabric = s.fabric := (congrArg State.fabric logged).trans rfl
  have last : s2.rst.lastBasin = b ∧ s2.rst.lastCause = c.num := ⟨rfl, rfl⟩
  have attempted : attempts = if (s.basin b).state = 1 then min 255 ((s.basin b).attempts + 1) else 1 := by
    unfold attempts again v
    simp
  clear_value s2 attempts
  have counts : ∃ l, s3 = s2.bumpSat Reg.RST_CNT_RESTARTS l 16 1 ∧ l = (if (s.basin b).state = 1 then 32 else 16 * b) := by
    by_cases h : v.state = 1
    · exact ⟨32, if_pos h, (if_pos h).symm⟩
    · exact ⟨16 * b, if_neg h, (if_neg h).symm⟩
  obtain ⟨at_, bumped, place⟩ := counts
  have count : CountedSat s s3 Reg.RST_CNT_RESTARTS at_ 16 1 := by
    rw [bumped]
    have fits : at_ + 16 ≤ 64 := by
      rw [place]
      split <;> omega
    exact .after _ _ _ _ (wrote.regF _ _ _ (by decide)) (.of_bumpSat _ _ _ _ fits)
  have only : s3 = { s2 with regs := s3.regs } := by rw [bumped]; rfl
  clear_value s3
  have fenced : Keeps ⟨false, false, false, false, false⟩ s3 s4 := (Keeps.calm s3).fence
  have served := fenced.served rfl
  have quiet := fenced.quiet rfl
  have modes := fenced.modes rfl
  clear_value s4
  have begun : s.RestartBegun s4 b c := by
    have same : s4.basin b = s2.basin b := by
      unfold State.basin
      rw [modes.2, only]
    have stands : s4.rst = s2.rst := by rw [modes.1, only]
    refine ⟨?_, ?_, ?_, ?_, ?_, ?_, ?_, ?_, ?_⟩
    · rw [same, basin]
    · rw [same, basin]
    · rw [same, basin]
    · rw [same, basin]
    · rw [same, basin]
      exact attempted
    · rw [stands]
      exact last
    · rw [← place]
      refine count.before _ _ _ _ ?_
      unfold State.regF
      rw [served.regs _ (by decide)]
    · rw [quiet.record, only, record]
    · rw [served.bridges, only, fabric]
  split
  · obtain ⟨rest, regs⟩ := s4.stateChange_noted
    generalize s4.stateChange = v at *
    have basin : v.basin b = s4.basin b := by rw [rest]; rfl
    obtain ⟨state, step, cause, misses, attempts, last, count, record, bridges⟩ := begun
    rw [← basin] at state step cause misses attempts
    refine ⟨state, step, cause, misses, attempts, by rw [rest]; exact last, ?_, by rw [rest]; exact record, by rw [rest]; exact bridges⟩
    refine count.before _ _ _ _ ?_
    unfold State.regF
    rw [regs _ (by decide)]
  · exact begun

theorem State.startRestart_begins (s : State) {b : Nat} {c : Cause} (runs : s.keeper.running = true)
    (state : (s.basin b).state = 0 ∨ (s.basin b).state = 1 ∨ ((s.basin b).state = 2 ∧ c = .control))
    (few : c ≠ .control → c ≠ .injected → (s.recentStarts b).length + 1 ≤ s.regF Reg.RST_CFG 4 4) (small : b < 2) :
    s.RestartBegun (s.startRestart b c) b c := by
  unfold State.startRestart
  refine s.beginRestart_begins runs ?_ ?_ small
  · rcases state with h | h | ⟨h, rfl⟩
    · exact .inl h
    · exact .inr (.inl h)
    · exact .inr (.inr ⟨h, rfl⟩)
  · intro counted
    obtain ⟨control, injected⟩ := of_decide_eq_true counted
    exact few control injected

/-! ### Heartbeats -/

theorem State.noteFired_wrote (s : State) (n : Nat) (late : Bool) :
    s.Wrote (s.noteFired n late) [Reg.CLEP_SLOT_FIRED, Reg.CLEP_ERR_CNT, Reg.CLEP_EVENT] := by
  unfold State.noteFired
  extract_lets s1
  have fired : s.Wrote s1 [Reg.CLEP_SLOT_FIRED, Reg.CLEP_ERR_CNT, Reg.CLEP_EVENT] := .setRegF (by simp) _ _ _
  clear_value s1
  split
  · exact (fired.trans (.bumpSat (by simp) _ _ _)).trans (.setRegF (by simp) _ _ _)
  · exact fired

theorem State.mayFire_kind {n : Nat} {k : SlotKind} (may : s.mayFire n k = true) : (s.slot n).kind = k := by
  unfold State.mayFire at may
  simp only [Bool.and_eq_true, beq_iff_eq] at may
  exact may.1.1.2

theorem State.mayFire_armed {n : Nat} {k : SlotKind} (may : s.mayFire n k = true) : (s.slot n).armed = true := by
  unfold State.mayFire State.slotDue at may
  simp only [Bool.and_eq_true] at may
  exact may.1.2.1.1

/-- The slot of a heartbeat that has been checked. -/
def EvSlot.beaten (e : EvSlot) (now : Nat) : EvSlot := { e with
  time := BitVec.ofNat 64 (nextPeriod now e.time.toNat e.period)
  missed := false
  late := e.missed }

theorem State.fireSlot_beat {n : Nat} (kind : (s.slot n).kind = .heartbeat) : ∃ u : State,
    s.fireSlot n = u.setSlot n ((s.slot n).beaten s.now.toNat) ∧
    s.Wrote u [Reg.CLEP_SLOT_FIRED, Reg.CLEP_ERR_CNT, Reg.CLEP_EVENT] := by
  refine ⟨_, ?_, s.noteFired_wrote n (s.slot n).missed⟩
  unfold State.fireSlot
  extract_lets e s1
  have kind : e.kind = .heartbeat := kind
  split
  next h => cases h.symm.trans kind
  next h => cases h.symm.trans kind
  next h => cases h.symm.trans kind
  next => rfl
  next h => cases h.symm.trans kind

theorem lt_nextPeriod (now time : Nat) {period : Nat} (some : 0 < period) : now < nextPeriod now time period := by
  unfold nextPeriod
  rw [max_eq_right some]
  have less := Nat.lt_mul_div_succ (now - time) some
  rw [Nat.mul_comm]
  omega

/-- A heartbeat slot fires: the clock's slots, three registers and what the check does. -/
theorem heartbeatCheck_checks {b : Fin 2} {s : State} (may : s.mayFire b .heartbeat = true) : ∃ u : State,
    exec (.heartbeatCheck b) s = .next (u.checkBeat b) ∧ u = { s with clep := u.clep, regs := u.regs } ∧
    OnlyRegs s u [Reg.CLEP_SLOT_FIRED, Reg.CLEP_ERR_CNT, Reg.CLEP_EVENT] ∧ u.slot b = (s.slot b).beaten s.now.toNat ∧
    u.clep.ticks = s.clep.ticks := by
  obtain ⟨v, fired, wrote⟩ := s.fireSlot_beat (State.mayFire_kind may)
  refine ⟨_, congrArg _ (if_pos may), ?_⟩
  rw [fired]
  refine ⟨?_, fun k h => wrote.only k h, State.slot_setSlot_same _ _ _, ?_⟩
  · rw [wrote.rest]
    rfl
  · show v.clep.ticks = s.clep.ticks
    rw [wrote.rest]

theorem heartbeatCheck_notes (b : Fin 2) (s : State) (may : s.mayFire b .heartbeat = true) (runs : s.keeper.running = true)
    (state : (s.basin b).state = 0) (fine : (s.basin b).seq ≠ (s.basin b).prev ∨ (s.basin b).misses < 3) (period : 0 < (s.slot b).period) :
    Completes (.heartbeatCheck b) s (fun t => t = { s with clep := t.clep, regs := t.regs, basins := t.basins } ∧
      ((s.basin b).seq ≠ (s.basin b).prev → t.basin b = { s.basin b with prev := (s.basin b).seq, misses := 0 }) ∧
      ((s.basin b).seq = (s.basin b).prev → t.basin b = { s.basin b with misses := (s.basin b).misses + 1 }) ∧
      (t.slot b).armed = true ∧ s.now.toNat < nextPeriod s.now.toNat (s.slot b).time.toNat (s.slot b).period ∧
      (t.slot b).time = BitVec.ofNat 64 (nextPeriod s.now.toNat (s.slot b).time.toNat (s.slot b).period)) := by
  obtain ⟨u, ran, rest, -, slot, -⟩ := heartbeatCheck_checks may
  have basin : u.basin b = s.basin b := by rw [rest]; rfl
  have keeper : u.keeper.running = true := by rw [rest]; exact runs
  have checked : ∃ v, u.checkBeat b = u.setBasin b v ∧
      ((s.basin b).seq ≠ (s.basin b).prev → v = { s.basin b with prev := (s.basin b).seq, misses := 0 }) ∧
      ((s.basin b).seq = (s.basin b).prev → v = { s.basin b with misses := (s.basin b).misses + 1 }) := by
    unfold State.checkBeat
    rw [basin]
    dsimp only
    rw [if_neg (by simp [keeper]), if_neg (by simp [state])]
    by_cases new : (s.basin b).seq ≠ (s.basin b).prev
    · rw [if_pos (.inr new)]
      exact ⟨_, rfl, fun _ => rfl, fun same => absurd same new⟩
    · have few : (s.basin b).misses < 3 := fine.resolve_left new
      rw [if_neg (by simp [state, not_not.mp new]), if_pos (by omega), min_eq_right (by omega)]
      exact ⟨_, rfl, fun h => absurd h new, fun _ => rfl⟩
  obtain ⟨v, set, moved, missed⟩ := checked
  rw [set] at ran
  have same : (u.setBasin b v).basin b = v := State.basin_setBasin_same _ _ _
  have beat : (u.setBasin b v).slot b = (s.slot b).beaten s.now.toNat := slot
  refine ⟨_, ran, ?_, fun h => same.trans (moved h), fun h => same.trans (missed h), ?_, lt_nextPeriod _ _ period, ?_⟩
  · show ({ u with basins := (u.setBasin b v).basins } : State) =
      { s with clep := u.clep, regs := u.regs, basins := (u.setBasin b v).basins }
    generalize (u.setBasin b v).basins = basins
    conv_lhs => rw [rest]
  · rw [beat]
    exact State.mayFire_armed may
  · rw [beat]
    rfl

theorem heartbeatCheck_restarts (b : Fin 2) (s : State) (may : s.mayFire b .heartbeat = true) (runs : s.keeper.running = true)
    (state : (s.basin b).state = 0) (same : (s.basin b).seq = (s.basin b).prev) (misses : (s.basin b).misses = 3)
    (alive : (s.basin b).hang = false) (few : (s.recentStarts b).length + 1 ≤ s.regF Reg.RST_CFG 4 4) :
    Completes (.heartbeatCheck b) s (fun t => (t.basin b).state = 1 ∧ (t.basin b).step = 1 ∧ (t.basin b).cause = .heartbeat ∧
      (t.basin b).misses = 0 ∧ t.rst.lastBasin = b.val ∧ t.rst.lastCause = 1 ∧
      CountedSat s t Reg.RST_CNT_RESTARTS (16 * b.val) 16 1 ∧ t.record = s.record) := by
  obtain ⟨u, ran, rest, only, -, ticks⟩ := heartbeatCheck_checks may
  have basin : u.basin b = s.basin b := by rw [rest]; rfl
  have keeper : u.keeper.running = true := by rw [rest]; exact runs
  have record : u.record = s.record := by rw [rest]
  have regs (k l n : Nat) (h : k ∉ [Reg.CLEP_SLOT_FIRED, Reg.CLEP_ERR_CNT, Reg.CLEP_EVENT]) : u.regF k l n = s.regF k l n :=
    only.regF k l n h
  have checked : u.checkBeat b = (u.setBasin b { s.basin b with misses := 4 }).startRestart b .heartbeat := by
    unfold State.checkBeat
    rw [basin]
    dsimp only
    rw [if_neg (by simp [keeper]), if_neg (by simp [state]), if_neg (by simp [state, same]), misses, if_neg (by decide), alive]
    rfl
  rw [checked] at ran
  have set : (u.setBasin b { s.basin b with misses := 4 }).basin b = { s.basin b with misses := 4 } := State.basin_setBasin_same _ _ _
  have recent : (u.setBasin b { s.basin b with misses := 4 }).recentStarts b = s.recentStarts b := by
    unfold State.recentStarts
    rw [set]
    show (s.basin b).starts.filter (fun t => decide (u.clep.ticks.toNat ≤ t.toNat + u.regF Reg.RST_CFG 8 8 * 100000000)) = _
    rw [ticks, regs _ _ _ (by decide)]
    rfl
  have started := (u.setBasin b { s.basin b with misses := 4 }).startRestart_begins (b := b) (c := .heartbeat) keeper
    (by rw [set]; exact .inl state) (fun _ _ => by
      rw [recent]
      exact few.trans (regs Reg.RST_CFG 4 4 (by decide)).ge) b.isLt
  have count : CountedSat (u.setBasin b { s.basin b with misses := 4 }) _ Reg.RST_CNT_RESTARTS _ 16 1 := started.count
  have up : ¬ (s.basin b).state = 1 := by omega
  rw [set, if_neg up] at count
  obtain ⟨basinOf, cause⟩ := started.last
  exact ⟨_, ran, started.state, started.step, started.cause, started.misses, basinOf, cause,
    .after _ _ _ _ (regs _ _ _ (by decide)) count, started.record.trans record⟩

theorem pumphouseHeartbeat_writes (b : Fin 2) (seq : U32) (s : State) (runs : s.pumpRuns b = true) (alive : (s.basin b).hang = false)
    (new : (s.basin b).seq ≠ seq) : Completes (.pumphouseHeartbeat b seq) s (fun t => t = { s with basins := t.basins } ∧
      t.basin b = { s.basin b with seq := seq, hbSeen := true } ∧ (∀ c, c ≠ b.val → t.basin c = s.basin c)) :=
  ⟨_, if_neg (by simp [runs, alive, new]), rfl, State.basin_setBasin_same _ _ _, fun _ h => State.basin_setBasin_other _ _ _ _ h⟩

theorem pumphouseHeartbeat_none (b : Fin 2) (seq : U32) (s : State)
    (none : (s.basin b).hang = true ∨ (s.basin b).seq = seq ∨ s.pumpRuns b = false) :
    Completes (.pumphouseHeartbeat b seq) s (fun t => t = s) :=
  ⟨s, if_pos none, rfl⟩

/-! ### Bridges -/

theorem State.bridge_setBridge_other (k j : Nat) (v : Bridge) (d : j ≠ k) : (s.setBridge k v).bridge j = s.bridge j :=
  Store.get_put_other _ _ _ _ _ d

theorem State.bridge_congr (h : t.fabric.bridges = s.fabric.bridges) (k : Nat) : t.bridge k = s.bridge k := by
  unfold State.bridge
  rw [h]

theorem bridgeFlitError_replays (link : Fin 4) (first : Bool) (s : State) (up : (s.bridge link).state = 2 ∨ link.val = 3)
    (free : (s.bridge link).retrain = false) :
    Completes (.bridgeFlitError link first) s (fun t => t = { s with fabric := t.fabric, regs := t.regs } ∧
      ((first = true ∨ (s.bridge link).tries < 16) →
        t.bridge link = { s.bridge link with tries := (if first then 0 else (s.bridge link).tries) + 1 } ∧
        OnlyRegs s t [Reg.BNET_REPLAY] ∧ CountedSat s t Reg.BNET_REPLAY (16 * link.val) 16 1) ∧
      (first = false → 16 ≤ (s.bridge link).tries →
        t.bridge link = ⟨if link.val = 3 then 0 else 1, 0, true⟩ ∧ t.regs = s.regs) ∧
      (∀ j, j ≠ link.val → t.bridge j = s.bridge j)) := by
  have ran : exec (.bridgeFlitError link first) s = if (if first then 0 else (s.bridge link).tries) ≥ 16 then
      .next (s.setBridge link ⟨if (link.val == 3) = true then 0 else 1, 0, true⟩)
      else .next ((s.setBridge link { s.bridge link with tries := (if first then 0 else (s.bridge link).tries) + 1 }).bumpSat
        Reg.BNET_REPLAY (16 * link.val) 16 1) := by
    refine if_neg ?_
    rw [free]
    rcases up with h | h
    · simp [h]
    · simp [h]
  by_cases worn : (if first then 0 else (s.bridge link).tries) ≥ 16
  · rw [if_pos worn] at ran
    have later : first = false ∧ 16 ≤ (s.bridge link).tries := by
      cases first
      · exact ⟨rfl, worn⟩
      · exact absurd worn (by simp)
    refine ⟨_, ran, rfl, fun fresh => ?_, fun _ _ => ⟨?_, rfl⟩, fun j h => State.bridge_setBridge_other _ _ _ h⟩
    · rcases fresh with h | h
      · simp [later.1] at h
      · omega
    · rw [State.bridge_setBridge_same]
      simp
  · rw [if_neg worn] at ran
    have fits : 16 * link.val + 16 ≤ 64 := by omega
    refine ⟨_, ran, rfl, fun _ => ⟨State.bridge_setBridge_same _ _ _, ?_, ?_⟩, fun later h => ?_, fun j h => State.bridge_setBridge_other _ _ _ h⟩
    · exact OnlyRegs.trans (t := s.setBridge link _) (.of_regs rfl) (.bumpSat _ _ _ _ List.mem_cons_self)
    · exact CountedSat.after (t := s.setBridge link _) _ _ _ _ rfl (.of_bumpSat _ _ _ _ fits)
    · simp [later] at worn
      omega

theorem bridgeRetrainDone_returns (link : Fin 4) (ok : Bool) (s : State) (trains : (s.bridge link).retrain = true)
    (good : ok = true ∨ link.val = 3) : Completes (.bridgeRetrainDone link ok) s (fun t => t = { s with fabric := t.fabric } ∧
      t.bridge link = ⟨if link.val = 3 then 0 else 2, 0, false⟩ ∧ (∀ j, j ≠ link.val → t.bridge j = s.bridge j)) := by
  have goes : ¬ (!(s.bridge link).retrain) = true := by simp [trains]
  by_cases net : link.val = 3
  · refine ⟨_, (if_neg goes).trans (if_pos net), rfl, ?_, fun j h => State.bridge_setBridge_other _ _ _ h⟩
    rw [State.bridge_setBridge_same, if_pos net]
  · refine ⟨_, (if_neg goes).trans ((if_neg net).trans (if_pos (good.resolve_right net))), rfl, ?_,
      fun j h => State.bridge_setBridge_other _ _ _ h⟩
    rw [State.bridge_setBridge_same, if_neg net]

theorem bridgeRetrainDone_restarts (link : Fin 4) (s : State) (b : Nat) (trains : (s.bridge link).retrain = true) (bridge : link.val ≠ 3)
    (hb : b = (if link.val = 2 then 1 else link.val)) (runs : s.keeper.running = true) (state : (s.basin b).state = 0)
    (few : (s.recentStarts b).length + 1 ≤ s.regF Reg.RST_CFG 4 4) :
    Completes (.bridgeRetrainDone link false) s (fun t => t.bridge link = ⟨0, 0, false⟩ ∧ (t.basin b).state = 1 ∧
      (t.basin b).step = 1 ∧ (t.basin b).cause = (if link.val = 2 then .basinBridge else .headworksBridge)) := by
  have goes : ¬ (!(s.bridge link).retrain) = true := by simp [trains]
  have ran : exec (.bridgeRetrainDone link false) s = .next ((s.setBridge link ⟨0, 0, false⟩).startRestart b
      (if link.val = 2 then .basinBridge else .headworksBridge)) := by
    refine (if_neg goes).trans ((if_neg bridge).trans ((if_neg (by decide)).trans (congrArg _ ?_)))
    rw [hb]
    split
    · rfl
    · rfl
  have small : b < 2 := by
    rw [hb]
    split
    · decide
    · omega
  have started := (s.setBridge link ⟨0, 0, false⟩).startRestart_begins (b := b)
    (c := if link.val = 2 then .basinBridge else .headworksBridge) runs (.inl state) (fun _ _ => few) small
  exact ⟨_, ran, (State.bridge_congr started.bridges _).trans (State.bridge_setBridge_same _ _ _), started.state, started.step, started.cause⟩

end Sys2Proof.Machine

section Settled
open Sys2Proof Sys2Proof.Machine

/-- Settles O35: the check of a heartbeat notes it or starts the restart that has begun. -/
theorem heartbeatsChecked : Obligations.HeartbeatsChecked :=
  ⟨heartbeatCheck_notes, heartbeatCheck_restarts, pumphouseHeartbeat_writes, pumphouseHeartbeat_none⟩

/-- Settles O41: a flit error by its tries, and a retraining by its end. -/
theorem bridgesReplay : Obligations.BridgesReplay := ⟨bridgeFlitError_replays, bridgeRetrainDone_returns, bridgeRetrainDone_restarts⟩

end Settled
end

section
/-! SUPPORT. Samples, operating points and holds of Keeper (R516 to R526). -/

set_option Elab.async false

namespace Sys2Proof.Machine
variable {s t u : State}

/-! ### Regions -/

theorem State.region_congr (h : t.keeper.regions = s.keeper.regions) (n : Nat) : t.region n = s.region n := by
  unfold State.region
  rw [h]

/-- The regions that a fold over node Terraces sets are all that it changes. -/
theorem State.foldl_setRegion_form (f : State → Nat → Region) (l : List Nat) (s : State) : ∃ r,
    l.foldl (fun (u : State) n => u.setRegion n (f u n)) s = { s with keeper := { s.keeper with regions := r } } := by
  induction l generalizing s with
  | nil => exact ⟨s.keeper.regions, rfl⟩
  | cons n l ih => exact ih (s.setRegion n (f s n))

/-- What holds of every region before a fold, and of each region that it sets, holds after it. -/
theorem State.foldl_setRegion_region {P : Nat → Region → Prop} {f : State → Nat → Region}
    (step : ∀ u n, P n (u.region n) → P n (f u n)) (l : List Nat) {s : State} (start : ∀ n, P n (s.region n)) (n : Nat) :
    P n ((l.foldl (fun (u : State) n => u.setRegion n (f u n)) s).region n) := by
  refine List.foldlRecOn (motive := fun u : State => ∀ n, P n (u.region n)) l _ start (fun u h m _ n => ?_) n
  by_cases here : n = m
  · rw [here, State.region_setRegion_same]
    exact step u m (h m)
  · rw [State.region_setRegion_other (d := here)]
    exact h n

/-- A region stands at its point, and neither trips nor stops nor goes on. -/
def Region.Stands (a b : Region) : Prop := b.point = a.point ∧ b.tripped = a.tripped ∧ b.stopped = a.stopped

theorem State.noteRegion_stands (s : State) (n : Nat) : (s.region n).Stands (s.noteRegion n) := ⟨rfl, rfl, rfl⟩

/-! ### Sensors -/

/-- Every thermal sensor reads below 105 °C. -/
def State.Cool (s : State) : Prop := ∀ i, i < 120 → ∀ x, Store.find? s.keeper.sensors (sensorKey 0 i) = some x → x.value < 1050

/-- No thermal sensor of a list reads 105 °C. -/
theorem State.sensorVals_cool {l : List Nat} (cool : ∀ i ∈ l, ∀ x, Store.find? s.keeper.sensors (sensorKey 0 i) = some x → x.value < 1050) :
    (s.sensorVals 0 l).any (fun v => decide (1050 ≤ v)) = false := by
  rw [List.any_eq_false]
  intro v h
  obtain ⟨i, mem, found⟩ := List.mem_filterMap.mp h
  obtain ⟨x, hx, rfl⟩ := Option.map_eq_some_iff.mp found
  have := cool i mem x hx
  simpa using this

/-- Phases that run again log and charge nothing. -/
theorem State.foldl_rerun_keeper (l : List Nat) (s : State) : Serves s (l.foldl (fun (u : State) q => u.rerun q) s) ∧
    (l.foldl (fun (u : State) q => u.rerun q) s).keeper = s.keeper := by
  have kept : Keeps ⟨false, false, false, false, false⟩ s (l.foldl (fun (u : State) q => u.rerun q) s) :=
    List.foldlRecOn (motive := (Keeps ⟨false, false, false, false, false⟩ s ·)) l _ (Keeps.calm s) fun _ h _ _ => h.rerun
  exact ⟨kept.served rfl, (kept.quiet rfl).keeper⟩

/-- Of a node only the fabric differs, and of it the Rills of a Terrace, which become idle. -/
theorem State.idleTerrace_form (s : State) (n : Nat) : ∃ f, s.idleTerrace n = { s with fabric := f } ∧
    ∀ p ∈ f.rills, p.1 % 2 = n / 8 → p.1 / 2 % 8 = n % 8 → p.2.rid = none := by
  unfold State.idleTerrace
  extract_lets rills
  have kept := State.settleMaps_rillsKept { s with fabric := { s.fabric with rills := rills } }
  refine ⟨_, kept.rest, fun p mem basin place => ?_⟩
  rw [kept.rills] at mem
  obtain ⟨q, -, rfl⟩ := List.mem_map.mp (List.mem_of_mem_filter mem)
  split at basin
  next here => rw [if_pos here]; rfl
  next there =>
    rw [if_neg there] at place
    exact absurd ⟨basin, place⟩ there

theorem State.logEvent_sensors (s : State) (c n sev : Nat) : (s.logEvent c n sev).keeper.sensors = s.keeper.sensors := by
  unfold State.logEvent State.logRaw
  dsimp only
  split <;> split <;> rfl

theorem State.trip_sensors (s : State) (n c : Nat) : (s.trip n c).keeper.sensors = s.keeper.sensors := by
  unfold State.trip
  extract_lets r rids s1 s2
  split
  · rfl
  · rw [(State.foldl_rerun_keeper rids s2).2]
    have idle : s1.keeper.sensors = s.keeper.sensors := by
      obtain ⟨f, h, -⟩ := State.idleTerrace_form (s.setRegion n { r with tripped := r.tripped ||| (1 <<< c), stopped := true, point := 0 }) n
      show (State.idleTerrace _ n).keeper.sensors = _
      rw [h]
      rfl
    show (if _ then _ else _ : State).keeper.sensors = _
    split
    · rw [State.logEvent_sensors]
      exact idle
    · exact idle

theorem State.untrip_untripped {n : Nat} (h : (s.region n).tripped = 0) : s.untrip n = s := by
  unfold State.untrip
  simp [h]

/-- One node Terrace's part of the trips that the readings call for. -/
def State.tripAt (u : State) (n : Nat) : State :=
  let u1 := if (u.sensorVals 0 (terraceThermal n)).any (fun v => decide (1050 ≤ v)) then u.trip n 0 else u
  let u2 := if (u1.sensorVals 0 (basinThermal (n / 8))).any (fun v => decide (1050 ≤ v)) then u1.trip n 1 else u1
  if (u2.sensorVals 0 headThermal).any (fun v => decide (1050 ≤ v)) then u2.trip n 2 else u2

theorem State.checkTrips_def (s : State) :
    s.checkTrips = (List.range 16).foldl State.untrip ((List.range 16).foldl State.tripAt s) := rfl

/-- The sensors that a Terrace shares with others are below 105 °C. -/
def State.CoolAround (s : State) : Prop := ∀ i, 80 ≤ i → i < 120 →
  ∀ x, Store.find? s.keeper.sensors (sensorKey 0 i) = some x → x.value < 1050

/-- The trips of a Terrace whose own sensors alone may be hot. -/
theorem State.tripAt_own (around : s.CoolAround) {n : Nat} (small : n < 16) : s.tripAt n =
    if (s.sensorVals 0 (terraceThermal n)).any (fun v => decide (1050 ≤ v)) then s.trip n 0 else s := by
  have basin (u : State) (h : u.keeper.sensors = s.keeper.sensors) :
      (u.sensorVals 0 (basinThermal (n / 8))).any (fun v => decide (1050 ≤ v)) = false := by
    refine State.sensorVals_cool fun i mem x found => around i ?_ ?_ x (h ▸ found)
    all_goals
      obtain ⟨j, hj, rfl⟩ := List.mem_map.mp mem
      have := List.mem_range.mp hj
      omega
  have head (u : State) (h : u.keeper.sensors = s.keeper.sensors) :
      (u.sensorVals 0 headThermal).any (fun v => decide (1050 ≤ v)) = false := by
    refine State.sensorVals_cool fun i mem x found => around i ?_ ?_ x (h ▸ found)
    all_goals
      obtain ⟨j, hj, rfl⟩ := List.mem_map.mp mem
      have := List.mem_range.mp hj
      omega
  unfold State.tripAt
  extract_lets u1 u2
  have still : u1.keeper.sensors = s.keeper.sensors := by
    show (if _ then _ else _ : State).keeper.sensors = _
    split
    · exact s.trip_sensors n 0
    · rfl
  have same2 : u2 = u1 := if_neg (by rw [basin u1 still]; exact Bool.false_ne_true)
  rw [same2, head u1 still]
  rfl

/-- With every thermal sensor below 105 °C and no region tripped nothing trips. -/
theorem State.checkTrips_cool (cool : s.Cool) (none : ∀ n, (s.region n).tripped = 0) : s.checkTrips = s := by
  have own (n : Nat) (small : n < 16) : s.tripAt n = s := by
    rw [State.tripAt_own (fun i _ => cool i) small, State.sensorVals_cool fun i mem x found => cool i ?_ x found]
    · exact if_neg Bool.false_ne_true
    · obtain ⟨j, h, rfl⟩ := List.mem_map.mp mem
      have := List.mem_range.mp h
      omega
  have first : (List.range 16).foldl State.tripAt s = s :=
    List.foldlRecOn (motive := (· = s)) _ _ rfl fun _ same n mem => by rw [same, own n (List.mem_range.mp mem)]
  rw [State.checkTrips_def, first]
  exact List.foldlRecOn (motive := (· = s)) _ _ rfl fun _ same n _ => by rw [same, State.untrip_untripped (none n)]

/-! ### One sample -/

/-- A sensor that is noted holds its value, and no other changes. -/
theorem State.noteSensor_find (s : State) (st : Store Sensor) (key : Nat) (v : Int) : ∃ x : Sensor, x.value = v ∧
    ∀ k, Store.find? (s.noteSensor st key v) k = if k = key then some x else Store.find? st k := by
  unfold State.noteSensor
  extract_lets x
  have put (y : Sensor) (value : y.value = v) : ∃ x : Sensor, x.value = v ∧
      ∀ k, Store.find? (Store.insert st key y) k = if k = key then some x else Store.find? st k := by
    refine ⟨y, value, fun k => ?_⟩
    split
    next here => rw [here, Store.find?_insert_same]
    next there => rw [Store.find?_insert_other _ _ _ _ there]
  split <;> exact put _ rfl

/-- The first reading, that of a thermal sensor. -/
theorem State.sampled_reading {r : Reading} (cls : r.cls.val = 0) (first : s.keeper.sensors = []) : ∃ x : Sensor, x.value = r.value ∧
    ∀ k, Store.find? (s.sampled [r] []) k = if k = r.idx.val then some x else none := by
  have key : sensorKey r.cls r.idx = r.idx.val := by
    unfold sensorKey
    omega
  have h := s.noteSensor_find [] (sensorKey r.cls r.idx) r.value
  rw [key] at h
  unfold State.sampled
  rw [first, List.foldl_cons, List.foldl_nil, List.foldl_nil, key]
  exact h

/-- The first reading, that of a thermal sensor, and the first telemetry of a rail. -/
theorem State.sampled_both {r : Reading} (cls : r.cls.val = 0) (first : s.keeper.sensors = []) (l : RailRead) : ∃ x y : Sensor,
    x.value = r.value ∧ y.value = railPower l.volts l.amps ∧ ∀ k, Store.find? (s.sampled [r] [l]) k =
      if k = 384 + l.rail.val then some y else if k = r.idx.val then some x else none := by
  obtain ⟨x, hx, found⟩ := State.sampled_reading (s := s) cls first
  obtain ⟨y, hy, rail⟩ := s.noteSensor_find (s.sampled [r] []) (sensorKey 3 l.rail) (railPower l.volts l.amps)
  exact ⟨x, y, hx, hy, fun k => (rail k).trans (by rw [found]; rfl)⟩

/-- The package power is the power of the one rail that was read. -/
theorem State.packagePower_one {l : RailRead} {y : Sensor} {w : Nat} (value : y.value = w)
    (found : ∀ i, i < 41 → Store.find? s.keeper.sensors (384 + i) = if i = l.rail.val then some y else none) : s.packagePower = w := by
  have vals : s.sensorVals 3 (List.range railCount) = [(w : Int)] := by
    have each : ∀ i ∈ List.range railCount, (Store.find? s.keeper.sensors (sensorKey 3 i)).map (·.value) =
        if i = l.rail.val then some (w : Int) else none := by
      intro i mem
      have h := found i (List.mem_range.mp mem)
      show (Store.find? s.keeper.sensors (384 + i)).map _ = _
      rw [h]
      split
      · rw [← value]; rfl
      · rfl
    unfold State.sensorVals
    rw [List.filterMap_congr each]
    have := l.rail.isLt
    generalize l.rail.val = a at *
    interval_cases a <;> rfl
  unfold State.packagePower
  rw [vals]
  show 0 + (w : Int).toNat = w
  omega

/-- No rail was read: the package power is 0. -/
theorem State.packagePower_none (found : ∀ i, i < 41 → Store.find? s.keeper.sensors (384 + i) = none) : s.packagePower = 0 := by
  have vals : s.sensorVals 3 (List.range railCount) = [] :=
    List.filterMap_eq_nil_iff.mpr fun i mem => by
      show (Store.find? s.keeper.sensors (384 + i)).map _ = _
      rw [found i (List.mem_range.mp mem)]
      rfl
  unfold State.packagePower
  rw [vals]
  rfl

/-- Keeper and registers alone differ after Keeper is set once more. -/
theorem State.withKeeper_rest (rest : t = { s with keeper := t.keeper, regs := t.regs }) (k : Keeper) :
    { t with keeper := k } = { s with keeper := k, regs := t.regs } := by
  generalize t.keeper = k', t.regs = r at rest
  subst rest
  rfl

/-- What Keeper firmware makes of a sample at the package power `w`. -/
structure State.SampleUsed (s t : State) (w : Nat) : Prop where
  rest : t = { s with keeper := t.keeper, regs := t.regs }
  only : OnlyRegs s t [Reg.KPR_POWER, Reg.KPR_CNT]
  average : s.keeper.samples = [] → t.regF Reg.KPR_POWER 0 16 = min 65535 (nearest w 10)
  peak : t.regF Reg.KPR_POWER 16 16 = max (s.regF Reg.KPR_POWER 16 16) (min (nearest w 10) 65535)
  sensors : t.keeper.sensors = s.keeper.sensors
  fast : t.keeper.fast = s.keeper.fast
  overSince : t.keeper.overSince = if 10 * s.pl1 < w then s.keeper.overSince + 1 else 0
  cap : 10 * s.pl1 < w → 799 ≤ s.keeper.overSince → t.keeper.pcap = 0
  cuts : CountedSat s t Reg.KPR_CNT 16 16 (if (10 * s.pl1 < w ∧ 799 ≤ s.keeper.overSince) ∧ 0 < s.keeper.pcap then 1 else 0)
  trips : t.regF Reg.KPR_CNT 48 16 = s.regF Reg.KPR_CNT 48 16
  regions : ∀ n, (s.region n).Stands (t.region n)

theorem State.useSample_used (s : State) (rs : List Reading) {w : Nat} (power : s.packagePower = w) :
    s.SampleUsed (s.useSample rs) w := by
  unfold State.useSample
  extract_lets k w' samples sum n above cut s1 s2 s3 s4
  have hw : w' = w := power
  have hsum (first : s.keeper.samples = []) : sum = w := by
    show sumNat ((k.samples ++ [w']).drop (k.samples.length + 1 - 100)) = w
    rw [show k.samples = [] from first, hw]
    show 0 + w = w
    omega
  have hn (first : s.keeper.samples = []) : n = 1 := by
    show ((k.samples ++ [w']).drop (k.samples.length + 1 - 100)).length = 1
    rw [show k.samples = [] from first]
    rfl
  have hcut : cut = decide (10 * s.pl1 < w ∧ 799 ≤ s.keeper.overSince) := by
    show decide (800 ≤ if wattsAbove w' 1 s.pl1 then k.overSince + 1 else 0) = _
    rw [hw]
    unfold wattsAbove
    by_cases h : 10 * s.pl1 < w <;> simp [h, k]
  have powerSet : s1.Wrote s3 [Reg.KPR_POWER, Reg.KPR_CNT] :=
    ⟨rfl, .trans (.setRegF _ _ _ _ (by simp)) (.setRegF _ _ _ _ (by simp))⟩
  have average (first : s.keeper.samples = []) : s3.regF Reg.KPR_POWER 0 16 = min 65535 (nearest w 10) := by
    refine (State.regF_setRegF_same _ _ _ _ _ (by decide)).trans ?_
    rw [hsum first, hn first, Nat.mod_eq_of_lt (by omega)]
  have peak : s3.regF Reg.KPR_POWER 16 16 = max (s.regF Reg.KPR_POWER 16 16) (min (nearest w 10) 65535) := by
    have small : s.regF Reg.KPR_POWER 16 16 < 65536 := field_lt _ _ _
    refine (State.regF_setRegF_apart _ _ _ _ _ _ _ (by decide) (by decide)).trans ((State.regF_setRegF_same _ _ _ _ _ (by decide)).trans ?_)
    rw [hw]
    exact Nat.mod_eq_of_lt (show max (s.regF Reg.KPR_POWER 16 16) _ < _ by omega)
  have counted : s3.Wrote s4 [Reg.KPR_POWER, Reg.KPR_CNT] ∧ CountedSat s3 s4 Reg.KPR_CNT 16 16
      (if (10 * s.pl1 < w ∧ 799 ≤ s.keeper.overSince) ∧ 0 < s.keeper.pcap then 1 else 0) ∧
      s4.regF Reg.KPR_CNT 48 16 = s3.regF Reg.KPR_CNT 48 16 ∧ ∀ l n, s4.regF Reg.KPR_POWER l n = s3.regF Reg.KPR_POWER l n := by
    have cutting : s4 = if (10 * s.pl1 < w ∧ 799 ≤ s.keeper.overSince) ∧ 0 < s.keeper.pcap then s3.bumpSat Reg.KPR_CNT 16 16 1 else s3 := by
      show (if cut = true ∧ 0 < k.pcap then _ else _) = _
      rw [hcut]
      simp only [decide_eq_true_eq]
      rfl
    rw [cutting]
    split
    · exact ⟨⟨rfl, .bumpSat _ _ _ _ (by simp)⟩, .of_bumpSat _ _ _ _ (by decide), State.regF_bumpSat_apart _ _ _ _ _ _ _ (by decide) (by decide),
        fun l n => (OnlyRegs.bumpSat (ks := [Reg.KPR_CNT]) _ _ _ _ (by simp)).regF Reg.KPR_POWER l n (by decide)⟩
    · exact ⟨.refl _ _, .zero _ _ _ _, rfl, fun _ _ => rfl⟩
  obtain ⟨counts, cuts, trips, power'⟩ := counted
  have wrote := powerSet.trans counts
  have before (l n : Nat) : s3.regF Reg.KPR_CNT l n = s.regF Reg.KPR_CNT l n :=
    (OnlyRegs.trans (ks := [Reg.KPR_POWER]) (.setRegF _ _ _ _ (by simp)) (.setRegF (s := s2) _ _ _ _ (by simp)) : OnlyRegs s1 s3 _).regF _ _ _
      (by decide)
  have keeper : s4.keeper = s1.keeper := by rw [wrote.rest]
  have same : s4.keeper.regions = s.keeper.regions := (congrArg Keeper.regions keeper).trans rfl
  obtain ⟨rs', form⟩ := State.foldl_setRegion_form State.noteRegion (List.range 16) s4
  have regions := State.foldl_setRegion_region (P := fun n v => (s.region n).Stands v) (f := State.noteRegion)
    (fun u n h => h) (List.range 16) (s := s4) fun n => by
      rw [State.region_congr same]
      exact ⟨rfl, rfl, rfl⟩
  generalize (List.range 16).foldl (fun (u : State) n => u.setRegion n (u.noteRegion n)) s4 = t at form regions ⊢
  subst form
  exact {
    rest := State.withKeeper_rest 
      (wrote.rest.trans (congrArg (fun k : Keeper => ({ s with keeper := k, regs := s4.regs } : State)) keeper.symm)) _
    only := wrote.only
    average := fun first => (power' _ _).trans (average first)
    peak := (power' _ _).trans peak
    sensors := (congrArg Keeper.sensors keeper).trans rfl
    fast := (congrArg Keeper.fast keeper).trans rfl
    overSince := by
      refine (congrArg Keeper.overSince keeper).trans ?_
      show (if wattsAbove w' 1 s.pl1 then k.overSince + 1 else 0) = _
      rw [hw]
      unfold wattsAbove
      simp only [Nat.mul_one, decide_eq_true_eq]
      rfl
    cap := fun above long => by
      refine (congrArg Keeper.pcap keeper).trans ?_
      show (if cut then 0 else k.pcap) = 0
      rw [hcut, if_pos (decide_eq_true ⟨above, long⟩)]
    cuts := .after _ _ _ _ (before _ _) cuts
    trips := trips.trans (before _ _)
    regions := regions }

/-- The node with the sensors of a sample. -/
def State.sensed (s : State) (rs : List Reading) (ls : List RailRead) : State :=
  let k := s.keeper
  let vpp := ls.filter (fun (r : RailRead) => decide (r.rail.val = railVpp))
  s.withKeeper { k with
    sensors := s.sampled rs ls
    vppOut := if vpp.isEmpty then k.vppOut else vpp.any vppOutside
    railsOk := k.railsOk && !(ls.any stackSupplyOut || rs.any s.stackRailOut) }

/-- The node after a sample that begins no excursion, no trip of an optical engine and no fast throttle. -/
def State.afterSample (s : State) (rs : List Reading) (ls : List RailRead) : State :=
  let s2 := (s.sensed rs ls).useSample rs
  if wattsAbove (s.sensed rs ls).packagePower 1 s.pl1 then s2.withKeeper { s2.keeper with fastBelow := 0 }
  else s2.withKeeper { s2.keeper with fastBelow := s.keeper.fastBelow + 1 }

/-- A sample that brings one thermal reading below the sensors of the optical engines. -/
theorem exec_sensorSample {r : Reading} {ls : List RailRead} (running : s.keeper.running = true) (cls : r.cls.val = 0)
    (idx : r.idx.val < 120) (vpp : ∀ l ∈ ls, vppOutside l = false)
    (power : (s.sensed [r] ls).packagePower ≤ 11500) :
    exec (.sensorSample [r] ls) s = .next (s.afterSample [r] ls).checkTrips := by
  show execSensorSample [r] ls s = _
  unfold execSensorSample
  extract_lets k vpp' vppBad stackBad logs trips s1 peak s2 _ s3 s4 s5 s6
  have fine : vppBad = false := List.any_eq_false.mpr fun l mem => by
    rw [vpp l (List.mem_of_mem_filter mem)]
    exact Bool.false_ne_true
  have noLogs : logs = 0 := by
    have : s.excursion r = false := by
      unfold State.excursion
      simp [cls]
    show ([r].filter s.excursion).length + b2n (vppBad && !k.vppOut && s.rst.pwrok) = 0
    rw [fine, List.filter_cons, this]
    rfl
  have noTrips : trips = 0 := by
    have : s.opticTrip r = false := by
      unfold State.opticTrip
      simp [idx]
    show ([r].filter s.opticTrip).length = 0
    rw [List.filter_cons, this]
    rfl
  have quiet : peak = false := decide_eq_false (Nat.not_lt.mpr power)
  have used : s2 = s1.useSample [r] := if_pos running
  have below : s3 = s.afterSample [r] ls := by
    show (if wattsAbove s1.packagePower 1 s.pl1 then s2.withKeeper { s2.keeper with fastBelow := 0 }
      else s2.withKeeper { s2.keeper with fastBelow := k.fastBelow + 1 }) = _
    rw [used]
    rfl
  have same : s6 = s3 := by
    show (List.range trips).foldl _ ((List.range logs).foldl _ (if peak then s3.assertFast else s3)) = _
    rw [noTrips, noLogs, quiet]
    rfl
  rw [same, below]

theorem State.SampleUsed.withFastBelow {w : Nat} (a : s.SampleUsed t w) (n : Nat) :
    s.SampleUsed (t.withKeeper { t.keeper with fastBelow := n }) w :=
  ⟨State.withKeeper_rest a.rest _, a.only, a.average, a.peak, a.sensors, a.fast, a.overSince, a.cap, a.cuts, a.trips, a.regions⟩

theorem State.afterSample_used {rs : List Reading} {ls : List RailRead} {w : Nat}
    (power : (s.sensed rs ls).packagePower = w) : (s.sensed rs ls).SampleUsed (s.afterSample rs ls) w := by
  have used := (s.sensed rs ls).useSample_used rs power
  unfold State.afterSample
  extract_lets s2
  split
  · exact used.withFastBelow 0
  · exact used.withFastBelow _

/-- A cool sample of the node's first reading and rail. -/
theorem exec_sensorSample_cool {r : Reading} {l : RailRead} {w : Nat} (running : s.keeper.running = true) (sensors : s.keeper.sensors = [])
    (none : ∀ t, (s.region t).tripped = 0) (cls : r.cls.val = 0) (idx : r.idx.val < 120)
    (cool : r.value < 1050) (power : w = railPower l.volts l.amps) (low : w ≤ 11500) (fine : vppOutside l = false) :
    exec (.sensorSample [r] [l]) s = .next (s.afterSample [r] [l]) ∧ (s.sensed [r] [l]).SampleUsed (s.afterSample [r] [l]) w ∧
    ∃ x, Store.find? (s.afterSample [r] [l]).keeper.sensors (sensorKey r.cls r.idx) = some x ∧ x.value = r.value := by
  obtain ⟨x, y, hx, hy, found⟩ := State.sampled_both (s := s) cls sensors l
  have sum : (s.sensed [r] [l]).packagePower = w := by
    refine State.packagePower_one (l := l) (y := y) (hy.trans (congrArg Nat.cast power.symm)) fun i small => (found _).trans ?_
    by_cases here : i = l.rail.val
    · rw [here, if_pos rfl, if_pos rfl]
    · rw [if_neg (by omega), if_neg (by omega), if_neg here]
  have used := State.afterSample_used sum
  have cold : (s.afterSample [r] [l]).Cool := by
    intro i small z h
    rw [used.sensors, show (s.sensed [r] [l]).keeper.sensors = s.sampled [r] [l] from rfl, found,
      if_neg (by unfold sensorKey; omega)] at h
    split at h
    · rw [← Option.some.inj h, hx]
      exact cool
    · nomatch h
  refine ⟨?_, used, x, ?_, hx⟩
  · rw [exec_sensorSample running cls idx (fun m mem => by rw [List.mem_singleton.mp mem]; exact fine) (sum ▸ low),
      State.checkTrips_cool cold fun n => ?_]
    rw [(used.regions n).2.1]
    exact none n
  · have key : sensorKey r.cls r.idx = r.idx.val := by
      unfold sensorKey
      omega
    rw [used.sensors, key]
    exact (found _).trans (by rw [if_neg (by omega), if_pos rfl])

/-! ### A trip -/

/-- Region `n`, which no phase worked in, has tripped for the sensors of its own Terrace. -/
structure State.TrippedAlone (s t : State) (n : Nat) : Prop where
  region : t.region n = { s.region n with tripped := 1, stopped := true, point := 0 }
  others : ∀ u, u ≠ n → t.region u = s.region u
  sensors : t.keeper.sensors = s.keeper.sensors
  counted : CountedSat s t Reg.KPR_CNT 48 16 1
  critical : bit (t.reg Reg.KPR_LOG) 32 = true

theorem State.logEvent_regions (s : State) (c n sev : Nat) : (s.logEvent c n sev).keeper.regions = s.keeper.regions := by
  unfold State.logEvent State.logRaw
  dsimp only
  split <;> split <;> rfl

/-- A critical event says so in KPR_LOG, and changes no other register. -/
theorem State.logEvent_critical (s : State) (c n : Nat) : bit ((s.logEvent c n sevCritical).reg Reg.KPR_LOG) 32 = true ∧
    OnlyRegs s (s.logEvent c n sevCritical) [Reg.KPR_LOG] := by
  unfold State.logEvent State.logRaw
  dsimp only
  rw [if_pos rfl]
  exact ⟨State.bit_setRegF_one _ _ _ (by decide), .setRegF _ _ _ _ List.mem_cons_self⟩

theorem State.trip_alone {n : Nat} (free : s.terraceRids n = []) (untripped : (s.region n).tripped = 0) : s.TrippedAlone (s.trip n 0) n := by
  unfold State.trip
  extract_lets r rids s1 s2
  have noRids : rids = [] := free
  rw [if_neg (by show ¬ Nat.testBit (s.region n).tripped 0 = true; rw [untripped]; decide), noRids, List.foldl_nil]
  have logged : s2 = (s1.bumpSat Reg.KPR_CNT 48 16 1).logEvent 4 0 sevCritical := if_pos untripped
  obtain ⟨f, idle, -⟩ := State.idleTerrace_form (s.setRegion n { r with tripped := r.tripped ||| (1 <<< 0), stopped := true, point := 0 }) n
  have set : s1 = { s.setRegion n { r with tripped := r.tripped ||| (1 <<< 0), stopped := true, point := 0 } with fabric := f } := idle
  have counted : CountedSat s1 (s1.bumpSat Reg.KPR_CNT 48 16 1) Reg.KPR_CNT 48 16 1 := .of_bumpSat _ _ _ _ (by decide)
  have regions : (s1.bumpSat Reg.KPR_CNT 48 16 1).keeper = s1.keeper := rfl
  rw [logged]
  generalize s1.bumpSat Reg.KPR_CNT 48 16 1 = a at counted regions
  have same : ((a.logEvent 4 0 sevCritical).keeper.regions) =
      (s.setRegion n { r with tripped := 1, stopped := true, point := 0 }).keeper.regions := by
    rw [State.logEvent_regions, regions, set]
    exact congrArg (fun m => (s.setRegion n { r with tripped := m, stopped := true, point := 0 }).keeper.regions)
      ((congrArg (· ||| 1 <<< 0) untripped).trans rfl)
  obtain ⟨bit, only⟩ := a.logEvent_critical 4 0
  exact {
    region := (State.region_congr same n).trans (State.region_setRegion_same _ _ _)
    others := fun u h => (State.region_congr same u).trans (State.region_setRegion_other _ _ _ _ h)
    sensors := by
      rw [State.logEvent_sensors, regions, set]
      rfl
    counted := .before _ _ _ _ (.after _ _ _ _ (by rw [set]; rfl) counted) (only.regF _ _ _ (by decide))
    critical := bit }

/-- A fold in which one element alone acts, and no other before it or after it. -/
theorem foldl_acts_once {α β : Type} {f : β → α → β} {a : α} {b c : β} (hit : f b a = c) {l : List α} (nodup : l.Nodup) (mem : a ∈ l)
    (before : ∀ x ∈ l, x ≠ a → f b x = b) (after : ∀ x ∈ l, x ≠ a → f c x = c) : l.foldl f b = c := by
  induction l with
  | nil => nomatch mem
  | cons x l ih =>
    obtain ⟨fresh, nodup⟩ := List.nodup_cons.mp nodup
    rw [List.foldl_cons]
    by_cases here : x = a
    · rw [here, hit]
      exact List.foldlRecOn (motive := (· = c)) l _ rfl fun d same y my => by
        rw [same, after y (List.mem_cons_of_mem _ my) fun h => fresh (here ▸ h ▸ my)]
    · rw [before x List.mem_cons_self here]
      exact ih nodup (List.mem_of_ne_of_mem (Ne.symm here) mem) (fun y my => before y (List.mem_cons_of_mem _ my))
        fun y my => after y (List.mem_cons_of_mem _ my)

/-- A region whose own sensors are hot stays tripped. -/
theorem State.untrip_hot {n : Nat} (tripped : (s.region n).tripped = 1) {v : Int} (mem : v ∈ s.sensorVals 0 (terraceThermal n)) (hot : 900 ≤ v) :
    s.untrip n = s := by
  have warm : ((s.sensorVals 0 (terraceThermal n)).all fun v => decide (v < 900)) = false := by
    rw [List.all_eq_false]
    exact ⟨v, mem, by simpa using hot⟩
  unfold State.untrip
  simp [tripped, warm, show Nat.testBit 1 1 = false from rfl, show Nat.testBit 1 2 = false from rfl]

/-- The trips when the own sensors of one Terrace alone are hot. -/
theorem State.checkTrips_alone {n : Nat} (small : n < 16) (around : s.CoolAround) (none : ∀ u, (s.region u).tripped = 0)
    (free : s.terraceRids n = []) (hot : ∃ i ∈ terraceThermal n, ∃ x, Store.find? s.keeper.sensors (sensorKey 0 i) = some x ∧ 1050 ≤ x.value)
    (cool : ∀ i, i < 80 → i / 5 ≠ n → ∀ x, Store.find? s.keeper.sensors (sensorKey 0 i) = some x → x.value < 1050) :
    s.TrippedAlone s.checkTrips n := by
  have tripped := State.trip_alone free (none n)
  obtain ⟨i, own, x, found, high⟩ := hot
  have mem : x.value ∈ s.sensorVals 0 (terraceThermal n) := List.mem_filterMap.mpr ⟨i, own, by rw [found]; rfl⟩
  have once : (List.range 16).foldl State.tripAt s = s.trip n 0 := by
    have idle (t : State) (same : t.keeper.sensors = s.keeper.sensors) (u : Nat) (mem : u ∈ List.range 16) (other : u ≠ n) :
        t.tripAt u = t := by
      have small := List.mem_range.mp mem
      rw [State.tripAt_own (fun i low high x found => around i low high x (same ▸ found)) small, State.sensorVals_cool, if_neg Bool.false_ne_true]
      intro i own x found
      obtain ⟨j, hj, rfl⟩ := List.mem_map.mp own
      have := List.mem_range.mp hj
      exact cool _ (by omega) (by omega) x (same ▸ found)
    refine foldl_acts_once ?_ List.nodup_range (List.mem_range.mpr small) (idle s rfl) (idle _ tripped.sensors)
    rw [State.tripAt_own around small, if_pos (List.any_eq_true.mpr ⟨_, mem, decide_eq_true high⟩)]
  have stays (u : Nat) : (s.trip n 0).untrip u = s.trip n 0 := by
    by_cases here : u = n
    · subst here
      have still : x.value ∈ (s.trip u 0).sensorVals 0 (terraceThermal u) := by
        unfold State.sensorVals
        rw [tripped.sensors]
        exact mem
      exact State.untrip_hot (by rw [tripped.region]) still (by omega)
    · exact State.untrip_untripped (by rw [tripped.others u here, none u])
  rw [State.checkTrips_def, once, List.foldlRecOn (motive := (· = s.trip n 0)) (List.range 16) State.untrip rfl fun _ same u _ => by
    rw [same, stays u]]
  exact tripped

/-- A sample in which one sensor of one Terrace is hot. -/
theorem exec_sensorSample_hot {r : Reading} {tr j : Nat} (running : s.keeper.running = true) (sensors : s.keeper.sensors = [])
    (none : ∀ t, (s.region t).tripped = 0) (htr : tr < 16) (hj : j < 5) (cls : r.cls.val = 0) (idx : r.idx.val = 5 * tr + j)
    (hot : 1050 ≤ r.value) (free : s.terraceRids tr = []) : (s.sensed [r] []).SampleUsed (s.afterSample [r] []) 0 ∧
    exec (.sensorSample [r] []) s = .next (s.afterSample [r] []).checkTrips ∧
    (s.afterSample [r] []).TrippedAlone (s.afterSample [r] []).checkTrips tr := by
  obtain ⟨x, hx, found⟩ := State.sampled_reading (s := s) cls sensors
  have sum : (s.sensed [r] []).packagePower = 0 := State.packagePower_none fun i _ => (found _).trans (if_neg (by omega))
  have used := State.afterSample_used sum
  have reads (i : Nat) : Store.find? (s.afterSample [r] []).keeper.sensors (sensorKey 0 i) = if i = 5 * tr + j then some x else Option.none := by
    rw [used.sensors, ← idx, show sensorKey 0 i = i by unfold sensorKey; omega]
    exact found i
  have value {i : Nat} {y : Sensor} (other : i ≠ 5 * tr + j)
      (h : Store.find? (s.afterSample [r] []).keeper.sensors (sensorKey 0 i) = some y) : y.value < 1050 := by
    rw [reads, if_neg other] at h
    nomatch h
  refine ⟨used, exec_sensorSample running cls (by omega) (by nofun) (by rw [sum]; omega), State.checkTrips_alone htr ?_ (fun u => ?_) ?_
    ⟨5 * tr + j, List.mem_map.mpr ⟨j, List.mem_range.mpr hj, rfl⟩, x, (reads _).trans (if_pos rfl), hx ▸ hot⟩ ?_⟩
  · exact fun i low _ y h => value (by omega) h
  · rw [(used.regions u).2.1]
    exact none u
  · unfold State.terraceRids
    rw [used.rest]
    exact free
  · exact fun i _ apart y h => value (by omega) h

end Sys2Proof.Machine
end

section
/-! SUPPORT. The control interval and the hold of a region (R521 to R525). -/

set_option Elab.async false

namespace Sys2Proof.Machine
variable {s t u : State}

/-- Of a node only Keeper, the registers among `ks` and what leaves it differ. -/
structure State.Controlled (s t : State) (ks : List Nat) : Prop where
  rest : t = { s with keeper := t.keeper, regs := t.regs, out := t.out }
  only : OnlyRegs s t ks
  sent : ∃ more, t.out = s.out ++ more

namespace State.Controlled
variable {ks : List Nat}

theorem refl (s : State) (ks : List Nat) : s.Controlled s ks := ⟨rfl, .refl s ks, [], (List.append_nil _).symm⟩

theorem trans (a : s.Controlled t ks) (b : t.Controlled u ks) : s.Controlled u ks where
  rest := by rw [b.rest, a.rest]
  only := a.only.trans b.only
  sent := by
    obtain ⟨x, hx⟩ := a.sent
    obtain ⟨y, hy⟩ := b.sent
    exact ⟨x ++ y, by rw [hy, hx, List.append_assoc]⟩

theorem withKeeper (s : State) (k : Keeper) (ks : List Nat) : s.Controlled (s.withKeeper k) ks :=
  ⟨rfl, .of_regs rfl, [], (List.append_nil _).symm⟩

theorem setRegion (s : State) (n : Nat) (v : Region) (ks : List Nat) : s.Controlled (s.setRegion n v) ks := withKeeper s _ ks

theorem setRegF (s : State) {k : Nat} (l n v : Nat) (mem : k ∈ ks) : s.Controlled (s.setRegF k l n v) ks :=
  ⟨rfl, .setRegF _ _ _ _ mem, [], (List.append_nil _).symm⟩

theorem bumpSat (s : State) {k : Nat} (l n v : Nat) (mem : k ∈ ks) : s.Controlled (s.bumpSat k l n v) ks := setRegF s l n _ mem

theorem emits (s : State) (os : List Out) (ks : List Nat) : s.Controlled (s.emits os) ks := ⟨rfl, .of_regs rfl, os, rfl⟩

theorem logEvent (s : State) (c n : Nat) {sev : Nat} (h : sev ≠ sevCritical) (ks : List Nat) : s.Controlled (s.logEvent c n sev) ks := by
  obtain ⟨q, l, b, form⟩ := s.logEvent_form c n h
  rw [form]
  exact withKeeper s _ ks

theorem foldl {α : Type} {f : State → α → State} (step : ∀ (v : State) x, v.Controlled (f v x) ks) (l : List α) (s : State) :
    s.Controlled (l.foldl f s) ks :=
  List.foldlRecOn (motive := (s.Controlled · ks)) l f (refl s ks) fun _ h x _ => h.trans (step _ x)

end State.Controlled

/-! ### Points -/

/-- A point is no more than one from another. -/
def NearPoint (p q : Nat) : Prop := q ≤ p + 1 ∧ p ≤ q + 1

theorem nearPoint_toward (p g : Nat) : NearPoint p (toward p g) := by
  unfold NearPoint toward
  split
  · omega
  · split <;> omega

/-- Every region keeps its point. -/
def State.PointsStand (s t : State) : Prop := ∀ n, (t.region n).point = (s.region n).point

theorem State.PointsStand.trans (a : s.PointsStand t) (b : t.PointsStand u) : s.PointsStand u := fun n => (b n).trans (a n)

theorem State.PointsStand.of_regions (h : t.keeper.regions = s.keeper.regions) : s.PointsStand t := fun n => by
  rw [State.region_congr h]

theorem State.PointsStand.setRegion (s : State) (n : Nat) (v : Region) (h : v.point = (s.region n).point) : s.PointsStand (s.setRegion n v) := by
  intro m
  by_cases here : m = n
  · rw [here, State.region_setRegion_same, h]
  · rw [State.region_setRegion_other _ _ _ _ here]

theorem State.PointsStand.foldl {α : Type} {f : State → α → State} (step : ∀ (v : State) x, v.PointsStand (f v x)) (l : List α) (s : State) :
    s.PointsStand (l.foldl f s) :=
  List.foldlRecOn (motive := (s.PointsStand ·)) l f (fun _ => rfl) fun _ h x _ => h.trans (step _ x)

theorem State.takePoint_region (s : State) (n p m : Nat) :
    ((s.takePoint n p).region m).point = if m = n then p else (s.region m).point := by
  show ((s.setRegion n { s.region n with point := p }).region m).point = _
  split
  next here => rw [here, State.region_setRegion_same]
  next there => rw [State.region_setRegion_other _ _ _ _ there]

/-- Every region moves by at most one point. -/
theorem State.movePoints_near (s : State) (n : Nat) : NearPoint (s.region n).point (s.movePoints.region n).point := by
  unfold State.movePoints
  extract_lets want
  refine List.foldlRecOn (motive := fun u : State => ∀ n, NearPoint (s.region n).point (u.region n).point) _ _
    (fun n => ⟨by omega, by omega⟩) (fun u h m _ n => ?_) n
  extract_lets r p ok
  split
  · exact h n
  · rw [State.takePoint_region]
    split
    next here => rw [here]; exact nearPoint_toward _ _
    next => exact h n

theorem State.movePoints_controlled (s : State) (ks : List Nat) : s.Controlled s.movePoints ks := by
  unfold State.movePoints
  refine .foldl (fun u n => ?_) _ s
  extract_lets r p ok
  split
  · exact .refl u ks
  · exact .trans (.setRegion u _ _ ks) (.emits _ _ ks)

theorem State.checkHold_controlled (s : State) (n : Nat) {ks : List Nat} (mem : Reg.KPR_CNT ∈ ks) : s.Controlled (s.checkHold n) ks := by
  unfold State.checkHold
  extract_lets r diff guard
  split
  · split
    · exact .trans (.trans (.setRegion s _ _ ks) (.bumpSat _ _ _ _ mem)) (.logEvent _ _ _ (by decide) ks)
    · exact .refl s ks
  · split
    · exact .setRegion s _ _ ks
    · exact .refl s ks

theorem State.checkHold_points (s : State) (n : Nat) : s.PointsStand (s.checkHold n) := by
  unfold State.checkHold
  extract_lets r diff guard
  split
  · split
    · refine .trans (.setRegion s n { r with held := some s.tick } rfl) (.of_regions ?_)
      rw [State.logEvent_regions]
      rfl
    · exact fun _ => rfl
  · split
    · exact .setRegion s n _ rfl
    · exact fun _ => rfl

theorem State.foldl_checkHold (l : List Nat) (s : State) {ks : List Nat} (mem : Reg.KPR_CNT ∈ ks) :
    s.Controlled (l.foldl (fun (u : State) n => u.checkHold n) s) ks ∧ s.PointsStand (l.foldl (fun (u : State) n => u.checkHold n) s) :=
  ⟨.foldl (fun v m => v.checkHold_controlled m mem) l s, .foldl (fun v m => v.checkHold_points m) l s⟩

/-- Why each region is below point 8 is noted. -/
theorem State.foldl_setCause (l : List Nat) (s : State) (ks : List Nat) :
    s.Controlled (l.foldl (fun (u : State) n => u.setRegion n { u.region n with cause := u.limitOf n }) s) ks ∧
    s.PointsStand (l.foldl (fun (u : State) n => u.setRegion n { u.region n with cause := u.limitOf n }) s) :=
  ⟨.foldl (fun v m => .setRegion v m _ ks) l s, .foldl (fun v m => .setRegion v m { v.region m with cause := v.limitOf m } rfl) l s⟩

/-- Regions are set to what keeps their points. -/
theorem State.foldl_setRegions (l : List (Nat × Region)) (s : State) (points : ∀ p ∈ l, p.2.point = (s.region p.1).point) (ks : List Nat) :
    s.Controlled (l.foldl (fun (u : State) p => u.setRegion p.1 p.2) s) ks ∧
    s.PointsStand (l.foldl (fun (u : State) p => u.setRegion p.1 p.2) s) :=
  ⟨.foldl (fun v p => .setRegion v p.1 p.2 ks) l s, List.foldlRecOn (motive := (s.PointsStand ·)) l _ (fun _ => rfl)
    fun v h p mem => h.trans (.setRegion v p.1 p.2 ((points p mem).trans (h p.1).symm))⟩

theorem State.stepRegion_point (s : State) (hot : Bool) (n : Nat) : (s.stepRegion hot n).point = (s.region n).point := rfl

/-- The injected heat ends with the interval. -/
theorem State.endHot_clears (s : State) :
    s.Controlled ((s.setRegF Reg.KPR_INJECT 0 1 0).logEvent 4 3 sevInfo) [Reg.KPR_CNT, Reg.KPR_INJECT] ∧
    bit (((s.setRegF Reg.KPR_INJECT 0 1 0).logEvent 4 3 sevInfo).reg Reg.KPR_INJECT) 0 = false ∧
    ((s.setRegF Reg.KPR_INJECT 0 1 0).logEvent 4 3 sevInfo).keeper.regions = s.keeper.regions := by
  have cleared := bit_setRegF_zero s Reg.KPR_INJECT 0 (by decide)
  have wrote : s.Controlled (s.setRegF Reg.KPR_INJECT 0 1 0) [Reg.KPR_CNT, Reg.KPR_INJECT] := .setRegF s _ _ _ (by simp)
  have regions : (s.setRegF Reg.KPR_INJECT 0 1 0).keeper.regions = s.keeper.regions := rfl
  generalize s.setRegF Reg.KPR_INJECT 0 1 0 = a at cleared wrote regions ⊢
  have logged (ks : List Nat) := State.Controlled.logEvent a 4 3 (show sevInfo ≠ sevCritical by decide) ks
  exact ⟨wrote.trans (logged _), (congrArg (bit · 0) ((logged []).only _ List.not_mem_nil)).trans cleared,
    (a.logEvent_regions _ _ _).trans regions⟩

/-- A control interval while Keeper firmware runs. -/
theorem controlInterval_steers (running : s.keeper.running = true) : Completes .controlInterval s fun t =>
    s.Controlled t [Reg.KPR_CNT, Reg.KPR_INJECT] ∧ bit (t.reg Reg.KPR_INJECT) 0 = false ∧
    ∀ n, NearPoint (s.region n).point (t.region n).point := by
  unfold Completes
  show ∃ t, execControlInterval s = _ ∧ _
  unfold execControlInterval
  rw [if_neg (by simp [running])]
  extract_lets hot injT regs lowered s1 k n sum high near pc _ s2 s3 s4 s5 s6
  have points : ∀ p ∈ regs, p.2.point = (s.region p.1).point := fun p mem => by
    obtain ⟨m, -, rfl⟩ := List.mem_map.mp mem
    exact s.stepRegion_point _ m
  have first : s.Controlled s1 [Reg.KPR_CNT] := (s.foldl_setRegions regs points _).1
  have firstPoints : s.PointsStand s1 := (s.foldl_setRegions regs points [Reg.KPR_CNT]).2
  clear_value s1
  have second : s1.Controlled s2 [Reg.KPR_CNT] := .trans (.withKeeper s1 _ _) (.bumpSat _ _ _ _ List.mem_cons_self)
  have third : s2.Controlled s3 [Reg.KPR_CNT] ∧ s3.keeper = s2.keeper := by
    show s2.Controlled (if _ then _ else _) _ ∧ (if _ then _ else _ : State).keeper = _
    split
    · exact ⟨.bumpSat _ _ _ _ List.mem_cons_self, rfl⟩
    · exact ⟨.refl _ _, rfl⟩
  have same : s2.keeper.regions = s1.keeper.regions := rfl
  clear_value s2
  have before : s.PointsStand s3 := firstPoints.trans (.of_regions ((congrArg Keeper.regions third.2).trans same))
  clear_value s3
  have moved : s3.Controlled s4 [Reg.KPR_CNT] := s3.movePoints_controlled _
  have steered : ∀ m, NearPoint (s3.region m).point (s4.region m).point := s3.movePoints_near
  have holds : s4.Controlled s5 [Reg.KPR_CNT] ∧ s4.PointsStand s5 := s4.foldl_checkHold (List.range 16) List.mem_cons_self
  have last : s5.Controlled s6 [Reg.KPR_CNT] ∧ s5.PointsStand s6 := s5.foldl_setCause (List.range 16) _
  clear_value s6 s5 s4
  have whole : s.Controlled s6 [Reg.KPR_CNT] :=
    first.trans (second.trans (third.1.trans (moved.trans (holds.1.trans last.1))))
  have after : s4.PointsStand s6 := holds.2.trans last.2
  have near (m : Nat) : NearPoint (s.region m).point (s6.region m).point := by
    rw [after m, ← before m]
    exact steered m
  have wider : ∀ k ∈ [Reg.KPR_CNT], k ∈ [Reg.KPR_CNT, Reg.KPR_INJECT] := by simp
  have whole' : s.Controlled s6 [Reg.KPR_CNT, Reg.KPR_INJECT] := ⟨whole.rest, whole.only.mono wider, whole.sent⟩
  have inject : s6.reg Reg.KPR_INJECT = s.reg Reg.KPR_INJECT := whole.only _ (by decide)
  refine ⟨_, rfl, ?_⟩
  split
  next =>
    obtain ⟨wrote, cleared, regions⟩ := s6.endHot_clears
    exact ⟨whole'.trans wrote, cleared, fun m => by
      rw [State.region_congr regions]
      exact near m⟩
  next cold => exact ⟨whole', (congrArg (bit · 0) inject).trans (Bool.eq_false_iff.mpr cold), near⟩

/-! ### Holds -/

/-- The phases that are to run elsewhere when the clock of a held region stops. -/
def State.holdRids (s : State) (tr : Nat) (rids : List Nat) : List Nat := (s.terraceRids tr ++ rids).dedup

/-- The clock of a region has stopped and its Rills are idle. -/
def State.clockStopped (s : State) (tr : Nat) : State := (s.setRegion tr { s.region tr with stopped := true }).idleTerrace tr

section
variable {tr : Fin 16} {since : Time} {rids : List Nat} (held : (s.region tr).held = some since)
include held

/-- A held region goes on while phases work in it and 100 µs have not passed. -/
theorem exec_holdClockStop_waits (work : s.holdRids tr rids ≠ []) (early : s.tick.toNat < since.toNat + 10000) :
    exec (.holdClockStop tr rids) s = .next s := by
  show execHoldClockStop tr rids s = _
  unfold execHoldClockStop
  dsimp only
  rw [held]
  have left : (!(s.terraceRids tr ++ rids).dedup.isEmpty) = true := by
    rw [Bool.not_eq_true', List.isEmpty_eq_false_iff]
    exact work
  exact if_pos (.inr ⟨left, early⟩)

/-- Else its clock stops. -/
theorem exec_holdClockStop_stops (going : (s.region tr).stopped = false)
    (due : s.holdRids tr rids = [] ∨ since.toNat + 10000 ≤ s.tick.toNat) :
    exec (.holdClockStop tr rids) s = .next ((s.holdRids tr rids).foldl (fun (u : State) q => u.rerun q) (s.clockStopped tr)) := by
  show execHoldClockStop tr rids s = _
  unfold execHoldClockStop
  dsimp only
  split
  next none => nomatch none.symm.trans held
  next t some =>
  obtain rfl := Option.some.inj (some.symm.trans held)
  refine if_neg ?_
  rintro (h | ⟨left, early⟩)
  · exact Bool.false_ne_true (going.symm.trans h)
  · obtain none | late := due
    · rw [show (s.terraceRids tr ++ rids).dedup = [] from none] at left
      exact Bool.false_ne_true left
    · omega
end

/-- A region whose clock stops; its Rills serve nothing any more. -/
theorem State.clockStopped_form (s : State) (tr : Nat) : ∃ f, s.clockStopped tr =
    { s.setRegion tr { s.region tr with stopped := true } with fabric := f } ∧
    ∀ p ∈ f.rills, p.1 % 2 = tr / 8 → p.1 / 2 % 8 = tr % 8 → p.2.rid = none :=
  State.idleTerrace_form _ tr

/-- The regions after the clock of one has stopped and its phases run elsewhere. -/
theorem State.clockStopped_regions (s : State) (tr : Nat) (rids : List Nat) (n : Nat) :
    (rids.foldl (fun (u : State) q => u.rerun q) (s.clockStopped tr)).region n =
      if n = tr then { s.region tr with stopped := true } else s.region n := by
  obtain ⟨f, form, -⟩ := s.clockStopped_form tr
  have same : (rids.foldl (fun (u : State) q => u.rerun q) (s.clockStopped tr)).keeper.regions =
      (s.setRegion tr { s.region tr with stopped := true }).keeper.regions := by
    rw [(State.foldl_rerun_keeper _ _).2, form]
  rw [State.region_congr same]
  split
  next here => rw [here, State.region_setRegion_same]
  next there => rw [State.region_setRegion_other _ _ _ _ there]

/-! ### The fast throttle -/

/-- The fast throttle is asserted, and counted when it was not. -/
theorem State.assertFast_asserts (s : State) : s.assertFast.keeper.fast = true ∧ s.assertFast.keeper.fastBelow = 0 ∧
    s.assertFast.rst = s.rst ∧ CountedSat s s.assertFast Reg.KPR_CNT 32 16 (if s.keeper.fast then 0 else 1) := by
  unfold State.assertFast
  split
  next => exact ⟨by assumption, rfl, rfl, .zero _ _ _ _⟩
  next =>
    have counted : CountedSat (s.withKeeper { s.keeper with fast := true, fastBelow := 0 })
      ((s.withKeeper { s.keeper with fast := true, fastBelow := 0 }).bumpSat Reg.KPR_CNT 32 16 1) Reg.KPR_CNT 32 16 1 :=
      .of_bumpSat _ _ _ _ (by decide)
    have keeper : ((s.withKeeper { s.keeper with fast := true, fastBelow := 0 }).bumpSat Reg.KPR_CNT 32 16 1).keeper =
      { s.keeper with fast := true, fastBelow := 0 } := rfl
    have rst : ((s.withKeeper { s.keeper with fast := true, fastBelow := 0 }).bumpSat Reg.KPR_CNT 32 16 1).rst = s.rst := rfl
    generalize (s.withKeeper { s.keeper with fast := true, fastBelow := 0 }).bumpSat Reg.KPR_CNT 32 16 1 = a at counted keeper rst ⊢
    have logged := (State.Controlled.logEvent a 4 1 (show sevError ≠ sevCritical by decide) []).only.regF Reg.KPR_CNT 32 16 List.not_mem_nil
    obtain ⟨q, l, b, form⟩ := a.logEvent_form 4 1 (show sevError ≠ sevCritical by decide)
    refine ⟨?_, ?_, ?_, .before _ _ _ _ (.after _ _ _ _ (State.regF_congr rfl _ _ _) counted) logged⟩
    · rw [form, keeper]
    · rw [form, keeper]
    · rw [form, rst]

end Sys2Proof.Machine
end

section
/-! SUPPORT. The hour's values, the advisories and the log over SMBus (R528 to R531). -/

set_option Elab.async false

namespace Sys2Proof.Machine
variable {s t u : State}

/-- A bit set in a register leaves the set bits set. -/
theorem bit_setField_one_of_bit (w : U64) (l i : Nat) (h : bit w i = true) : bit (setField w l 1 1) i = true := by
  by_cases fits : l + 1 ≤ 64
  · unfold bit at *
    rw [getLsbD_setField _ _ _ _ _ fits]
    split
    next here => rw [show i - l = 0 by omega]; rfl
    next => exact h
  · have small : i < 64 := by
      by_contra far
      unfold bit at h
      rw [BitVec.getLsbD_of_ge _ _ (by omega)] at h
      nomatch h
    unfold bit setField maskOf at *
    simp [h, small]

/-- One quantity at the end of an hour: it is recorded, and at most its own advisory is raised. -/
structure State.HourNoted (s t : State) (v : HourValue) : Prop where
  rest : t = { s with keeper := t.keeper, regs := t.regs }
  only : OnlyRegs s t [Reg.KPR_ADVISORY]
  bits : ∀ j, bit (s.reg Reg.KPR_ADVISORY) j = true → bit (t.reg Reg.KPR_ADVISORY) j = true
  hours : ∃ vs, Store.find? t.keeper.hourly (advKey v.adv v.item) = some vs ∧ vs.getLast? = some v.value ∧ vs.length ≤ 168
  otherHours : ∀ k, k ≠ advKey v.adv v.item → Store.find? t.keeper.hourly k = Store.find? s.keeper.hourly k
  raised : t.keeper.lastRaised = s.keeper.lastRaised ∨
    (Store.find? t.keeper.lastRaised (advKey v.adv v.item) = some s.tick ∧
      (∀ k, k ≠ advKey v.adv v.item → Store.find? t.keeper.lastRaised k = Store.find? s.keeper.lastRaised k) ∧
      (v.adv < 64 → bit (t.reg Reg.KPR_ADVISORY) v.adv = true))
  due : Store.find? s.keeper.lastRaised (advKey v.adv v.item) = none → (v.adv = 5 ∧ v.value ≤ 0) ∨ (v.adv = 7 ∧ 1000 ≤ v.value) →
    Store.find? t.keeper.lastRaised (advKey v.adv v.item) = some s.tick

theorem State.hourValue_noted (s : State) (v : HourValue) : s.HourNoted (s.hourValue v) v := by
  unfold State.hourValue
  extract_lets key old vs _ s1 l now trend today _ s2
  have last : vs.getLast? = some v.value := by
    show ((old ++ [v.value]).drop (old.length + 1 - 168)).getLast? = _
    rw [List.getLast?_drop, if_neg (by rw [List.length_append]; show ¬ old.length + 1 ≤ _; omega), List.getLast?_concat]
  have short : vs.length ≤ 168 := by
    show ((old ++ [v.value]).drop (old.length + 1 - 168)).length ≤ _
    rw [List.length_drop, List.length_append]
    show old.length + 1 - _ ≤ _
    omega
  have found : Store.find? s1.keeper.hourly key = some vs := Store.find?_insert_same _ _ _
  have others (k : Nat) (h : k ≠ key) : Store.find? s1.keeper.hourly k = Store.find? s.keeper.hourly k := Store.find?_insert_other _ _ _ _ h
  split
  next raise =>
    have adv : ∀ j, (bit (s.reg Reg.KPR_ADVISORY) j = true → bit ((s2.setRegF Reg.KPR_ADVISORY v.adv 1 1).reg Reg.KPR_ADVISORY) j = true) := by
      intro j h
      unfold State.setRegF
      rw [State.reg_setReg_same]
      exact bit_setField_one_of_bit _ _ _ h
    have own (h : v.adv < 64) : bit ((s2.setRegF Reg.KPR_ADVISORY v.adv 1 1).reg Reg.KPR_ADVISORY) v.adv = true := s2.bit_setRegF_one _ _ (by omega)
    have wrote : s2.Wrote (s2.setRegF Reg.KPR_ADVISORY v.adv 1 1) [Reg.KPR_ADVISORY] := ⟨rfl, .setRegF _ _ _ _ List.mem_cons_self⟩
    generalize s2.setRegF Reg.KPR_ADVISORY v.adv 1 1 = a at adv own wrote ⊢
    have keeper : a.keeper = s2.keeper := by rw [wrote.rest]
    have rest : a = { s with keeper := a.keeper, regs := a.regs } :=
      wrote.rest.trans (congrArg (fun k : Keeper => ({ s with keeper := k, regs := a.regs } : State)) keeper.symm)
    have only := (State.Controlled.logEvent a 5 v.adv (show sevAdvisory ≠ sevCritical by decide) []).only
    have reg := only Reg.KPR_ADVISORY List.not_mem_nil
    obtain ⟨q, lg, b, form⟩ := a.logEvent_form 5 v.adv (show sevAdvisory ≠ sevCritical by decide)
    have hourly : (a.logEvent 5 v.adv sevAdvisory).keeper.hourly = s1.keeper.hourly := by
      rw [form]
      exact (congrArg Keeper.hourly keeper).trans rfl
    have marks : (a.logEvent 5 v.adv sevAdvisory).keeper.lastRaised = Store.insert s.keeper.lastRaised key s.tick := by
      rw [form]
      exact (congrArg Keeper.lastRaised keeper).trans rfl
    refine ⟨?_, (show OnlyRegs s a _ from wrote.only).trans (only.mono (by simp)), fun j h => reg ▸ adv j h,
      ⟨vs, hourly ▸ found, last, short⟩, fun k h => hourly ▸ others k h, .inr ⟨?_, fun k h => ?_, fun h => reg ▸ own h⟩, fun _ _ => ?_⟩
    · rw [form]
      exact State.withKeeper_rest rest _
    · rw [marks, Store.find?_insert_same]
    · rw [marks, Store.find?_insert_other _ _ _ _ h]
    · rw [marks, Store.find?_insert_same]
  next rest =>
    refine ⟨rfl, .of_regs rfl, fun _ h => h, ⟨vs, found, last, short⟩, others, .inl rfl, fun never crossed => absurd ?_ rest⟩
    have fresh : today = false := by simp only [today, key, never]
    have crosses : past l.1 l.2 now = true := by
      obtain ⟨adv, low⟩ | ⟨adv, high⟩ := crossed
      · have limit : l = (0, true) := by
          show s1.advLimit v.adv v.item = _
          rw [adv]
          rfl
        have present : now = v.value := if_neg (by omega)
        rw [limit, present]
        exact decide_eq_true low
      · have limit : l = (1000, false) := by
          show s1.advLimit v.adv v.item = _
          rw [adv]
          rfl
        have present : now = v.value := if_neg (by omega)
        rw [limit, present]
        exact decide_eq_true high
    rw [crosses, fresh]
    rfl

/-- Every item of an advisory's quantities has a number below 65,536. -/
theorem State.hourValues_item (s : State) : ∀ v ∈ s.hourValues, v.item < 65536 := by
  intro v h
  unfold State.hourValues at h
  extract_lets k part c at h
  simp only [List.mem_append, List.mem_map, List.mem_range, List.mem_singleton] at h
  obtain (((((((⟨t, _, rfl⟩ | ⟨p, -, rfl⟩) | h) | ⟨t, _, rfl⟩) | ⟨t, _, rfl⟩) | ⟨t, _, rfl⟩) | ⟨t, _, rfl⟩) | rfl) := h
  · show t < _; omega
  · exact Nat.mod_lt _ (Nat.zero_lt_succ _)
  · split at h
    · nomatch h
    · simp only [List.mem_cons, List.not_mem_nil, or_false] at h
      obtain rfl | rfl := h
      · exact Nat.zero_lt_succ _
      · show 1 < _
        omega
  · show t < _; omega
  · show 16 + t < _; omega
  · show 32 + t < _; omega
  · show t < _; omega
  · exact Nat.zero_lt_succ _

/-- Of the node only Keeper and KPR_ADVISORY differ after quantities are noted. -/
theorem State.foldl_hourValue_rest (l : List HourValue) (s : State) :
    l.foldl State.hourValue s = { s with keeper := (l.foldl State.hourValue s).keeper, regs := (l.foldl State.hourValue s).regs } ∧
    OnlyRegs s (l.foldl State.hourValue s) [Reg.KPR_ADVISORY] := by
  refine List.foldlRecOn (motive := fun t : State => t = { s with keeper := t.keeper, regs := t.regs } ∧ OnlyRegs s t [Reg.KPR_ADVISORY])
    l _ ⟨rfl, .refl _ _⟩ fun t h v _ => ?_
  have noted := t.hourValue_noted v
  refine ⟨?_, h.2.trans noted.only⟩
  rw [noted.rest, h.1]

/-- Each quantity has the value that was noted last under its key. -/
theorem State.foldl_hourValue_hours (l : List HourValue) (s : State) : ∀ v ∈ l, ∃ vs u, u ∈ l ∧ advKey u.adv u.item = advKey v.adv v.item ∧
    Store.find? (l.foldl State.hourValue s).keeper.hourly (advKey v.adv v.item) = some vs ∧ vs.getLast? = some u.value ∧ vs.length ≤ 168 := by
  induction l using List.reverseRecOn with
  | nil => nofun
  | append_singleton l w ih =>
    intro v mem
    rw [List.foldl_append, List.foldl_cons, List.foldl_nil]
    have noted := (l.foldl State.hourValue s).hourValue_noted w
    by_cases same : advKey w.adv w.item = advKey v.adv v.item
    · obtain ⟨vs, found, last, short⟩ := noted.hours
      exact ⟨vs, w, List.mem_append_right _ List.mem_cons_self, same, same ▸ found, last, short⟩
    · obtain earlier | here := List.mem_append.mp mem
      · obtain ⟨vs, u, mu, key, found, rest⟩ := ih v earlier
        exact ⟨vs, u, List.mem_append_left _ mu, key, (noted.otherHours _ (Ne.symm same)).trans found, rest⟩
      · rw [List.mem_singleton.mp here] at same
        exact absurd rfl same

/-- The advisory of a quantity stands raised at the present tick. -/
def State.Raised (s : State) (v : HourValue) : Prop :=
  bit (s.reg Reg.KPR_ADVISORY) v.adv = true ∧ Store.find? s.keeper.lastRaised (advKey v.adv v.item) = some s.tick

theorem State.HourNoted.tick {v : HourValue} (a : s.HourNoted t v) : t.tick = s.tick := by
  rw [a.rest]
  rfl

/-- A raised advisory stays so when another quantity is noted. -/
theorem State.HourNoted.raised_of_raised {u v : HourValue} (a : s.HourNoted t u) (h : s.Raised v) : t.Raised v := by
  refine ⟨a.bits _ h.1, ?_⟩
  rw [a.tick]
  obtain same | ⟨found, others, -⟩ := a.raised
  · rw [same]
    exact h.2
  · by_cases here : advKey u.adv u.item = advKey v.adv v.item
    · exact here ▸ found
    · exact (others _ (Ne.symm here)).trans h.2

/-- A quantity that was never raised is, after another is noted, still so or raised at this tick. -/
theorem State.HourNoted.never_or_raised {u v : HourValue} (a : s.HourNoted t u)
    (key : advKey u.adv u.item = advKey v.adv v.item → u.adv = v.adv) (small : v.adv < 64)
    (h : Store.find? s.keeper.lastRaised (advKey v.adv v.item) = none) :
    Store.find? t.keeper.lastRaised (advKey v.adv v.item) = none ∨ t.Raised v := by
  obtain same | ⟨found, others, bits⟩ := a.raised
  · exact .inl (same ▸ h)
  · by_cases here : advKey u.adv u.item = advKey v.adv v.item
    · exact .inr ⟨key here ▸ bits (by rw [key here]; exact small), by rw [a.tick]; exact here ▸ found⟩
    · exact .inl ((others _ (Ne.symm here)).trans h)

/-- The quantities whose present value alone is compared are raised when it is past the limit and they never were. -/
theorem State.foldl_hourValue_raises (l : List HourValue) {v : HourValue} (mem : v ∈ l) (items : ∀ u ∈ l, u.item < 65536)
    (crossed : (v.adv = 5 ∧ v.value ≤ 0) ∨ (v.adv = 7 ∧ 1000 ≤ v.value)) (s : State)
    (h : Store.find? s.keeper.lastRaised (advKey v.adv v.item) = none ∨ s.Raised v) : (l.foldl State.hourValue s).Raised v := by
  have small : v.adv < 64 := by omega
  have key (u : HourValue) (mu : u ∈ l) : advKey u.adv u.item = advKey v.adv v.item → u.adv = v.adv := by
    have := items u mu
    have := items v mem
    unfold advKey
    omega
  have stays (l' : List HourValue) (sub : ∀ u ∈ l', u ∈ l) (s : State) (h : s.Raised v) : (l'.foldl State.hourValue s).Raised v :=
    List.foldlRecOn (motive := (State.Raised · v)) l' _ h fun t h u mu => (t.hourValue_noted u).raised_of_raised h
  obtain ⟨before, after, split⟩ := List.append_of_mem mem
  have sub (u : HourValue) (mu : u ∈ before ∨ u = v ∨ u ∈ after) : u ∈ l := by
    rw [split]
    simpa using mu
  rw [split, List.foldl_append, List.foldl_cons]
  refine stays after (fun u mu => sub u (.inr (.inr mu))) _ ?_
  have reached : Store.find? (before.foldl State.hourValue s).keeper.lastRaised (advKey v.adv v.item) = none ∨
      (before.foldl State.hourValue s).Raised v :=
    List.foldlRecOn (motive := fun t : State => Store.find? t.keeper.lastRaised (advKey v.adv v.item) = none ∨ t.Raised v) before _ h
      fun t h u mu => by
        have noted := t.hourValue_noted u
        obtain never | raised := h
        · exact noted.never_or_raised (key u (sub u (.inl mu))) small never
        · exact .inr (noted.raised_of_raised raised)
  have noted := (before.foldl State.hourValue s).hourValue_noted v
  obtain never | raised := reached
  · have found := noted.due never crossed
    obtain same | ⟨-, -, bits⟩ := noted.raised
    · rw [same, never] at found
      nomatch found
    · exact ⟨bits small, noted.tick ▸ found⟩
  · exact noted.raised_of_raised raised

/-- The node with the values of the hour that `last` ends noted. -/
def State.hourNoted (s : State) (last : List Reading) : State :=
  let w := s.withKeeper { s.keeper with worst := s.noteWorst last }
  w.hourValues.foldl State.hourValue w

/-- The hour's values as an hour ends. -/
theorem exec_advisoryHour (last : List Reading) (running : s.keeper.running = true) : ∃ r,
    exec (.advisoryHour last) s = .next ((s.hourNoted last).withKeeper { (s.hourNoted last).keeper with
      regions := r, intervals := 0, limited := 0, worst := [] }) := by
  show ∃ r, execAdvisoryHour last s = _
  unfold execAdvisoryHour
  rw [if_neg (by simp [running])]
  obtain ⟨r, form⟩ := State.foldl_setRegion_form (fun u t => { u.region t with below := 0 }) (List.range 16) (s.hourNoted last)
  have last' (a b : State) (set : b = { a with keeper := { a.keeper with regions := r } }) :
      b.withKeeper { b.keeper with intervals := 0, limited := 0, worst := [] } =
        a.withKeeper { a.keeper with regions := r, intervals := 0, limited := 0, worst := [] } := by
    subst set
    rfl
  exact ⟨r, congrArg Host.Outcome.next (last' _ _ form)⟩

/-! ### The log -/

/-- The entries that stay in the log. -/
theorem mem_ringLog {l : List LogEntry} {last e : LogEntry} (h : l.getLast? = some last) :
    e ∈ ringLog l ↔ e ∈ l ∧ (last.seq.toNat / 128 + 1) * 128 ≤ e.seq.toNat + 131072 := by
  unfold ringLog
  rw [h, List.mem_filter, decide_eq_true_eq]

theorem ringLog_subset (l : List LogEntry) : ∀ e ∈ ringLog l, e ∈ l := by
  unfold ringLog
  split
  · exact fun _ h => h
  · exact fun _ => List.mem_of_mem_filter

/-! ### Writes that a page takes or drops -/

/-- A write to a page of the port that is not up is dropped and counted. -/
theorem State.pfWrite_dropped {page : Nat} (off : Nat) (go : State) (down : s.pageUp page = false) :
    s.pfWrite page off go = s.bumpSat Reg.NS_DROPS 0 32 1 := by
  unfold State.pfWrite State.dropWrite
  rw [if_neg (by rw [down]; exact Bool.false_ne_true), if_pos (by rw [down]; simp)]

/-- A page above 1 other than the reset page answers in PHASE 3 alone. -/
theorem State.pageUp_serving {page : Nat} (h : 1 < page) (other : page ≠ 0x13) (phase : s.rst.phase ≠ 3) : s.pageUp page = false := by
  unfold State.pageUp
  rw [if_neg phase, if_neg (by omega)]
  exact decide_eq_false fun c => other c.1

/-- An injection register with the number of its unit in the bits above bit 0, and armed. -/
theorem State.arm_arms (s : State) (k len v : Nat) (fits : 1 + len ≤ 64) (small : v < 2 ^ len) :
    OnlyRegs s ((s.setRegF k 1 len v).setRegF k 0 1 1) [k] ∧ bit (((s.setRegF k 1 len v).setRegF k 0 1 1).reg k) 0 = true ∧
    ((s.setRegF k 1 len v).setRegF k 0 1 1).regF k 1 len = v := by
  refine ⟨.trans (.setRegF _ _ _ _ List.mem_cons_self) (.setRegF _ _ _ _ List.mem_cons_self), State.bit_setRegF_one _ _ _ (by decide), ?_⟩
  rw [State.regF_setRegF_apart _ _ _ _ _ _ _ (by decide) (by omega), State.regF_setRegF_same _ _ _ _ _ fits, Nat.mod_eq_of_lt small]

theorem exec_injectHot (tr : Fin 16) (up : s.pageUp 0x12 = true) :
    exec (.injectHot tr) s = .next ((s.setRegF Reg.KPR_INJECT 1 4 tr).setRegF Reg.KPR_INJECT 0 1 1) := by
  show execInjectHot tr s = _
  unfold execInjectHot State.pfWrite
  rw [if_pos up]

theorem exec_injectCascResidue (col : Fin 64) (up : s.pageUp 0x0B = true) {k : Nat}
    (hk : k = instKey Reg.CASC_INJECT (nodeTerrace (s.regF Reg.CASC_SEL 0 4 % 2) (s.regF Reg.CASC_SEL 0 4 / 2))) :
    exec (.injectCascResidue col) s = .next ((s.setRegF k 1 6 col).setRegF k 0 1 1) := by
  show execInjectCascResidue col s = _
  unfold execInjectCascResidue State.pfWrite
  dsimp only
  rw [if_pos up, ← hk]

/-! ### Reads over SMBus -/

theorem exec_logRead (seq : U32) (up : s.smbusUp = true) : exec (.logRead seq) s = .next (s.emit (.smbus
    (match (s.keeper.log ++ s.keeper.buffered).find? (fun e => e.seq == seq) with | some e => e.bytes | none => zeroBytes 32))) := by
  show execLogRead seq s = _
  unfold execLogRead
  exact (if_neg (by simp [up])).trans rfl

theorem exec_regRead (page : Byte) (off : U16) (up : s.smbusUp = true) : exec (.regRead page off) s = .next (s.emit (.smbus (leBytes 8
    (if page.toNat ∈ [0, 1, 0x12, 0x13] then s.pageRead 0 page.toNat off.toNat else 0).toNat))) := by
  show execRegRead page off s = _
  unfold execRegRead
  rw [if_neg (by simp [up])]
  simp only [List.mem_cons, List.not_mem_nil, or_false]

/-! ### The first sample -/

/-- What a cool first sample changes. -/
theorem sensorSample_cool {r : Reading} {l : RailRead} {w : Nat} (running : s.keeper.running = true) (sensors : s.keeper.sensors = [])
    (samples : s.keeper.samples = []) (none : ∀ t, (s.region t).tripped = 0) (cls : r.cls.val = 0) (idx : r.idx.val < 120)
    (cool : r.value < 1050) (power : w = railPower l.volts l.amps) (low : w ≤ 11500) (fine : vppOutside l = false) :
    Completes (.sensorSample [r] [l]) s fun t => t = { s with keeper := t.keeper, regs := t.regs } ∧
      OnlyRegs s t [Reg.KPR_POWER, Reg.KPR_CNT] ∧ t.regF Reg.KPR_POWER 0 16 = min 65535 (nearest w 10) ∧
      t.regF Reg.KPR_POWER 16 16 = max (s.regF Reg.KPR_POWER 16 16) (min (nearest w 10) 65535) ∧
      (∃ x, Store.find? t.keeper.sensors (sensorKey r.cls r.idx) = some x ∧ x.value = r.value) ∧
      t.keeper.overSince = (if 10 * s.pl1 < w then s.keeper.overSince + 1 else 0) ∧
      (10 * s.pl1 < w → 799 ≤ s.keeper.overSince → t.keeper.pcap = 0 ∧
        CountedSat s t Reg.KPR_CNT 16 16 (if 0 < s.keeper.pcap then 1 else 0)) ∧
      t.keeper.fast = s.keeper.fast ∧ (∀ u, (t.region u).point = (s.region u).point) := by
  obtain ⟨run, used, found⟩ := exec_sensorSample_cool running sensors none cls idx cool power low fine
  have before (k l' n : Nat) : (s.sensed [r] [l]).regF k l' n = s.regF k l' n := State.regF_congr rfl k l' n
  have pl1 : (s.sensed [r] [l]).pl1 = s.pl1 := before _ _ _
  have keeper : (s.sensed [r] [l]).keeper.overSince = s.keeper.overSince ∧ (s.sensed [r] [l]).keeper.pcap = s.keeper.pcap ∧
      (s.sensed [r] [l]).keeper.fast = s.keeper.fast ∧ (s.sensed [r] [l]).keeper.samples = [] := ⟨rfl, rfl, rfl, samples⟩
  have regions (u : Nat) : (s.sensed [r] [l]).region u = s.region u := State.region_congr rfl u
  have whole : s.sensed [r] [l] = { s with keeper := (s.sensed [r] [l]).keeper } := rfl
  have regs : OnlyRegs s (s.sensed [r] [l]) [Reg.KPR_POWER, Reg.KPR_CNT] := .of_regs rfl
  generalize s.sensed [r] [l] = a at *
  obtain ⟨over', pcap, fast, first⟩ := keeper
  have peak := used.peak
  have cuts := used.cuts
  have long := used.overSince
  have cap := used.cap
  rw [before] at peak
  rw [pl1, over'] at long
  rw [pl1, over', pcap] at cuts
  rw [pl1, over'] at cap
  refine ⟨_, run, ?_, regs.trans used.only, used.average first, peak, found, long, fun above long => ⟨cap above long, ?_⟩,
    used.fast.trans fast, fun u => (used.regions u).1.trans (congrArg Region.point (regions u))⟩
  · conv_lhs => rw [used.rest, whole]
  · rw [if_congr (and_iff_right ⟨above, long⟩) rfl rfl] at cuts
    exact .after _ _ _ _ (before _ _ _) cuts

end Sys2Proof.Machine

section Settled
open Sys2Proof Sys2Proof.Machine

/-- Settles O59: a sample changes Keeper and KPR_POWER and KPR_CNT alone; a control interval moves each point by at most one; the rest
follows the definition of each command. -/
theorem keeperControls : Obligations.KeeperControls := by
  unfold Obligations.KeeperControls
  refine ⟨?_, ?_, ?_, ?_, ?_, ?_, ?_, ?_, ?_, ?_, ?_, ?_⟩
  · intro r l w s running sensors samples none cls idx cool power low fine
    exact sensorSample_cool running sensors samples none cls idx cool power low fine
  · intro r tr j s running sensors none htr hj cls idx hot free
    obtain ⟨used, run, trip⟩ := exec_sensorSample_hot running sensors none htr hj cls idx hot free
    refine ⟨_, run, ?_, ?_, ?_, .after _ _ _ _ (used.trips.trans (State.regF_congr rfl _ _ _)) trip.counted, trip.critical, fun u other => ?_⟩
    · rw [trip.region]
    · rw [trip.region]
    · rw [trip.region]
    · rw [trip.others u other]
      obtain ⟨point, tripped, stopped⟩ := used.regions u
      exact ⟨tripped.trans (none u), point, stopped⟩
  · intro s running
    obtain ⟨t, run, steers, cleared, near⟩ := controlInterval_steers running
    exact ⟨t, run, steers.rest, steers.only, cleared, steers.sent, near⟩
  · intro tr since rids s held going
    refine ⟨fun free noRids => ?_, fun work early => ?_, fun late => ?_⟩
    · have none : s.holdRids tr rids = [] := by
        unfold State.holdRids
        rw [free, noRids]
        rfl
      obtain ⟨f, form, idle⟩ := s.clockStopped_form tr
      have regions := s.clockStopped_regions tr []
      refine ⟨_, exec_holdClockStop_stops held going (.inl none), ?_, ?_, fun u other => ?_, ?_⟩
      · rw [none, List.foldl_nil, form]
        rfl
      · rw [none]
        exact (regions tr).trans (if_pos rfl)
      · rw [none]
        exact (regions u).trans (if_neg other)
      · rw [none, List.foldl_nil, form]
        exact idle
    · refine ⟨s, exec_holdClockStop_waits held (fun none => ?_) early, rfl⟩
      obtain ⟨terrace, more⟩ := List.append_eq_nil_iff.mp ((List.dedup_eq_nil _).mp none)
      obtain h | h := work
      · exact h terrace
      · exact h more
    · have regions := s.clockStopped_regions tr (s.holdRids tr rids)
      refine ⟨_, exec_holdClockStop_stops held going (.inr late), ?_, fun u other => (regions u).trans (if_neg other)⟩
      rw [regions, if_pos rfl]
  · intro s
    refine ⟨⟨s, rfl, rfl⟩, ?_, ?_⟩
    · obtain ⟨fast, below, rst, counted⟩ := State.assertFast_asserts { s with rst := { s.rst with throttleN := false } }
      exact ⟨_, rfl, fast, below, by rw [rst], counted⟩
    · show ∃ t, execFastThrottleEnd s = _ ∧ _
      unfold execFastThrottleEnd
      split
      next ends =>
        refine ⟨_, rfl, rfl, ?_⟩
        rw [decide_eq_false (by omega), Bool.and_false]
        rfl
      next goes =>
        refine ⟨_, rfl, rfl, ?_⟩
        have same : (s.keeper.fast && decide (s.keeper.fastBelow < 10)) = s.keeper.fast := by
          cases fast : s.keeper.fast
          · rfl
          · rw [decide_eq_true (by by_contra low; exact goes ⟨fast, by omega⟩)]
            rfl
        rw [same]
  · intro last s w running hw
    subst hw
    obtain ⟨r, run⟩ := exec_advisoryHour last running
    generalize hw : s.withKeeper { s.keeper with worst := s.noteWorst last } = w
    have noted : s.hourNoted last = w.hourValues.foldl State.hourValue w := by
      rw [← hw]
      rfl
    obtain ⟨rest, only⟩ := State.foldl_hourValue_rest w.hourValues w
    have hours := State.foldl_hourValue_hours w.hourValues w
    have raises := fun v mem crossed never => State.foldl_hourValue_raises w.hourValues (v := v) mem w.hourValues_item crossed w (.inl never)
    rw [← noted] at rest only hours
    simp only [← noted] at raises
    generalize s.hourNoted last = a at run rest only hours raises
    have whole : a = { s with keeper := a.keeper, regs := a.regs } :=
      rest.trans ((congrArg (fun w : State => ({ w with keeper := a.keeper, regs := a.regs } : State)) hw.symm).trans rfl)
    have before : OnlyRegs s w [Reg.KPR_ADVISORY] := .of_regs ((congrArg State.regs hw.symm).trans rfl)
    have marks : w.keeper.lastRaised = s.keeper.lastRaised :=
      (congrArg (fun w : State => w.keeper.lastRaised) hw.symm).trans rfl
    have tick : a.tick = s.tick := by
      rw [whole]
      rfl
    refine ⟨_, run, State.withKeeper_rest whole _, before.trans only, rfl, rfl, rfl, hours, fun v mem never crossed => ?_⟩
    obtain ⟨raised, found⟩ := raises v mem crossed (by rw [marks]; exact never)
    exact ⟨raised, tick ▸ found⟩
  · intro s
    refine ⟨_, rfl, rfl, rfl, ringLog_subset _, fun l last e mem => ?_⟩
    exact (mem_ringLog last).trans (and_iff_right mem)
  · intro seq s up
    refine ⟨_, exec_logRead seq up, rfl, fun e found => ?_, fun absent => ?_⟩
    · rw [found]
      rfl
    · rw [List.find?_eq_none.mpr fun e mem => by simpa using absent e mem]
      rfl
  · intro page off s up
    refine ⟨_, exec_regRead page off up, rfl, fun mem => ?_, fun mem => ?_⟩
    · rw [if_pos mem]
      rfl
    · rw [if_neg mem]
      rfl
  · intro tr s up
    exact ⟨_, exec_injectHot tr up, rfl, s.arm_arms _ 4 tr (by decide) tr.isLt⟩
  · intro col k s up hk
    exact ⟨_, exec_injectCascResidue col up hk, rfl, s.arm_arms _ 6 col (by decide) col.isLt⟩
  · intro tr col lane s phase i mem
    have drops {j : Instr} {page off : Nat} {go : State} (run : exec j s = .next (s.pfWrite page off go)) (h : 1 < page) (other : page ≠ 0x13) :
        Completes j s fun t => t = { s with regs := t.regs } ∧ OnlyRegs s t [Reg.NS_DROPS] ∧ CountedSat s t Reg.NS_DROPS 0 32 1 := by
      rw [State.pfWrite_dropped off go (State.pageUp_serving h other phase)] at run
      exact ⟨_, run, rfl, .bumpSat _ _ _ _ List.mem_cons_self, .of_bumpSat _ _ _ _ (by decide)⟩
    simp only [List.mem_cons, List.not_mem_nil, or_false] at mem
    obtain rfl | rfl | rfl := mem
    · exact drops rfl (by decide) (by decide)
    · exact drops rfl (by decide) (by decide)
    · exact drops rfl (by decide) (by decide)

end Settled
end

section
/-! SUPPORT. What the freeing of versions and pages of an index that no epoch sees leaves of a node (R100, R354). -/

set_option Elab.async false

namespace Sys2Proof.Machine
variable {s t u : State}

/-- Pages of indexes have been freed: of a node only the indexes, the Cistern, the memory range, the places of block arrays and one
counter differ, no page is lost, and the only new lower-tier reads are those of map pages, for which nothing waits. -/
structure State.Freed (s t : State) : Prop where
  rest : t = { s with indexes := t.indexes, cist := t.cist, mem := t.mem, hbm := t.hbm, regs := t.regs }
  only : OnlyRegs s t [Reg.CIST_MAPCACHE_STATUS]
  hbm : t.hbm = { s.hbm with places := t.hbm.places }
  lost : t.mem.lost = s.mem.lost
  reads : ∃ more, t.mem.reads = s.mem.reads ++ more ∧ ∀ q ∈ more, q.waiters = [] ∧ ∃ n, q.target = .page (mapLpn n)

namespace State.Freed

theorem of_same (rest : t = { s with indexes := t.indexes, cist := t.cist, mem := t.mem, hbm := t.hbm }) (hbm : t.hbm = { s.hbm with places := t.hbm.places })
    (lost : t.mem.lost = s.mem.lost) (reads : t.mem.reads = s.mem.reads) : s.Freed t where
  rest := by rw [rest]
  only := .of_regs (by rw [rest])
  hbm := hbm
  lost := lost
  reads := ⟨[], by rw [reads, List.append_nil], nofun⟩

theorem refl (s : State) : s.Freed s := of_same rfl rfl rfl rfl

theorem trans (a : s.Freed t) (b : t.Freed u) : s.Freed u where
  rest := by rw [b.rest, a.rest]
  only := a.only.trans b.only
  hbm := by rw [b.hbm, a.hbm]
  lost := b.lost.trans a.lost
  reads := by
    obtain ⟨x, hx, ex⟩ := a.reads
    obtain ⟨y, hy, ey⟩ := b.reads
    refine ⟨x ++ y, by rw [hy, hx, List.append_assoc], fun q h => ?_⟩
    obtain h | h := List.mem_append.mp h
    · exact ex q h
    · exact ey q h

theorem foldl {α : Type} {f : State → α → State} (step : ∀ (v : State) x, v.Freed (f v x)) (l : List α) (s : State) : s.Freed (l.foldl f s) :=
  List.foldlRecOn (motive := (s.Freed ·)) l f (refl s) fun _ h x _ => h.trans (step _ x)

/-- A read that nothing waits for is begun. -/
theorem readMapOf (s : State) (n : Nat) : s.Freed (s.readMapOf n) := by
  unfold State.readMapOf State.readMap
  split
  · exact refl s
  · extract_lets r
    exact ⟨rfl, .bump _ _ _ _ List.mem_cons_self, rfl, rfl, [s.issueRead r], rfl, fun q h => by
      rw [List.mem_singleton.mp h]
      exact ⟨rfl, n, rfl⟩⟩

theorem trim (s : State) (n : Nat) : s.Freed (s.trim n) := by
  unfold State.trim
  split
  · exact of_same rfl rfl rfl rfl
  · split
    · exact of_same rfl rfl rfl rfl
    · split
      · have later : s.Freed (s.trimLater n) := of_same rfl rfl rfl rfl
        exact later.trans (readMapOf _ n)
      · exact of_same rfl rfl rfl rfl

theorem freePage (s : State) (n : Nat) : s.Freed (s.freePage n) := by
  unfold State.freePage
  exact trans (trim s n) (of_same rfl rfl rfl rfl)

theorem keepOf (s : State) (i : Nat) (x : Index) : s.Freed (s.keepOf i x) := of_same rfl rfl rfl rfl

theorem swapIndex (s : State) (i : Nat) (x : Index) : s.Freed (s.swapIndex i x) := by
  unfold State.swapIndex
  split
  · exact of_same rfl rfl rfl rfl
  · have put : s.Freed (s.setIndex i x) := of_same rfl rfl rfl rfl
    exact (put.trans (foldl freePage _ _)).trans (keepOf _ i x)

theorem freeUnseen (s : State) (i : Nat) : s.Freed (s.freeUnseen i) := by
  unfold State.freeUnseen
  split
  · exact refl s
  · exact swapIndex s i _

/-- Nothing works for a request that nothing worked for. -/
theorem noWork (a : s.Freed t) {rid : Nat} (h : s.NoWork rid) : t.NoWork rid := by
  obtain ⟨rills, parts, windows, reads⟩ := h
  obtain ⟨more, eq, idle⟩ := a.reads
  have rest := a.rest
  refine ⟨?_, ?_, ?_, fun q mem => ?_⟩
  · rw [rest]; exact rills
  · rw [rest]; exact parts
  · rw [rest]; exact windows
  · rw [eq] at mem
    obtain mem | mem := List.mem_append.mp mem
    · exact reads q mem
    · rw [(idle q mem).1]
      nofun

end State.Freed

end Sys2Proof.Machine
end

section
/-! SUPPORT. The queue pairs through the firing of slots and the acceptance of a request, and the commands of the host queues, for O54. -/

set_option Elab.async false

namespace Sys2Proof.Machine
variable {s t u : State}

/-! ### What leaves the functions of the host port alone -/

/-- Every queue pair stands but for its completions. -/
def State.QueuesServed (s t : State) : Prop := ∀ f q, QueueServed (s.queue f q) (t.queue f q)

theorem State.QueuesServed.trans (a : s.QueuesServed t) (b : t.QueuesServed u) : s.QueuesServed u := fun f q => (a f q).trans (b f q)

theorem State.queue_congr (h : t.host = s.host) (f q : Nat) : t.queue f q = s.queue f q := by
  unfold State.queue State.fn
  rw [h]

theorem State.QueuesServed.of_host (h : t.host = s.host) : s.QueuesServed t := fun f q => by
  rw [State.queue_congr h]
  exact .refl _

/-- What the service of requests does serves the queues. -/
theorem State.QueuesServed.of_keeps (h : Keeps ⟨true, true, true, false, true⟩ s t) : s.QueuesServed t := (h.served rfl).queues

theorem State.foldl_host {α : Type} {f : State → α → State} (step : ∀ (v : State) x, (f v x).host = v.host) (l : List α) (s : State) :
    (l.foldl f s).host = s.host :=
  List.foldlRecOn (motive := fun v : State => v.host = s.host) l f rfl fun v h x _ => (step v x).trans h

theorem State.abandonMigs_host (s : State) (p : Migration → Bool) : (s.abandonMigs p).host = s.host := by
  unfold State.abandonMigs
  dsimp only
  split <;> rfl

theorem State.sealNew_host (s : State) (check : Bool) (i : Nat) (old : Option Index) (new : Index) :
    (s.sealNew check i old new).host = s.host :=
  State.foldl_host (fun v p => by
    unfold State.sealArray State.sealRuns
    dsimp only
    split <;> rfl) _ s

theorem State.placeNew_host (s : State) (i : Nat) (old : Option Index) (new : Index) : (s.placeNew i old new).host = s.host :=
  State.foldl_host (f := fun (t : State) (p : Nat × BlkArr) => t.placeArr i p.1 p.2 (p.2.span new.desc.width)) (fun _ _ => rfl) _ s

theorem State.writeNew_host (s : State) (i : Nat) (old new : Index) : (s.writeNew i old new).host = s.host :=
  State.foldl_host (f := fun (t : State) l => t.writePage new.desc.slice l) (fun _ _ => rfl) _ s

theorem State.Freed.host (a : s.Freed t) : t.host = s.host := by rw [a.rest]

/-- An index is sealed. -/
theorem State.beginSeal_host (s : State) (i : Nat) : (s.beginSeal i).host = s.host := by
  unfold State.beginSeal
  rw [State.abandonMigs_host]
  unfold State.sealIndex
  split
  · rfl
  · split
    · rfl
    · rw [State.writeNew_host]
      unfold State.replaceIndex
      extract_lets s1
      have placed : s1.host = s.host := by
        show (State.sealNew _ _ _ _ _).host = _
        rw [State.sealNew_host, State.placeNew_host, (State.Freed.swapIndex _ _ _).host]
      split
      · exact (State.abandonMigs_host _ _).trans placed
      · exact placed

theorem State.doFlip_queues (s : State) (i : Nat) (w : Time) : s.QueuesServed (s.doFlip i w) := by
  unfold State.doFlip
  split
  · exact .of_host rfl
  · extract_lets s1
    have sealed : s1.host = s.host := by
      show (if _ then s else s.beginSeal i).host = _
      split
      · rfl
      · exact s.beginSeal_host i
    split
    · exact .of_host sealed
    · extract_lets y s2
      have freed : ((s2.freeUnseen i).bump Reg.EPOCH_CNT_FLIPS 0 64 1).host = s.host := (State.Freed.freeUnseen s2 i).host.trans sealed
      generalize (s2.freeUnseen i).bump Reg.EPOCH_CNT_FLIPS 0 64 1 = a at freed ⊢
      exact .trans (.of_host freed) (.of_keeps (Keeps.refl a).wakeFlip)

theorem State.mapSwitch_host (s : State) (late : Bool) : (s.mapSwitch late).host = s.host := by
  unfold State.mapSwitch
  split
  · rfl
  · extract_lets old new g since changed terrs grans lacks _ s1 joined
    exact State.foldl_host (f := fun (u : State) t => u.pointOut (169 + t) (u.terraceOut t)) (fun _ _ => rfl) _ _

theorem State.takeOver_host (s : State) (pt : Nat) (late : Bool) : (s.takeOver pt late).host = s.host := by
  unfold State.takeOver
  dsimp only
  split <;> rfl

theorem State.noteFired_host (s : State) (n : Nat) (late : Bool) : (s.noteFired n late).host = s.host := by
  unfold State.noteFired
  dsimp only
  split <;> rfl

theorem State.fireSlot_queues (s : State) (n : Nat) : s.QueuesServed (s.fireSlot n) := by
  unfold State.fireSlot
  extract_lets e s1
  have fired : s1.host = s.host := s.noteFired_host _ _
  split
  · exact .of_host ((State.mapSwitch_host _ _).trans fired)
  · exact .of_host ((State.takeOver_host _ _ _).trans fired)
  · exact .trans (.of_host (t := s1.setSlot n _) fired) (State.doFlip_queues _ _ _)
  · exact .of_host fired
  · exact .of_host rfl

/-- The slots that are due fire, and the queues are served. -/
theorem State.fireDue_queues (s : State) : s.QueuesServed s.fireDue := by
  unfold State.fireDue
  extract_lets due order
  have fired : s.QueuesServed (order.foldl (fun (t : State) p => t.fireSlot p.2) s) :=
    List.foldlRecOn (motive := (s.QueuesServed ·)) order _ (.of_host rfl) fun v h p _ => h.trans (v.fireSlot_queues p.2)
  exact fired.trans (.of_keeps (Keeps.refl _).settleInstant)

/-! ### A request that is taken in -/

theorem State.accept_queues (s : State) (op : Nat) (h : ReqHdr) (payload : List Byte) (src : Source) (recv : Nat) (node : Bool) :
    s.QueuesServed (s.accept op h payload src recv node) := by
  unfold State.accept
  extract_lets v step c d trusted s1 toSource ret rid r _ s2
  have class' : c.2.host = s.host := by
    show (s.reqClass _ _ _).2.host = _
    unfold State.reqClass
    dsimp only
    split
    · rfl
    · split <;> rfl
  have taken : s2.host = s.host := by
    show s1.host = _
    show (if trusted then c.2 else d.2).host = _
    split
    · exact class'
    · exact class'
  exact .trans (.of_host taken) (.of_keeps (Keeps.refl _).settleReq)

theorem State.inFlight_queues (s : State) (fn q : Nat) : s.QueuesServed (s.inFlight fn q) := by
  intro f r
  unfold State.inFlight
  extract_lets v
  by_cases hf : f = fn
  · by_cases hr : r = q
    · rw [hf, hr, State.queue_setQueue_same]
      rfl
    · rw [hf, State.queue_setQueue_other (d := hr)]
      exact .refl _
  · rw [State.queue_setQueue_fn (d := hf)]
    exact .refl _

/-- A completion is owed after a count. -/
theorem State.bump_owe_queues (s : State) (k fn q : Nat) (o : Owed) : s.QueuesServed ((s.bump k 0 32 1).owe fn q o) :=
  .trans (.of_host (t := s.bump k 0 32 1) rfl) (.of_keeps (Keeps.refl _).owe)

/-- A request of a host queue is offered. -/
theorem State.offer_host_queues (s : State) (op : Nat) (h : ReqHdr) (payload : List Byte) (fn : Fin 17) (q : Fin 16) (tag : U32) (addr : U64)
    (len : U32) (recv : Nat) : s.QueuesServed (s.offer op h payload (.host fn q tag addr len) recv) := by
  unfold State.offer
  dsimp only
  split
  · exact (s.inFlight_queues fn q).trans (State.accept_queues _ _ _ _ _ _ _)
  · exact s.bump_owe_queues _ _ _ _

/-! ### HOST_REQUEST_FETCH -/

/-- An entry that fails is answered, and passes SQ_HEAD. -/
theorem State.passEntry_queue (s : State) (fn q : Nat) : (s.passEntry fn q).queue fn q =
    { s.queue fn q with sqHead := ((s.queue fn q).sqHead + 1) % 2 ^ (s.queue fn q).sqLog2 } :=
  State.queue_setQueue_same _ _ _ _

/-- The last entry that was read passes SQ_HEAD. -/
theorem hostRequestFetch_passes {fn : Fin 17} {q : Fin 16} (data : Option (List Byte)) {e : SqEntry} (last : (s.queue fn q).fetched = [e]) :
    Completes (.hostRequestFetch fn q data) s fun t =>
      (t.queue fn q).sqHead = ((s.queue fn q).sqHead + 1) % 2 ^ (s.queue fn q).sqLog2 ∧ (t.queue fn q).fetched = [] := by
  have done {a b : State} (passed : a.queue fn q = { s.queue fn q with sqHead := ((s.queue fn q).sqHead + 1) % 2 ^ (s.queue fn q).sqLog2 })
      (served : a.QueuesServed b) : ((b.takeEntries fn q []).queue fn q).sqHead = ((s.queue fn q).sqHead + 1) % 2 ^ (s.queue fn q).sqLog2 ∧
        ((b.takeEntries fn q []).queue fn q).fetched = [] := by
    have same : b.queue fn q = _ := served fn q
    unfold State.takeEntries
    rw [State.queue_setQueue_same]
    refine ⟨?_, rfl⟩
    rw [same, passed]
  unfold Completes
  show ∃ t, execHostRequestFetch fn q data s = _ ∧ _
  unfold execHostRequestFetch
  dsimp only
  rw [last]
  dsimp only
  cases data with
  | none => exact ⟨_, rfl, done (s.passEntry_queue fn q) (.of_keeps (Keeps.refl _).owe)⟩
  | some given =>
    refine ⟨_, rfl, done ?_ (.trans (State.fireDue_queues _) (State.offer_host_queues _ _ _ _ _ _ _ _ _ _))⟩
    exact State.passEntry_queue _ fn q

end Sys2Proof.Machine
end

section
/-! SUPPORT. Doorbells, vectors and the configuration of the host queues, for O54. -/

set_option Elab.async false

namespace Sys2Proof.Machine
variable {s t u : State} {fn : Fin 17} {q : Fin 16}

/-! ### Entries read from a ring -/

/-- Entries that are given whole are read as they are. -/
theorem State.readEntries_given (es : List (List Byte)) (whole : ∀ b ∈ es, b.length = 32) (s : State) :
    s.readEntries es.length es = (es.map parseSq, s) := by
  induction es generalizing s with
  | nil => rfl
  | cons b es ih =>
    have here := whole b List.mem_cons_self
    have taken : ((b :: es).headD []).take 32 = b := by
      rw [List.headD_cons, ← here, List.take_length]
    rw [List.length_cons, State.readEntries]
    rw [taken, here]
    have rest := ih (fun c mem => whole c (List.mem_cons_of_mem _ mem)) (s.freeBytes (32 - 32)).2
    rw [List.tail_cons, rest]
    show (parseSq (b ++ []) :: _, _) = _
    rw [List.append_nil]
    rfl

/-- A tail that a queue takes. -/
structure Queue.TakesTail (v : Queue) (tail n : Nat) : Prop where
  en : v.sqEn = true
  ok : v.err = false
  small : tail < 2 ^ v.sqLog2
  ahead : ringDist (2 ^ v.sqLog2) v.sqHead v.sqTail ≤ ringDist (2 ^ v.sqLog2) v.sqHead tail
  entries : n = ringDist (2 ^ v.sqLog2) v.sqTail tail

/-- The node with a new tail held and its entries read. -/
def State.tailRead (s : State) (fn q tail n : Nat) : State :=
  (s.setQueue fn q { s.queue fn q with sqTail := tail }).emits ((s.queue fn q).ringReads fn (s.queue fn q).sqTail n)

section
variable {tail : U32} {es : List (List Byte)} (up : s.fnUp fn = true) (has : s.hasQueue fn q = true)
include up has

theorem exec_cqHeadDoorbell_off {head : U32} (off : (s.queue fn q).cqEn = false) : exec (.cqHeadDoorbell fn q head) s = .next s := by
  show execCqHeadDoorbell fn q head s = _
  unfold execCqHeadDoorbell
  simp [up, has, off]

theorem exec_cqHeadDoorbell_frees {head : U32} (en : (s.queue fn q).cqEn = true) (small : head.toNat % 65536 < 2 ^ (s.queue fn q).cqLog2)
    (moved : ringDist (2 ^ (s.queue fn q).cqLog2) (s.queue fn q).cqHead (head.toNat % 65536) ≠ 0) :
    exec (.cqHeadDoorbell fn q head) s = .next ((s.setQueue fn q { s.queue fn q with
      cqHead := head.toNat % 65536
      cqCount := (s.queue fn q).cqCount - ringDist (2 ^ (s.queue fn q).cqLog2) (s.queue fn q).cqHead (head.toNat % 65536) }).flushCq fn q) := by
  show execCqHeadDoorbell fn q head s = _
  unfold execCqHeadDoorbell
  dsimp only
  rw [if_neg (by simp [up]), if_neg (by simp [has]), if_neg (by simp [en]), if_neg (by omega), if_neg fun c => moved c.1]

theorem exec_sqTailDoorbell_off (off : (s.queue fn q).sqEn = false) : exec (.sqTailDoorbell fn q tail es) s = .next s := by
  show execSqTailDoorbell fn q tail es s = _
  unfold execSqTailDoorbell
  simp [up, has, off]

theorem exec_sqTailDoorbell_bad (en : (s.queue fn q).sqEn = true) (big : 2 ^ (s.queue fn q).sqLog2 ≤ tail.toNat % 65536) :
    exec (.sqTailDoorbell fn q tail es) s = .next (s.queueError fn q) := by
  show execSqTailDoorbell fn q tail es s = _
  unfold execSqTailDoorbell
  simp [up, has, en, big]

theorem exec_sqTailDoorbell_takes (takes : (s.queue fn q).TakesTail (tail.toNat % 65536) es.length) (whole : ∀ b ∈ es, b.length = 32) :
    exec (.sqTailDoorbell fn q tail es) s = .next (if (s.queue fn q).fetched.isEmpty then
        (s.tailRead fn q (tail.toNat % 65536) es.length).takeEntries fn q (es.map parseSq)
      else (s.tailRead fn q (tail.toNat % 65536) es.length).setQueue fn q
        { (s.tailRead fn q (tail.toNat % 65536) es.length).queue fn q with fetched := (s.queue fn q).fetched ++ es.map parseSq }) := by
  obtain ⟨en, ok, small, ahead, entries⟩ := takes
  show execSqTailDoorbell fn q tail es s = _
  unfold execSqTailDoorbell
  dsimp only
  rw [if_neg (by simp [up]), if_neg (by simp [has]), if_neg (by simp [en]), if_neg (by omega), ← entries, State.readEntries_given es whole,
    if_neg (by simp [ok])]
  split <;> rfl

end

theorem exec_doorbells_down {tail head : U32} {es : List (List Byte)} (down : s.fnUp fn = false) :
    exec (.sqTailDoorbell fn q tail es) s = .next s ∧ exec (.cqHeadDoorbell fn q head) s = .next s := by
  constructor
  · show execSqTailDoorbell fn q tail es s = _
    unfold execSqTailDoorbell
    simp [down]
  · show execCqHeadDoorbell fn q head s = _
    unfold execCqHeadDoorbell
    simp [down]

/-- With no completion owed a queue has nothing to flush. -/
theorem State.flushCq_none (f n : Nat) (owed : (s.queue f n).owed = []) : s.flushCq f n = s.setQueue f n (s.queue f n) := by
  have same : { s.queue f n with owed := [] } = s.queue f n := by
    rw [← owed]
  unfold State.flushCq
  rw [owed, State.flushList, same]

/-! ### Vectors -/

/-- A vector changes no queue pair. -/
theorem State.queue_sendVector (s : State) (f v g r : Nat) : (s.sendVector f v).queue g r = s.queue g r := by
  unfold State.sendVector
  dsimp only
  split
  · by_cases here : g = f
    · unfold State.queue
      rw [here, State.fn_setFn_same]
      rfl
    · unfold State.queue
      rw [State.fn_setFn_other (d := here)]
  · rfl

/-- A vector that may be sent leaves; else it is pending. -/
theorem State.sendVector_sends (s : State) (f v : Nat) :
    ((Store.get (fun _ => Msix.reset) (s.fn f).msix v).masked = false → (s.fn f).cfg.sends = true →
      (s.sendVector f v).out = s.out ++ [.msix f (Store.get (fun _ => Msix.reset) (s.fn f).msix v).addr
        (Store.get (fun _ => Msix.reset) (s.fn f).msix v).data]) ∧
    ((Store.get (fun _ => Msix.reset) (s.fn f).msix v).masked = true ∨ (s.fn f).cfg.sends = false → (s.sendVector f v).out = s.out ∧
      Store.get (fun _ => Msix.reset) ((s.sendVector f v).fn f).msix v =
        { Store.get (fun _ => Msix.reset) (s.fn f).msix v with pending := true }) := by
  unfold State.sendVector
  dsimp only
  refine ⟨fun open_ sends => ?_, fun held => ?_⟩
  · rw [open_, sends]
    rfl
  · rw [if_pos (by obtain h | h := held <;> simp [h])]
    refine ⟨rfl, ?_⟩
    rw [State.fn_setFn_same]
    exact Store.get_put_same _ _ _ _

/-- An event changes no queue pair. -/
theorem State.queue_hqEvent (s : State) (f b g r : Nat) : (s.hqEvent f b).queue g r = s.queue g r := by
  have go (k e : Nat) : (if bit (s.reg k) b then s else if bit (s.reg e) b then (s.setRegF k b 1 1).sendVector f 0
      else s.setRegF k b 1 1).queue g r = s.queue g r := by
    split
    · rfl
    · split
      · exact State.queue_sendVector _ _ _ _ _
      · rfl
  exact go _ _

/-- A queue in error keeps only the entry whose request is being read. -/
theorem State.queueError_errs (s : State) (fn q : Nat) : (s.queueError fn q).queue fn q =
      { s.queue fn q with err := true, fetched := (s.queue fn q).fetched.take 1 } ∧
    bit ((s.queueError fn q).reg (instKey Reg.HQ_EVENT fn)) 2 = true ∧ (s.queueError fn q).reqs = s.reqs := by
  unfold State.queueError
  extract_lets v
  have set := s.queue_setQueue_same fn q { v with err := true, fetched := v.fetched.take 1 }
  have reqs : (s.setQueue fn q { v with err := true, fetched := v.fetched.take 1 }).reqs = s.reqs := rfl
  generalize s.setQueue fn q { v with err := true, fetched := v.fetched.take 1 } = a at set reqs ⊢
  obtain ⟨noted, bit⟩ := a.hqEvent_sets fn (b := 2) (by decide)
  refine ⟨(a.queue_hqEvent _ _ _ _).trans set, bit, ?_⟩
  rw [noted.rest, reqs]

/-! ### The configuration of a queue -/

/-- HQ_SQ_CFG of a queue as the page's table has it. -/
theorem regDef_sqCfg : ∀ q : Fin 16, regDef? 0x14 (0x1008 + 0x40 * q.val) = some ⟨0x1008, 0x40, 16, [⟨0, 1, .rw, 0⟩, ⟨1, 5, .rw, 4⟩]⟩ := by
  decide

theorem merge_whole (old new : U64) : merge old (-1) new = new := by
  unfold merge
  rw [show (-1 : U64) = BitVec.allOnes 64 by decide, BitVec.not_allOnes, BitVec.and_allOnes]
  simp

/-- A 64-bit write of HQ_SQ_CFG that enables a queue. -/
theorem State.writeSqCfg_enables (val : U64) (off : (s.queue fn q).sqEn = false) (en : bit val 0 = true) (low : 4 ≤ field val 1 5)
    (high : field val 1 5 ≤ 16) : s.writeSqCfg fn q val = some (s.setQueue fn q { s.queue fn q with
      sqEn := true, sqLog2 := field val 1 5, sqHead := 0, sqTail := 0, err := false, fetched := [] }) := by
  unfold State.writeSqCfg
  dsimp only
  rw [en, off, if_neg (by simp), if_pos rfl, storedLog2, if_pos ⟨low, high⟩]

/-- A 64-bit write of HQ_SQ_CFG reaches the queue. -/
theorem State.writeReg_sqCfg (val : U64) (small : q.val < queueCount fn) :
    s.writeReg fn 0x14 (0x1008 + 0x40 * q.val) (-1) val = s.writeSqCfg fn q val := by
  unfold State.writeReg
  rw [regDef_sqCfg, show s.copyOf fn 0x14 (0x1008 + 0x40 * q.val) = some fn.val from rfl]
  dsimp only
  rw [if_neg (by decide), if_neg (by decide), if_pos ⟨rfl, by omega⟩, merge_whole]
  unfold State.writeQueue
  rw [show (0x1008 + 0x40 * q.val - 0x1000) / 0x40 = q.val by omega, show (0x1008 + 0x40 * q.val) % 0x40 = 8 by omega]
  exact if_neg (by omega)

/-- A write of HQ_SQ_CFG has no row of its own. -/
theorem exec_queueConfigWrite_sqCfg (val : U64) (phase : s.rst.phase = 3) (up : s.fnUp fn = true) (small : q.val < queueCount fn) {t : State}
    (writes : s.writeSqCfg fn q val = some t) : exec (.queueConfigWrite fn 0x14 (0x1008 + 0x40 * q.val) val) s = .next t := by
  show execQueueConfigWrite fn 0x14 (0x1008 + 0x40 * q.val) val s = _
  unfold execQueueConfigWrite execBar0Write
  have := q.isLt
  rw [if_pos up, show (0x1008 + 0x40 * q.val) % 16384 = 0x1008 + 0x40 * q.val by omega]
  have noRow : execOwnRow fn 0x14 (0x1008 + 0x40 * q.val) (leBytes 8 val.toNat) s = none := by
    unfold execOwnRow
    dsimp only
    rw [if_neg (by omega), if_neg (by omega), if_neg (by omega), if_neg (by omega), if_neg (by omega), if_neg (by omega)]
  rw [show ((0x14 : Fin 64) : Nat) = 0x14 from rfl, noRow, ite_self]
  dsimp only
  unfold State.hostWrite
  dsimp only
  have aligned : (0x1008 + 0x40 * q.val) % 8 = 0 := by omega
  have mask : writeMask (0x1008 + 0x40 * q.val) 8 = -1 := by
    rw [← writeMask_whole]
    unfold writeMask
    rw [aligned]
  have word : writeWord (0x1008 + 0x40 * q.val) (leBytes 8 val.toNat) = val := by
    rw [← writeWord_whole val]
    unfold writeWord
    rw [aligned, leNat_leBytes]
    simp
  have size : sizeOk (0x1008 + 0x40 * q.val) 8 = true := by
    unfold sizeOk
    simp [aligned]
  have kind : pageKind fn 0x14 = 1 := by
    unfold pageKind
    rw [if_neg (by decide), if_pos (by simp)]
  have answers : s.pageUp 0x14 = true := if_pos phase
  rw [aligned, Nat.sub_zero, show (leBytes 8 val.toNat).length = 8 from rfl, if_neg (by simp [kind, size, answers]; omega), mask, word,
    State.writeReg_sqCfg val small, writes]

end Sys2Proof.Machine

section Settled
open Sys2Proof Sys2Proof.Machine

/-- Settles O54: each doorbell, vector and configuration write by the definition of its command; a request that is read is taken in by
operations that serve the queues. -/
theorem queuesServed : Obligations.QueuesServed := by
  unfold Obligations.QueuesServed
  refine ⟨?_, ?_, ?_, ?_, ?_, ?_⟩
  · intro fn q tail head es s down
    obtain ⟨sq, cq⟩ := exec_doorbells_down (s := s) (q := q) (tail := tail) (head := head) (es := es) down
    exact ⟨⟨s, sq, rfl⟩, ⟨s, cq, rfl⟩⟩
  · intro fn q tail es s up has
    refine ⟨fun off => ⟨s, exec_sqTailDoorbell_off up has off, rfl⟩, fun en big => ?_, fun en ok small ahead entries whole => ?_⟩
    · obtain ⟨set, event, reqs⟩ := s.queueError_errs fn q
      exact ⟨_, exec_sqTailDoorbell_bad up has en big, by rw [set], by rw [set], by rw [set], event, reqs⟩
    · have run := exec_sqTailDoorbell_takes up has ⟨en, ok, small, ahead, entries⟩ whole
      have read : (s.tailRead fn q (tail.toNat % 65536) es.length).queue fn q = { s.queue fn q with sqTail := tail.toNat % 65536 } :=
        State.queue_setQueue_same _ _ _ _
      refine ⟨fun waits => ?_, fun e l none split good => ?_⟩
      · rw [if_neg (by simpa using waits)] at run
        refine ⟨_, run, rfl, ?_⟩
        rw [State.queue_setQueue_same, read]
      · rw [if_pos (by simpa using none), split, State.takeEntries, if_pos good] at run
        refine ⟨_, run, rfl, ?_⟩
        refine (State.queue_setQueue_same _ _ _ _).trans ?_
        rw [read]
  · intro fn q data e s
    refine ⟨fun none => ⟨s, ?_, rfl⟩, hostRequestFetch_passes data⟩
    show execHostRequestFetch fn q data s = _
    unfold execHostRequestFetch
    dsimp only
    rw [none]
  · intro fn q head s up has
    refine ⟨fun off => ⟨s, exec_cqHeadDoorbell_off up has off, rfl⟩, fun en small owed moved => ?_⟩
    have run := exec_cqHeadDoorbell_frees up has en small moved
    have set := s.queue_setQueue_same fn q { s.queue fn q with
      cqHead := head.toNat % 65536
      cqCount := (s.queue fn q).cqCount - ringDist (2 ^ (s.queue fn q).cqLog2) (s.queue fn q).cqHead (head.toNat % 65536) }
    rw [State.flushCq_none fn q (by rw [set]; exact owed)] at run
    refine ⟨_, run, rfl, ?_⟩
    rw [State.queue_setQueue_same, set]
  · intro fn q m s hm
    subst hm
    refine ⟨fun early => ⟨s, ?_, rfl⟩, fun cqEn intEn some due => ?_⟩
    · show execMsixCoalesceTimeout fn q s = _
      unfold execMsixCoalesceTimeout
      refine if_neg fun c => ?_
      obtain ⟨-, -, some, due⟩ := c
      obtain none | before := early
      · omega
      · exact absurd due (by simpa using before)
    · have run : exec (.msixCoalesceTimeout fn q) s = .next ((s.setQueue fn q { s.queue fn q with unannounced := 0 }).sendVector fn (q.val + 1)) := by
        show execMsixCoalesceTimeout fn q s = _
        unfold execMsixCoalesceTimeout
        exact if_pos ⟨cqEn, intEn, some, due⟩
      have set := s.queue_setQueue_same fn q { s.queue fn q with unannounced := 0 }
      have function : (s.setQueue fn q { s.queue fn q with unannounced := 0 }).fn fn = (s.fn fn).setQueue q { s.queue fn q with unannounced := 0 } :=
        State.fn_setFn_same _ _ _
      have rest : s.setQueue fn q { s.queue fn q with unannounced := 0 } =
        { s with host := (s.setQueue fn q { s.queue fn q with unannounced := 0 }).host } := rfl
      generalize s.setQueue fn q { s.queue fn q with unannounced := 0 } = a at run set function rest
      obtain ⟨sent, held⟩ := a.sendVector_sends fn (q.val + 1)
      obtain ⟨h, o, frame⟩ := a.sendVector_frame fn (q.val + 1)
      rw [function] at sent held
      have out : a.out = s.out := by rw [rest]
      refine ⟨_, run, ?_, (a.queue_sendVector _ _ _ _).trans set, fun open_ sends => ?_, fun hold => ?_⟩
      · rw [frame, rest]
      · rw [sent open_ sends, out]
        rfl
      · obtain ⟨nothing, pending⟩ := held hold
        exact ⟨nothing.trans out, pending⟩
  · intro fn q val s phase up small off en low high
    exact ⟨_, exec_queueConfigWrite_sqCfg val phase up small (State.writeSqCfg_enables val off en low high), rfl, State.queue_setQueue_same _ _ _ _⟩

end Settled
end

section
/-! SUPPORT. How a request ends: its response leaves, and nothing works for it any more (R57, R61, R475). -/

set_option Elab.async false

namespace Sys2Proof.Machine
variable {s t u : State}

/-! ### Messages -/

/-- Only the links and the scheduling points differ. -/
def State.MsgsOnly (s t : State) : Prop := t = { s with urdun := t.urdun, points := t.points }

theorem State.MsgsOnly.trans (a : s.MsgsOnly t) (b : t.MsgsOnly u) : s.MsgsOnly u := by
  unfold State.MsgsOnly at *
  rw [b, a]

theorem State.MsgsOnly.foldl {α : Type} {f : State → α → State} (step : ∀ (v : State) x, v.MsgsOnly (f v x)) (l : List α) (s : State) :
    s.MsgsOnly (l.foldl f s) :=
  List.foldlRecOn (motive := (s.MsgsOnly ·)) l f rfl fun _ h x _ => h.trans (step _ x)

theorem State.dropMsgs_msgsOnly (s : State) (p : UMsg → Bool) : s.MsgsOnly (s.dropMsgs p) := by
  unfold State.dropMsgs
  extract_lets gone _ s1
  split
  · rfl
  · have first : s.MsgsOnly s1 := rfl
    refine first.trans (.foldl (fun v pt => ?_) _ s1)
    rfl

theorem State.queueUnit_msgsOnly (s : State) (pt : Nat) (v : SUnit) : s.MsgsOnly (s.queueUnit pt v) := by
  unfold State.queueUnit
  dsimp only
  split <;> rfl

theorem State.routeMsg_msgsOnly (s : State) (mid : Nat) : s.MsgsOnly (s.routeMsg mid) := by
  unfold State.routeMsg
  split
  · rfl
  · split
    · rfl
    · extract_lets _ s1
      have first : s.MsgsOnly s1 := rfl
      exact first.trans (.foldl (fun v f => v.queueUnit_msgsOnly _ _) _ s1)

theorem State.sendMsg_msgsOnly (s : State) (m : UMsg) : s.MsgsOnly (s.sendMsg m) := by
  unfold State.sendMsg
  extract_lets mid
  exact .trans (t := { s with urdun := { s.urdun with
    nextMid := mid + 1
    msgs := Store.insert s.urdun.msgs mid m
    waiting := s.urdun.waiting ++ [mid] } }) rfl (State.routeMsg_msgsOnly _ _)

/-! ### The work for a request -/

/-- A lower-tier read that a request no longer waits for. -/
def LtRead.without (rid : Nat) (r : LtRead) : LtRead := { r with waiters := r.waiters.filter (· != .req rid) }

/-- Rills of which none serves a request any more. -/
theorem State.idleRills_idles (s : State) (rid : Nat) : ∃ f h, s.idleRills rid = { s with fabric := f, hbm := h } ∧
    (∀ k v, Store.find? f.rills k = some v → v.rid ≠ some rid) ∧ h.dram = s.hbm.dram := by
  unfold State.idleRills
  extract_lets f rills srams h passes leaving
  have kept := State.settleMaps_rillsKept ({ s with
    fabric := { f with rills := rills, srams := srams, water := f.water.drop rid }
    hbm := { h with passes := passes, leaving := leaving } } : State)
  refine ⟨_, _, kept.rest, fun k v found => ?_, rfl⟩
  rw [kept.rills] at found
  obtain ⟨p, -, hp⟩ := List.mem_map.mp (List.mem_of_mem_filter (Store.mem_of_find? found))
  obtain rfl : (if p.2.rid = some rid then ({ p.2 with heaps := p.2.heaps.filter (fun h => h.rid != rid) } : Rill).stop
    else { p.2 with heaps := p.2.heaps.filter (fun h => h.rid != rid) }) = v := congrArg Prod.snd hp
  split
  · nofun
  next other => exact other

/-- What the freeing of a request's work leaves: no unit, part, window or read works for it; the others of the reads stand, and the
requests, the registers, what has left and what the stacks hold do. -/
structure State.WorkFreed (s t : State) (rid : Nat) : Prop where
  rest : t = { s with fabric := t.fabric, hbm := t.hbm, windows := t.windows, partsOut := t.partsOut, mem := t.mem, urdun := t.urdun
                      points := t.points }
  mem : t.mem = { s.mem with reads := s.mem.reads.map (LtRead.without rid) }
  dram : t.hbm.dram = s.hbm.dram
  noWork : t.NoWork rid

theorem State.foldl_setSpout_form (l : List (Nat × Spout)) (f : Nat × Spout → Spout) (s : State) : ∃ sp,
    l.foldl (fun (t : State) p => t.setSpout p.1 (f p)) s = { s with hbm := { s.hbm with spouts := sp } } := by
  induction l generalizing s with
  | nil => exact ⟨s.hbm.spouts, rfl⟩
  | cons p l ih => exact ih (s.setSpout p.1 (f p))

theorem State.freeWork_freed (s : State) (rid : Nat) : s.WorkFreed (s.freeWork rid) rid := by
  obtain ⟨f, h, idle, rills, dram⟩ := s.idleRills_idles rid
  unfold State.freeWork
  extract_lets s1 s2 wins reads _ _ s3
  have first : s1 = { s with fabric := f, hbm := h } := idle
  clear_value s1
  subst first
  obtain ⟨sp, spouts⟩ := State.foldl_setSpout_form
    (h.spouts.filter (fun p => p.2.ctxs.any (fun c => (c.2.query.map Prod.fst) == some rid)))
    (fun p => { p.2 with ctxs := p.2.ctxs.filter (fun c => (c.2.query.map Prod.fst) != some rid) }) { s with fabric := f, hbm := h }
  have second : s2 = _ := spouts
  clear_value s2
  subst second
  have last := s3.dropMsgs_msgsOnly (fun m => m.rid == some rid && m.kind == .part)
  generalize s3.dropMsgs (fun m => m.rid == some rid && m.kind == .part) = t at last ⊢
  exact {
    rest := by rw [last]
    mem := by rw [last]; rfl
    dram := by rw [last]; exact dram
    noWork := by
      rw [last]
      refine ⟨rills, fun p mem => ?_, fun w mem m hm => ?_, fun q mem => ?_⟩
      · simpa using (List.mem_filter.mp mem).2
      · obtain ⟨v, -, rfl⟩ := List.mem_map.mp (List.mem_of_mem_filter mem)
        simpa using (List.mem_filter.mp hm).2
      · obtain ⟨r, -, rfl⟩ := List.mem_map.mp mem
        intro waits
        simpa using (List.mem_filter.mp waits).2 }

/-! ### A completion that is owed -/

/-- Completions are written: the host port, what leaves the node, one counter of the function and requests that go with them apart, the
node stands. -/
structure State.Completed (s t : State) (f : Nat) : Prop where
  rest : t = { s with host := t.host, reqs := t.reqs, out := t.out, regs := t.regs }
  only : OnlyRegs s t [instKey Reg.HQ_CNT f]
  sent : ∃ more, t.out = s.out ++ more
  reqs : ∀ k, t.req? k = s.req? k ∨ t.req? k = none

namespace State.Completed
variable {f n : Nat}

theorem refl (s : State) (f : Nat) : s.Completed s f := ⟨rfl, .refl _ _, ⟨[], (List.append_nil _).symm⟩, fun _ => .inl rfl⟩

theorem trans (a : s.Completed t f) (b : t.Completed u f) : s.Completed u f where
  rest := by rw [b.rest, a.rest]
  only := a.only.trans b.only
  sent := by
    obtain ⟨x, hx⟩ := a.sent
    obtain ⟨y, hy⟩ := b.sent
    exact ⟨x ++ y, by rw [hy, hx, List.append_assoc]⟩
  reqs k := by
    obtain h | h := b.reqs k
    · rw [h]
      exact a.reqs k
    · exact .inr h

theorem emit (s : State) (o : Out) (f : Nat) : s.Completed (s.emit o) f := ⟨rfl, .of_regs rfl, ⟨[o], rfl⟩, fun _ => .inl rfl⟩

theorem setQueue (s : State) (q : Nat) (v : Queue) : s.Completed (s.setQueue f q v) f :=
  ⟨rfl, .of_regs rfl, ⟨[], (List.append_nil _).symm⟩, fun _ => .inl rfl⟩

theorem dropReq (s : State) (rid : Option Nat) (f : Nat) : s.Completed (s.dropReq rid) f := by
  cases rid with
  | none => exact refl s f
  | some r =>
    refine ⟨rfl, .of_regs rfl, ⟨[], (List.append_nil _).symm⟩, fun k => ?_⟩
    by_cases here : k = r
    · rw [here]
      exact .inr (Store.find?_erase_same _ _)
    · exact .inl (Store.find?_erase_other _ _ _ here)

theorem sendVector (s : State) (v : Nat) : s.Completed (s.sendVector f v) f := by
  unfold State.sendVector
  dsimp only
  split
  · exact ⟨rfl, .of_regs rfl, ⟨[], (List.append_nil _).symm⟩, fun _ => .inl rfl⟩
  · exact emit s _ f

theorem counted (s : State) {f k : Nat} (hk : k = instKey Reg.HQ_CNT f) : s.Completed (s.bumpSat k 32 32 1) f := by
  have only : OnlyRegs s (s.bumpSat k 32 32 1) [k] := .bumpSat _ _ _ _ List.mem_cons_self
  exact ⟨rfl, fun j h => only j (by rwa [hk]), ⟨[], (List.append_nil _).symm⟩, fun _ => .inl rfl⟩

theorem discard (s : State) (f : Nat) : s.Completed (s.discard f) f := counted s rfl

theorem writeCq (s : State) (n : Nat) (o : Owed) : s.Completed (s.writeCq f n o) f := by
  unfold State.writeCq
  extract_lets q fits qst bytes n64 stat ent s1 s2 size ann due q1 s3
  have first : s.Completed s1 f := by
    show s.Completed (if _ then _ else _) f
    split
    · exact refl s f
    · exact emit s _ f
  have third : s.Completed s3 f := first.trans ((emit s1 _ f).trans ((setQueue s2 n q1).trans (dropReq _ _ f)))
  split
  · exact third.trans (sendVector s3 _)
  · exact third

theorem flushList (l : List Owed) (s : State) : s.Completed (s.flushList f n l) f := by
  induction l generalizing s with
  | nil => exact setQueue s n _
  | cons o l ih =>
    unfold State.flushList
    split
    · exact setQueue s n _
    · exact (writeCq s n o).trans (ih _)

theorem owe (s : State) (f n : Nat) (o : Owed) : s.Completed (s.owe f n o) f := by
  unfold State.owe
  extract_lets q
  split
  · exact (setQueue s n _).trans (flushList _ _)
  · exact (setQueue s n _).trans ((dropReq _ _ f).trans (discard _ f))

end State.Completed

/-! ### The response -/

/-- The registers that an answer may write, one copy standing for all. -/
def answerRegs : List Nat := [Reg.GSJ_CNT_WINDOWS, Reg.CIST_MAPCACHE_STATUS, Reg.WEIR_CNT_DUP, Reg.WEIR_CNT_TIE, Reg.HQ_CNT]

/-- The request `rid`, which was `r`, is answered with `resp`: its response leaves, it is answered or gone, nothing works for it, no page is
lost and no other request changes but by going. -/
structure State.Answered (s t : State) (rid : Nat) (r : Req) (resp : Resp) : Prop where
  response : ∃ rest, t.out = s.out ++
    Out.response r.record.reqId (respBytes r.record.reqId r.record.slice r.record.attempt resp) :: rest
  req : t.req? rid = none ∨ ∃ q, t.req? rid = some q ∧ q.life = .answered ∧ q.resp = some resp
  others : ∀ k, k ≠ rid → t.req? k = s.req? k ∨ t.req? k = none
  noWork : t.NoWork rid
  lost : t.mem.lost = s.mem.lost
  reads : ∃ more, t.mem.reads = s.mem.reads.map (LtRead.without rid) ++ more ∧ ∀ q ∈ more, q.waiters = [] ∧ ∃ n, q.target = .page (mapLpn n)
  regs : ∀ k, k % 524288 ∉ answerRegs → t.reg k = s.reg k

namespace State.Answered
variable {rid : Nat} {r : Req} {resp : Resp}

/-- A message that is sent after the answer. -/
theorem msgs (a : s.Answered t rid r resp) (b : t.MsgsOnly u) : s.Answered u rid r resp := by
  unfold State.MsgsOnly at b
  have req (k : Nat) : u.req? k = t.req? k := by rw [b]; rfl
  exact {
    response := by rw [b]; exact a.response
    req := by rw [req]; exact a.req
    others := fun k h => by rw [req]; exact a.others k h
    noWork := .of_eq _ a.noWork (by rw [b]) (by rw [b]) (by rw [b]) (by rw [b])
    lost := by rw [b]; exact a.lost
    reads := by rw [b]; exact a.reads
    regs := fun k h => ((OnlyRegs.of_regs (ks := []) (by rw [b])) k List.not_mem_nil).trans (a.regs k h) }

/-- A completion that is written or owed after the answer. -/
theorem completed {f : Nat} (a : s.Answered t rid r resp) (b : t.Completed u f) : s.Answered u rid r resp where
  response := by
    obtain ⟨x, hx⟩ := a.response
    obtain ⟨y, hy⟩ := b.sent
    exact ⟨x ++ y, by rw [hy, hx, List.append_assoc, List.cons_append]⟩
  req := by
    obtain h | h := b.reqs rid
    · rw [h]
      exact a.req
    · exact .inl h
  others k other := by
    obtain h | h := b.reqs k
    · rw [h]
      exact a.others k other
    · exact .inr h
  noWork := .of_eq _ a.noWork (by rw [b.rest]) (by rw [b.rest]) (by rw [b.rest]) (by rw [b.rest])
  lost := by
    rw [b.rest]
    exact a.lost
  reads := by
    rw [b.rest]
    exact a.reads
  regs k h := by
    refine (b.only k fun c => h ?_).trans (a.regs k h)
    rw [List.mem_singleton.mp c, instKey_mod (by decide)]
    simp [answerRegs]

end State.Answered

theorem State.closeWindow_closes (s : State) (rid : Nat) : s.closeWindow rid = { s with reqs := (s.closeWindow rid).reqs, regs := (s.closeWindow rid).regs } ∧
    OnlyRegs s (s.closeWindow rid) [Reg.GSJ_CNT_WINDOWS] ∧ ∀ k, k ≠ rid → (s.closeWindow rid).req? k = s.req? k := by
  unfold State.closeWindow
  split
  · split
    · have set : OnlyRegs s (s.modReq rid fun q => { q with winOpen := false }) [Reg.GSJ_CNT_WINDOWS] := .of_regs rfl
      exact ⟨rfl, set.trans (.bump _ _ _ _ List.mem_cons_self), fun k other => s.req?_modReq_other rid k _ other⟩
    · exact ⟨rfl, .refl _ _, fun _ _ => rfl⟩
  · exact ⟨rfl, .refl _ _, fun _ _ => rfl⟩

/-- At most the counters of an answer's copies and ties differ. -/
def State.AnswerCounts (s t : State) : Prop := t = { s with regs := t.regs } ∧ OnlyRegs s t [Reg.WEIR_CNT_DUP, Reg.WEIR_CNT_TIE]

theorem State.answerCounts_only (s : State) (b : Bool) (resp : Resp) : s.AnswerCounts
    (if b then s else (s.bump Reg.WEIR_CNT_DUP 0 64 resp.dupCount).bump Reg.WEIR_CNT_TIE 0 64 resp.tieExcl) := by
  split
  · exact ⟨rfl, .refl _ _⟩
  · have first : OnlyRegs s (s.bump Reg.WEIR_CNT_DUP 0 64 resp.dupCount) [Reg.WEIR_CNT_DUP, Reg.WEIR_CNT_TIE] :=
      .bump _ _ _ _ List.mem_cons_self
    exact ⟨rfl, first.trans (.bump _ _ _ _ (List.mem_cons_of_mem _ List.mem_cons_self))⟩

/-- The node with the response of a request formed and left, before it goes on its way. -/
def State.answering (s : State) (rid : Nat) (r : Req) (resp : Resp) : State :=
  let s2 := ((s.freeWork rid).closeWindow rid).setReq rid { r with
    life := .answered
    resp := some resp
    winOpen := false
    work := if decide (resp.status = stDeadlineMissed ∨ resp.status = stTierLate) then {} else r.work }
  let s2' := if opUsesIndex r.op then s2.freeUnseen r.hdr.index.toNat else s2
  (if s.unsendable r then s2' else (s2'.bump Reg.WEIR_CNT_DUP 0 64 resp.dupCount).bump Reg.WEIR_CNT_TIE 0 64 resp.tieExcl).emit
    (.response r.record.reqId (respBytes r.record.reqId r.record.slice r.record.attempt resp))

/-- The response of a request that is held leaves, and goes on its way over a port or a queue. -/
theorem State.respond_of_held {rid : Nat} {r : Req} (held : s.req? rid = some r) (resp : Resp) : s.respond rid resp =
    match r.record.src with
    | .port p src => (s.answering rid r resp).sendMsg ⟨.response, (r.dest src p).1, (r.dest src p).2, r.cls,
        if r.nodePart then 16 else r.hdr.slice.toNat, some rid, r.record.deadline + 100000, none,
        respBytes r.record.reqId r.record.slice r.record.attempt resp⟩
    | .host f q tag addr len => if r.orphan then ((s.answering rid r resp).dropReq (some rid)).discard f
        else (s.answering rid r resp).owe f q ⟨some rid, tag, addr, len, 0, r.record.reqId,
          respBytes r.record.reqId r.record.slice r.record.attempt resp, r.record.deadline + 100000⟩ := by
  unfold State.respond
  rw [held]
  rfl

/-- Registers that an answer may write are written after it, and something leaves. -/
theorem State.Answered.of_counted {rid : Nat} {r : Req} {resp : Resp} {o : Out} (c : t.AnswerCounts u) (a : s.Answered (t.emit o) rid r resp) :
    s.Answered (u.emit o) rid r resp := by
  obtain ⟨rest, only⟩ := c
  have req (k : Nat) : (u.emit o).req? k = (t.emit o).req? k := by rw [rest]; rfl
  exact {
    response := by rw [rest]; exact a.response
    req := by rw [req]; exact a.req
    others := fun k h => by rw [req]; exact a.others k h
    noWork := .of_eq _ a.noWork (by rw [rest]; rfl) (by rw [rest]; rfl) (by rw [rest]; rfl) (by rw [rest]; rfl)
    lost := by rw [rest]; exact a.lost
    reads := by rw [rest]; exact a.reads
    regs := fun k h => by
      refine Eq.trans ?_ (a.regs k h)
      refine only k fun c => h ?_
      obtain rfl | rfl : k = Reg.WEIR_CNT_DUP ∨ k = Reg.WEIR_CNT_TIE := by simpa using c
      · decide
      · decide }

theorem State.answering_answered {rid : Nat} (s : State) (r : Req) (resp : Resp) : s.Answered (s.answering rid r resp) rid r resp := by
  have freed := s.freeWork_freed rid
  obtain ⟨rest, only, others⟩ := (s.freeWork rid).closeWindow_closes rid
  have noWork : ((s.freeWork rid).closeWindow rid).NoWork rid :=
    .of_eq _ freed.noWork (by rw [rest]) (by rw [rest]) (by rw [rest]) (by rw [rest])
  have mem : ((s.freeWork rid).closeWindow rid).mem = { s.mem with reads := s.mem.reads.map (LtRead.without rid) } := by
    rw [rest]
    exact freed.mem
  have out : ((s.freeWork rid).closeWindow rid).out = s.out := by
    rw [rest]
    show (s.freeWork rid).out = _
    rw [freed.rest]
  have req (k : Nat) (other : k ≠ rid) : ((s.freeWork rid).closeWindow rid).req? k = s.req? k := by
    rw [others k other]
    unfold State.req?
    rw [freed.rest]
  have regs (k : Nat) (h : k ∉ [Reg.GSJ_CNT_WINDOWS]) : ((s.freeWork rid).closeWindow rid).reg k = s.reg k :=
    (only k h).trans (OnlyRegs.of_regs (ks := []) (by rw [freed.rest]) k List.not_mem_nil)
  unfold State.answering
  generalize (s.freeWork rid).closeWindow rid = s1 at *
  extract_lets s2 s2'
  have answered : s2.req? rid = some _ := State.req?_setReq_same _ _ _
  have stands (k : Nat) (other : k ≠ rid) : s2.req? k = s1.req? k := State.req?_setReq_other _ _ _ _ other
  have second : s2 = { s1 with reqs := s2.reqs } := rfl
  clear_value s2
  have free : s2.Freed s2' := by
    show s2.Freed (if opUsesIndex r.op then s2.freeUnseen r.hdr.index.toNat else s2)
    split
    · exact .freeUnseen _ _
    · exact .refl _
  clear_value s2'
  have counts := s2'.answerCounts_only (s.unsendable r) resp
  refine .of_counted (r := r) counts ?_
  have reads := free.reads
  have lost := free.lost
  have only := free.only
  have working := free.noWork (.of_eq _ noWork (by rw [second]) (by rw [second]) (by rw [second]) (by rw [second]))
  have rest' := free.rest
  rw [second] at reads lost
  have outs : s2'.out = s.out := by rw [rest', second, ← out]
  exact {
    response := ⟨[], congrArg (· ++ _) outs⟩
    req := .inr ⟨_, by
      show s2'.req? rid = _
      rw [rest']
      exact answered, rfl, rfl⟩
    others := fun k other => .inl (by
      show s2'.req? k = _
      rw [rest']
      exact (stands k other).trans (req k other))
    noWork := .of_eq _ working rfl rfl rfl rfl
    lost := by
      show s2'.mem.lost = _
      rw [lost]
      exact congrArg (·.lost) mem
    reads := by
      obtain ⟨more, eq, idle⟩ := reads
      refine ⟨more, ?_, idle⟩
      show s2'.mem.reads = _
      rw [eq]
      exact congrArg (·.reads ++ more) mem
    regs := fun k h => by
      have kept : k ∉ [Reg.CIST_MAPCACHE_STATUS] := fun c => h (by rw [List.mem_singleton.mp c]; decide)
      have mine : k ∉ [Reg.GSJ_CNT_WINDOWS] := fun c => h (by rw [List.mem_singleton.mp c]; decide)
      exact ((only k kept).trans (OnlyRegs.of_regs (ks := []) (by rw [second]) k List.not_mem_nil)).trans (regs k mine) }

theorem State.respond_answers {rid : Nat} {r : Req} (held : s.req? rid = some r) (resp : Resp) : s.Answered (s.respond rid resp) rid r resp := by
  have answered := State.answering_answered (rid := rid) s r resp
  rw [State.respond_of_held held]
  split
  · exact answered.msgs (State.sendMsg_msgsOnly _ _)
  · split
    · exact answered.completed (.trans (.dropReq _ _ _) (.discard _ _))
    · exact answered.completed (.owe _ _ _ _)

/-! ### The end of a request -/

/-- The counter of the status that a request ends with is raised. -/
def State.endCounted (s : State) (st : Nat) : State :=
  if st = stStaleEpoch then s.bump Reg.EPOCH_CNT_STALE 0 64 1
  else if st = stStaleMap then s.bump Reg.SLC_CNT 0 32 1
  else if st = stTierLate then s.bumpSat Reg.MEM_CNT_TIER 0 32 1
  else if st = stTierFailed then s.bumpSat Reg.MEM_CNT_TIER 32 32 1
  else s

theorem State.endCounted_form (s : State) (st : Nat) : s.endCounted st = { s with regs := (s.endCounted st).regs } ∧
    OnlyRegs s (s.endCounted st) [Reg.EPOCH_CNT_STALE, Reg.SLC_CNT, Reg.MEM_CNT_TIER] := by
  unfold State.endCounted
  split
  · exact ⟨rfl, .bump _ _ _ _ (by simp)⟩
  · split
    · exact ⟨rfl, .bump _ _ _ _ (by simp)⟩
    · split
      · exact ⟨rfl, .bumpSat _ _ _ _ (by simp)⟩
      · split
        · exact ⟨rfl, .bumpSat _ _ _ _ (by simp)⟩
        · exact ⟨rfl, .refl _ _⟩

/-- A request that is held and not answered ends at once: it is answered with the response of R61. -/
theorem State.endNow_answers {rid : Nat} {r : Req} (held : s.req? rid = some r) (waits : r.life ≠ .answered) (st : Nat) :
    (s.endCounted st).Answered (s.endNow rid st) rid r (s.failResp r st) := by
  have form := (s.endCounted_form st).1
  have same : s.endNow rid st = (s.endCounted st).respond rid ((s.endCounted st).failResp r st) := by
    unfold State.endNow
    rw [held]
    dsimp only
    rw [if_neg waits]
    rfl
  have resp : (s.endCounted st).failResp r st = s.failResp r st := by
    rw [form]
    rfl
  rw [same, resp]
  refine State.respond_answers ?_ _
  rw [form]
  exact held

theorem State.Ends.of_answered {rid st : Nat} {r : Req} (held : s.req? rid = some r) (counts : u = { s with regs := u.regs })
    (a : u.Answered t rid r (s.failResp r st)) : s.Ends t rid st := by
  refine ⟨r, held, ?_, a.req, a.noWork⟩
  have out : u.out = s.out := by rw [counts]
  rw [← out]
  exact a.response

/-- A request that is held and not answered ends. -/
theorem State.endNow_ends {rid : Nat} {r : Req} (held : s.req? rid = some r) (waits : r.life ≠ .answered) (st : Nat) :
    s.Ends (s.endNow rid st) rid st :=
  .of_answered held (s.endCounted_form st).1 (State.endNow_answers held waits st)

theorem State.endWith_of_held {rid : Nat} {r : Req} (held : s.req? rid = some r) (st : Nat) :
    s.endWith rid st = s.endNow rid (s.dueStatus r.hdr.deadline (.req rid) st) := by
  unfold State.endWith
  rw [held]

/-- Before DEADLINE a request ends with the status that its fault gives. -/
theorem State.dueStatus_early {d : Time} (early : s.now.toNat < d.toNat) (w : Waiter) (st : Nat) : s.dueStatus d w st = st :=
  if_neg (Nat.not_le_of_lt early)

theorem State.endWith_ends {rid : Nat} {r : Req} (held : s.req? rid = some r) (waits : r.life ≠ .answered)
    (early : s.now.toNat < r.hdr.deadline.toNat) (st : Nat) : s.Ends (s.endWith rid st) rid st := by
  rw [State.endWith_of_held held, State.dueStatus_early early]
  exact State.endNow_ends held waits st

end Sys2Proof.Machine
end

section
/-! CLAIM. A deadline that arrives stops its request or part, and a response that is not delivered is dropped (R56, R57, R71). -/

set_option Elab.async false

namespace Sys2Proof.Machine
variable {s t u : State}

/-! ### Messages that are sent -/

@[simp] theorem State.queueUnit_urdun (s : State) (pt : Nat) (v : SUnit) : (s.queueUnit pt v).urdun = s.urdun := by
  unfold State.queueUnit
  dsimp only
  split <;> rfl

theorem State.foldl_urdun {α : Type} {f : State → α → State} (step : ∀ (v : State) x, (f v x).urdun = v.urdun) (l : List α) (s : State) :
    (l.foldl f s).urdun = s.urdun :=
  List.foldlRecOn (motive := (State.urdun · = s.urdun)) l f rfl fun _ h x _ => (step _ x).trans h

/-- A message that is sent stands among the messages of the links, with the port that its route names. -/
theorem State.sendMsg_sends (s : State) (m : UMsg) : ∃ p, Store.find? (s.sendMsg m).urdun.msgs s.urdun.nextMid = some { m with port := p } := by
  have sent : Store.find? (Store.insert s.urdun.msgs s.urdun.nextMid m) s.urdun.nextMid = some m := Store.find?_insert_same _ _ _
  unfold State.sendMsg State.routeMsg
  extract_lets mid _ s1
  have found : Store.find? (Store.insert s.urdun.msgs s.urdun.nextMid m) mid = some m := sent
  dsimp only
  rw [found]
  dsimp only
  split
  · exact ⟨m.port, sent⟩
  · exact ⟨_, (congrArg (fun v : Urdun => Store.find? v.msgs mid) (State.foldl_urdun (fun _ _ => State.queueUnit_urdun _ _ _) _ _)).trans
      (Store.find?_insert_same _ _ _)⟩

/-- No message that the predicate names is left. -/
theorem State.dropMsgs_gone (s : State) (p : UMsg → Bool) : ∀ m ∈ (s.dropMsgs p).urdun.msgs, p m.2 = false := by
  unfold State.dropMsgs
  extract_lets gone _ s1
  split
  next none =>
    intro m mem
    by_contra some
    have hit : m.1 ∈ gone := List.mem_map.mpr ⟨m, List.mem_filter.mpr ⟨mem, by simpa using some⟩, rfl⟩
    rw [List.isEmpty_iff.mp none] at hit
    exact absurd hit List.not_mem_nil
  · intro m mem
    have kept : m ∈ s1.urdun.msgs := by
      refine Eq.subst (motive := fun v : Urdun => m ∈ v.msgs) (State.foldl_urdun (fun _ _ => ?_) _ _) mem
      rfl
    simpa using (List.mem_filter.mp kept).2

/-- Nothing is dropped where the predicate names no message. -/
theorem State.dropMsgs_of_none {s : State} {p : UMsg → Bool} (none : ∀ m ∈ s.urdun.msgs, p m.2 = false) : s.dropMsgs p = s :=
  if_pos (by simpa using none)

/-! ### Parts that end -/

/-- A part that this node serves is answered with `body`: it is gone, no request changes, and its reply is among the messages. -/
structure State.PartReplied (s t : State) (pid : Nat) (body : List Byte) : Prop where
  gone : Store.find? t.partsIn pid = none
  reqs : t.reqs = s.reqs
  sent : ∃ m, Store.find? t.urdun.msgs s.urdun.nextMid = some m ∧ m.kind = .partReply ∧ m.body = body

theorem State.PartReplied.of_counted {pid : Nat} {body : List Byte} (a : s.PartReplied t pid body) (b : u = { t with regs := u.regs }) :
    s.PartReplied u pid body := by
  rw [b]
  exact ⟨a.gone, a.reqs, a.sent⟩

theorem State.replyPart_replies {pid : Nat} {p : PartIn} (held : Store.find? s.partsIn pid = some p) (body : List Byte) :
    s.PartReplied (s.replyPart pid body) pid body := by
  unfold State.replyPart
  rw [held]
  extract_lets _ _ s1
  obtain ⟨f, h, idle, -, -⟩ := s1.idleRills_idles pid
  have free := State.Freed.freeUnseen (s1.idleRills pid) (partIndex p.body)
  dsimp only
  generalize s1.idleRills pid = s1' at idle free ⊢
  generalize s1'.freeUnseen (partIndex p.body) = s2 at free ⊢
  have form := free.rest
  rw [idle] at form
  generalize hm : UMsg.mk _ _ _ _ _ _ _ _ _ = m
  obtain ⟨q, sent⟩ := s2.sendMsg_sends m
  have last := s2.sendMsg_msgsOnly m
  generalize s2.sendMsg m = s3 at sent last ⊢
  have next : s2.urdun.nextMid = s.urdun.nextMid := by rw [form]
  refine ⟨?_, ?_, { m with port := q }, by rw [← next]; exact sent, by rw [← hm], by rw [← hm]⟩
  · rw [last, form]
    exact Store.find?_erase_same _ _
  · rw [last, form]

theorem State.failPart_replies {pid : Nat} {p : PartIn} (held : Store.find? s.partsIn pid = some p) (st : Nat) :
    s.PartReplied (s.failPart pid st) pid (failReply p.kind (partToken p.body) st) := by
  have replied := State.replyPart_replies held (failReply p.kind (partToken p.body) st)
  unfold State.failPart
  rw [held]
  dsimp only
  split
  · exact replied.of_counted rfl
  · split
    · exact replied.of_counted rfl
    · split
      · exact replied.of_counted rfl
      · exact replied

/-! ### Deadlines -/

/-- No lower-tier read has the waiter. -/
theorem State.readsFor_of_none {w : Waiter} (none : ∀ q ∈ s.mem.reads, w ∉ q.waiters) : s.readsFor w = false := by
  simpa [State.readsFor] using none

theorem State.readsFor_of_some {w : Waiter} (some : ∃ q ∈ s.mem.reads, w ∈ q.waiters) : s.readsFor w = true := by
  simpa [State.readsFor] using some

/-- The status of a fault that is the one of a deadline stands. -/
theorem State.dueStatus_deadline (s : State) (d : Time) (w : Waiter) :
    s.dueStatus d w (if s.readsFor w then stTierLate else stDeadlineMissed) = if s.readsFor w then stTierLate else stDeadlineMissed := by
  unfold State.dueStatus
  split <;> rfl

/-- A request that is held and not answered is stopped when its DEADLINE arrives. -/
theorem exec_deadlineArrival_ends {rid : Nat} {r : Req} (held : s.req? rid = some r) (waits : r.life ≠ .answered)
    (late : r.record.deadline.toNat ≤ s.now.toNat) : Completes (.deadlineArrival rid) s
      (fun t => s.Ends t rid (if s.readsFor (.req rid) then stTierLate else stDeadlineMissed)) := by
  refine ⟨_, ?_, State.endNow_ends held waits _⟩
  show execDeadlineArrival rid s = _
  unfold execDeadlineArrival
  rw [held]
  dsimp only
  rw [if_neg (not_or.mpr ⟨waits, Nat.not_lt.mpr late⟩), State.endWith_of_held held]
  exact congrArg (fun st => Host.Outcome.next (s.endNow rid st)) (s.dueStatus_deadline _ (.req rid))

theorem exec_deadlineArrival_part {pid : Nat} {p : PartIn} (other : s.req? pid = none) (held : Store.find? s.partsIn pid = some p)
    (late : (partDeadline p.body).toNat ≤ s.now.toNat) (none : ∀ q ∈ s.mem.reads, Waiter.part pid ∉ q.waiters) :
    exec (.deadlineArrival pid) s = .next (s.failPart pid stDeadlineMissed) := by
  show execDeadlineArrival pid s = _
  unfold execDeadlineArrival
  rw [other]
  dsimp only
  rw [held]
  dsimp only
  rw [if_neg (Nat.not_lt.mpr late)]
  exact congrArg (fun b : Bool => Host.Outcome.next (s.failPart pid (if b then stTierLate else stDeadlineMissed))) (State.readsFor_of_none none)

/-! ### Responses that are dropped -/

/-- With no part reply about, RESPONSE_DROP drops the answered request of a port and its response. -/
theorem exec_responseDrop_port {rid : Nat} {r : Req} {port : Fin 8} {a : U64} (held : s.req? rid = some r) (answered : r.life = .answered)
    (src : r.src = .port port a) (late : r.record.deadline.toNat + 100000 ≤ s.now.toNat) (noReply : ∀ m ∈ s.urdun.msgs, m.2.kind ≠ .partReply) :
    exec (.responseDrop rid) s = .next (((s.dropMsgs (fun m => m.kind == .response && m.rid == some rid)).dropReq (some rid)).countUndelivered 1) := by
  have young : ∀ m ∈ s.urdun.msgs, (m.2.kind == .partReply && decide (m.2.deadline.toNat ≤ s.now.toNat)) = false := fun m mem => by
    simp [noReply m mem]
  have old : s.dropOldReplies = s := by
    unfold State.dropOldReplies
    extract_lets gone
    have none : s.urdun.msgs.filter (fun q => gone q.2) = [] := List.filter_eq_nil_iff.mpr fun m mem => by
      rw [show gone m.2 = false from young m mem]
      decide
    rw [State.dropMsgs_of_none young, none]
    rfl
  show execResponseDrop rid s = _
  unfold execResponseDrop
  rw [old]
  dsimp only
  rw [held]
  dsimp only
  rw [if_neg (not_or.mpr ⟨not_not.mpr answered, Nat.not_lt.mpr late⟩), src]

end Sys2Proof.Machine

section Settled
open Sys2Proof Sys2Proof.Machine

/-- Settles O15: a held request ends with the status of its deadline, TIER_LATE exactly while a lower-tier read has it as a waiter. -/
theorem deadlineStops : Obligations.DeadlineStops := by
  unfold Obligations.DeadlineStops
  refine ⟨fun rid s r held waits late none => ?_, fun rid s r held waits late some => ?_,
    fun pid s p other held late none => ⟨_, exec_deadlineArrival_part other held late none, ?_⟩,
    fun rid s r port a held answered src late noReply => ⟨_, exec_responseDrop_port held answered src late noReply, ?_⟩⟩
  · have ends := exec_deadlineArrival_ends held waits late
    rwa [State.readsFor_of_none none] at ends
  · have ends := exec_deadlineArrival_ends held waits late
    rwa [State.readsFor_of_some some] at ends
  · obtain ⟨gone, reqs, sent⟩ := State.failPart_replies held stDeadlineMissed
    exact ⟨gone, reqs, sent⟩
  · have dropped := s.dropMsgs_msgsOnly (fun m => m.kind == .response && m.rid == some rid)
    have gone := s.dropMsgs_gone (fun m => m.kind == .response && m.rid == some rid)
    generalize s.dropMsgs (fun m => m.kind == .response && m.rid == some rid) = t at dropped gone ⊢
    refine ⟨Store.find?_erase_same _ _, ?_, fun m mem same => ?_, ?_, ?_⟩
    · show t.hwReq.undelivered + 1 = _
      rw [dropped]
    · have hit := gone m mem
      rw [same.1, same.2] at hit
      simp at hit
    · show t.out = _
      rw [dropped]
    · show t.indexes = _
      rw [dropped]

end Settled
end

section
/-! CLAIM. Parts of requests: their admission, their replies and their resending (R153, R232, R415, R419, R561). -/

set_option Elab.async false

namespace Sys2Proof.Machine
variable {s t u : State}

/-! ### Parts that are sent again -/

theorem adrNode_mkAdr {node : Nat} (h : node < 4096) : adrNode (mkAdr node 0) = node := by
  unfold adrNode mkAdr field bitsOf
  rw [BitVec.toNat_ofNat]
  omega

/-- The parts with a token are no longer to be sent again. -/
def State.unbusy (s : State) (token : Nat) : State :=
  { s with partsOut := s.partsOut.map (fun (q : PartOut) => if q.token = token then { q with busy := false } else q) }

theorem State.unbusy_idle (s : State) (token : Nat) : ∀ q ∈ (s.unbusy token).partsOut, q.token = token → q.busy = false := by
  intro q mem same
  obtain ⟨p, -, rfl⟩ := List.mem_map.mp mem
  split
  · rfl
  next other =>
    rw [if_neg other] at same
    exact absurd same other

section Resend
variable {token : Nat} {p : PartOut}

theorem exec_partResend_late (found : s.partsOut.find? (fun q => q.token == token && q.busy && !q.done) = some p)
    (late : (partDeadline p.body).toNat ≤ s.now.toNat) : exec (.partResend token) s = .next s := by
  show execPartResend token s = _
  unfold execPartResend
  rw [found]
  exact if_pos late

theorem exec_partResend_early (found : s.partsOut.find? (fun q => q.token == token && q.busy && !q.done) = some p)
    (early : s.now.toNat < (partDeadline p.body).toNat) : exec (.partResend token) s = .next ((s.unbusy token).sendPart p) := by
  show execPartResend token s = _
  unfold execPartResend
  rw [found]
  exact if_neg (Nat.not_le.mpr early)

/-- The route of the shard that a part of a request is for. -/
def State.partRoute (s : State) (p : PartOut) (r : Req) (x : Index) : U64 :=
  s.reg (instKey Reg.URD_ROUTE_DATA (r.hdr.index.toNat + 32 * x.shards.idxOf p.shard))

variable {r : Req} {x : Index} (held : s.req? p.rid = some r) (index : s.index? r.hdr.index.toNat = some x)
include held index

/-- A part whose route names another node is sent to it. -/
theorem State.sendPart_away (valid : bit (s.partRoute p r x) 12 = true) (away : field (s.partRoute p r x) 0 12 ≠ s.ownNode) :
    s.sendPart p = s.sendMsg ⟨.part, mkAdr (field (s.partRoute p r x) 0 12) 0, none, r.cls, if r.nodePart then 16 else r.hdr.slice.toNat,
      some p.rid, r.hdr.deadline, none, p.body⟩ := by
  have notHere : ¬ (bit (s.partRoute p r x) 12 && decide (field (s.partRoute p r x) 0 12 = s.ownNode)) = true := by simp [valid, away]
  unfold State.sendPart
  rw [held]
  dsimp only
  rw [index]
  exact (if_neg notHere).trans (if_pos valid)

/-- A part whose route names this node ends its request. -/
theorem State.sendPart_here (valid : bit (s.partRoute p r x) 12 = true) (here : field (s.partRoute p r x) 0 12 = s.ownNode) :
    s.sendPart p = s.endWith p.rid stBadDescriptor := by
  have isHere : (bit (s.partRoute p r x) 12 && decide (field (s.partRoute p r x) 0 12 = s.ownNode)) = true := by simp [valid, here]
  unfold State.sendPart
  rw [held]
  dsimp only
  rw [index]
  exact if_pos isHere

end Resend

/-- A request that ends where only the parts differ ends all the same. -/
theorem State.Ends.of_parts {ps : List PartOut} {rid st : Nat} (h : ({ s with partsOut := ps } : State).Ends t rid st) : s.Ends t rid st := h

/-! ### Parts that arrive -/

section Arrival
variable (gather : Bool) (port : Fin 8) (src : U64) (body : List Byte)

/-- The kind of a part. -/
def partKind (gather : Bool) : PartKind := if gather then .gather else .rerank

theorem exec_part (s : State) : exec (if gather then .gatherPart port src body else .rerankPart port src body) s =
    .next (s.fireDue.partArrives (partKind gather) port src body) := by
  cases gather <;> rfl

theorem exec_reply (s : State) : exec (if gather then .gatherReply port src body else .rerankReply port src body) s =
    .next (s.partReply body) := by
  cases gather <;> rfl

theorem State.partArrives_full (kind : PartKind) (full : s.roomFor (s.partSlice body) body.length = false) : s.partArrives kind port src body =
    (s.takeFree 32).2.admitMsg port src (s.takeFree 32).1.toNat (BitVec.ofNat 64 (partToken body)) true := by
  unfold State.partArrives
  extract_lets f ok s1
  have no : ok = false := full
  rw [if_neg (by rw [no]; decide)]
  show f.2.admitMsg port src f.1.toNat _ (!ok) = _
  rw [no]
  rfl

theorem State.partArrives_room (kind : PartKind) (room : s.roomFor (s.partSlice body) body.length = true) : s.partArrives kind port src body =
    ((s.takeFree 32).2.admitMsg port src (s.takeFree 32).1.toNat (BitVec.ofNat 64 (partToken body)) false).takePart kind port src body := by
  unfold State.partArrives
  extract_lets f ok s1
  have yes : ok = true := room
  rw [if_pos yes]
  show (f.2.admitMsg port src f.1.toNat _ (!ok)).takePart _ _ _ _ = _
  rw [yes]
  rfl

theorem leNat_lt (bs : List Byte) : leNat bs < 256 ^ bs.length := by
  induction bs with
  | nil => exact Nat.one_pos
  | cons b bs ih =>
    have small := b.isLt
    show b.toNat + 256 * leNat bs < 256 ^ (bs.length + 1)
    rw [pow_succ]
    omega

theorem leAt_lt (bs : List Byte) (off len : Nat) : leAt bs off len < 256 ^ len :=
  (leNat_lt _).trans_le (Nat.pow_le_pow_right (by decide) (List.length_take_le _ _))

theorem partToken_toNat : (BitVec.ofNat 64 (partToken body)).toNat = partToken body := by
  rw [BitVec.toNat_ofNat]
  exact Nat.mod_eq_of_lt (leAt_lt body 0 8)

variable {body}

theorem State.partReply_unknown (none : s.partsOut.find? (fun p => p.token == partToken body && !p.done) = none) :
    s.partReply body = s.bumpSat Reg.URD_CNT_DROP 48 16 1 := by
  unfold State.partReply
  rw [none]

theorem State.partReply_pending {p : PartOut} (found : s.partsOut.find? (fun p => p.token == partToken body && !p.done) = some p) :
    s.partReply body = s.replyFor p body := by
  unfold State.partReply
  rw [found]

end Arrival

/-! ### Replies -/

/-- What a request retains of a reply, with the part of the reply done. -/
def State.tookReply (s : State) (p : PartOut) (w : Work) : State :=
  { s.retain p.rid w with partsOut := s.partsOut.map (fun (q : PartOut) =>
      if q.token = p.token then { q with done := true, busy := false } else q) }

theorem State.tookReply_took {p : PartOut} {r : Req} (held : s.req? p.rid = some r) (w : Work) :
    s.tookReply p w = { s with reqs := (s.tookReply p w).reqs, partsOut := (s.tookReply p w).partsOut } ∧
    (s.tookReply p w).req? p.rid = some { r with work := w } ∧
    ∀ q ∈ (s.tookReply p w).partsOut, q.token = p.token → q.done = true ∧ q.busy = false := by
  refine ⟨rfl, ?_, fun q mem same => ?_⟩
  · show (s.modReq p.rid fun q => { q with work := w }).req? p.rid = _
    rw [State.modReq_of_held held]
    exact Store.find?_insert_same _ _ _
  · obtain ⟨v, -, rfl⟩ := List.mem_map.mp mem
    split
    · exact ⟨rfl, rfl⟩
    next other =>
      rw [if_neg other] at same
      exact absurd same other

/-- The queries of a request with the survivors of a re-rank reply behind those that they have. -/
def Work.withSurvivors (w : Work) (es : List (Nat × List Entry)) : Work :=
  { w with queries := (List.range w.queries.length).filterMap (fun i =>
      (w.queries[i]?).map (fun (q : QWork) => { q with surv := q.surv ++ (es.filter (fun e => e.1 == i)).flatMap Prod.snd })) }

theorem Work.withSurvivors_get {w : Work} {k : Nat} {v : QWork} (es : List (Nat × List Entry)) (found : w.queries[k]? = some v) :
    (w.withSurvivors es).queries[k]? = some { v with surv := v.surv ++ (es.filter (fun e => e.1 == k)).flatMap Prod.snd } := by
  obtain ⟨lt, rfl⟩ := List.getElem?_eq_some_iff.mp found
  have all : (w.withSurvivors es).queries = (List.finRange w.queries.length).map (fun i =>
      { w.queries[i] with surv := w.queries[i].surv ++ (es.filter (fun e => e.1 == i.val)).flatMap Prod.snd }) := by
    unfold Work.withSurvivors
    rw [← List.map_coe_finRange_eq_range, List.filterMap_map, ← List.filterMap_eq_map]
    refine List.filterMap_congr fun i _ => ?_
    simp
  rw [all]
  simp [lt]

section Reply
variable {p : PartOut} {r : Req} {x : Index} {body : List Byte} (held : s.req? p.rid = some r) (index : s.index? r.hdr.index.toNat = some x)
include held index

/-- A reply that cannot be parsed is a fault of the phase that sent its part. -/
theorem State.replyFor_short (short : body.length < 16) : s.replyFor p body = s.phaseFault p.rid ⟨0, 0, 0, none⟩ false := by
  unfold State.replyFor
  rw [held]
  dsimp only
  rw [index]
  exact if_pos (.inl short)

variable (whole : 16 ≤ body.length) (ok : byteAt body 8 = stOk)
include whole ok

/-- A good reply to a gather part brings its rows. -/
theorem State.replyFor_gathered (kind : p.kind = .gather) (reserved : leAt body 9 3 = 0)
    (count : leAt body 12 4 = ((p.groups.map Prod.snd).flatMap id).length)
    (good : (parseGathered x.desc ((p.groups.map Prod.snd).flatMap id) (body.drop 16)).2 = true) : s.replyFor p body =
      s.tookReply p { r.work with rows := r.work.rows ++ (parseGathered x.desc ((p.groups.map Prod.snd).flatMap id) (body.drop 16)).1 } := by
  have parsed : ¬ (body.length < 16 ∨ (!statusKnown (byteAt body 8)) = true) := by
    rw [ok]
    exact not_or.mpr ⟨Nat.not_lt.mpr whole, by decide⟩
  unfold State.replyFor
  rw [held]
  dsimp only
  rw [index]
  exact (if_neg parsed).trans ((if_pos kind).trans ((if_neg (not_not.mpr reserved)).trans ((if_neg (not_not.mpr ok)).trans
    (if_pos ⟨count, good⟩))))

/-- A good reply to a re-rank part brings its survivors. -/
theorem State.replyFor_survivors (kind : p.kind ≠ .gather) (reserved : byteAt body 9 = 0) (reserved' : leAt body 12 4 = 0)
    (count : leAt body 10 2 = p.groups.length) (good : (parseSurvivors p.groups (body.drop 16)).2 = true) : s.replyFor p body =
      s.tookReply p (r.work.withSurvivors (parseSurvivors p.groups (body.drop 16)).1) := by
  have parsed : ¬ (body.length < 16 ∨ (!statusKnown (byteAt body 8)) = true) := by
    rw [ok]
    exact not_or.mpr ⟨Nat.not_lt.mpr whole, by decide⟩
  unfold State.replyFor
  rw [held]
  dsimp only
  rw [index]
  exact (if_neg parsed).trans ((if_neg kind).trans ((if_neg (not_or.mpr ⟨not_not.mpr reserved, not_not.mpr reserved'⟩)).trans
    ((if_neg (not_not.mpr ok)).trans (if_pos ⟨count, good⟩))))

end Reply

end Sys2Proof.Machine

section Settled
open Sys2Proof Sys2Proof.Machine
/-- Settles O16: both kinds of parts and replies go one way, which the room in the Reservoir and the token tell. -/
theorem partsAdmitted : Obligations.PartsAdmitted := by
  unfold Obligations.PartsAdmitted
  refine ⟨?busy, ?room, ?unknown, ?short⟩
  case busy =>
    rintro gather port src body s0 _ rfl up full
    refine ⟨_, exec_part gather port src body s0, ?_⟩
    rw [State.partArrives_full port src body _ full]
    obtain ⟨l, e, f, due, kind, payload⟩ := State.admitMsg_of_up (s := (s0.fireDue.takeFree 32).2) up src
      (s0.fireDue.takeFree 32).1.toNat (BitVec.ofNat 64 (partToken body)) true
    obtain ⟨verdict, id⟩ := admission_busy (BitVec.ofNat 64 (partToken body)) (s0.fireDue.takeFree 32).1.toNat
    exact ⟨by rw [e]; rfl, f, due, kind, by rw [payload, verdict], by rw [payload, id, partToken_toNat]⟩
  case room =>
    rintro gather port src body s0 _ rfl up room
    refine ⟨_, exec_part gather port src body s0, ?_⟩
    rw [State.partArrives_room port src body _ room]
    obtain ⟨l, e, f, due, kind, payload⟩ := State.admitMsg_of_up (s := (s0.fireDue.takeFree 32).2) up src
      (s0.fireDue.takeFree 32).1.toNat (BitVec.ofNat 64 (partToken body)) false
    generalize (s0.fireDue.takeFree 32).2.admitMsg port src (s0.fireDue.takeFree 32).1.toNat (BitVec.ofNat 64 (partToken body)) false = s1
      at e due ⊢
    subst e
    exact ⟨_, f, rfl, rfl, due, kind, by rw [payload]; rfl⟩
  case unknown =>
    intro gather port src body s done
    refine ⟨_, exec_reply gather port src body s, State.partReply_unknown ?_⟩
    exact List.find?_eq_none.mpr fun p mem hit => by
      obtain ⟨token, pending⟩ : p.token = partToken body ∧ p.done = false := by simpa using hit
      rw [done p mem token] at pending
      exact Bool.noConfusion pending
  case short =>
    intro gather port src body s p r x found held index short
    refine ⟨_, exec_reply gather port src body s, ?_⟩
    rw [State.partReply_pending found]
    exact State.replyFor_short held index short

/-- Settles O17: a reply that is good for its part is taken, and only the requests and the parts differ. -/
theorem repliesTaken : Obligations.RepliesTaken := by
  unfold Obligations.RepliesTaken
  refine ⟨fun port src body s p r x found kind held index whole ok reserved count good => ?_,
    fun port src body s p r x found kind held index whole ok reserved reserved' count good => ?_⟩
  · refine ⟨_, exec_reply true port src body s, ?_⟩
    rw [State.partReply_pending found, State.replyFor_gathered held index whole ok kind reserved count good]
    obtain ⟨rest, req, parts⟩ := State.tookReply_took held
      { r.work with rows := r.work.rows ++ (parseGathered x.desc ((p.groups.map Prod.snd).flatMap id) (body.drop 16)).1 }
    exact ⟨rest, ⟨_, req, rfl, rfl, rfl, rfl, rfl⟩, parts⟩
  · refine ⟨_, exec_reply false port src body s, ?_⟩
    rw [State.partReply_pending found, State.replyFor_survivors held index whole ok kind reserved reserved' count good]
    obtain ⟨rest, req, parts⟩ := State.tookReply_took held (r.work.withSurvivors (parseSurvivors p.groups (body.drop 16)).1)
    exact ⟨rest, parts, _, req, rfl, rfl, rfl, rfl, fun k v found => ⟨_, Work.withSurvivors_get _ found, rfl, rfl, rfl⟩⟩

/-- Settles O18: the part is sent to the node that its route names, or its request ends where that is this node. -/
theorem busyPartsResent : Obligations.BusyPartsResent := by
  unfold Obligations.BusyPartsResent
  refine ⟨fun port src body s => ⟨_, rfl, rfl, fun k p found => ?_⟩,
    fun token s p r x found early held index valid away => ⟨_, exec_partResend_early found early, ?_⟩,
    fun token s p r x found early held waits index before valid here => ⟨_, exec_partResend_early found early, ?_⟩,
    fun token s p found late => ⟨_, exec_partResend_late found late, rfl⟩⟩
  · rw [List.getElem?_map, found]
    rfl
  · rw [State.sendPart_away (s := s.unbusy token) held index valid away]
    generalize hm : UMsg.mk .part _ _ _ _ _ _ _ _ = m
    obtain ⟨q, sent⟩ := (s.unbusy token).sendMsg_sends m
    have rest := (s.unbusy token).sendMsg_msgsOnly m
    generalize (s.unbusy token).sendMsg m = t at sent rest ⊢
    refine ⟨?_, ?_, _, sent, by rw [← hm], by rw [← hm], by rw [← hm], ?_⟩
    · rw [rest]
      rfl
    · rw [rest]
      exact s.unbusy_idle token
    · rw [← hm]
      exact adrNode_mkAdr (field_lt _ 0 12)
  · rw [State.sendPart_here (s := s.unbusy token) held index valid here]
    exact .of_parts (State.endWith_ends (s := s.unbusy token) held waits before stBadDescriptor)

end Settled
end

section
/-! CLAIM. Requests that are accepted, and the first phase that they begin (R52 to R60, R74, R235). -/

set_option Elab.async false

namespace Sys2Proof.Machine
variable {s t u : State}

/-! ### What enters the Reservoir -/

/-- The request that is taken in with header `h` in service class `c`. -/
def State.taken (s : State) (op : Nat) (h : ReqHdr) (p : List Byte) (src : Source) (node : Bool) (c : Nat) : Req := {
  op := op, hdr := h, payload := p, src := src, tAccept := s.now, life := .running, phase := .check, gen := s.slices.gen, epoch := h.epoch
  entry := s.entry h.slice.toNat, nodePart := node, cls := c, toSource := false, ret := ⟨some (recordOf h src s.now), some (recordOf h src s.now)⟩
  spill := s.spills (if node then none else some h.slice.toNat) (64 + p.length) }

/-- The node with a request taken in under the next number. -/
def State.taking (s : State) (r : Req) : State := { s with nextRid := s.nextRid + 1, reqs := Store.insert s.reqs s.nextRid r }

/-- The service class of a request that passes its checks: the one that its flags name, else that of its opcode. -/
def State.classOf (s : State) (op : Nat) (h : ReqHdr) : Nat :=
  if bitsOf h.flags.toNat 0 4 ≠ 0 then bitsOf h.flags.toNat 0 4 else s.regF Reg.SLU_DEFCLASS (4 * opNumber op) 4

theorem State.reqClass_trusted {op : Nat} {h : ReqHdr} (known : opTable.contains op = true) : s.reqClass op h true = (s.classOf op h, s) := by
  unfold State.reqClass State.classOf
  extract_lets c f
  by_cases named : c = 0
  · rw [if_neg (by simp [named]), if_pos (by rw [known]; rfl), if_neg (not_not.mpr named)]
  · rw [if_pos (by simp [named]), if_pos named]

/-- A request that passes its checks is taken in and starts. -/
theorem State.accept_runs {op : Nat} {h : ReqHdr} {p : List Byte} {src : Source} {recv : Nat} (v : s.verdict op h p src recv = .run)
    (node : Bool) : s.accept op h p src recv node = (s.taking (s.taken op h p src node (s.classOf op h))).startReq s.nextRid := by
  have known : opTable.contains op = true := (Bool.and_eq_true_iff.mp (State.verdict_run v).2.1).1
  have same : s.reqClass op h (decide (3 ≤ 14)) = (s.classOf op h, s) := State.reqClass_trusted known
  unfold State.accept
  rw [v]
  dsimp only
  rw [same]
  rfl

/-- Where there is room, a request that passes its checks is taken in and starts; the admission frame owed on its port, or the entry in
flight on its queue, apart, the state in which it is taken in is that in which it was offered. -/
theorem State.offer_runs {op : Nat} {h : ReqHdr} {p : List Byte} {src : Source} {recv : Nat} (v : s.verdict op h p src recv = .run)
    (room : s.roomFor (s.admitPart h.slice.toNat src) recv = true) :
    ∃ (u : State) (node : Bool), u = { s with free := u.free, urdun := u.urdun, host := u.host } ∧ s.offer op h p src recv =
      (u.taking (s.taken op h p src node (s.classOf op h))).startReq s.nextRid := by
  cases src with
  | port port a =>
    obtain ⟨node, e⟩ := State.offer_port_room op h p recv room
    exact ⟨(s.takeFree 32).2.admitMsg port a (s.takeFree 32).1.toNat h.reqId false, node, rfl,
      e.trans (State.accept_runs ((s.verdict_admitMsg _ _ _ _ _).trans v) node)⟩
  | host fn q tag addr len =>
    obtain ⟨node, e⟩ := State.offer_host_room op h p recv room
    exact ⟨s.inFlight fn q, node, rfl, e.trans (State.accept_runs ((s.verdict_inFlight _ _).trans v) node)⟩

/-! ### The first phase -/

/-- An entry that is set shows in no selection of a table that leaves out both it and what the key listed before. -/
theorem Store.filter_insert {α : Type} {st : Store α} {k : Nat} {v : α} {p : Nat × α → Bool}
    (before : ∀ w, Store.find? st k = some w → p (k, w) = false) (new : p (k, v) = false) :
    (Store.insert st k v).filter p = st.filter p := by
  induction st with
  | nil => exact List.filter_eq_nil_iff.mpr fun q mem => by simp [List.mem_singleton.mp mem, new]
  | cons q t ih =>
    obtain ⟨j, w⟩ := q
    unfold Store.insert
    split_ifs with below same
    · exact List.filter_cons_of_neg (by simp [new])
    · subst same
      rw [List.filter_cons_of_neg (by simp [new]), List.filter_cons_of_neg (by simp [before w (if_pos rfl)])]
    · rw [List.filter_cons, List.filter_cons, ih fun w found => before w ((if_neg (Ne.symm same)).trans found)]

/-- A request as it begins its first phase. -/
def Req.begun (r : Req) : Req :=
  { r with ran := true, phase := firstPhase r.op r.hdr, phaseRuns := 0, suspect := none, onSpare := none, life := .running }

section Begin
variable {rid : Nat} {r : Req} (held : s.req? rid = some r)
include held

theorem State.startReq_refused {x : Index} (index : s.index? r.hdr.index.toNat = some x) (refused : r.refused x.desc.dim = true) :
    s.startReq rid = (s.modReq rid (fun q => { q with ran := true })).endWith rid stBadDescriptor := by
  unfold State.startReq
  rw [held]
  exact if_pos (by rw [index]; exact refused)

theorem State.startReq_good (good : ∀ x, s.index? r.hdr.index.toNat = some x → r.refused x.desc.dim = false) :
    s.startReq rid = (if r.op = opGather then (s.modReq rid (fun q => { q with ran := true })).bump Reg.GSJ_CNT_POSITIONS 0 64 r.hdr.positions
      else s.modReq rid (fun q => { q with ran := true })).startPhase rid (firstPhase r.op r.hdr) := by
  unfold State.startReq
  rw [held]
  refine if_neg ?_
  cases index : s.index? r.hdr.index.toNat with
  | none => exact Bool.false_ne_true
  | some x =>
    rw [Option.map_some, Option.getD_some, good x index]
    decide

/-- Changing a request twice is changing it once. -/
theorem State.modReq_modReq (f g : Req → Req) : (s.modReq rid f).modReq rid g = s.modReq rid (g ∘ f) := by
  have changed : (s.modReq rid f).req? rid = some (f r) := by
    rw [State.modReq_of_held held]
    exact Store.find?_insert_same _ _ _
  rw [State.modReq_of_held changed, State.modReq_of_held held, State.modReq_of_held held]
  exact congrArg (fun l => { s with reqs := l }) (Store.insert_insert_same _ _ _ _)

/-- A phase that may go and that reads no list and takes no window runs, and nothing else changes. -/
theorem State.dispatch_plain (go : s.phaseNeed r = .go) (plain : r.phase ∈ [Phase.coarse, .check, .sched, .select]) : s.dispatch rid = s := by
  unfold State.dispatch
  rw [held]
  dsimp only
  rw [go]
  have which : r.phase = .coarse ∨ r.phase = .check ∨ r.phase = .sched ∨ r.phase = .select := by simpa using plain
  obtain e | e | e | e := which <;> rw [e]

/-- A first phase that reads no list and takes no window is at once that which runs. -/
theorem State.startReq_plain (op : r.op ≠ opGather) (good : ∀ x, s.index? r.hdr.index.toNat = some x → r.refused x.desc.dim = false)
    (plain : firstPhase r.op r.hdr ∈ [Phase.coarse, .check, .sched, .select]) (go : s.phaseNeed r.begun = .go) :
    s.startReq rid = s.modReq rid (fun q => { q with
      ran := true, phase := firstPhase r.op r.hdr, phaseRuns := 0, suspect := none, onSpare := none, life := .running }) := by
  rw [State.startReq_good held good, if_neg op]
  unfold State.startPhase
  rw [State.modReq_modReq held]
  refine State.dispatch_plain (r := r.begun) ?_ go plain
  rw [State.modReq_of_held held]
  exact Store.find?_insert_same _ _ _

/-! ### A gather -/

/-- A request with no window open is changed to one with none open: the windows that are open stand, and so do those that wait for one. -/
theorem State.modReq_windowsStand (closed : r.winOpen = false) {f : Req → Req} (keeps : (f r).winOpen = false) :
    (s.modReq rid f).openWindows = s.openWindows ∧
    ((s.modReq rid f).reqs.any (fun p => p.1 != rid && p.2.life == .waitWindow)) = s.reqs.any (fun p => p.1 != rid && p.2.life == .waitWindow) := by
  rw [State.modReq_of_held held]
  constructor
  · refine congrArg List.length (Store.filter_insert (fun w found => ?_) keeps)
    obtain rfl : r = w := Option.some.inj (held.symm.trans found)
    exact closed
  · have some_ (l : Store Req) : l.any (fun p => p.1 != rid && p.2.life == .waitWindow) =
        (l.filter (fun p => p.1 != rid && p.2.life == .waitWindow)).any fun _ => true := by simp
    rw [some_, some_, Store.filter_insert (fun _ _ => by simp) (by simp)]

/-- A gather that takes a window: it opens it where one is free and no other request waits for one, else it waits. -/
theorem State.takeWindow_takes (left : Nat) (phase : r.phase = .coalesce) :
    (s.takeWindow rid left) = { s with reqs := (s.takeWindow rid left).reqs } ∧
    (s.takeWindow rid left).req? rid = some (if s.openWindows < s.regF Reg.GSJ_CFG 0 4 ∧
        s.reqs.any (fun p => p.1 != rid && p.2.life == .waitWindow) = false
      then { r with life := .running, winLeft := left, winOpen := true } else { r with life := .waitWindow, winLeft := left }) := by
  unfold State.takeWindow
  extract_lets waiting s1
  have waits : s1.req? rid = some { r with life := .waitWindow, winLeft := left } := by
    show (s.modReq rid _).req? rid = _
    rw [State.modReq_of_held held]
    exact Store.find?_insert_same _ _ _
  split
  · unfold State.windowOpens
    extract_lets s2
    have opens : s2.req? rid = some { r with life := .running, winLeft := left, winOpen := true } := by
      show (s1.modReq rid _).req? rid = _
      rw [State.modReq_of_held waits]
      exact Store.find?_insert_same _ _ _
    rw [opens]
    dsimp only
    rw [if_pos phase]
    exact ⟨rfl, opens⟩
  · exact ⟨rfl, waits⟩

/-- The node with a gather begun, before it takes its window. -/
def State.gathering (s : State) (rid : Nat) (r : Req) : State :=
  ((s.modReq rid (fun q => { q with ran := true })).bump Reg.GSJ_CNT_POSITIONS 0 64 r.hdr.positions).modReq rid
    (fun q => { q with phase := .coalesce, phaseRuns := 0, suspect := none, onSpare := none, life := .running })

theorem State.gathering_held : (s.gathering rid r).req? rid =
    some { r with ran := true, phase := .coalesce, phaseRuns := 0, suspect := none, onSpare := none, life := .running } := by
  have ran : ((s.modReq rid (fun q => { q with ran := true })).bump Reg.GSJ_CNT_POSITIONS 0 64 r.hdr.positions).req? rid =
      some { r with ran := true } := by
    rw [State.modReq_of_held held]
    exact Store.find?_insert_same _ _ _
  unfold State.gathering
  rw [State.modReq_of_held ran]
  exact Store.find?_insert_same _ _ _

/-- Beginning a gather counts its positions, and nothing else but its request differs; the open windows and who waits for one stand. -/
theorem State.gathering_begun (closed : r.winOpen = false) : s.gathering rid r = { s with reqs := (s.gathering rid r).reqs, regs := (s.gathering rid r).regs } ∧
    OnlyRegs s (s.gathering rid r) [Reg.GSJ_CNT_POSITIONS] ∧
    Counted s (s.gathering rid r) Reg.GSJ_CNT_POSITIONS 0 64 r.hdr.positions ∧
    (s.gathering rid r).openWindows = s.openWindows ∧
    ((s.gathering rid r).reqs.any (fun p => p.1 != rid && p.2.life == .waitWindow)) = s.reqs.any (fun p => p.1 != rid && p.2.life == .waitWindow) := by
  obtain ⟨openFirst, waitFirst⟩ := State.modReq_windowsStand held (f := fun q => { q with ran := true }) closed closed
  generalize hs1 : (s.modReq rid (fun q => { q with ran := true })).bump Reg.GSJ_CNT_POSITIONS 0 64 r.hdr.positions = s1
  have ran : s1.req? rid = some { r with ran := true } := by
    rw [← hs1, State.modReq_of_held held]
    exact Store.find?_insert_same _ _ _
  obtain ⟨openNext, waitNext⟩ := State.modReq_windowsStand ran
    (f := fun q => { q with phase := .coalesce, phaseRuns := 0, suspect := none, onSpare := none, life := .running }) closed closed
  unfold State.gathering
  rw [hs1]
  refine ⟨by rw [← hs1]; rfl, ?_, ?_, ?_, ?_⟩
  · have set : OnlyRegs s (s.modReq rid fun q => { q with ran := true }) [Reg.GSJ_CNT_POSITIONS] := .of_regs rfl
    have counted : OnlyRegs s s1 [Reg.GSJ_CNT_POSITIONS] := hs1 ▸ set.trans (.bump _ _ _ _ List.mem_cons_self)
    exact counted.trans (.of_regs rfl)
  · have counted : Counted (s.modReq rid fun q => { q with ran := true }) s1 Reg.GSJ_CNT_POSITIONS 0 64 r.hdr.positions :=
      hs1 ▸ Counted.of_bump _ _ _ _ (by decide)
    exact counted
  · rw [openNext, ← hs1]
    exact openFirst
  · rw [waitNext, ← hs1]
    exact waitFirst

/-- A gather takes its first window. -/
theorem State.startReq_gather (op : r.op = opGather)
    (go : s.phaseNeed { r with phase := .coalesce, phaseRuns := 0, suspect := none, onSpare := none, life := .running } = .go) :
    s.startReq rid = (s.gathering rid r).takeWindow rid (r.windows.length - 1) := by
  have good : ∀ x, s.index? r.hdr.index.toNat = some x → r.refused x.desc.dim = false := fun x _ => by
    unfold Req.refused
    rw [op]
    rfl
  have first : firstPhase r.op r.hdr = .coalesce := by
    rw [op]
    rfl
  rw [State.startReq_good held good, if_pos op, first]
  unfold State.startPhase
  have begun := State.gathering_held held
  have need : (s.gathering rid r).phaseNeed
      { r with ran := true, phase := .coalesce, phaseRuns := 0, suspect := none, onSpare := none, life := .running } = .go := go
  show (s.gathering rid r).dispatch rid = _
  unfold State.dispatch
  rw [begun]
  dsimp only
  rw [need]
  rfl

end Begin

end Sys2Proof.Machine

section Settled
open Sys2Proof Sys2Proof.Machine

/-- Settles O10: without a failed check and with room a request is taken in, as `State.offer_runs` says. -/
theorem requestsAccepted : Obligations.RequestsAccepted := by
  unfold Obligations.RequestsAccepted
  rintro i op src h0 _ p s0 _ req rfl rfl up run room
  obtain ⟨u, node, rest, offered⟩ := State.offer_runs run room
  exact ⟨_, exec_offers req up, u.taking _, s0.fireDue.taken op (fitParams h0) p src node (s0.fireDue.classOf op (fitParams h0)), offered,
    by rw [rest]; rfl, rfl, rfl, rfl, rfl, rfl, rfl, rfl, rfl, rfl, rfl, rfl, rfl, rfl, rfl, rfl, fun named => if_pos named,
    fun plain => if_neg (not_not.mpr plain)⟩

/-- Settles O11: the first phase begins, a gather takes a window or waits for one, and a refused query ends its request. -/
theorem firstPhaseBegins : Obligations.FirstPhaseBegins := by
  unfold Obligations.FirstPhaseBegins
  refine ⟨fun s rid r held op good plain go => State.startReq_plain held op good plain go,
    fun s rid r held op closed go => ?_, fun s rid r x held waits index refused early => ?_⟩
  · have begun := State.gathering_held held
    obtain ⟨rest, req⟩ := State.takeWindow_takes begun (r.windows.length - 1) rfl
    obtain ⟨form, only, counted, windows, waiting⟩ := State.gathering_begun held closed
    have cfg : (s.gathering rid r).regF Reg.GSJ_CFG 0 4 = s.regF Reg.GSJ_CFG 0 4 := only.regF _ _ _ (by decide)
    rw [windows, waiting, cfg] at req
    rw [State.startReq_gather held op go]
    generalize (s.gathering rid r).takeWindow rid (r.windows.length - 1) = t at rest req ⊢
    have regs : OnlyRegs (s.gathering rid r) t [] := .of_regs (by rw [rest])
    have free : s.reqs.any (fun p => p.1 != rid && p.2.life == .waitWindow) = false ↔
        ∀ p ∈ s.reqs, p.1 ≠ rid → p.2.life ≠ .waitWindow := by simp
    simp only [free] at req
    refine ⟨_, req, ?_, ?_, ?_, ?_, ?_, fun k h => (regs k List.not_mem_nil).trans (only k h), ?_⟩
    · split <;> rfl
    · split <;> rfl
    · split <;> rfl
    · split
      · exact ⟨rfl, rfl⟩
      · exact ⟨closed, rfl⟩
    · exact (regs.regF _ _ _ List.not_mem_nil).trans counted
    · rw [rest]
      show (s.gathering rid r).indexes = _
      rw [form]
  · rw [State.startReq_refused held index refused]
    have ran : (s.modReq rid (fun q => { q with ran := true })).req? rid = some { r with ran := true } := by
      rw [State.modReq_of_held held]
      exact Store.find?_insert_same _ _ _
    obtain ⟨q, found, out, req, free⟩ := State.endWith_ends ran waits early stBadDescriptor
    obtain rfl : ({ r with ran := true } : Req) = q := Option.some.inj (ran.symm.trans found)
    exact ⟨r, held, out, req, free⟩

end Settled
end

section
/-! CLAIM. A fault of a phase: it runs again, or its request ends, and a lasting fault retires its unit (R65, R157, R497 to R500). -/

set_option Elab.async false

namespace Sys2Proof.Machine
variable {s t u : State}

/-! ### A phase that runs again -/

/-- A phase has been set up to run again: only what works for requests and the requests differ. -/
def State.SetUp (s t : State) : Prop := t = { s with
  fabric := t.fabric, hbm := t.hbm, windows := t.windows, partsOut := t.partsOut, nextToken := t.nextToken, urdun := t.urdun, points := t.points }

theorem State.SetUp.trans (a : s.SetUp t) (b : t.SetUp u) : s.SetUp u := by
  unfold State.SetUp at *
  rw [b, a]

theorem State.SetUp.req? (a : s.SetUp t) (k : Nat) : t.req? k = s.req? k := by
  unfold State.req?
  rw [a]

theorem State.SetUp.of_msgs (a : s.MsgsOnly t) : s.SetUp t := by
  unfold State.SetUp
  rw [a]

theorem State.idleRills_setUp (s : State) (rid : Nat) : s.SetUp (s.idleRills rid) := by
  obtain ⟨f, h, idle, -, -⟩ := s.idleRills_idles rid
  rw [idle]
  rfl

theorem State.joinWindow_windows (s : State) (i b rid : Nat) (d : Bool) (p : Nat × Nat) :
    s.joinWindow i b rid d p = { s with windows := (s.joinWindow i b rid d p).windows } := by
  unfold State.joinWindow
  extract_lets fits
  split <;> rfl

theorem State.joinWindows_windows (s : State) (rid : Nat) : s.joinWindows rid = { s with windows := (s.joinWindows rid).windows } := by
  unfold State.joinWindows
  split
  · rfl
  · split
    · rfl
    · refine List.foldlRecOn (motive := fun v : State => v = { s with windows := v.windows }) _ _ rfl fun v h p _ => ?_
      rw [State.joinWindow_windows, h]

/-- No part of the request is sent again where it has none. -/
theorem State.resendParts_setUp {rid : Nat} (none : ∀ p ∈ s.partsOut, p.rid ≠ rid) : s.SetUp (s.resendParts rid) := by
  unfold State.resendParts
  extract_lets s1 mine again s2
  have dropped : s.MsgsOnly s1 := s.dropMsgs_msgsOnly _
  have noMine : mine = [] := List.filter_eq_nil_iff.mpr fun p mem => by
    rw [dropped] at mem
    simpa using none p mem
  have noAgain : again = [] := by
    unfold again
    rw [noMine]
    rfl
  rw [noAgain]
  exact (State.SetUp.of_msgs dropped).trans rfl

/-- A request as a fault of its phase leaves it to run again. -/
def Req.rerun (r : Req) : Req :=
  { r with reruns := min 255 (r.reruns + 1), phaseRuns := r.phaseRuns + 1, work := r.work.discard r.phase }

theorem State.closeWindow_held {rid : Nat} {r : Req} (held : s.req? rid = some r) :
    (s.closeWindow rid).req? rid = some { r with winOpen := false } := by
  unfold State.closeWindow
  rw [held]
  dsimp only
  split
  · rw [State.modReq_of_held held]
    exact Store.find?_insert_same _ _ _
  next closed =>
    have same : r.winOpen = false := by simpa using closed
    rw [held, ← same]

section Rerun
variable {rid : Nat} {r : Req} (held : s.req? rid = some r) (running : r.life = .running)
include held running

/-- A request whose phase has been run again as often as it may ends. -/
theorem State.rerun_last (last : s.regF Reg.RST_CFG 32 8 ≤ r.phaseRuns) : s.rerun rid = s.endWith rid stResourceFailed := by
  unfold State.rerun
  rw [held]
  exact (if_neg (not_and_of_not_left _ (not_not.mpr running))).trans (if_pos last)

variable (more : r.phaseRuns < s.regF Reg.RST_CFG 32 8)
include more

/-- Before its phase begins again, the request has been counted and its windows are left. -/
theorem State.rerun_again : ∃ u, (s.setReq rid r.rerun).SetUp u ∧ u.partsOut = s.partsOut ∧ s.rerun rid =
    if (r.phase = .fetch ∨ r.phase = .exact) ∧ r.windows.isEmpty = false then u.againFetch rid r else u.resendParts rid := by
  have left (v : State) : v.SetUp (v.leaveWindows rid) := rfl
  unfold State.rerun
  rw [held]
  dsimp only
  rw [if_neg (not_and_of_not_left _ (not_not.mpr running)), if_neg (Nat.not_le.mpr more)]
  have idle := s.idleRills_setUp rid
  obtain ⟨f, h, form, -, -⟩ := s.idleRills_idles rid
  have base : (s.setReq rid r.rerun).SetUp (((s.idleRills rid).setReq rid r.rerun).leaveWindows rid) := by
    rw [form]
    rfl
  have parts : (((s.idleRills rid).setReq rid r.rerun).leaveWindows rid).partsOut = s.partsOut := by
    rw [form]
    rfl
  refine ⟨_, ?_, ?_, rfl⟩
  · split
    · refine base.trans ?_
      rw [State.joinWindows_windows]
      rfl
    · exact base
  · split
    · rw [State.joinWindows_windows]
      exact parts
    · exact parts

/-- A fetch that has left its first window waits for it again. -/
theorem State.rerun_refetches (fetch : r.phase = .fetch ∨ r.phase = .exact) (several : r.windows ≠ [])
    (left : r.winOpen = false ∨ r.winLeft ≠ r.windows.length - 1) :
    OnlyRegs s (s.rerun rid) [Reg.GSJ_CNT_WINDOWS] ∧ (s.rerun rid).record = s.record ∧ ∃ q, (s.rerun rid).req? rid = some q ∧
      q.hdr = r.hdr ∧ q.payload = r.payload ∧ q.reruns = min 255 (r.reruns + 1) ∧ q.phaseRuns = r.phaseRuns + 1 ∧
      q.work = r.work.discard r.phase ∧ q.winLeft = r.windows.length - 1 ∧ q.life = .waitWindow := by
  obtain ⟨u, setUp, parts, again⟩ := State.rerun_again held running more
  have away : ¬(r.life = .running ∧ r.winOpen = true ∧ r.winLeft = r.windows.length - 1) := by
    rintro ⟨-, open_, first⟩
    obtain closed | later := left
    · rw [closed] at open_
      exact Bool.noConfusion open_
    · exact later first
  rw [again, if_pos ⟨fetch, by simpa using several⟩]
  unfold State.againFetch
  extract_lets last s1
  rw [if_neg away]
  have dropped := setUp.trans (.of_msgs (u.dropMsgs_msgsOnly (fun m => m.rid == some rid && m.kind == .part)))
  have req := dropped.req? rid
  rw [State.req?_setReq_same] at req
  obtain ⟨rest, only, -⟩ := (u.dropMsgs (fun m => m.rid == some rid && m.kind == .part)).closeWindow_closes rid
  have closed := State.closeWindow_held req
  have first : OnlyRegs s (u.dropMsgs (fun m => m.rid == some rid && m.kind == .part)) [Reg.GSJ_CNT_WINDOWS] :=
    .of_regs (by rw [dropped]; rfl)
  have record : s1.record = s.record := by
    show (State.closeWindow _ _).record = _
    rw [rest, dropped]
    rfl
  have regs : OnlyRegs s s1 [Reg.GSJ_CNT_WINDOWS] := first.trans only
  have here : ({ s1 with partsOut := s1.partsOut.filter (fun p => p.rid != rid) } : State).req? rid = some { r.rerun with winOpen := false } := closed
  clear_value s1
  rw [State.modReq_of_held here]
  exact ⟨regs.trans (.of_regs rfl), record, _, Store.find?_insert_same _ _ _, rfl, rfl, rfl, rfl, rfl, rfl, rfl⟩

variable (noParts : ∀ p ∈ s.partsOut, p.rid ≠ rid)
include noParts

/-- A phase that takes no window of its own runs again: nothing that is counted or has left differs, and the request is counted. -/
theorem State.rerun_reruns (plain : (r.phase ≠ .fetch ∧ r.phase ≠ .exact) ∨ r.windows = []) :
    (s.rerun rid).regs = s.regs ∧ (s.rerun rid).out = s.out ∧ (s.rerun rid).record = s.record ∧ (s.rerun rid).req? rid = some r.rerun := by
  obtain ⟨u, setUp, parts, again⟩ := State.rerun_again held running more
  have here : ¬((r.phase = .fetch ∨ r.phase = .exact) ∧ r.windows.isEmpty = false) := by
    obtain ⟨fetch, exact_⟩ | none := plain
    · exact not_and_of_not_left _ (not_or.mpr ⟨fetch, exact_⟩)
    · rw [none]
      exact not_and_of_not_right _ (by decide)
  rw [again, if_neg here]
  have whole := setUp.trans (State.resendParts_setUp (rid := rid) (by rwa [parts]))
  have req := whole.req? rid
  rw [State.req?_setReq_same] at req
  generalize u.resendParts rid = t at whole req ⊢
  exact ⟨by rw [whole]; rfl, by rw [whole]; rfl, by rw [whole]; rfl, req⟩

end Rerun

/-! ### A lasting fault -/

theorem recorded_append {rs : List RetEntry} {kind loc : Nat} (h : recorded rs kind loc = true) (more : List RetEntry) :
    recorded (rs ++ more) kind loc = true := by
  unfold recorded at *
  rw [List.any_append, h]
  rfl

/-- A unit that is recorded as retired stays so. -/
theorem Keeps.recorded {φ : Reach} {kind loc : Nat} (k : Keeps φ s t) (h : recorded s.record kind loc = true) :
    recorded t.record kind loc = true := by
  obtain ⟨more, e⟩ := k.record
  rw [e]
  exact recorded_append h more

theorem State.retireMapped_recorded (s : State) (kind loc code : Nat) : recorded (s.retireMapped kind loc code).record kind loc = true := by
  unfold State.retireMapped
  by_cases already : recorded s.record kind loc = true
  · rw [if_pos already]
    exact already
  · rw [if_neg already]
    extract_lets s1 _
    refine Keeps.recorded (φ := ⟨true, true, true, true, true⟩) (s := s1) (.settleMaps (.other (.refl s1))) ?_
    exact s.retire_recorded kind loc code

theorem State.retireRunnel_recorded (s : State) (rid l : Nat) : recorded (s.retireRunnel rid l).record kRunnel l = true := by
  unfold State.retireRunnel
  extract_lets b t
  have retired := s.retireMapped_recorded kRunnel l 0
  have after := Keeps.refl (φ := ⟨true, true, true, true, true⟩) (s.retireMapped kRunnel l 0)
  split
  · exact Keeps.recorded after.takeOut retired
  · exact Keeps.recorded after.runOnSpare retired

/-- A lasting fault of a unit that has spares or a record of its own records it as retired. -/
theorem State.lasting_recorded (s : State) (rid : Nat) {c : Charge} (unit : c.kind ∈ [kRill, kRunnel, kColumn, kWeirLane, kSpout]) :
    recorded (s.lasting rid c).record c.kind c.loc = true := by
  unfold State.lasting
  extract_lets s0 l b t rn s1 s2 s3 s4 s5 others
  have keeps (v : State) := Keeps.refl (φ := ⟨true, true, true, true, true⟩) v
  have which : c.kind = kRill ∨ c.kind = kRunnel ∨ c.kind = kColumn ∨ c.kind = kWeirLane ∨ c.kind = kSpout := by simpa using unit
  obtain e | e | e | e | e := which
  · rw [if_pos e, e]
    have retired := s0.retireMapped_recorded kRill l c.code
    split
    · exact Keeps.recorded (keeps _).retireRunnel retired
    · exact Keeps.recorded (keeps _).runOnSpare retired
  · rw [if_neg (by rw [e]; decide), if_pos e, e]
    exact State.retireRunnel_recorded _ rid l
  · rw [if_neg (by rw [e]; decide), if_neg (by rw [e]; decide), if_pos e, e]
    have retired := s2.retire_recorded kColumn l 0
    split
    · exact Keeps.recorded (keeps _).takeOut retired
    · exact Keeps.recorded (keeps _).runOnSpare retired
  · rw [if_neg (by rw [e]; decide), if_neg (by rw [e]; decide), if_neg (by rw [e]; decide), if_pos e, e]
    exact Keeps.recorded (keeps _).runOnSpare (State.retire_recorded _ kWeirLane l 0)
  · rw [if_neg (by rw [e]; decide), if_neg (by rw [e]; decide), if_neg (by rw [e]; decide), if_neg (by rw [e]; decide), if_pos e, e]
    refine Keeps.recorded (φ := ⟨true, true, true, true, true⟩) (s := s0.retire kSpout l 0) ?_ (s0.retire_recorded kSpout l 0)
    exact .foldl (keeps _).setSpout.issueRefresh.runOnSpare fun _ _ h => h.rerun

/-! ### The fault of a phase -/

/-- A fault with no code is counted nowhere but at its Spout. -/
theorem State.countCharge_code0 (s : State) (kind loc : Nat) (via : Option (Fin 2)) : s.countCharge ⟨kind, loc, 0, via⟩ =
    if kind = kSpout then s.bumpSat (instKey Reg.SPOUT_STATUS loc) 32 16 1 else s := by
  have noBank : (chargeBank ⟨kind, loc, 0, via⟩).isSome = false := by
    unfold chargeBank
    rw [if_neg (by rintro ⟨-, low, -⟩; exact absurd low (Nat.not_le.mpr (by decide : 0 < 32)))]
    rfl
  unfold State.countCharge
  rw [if_neg (by simp), if_neg (by simp)]
  split
  next column => exact (if_neg (by rw [show kind = kColumn from column]; decide)).symm
  · rw [noBank, if_neg (by decide)]

theorem State.countCharge_rest {rid : Nat} {r : Req} (held : s.req? rid = some r) (kind loc : Nat) (via : Option (Fin 2)) :
    (s.countCharge ⟨kind, loc, 0, via⟩).req? rid = some r ∧ (s.countCharge ⟨kind, loc, 0, via⟩).record = s.record := by
  rw [State.countCharge_code0]
  unfold State.req? at *
  split
  · rw [State.bumpSat_reqs, State.bumpSat_record]
    exact ⟨held, rfl⟩
  · exact ⟨held, rfl⟩

section Fault
variable {rid : Nat} {r : Req} (held : s.req? rid = some r) (running : r.life = .running)
include held running

theorem State.phaseRun_running : s.phaseRun rid = some ⟨r.suspect, r.onSpare⟩ := by
  unfold State.phaseRun
  rw [held]
  exact if_pos (.inl running)

theorem exec_phaseFault_code0 (here : r.holds = false) (kind loc : Nat) (via : Option (Fin 2)) : exec (.phaseFault rid ⟨kind, loc, 0, via⟩) s =
    .next ((s.countCharge ⟨kind, loc, 0, via⟩).phaseFault rid ⟨kind, loc, 0, via⟩ false) := by
  have noBank : chargeBank ⟨kind, loc, 0, via⟩ = none := if_neg (by rintro ⟨-, low, -⟩; exact absurd low (Nat.not_le.mpr (by decide : 0 < 32)))
  have only : s.faulted rid ⟨kind, loc, 0, via⟩ = [rid] := by
    unfold State.faulted
    rw [noBank]
  have notInjected (v : State) : v.takeInjected ⟨kind, loc, 0, via⟩ = (false, v) :=
    if_neg (by rintro ⟨-, code, -⟩; exact absurd code (by decide : (0 : Nat) ≠ 2))
  show execPhaseFault rid _ s = _
  unfold execPhaseFault
  rw [held, State.phaseRun_running held running, only]
  dsimp only
  rw [if_neg (by simp [here]), notInjected]
  rfl

/-- A fault that no unit is charged with runs the phase again. -/
theorem State.phaseFault_uncharged (loc : Nat) : s.phaseFault rid ⟨0, loc, 0, none⟩ false = s.rerun rid := by
  unfold State.phaseFault
  rw [State.phaseRun_running held running]
  rfl

/-- A fault through the bridge while the Basins serve alone ends the request. -/
theorem State.phaseFault_apart {b : Fin 2} (free : s.fencing b = false) (apart : s.apart = true) (kind loc : Nat) :
    s.phaseFault rid ⟨kind, loc, 0, some b⟩ false = s.endWith rid stResourceFailed := by
  unfold State.phaseFault
  rw [State.phaseRun_running held running]
  exact (if_neg (by simp [free])).trans (if_pos ⟨rfl, apart⟩)

variable {kind loc : Nat} (unit : kind ≠ 0) (other : r.onSpare ≠ some (kind, loc))
include unit other

/-- The first fault of a unit makes it suspect. -/
theorem State.phaseFault_first (first : r.suspect = none) :
    s.phaseFault rid ⟨kind, loc, 0, none⟩ false = (s.setRun rid ⟨some (kind, loc), none⟩).rerun rid := by
  unfold State.phaseFault
  rw [State.phaseRun_running held running, first]
  exact (if_neg Bool.false_ne_true).trans ((if_neg (by simp)).trans ((if_neg unit).trans ((if_neg Bool.false_ne_true).trans
    ((if_neg other).trans (if_neg (by simp))))))

/-- A second fault of a unit that is suspect is a lasting one. -/
theorem State.phaseFault_second (second : r.suspect = some (kind, loc)) :
    s.phaseFault rid ⟨kind, loc, 0, none⟩ false = s.lasting rid ⟨kind, loc, 0, none⟩ := by
  unfold State.phaseFault
  rw [State.phaseRun_running held running, second]
  exact (if_neg Bool.false_ne_true).trans ((if_neg (by simp)).trans ((if_neg unit).trans ((if_neg Bool.false_ne_true).trans
    ((if_neg other).trans (if_pos rfl)))))

end Fault

end Sys2Proof.Machine

section Settled
open Sys2Proof Sys2Proof.Machine
/-- Settles O14: a fault runs its phase again while it may, and a unit that faults while it is suspect is retired. -/
theorem phaseFaultReruns : Obligations.PhaseFaultReruns := by
  unfold Obligations.PhaseFaultReruns
  refine ⟨?again, ?last, ?suspect, ?lasting, ?fetch, ?bridge⟩
  case again =>
    intro rid s r held running here more noParts plain
    refine ⟨_, exec_phaseFault_code0 held running here 0 0 none, ?_⟩
    rw [State.countCharge_code0, if_neg (by decide), State.phaseFault_uncharged held running]
    exact State.rerun_reruns held running more noParts plain
  case last =>
    intro rid s r held running here last early
    refine ⟨_, exec_phaseFault_code0 held running here 0 0 none, ?_⟩
    rw [State.countCharge_code0, if_neg (by decide), State.phaseFault_uncharged held running, State.rerun_last held running last]
    exact State.endWith_ends held (by rw [running]; decide) early _
  case suspect =>
    intro rid kind loc s r held running here unit first other more noParts plain
    obtain ⟨isUnit, -, -, -, notSpout⟩ : kind ≠ 0 ∧ kind ≠ kWeirLane ∧ kind ≠ kRunnel ∧ kind ≠ kColumn ∧ kind ≠ kSpout := by simpa using unit
    refine ⟨_, exec_phaseFault_code0 held running here kind loc none, ?_⟩
    rw [State.countCharge_code0, if_neg notSpout, State.phaseFault_first held running isUnit other first]
    have set : (s.setRun rid ⟨some (kind, loc), none⟩).req? rid = some { r with suspect := some (kind, loc), onSpare := none } := by
      show (s.modReq rid _).req? rid = _
      rw [State.modReq_of_held held]
      exact Store.find?_insert_same _ _ _
    exact State.rerun_reruns (r := { r with suspect := some (kind, loc), onSpare := none }) set running more noParts plain
  case lasting =>
    intro rid kind loc s r held running here unit second other
    have isUnit : kind ≠ 0 := fun zero => absurd (zero ▸ unit) (by decide)
    refine ⟨_, exec_phaseFault_code0 held running here kind loc none, ?_⟩
    obtain ⟨same, record⟩ := State.countCharge_rest held kind loc none
    rw [State.phaseFault_second same running isUnit other second]
    refine ⟨State.lasting_recorded _ rid unit, ?_⟩
    rw [← record]
    exact (Keeps.lasting (md := true) (ck := true) (lb := true) (wd := true) (.refl _)).record
  case fetch =>
    intro rid s r held running here more noParts fetch several left
    refine ⟨_, exec_phaseFault_code0 held running here 0 0 none, ?_⟩
    rw [State.countCharge_code0, if_neg (by decide), State.phaseFault_uncharged held running]
    exact State.rerun_refetches held running more fetch several left
  case bridge =>
    intro rid kind loc b s r held running here free apart early unit
    obtain ⟨-, -, -, notSpout⟩ : kind ≠ kWeirLane ∧ kind ≠ kRunnel ∧ kind ≠ kColumn ∧ kind ≠ kSpout := by simpa using unit
    refine ⟨_, exec_phaseFault_code0 held running here kind loc (some b), ?_⟩
    rw [State.countCharge_code0, if_neg notSpout, State.phaseFault_apart held running free apart]
    exact State.endWith_ends held (by rw [running]; decide) early _

end Settled
end

section
/-! CLAIM. How a phase of a request, or of a part, ends (R56, R61, R66, R173). -/

set_option Elab.async false

namespace Sys2Proof.Machine
variable {s t u : State}

/-! ### A phase that may end -/

section Ready
variable {rid : Nat} {r : Req} (ready : s.phaseReady rid r = true)
include ready

/-- A phase that may end runs, and no lower-tier read has its request as a waiter. -/
theorem State.phaseReady_runs : r.life = .running ∧ r.holds = false ∧ s.readsFor (.req rid) = false := by
  unfold State.phaseReady at ready
  simp only [Bool.and_eq_true] at ready
  obtain ⟨⟨⟨⟨⟨⟨running, holds⟩, -⟩, -⟩, reads⟩, -⟩, -⟩ := ready
  exact ⟨by simpa using running, by simpa using holds, by simpa [State.readsFor] using reads⟩

theorem State.phaseReady_underWay : r.underWay = true := by
  obtain ⟨running, holds, -⟩ := State.phaseReady_runs ready
  unfold Req.underWay
  rw [running, holds]
  rfl

variable (held : s.req? rid = some r)
include held

/-- At DEADLINE the deadline prevails. -/
theorem exec_phaseComplete_late (ok : Bool) (late : r.hdr.deadline.toNat ≤ s.now.toNat) :
    exec (.phaseComplete rid ⟨ok, none⟩) s = .next (s.endNow rid stDeadlineMissed) := by
  obtain ⟨running, -, reads⟩ := State.phaseReady_runs ready
  have due : s.dueStatus r.hdr.deadline (.req rid) stDeadlineMissed = stDeadlineMissed := by
    have same := s.dueStatus_deadline r.hdr.deadline (.req rid)
    rwa [reads] at same
  show execPhaseComplete rid ⟨ok, none⟩ s = _
  unfold execPhaseComplete State.repairRecord
  dsimp only
  rw [held]
  dsimp only
  rw [if_neg (by rw [running]; decide), if_neg (by simp [State.phaseReady_underWay ready]), if_neg (by simp [ready]), if_pos late,
    State.endWith_of_held held, due]

/-- State that the Reservoir cannot read back ends the request. -/
theorem exec_phaseComplete_lost (ok : Bool) (early : s.now.toNat < r.hdr.deadline.toNat) (lost : ok = false ∨ r.lost = true) :
    exec (.phaseComplete rid ⟨ok, none⟩) s = .next (s.endWith rid stStateLost) := by
  obtain ⟨running, -, -⟩ := State.phaseReady_runs ready
  show execPhaseComplete rid ⟨ok, none⟩ s = _
  unfold execPhaseComplete State.repairRecord
  dsimp only
  rw [held]
  dsimp only
  rw [if_neg (by rw [running]; decide), if_neg (by simp [State.phaseReady_underWay ready]), if_neg (by simp [ready]),
    if_neg (Nat.not_le.mpr early), if_pos (by simpa using lost)]

end Ready

/-! ### The output of a phase -/

/-- The splits of a scan are counted, and nothing else differs. -/
theorem State.scanSplits_counts (s : State) (rid : Nat) (r : Req) :
    s.scanSplits rid r = { s with regs := (s.scanSplits rid r).regs, free := (s.scanSplits rid r).free } := by
  unfold State.scanSplits
  split
  · rfl
  · split
    · unfold State.countSplits
      split
      · exact List.foldlRecOn (motive := fun v : State => v = { s with regs := v.regs, free := v.free }) _ _ rfl fun v h _ _ => by
          dsimp only
          unfold State.takeFree
          rw [h]
          rfl
      · rfl
    · rfl

/-- A run that ends changes its request only in that no unit is under suspicion any more, and nothing has left. -/
theorem State.endRun_ended {rid : Nat} {r : Req} (held : s.req? rid = some r) : ((s.scanSplits rid r).endRun rid r).req? rid =
    some { r with suspect := none, onSpare := none } ∧ ((s.scanSplits rid r).endRun rid r).out = s.out := by
  have counts := s.scanSplits_counts rid r
  generalize s.scanSplits rid r = v at counts ⊢
  unfold State.endRun
  extract_lets s1 s2
  have first : s1 = { v with regs := s1.regs } := by
    show (if _ then _ else _) = { v with regs := (if _ then _ else _ : State).regs }
    split <;> rfl
  have idle := s1.idleRills_setUp rid
  have there : (s1.idleRills rid).req? rid = some r := by
    rw [idle.req?, first]
    unfold State.req?
    rw [counts]
    exact held
  constructor
  · show s2.req? rid = _
    unfold s2
    rw [State.modReq_of_held there]
    exact Store.find?_insert_same _ _ _
  · show (s1.idleRills rid).out = _
    rw [idle]
    show s1.out = _
    rw [first]
    show v.out = _
    rw [counts]

/-- A phase that ends before DEADLINE with its state at hand forms its output. -/
theorem exec_phaseComplete_output {rid : Nat} {r : Req} (held : s.req? rid = some r) (ready : s.phaseReady rid r = true)
    (early : s.now.toNat < r.hdr.deadline.toNat) (whole : r.lost = false) : exec (.phaseComplete rid ⟨true, none⟩) s =
      .next (((s.scanSplits rid r).endRun rid r).phaseOut rid { r with suspect := none, onSpare := none }) := by
  obtain ⟨running, -, -⟩ := State.phaseReady_runs ready
  show execPhaseComplete rid ⟨true, none⟩ s = _
  unfold execPhaseComplete State.repairRecord
  dsimp only
  rw [held]
  dsimp only
  rw [if_neg (by rw [running]; decide), if_neg (by simp [whole]), if_neg (by simp [ready]), if_neg (Nat.not_le.mpr early),
    if_neg (by simp [whole]), (State.endRun_ended held).1]

/-- The phase of a part that this node serves ends: what it dropped is counted, and its reply leaves. -/
theorem exec_phaseComplete_part {pid : Nat} {p : PartIn} {out : List Byte × Nat} (other : s.req? pid = none)
    (held : Store.find? s.partsIn pid = some p) (reply : p.reply = some out) (whole : p.lost = false)
    (early : s.now.toNat < (partDeadline p.body).toNat) : exec (.phaseComplete pid ⟨true, none⟩) s =
      .next ((s.bump Reg.SRCH_CNT_DROPPED 0 64 out.2).replyPart pid out.1) := by
  show execPhaseComplete pid ⟨true, none⟩ s = _
  unfold execPhaseComplete State.repairRecord
  dsimp only
  rw [other]
  dsimp only
  unfold State.completePart
  rw [held]
  dsimp only
  rw [reply]
  dsimp only
  rw [if_neg (Nat.not_le.mpr early), if_neg (by simp [whole])]

/-- The payload of the answer of a selection: one part a row, in order (R173). -/
theorem topk_payload (k : Nat) (rows : List (List Entry)) :
    (List.range (rows.map (topkPart k)).length).flatMap (fun i => match (rows.map (topkPart k))[i]? with
      | some p => partHeader i p.1 ++ p.2
      | none => []) =
    (List.range rows.length).flatMap (fun i => match rows[i]? with
      | some row => partHeader i (topkPart k row).1 ++ (topkPart k row).2
      | none => []) := by
  rw [List.length_map]
  refine List.flatMap_congr fun i mem => ?_
  rw [List.getElem?_map]
  cases rows[i]? with
  | none => rfl
  | some row => rfl

/-- A selection of entries without a NaN answers OK. -/
theorem State.doneSelect_answers {rid : Nat} {r : Req} (held : s.req? rid = some r) (fmt : r.hdr.tkFmt = 0)
    (good : ∀ k, k < r.hdr.tkRows → rowNaN (topkRow r.hdr r.payload k) = false) :
    ∃ resp, s.Answered (s.doneSelect rid r) rid r resp ∧ resp.status = stOk ∧
      resp.payload = (List.range r.hdr.tkRows).flatMap (fun k =>
        partHeader k (topkPart r.hdr.k (topkRow r.hdr r.payload k)).1 ++ (topkPart r.hdr.k (topkRow r.hdr r.payload k)).2) := by
  unfold State.doneSelect
  extract_lets h rows pad parts payload
  have rowsGood : rows.any rowNaN = false := by
    unfold rows
    simpa using good
  have noPad : pad = [] := if_pos fmt
  rw [if_neg (by simp [rowsGood, noPad])]
  refine ⟨_, State.respond_answers held _, rfl, ?_⟩
  show payload = _
  refine (topk_payload h.k rows).trans ?_
  unfold rows
  rw [List.length_map, List.length_range]
  refine List.flatMap_congr fun i mem => ?_
  rw [List.getElem?_map, List.getElem?_range (List.mem_range.mp mem)]
  rfl

end Sys2Proof.Machine

section Settled
open Sys2Proof Sys2Proof.Machine

/-- Settles O13: the deadline comes first, then state that is lost, and else the output of the phase is formed. -/
theorem phaseCompletes : Obligations.PhaseCompletes := by
  unfold Obligations.PhaseCompletes
  refine ⟨?idle, ?late, ?lost, ?output, ?topk, ?part⟩
  case idle =>
    intro rid s r held waits idle early
    refine ⟨_, ?_, State.endWith_ends held waits early stStateLost⟩
    show execPhaseComplete rid ⟨false, none⟩ s = _
    unfold execPhaseComplete State.repairRecord
    dsimp only
    rw [held]
    dsimp only
    rw [if_neg waits, if_pos ⟨rfl, idle⟩]
  case late =>
    intro rid ok s r held ready late
    obtain ⟨running, -, -⟩ := State.phaseReady_runs ready
    exact ⟨_, exec_phaseComplete_late ready held ok late, State.endNow_ends held (by rw [running]; decide) _⟩
  case lost =>
    intro rid ok s r held ready early lost
    obtain ⟨running, -, -⟩ := State.phaseReady_runs ready
    exact ⟨_, exec_phaseComplete_lost ready held ok early lost, State.endWith_ends held (by rw [running]; decide) early _⟩
  case output =>
    intro rid s r held ready early whole
    exact ⟨_, exec_phaseComplete_output held ready early whole, _, (State.endRun_ended held).1, rfl, rfl, rfl, rfl, rfl⟩
  case topk =>
    intro rid s r held ready early whole op fmt good
    obtain ⟨ended, out⟩ := State.endRun_ended held
    obtain ⟨resp, answered, status, payload⟩ := State.doneSelect_answers ended fmt good
    obtain ⟨rest, sent⟩ := answered.response
    rw [out] at sent
    refine ⟨_, exec_phaseComplete_output held ready early whole, resp, rest, ?_, status, payload⟩
    have select (v : State) : v.phaseOut rid { r with suspect := none, onSpare := none } =
      v.doneSelect rid { r with suspect := none, onSpare := none } := if_pos op
    rw [select]
    exact sent
  case part =>
    intro pid s p out other held reply whole early
    refine ⟨_, exec_phaseComplete_part other held reply whole early, ?_⟩
    obtain ⟨gone, reqs, sent⟩ := State.replyPart_replies (s := s.bump Reg.SRCH_CNT_DROPPED 0 64 out.2) held out.1
    exact ⟨gone, reqs, sent⟩

end Settled
end

section
/-! SUPPORT. The seal and the flip of an index's epoch (R197, R198, R209, R210, R342). -/

set_option Elab.async false

namespace Sys2Proof.Machine
variable {s t u : State}

/-! ### What the landing of entries leaves of an index -/

/-- What the seal of an index leaves: its descriptor, its state and its epochs. -/
def Index.frame (x : Index) : IdxDesc × IdxState × Epoch × Nat × Option Time × Option Flip :=
  (x.desc, x.state, x.cur, x.live, x.drainEnd, x.flip)

@[simp] theorem Index.touchPage_frame (x : Index) (p : Nat) : (x.touchPage p).frame = x.frame := by
  unfold Index.touchPage
  extract_lets t
  split <;> rfl

@[simp] theorem Index.putDir_frame (x : Index) (l : Nat) (d : DirEnt) : (x.putDir l d).frame = x.frame := by
  unfold Index.putDir
  split
  · rfl
  · exact x.touchPage_frame _

@[simp] theorem Index.putTomb_frame (x : Index) (l : Nat) (dead : Bool) : (x.putTomb l dead).frame = x.frame := by
  unfold Index.putTomb
  split
  · rfl
  · exact x.touchPage_frame _

@[simp] theorem Index.showWinner_frame (x : Index) (l : Nat) (w : Winner) : (x.showWinner l w).frame = x.frame := by
  unfold Index.showWinner Index.putOwn
  dsimp only
  split <;> simp

@[simp] theorem Index.showAll_frame (x : Index) (ws : List (Nat × Winner)) : (x.showAll ws).frame = x.frame := by
  induction ws generalizing x with
  | nil => rfl
  | cons w ws ih => exact (ih _).trans (x.showWinner_frame w.1 w.2)

@[simp] theorem Index.addArr_frame (x : Index) (a : BlkArr) : (x.addArr a).1.frame = x.frame := by
  unfold Index.addArr
  split <;> rfl

@[simp] theorem Index.landBlocks_frame (x : Index) (n : Nat) (ess : List (List BlkEnt)) : (x.landBlocks n ess).frame = x.frame := by
  induction ess generalizing x with
  | nil => rfl
  | cons es ess ih => exact (ih _).trans (x.addArr_frame _)

@[simp] theorem Index.landAll_frame (x : Index) (ls : List (Nat × List BlkEnt)) : (x.landAll ls).frame = x.frame := by
  induction ls generalizing x with
  | nil => rfl
  | cons l ls ih => exact (ih _).trans (x.landBlocks_frame l.1 _)

@[simp] theorem Index.placeSeal_frame (x : Index) : x.placeSeal.frame = x.frame := by
  unfold Index.placeSeal
  split
  · rfl
  · exact (Index.landAll_frame _ _).trans (x.showAll_frame _)

theorem Index.placeSeal_sealed (x : Index) : x.placeSeal.sealed = true := by
  unfold Index.placeSeal
  split
  next already => exact already
  · rfl

theorem Index.placeSeal_of_sealed {x : Index} (already : x.sealed = true) : x.placeSeal = x := if_pos already

@[simp] theorem Index.touchTab_frame (x : Index) (k : Nat) : (x.touchTab k).frame = x.frame := by
  unfold Index.touchTab
  dsimp only
  split <;> rfl

@[simp] theorem Index.notePages_frame (x : Index) : x.notePages.frame = x.frame :=
  List.foldlRecOn (motive := fun y : Index => y.frame = x.frame) _ _ rfl fun y h p _ => (y.touchTab_frame p).trans h

/-! ### What the placing of arrays and pages leaves of a node -/

/-- Arrays and pages of an index have been placed, written or freed: the indexes, the requests and the clock stand, and of the
registers only two counters may differ. -/
structure State.Stored (s t : State) : Prop where
  rest : t = { s with free := t.free, cist := t.cist, mem := t.mem, hbm := t.hbm, regs := t.regs }
  only : OnlyRegs s t [Reg.CIST_MAPCACHE_STATUS, Reg.SPOUT_CNT_MIGRATE]

namespace State.Stored

theorem refl (s : State) : s.Stored s := ⟨rfl, .refl _ _⟩

theorem of_rest (rest : t = { s with free := t.free, cist := t.cist, mem := t.mem, hbm := t.hbm }) : s.Stored t :=
  ⟨by rw [rest], .of_regs (by rw [rest])⟩

theorem trans (a : s.Stored t) (b : t.Stored u) : s.Stored u := ⟨by rw [b.rest, a.rest], a.only.trans b.only⟩

theorem foldl {α : Type} {f : State → α → State} (step : ∀ (v : State) x, v.Stored (f v x)) (l : List α) (s : State) : s.Stored (l.foldl f s) :=
  List.foldlRecOn (motive := (s.Stored ·)) l f (refl s) fun _ h x _ => h.trans (step _ x)

theorem index? (a : s.Stored t) (i : Nat) : t.index? i = s.index? i := by
  unfold State.index?
  rw [a.rest]

theorem readMapOf (s : State) (n : Nat) : s.Stored (s.readMapOf n) := by
  unfold State.readMapOf State.readMap
  split
  · exact refl s
  · exact ⟨rfl, .bump _ _ _ _ List.mem_cons_self⟩

theorem trim (s : State) (n : Nat) : s.Stored (s.trim n) := by
  unfold State.trim
  split
  · exact of_rest rfl
  · split
    · exact of_rest rfl
    · split
      · have later : s.Stored (s.trimLater n) := of_rest rfl
        exact later.trans (readMapOf _ n)
      · exact of_rest rfl

theorem freePage (s : State) (n : Nat) : s.Stored (s.freePage n) := by
  unfold State.freePage
  exact trans (trim s n) (of_rest rfl)

/-- An index has been replaced, and what it no longer holds freed. -/
theorem swapIndex {i : Nat} {x : Index} (held : s.index? i = some x) (y : Index) : (s.setIndex i y).Stored (s.swapIndex i y) := by
  unfold State.swapIndex
  rw [held]
  exact trans (foldl freePage _ _) (of_rest rfl)

theorem placeNew (s : State) (i : Nat) (old : Option Index) (new : Index) : s.Stored (s.placeNew i old new) := by
  unfold State.placeNew
  exact foldl (fun _ _ => of_rest rfl) _ s

theorem sealNew (s : State) (check : Bool) (i : Nat) (old : Option Index) (new : Index) : s.Stored (s.sealNew check i old new) := by
  refine foldl (fun v p => ?_) _ s
  unfold State.sealArray State.sealRuns
  dsimp only
  split
  · exact of_rest rfl
  · exact refl v

theorem abandonMigs (s : State) (p : Migration → Bool) : s.Stored (s.abandonMigs p) := by
  unfold State.abandonMigs
  extract_lets n _ s1
  have first : s.Stored s1 := of_rest rfl
  split
  · exact first
  · exact first.trans ⟨rfl, .bumpSat _ _ _ _ (by simp)⟩

theorem writeNew (s : State) (i : Nat) (old new : Index) : s.Stored (s.writeNew i old new) := by
  unfold State.writeNew
  exact foldl (fun _ _ => of_rest rfl) _ s

theorem replaceIndex {i : Nat} {x : Index} (held : s.index? i = some x) (y : Index) : (s.setIndex i y).Stored (s.replaceIndex i y) := by
  unfold State.replaceIndex
  rw [held]
  exact (swapIndex held y).trans ((placeNew _ _ _ _).trans ((sealNew _ _ _ _ _).trans (abandonMigs _ _)))

theorem freeUnseen {i : Nat} {x : Index} (held : s.index? i = some x) : (s.setIndex i (x.prune (s.usedEpochs i))).Stored (s.freeUnseen i) := by
  unfold State.freeUnseen
  rw [held]
  exact swapIndex held _

end State.Stored

@[simp] theorem Index.prune_frame (x : Index) (es : List Epoch) : (x.prune es).frame = x.frame := rfl

/-! ### The seal -/

/-- No migration is left that the predicate names. -/
theorem State.abandonMigs_gone (s : State) (p : Migration → Bool) : ∀ m ∈ (s.abandonMigs p).hbm.migs, p m = false := by
  have kept : (s.abandonMigs p).hbm.migs = s.hbm.migs.filter (fun m => !p m) := by
    unfold State.abandonMigs
    dsimp only
    split <;> rfl
  intro m mem
  rw [kept] at mem
  simpa using (List.mem_filter.mp mem).2

/-- The seal of an index that is not sealed places what its ledger holds. -/
theorem State.beginSeal_seals {i : Nat} {x : Index} (held : s.index? i = some x) (open_ : x.sealed = false) :
    (s.setIndex i x.placeSeal).Stored (s.beginSeal i) := by
  unfold State.beginSeal State.sealIndex
  rw [held]
  dsimp only
  rw [if_neg (by rw [open_]; decide)]
  exact (State.Stored.replaceIndex held _).trans ((State.Stored.writeNew _ _ _ _).trans (.abandonMigs _ _))

/-! ### The flip -/

/-- The index `y` is `x` flipped at the instant `w` with the drain length `d` (R198). -/
structure Index.Flipped (x y : Index) (w : Time) (d : Nat) : Prop where
  desc : y.desc = x.desc
  state : y.state = x.state
  cur : y.cur = x.cur + 1
  lastFlip : y.lastFlip = w
  flip : y.flip = none
  sealed : y.sealed = false
  ledger : y.ledger = []
  full : x.live = 4 → y.live = 4 ∧ y.drainEnd = some (w + BitVec.ofNat 64 d)
  room : x.live ≠ 4 → y.live = x.live + 1 ∧ y.drainEnd = none

theorem Index.flipAt_flipped {x y : Index} (same : y.frame = x.frame) (w : Time) (d : Nat) : x.Flipped (y.flipAt w d) w d := by
  have frame : y.placeSeal.notePages.frame = x.frame := by simp [same]
  obtain ⟨desc, state, cur, live, -, -⟩ : y.placeSeal.notePages.desc = x.desc ∧ y.placeSeal.notePages.state = x.state ∧
      y.placeSeal.notePages.cur = x.cur ∧ y.placeSeal.notePages.live = x.live ∧ y.placeSeal.notePages.drainEnd = x.drainEnd ∧
      y.placeSeal.notePages.flip = x.flip := by
    unfold Index.frame at frame
    simpa only [Prod.mk.injEq] using frame
  unfold Index.flipAt
  extract_lets z full
  have whole : full = (x.live = 4) := congrArg (· = 4) live
  exact {
    desc := desc
    state := state
    cur := congrArg (· + 1) cur
    lastFlip := rfl
    flip := rfl
    sealed := rfl
    ledger := rfl
    full := fun four => by
      have yes : full := whole.symm ▸ four
      exact ⟨if_pos yes, if_pos yes⟩
    room := fun few => by
      have no : ¬full := fun c => few (whole ▸ c)
      exact ⟨(if_neg no).trans (congrArg (· + 1) live), if_neg no⟩ }

/-- What is freed or pruned of a flipped index changes none of it. -/
theorem Index.Flipped.pruned {x y z : Index} {w : Time} {d : Nat} (f : x.Flipped y w d) (p : Pruned y z) : x.Flipped z w d := by
  unfold Pruned at p
  rw [p]
  exact ⟨f.desc, f.state, f.cur, f.lastFlip, f.flip, f.sealed, f.ledger, f.full, f.room⟩

/-- The registers that a flip writes before the requests that wait for it go on. -/
def flipRegs : List Nat := [Reg.CIST_MAPCACHE_STATUS, Reg.SPOUT_CNT_MIGRATE, Reg.EPOCH_CNT_FLIPS]

/-- An index that is to flip is sealed first, where it is not already. -/
theorem State.sealIfOpen {i : Nat} {x : Index} (held : s.index? i = some x) : ∃ y, y.frame = x.frame ∧
    (if x.sealed then s else s.beginSeal i).index? i = some y ∧
    (if x.sealed then s else s.beginSeal i) = { s with
      free := (if x.sealed then s else s.beginSeal i).free, indexes := (if x.sealed then s else s.beginSeal i).indexes
      cist := (if x.sealed then s else s.beginSeal i).cist, mem := (if x.sealed then s else s.beginSeal i).mem
      hbm := (if x.sealed then s else s.beginSeal i).hbm, regs := (if x.sealed then s else s.beginSeal i).regs } ∧
    OnlyRegs s (if x.sealed then s else s.beginSeal i) [Reg.CIST_MAPCACHE_STATUS, Reg.SPOUT_CNT_MIGRATE] := by
  split
  · exact ⟨x, rfl, held, rfl, .refl _ _⟩
  next open_ =>
    have seals := State.beginSeal_seals held (by simpa using open_)
    refine ⟨x.placeSeal, x.placeSeal_frame, (seals.index? i).trans (State.index?_setIndex_same (s := s) i _), ?_, ?_⟩
    · have rest := seals.rest
      rw [rest]
      rfl
    · exact OnlyRegs.trans (t := s.setIndex i x.placeSeal) (.of_regs rfl) seals.only

/-- An index flips: it is sealed where it was not, its next epoch opens, what no epoch sees is freed, and the requests that wait for
the flip go on. -/
theorem State.doFlip_flips {i : Nat} {x : Index} (held : s.index? i = some x) (w : Time) : ∃ a : State, s.doFlip i w = a.wakeFlip i ∧
    a = { s with clep := a.clep, free := a.free, indexes := a.indexes, cist := a.cist, mem := a.mem, hbm := a.hbm, regs := a.regs } ∧
    a.clep.count = s.clep.count ∧ OnlyRegs s a flipRegs ∧ Counted s a Reg.EPOCH_CNT_FLIPS 0 64 1 ∧
    ∃ y, a.index? i = some y ∧ x.Flipped y w (s.regF Reg.EPOCH_CFG 20 20) := by
  unfold State.doFlip
  rw [held]
  dsimp only
  obtain ⟨y, same, there, rest, only⟩ := State.sealIfOpen held
  generalize (if x.sealed then s else s.beginSeal i) = s1 at there rest only ⊢
  rw [there]
  dsimp only
  have cfg : s1.regF Reg.EPOCH_CFG 20 20 = s.regF Reg.EPOCH_CFG 20 20 := only.regF _ _ _ (by decide)
  rw [cfg]
  have flipped := Index.flipAt_flipped same w (s.regF Reg.EPOCH_CFG 20 20)
  generalize y.flipAt w (s.regF Reg.EPOCH_CFG 20 20) = z at flipped ⊢
  generalize hs2 : (s1.setIndex i z).disarmSlot z.flipSlot = s2
  have here : s2.index? i = some z := by
    rw [← hs2]
    exact State.index?_setIndex_same (s := s1) i z
  have slots : s1.SlotsOnly s2 := by
    rw [← hs2]
    exact State.SlotsOnly.setSlot (s := s1.setIndex i z) _ _
  have form : s2 = { s1 with indexes := s2.indexes, clep := s2.clep } := by
    rw [← hs2]
    rfl
  clear hs2
  have freed := State.Stored.freeUnseen here
  have kept : (s2.freeUnseen i).index? i = some (z.prune (s2.usedEpochs i)) :=
    (freed.index? i).trans (State.index?_setIndex_same (s := s2) i _)
  generalize s2.freeUnseen i = s3 at freed kept ⊢
  have regs : OnlyRegs s s3 [Reg.CIST_MAPCACHE_STATUS, Reg.SPOUT_CNT_MIGRATE] := by
    have still : OnlyRegs s1 (s2.setIndex i (z.prune (s2.usedEpochs i))) [] := .of_regs (by rw [form]; rfl)
    exact fun k h => (freed.only k h).trans ((still k List.not_mem_nil).trans (only k h))
  refine ⟨s3.bump Reg.EPOCH_CNT_FLIPS 0 64 1, rfl, ?_, ?_, ?_, ?_, _, kept, flipped.pruned rfl⟩
  · rw [freed.rest, form, rest]
    rfl
  · have count := slots.count
    rw [rest] at count
    show s3.clep.count = _
    rw [freed.rest]
    exact count
  · have first : OnlyRegs s s3 flipRegs := fun k h => regs k fun c => h (List.mem_append_left [Reg.EPOCH_CNT_FLIPS] c)
    exact first.trans (.bump _ _ _ _ (by simp [flipRegs]))
  · exact .after _ _ _ _ (regs.regF _ _ _ (by decide)) (.of_bump _ _ _ _ (by decide))

end Sys2Proof.Machine
end

section
/-! CLAIM. Event slots fire: epochs flip, seal and drain, maps and gate lists switch (R35 to R41, R188, R197, R198, R433, R435, R445). -/

set_option Elab.async false

namespace Sys2Proof.Machine
variable {s t u : State}

/-! ### A slot that fires -/

/-- The registers that the firing of a slot writes. -/
def firedRegs : List Nat := [Reg.CLEP_SLOT_FIRED, Reg.CLEP_ERR_CNT, Reg.CLEP_EVENT]

theorem State.mayFire_lt {n : Nat} {k : SlotKind} (may : s.mayFire n k = true) : n < 64 := by
  unfold State.mayFire at may
  simp only [Bool.and_eq_true, decide_eq_true_eq] at may
  exact may.1.1.1

theorem State.noteFired_bit (s : State) {n : Nat} (small : n < 64) (late : Bool) : bit ((s.noteFired n late).reg Reg.CLEP_SLOT_FIRED) n = true := by
  have fired := s.bit_setRegF_one Reg.CLEP_SLOT_FIRED n small
  unfold State.noteFired
  extract_lets s1
  have there : bit (s1.reg Reg.CLEP_SLOT_FIRED) n = true := fired
  clear_value s1
  split
  · have wrote : s1.Wrote ((s1.bumpSat Reg.CLEP_ERR_CNT 16 16 1).clepEvent 8) [Reg.CLEP_ERR_CNT, Reg.CLEP_EVENT] :=
      .trans (.bumpSat (by simp) _ _ _) (.setRegF (by simp) _ _ _)
    rwa [wrote.only Reg.CLEP_SLOT_FIRED (by decide)]
  · exact there

/-- What a slot that fires hands on: three registers and its own slot differ, and its firing is noted. -/
structure State.SlotFired (s t : State) (n : Nat) (v : EvSlot) : Prop where
  rest : t = { s with clep := t.clep, regs := t.regs }
  clep : t.clep = { s.clep with slots := t.clep.slots }
  slot : t.slot n = v
  only : OnlyRegs s t firedRegs
  fired : bit (t.reg Reg.CLEP_SLOT_FIRED) n = true

theorem State.noteFired_fires (s : State) {n : Nat} (small : n < 64) (late : Bool) (v : EvSlot) :
    s.SlotFired ((s.noteFired n late).setSlot n v) n v := by
  have wrote := s.noteFired_wrote n late
  have bit := s.noteFired_bit small late
  generalize s.noteFired n late = w at wrote bit ⊢
  exact {
    rest := by
      rw [wrote.rest]
      rfl
    clep := (State.SlotsOnly.of_clep (by rw [wrote.rest])).trans (State.SlotsOnly.setSlot n v)
    slot := State.slot_setSlot_same _ _ _
    only := fun k h => wrote.only k h
    fired := bit }

/-- What follows the firing of a slot serves requests only. -/
theorem State.settleInstant_serves (s : State) : Serves s s.settleInstant :=
  (Keeps.settleInstant (md := true) (ck := true) (lb := true) (wd := false) (.refl s)).served rfl

theorem exec_fireOn {n : Nat} {k : SlotKind} (may : s.mayFire n k = true) : s.fireOn n k = (s.fireSlot n).settleInstant := if_pos may

/-! ### Epochs -/

theorem Pruned.frame {x y : Index} (p : Pruned x y) : y.frame = x.frame := by
  unfold Pruned at p
  rw [p]
  rfl

theorem State.fireSlot_flip {n : Nat} (kind : (s.slot n).kind = .epochFlip) : s.fireSlot n =
    ((s.noteFired n (s.slot n).missed).setSlot n { s.slot n with armed := false, missed := false, late := (s.slot n).missed }).doFlip
      (s.slot n).owner (if (s.slot n).missed then s.now else (s.slot n).time) := by
  unfold State.fireSlot
  dsimp only
  rw [kind]

/-- A flip slot fires on time: its index flips at the slot's time. -/
theorem State.fireSlot_flips {n : Nat} {x : Index} (may : s.mayFire n .epochFlip = true) (onTime : (s.slot n).missed = false)
    (held : s.index? (s.slot n).owner = some x) : ∃ y, (s.fireSlot n).index? (s.slot n).owner = some y ∧
      x.Flipped y (s.slot n).time (s.regF Reg.EPOCH_CFG 20 20) ∧ bit ((s.fireSlot n).reg Reg.CLEP_SLOT_FIRED) n = true ∧
      Counted s (s.fireSlot n) Reg.EPOCH_CNT_FLIPS 0 64 1 ∧ (s.fireSlot n).clep.count = s.clep.count ∧ (s.fireSlot n).slices = s.slices := by
  rw [State.fireSlot_flip (State.mayFire_kind may), onTime, if_neg Bool.false_ne_true]
  have fired := s.noteFired_fires (State.mayFire_lt may) false { s.slot n with armed := false, missed := false, late := false }
  generalize (s.noteFired n false).setSlot n { s.slot n with armed := false, missed := false, late := false } = v at fired ⊢
  have there : v.index? (s.slot n).owner = some x := by
    rw [fired.rest]
    exact held
  obtain ⟨a, flips, rest, count, only, counted, y, found, flipped⟩ := State.doFlip_flips there (s.slot n).time
  have cfg : v.regF Reg.EPOCH_CFG 20 20 = s.regF Reg.EPOCH_CFG 20 20 := fired.only.regF _ _ _ (by decide)
  have serves := (Keeps.wakeFlip (md := true) (ck := true) (lb := true) (wd := false) (.refl a) (i := (s.slot n).owner)).served rfl
  rw [flips]
  generalize a.wakeFlip (s.slot n).owner = b at serves ⊢
  obtain ⟨z, kept, pruned⟩ := (serves.indexes (s.slot n).owner).2 y found
  refine ⟨z, kept, cfg ▸ flipped.pruned pruned, ?_, ?_, ?_, ?_⟩
  · rw [serves.regs _ (by decide), only _ (by decide)]
    exact fired.fired
  · refine .before _ _ _ _ (.after _ _ _ _ (fired.only.regF _ _ _ (by decide)) counted) ?_
    unfold State.regF
    rw [serves.regs _ (by decide)]
  · rw [serves.rest]
    show a.clep.count = _
    rw [count, fired.clep]
  · rw [serves.rest]
    show a.slices = _
    rw [rest]
    show v.slices = _
    rw [fired.rest]

theorem Index.frame_eq {x y : Index} (same : y.frame = x.frame) : y.desc = x.desc ∧ y.state = x.state ∧ y.cur = x.cur ∧ y.live = x.live ∧
    y.drainEnd = x.drainEnd ∧ y.flip = x.flip := by
  unfold Index.frame at same
  simpa only [Prod.mk.injEq] using same

section Seal
variable {idx : Fin 32} {x : Index} (held : s.index? idx = some x)
include held

theorem exec_sealBegin_open (open_ : x.sealed = false) (begun : s.sealBegun x = true) : exec (.sealBegin idx) s = .next (s.beginSeal idx) := by
  show execSealBegin idx s = _
  unfold execSealBegin
  rw [held]
  exact if_pos (by rw [open_, begun]; rfl)

theorem exec_sealBegin_settled (settled : x.sealed = true ∨ s.sealBegun x = false) : exec (.sealBegin idx) s = .next s := by
  show execSealBegin idx s = _
  unfold execSealBegin
  rw [held]
  refine if_neg ?_
  obtain already | early := settled
  · rw [already]
    exact Bool.false_ne_true
  · rw [early, Bool.and_false]
    exact Bool.false_ne_true

variable {e : Time} (drains : x.drainEnd = some e)
include drains

theorem exec_drainEnd_late (late : e.toNat ≤ s.now.toNat) :
    exec (.drainEnd idx) s = .next ((s.setIndex idx x.endDrain).freeUnseen idx) := by
  show execDrainEnd idx s = _
  unfold execDrainEnd
  rw [held]
  dsimp only
  rw [drains]
  exact if_pos late

theorem exec_drainEnd_early (early : s.now.toNat < e.toNat) : exec (.drainEnd idx) s = .next s := by
  show execDrainEnd idx s = _
  unfold execDrainEnd
  rw [held]
  dsimp only
  rw [drains]
  exact if_neg (Nat.not_le.mpr early)

end Seal

/-! ### Maps and gate lists -/

/-- The choice of the tags of a point touches nothing else of it, and no other point. -/
theorem State.retag_retags (s : State) (pt : Nat) : (∃ v, s.retag pt = s.setPoint pt v) ∧
    ((s.retag pt).point pt = { s.point pt with tags := ((s.retag pt).point pt).tags }) ∧ ∀ q, q ≠ pt → (s.retag pt).point q = s.point q := by
  unfold State.retag
  dsimp only
  exact ⟨⟨_, rfl⟩, by rw [State.point_setPoint_same], fun q other => State.point_setPoint_other (s := s) _ _ _ other⟩

theorem State.takeOver_takes {pt : Nat} {g : PendingGate} (pending : (s.point pt).pending = some g) (late : Bool) :
    s.takeOver pt late = { s with regs := (s.takeOver pt late).regs, points := (s.takeOver pt late).points } ∧
    ((s.takeOver pt late).point pt).active = some g.list ∧ ((s.takeOver pt late).point pt).cur = 0 ∧
    ((s.takeOver pt late).point pt).pending = none ∧ ((s.takeOver pt late).point pt).queue = (s.point pt).queue ∧
    OnlyRegs s (s.takeOver pt late) [Reg.SLU_CNT_ERR] ∧ Counted s (s.takeOver pt late) Reg.SLU_CNT_ERR 16 32 1 := by
  unfold State.takeOver
  dsimp only
  rw [pending]
  dsimp only
  generalize hv : ({ s.point pt with active := some g.list, cur := 0, pending := none, late := late, lastTake := s.now } : SPoint) = v
  have set : (s.setPoint pt v).point pt = v := State.point_setPoint_same (s := s) _ _
  have counted : Counted (s.setPoint pt v) ((s.setPoint pt v).bump Reg.SLU_CNT_ERR 16 32 1) Reg.SLU_CNT_ERR 16 32 1 :=
    .of_bump _ _ _ _ (by decide)
  have only : OnlyRegs (s.setPoint pt v) ((s.setPoint pt v).bump Reg.SLU_CNT_ERR 16 32 1) [Reg.SLU_CNT_ERR] := .bump _ _ _ _ List.mem_cons_self
  generalize hw : (s.setPoint pt v).bump Reg.SLU_CNT_ERR 16 32 1 = w at counted only
  have form : w = { s.setPoint pt v with regs := w.regs } := by
    rw [← hw]
    rfl
  obtain ⟨⟨p, eq⟩, point, -⟩ := w.retag_retags pt
  have here : w.point pt = v := by
    rw [form]
    exact set
  rw [here] at point
  have rest : w.retag pt = { s with regs := (w.retag pt).regs, points := (w.retag pt).points } := by
    rw [eq, form]
    rfl
  have regs : OnlyRegs w (w.retag pt) [] := .of_regs (by rw [eq]; rfl)
  generalize w.retag pt = x at point rest regs ⊢
  refine ⟨rest, ?_, ?_, ?_, ?_, ?_, ?_⟩
  · rw [point, ← hv]
  · rw [point, ← hv]
  · rw [point, ← hv]
  · rw [point, ← hv]
  · exact fun k h => (regs k List.not_mem_nil).trans (only k h)
  · exact .before _ _ _ _ counted (regs.regF _ _ _ List.not_mem_nil)

theorem State.mapSwitch_switches {p : PendingMap} (pending : s.slices.pending = some p) (late : Bool) :
    s.mapSwitch late = { s with slices := (s.mapSwitch late).slices, points := (s.mapSwitch late).points, mem := (s.mapSwitch late).mem } ∧
    (s.mapSwitch late).slices.gen = s.slices.gen + 1 ∧ (s.mapSwitch late).slices.map = fullMap p.map ∧
    (s.mapSwitch late).slices.pending = none ∧ (s.mapSwitch late).slices.late = late ∧ (s.mapSwitch late).slices.switchedAt = s.now := by
  unfold State.mapSwitch
  rw [pending]
  dsimp -zeta only
  extract_lets old new g since changed terrs grans lacks _ s1 joined
  have points : ∀ (l : List Nat) (v : State), ∃ ps, l.foldl (fun (u : State) t => u.pointOut (169 + t) (u.terraceOut t)) v = { v with points := ps } :=
    fun l v => List.foldlRecOn (motive := fun w : State => ∃ ps, w = { v with points := ps }) l _ ⟨v.points, rfl⟩ fun w h t _ => by
      obtain ⟨ps, rfl⟩ := h
      exact ⟨_, rfl⟩
  obtain ⟨ps, eq⟩ := points joined s1.shrinkCaches
  rw [eq]
  exact ⟨rfl, rfl, rfl, rfl, rfl, rfl⟩

theorem State.settleInstant_idle (idle : ∀ p ∈ s.reqs, p.2.life ≠ .waitMap) : s.settleInstant = s := by
  have none : s.reqs.filter (fun q => s.switched q.2) = [] := List.filter_eq_nil_iff.mpr fun p mem => by
    unfold State.switched
    simp [idle p mem]
  unfold State.settleInstant
  split
  · rfl
  · unfold State.resumeMaps
    rw [none]
    rfl

end Sys2Proof.Machine

section Settled
open Sys2Proof Sys2Proof.Machine

/-- Settles O33: a flip is that of `Index.flipAt` after the seal, and what is freed later changes none of it. -/
theorem epochsFlip : Obligations.EpochsFlip := by
  unfold Obligations.EpochsFlip
  refine ⟨?flip, ?begins, ?already, ?drain⟩
  case flip =>
    intro n s x may onTime held
    obtain ⟨y, found, flipped, fired, counted, count, slices⟩ := State.fireSlot_flips may onTime held
    refine ⟨_, congrArg Host.Outcome.next (exec_fireOn may), s.fireSlot n, y, rfl, found, flipped.desc, flipped.state, flipped.cur,
      flipped.lastFlip, flipped.flip, flipped.sealed, flipped.ledger, flipped.full, flipped.room, fired, counted, count, slices⟩
  case begins =>
    intro idx s x held open_ begun
    have seals := State.beginSeal_seals held open_
    obtain ⟨desc, -, cur, live, -, flip⟩ := Index.frame_eq x.placeSeal_frame
    have gone : ∀ m ∈ (s.beginSeal idx).hbm.migs, (m.idx == idx.val) = false := State.abandonMigs_gone _ _
    refine ⟨_, exec_sealBegin_open held open_ begun, ⟨_, (seals.index? idx).trans (State.index?_setIndex_same (s := s) _ _),
      x.placeSeal_sealed, cur, live, flip, desc⟩, fun m mem => ?_, ?_, ?_⟩
    · simpa using gone m mem
    · rw [seals.rest]
      rfl
    · rw [seals.rest]
      rfl
  case already =>
    intro idx s x held settled
    exact ⟨_, exec_sealBegin_settled held settled, rfl⟩
  case drain =>
    intro idx s x e held drains
    refine ⟨fun late => ⟨_, exec_drainEnd_late held drains late, ?_⟩, fun early => ⟨_, exec_drainEnd_early held drains early, rfl⟩⟩
    have there : (s.setIndex idx x.endDrain).index? idx = some x.endDrain := State.index?_setIndex_same (s := s) _ _
    have freed := State.Stored.freeUnseen there
    refine ⟨?_, ?_, _, (freed.index? idx).trans (State.index?_setIndex_same (s := s.setIndex idx x.endDrain) _ _), rfl, rfl, rfl, rfl⟩
    · rw [freed.rest]
      rfl
    · rw [freed.rest]
      rfl

/-- Settles O34: a slot's firing takes over what is pending, and what follows it serves requests only. -/
theorem mapsAndGatesSwitch : Obligations.MapsAndGatesSwitch := by
  unfold Obligations.MapsAndGatesSwitch
  refine ⟨?map, ?gate, fun s => ⟨rfl, State.settleInstant_idle⟩, ?window⟩
  case map =>
    intro n s p may pending
    refine ⟨_, congrArg Host.Outcome.next (exec_fireOn may), ?_⟩
    have fired := s.noteFired_fires (State.mayFire_lt may) (s.slot n).missed { EvSlot.none with late := (s.slot n).missed }
    have fires : s.fireSlot n = ((s.noteFired n (s.slot n).missed).setSlot n { EvSlot.none with late := (s.slot n).missed }).mapSwitch
        (s.slot n).missed := by
      unfold State.fireSlot
      dsimp only
      rw [State.mayFire_kind may]
    rw [fires]
    generalize (s.noteFired n (s.slot n).missed).setSlot n { EvSlot.none with late := (s.slot n).missed } = v at fired ⊢
    have same : v.slices = s.slices := by rw [fired.rest]
    obtain ⟨rest, gen, map, none, late, at_⟩ := State.mapSwitch_switches (s := v) (same ▸ pending) (s.slot n).missed
    have serves := (v.mapSwitch (s.slot n).missed).settleInstant_serves
    generalize v.mapSwitch (s.slot n).missed = w at rest gen map none late at_ serves ⊢
    have slices : w.settleInstant.slices = w.slices := by rw [serves.rest]
    have clep : w.settleInstant.clep = v.clep := by
      rw [serves.rest]
      show w.clep = _
      rw [rest]
    have now : v.now = s.now := by
      unfold State.now
      rw [fired.clep]
    refine ⟨by rw [slices, gen, same], slices.symm ▸ map, slices.symm ▸ none, slices.symm ▸ late, by rw [slices, at_, now], ?_, ?_,
      by rw [clep, fired.clep]⟩
    · have regs : OnlyRegs v w [] := .of_regs (by rw [rest])
      rw [serves.regs _ (by decide), regs _ List.not_mem_nil]
      exact fired.fired
    · have slot : w.settleInstant.slot n = v.slot n := by
        unfold State.slot
        rw [clep]
      rw [slot, fired.slot]
      rfl
  case gate =>
    intro n s g may pending
    refine ⟨_, congrArg Host.Outcome.next (exec_fireOn may), s.fireSlot n, rfl, ?_⟩
    have fired := s.noteFired_fires (State.mayFire_lt may) (s.slot n).missed { EvSlot.none with late := (s.slot n).missed }
    have fires : s.fireSlot n = ((s.noteFired n (s.slot n).missed).setSlot n { EvSlot.none with late := (s.slot n).missed }).takeOver
        (s.slot n).owner (s.slot n).missed := by
      unfold State.fireSlot
      dsimp only
      rw [State.mayFire_kind may]
    rw [fires]
    generalize (s.noteFired n (s.slot n).missed).setSlot n { EvSlot.none with late := (s.slot n).missed } = v at fired ⊢
    have points (k : Nat) : v.point k = s.point k := by
      unfold State.point
      rw [fired.rest]
    obtain ⟨rest, active, cur, none, queue, only, counted⟩ := State.takeOver_takes (s := v) ((points _).symm ▸ pending) (s.slot n).missed
    generalize v.takeOver (s.slot n).owner (s.slot n).missed = w at rest active cur none queue only counted ⊢
    refine ⟨?_, active, cur, none, by rw [queue, points], ?_, ?_, .after _ _ _ _ (fired.only.regF _ _ _ (by decide)) counted⟩
    · rw [rest, fired.rest]
    · have slot : w.slot n = v.slot n := by
        unfold State.slot
        rw [rest]
      rw [slot, fired.slot]
      rfl
    · rw [only _ (by decide)]
      exact fired.fired
  case window =>
    intro pt s l active
    refine ⟨(s.setPoint pt { s.point pt with cur := ((s.point pt).cur + 1) % max 1 l.length }).retag pt, ?_, ?_⟩
    · show execGateWindowEnd pt s = _
      unfold execGateWindowEnd
      dsimp only
      rw [active]
    · obtain ⟨⟨v, eq⟩, point, others⟩ := (s.setPoint pt { s.point pt with cur := ((s.point pt).cur + 1) % max 1 l.length }).retag_retags pt
      rw [State.point_setPoint_same] at point
      refine ⟨by rw [eq]; rfl, by rw [point], by rw [point]; exact active, by rw [point], by rw [point], fun q other => ?_⟩
      rw [others q other]
      exact State.point_setPoint_other (s := s) _ _ _ other

end Settled
end

section
/-! CLAIM. Which count words are taken, and when the count runs free (R23, R29, R30, Table 2-3). -/

set_option Elab.async false

namespace Sys2Proof.Machine
variable {s t u : State}

/-! ### Events stay -/

/-- The events that are noted stay noted. -/
def State.EventsStay (s t : State) : Prop := ∀ i, bit (s.reg Reg.CLEP_EVENT) i = true → bit (t.reg Reg.CLEP_EVENT) i = true

theorem State.EventsStay.trans (a : s.EventsStay t) (b : t.EventsStay u) : s.EventsStay u := fun i h => b i (a i h)

theorem State.EventsStay.of_reg (h : t.reg Reg.CLEP_EVENT = s.reg Reg.CLEP_EVENT) : s.EventsStay t := fun i b => by rwa [h]

theorem State.EventsStay.of_only {ks : List Nat} (only : OnlyRegs s t ks) (h : Reg.CLEP_EVENT ∉ ks) : s.EventsStay t := .of_reg (only _ h)

theorem State.EventsStay.of_serves (serves : Serves s t) : s.EventsStay t := .of_reg (serves.regs _ (by decide))

theorem State.noteFired_eventsStay (s : State) (n : Nat) (late : Bool) : s.EventsStay (s.noteFired n late) := by
  unfold State.noteFired
  extract_lets s1
  have first : s.EventsStay s1 := .of_only (ks := [Reg.CLEP_SLOT_FIRED]) (.setRegF _ _ _ _ List.mem_cons_self) (by decide)
  clear_value s1
  split
  · have second : s1.EventsStay (s1.bumpSat Reg.CLEP_ERR_CNT 16 16 1) :=
      .of_only (ks := [Reg.CLEP_ERR_CNT]) (.bumpSat _ _ _ _ List.mem_cons_self) (by decide)
    exact (first.trans second).trans fun i h => State.clepEvent_keeps_bit _ 8 i (by decide) h
  · exact first

theorem State.mapSwitch_eventsStay (s : State) (late : Bool) : s.EventsStay (s.mapSwitch late) := by
  cases pending : s.slices.pending with
  | none =>
    unfold State.mapSwitch
    rw [pending]
    exact fun _ h => h
  | some p =>
    have rest := (State.mapSwitch_switches pending late).1
    exact .of_only (ks := []) (.of_regs (by rw [rest])) List.not_mem_nil

theorem State.takeOver_eventsStay (s : State) (pt : Nat) (late : Bool) : s.EventsStay (s.takeOver pt late) := by
  cases pending : (s.point pt).pending with
  | none =>
    unfold State.takeOver
    dsimp only
    rw [pending]
    exact fun _ h => h
  | some g =>
    obtain ⟨-, -, -, -, -, only, -⟩ := State.takeOver_takes pending late
    exact .of_only only (by decide)

theorem State.doFlip_eventsStay (s : State) (i : Nat) (w : Time) : s.EventsStay (s.doFlip i w) := by
  cases held : s.index? i with
  | none =>
    unfold State.doFlip
    rw [held]
    exact fun _ h => h
  | some x =>
    obtain ⟨a, flips, -, -, only, -⟩ := State.doFlip_flips held w
    rw [flips]
    refine .trans (.of_only only (by decide)) (.of_serves ?_)
    exact (Keeps.wakeFlip (md := true) (ck := true) (lb := true) (wd := false) (.refl a)).served rfl

theorem State.fireSlot_eventsStay (s : State) (n : Nat) : s.EventsStay (s.fireSlot n) := by
  have noted (v : EvSlot) : s.EventsStay ((s.noteFired n (s.slot n).missed).setSlot n v) := s.noteFired_eventsStay _ _
  unfold State.fireSlot
  dsimp only
  split
  · exact (noted _).trans (State.mapSwitch_eventsStay _ _)
  · exact (noted _).trans (State.takeOver_eventsStay _ _ _)
  · exact (noted _).trans (State.doFlip_eventsStay _ _ _)
  · exact noted _
  · exact fun _ h => h

theorem State.fireDue_eventsStay (s : State) : s.EventsStay s.fireDue := by
  unfold State.fireDue
  extract_lets due order
  refine .trans ?_ (.of_serves (State.settleInstant_serves _))
  exact List.foldlRecOn (motive := (s.EventsStay ·)) order (fun (t : State) p => t.fireSlot p.2) (fun _ h => h)
    fun v h p _ => h.trans (v.fireSlot_eventsStay p.2)

theorem State.enterLocked_eventsStay (s : State) : s.EventsStay s.enterLocked := by
  unfold State.enterLocked
  generalize hv : (s.withClep { s.clep with lock := .locked, lossHeld := false }).clepEvent 5 = v
  have first : s.EventsStay v := fun i h => by
    rw [← hv]
    exact State.clepEvent_keeps_bit (s.withClep { s.clep with lock := .locked, lossHeld := false }) 5 i (by decide) h
  exact first.trans ((State.EventsStay.of_only (v.logEvent_onlyRegs 7 0 sevInfo (by decide) []) List.not_mem_nil).trans (State.fireDue_eventsStay _))

/-! ### Keeper's own count -/

/-- Under internal free-run the count is loaded from Keeper's own and locked (R30). -/
theorem State.loadOwn_loads (invalid : s.clep.countValid = false) : s.loadOwn.clep.count = s.ownCount ∧ s.loadOwn.clep.countValid = true ∧
    s.loadOwn.clep.lock = .locked ∧ s.loadOwn.clep.fresh = false ∧ s.loadOwn.clep.lastStep = s.ownCount - s.clep.count ∧
    bit (s.loadOwn.reg Reg.CLEP_EVENT) 7 = true := by
  unfold State.loadOwn
  rw [if_neg (by rw [invalid]; decide)]
  extract_lets s1
  have stepped := s.stepCount_slotsOnly s.ownCount
  have event := s.stepCount_reg s.ownCount Reg.CLEP_EVENT
  have clep : s1.clep = { s1.clep with count := s.ownCount, countValid := true, lastStep := s.ownCount - s.now } := by
    have eq := stepped.eq
    rw [show s1.clep = _ from eq]
    rfl
  have noted : bit (s1.reg Reg.CLEP_EVENT) 7 = true := by
    rw [show s1.reg Reg.CLEP_EVENT = _ from event]
    exact s.clepEvent_bit 7 (by decide)
  clear_value s1
  generalize hv : s1.withClep { s1.clep with fresh := false } = v
  have eq := v.enterLocked_slotsOnly.eq
  have fresh : v.clep = { s1.clep with fresh := false } := by
    rw [← hv]
    rfl
  have reg : v.reg Reg.CLEP_EVENT = s1.reg Reg.CLEP_EVENT := by
    rw [← hv]
    rfl
  have events := v.enterLocked_eventsStay 7 (by rw [reg]; exact noted)
  refine ⟨?_, ?_, ?_, ?_, ?_, events⟩
  · rw [eq]
    show v.clep.count = _
    rw [fresh, clep]
  · rw [eq]
    show v.clep.countValid = _
    rw [fresh, clep]
  · rw [eq]
    rfl
  · rw [eq]
    show v.clep.fresh = _
    rw [fresh]
  · rw [eq]
    show v.clep.lastStep = _
    rw [fresh, clep]
    rfl

/-! ### Words -/

theorem exec_count {port : Fin 8} {w : List Byte} (external : s.clep.internal = false) (up : s.portUp port = true) (good : ctrlGood w = true)
    (kind : byteAt w 0 = 4) : exec (.count port w) s = .next (s.withClep { s.clep with
      portWords := s.clep.portWords.filter (fun p => p.1 != port.val) ++ [(port.val, BitVec.ofNat 64 (leAt w 8 8))]
      pendingWord := if s.regF Reg.CLEP_CTRL 0 4 = port.val then some (BitVec.ofNat 64 (leAt w 8 8)) else s.clep.pendingWord }) := by
  show execCount port w s = _
  unfold execCount
  rw [State.takeCtrl_good up good kind]
  exact if_neg (by simp [external])

section KeeperWord
variable (running : s.keeper.running = true)
include running

/-- Keeper goes by the words of the interval, of which there is one at least. -/
theorem exec_keeperCountWord_words (external : s.clep.internal = false) {p : Nat × Time} {ps : List (Nat × Time)} (words : s.clep.portWords = p :: ps) :
    exec .keeperCountWord s = .next (if ps.all (fun q => q.2 == p.2) = true
      then (if s.regF Reg.CLEP_CTRL 0 4 = 8 then (s.withClep { s.clep with portWords := [] }).withClep
          { (s.withClep { s.clep with portWords := [] }).clep with pendingWord := some p.2 } else s.withClep { s.clep with portWords := [] })
      else (s.withClep { s.clep with portWords := [] }).logEvent 7 4 sevInfo) := by
  show execKeeperCountWord s = _
  unfold execKeeperCountWord
  dsimp only
  rw [if_neg (by simp [running]), if_neg (by simp [external]), words]
  dsimp only
  exact (apply_ite Host.Outcome.next _ _ _).symm

theorem exec_keeperCountWord_own (internal : s.clep.internal = true) :
    exec .keeperCountWord s = .next (if 8 ≤ s.rst.step then s.loadOwn else s) := by
  show execKeeperCountWord s = _
  unfold execKeeperCountWord
  dsimp only
  rw [if_neg (by simp [running]), if_pos internal]

end KeeperWord

/-- An informative entry joins those that are buffered. -/
theorem State.logEvent_info (s : State) (c n : Nat) : (s.logEvent c n sevInfo).keeper.buffered.length = s.keeper.buffered.length + 1 := by
  unfold State.logEvent State.logRaw
  dsimp only
  rw [if_neg (by decide), if_neg (by decide)]
  exact List.length_append

/-- The receiver leaves for FREE: nothing else of it is lost, and the event is noted. -/
theorem State.enterFree_frees (s : State) : s.enterFree = { s with clep := s.enterFree.clep, regs := s.enterFree.regs, keeper := s.enterFree.keeper } ∧
    s.enterFree.clep.lock = .free ∧ s.enterFree.clep.count = s.clep.count ∧ OnlyRegs s s.enterFree [Reg.CLEP_EVENT] ∧
    bit (s.enterFree.reg Reg.CLEP_EVENT) 4 = true := by
  refine ⟨s.enterFree_restKept, ?_, ?_, s.enterFree_onlyRegs, s.enterFree_bit⟩
  · rw [s.enterFree_clep]
  · rw [s.enterFree_clep]

end Sys2Proof.Machine

section Settled
open Sys2Proof Sys2Proof.Machine

/-- Settles O32: the port of CNT_SRC chooses the word, Keeper passes what its ports agree on, and the limits end in FREE. -/
theorem countWordsTaken : Obligations.CountWordsTaken := by
  unfold Obligations.CountWordsTaken
  refine ⟨fun port w s external up good kind => ⟨_, exec_count external up good kind, ?_⟩,
    fun s running external p ps words => ⟨_, exec_keeperCountWord_words running external words, ?_⟩,
    fun s running internal => ⟨fun early => ⟨_, exec_keeperCountWord_own running internal, if_neg (Nat.not_le.mpr early)⟩,
      fun late invalid => ⟨_, exec_keeperCountWord_own running internal, ?_⟩,
      fun late valid => ⟨_, exec_keeperCountWord_own running internal, ?_⟩⟩,
    fun s acquire late => ⟨s.enterFree, congrArg Host.Outcome.next (if_pos ⟨acquire, late⟩), s.enterFree_frees⟩,
    fun s holdover late => ⟨s.enterFree, congrArg Host.Outcome.next (if_pos ⟨holdover, late⟩), s.enterFree_frees⟩⟩
  · exact ⟨rfl, rfl, by simp [State.withClep], fun mine => if_pos mine, fun other => if_neg other⟩
  · by_cases agree : ∀ q ∈ ps, q.2 = p.2
    · have all : ps.all (fun q => q.2 == p.2) = true := by simpa using agree
      rw [if_pos all]
      have no : ¬∃ q ∈ ps, q.2 ≠ p.2 := fun ⟨q, mem, other⟩ => other (agree q mem)
      by_cases mine : s.regF Reg.CLEP_CTRL 0 4 = 8
      · rw [if_pos mine, if_pos mine]
        exact ⟨rfl, rfl, rfl, rfl, fun _ => ⟨rfl, rfl⟩, fun c => absurd c no⟩
      · rw [if_neg mine, if_neg mine]
        exact ⟨rfl, rfl, rfl, rfl, fun _ => ⟨rfl, rfl⟩, fun c => absurd c no⟩
    · have some_ : ¬ps.all (fun q => q.2 == p.2) = true := by simpa using agree
      rw [if_neg some_]
      have logged := (s.withClep { s.clep with portWords := [] }).logEvent_eq 7 4 sevInfo (by decide)
      have more := (s.withClep { s.clep with portWords := [] }).logEvent_info 7 4
      generalize (s.withClep { s.clep with portWords := [] }).logEvent 7 4 sevInfo = t at logged more ⊢
      have clep : t.clep = { s.clep with portWords := [] } := by
        rw [logged]
        rfl
      refine ⟨?_, ?_, ?_, ?_, fun c => absurd c agree, fun _ => ⟨?_, more⟩⟩
      · rw [logged]
        rfl
      · rw [clep]
      · rw [clep]
      · rw [clep]
      · rw [clep]
  · rw [if_pos late]
    exact State.loadOwn_loads invalid
  · rw [if_pos late]
    exact if_pos valid

end Settled
end

section
/-! CLAIM. Lower-tier reads: why a page that is lost may be read again at once (R349 to R362, R385). -/

set_option Elab.async false

namespace Sys2Proof.Machine

/-! ### A state in which a lost page is the map page of one that is freed

The request 1 waits for the last step of the read of a page `l` of space 3. Its index holds a block array that no slot of it names any
more, whose image lies in a page so far up that `l` is the page of its map entry. The end of the request with TIER_FAILED frees the
array, and the trim of its image's page begins a new read of `l`: no rule of the claim says that a page lies in one of the three
spaces. -/

/-- The page of the image: the first whose map page lies past space 2. -/
def farPage : Nat := 2 ^ 51

/-- The read whose last step is to fail. -/
def farRead : LtRead :=
  { target := .page (mapLpn farPage), waiters := [.req 1], slice := 0, basin := 0, since := 0, around := true, failed := 2
    aroundFailed := true, maps := [], ppas := [], second := false, slow := false }

/-- The request that waits for it: a search of index 0, due at 1. -/
def farReq : Req :=
  { op := opSearch
    hdr := { flags := 0, hdrVer := 1, slice := 0, mapGen := 0, index := 0, rsv := 0, reqId := 7, epoch := 0, payloadLen := 0
             deadline := 1, replyTo := 0, attempt := 0, params := [], crc := 0 }
    payload := [], src := .host 0 0 0 0 0, tAccept := 0, life := .running, phase := .rerank, gen := 1, epoch := 0
    entry := entryReset 0, nodePart := false, orphan := true }

/-- Index 0, with one block array that nothing refers to. -/
def farIndex : Index :=
  { desc := { metric := .ip, code := .int8, width := 8, dim := 8, slice := 0, place := 0, spout := true, listCap := 1, rowCap := 1, shard := 0 }
    state := .ready
    arrs := [(1, { inflow := false, slot := 0, gen := 0, stamp := 0, basin := 0, stack := 0, ents := [], first := 0 })] }

def farState : State := { State.reset with
  reqs := [(1, farReq)]
  indexes := [(0, farIndex)]
  mem := { MemRange.reset with reads := [farRead], backed := [{ idx := 0, h := 1, base := farPage, pages := 1 }] }
  cist := { Cistern.reset with map := [(farPage, 0)], dirTab := [(mapLpn farPage, (0, 0))] } }

/-- A read of the page is under way in the next state. -/
def readsOn (l : Nat) : Res → Bool
  | .next t => (t.readOf (.page l)).isSome
  | _ => false

/-- The read fails for good, and in the next state there is one of the same page. -/
theorem farState_readsOn : readsOn (mapLpn farPage) (exec (.lowerTierReadDone (.page (mapLpn farPage)) .soft false) farState) = true := by
  decide +kernel

end Sys2Proof.Machine

section Settled
open Sys2Proof Sys2Proof.Machine

/-- Refutes O48: in `farState` the end of the request that waits frees a page whose map entry lies in the lost page, so that the page
is read again although its read has failed for good. -/
theorem not_tierReadsServed : ¬ Obligations.TierReadsServed := by
  unfold Obligations.TierReadsServed
  rintro ⟨-, -, -, lost, -⟩
  obtain ⟨t, next, -, noRead, -⟩ := lost (mapLpn farPage) 1 .soft farState farRead farReq rfl (by decide +kernel) (by decide +kernel)
    (by decide +kernel) (by decide +kernel) rfl rfl (by decide +kernel) (by decide +kernel)
  have again := farState_readsOn
  rw [next] at again
  have some_ : (t.readOf (.page (mapLpn farPage))).isSome = true := again
  rw [noRead] at some_
  exact Bool.noConfusion some_

end Settled
end

section
/-! CLAIM. Dirty pages become clean, block arrays and table pages are backed, and superseded ones are demoted (R353 to R360, R377). -/

set_option Elab.async false

namespace Sys2Proof.Machine
variable {s t u : State}

/-! ### The map entry of a page -/

theorem Cistern.Queued.media {c d : Cistern} (a : c.Queued d) : d.media = c.media := by
  unfold Cistern.Queued at a
  rw [a]

theorem Cistern.Queued.luns {c d : Cistern} (a : c.Queued d) : d.luns = c.luns := by
  unfold Cistern.Queued at a
  rw [a]

theorem State.queueMap_queues (s : State) (m : Nat) : s.queueMap m = { s with
      mem := { s.mem with stamp := s.mem.stamp + 1 }, cist := (s.queueMap m).cist } ∧
    (s.queueMap m).cist.map = s.cist.map ∧ (s.queueMap m).cist.media = s.cist.media ∧
    (Store.find? (s.queueMap m).cist.mapDirty m).isSome = true := by
  unfold State.queueMap
  extract_lets stamp user _
  have queued := (s.cist.queue_rows s.tick 3 ⟨m, none, false, stamp, user, false⟩).trans
    (Cistern.queue_rows _ s.tick 5 ⟨m, none, true, stamp, user, false⟩)
  refine ⟨rfl, queued.map, queued.media, ?_⟩
  show (Store.find? (Store.insert s.cist.mapDirty m _) m).isSome = true
  rw [Store.find?_insert_same]
  rfl

/-- A page's map entry is set: its map page becomes dirty, and nothing stored on the media differs. -/
theorem State.mapSet_some (s : State) (l p : Nat) : s.mapSet l (some p) = { s with
      mem := { s.mem with stamp := s.mem.stamp + 1 }, cist := (s.mapSet l (some p)).cist } ∧
    (s.mapSet l (some p)).cist.map = Store.insert s.cist.map l p ∧ (s.mapSet l (some p)).cist.media = s.cist.media ∧
    (Store.find? (s.mapSet l (some p)).cist.mapDirty (mapLpn l)).isSome = true := by
  unfold State.mapSet
  extract_lets s1 c
  obtain ⟨rest, map, media, dirty⟩ := State.queueMap_queues { s1 with cist := { c with
    map := Store.insert c.map l p, trims := c.trims.filter (· != l) } } (mapLpn l)
  exact ⟨by rw [rest]; rfl, map, media, dirty⟩

/-! ### Requests that wait for room -/

/-- A request with its wait for dirty room ended. -/
def Req.roomy (q : Req) : Req := if q.life = .waitRoom then { q with life := .running } else q

theorem Req.roomy_roomy (q : Req) : q.roomy.roomy = q.roomy := by
  unfold Req.roomy
  by_cases waits : q.life = .waitRoom
  · rw [if_pos waits, if_neg Life.noConfusion]
  · rw [if_neg waits, if_neg waits]

/-- The requests that are woken go on; nothing else differs. -/
theorem State.foldl_wake (rids : List Nat) (s : State) :
    rids.foldl (fun (t : State) rid => t.wake (.req rid)) s = { s with reqs := (rids.foldl (fun (t : State) rid => t.wake (.req rid)) s).reqs } ∧
    ∀ k q, s.req? k = some q → (rids.foldl (fun (t : State) rid => t.wake (.req rid)) s).req? k = some (if k ∈ rids then q.roomy else q) := by
  induction rids generalizing s with
  | nil => exact ⟨rfl, fun k q held => by simpa using held⟩
  | cons rid rids ih =>
    obtain ⟨rest, reqs⟩ := ih (s.wake (.req rid))
    refine ⟨rest, fun k q held => ?_⟩
    by_cases here : k = rid
    · subst here
      have woken : (s.wake (.req k)).req? k = some q.roomy := by
        show (s.modReq k _).req? k = _
        rw [State.modReq_of_held held]
        exact Store.find?_insert_same _ _ _
      have then_ := reqs k q.roomy woken
      rw [Req.roomy_roomy, ite_self] at then_
      rw [if_pos List.mem_cons_self]
      exact then_
    · have other : (s.wake (.req rid)).req? k = some q := (State.req?_modReq_other _ _ _ _ here).trans held
      have then_ := reqs k q other
      rw [List.foldl_cons, then_]
      simp [here]

theorem State.mem_roomWaiters {rid : Nat} {q : Req} (held : s.req? rid = some q) (waits : q.life = .waitRoom) : rid ∈ s.roomWaiters :=
  List.mem_map.mpr ⟨(rid, q), List.mem_filter.mpr ⟨Store.mem_of_find? held, by simp [waits]⟩, rfl⟩

/-- Every request that waits for room goes on. -/
theorem State.wakeRoom_wakes (s : State) {rid : Nat} {q : Req} (held : s.req? rid = some q) :
    (s.roomWaiters.foldl (fun (t : State) rid => t.wake (.req rid)) s).req? rid = some q.roomy := by
  rw [(State.foldl_wake s.roomWaiters s).2 rid q held]
  split
  · rfl
  next none =>
    have runs : q.life ≠ .waitRoom := fun waits => none (State.mem_roomWaiters held waits)
    exact congrArg some (if_neg runs).symm

/-! ### PAGE_CLEAN -/

section Clean
variable {l i : Nat} {r : SRow} (space : lpnSpace l ≠ 2) (found : s.cist.findWord l none false = some (r, i))
include space found

theorem exec_pageClean_unprogrammed (none_ : s.cist.programmed r i = none) : exec (.pageClean l) s = .next s := by
  show execPageClean l s = _
  unfold execPageClean
  rw [if_neg space, found]
  dsimp only
  rw [none_]

variable {p : Nat} (programmed : s.cist.programmed r i = some p)
include programmed

theorem exec_pageClean_held (held : s.mapHeld = true) : exec (.pageClean l) s = .next s := by
  show execPageClean l s = _
  unfold execPageClean
  rw [if_neg space, found]
  dsimp only
  rw [programmed]
  exact if_pos held

variable (free : s.mapHeld = false)
include free

theorem exec_pageClean_cold (cold : s.mapCold l = true) : exec (.pageClean l) s = .next (s.readMapOf l) := by
  show execPageClean l s = _
  unfold execPageClean
  rw [if_neg space, found]
  dsimp only
  rw [programmed]
  exact (if_neg (by rw [free]; decide)).trans (if_pos cold)

/-- The node with a page clean, before the writes that wait for room go on. -/
def State.cleaned (s : State) (l p : Nat) (r : SRow) (i : Nat) : State :=
  ({ s with cist := s.cist.settleWord r i, mem := { s.mem with dirty := Store.erase s.mem.dirty l } } : State).mapSet l (some p)

theorem exec_pageClean_cached (cached : s.mapCold l = false) : exec (.pageClean l) s =
    .next ((s.cleaned l p r i).roomWaiters.foldl (fun (t : State) rid => t.wake (.req rid)) (s.cleaned l p r i)) := by
  show execPageClean l s = _
  unfold execPageClean
  rw [if_neg space, found]
  dsimp only
  rw [programmed]
  exact (if_neg (by rw [free]; decide)).trans (if_neg (by rw [cached]; decide))

end Clean

/-- The read of a map page is under way. -/
theorem State.readMapOf_reads (s : State) (l : Nat) : s.readMapOf l = { s with mem := (s.readMapOf l).mem, regs := (s.readMapOf l).regs } ∧
    (s.readMapOf l).mem.dirty = s.mem.dirty ∧ ((s.readMapOf l).readOf (.page (mapLpn l))).isSome = true := by
  unfold State.readMapOf State.readMap
  split
  next some_ => exact ⟨rfl, rfl, by rw [State.readOf, List.find?_isSome]; simpa using some_⟩
  · refine ⟨rfl, rfl, ?_⟩
    rw [State.readOf, List.find?_isSome]
    exact ⟨_, List.mem_append_right _ List.mem_cons_self, beq_self_eq_true _⟩

theorem State.cleaned_cleans (s : State) (l p : Nat) (r : SRow) (i : Nat) : s.cleaned l p r i = { s with
      mem := (s.cleaned l p r i).mem, cist := (s.cleaned l p r i).cist } ∧
    (s.cleaned l p r i).cist.map = Store.insert s.cist.map l p ∧ (s.cleaned l p r i).mem.dirty = Store.erase s.mem.dirty l ∧
    (s.cleaned l p r i).cist.media = s.cist.media ∧ (Store.find? (s.cleaned l p r i).cist.mapDirty (mapLpn l)).isSome = true := by
  unfold State.cleaned
  generalize hv : ({ s with cist := s.cist.settleWord r i, mem := { s.mem with dirty := Store.erase s.mem.dirty l } } : State) = v
  obtain ⟨rest, map, media, dirty⟩ := v.mapSet_some l p
  generalize v.mapSet l (some p) = t at rest map media dirty ⊢
  refine ⟨?_, ?_, ?_, ?_, dirty⟩
  · rw [rest, ← hv]
  · rw [map, ← hv]
    rfl
  · rw [rest, ← hv]
  · rw [media, ← hv]
    rfl

/-! ### Backing -/

theorem State.queueImages_queues (s : State) (lpns : List Nat) : s.queueImages lpns = { s with
      mem := { s.mem with stamp := s.mem.stamp + 1 }, cist := (s.queueImages lpns).cist } ∧ s.cist.Queued (s.queueImages lpns).cist :=
  ⟨rfl, List.foldlRecOn (motive := (s.cist.Queued ·)) lpns _ (.refl _) fun c h _ _ => h.trans (c.queue_rows _ _ _)⟩

section Back
variable {idx : Fin 32} {x : Index} (held : s.index? idx = some x)
include held

theorem exec_backing_array {h : Nat} {a : BlkArr} (there : Store.find? x.arrs h = some a) :
    exec (.backingImageWrite idx (.array h)) s = .next (
      if (s.imageOf idx h).isSome = true ∨ (a.inflow = true ∧ a.stamp = x.u) ∨ (!s.cistAccepts (imagePages a x.desc.width)) = true then s
      else ({ s with mem := { s.mem with
          backed := s.mem.backed ++ [⟨idx, h, imageLpn idx s.mem.nextImage, imagePages a x.desc.width⟩]
          nextImage := s.mem.nextImage + imagePages a x.desc.width } } : State).queueImages
        (ArrImage.lpns ⟨idx, h, imageLpn idx s.mem.nextImage, imagePages a x.desc.width⟩)) := by
  show execBackingImageWrite idx (.array h) s = _
  unfold execBackingImageWrite
  rw [held]
  dsimp only
  unfold State.backArray
  rw [there]

theorem exec_backing_tables : exec (.backingImageWrite idx .tables) s = .next (s.backTables idx x) := by
  show execBackingImageWrite idx .tables s = _
  unfold execBackingImageWrite
  rw [held]

end Back

/-- The table pages of an index that can no longer change and have no image. -/
def State.unbacked (s : State) (i : Nat) (x : Index) : List (Nat × Nat × Epoch) :=
  x.tablePages.filter (fun p => p.2.2 != x.u &&
    !((s.mem.tabs.filter (fun t => t.idx == i)).map (fun t => (t.table, t.page, t.stamp))).contains p)

/-- The images that those pages get. -/
def State.newTabs (s : State) (i : Nat) (x : Index) : List TabImage :=
  (List.range (s.unbacked i x).length).filterMap (fun j => ((s.unbacked i x)[j]?).map (fun p =>
    (⟨i, p.1, p.2.1, p.2.2, imageLpn i (s.mem.nextImage + j)⟩ : TabImage)))

theorem State.mem_newTabs {i : Nat} {x : Index} {b : TabImage} (mem : b ∈ s.newTabs i x) :
    b.idx = i ∧ (b.table, b.page, b.stamp) ∈ x.tablePages ∧ b.stamp ≠ x.u := by
  obtain ⟨j, -, some_⟩ := List.mem_filterMap.mp mem
  obtain ⟨p, found, rfl⟩ := Option.map_eq_some_iff.mp some_
  obtain ⟨page, open_⟩ := List.mem_filter.mp (List.mem_of_getElem? found)
  simp only [Bool.and_eq_true, bne_iff_ne] at open_
  exact ⟨rfl, page, open_.1⟩

/-- A version of a table page that can no longer change has an image or gets one. -/
theorem State.tabs_cover {i : Nat} {x : Index} {p : Nat × Nat × Epoch} (page : p ∈ x.tablePages) (fixed : p.2.2 ≠ x.u) :
    ∃ b ∈ s.mem.tabs ++ s.newTabs i x, b.idx = i ∧ b.table = p.1 ∧ b.page = p.2.1 ∧ b.stamp = p.2.2 := by
  by_cases old : p ∈ (s.mem.tabs.filter (fun t => t.idx == i)).map (fun t => (t.table, t.page, t.stamp))
  · obtain ⟨b, mem, rfl⟩ := List.mem_map.mp old
    obtain ⟨mem, mine⟩ := List.mem_filter.mp mem
    exact ⟨b, List.mem_append_left _ mem, by simpa using mine, rfl, rfl, rfl⟩
  · have new : p ∈ s.unbacked i x := List.mem_filter.mpr ⟨page, by simpa [fixed] using old⟩
    obtain ⟨j, lt, get⟩ := List.mem_iff_getElem.mp new
    refine ⟨⟨i, p.1, p.2.1, p.2.2, imageLpn i (s.mem.nextImage + j)⟩, List.mem_append_right _ ?_, rfl, rfl, rfl, rfl⟩
    exact List.mem_filterMap.mpr ⟨j, List.mem_range.mpr lt, by rw [List.getElem?_eq_getElem lt, get]; rfl⟩

theorem State.cistAccepts_fewer {m n : Nat} (room : s.cistAccepts n = true) (h : m ≤ n) : s.cistAccepts m = true := by
  unfold State.cistAccepts at *
  simp only [Bool.and_eq_true, decide_eq_true_eq] at *
  obtain ⟨⟨state, used⟩, free⟩ := room
  exact ⟨⟨state, by omega⟩, free⟩

theorem State.backTables_backs {i : Nat} {x : Index} (room : s.cistAccepts x.tablePages.length = true) : s.backTables i x =
    ({ s with mem := { s.mem with
      tabs := s.mem.tabs ++ s.newTabs i x
      nextImage := s.mem.nextImage + (s.newTabs i x).length } } : State).queueImages ((s.newTabs i x).map TabImage.lpn) := by
  have fits : s.cistAccepts (s.unbacked i x).length = true := State.cistAccepts_fewer room (List.length_filter_le _ _)
  unfold State.unbacked at fits
  unfold State.backTables
  exact if_neg (by rw [fits]; decide)

/-! ### Demotion -/

/-- The block arrays of a slice and Basin that may be demoted. -/
def State.Demotable (s : State) (slice basin : Nat) (p : Nat × Nat) : Prop :=
  s.isBacked p.1 p.2 = true ∧ p ∉ s.mem.demoted ∧
    ∃ x a, (p.1, x) ∈ s.indexes ∧ (p.2, a) ∈ x.arrs ∧ x.desc.slice = slice ∧ a.basin = basin ∧ s.superseded p.1 x p.2 = true

/-- Block arrays for which `P` holds are demoted: their places go, and a counter counts what has moved. -/
structure State.Demotes (s t : State) (P : Nat × Nat → Prop) : Prop where
  rest : t = { s with mem := t.mem, hbm := t.hbm, regs := t.regs }
  only : OnlyRegs s t [Reg.MEM_CNT_MOVE]
  mem : t.mem = { s.mem with demoted := t.mem.demoted }
  hbm : t.hbm = { s.hbm with places := t.hbm.places }
  demoted : ∃ more, t.mem.demoted = s.mem.demoted ++ more ∧ ∀ p ∈ more, P p

theorem State.Demotes.refl (s : State) (P : Nat × Nat → Prop) : s.Demotes s P :=
  ⟨rfl, .refl _ _, rfl, rfl, [], (List.append_nil _).symm, nofun⟩

theorem State.Demotes.trans {P : Nat × Nat → Prop} (a : s.Demotes t P) (b : t.Demotes u P) : s.Demotes u P where
  rest := by rw [b.rest, a.rest]
  only := a.only.trans b.only
  mem := by rw [b.mem, a.mem]
  hbm := by rw [b.hbm, a.hbm]
  demoted := by
    obtain ⟨xs, hx, px⟩ := a.demoted
    obtain ⟨ys, hy, py⟩ := b.demoted
    refine ⟨xs ++ ys, by rw [hy, hx, List.append_assoc], fun p mem => ?_⟩
    obtain mem | mem := List.mem_append.mp mem
    · exact px p mem
    · exact py p mem

theorem exec_demotion (slice : Fin 16) (b : Fin 2) (s : State) : ∃ t, exec (.demotion slice b) s = .next t ∧
    s.Demotes t (s.Demotable slice b) ∧ (s.regF Reg.MEM_CFG 24 1 = 0 → t = s) := by
  show ∃ t, execDemotion slice b s = .next t ∧ _
  unfold execDemotion
  extract_lets floor freeOf cands ordered
  split
  · exact ⟨s, rfl, .refl _ _, fun _ => rfl⟩
  next on =>
    refine ⟨_, rfl, ?_, fun off => absurd off on⟩
    refine List.foldlRecOn (motive := (s.Demotes · (s.Demotable slice b))) ordered _ (.refl _ _) fun t h c mem => ?_
    have may : s.Demotable slice b (c.1, c.2.1) := by
      obtain ⟨q, index, mem⟩ := List.mem_flatMap.mp ((sortBy_perm _ cands).mem_iff.mp mem)
      split at mem
      next here =>
        obtain ⟨a, arr, some_⟩ := List.mem_filterMap.mp mem
        split at some_
        next fit =>
          obtain ⟨basin, backed, fresh, superseded⟩ := fit
          obtain rfl := Option.some.inj some_
          exact ⟨backed, by simpa using fresh, q.2, a.2, index, arr, here, basin, superseded⟩
        next => exact absurd some_ (by simp)
      next => exact absurd mem List.not_mem_nil
    split
    · refine h.trans ?_
      exact ⟨rfl, .bump _ _ _ _ List.mem_cons_self, rfl, rfl, [(c.1, c.2.1)], rfl, fun p mem => by rwa [List.mem_singleton.mp mem]⟩
    · exact h

end Sys2Proof.Machine

section Settled
open Sys2Proof Sys2Proof.Machine

/-- Settles O49: only the entry of the page is set, an image is queued once, and what is demoted is superseded and on the media. -/
theorem pagesSettle : Obligations.PagesSettle := by
  unfold Obligations.PagesSettle
  refine ⟨?clean, fun l i p r s space found programmed => ⟨fun held => ⟨_, exec_pageClean_held space found programmed held, rfl⟩,
      fun free cold => ⟨_, exec_pageClean_cold space found programmed free cold, s.readMapOf_reads l⟩⟩,
    fun l i r s space found none_ => ⟨_, exec_pageClean_unprogrammed space found none_, rfl⟩, ?array, ?stays, ?tables, ?demotion⟩
  case clean =>
    intro l i p r s space found programmed free cached
    refine ⟨_, exec_pageClean_cached space found programmed free cached, ?_⟩
    obtain ⟨rest, map, dirty, media, mapDirty⟩ := s.cleaned_cleans l p r i
    generalize s.cleaned l p r i = v at rest map dirty media mapDirty ⊢
    have woken := (State.foldl_wake v.roomWaiters v).1
    have reqs (rid : Nat) (q : Req) (held : s.req? rid = some q) := v.wakeRoom_wakes (rid := rid) (q := q) (by rw [rest]; exact held)
    generalize v.roomWaiters.foldl (fun (t : State) rid => t.wake (.req rid)) v = t at woken reqs ⊢
    have cist : t.cist = v.cist := by rw [woken]
    have mem : t.mem = v.mem := by rw [woken]
    rw [cist, mem, map, dirty, media]
    refine ⟨?_, Store.find?_insert_same _ _ _, fun j other => Store.find?_insert_other _ _ _ _ other, Store.find?_erase_same _ _,
      fun j other => Store.find?_erase_other _ _ _ other, rfl, mapDirty, reqs, .of_regs ?_⟩
    · rw [woken, rest]
    · rw [woken, rest]
  case array =>
    intro idx h s x a held there fresh fixed room
    refine ⟨_, exec_backing_array held there, ?_⟩
    have may : ¬((s.imageOf idx h).isSome = true ∨ (a.inflow = true ∧ a.stamp = x.u) ∨
        (!s.cistAccepts (imagePages a x.desc.width)) = true) := by
      rintro (image | ⟨inflow, stamp⟩ | full)
      · rw [fresh] at image
        exact Bool.noConfusion image
      · exact fixed inflow stamp
      · rw [room] at full
        exact Bool.noConfusion full
    rw [if_neg may]
    obtain ⟨rest, queued⟩ := State.queueImages_queues { s with mem := { s.mem with
      backed := s.mem.backed ++ [⟨idx, h, imageLpn idx s.mem.nextImage, imagePages a x.desc.width⟩]
      nextImage := s.mem.nextImage + imagePages a x.desc.width } } (ArrImage.lpns ⟨idx, h, imageLpn idx s.mem.nextImage, imagePages a x.desc.width⟩)
    exact ⟨rest, rfl, queued.map, queued.luns, queued.media⟩
  case stays =>
    intro idx h s x a held there not
    refine ⟨_, exec_backing_array held there, if_pos ?_⟩
    obtain image | fixed | full := not
    · exact .inl image
    · exact .inr (.inl fixed)
    · exact .inr (.inr (by rw [full]; rfl))
  case tables =>
    intro idx s x held room
    refine ⟨_, exec_backing_tables held, ?_⟩
    rw [State.backTables_backs room]
    obtain ⟨rest, queued⟩ := State.queueImages_queues { s with mem := { s.mem with
      tabs := s.mem.tabs ++ s.newTabs idx x
      nextImage := s.mem.nextImage + (s.newTabs idx x).length } } ((s.newTabs idx x).map TabImage.lpn)
    exact ⟨rest, rfl, queued.map, queued.media, ⟨_, rfl, fun b mem => State.mem_newTabs mem⟩, fun p page fixed => State.tabs_cover page fixed⟩
  case demotion =>
    intro slice b s
    obtain ⟨t, eq, demotes, off⟩ := exec_demotion slice b s
    exact ⟨t, eq, demotes.rest, demotes.only, off, demotes.mem, demotes.hbm, demotes.demoted⟩

end Settled
end

section
/-! CLAIM. Errors of the stacks are counted, and what they strike runs again, moves or ends (R339, R344, R346, R507 to R511). -/

set_option Elab.async false

namespace Sys2Proof.Machine
variable {s t u : State}

/-! ### The patrol -/

/-- The three counters of a patrol are raised. -/
theorem State.patrolCounts (s : State) (k a b c : Nat) : s.Wrote (((s.bumpSat k 0 16 a).bumpSat k 16 16 b).bumpSat k 32 16 c) [k] ∧
    CountedSat s (((s.bumpSat k 0 16 a).bumpSat k 16 16 b).bumpSat k 32 16 c) k 0 16 a ∧
    CountedSat s (((s.bumpSat k 0 16 a).bumpSat k 16 16 b).bumpSat k 32 16 c) k 16 16 b ∧
    CountedSat s (((s.bumpSat k 0 16 a).bumpSat k 16 16 b).bumpSat k 32 16 c) k 32 16 c := by
  have apart (v : State) {l l' : Nat} (d : Nat) (small : l' + 16 ≤ 64) (h : l' + 16 ≤ l ∨ l + 16 ≤ l') :
      (v.bumpSat k l' 16 d).regF k l 16 = v.regF k l 16 := State.regF_setRegF_apart _ _ _ _ _ _ _ small h
  have counts (v : State) {l : Nat} (d : Nat) (small : l + 16 ≤ 64) : CountedSat v (v.bumpSat k l 16 d) k l 16 d := .of_bumpSat _ _ _ _ small
  refine ⟨.trans (.trans (.bumpSat List.mem_cons_self _ _ _) (.bumpSat List.mem_cons_self _ _ _)) (.bumpSat List.mem_cons_self _ _ _), ?_, ?_, ?_⟩
  · refine .before _ _ _ _ (counts s a (by decide)) ?_
    rw [apart _ c (by decide) (.inr (by decide)), apart _ b (by decide) (.inr (by decide))]
  · refine .before _ _ _ _ (.after _ _ _ _ ?_ (counts (s.bumpSat k 0 16 a) b (by decide))) ?_
    · rw [apart _ a (by decide) (.inl (by decide))]
    · rw [apart _ c (by decide) (.inr (by decide))]
  · refine .after _ _ _ _ ?_ (counts ((s.bumpSat k 0 16 a).bumpSat k 16 16 b) c (by decide))
    rw [apart _ b (by decide) (.inl (by decide)), apart _ a (by decide) (.inl (by decide))]

/-- The stack of a patrol with a part of its period behind it. -/
def Stack.patrolTo (st : Stack) (period : Nat) : Stack :=
  { st with patrolled := if st.patrolling then st.patrolled else some period, patrolling := true }

/-- A part of a patrol counts, and the last one ends it. -/
theorem State.patrol_ends (s : State) {k j a b c period : Nat} (last : Bool) {v t : State}
    (counts : v = (((s.setStack j ((s.stack j).patrolTo period)).bumpSat k 0 16 a).bumpSat k 16 16 b).bumpSat k 32 16 c)
    (ends : t = if last then v.setStack j { v.stack j with ce := [], patrolling := false } else v) :
    t = { s with hbm := t.hbm, regs := t.regs } ∧ OnlyRegs s t [k] ∧ CountedSat s t k 0 16 a ∧ CountedSat s t k 16 16 b ∧
    CountedSat s t k 32 16 c ∧
    t.stack j = { s.stack j with
      ce := if last then [] else (s.stack j).ce
      patrolled := if (s.stack j).patrolling then (s.stack j).patrolled else some period
      patrolling := !last } ∧
    (∀ i, i ≠ j → t.stack i = s.stack i) := by
  obtain ⟨wrote, first, second, third⟩ := (s.setStack j ((s.stack j).patrolTo period)).patrolCounts k a b c
  rw [← counts] at wrote first second third
  have stack (i : Nat) : v.stack i = (s.setStack j ((s.stack j).patrolTo period)).stack i := by
    rw [wrote.rest]
    rfl
  cases last with
  | false =>
    rw [if_neg Bool.false_ne_true] at ends
    subst ends
    refine ⟨?_, wrote.only, first, second, third, ?_, fun i other => ?_⟩
    · rw [wrote.rest]
      rfl
    · rw [stack, State.stack_setStack_same]
      rfl
    · rw [stack, State.stack_setStack_other (s := s) _ _ _ other]
  | true =>
    rw [if_pos rfl] at ends
    subst ends
    refine ⟨?_, wrote.only, first, second, third, ?_, fun i other => ?_⟩
    · rw [wrote.rest]
      rfl
    · rw [State.stack_setStack_same, stack, State.stack_setStack_same]
      rfl
    · rw [State.stack_setStack_other (s := v) _ _ _ other, stack, State.stack_setStack_other (s := s) _ _ _ other]

section Patrol
variable (n : StackName) (ondie : Nat) (ctrl : List (List Byte))

theorem exec_hbmPatrol_done (part : PatrolRows) (done : (s.stack (keyOfStack n)).patrolled = some s.patrolPeriod)
    (idle : (s.stack (keyOfStack n)).patrolling = false) : exec (.hbmPatrol n ondie ctrl part) s = .next s := by
  show execHbmPatrol n ondie ctrl part s = _
  unfold execHbmPatrol
  exact if_pos ⟨done, idle⟩

/-- A part of the patrol that reads no row with errors counts what the codes correct. -/
theorem exec_hbmPatrol_counts (last : Bool)
    (due : (s.stack (keyOfStack n)).patrolled ≠ some s.patrolPeriod ∨ (s.stack (keyOfStack n)).patrolling = true) :
    ∃ a b, a = ((ctrl.map (padTo 0 36)).filter (fun b => !rsClean b && (rsCorrect b).isSome)).length ∧
      b = ((ctrl.map (padTo 0 36)).filter (fun b => (rsCorrect b).isNone)).length ∧
      ∀ v k, k = instKey Reg.MEM_HBM_ERR (keyOfStack n) →
        v = (((s.setStack (keyOfStack n) ((s.stack (keyOfStack n)).patrolTo s.patrolPeriod)).bumpSat k 0 16 ondie).bumpSat k 16 16 a).bumpSat k 32 16 b →
        exec (.hbmPatrol n ondie ctrl ⟨[], last⟩) s = .next (if last then
          v.setStack (keyOfStack n) { v.stack (keyOfStack n) with ce := [], patrolling := false } else v) := by
  refine ⟨_, _, rfl, rfl, ?_⟩
  rintro _ _ rfl rfl
  show execHbmPatrol n ondie ctrl ⟨[], last⟩ s = _
  have notDone : ¬((s.stack (keyOfStack n)).patrolled = some s.patrolPeriod ∧ (s.stack (keyOfStack n)).patrolling = false) := by
    rintro ⟨done, idle⟩
    obtain other | patrolling := due
    · exact other done
    · rw [idle] at patrolling
      exact Bool.noConfusion patrolling
  unfold execHbmPatrol
  dsimp only
  rw [if_neg notDone, if_neg (by simp)]
  rfl

end Patrol

/-! ### An uncorrectable read -/

/-- What a transient error of a read leaves to count. -/
theorem State.transient_counts (s : State) {k j : Nat} (err : k % 524288 = Reg.MEM_HBM_ERR) (inj : j % 524288 = Reg.MEM_INJECT) :
    s.Wrote (((s.bumpSat k 32 16 1).setRegF j 1 1 0).bumpSat Reg.RST_CNT_FAULTS 0 32 1) [k, j, Reg.RST_CNT_FAULTS] ∧
    CountedSat s (((s.bumpSat k 32 16 1).setRegF j 1 1 0).bumpSat Reg.RST_CNT_FAULTS 0 32 1) k 32 16 1 ∧
    CountedSat s (((s.bumpSat k 32 16 1).setRegF j 1 1 0).bumpSat Reg.RST_CNT_FAULTS 0 32 1) Reg.RST_CNT_FAULTS 0 32 1 := by
  have kj : k ≠ j := fun c => by
    rw [c, inj] at err
    exact absurd err (by decide)
  have kr : k ≠ Reg.RST_CNT_FAULTS := fun c => by
    rw [c] at err
    exact absurd err (by decide)
  have jr : j ≠ Reg.RST_CNT_FAULTS := fun c => by
    rw [c] at inj
    exact absurd inj (by decide)
  have first : CountedSat s (s.bumpSat k 32 16 1) k 32 16 1 := .of_bumpSat _ _ _ _ (by decide)
  have o1 : OnlyRegs s (s.bumpSat k 32 16 1) [k] := .bumpSat _ _ _ _ List.mem_cons_self
  have w1 : s.Wrote (s.bumpSat k 32 16 1) [k, j, Reg.RST_CNT_FAULTS] := .bumpSat (by simp) _ _ _
  generalize s.bumpSat k 32 16 1 = s1 at first o1 w1 ⊢
  have o2 : OnlyRegs s1 (s1.setRegF j 1 1 0) [j] := .setRegF _ _ _ _ List.mem_cons_self
  have w2 : s1.Wrote (s1.setRegF j 1 1 0) [k, j, Reg.RST_CNT_FAULTS] := .setRegF (by simp) _ _ _
  generalize s1.setRegF j 1 1 0 = s2 at o2 w2 ⊢
  have third : CountedSat s2 (s2.bumpSat Reg.RST_CNT_FAULTS 0 32 1) Reg.RST_CNT_FAULTS 0 32 1 := .of_bumpSat _ _ _ _ (by decide)
  have o3 : OnlyRegs s2 (s2.bumpSat Reg.RST_CNT_FAULTS 0 32 1) [Reg.RST_CNT_FAULTS] := .bumpSat _ _ _ _ List.mem_cons_self
  have w3 : s2.Wrote (s2.bumpSat Reg.RST_CNT_FAULTS 0 32 1) [k, j, Reg.RST_CNT_FAULTS] := .bumpSat (by simp) _ _ _
  generalize s2.bumpSat Reg.RST_CNT_FAULTS 0 32 1 = s3 at third o3 w3 ⊢
  refine ⟨(w1.trans w2).trans w3, .before _ _ _ _ first ?_, .after _ _ _ _ ?_ third⟩
  · rw [o3.regF _ _ _ (by simpa using kr), o2.regF _ _ _ (by simpa using kj)]
  · rw [o2.regF _ _ _ (by simpa using jr.symm), o1.regF _ _ _ (by simpa using kr.symm)]

/-- A transient error is counted and its phase runs again. -/
theorem State.transient_reruns {rid k j : Nat} {r : Req} (err : k % 524288 = Reg.MEM_HBM_ERR) (inj : j % 524288 = Reg.MEM_INJECT)
    (held : s.req? rid = some r) (running : r.life = .running) (more : r.phaseRuns < s.regF Reg.RST_CFG 32 8)
    (noParts : ∀ p ∈ s.partsOut, p.rid ≠ rid) (plain : (r.phase ≠ .fetch ∧ r.phase ≠ .exact) ∨ r.windows = [])
    (again : t = (((s.bumpSat k 32 16 1).setRegF j 1 1 0).bumpSat Reg.RST_CNT_FAULTS 0 32 1).rerun rid) :
    CountedSat s t k 32 16 1 ∧ CountedSat s t Reg.RST_CNT_FAULTS 0 32 1 ∧ t.hbm.dram = s.hbm.dram ∧ t.record = s.record ∧
      ∃ q, t.req? rid = some q ∧ q.reruns = min 255 (r.reruns + 1) ∧ q.hdr = r.hdr ∧ q.payload = r.payload ∧ q.phase = r.phase := by
  obtain ⟨wrote, first, third⟩ := s.transient_counts err inj
  generalize ((s.bumpSat k 32 16 1).setRegF j 1 1 0).bumpSat Reg.RST_CNT_FAULTS 0 32 1 = v at again wrote first third
  subst again
  have rest := wrote.rest
  have ck : Reg.RST_CFG ≠ k := fun c => by
    rw [← c] at err
    exact absurd err (by decide)
  have cj : Reg.RST_CFG ≠ j := fun c => by
    rw [← c] at inj
    exact absurd inj (by decide)
  have max : v.regF Reg.RST_CFG 32 8 = s.regF Reg.RST_CFG 32 8 := wrote.only.regF _ _ _ (by
    rw [List.mem_cons, List.mem_cons, List.mem_singleton, not_or, not_or]
    exact ⟨ck, cj, by decide⟩)
  obtain ⟨regs, -, record, req⟩ := State.rerun_reruns (s := v) (r := r) (rid := rid) (by rw [rest]; exact held) running
    (by rw [max]; exact more) (by rw [rest]; exact noParts) plain
  have dram := ((Keeps.refl v).rerun (rid := rid) (φ := ⟨true, true, true, true, false⟩)).quiet rfl
  have counted (k l w d : Nat) (c : CountedSat s v k l w d) : CountedSat s (v.rerun rid) k l w d := by
    unfold CountedSat State.regF State.reg at c ⊢
    rw [regs]
    exact c
  exact ⟨counted _ _ _ _ first, counted _ _ _ _ third, dram.dram.trans (by rw [rest]), record.trans (by rw [rest]), _, req, rfl, rfl, rfl, rfl⟩

theorem exec_hbmUncorrectableRead_transient (n : StackName) (rid : Nat) (row : DramRow) (repair : RowRepair) (c : RowContent) (s : State) :
    exec (.hbmUncorrectableRead n rid row false repair c) s = .next ((((s.bumpSat (instKey Reg.MEM_HBM_ERR (keyOfStack n)) 32 16 1).setRegF
      (instKey Reg.MEM_INJECT (keyOfStack n)) 1 1 0).bumpSat Reg.RST_CNT_FAULTS 0 32 1).rerun rid) :=
  if_pos (.inr rfl)

/-! ### Arrays that move off a part of a stack -/

/-- Arrays have moved: their places, the seals of runs and the free values taken apart, the node stands. -/
structure State.MovedOff (s t : State) : Prop where
  rest : t = { s with free := t.free, indexes := t.indexes, hbm := t.hbm }
  lanes : ∀ k, (t.stack k).lanes = (s.stack k).lanes
  retired : ∀ k, (t.stack k).retired = (s.stack k).retired

namespace State.MovedOff

theorem refl (s : State) : s.MovedOff s := ⟨rfl, fun _ => rfl, fun _ => rfl⟩

theorem trans (a : s.MovedOff t) (b : t.MovedOff u) : s.MovedOff u :=
  ⟨by rw [b.rest, a.rest], fun k => (b.lanes k).trans (a.lanes k), fun k => (b.retired k).trans (a.retired k)⟩

theorem foldl {α : Type} {f : State → α → State} (step : ∀ (v : State) x, v.MovedOff (f v x)) (l : List α) (s : State) : s.MovedOff (l.foldl f s) :=
  List.foldlRecOn (motive := (s.MovedOff ·)) l f (refl s) fun _ h x _ => h.trans (step _ x)

theorem of_dram (rest : t = { s with free := t.free, indexes := t.indexes, hbm := t.hbm }) (dram : t.hbm.dram = s.hbm.dram) : s.MovedOff t := by
  have same (k : Nat) : t.stack k = s.stack k := by
    unfold State.stack
    rw [dram]
  exact ⟨rest, fun k => by rw [same], fun k => by rw [same]⟩

theorem sealRuns (s : State) (check : Bool) (b stack : Nat) (runs : List Nat) : s.MovedOff (s.sealRuns check b stack runs) := by
  unfold State.sealRuns
  extract_lets k st
  split
  · have sealed : ∀ (l : List Nat) (q : Stack), (l.foldl (fun (q : Stack) r => q.setSeal r true) q).lanes = q.lanes ∧
        (l.foldl (fun (q : Stack) r => q.setSeal r true) q).retired = q.retired := fun l q =>
      List.foldlRecOn (motive := fun p : Stack => p.lanes = q.lanes ∧ p.retired = q.retired) l _ ⟨rfl, rfl⟩ fun p h r _ => by
        unfold Stack.setSeal
        dsimp only
        split <;> exact h
    obtain ⟨lanes, retired⟩ := sealed runs st
    have same (j : Nat) (p : Stack) (hl : p.lanes = st.lanes) (hr : p.retired = st.retired) :
        ((s.setStack k p).stack j).lanes = (s.stack j).lanes ∧ ((s.setStack k p).stack j).retired = (s.stack j).retired := by
      by_cases here : j = k
      · rw [here, State.stack_setStack_same]
        exact ⟨hl, hr⟩
      · rw [State.stack_setStack_other (s := s) _ _ _ here]
        exact ⟨rfl, rfl⟩
    exact ⟨rfl, fun j => (same j _ lanes retired).1, fun j => (same j _ lanes retired).2⟩
  · exact refl s

theorem moveArr (s : State) (i h : Nat) (a : BlkArr) (bad : List Nat) : s.MovedOff (s.moveArr i h a bad) := by
  unfold State.moveArr
  dsimp only
  split
  · refine .trans ?_ (sealRuns _ _ _ _ _)
    exact of_dram rfl rfl
  · split
    · unfold State.sealArray
      refine .trans ?_ (sealRuns _ _ _ _ _)
      exact of_dram rfl rfl
    · exact of_dram rfl rfl

theorem moveFrames (s : State) (n : StackName) (bad : List Nat) : s.MovedOff (s.moveFrames n bad) := by
  unfold State.moveFrames
  extract_lets st
  split
  · exact refl s
  · refine foldl (fun v r => ?_) _ s
    split
    · exact of_dram rfl rfl
    · exact refl v

theorem moveOff (s : State) (n : StackName) (bad : List Nat) : s.MovedOff (s.moveOff n bad) :=
  (moveFrames s n bad).trans (foldl (fun v _ => moveArr v _ _ _ _) _ _)

end State.MovedOff

/-! ### Lanes -/

section Lanes
variable (n : StackName) (pc : Fin 16) (pages : Nat)

/-- The runs of a stack that lie in a pseudo-channel, or in no one alone. -/
def lostRuns (n : StackName) (pc : Fin 16) : List Nat :=
  (List.range (stackRuns (2 * b2n n.spouting))).filter (fun r => !n.spouting || r % 16 == pc.val)

theorem exec_laneRemap_spare (spare : Store.get (fun _ => 0) (s.stack (keyOfStack n)).lanes pc < 2) : exec (.laneRemap n pc pages) s =
    .next ((s.bumpSat Reg.RST_CNT_FAULTS 32 16 1).setStack (keyOfStack n) { s.stack (keyOfStack n) with
      lanes := Store.put (fun _ => 0) (s.stack (keyOfStack n)).lanes pc (Store.get (fun _ => 0) (s.stack (keyOfStack n)).lanes pc + 1)
      held := if (s.stack (keyOfStack n)).held.contains pc.val then (s.stack (keyOfStack n)).held
        else (s.stack (keyOfStack n)).held ++ [pc.val] }) := if_pos spare

variable (both : 2 ≤ Store.get (fun _ => 0) (s.stack (keyOfStack n)).lanes pc)
include both

theorem exec_laneRemap_moves (room : s.basinRoom n.basin pages = true) : exec (.laneRemap n pc pages) s =
    .next (((s.bumpSat Reg.RST_CNT_FAULTS 32 16 1).setStack (keyOfStack n) { s.stack (keyOfStack n) with
      lanes := Store.put (fun _ => 0) (s.stack (keyOfStack n)).lanes pc 3
      retired := (s.stack (keyOfStack n)).retired + pages }).moveOff n (lostRuns n pc)) :=
  (if_neg (Nat.not_lt.mpr both)).trans (if_pos room)

theorem exec_laneRemap_ends (full : s.basinRoom n.basin pages = false) : exec (.laneRemap n pc pages) s =
    .next ((s.readersOn n (lostRuns n pc)).foldl (fun (t : State) rid => t.endWith rid stResourceFailed)
      (s.bumpSat Reg.RST_CNT_FAULTS 32 16 1)) :=
  (if_neg (Nat.not_lt.mpr both)).trans (if_neg (by rw [show (s.bumpSat Reg.RST_CNT_FAULTS 32 16 1).basinRoom n.basin pages = false from full]; decide))

end Lanes

/-! ### Readers that end -/

/-- A request is answered or gone. -/
def State.DoneWith (s : State) (rid : Nat) : Prop := ∀ q, s.req? rid = some q → q.life = .answered

/-- The end of a request: it is done with, and every other stands or is. -/
def State.EndsOf (s t : State) (rid : Nat) : Prop := t.DoneWith rid ∧ ∀ k, t.req? k = s.req? k ∨ t.DoneWith k

theorem State.doneWith_of_none {k : Nat} (gone : s.req? k = none) : s.DoneWith k := fun _ there => nomatch gone.symm.trans there

theorem State.doneWith_of_some {k : Nat} {r : Req} (held : s.req? k = some r) (answered : r.life = .answered) : s.DoneWith k :=
  fun _ there => Option.some.inj (held.symm.trans there) ▸ answered

theorem State.endNow_endsOf (s : State) (rid st : Nat) : s.EndsOf (s.endNow rid st) rid := by
  cases held : s.req? rid with
  | none =>
    have same : s.endNow rid st = s := by
      unfold State.endNow
      rw [held]
    rw [same]
    exact ⟨State.doneWith_of_none held, fun _ => .inl rfl⟩
  | some r =>
    by_cases answered : r.life = .answered
    · have same : s.endNow rid st = s := by
        unfold State.endNow
        rw [held]
        exact if_pos answered
      rw [same]
      exact ⟨State.doneWith_of_some held answered, fun _ => .inl rfl⟩
    · have answers := State.endNow_answers held answered st
      have mine : (s.endNow rid st).DoneWith rid := by
        obtain gone | ⟨v, found, life, -⟩ := answers.req
        · exact State.doneWith_of_none gone
        · exact State.doneWith_of_some found life
      refine ⟨mine, fun k => ?_⟩
      by_cases here : k = rid
      · exact .inr (here ▸ mine)
      · obtain same | gone := answers.others k here
        · refine .inl (same.trans ?_)
          unfold State.req?
          rw [(s.endCounted_form st).1]
        · exact .inr (State.doneWith_of_none gone)

theorem State.endWith_endsOf (s : State) (rid st : Nat) : s.EndsOf (s.endWith rid st) rid := by
  cases held : s.req? rid with
  | some r =>
    rw [State.endWith_of_held held]
    exact s.endNow_endsOf rid _
  | none =>
    have reqs : (s.endWith rid st).reqs = s.reqs := by
      unfold State.endWith
      rw [held]
      dsimp only
      unfold State.endPart
      cases part : Store.find? s.partsIn rid with
      | none => rfl
      | some p => exact (State.failPart_replies part _).reqs
    have same (k : Nat) : (s.endWith rid st).req? k = s.req? k := congrArg (Store.find? · k) reqs
    exact ⟨State.doneWith_of_none ((same rid).trans held), fun k => .inl (same k)⟩

theorem State.EndsOf.stays {rid k : Nat} (ends : s.EndsOf t rid) (done : s.DoneWith k) : t.DoneWith k := by
  obtain same | now := ends.2 k
  · unfold State.DoneWith
    rw [same]
    exact done
  · exact now

/-- Every request of the list ends. -/
theorem State.foldl_endWith_ends (rids : List Nat) (st : Nat) (s : State) : ∀ rid ∈ rids,
    (rids.foldl (fun (t : State) rid => t.endWith rid st) s).DoneWith rid := by
  induction rids generalizing s with
  | nil => exact fun rid mem => absurd mem List.not_mem_nil
  | cons a rids ih =>
    intro rid mem
    rw [List.foldl_cons]
    obtain here | later := List.mem_cons.mp mem
    · exact List.foldlRecOn (motive := (State.DoneWith · rid)) rids _ (here ▸ (s.endWith_endsOf a st).1)
        fun v done b _ => (v.endWith_endsOf b st).stays done
    · exact ih _ rid later

/-! ### The three ways of a lane -/

theorem State.spare_takes (s : State) (k : Nat) (pc : Fin 16) {t : State} (taken : t = (s.bumpSat Reg.RST_CNT_FAULTS 32 16 1).setStack k { s.stack k with
      lanes := Store.put (fun _ => 0) (s.stack k).lanes pc (Store.get (fun _ => 0) (s.stack k).lanes pc + 1)
      held := if (s.stack k).held.contains pc.val then (s.stack k).held else (s.stack k).held ++ [pc.val] }) :
    OnlyRegs s t [Reg.RST_CNT_FAULTS] ∧ CountedSat s t Reg.RST_CNT_FAULTS 32 16 1 ∧
    Store.get (fun _ => 0) (t.stack k).lanes pc = Store.get (fun _ => 0) (s.stack k).lanes pc + 1 ∧
    pc.val ∈ (t.stack k).held ∧ (t.stack k).retired = (s.stack k).retired ∧ (∀ j, j ≠ k → t.stack j = s.stack j) := by
  have only : OnlyRegs s (s.bumpSat Reg.RST_CNT_FAULTS 32 16 1) [Reg.RST_CNT_FAULTS] := .bumpSat _ _ _ _ List.mem_cons_self
  have counted : CountedSat s (s.bumpSat Reg.RST_CNT_FAULTS 32 16 1) Reg.RST_CNT_FAULTS 32 16 1 := .of_bumpSat _ _ _ _ (by decide)
  have stack (j : Nat) : (s.bumpSat Reg.RST_CNT_FAULTS 32 16 1).stack j = s.stack j := rfl
  generalize s.bumpSat Reg.RST_CNT_FAULTS 32 16 1 = v at taken only counted stack
  subst taken
  refine ⟨only, counted, ?_, ?_, ?_, fun j other => (State.stack_setStack_other (s := v) _ _ _ other).trans (stack j)⟩
  · rw [State.stack_setStack_same, Store.get_put_same]
  · rw [State.stack_setStack_same]
    dsimp only
    split
    · exact List.contains_iff_mem.mp ‹_›
    · exact List.mem_append_right _ List.mem_cons_self
  · rw [State.stack_setStack_same]

theorem State.pages_move (s : State) (n : StackName) (pc : Fin 16) (pages : Nat) {t : State}
    (moved : t = ((s.bumpSat Reg.RST_CNT_FAULTS 32 16 1).setStack (keyOfStack n) { s.stack (keyOfStack n) with
      lanes := Store.put (fun _ => 0) (s.stack (keyOfStack n)).lanes pc 3
      retired := (s.stack (keyOfStack n)).retired + pages }).moveOff n (lostRuns n pc)) :
    CountedSat s t Reg.RST_CNT_FAULTS 32 16 1 ∧ Store.get (fun _ => 0) (t.stack (keyOfStack n)).lanes pc = 3 ∧
    (t.stack (keyOfStack n)).retired = (s.stack (keyOfStack n)).retired + pages := by
  have counted : CountedSat s (s.bumpSat Reg.RST_CNT_FAULTS 32 16 1) Reg.RST_CNT_FAULTS 32 16 1 := .of_bumpSat _ _ _ _ (by decide)
  generalize s.bumpSat Reg.RST_CNT_FAULTS 32 16 1 = v at moved counted
  obtain ⟨rest, lanes, retired⟩ := State.MovedOff.moveOff (v.setStack (keyOfStack n) { s.stack (keyOfStack n) with
    lanes := Store.put (fun _ => 0) (s.stack (keyOfStack n)).lanes pc 3
    retired := (s.stack (keyOfStack n)).retired + pages }) n (lostRuns n pc)
  rw [← moved] at rest lanes retired
  refine ⟨.before _ _ _ _ counted ?_, ?_, ?_⟩
  · rw [rest]
    rfl
  · rw [lanes, State.stack_setStack_same, Store.get_put_same]
  · rw [retired, State.stack_setStack_same]

theorem State.readers_end (s : State) (rids : List Nat) {t : State}
    (ended : t = rids.foldl (fun (t : State) rid => t.endWith rid stResourceFailed) (s.bumpSat Reg.RST_CNT_FAULTS 32 16 1)) :
    CountedSat s t Reg.RST_CNT_FAULTS 32 16 1 ∧ t.hbm.dram = s.hbm.dram ∧ ∀ rid ∈ rids, t.DoneWith rid := by
  have counted : CountedSat s (s.bumpSat Reg.RST_CNT_FAULTS 32 16 1) Reg.RST_CNT_FAULTS 32 16 1 := .of_bumpSat _ _ _ _ (by decide)
  have hbm : (s.bumpSat Reg.RST_CNT_FAULTS 32 16 1).hbm = s.hbm := rfl
  generalize s.bumpSat Reg.RST_CNT_FAULTS 32 16 1 = v at ended counted hbm
  subst ended
  have quiet := (Keeps.foldl (φ := ⟨true, true, true, true, false⟩) (f := fun (t : State) rid => t.endWith rid stResourceFailed) (l := rids)
    (Keeps.refl v) fun _ _ hs => hs.endWith).quiet rfl
  refine ⟨.before _ _ _ _ counted ?_, quiet.dram.trans (by rw [hbm]), State.foldl_endWith_ends _ _ _⟩
  unfold State.regF
  rw [quiet.faults _ (by decide)]

/-! ### Temperature -/

/-- The runs of a list are sealed. -/
theorem Stack.foldl_setSeal_sealed (l : List Nat) (st : Stack) (j : Nat) :
    (l.foldl (fun (q : Stack) r => q.setSeal r true) st).runSealed j = (st.runSealed j || l.any (fun r => r == j)) := by
  induction l generalizing st with
  | nil => exact (Bool.or_false _).symm
  | cons r l ih =>
    rw [List.foldl_cons, ih, Stack.runSealed_setSeal, List.any_cons]
    by_cases here : j = r
    · simp [here]
    · rw [if_neg here, beq_false_of_ne (Ne.symm here), Bool.false_or]

theorem Stack.foldl_setSeal_hot (l : List Nat) (st : Stack) : (l.foldl (fun (q : Stack) r => q.setSeal r true) st).hot = st.hot :=
  List.foldlRecOn (motive := fun q : Stack => q.hot = st.hot) l _ rfl fun q h r _ => by
    refine Eq.trans ?_ h
    unfold Stack.setSeal
    dsimp only
    split <;> rfl

/-- The runs that a test reserved, as numbers. -/
theorem any_reserved (l : List (Fin 262144)) (j : Nat) :
    (do let u ← l; pure u.val : List Nat).any (fun r => r == j) = l.any (fun u => u.val == j) := by
  rw [List.bind_eq_flatMap, List.any_flatMap]
  exact congrArg l.any (funext fun u => Bool.or_false _)

end Sys2Proof.Machine

section Settled
open Sys2Proof Sys2Proof.Machine

/-- Settles O47: what the codes correct is counted, a transient error runs its phase again, and a lane that fails is remapped, moved off or
ends its readers. -/
theorem stacksRepaired : Obligations.StacksRepaired := by
  unfold Obligations.StacksRepaired
  refine ⟨?patrol, fun n ondie ctrl part s done idle => ⟨_, exec_hbmPatrol_done n ondie ctrl part done idle, rfl⟩, ?transient, ?lanes,
    ?trained, ?temperature⟩
  case patrol =>
    intro n ondie ctrl last s due
    obtain ⟨a, b, rfl, rfl, runs⟩ := exec_hbmPatrol_counts n ondie ctrl last due
    refine ⟨_, runs _ _ rfl rfl, ?_⟩
    exact s.patrol_ends last rfl rfl
  case transient =>
    intro n rid row spare pages c s r held running more noParts plain
    refine ⟨_, exec_hbmUncorrectableRead_transient n rid row ⟨spare, pages⟩ c s, ?_⟩
    exact State.transient_reruns (instKey_mod (by decide) _) (instKey_mod (by decide) _) held running more noParts plain rfl
  case lanes =>
    intro n pc pages s
    refine ⟨fun spare => ⟨_, exec_laneRemap_spare n pc pages spare, ?_⟩, fun both room => ⟨_, exec_laneRemap_moves n pc pages both room, ?_⟩,
      fun both full => ⟨_, exec_laneRemap_ends n pc pages both full, ?_⟩⟩
    · exact ⟨rfl, s.spare_takes (keyOfStack n) pc rfl⟩
    · exact s.pages_move n pc pages rfl
    · exact s.readers_end _ rfl
  case trained =>
    intro n pc s
    refine ⟨_, rfl, rfl, ?_, fun q other => ?_, fun j other => State.stack_setStack_other (s := s) _ _ _ other⟩
    · rw [State.stack_setStack_same]
      simp
    · rw [State.stack_setStack_same]
      simp [other]
  case temperature =>
    intro n temp tested s
    refine ⟨_, rfl, rfl, ?_, fun r => ?_, fun j other => State.stack_setStack_other (s := s) _ _ _ other⟩
    · rw [State.stack_setStack_same]
      split
      · rw [Stack.foldl_setSeal_hot]
      · rfl
    · rw [State.stack_setStack_same]
      cases n.spouting with
      | false => exact (Bool.or_false _).symm
      | true =>
        rw [if_pos rfl, Stack.foldl_setSeal_sealed, any_reserved, Bool.true_and]
        rfl

end Settled
end

section
/-! CLAIM. The pages of a slice that move out of its granules: why an array held twice may lose its entries (R453). -/

set_option Elab.async false

namespace Sys2Proof.Machine

/-! ### A state in which an array is held twice

Slice 0 is to give up granule 0 of stack 0 in Basin 0. The store of block arrays of its index 0 holds array 1 twice, which no rule of
the claim excludes: first without entries in stack 1, then with one entry in stack 0, with a run in that granule. The second one moves,
as a whole, for the slice keeps no granule of the stack, and takes the place of the first. -/

/-- The array that is found under its number. -/
def foundArr : BlkArr := { inflow := false, slot := 0, gen := 0, stamp := 0, basin := 0, stack := 1, ents := [], first := 0 }

/-- The array that lies behind it and moves. -/
def hiddenArr : BlkArr := { foundArr with stack := 0, ents := [{ sketch := 0, lid := 0, sidx := 0, seq := 0 }] }

/-- Index 0, with the two arrays of one number. -/
def doubleIndex : Index :=
  { desc := { metric := .ip, code := .int8, width := 8, dim := 8, slice := 0, place := 0, spout := true, listCap := 1, rowCap := 1, shard := 0 }
    state := .ready
    arrs := [(1, foundArr), (1, hiddenArr)] }

def doubleState : State := { State.reset with
  indexes := [(0, doubleIndex)]
  basins := [(0, { Basin.reset with state := 0 })]
  slices := { State.reset.slices with held := [⟨0, 0, 0, 0⟩], leaving := [⟨⟨0, 0, 0, 0⟩, false⟩] }
  hbm := { State.reset.hbm with places := [⟨0, 1, [0]⟩] } }

/-- The number of entries of the array that is found in the next state. -/
def entsFound : Res → Option Nat
  | .next t => (t.index? 0).bind (fun x => (Store.find? x.arrs 1).map (fun a => a.ents.length))
  | _ => none

theorem doubleState_entsFound : entsFound (exec (.granulePagesMoved 0 0) doubleState) = some 1 := by
  decide +kernel

end Sys2Proof.Machine

section Settled
open Sys2Proof Sys2Proof.Machine

/-- Refutes O53: in `doubleState` the pages that leave a granule are those of an array that lies behind another one of its number, whose
entries are then lost. -/
theorem not_sluiceAndMovesRun : ¬ Obligations.SluiceAndMovesRun := by
  unfold Obligations.SluiceAndMovesRun
  rintro ⟨-, -, -, -, -, -, -, moved⟩
  obtain ⟨t, next, -, -, -, -, -, kept⟩ := (moved 0 0 doubleState).2 (by decide +kernel)
  obtain ⟨y, c, index, -, arr, ents, -⟩ := kept 0 doubleIndex 1 foundArr rfl rfl
  have found := doubleState_entsFound
  rw [next] at found
  have one : (t.index? 0).bind (fun x => (Store.find? x.arrs 1).map (fun a => a.ents.length)) = some 1 := found
  rw [index, Option.bind_some, arr, Option.map_some, ents] at one
  exact absurd one (by decide)

end Settled
end

section
/-! CLAIM. The removal of an index: why it may take with it what another index holds (R126). -/

set_option Elab.async false

namespace Sys2Proof.Machine

/-! ### A state in which a part is held twice

Index 0 drains and is not used any more. The store of parts holds part 1 twice, which no rule of the claim excludes: first a part on
index 1, then one on index 0. The removal of index 0 ends the second one by its number, and so the first one, whose end frees what no
epoch in use of index 1 sees: its one block array, which no slot names. -/

/-- A part on an index. -/
def partOn (i : Byte) : PartIn :=
  { kind := .gather, body := List.replicate 28 0 ++ [i], port := 0, src := 0, slice := none, tAccept := 0 }

/-- An index of slice 0 with its state and its block arrays. -/
def bareIndex (state : IdxState) (arrs : Store BlkArr) : Index :=
  { desc := { metric := .ip, code := .int8, width := 8, dim := 8, slice := 0, place := 0, spout := true, listCap := 1, rowCap := 1, shard := 0 }
    state := state
    arrs := arrs }

/-- The index beside, with one block array that nothing refers to. -/
def besideIndex : Index :=
  bareIndex .ready [(1, { inflow := false, slot := 0, gen := 0, stamp := 0, basin := 0, stack := 0, ents := [], first := 0 })]

def removalState : State := { State.reset with
  indexes := [(0, bareIndex .draining []), (1, besideIndex)]
  partsIn := [(1, partOn 1), (1, partOn 0)] }

/-- The number of block arrays of index 1 in the next state. -/
def arrsBeside : Res → Option Nat
  | .next t => (t.index? 1).map (fun x => x.arrs.length)
  | _ => none

theorem removalState_arrsBeside : arrsBeside (exec (.indexDestroyDone 0) removalState) = some 0 := by
  decide +kernel

end Sys2Proof.Machine

section Settled
open Sys2Proof Sys2Proof.Machine

/-- Refutes O56: in `removalState` the removal of index 0 ends a part on index 1 that hides one of its number on index 0, and what no
epoch of index 1 sees goes with it. -/
theorem not_commitsTakeEffect : ¬ Obligations.CommitsTakeEffect := by
  unfold Obligations.CommitsTakeEffect
  rintro ⟨-, -, -, -, -, -, -, -, -, -, -, -, -, -, -, -, -, -, -, -, -, -, -, -, removed, -⟩
  obtain ⟨t, next, -, others⟩ := (removed 0 (bareIndex .draining []) removalState rfl rfl).2 (by decide +kernel)
  have arrs := removalState_arrsBeside
  rw [next] at arrs
  have none_ : (t.index? 1).map (fun x => x.arrs.length) = some 0 := arrs
  rw [others 1 (by decide)] at none_
  exact absurd none_ (by decide +kernel)

end Settled
end
